-- ==== Sys2Proof/Word.lean ====
section
/-! DEFINITION. The words of the Vangoz and the sparse tables that hold like things by number
(00_scope.md R6, R8; 14_object_dictionary.md R358). -/

namespace Sys2Proof

/-- One octet, the smallest addressed unit (R10). -/
abbrev Byte := BitVec 8
/-- U16 of Table 00-4. -/
abbrev U16 := BitVec 16
/-- U32 of Table 00-4; TSPAN and TUS have the same width. -/
abbrev U32 := BitVec 32
/-- U64 of Table 00-4. -/
abbrev U64 := BitVec 64

/-- Things of one kind held by number: a list of (number, value) with the numbers rising and no value
equal to the default of the table, so that equal tables are equal data. -/
abbrev Tab (α : Type) := List (Nat × α)

/-- A sparse byte memory in the form of `Tab`: addresses rising, no byte 0x00 listed (log 8). -/
abbrev Mem := List (Nat × Byte)

end Sys2Proof
end

