-- ==== Sys2Proof/Syntax.lean ====
section
/-! DEFINITION. The commands of the block: one constructor per row of spec/opcode_table.json, in the order
of the table, with the operands the spec's rules give each operation or event. The table gives no row
operands or bits; which values a command carries is the model's reading of the row's rule (log 7). -/

namespace Sys2Proof

/-- The two L-dies (R16). -/
inductive Die where
  | a | b
  deriving DecidableEq, Repr

/-- The monitored rails (Table 13-1). -/
inductive Rail where
  | ca | cb | v18 | v33 | mem | vin | vfld (d : Fin 4) | vbat
  deriving DecidableEq, Repr

/-- The PLLs of Tables 12-6 and 12-8. -/
inductive Pll where
  | pmu | a | b | mem
  deriving DecidableEq, Repr

/-- The blocks whose resets Table 11-4 lists. -/
inductive Blk where
  | stitch
  | fldPort (d : Die)
  | mac (d : Die)
  | crcCh (d : Die) (c : Fin 8)
  | mgmt (d : Die)
  | memPort (d : Die)
  | lDie (d : Die)
  | mDie
  deriving DecidableEq, Repr

/-- A receiver of the P-die heartbeat (R23). -/
inductive HbRx where
  | lDie (d : Die)
  | fDie (d : Fin 4)
  deriving DecidableEq, Repr

/-- Where an overtemperature stood (R210, R293). -/
inductive TempWho where
  | pDie
  | fDie (d : Fin 4)
  deriving DecidableEq, Repr

/-- Which lock-out of 60 s or 300 s ends (R89, R372, R378, R452, R469). -/
inductive Lockout where
  | confirm
  | seat (s : Fin 8)
  | pass (s : Fin 8)
  | svc
  | test
  deriving DecidableEq, Repr

/-- A clock source with a start rule (R321). -/
inductive Src where
  | refA | refB | pmu | mem
  deriving DecidableEq, Repr

/-- The clock switches of Table 12-6. -/
inductive ClkSw where
  | pmu | a | b | mem
  deriving DecidableEq, Repr

/-- The link fields of a received Stitch flit (Table 05-3); `crc` is the CRC field as it arrived. -/
structure FlitHdr where
  seq : Nat
  ack : Nat
  cvc : Nat
  ccnt : Nat
  span : Nat
  crc : Nat
  deriving DecidableEq, Repr

/-- What a flit carries besides its link fields: virtual channel, kind, tag and the 160 bits of PAYLOAD (Table 05-3). -/
structure FlitRec where
  vc : Nat
  kind : Nat
  tag : Nat
  payload : Nat
  deriving DecidableEq, Repr

/-- An Ethernet frame around its payload (R269, R272): addresses, the tag as TPID and tag control (VID, PCP), EtherType, and whether
the FCS is right. -/
structure EthHdr where
  dst : Nat
  src : Nat
  tag : Option (Nat × Nat)
  etype : Nat
  fcsOk : Bool
  deriving DecidableEq, Repr

/-- How a frame comes in: the port of the die and what stands around the payload (R268, R269). -/
structure Arrival where
  port : Fin 2
  h : EthHdr
  deriving DecidableEq, Repr

/-- What the MAC reports at the end of a frame: its length in bytes and whether the FCS is right (R269). -/
structure FrameEnd where
  len : Nat
  fcsOk : Bool
  deriving DecidableEq, Repr

/-- A tick edge: the die it stands on and the length of the span that ends, in ns, as the own reference of that die measures it (R47). -/
structure TickEdge where
  die : Die
  meas : Nat
  deriving DecidableEq, Repr

/-- A compare record (R146, R147). -/
inductive CmpRec where
  | group (g sig : Nat)
  | fdie (d : Fin 4) (cmd opreq : Nat)
  | telegram (conn : Nat) (fields : List Byte)
  deriving DecidableEq, Repr

/-- One flit of a compare record (R146, R147): a group signature, the two words of an F-die, or one of the 4 flits of a telegram. -/
inductive CmpFlit where
  | group (g sig : Nat)
  | fdie (d : Fin 4) (cmd opreq : Nat)
  | part (conn : Nat) (bytes : List Byte)
  deriving DecidableEq, Repr

/-- A pairing record or one of the 5 flits of the full record of a copy (R281). -/
inductive PairRec where
  | digest (conn seq epoch boot len crc : Nat)
  | full (conn : Nat) (bytes : List Byte)
  deriving DecidableEq, Repr

/-- One axis of a position flit: position and flag byte (R220). -/
structure PosRec where
  pos : Nat
  flags : Nat
  deriving DecidableEq, Repr

/-- A Bridle request frame as received (14_object_dictionary.md R361). The operation is the command's;
`crc` is the CRC field as it arrived. -/
structure Frame where
  /-- network or HSPI transport: 0 HSPI, 1 and 2 the networks -/
  tr : Nat
  /-- source address as an IPv6 or IPv4-mapped IPv6 number, and source UDP port; 0 over HSPI (R359, R371) -/
  addr : Nat
  port : Nat
  magic : Nat
  ver : Nat
  seat : Nat
  status : Nat
  reqId : Nat
  token : Nat
  len : Nat
  rsvd : Nat
  payload : List Byte
  crc : Nat
  deriving DecidableEq, Repr

/-- A service frame as received (19_update.md R451). -/
structure SvcFrame where
  magic : Nat
  status : Nat
  session : Nat
  rsvd : Nat
  len : Nat
  payload : List Byte
  crc : Nat
  deriving DecidableEq, Repr

/-- The commands, in the table's order. -/
inductive Instr where
  | vinRise (mv strapMv : Nat)
  | bootStepComplete
  | bootStepTimeout
  | bootRetry
  | resetNLow
  | resetNRelease
  | pfwLatch (mv : Nat)
  | powerFailRecordDone (d : Die)
  | pfwClear (mv : Nat)
  | vinOff (mv : Nat)
  | powerDownStart
  | powerDownStep
  | railExcursion (r : Rail) (mv : Nat)
  | modeReqConfigure (seat : Fin 8)
  | modeReqRun (seat : Fin 8)
  | modeReqSafe (seat : Fin 8)
  | modeReqService (seat : Fin 8)
  | modeRequestTake
  | runEntry
  | runRequestLapse
  | safeEntryAfterStop
  | safeEntry
  | pwrReqActive (seat : Fin 8)
  | pwrReqSleep (seat : Fin 8)
  | pwrReqDeepSleep (seat : Fin 8)
  | powerStateChange
  | tick (e : TickEdge)
  | phaseAEnd (d : Die)
  | phaseEEnd (d : Die)
  | commitPoint (d : Die)
  | lateCommitLimit (d : Die)
  | jobComplete (d : Die) (lane : Fin 17)
  | laneError (d : Die) (lane : Fin 17)
  | tickTimestampRx (d : Die) (h : FlitHdr) (ts lastCommit : Nat)
  | inputSupervisionFlitRx (d : Die) (h : FlitHdr) (tag states : Nat) (codes : List Nat)
  | outputSupervisionFlitRx (d : Die) (h : FlitHdr) (fd : Fin 4) (codes : List Nat)
  | compareRecordRx (d : Die) (h : FlitHdr) (r : CmpFlit)
  | readyRx (d : Die) (h : FlitHdr)
  | pairingRecordRx (d : Die) (h : FlitHdr) (r : PairRec)
  | positionRecordRx (d : Die) (h : FlitHdr) (first : Nat) (recs : List PosRec)
  | localisationRecordRx (d : Die) (h : FlitHdr) (index : Nat) (bytes : List Byte)
  | replayRecordRx (d : Die) (h : FlitHdr) (r : CmpFlit)
  | forwardedWriteRx (d : Die) (h : FlitHdr) (id : Nat)
  | stateTransferRx (d : Die) (h : FlitHdr)
  | stitchFlitCrcError (d : Die)
  | stitchRetryTimeout (d : Die)
  | retrainComplete
  | stitchLaneTrainFail (d : Die) (lane : Fin 4)
  | syncRx (d : Die) (port : Fin 2) (gmNs : Nat) (offset step : Int)
  | syncReceiptTimeout (d : Die)
  | holdoverExpire
  | spanKWrite (seat : Fin 8) (v : Nat)
  | tickOfsWrite (seat : Fin 8) (v : Nat)
  | tickMarkRx (fd : Fin 4) (d : Die) (t : Nat)
  | fieldImageRx (d : Die) (fd : Fin 4)
  | captureLockEnd (d : Die) (n : Fin 132)
  | fieldInputEdge (d : Die) (n : Fin 132) (level : Bool) (cyc : Nat)
  | debounceExpire (d : Die) (n : Fin 132)
  | ossdPulseFilterExpire (d : Die) (n : Fin 132)
  | ossdSilentExpire (d : Die) (n : Fin 132)
  | testPulseStart (s : Fin 32)
  | testPulseEnd (s : Fin 32)
  | tpWindowOpen (d : Die) (s : Fin 32)
  | tpWindowEnd (d : Die) (s : Fin 32)
  | adcSample (d : Die) (n : Fin 132) (mvBall mvMid ma : Nat)
  | adcReferenceCheck (fd : Fin 4) (pass : Bool)
  | cosHirqClear (seat : Fin 8) (word : Fin 5) (mask : Nat)
  | cmdFrameRx (d : Die) (fd : Fin 4) (frame : BitVec 128)
  | keepTokenExpire (d : Die) (fd : Fin 4)
  | tripAssert (line : Die)
  | tripRelease
  | vfldLow (fd : Fin 4) (mv : Nat)
  | vfldRecover (fd : Fin 4) (mv : Nat)
  | currentLimitTrip (n : Fin 128)
  | switchOvertemp (d : Die) (n : Fin 128)
  | gateDriveLoss (fd : Fin 4)
  | fdieOvercurrent (fd : Fin 4) (ma : Nat)
  | fdieOvertemp (fd : Fin 4)
  | offPulseStart (d : Die) (n : Fin 128)
  | offPulseEnd (d : Die) (n : Fin 128)
  | outputCodeClear (d : Die) (n : Fin 128)
  | channelModeWrite (d : Die) (n : Fin 128) (mode : Nat)
  | holdModeEnter (d : Die)
  | holdFrameSend (d : Die)
  | holdTimeout (d : Die)
  | heartbeatLoss (rx : HbRx)
  | safeTelegramRx (d : Die) (port : Fin 2) (h : EthHdr) (body : List Byte) (ingress : Nat)
  | positionTelegramRx (d : Die) (rx : Arrival) (body : List Byte) (ingress : Nat)
  | connWatchdogExpire (d : Die) (inst : Nat)
  | loneBudgetExpire (d : Die) (inst : Nat)
  | egressLost (d : Die) (port : Fin 2) (conn epoch seq : Nat)
  | linkDown (d : Die) (port : Fin 2)
  | linkUp (d : Die) (port : Fin 2) (gigabit : Bool)
  | telegramReplay (d : Die) (port : Fin 2)
  | frameForward (d : Die) (port : Fin 2) (dst src : Nat) (tag : Option (Nat × Nat)) (etype : Nat) (fin : FrameEnd)
  | fdbAgeout (d : Die) (mac : Nat)
  | arpRequestRx (d : Die) (rx : Arrival) (senderMac senderIp targetIp : Nat)
  | neighbourDiscoveryRx (d : Die) (rx : Arrival) (senderMac senderIp targetIp : Nat)
  | echoRequestRx (d : Die) (rx : Arrival) (v6 : Bool) (frags senderIp targetIp : Nat) (data : List Byte)
  | faultLatch (bit : Fin 64)
  | fswClr (seat : Fin 8) (mask : Nat)
  | fswSecClr (seat : Fin 8) (mask : Nat)
  | shadowEnd (blk : Blk)
  | leaseRequest (res party : Nat)
  | leaseRenew (res party : Nat)
  | leaseRelease (res party : Nat)
  | leaseExpire (res : Nat)
  | readmitPowerRestore (d : Die)
  | readmitBootDone (d : Die) (ok : Bool)
  | readmitTimeout (d : Die)
  | mdieReadmit
  | girthHeartbeatTimeout (d : Die)
  | girthChallenge (word : Nat)
  | girthResponseRx (d : Die) (v : Nat)
  | girthResponseTimeout (d : Die)
  | zoneRrst (seat : Fin 8) (z : Fin 64) (v : Nat)
  | stdinVal (seat : Fin 8) (slot : Fin 256) (v : Nat)
  | discTimerExpire (d : Die) (inst : Nat)
  | lockMismatchExpire (d : Die) (inst : Nat)
  | muteTimeExpire (d : Die) (inst : Nat)
  | overrideTimeExpire (d : Die) (inst : Nat)
  | contactTExpire (d : Die) (inst : Nat)
  | modeselDiscExpire (d : Die) (inst : Nat)
  | edmTimeout (d : Die) (inst : Nat)
  | timerPtExpire (d : Die) (inst : Nat)
  | outsafeDlyExpire (d : Die) (inst : Nat)
  | stdinStale (d : Die) (inst : Nat)
  | streamLost (d : Die) (inst : Nat)
  | stoFbTimeout (d : Die) (inst : Nat)
  | ss1StopTimeout (d : Die) (inst : Nat)
  | slsAdaptExpire (d : Die) (inst : Nat)
  | brakeEngageExpire (d : Die) (inst : Nat)
  | sbcFbTimeout (d : Die) (inst : Nat)
  | sbtTestTimeout (d : Die) (inst : Nat)
  | sbtIntervalExpire (d : Die) (inst : Nat)
  | groupEngageExpire (d : Die) (inst : Nat)
  | tensionFilterExpire (d : Die) (inst : Nat)
  | crystalFirstValidCycle (d : Die) (us : Nat)
  | crystalRelease (d : Die)
  | pllLock (p : Pll)
  | startRulePass (src : Src)
  | startAttemptFail (src : Src)
  | oscRestart (src : Src)
  | clockFail (dom : Fin 18) (die : Die)
  | clockSwitchComplete (sw : ClkSw) (forced : Bool)
  | clkGate (seat : Fin 8) (n : Fin 18) (v : Nat)
  | clkobsSelect (seat : Fin 8) (sub v : Nat)
  | read (f : Frame)
  | write (f : Frame)
  | readBlock (f : Frame)
  | writeBlock (f : Frame)
  | subscribe (f : Frame)
  | unsubscribe (f : Frame)
  | writeApply
  | notification (sub : Nat)
  | writeFrame (whole : Bool) (op : Nat) (f : Frame)
  | readFrame (whole : Bool)
  | readStatus
  | seatChal (seat : Fin 8)
  | seatLogin (seat : Fin 8) (bytes : List Byte)
  | sessionTimeout (seat : Fin 8)
  | loPass (seat : Fin 8) (bytes : List Byte)
  | loPassNew (seat : Fin 8) (bytes : List Byte)
  | lineOwner (seat : Fin 8) (v : Nat)
  | lockoutEnd (k : Lockout)
  | persistentWriteCommit
  | registerWrite (seat : Fin 8) (idx sub v : Nat)
  | patImage (seat : Fin 8) (ofs : Nat) (data : List Byte)
  | load (seat : Fin 8)
  | discard (seat : Fin 8)
  | patternCheckDone
  | confirm (seat : Fin 8) (bytes : List Byte)
  | changeLogCommit
  | ringPush (seat : Fin 8) (data : List Byte)
  | ringRead (seat : Fin 8) (ofs count : Nat)
  | ringConsume (seat : Fin 8) (n : Nat)
  | free (seat : Fin 8)
  | reset (seat : Fin 8)
  | ringAlloc (d : Die) (seat : Fin 8) (v : Nat)
  | jrnDataRead (d : Die) (seat : Fin 8) (ofs count : Nat)
  | journalResume (d : Die)
  | crcEnable (seat : Fin 8) (x : Die) (c : Fin 8)
  | crcAbort (seat : Fin 8) (x : Die) (c : Fin 8)
  | crcPreset (seat : Fin 8) (x : Die) (c : Fin 8) (v : Nat)
  | crcParameterWrite (seat : Fin 8) (x : Die) (c : Fin 8) (sub v : Nat)
  | crcDescriptorDone (x : Die) (c : Fin 8)
  | timerMatch (x : Die) (t : Fin 8)
  | timerReload (x : Die) (t : Fin 8)
  | tmrCtrl (seat : Fin 8) (x : Die) (t : Fin 8) (v : Nat)
  | tmrCmp (seat : Fin 8) (x : Die) (t : Fin 8) (v : Nat)
  | tmrCmpNext (seat : Fin 8) (x : Die) (t : Fin 8) (v : Nat)
  | tmrCount (seat : Fin 8) (x : Die) (t : Fin 8) (v : Nat)
  | otpProg (seat : Fin 8) (v : Nat)
  | otpProgramDone (ok : Bool)
  | otpData (seat : Fin 8)
  | lcReq (seat : Fin 8) (v : Nat)
  | lcResp (seat : Fin 8) (target : Nat) (sig : List Byte)
  | lcChal (seat : Fin 8)
  | keyPut (seat : Fin 8) (bytes : List Byte)
  | keyErase (seat : Fin 8) (slot : Nat)
  | eraRecordWrite (ok : Bool)
  | tamper (i : Fin 4)
  | granuleDone (d : Die) (item : Nat) (pass : Bool)
  | roundLate
  | stReq (seat : Fin 8) (v : Nat)
  | chal (f : SvcFrame)
  | auth (f : SvcFrame)
  | manifest (f : SvcFrame)
  | chunk (f : SvcFrame)
  | abort (f : SvcFrame)
  | activate (f : SvcFrame)
  | stagingComplete
  | updateBootDone (d : Die) (ok : Bool)
  | activationWaitTimeout
  | flipDeferEnd
  | svcSessionTimeout
  | testOpen (seat : Fin 8) (v : Nat)
  | testChal (seat : Fin 8)
  | testResp (seat : Fin 8) (code : Nat) (sig : List Byte)
  | pllUnlock (p : Pll)
  | railReturn (r : Rail) (mv : Nat)
  | overtemperatureEnd (who : TempWho)
  | gateDriveReturn (fd : Fin 4)
  | supplyCurrentReturn (fd : Fin 4)
  | tamperRelease (i : Fin 4)
  | vbatBrownOut
  | blockResetComplete (blk : Blk)
  | dischargeSinkRelease (n : Fin 128)
  | gateControlEntry (d : Die) (port : Fin 2)
  | pdelayRx (d : Die) (port : Fin 2) (delay : Nat)
  | announceRx (d : Die) (port : Fin 2) (domain priority gmId : Nat)
  | forwardedResponseRx (d : Die) (h : FlitHdr) (id : Nat)
  | zeroiseReadbackDone
  | zeroiseTimeout
  deriving DecidableEq, Repr

end Sys2Proof
end

