-- ==== Sys2Proof/Machine/Tab.lean ====
section
/-! DEFINITION. Reading and writing the sparse tables. A number that is not listed holds the table's
default, which the reader and the writer name; writing the default removes the entry. -/

namespace Sys2Proof

/-- The value at number `k`, `dflt` where none is listed. -/
def Tab.get {α : Type} (dflt : α) : Tab α → Nat → α
  | [], _ => dflt
  | (j, v) :: t, k => if j = k then v else Tab.get dflt t k

/-- Drop the entry of number `k`. -/
def Tab.del {α : Type} : Tab α → Nat → Tab α
  | [], _ => []
  | (j, v) :: t, k => if j = k then Tab.del t k else (j, v) :: Tab.del t k

/-- Put an entry at its place, the numbers rising. -/
def Tab.ins {α : Type} : Tab α → Nat → α → Tab α
  | [], k, v => [(k, v)]
  | (j, w) :: t, k, v => if k < j then (k, v) :: (j, w) :: t else (j, w) :: Tab.ins t k v

/-- The table with `v` at number `k`. -/
def Tab.set {α : Type} [DecidableEq α] (dflt : α) (t : Tab α) (k : Nat) (v : α) : Tab α :=
  if v = dflt then Tab.del t k else Tab.ins (Tab.del t k) k v

/-- The table with the value at `k` replaced by `f` of it. -/
def Tab.upd {α : Type} [DecidableEq α] (dflt : α) (t : Tab α) (k : Nat) (f : α → α) : Tab α :=
  Tab.set dflt t k (f (Tab.get dflt t k))

/-- Every listed value replaced. The default stays the default where `f dflt = dflt`. -/
def Tab.mapV {α : Type} [DecidableEq α] (dflt : α) (f : α → α) : Tab α → Tab α
  | [] => []
  | (j, v) :: t => if f v = dflt then Tab.mapV dflt f t else (j, f v) :: Tab.mapV dflt f t

/-- The canonical form: numbers strictly rising from `lo`, no default listed. -/
def Tab.wfFrom {α : Type} [DecidableEq α] (dflt : α) : Nat → Tab α → Bool
  | _, [] => true
  | lo, (j, v) :: t => decide (lo ≤ j) && decide (v ≠ dflt) && Tab.wfFrom dflt (j + 1) t

/-- The canonical form of a table. -/
def Tab.wf {α : Type} [DecidableEq α] (dflt : α) (t : Tab α) : Bool := Tab.wfFrom dflt 0 t

/-- Read one byte (log 8: a byte nothing has written reads 0x00). -/
def Mem.read (m : Mem) (a : Nat) : Byte := Tab.get 0#8 m a

/-- Write one byte, keeping the canonical form. -/
def Mem.write (m : Mem) (a : Nat) (b : Byte) : Mem := Tab.set 0#8 m a b

/-- The canonical form of a memory. -/
def Mem.wf (m : Mem) : Bool := Tab.wf 0#8 m

/-- `n` bytes from address `a`. -/
def Mem.readN (m : Mem) (a : Nat) : Nat → List Byte
  | 0 => []
  | n + 1 => Mem.read m a :: Mem.readN m (a + 1) n

/-- The bytes of a list from address `a` up. -/
def Mem.writeL (m : Mem) (a : Nat) : List Byte → Mem
  | [] => m
  | b :: bs => Mem.writeL (Mem.write m a b) (a + 1) bs

/-- Value of a little-endian byte list (R10). -/
def leNat : List Byte → Nat
  | [] => 0
  | b :: bs => b.toNat + 256 * leNat bs

/-- Value of a big-endian byte list (R272). -/
def beNat (bs : List Byte) : Nat := leNat bs.reverse

/-- `n` little-endian bytes of a number. -/
def leBytes : Nat → Nat → List Byte
  | 0, _ => []
  | n + 1, v => BitVec.ofNat 8 v :: leBytes n (v / 256)

/-- `n` big-endian bytes of a number. -/
def beBytes (n v : Nat) : List Byte := (leBytes n v).reverse

/-- Bytes `o` to `o + n − 1` of a list. -/
def slice (bs : List Byte) (o n : Nat) : List Byte := (bs.drop o).take n

/-- Little-endian field of `n` bytes at offset `o`. -/
def leAt (bs : List Byte) (o n : Nat) : Nat := leNat (slice bs o n)

/-- Big-endian field of `n` bytes at offset `o`. -/
def beAt (bs : List Byte) (o n : Nat) : Nat := beNat (slice bs o n)

/-- Bit `i` of a number. -/
def bitAt (v i : Nat) : Bool := v / 2 ^ i % 2 == 1

/-- A Bool as 0 or 1 (BOOL of Table 00-4). -/
def b2n (b : Bool) : Nat := if b then 1 else 0

/-- Saturating increment of a counter of width `w`. -/
def satInc (w v : Nat) : Nat := if v + 1 < 2 ^ w then v + 1 else 2 ^ w - 1

/-- Division rounded up. -/
def ceilDiv (a b : Nat) : Nat := if b = 0 then 0 else (a + b - 1) / b

end Sys2Proof
end

