-- ==== Sys2Proof/Machine/PatTypes.lean ====
section
/-! DEFINITION. The Pattern as the dies read it from its canonical image (03_pattern_engine.md R67,
R498) and the internal state of every block type (05_channel_diversity.md R495). -/

namespace Sys2Proof

/-- The types of a variable (R8). -/
inductive Ty where
  | bool | s14 | u14
  deriving DecidableEq, Repr

/-- One point of a MAP: bit offset, type, safe value (R498). -/
structure MapPt where
  ofs : Nat
  ty : Ty
  safe : Int
  deriving DecidableEq, Repr

/-- Parameters of CONN_IN and CONN_OUT (Table 04-8). Those of the other direction are 0. -/
structure ConnPar where
  connId : Nat
  period : Nat
  phase : Nat
  wd : Nat
  pairWin : Nat
  loneT : Nat
  len : Nat
  map : List MapPt
  auth : Nat
  reack : Nat
  deriving DecidableEq, Repr

/-- Parameters of AXIS (Table 08-1). -/
structure AxisPar where
  str1 : Nat
  slot1 : Nat
  str2 : Nat
  slot2 : Nat
  ofs1 : Nat
  ofs2 : Nat
  sign : Nat
  win : Nat
  lag : Nat
  rotary : Nat
  vMax : Nat
  stopCat : Nat
  spdSh : Nat
  deriving DecidableEq, Repr

/-- Parameters of SS1 and SS2 (Table 08-1); SS2 has MODE 1. -/
structure RampPar where
  mode : Nat
  tSto : Nat
  tDly : Nat
  dec : Nat
  tol : Nat
  vZero : Nat
  deriving DecidableEq, Repr

/-- One follower of a rein group (Table 09-1). -/
structure Follower where
  axis : Nat
  ratio : Nat
  tol : Nat
  k : Nat
  deriving DecidableEq, Repr

/-- Parameters of REIN (Table 09-1). -/
structure ReinPar where
  group : Nat
  refAx : Nat
  fol : List Follower
  gstop : Nat
  mon : Nat
  tEng : Nat
  dcMask : Nat
  deriving DecidableEq, Repr

/-- A block type with its parameters, in the code order of Table 04-1 (R92, R498). Times are in µs,
speeds in MU/s; `ax` is AXIS_ID. -/
inductive Block where
  | estop (mode discT : Nat)
  | guard (mode discT startTest : Nat)
  | glock (principle discT discTL : Nat)
  | ossd (mode discT : Nat)
  | mute2 (tPair tMute tOvr : Nat)
  | mute4 (tPair tMute tOvr dir : Nat)
  | twohand (typ syncT contactT : Nat)
  | enable3 (discT : Nat)
  | modesel (n discT : Nat)
  | reset (tMin tMax : Nat)
  | edm (tEdm nFb : Nat)
  | and (n : Nat)
  | or (n : Nat)
  | not
  | xor (n : Nat)
  | rs
  | ton (pt : Nat)
  | tof (pt : Nat)
  | tp (pt : Nat)
  | ctu (pv : Nat)
  | cmp14 (signed op : Nat) (ofs : Int) (hys : Nat)
  | sel (n : Nat) (safe : Int)
  | zone (seat startMode latch remoteRst : Nat)
  | connIn (p : ConnPar)
  | connOut (p : ConnPar)
  | axis (p : AxisPar)
  | encpair (ax posTol dTol : Nat)
  | sto (ax tFb : Nat)
  | ss1 (ax : Nat) (p : RampPar)
  | ss2 (ax : Nat) (p : RampPar)
  | sos (ax sosPos sosV : Nat)
  | sls (ax : Nat) (lims : List Nat) (tAdapt react : Nat)
  | slp (ax : Nat) (pMin pMax : Int) (band vApp react : Nat)
  | sdi (ax dir tol react : Nat)
  | sbc (ax brk1 brk2 tEng tFb : Nat)
  | sbt (ax tTest pos intervalH : Nat)
  | ssm (ax vSsm hys : Nat)
  | rein (p : ReinPar)
  | tension (group : Nat) (tLo tHi : Int) (tFilt : Nat)
  | outsafe (target dly holdPermit : Nat)
  | outstd (target : Nat)
  | stdin (slot seat ty stale : Nat) (safe : Int)
  | stdout (slot : Nat)
  | diag (mask gap : Nat)
  deriving DecidableEq, Repr

/-- The edge that feeds one input port: its source variable and whether it is a feedback edge (R67). -/
structure InEdge where
  port : Nat
  var : Nat
  fb : Bool
  deriving DecidableEq, Repr

/-- One instance in Pattern order. `outs` are the variables it produces, in the order of the variable
table (DEDUCED, log 12); `zone` is 255 for none. -/
structure Inst where
  id : Nat
  block : Block
  zone : Nat
  group : Nat
  nIn : Nat
  nOut : Nat
  ins : List InEdge
  outs : List Nat
  deriving DecidableEq, Repr

/-- One variable record (R67). `producer` is 0xFFFF for a snapshot input. -/
structure Var where
  id : Nat
  ty : Ty
  cls : Nat
  jmode : Nat
  init : Int
  producer : Nat
  deriving DecidableEq, Repr

/-- One zone record (R498). -/
structure ZoneRec where
  zone : Nat
  seat : Nat
  startMode : Nat
  remoteRst : Nat
  inst : Nat
  latch : Nat
  deriving DecidableEq, Repr

/-- One channel record of the channel map (R498). -/
structure ChanRec where
  n : Nat
  mode : Nat
  kind : Nat
  tpSrc : Nat
  deb : Nat
  ossdPw : Nat
  ossdTmax : Nat
  opPhase : Nat
  rbSettle : Nat
  opW : Nat
  loadL : Nat
  loadI : Nat
  loadOffs : Nat
  olMin : Nat
  holdPermit : Nat
  portHist : Nat
  deriving DecidableEq, Repr

/-- A channel the map does not name: mode 0, kind 0, the entry defaults of Tables 06-5 and 07-8. -/
def ChanRec.unused (n : Nat) : ChanRec :=
  { n := n, mode := 0, kind := 0, tpSrc := 255, deb := 0, ossdPw := 300, ossdTmax := 0, opPhase := 0,
    rbSettle := 1000, opW := 200, loadL := 0, loadI := 500, loadOffs := 6, olMin := 0, holdPermit := 0,
    portHist := 0 }

/-- One test-pulse source record (R498). -/
structure SrcRec where
  s : Nat
  chan : Nat
  width : Nat
  phase : Nat
  deriving DecidableEq, Repr

/-- One axis record (R498). -/
structure AxisRec where
  axis : Nat
  axisInst : Nat
  encInst : Nat
  stoInst : Nat
  str1 : Nat
  str2 : Nat
  slot1 : Nat
  slot2 : Nat
  zone : Nat
  rein : Nat
  deriving DecidableEq, Repr

/-- One connection record (R498). Kind 0 inbound, 1 outbound, 2 position stream. -/
structure ConnRec where
  kind : Nat
  ports : Nat
  connId : Nat
  inst : Nat
  vid : Nat
  pcp : Nat
  len : Nat
  slots : Nat
  kfPhase : Nat
  key : Nat
  dst : Nat
  deriving DecidableEq, Repr

/-- One static forwarding record (R498). -/
structure FwdRec where
  network : Nat
  mask : Nat
  vid : Nat
  mac : Nat
  deriving DecidableEq, Repr

/-- One gate record of an egress schedule (R498). -/
structure GateRec where
  port : Nat
  mask : Nat
  dur : Nat
  deriving DecidableEq, Repr

/-- One rein record (R498). -/
structure ReinRec where
  group : Nat
  inst : Nat
  refAx : Nat
  fol : List Nat
  deriving DecidableEq, Repr

/-- What a snapshot-input variable reads. Which one a variable names lies in the channel encodings,
whose form the spec does not give (log 11). -/
inductive SnapSrc where
  /-- the agreed value of input channel `n` (0 to 131, R169) -/
  | chan (n : Nat)
  /-- point `p` of the CONN_IN instance `i` (R123) -/
  | conn (i p : Nat)
  | none
  deriving DecidableEq, Repr, Inhabited

/-- The closure of one group with its replay time in CK_TICK cycles (R154). -/
structure Closure where
  groups : List Nat
  time : Nat
  deriving DecidableEq, Repr, Inhabited

/-- What a die reads from its encoding and not from the canonical image (log 11). -/
structure Enc where
  /-- its CRC-32C is correct (R69) -/
  ok : Bool
  /-- the CRC-64 of the canonical image that it records (R69) -/
  bind : Nat
  snap : Tab SnapSrc
  /-- B_v by variable (R134, R135) -/
  sigs : Tab Nat
  /-- signatures of the parameters and constants that form variable v: the k-th at 64 v + k (R134) -/
  consts : Tab Nat
  /-- correction constants of the operations that form variable v: the k-th at 64 v + k (R138) -/
  ks : Tab Int
  /-- signatures of the limbs of the motion quantities of position q: low limb of the k-th at 16 q + 2 k, high limb after it (R223) -/
  limbs : Tab Nat
  closures : List Closure
  deriving DecidableEq, Repr, Inhabited

/-- The header counts and sizes of the canonical image (Table 03-1). -/
structure PatHdr where
  format : Nat
  library : Nat
  target : Nat
  spanKMin : Nat
  flags : Nat
  nInst : Nat
  nVar : Nat
  nEdge : Nat
  nGroup : Nat
  nZone : Nat
  nRein : Nat
  nAxis : Nat
  nConnIn : Nat
  nConnOut : Nat
  nRemIn : Nat
  nRemOut : Nat
  wA : Nat
  lA : Nat
  wB : Nat
  lB : Nat
  deriving DecidableEq, Repr

/-- The times of the channel map header (R498). -/
structure MapHdr where
  tpPeriod : Nat
  opPeriod : Nat
  vfldMax : List Nat
  deriving DecidableEq, Repr

/-- A Pattern as read from its slot. -/
structure Pattern where
  hdr : PatHdr
  insts : List Inst
  vars : List Var
  groups : List (Nat × Nat)
  zones : List ZoneRec
  map : MapHdr
  chans : List ChanRec
  srcs : List SrcRec
  axes : List AxisRec
  conns : List ConnRec
  fwds : List FwdRec
  gates : List GateRec
  reins : List ReinRec
  sig32 : Nat
  sig64 : Nat
  encA : Enc
  encB : Enc
  deriving DecidableEq, Repr

/-- A span count that runs or not: `none` while the timer does not run (R58, R495). -/
abbrev Tm := Option Nat

/-- State of one dual-contact machine (Table 04-4, R495). `code` is the FCODE of its FAULT; `k1` and `k2` (own) say which contacts were
closed and valid in the span that the state comes from. -/
structure Dual where
  st : Nat
  seen1 : Bool
  seen2 : Bool
  open2 : Bool
  tm : Tm
  code : Nat
  k1 : Bool
  k2 : Bool
  deriving DecidableEq, Repr

/-- Internal state of one instance (Table 05-9). Fields that R495 does not list (marked `own`) are the
model's, and `IState.words` leaves them out (log 13). -/
inductive IState where
  | plain
  | dual (m : Dual)
  | glock (door lock : Dual) (mis : Tm)
  /-- `sens` (own): for each sensor that is active, the spans since it rose -/
  | mute (st : Nat) (armed rose sideB : Bool) (pair run : Tm) (sens : List Tm)
  | twohand (st : Nat) (rel : Bool) (sync c1 c2 : Tm)
  | enable3 (m : Dual) (pos1 pSeen : Bool)
  | modesel (cand : Nat) (held : Tm) (fault : Bool)
  /-- `val` (own): BTN 0 never valid since entry into RUN, 1 valid, 2 its validity was lost and it has not read open since -/
  | reset (press after bad : Bool) (ns span val : Nat)
  | edm (fault : Bool) (tm : Tm)
  | timer (tm : Tm)
  | zone (latched lockout : Bool) (cnt entryNs : Nat)
  | connIn (waitAck : Bool) (wd : Nat) (lone : Tm) (boot epoch seq : Nat)
  | connOut (epoch seq : Nat)
  | axis (fault : Bool) (lost1 lost2 : Nat) (eng : Tm)
  | flag (fault : Bool)
  /-- `expect` (own): the feedback expected in the span before -/
  | sto (fault expect : Bool) (dis : Tm)
  | ramp (st : Nat) (run : Tm) (v0 : Nat)
  | sos (st h1 h2 : Nat)
  | sls (fault : Bool) (limit prev : Nat) (adapt : Tm)
  /-- `set` (own): the base of the excursion has been taken -/
  | sdi (fault set : Bool) (base1 base2 ref1 ref2 : Nat)
  /-- `last` (own): BRK of the span before -/
  | sbc (fault last : Bool) (fb : Tm)
  /-- `tq` (own): spans for which TQ has been 1; `flt` (own): FAULT held during a new test -/
  | sbt (st : Nat) (tested flt : Bool) (test tq : Tm) (s1 s2 : Nat) (age : Tm)
  /-- `dcSet` (own): the set that the span was evaluated with; `next`: the set that its image holds (R260) -/
  | rein (st cause dcSet next : Nat) (eng run : Tm)
  | tension (band lost : Nat)
  | outsafe (st : Nat) (swB : Bool) (dly : Tm)
  | stdin (age : Nat)
  | diag (last : List Int) (since : Nat)
  deriving DecidableEq, Repr

end Sys2Proof
end

