-- ==== Sys2Proof/Machine/BlockOps.lean ====
section
/-! DEFINITION. What every block evaluation reads and answers, the span timers and the saturations
(04_function_blocks.md R93 to R99). -/

namespace Sys2Proof

/-- One input port in a span: its value, the value in the last committed image (R96), the validity and
the reported fault of a field contact (R99), and whether an edge feeds it. -/
structure In where
  v : Int
  prev : Int
  valid : Bool
  faulty : Bool
  conn : Bool
  deriving DecidableEq, Repr

/-- An unconnected port that reads `d` (R94). -/
def In.open (d : Int) : In := { v := d, prev := d, valid := true, faulty := false, conn := false }

/-- The captures of a reset input on the die's own chain (R113, R414). -/
structure CapIn where
  rise : Nat
  fall : Nat
  ovRise : Bool
  ovFall : Bool
  deriving DecidableEq, Repr

/-- The span an evaluation belongs to. `dt` is SPAN_NO less that of the last committed span (R58), `first`
that no image has been committed since entry into RUN, `tspan` the span in ns. -/
structure Ctx where
  span : Nat
  dt : Nat
  first : Bool
  tspan : Nat
  firstSpan : Nat
  tickNs : Nat
  firstTickNs : Nat
  deriving DecidableEq, Repr

/-- What an evaluation leaves to be carried out at the commit of its span. -/
inductive BEv where
  /-- the block entered FAULT (R98) -/
  | fault (code : Nat)
  /-- a muting ended because of its lamp (R98) -/
  | lamp
  /-- a reject of RESET or a SEQUENCE of muting (Table 04-12) -/
  | rej
  /-- a DIAG entry (R131) -/
  | diag (vals : List Int)
  /-- a group stop of a REIN, with its cause (R254) -/
  | gstop (cause : Nat)
  /-- an entry into GSTO or FAULT under R257, with its cause -/
  | escal (cause : Nat)
  /-- an accepted deliberate reset of the zone (R304) -/
  | zoneReset
  /-- a reset ignored or refused (R84, R304) -/
  | zoneRefused (why : Nat)
  /-- the first demand of a stop: instance ID (ZONE_CAUSE) -/
  | zoneCause (inst : Nat)
  /-- a telegram of a CONN_OUT is due (R124) -/
  | send
  deriving DecidableEq, Repr

/-- What an evaluation answers: outputs in port order, next internal state, effects at the commit. Once a lane of L-B has formed them,
the outputs are coded words, and `limbs` holds the coded limbs of the state's motion quantities (R134, R223). -/
structure Res where
  outs : List Int
  st : IState
  ev : List BEv
  limbs : List Int := []
  deriving DecidableEq, Repr

/-- A Bool as a BOOL value. -/
def bi (b : Bool) : Int := if b then 1 else 0

/-- Time parameters whose range is stated as "1 span to t" (R95), in µs. -/
def Block.spanPars : Block → List Nat
  | .estop _ t => [t]
  | .guard _ t _ => [t]
  | .ossd _ t => [t]
  | .glock _ t tl => [t, tl]
  | .mute2 t _ _ => [t]
  | .mute4 t _ _ _ => [t]
  | .twohand _ s k => [s, k]
  | .enable3 t => [t]
  | .modesel _ t => [t]
  | .tp t => [t]
  | .sto _ t => [t]
  | .ss1 _ p => [p.tSto]
  | .ss2 _ p => [p.tSto]
  | .tension _ _ _ t => [t]
  | _ => []

/-- Clamp to a range (R97). -/
def clampI (lo hi x : Int) : Int := if x < lo then lo else if hi < x then hi else x

/-- Saturation to the range of a type (R97). -/
def satTy (t : Ty) (x : Int) : Int :=
  match t with
  | .bool => clampI 0 1 x
  | .s14 => clampI (-8192) 8191 x
  | .u14 => clampI 0 16383 x

/-- Whether a value lies in the range of its type (R8). -/
def inRange (t : Ty) (x : Int) : Bool := satTy t x == x

/-- The 16-bit container of a 14-bit value (R9). -/
def container (x : Int) : Nat := (x % 65536).toNat

/-- Spans of a time in µs: rounded up, at least 1 above 0 (R95). -/
def nSpans (tspan us : Nat) : Nat := if us = 0 then 0 else max 1 (ceilDiv (us * 1000) tspan)

/-- Spans of SYNC_T: rounded down, at least 1 (R95). -/
def nSpansFloor (tspan us : Nat) : Nat := max 1 (us * 1000 / tspan)

/-- Largest 32-bit count (R495). -/
def cntMax : Nat := 2 ^ 32 - 1

/-- A timer that runs while `c` holds: 0 in its start span, then the elapsed spans (R58). -/
def Tm.run (dt : Nat) (c : Bool) (t : Tm) : Tm :=
  if c then
    match t with
    | none => some 0
    | some k => some (min (k + dt) cntMax)
  else none

/-- The same without saturation, for counts that no state word holds. -/
def Tm.runN (dt : Nat) (c : Bool) (t : Tm) : Tm := if c then (match t with | none => some 0 | some k => some (k + dt)) else none

/-- The count of a timer, 0 while it does not run (R495). -/
def Tm.cnt (t : Tm) : Nat := t.getD 0

/-- The timer runs and has reached `n`. -/
def Tm.reached (t : Tm) (n : Nat) : Bool :=
  match t with
  | none => false
  | some k => decide (n ≤ k)

/-- Input `k` of a list. -/
def inp (l : List In) (k : Nat) : In := l.getD k (In.open 0)

/-- Value 1 on input `k`. -/
def on (l : List In) (k : Nat) : Bool := (inp l k).v == 1

/-- Rising edge of a BOOL input (R96). -/
def In.rise (i : In) : Bool := i.v == 1 && i.prev != 1

/-- Falling edge of a BOOL input (R96). -/
def In.fall (i : In) : Bool := i.v == 0 && i.prev != 0

/-- Outputs FLT and FCODE. -/
def fltOuts (f : Bool) (code : Nat) : List Int := [bi f, if f then (code : Int) else 0]

/-- The event of an entry into FAULT (R98). -/
def faultEv (was now : Bool) (code : Nat) : List BEv := if now && !was then [.fault code] else []

/-- A U32 as two words, low word first (R147). -/
def words32 (n : Nat) : List Nat := [n % 65536, n / 65536 % 65536]

/-- Internal state words of a dual-contact machine (Table 05-9). -/
def Dual.words (m : Dual) : List Nat :=
  [m.st, b2n m.seen1 + 2 * b2n m.seen2 + 4 * b2n m.open2] ++ words32 m.tm.cnt

/-- The internal state words of an instance in the order of Table 05-9 (R495). -/
def IState.words : IState → List Nat
  | .plain => []
  | .dual m => m.words
  | .glock d l mis => d.words ++ l.words ++ words32 mis.cnt
  | .mute st armed rose sideB pair run _ =>
    [st, b2n armed + 2 * b2n rose + 4 * b2n sideB] ++ words32 pair.cnt ++ words32 run.cnt
  | .twohand st rel sync c1 c2 => [st, b2n rel] ++ words32 sync.cnt ++ words32 c1.cnt ++ words32 c2.cnt
  | .enable3 m p1 ps => m.words ++ [b2n p1 + 2 * b2n ps]
  | .modesel cand held f => [cand] ++ words32 held.cnt ++ [b2n f]
  | .reset p a b ns sp _ => [b2n p + 2 * b2n a + 4 * b2n b] ++ words32 ns ++ words32 sp
  | .edm f tm => [b2n f] ++ words32 tm.cnt
  | .timer tm => words32 tm.cnt
  | .zone l o cnt ns => [b2n l + 2 * b2n o, cnt] ++ words32 ns
  | .connIn w wd lone boot epoch seq =>
    [b2n w + 2 * b2n lone.isSome] ++ words32 wd ++ words32 lone.cnt ++ words32 boot ++ [epoch]
      ++ words32 seq
  | .connOut epoch seq => [epoch] ++ words32 seq
  | .axis f l1 l2 eng => [b2n f] ++ words32 l1 ++ words32 l2 ++ words32 eng.cnt
  | .flag f => [b2n f]
  | .sto f _ dis => [b2n f] ++ words32 dis.cnt
  | .ramp st run v0 => [st] ++ words32 run.cnt ++ words32 v0
  | .sos st h1 h2 => [st] ++ words32 h1 ++ words32 h2
  | .sls f limit prev adapt => [b2n f] ++ words32 limit ++ words32 prev ++ words32 adapt.cnt
  | .sdi f _ b1 b2 r1 r2 => [b2n f] ++ words32 b1 ++ words32 b2 ++ words32 r1 ++ words32 r2
  | .sbc f _ fb => [b2n f] ++ words32 fb.cnt
  | .sbt st tested _ test _ s1 s2 age =>
    [st, b2n tested] ++ words32 test.cnt ++ words32 s1 ++ words32 s2 ++ words32 (min age.cnt cntMax)
  | .rein st cause _ nx eng run => [st, cause] ++ words32 nx ++ words32 eng.cnt ++ words32 run.cnt
  | .tension band lost => words32 band ++ words32 lost
  | .outsafe st b dly => [st, b2n b] ++ words32 dly.cnt
  | .stdin age => words32 age
  | .diag last since => last.map container ++ words32 since

/-- The state code that INST_STATE shows (Table 04-12): the first state word of types that have one. -/
def IState.code : IState → Nat
  | .dual m => m.st
  | .glock d _ _ => d.st
  | .mute st .. => st
  | .twohand st .. => st
  | .enable3 m _ _ => m.st
  | .modesel _ _ f => b2n f
  | .edm f _ => b2n f
  | .axis f .. => b2n f
  | .flag f => b2n f
  | .sto f .. => b2n f
  | .ramp st .. => st
  | .sos st .. => st
  | .sls f .. => b2n f
  | .sdi f .. => b2n f
  | .sbc f .. => b2n f
  | .sbt st .. => st
  | .rein st .. => st
  | .outsafe st .. => st
  | _ => 0

/-- The running timer that INST_TIMER shows (Table 04-12). DESIGN CHOICE (log 107): where several timers of one instance run, the spec does
not say which one it is; the order here is door, lock, mismatch of GLOCK, muting or override before the pair of MUTE, SYNC before CONTACT_T
of TWOHAND, the watchdog of CONN_IN, the test before the age of SBT, N_ENG_G before the count since span r of REIN, BAND before LOST of
TENSION. -/
def IState.timerCount : IState → Nat
  | .dual m => m.tm.cnt
  | .glock d l mis => if d.tm.isSome then d.tm.cnt else if l.tm.isSome then l.tm.cnt else mis.cnt
  | .mute _ _ _ _ pair run _ => if run.isSome then run.cnt else pair.cnt
  | .twohand _ _ sync c1 c2 => if sync.isSome then sync.cnt else if c1.isSome then c1.cnt else c2.cnt
  | .enable3 m _ _ => m.tm.cnt
  | .modesel _ held _ => held.cnt
  | .edm _ tm => tm.cnt
  | .timer tm => tm.cnt
  | .connIn _ wd _ _ _ _ => wd
  | .axis _ _ _ eng => eng.cnt
  | .sto _ _ dis => dis.cnt
  | .ramp _ run _ => run.cnt
  | .sls _ _ _ adapt => adapt.cnt
  | .sbc _ _ fb => fb.cnt
  | .sbt _ _ _ test _ _ _ age => if test.isSome then test.cnt else min age.cnt cntMax
  | .rein _ _ _ _ eng run => if eng.isSome then eng.cnt else run.cnt
  | .tension band lost => if band != 0 then band else lost
  | .outsafe _ _ dly => dly.cnt
  | .stdin age => age
  | .diag _ since => since
  | _ => 0

end Sys2Proof
end

