-- ==== Sys2Proof/Machine/Coded.lean ====
section
/-! DEFINITION. The arithmetic code of channel B (05_channel_diversity.md R134 to R138) and its two-limb motion quantities
(08_safe_motion.md R223). -/

namespace Sys2Proof.Machine

/-- The coded word of a plain value under signature `b` (R134). -/
def code (b : Nat) (v : Int) : Int := 4091 * v + b

/-- The residue check (R136). -/
def residueOk (b : Nat) (c : Int) : Bool := (c - b) % 4091 == 0

/-- The plain value of a word that passes the residue check, whatever its range (R136): what the checked comparisons, counts and
selections of Table 05-2 act on. -/
def plain (b : Nat) (c : Int) : Option Int := if residueOk b c then some ((c - b) / 4091) else none

/-- Decode with the residue and range checks, `none` for a residue failure (R137). -/
def decode (ty : Ty) (b : Nat) (c : Int) : Option Int :=
  if residueOk b c && inRange ty ((c - b) / 4091) then some ((c - b) / 4091) else none

/-! ## Correction constants of a right encoding (Table 05-2) -/

def kAdd (bx bY bz : Nat) : Int := (bz : Int) - bx - bY
def kSub (bx bY bz : Nat) : Int := (bz : Int) - bx + bY
def kMul (a : Int) (bx bz : Nat) : Int := (bz : Int) - a * bx
def kSel (bx bz : Nat) : Int := (bz : Int) - bx
def kNot (bx bz : Nat) : Int := 4091 + bx + bz

/-! ## Operations; `k` is the correction constant that the B encoding stores (R138) -/

/-- ADD of Table 05-2. -/
def cAdd (k x y : Int) : Int := x + y + k

/-- SUB of Table 05-2. -/
def cSub (k x y : Int) : Int := x - y + k

/-- MULK of Table 05-2. -/
def cMulk (a k x : Int) : Int := a * x + k

/-- NOT of Table 05-2. -/
def cNot (k x : Int) : Int := k - x

/-- SELECT of Table 05-2. -/
def cSelect (k x : Int) : Int := x + k

/-- RESCALE of Table 05-2: quotient and remainder words, checked against the operand; `none` where a check fails. -/
def cRescale (s bp bq br : Nat) (p : Int) : Option (Int × Int) :=
  if residueOk bp p then
    let v := (p - bp) / 4091
    let q := v / 2 ^ s
    let cq := code bq q
    let cr := code br (v - q * 2 ^ s)
    if 2 ^ s * (cq - bq) + (cr - br) = p - bp then some (cq, cr) else none
  else none

/-- CMP of Table 05-2: the sign of x − y as −1, 0 or 1. -/
def cCmp (bx bY : Nat) (x y : Int) : Option Int :=
  let d := x - y - ((bx : Int) - bY)
  if d % 4091 == 0 then some (if d < 0 then -1 else if d = 0 then 0 else 1) else none

/-- SAT of Table 05-2: the bounds are coded words of signature 1, the result has signature `bz`. -/
def cSat (lo hi : Int) (bx bz : Nat) (k x : Int) : Option Int :=
  match cCmp bx 1 x (code 1 lo), cCmp bx 1 x (code 1 hi) with
  | some a, some b => some (if a < 0 then code bz lo else if 0 < b then code bz hi else cSelect k x)
  | _, _ => none

/-- COUNT of Table 05-2 over (signature, word) pairs. -/
def cCount (xs : List (Nat × Int)) : Option Int :=
  let s := (xs.map fun p => p.2 - (p.1 : Int)).sum
  if s % 4091 == 0 then some (s / 4091) else none

/-- AND, OR and XOR of Table 05-2 from n1 and n. -/
def cAnd (bz n : Nat) (n1 : Int) : Int := code bz (bi (n1 == n))
def cOr (bz : Nat) (n1 : Int) : Int := code bz (bi (decide (1 ≤ n1)))
def cXor (bz : Nat) (n1 : Int) : Int := code bz (n1 % 2)

/-! ## Motion quantities (R223) -/

/-- The high limb of a 32-bit quantity, −32,768 to 32,767. -/
def hiLimb (v : Nat) : Int := if v / 65536 % 65536 < 32768 then (v / 65536 % 65536 : Nat) else (v / 65536 % 65536 : Nat) - (65536 : Int)

/-- The two coded words of a 32-bit quantity: low limb, high limb. -/
def limbWords (bl bh v : Nat) : List Int := [code bl (v % 65536 : Nat), code bh (hiLimb v)]

/-- The quantity of two limb words; `none` where a limb fails its residue or its range. -/
def limbRead (bl bh : Nat) (l h : Int) : Option Nat :=
  match plain bl l, plain bh h with
  | some x, some y =>
    if 0 ≤ x ∧ x < 65536 ∧ -32768 ≤ y ∧ y < 32768 then some ((y % 65536).toNat * 65536 + x.toNat) else none
  | _, _ => none

/-- SUB of two quantities modulo 2^32, limb by limb, the carry moved with RESCALE by 16; each limb keeps its signature. -/
def limbSub (bl bh : Nat) (x y : Int × Int) : Option (Int × Int) :=
  (cRescale 16 bl bl bl (cSub (kSub bl bl bl) x.1 y.1)).bind fun r =>
    (cRescale 16 bh bh bh (cAdd (kAdd bh bl bh) (cSub (kSub bh bh bh) x.2 y.2) r.1)).bind fun t =>
      (cCmp bh bh t.2 (code bh 32768)).map fun c =>
        (r.2, if c < 0 then t.2 else cSub (kSub bh bh bh) t.2 (code bh 65536))

/-- CMP of two quantities as signed ones: the high limbs, then the low limbs. -/
def limbCmp (bl bh : Nat) (x y : Int × Int) : Option Int :=
  match cCmp bh bh x.2 y.2, cCmp bl bl x.1 y.1 with
  | some h, some l => some (if h = 0 then l else h)
  | _, _ => none

/-- The difference of two positions as L-B forms it under limb signatures `bl` and `bh`, read as S32; `none` where a check fails. -/
def limbDiff (bl bh a b : Nat) : Option Int :=
  let w (v : Nat) : Int × Int := (code bl (v % 65536 : Nat), code bh (hiLimb v))
  (limbSub bl bh (w a) (w b)).bind fun z => match plain bl z.1, plain bh z.2 with
    | some l, some h => some (h * 65536 + l)
    | _, _ => none

end Sys2Proof.Machine
end

