-- ==== Sys2Proof/Machine/OdDefault.lean ====
section
/-! DEFINITION. The default values of the object dictionary entries that the register store holds (the Default
columns of the spec's entry tables, 14_object_dictionary.md R353). An entry not named here has default 0. -/

namespace Sys2Proof

/-- Key of an entry: index and subindex. -/
def odKey (idx sub : Nat) : Nat := idx * 256 + sub

/-- Minimum class of each FSW bit (Table 11-1), bit 0 first; reserved bits 0. -/
def classMins : List Nat :=
  [1, 1, 1, 3, 3, 3, 1, 3, 0, 0, 1, 0, 1, 0, 1, 2,
   1, 1, 1, 3, 3, 3, 1, 3, 0, 0, 1, 0, 1, 0, 1, 2,
   3, 3, 3, 3, 1, 3, 3, 1, 3, 1, 0, 0, 1, 1, 1, 1,
   2, 2, 2, 2, 1, 3, 1, 3, 3, 4, 1, 3, 2, 0, 0, 0]

/-- CLK_GATE of each domain (Table 12-1, Table 12-9): bits 0 to 2 RUN, SLEEP, DSLEEP, bit 3 FIXED. CK_MEM is fixed in
bit 0 only (log 17), CK_TCK is not gated by these bits. -/
def clkGateDflt (n : Nat) : Nat := if n = 12 then 1 else if n = 14 then 3 else if n = 18 then 0 else 15

/-- Default of an entry with a fixed index below 0x3000. -/
def odDfltLow (idx sub : Nat) : Nat :=
  if idx < 0x2000 then
    if idx = 0x1020 then 4410
    else if idx = 0x1023 then 1
    else if idx = 0x1024 then 60000000
    else if 0x1100 ≤ idx ∧ idx < 0x1108 then
      if sub = 1 then 1 else if sub = 3 then 0xFF else if sub = 5 then 200 else if sub = 6 then 32 else 0
    else 0
  else if idx = 0x2001 then 3
  else if idx = 0x2004 then 1
  else if idx = 0x2013 then clkGateDflt sub
  else if idx = 0x2016 ∧ sub = 2 then 1
  else 0

/-- Default of an entry from 0x3000 to 0x8FFF. -/
def odDfltMid (idx sub : Nat) : Nat :=
  if idx = 0x3010 then classMins.getD (sub - 1) 0
  else if idx = 0x3012 then 2
  else if idx = 0x3013 then 2000000
  else if 0x4400 ≤ idx ∧ idx < 0x4490 ∧ sub = 2 then 0xFFFFFFFF
  else if 0x6C00 ≤ idx ∧ idx < 0x6C40 ∧ sub = 10 then 0x7FFFFFFF
  else if idx = 0x7000 then 0x88B5
  else if idx = 0x7002 then 1522
  else if idx = 0x7004 then 3
  else if idx = 0x7005 then 3
  else if idx = 0x7007 then 800
  else 0

/-- Default of an entry from 0x9000 up. -/
def odDfltHigh (idx sub : Nat) : Nat :=
  if 0x9000 ≤ idx ∧ idx < 0x9010 then
    if sub = 2 then 1 else if sub = 3 then 32 else if sub = 4 then 0x1EDC6F41
    else if sub = 5 then 0xFFFFFFFF else if sub = 6 then 0xFFFFFFFF else if sub = 7 then 3
    else if sub = 8 then 0xFFFFFFFF else if sub = 9 then 0xFF else 0
  else if 0x9100 ≤ idx ∧ idx < 0x9110 then if sub = 7 then 0xFFFFFFFF else if sub = 8 then 0xFF else 0
  else if idx = 0xB000 then 3
  else if idx = 0xB001 then 10
  else if idx = 0xB002 then 60
  else if idx = 0xA006 then 1000
  else if idx = 0xA008 then 0xFF
  else if idx = 0xD011 then if sub = 3 then 1 else if sub = 4 then 1024 else 0
  else if idx = 0xD012 then
    if sub = 1 then 1 else if sub = 2 then 0xFFFF else if sub = 4 then 1 else if sub = 5 then 1024 else 0
  else if idx = 0xD013 then if sub = 2 then 100 else if sub = 3 then 1 else if sub = 4 then 1024 else 0
  else if idx = 0xD014 then if sub = 4 then 1 else if sub = 5 then 4096 else 0
  else 0

/-- Default of an entry by its key. -/
def odDflt (k : Nat) : Nat :=
  let idx := k / 256
  let sub := k % 256
  if idx < 0x3000 then odDfltLow idx sub else if idx < 0x9000 then odDfltMid idx sub else odDfltHigh idx sub

/-- A register file of entries: only values that differ from the entry's default are listed. -/
abbrev Regs := Tab Nat

/-- Read an entry. -/
def Regs.get (r : Regs) (k : Nat) : Nat := Tab.get (odDflt k) r k

/-- Write an entry. -/
def Regs.set (r : Regs) (k v : Nat) : Regs := Tab.set (odDflt k) r k v

/-- The canonical form: keys rising, no entry at its default. -/
def Regs.wfFrom : Nat → Regs → Bool
  | _, [] => true
  | lo, (k, v) :: t => decide (lo ≤ k) && decide (v ≠ odDflt k) && Regs.wfFrom (k + 1) t

/-- The canonical form of a register file. -/
def Regs.wf (r : Regs) : Bool := Regs.wfFrom 0 r

end Sys2Proof
end

