-- ==== Sys2Proof/Machine/Blocks.lean ====
section
/-! DEFINITION. The input-device, logic, output and bridge blocks (04_function_blocks.md R100 to R131)
as functions of their inputs, their state and the span. -/

namespace Sys2Proof

/-- A contact is closed while it is valid and reads its closed value (R99, R100). -/
def closed (anti : Bool) (i : In) : Bool := i.valid && (if anti then i.v == 0 else i.v == 1)

/-- The dual-contact machine at each entry into RUN (R86). -/
def Dual.start : Dual := { st := 0, seen1 := false, seen2 := false, open2 := false, tm := none, code := 0, k1 := false, k2 := false }

/-- One span of the dual-contact machine (Table 04-4, R101, R103). `exitF` replaces the condition that
leaves FAULT where a block names its own. -/
def Dual.step (m : Dual) (dt n : Nat) (anti startTest : Bool) (c1 c2 : In) (faulty : Bool)
    (exitF : Option Bool) : Dual :=
  let k1 := closed false c1
  let k2 := closed anti c2
  let seen1 := m.seen1 || c1.valid
  let seen2 := m.seen2 || c2.valid
  let bothOpenValid := c1.valid && c2.valid && !k1 && !k2
  let open2 := m.open2 || bothOpenValid
  let seen := seen1 && seen2
  let hold := startTest && !open2
  let go (st code : Nat) (tm : Tm) : Dual :=
    { st := st, seen1 := seen1, seen2 := seen2, open2 := open2, tm := tm, code := code, k1 := k1, k2 := k2 }
  let t := Tm.run dt seen m.tm
  let t0 : Tm := if seen then some 0 else none
  let swapped := (k1 != m.k1) && (k2 != m.k2)
  if faulty then go 4 3 none
  else if m.st = 0 then
    if hold then go 0 0 none
    else if k1 && k2 then go 2 0 none
    else if k1 != k2 then go 1 0 t0
    else go 0 0 none
  else if m.st = 1 then
    if k1 && k2 && decide (t.cnt ≤ n) then go 2 0 none
    else if (!k1 && !k2) || (swapped && k1 != k2) then go 0 0 none
    else if t.reached n then go 4 1 none
    else go 1 0 t
  else if m.st = 2 then
    if k1 && k2 then go 2 0 none else go 3 0 t0
  else if m.st = 3 then
    if !k1 && !k2 && decide (t.cnt ≤ n) then go 0 0 none
    else if t.reached n then go 4 2 none
    else go 3 0 t
  else if exitF.getD bothOpenValid then go 0 0 none
  else go 4 m.code none

/-- ESTOP, GUARD and OSSD (R100 to R103): DMD, OK, FLT, FCODE. -/
def evalDual (c : Ctx) (mode discT startTest : Nat) (ins : List In) (m : Dual) : Res :=
  let c1 := inp ins 0
  let c2 := inp ins 1
  let m' := m.step c.dt (nSpans c.tspan discT) (mode == 1) (startTest == 1) c1 c2 (c1.faulty || c2.faulty)
    none
  let dmd := m'.st != 2
  { outs := [bi dmd, bi (!dmd)] ++ fltOuts (m'.st == 4) m'.code
    st := .dual m'
    ev := faultEv (m.st == 4) (m'.st == 4) m'.code }

/-- GLOCK (R104, R105): DMD, OK, SOL, FLT, FCODE. DESIGN CHOICE (log 105): FAULT with FCODE 11 ends as soon as the condition of R105 has
ended, since neither internal machine is in FAULT then; the spec names no other way out. -/
def evalGlock (c : Ctx) (principle discT discTL : Nat) (ins : List In) (d l : Dual) (mis : Tm) : Res :=
  let d1 := inp ins 0
  let d2 := inp ins 1
  let l1 := inp ins 2
  let l2 := inp ins 3
  let unlock := on ins 4 && on ins 5
  let nL := nSpans c.tspan discTL
  let d' := d.step c.dt (nSpans c.tspan discT) false false d1 d2 (d1.faulty || d2.faulty) none
  let l' := l.step c.dt nL false false l1 l2 (l1.faulty || l2.faulty) none
  let mis' := Tm.run c.dt ((l'.st == 2 || l'.st == 3) && d'.st == 0) mis
  let flt := d'.st == 4 || l'.st == 4 || mis'.reached nL
  let was := d.st == 4 || l.st == 4 || mis.reached nL
  let code := if d'.st = 4 then d'.code else if l'.st = 4 then l'.code else 11
  let dmd := flt || d'.st != 2 || l'.st != 2
  let sol := if principle = 0 then unlock else d'.st == 2 && !unlock
  { outs := [bi dmd, bi (!dmd), bi sol] ++ fltOuts flt code
    st := .glock d' l' mis'
    ev := faultEv was flt code }

/-- The spans since a sensor rose, while it is active (R108). -/
def sensTm (dt : Nat) (i : In) (t : Tm) : Tm := if i.v == 1 then (if i.rise then some 0 else t.map (· + dt)) else none

/-- The sensor with count `s` rose in the same span as the one with count `f` or no more than `n` spans after it. -/
def inOrder (n : Nat) (f s : Tm) : Bool :=
  match f, s with
  | some x, some y => decide (y ≤ x) && decide (x ≤ y + n)
  | _, _ => false

/-- What the sensors give the machine of Table 04-6: the start condition, both starting sensors active against the rules in the span
they become so, first sensor risen with its count, and the side. -/
structure MuteSens where
  startOk : Bool
  bad : Bool
  first : Tm
  sideB : Bool
  sens : List Tm
  deriving DecidableEq, Repr

/-- Both sensors become active in this span. -/
def bothNow (f s : In) : Bool := f.v == 1 && s.v == 1 && !(f.prev == 1 && s.prev == 1)

/-- The machine of Table 04-6 once the sensors have been judged (R107, R108). Outputs DMD, OK, MUTED, FLT,
FCODE. -/
def muteCore (c : Ctx) (tMute tOvr : Nat) (prot en ovrRise ovr lamp anyOn hold faulty : Bool)
    (p : MuteSens) (st : Nat) (armed : Bool) (run : Tm) (code : Nat) : Res :=
  let nM := nSpans c.tspan tMute
  let nO := nSpans c.tspan tOvr
  let armed1 := armed || !anyOn
  let ended := !anyOn
  let t := Tm.run c.dt true run
  let out (st' : Nat) (a : Bool) (r : Tm) (fc : Nat) (ev : List BEv) : Res :=
    let dmd := st' = 3 || (st' = 0 && prot)
    { outs := [bi dmd, bi (!dmd), bi (st' == 1), bi (st' == 3), (fc : Int)]
      st := .mute st' a p.first.isSome p.sideB (p.first.map (min · cntMax)) r p.sens
      ev := faultEv (st == 3) (st' == 3) fc ++ ev }
  let seq : Nat := if p.bad then 5 else 0
  let seqEv : List BEv := if p.bad then [.rej] else []
  if faulty then out 3 (if st = 1 then ended else armed1) none 3 []
  else if st = 0 then
    if p.startOk && armed && en && !prot then out 1 armed1 (some 0) 0 []
    else if ovrRise && prot && anyOn then out 2 armed1 (some 0) seq seqEv
    else out 0 armed1 none seq seqEv
  else if st = 1 then
    if !hold || !en || !lamp then
      out 0 ended none (if lamp then 0 else 14) (if lamp then [] else [.lamp])
    else if t.reached nM then out 3 ended none 6 []
    else out 1 armed1 t 0 []
  else if st = 2 then
    if !ovr || !anyOn then out 0 armed1 none 0 []
    else if t.reached nO then out 3 armed1 none 7 []
    else out 2 armed1 t 0 []
  else if !anyOn && !prot then out 0 armed1 none 0 []
  else if ovrRise && anyOn then out 2 armed1 (some 0) 0 []
  else out 3 armed1 none code []

/-- MUTE2 (R106 to R108): the sensor that rose first, whichever it is, leads. -/
def evalMute2 (c : Ctx) (tPair tMute tOvr : Nat) (ins : List In) (prevOut : List Int)
    (st : Nat) (armed : Bool) (run : Tm) (sens : List Tm) : Res :=
  let a := inp ins 1
  let b := inp ins 2
  let n := nSpans c.tspan tPair
  let ta := sensTm c.dt a (sens.getD 0 none)
  let tb := sensTm c.dt b (sens.getD 1 none)
  let ok := inOrder n ta tb || inOrder n tb ta
  let first : Tm := match ta, tb with
    | some x, some y => some (max x y)
    | some x, none => some x
    | none, y => y
  muteCore c tMute tOvr (on ins 0) (on ins 3) (inp ins 4).rise (on ins 4) (on ins 5) (a.v == 1 || b.v == 1) (a.v == 1 && b.v == 1)
    (a.faulty || b.faulty) { startOk := ok, bad := bothNow a b && !ok, first := first, sideB := false, sens := [ta, tb] } st armed run
    (prevOut.getD 4 0).toNat

/-- MUTE4 (R106 to R108). With DIR 2 the side whose first sensor has risen is followed, side A where both have. -/
def evalMute4 (c : Ctx) (tPair tMute tOvr dir : Nat) (ins : List In) (prevOut : List Int)
    (st : Nat) (armed sideB : Bool) (run : Tm) (sens : List Tm) : Res :=
  let a1 := inp ins 1
  let a2 := inp ins 2
  let b1 := inp ins 3
  let b2 := inp ins 4
  let n := nSpans c.tspan tPair
  let t1 := sensTm c.dt a1 (sens.getD 0 none)
  let t2 := sensTm c.dt a2 (sens.getD 1 none)
  let t3 := sensTm c.dt b1 (sens.getD 2 none)
  let t4 := sensTm c.dt b2 (sens.getD 3 none)
  let useB := if dir = 0 then false else if dir = 1 then true
    else if sideB then t4.isSome || t1.isNone else t1.isNone && t4.isSome
  let okA := dir != 1 && inOrder n t1 t2
  let okB := dir != 0 && inOrder n t4 t3
  let bad := (dir != 1 && bothNow a1 a2 && !inOrder n t1 t2) || (dir != 0 && bothNow b1 b2 && !inOrder n t4 t3)
  let anyOn := a1.v == 1 || a2.v == 1 || b1.v == 1 || b2.v == 1
  let hold := (a1.v == 1 && a2.v == 1) || (a2.v == 1 && b1.v == 1) || (b1.v == 1 && b2.v == 1)
  let faulty := a1.faulty || a2.faulty || b1.faulty || b2.faulty
  muteCore c tMute tOvr (on ins 0) (on ins 5) (inp ins 6).rise (on ins 6) (on ins 7) anyOn hold faulty
    { startOk := okA || okB, bad := bad, first := if useB then t4 else t1, sideB := useB, sens := [t1, t2, t3, t4] } st armed run
    (prevOut.getD 4 0).toNat

/-- A TWOHAND button is pressed (R110). -/
def pressed (typ : Nat) (no nc : In) : Bool :=
  if typ = 0 then no.valid && no.v == 1 else no.valid && nc.valid && no.v == 1 && nc.v == 0

/-- A TWOHAND button is released (R110). -/
def released (typ : Nat) (no nc : In) : Bool :=
  if typ = 0 then no.valid && no.v == 0 else no.valid && nc.valid && no.v == 0 && nc.v == 1

/-- Every used contact of a button is valid. -/
def btnValid (typ : Nat) (no nc : In) : Bool := if typ = 0 then no.valid else no.valid && nc.valid

/-- A button was pressed in the last committed image. -/
def wasPressed (typ : Nat) (no nc : In) : Bool :=
  if typ = 0 then no.prev == 1 else no.prev == 1 && nc.prev == 0

/-- TWOHAND (R110): Q, FLT, FCODE. -/
def evalTwohand (c : Ctx) (typ syncT contactT : Nat) (ins : List In) (prevOut : List Int)
    (st : Nat) (rel : Bool) (sync c1 c2 : Tm) : Res :=
  let p1 := pressed typ (inp ins 0) (inp ins 1)
  let p2 := pressed typ (inp ins 2) (inp ins 3)
  let r1 := released typ (inp ins 0) (inp ins 1)
  let r2 := released typ (inp ins 2) (inp ins 3)
  let w1 := wasPressed typ (inp ins 0) (inp ins 1)
  let w2 := wasPressed typ (inp ins 2) (inp ins 3)
  let both := r1 && r2
  let rel' := rel || both
  let nS := nSpansFloor c.tspan syncT
  let nC := nSpans c.tspan contactT
  let k1 := Tm.run c.dt (btnValid typ (inp ins 0) (inp ins 1) && !p1 && !r1) c1
  let k2 := Tm.run c.dt (btnValid typ (inp ins 2) (inp ins 3) && !p2 && !r2) c2
  let faulty := (inp ins 0).faulty || (inp ins 2).faulty
    || (typ != 0 && ((inp ins 1).faulty || (inp ins 3).faulty))
  let go (st' : Nat) (rl : Bool) (s : Tm) (code : Nat) : Res :=
    { outs := [bi (st' == 2)] ++ fltOuts (st' == 4) code
      st := .twohand st' rl s k1 k2
      ev := faultEv (st == 4) (st' == 4) code }
  let t := Tm.run c.dt true sync
  if faulty then go 4 (if st = 2 then both else rel') none 3
  else if st != 4 && (k1.reached nC || k2.reached nC) then go 4 (if st = 2 then both else rel') none 8
  else if st = 0 then
    if p1 && p2 then (if rel' then go 2 rel' none 0 else go 3 rel' none 0)
    else if p1 || p2 then go 1 rel' (some 0) 0
    else go 0 rel' none 0
  else if st = 1 then
    if p1 && p2 then (if rel' && decide (t.cnt ≤ nS) then go 2 rel' none 0 else go 3 rel' none 0)
    else if p1 || p2 then
      (if (p1 && !w1 && w2) || (p2 && !w2 && w1) then go 1 rel' (some 0) 0 else go 1 rel' t 0)
    else go 0 rel' none 0
  else if st = 2 then
    if p1 && p2 then go 2 rel' none 0
    else if both then go 0 true none 0
    else go 3 false none 0
  else if st = 3 then
    if both then go 0 rel' none 0 else go 3 rel' none 0
  else if both then go 0 rel' none 0
  else go 4 rel' none (prevOut.getD 2 0).toNat

/-- ENABLE3 (R111): Q, FLT, FCODE. -/
def evalEnable3 (c : Ctx) (discT : Nat) (ins : List In) (prevOut : List Int) (m : Dual)
    (pos1 pSeen : Bool) : Res :=
  let e1 := inp ins 0
  let e2 := inp ins 1
  let p := inp ins 2
  let now1 := e1.valid && e2.valid && e1.v == 0 && e2.v == 0 && (!p.conn || (p.valid && p.v == 0))
  let m' := m.step c.dt (nSpans c.tspan discT) false false e1 e2 (e1.faulty || e2.faulty || p.faulty)
    (some now1)
  let pHigh := p.v == 1
  let pSeen' := if now1 then false else pSeen || pHigh
  let q := m'.st == 2 && pos1 && !pHigh && !pSeen'
  let pos1' := if prevOut.getD 0 0 == 1 && !q then now1 else pos1 || now1
  { outs := [bi q] ++ fltOuts (m'.st == 4) m'.code
    st := .enable3 m' pos1' pSeen'
    ev := faultEv (m.st == 4) (m'.st == 4) m'.code }

/-- The only input at 1 of the first `n`, 16,383 for none or several (R112). -/
def onlyOne (ins : List In) : Nat → Nat → Nat
  | 0, _ => 16383
  | n + 1, k =>
    let rest := onlyOne ins n (k + 1)
    if on ins k then (if ((List.range n).any fun j => on ins (k + 1 + j)) then 16383 else k) else rest

/-- MODESEL (R112): MODE, M0 to M7, CHG, FLT, FCODE. -/
def evalModesel (c : Ctx) (n discT : Nat) (ins : List In) (prevOut : List Int) (cand : Nat) (held : Tm)
    (fault : Bool) : Res :=
  let nD := nSpans c.tspan discT
  let now := onlyOne ins n 0
  let held' := if now = cand then Tm.run c.dt true held else some 0
  let faulty := (List.range n).any fun k => (inp ins k).faulty
  let done := held'.reached nD
  let fault' := if faulty then true
    else if now = 16383 then fault || done
    else if done then false
    else fault
  let mode : Nat := if fault' || now = 16383 || !done then 16383 else now
  let code : Nat := if faulty then 3 else if fault && fault' then (prevOut.getD 11 0).toNat else 12
  { outs := [(mode : Int)] ++ (List.range 8).map (fun j => bi (mode == j))
      ++ [bi (prevOut.getD 0 16383 != (mode : Int))] ++ fltOuts fault' code
    st := .modesel now held' fault'
    ev := faultEv fault fault' code }

/-- The press length nearest the coarse length, and whether it lies within 2,000 ms of it (R113). -/
def pressLen (diff coarse : Nat) : Option Nat :=
  let m := 2 ^ 32
  let k := (coarse + m / 2 - diff) / m
  let l := diff + (if coarse + m / 2 < diff then 0 else k * m)
  let dist := if l < coarse then coarse - l else l - coarse
  if dist ≤ 2000000000 then some l else none

/-- RESET (R113): PULSE, REJ. A press that is there when BTN becomes valid again after a loss is no new press: `val` is 2 until BTN has
read open while valid. -/
def evalReset (c : Ctx) (tMin tMax : Nat) (ins : List In) (cap : CapIn) (press after bad : Bool)
    (ns span val : Nat) : Res :=
  let b := inp ins 0
  let go (pulse rej p a d : Bool) (n s v : Nat) : Res :=
    { outs := [bi pulse, bi rej], st := .reset p a d n s v, ev := if rej then [.rej] else [] }
  if !b.valid then go false false false after (press || bad) ns span (if val = 0 then 0 else 2)
  else if val = 2 && b.v == 1 then go false false false after bad ns span 2
  else if b.rise then
    let t := c.tickNs - (c.tickNs + 2 ^ 32 - cap.rise % 2 ^ 32) % 2 ^ 32
    go false false true (decide (c.firstTickNs < t)) cap.ovRise cap.rise (c.span % 2 ^ 32) 1
  else if b.fall && press then
    let diff := (cap.fall + 2 ^ 32 - ns % 2 ^ 32) % 2 ^ 32
    let coarse := (c.span + 2 ^ 32 - span) % 2 ^ 32 * c.tspan
    let ok := match pressLen diff coarse with
      | none => false
      | some l => decide (tMin * 1000 ≤ l) && decide (l ≤ tMax * 1000)
    let good := ok && after && !bad && !cap.ovFall
    go good (!good) false after bad ns span 1
  else go false false press after bad ns span 1

/-- EDM (R115): OK, FLT, FCODE. An FB that changes with no N_EDM interval running puts the block in FAULT whatever the levels are; the way
out is judged from the next span on (log 106). -/
def evalEdm (c : Ctx) (tEdm nFb : Nat) (ins : List In) (prevOut : List Int) (fault : Bool) (tm : Tm) : Res :=
  let cmd := inp ins 0
  let f1 := inp ins 1
  let f2 := inp ins 2
  let n := nSpans c.tspan tEdm
  let allRel := f1.v == 1 && (nFb == 1 || f2.v == 1)
  let allPick := f1.v == 0 && (nFb == 1 || f2.v == 0)
  let edge := cmd.rise || cmd.fall
  let onCmd := cmd.v == 1
  let met := if onCmd then allPick else allRel
  let t : Tm := if edge then some 0 else match tm with
    | none => none
    | some _ => Tm.run c.dt true tm
  let changed := f1.v != f1.prev || (nFb != 1 && f2.v != f2.prev)
  let faulty := f1.faulty || (nFb != 1 && f2.faulty)
  let code : Nat := if onCmd then 9 else 10
  let leave := fault && !onCmd && allRel
  let late := match t with
    | none => false
    | some k => decide (n ≤ k) && !met
  let jump := t.isNone && changed
  let fault' := faulty || (!leave && (fault || late || jump))
  let code' : Nat := if faulty then 3 else if fault then (prevOut.getD 2 0).toNat else code
  let t' : Tm := if fault' || t.reached n then none else t
  let ok := if onCmd then !fault' else allRel
  { outs := [bi ok] ++ fltOuts fault' code', st := .edm fault' t', ev := faultEv fault fault' code' }

/-- TON (R117): Q, ET. -/
def evalTon (c : Ctx) (pt : Nat) (ins : List In) (tm : Tm) : Res :=
  let i := inp ins 0
  let run : Tm := if i.v == 1 then (if i.rise then some 0 else match tm with
      | none => none
      | some _ => Tm.run c.dt true tm) else none
  let q := if pt = 0 then i.v == 1 else run.reached (nSpans c.tspan pt)
  { outs := [bi q, (min run.cnt 16383 : Nat)], st := .timer run, ev := [] }

/-- TOF (R117): Q, ET. -/
def evalTof (c : Ctx) (pt : Nat) (ins : List In) (tm : Tm) : Res :=
  let i := inp ins 0
  let n := nSpans c.tspan pt
  let run0 : Tm := if i.v == 1 then none else if i.fall then some 0 else match tm with
    | none => none
    | some _ => Tm.run c.dt true tm
  let run : Tm := if run0.reached n then none else run0
  let q := i.v == 1 || (pt != 0 && run.isSome)
  { outs := [bi q, (min run.cnt 16383 : Nat)], st := .timer (if pt = 0 then none else run), ev := [] }

/-- TP (R117): Q, ET. DESIGN CHOICE (log 108): a rising edge in the span in which the count reaches N_PT and Q falls is ignored like those
while Q = 1; the spec does not say. -/
def evalTp (c : Ctx) (pt : Nat) (ins : List In) (tm : Tm) : Res :=
  let i := inp ins 0
  let n := nSpans c.tspan pt
  let run0 : Tm := match tm with
    | none => if i.rise then some 0 else none
    | some _ => Tm.run c.dt true tm
  let run : Tm := if run0.reached n then none else run0
  { outs := [bi run.isSome, (min run.cnt 16383 : Nat)], st := .timer run, ev := [] }

/-- CTU (R118): Q, CV. -/
def evalCtu (pv : Nat) (ins : List In) (prevOut : List Int) : Res :=
  let cv0 := prevOut.getD 1 0
  let cv := if on ins 1 then 0 else if (inp ins 0).rise then clampI 0 16383 (cv0 + 1) else cv0
  { outs := [bi (decide ((pv : Int) ≤ cv)), cv], st := .plain, ev := [] }

/-- The comparison of CMP14 by its OP code (R119). -/
def cmpOp (op : Nat) (a b : Int) : Bool :=
  match op with
  | 0 => a == b
  | 1 => a != b
  | 2 => decide (a < b)
  | 3 => decide (a ≤ b)
  | 4 => decide (b < a)
  | _ => decide (b ≤ a)

/-- CMP14 (R119): Q. -/
def evalCmp14 (signed op : Nat) (ofs : Int) (hys : Nat) (ins : List In) (prevOut : List Int) : Res :=
  let a := satTy (if signed = 1 then .s14 else .u14) ((inp ins 0).v + ofs)
  let b := (inp ins 1).v
  let b' := if prevOut.getD 0 0 == 1 then
      (if op = 4 || op = 5 then b - hys else if op = 2 || op = 3 then b + hys else b)
    else b
  { outs := [bi (cmpOp op a b || (prevOut.getD 0 0 == 1 && cmpOp op a b'))], st := .plain, ev := [] }

/-- SEL (R120): Y, FLT, FCODE. -/
def evalSel (n : Nat) (safe : Int) (ins : List In) : Res :=
  let k := (inp ins 0).v
  let ok := decide (0 ≤ k) && decide (k < (n : Int))
  { outs := [if ok then (inp ins (1 + k.toNat)).v else safe, 0, if ok then 0 else 16]
    st := .plain, ev := [] }

/-- AND, OR and XOR from the number of inputs at 1 (R116). -/
def countOn (n : Nat) (ins : List In) : Nat := ((List.range n).filter fun k => on ins k).length

/-- OUTSAFE (R125, R126): ST, FLT, FCODE. `z` is the state of the zone in this span, `zc` the committed
one, `rb` that the target is reported faulty, `pulse` that an off-pulse is requested in this span. -/
def evalOutsafe (c : Ctx) (dly : Nat) (ins : List In) (z zc : Nat) (rb pulse : Bool) (st : Nat) (swB : Bool)
    (tm : Tm) : Res :=
  let en := on ins 0
  let edm := on ins 1
  let n := nSpans c.tspan dly
  let go (st' : Nat) (t : Tm) : Res :=
    { outs := [bi (st' == 1)] ++ fltOuts (st' == 2) 15
      st := .outsafe st' (if st' == 1 && pulse then !swB else swB) t
      ev := faultEv (st == 2) (st' == 2) 15 }
  if rb then go 2 none
  else if st = 2 then (if z = 0 then go 0 none else go 2 none)
  else if z = 2 then
    if st = 1 then (if en then go 1 none else go 0 none)
    else if en && edm then go 1 none else go 0 none
  else if z = 3 then
    if st = 1 && en then
      let t : Tm := if zc = 3 then Tm.run c.dt true tm else some 0
      if t.reached n then go 0 none else go 1 t
    else go 0 none
  else go 0 none

/-- STDIN (R128): Y, FRESH, FLT, FCODE. `w` is the presented value with the span whose snapshot took it. -/
def evalStdin (c : Ctx) (stale : Nat) (safe : Int) (w : Option (Int × Nat)) : Res :=
  let age := match w with
    | none => c.span - c.firstSpan
    | some (_, t) => c.span - t
  let flt := decide (stale ≤ age)
  let was := !c.first && decide (stale ≤ age - c.dt) && decide (c.dt ≤ age)
  let fresh := w.isSome && !flt
  let y := match w with
    | none => safe
    | some (v, _) => if flt then safe else v
  { outs := [y, bi fresh] ++ fltOuts flt 13, st := .stdin (min age cntMax), ev := faultEv was flt 13 }

/-- Whether an input that MASK enables differs from its value at the last entry. -/
def diagDiff (mask : Nat) (ins : List In) (last : List Int) : Bool :=
  (List.range 8).any fun k => bitAt mask k && (inp ins k).v != last.getD k 0

/-- DIAG (R131): no output. -/
def evalDiag (c : Ctx) (mask gap : Nat) (ins : List In) (last : List Int) (since : Nat) : Res :=
  let now := (List.range 8).map fun k => (inp ins k).v
  let since' := min (since + c.dt) cntMax
  if c.first then { outs := [], st := .diag now 0, ev := [.diag now] }
  else if diagDiff mask ins last && decide (gap ≤ since') then
    { outs := [], st := .diag now 0, ev := [.diag now] }
  else { outs := [], st := .diag last since', ev := [] }

end Sys2Proof
end

