-- ==== Sys2Proof/Machine/MotionBlocks.lean ====
section
/-! DEFINITION. The motion and coupling blocks (08_safe_motion.md R222 to R247, 09_rein_groups.md R251 to
R263) as functions of the snapshot of their axis, their inputs, their state and the span. -/

namespace Sys2Proof

/-- What the snapshot holds of one axis: validity and reconstruction flags of both sources, positions,
window differences where they exist (R219 to R221). -/
structure AxSnap where
  valid1 : Bool
  valid2 : Bool
  recon1 : Bool
  recon2 : Bool
  /-- the sample of the source carried a full value (R220) -/
  full1 : Bool
  full2 : Bool
  p1 : Nat
  p2 : Nat
  d1 : Option Int
  d2 : Option Int
  deriving DecidableEq, Repr

/-- An axis without a sample. -/
def AxSnap.empty : AxSnap :=
  { valid1 := false, valid2 := false, recon1 := false, recon2 := false, full1 := false, full2 := false, p1 := 0, p2 := 0, d1 := none,
    d2 := none }

/-- A U32 read as S32 (R213). -/
def s32 (n : Nat) : Int := if n % 2 ^ 32 < 2 ^ 31 then (n % 2 ^ 32 : Nat) else (n % 2 ^ 32 : Nat) - (2 ^ 32 : Int)

/-- Difference of two positions modulo 2^32, read as S32 (R213). -/
def posDiff (p q : Nat) : Int := s32 (p % 2 ^ 32 + 2 ^ 32 - q % 2 ^ 32)

/-- The speed is known while both window differences exist (R222). -/
def AxSnap.known (a : AxSnap) : Bool := a.d1.isSome && a.d2.isSome

/-- D_max of R226, `none` while the speed is unknown. -/
def AxSnap.dMax (a : AxSnap) : Option Nat :=
  match a.d1, a.d2 with
  | some x, some y => some (max x.natAbs y.natAbs)
  | _, _ => none

/-- Window length W in spans (R221). -/
def AxisPar.w (p : AxisPar) : Nat := 2 ^ p.win

/-- A speed in window units (R225). -/
def winUnits (p : AxisPar) (tspan v : Nat) : Nat := v * p.w * tspan / 1000000000

/-- A deceleration in window units per span, 16 fraction bits (R225). -/
def decUnits (p : AxisPar) (tspan dec : Nat) : Nat := dec * p.w * tspan * tspan * 65536 / 10 ^ 18

/-- D_max exceeds a limit; an unknown speed is not tested (R247). -/
def exceeds (d : Option Nat) (lim : Nat) : Bool :=
  match d with
  | none => false
  | some x => decide (lim < x)

/-- A motion block leaves FAULT (R245). -/
def leaves (z : Nat) (known cause : Bool) : Bool := z == 0 && known && !cause

/-- ENCPAIR (R233): OK, FLT, FCODE. `df` forms the difference of two positions: on L-B limb by limb (R223). -/
def evalEncpair (df : Nat → Nat → Int) (posTol dTol : Nat) (a : AxSnap) (z : Nat) (prevOut : List Int) (fault : Bool) : Res :=
  let both := a.valid1 && a.valid2
  let badP := both && decide (posTol < (df a.p1 a.p2).natAbs)
  let badD := both && match a.d1, a.d2 with
    | some x, some y => decide (dTol < (x - y).natAbs)
    | _, _ => false
  let cause := badP || badD
  let fault' := cause || (fault && !leaves z a.known cause)
  let code : Nat := if badP then 17 else if badD then 18 else (prevOut.getD 2 0).toNat
  { outs := [bi (a.known && !cause)] ++ fltOuts fault' code
    st := .flag fault', ev := faultEv fault fault' code }

/-- STO (R234): FLT, FCODE. `enC` is the committed EN_TQ. -/
def evalSto (c : Ctx) (tFb : Nat) (ins : List In) (a : AxSnap) (z : Nat) (enC fault expect : Bool) (dis : Tm) :
    Res :=
  let fb := inp ins 1
  let want := !enC
  let differs := fb.conn && (fb.v == 1) != want
  let t : Tm := if differs then (if want != expect then some 0 else Tm.run c.dt true dis) else none
  let cause := t.reached (nSpans c.tspan tFb)
  let fault' := cause || (fault && !leaves z a.known cause)
  { outs := fltOuts fault' 27, st := .sto fault' want t, ev := faultEv fault fault' 27 }

/-- One span of an SS1 or SS2 stop (R235, R236): ACTIVE, FLT, FCODE. `start` is a start of this span, `z` the
zone's state in this span, `ss2` that the block is an SS2. STATE: 0 idle, 1 running, 2 ended, 3 FAULT. While the speed is unknown the stop
runs on to N_STO; a stop that starts so takes V0 as 0 (DESIGN CHOICE, log 125). -/
def evalRamp (c : Ctx) (ap : AxisPar) (p : RampPar) (ss2 start req : Bool) (a : AxSnap) (z st : Nat) (run : Tm)
    (v0 : Nat) : Res :=
  let d := a.dMax
  let go (st' : Nat) (t : Tm) (v : Nat) : Res :=
    { outs := [bi (st' == 1)] ++ fltOuts (st' == 3) 24, st := .ramp st' t v
      ev := faultEv (st == 3) (st' == 3) 24 }
  let body (n v : Nat) : Res :=
    match d with
    | none => if nSpans c.tspan p.tSto ≤ n then (if ss2 then go 3 none v else go 2 none v) else go 1 (some n) v
    | some x =>
      let nD := nSpans c.tspan p.tDly
      let ld : Int := (v : Int) + winUnits ap c.tspan p.tol
        - (((n - nD) * decUnits ap c.tspan p.dec / 65536 : Nat) : Int)
      if p.mode = 1 && decide (nD ≤ n) && decide (ld < (x : Int)) then go 3 none v
      else if x ≤ winUnits ap c.tspan p.vZero then go 2 none v
      else if nSpans c.tspan p.tSto ≤ n then (if ss2 then go 3 none v else go 2 none v)
      else go 1 (some n) v
  if st = 1 then
    match Tm.run c.dt true run with
    | none => go 1 (some 0) v0
    | some n => body n v0
  else if st = 3 then (if leaves z a.known false then go 0 none v0 else go 3 none v0)
  else if st = 2 && (req || z == 3) && !start then go 2 none v0
  else if start then body 0 (d.getD 0)
  else go 0 none v0

/-- SOS (R237): HELD, FLT, FCODE. `hold` is that SS2 has ended and its REQ still stands. -/
def evalSos (df : Nat → Nat → Int) (ap : AxisPar) (c : Ctx) (sosPos sosV : Nat) (req hold : Bool) (a : AxSnap) (z st h1 h2 : Nat) : Res :=
  let go (st' x y : Nat) : Res :=
    { outs := [bi (st' == 1)] ++ fltOuts (st' == 2) 23, st := .sos st' x y
      ev := faultEv (st == 2) (st' == 2) 23 }
  let out (x y : Nat) : Bool := a.known && (decide (sosPos < (df a.p1 x).natAbs)
    || decide (sosPos < (df a.p2 y).natAbs) || exceeds a.dMax (winUnits ap c.tspan sosV))
  if st = 2 then (if leaves z a.known (out h1 h2 && req) then go 0 h1 h2 else go 2 h1 h2)
  else if req || hold then
    let x := if st = 1 then h1 else a.p1
    let y := if st = 1 then h2 else a.p2
    if out x y then go 2 x y else go 1 x y
  else go 0 h1 h2

/-- No limit (R495). -/
def noLimit : Nat := 0xFFFFFFFF

/-- The limit that SEL names, in window units; `none` for a SEL above 7 or an empty limit (R238). -/
def slsLimit (ap : AxisPar) (tspan : Nat) (lims : List Nat) (sel : Int) : Option Nat :=
  if sel < 0 || 7 < sel then none
  else
    let v := lims.getD sel.toNat noLimit
    if v = noLimit then none else some (winUnits ap tspan v)

/-- SLS (R238): LIMITED, FLT, FCODE. -/
def evalSls (c : Ctx) (ap : AxisPar) (lims : List Nat) (tAdapt : Nat) (ins : List In) (a : AxSnap) (z : Nat)
    (fault : Bool) (_limit prev : Nat) (adapt : Tm) : Res :=
  let act := inp ins 0
  let sel := inp ins 1
  let n := nSpans c.tspan tAdapt
  let new := slsLimit ap c.tspan lims sel.v
  let tgt := new.getD noLimit
  let old := (slsLimit ap c.tspan lims sel.prev).getD noLimit
  let isOn := act.v == 1
  let rise := isOn && (act.rise || c.first)
  let before : Tm × Nat := (Tm.run c.dt adapt.isSome adapt, prev)
  let inForceBefore := if adapt.isSome && !before.1.reached n then prev else old
  let s : Tm × Nat :=
    if !isOn then (none, noLimit)
    else if rise then (some 0, noLimit)
    else if sel.v != sel.prev then
      (if tgt < old then (some 0, inForceBefore) else (none, noLimit))
    else before
  let adapting := s.1.isSome && !s.1.reached n
  let lim := if !isOn then noLimit else if adapting then s.2 else tgt
  let bad := isOn && (new.isNone || (lim != noLimit && exceeds a.dMax lim))
  let fault' := bad || (fault && !leaves z a.known bad)
  let lmt := isOn && lim != noLimit && (match a.dMax with
    | none => false
    | some x => decide (x ≤ lim))
  { outs := [bi lmt] ++ fltOuts fault' 21
    st := .sls fault' lim (if adapting then s.2 else noLimit) (if adapting then s.1 else none)
    ev := faultEv fault fault' 21 }

/-- SLP (R239): FLT, FCODE. -/
def evalSlp (c : Ctx) (ap : AxisPar) (pMin pMax : Int) (band vApp : Nat) (ins : List In) (a : AxSnap) (z : Nat)
    (fault : Bool) : Res :=
  let v : Int := winUnits ap c.tspan vApp
  let test (p : Nat) (d : Option Int) : Bool :=
    let x := s32 p
    let dv := d.getD 0
    decide (x < pMin) || decide (pMax < x) || (decide (pMax - band ≤ x) && decide (v < dv))
      || (decide (x ≤ pMin + band) && decide (dv < -v))
  let bad := on ins 0 && a.known && (test a.p1 a.d1 || test a.p2 a.d2)
  let fault' := bad || (fault && !leaves z a.known bad)
  { outs := fltOuts fault' 21, st := .flag fault', ev := faultEv fault fault' 21 }

/-- SDI (R240): FLT, FCODE. The base is taken in the first span with ACT 1 and a known speed (R246). -/
def evalSdi (df : Nat → Nat → Int) (dir tol : Nat) (ins : List In) (a : AxSnap) (z : Nat) (fault isSet : Bool)
    (b1 b2 r1 r2 : Nat) : Res :=
  let isOn := on ins 0
  let fresh := isOn && a.known && (!isSet || (inp ins 0).rise)
  let base1 := if fresh then a.p1 else b1
  let base2 := if fresh then a.p2 else b2
  let live := isOn && a.known && (fresh || isSet)
  let ref (old : Nat) (e : Int) : Int :=
    if fresh then 0 else if dir = 0 then max (s32 old) e else min (s32 old) e
  let e1 := df a.p1 base1
  let e2 := df a.p2 base2
  let n1 := if live then ref r1 e1 else s32 r1
  let n2 := if live then ref r2 e2 else s32 r2
  let viol (r e : Int) : Bool := if dir = 0 then decide ((tol : Int) < r - e) else decide ((tol : Int) < e - r)
  let bad := live && (viol n1 e1 || viol n2 e2)
  let fault' := bad || (fault && !leaves z a.known bad)
  let keep := isOn && (fresh || isSet)
  let u (x : Int) : Nat := (x % 2 ^ 32).toNat
  { outs := fltOuts fault' 22
    st := if keep then .sdi fault' true base1 base2 (u n1) (u n2) else .sdi fault' false 0 0 0 0
    ev := faultEv fault fault' 22 }

/-- SBC (R242): BRK, FLT, FCODE. `en` is EN_TQ of this span, `lead` that a brake lead runs. -/
def evalSbc (c : Ctx) (tFb : Nat) (ins : List In) (a : AxSnap) (z : Nat) (en lead busy fault last : Bool)
    (fb : Tm) : Res :=
  let f := inp ins 1
  let go (flt : Bool) : Bool := en && !lead && on ins 0 && !busy && !flt
  let brk0 := go (fault && !leaves z a.known false)
  let differs := f.conn && (f.v == 1) != brk0
  let t : Tm := if differs then (if brk0 != last then some 0 else Tm.run c.dt true fb) else none
  let cause := t.reached (nSpans c.tspan tFb)
  let fault' := cause || (fault && !leaves z a.known cause)
  let brk := go fault'
  { outs := [bi brk] ++ fltOuts fault' 25, st := .sbc fault' brk t, ev := faultEv fault fault' 25 }

/-- SBT (R244): TESTED, BUSY, FLT, FCODE. `enC` is the committed EN_TQ, `may` that a coupled member's group
admits a start (R262), `vZero` V_ZERO_D of the axis's SS1. -/
def evalSbt (df : Nat → Nat → Int) (c : Ctx) (tTest sbtPos intervalH vZero : Nat) (ins : List In) (a : AxSnap) (enC stoReq may : Bool)
    (st : Nat) (tested flt : Bool) (test tq : Tm) (s1 s2 : Nat) (age : Tm) : Res :=
  let n := nSpans c.tspan tTest
  let nAge := nSpans c.tspan (intervalH * 3600000000)
  let age' : Tm := Tm.runN c.dt age.isSome age
  let still := tested && !age'.reached nAge
  let go (running tst f : Bool) (t q : Tm) (x y : Nat) (ag : Tm) (ev : List BEv) : Res :=
    { outs := [bi tst, bi running] ++ fltOuts f 26
      st := .sbt (if running then 1 else if f then 2 else 0) tst f t q x y ag, ev := ev }
  let moved (x y : Nat) : Bool :=
    decide (sbtPos < (df a.p1 x).natAbs) || decide (sbtPos < (df a.p2 y).natAbs)
  if st = 1 then
    if stoReq || !enC || !a.known then go false still flt none none s1 s2 age' []
    else
      let t := Tm.run c.dt true test
      let q := Tm.run c.dt (on ins 1) tq
      if moved s1 s2 then go false false true none none s1 s2 none (faultEv flt true 26)
      else if q.reached n then go false true false none none s1 s2 (some 0) []
      else if t.reached n && !on ins 1 then go false false true none none s1 s2 none (faultEv flt true 26)
      else go true still flt t q s1 s2 age' []
  else if (inp ins 0).rise && enC && !stoReq && may && a.known && !exceeds a.dMax vZero then
    go true still flt (some 0) (if on ins 1 then some 0 else none) a.p1 a.p2 age' []
  else go false still flt none none s1 s2 age' []

/-- SSM (R241): Q. -/
def evalSsm (c : Ctx) (ap : AxisPar) (vSsm hys : Nat) (a : AxSnap) (prevOut : List Int) : Res :=
  let v := winUnits ap c.tspan vSsm
  let h := winUnits ap c.tspan hys
  let q := match a.dMax with
    | none => false
    | some x => if x + h ≤ v then true else if v < x then false else prevOut.getD 0 0 == 1
  { outs := [bi q], st := .plain, ev := [] }

/-- What the AXIS reads of the blocks of its axis and of its rein group in a span (R228, R253, R255). -/
structure AxisIn where
  /-- zone state in this span and the committed one -/
  z : Nat
  zc : Nat
  /-- a block of the axis that removes torque is in FAULT (R228, R230) -/
  blockFault : Bool
  stoReq : Bool
  /-- states of SS1, SS2 and SOS in this span, and of SS1 in the last committed image -/
  ss1 : Nat
  ss1c : Nat
  ss2 : Nat
  sos : Nat
  /-- T_ENG of the axis's SBC -/
  tEng : Nat
  /-- the axis is a coupled member, with the state and the running brake lead of its group -/
  coupled : Bool
  rein : Nat
  reinLead : Bool
  deriving DecidableEq, Repr

/-- AXIS (R228, R229, R232, R242, R253): EN_TQ, STOP, KNOWN, SPD, FLT, FCODE. After an ending with T_ENG the brake lead runs; EN_TQ falls with
its end even where REQ has fallen before. T_ENG of a coupled member does not apply: its lead is that of the group. -/
def evalAxis (c : Ctx) (p : AxisPar) (x : AxisIn) (a : AxSnap) (prevOut : List Int) (fault : Bool)
    (lost1 lost2 : Nat) (eng : Tm) : Res :=
  let dl := if c.first then 1 else c.dt
  let l1 := if a.valid1 then 0 else min (lost1 + dl) cntMax
  let l2 := if a.valid2 then 0 else min (lost2 + dl) cntMax
  let lostNow := decide (64 ≤ l1) || decide (64 ≤ l2)
  let recon := a.recon1 || a.recon2
  let cause := lostNow || recon
  let fault' := cause || (fault && !leaves x.z a.known cause)
  let code : Nat := if recon then 20 else if lostNow then 19 else (prevOut.getD 5 0).toNat
  let was := prevOut.getD 0 0 == 1
  let ending := !x.coupled && x.ss1c != 2 && x.ss1 == 2
  let eng' : Tm := if ending && x.tEng != 0 && was then some 0 else Tm.run c.dt eng.isSome eng
  let ends := eng'.reached (nSpans c.tspan x.tEng)
  let lead := if x.coupled then x.reinLead else eng'.isSome && !ends
  let stopping := if x.coupled then x.rein == 1 else (p.stopCat == 1 && (x.ss1 == 1 || lead))
  let zoneOk := x.z == 2 || (x.z == 3 && was && stopping)
  let stopOk := x.ss1 != 3 && x.ss2 != 3 && (x.ss1 != 2 || lead)
  let groupOk := !x.coupled || x.rein == 0 || x.rein == 1
  let en := zoneOk && a.known && !fault' && !x.blockFault && !x.stoReq && stopOk && groupOk && (x.coupled || !ends)
  let stopFn := x.ss1 == 1 || x.ss1 == 2 || x.ss2 == 1 || x.ss2 == 2 || x.sos == 1 || x.stoReq
    || lead || (x.coupled && x.rein != 0)
  let spd : Int := if a.known then satTy .s14 ((a.d1.getD 0) / ((p.w * 2 ^ p.spdSh : Nat) : Int)) else 0
  { outs := [bi en, bi (x.z != 2 || stopFn), bi a.known, spd] ++ fltOuts fault' code
    st := .axis fault' l1 l2 (if en && lead && !x.coupled then eng' else none)
    ev := faultEv fault fault' code }

/-- What a REIN reads of one member in a span (R254 to R257). -/
structure Member where
  axis : Nat
  par : AxisPar
  snap : AxSnap
  /-- REQ of its SS1 rises, and stands -/
  ss1Rise : Bool
  ss1Req : Bool
  /-- a monitor reports a REACT 1 violation that begins in this span -/
  react1 : Bool
  /-- EN_TQ would be 0 under R228 for a cause other than the group -/
  loses : Bool
  /-- a block of the member is in FAULT -/
  fault : Bool
  /-- committed EN_TQ -/
  enC : Bool
  deriving DecidableEq, Repr

/-- One source of the coupling law: the deviation e and the allowance A (R256). -/
def couplingDev (tspan : Nat) (par : AxisPar) (f : Follower) (di dref : Int) : Int × Nat :=
  let q := (f.ratio : Int) * dref / 4096
  (di - q, winUnits par tspan f.tol + f.k * dref.natAbs / 4096)

/-- Smallest margin A − |e| of one follower over both sources; `none` where a speed is unknown. -/
def couplingMargin (tspan : Nat) (f : Follower) (m ref : Member) : Option Int :=
  match m.snap.d1, m.snap.d2, ref.snap.d1, ref.snap.d2 with
  | some x1, some x2, some y1, some y2 =>
    let a := couplingDev tspan m.par f x1 y1
    let b := couplingDev tspan m.par f x2 y2
    some (min ((a.2 : Int) - a.1.natAbs) ((b.2 : Int) - b.1.natAbs))
  | _, _, _, _ => none

/-- A follower violates the coupling law (R256). -/
def couplingBad (tspan : Nat) (f : Follower) (m ref : Member) : Bool :=
  match couplingMargin tspan f m ref with
  | none => true
  | some x => decide (x < 0)

/-- What a REIN reads besides its members. -/
structure ReinIn where
  z : Nat
  zc : Nat
  req : Bool
  reqRise : Bool
  dcpl : Bool
  ref : Member
  fols : List (Follower × Member)
  /-- state of the reference's SS1 in this span, and in the last committed image -/
  ss1 : Nat
  ss1c : Nat
  /-- FCODE of the first violating TENSION of the group, 0 for none (R257) -/
  tension : Nat
  deriving DecidableEq, Repr

/-- Followers that are coupled under a decoupled set (R260). -/
def coupledFols (dc : Nat) (fs : List (Follower × Member)) : List (Follower × Member) :=
  (fs.zipIdx.filter fun x => !bitAt dc (x.2 + 1)).map (·.1)

/-- The cause of a group stop of a COUPLED group, 0 for none (R254, in its order). A group is not COUPLED in a zone that was STOPPING before, so
a zone that is STOPPING has entered it now or at the last commit (R340). -/
def groupStopCause (x : ReinIn) (cf : List (Follower × Member)) : Nat :=
  if x.z == 3 then 1
  else if x.reqRise then 2
  else if x.ref.ss1Rise || cf.any (fun f => f.2.ss1Rise) then 3
  else if x.ref.react1 || cf.any (fun f => f.2.react1) then 4
  else 0

/-- A cause of R257 holds for a group whose law is tested: a coupling violation, a TENSION violation, a member's loss of EN_TQ. -/
def reinEscalates (tspan : Nat) (x : ReinIn) (cf : List (Follower × Member)) : Bool :=
  (cf.any fun f => couplingBad tspan f.1 f.2 x.ref) || x.tension != 0 || x.ref.loses || cf.any fun f => f.2.loses

/-- REIN (R252 to R263): STATE, STOPPING, GSTO, FLT, FCODE. -/
def evalRein (c : Ctx) (p : ReinPar) (x : ReinIn) (prevOut : List Int) (st cause dc : Nat)
    (eng run : Tm) : Res :=
  let dcNow := if c.first then (if x.dcpl then p.dcMask else 0) else dc
  let want := if x.dcpl then p.dcMask else 0
  let cf := coupledFols dcNow x.fols
  let known := x.ref.snap.known && x.fols.all fun f => f.2.snap.known
  let stop := groupStopCause x cf
  let anyTq := x.ref.enC || cf.any fun f => f.2.enC
  let starts := st == 0 && stop != 0
  let ramp := starts && p.gstop == 1
  let tested := st == 1 || ramp || (st == 0 && p.mon == 1 && anyTq)
  let law := tested && cf.any fun f => couplingBad c.tspan f.1 f.2 x.ref
  let lose := x.ref.loses || cf.any fun f => f.2.loses
  let go (st' ca : Nat) (e r : Tm) (code : Nat) (ev : List BEv) : Res :=
    { outs := [(st' : Int), bi (st' == 1), bi (st' == 2)] ++ fltOuts (st' == 3) code
      st := .rein st' ca dcNow (if st' == 1 then dcNow else want) e r
      ev := faultEv (st == 3) (st' == 3) code ++ ev }
  let stopEv : List BEv := if starts then [.gstop stop] else []
  if st = 0 || st = 1 then
    if law then go 3 6 none none 28 ([.escal 6] ++ stopEv)
    else if x.tension != 0 then go 3 7 none none x.tension ([.escal 7] ++ stopEv)
    else if lose then go 2 5 none none 0 ([.escal 5] ++ stopEv)
    else if starts && p.gstop == 0 then go 2 9 none none 0 ([.escal 9] ++ stopEv)
    else if ramp || st = 1 then
      let ca := if ramp then stop else cause
      let r : Tm := if ramp then some 0 else Tm.run c.dt true run
      let ended := x.ss1 == 2 && (x.ss1c == 1 || ramp) && eng.isNone
      let e : Tm := if ended then (if p.tEng = 0 then none else some 0) else Tm.run c.dt eng.isSome eng
      if (ended && p.tEng == 0) || e.reached (nSpans c.tspan p.tEng) then go 2 ca none none 0 stopEv
      else go 1 ca e r 0 stopEv
    else go 0 cause none none 0 []
  else if st = 2 then
    let reqs := x.req || x.fols.any fun f => f.2.ss1Req
    let faults := x.ref.fault || x.fols.any fun f => f.2.fault
    if x.z == 2 && !reqs && !faults && known && !lose then go 0 cause none none 0 [] else go 2 cause none none 0 []
  else if x.z == 0 && known then go 2 cause none none 0 []
  else go 3 cause none none (prevOut.getD 4 0).toNat []

/-- TENSION (R259): OK, FLT, FCODE. `tested` is that the coupling law of its group is tested in this span, `reinFault`
that its REIN stays in FAULT. -/
def evalTension (c : Ctx) (tLo tHi : Int) (tFilt : Nat) (ins : List In) (tested reinFault : Bool)
    (prevOut : List Int) (band lost : Nat) : Res :=
  let n := nSpans c.tspan tFilt
  let t := (inp ins 0).v
  let tv := on ins 1
  let was := prevOut.getD 1 0 == 1
  let bnd := if tested && (decide (t < tLo) || decide (tHi < t)) then min (band + c.dt) cntMax else 0
  let lst := if tested && !tv then min (lost + c.dt) cntMax else 0
  let v29 := tested && bnd != 0 && decide (n ≤ bnd)
  let v30 := tested && lst != 0 && decide (n ≤ lst)
  let flt := v29 || v30 || (was && reinFault)
  let code : Nat := if v30 then 30 else if v29 then 29 else (prevOut.getD 2 0).toNat
  { outs := [bi (!v29 && !v30)] ++ fltOuts flt code, st := .tension bnd lst, ev := faultEv was flt code }

end Sys2Proof
end

