-- ==== Sys2Proof/Machine/ZoneConn.lean ====
section
/-! DEFINITION. ZONE (03_pattern_engine.md R82 to R85, 11_fault_handling.md R304, R305) and the connection
blocks (04_function_blocks.md R123, R124, 10_safe_networks.md R276, R284, R285). -/

namespace Sys2Proof

/-- What a ZONE reads besides its ports. -/
structure ZoneIn where
  /-- a latching demand by membership, and the instance it comes from (R230, R257, R497) -/
  member : Bool
  memberInst : Nat
  /-- instances that feed DMD0 to DMD15 -/
  srcs : List Nat
  /-- every stop function of the zone is complete in the committed state (R122) -/
  done : Bool
  /-- a set FSW bit of class C2 or above concerns the zone (R304 condition 2) -/
  fswBlocks : Bool
  /-- start of the press behind a pulse at RST, `none` where it cannot be established -/
  pressNs : Option Nat
  /-- a remote reset taken in this span, with its time (R305) -/
  remote : Option Nat
  /-- application of the last clear that concerned the zone -/
  clearNs : Nat
  /-- time of the commit point of this span -/
  commitNs : Nat
  /-- the device is in RUN (R304 condition 1) -/
  inRun : Bool
  deriving DecidableEq, Repr

/-- The first condition of R304 that a pulse in a LOCKED zone fails, 0 for none. -/
def resetWhy (c : Ctx) (x : ZoneIn) (entryNs : Nat) (demand : Bool) (press : Option Nat) : Nat :=
  if x.fswBlocks then 2
  else match press with
    | none => 3
    | some t =>
      if t ≤ entryNs || t ≤ c.firstTickNs || t ≤ x.clearNs then 3
      else if demand then 4 else 0

/-- The pulses of a span: that of RST and a remote reset. -/
def zonePulses (ins : List In) (x : ZoneIn) : List (Option Nat) :=
  (if on ins 17 then [x.pressNs] else []) ++ (match x.remote with
    | none => []
    | some t => [some t])

/-- ZONE (R83, R84, R121): STATE, READY, RUN, STOP. `zs` is the state at the start of the span. -/
def evalZone (c : Ctx) (latch : Nat) (ins : List In) (x : ZoneIn) (zs : Nat) (latched lockout : Bool)
    (cnt entryNs : Nat) : Res :=
  let hits := (List.range 16).filter fun k => on ins k
  let demand := !hits.isEmpty || x.member
  let latchNow := (hits.any fun k => bitAt latch k) || x.member
  let causeInst := match hits with
    | [] => x.memberInst
    | k :: _ => x.srcs.getD k 0xFFFF
  let pulses := zonePulses ins x
  let whys := pulses.map fun p => if zs = 0 && x.inRun then resetWhy c x entryNs demand p else 1
  let go (z : Nat) (lt lo : Bool) (ev : List BEv) : Res :=
    let entered := z = 0 && zs != 0
    { outs := [(z : Int), bi (z == 1), bi (z == 2), bi (z == 3)]
      st := .zone (lt && z == 3) (lo || entered) (if entered then (cnt + 1) % 65536 else cnt)
        (if entered then x.commitNs else entryNs)
      ev := ev }
  let refused : List BEv := (whys.filter (· != 0)).map .zoneRefused
  if zs = 0 then
    if whys.any (· == 0) then go 1 false false [.zoneReset]
    else go 0 false lockout refused
  else if zs = 1 then
    if demand && latchNow then go 0 false lockout (refused ++ [.zoneCause causeInst])
    else if demand then go 1 false lockout refused
    else if on ins 16 then go 2 false lockout refused
    else go 1 false lockout refused
  else if zs = 2 then
    if demand then go 3 latchNow lockout (refused ++ [.zoneCause causeInst]) else go 2 false lockout refused
  else
    let l := latched || latchNow
    if !x.done then go 3 l lockout refused
    else if l || demand then go 0 false lockout refused
    else go 1 false lockout refused

/-- What the snapshot holds of an inbound connection in a span. -/
inductive ConnSnap where
  | none
  /-- a pair was accepted: tuple and payload of the own copy -/
  | pair (boot epoch seq : Nat) (payload : List Byte)
  /-- one copy was accepted lone -/
  | lone (boot epoch seq : Nat) (payload : List Byte)
  /-- the copies of one tuple disagreed (R283) -/
  | mismatch
  deriving DecidableEq, Repr

/-- The value of one point of a payload (R272). -/
def pointVal (payload : List Byte) (p : MapPt) : Int :=
  match p.ty with
  | .bool => bi (bitAt ((payload.getD (p.ofs / 8) 0).toNat) (7 - p.ofs % 8))
  | .s14 => let w := beAt payload (p.ofs / 8) 2; if w % 16384 < 8192 then (w % 16384 : Nat) else (w % 16384 : Nat) - 16384
  | .u14 => (beAt payload (p.ofs / 8) 2 % 16384 : Nat)

/-- CONN_IN (R123, R284, R285): VALID, LONE, then the points in MAP order. DESIGN CHOICE (log 109): the failing check that drops VALID at
once is the pairing check (code 7); a copy that fails checks 1 to 6 is discarded, and VALID falls with the watchdog. LONE is 1 in every span
in which input is accepted from one network only, also while VALID waits for ACK. -/
def evalConnIn (c : Ctx) (p : ConnPar) (ins : List In) (sn : ConnSnap) (prevOut : List Int) (waitAck : Bool)
    (wd : Nat) (lone : Tm) (boot epoch seq : Nat) : Res :=
  let was := prevOut.getD 0 0 == 1
  let base := if c.first then 0 else min (wd + c.dt) cntMax
  let safes := p.map.map (·.safe)
  let adv : Tm := Tm.run c.dt lone.isSome lone
  let go (v ln w : Bool) (pts : List Int) (wd' : Nat) (l : Tm) (t : Nat × Nat × Nat) : Res :=
    { outs := [bi v, bi ln] ++ (if v then pts else safes)
      st := .connIn w wd' l t.1 t.2.1 t.2.2, ev := [] }
  let tup := (boot, epoch, seq)
  let drop := waitAck || (was && p.reack == 1)
  match sn with
  | .mismatch => go false false drop safes base adv tup
  | .none =>
    if decide (p.wd ≤ base) then go false false drop safes base adv tup
    else go was (prevOut.getD 1 0 == 1) waitAck (prevOut.drop 2) base adv tup
  | .pair b e s pl =>
    let v := was || !waitAck || (inp ins 0).rise
    go v false (waitAck && !v) (p.map.map (pointVal pl)) 0 none (b, e, s)
  | .lone b e s pl =>
    let v := was || !waitAck
    go v true (waitAck && !v) (p.map.map (pointVal pl)) 0 (if lone.isSome then adv else some 0) (b, e, s)

/-- CONN_OUT (R124, R276): SENT. SEQ 0 means that no telegram has been sent since entry into RUN; `closed` is
AUTH = 1 while AUTH_STATE is not 0 (R288). -/
def evalConnOut (c : Ctx) (p : ConnPar) (authClosed : Bool) (epoch seq : Nat) : Res :=
  let due := p.period != 0 && c.span % p.period == p.phase && !authClosed
  let fresh := seq == 0 || seq + 1 == 2 ^ 31
  if !due then { outs := [0], st := .connOut epoch seq, ev := [] }
  else if fresh then
    if 65535 ≤ epoch then { outs := [0], st := .connOut epoch seq, ev := [] }
    else { outs := [1], st := .connOut (epoch + 1) 1, ev := [.send] }
  else { outs := [1], st := .connOut epoch (seq + 1), ev := [.send] }

end Sys2Proof
end

