-- ==== Sys2Proof/Machine/StateEngine.lean ====
section
/-! DEFINITION. State of one L-die around the evaluation: timebase, lanes and images, span snapshot, compare and
replay, Stitch endpoint (02_span_timing.md, 03_pattern_engine.md, 05_channel_diversity.md). -/

namespace Sys2Proof.Machine

/-- The phase of a die's span (Table 02-4). `idle` before the first tick, `el` evaluation past the end of phase E
(R53). -/
inductive Phase where
  | idle | a | e | el | c | s
  deriving DecidableEq, Repr

/-- The timebase of one die (R40 to R51, R499). The last tick fell at SPAN_NO × T_span + TICK_OFS + `err` ns. -/
structure Timebase where
  locked : Bool
  ever : Bool
  syncs : Nat
  offs : List Int
  spanNo : Nat
  /-- SPAN_NO of the tick before -/
  prev : Nat
  err : Int
  /-- the span in progress, ns -/
  tspan : Nat
  tickNs : Nat
  /-- CK_TICK cycle at which the tick fell -/
  tickAt : Nat
  phase : Phase
  steer : Bool
  slew : Bool
  holdNs : Nat
  /-- SPAN_NO of the next tick where it falls on another grid by a single step (R43, R499) -/
  step : Option Nat
  /-- the die's time of the tick, taken for R45 -/
  ts : Nat
  lastCommit : Nat
  deriving DecidableEq, Repr

/-- No tick, free-running (R499). -/
def Timebase.init : Timebase :=
  { locked := false, ever := false, syncs := 0, offs := [], spanNo := 0, prev := 0, err := 0, tspan := 250000, tickNs := 0, tickAt := 0,
    phase := .idle, steer := false, slew := false, holdNs := 0, step := none, ts := 0, lastCommit := 0 }

/-- An evaluation image: variable values and internal states by position in Pattern order (R75). On L-B the values
are coded words (R134). `ev` is what the commit carries out. -/
structure Img where
  vars : Tab Int
  ist : Tab IState
  /-- on L-B: the limb words of the motion quantities of position q from 16 q on (R223) -/
  limbs : Tab Int
  ev : List (Nat × BEv)
  deriving DecidableEq, Repr

/-- The image with nothing in it. -/
def Img.empty : Img := { vars := [], ist := [], limbs := [], ev := [] }

/-- A lane (R74, R76 to R78, R439). -/
inductive LaneSt where
  | free
  | busy (pos : Nat)
  | errored
  | failed
  | spare
  | isolated
  | retired
  deriving DecidableEq, Repr

/-- Scoreboard, lanes and images of one die (R74 to R78, R57). -/
structure Engine where
  /-- default `free` -/
  lanes : Tab LaneSt
  /-- evaluation of the span has begun and is neither finished nor abandoned -/
  active : Bool
  abandoned : Bool
  retired : Nat
  done : List (Nat × Res)
  /-- positions whose job has reported an error in this span -/
  errs : List Nat
  work : Img
  com : Img
  /-- variables of the committed image before that: what feedback edges gave in the last committed span (R96, log 104) -/
  com0 : Tab Int
  /-- committed CMD and OPREQ words per F-die, default (0, 0) -/
  comOut : Tab (Nat × Nat)
  /-- no image has been committed since entry into RUN -/
  first : Bool
  comSpan : Nat
  firstSpan : Nat
  firstTickNs : Nat
  /-- time of the last clear that concerned each zone (R304) -/
  clears : Tab Nat
  /-- brake outputs whose next off-pulse opens SW_B, by channel (R202, R243) -/
  alt : Tab Bool
  /-- reject counter of each position since entry into RUN (INST_REJ) -/
  rejs : Tab Nat
  /-- largest number of jobs in flight since entry into RUN (JOBS_PEAK) -/
  peak : Nat
  deriving DecidableEq, Repr

/-- Lane 16 is the spare, nothing evaluated (R74). -/
def Engine.init : Engine :=
  { lanes := [(16, .spare)], active := false, abandoned := false, retired := 0, done := [], errs := [],
    work := .empty, com := .empty, com0 := [], comOut := [], first := true, comSpan := 0, firstSpan := 0, firstTickNs := 0,
    clears := [], alt := [], rejs := [], peak := 0 }

/-- What a snapshot holds of one input channel (R79, R169, R113). -/
structure ChanSnap where
  own : Bool
  peer : Bool
  codeOwn : Nat
  codePeer : Nat
  warmOwn : Bool
  warmPeer : Bool
  chainErr : Bool
  cap : CapIn
  deriving DecidableEq, Repr

/-- A channel with nothing delivered reads off (R52). -/
def ChanSnap.off : ChanSnap :=
  { own := false, peer := false, codeOwn := 0, codePeer := 0, warmOwn := false, warmPeer := false,
    chainErr := false, cap := { rise := 0, fall := 0, ovRise := false, ovFall := false } }

/-- One of the 8 snapshot slots (R79). -/
structure Snap where
  opened : Bool
  span : Nat
  tickNs : Nat
  frozen : Bool
  /-- the stored CRC-32C (R79) -/
  crc : Nat
  /-- bit d: the image of F-die d is in; bit 4 the RSTIN balls -/
  images : Nat
  peerImages : Nat
  chans : Tab ChanSnap
  /-- by position of the CONN_IN instance -/
  conns : Tab ConnSnap
  /-- by axis -/
  axes : Tab AxSnap
  /-- by STDIN slot: last value taken and the SPAN_NO of the tick that took it -/
  stdin : Tab (Option (Int × Nat))
  /-- by zone: a remote reset with its time of writing (R305) -/
  remote : Tab (Option Nat)
  /-- channels whose output code of either die is non-zero (R205) -/
  outFault : Tab Bool
  deriving DecidableEq, Repr

/-- A slot that has never been opened. -/
def Snap.empty : Snap :=
  { opened := false, span := 0, tickNs := 0, frozen := false, crc := 0, images := 0, peerImages := 0, chans := [],
    conns := [], axes := [], stdin := [], remote := [], outFault := [] }

/-- Where a die stands with the disagreement of its span (R153 to R157). -/
inductive Stage where
  | none | full | local | eval | recompare
  deriving DecidableEq, Repr

/-- Compare and replay of one die (R146 to R157). -/
structure Cmp where
  own : List CmpRec
  peer : List CmpRec
  readySent : Bool
  readyRx : Bool
  /-- groups that disagreed in the span before -/
  disagPrev : List Nat
  stage : Stage
  /-- replay set and its earliest group -/
  set : List Nat
  grp : Nat
  /-- own stream words of the earliest group before the replay -/
  ownWords : List Nat
  /-- bytes of telegram records of the peer that have arrived so far, by connection -/
  parts : Tab (List Byte)
  /-- flits of stale telegram records that have arrived so far, by connection (R150) -/
  stale : Tab Nat
  /-- localisation flits of the peer that have arrived, by record index (R155) -/
  locs : Tab (List Byte)
  named : Option (Nat × Nat)
  /-- zones that a reaction locked at the commit point of this span (R296) -/
  locks : List Nat
  /-- the previous span of this die overran -/
  overPrev : Bool
  /-- spans of the last 1,024 that overran -/
  overs : List Nat
  deriving DecidableEq, Repr

/-- Nothing compared. -/
def Cmp.init : Cmp :=
  { own := [], peer := [], readySent := false, readyRx := false, disagPrev := [], stage := .none, set := [], grp := 0,
    ownWords := [], parts := [], stale := [], locs := [], named := none, locks := [], overPrev := false, overs := [] }

/-- A record in the retry buffer: SEQ, virtual channel, record kind, transmissions (R142). The virtual channel is 255 while only damaged
copies of the flit have arrived. -/
structure TxFlit where
  seq : Nat
  vc : Nat
  kind : Nat
  tries : Nat
  deriving DecidableEq, Repr

/-- A flit that is ready to be sent, with the SPAN_NO of its record (R144). -/
structure TxRec where
  rec_ : FlitRec
  span : Nat
  /-- CK_TICK time before which the stretch perturbation holds it back (R471) -/
  at_ : Nat
  deriving DecidableEq, Repr

/-- The Stitch endpoint of one die (R141 to R144). -/
structure Link where
  txSeq : Nat
  /-- SEQ of the last flit received in order -/
  rxSeq : Nat
  /-- last ACK received -/
  ack : Nat
  retry : List TxFlit
  /-- flits ready to be sent, in the order in which they leave: by priority of their virtual channel, then first in first out -/
  txq : List TxRec
  /-- credits left of VC0, VC1, VC3, VC4 -/
  cr0 : Nat
  cr1 : Nat
  cr3 : Nat
  cr4 : Nat
  /-- VC2 flits received in the span -/
  vc2 : Nat
  /-- lanes of this die's transmit direction that trained, bit n for lane n (R143) -/
  lanes : Nat
  retrain : Bool
  /-- an error has been reported to the sender -/
  nak : Bool
  deriving DecidableEq, Repr

/-- Trained on four lanes with full credit (Table 05-4, Table 05-8). -/
def Link.init : Link :=
  { txSeq := 0, rxSeq := 4095, ack := 4095, retry := [], txq := [], cr0 := 32, cr1 := 512, cr3 := 512, cr4 := 64, vc2 := 0,
    lanes := 15, retrain := false, nak := false }

end Sys2Proof.Machine
end

