-- ==== Sys2Proof/Machine/StateField.lean ====
section
/-! DEFINITION. State of the field side: the comparator chain of each channel, output supervision, the port of a
die, the F-dies (06_field_inputs.md, 07_field_outputs.md). -/

namespace Sys2Proof.Machine

/-- Raw level, filter and captures of a chain (R163 to R166, R177, R413 to R415). Times are in ns of the die. -/
structure Filt where
  raw : Bool
  /-- input of the debounce after blanking and pulse filter -/
  lvl : Bool
  on : Bool
  deb : Bool
  /-- the filtered state has been off at some time since the last latch -/
  offSeen : Bool
  /-- the filtered state has been on at some time since the last latch -/
  onSeen : Bool
  /-- the pulse filter of a kind-3 channel is on; `low` while it counts a low interval, or the first on level after an entry
  into RUN -/
  pf : Bool
  low : Bool
  /-- an own test-pulse window is open, with the level held (R173) -/
  win : Bool
  held : Bool
  lastEdge : Nat
  /-- what the filter delay of Table 06-3 counts from: the last raw edge, or the end of the own window that it fell into -/
  base : Nat
  /-- the last raw edge fell into the own window, which is still open -/
  inWin : Bool
  /-- the tick that stands for the edge after a capture overran (R415) -/
  late : Option Nat
  capRise : Nat
  capFall : Nat
  /-- the last capture was one of CAP_FALL, so that the next rise forms LAST_LOW (R413) -/
  fallSeen : Bool
  lock : Bool
  /-- pending stage: rising or falling, time -/
  pend : Option (Bool × Nat)
  ovRise : Bool
  ovFall : Bool
  deriving DecidableEq, Repr

/-- Raw off, filters off. -/
def Filt.init : Filt :=
  { raw := false, lvl := false, on := false, deb := false, offSeen := true, onSeen := false, pf := false, low := false,
    win := false, held := false, lastEdge := 0, base := 0, inWin := false, late := none, capRise := 0, capFall := 0, fallSeen := false, lock := false, pend := none,
    ovRise := false, ovFall := false }

/-- Supervision of a chain (R169 to R180). -/
structure Superv where
  /-- latched codes 1 to 6 as bits 1 to 6 -/
  codes : Nat
  /-- warm-up of R86 complete on the own chain, and on the peer's: each has read on since the entry into RUN -/
  warm : Bool
  peerWarm : Bool
  /-- own window: filtered on at its opening; its low interval: start and width in ns, width 0 once a second one was seen -/
  winOn : Bool
  winLow : Option (Nat × Nat)
  /-- a foreign window is open; falling edge and widths of the raw low intervals inside it -/
  fgnOpen : Bool
  fgnFall : Option Nat
  fgnLow : List Nat
  /-- the own window of the current period gave a clean verdict -/
  cleanSeen : Bool
  /-- the filtered state has been off, and no foreign pulse seen, for the whole period so far -/
  offPeriod : Bool
  /-- no foreign pulse in the current period -/
  fgnFree : Bool
  /-- reads on again only after a clean period (R176) -/
  needClean : Bool
  /-- consecutive used samples: between 6 and 10 V; 12 V or more while off; 4 V or less while on; clean -/
  mid : Nat
  disHi : Nat
  disLo : Nat
  clean : Nat
  /-- consecutive spans of differing latched states, and of both off (R170) -/
  differ : Nat
  bothOff : Nat
  chainErr : Bool
  lastLow : Nat
  deriving DecidableEq, Repr

/-- No code, not warm. -/
def Superv.init : Superv :=
  { codes := 0, warm := false, peerWarm := false, winOn := false, winLow := none, fgnOpen := false, fgnFall := none, fgnLow := [], cleanSeen := false, offPeriod := false, fgnFree := true, needClean := true,
    mid := 0, disHi := 0, disLo := 0, clean := 0, differ := 0, bothOff := 0, chainErr := false, lastLow := 0 }

/-- The chain of one channel on one port. -/
structure Chain where
  f : Filt
  v : Superv
  /-- state latched at the last tick (R166), and the code latched with it (R174) -/
  img : Bool
  code : Nat
  /-- filtered on at the last tick although the image reads off, because it was not on throughout (R64, R166) -/
  near : Bool
  /-- IN_STAT of the last snapshot -/
  stat : Nat
  deriving DecidableEq, Repr

/-- A chain at rest. -/
def Chain.init : Chain := { f := .init, v := .init, img := false, code := 0, near := false, stat := 0 }

/-- Output supervision of one channel on one die (R201 to R206). -/
structure OutSup where
  /-- latched codes 1 to 9 as bits 1 to 9 -/
  codes : Nat
  /-- end of the running suspension of R201, ns -/
  settle : Nat
  /-- the check was suspended at some time since the last tick, and in the latched interval of the image -/
  susp : Bool
  suspImg : Bool
  /-- an off-pulse of this channel runs, and whether the ball fell -/
  pulse : Bool
  fell : Bool
  /-- start of the last pulse, and the falling edge of a low interval in progress, ns -/
  pulseAt : Option Nat
  lowAt : Option Nat
  /-- start of the clean interval with both ports commanding off -/
  cleanSince : Option Nat
  vBall : Nat
  vMid : Nat
  ma : Nat
  deriving DecidableEq, Repr

/-- No code. -/
def OutSup.init : OutSup :=
  { codes := 0, settle := 0, susp := false, suspImg := false, pulse := false, fell := false, pulseAt := none, lowAt := none, cleanSince := none, vBall := 0, vMid := 0, ma := 0 }

/-- What a die sent last on its port to one F-die (R193, R60). -/
structure PortTx where
  ktSeq : Nat
  cmd : Nat
  deriving DecidableEq, Repr

/-- Hold mode of a die's port (R199, R200). -/
structure Hold where
  on : Bool
  since : Nat
  deriving DecidableEq, Repr

/-- One port of an F-die (R188, R194 to R197). Masks have one bit per channel. -/
structure FPort where
  trip : Bool
  token : Bool
  /-- KT_SEQ of the last accepted frame; `none` while any is accepted (R194) -/
  seq : Option Nat
  marks : Nat
  markAt : Nat
  cmd : BitVec 32
  /-- closed as the commands and the protection leave it; it conducts while its gate drive has supply and no pulse opens it -/
  closed : BitVec 32
  prot : BitVec 32
  /-- open since a trip, until a frame commands them closed -/
  tripped : BitVec 32
  opReq : BitVec 32
  opRun : BitVec 32
  hold : Bool
  /-- modes written through the port -/
  modes : Tab Nat
  cfgOpen : Bool
  /-- channels whose mode was written since a CRC error of the stored modes (R210) -/
  wrote : BitVec 32
  deriving DecidableEq, Repr

/-- Everything open, no token. -/
def FPort.init : FPort :=
  { trip := true, token := false, seq := none, marks := 0, markAt := 0, cmd := 0, closed := 0, prot := 0, tripped := 0,
    opReq := 0, opRun := 0, hold := false, modes := [], cfgOpen := false, wrote := 0 }

/-- One F-die. -/
structure FDie where
  a : FPort
  b : FPort
  powered : Bool
  /-- VFLD is low (R197) -/
  low : Bool
  gate : Bool
  /-- applied modes of its 32 channels, default 0 (R188) -/
  modes : Tab Nat
  /-- test-pulse sources that hold SW_A open -/
  pulsing : BitVec 8
  sinks : BitVec 32
  /-- causes of R210 as bits 0 to 5 -/
  causes : Nat
  clean : Nat
  /-- loop-back test: port under test and channels held off (R440) -/
  test : Option Die
  heldOff : BitVec 32
  deriving DecidableEq, Repr

/-- An F-die as PD_F<d>L off leaves it. -/
def FDie.init : FDie :=
  { a := .init, b := .init, powered := false, low := true, gate := false, modes := [], pulsing := 0, sinks := 0, causes := 0,
    clean := 0, test := none, heldOff := 0 }

end Sys2Proof.Machine
end

