-- ==== Sys2Proof/Machine/StateNet.lean ====
section
/-! DEFINITION. State of the networks: ports, forwarding table, connections, stream decoders
(10_safe_networks.md, 08_safe_motion.md R213 to R221). -/

namespace Sys2Proof.Machine

/-- A frame in an egress queue (R268): queue, bytes from the destination address on without the FCS, and length with it. Of a frame
that the switch cuts through, the bytes are its addresses, tag and EtherType. -/
structure EthFrame where
  queue : Nat
  bytes : List Byte
  len : Nat
  deriving DecidableEq, Repr

/-- An external port of a network (R267 to R270, R277). -/
structure EPort where
  link : Bool
  gigabit : Bool
  delay : Nat
  asCapable : Bool
  slave : Bool
  /-- best announce seen: (priority, grandmaster) -/
  best : Option (Nat × Nat)
  /-- index of the running entry of the gate control list, and the gates it sets -/
  entry : Nat
  gates : Nat
  /-- the 8 egress queues, in order of arrival (R268) -/
  queue : List EthFrame
  /-- the link returned and a replay is due -/
  replay : Bool
  /-- telegrams the port did not transmit: (span, conn, epoch, seq) -/
  lost : List (Nat × Nat × Nat × Nat)
  deriving DecidableEq, Repr

/-- Link down. -/
def EPort.init : EPort :=
  { link := false, gigabit := false, delay := 0, asCapable := false, slave := false, best := none, entry := 0, gates := 255, queue := [],
    replay := false, lost := [] }

/-- A telegram as released at a commit (R289): committing span, tuple, ports, body and the bytes of its frame. -/
structure Released where
  span : Nat
  conn : Nat
  epoch : Nat
  seq : Nat
  ports : Nat
  body : List Byte
  frame : List Byte
  deriving DecidableEq, Repr

/-- The network of one die. -/
structure Net where
  p0 : EPort
  p1 : EPort
  /-- learned entries: MAC to port -/
  fdb : Tab (Option Nat)
  macReset : Bool
  /-- transmitters held idle (R324) -/
  idle : Bool
  /-- frames that left in the span in progress: port and bytes -/
  sent : List (Nat × List Byte)
  /-- telegrams released in the last spans -/
  released : List Released
  deriving DecidableEq, Repr

/-- No link, nothing learned. -/
def Net.init : Net := { p0 := .init, p1 := .init, fdb := [], macReset := false, idle := false, sent := [], released := [] }

/-- An external port. -/
def Net.port (n : Net) (k : Nat) : EPort := if k = 0 then n.p0 else n.p1

/-- Change it. -/
def Net.updPort (n : Net) (k : Nat) (f : EPort → EPort) : Net := if k = 0 then { n with p0 := f n.p0 } else { n with p1 := f n.p1 }

/-- Frames of a port whose gates stand open leave, the highest queue first (log 130). -/
def Net.emit (n : Net) (k : Nat) : Net :=
  let p := n.port k
  let out := [7, 6, 5, 4, 3, 2, 1, 0].flatMap fun j => if p.gates / 2 ^ j % 2 = 1 then p.queue.filter (·.queue == j) else []
  let m := n.updPort k fun p => { p with queue := p.queue.filter fun f => p.gates / 2 ^ f.queue % 2 == 0 }
  { m with sent := n.sent ++ out.map fun f => (k, f.bytes) }

/-- The port takes frames: link up, transmitters not idle, MAC not in reset. -/
def Net.sends (n : Net) (k : Nat) : Bool := (n.port k).link && !n.idle && !n.macReset

/-- A frame enters its egress queue, and leaves at once where the gate stands open; a port that cannot send takes none. -/
def Net.send (n : Net) (k : Nat) (f : EthFrame) : Net :=
  if n.sends k then (n.updPort k fun p => { p with queue := p.queue ++ [f] }).emit k else n

/-- Empty the egress queues of both ports. -/
def Net.flush (n : Net) : Net := { n with p0 := { n.p0 with queue := [] }, p1 := { n.p1 with queue := [] } }

/-- Reset of the MAC: its egress path loses what it holds (R289, Table 11-4). -/
def Net.reset (n : Net) : Net := { n.flush with macReset := true }

/-- The transmitters fall idle (R324); what waited does not leave. -/
def Net.quiet (n : Net) : Net := { n.flush with idle := true }

/-- An accepted copy that a die holds (R280). -/
structure Copy where
  span : Nat
  ingress : Nat
  boot : Nat
  epoch : Nat
  seq : Nat
  body : List Byte
  deriving DecidableEq, Repr

/-- A peer record of an accepted copy (R281). -/
structure PeerCopy where
  span : Nat
  boot : Nat
  epoch : Nat
  seq : Nat
  len : Nat
  crc : Nat
  body : Option (List Byte)
  deriving DecidableEq, Repr

/-- An inbound connection (R279 to R286). -/
structure InConn where
  held : List Copy
  peer : List PeerCopy
  /-- last accepted tuple as one number (R279), which survives entry into RUN within a boot -/
  last : Nat
  /-- tuples derived keys exist for: (boot, epoch, key) -/
  keys : List (Nat × Nat × List Byte)
  lastChk : Nat
  /-- a copy was accepted in the span in progress, and in the last span -/
  seen : Bool
  seenLast : Bool
  /-- bytes of the peer's full record that have arrived so far (R281) -/
  part : List Byte
  deriving DecidableEq, Repr

/-- Nothing held. -/
def InConn.init : InConn :=
  { held := [], peer := [], last := 0, keys := [], lastChk := 0, seen := false, seenLast := false, part := [] }

/-- A position telegram in the inbound buffer (R214 to R217): sampling tick, next in sequence, keyframe, SRC_OK, and for
each slot its word D_k and full count. `from_` is the earliest span whose snapshot it may enter (R26, R64). -/
structure PosTel where
  tick : Nat
  from_ : Nat
  next : Bool
  key : Bool
  ok : Nat
  words : List (Int × Option Nat)
  deriving DecidableEq, Repr

/-- Decoder of one slot of a stream: last raw count, chain broken (R219). -/
structure Slot where
  raw : Nat
  broken : Bool
  deriving DecidableEq, Repr

/-- A slot without history. -/
def Slot.init : Slot := { raw := 0, broken := true }

/-- A position stream on one die (R218): last accepted tuple, and every accepted tuple as ranges, the greatest
first. -/
structure Stream where
  boot : Nat
  epoch : Nat
  seq : Nat
  acc : List (Nat × Nat)
  slots : Tab Slot
  /-- accepted telegrams whose samples have not all entered a snapshot -/
  buf : List PosTel
  deriving DecidableEq, Repr

/-- No telegram yet. -/
def Stream.init : Stream := { boot := 0, epoch := 0, seq := 0, acc := [], slots := [], buf := [] }

/-- History of one source of an axis: the last 65 positions by span, newest first, and HV (R221). -/
structure PosHist where
  ps : List Nat
  hv : Nat
  /-- the chain of the source is intact (R219) -/
  chain : Bool
  deriving DecidableEq, Repr

/-- No valid history. -/
def PosHist.init : PosHist := { ps := [], hv := 0, chain := false }

/-- An outbound connection beside its committed EPOCH and SEQ (R276, R286, R289). -/
structure OutConn where
  epoch : Nat
  key : List Byte
  sent : Bool
  deriving DecidableEq, Repr

/-- Nothing sent in this boot. -/
def OutConn.init : OutConn := { epoch := 0, key := [], sent := false }

end Sys2Proof.Machine
end

