-- ==== Sys2Proof/Machine/StateSys.lean ====
section
/-! DEFINITION. State of the P-die: modes and power, clocks, fault collection, leases (11_fault_handling.md,
12_clocks.md, 13_power_modes.md, 01_architecture.md). -/

namespace Sys2Proof.Machine

/-- The six modes (R337). -/
inductive Mode where
  | shelf | boot | configure | run | safe | service
  deriving DecidableEq, Repr

/-- The power states (R341). -/
inductive Pwr where
  | active | sleep | deepSleep
  deriving DecidableEq, Repr

/-- Code of a mode in MODE_STAT (Table 13-9). -/
def Mode.code : Mode → Nat
  | .shelf => 1
  | .boot => 1
  | .configure => 2
  | .run => 3
  | .safe => 4
  | .service => 5

/-- Code of a power state. -/
def Pwr.code : Pwr → Nat
  | .active => 0
  | .sleep => 1
  | .deepSleep => 2

/-- The wait for the first span in RUN (R43): aligned ticks of both generators on the new grid so far, gPTP time of
the eighth, ticks of either die, start on CK_TICK. -/
structure RunWait where
  aligned : Nat
  eighthNs : Option Nat
  since : Nat
  /-- the request was for SERVICE test access (R470) -/
  service : Bool
  /-- OVR_TOL as the entry will put it in force (R43) -/
  ovrTol : Nat
  deriving DecidableEq, Repr

/-- Modes and requests (R337 to R343). -/
structure Modes where
  mode : Mode
  /-- update activation in progress: the mode to return to -/
  act : Option Mode
  /-- an accepted request: code and seat -/
  req : Option (Nat × Nat)
  /-- a request 4 in RUN has been taken and its stop runs (R340) -/
  stopping : Bool
  wait : Option RunWait
  pwr : Pwr
  pwrReq : Option Pwr
  /-- zones that hold a lock-out (R85), default false -/
  lockouts : Tab Bool
  /-- the values of SPAN_K, TICK_OFS, TB_MODE, OVR_TOL in force (R43) -/
  spanK : Nat
  tickOfs : Nat
  tbMode : Nat
  ovrTol : Nat
  deriving DecidableEq, Repr

/-- SHELF, nothing requested, the grid of the entry defaults. -/
def Modes.init : Modes :=
  { mode := .shelf, act := none, req := none, stopping := false, wait := none, pwr := .active, pwrReq := none, lockouts := [],
    spanK := 3, tickOfs := 0, tbMode := 0, ovrTol := 1 }

/-- A power-fail record: SPAN_NO, RTC time, FSW, FSW_SEC, last journal entries (R349). -/
structure PfRec where
  span : Nat
  rtc : Nat
  fsw : BitVec 64
  sec : BitVec 64
  jrn : List (List Byte)
  deriving DecidableEq, Repr

/-- The power-fail record of a die's flash in this boot (R349): none, under way with the contents that the PFW latch gave it, complete. -/
inductive PfState where
  | idle
  | writing (r : PfRec)
  | done
  deriving DecidableEq, Repr

/-- Supply and sequencer (R332 to R351). -/
structure Power where
  /-- PWR_EN7 to PWR_EN0 -/
  en : BitVec 8
  /-- PD_STAT -/
  pd : BitVec 20
  /-- rails whose monitor is armed: CA, CB, 18, 33, MEM, VIN, VFLD0 to 3, VBAT -/
  armed : BitVec 11
  /-- RAIL_STAT -/
  rails : BitVec 13
  vinMv : Nat
  bootStep : Nat
  bootAt : Nat
  fails : Nat
  held : Bool
  retry : Bool
  /-- a C3 or C4 latched in BOOT (R337) -/
  c3Boot : Bool
  pfwBoot : Bool
  /-- CK_RC time at which PFW was last set -/
  pfwAt : Nat
  off : Bool
  /-- power-down step under way, 0 none -/
  down : Nat
  resetLow : Bool
  pfA : PfState
  pfB : PfState
  recA : Option PfRec
  recB : Option PfRec
  newRec : Bool
  /-- the last power failure left no record (Table 13-6) -/
  gapRec : Bool
  scan : Bool
  /-- voltage at OSCMODE as sampled, in mV (R318) -/
  strapMv : Nat
  deriving DecidableEq, Repr

/-- SHELF: only PD_BKP on (R335). -/
def Power.init : Power :=
  { en := 0, pd := 1, armed := 0, rails := 0, vinMv := 0, bootStep := 0, bootAt := 0, fails := 0, held := false, retry := false,
    c3Boot := false, pfwBoot := false, pfwAt := 0, off := false, down := 0, resetLow := false,
    pfA := .idle, pfB := .idle, recA := none, recB := none, newRec := false, gapRec := false, scan := false, strapMv := 0 }

/-- Start of a source (R316 to R321). -/
inductive StartSt where
  | off | starting | valid | released | locked | passed | waiting
  deriving DecidableEq, Repr

/-- A source with a start rule: state and failed attempts since power-up. -/
structure Source where
  st : StartSt
  fails : Nat
  deriving DecidableEq, Repr

/-- A clock switch (R326, R327): on its other source, in progress towards it (true) or back, request waiting. -/
structure Switch where
  other : Bool
  busy : Option Bool
  wait : Option Bool
  deriving DecidableEq, Repr

/-- Clocks (chapter 12). -/
structure Clocks where
  refA : Source
  refB : Source
  pmu : Source
  mem : Source
  lockPmu : Bool
  lockA : Bool
  lockB : Bool
  lockMem : Bool
  swPmu : Switch
  swA : Switch
  swB : Switch
  swMem : Switch
  forced : Bool
  s4 : Bool
  /-- domain n is bit n − 1 -/
  failed : BitVec 18
  gated : BitVec 18
  armed : BitVec 18
  /-- failed domains that have not restarted, and L-dies without their clocks (R324, R325) -/
  down : BitVec 18
  deadA : Bool
  deadB : Bool
  /-- CK_RC or CK_PMU failed: the trip is held until power-up (R324) -/
  tripHeld : Bool
  stitchIdle : Bool
  /-- receivers that miss the P-die heartbeat: bit 0 L-A, 1 L-B, 2 + d F-die d (R23) -/
  noBeat : BitVec 6
  deriving DecidableEq, Repr

/-- A source that is off. -/
def Source.init : Source := { st := .off, fails := 0 }

/-- A switch on its other source, where BOOT finds it. -/
def Switch.init : Switch := { other := true, busy := none, wait := none }

/-- SHELF: only CK_BKP runs (R328). -/
def Clocks.init : Clocks :=
  { refA := .init, refB := .init, pmu := .init, mem := .init, lockPmu := false, lockA := false, lockB := false, lockMem := false,
    swPmu := .init, swA := .init, swB := .init, swMem := .init, forced := false, s4 := false, failed := 0,
    gated := BitVec.ofNat 18 (2 ^ 18 - 2), armed := 0, down := 0, deadA := false, deadB := false, tripHeld := false, stitchIdle := false, noBeat := 0 }

/-- An open reset shadow (R307): block, FSW positions diverted, the reset has completed. -/
structure Shadow where
  blk : Blk
  mask : BitVec 64
  complete : Bool
  deriving DecidableEq, Repr

/-- Where a C3 or C4 stands (R297). -/
inductive C3St where
  | none
  /-- zones to be locked at the commit points of A and B more than 4 µs after `since` (R296, R297) -/
  | lock (a b : Bool) (since : Nat)
  /-- every zone is locked, SAFE at the next tick -/
  | safe
  deriving DecidableEq, Repr

/-- Re-admission of an L-die (R310): step 0 none, 1 power, 2 boot, 3 state transfer, 4 steering, 5 joint evaluation. -/
structure Readm where
  step : Nat
  ticks : Nat
  spans : Nat
  /-- CK_RC time of the last admission after a fence -/
  last : Option Nat
  deriving DecidableEq, Repr

/-- No re-admission. -/
def Readm.init : Readm := { step := 0, ticks := 0, spans := 0, last := none }

/-- Fault collector, trips, shadows, dies, girth watchdog (chapter 11). -/
structure Faults where
  f1 : BitVec 64
  f2 : BitVec 64
  sec : BitVec 64
  /-- standing causes -/
  cause : BitVec 64
  /-- bits whose last latch took class C3 whatever CLASS_MAP says (R294, R308) -/
  force3 : BitVec 64
  /-- zones of the last PAIRING latch and of the last OVERRUN latch -/
  pairZones : List Nat
  ovrZones : List Nat
  shadows : List Shadow
  /-- FSW bits of the reaction that froze the snapshot slots (R81) -/
  frozen : BitVec 64
  /-- zones of C2 reactions that wait for the commit points of A and B, with the time of the latch (R296) -/
  c2A : List (Nat × Nat)
  c2B : List (Nat × Nat)
  /-- time of the last latch of each bit (R303), and of the first one after an all-zero FSW (R299) -/
  latchAt : Tab (Option Nat)
  /-- time at which each FSW_SEC bit was last set (R303) -/
  secAt : Tab (Option Nat)
  firstAt : Option Nat
  c3 : C3St
  /-- trip lines as the P-die drives them, and as the L-dies drive their own -/
  tripA : Bool
  tripB : Bool
  tripLA : Bool
  tripLB : Bool
  /-- ticks since the assertion -/
  tripTicks : Nat
  /-- DIE_STATE of L-A, L-B, M, F-dies 0 to 3, default 0 -/
  die : Tab Nat
  rdA : Readm
  rdB : Readm
  /-- girth challenge outstanding -/
  girthA : Option Nat
  girthB : Option Nat
  /-- dies that failed in the current check, as in GIRTH_WHO -/
  girthFail : Nat
  deriving DecidableEq, Repr

/-- Nothing latched; an undriven trip line reads asserted (R21). -/
def Faults.init : Faults :=
  { f1 := 0, f2 := 0, sec := 0, cause := 0, force3 := 0, pairZones := [], ovrZones := [], shadows := [], frozen := 0,
    c2A := [], c2B := [], latchAt := [], secAt := [], firstAt := none, c3 := .none, tripA := true, tripB := true, tripLA := true, tripLB := true, tripTicks := 0, die := [],
    rdA := .init, rdB := .init, girthA := none, girthB := none, girthFail := 0 }

/-- A leased resource (R31 to R36): holder and pending parties, oldest first. Times are CK_TICK cycles: 8 µs are 64. -/
structure Lease where
  holder : Option Nat
  queue : List Nat
  /-- time of the grant or of its last renewal -/
  since : Nat
  /-- the last holder that released, the time of its grant, and the time of the release (R35) -/
  rel : Option (Nat × Nat × Nat)
  deriving DecidableEq, Repr

/-- Not leased. -/
def Lease.init : Lease := { holder := none, queue := [], since := 0, rel := none }

end Sys2Proof.Machine
end

