-- ==== Sys2Proof/Machine/StateHost.lean ====
section
/-! DEFINITION. State of the management side: Bridle, seats, subscriptions, rings, journal, CRC channels, timers
(chapters 14 to 16). -/

namespace Sys2Proof.Machine

/-- The status codes of Table 14-6. -/
inductive Status where
  | ok | noEntry | access | rights | range | type | mode | busy | bounds | token | mgmtStale | fenced | keygone | format
  deriving DecidableEq, Repr

/-- The code of a status in a response (Table 14-6). -/
def Status.num : Status → Nat
  | .ok => 0
  | .noEntry => 1
  | .access => 2
  | .rights => 3
  | .range => 4
  | .type => 5
  | .mode => 6
  | .busy => 7
  | .bounds => 8
  | .token => 9
  | .mgmtStale => 10
  | .fenced => 11
  | .keygone => 12
  | .format => 13

/-- One seat (R363, R371 to R381). Its table entries stand in the register store. -/
structure Seat where
  /-- token of the open session -/
  sess : Option Nat
  pass : Bool
  chal : Option Nat
  logFails : Nat
  logLock : Bool
  passFails : Nat
  passLock : Bool
  /-- frames left in the bucket, in units of 1 / 8,000,000 frame -/
  bucket : Nat
  /-- time of the last accepted frame -/
  last : Nat
  /-- key slot of the open session was erased -/
  keyGone : Bool
  /-- last 4 responses: REQ_ID, CRC of the request, response bytes -/
  kept : List (Nat × Nat × List Byte)
  /-- window entries that exist once per seat, by index × 256 + subindex, default 0 -/
  win : Tab Nat
  ringLast : Nat
  deriving DecidableEq, Repr

/-- No session, bucket full at the default BURST (R379). -/
def Seat.init : Seat :=
  { sess := none, pass := false, chal := none, logFails := 0, logLock := false, passFails := 0, passLock := false,
    bucket := 256000000, last := 0, keyGone := false, kept := [], win := [], ringLast := 0xFFFFFFFF }

/-- Where a frame goes: transport (0 HSPI, 1 and 2 the networks), address and UDP port (R359). -/
structure Dest where
  tr : Nat
  addr : Nat
  port : Nat
  deriving DecidableEq, Repr

/-- One value of a write: entry, byte offset within an OCT value, bytes (R368). -/
structure WItem where
  idx : Nat
  sub : Nat
  ofs : Nat
  val : List Byte
  deriving DecidableEq, Repr

/-- A response on its way: the die and place it leaves from and to, what it copies from its request, its payload (R359 to R361). -/
structure RespTo where
  die : Die
  dst : Dest
  seat : Nat
  op : Nat
  reqId : Nat
  token : Nat
  crc : Nat
  pay : List Byte
  deriving DecidableEq, Repr

/-- One accepted write on its way to its apply tick (R365, R366). -/
structure PendWrite where
  id : Nat
  recv : Nat
  /-- the other die has checked it too -/
  acked : Bool
  /-- SPAN_NO from which the write may be applied -/
  apply : Nat
  /-- the session carried the PASS mark at receipt (R367) -/
  pass : Bool
  items : List WItem
  resp : RespTo
  deriving DecidableEq, Repr

/-- A subscription (R380, R381). -/
structure Sub where
  id : Nat
  seat : Nat
  dst : Dest
  idx : Nat
  sub : Nat
  gap : Nat
  nseq : Nat
  lastSpan : Nat
  sent : Option Nat
  cur : Nat
  /-- committed changes not yet sent, and a change-of-state event not yet sent (R183) -/
  unsent : Nat
  ev : Bool
  deriving DecidableEq, Repr

/-- A request that the receiving die has forwarded to the home die of what it reads or writes (R392, R416). -/
structure FwdReq where
  id : Nat
  die : Die
  op : Nat
  f : Frame
  deriving DecidableEq, Repr

/-- A persistent write on its way to the flash copies (R357): entry, value, seat, and the response that waits for it. -/
structure PersWrite where
  idx : Nat
  sub : Nat
  val : Nat
  seat : Nat
  ans : Option RespTo
  deriving DecidableEq, Repr

/-- Bridle (chapter 14). -/
structure Bridle where
  /-- seats 0 to 7 -/
  seats : Tab Seat
  writes : List PendWrite
  nextId : Nat
  subs : List Sub
  nextSub : Nat
  pers : List PersWrite
  /-- requests that wait for the answer of the other die -/
  fwds : List FwdReq
  /-- responses and notifications sent over UDP, newest first -/
  out : List (Dest × List Byte)
  /-- HSPI: requests in the receive buffer with their OP, responses and notifications that wait for READ_FRAME -/
  rx : List (Nat × Frame)
  resp : List (List Byte)
  notif : List (List Byte)
  /-- last bytes shifted out by HSPI -/
  shifted : List Byte
  /-- SHA-256 of the serial number and password, empty while none is set -/
  hash : List Byte
  /-- CONFIRM lock-out and consecutive unequal entries (R89) -/
  confFails : Nat
  confLock : Bool
  /-- sequence number of change-of-state events (R184) -/
  cosSeq : Nat
  /-- status of the last write that was applied or refused, and the RETRY of a BUSY answer -/
  last : Status
  retry : Nat
  /-- octets of the last value that a read of a row of its own answered -/
  data : List Byte
  deriving DecidableEq, Repr

/-- As shipped. -/
def Bridle.init : Bridle :=
  { seats := [], writes := [], nextId := 0, subs := [], nextSub := 0, pers := [], fwds := [], out := [], rx := [], resp := [], notif := [],
    shifted := [], hash := [], confFails := 0, confLock := false, cosSeq := 0, last := .ok, retry := 0xFFFF, data := [] }

/-- A ring descriptor (Table 15-2), without reserved bits; `drops` is RING_DROPS, `chk` false when DESC_CHK fails,
`loose` true where the order and contents of its entries are unpredictable to a consumer (Table 20-5). -/
structure Ring where
  base : Nat
  sz : Nat
  esize : Nat
  policy : Nat
  owner : Nat
  home : Nat
  locked : Bool
  purpose : Nat
  head : Nat
  tail : Nat
  chk : Bool
  drops : Nat
  loose : Bool := false
  deriving DecidableEq, Repr

/-- A free ring (Table 15-2 reset). -/
def Ring.free : Ring :=
  { base := 0, sz := 0, esize := 0, policy := 0, owner := 15, home := 0, locked := false, purpose := 0, head := 0, tail := 0,
    chk := true, drops := 0 }

/-- Rings: descriptors by number and the ring-entry regions (index 0 the M-die or L-A's SRAM, 1 L-B's SRAM). -/
structure Rings where
  desc : Tab Ring
  mem0 : Mem
  mem1 : Mem
  /-- change-log entries, oldest first, in the flashes and ring 0 (R401) -/
  log : List (List Byte)
  /-- a record that waits for its commit markers -/
  pend : List (List Byte)
  deriving DecidableEq, Repr

/-- No ring. -/
def Rings.init : Rings := { desc := [], mem0 := [], mem1 := [], log := [], pend := [] }

/-- A record on its way to the journal: the span and RTC time it belongs to, type, body (R397, R398). -/
structure JrnRec where
  span : Nat
  rtc : Nat
  typ : Nat
  body : List Byte
  deriving DecidableEq, Repr

/-- The journal half of a die (R397 to R399). -/
structure Journal where
  mem : Mem
  head : Nat
  oldest : Nat
  /-- span that the records of the block have reached; `none` before the first TIME -/
  at_ : Option Nat
  /-- last recorded values by variable, `none` never recorded -/
  vals : Tab (Option Nat)
  dropping : Bool
  /-- records dropped since the last GAP -/
  dropped : Nat
  /-- records of the span in progress, which its phase S flushes (R56), and `vals` as the last flush left them -/
  buf : List JrnRec
  kept : Tab (Option Nat)
  deriving DecidableEq, Repr

/-- Empty. -/
def Journal.init : Journal :=
  { mem := [], head := 0, oldest := 0, at_ := none, vals := [], dropping := false, dropped := 0, buf := [], kept := [] }

/-- A CRC channel beside its register entries (R403 to R408). -/
structure CrcCh where
  acc : Nat
  /-- a descriptor has completed without FINAL since EN rose -/
  chain : Bool
  busy : Bool
  failed : Bool
  /-- ring entries under the running descriptor have been overwritten (Table 20-5) -/
  dirty : Bool
  deriving DecidableEq, Repr

/-- Idle. -/
def CrcCh.init : CrcCh := { acc := 0, chain := false, busy := false, failed := false, dirty := false }

/-- A general timer (R410 to R412). -/
structure Tmr where
  en : Bool
  src : Bool
  period : Bool
  ring : Bool
  count : Nat
  cmp : Nat
  next : Nat
  nextPend : Bool
  isMatch : Bool
  late : Bool
  double : Bool
  matches_ : Nat
  /-- CMP_NEXT transfers at the next source edge (free-run) -/
  xfer : Bool
  deriving DecidableEq, Repr

/-- Table 16-6. -/
def Tmr.init : Tmr :=
  { en := false, src := false, period := false, ring := false, count := 0, cmp := 0xFFFFFFFF, next := 0xFFFFFFFF,
    nextPend := false, isMatch := false, late := false, double := false, matches_ := 0, xfer := false }

end Sys2Proof.Machine
end

