-- ==== Sys2Proof/Machine/StateStore.lean ====
section
/-! DEFINITION. State of OTP, backup domain, keys, self-test, update, test access and the Pattern store
(chapters 3 and 17 to 20). -/

namespace Sys2Proof.Machine

/-- What an OTP word holds (R417 to R421): 32 data bits as programmed, or a word whose program operation did not end
with all 39 bits as intended. -/
inductive OtpWord where
  | blank
  | data (v : BitVec 32)
  /-- programmed with a single-bit error that its ECC corrects to `v` -/
  | corrected (v : BitVec 32)
  /-- spent: reads uncorrectable at MARGIN_HI -/
  | spent
  deriving DecidableEq, Repr

/-- A program operation: the die that runs it once it holds the OTP lease (R420), word, intended value, who asked (`none` the
device). -/
structure OtpOp where
  die : Die
  word : Nat
  v : BitVec 32
  seat : Option Nat
  /-- the response that waits for the final verify (R421) -/
  ans : Option RespTo
  deriving DecidableEq, Repr

/-- What a lifecycle change, a repair or a first-run record still has to program, in order. -/
structure Otp where
  /-- default `blank` -/
  words : Tab OtpWord
  op : Option OtpOp
  /-- words the device programs next: (word or area, value) -/
  todo : List (Nat × Nat)
  /-- a verify has failed since power-up -/
  failed : Bool
  stat : Nat
  lcChal : Option Nat
  zeroised : Bool
  /-- the first-run record in the Pattern flashes: RTC time and BOOT_CNT[31:0] (R418) -/
  firstRun : Option (Nat × Nat)
  deriving DecidableEq, Repr

/-- Nothing under way. -/
def Otp.init : Otp :=
  { words := [], op := none, todo := [], failed := false, stat := 0, lcChal := none, zeroised := false, firstRun := none }

/-- Backup domain (R426). -/
structure Backup where
  /-- RTC in CK_TICK cycles -/
  rtc : Nat
  rtcOk : Bool
  bootCnt : Nat
  eraSeen : Nat
  eraBase : Nat
  tamper : Bool
  brown : Bool
  crcOk : Bool
  /-- the four TAMPER inputs active -/
  inputs : BitVec 4
  deriving DecidableEq, Repr

/-- A domain that holds nothing. -/
def Backup.init : Backup :=
  { rtc := 0, rtcOk := false, bootCnt := 0, eraSeen := 0, eraBase := 0, tamper := false, brown := false, crcOk := true,
    inputs := 0 }

/-- An era record (R427). -/
structure EraRec where
  gen : Nat
  era : Nat
  keyset : Nat
  boot : Nat
  deriving DecidableEq, Repr

/-- The two sectors of the era record on one Pattern flash (R427): the records in their written cells, and which sector took the last one. -/
structure EraFlash where
  s0 : List EraRec
  s1 : List EraRec
  second : Bool
  deriving DecidableEq, Repr

/-- Erased. -/
def EraFlash.init : EraFlash := { s0 := [], s1 := [], second := false }

/-- A new record goes to the next erased cell, or to the first cell of the other sector, which is erased first (R427). -/
def EraFlash.put (x : EraFlash) (r : EraRec) : EraFlash :=
  if x.second then (if x.s1.length < 64 then { x with s1 := x.s1 ++ [r] } else { x with s0 := [r], second := false })
  else (if x.s0.length < 64 then { x with s0 := x.s0 ++ [r] } else { x with s1 := [r], second := true })

/-- A generation of a key slot on one die (R430). -/
structure KeyCell where
  typ : Nat
  gen : Nat
  key : List Byte
  deriving DecidableEq, Repr

/-- A slot on one die: the generation in force, and the other cell, which may hold a newer generation that is not in force (R430, R431). -/
structure KeySlot where
  old : Option KeyCell
  cur : Option KeyCell
  mismatch : Bool
  pending : Bool
  deriving DecidableEq, Repr

/-- Empty. -/
def KeySlot.init : KeySlot := { old := none, cur := none, mismatch := false, pending := false }

/-- Keys and era records (R427 to R433). -/
structure Keys where
  a : Tab KeySlot
  b : Tab KeySlot
  /-- the era records of QSPI_A and QSPI_B -/
  eraA : EraFlash
  eraB : EraFlash
  auth : Nat
  /-- KGEN of every CONN slot recorded while AUTH_STATE is not 0 -/
  recorded : Tab Nat
  /-- an era record is being written: its contents and what it is for (true: R433) -/
  eraPend : Option (EraRec × Bool)
  bootEpoch : Nat
  /-- both key engines have zeroised every slot and their KEK registers (R448) -/
  wiped : Bool
  deriving DecidableEq, Repr

/-- No key, no era record. -/
def Keys.init : Keys :=
  { a := [], b := [], eraA := .init, eraB := .init, auth := 0, recorded := [], eraPend := none, bootEpoch := 0, wiped := false }

/-- The later of two era records. -/
def EraRec.later (x y : Option EraRec) : Option EraRec :=
  match x, y with
  | some a, some b => if a.gen < b.gen then some b else some a
  | some a, none => some a
  | none, b => b

/-- The newest record of a flash. -/
def EraFlash.top (x : EraFlash) : Option EraRec := (x.s0 ++ x.s1).foldl (fun m r => EraRec.later m (some r)) none

/-- The era record in force: the committed record with the highest GEN in either flash (R427). -/
def Keys.era (k : Keys) : Option EraRec := EraRec.later k.eraA.top k.eraB.top

/-- The granule of a die (R435, R436): none; in progress, its region in the save buffer; aborted, the save buffer still to be written back;
lost with its region by a fence. -/
inductive Gran where
  | off | running | aborted | lost
  deriving DecidableEq, Repr

/-- Self-test (R435 to R446). -/
structure SelfTest where
  /-- items of the round still to be tested, by code: memory regions, lanes, channels … -/
  leftA : List Nat
  leftB : List Nat
  queue : List Nat
  token : Option Die
  late : Bool
  lateStart : Bool
  slice : Bool
  /-- round clock in halves of a CK_TICK cycle (R442) -/
  ran : Nat
  granA : Gran
  granB : Gran
  /-- items that have failed in the slice in progress, by die × 65536 + item: the next test of each is in a later slice (R444, R445) -/
  later : List Nat
  /-- failures whose repair is not yet proven: die, item, the repair record (Table 18-2) that is being tried -/
  open_ : List (Nat × Nat × Nat)
  /-- full passes of a retired lane in a row: key die × 32 + lane -/
  passes : Tab Nat
  /-- items still to be tested for the oldest request, die × 65536 + item (R443) -/
  qLeft : List Nat
  /-- proven repairs that are in force, as repair records -/
  soft : List Nat
  /-- CRC channels that stay isolated -/
  crcBad : BitVec 16
  /-- granules passed of an item that has more than one: key die × 65536 + item -/
  prog : Tab Nat
  /-- doubled units that serve from their other copy, by die × 65536 + item, and those that swap at the next tick -/
  roles : Tab Bool
  swaps : List Nat
  deriving DecidableEq, Repr

/-- Before the first round. -/
def SelfTest.init : SelfTest :=
  { leftA := [], leftB := [], queue := [], token := none, late := false, lateStart := false, slice := false, ran := 0, granA := .off, granB := .off, later := [],
    open_ := [], passes := [], qLeft := [], soft := [], crcBad := 0, prog := [], roles := [], swaps := [] }

/-- The granule of a die. -/
def SelfTest.gran (t : SelfTest) : Die → Gran
  | .a => t.granA
  | .b => t.granB

/-- Replace it. -/
def SelfTest.setGran (t : SelfTest) (d : Die) (g : Gran) : SelfTest :=
  match d with
  | .a => { t with granA := g }
  | .b => { t with granB := g }

/-- A reaction reaches die `d`: the granule in progress is aborted (R436). -/
def SelfTest.abort (t : SelfTest) (d : Die) : SelfTest := if t.gran d = .running then t.setGran d .aborted else t

/-- The two firmware slots of one Pattern flash (R455): bytes of part k at k × 2^24 + offset, and the active firmware-slot marker. -/
structure FwFlash where
  s0 : Mem
  s1 : Mem
  act : Nat
  deriving DecidableEq, Repr

/-- As delivered; the images of delivery are not the model's. -/
def FwFlash.init : FwFlash := { s0 := [], s1 := [], act := 0 }

/-- The inactive slot. -/
def FwFlash.rest (f : FwFlash) : Mem := if f.act = 0 then f.s1 else f.s0

/-- Write it. -/
def FwFlash.setRest (f : FwFlash) (m : Mem) : FwFlash := if f.act = 0 then { f with s1 := m } else { f with s0 := m }

/-- The marker flips (R462). -/
def FwFlash.flip (f : FwFlash) : FwFlash := { f with act := 1 - f.act }

/-- Field update (R450 to R464). -/
structure Update where
  sess : Option Nat
  sessLast : Nat
  keyGone : Bool
  chal : Option Nat
  fails : Nat
  lock : Bool
  /-- manifest bytes, empty for none -/
  manifest : List Byte
  /-- the staging region of the M-die: bytes of parts 1 to 5 at part × 2^24 + offset; and the bytes that have been sent, in the same numbering -/
  data : Mem
  have_ : List (Nat × Nat)
  state : Nat
  why : Nat
  /-- ACTIVATE waits for its apply tick: SPAN_NO from which -/
  pend : Option Nat
  /-- the reboot in progress -/
  reboot : Option Die
  booted : Bool
  rejoined : Bool
  agree : Nat
  /-- the flip waits for PFW -/
  defer : Bool
  /-- dies on the new image -/
  newA : Bool
  newB : Bool
  /-- firmware slots of QSPI_A and QSPI_B -/
  fwA : FwFlash
  fwB : FwFlash
  /-- CRC-32C of the committed state in the handover area of the M-die (R460) -/
  handover : Option Nat
  /-- VERSION of the function-block library that an update has installed, `none` for the one of delivery (R496, log 101) -/
  lib : Option Nat
  out : List (List Byte)
  deriving DecidableEq, Repr

/-- Idle. -/
def Update.init : Update :=
  { sess := none, sessLast := 0, keyGone := false, chal := none, fails := 0, lock := false, manifest := [], data := [], have_ := [],
    state := 0, why := 0, pend := none, reboot := none, booted := false, rejoined := false, agree := 0, defer := false,
    newA := false, newB := false, fwA := .init, fwB := .init, handover := none, lib := none, out := [] }

/-- Test access (R467 to R471). -/
structure Test where
  state : Nat
  seat : Nat
  chal : Option Nat
  refusals : Nat
  lock : Bool
  /-- spans a perturbation still acts: stretch, delay, credit, mismatch -/
  left : Tab Nat
  /-- those left before the last tick -/
  before : Tab Nat
  /-- a zeroise runs and its readback is not complete (R448) -/
  zeroise : Bool
  deriving DecidableEq, Repr

/-- Closed. -/
def Test.init : Test :=
  { state := 0, seat := 0, chal := none, refusals := 0, lock := false, left := [], before := [], zeroise := false }

/-- The persistent entries as each Pattern flash holds them (R18, R357). -/
structure Pers where
  a : Regs
  b : Regs
  deriving DecidableEq, Repr

/-- Nothing written. -/
def Pers.init : Pers := { a := [], b := [] }

/-- A Pattern slot of 16 MiB: what PAT_IMAGE has put into it, and the bytes up to the last one written (R66, R366). -/
structure PatSlot where
  img : Mem
  len : Nat
  deriving DecidableEq, Repr

/-- A slot that holds nothing. -/
def PatSlot.init : PatSlot := { img := [], len := 0 }

/-- The Pattern flash of one channel, on QSPI_A or QSPI_B: its two slots, the active-slot marker (R66, R90) and its change-log region
(R91, R401). -/
structure PatFlash where
  s0 : PatSlot
  s1 : PatSlot
  marker : Nat
  log : List (List Byte)
  deriving DecidableEq, Repr

/-- A flash with nothing in it, slot 0 marked. -/
def PatFlash.init : PatFlash := { s0 := .init, s1 := .init, marker := 0, log := [] }

/-- The Pattern flashes and what the dies have read from them (R66 to R91). -/
structure PatStore where
  fa : PatFlash
  fb : PatFlash
  /-- the loaded candidate and the active Pattern -/
  cand : Option Pattern
  active : Option Pattern
  /-- the active Pattern while the lifecycle is not SHIPPED: in the flashes, not loaded (R422) -/
  held : Option Pattern
  /-- the Pattern that the committed images of the dies belong to -/
  ran : Option Pattern
  /-- PAT_STATE -/
  state : Nat
  loadErr : Nat
  loading : Bool
  /-- PAT_IMAGE was written between a LOAD and the end of its checks (Table 20-5) -/
  torn : Bool
  /-- a confirmation waits for its change-log record -/
  confirming : Bool
  deriving DecidableEq, Repr

/-- No Pattern. -/
def PatStore.init : PatStore :=
  { fa := .init, fb := .init, cand := none, active := none, held := none, ran := none, state := 0, loadErr := 0, loading := false, torn := false,
    confirming := false }

end Sys2Proof.Machine
end

