-- ==== Sys2Proof/Machine/State.lean ====
section
/-! DEFINITION. The state of the Vangoz as one record of plain data, its state right after reset, and the reasons a
step can stop. -/

namespace Sys2Proof.Machine

/-- The management mirror of a die (R382, R383): the committed image and the entries it was refreshed from, the committed spans since, and
the units that count as stale. The CRC-32C of a refresh is that of the values kept here. -/
structure Mirror where
  img : Img
  regs : Regs
  age : Nat
  stale : List (Nat × Nat)
  deriving DecidableEq, Repr

/-- The management processor of a die (R295, R310, R459). -/
inductive Mgmt where
  | serving | restarting | booting
  deriving DecidableEq, Repr

/-- One L-die. -/
structure LDie where
  tb : Timebase
  eng : Engine
  /-- the snapshot of the span in progress, and slots 0 to 7, default empty (R79, R81) -/
  cur : Snap
  snap : Tab Snap
  cmp : Cmp
  link : Link
  /-- chains of channels 0 to 131, default at rest -/
  chains : Tab Chain
  outs : Tab OutSup
  /-- what was sent last to each F-die -/
  tx : Tab PortTx
  hold : Hold
  net : Net
  /-- inbound connections by position of their CONN_IN instance -/
  ins : Tab InConn
  /-- streams by stream number -/
  streams : Tab Stream
  /-- histories by axis × 2 + source -/
  hist : Tab PosHist
  outc : Tab OutConn
  jrn : Journal
  /-- field images that were absent at the end of phase A, by F-die (R52) -/
  imgMiss : Tab Nat
  mir : Mirror
  mgmt : Mgmt
  deriving DecidableEq, Repr

/-- An L-die without power. -/
def LDie.init : LDie :=
  { tb := .init, eng := .init, cur := .empty, snap := [], cmp := .init, link := .init, chains := [], outs := [], tx := [],
    hold := { on := false, since := 0 }, net := .init, ins := [], streams := [], hist := [], outc := [], jrn := .init, imgMiss := [],
    mir := { img := .empty, regs := [], age := 0, stale := [] }, mgmt := .serving }

/-- The machine. -/
structure State where
  /-- order code 830, 851 or 884 (R1) -/
  order : Nat
  modes : Modes
  pow : Power
  clk : Clocks
  flt : Faults
  /-- 0 MA, 1 MB, 2 Stitch, 3 P-die bus, 4 OTP, 5 and 6 the CRC DMA of L-A and L-B (R31) -/
  leases : Tab Lease
  a : LDie
  b : LDie
  fd : Tab FDie
  /-- entries of the object dictionary that have no typed field, by `odKey` -/
  regs : Regs
  /-- their copies in the Pattern flashes of both channels (R356, R357) -/
  pers : Pers
  br : Bridle
  rings : Rings
  /-- channel 8 × die + c -/
  crc : Tab CrcCh
  /-- timer 8 × die + t -/
  tmr : Tab Tmr
  otp : Otp
  bkp : Backup
  keys : Keys
  st : SelfTest
  upd : Update
  tst : Test
  pat : PatStore
  /-- STDIN writes by slot, oldest first: value and SPAN_NO of the tick that takes it (R128) -/
  stdin : Tab (List (Int × Nat))
  /-- remote resets by zone, oldest first: SPAN_NO of the tick that takes it, time of writing in ns (R305) -/
  remote : Tab (List (Nat × Nat))
  /-- free values drawn so far (log 6) -/
  freeCtr : Nat
  /-- CK_TICK cycles since power was first applied (log 5) -/
  time : Nat
  /-- commands that wait, first in, first out -/
  pending : List Instr
  deriving DecidableEq, Repr

/-- Reasons a command could stop the machine. No command of this model raises one: every row of the table has an effect
in the spec. -/
inductive Fault where
  /-- Raised by nobody; kept so that the type has a name for it. Safe. -/
  | stuck
  deriving DecidableEq, Repr

/-- Reasons a command is refused by the model. -/
inductive Refusal where
  /-- A command whose meaning is not written yet, by its mnemonic. Safe: nothing is claimed of it. -/
  | notModelled (mnemonic : String)
  deriving DecidableEq, Repr

/-- The device in SHELF, before VIN first rises, with every entry at its default (log 2 to 4). -/
def State.reset : State :=
  { order := 884, modes := .init, pow := .init, clk := .init, flt := .init, leases := [], a := .init, b := .init, fd := [], regs := [],
    pers := .init, br := .init, rings := .init, crc := [], tmr := [],
    otp := { Otp.init with words := [(2, .data 884#32)] },
    bkp := .init, keys := .init, st := .init, upd := .init, tst := .init,
    pat := .init, stdin := [], remote := [], freeCtr := 0, time := 0, pending := [] }

end Sys2Proof.Machine
end

