-- ==== Sys2Proof/Machine/OpsBase.lean ====
section
/-! DEFINITION. Small operations on dies, memories and the parsed Pattern that the state operations use. -/

namespace Sys2Proof

/-- The other die. -/
def Die.peer : Die → Die
  | .a => .b
  | .b => .a

/-- 0 for L-A, 1 for L-B. -/
def Die.n : Die → Nat
  | .a => 0
  | .b => 1

/-- Drop the bytes of a block that is overwritten whole (R397). -/
def Mem.clear (m : Mem) (lo n : Nat) : Mem := m.filter fun p => p.1 < lo || lo + n ≤ p.1

/-- Bit `b` of the die `d` in [31:0] (Table 11-1). -/
def dieBit (d : Die) (b : Nat) : Nat := b + 16 * d.n

/-- Zones of the instances that a test names, without repeats. -/
def Pattern.zonesOf (p : Pattern) (f : Inst → Bool) : List Nat :=
  ((p.insts.filter fun i => f i && i.zone != 255).map (·.zone)).eraseDups

/-- An instance reads snapshot variable sources that a test names. -/
def Pattern.reads (p : Pattern) (f : SnapSrc → Bool) (i : Inst) : Bool :=
  i.ins.any fun e => f (Tab.get .none p.encA.snap e.var)

/-- The channel that an output block drives, `none` for a remote point or another type. -/
def Block.target : Block → List Nat
  | .outsafe t _ _ => if t < 132 then [t] else []
  | .outstd t => if t < 132 then [t] else []
  | .sbc _ b1 b2 _ _ => [b1, b2].filter (· < 132)
  | _ => []

/-- Zones with an instance that reads or drives a channel of F-die `d` (Table 11-3). -/
def Pattern.zonesOfFd (p : Pattern) (d : Nat) : List Nat :=
  p.zonesOf fun i => (i.block.target.any fun n => n / 32 == d) || p.reads (fun x => match x with
    | .chan n => n / 32 == d
    | _ => false) i

/-- Zones with an instance fed by the CONN_IN instance `c` (Table 11-3). -/
def Pattern.zonesOfConn (p : Pattern) (c : Nat) : List Nat :=
  let outs := ((p.insts.find? fun i => i.id == c).map (·.outs)).getD []
  p.zonesOf fun i => i.id == c || (i.ins.any fun e => outs.contains e.var)

/-- Zones with a CONN_IN, a CONN_OUT or an axis (Table 11-3, HOLDOVER). -/
def Pattern.zonesHold (p : Pattern) : List Nat :=
  p.zonesOf fun i => match i.block with
    | .connIn _ => true
    | .connOut _ => true
    | .axis _ => true
    | _ => false

/-- The union of two zone lists. -/
def zUnion (x y : List Nat) : List Nat := x ++ (y.filter fun z => !x.contains z)

namespace Machine

/-! ## Pattern flashes (R66) -/

/-- The slot of a flash that its marker names. -/
def PatFlash.active (f : PatFlash) : PatSlot := if f.marker = 0 then f.s0 else f.s1

/-- The inactive slot, which a candidate takes. -/
def PatFlash.cand (f : PatFlash) : PatSlot := if f.marker = 0 then f.s1 else f.s0

/-- Data of PAT_IMAGE into a slot. -/
def PatSlot.put (x : PatSlot) (ofs : Nat) (data : List Byte) : PatSlot :=
  { img := Mem.writeL x.img ofs data, len := max x.len (ofs + data.length) }

/-- Data of PAT_IMAGE into the inactive slot. -/
def PatFlash.put (f : PatFlash) (ofs : Nat) (data : List Byte) : PatFlash :=
  if f.marker = 0 then { f with s1 := f.s1.put ofs data } else { f with s0 := f.s0.put ofs data }

/-- The bytes of a slot. -/
def PatSlot.bytes (x : PatSlot) : List Byte := Mem.readN x.img 0 x.len

end Machine

end Sys2Proof
end

