-- ==== Sys2Proof/Machine/Eval.lean ====
section
/-! DEFINITION. The evaluation of one instance in a span: what each input port reads (03_pattern_engine.md R71), the
membership effects in the order of 04_function_blocks.md R497, and the block's own rule. -/

namespace Sys2Proof

/-- Position of an instance ID in Pattern order. -/
def Pattern.pos (p : Pattern) (id : Nat) : Option Nat := p.insts.findIdx? fun i => i.id == id

/-- The variable record of an ID. -/
def Pattern.var (p : Pattern) (v : Nat) : Option Var := p.vars.find? fun x => x.id == v

/-- Positions of the instances that a test names. -/
def Pattern.posOf (p : Pattern) (f : Inst → Bool) : List Nat :=
  (p.insts.zipIdx.filter fun x => f x.1).map (·.2)

/-- The axis that a motion block other than AXIS names (R227). -/
def Block.ax : Block → Option Nat
  | .encpair a _ _ => some a
  | .sto a _ => some a
  | .ss1 a _ => some a
  | .ss2 a _ => some a
  | .sos a _ _ => some a
  | .sls a _ _ _ => some a
  | .slp a _ _ _ _ _ => some a
  | .sdi a _ _ _ => some a
  | .sbc a _ _ _ _ => some a
  | .sbt a _ _ _ => some a
  | .ssm a _ _ => some a
  | _ => none

/-- REACT of a monitor (R230). -/
def Block.react : Block → Nat
  | .sls _ _ _ r => r
  | .slp _ _ _ _ _ r => r
  | .sdi _ _ _ r => r
  | _ => 0

/-- ENCPAIR, STO, SLS, SLP or SDI: the blocks of the first part of R497 that remove torque or demand a stop. -/
def Block.isMon : Block → Bool
  | .encpair .. => true
  | .sto .. => true
  | .sls .. => true
  | .slp .. => true
  | .sdi .. => true
  | _ => false

def Block.isSs1 : Block → Bool | .ss1 .. => true | _ => false
def Block.isSs2 : Block → Bool | .ss2 .. => true | _ => false
def Block.isSos : Block → Bool | .sos .. => true | _ => false
def Block.isSto : Block → Bool | .sto .. => true | _ => false
def Block.isSbc : Block → Bool | .sbc .. => true | _ => false
def Block.isSbt : Block → Bool | .sbt .. => true | _ => false
def Block.isAxis : Block → Bool | .axis .. => true | _ => false
def Block.isRein : Block → Bool | .rein .. => true | _ => false
def Block.isZone : Block → Bool | .zone .. => true | _ => false

/-- The axis of an instance, the AXIS instance included. -/
def Pattern.axisOf (p : Pattern) (i : Inst) : Option Nat :=
  match i.block with
  | .axis _ => (p.axes.find? fun r => r.axisInst == i.id).map (·.axis)
  | b => b.ax

/-- A number in 32-bit two's complement. -/
def toS32 (x : Int) : Nat := (x % 4294967296).toNat

/-- The 32-bit quantities of an axis snapshot: positions and window differences. -/
def AxSnap.motion (x : AxSnap) : List Nat := [x.p1, x.p2, toS32 (x.d1.getD 0), toS32 (x.d2.getD 0)]

/-- Axes whose snapshots an instance reads. -/
def Pattern.readsAx (p : Pattern) (i : Inst) : List Nat :=
  match i.block with
  | .rein r => r.refAx :: r.fol.map (·.axis)
  | _ => (p.axisOf i).toList

/-- The AXIS parameters of an axis. -/
def Pattern.axPar (p : Pattern) (a : Nat) : AxisPar :=
  let none0 : AxisPar :=
    { str1 := 0, slot1 := 0, str2 := 0, slot2 := 0, ofs1 := 0, ofs2 := 0, sign := 0, win := 3, lag := 1, rotary := 0
      vMax := 0, stopCat := 0, spdSh := 0 }
  match (p.axes.find? fun r => r.axis == a).bind fun r => p.insts.find? fun i => i.id == r.axisInst with
  | some i => match i.block with
    | .axis x => x
    | _ => none0
  | none => none0

/-- The zone of an axis. -/
def Pattern.axZone (p : Pattern) (a : Nat) : Nat := ((p.axes.find? fun r => r.axis == a).map (·.zone)).getD 255

/-- Position of the block of axis `a` that a test names. -/
def Pattern.blkPos (p : Pattern) (a : Nat) (f : Block → Bool) : Option Nat :=
  p.insts.findIdx? fun i => f i.block && i.block.ax == some a

/-- Positions of the blocks of axis `a` that a test names. -/
def Pattern.blksPos (p : Pattern) (a : Nat) (f : Block → Bool) : List Nat :=
  p.posOf fun i => f i.block && i.block.ax == some a

/-- Position of the AXIS instance of axis `a`. -/
def Pattern.axisPos (p : Pattern) (a : Nat) : Option Nat :=
  (p.axes.find? fun r => r.axis == a).bind fun r => p.pos r.axisInst

/-- Position of the ZONE instance of zone `z`. -/
def Pattern.zonePos (p : Pattern) (z : Nat) : Option Nat :=
  p.insts.findIdx? fun i => i.block.isZone && i.zone == z

/-- The REIN of axis `a`: position, parameters, index of the member (0 the reference). -/
def Pattern.reinOf (p : Pattern) (a : Nat) : Option (Nat × ReinPar × Nat) :=
  p.insts.zipIdx.findSome? fun x => match x.1.block with
    | .rein r =>
      if r.refAx = a then some (x.2, r, 0)
      else (r.fol.zipIdx.find? fun y => y.1.axis == a).map fun y => (x.2, r, y.2 + 1)
    | _ => none

/-- Position and parameters of the REIN of group `g`. -/
def Pattern.reinGrp (p : Pattern) (g : Nat) : Option (Nat × ReinPar) :=
  p.insts.zipIdx.findSome? fun x => match x.1.block with
    | .rein r => if r.group = g then some (x.2, r) else none
    | _ => none

/-- The outbound or inbound connection record of an instance. -/
def Pattern.connOf (p : Pattern) (id : Nat) : Option ConnRec := p.conns.find? fun c => c.inst == id && c.kind != 2

/-- The channel record of channel `n`. -/
def Pattern.chan (p : Pattern) (n : Nat) : ChanRec := (p.chans.find? fun c => c.n == n).getD (ChanRec.unused n)

/-- The start state of a block at entry into RUN (R86, R246, R263). -/
def Block.start : Block → IState
  | .estop .. => .dual .start
  | .guard .. => .dual .start
  | .ossd .. => .dual .start
  | .glock .. => .glock .start .start none
  | .mute2 .. => .mute 0 false false false none none []
  | .mute4 .. => .mute 0 false false false none none []
  | .twohand .. => .twohand 0 false none none none
  | .enable3 .. => .enable3 .start false false
  | .modesel .. => .modesel 16383 none false
  | .reset .. => .reset false false false 0 0 0
  | .edm .. => .edm false none
  | .ton .. => .timer none
  | .tof .. => .timer none
  | .tp .. => .timer none
  | .zone .. => .zone false false 0 0
  | .connIn .. => .connIn false 0 none 0 0 0
  | .connOut .. => .connOut 0 0
  | .axis .. => .axis false 0 0 none
  | .encpair .. => .flag false
  | .slp .. => .flag false
  | .sto .. => .sto false true none
  | .ss1 .. => .ramp 0 none 0
  | .ss2 .. => .ramp 0 none 0
  | .sos .. => .sos 0 0 0
  | .sls .. => .sls false noLimit noLimit none
  | .sdi .. => .sdi false false 0 0 0 0
  | .sbc .. => .sbc false false none
  | .sbt .. => .sbt 0 false false none none 0 0 none
  | .rein .. => .rein 2 0 0 0 none none
  | .tension .. => .tension 0 0
  | .outsafe .. => .outsafe 0 false none
  | .stdin .. => .stdin 0
  | .diag .. => .diag [] 0
  | _ => .plain

/-- The outputs of a block before the first span in RUN (R86, R93, R246): every value demands a stop or leaves an output
off. `z` is the zone's start state (R85). -/
def Block.startOuts (z : Nat) : Block → List Int
  | .estop .. => [1, 0, 0, 0]
  | .guard .. => [1, 0, 0, 0]
  | .ossd .. => [1, 0, 0, 0]
  | .glock .. => [1, 0, 0, 0, 0]
  | .mute2 .. => [1, 0, 0, 0, 0]
  | .mute4 .. => [1, 0, 0, 0, 0]
  | .modesel .. => [16383, 0, 0, 0, 0, 0, 0, 0, 0, 0, 0, 0]
  | .sel _ sf => [sf, 0, 0]
  | .zone .. => [(z : Int), bi (z == 1), bi (z == 2), bi (z == 3)]
  | .connIn p => [0, 0] ++ p.map.map (·.safe)
  | .axis _ => [0, 1, 0, 0, 0, 0]
  | .rein _ => [2, 0, 1, 0, 0]
  | .tension .. => [1, 0, 0]
  | .stdin _ _ _ _ sf => [sf, 0, 0, 0]
  | _ => []

/-- What an unconnected port reads (R94, R106, R125, R227). -/
def Block.portDflt : Block → Nat → Int
  | .mute2 .., 3 => 1
  | .mute2 .., 5 => 1
  | .mute4 .., 5 => 1
  | .mute4 .., 7 => 1
  | .outsafe .., 1 => 1
  | .sbc .., 0 => 1
  | _, _ => 0

namespace Machine

/-- The agreed value of a channel (R169), off while it is not valid (R99). -/
def ChanSnap.agreed (c : ChanSnap) : Bool := c.own && c.peer

/-- The validity of R169. -/
def ChanSnap.valid (c : ChanSnap) : Bool :=
  c.warmOwn && c.warmPeer && c.codeOwn == 0 && c.codePeer == 0 && !c.chainErr

/-- Reported faulty (R169). -/
def ChanSnap.faulty (c : ChanSnap) : Bool := c.codeOwn != 0 || c.codePeer != 0 || c.chainErr

/-- What an evaluation reads: die, span, images, frozen snapshot, and the conditions of R304 and R288. -/
structure EvalEnv where
  d : Die
  c : Ctx
  done : List (Nat × Res)
  work : Img
  com : Img
  /-- variables as the committed image before the last held them: what a feedback edge gave in the last committed span (R96) -/
  com0 : Tab Int
  snap : Snap
  /-- zones that a set FSW bit of class C2 or above concerns -/
  blocked : List Nat
  /-- AUTH_STATE is not 0 -/
  authOff : Bool
  clears : Tab Nat
  /-- the device is in RUN -/
  inRun : Bool
  /-- nothing may turn on: update activation (R459, fourth exception) -/
  noRise : Bool
  deriving DecidableEq, Repr

/-- Signature of a variable on L-B (R134). -/
def sigOf (p : Pattern) (v : Nat) : Nat := Tab.get 0 p.encB.sigs v

/-- The word that die `d` holds for the value `x` of variable `v`. -/
def enc (p : Pattern) (d : Die) (v : Nat) (x : Int) : Int :=
  match d with
  | .a => x
  | .b => code (sigOf p v) x

/-- The value of a word where L-B decodes: `none` where its residue or range check fails (R137). -/
def dec (p : Pattern) (d : Die) (v : Nat) (w : Int) : Option Int :=
  match d with
  | .a => some w
  | .b => decode (((p.var v).map (·.ty)).getD .bool) (sigOf p v) w

/-- The value of a word that a lane reads: `none` where L-B's residue check fails (R136). -/
def val (p : Pattern) (d : Die) (v : Nat) (w : Int) : Option Int :=
  match d with
  | .a => some w
  | .b => plain (sigOf p v) w

/-- The decoded word of a variable in an image. -/
def Img.rd (p : Pattern) (d : Die) (m : Img) (v : Nat) : Option Int := dec p d v (Tab.get 0 m.vars v)

/-- The value of a variable in an image as a lane reads it. -/
def Img.val (p : Pattern) (d : Die) (m : Img) (v : Nat) : Int := (Machine.val p d v (Tab.get 0 m.vars v)).getD 0

/-! ## Motion quantities of a state (R223) -/

/-- The 32-bit motion quantities of a state: held references and converted limits. -/
def IState.motion : IState → List Nat
  | .ramp _ _ v => [v]
  | .sos _ a b => [a, b]
  | .sls _ l p _ => [l, p]
  | .sdi _ _ a b c d => [a, b, c, d]
  | .sbt _ _ _ _ _ a b _ => [a, b]
  | _ => []

/-- The state with these motion quantities. -/
def IState.withMotion : IState → List Nat → IState
  | .ramp st r _, l => .ramp st r (l.getD 0 0)
  | .sos st _ _, l => .sos st (l.getD 0 0) (l.getD 1 0)
  | .sls f _ _ ad, l => .sls f (l.getD 0 0) (l.getD 1 0) ad
  | .sdi f s _ _ _ _, l => .sdi f s (l.getD 0 0) (l.getD 1 0) (l.getD 2 0) (l.getD 3 0)
  | .sbt st td fl te tq _ _ ag, l => .sbt st td fl te tq (l.getD 0 0) (l.getD 1 0) ag
  | st, _ => st

/-- Signatures of the limbs of the k-th motion quantity of position `q`. -/
def limbSig (p : Pattern) (q k : Nat) : Nat × Nat := (Tab.get 0 p.encB.limbs (16 * q + 2 * k), Tab.get 0 p.encB.limbs (16 * q + 2 * k + 1))

/-- The limb words of the motion quantities of a state of position `q`. -/
def limbsOf (p : Pattern) (q : Nat) (st : IState) : List Int :=
  (IState.motion st).zipIdx.flatMap fun (x : Nat × Nat) => limbWords (limbSig p q x.2).1 (limbSig p q x.2).2 x.1

/-- The motion quantities that limb words hold, `none` where one fails (R136, R137). -/
def readLimbs (p : Pattern) (q n : Nat) (ws : List Int) : Option (List Nat) :=
  (List.range n).mapM fun k => limbRead (limbSig p q k).1 (limbSig p q k).2 (ws.getD (2 * k) 0) (ws.getD (2 * k + 1) 0)

/-- The state of position `q` in an image as die `d` reads it: on L-B the motion quantities come from their limbs. -/
def Img.stRd (p : Pattern) (d : Die) (m : Img) (q : Nat) : Option IState :=
  let st := Tab.get IState.plain m.ist q
  let n := (IState.motion st).length
  match d with
  | .a => some st
  | .b => if n = 0 then some st
    else (readLimbs p q n ((List.range (2 * n)).map fun k => Tab.get 0 m.limbs (16 * q + k))).map (IState.withMotion st)

/-- Write the state of position `q`: on L-B the motion quantities go into limbs alone. -/
def Img.putSt (p : Pattern) (d : Die) (m : Img) (q : Nat) (st : IState) : Img :=
  match d with
  | .a => { m with ist := Tab.set .plain m.ist q st }
  | .b => { m with
      ist := Tab.set .plain m.ist q (IState.withMotion st [])
      limbs := (limbsOf p q st).zipIdx.foldl (fun (t : Tab Int) x => Tab.set 0 t (16 * q + x.2) x.1) m.limbs }

/-- The value of a snapshot input (R71, R123, R164, R169). -/
def snapVal (p : Pattern) (sn : Snap) (v : Nat) : Int :=
  match Tab.get .none p.encA.snap v with
  | .chan n => let c := Tab.get ChanSnap.off sn.chans n; bi ((p.chan n).kind != 0 && c.agreed && c.valid)
  | .conn i k =>
    let q := (p.pos i).getD 0
    match (p.insts[q]?).map (·.block) with
    | some (Block.connIn par) =>
      let pt := par.map[k]?
      match Tab.get ConnSnap.none sn.conns q with
      | .pair _ _ _ pl => (pt.map (pointVal pl)).getD 0
      | .lone _ _ _ pl => (pt.map (pointVal pl)).getD 0
      | _ => (pt.map (·.safe)).getD 0
    | _ => 0
  | .none => 0

/-- Outputs of a position in this span, from a completed job or from the retired image. -/
def EvalEnv.outs (e : EvalEnv) (p : Pattern) (q : Nat) : List Int :=
  match p.insts[q]? with
  | none => []
  | some i => match e.done.find? fun r => r.1 == q with
    | some r => (i.outs.zip r.2.outs).map fun x => (val p e.d x.1 x.2).getD 0
    | none => i.outs.map fun v => e.work.val p e.d v

/-- Output `k` of a position in this span. -/
def EvalEnv.out (e : EvalEnv) (p : Pattern) (q k : Nat) : Int := (e.outs p q).getD k 0

/-- Outputs of a position in the last committed image. -/
def EvalEnv.comOuts (e : EvalEnv) (p : Pattern) (q : Nat) : List Int :=
  match p.insts[q]? with
  | some i => i.outs.map fun v => e.com.val p e.d v
  | none => []

/-- Output `k` of a position in the last committed image. -/
def EvalEnv.comOut (e : EvalEnv) (p : Pattern) (q k : Nat) : Int := (e.comOuts p q).getD k 0

/-- Committed internal state of a position. -/
def EvalEnv.comSt (e : EvalEnv) (p : Pattern) (q : Nat) : IState :=
  match (e.com.stRd p e.d q).getD .plain with
  | .plain => ((p.insts[q]?).map (·.block.start)).getD .plain
  | x => x

/-- Internal state of a position in this span. -/
def EvalEnv.curSt (e : EvalEnv) (p : Pattern) (q : Nat) : IState :=
  match e.done.find? fun r => r.1 == q with
  | some r => match e.d with
    | .a => r.2.st
    | .b => ((readLimbs p q (IState.motion r.2.st).length r.2.limbs).map (IState.withMotion r.2.st)).getD r.2.st
  | none => (e.work.stRd p e.d q).getD .plain

/-- The word that a port reads: coded on L-B (R71, R134). -/
def EvalEnv.raw (e : EvalEnv) (p : Pattern) (v : Nat) (fb : Bool) : Int :=
  match p.var v with
  | none => enc p e.d v 0
  | some x =>
    if x.producer = 0xFFFF then enc p e.d v (snapVal p e.snap v)
    else match p.pos x.producer with
      | none => enc p e.d v 0
      | some q =>
        let isZ := ((p.insts[q]?).map (·.block.isZone)).getD false
        if fb then (if e.c.first && !isZ then enc p e.d v x.init else Tab.get 0 e.com.vars v)
        else match e.done.find? fun r => r.1 == q with
          | some r => r.2.outs.getD ((((p.insts[q]?).map (·.outs)).getD []).findIdx (· == v)) (enc p e.d v 0)
          | none => Tab.get 0 e.work.vars v

/-- The value that a port reads, `none` where L-B's residue check fails (R71, R136). -/
def EvalEnv.word (e : EvalEnv) (p : Pattern) (v : Nat) (fb : Bool) : Option Int := val p e.d v (e.raw p v fb)

/-- The word that the port gave in the last committed span (R96): the committed one, and on a feedback edge the one committed before it; no
edge before the first commit. -/
def EvalEnv.before (e : EvalEnv) (p : Pattern) (v : Nat) (fb : Bool) : Option Int :=
  if fb then (if e.c.first then e.word p v fb else val p e.d v (Tab.get 0 e.com0 v)) else val p e.d v (Tab.get 0 e.com.vars v)

/-- One input port (R71, R94, R96, R99). -/
def EvalEnv.port (e : EvalEnv) (p : Pattern) (i : Inst) (k : Nat) : In :=
  match i.ins.find? fun x => x.port == k with
  | none => In.open (i.block.portDflt k)
  | some x =>
    let src := Tab.get .none p.encA.snap x.var
    let c := match src with
      | .chan n => some (Tab.get ChanSnap.off e.snap.chans n)
      | _ => none
    let kind := match src with
      | .chan n => (p.chan n).kind
      | _ => 1
    { v := (e.word p x.var x.fb).getD 0, prev := (e.before p x.var x.fb).getD 0
      valid := (c.map fun y => y.valid && kind != 0).getD true, faulty := (c.map ChanSnap.faulty).getD false, conn := true }

/-- The input ports of an instance. -/
def EvalEnv.ports (e : EvalEnv) (p : Pattern) (i : Inst) : List In :=
  (List.range (max i.nIn 18)).map (e.port p i)

/-! ## Membership -/

/-- State of a zone in this span and in the committed image. -/
def EvalEnv.zone (e : EvalEnv) (p : Pattern) (z : Nat) : Nat :=
  ((p.zonePos z).map fun q => (e.out p q 0).toNat).getD 0

/-- The committed state of a zone. -/
def EvalEnv.zoneC (e : EvalEnv) (p : Pattern) (z : Nat) : Nat :=
  ((p.zonePos z).map fun q => (e.comOut p q 0).toNat).getD 0

/-- Index of FLT among the outputs of a block that can enter FAULT. -/
def fltIdx : Block → Option Nat
  | .encpair .. => some 1
  | .sto .. => some 0
  | .ss1 .. => some 1
  | .ss2 .. => some 1
  | .sos .. => some 1
  | .sls .. => some 1
  | .slp .. => some 0
  | .sdi .. => some 0
  | .sbc .. => some 1
  | .sbt .. => some 2
  | .axis .. => some 4
  | .rein .. => some 3
  | .tension .. => some 1
  | _ => none

/-- FLT of a position in this span. -/
def EvalEnv.flt (e : EvalEnv) (p : Pattern) (q : Nat) : Bool :=
  match (p.insts[q]?).bind fun i => fltIdx i.block with
  | some k => e.out p q k == 1
  | none => false

/-- FLT of a position in the committed image. -/
def EvalEnv.fltC (e : EvalEnv) (p : Pattern) (q : Nat) : Bool :=
  match (p.insts[q]?).bind fun i => fltIdx i.block with
  | some k => e.comOut p q k == 1
  | none => false

/-- State of the ramp block of a position. -/
def rampSt : IState → Nat
  | .ramp st _ _ => st
  | _ => 0

/-- State of a SOS. -/
def sosSt : IState → Nat
  | .sos st _ _ => st
  | _ => 0

/-- (STATE, effective set, ENG) of a REIN. -/
def reinSt : IState → Nat × Nat × Tm
  | .rein st _ dc _ eng _ => (st, dc, eng)
  | _ => (2, 0, none)

/-- The set that the next span uses (R260). -/
def reinNext : IState → Nat
  | .rein _ _ _ nx _ _ => nx
  | _ => 0

/-- Position that the limbs of the snapshot of axis `a` take among those of an image. -/
def axSlot (a : Nat) : Nat := 65536 + a

/-- The snapshot of an axis as a lane reads it: on L-B its quantities come from the limb words of the evaluation image, `none` where one fails
(R136, R223). -/
def EvalEnv.axRd (e : EvalEnv) (p : Pattern) (a : Nat) : Option AxSnap :=
  let x := Tab.get AxSnap.empty e.snap.axes a
  match e.d with
  | .a => some x
  | .b => (readLimbs p (axSlot a) 4 ((List.range 8).map fun k => Tab.get 0 e.work.limbs (16 * axSlot a + k))).map fun l =>
    { x with p1 := l.getD 0 0, p2 := l.getD 1 0, d1 := x.d1.map fun _ => s32 (l.getD 2 0), d2 := x.d2.map fun _ => s32 (l.getD 3 0) }

/-- The axis snapshot. -/
def EvalEnv.ax (e : EvalEnv) (p : Pattern) (a : Nat) : AxSnap := (e.axRd p a).getD .empty

/-- The difference of two positions as an instance at `q` forms it: on L-B limb by limb (R223). -/
def EvalEnv.diff (e : EvalEnv) (p : Pattern) (q x y : Nat) : Int :=
  match e.d with
  | .a => posDiff x y
  | .b => (limbDiff (limbSig p q 6).1 (limbSig p q 6).2 x y).getD 0

/-- Every word that a job reads passes L-B's residue checks: inputs, and the limbs of its committed state (R136, R223). -/
def EvalEnv.wordsOk (e : EvalEnv) (p : Pattern) (q : Nat) (i : Inst) : Bool :=
  (i.ins.all fun x => (e.word p x.var x.fb).isSome && (e.before p x.var x.fb).isSome) && (e.com.stRd p e.d q).isSome
    && (p.readsAx i).all fun a => (e.axRd p a).isSome

/-- DCPL of the REIN at `q` in this span, as an input word (R260). -/
def EvalEnv.dcpl (e : EvalEnv) (p : Pattern) (q : Nat) : Bool :=
  match p.insts[q]? with
  | some i => (e.port p i 1).v == 1
  | none => false

/-- The effective decoupled set of this span (R260, R263). -/
def EvalEnv.dcSet (e : EvalEnv) (p : Pattern) (q : Nat) (r : ReinPar) : Nat :=
  if e.c.first then (if e.dcpl p q then r.dcMask else 0) else reinNext (e.comSt p q)

/-- The axis is a coupled member in this span (R253). -/
def EvalEnv.coupled (e : EvalEnv) (p : Pattern) (a : Nat) : Bool :=
  match p.reinOf a with
  | none => false
  | some (q, r, k) => k == 0 || !bitAt (e.dcSet p q r) k

/-- REQ of the block of axis `a` that a test names. -/
def EvalEnv.req (e : EvalEnv) (p : Pattern) (a : Nat) (f : Block → Bool) : In :=
  match (p.blkPos a f).bind fun q => p.insts[q]? with
  | some i => e.port p i 0
  | none => In.open 0

/-- State of the ramp of axis `a` in this span. -/
def EvalEnv.ramp (e : EvalEnv) (p : Pattern) (a : Nat) (f : Block → Bool) : Nat :=
  ((p.blkPos a f).map fun q => rampSt (e.curSt p q)).getD 0

/-- The same in the committed image. -/
def EvalEnv.rampC (e : EvalEnv) (p : Pattern) (a : Nat) (f : Block → Bool) : Nat :=
  ((p.blkPos a f).map fun q => rampSt (e.comSt p q)).getD 0

/-- A REACT 1 violation of a monitor of axis `a` begins in this span (R230). -/
def EvalEnv.react1 (e : EvalEnv) (p : Pattern) (a : Nat) : Bool :=
  (p.blksPos a fun b => b.react == 1).any fun q => e.flt p q && !e.fltC p q

/-- A block of axis `a` that removes torque is in FAULT; `held` is that the stop which a REACT 1 violation started runs
(R228, R230). SBC counts from the committed image (R497). -/
def EvalEnv.axFault (e : EvalEnv) (p : Pattern) (a : Nat) (held : Bool) : Bool :=
  (p.blksPos a Block.isMon).any (fun q => e.flt p q &&
      !(held && ((p.insts[q]?).map fun i => i.block.react == 1).getD false))
    || (p.blksPos a fun b => b.isSs1 || b.isSs2 || b.isSos).any (e.flt p)
    || (p.blksPos a Block.isSbc).any (e.fltC p)

/-- A member of a rein group as its REIN reads it (R254 to R257). Its own SS1 that has ended in STO takes its EN_TQ (R228); of the reference,
one that ended with the group's own stop does not count. -/
def EvalEnv.member (e : EvalEnv) (p : Pattern) (a st : Nat) (isRef : Bool) : Member :=
  let par := p.axPar a
  let s := e.ax p a
  let r := e.req p a Block.isSs1
  let enC := ((p.axisPos a).map fun q => e.comOut p q 0 == 1).getD false
  let x := match (p.axisPos a).map fun q => e.comSt p q with
    | some (.axis f l1 l2 _) =>
      f || s.recon1 || s.recon2 || (!s.valid1 && decide (64 ≤ l1 + e.c.dt) && !e.c.first)
        || (!s.valid2 && decide (64 ≤ l2 + e.c.dt) && !e.c.first)
    | _ => false
  let started := st == 1 || (st == 0 && e.react1 p a)
  let bf := e.axFault p a started
  { axis := a, par := par, snap := s, ss1Rise := r.rise, ss1Req := r.v == 1, react1 := e.react1 p a
    loses := !s.known || x || bf || (e.req p a Block.isSto).v == 1
      || (e.ramp p a Block.isSs1 == 2 && (!isRef || (st != 1 && e.rampC p a Block.isSs1 == 2)))
    fault := x || e.axFault p a false, enC := enC }

/-- The first violating TENSION of a group in this span, by its FCODE (R257). -/
def EvalEnv.tension (e : EvalEnv) (p : Pattern) (g : Nat) : Nat :=
  ((p.posOf fun i => match i.block with
      | .tension g' _ _ _ => g' == g
      | _ => false).findSome? fun q => if e.out p q 0 == 0 then some (e.out p q 2).toNat else none).getD 0

/-- What a REIN reads (R253). -/
def EvalEnv.reinIn (e : EvalEnv) (p : Pattern) (q : Nat) (i : Inst) (r : ReinPar) : ReinIn :=
  let st := (reinSt (e.comSt p q)).1
  let rq := e.port p i 0
  { z := e.zone p i.zone, zc := e.zoneC p i.zone, req := rq.v == 1, reqRise := rq.rise, dcpl := e.dcpl p q
    ref := e.member p r.refAx st true, fols := r.fol.map fun f => (f, e.member p f.axis st false)
    ss1 := e.ramp p r.refAx Block.isSs1, ss1c := e.rampC p r.refAx Block.isSs1, tension := e.tension p r.group }

/-- The group stop of the REIN of axis `a` starts in this span with GSTOP 1, so the reference's SS1 starts (R254, R255); with a cause of R257
in the same span no ramp starts (R262). -/
def EvalEnv.groupStarts (e : EvalEnv) (p : Pattern) (q : Nat) (r : ReinPar) : Bool :=
  match p.insts[q]? with
  | none => false
  | some i =>
    let x := e.reinIn p q i r
    let cf := coupledFols (e.dcSet p q r) x.fols
    (reinSt (e.comSt p q)).1 == 0 && r.gstop == 1 && groupStopCause x cf != 0 && !reinEscalates e.c.tspan x cf

/-- The SS1 of axis `a` starts in this span (R229, R230, R235, R253). An axis whose zone was put into STOPPING at the last commit has its torque
and an idle SS1 (R340). -/
def EvalEnv.ss1Starts (e : EvalEnv) (p : Pattern) (a : Nat) (rise : Bool) : Bool :=
  if e.coupled p a then
    match p.reinOf a with
    | some (q, r, 0) => e.groupStarts p q r
    | _ => false
  else
    let z := p.axZone a
    let idle := e.rampC p a Block.isSs1 == 0 && ((p.axisPos a).map fun y => e.comOut p y 0 == 1).getD false
    rise || (e.zone p z == 3 && (e.zoneC p z != 3 || idle) && (p.axPar a).stopCat == 1) || e.react1 p a

/-- The axes of the coupled members under a decoupled set (R253, R260). -/
def coupledAxes (r : ReinPar) (dc : Nat) : List Nat :=
  r.refAx :: (r.fol.zipIdx.filter fun (x : Follower × Nat) => !bitAt dc (x.2 + 1)).map fun x => x.1.axis

/-- A test of a coupled member's brake may start (R262). -/
def EvalEnv.sbtMay (e : EvalEnv) (p : Pattern) (a : Nat) : Bool :=
  match p.reinOf a with
  | none => true
  | some (q, r, k) =>
    let dc := e.dcSet p q r
    if !(k == 0 || !bitAt dc k) then true
    else
      let ms := coupledAxes r dc
      (reinSt (e.comSt p q)).1 == 0 && ms.all fun m =>
        (((p.axisPos m).map fun y => e.comOut p y 0 == 1).getD false)
          && (e.ax p m).known && !exceeds (e.ax p m).dMax
            (winUnits (p.axPar m) e.c.tspan (((p.blkPos m Block.isSs1).bind fun y => (p.insts[y]?).bind fun i =>
              match i.block with
              | .ss1 _ rp => some rp.vZero
              | _ => none).getD 0))

/-- V_ZERO of the SS1 of axis `a`. -/
def ss1Zero (p : Pattern) (a : Nat) : Nat :=
  ((p.blkPos a Block.isSs1).bind fun y => (p.insts[y]?).bind fun i => match i.block with
    | .ss1 _ rp => some rp.vZero
    | _ => none).getD 0

/-- T_ENG of the SBC of axis `a`. -/
def sbcEng (p : Pattern) (a : Nat) : Nat :=
  ((p.blkPos a Block.isSbc).bind fun y => (p.insts[y]?).bind fun i => match i.block with
    | .sbc _ _ _ t _ => some t
    | _ => none).getD 0

/-- What the AXIS reads (R228, R253). -/
def EvalEnv.axisIn (e : EvalEnv) (p : Pattern) (i : Inst) (a : Nat) : AxisIn :=
  let cp := e.coupled p a
  let rs := match p.reinOf a with
    | some (q, _, _) => reinSt (e.curSt p q)
    | none => (0, 0, none)
  let ss1 := e.ramp p a Block.isSs1
  let held := if cp then rs.1 == 1 else ss1 == 1
  { z := e.zone p i.zone, zc := e.zoneC p i.zone, blockFault := e.axFault p a held
    stoReq := (e.req p a Block.isSto).v == 1, ss1 := ss1, ss1c := e.rampC p a Block.isSs1
    ss2 := e.ramp p a Block.isSs2
    sos := ((p.blkPos a Block.isSos).map fun q => sosSt (e.curSt p q)).getD 0
    tEng := sbcEng p a, coupled := cp, rein := rs.1, reinLead := rs.2.2.isSome }

/-- A brake lead of axis `a` runs in this span (R242, R255). -/
def EvalEnv.lead (e : EvalEnv) (p : Pattern) (a : Nat) : Bool :=
  if e.coupled p a then
    match p.reinOf a with
    | some (q, _, _) => (reinSt (e.curSt p q)).2.2.isSome
    | none => false
  else match (p.axisPos a).map fun q => e.curSt p q with
    | some (.axis _ _ _ eng) => eng.isSome
    | _ => false

/-- Every stop function of the zone is complete in the committed image (R122). -/
def EvalEnv.zoneDone (e : EvalEnv) (p : Pattern) (z : Nat) : Bool :=
  (p.posOf fun i => i.zone == z && (match i.block with
    | .outsafe .. => true
    | .axis .. => true
    | _ => false)).all fun q => e.comOut p q 0 == 0

/-- The latching demand by membership of a zone and its instance (R230, R257, R497): faults of the first part in this
span, of the third part in the committed image; `ten` that TENSION instances count. -/
def EvalEnv.zoneMember (e : EvalEnv) (p : Pattern) (z : Nat) (ten : Bool) : Option Nat :=
  let inZone (i : Inst) : Bool := match i.block with
    | .tension g _ _ _ => ((p.reinGrp g).bind fun r => (p.insts[r.1]?).map fun x => x.zone == z).getD false
    | .rein _ => i.zone == z
    | .axis _ => i.zone == z
    | b => (b.ax.map fun a => p.axZone a == z).getD false
  (p.insts.zipIdx.find? fun x => inZone x.1 && (match x.1.block with
    | .sbt .. => false
    | .tension .. => ten && e.flt p x.2
    | .ss1 .. => e.fltC p x.2
    | .ss2 .. => e.fltC p x.2
    | .sos .. => e.fltC p x.2
    | .rein .. => e.fltC p x.2
    | .axis .. => e.fltC p x.2
    | .sbc .. => e.fltC p x.2
    | b => b.isMon && e.flt p x.2)).map fun x => x.1.id

/-- The start of the press behind a pulse at RST, in gPTP ns (R304 condition 3). -/
def EvalEnv.press (e : EvalEnv) (p : Pattern) (i : Inst) : Option Nat :=
  match (i.ins.find? fun x => x.port == 17).bind fun x => (p.var x.var).bind fun v => p.pos v.producer with
  | none => none
  | some q => match e.curSt p q with
    | .reset _ _ _ ns sp _ =>
      let back := (e.c.span + 2 ^ 32 - sp) % 2 ^ 32
      let t := e.c.tickNs - back * e.c.tspan
      some (t - (t + 2 ^ 32 - ns % 2 ^ 32) % 2 ^ 32)
    | _ => none

/-- What the ZONE reads. -/
def EvalEnv.zoneIn (e : EvalEnv) (p : Pattern) (i : Inst) (ten : Bool) : ZoneIn :=
  let m := e.zoneMember p i.zone ten
  { member := m.isSome, memberInst := m.getD 0xFFFF
    srcs := (List.range 16).map fun k =>
      ((i.ins.find? fun x => x.port == k).bind fun x => (p.var x.var).map (·.producer)).getD 0xFFFF
    done := e.zoneDone p i.zone, fswBlocks := e.blocked.contains i.zone, pressNs := e.press p i
    remote := Tab.get none e.snap.remote i.zone, clearNs := Tab.get 0 e.clears i.zone
    commitNs := e.c.tickNs + 85 * (e.c.tspan / 125) / 100 * 125, inRun := e.inRun }

/-- The state that zone `z` takes in this span as far as no TENSION demands a stop: what a TENSION, which is evaluated before the ZONE, knows of
it (R256, R259, R497). -/
def EvalEnv.zoneAhead (e : EvalEnv) (p : Pattern) (z : Nat) : Nat :=
  match (p.zonePos z).bind fun q => (p.insts[q]?).map fun i => (q, i) with
  | none => 0
  | some (q, i) => match i.block, e.comSt p q with
    | .zone _ _ lt _, .zone l o k n =>
      ((evalZone e.c lt (e.ports p i) (e.zoneIn p i false) (e.comOut p q 0).toNat l o k n).outs.headD 0).toNat
    | _, _ => 0

/-- What a TENSION reads of its group (R256, R259): whether the coupling law is tested in this span, from the span on in which a coupled ramp
starts, and whether its REIN stays in FAULT in this span. -/
def EvalEnv.tensionIn (e : EvalEnv) (p : Pattern) (g : Nat) : Bool × Bool :=
  match p.reinGrp g with
  | none => (false, false)
  | some (k, r) => match p.insts[k]? with
    | none => (false, false)
    | some i =>
      let z := e.zoneAhead p i.zone
      let x : ReinIn := { e.reinIn p k i r with z := z }
      let cf := coupledFols (e.dcSet p k r) x.fols
      let st := (reinSt (e.comSt p k)).1
      let any := x.ref.enC || cf.any fun f => f.2.enC
      let known := x.ref.snap.known && x.fols.all fun f => f.2.snap.known
      (st == 1 || (st == 0 && ((r.gstop == 1 && groupStopCause x cf != 0) || (r.mon == 1 && any))), st == 3 && !(z == 0 && known))

/-! ## Dispatch order -/

/-- Positions whose outputs port `k` of position `q` reads in the same span. -/
def portProducers (p : Pattern) (q k : Nat) : List Nat :=
  match p.insts[q]? with
  | none => []
  | some i => i.ins.filterMap fun x => if x.port != k || x.fb then none else (p.var x.var).bind fun v => p.pos v.producer

/-- Positions whose outputs an instance reads in the same span. -/
def inProducers (p : Pattern) (i : Inst) : List Nat :=
  i.ins.filterMap fun e => if e.fb then none else (p.var e.var).bind fun v => p.pos v.producer

/-- Position `q` is `t` or depends on it by same-span edges. -/
def dependsOn (p : Pattern) (t : Nat) : Nat → Nat → Bool
  | 0, q => q == t
  | n + 1, q => q == t || (((p.insts[q]?).map (inProducers p)).getD []).any (dependsOn p t n)

/-- Positions whose membership effects reach position `q` in the same span (R497). -/
def memberDeps (p : Pattern) (q : Nat) : List Nat :=
  match p.insts[q]? with
  | none => []
  | some i =>
    let zq := (p.zonePos i.zone).toList
    let first (a : Nat) : List Nat := p.blksPos a fun b => b.isMon || b.isSbt
    let ramps (a : Nat) : List Nat := p.blksPos a fun b => b.isSs1 || b.isSs2 || b.isSos
    match i.block with
    | .zone .. => p.posOf fun x => (match x.block with
        | .tension .. => true
        | b => b.isMon || b.isSbt || (match b with
          | .ssm .. => true
          | _ => false)) && (x.zone == i.zone || ((x.block.ax.map fun a => p.axZone a == i.zone).getD false))
    | .ss1 a _ => (p.zonePos (p.axZone a)).toList ++ first a ++ (match p.reinOf a with
        | some (_, r, 0) => r.fol.flatMap fun f => first f.axis
        | _ => [])
    | .ss2 a _ => (p.zonePos (p.axZone a)).toList ++ first a ++ p.blksPos a Block.isSs1
    | .sos a _ _ => (p.zonePos (p.axZone a)).toList ++ p.blksPos a fun b => b.isSs1 || b.isSs2
    | .rein r => zq ++ (r.refAx :: r.fol.map (·.axis)).flatMap (fun a => first a ++ ramps a)
        ++ p.posOf fun x => match x.block with
          | .tension g _ _ _ => g == r.group
          | _ => false
    | .axis _ => zq ++ (match p.axisOf i with
        | some a => first a ++ ramps a ++ (match p.reinOf a with
          | some (k, _, _) => [k]
          | none => [])
        | none => [])
    | .sbc a _ _ _ _ => (p.axisPos a).toList ++ first a ++ (match p.reinOf a with
        | some (k, _, _) => [k]
        | none => [])
    | .outsafe .. => zq
    | .outstd _ => zq
    | b => match b.ax with
      | some a => (p.zonePos (p.axZone a)).toList.filter (· < q)
      | none => []

/-- Positions of the TENSION instances of group `g`. -/
def tensionsOf (p : Pattern) (g : Nat) : List Nat :=
  p.posOf fun x => match x.block with
    | .tension g' _ _ _ => g' == g
    | _ => false

/-- Producers of what an instance reads at the ports of other instances in the same span: the reference's SS1 what starts a group stop, a
follower's SS1 whether it is coupled, an SBT the STO request, a TENSION what starts a group stop or stops its zone (R244, R253 to R256). -/
def foreignDeps (p : Pattern) (q : Nat) : List Nat :=
  let req (a : Nat) (f : Block → Bool) : List Nat := ((p.blkPos a f).map fun k => portProducers p k 0).getD []
  let starts (k : Nat) (r : ReinPar) : List Nat := portProducers p k 0 ++ portProducers p k 1 ++ (r.refAx :: r.fol.map (·.axis)).flatMap fun a => req a Block.isSs1
  match (p.insts[q]?).map Inst.block with
  | some (.ss1 a _) => (match p.reinOf a with
    | some (k, r, 0) => starts k r ++ tensionsOf p r.group
    | some (k, _, _) => portProducers p k 1
    | none => [])
  | some (.sbt a _ _ _) => req a Block.isSto
  | some (.tension g _ _ _) => (match p.reinGrp g with
    | some (k, r) =>
      let zq := ((p.insts[k]?).bind fun i => p.zonePos i.zone).bind fun z => p.insts[z]?
      let mon := (r.refAx :: r.fol.map (·.axis)).flatMap fun a => p.blksPos a Block.isMon
      let zn := (zq.map (inProducers p)).getD []
      (starts k r ++ mon ++ zn).filter fun y => !dependsOn p q p.insts.length y
    | none => [])
  | _ => []

/-- Positions that must have completed before position `q` is ready (R74, R497). -/
def deps (p : Pattern) (q : Nat) : List Nat :=
  match p.insts[q]? with
  | none => []
  | some i => inProducers p i ++ foreignDeps p q ++ (memberDeps p q).filter (· < q)

/-! ## One job -/

/-- Off-pulse of channel `n` falls in span `k` (R202). -/
def pulseDue (p : Pattern) (tspan k n : Nat) : Bool :=
  let nOp := nSpans tspan p.map.opPeriod
  nOp != 0 && (p.chan n).mode == 3 && k % nOp == (p.chan n).opPhase

/-- Motion and coupling blocks. -/
def evalMotion (e : EvalEnv) (p : Pattern) (q : Nat) (i : Inst) (ins : List In) (po : List Int) : Res :=
  let c := e.c
  let st := e.comSt p q
  match i.block, st with
  | .encpair a pt dt, .flag f => evalEncpair (e.diff p q) pt dt (e.ax p a) (e.zoneC p (p.axZone a)) po f
  | .sto a tf, .sto f x dis =>
    let enC := ((p.axisPos a).map fun y => e.comOut p y 0 == 1).getD false
    evalSto c tf ins (e.ax p a) (e.zoneC p (p.axZone a)) enC f x dis
  | .ss1 a rp, .ramp s r v =>
    evalRamp c (p.axPar a) rp false (e.ss1Starts p a (inp ins 0).rise) (on ins 0) (e.ax p a) (e.zone p (p.axZone a)) s r v
  | .ss2 a rp, .ramp s r v =>
    evalRamp c (p.axPar a) rp true (inp ins 0).rise (on ins 0) (e.ax p a) (e.zone p (p.axZone a)) s r v
  | .sos a sp sv, .sos s h1 h2 =>
    evalSos (e.diff p q) (p.axPar a) c sp sv (on ins 0) (e.ramp p a Block.isSs2 == 2) (e.ax p a) (e.zone p (p.axZone a)) s h1 h2
  | .sls a ls t _, .sls f l pv ad => evalSls c (p.axPar a) ls t ins (e.ax p a) (e.zoneC p (p.axZone a)) f l pv ad
  | .slp a mn mx b v _, .flag f => evalSlp c (p.axPar a) mn mx b v ins (e.ax p a) (e.zoneC p (p.axZone a)) f
  | .sdi a dr t _, .sdi f g b1 b2 r1 r2 => evalSdi (e.diff p q) dr t ins (e.ax p a) (e.zoneC p (p.axZone a)) f g b1 b2 r1 r2
  | .sbc a _ _ _ tf, .sbc f l fb =>
    let en := ((p.axisPos a).map fun y => e.out p y 0 == 1).getD false
    let busy := ((p.blkPos a Block.isSbt).map fun y => e.out p y 1 == 1).getD false
    evalSbc c tf ins (e.ax p a) (e.zone p (p.axZone a)) en (e.lead p a) busy f l fb
  | .sbt a tt sp ih, .sbt s td fl te tq s1 s2 ag =>
    let enC := ((p.axisPos a).map fun y => e.comOut p y 0 == 1).getD false
    evalSbt (e.diff p q) c tt sp ih (winUnits (p.axPar a) c.tspan (ss1Zero p a)) ins (e.ax p a) enC ((e.req p a Block.isSto).v == 1)
      (e.sbtMay p a) s td fl te tq s1 s2 ag
  | .ssm a v h, _ => evalSsm c (p.axPar a) v h (e.ax p a) po
  | .axis par, .axis f l1 l2 eng =>
    let a := (p.axisOf i).getD 0
    evalAxis c par (e.axisIn p i a) (e.ax p a) po f l1 l2 eng
  | .rein r, .rein s ca dc nx eng run =>
    evalRein c r (e.reinIn p q i r) po s ca (if c.first then dc else nx) eng run
  | .tension g lo hi tf, .tension b l =>
    let t := e.tensionIn p g
    evalTension c lo hi tf ins t.1 t.2 po b l
  | _, s => { outs := po, st := s, ev := [] }

/-- Evaluate the instance at position `q` (R74, R92). -/
def evalInst (e : EvalEnv) (p : Pattern) (q : Nat) (i : Inst) : Res :=
  let c := e.c
  let ins := e.ports p i
  let po := e.comOuts p q
  let st := e.comSt p q
  let logic (v : Int) : Res := { outs := [v], st := .plain, ev := [] }
  match i.block, st with
  | .estop m t, .dual s => evalDual c m t 0 ins s
  | .guard m t g, .dual s => evalDual c m t g ins s
  | .ossd m t, .dual s => evalDual c m t 0 ins s
  | .glock pr t tl, .glock d l m => evalGlock c pr t tl ins d l m
  | .mute2 a b o, .mute s ar _ _ _ ru se => evalMute2 c a b o ins po s ar ru se
  | .mute4 a b o dr, .mute s ar _ sb _ ru se => evalMute4 c a b o dr ins po s ar sb ru se
  | .twohand ty s k, .twohand x r sy c1 c2 => evalTwohand c ty s k ins po x r sy c1 c2
  | .enable3 t, .enable3 m p1 ps => evalEnable3 c t ins po m p1 ps
  | .modesel n t, .modesel ca h f => evalModesel c n t ins po ca h f
  | .reset mn mx, .reset pr af bd ns sp vl =>
    let cap := match (i.ins.find? fun x => x.port == 0).map fun x => Tab.get SnapSrc.none p.encA.snap x.var with
      | some (.chan n) => (Tab.get ChanSnap.off e.snap.chans n).cap
      | _ => { rise := 0, fall := 0, ovRise := false, ovFall := false }
    evalReset c mn mx ins cap pr af bd ns sp vl
  | .edm t n, .edm f tm => evalEdm c t n ins po f tm
  | .and n, _ => logic (bi (countOn n ins == n))
  | .or n, _ => logic (bi (countOn n ins != 0))
  | .not, _ => logic (1 - (inp ins 0).v)
  | .xor n, _ => logic (bi (countOn n ins % 2 == 1))
  | .rs, _ => logic (if on ins 1 then 0 else if on ins 0 then 1 else po.getD 0 0)
  | .ton t, .timer tm => evalTon c t ins tm
  | .tof t, .timer tm => evalTof c t ins tm
  | .tp t, .timer tm => evalTp c t ins tm
  | .ctu v, _ => evalCtu v ins po
  | .cmp14 s o f h, _ => evalCmp14 s o f h ins po
  | .sel n s, _ => evalSel n s ins
  | .zone _ _ lt _, .zone l o k n => evalZone c lt ins (e.zoneIn p i true) (po.getD 0 0).toNat l o k n
  | .connIn par, .connIn w wd l b ep sq => evalConnIn c par ins (Tab.get ConnSnap.none e.snap.conns q) po w wd l b ep sq
  | .connOut par, .connOut ep sq => evalConnOut c par (par.auth == 1 && e.authOff) ep sq
  | .outsafe t d _, .outsafe s b tm =>
    let rb := decide (t < 132) && Tab.get false e.snap.outFault t
    evalOutsafe c d ins (e.zone p i.zone) (e.zoneC p i.zone) rb (decide (t < 132) && pulseDue p c.tspan c.span t) s b tm
  | .outstd _, _ => logic (inp ins 0).v
  | .stdin sl _ _ sa sf, _ => evalStdin c sa sf (Tab.get none e.snap.stdin sl)
  | .stdout _, _ => { outs := [], st := .plain, ev := [] }
  | .diag m g, .diag l s => evalDiag c m g ins l s
  | _, _ => evalMotion e p q i ins po

/-- A result under the fourth exception of R459: no command and no EN_TQ rises, and no zone enters READY or RUNNING. -/
def clampRes (i : Inst) (po : List Int) (old : IState) (r : Res) : Res :=
  let lo := (r.outs.headD 0 == 1) && (po.headD 0 == 0)
  match i.block with
  | .zone .. =>
    if (r.outs.headD 0 == 1 || r.outs.headD 0 == 2) && r.outs.headD 0 != po.headD 0 then { r with outs := po } else r
  | .axis _ => if lo then { r with outs := 0 :: r.outs.tail } else r
  | .sbc .. => if lo then { r with outs := 0 :: r.outs.tail } else r
  | .outstd _ => if lo then { r with outs := 0 :: r.outs.tail } else r
  | .outsafe .. =>
    if lo then
      let st : IState := match r.st, old with
        | .outsafe 1 _ _, .outsafe _ b _ => .outsafe 0 b none
        | x, _ => x
      { r with outs := 0 :: r.outs.tail, st := st }
    else r
  | _ => r

/-- Signature and word of an input port on L-B; an unconnected port reads its default as a coded constant (R134). -/
def EvalEnv.operand (e : EvalEnv) (p : Pattern) (i : Inst) (k : Nat) : Nat × Int :=
  match i.ins.find? fun x => x.port == k with
  | some x => (sigOf p x.var, e.raw p x.var x.fb)
  | none =>
    let b := Tab.get 0 p.encB.consts (64 * i.outs.headD 0 + 32 + k)
    (b, code b (i.block.portDflt k))

/-- The coded outputs of a job on L-B, with the operations and the correction constants of Table 05-2 (R134, R138); `none` where an
operation finds a residue failure. Outputs for which the spec gives no sequence of operations are selections of a coded constant (log 110). -/
def codedOuts (e : EvalEnv) (p : Pattern) (i : Inst) (r : Res) : Option (List Int) :=
  let v (k : Nat) : Nat := i.outs.getD k 0
  let bz := sigOf p (v 0)
  let kOf (k j : Nat) : Int := Tab.get 0 p.encB.ks (64 * v k + j)
  let cst (k j : Nat) (x : Int) : Int := code (Tab.get 0 p.encB.consts (64 * v k + j)) x
  let pick (k : Nat) : Int := cSelect (kOf k 0) (cst k 0 (r.outs.getD k 0))
  let rest : List Int := (List.range (r.outs.length - 1)).map fun k => pick (k + 1)
  let inputs (n : Nat) : List (Nat × Int) := (List.range n).map (e.operand p i)
  match i.block with
  | .and n => (cCount (inputs n)).map fun n1 => [cAnd bz n n1]
  | .or n => (cCount (inputs n)).map fun n1 => [cOr bz n1]
  | .xor n => (cCount (inputs n)).map fun n1 => [cXor bz n1]
  | .not => some [cNot (kOf 0 0) (e.operand p i 0).2]
  | .sel _ _ =>
    if r.outs.getD 2 0 = 0 then
      let k := (inp (e.ports p i) 0).v.toNat
      some (cSelect (kOf 0 (k + 1)) (e.operand p i (k + 1)).2 :: rest)
    else some (pick 0 :: rest)
  | .cmp14 sg op ofs hys =>
    let a := e.operand p i 0
    let b := e.operand p i 1
    let bOfs := Tab.get 0 p.encB.consts (64 * v 0 + 1)
    let bSum := Tab.get 0 p.encB.consts (64 * v 0 + 2)
    let lo : Int := if sg = 1 then -8192 else 0
    let hi : Int := if sg = 1 then 8191 else 16383
    let was := e.com.val p e.d (v 0) == 1
    let dB : Int := if !was then 0 else if op = 4 || op = 5 then -(hys : Int) else if op = 2 || op = 3 then hys else 0
    (cSat lo hi bSum bSum 0 (cAdd (kOf 0 0) a.2 (code bOfs ofs))).bind fun s =>
      let cmp (x : Int) : Option Bool := (cCmp bSum b.1 s x).map fun c => cmpOp op c 0
      (cmp b.2).bind fun c1 => (cmp (b.2 + 4091 * dB)).map fun c2 => [code bz (bi (c1 || (was && c2)))]
  | _ => some ((List.range r.outs.length).map pick)

/-- The results of a lane: plain on L-A; on L-B coded, each word residue-checked under the signature of its destination and decoded for the
compare record of its group, by this lane (R134, R136, R137; log 111). -/
def laneRes (e : EvalEnv) (p : Pattern) (q : Nat) (i : Inst) (r : Res) : Option Res :=
  match e.d with
  | .a => some r
  | .b => (codedOuts e p i r).bind fun ws =>
    if (i.outs.zip ws).all fun x => (dec p .b x.1 x.2).isSome then
      some { r with outs := ws, st := IState.withMotion r.st [], limbs := limbsOf p q r.st }
    else none

/-- The point values of a CONN_OUT decode for its telegram (R137). -/
def EvalEnv.payloadOk (e : EvalEnv) (p : Pattern) (i : Inst) : Bool :=
  match i.block with
  | .connOut _ => i.ins.all fun x => (dec p e.d x.var (e.raw p x.var x.fb)).isSome
  | _ => true

/-- The job of position `q`: `none` where L-B reports a residue failure (R76, R136, R137). -/
def runJob (e : EvalEnv) (p : Pattern) (q : Nat) : Option Res :=
  match p.insts[q]? with
  | none => none
  | some i =>
    if e.wordsOk p q i && e.payloadOk p i then
      let r := evalInst e p q i
      laneRes e p q i (if e.noRise then clampRes i (e.comOuts p q) (e.comSt p q) r else r)
    else none

/-- The image with the results of position `q` written (R75). -/
def Img.put (p : Pattern) (m : Img) (q : Nat) (r : Res) : Img :=
  let outs := ((p.insts[q]?).map (·.outs)).getD []
  { vars := (outs.zip r.outs).foldl (fun (t : Tab Int) (x : Nat × Int) => Tab.set 0 t x.1 x.2) m.vars
    ist := Tab.set .plain m.ist q r.st
    limbs := r.limbs.zipIdx.foldl (fun (t : Tab Int) x => Tab.set 0 t (16 * q + x.2) x.1) m.limbs
    ev := (m.ev.filter fun y => y.1 != q) ++ r.ev.map fun x => (q, x) }

/-- The limb words of the axis snapshots (R223). -/
def axLimbs (p : Pattern) (sn : Snap) : Tab Int :=
  p.axes.foldl (fun (t : Tab Int) r =>
    let k := axSlot r.axis
    let ws := (Tab.get AxSnap.empty sn.axes r.axis).motion.zipIdx.flatMap fun (x : Nat × Nat) => limbWords (limbSig p k x.2).1 (limbSig p k x.2).2 x.1
    ws.zipIdx.foldl (fun (u : Tab Int) x => Tab.set 0 u (16 * k + x.2) x.1) t) []

/-- The image at the start of an evaluation: the snapshot inputs alone. -/
def Img.ofSnap (p : Pattern) (d : Die) (sn : Snap) : Img :=
  { vars := p.vars.foldl (fun t v => if v.producer = 0xFFFF then Tab.set 0 t v.id (enc p d v.id (snapVal p sn v.id)) else t) []
    ist := [], limbs := if d = .b then axLimbs p sn else [], ev := [] }

/-- The committed image that an entry into RUN begins with: start values and start states (R71, R86, R96). `zs` gives
the start state of each zone (R85); `keep` the tuples that CONN_IN keeps. -/
def Img.start (p : Pattern) (d : Die) (zs : Nat → Nat) (ist : Nat → Inst → IState) : Img :=
  let base := p.vars.foldl (fun t v => Tab.set 0 t v.id (enc p d v.id 0)) []
  let vs := p.insts.foldl (fun t i =>
      (i.outs.zip (i.block.startOuts (zs i.zone))).foldl (fun (u : Tab Int) (x : Nat × Int) => Tab.set 0 u x.1 (enc p d x.1 x.2)) t) base
  let m0 : Img := { vars := vs, ist := [], limbs := [], ev := [] }
  p.insts.zipIdx.foldl (fun (m : Img) (x : Inst × Nat) => m.putSt p d x.2 (ist x.2 x.1)) m0

/-- What the feedback edges of the first span in RUN give: the initial values of the records, and of a ZONE its start state (R71). -/
def Img.first (p : Pattern) (d : Die) (m : Img) : Tab Int :=
  p.vars.foldl (fun t v =>
    let z := (((p.pos v.producer).bind fun q => p.insts[q]?).map (·.block.isZone)).getD false
    if v.producer = 0xFFFF || z then t else Tab.set 0 t v.id (enc p d v.id v.init)) m.vars

end Machine

end Sys2Proof
end

