-- ==== Sys2Proof/Config.lean ====
section
/-! DEFINITION. What the spec leaves to an installed library, to a standard it names without restating it,
or open. Every constant here is opaque: nothing can be proved of its values (log 6, log 11, log 14 to 16). -/

namespace Sys2Proof.Config

/-- A free value: what the spec does not state, applied to the counter of `State` (log 6). -/
opaque freeValue : Nat → Nat

/-- What a die reads from its channel encoding: signatures B_v, snapshot bindings, closures. The
spec gives no byte layout of an encoding (log 11). The argument after the die is the encoding as stored. -/
opaque readEncoding : Die → List Byte → Enc

/-- The costs base and in of a type code on a die in a library version: data that the device publishes in COST_* (R496, log 14). -/
opaque libCost : (version : Nat) → Die → (typeCode : Nat) → Nat × Nat

/-- LIB_VER of the library of delivery (R496, log 14). -/
opaque libVersion : Nat

/-- Type code of the diagnostic mirror of the snapshot slots at an index and subindex from 0xF000, `none` where there is none: the spec
gives the mirrors no layout (R81, log 42). -/
opaque mirrorType : (idx sub : Nat) → Option Nat

/-- The value of that mirror over the slots of a die (R81, log 42). -/
opaque mirrorValue : Tab Machine.Snap → (idx sub : Nat) → Nat

/-- The `n` octets of a word, the most significant first. -/
def octets (n : Nat) {w : Nat} (v : BitVec w) : List Byte := (List.range n).map fun i => v.extractLsb' (8 * (n - 1 - i)) 8

theorem octets_length (n : Nat) {w : Nat} (v : BitVec w) : (octets n v).length = n := by simp [octets]

/-- The AES-CMAC of NIST SP 800-38B of a message under a key, as one word (R286, log 15). -/
opaque aesCmacWord : List Byte → List Byte → BitVec 128

/-- AES-CMAC: key, message, 16 octets. -/
def aesCmac (key msg : List Byte) : List Byte := octets 16 (aesCmacWord key msg)

/-- SHA-256 as one word (log 15). -/
opaque sha256Word : List Byte → BitVec 256

/-- SHA-256: 32 octets. -/
def sha256 (msg : List Byte) : List Byte := octets 32 (sha256Word msg)

/-- The key that a wrapped key holds under a wrapping key: `none` where the integrity check fails (log 15). -/
opaque keyUnwrapWord : List Byte → List Byte → Option (BitVec 128)

/-- Key unwrap: 16 octets. -/
def keyUnwrap (kek wrapped : List Byte) : Option (List Byte) := (keyUnwrapWord kek wrapped).map (octets 16)

/-- ECDSA verification: public key, message, signature (log 15). -/
opaque sigVerify : List Byte → List Byte → List Byte → Bool

/-- A random challenge of `n` octets, drawn as the `k`-th of the device (log 16). -/
opaque randomWord : (n k : Nat) → BitVec (8 * n)

/-- The octets of a random challenge. -/
def random (n k : Nat) : List Byte := octets n (randomWord n k)

/-- The measured frequency of clock domain `n` in kHz, which the spec gives only within a window (log 28), on its normal source or on the
other source of its switch. -/
opaque measuredKHz : (n : Nat) → (other : Bool) → Nat

/-- Granules of 512 bytes of region memory `k` of an L-die (18_self_test.md Table 18-1 gives no sizes; log 26). -/
opaque regionGranules : (k : Nat) → Nat

/-- The own MAC address of network `n`, whose source the spec does not give (log 29). -/
opaque macAddr : (n : Nat) → Nat

/-- Record format version of a change-log header, which Table 03-6 does not state (log 32). -/
opaque logFormat : Nat

/-- First byte of part `k` in the firmware staging region, whose layout the spec does not give (log 33). -/
opaque stagePlace : (k : Nat) → Nat

/-- OP codes of service frames, which R451 does not give: 1 CHAL, 2 AUTH, 3 MANIFEST, 4 CHUNK, 5 ABORT, 6 ACTIVATE in a request,
8 more in its response (log 34). -/
opaque svcOp : (k : Nat) → Nat

end Sys2Proof.Config
end

