-- ==== Sys2Proof/Machine/Crc.lean ====
section
/-! DEFINITION. The CRC model of 16_crc_timers.md R404 and the three CRCs the rest of the spec names (R69, R193). -/

namespace Sys2Proof.Machine

/-- Parameters of a CRC (R404). -/
structure CrcPar where
  width : Nat
  poly : Nat
  init : Nat
  refin : Bool
  refout : Bool
  xorout : Nat
  deriving DecidableEq, Repr

/-- The lowest `w` bits of `v`, mirrored. -/
def reflect : Nat → Nat → Nat
  | 0, _ => 0
  | w + 1, v => v % 2 * 2 ^ w + reflect w (v / 2)

/-- One bit into the register: `b` is compared with the top bit. -/
def crcBit (w poly acc : Nat) (b : Bool) : Nat :=
  let top := bitAt acc (w - 1)
  let sh := acc * 2 % 2 ^ w
  if top != b then Nat.xor sh poly else sh

/-- The low `n` bits of `v` into the register, most significant first. -/
def crcBits (w poly : Nat) : Nat → Nat → Nat → Nat
  | 0, _, acc => acc
  | n + 1, v, acc => crcBits w poly n v (crcBit w poly acc (bitAt v n))

/-- One byte into the register. -/
def crcByte (p : CrcPar) (acc : Nat) (b : Byte) : Nat :=
  crcBits p.width p.poly 8 (if p.refin then reflect 8 b.toNat else b.toNat) acc

/-- Bytes into the register. -/
def crcFeed (p : CrcPar) (acc : Nat) (bs : List Byte) : Nat := bs.foldl (crcByte p) acc

/-- The finalised value (R407). -/
def crcFinal (p : CrcPar) (acc : Nat) : Nat :=
  Nat.xor (if p.refout then reflect p.width acc else acc) p.xorout

/-- The CRC of a byte string. -/
def crcOf (p : CrcPar) (bs : List Byte) : Nat := crcFinal p (crcFeed p p.init bs)

/-- Table 16-1 by preset, `none` for another number. -/
def crcPresetPar (n : Nat) : Option CrcPar :=
  if n = 1 then some { width := 32, poly := 0x1EDC6F41, init := 0xFFFFFFFF, refin := true, refout := true, xorout := 0xFFFFFFFF }
  else if n = 2 then some { width := 32, poly := 0x04C11DB7, init := 0xFFFFFFFF, refin := true, refout := true, xorout := 0xFFFFFFFF }
  else if n = 3 then some { width := 16, poly := 0x1021, init := 0xFFFF, refin := false, refout := false, xorout := 0 }
  else if n = 4 then some { width := 64, poly := 0x42F0E1EBA9EA3693, init := 0, refin := false, refout := false, xorout := 0 }
  else none

/-- CRC-32C (R69). -/
def crc32c (bs : List Byte) : Nat :=
  crcOf { width := 32, poly := 0x1EDC6F41, init := 0xFFFFFFFF, refin := true, refout := true, xorout := 0xFFFFFFFF } bs

/-- CRC-64/ECMA-182 (R69). -/
def crc64 (bs : List Byte) : Nat :=
  crcOf { width := 64, poly := 0x42F0E1EBA9EA3693, init := 0, refin := false, refout := false, xorout := 0 } bs

/-- CRC-16/CCITT of a value of `n` bytes taken most significant byte first (R193, log 18). -/
def crc16 (bs : List Byte) : Nat :=
  crcOf { width := 16, poly := 0x1021, init := 0xFFFF, refin := false, refout := false, xorout := 0 } bs

end Sys2Proof.Machine
end

