-- ==== Sys2Proof/Machine/Ops.lean ====
section
/-! DEFINITION. Named operations on the state: dies, registers, counters, time, journal records, the latch of a fault
bit and its class reaction (11_fault_handling.md R292 to R309, 15_rings_journal.md R397 to R399). -/

namespace Sys2Proof.Machine

/-- The L-die `d`. -/
def State.die (s : State) : Die → LDie
  | .a => s.a
  | .b => s.b

/-- Replace the L-die `d`. -/
def State.setDie (s : State) (d : Die) (l : LDie) : State :=
  match d with
  | .a => { s with a := l }
  | .b => { s with b := l }

/-- Change the L-die `d`. -/
def State.updDie (s : State) (d : Die) (f : LDie → LDie) : State := s.setDie d (f (s.die d))

/-- Read an entry of the register store. -/
def State.reg (s : State) (idx sub : Nat) : Nat := Regs.get s.regs (odKey idx sub)

/-- Write an entry of the register store. -/
def State.setReg (s : State) (idx sub v : Nat) : State := { s with regs := Regs.set s.regs (odKey idx sub) v }

/-- Count one event in a saturating counter of width `w`. -/
def State.bump (s : State) (w idx sub : Nat) : State := s.setReg idx sub (satInc w (s.reg idx sub))

/-- DIE_STATE: 0 L-A, 1 L-B, 2 M-die, 3 + d F-die d. -/
def State.dieSt (s : State) (x : Nat) : Nat := Tab.get 0 s.flt.die x

/-- An L-die is admitted. -/
def State.admitted (s : State) (d : Die) : Bool := s.dieSt d.n == 0

/-- The die whose events move the counters of the device: L-A while it is admitted (log 19). -/
def State.srv (s : State) : Die := if s.admitted .a then .a else .b

/-- Count an event of die `d` that both dies see, once for the device (log 19). -/
def State.bumpOnce (s : State) (d : Die) (w idx sub : Nat) : State :=
  if d = s.srv then s.bump w idx sub else s

/-- SPAN_NO of the serving die. -/
def State.spanNo (s : State) : Nat := (s.die s.srv).tb.spanNo

/-- LIB_VER: the version of the installed library (R496, log 101). -/
def State.libVer (s : State) : Nat := (s.upd.lib.map fun v => v % 65536).getD (Config.libVersion % 65536)

/-- RTC in ms, 0 while invalid (R426). -/
def State.rtcMs (s : State) : Nat := if s.bkp.rtcOk then s.bkp.rtc / 8000 else 0

/-- T_span in ns at a SPAN_K (R40). -/
def tspanNs (k : Nat) : Nat := 31250 * 2 ^ k

/-- The span in force: 4 ms in DEEP-SLEEP (R65). -/
def State.tspan (s : State) : Nat := if s.modes.pwr = .deepSleep then 4000000 else tspanNs s.modes.spanK

/-- What SPAN_NO advances by at a tick (R44, R65). -/
def State.spanInc (s : State) : Nat := if s.modes.pwr = .deepSleep then 2 ^ (7 - s.modes.spanK) else 1

/-- Spans of the 1,024 that end with span `n` in which a compare was incomplete at the commit point of either die (R60). -/
def State.overs (s : State) (n : Nat) : List Nat :=
  let a := s.a.cmp.overs
  (a ++ s.b.cmp.overs.filter fun k => !a.contains k).filter fun k => decide (n < k + 1024)

/-- CK_TICK cycles of a span of `ns` (R40: 125 ns each). -/
def cycles (ns : Nat) : Nat := ns / 125

/-- Time after the tick of the commit point of a span of `ns` (R41), in ns. -/
def commitNs (ns : Nat) : Nat := 85 * cycles ns / 100 * 125

/-- Time after the tick of the end of phase A (R41), in ns. -/
def phaseANs (ns : Nat) : Nat := 20 * cycles ns / 100 * 125

/-- Time after the tick of the late-commit limit (R41), in ns. -/
def lateNs (ns : Nat) : Nat := (95 * cycles ns / 100 - 16) * 125

/-- A free value (log 6): the constant at the counter, and the counter moved on. -/
def State.free (s : State) : Nat × State := (Config.freeValue s.freeCtr, { s with freeCtr := s.freeCtr + 1 })

/-- The device evaluates the Pattern: RUN, SAFE, or SERVICE test access (R297, R470). -/
def State.evaluates (s : State) : Bool :=
  s.modes.mode == .run || s.modes.mode == .safe || (s.modes.mode == .service)

/-- The device has F-dies (R2). -/
def State.hasField (s : State) : Bool := s.order != 830

/-! ## Journal -/

/-- JBLK (Table 15-1). -/
def jblk (order : Nat) : Nat := if order = 830 then 32768 else 1048576

/-- Bytes of a die's journal half (Table 15-1). -/
def jhalf (order : Nat) : Nat := if order = 830 then 229376 else 100663296

/-- Put raw bytes at the head. -/
def Journal.put (j : Journal) (bs : List Byte) : Journal :=
  { j with mem := Mem.writeL j.mem j.head bs, head := j.head + bs.length }

/-- Begin a new block at offset `o`: the block is overwritten whole, and a TIME record stands first (R397). -/
def Journal.newBlock (order o span rtc : Nat) (j : Journal) : Journal :=
  let blk := jblk order
  let wrapped := o == j.oldest && j.at_.isSome
  Journal.put
    { j with mem := Mem.clear j.mem o blk, head := o
             oldest := if wrapped then (o + blk) % jhalf order else j.oldest, at_ := some span }
    (0x10 :: (leBytes 8 span ++ leBytes 8 rtc))

/-- Write one record of a type with its body, opening a block where it does not fit (R397, R398). -/
def Journal.write (order span rtc : Nat) (j : Journal) (typ : Nat) (body : List Byte) : Journal :=
  let blk := jblk order
  let dist := span - j.at_.getD span
  let long := decide (14 < dist)
  let len := 1 + (if long then 4 else 0) + body.length
  let fits := j.at_.isSome && decide (j.head % blk ≠ 0) && decide (j.head % blk + len ≤ blk)
  if fits then
    { Journal.put j (BitVec.ofNat 8 (typ * 16 + min dist 15) :: ((if long then leBytes 4 dist else []) ++ body)) with
        at_ := some span }
  else
    let o := if j.at_.isSome then ceilDiv j.head blk * blk % jhalf order else j.head
    Journal.put (Journal.newBlock order o span rtc j) (BitVec.ofNat 8 (typ * 16) :: body)

/-- Take a record for the next flush, or count it as dropped while the journal cannot be written (R399). -/
def Journal.add (span rtc : Nat) (j : Journal) (typ : Nat) (body : List Byte) : Journal :=
  if j.dropping then { j with dropped := j.dropped + 1 } else { j with buf := j.buf ++ [{ span := span, rtc := rtc, typ := typ, body := body }] }

/-- The flush of phase S (R56): every record of the span reaches the journal. -/
def Journal.flush (order : Nat) (j : Journal) : Journal :=
  { j.buf.foldl (fun (j : Journal) x => Journal.write order x.span x.rtc j x.typ x.body) j with buf := [], kept := j.vals }

/-- Writing stops with a gap marker (R56, R399): the records not yet flushed are dropped, and what they recorded counts as not recorded. -/
def Journal.stop (j : Journal) : Journal :=
  { j with dropping := true, dropped := j.dropped + j.buf.length, buf := [], vals := if j.buf.isEmpty then j.vals else j.kept }

/-- Perturbation `k` acts in this span, while its PT_ARM bit is 1 (R471). -/
def State.ptActs (s : State) (k : Nat) : Bool := bitAt (s.reg 0xD010 0) k && Tab.get 0 s.tst.left k != 0

/-- What the credit perturbation leaves of `n` free units of a seat ring or of the journal (R471). -/
def State.credit (s : State) (n : Nat) : Nat := if s.ptActs 2 && s.reg 0xD013 1 == 2 then n * s.reg 0xD013 2 / 100 else n

/-- The credit perturbation leaves the journal no space. -/
def State.jrnShut (s : State) : Bool := s.credit 100 == 0

/-- The journal of die `d` stops with a gap marker; the records it loses count in JRN_DROPS (R399). -/
def State.jrnStop (s : State) (d : Die) : State :=
  let l := s.die d
  let n := l.jrn.buf.length
  let s1 := s.setDie d { l with jrn := l.jrn.stop }
  if d = s.srv then s1.setReg 0x8200 5 (min (s1.reg 0x8200 5 + n) (2 ^ 32 - 1)) else s1

/-- Write a record into the journal of die `d`; a dropped one is counted in JRN_DROPS (R399). Without space the journal stops first (R471). -/
def State.jrnRec (s : State) (d : Die) (typ : Nat) (body : List Byte) : State :=
  let t := if s.jrnShut && !(s.die d).jrn.dropping then s.jrnStop d else s
  let l := t.die d
  let s1 := t.setDie d { l with jrn := l.jrn.add l.tb.spanNo s.rtcMs typ body }
  if l.jrn.dropping then s1.bumpOnce d 32 0x8200 5 else s1

/-- An EVENT record on die `d` (Table 15-5; the contents of each KIND are the model's, log 20). -/
def State.event (s : State) (d : Die) (kind : Nat) (bytes : List Byte) : State :=
  s.jrnRec d 5 (BitVec.ofNat 8 kind :: BitVec.ofNat 8 bytes.length :: bytes)

/-- An EVENT record on both dies. -/
def State.event2 (s : State) (kind : Nat) (bytes : List Byte) : State := (s.event .a kind bytes).event .b kind bytes

/-! ## Fault status word -/

/-- A 64-bit word with the bits `l` set. -/
def bits64 (l : List Nat) : BitVec 64 := l.foldl (fun w b => w ||| ((1 : BitVec 64) <<< b)) 0

/-- Bit `b` set. -/
def setBit64 (w : BitVec 64) (b : Nat) : BitVec 64 := w ||| ((1 : BitVec 64) <<< b)

/-- Bit `b` clear. -/
def clrBit64 (w : BitVec 64) (b : Nat) : BitVec 64 := w &&& ~~~((1 : BitVec 64) <<< b)

/-- FSW: the union of its two copies (R293). -/
def Faults.fsw (f : Faults) : BitVec 64 := f.f1 ||| f.f2

/-- CLASS_MAP of a bit, and class C3 for a latch that R61 or R308 raises (R294). -/
def State.cls (s : State) (b : Nat) : Nat :=
  let c := s.reg 0x3010 (b + 1)
  if s.flt.force3.getLsbD b then max c 3 else c

/-- Some set FSW bit has effective class `c` or above. -/
def State.anyClass (s : State) (c : Nat) : Bool :=
  (List.range 64).any fun b => s.flt.fsw.getLsbD b && decide (c ≤ s.cls b)

/-- A set FSW bit restricts (class C1 or above). -/
def State.restricts (s : State) (b : Nat) : Bool := s.flt.fsw.getLsbD b && decide (1 ≤ s.cls b)

/-- Dependants of a block reset (Table 11-4). -/
def shadowMask : Blk → BitVec 64
  | .stitch => bits64 [52, 54, 58]
  | .fldPort d => bits64 [dieBit d 12, 48, 49, 50, 51]
  | .mac d => bits64 [54, dieBit d 6]
  | .crcCh d _ => bits64 [dieBit d 8]
  | .mgmt d => bits64 [dieBit d 11, dieBit d 8, dieBit d 9]
  | .memPort d => bits64 [46 + d.n, 45, dieBit d 11, dieBit d 8]
  | .lDie d => bits64 ((List.range 16).map (dieBit d)) ||| bits64 [57, dieBit d.peer 15, 52, 54, 53, 58, 48, 49, 50, 51]
  | .mDie => bits64 [44, 45, 46, 47, 58, 11, 27, 8, 24]

/-- The block has an open shadow. -/
def Faults.shadowOf (f : Faults) (k : Blk) : Bool := f.shadows.any fun x => x.blk == k

/-- Open a reset shadow (R307). -/
def Faults.openShadow (f : Faults) (k : Blk) : Faults :=
  { f with shadows := f.shadows ++ [{ blk := k, mask := shadowMask k, complete := false }] }

/-- SHADOWS: positions that open shadows divert. -/
def Faults.diverts (f : Faults) : BitVec 64 := f.shadows.foldl (fun w x => w ||| x.mask) 0

/-- The block whose own bit is `b` has an open shadow, so `b` is an error of the reset block itself (R307). -/
def Faults.ownOf (f : Faults) (b : Nat) : Bool :=
  f.shadows.any fun x => match x.blk with
    | .stitch => b == 52
    | .fldPort d => b == dieBit d 12
    | .mac d => b == dieBit d 6
    | .crcCh d _ => b == dieBit d 8
    | .mgmt d => b == dieBit d 2
    | .memPort d => b == 46 + d.n
    | .lDie _ => false
    | .mDie => false

/-- SERVICE test access (R470), as against SERVICE activation. -/
def State.testAccess (s : State) : Bool := s.modes.mode == .service && s.modes.act.isNone

/-- The Pattern the device evaluates: the active one, or in SERVICE test access the one that a RUN entry would run. -/
def State.pattern (s : State) : Option Pattern :=
  if s.testAccess && s.pat.state == 2 then s.pat.cand else s.pat.active

/-- The zones of the Pattern that is evaluated. -/
def State.allZones (s : State) : List Nat :=
  match s.pattern with
  | none => []
  | some p => p.zones.map (·.zone)

/-- The zones a C2 on bit `b` concerns (Table 11-3). -/
def State.zonesOfBit (s : State) (b : Nat) : List Nat :=
  match s.pattern with
  | none => []
  | some p =>
    if b = 54 then s.flt.pairZones
    else if b = 60 then p.zonesHold
    else if 48 ≤ b && b ≤ 51 then p.zonesOfFd (b - 48)
    else if b = 15 || b = 31 then s.flt.ovrZones
    else s.allZones

/-- A set FSW bit of class C2 or above concerns zone `z` (R83, R304 condition 2). -/
def State.fswBlocksZone (s : State) (z : Nat) : Bool :=
  (List.range 64).any fun b =>
    s.flt.fsw.getLsbD b && decide (2 ≤ s.cls b) && (decide (3 ≤ s.cls b) || (s.zonesOfBit b).contains z)

/-- The P-die asserts both trip lines (R297). -/
def State.trip (s : State) : State :=
  { s with flt := { s.flt with tripA := true, tripB := true, tripTicks := 0 } }

/-- Every switch of every F-die opens on the ports whose trip line is asserted (R196). -/
def FPort.openTrip (p : FPort) : FPort :=
  { p with trip := true, tripped := p.tripped ||| p.closed, closed := 0, opReq := 0 }

/-- The trip line of a port is released: the next frame is accepted with any KT_SEQ, and each switch waits for its command
(R194, R196). -/
def FPort.endTrip (p : FPort) : FPort := if p.trip then { p with trip := false, seq := none } else p

/-- The trip lines as the F-dies see them: asserted while any die drives them so. -/
def State.tripLine (s : State) : Die → Bool
  | .a => s.flt.tripA || s.flt.tripLA
  | .b => s.flt.tripB || s.flt.tripLB

/-- Carry the level of the trip lines to the F-dies (R196); a switch that opens turns its discharge sink on (Table 07-2). -/
def State.driveTrips (s : State) : State :=
  let gone (on : Bool) (p : FPort) : BitVec 32 := if on then p.closed else 0
  let f (x : FDie) : FDie :=
    { x with a := if s.tripLine .a then x.a.openTrip else x.a.endTrip
             b := if s.tripLine .b then x.b.openTrip else x.b.endTrip
             sinks := x.sinks ||| gone (s.tripLine .a) x.a ||| gone (s.tripLine .b) x.b }
  { s with fd := [0, 1, 2, 3].foldl (fun t d => Tab.set .init t d (f (Tab.get .init t d))) s.fd }

/-- Both trip lines assert, and the switches open. -/
def State.tripNow (s : State) : State := s.trip.driveTrips

/-- Zones that wait for a reaction, with those of a latch at time `t`; a zone that waits already keeps its place. -/
def c2Add (t : Nat) (l : List (Nat × Nat)) (zs : List Nat) : List (Nat × Nat) :=
  l ++ (zs.filter fun z => !l.any fun x => x.1 == z).map fun z => (z, t)

/-- The C2 reaction of a latch at time `t` waits for both commit points (R296). -/
def Faults.addC2 (f : Faults) (t : Nat) (zs : List Nat) : Faults := { f with c2A := c2Add t f.c2A zs, c2B := c2Add t f.c2B zs }

/-- A latch at `since` lies more than 4 µs before a commit point at `t` (R296). -/
def past4 (t since : Nat) : Bool := decide (since + 32 < t)

/-- FLT_N as a level, `none` while PD_AON is off and drives it not (R301): high only in RUN with no set bit of class FLT_LEVEL or above. -/
def State.fltN (s : State) : Option Bool :=
  if s.pow.pd.getLsbD 1 then some (s.modes.mode == .run && !s.anyClass (s.reg 0x3012 0)) else none

/-- Cycles of a lease: 8 µs (R31). -/
def leaseLen : Nat := 64

/-- The resource passes to the oldest pending request at time `t` (R32). -/
def Lease.pass (t : Nat) (l : Lease) : Lease := { l with holder := l.queue.head?, queue := l.queue.tail, since := t }

/-- The holder releases the resource at time `t`. -/
def Lease.giveUp (t : Nat) (l : Lease) : Lease := { l.pass t with rel := l.holder.map fun p => (p, l.since, t) }

/-- A party asks for the resource at time `t`: granted where it is free, else queued. -/
def Lease.ask (t p : Nat) (l : Lease) : Lease :=
  if l.holder = some p || l.queue.contains p then l
  else match l.holder with
    | none => { l with holder := some p, since := t }
    | some _ => { l with queue := l.queue ++ [p] }

/-- The lease has lasted 8 µs. -/
def Lease.over (t : Nat) (l : Lease) : Bool := l.holder.isSome && decide (l.since + leaseLen ≤ t)

/-- A party named by `f` released the resource in the cycle `t`, and its revocation falls in that cycle too (R35, log 96). -/
def Lease.sameCycle (t : Nat) (f : Nat → Nat → Bool) (l : Lease) : Bool :=
  match l.rel with
  | some (p, g, r) => r == t && f p g
  | none => false

/-- A leased resource by number. -/
def State.lease (s : State) (res : Nat) : Lease := Tab.get Lease.init s.leases res

/-- Replace it. -/
def State.setLease (s : State) (res : Nat) (l : Lease) : State := { s with leases := Tab.set Lease.init s.leases res l }

/-- Parties that contend for a resource (R32). -/
def leaseParties (res : Nat) : Nat := if res = 0 || res = 1 then 3 else if res = 5 || res = 6 then 8 else 2

/-- Party `p` asks for resource `res` (R32). -/
def State.leaseAsk (s : State) (res p : Nat) : State := s.setLease res ((s.lease res).ask s.time p)

/-- Party `p` holds resource `res`. -/
def State.leaseHas (s : State) (res p : Nat) : Bool := (s.lease res).holder == some p

/-- Party `p` is done with resource `res`, which passes on (R32). -/
def State.leaseEnd (s : State) (res p : Nat) : State :=
  if s.leaseHas res p then s.setLease res ((s.lease res).giveUp s.time) else s

/-- The die whose own contenders share resource `res` alone: MA, MB and the CRC DMA leases (R31). -/
def leaseDie (res : Nat) : Option Die :=
  if res = 0 || res = 5 then some .a else if res = 1 || res = 6 then some .b else none

/-- A Bridle response (Tables 14-4 and 14-5). -/
def RespTo.frame (r : RespTo) (st : Status) (pay : List Byte) : List Byte :=
  let h := leBytes 2 0x4252 ++ [1, BitVec.ofNat 8 (r.op + 128), BitVec.ofNat 8 r.seat, BitVec.ofNat 8 st.num] ++ leBytes 2 r.reqId
    ++ leBytes 4 r.token ++ leBytes 2 pay.length ++ [0, 0] ++ pay
  h ++ leBytes 4 (crc32c h)

/-- A frame leaves over UDP, or waits for READ_FRAME (R359, R369). -/
def State.post (s : State) (d : Dest) (bs : List Byte) : State :=
  if d.tr = 0 then { s with br := { s.br with resp := s.br.resp ++ [bs] } } else { s with br := { s.br with out := (d, bs) :: s.br.out } }

/-- A request is answered with the status of `br.last` (R361, R363): BUSY carries RETRY, any other refusal nothing. BUSY, TOKEN and
KEYGONE count; the last 4 responses of a seat are kept. -/
def State.sendAns (s : State) (r : RespTo) : State :=
  let st := s.br.last
  let bs := r.frame st (if st = .ok || st = .mgmtStale then r.pay else if st = .busy then leBytes 2 s.br.retry else [])
  let keep (l : List (Nat × Nat × List Byte)) : List (Nat × Nat × List Byte) := (l ++ [(r.reqId, r.crc, bs)]).drop (l.length - 3)
  let s1 := s.post r.dst bs
  let s2 := { s1 with br := { s1.br with seats := Tab.upd Seat.init s1.br.seats r.seat fun (x : Seat) => { x with kept := keep x.kept } } }
  if st = .busy then s2.bump 32 (0x1100 + r.seat) 13 else if st = .token || st = .keygone then s2.bump 32 (0x1100 + r.seat) 14 else s2

/-- The response that waits for a program operation. -/
def State.otpAns (s : State) (a : Option RespTo) : State :=
  match a with
  | some r => s.sendAns r
  | none => s

/-- A word programmed as intended; a word of 32 zeros stays blank (R417). -/
def OtpWord.of (v : BitVec 32) : OtpWord := if v = 0 then .blank else .data v

/-- The array after a program operation that leaves `w` in word `n`: only a blank word takes it (R417). -/
def Otp.put (o : Otp) (n : Nat) (w : OtpWord) : Tab OtpWord :=
  if Tab.get .blank o.words n = .blank then Tab.set .blank o.words n w else o.words

/-- What a fence of the OTP lease makes of a running program operation (R421): whether the word reads as intended is free (log 6). -/
def State.otpFence (s : State) : State :=
  match s.otp.op with
  | none => s
  | some x =>
    let y := s.free
    let stands := y.1 % 2 = 1
    let back (t : List (Nat × Nat)) : List (Nat × Nat) :=
      if stands || x.seat.isSome then t
      else if 16 ≤ x.word && x.word < 32 then (16, x.v.toNat) :: t
      else if 128 ≤ x.word && x.word < 256 then (128, x.v.toNat) :: t
      else t
    let s1 : State := { y.2 with
      otp := { s.otp with words := s.otp.put x.word (if stands then OtpWord.of x.v else .spent), op := none
                          stat := if stands then s.otp.stat else 4, todo := back s.otp.todo }
      br := if x.seat.isSome then { s.br with last := if stands then .ok else .fenced } else s.br }
    s1.otpAns x.ans

/-- A CRC channel halts (R407, R408): LAST_DSTAT, HALTED, EN 0. A channel reset clears the accumulator too (R403). -/
def State.crcHalt (s : State) (k dstat : Nat) (clear : Bool) : State :=
  let idx := 0x9000 + k
  let s1 := (s.setReg idx 1 0).setReg idx 12 (256 * dstat + s.reg idx 12 / 8 % 2 * 8)
  { s1 with crc := Tab.upd CrcCh.init s1.crc k fun (x : CrcCh) =>
      { x with acc := if clear then 0 else x.acc, busy := false, failed := true } }

/-- CRC channels of die `d` with a descriptor in progress. -/
def State.crcBusy (s : State) (d : Die) : List Nat :=
  (List.range 8).map (8 * d.n + ·) |>.filter fun k => (Tab.get CrcCh.init s.crc k).busy

/-- The running program operation belongs to party `p` of the OTP lease (R420). -/
def Otp.opOf (o : Otp) (p : Nat) : Bool := (o.op.map fun x => x.die.n == p).getD false

/-- Transactions of party `p` on resource `res` that `State` holds (R33): the CRC DMA of the die behind its M-die port, a retrain or
credit reset, a forwarded request, a program operation, a descriptor. -/
def State.leaseOut (s : State) (res p : Nat) : Bool :=
  if res = 0 then p == 2 && !(s.crcBusy .a).isEmpty
  else if res = 1 then p == 2 && !(s.crcBusy .b).isEmpty
  else if res = 2 then (s.a.link.retrain || s.b.link.retrain) || s.br.fwds.any fun x => x.die.n == p
  else if res = 4 then s.otp.opOf p
  else if res = 5 then (Tab.get CrcCh.init s.crc p).busy
  else if res = 6 then (Tab.get CrcCh.init s.crc (8 + p)).busy
  else false

/-- A program operation whose die is fenced before the lease came to it: the word is untouched, and what the device wants of it waits
again. -/
def State.otpDrop (s : State) : State :=
  match s.otp.op with
  | none => s
  | some x =>
    let area (n : Nat) : Nat := if 16 ≤ n && n < 32 then 16 else if 128 ≤ n && n < 256 then 128 else n
    let s1 := { s with
      otp := { s.otp with op := none, todo := if x.seat.isSome then s.otp.todo else (area x.word, x.v.toNat) :: s.otp.todo }
      br := if x.seat.isSome then { s.br with last := .fenced } else s.br }
    s1.otpAns x.ans

/-- The forwarded requests of die `d` are answered FENCED (R33). -/
def State.fwdFence (s : State) (d : Die) : State :=
  let mine := s.br.fwds.filter fun x => x.die == d
  let s1 := { s with br := { s.br with fwds := s.br.fwds.filter fun x => x.die != d } }
  mine.foldl (fun (s : State) x =>
    { s with br := { s.br with last := .fenced } }.sendAns
      { die := d, dst := { tr := x.f.tr, addr := x.f.addr, port := x.f.port }, seat := x.f.seat, op := x.op, reqId := x.f.reqId, token := x.f.token, crc := x.f.crc, pay := [] }) s1

/-- The effect of a fence of resource `res` on what its holder `p` did (Table 01-9, R33): an OTP operation ends, the descriptors of
that party's DMA are abandoned without a result, link control goes idle, the M-die port is reset with its shadow. Memory stays as the
complete bursts have left it (R36). -/
def State.leaseReset (s : State) (res p : Nat) : State :=
  if res = 4 then if s.otp.opOf p then s.otpFence else s
  else if res = 5 then if (Tab.get CrcCh.init s.crc p).busy then s.crcHalt p 4 false else s
  else if res = 6 then if (Tab.get CrcCh.init s.crc (8 + p)).busy then s.crcHalt (8 + p) 4 false else s
  else if res = 2 then
    let f (l : LDie) : LDie := { l with link := { l.link with retrain := false } }
    ((s.updDie .a f).updDie .b f).fwdFence (if p = 0 then .a else .b)
  else if res = 0 || res = 1 then
    let d : Die := if res = 0 then .a else .b
    let s1 := if p = 2 then (s.crcBusy d).foldl (fun (s : State) k => s.crcHalt k 4 false) s else s
    if s1.flt.shadowOf (.memPort d) then s1 else { s1 with flt := s1.flt.openShadow (.memPort d) }
  else s

/-- Fence every lease that die `d` holds, or has released in this cycle (R35), and drop its requests (R309 step 3); answers whether
there was one. -/
def State.fenceLeases (s : State) (d : Die) : State × Bool :=
  let mine (res p : Nat) : Bool := match leaseDie res with
    | some x => x == d
    | none => p == d.n
  let holds (res : Nat) : Option Nat := (s.lease res).holder.filter (mine res)
  let held := (List.range 7).filter fun r => (holds r).isSome || (s.lease r).sameCycle s.time (fun p _ => mine r p)
  let s1 := held.foldl (fun (t : State) r => match holds r with
    | some p => t.leaseReset r p
    | none => t) s
  let s2 := if s1.otp.opOf d.n then s1.otpDrop else s1
  let f (t : State) (r : Nat) : State :=
    let l := t.lease r
    match leaseDie r with
    | some x => if x = d then t.setLease r .init else t
    | none =>
      let l1 := { l with queue := l.queue.filter (· != d.n) }
      t.setLease r (if l.holder = some d.n then l1.pass s.time else l1)
  ((List.range 7).foldl f s2, !held.isEmpty)

/-- FSW_SEC bit `b` set at time `t` (R307, R303). -/
def Faults.intoSec (f : Faults) (t b : Nat) : Faults := { f with sec := setBit64 f.sec b, secAt := Tab.set none f.secAt b (some t) }

/-- A fence sets LEASE while the shadow of what is fenced diverts it (R307, R309). -/
def State.leaseSec (s : State) (held : Bool) : State :=
  if held then ({ s with flt := s.flt.intoSec s.time 58 }).event2 1 [58, 1] else s

/-- A die held in reset loses everything that its power domains hold (R309 step 4). The journal of its half and
its port's KT_SEQ stand outside it. -/
def LDie.resetState (l : LDie) : LDie :=
  { LDie.init with jrn := if l.jrn.buf.isEmpty then l.jrn else l.jrn.stop, tx := l.tx, mgmt := .booting, tb := { Timebase.init with tspan := l.tb.tspan, ever := l.tb.ever } }

/-- DIE_STATE written. -/
def State.setDieSt (s : State) (x v : Nat) : State := { s with flt := { s.flt with die := Tab.set 0 s.flt.die x v } }

/-- Re-admission record of a die. -/
def Faults.rd (f : Faults) : Die → Readm
  | .a => f.rdA
  | .b => f.rdB

/-- Replace it. -/
def Faults.setRd (f : Faults) (d : Die) (r : Readm) : Faults :=
  match d with
  | .a => { f with rdA := r }
  | .b => { f with rdB := r }

/-- A fenced die does not lock zones at a commit point any more: the other die's commit point suffices (R297). -/
def C3St.drop (d : Die) : C3St → C3St
  | .lock a b t =>
    let a' := if d = .a then false else a
    let b' := if d = .b then false else b
    if a' || b' then .lock a' b' t else .safe
  | x => x

/-- CK_TICK cycles of 3,600 s (R310). -/
def hour : Nat := 28800000000

/-- Fence an L-die (R309 steps 2 to 5). A die that was admitted after a fence less than 3,600 s ago, or whose peer
is fenced or re-admitting, stays fenced until power-up; then its peer does so as well. -/
def State.fenceDie (s : State) (d : Die) : State :=
  let fl := s.fenceLeases d
  let s1 := fl.1.setDie d (s.die d).resetState
  let peerOut := !s.admitted d.peer
  let recent := match (s.flt.rd d).last with
    | none => false
    | some t => decide (s.time < t + hour)
  if s.dieSt d.n != 0 && s.dieSt d.n != 2 then s else
  let r : Readm := { (s.flt.rd d) with step := if peerOut || recent then 0 else 1, ticks := 0, spans := 0 }
  let pd : BitVec 20 := if peerOut || recent then 0 else if d = .a then 0x30 else 0x600
  let s2 := { s1 with flt := (s1.flt.openShadow (.lDie d)).setRd d r, pow := { s1.pow with pd := s1.pow.pd &&& ~~~pd } }.leaseSec fl.2
  let s2b := { s2 with flt := { s2.flt with c3 := s2.flt.c3.drop d }, st := s2.st.setGran d .lost }
  let s3 := s2b.setDieSt d.n (if peerOut || recent then 3 else 1)
  if peerOut then
    let s4 := (if s.dieSt d.peer.n = 2 then s3.setDie d.peer (s3.die d.peer).resetState else s3).setDieSt d.peer.n 3
    { s4 with flt := s4.flt.setRd d.peer { (s.flt.rd d.peer) with step := 0 } }
  else s3

/-- Fence the M-die: its port leases, its shadow, DIE_STATE 1; its domains go off for the power cycle (R309, R311). -/
def State.fenceM (s : State) : State :=
  let held := [0, 1, 5, 6].any fun r => (s.lease r).holder.isSome || (s.lease r).sameCycle s.time (fun _ _ => true)
  let s0 := [5, 6].foldl (fun (s : State) r => match (s.lease r).holder with
    | some p => s.leaseReset r p
    | none => s) s
  let s1 := { s0 with leases := [0, 1, 5, 6].foldl (fun (t : Tab Lease) r => Tab.set Lease.init t r Lease.init) s0.leases
                      flt := s0.flt.openShadow .mDie }.leaseSec held
  let s2 := { s1 with pow := { s1.pow with pd := s1.pow.pd &&& ~~~0x6000 } }.setDieSt 2 1
  (s2.jrnStop .a).jrnStop .b

/-- No pulse of a channel of F-die `f` runs any more on the die's watch. -/
def LDie.noPulse (f : Nat) (l : LDie) : LDie :=
  { l with outs := l.outs.foldl (fun (t : Tab OutSup) x => Tab.set OutSup.init t x.1 (if x.1 / 32 = f then { x.2 with pulse := false } else x.2)) [] }

/-- Fence F-die `d`: PD_F<d>L off, open, DIE_STATE 4 (R311). -/
def State.fenceF (s : State) (d : Nat) : State :=
  { s with a := s.a.noPulse d, b := s.b.noPulse d
           fd := Tab.set .init s.fd d .init
           pow := { s.pow with pd := s.pow.pd &&& ~~~((1 : BitVec 20) <<< (15 + d)) }
           flt := { s.flt with die := Tab.set 0 s.flt.die (3 + d) 4, cause := clrBit64 s.flt.cause (48 + d) } }

/-- The die that a C4 on bit `b` offends (R309). -/
def State.fenceOf (s : State) (b : Nat) : State :=
  if b < 16 then s.fenceDie .a
  else if b < 32 then s.fenceDie .b
  else if b = 57 then
    let w := s.reg 0x3020 0
    let s1 := if w % 2 = 1 then s.fenceDie .a else s
    if w / 2 % 2 = 1 then s1.fenceDie .b else s1
  else if 44 ≤ b && b ≤ 47 then s.fenceM
  else if 48 ≤ b && b ≤ 51 then s.fenceF (b - 48)
  else s

/-- A clock failure has stopped the lanes, fabric or ticks of the die (R324). -/
def State.dead (s : State) (d : Die) : Bool := if d = .a then s.clk.deadA else s.clk.deadB

/-- The dies that take part in a locking at commit points: admitted, not booting, with their clocks. -/
def State.locks (s : State) (d : Die) : Bool := s.admitted d && (s.die d).mgmt != .booting && !s.dead d

/-- Lock every zone at the next commit points under the 4 µs rule and enter SAFE at the tick after (R297). -/
def State.lockAll (s : State) : State :=
  if s.flt.c3 != .none then s
  else
    let a := s.locks .a
    let b := s.locks .b
    { s with flt := { s.flt with c3 := if a || b then .lock a b s.time else .safe } }

/-- An update activation reverts every part (R463): the dies on a new image or under way to it boot the old one, and the
device enters SAFE with every zone LOCKED. -/
def State.revert (s : State) (why : Nat) : State :=
  if s.upd.state < 4 || 6 < s.upd.state then s
  else
    let back (s : State) (d : Die) (new : Bool) : State :=
      if new || s.upd.reboot == some d then
        let l := s.die d
        let s1 := s.setDie d { l.resetState with hold := l.hold }
        if s1.flt.shadowOf (.lDie d) then s1 else { s1 with flt := s1.flt.openShadow (.lDie d) }
      else s
    let s1 := back (back s .a s.upd.newA) .b s.upd.newB
    let s2 := { s1 with upd := { s1.upd with
      state := 8, why := why, pend := none, reboot := none, booted := false, rejoined := false, agree := 0, defer := false
      newA := false, newB := false } }
    ((s2.bump 32 0xA009 2).setReg 0xA009 3 s2.rtcMs).lockAll

/-- C3 (R297): both trip lines, lock at the commit points, SAFE at the tick after, slots frozen (R81), a pending request
ended with MODE_WHY 2 (log 21); in BOOT only the trip lines are held (R337). -/
def State.reactC3 (s : State) (b : Nat) : State :=
  let s0 := (s.revert 18).tripNow
  let s1 := { s0 with st := (s0.st.abort .a).abort .b }
  if s.modes.mode == .boot then { s1 with pow := { s1.pow with c3Boot := true } }
  else
    let evals := s.modes.mode == .run || s.modes.mode == .service || s.modes.mode == .safe
    let s2 := { s1 with
      flt := { s1.flt with
        frozen := setBit64 s1.flt.frozen b
        c3 := if evals then (s1.lockAll).flt.c3 else if s.modes.mode == .configure then .safe else s1.flt.c3 } }
    if s2.modes.req.isSome || s2.modes.wait.isSome then
      { s2 with modes := { s2.modes with req := none, wait := none, stopping := false } }.setReg 0x2022 0 2
    else s2

/-- The reaction of the effective class of bit `b` (Table 11-2). -/
def State.react (s : State) (b : Nat) : State :=
  let c := s.cls b
  if c = 4 then (s.reactC3 b).fenceOf b
  else if c = 3 then s.reactC3 b
  else if c = 2 then { s with flt := s.flt.addC2 s.time (s.zonesOfBit b) }
  else s

/-- Record a standing cause (R293). -/
def State.causeOn (s : State) (b : Nat) : State := { s with flt := { s.flt with cause := setBit64 s.flt.cause b } }

/-- A standing cause has gone. -/
def State.causeOff (s : State) (b : Nat) : State := { s with flt := { s.flt with cause := clrBit64 s.flt.cause b } }

/-- Reserved bits of Table 11-1, and bits of dies that the order code does not hold (R2, R292, R293). -/
def fswPresent (order b : Nat) : Bool :=
  decide (b < 61) && b != 43 && b != 29 && !(order == 830 && decide (44 ≤ b) && decide (b ≤ 51))
    && !(order == 851 && decide (49 ≤ b) && decide (b ≤ 51))

/-- An error of a bit that is already set latches nothing again (log 22). A C2 concerns the zones that the new error names
(R61, R283), and a C4 fences the die it names while that die is admitted (R309). -/
def State.again (s : State) (b : Nat) : State :=
  let c := s.cls b
  let w := s.reg 0x3020 0
  if c = 2 then { s with flt := s.flt.addC2 s.time (s.zonesOfBit b) }
  else if c = 4 && ((decide (b < 16) && s.admitted .a) || (decide (16 ≤ b) && decide (b < 32) && s.admitted .b)
      || (b == 57 && ((bitAt w 0 && s.admitted .a) || (bitAt w 1 && s.admitted .b)))) then (s.reactC3 b).fenceOf b
  else s

/-- An open shadow diverts the bit (R307); GIRTH only where it names dies whose own shadows are open (Table 11-4). -/
def State.diverted (s : State) (b : Nat) : Bool :=
  if b = 57 then
    let w := s.reg 0x3020 0
    w != 0 && (!bitAt w 0 || s.flt.shadowOf (.lDie .a)) && (!bitAt w 1 || s.flt.shadowOf (.lDie .b))
  else s.flt.diverts.getLsbD b && !s.flt.ownOf b

/-- The times of the last latches, with one of bit `b` at `t`. -/
def Faults.stamped (f : Faults) (t b : Nat) : Tab (Option Nat) := Tab.set none f.latchAt b (some t)

/-- Latch an error at its source (R292): diverted by an open shadow (R307), else set with FSW_FIRST (R299), a journal
entry (R295) and the reaction of its class. -/
def State.latch (s : State) (b : Nat) : State :=
  if !fswPresent s.order b then s
  else if s.diverted b then
    ({ s with flt := s.flt.intoSec s.time b }).event2 1 [BitVec.ofNat 8 b, 1]
  else if s.flt.fsw.getLsbD b then ({ s with flt := { s.flt with latchAt := s.flt.stamped s.time b } } : State).again b
  else
    let s1 := if s.flt.fsw = 0 then
        (((s.setReg 0x3003 1 (2 ^ b)).setReg 0x3003 2 s.spanNo).setReg 0x3003 3 s.rtcMs)
      else if s.flt.firstAt = some s.time then s.setReg 0x3003 1 (s.reg 0x3003 1 ||| 2 ^ b)
      else s
    let s2 := { s1 with flt := { s1.flt with f1 := setBit64 s1.flt.f1 b, f2 := setBit64 s1.flt.f2 b
                                             latchAt := s1.flt.stamped s.time b
                                             firstAt := if s.flt.fsw = 0 then some s.time else s.flt.firstAt } }
    (s2.event2 1 [BitVec.ofNat 8 b, 0]).react b

/-- Latch with class C3 whatever CLASS_MAP says (R294, R308). -/
def State.latch3 (s : State) (b : Nat) : State :=
  if s.diverted b || !fswPresent s.order b then s.latch b
  else
    let s1 := { s with flt := { s.flt with force3 := setBit64 s.flt.force3 b } }
    if s.flt.fsw.getLsbD b then s1.reactC3 b else s1.latch b

/-- Latch a bit whose cause stands. -/
def State.latchStanding (s : State) (b : Nat) : State := (s.causeOn b).latch b

/-- A reaction that resets a block opens its shadow; while that shadow is open it resets nothing and the bit takes C3
(R307, R308). -/
def State.resetBlock (s : State) (k : Blk) (b : Nat) (f : State → State) : State :=
  if s.flt.shadowOf k then s.latch3 b
  else f { s with flt := s.flt.openShadow k }

/-- An error whose reaction resets block `k` (Table 11-3, Table 11-4): latched as any other; where it newly latches, the block is
reset by `f` and its shadow opens. -/
def State.latchReset (s : State) (k : Blk) (b : Nat) (f : State → State) : State :=
  if s.diverted b || s.flt.fsw.getLsbD b || !fswPresent s.order b then s.latch b
  else s.resetBlock k b fun t => f (t.latch b)

end Sys2Proof.Machine
end

