-- ==== Sys2Proof/Machine/PatParse.lean ====
section
/-! DEFINITION. Reading a Pattern from its canonical image (03_pattern_engine.md R67, R498) and the checks of a load
(R69, R70, R72; 01_architecture.md R27 to R30). -/

namespace Sys2Proof.Machine

/-- A 14-bit value from its container, by its type code of Table 14-3 (R9): 0 BOOL, 6 S14, 7 U14. -/
def tyOf (c : Nat) : Ty := if c = 0 then .bool else if c = 6 then .s14 else .u14

/-- Value of a 16-bit container under a type. -/
def ofContainer (t : Ty) (w : Nat) : Int :=
  match t with
  | .s14 => if w % 65536 < 32768 then (w % 65536 : Nat) else (w % 65536 : Nat) - (65536 : Int)
  | .u14 => (w % 65536 : Nat)
  | .bool => (w % 65536 : Nat)

/-- A U32 as S32. -/
def s32Of (n : Nat) : Int := if n % 2 ^ 32 < 2 ^ 31 then (n % 2 ^ 32 : Nat) else (n % 2 ^ 32 : Nat) - (2 ^ 32 : Int)

/-- The points of a MAP at offset `o`. -/
def readMap (b : List Byte) (o : Nat) : List MapPt :=
  (List.range (leAt b o 1)).map fun k =>
    let q := o + 1 + 6 * k
    let ty := tyOf (leAt b (q + 2) 1)
    { ofs := leAt b q 2, ty := ty, safe := ofContainer ty (leAt b (q + 4) 2) }

/-- A run of `n` fields of `w` bytes. -/
def readRun (b : List Byte) (o w n : Nat) : List Nat := (List.range n).map fun k => leAt b (o + w * k) w

/-- CONN_IN or CONN_OUT parameters (Table 04-8): each lists its own rows in the table's order. -/
def readConn (b : List Byte) (o : Nat) (inbound : Bool) : ConnPar :=
  if inbound then
    let m := readMap b (o + 19)
    let q := o + 20 + 6 * m.length
    { connId := leAt b o 2, period := leAt b (o + 2) 4, phase := 0, wd := leAt b (o + 6) 4, pairWin := leAt b (o + 10) 4,
      loneT := leAt b (o + 14) 4, len := leAt b (o + 18) 1, map := m, auth := leAt b q 1, reack := leAt b (q + 1) 1 }
  else
    let m := readMap b (o + 11)
    let q := o + 12 + 6 * m.length
    { connId := leAt b o 2, period := leAt b (o + 2) 4, phase := leAt b (o + 6) 4, wd := 0, pairWin := 0, loneT := 0,
      len := leAt b (o + 10) 1, map := m, auth := leAt b q 1, reack := 0 }

/-- AXIS parameters (Table 08-1). -/
def readAxis (b : List Byte) (o : Nat) : AxisPar :=
  { str1 := leAt b o 2, slot1 := leAt b (o + 2) 1, str2 := leAt b (o + 3) 2, slot2 := leAt b (o + 5) 1,
    ofs1 := leAt b (o + 6) 4, ofs2 := leAt b (o + 10) 4, sign := leAt b (o + 14) 1, win := leAt b (o + 15) 1,
    lag := leAt b (o + 16) 1, rotary := leAt b (o + 17) 1, vMax := leAt b (o + 18) 4, stopCat := leAt b (o + 22) 1,
    spdSh := leAt b (o + 23) 1 }

/-- SS1 parameters after AXIS_ID, or those of SS2, which has no MODE. -/
def readRamp (b : List Byte) (o : Nat) (mode : Nat) : RampPar :=
  { mode := mode, tSto := leAt b o 4, tDly := leAt b (o + 4) 4, dec := leAt b (o + 8) 4, tol := leAt b (o + 12) 4,
    vZero := leAt b (o + 16) 4 }

/-- REIN parameters (Table 09-1). -/
def readRein (b : List Byte) (o : Nat) : ReinPar :=
  let n := leAt b (o + 3) 1
  let q := o + 4
  { group := leAt b o 1, refAx := leAt b (o + 1) 2,
    fol := (List.range n).map fun k =>
      { axis := leAt b (q + 2 * k) 2, ratio := leAt b (q + 2 * n + 2 * k) 2, tol := leAt b (q + 4 * n + 4 * k) 4,
        k := leAt b (q + 8 * n + 2 * k) 2 }
    gstop := leAt b (q + 10 * n) 1, mon := leAt b (q + 10 * n + 1) 1, tEng := leAt b (q + 10 * n + 2) 4,
    dcMask := leAt b (q + 10 * n + 6) 4 }

/-- Input, logic and zone types 0 to 23. -/
def readBlockLow (b : List Byte) (o : Nat) : Nat → Option Block
  | 0 => some (.estop (leAt b o 1) (leAt b (o + 1) 4))
  | 1 => some (.guard (leAt b o 1) (leAt b (o + 1) 4) (leAt b (o + 5) 1))
  | 2 => some (.glock (leAt b o 1) (leAt b (o + 1) 4) (leAt b (o + 5) 4))
  | 3 => some (.ossd (leAt b o 1) (leAt b (o + 1) 4))
  | 4 => some (.mute2 (leAt b o 4) (leAt b (o + 4) 4) (leAt b (o + 8) 4))
  | 5 => some (.mute4 (leAt b o 4) (leAt b (o + 4) 4) (leAt b (o + 8) 4) (leAt b (o + 12) 1))
  | 6 => some (.twohand (leAt b o 1) (leAt b (o + 1) 4) (leAt b (o + 5) 4))
  | 7 => some (.enable3 (leAt b o 4))
  | 8 => some (.modesel (leAt b o 1) (leAt b (o + 1) 4))
  | 9 => some (.reset (leAt b o 4) (leAt b (o + 4) 4))
  | 10 => some (.edm (leAt b o 4) (leAt b (o + 4) 1))
  | 11 => some (.and (leAt b o 1))
  | 12 => some (.or (leAt b o 1))
  | 13 => some .not
  | 14 => some (.xor (leAt b o 1))
  | 15 => some .rs
  | 16 => some (.ton (leAt b o 4))
  | 17 => some (.tof (leAt b o 4))
  | 18 => some (.tp (leAt b o 4))
  | 19 => some (.ctu (leAt b o 2))
  | 20 => some (.cmp14 (leAt b o 1) (leAt b (o + 1) 1) (ofContainer .s14 (leAt b (o + 2) 2)) (leAt b (o + 4) 2))
  | 21 => some (.sel (leAt b o 1) (ofContainer .s14 (leAt b (o + 1) 2)))
  | 22 => some (.zone (leAt b o 1) (leAt b (o + 1) 1) (leAt b (o + 2) 2) (leAt b (o + 4) 1))
  | 23 => some (.connIn (readConn b o true))
  | _ => none

/-- Types 24 to 43. Every motion block but AXIS begins with AXIS_ID (R227). -/
def readBlockHigh (b : List Byte) (o : Nat) : Nat → Option Block
  | 24 => some (.connOut (readConn b o false))
  | 25 => some (.axis (readAxis b o))
  | 26 => some (.encpair (leAt b o 2) (leAt b (o + 2) 4) (leAt b (o + 6) 4))
  | 27 => some (.sto (leAt b o 2) (leAt b (o + 2) 4))
  | 28 => some (.ss1 (leAt b o 2) (readRamp b (o + 3) (leAt b (o + 2) 1)))
  | 29 => some (.ss2 (leAt b o 2) (readRamp b (o + 2) 1))
  | 30 => some (.sos (leAt b o 2) (leAt b (o + 2) 4) (leAt b (o + 6) 4))
  | 31 => some (.sls (leAt b o 2) (readRun b (o + 2) 4 8) (leAt b (o + 34) 4) (leAt b (o + 38) 1))
  | 32 => some (.slp (leAt b o 2) (s32Of (leAt b (o + 2) 4)) (s32Of (leAt b (o + 6) 4)) (leAt b (o + 10) 4)
      (leAt b (o + 14) 4) (leAt b (o + 18) 1))
  | 33 => some (.sdi (leAt b o 2) (leAt b (o + 2) 1) (leAt b (o + 3) 4) (leAt b (o + 7) 1))
  | 34 => some (.sbc (leAt b o 2) (leAt b (o + 2) 2) (leAt b (o + 4) 2) (leAt b (o + 6) 4) (leAt b (o + 10) 4))
  | 35 => some (.sbt (leAt b o 2) (leAt b (o + 2) 4) (leAt b (o + 6) 4) (leAt b (o + 10) 2))
  | 36 => some (.ssm (leAt b o 2) (leAt b (o + 2) 4) (leAt b (o + 6) 4))
  | 37 => some (.rein (readRein b o))
  | 38 => some (.tension (leAt b o 2) (ofContainer .s14 (leAt b (o + 2) 2)) (ofContainer .s14 (leAt b (o + 4) 2))
      (leAt b (o + 6) 4))
  | 39 => some (.outsafe (leAt b o 2) (leAt b (o + 2) 4) (leAt b (o + 6) 1))
  | 40 => some (.outstd (leAt b o 2))
  | 41 => some (.stdin (leAt b o 1) (leAt b (o + 1) 1) (leAt b (o + 2) 1) (leAt b (o + 3) 4)
      (ofContainer (tyOf (leAt b (o + 2) 1)) (leAt b (o + 7) 2)))
  | 42 => some (.stdout (leAt b o 1))
  | 43 => some (.diag (leAt b o 1) (leAt b (o + 1) 4))
  | _ => none

/-- The parameters of a type code, `none` for a code the library does not hold (R92). -/
def readBlock (b : List Byte) (o code : Nat) : Option Block :=
  if code < 24 then readBlockLow b o code else readBlockHigh b o code

/-- Offset of section `k` of the header's section table. -/
def secOfs (b : List Byte) (k : Nat) : Nat := leAt b (0x34 + 8 * k) 4

/-- Length of section `k`. -/
def secLen (b : List Byte) (k : Nat) : Nat := leAt b (0x38 + 8 * k) 4

/-- Bytes of the canonical image: up to the last byte of the last section (R67). -/
def imageLen (b : List Byte) : Nat := secOfs b 9 + secLen b 9

/-- The header (Table 03-1). -/
def readHdr (b : List Byte) : PatHdr :=
  { format := leAt b 4 2, library := leAt b 6 2, target := leAt b 8 2, spanKMin := leAt b 10 1, flags := leAt b 11 1,
    nInst := leAt b 12 2, nVar := leAt b 14 2, nEdge := leAt b 16 4, nGroup := leAt b 0x14 2, nZone := leAt b 0x16 1,
    nRein := leAt b 0x17 1, nAxis := leAt b 0x18 2, nConnIn := leAt b 0x1A 2, nConnOut := leAt b 0x1C 2,
    nRemIn := leAt b 0x1E 2, nRemOut := leAt b 0x20 2, wA := leAt b 0x24 4, lA := leAt b 0x28 4, wB := leAt b 0x2C 4,
    lB := leAt b 0x30 4 }

/-- The edge table: (source, destination, input, feedback). -/
def readEdges (b : List Byte) (n : Nat) : List (Nat × Nat × Nat × Bool) :=
  (List.range n).map fun k =>
    let q := secOfs b 1 + 8 * k
    (leAt b q 2, leAt b (q + 2) 2, leAt b (q + 4) 1, bitAt (leAt b (q + 5) 1) 0)

/-- The variable table. -/
def readVars (b : List Byte) (n : Nat) : List Var :=
  (List.range n).map fun k =>
    let q := secOfs b 2 + 8 * k
    let c := leAt b (q + 3) 1
    let ty := tyOf (leAt b (q + 2) 1)
    { id := leAt b q 2, ty := ty, cls := c % 4, jmode := c / 4 % 4, init := ofContainer ty (leAt b (q + 4) 2),
      producer := leAt b (q + 6) 2 }

/-- The instance table, with the edges and outputs of each instance. -/
def readInsts (b : List Byte) (n : Nat) (es : List (Nat × Nat × Nat × Bool)) (vs : List Var) : List Inst :=
  (List.range n).filterMap fun k =>
    let q := secOfs b 0 + 16 * k
    let id := leAt b q 2
    match readBlock b (secOfs b 3 + leAt b (q + 8) 4) (leAt b (q + 2) 1) with
    | none => none
    | some blk => some
      { id := id, block := blk, zone := leAt b (q + 3) 1, group := leAt b (q + 4) 2, nIn := leAt b (q + 6) 1,
        nOut := leAt b (q + 7) 1
        ins := (es.filter fun e => e.2.1 == id).map fun e => { port := e.2.2.1, var := e.1, fb := e.2.2.2 }
        outs := (vs.filter fun v => v.producer == id).map (·.id) }

/-- The zone table. -/
def readZones (b : List Byte) (n : Nat) : List ZoneRec :=
  (List.range n).map fun k =>
    let q := secOfs b 5 + 8 * k
    { zone := leAt b q 1, seat := leAt b (q + 1) 1, startMode := leAt b (q + 2) 1, remoteRst := leAt b (q + 3) 1,
      inst := leAt b (q + 4) 2, latch := leAt b (q + 6) 2 }

/-- The channel records of the channel map. -/
def readChans (b : List Byte) : List ChanRec :=
  let o := secOfs b 6
  (List.range (leAt b (o + 16) 2)).map fun k =>
    let q := o + 32 + 32 * k
    { n := leAt b q 1, mode := leAt b (q + 1) 1, kind := leAt b (q + 2) 1, tpSrc := leAt b (q + 3) 1,
      deb := leAt b (q + 4) 2, ossdPw := leAt b (q + 6) 2, ossdTmax := leAt b (q + 8) 4, opPhase := leAt b (q + 12) 4,
      rbSettle := leAt b (q + 16) 4, opW := leAt b (q + 20) 2, loadL := leAt b (q + 22) 2, loadI := leAt b (q + 24) 2,
      loadOffs := leAt b (q + 26) 2, olMin := leAt b (q + 28) 2, holdPermit := leAt b (q + 30) 1,
      portHist := leAt b (q + 31) 1 }

/-- The source records; the number of a source is the F-die of its channel and its place on it (R171, log 23). -/
def readSrcs (b : List Byte) : List SrcRec :=
  let o := secOfs b 6
  let q0 := o + 32 + 32 * leAt b (o + 16) 2
  let raw := (List.range (leAt b (o + 18) 2)).map fun k =>
    let q := q0 + 8 * k
    (leAt b q 1, leAt b (q + 2) 2, leAt b (q + 4) 4)
  raw.zipIdx.map fun (r, k) =>
    let d := r.1 / 32
    let j := ((raw.take k).filter fun x => x.1 / 32 == d).length
    { s := 8 * d + j, chan := r.1, width := r.2.1, phase := r.2.2 }

/-- The axis map. -/
def readAxes (b : List Byte) (n : Nat) : List AxisRec :=
  (List.range n).map fun k =>
    let q := secOfs b 7 + 16 * k
    { axis := leAt b q 2, axisInst := leAt b (q + 2) 2, encInst := leAt b (q + 4) 2, stoInst := leAt b (q + 6) 2,
      str1 := leAt b (q + 8) 2, str2 := leAt b (q + 10) 2, slot1 := leAt b (q + 12) 1, slot2 := leAt b (q + 13) 1,
      zone := leAt b (q + 14) 1, rein := leAt b (q + 15) 1 }

/-- The connection records. -/
def readConns (b : List Byte) : List ConnRec :=
  let o := secOfs b 8
  (List.range (leAt b o 2)).map fun k =>
    let q := o + 16 + 24 * k
    { kind := leAt b q 1, ports := leAt b (q + 1) 1, connId := leAt b (q + 2) 2, inst := leAt b (q + 4) 2,
      vid := leAt b (q + 6) 2, pcp := leAt b (q + 8) 1, len := leAt b (q + 9) 1, slots := leAt b (q + 10) 1,
      kfPhase := leAt b (q + 11) 1, key := leAt b (q + 12) 1, dst := beAt b (q + 14) 6 }

/-- The static forwarding records. -/
def readFwds (b : List Byte) : List FwdRec :=
  let o := secOfs b 8
  let q0 := o + 16 + 24 * leAt b o 2
  (List.range (leAt b (o + 2) 2)).map fun k =>
    let q := q0 + 12 * k
    { network := leAt b q 1, mask := leAt b (q + 1) 1, vid := leAt b (q + 2) 2, mac := beAt b (q + 4) 6 }

/-- The gate records. -/
def readGates (b : List Byte) : List GateRec :=
  let o := secOfs b 8
  let q0 := o + 16 + 24 * leAt b o 2 + 12 * leAt b (o + 2) 2
  (List.range (leAt b (o + 4) 2)).map fun k =>
    let q := q0 + 8 * k
    { port := leAt b q 1, mask := leAt b (q + 1) 1, dur := leAt b (q + 4) 4 }

/-- The rein table: records of 8 bytes and the follower axes, padded to 4 bytes. -/
def readReins (b : List Byte) : Nat → Nat → List ReinRec
  | 0, _ => []
  | n + 1, q =>
    let k := leAt b (q + 1) 1
    { group := leAt b q 1, inst := leAt b (q + 2) 2, refAx := leAt b (q + 4) 2, fol := readRun b (q + 6) 2 k }
      :: readReins b n (q + (6 + 2 * k + 3) / 4 * 4)

/-- The whole Pattern of an image. -/
def readPattern (b : List Byte) : Pattern :=
  let h := readHdr b
  let es := readEdges b h.nEdge
  let vs := readVars b h.nVar
  let img := b.take (imageLen b)
  { hdr := h, insts := readInsts b h.nInst es vs, vars := vs
    groups := (List.range h.nGroup).map fun k => (leAt b (secOfs b 4 + 8 * k) 4, leAt b (secOfs b 4 + 8 * k + 4) 2)
    zones := readZones b h.nZone
    map := { tpPeriod := leAt b (secOfs b 6) 4, opPeriod := leAt b (secOfs b 6 + 4) 4, vfldMax := readRun b (secOfs b 6 + 8) 2 4 }
    chans := readChans b, srcs := readSrcs b, axes := readAxes b h.nAxis, conns := readConns b, fwds := readFwds b
    gates := readGates b, reins := readReins b h.nRein (secOfs b 9), sig32 := crc32c img, sig64 := crc64 img
    encA := Config.readEncoding .a b, encB := Config.readEncoding .b b }

/-- A capacity at a SPAN_K: that of Table 01-7, scaled below 3 (R28). -/
def scaleCap (k c : Nat) : Nat := if k < 3 then c * 2 ^ k / 8 else c

/-- Axis capacity (R27 to R29). -/
def axisCap (order k : Nat) : Nat := if order = 830 then min 256 (scaleCap k 1024) else scaleCap k 1024

/-- Local field channels (Table 01-7). -/
def chanCap (order : Nat) : Nat := if order = 884 then 128 else if order = 851 then 32 else 0

/-- The capacities of Table 01-7 that no header count shows: local field channels of the order code (the RSTIN balls, 128 to 131, apart)
and up to 32 axes in a rein group. -/
def localCaps (order : Nat) (p : Pattern) : Bool :=
  (p.chans.all fun c => decide (c.n < chanCap order) || (decide (128 ≤ c.n) && decide (c.n < 132)))
    && p.reins.all fun r => decide (r.fol.length ≤ 31)

/-- The capacities of R27 to R29 at SPAN_K = k. -/
def capsOk (order k : Nat) (h : PatHdr) : Bool :=
  decide (h.nInst ≤ scaleCap k 16384) && decide (h.nEdge ≤ scaleCap k 65536) && decide (h.nVar ≤ 32768)
    && decide (h.nAxis ≤ axisCap order k) && decide (h.nRein ≤ 64) && decide (h.nConnIn ≤ scaleCap k 2048)
    && decide (h.nConnOut ≤ scaleCap k 512) && decide (h.nRemIn ≤ scaleCap k 4096)
    && decide (h.nRemOut ≤ scaleCap k 2048) && decide (h.nZone ≤ 64)

/-- Phase E length in ns at SPAN_K = k (Table 02-1). -/
def phaseENs (k : Nat) : Nat :=
  let n := 250 * 2 ^ k
  (75 * n / 100 - 20 * n / 100) * 125

/-- The budget check of R59 and R72 for one die at a core clock of `mhz`: W + 15 L at most 85 % of 16 f t_E. -/
def budgetDie (mhz k w l : Nat) : Bool := decide ((w + 15 * l) * 100 * 1000 ≤ 85 * 16 * mhz * phaseENs k)

/-- The budget check of both dies (R72). -/
def budgetOk (k : Nat) (h : PatHdr) : Bool := budgetDie 500 k h.wA h.lA && budgetDie 480 k h.wB h.lB

/-- The encoding of one die passes the checks of R69 against a signature: CRC-32C and recorded CRC-64. -/
def Enc.passes (e : Enc) (sig64 : Nat) : Bool := e.ok && e.bind == sig64

/-- PAT_LOAD_ERR of the checks that one die makes under R69 at SPAN_K = k on the bytes of its own slot: 0 none, 1 CRC, 2 binding,
3 target, 4 capacity, 5 budget. MAGIC comes first, and SPAN_K_MIN above 7 counts as capacity (Table 03-1). The reference of the
canonical image's own CRC check is the CRC-64 that the encoding records (log 101). -/
def dieErr (order k : Nat) (d : Die) (b : List Byte) : Nat :=
  let h := readHdr b
  let p := readPattern b
  let e := if d = .a then p.encA else p.encB
  if leAt b 0 4 != 0x54414B52 || decide (b.length < imageLen b) || !e.ok then 1
  else if e.bind != p.sig64 then 2
  else if h.target != order then 3
  else if decide (7 < h.spanKMin) || !capsOk order k h || !localCaps order p then 4
  else if !budgetDie (if d = .a then 500 else 480) k (if d = .a then h.wA else h.wB) (if d = .a then h.lA else h.lB) then 5
  else 0

/-- PAT_LOAD_ERR of both dies, each on its own slot: the first check that fails on L-A, else on L-B, else 6 where the signatures that
they exchange differ (R69). -/
def loadErr (order k : Nat) (a b : List Byte) : Nat :=
  if dieErr order k .a a != 0 then dieErr order k .a a
  else if dieErr order k .b b != 0 then dieErr order k .b b
  else if (readPattern a).sig32 != (readPattern b).sig32 || (readPattern a).sig64 != (readPattern b).sig64 then 6
  else 0

/-- The Pattern of both dies: canonical image and A encoding from the slot of L-A, B encoding from that of L-B. -/
def readBoth (a b : List Byte) : Pattern := { readPattern a with encB := Config.readEncoding .b b }

end Sys2Proof.Machine
end

