-- ==== Sys2Proof/Machine/SpanOps.lean ====
section
/-! DEFINITION. Shared operations of the span engine: dispatch and retirement, compare records, command words,
telegram bodies (02_span_timing.md, 03_pattern_engine.md R74 to R78, 05_channel_diversity.md R146 to R157). -/

namespace Sys2Proof

/-- The group of a position. -/
def Pattern.groupOf (p : Pattern) (q : Nat) : Nat :=
  p.groups.findIdx fun g => decide (g.1 ≤ q) && decide (q < g.1 + g.2)

/-- Positions of a group. -/
def Pattern.groupPos (p : Pattern) (g : Nat) : List Nat :=
  match p.groups[g]? with
  | some (a, n) => (List.range n).map (a + ·)
  | none => []

/-- VC2 flits that a direction needs in one span, the VC2 reservation (R149): one per group, four per CONN_OUT, one per F-die.
DESIGN CHOICE (log 115): every CONN_OUT is counted, whatever its PERIOD and PHASE. -/
def Pattern.vc2 (p : Pattern) (nFdie : Nat) : Nat :=
  p.groups.length + 4 * (p.posOf fun i => match i.block with
    | .connOut _ => true
    | _ => false).length + nFdie

/-- The identity of a record: kind and number. -/
def CmpRec.key : CmpRec → Nat × Nat
  | .group g _ => (0, g)
  | .fdie d _ _ => (1, d.val)
  | .telegram c _ => (2, c)

namespace Machine

/-- A word from numbered bits. -/
def bitsOf (l : List (Nat × Bool)) : Nat := l.foldl (fun w x => if x.2 then w + 2 ^ x.1 else w) 0

/-! ## Stitch flits (Table 05-3) -/

/-- Bits 255 to 32 of a flit, the most significant byte first. -/
def flitBytes (h : FlitHdr) (r : FlitRec) : List Byte :=
  beBytes 4 (((r.vc % 16 * 16 + r.kind % 16) * 4096 + h.seq % 4096) * 4096 + h.ack % 4096)
    ++ beBytes 4 (((h.cvc % 16 * 16 + h.ccnt % 16) * 256 + h.span % 256) * 65536 + r.tag % 65536) ++ beBytes 20 r.payload

/-- The CRC-32C of a flit is right (R142). -/
def flitCrcOk (h : FlitHdr) (r : FlitRec) : Bool := h.crc == crc32c (flitBytes h r)

/-- Priority of a virtual channel (Table 05-4). -/
def vcPrio (vc : Nat) : Nat := if vc = 0 then 1 else if vc = 2 then 2 else if vc = 1 then 3 else if vc = 3 then 4 else 5

/-- A flit becomes ready: it leaves before every flit of a lower priority (R144). -/
def Link.push (l : Link) (span at_ : Nat) (r : FlitRec) : Link :=
  let p := vcPrio r.vc
  { l with txq := l.txq.takeWhile (fun x => decide (vcPrio x.rec_.vc ≤ p)) ++ { rec_ := r, span := span, at_ := at_ }
      :: l.txq.dropWhile fun x => decide (vcPrio x.rec_.vc ≤ p) }

/-- The die has flits of the span ready to be sent, from the time `at_` on. -/
def LDie.pushAt (l : LDie) (at_ : Nat) (rs : List FlitRec) : LDie := { l with link := rs.foldl (fun k r => k.push l.tb.spanNo at_ r) l.link }

/-- The die has flits of the span ready to be sent. -/
def LDie.push (l : LDie) (rs : List FlitRec) : LDie := l.pushAt 0 rs

/-- TAG and PAYLOAD of the tick timestamp record (R45, R152; layout and KIND: log 114). -/
def flitTick (ts last : Nat) : FlitRec := { vc := 0, kind := 1, tag := 0, payload := ts % 2 ^ 64 * 2 ^ 96 + last % 2 ^ 64 * 2 ^ 32 }

/-- The input supervision flit (R168). -/
def flitIn (tag states : Nat) (codes : List Nat) : FlitRec :=
  { vc := 0, kind := 3, tag := tag, payload := states % 2 ^ 32 * 2 ^ 128 + codes.zipIdx.foldl (fun w x => w + x.1 % 16 * 16 ^ x.2) 0 }

/-- The output supervision flit (R205). -/
def flitOut (f : Nat) (codes : List Nat) : FlitRec :=
  { vc := 0, kind := 4, tag := f, payload := codes.zipIdx.foldl (fun w x => w + x.1 % 16 * 16 ^ x.2) 0 }

/-- READY (R151). -/
def flitReady : FlitRec := { vc := 0, kind := 5, tag := 0, payload := 0 }

/-- A flit of a compare record on `vc` (R146, R147). -/
def CmpFlit.flit (vc : Nat) : CmpFlit → FlitRec
  | .group g sig => { vc := vc, kind := 1, tag := g, payload := sig % 2 ^ 64 }
  | .fdie d c o => { vc := vc, kind := 2, tag := d.val, payload := c % 2 ^ 32 * 2 ^ 32 + o % 2 ^ 32 }
  | .part n bs => { vc := vc, kind := 3, tag := n, payload := beAt bs 0 20 }

/-- The flits of a record: 1, or 4 for a telegram. -/
def CmpRec.flits : CmpRec → List CmpFlit
  | .group g sig => [.group g sig]
  | .fdie d c o => [.fdie d c o]
  | .telegram n bs => (List.range 4).map fun k => .part n ((bs.drop (20 * k)).take 20)

/-- A localisation flit (R155). -/
def flitLoc (index : Nat) (bytes : List Byte) : FlitRec := { vc := 3, kind := 4, tag := index, payload := beAt bytes 0 20 }

/-- A flit of a pairing record (R281). -/
def PairRec.flit : PairRec → FlitRec
  | .digest conn seq epoch boot len crc => { vc := 1, kind := 1, tag := conn, payload := (((seq % 2 ^ 32 * 2 ^ 16 + epoch % 2 ^ 16) * 2 ^ 32 + boot % 2 ^ 32) * 2 ^ 16
      + len % 256) * 2 ^ 64 + crc % 2 ^ 64 }
  | .full conn bytes => { vc := 1, kind := 2, tag := conn, payload := beAt bytes 0 20 }

/-- A position flit of up to four axes (R220). -/
def flitPos (first : Nat) (recs : List PosRec) : FlitRec :=
  let r (k : Nat) : PosRec := recs.getD k { pos := 0, flags := 0 }
  { vc := 1, kind := 3, tag := first, payload := (List.range 4).foldl (fun w k => w + (r k).pos % 2 ^ 32 * 2 ^ (32 + 32 * (3 - k)) + (r k).flags % 256 * 256 ^ (3 - k)) 0 }

/-- A flit whose PAYLOAD the spec gives no content: the committed state of a die on VC3, a forwarded request or response on VC4 (log 114). -/
def flitOf (vc kind tag : Nat) : FlitRec := { vc := vc, kind := kind, tag := tag, payload := 0 }

/-! ## Which Pattern, which dies -/

/-- The die is powered, has its clocks and is not held in reset: it ticks and runs its phases (R309, R324). -/
def State.ticking (s : State) (d : Die) : Bool :=
  (s.dieSt d.n == 0 || s.dieSt d.n == 2) && !(if d = .a then s.clk.deadA else s.clk.deadB) && s.pow.pd.getLsbD (if d = .a then 5 else 10) && (s.die d).mgmt != .booting

/-- The die evaluates in this span. -/
def State.evals (s : State) (d : Die) : Bool :=
  s.evaluates && s.pattern.isSome && s.ticking d && (s.modes.wait.isNone || s.modes.mode == .safe)
    && (s.dieSt d.n == 0 || (s.flt.rd d).step == 5) && (s.upd.reboot != some d || s.upd.rejoined)

/-- F-dies of the order code. -/
def State.fdies (s : State) : List Nat := if s.order = 884 then [0, 1, 2, 3] else if s.order = 851 then [0] else []

/-- A P-die power domain is on. -/
def State.pdOn (s : State) (n : Nat) : Bool := s.pow.pd.getLsbD n

/-- Update activation under the fourth exception of R459: from ACTIVATING_B to L-A's first joint commit. -/
def State.activating (s : State) : Bool := s.modes.act.isSome && (s.upd.state == 4 || s.upd.state == 5)

/-- Die `d` runs alone while the other reboots (R459). -/
def State.alone (s : State) (d : Die) : Bool := s.upd.reboot == some d.peer

/-- TRIPs, SERVICE outside activation, BOOT and CONFIGURE: the ports send CMD 0 (Table 07-4). -/
def State.cmdZero (s : State) : Bool :=
  !(s.modes.mode == .run || s.modes.mode == .safe || (s.modes.mode == .service && s.modes.act.isSome))

/-! ## Time of a die -/

/-- Time of the commit point of the span of die `d`, in ns of its gPTP time. -/
def Timebase.commitAt (t : Timebase) : Nat := t.tickNs + commitNs t.tspan

/-- The present time of die `d`, in ns of its gPTP time. -/
def State.nowNs (s : State) (d : Die) : Nat := (s.die d).tb.tickNs + 125 * (s.time - (s.die d).tb.tickAt)

/-! ## Evaluation -/

/-- What the die's evaluation reads. Times are counted in configured spans, in DEEP-SLEEP too (R58). -/
def State.env (s : State) (d : Die) : EvalEnv :=
  let l := s.die d
  let e := l.eng
  { d := d
    c := { span := l.tb.spanNo, dt := l.tb.spanNo - e.comSpan, first := e.first, tspan := tspanNs s.modes.spanK, firstSpan := e.firstSpan,
           tickNs := l.tb.tickNs, firstTickNs := e.firstTickNs }
    done := e.done, work := e.work, com := e.com, com0 := e.com0, snap := l.cur
    blocked := (List.range 64).filter s.fswBlocksZone
    authOff := s.keys.auth != 0
    clears := e.clears
    inRun := (s.modes.mode == .run || s.testAccess || (s.modes.act == some .run)) && !s.activating
    noRise := s.activating }

/-- The position is evaluated: every position, or in a replay those of the replay set (R156). -/
def Cmp.runs (c : Cmp) (p : Pattern) (q : Nat) : Bool := c.stage != .eval || c.set.contains (p.groupOf q)

/-- The position is on a lane. -/
def Engine.busyAt (e : Engine) (q : Nat) : Bool := e.lanes.any fun x => x.2 == .busy q

/-- The position's results exist in this span. -/
def Engine.have_ (e : Engine) (q : Nat) : Bool := decide (q < e.retired) || e.done.any fun r => r.1 == q

/-- The earliest position that is ready: admitted, not on a lane, every same-span producer completed (R74). -/
def Engine.ready (e : Engine) (c : Cmp) (p : Pattern) : Option Nat :=
  ((List.range (min p.insts.length (e.retired + 512))).drop e.retired).find? fun q =>
    c.runs p q && !e.have_ q && !e.busyAt q && (deps p q).all fun r => e.have_ r || !c.runs p r

/-- Fill free lanes in order (R74). The fuel is the number of lanes. -/
def Engine.fill (c : Cmp) (p : Pattern) : List Nat → Engine → Engine
  | [], e => e
  | n :: ns, e =>
    if Tab.get LaneSt.free e.lanes n = .free then
      match e.ready c p with
      | none => e
      | some q => Engine.fill c p ns { e with lanes := Tab.set .free e.lanes n (.busy q) }
    else Engine.fill c p ns e

/-- Dispatch while a job is ready and a lane free; JOBS_PEAK. DESIGN CHOICE (log 103): jobs in flight are those on a lane and those
completed but not retired; the spec does not say whether an admitted job that waits for a lane or a producer counts. -/
def Engine.dispatch (e : Engine) (c : Cmp) (p : Pattern) : Engine :=
  if !e.active then e
  else
    let e1 := Engine.fill c p (List.range 17) e
    { e1 with peak := max e1.peak (e1.done.length + (e1.lanes.filter fun x => match x.2 with
        | .busy _ => true
        | _ => false).length) }

/-- Retire completed jobs in Pattern order (R75); a replay passes over positions outside its set. -/
def Engine.retire (c : Cmp) (p : Pattern) : Nat → Engine → Engine
  | 0, e => e
  | n + 1, e =>
    if decide (p.insts.length ≤ e.retired) then e
    else if !c.runs p e.retired then Engine.retire c p n { e with retired := e.retired + 1 }
    else match e.done.find? fun r => r.1 == e.retired with
      | none => e
      | some r => Engine.retire c p n
          { e with work := e.work.put p e.retired r.2, done := e.done.filter fun x => x.1 != e.retired
                   retired := e.retired + 1 }

/-- Every job of the evaluation has retired. -/
def Engine.complete (e : Engine) (p : Pattern) : Bool := !e.abandoned && decide (p.insts.length ≤ e.retired)

/-! ## Compare records -/

/-- Internal words and outputs of one position as the stream of R147 holds them; the lane of the job has decoded them (log 111). -/
def streamWords (p : Pattern) (d : Die) (m : Img) (q : Nat) : List Nat :=
  match p.insts[q]? with
  | none => []
  | some i =>
    (i.outs.map fun v => container ((m.rd p d v).getD 0)) ++ ((m.stRd p d q).getD .plain).words

/-- The words of a group's stream. -/
def groupWords (p : Pattern) (d : Die) (m : Img) (g : Nat) : List Nat := (p.groupPos g).flatMap (streamWords p d m)

/-- The byte stream of a group (R147). -/
def groupStream (span g : Nat) (ws : List Nat) : List Byte := leBytes 8 span ++ leBytes 2 g ++ ws.flatMap (leBytes 2)

/-- The group signature (R147). -/
def groupSig (span g : Nat) (ws : List Nat) : Nat := crc64 (groupStream span g ws)

/-- The localisation flits of a stream: 20 bytes each, the last filled up with 0, the record index in TAG (R155). -/
def locFlits (bs : List Byte) : List FlitRec :=
  (List.range ((bs.length + 19) / 20)).map fun k =>
    let x := (bs.drop (20 * k)).take 20
    flitLoc k (x ++ List.replicate (20 - x.length) 0)

/-- The switch of the next pulse of an output block, `none` where it drives no local channel (R202). -/
def pulseSw (e : Engine) (i : Inst) (q : Nat) : Bool :=
  match i.block, Tab.get IState.plain e.com.ist q with
  | .outsafe .., .outsafe _ b _ => b
  | .sbc _ n _ _ _, _ => Tab.get false e.alt n
  | _, _ => false

/-- Channels of F-die `f` that an image commands on (R125, R127, R242), sources in RUN and SAFE (Table 07-4). -/
def cmdChans (p : Pattern) (d : Die) (m : Img) (f : Nat) : List Nat :=
  (p.insts.flatMap fun i =>
    let on1 := (m.rd p d (i.outs.headD 0)).getD 0 == 1 && !i.outs.isEmpty
    if on1 then i.block.target.filter fun n => n / 32 == f else [])
    ++ ((p.chans.filter fun c => c.mode == 4 && c.n / 32 == f).map (·.n))

/-- A word with the bits of a channel list. -/
def chanWord (ns : List Nat) : BitVec 32 := ns.foldl (fun w n => w ||| ((1 : BitVec 32) <<< (n % 32))) 0

/-- CMD of F-die `f` (R193). -/
def cmdWord (p : Pattern) (d : Die) (m : Img) (f : Nat) : BitVec 32 := chanWord (cmdChans p d m f)

/-- Channels of F-die `f` whose off-pulse falls in this span, with the switch it opens (R202, R243). -/
def opreqs (p : Pattern) (d : Die) (e : Engine) (m : Img) (tspan span f : Nat) : List (Nat × Bool) :=
  p.insts.zipIdx.flatMap fun x =>
    let i := x.1
    let on1 := (m.rd p d (i.outs.headD 0)).getD 0 == 1 && !i.outs.isEmpty
    match i.block with
    | .outstd _ => []
    | b => if on1 then (b.target.filter fun n => n / 32 == f && (pulseDue p tspan span n ||
          (match b with
            | .sbc _ k _ _ _ => pulseDue p tspan span k
            | _ => false))).map fun n => (n, pulseSw e i x.2) else []

/-- OPREQ of F-die `f`: every requested pulse (R146, R202). -/
def opWord (p : Pattern) (d : Die) (e : Engine) (m : Img) (tspan span f : Nat) : BitVec 32 :=
  chanWord ((opreqs p d e m tspan span f).map (·.1))

/-- The OPREQ bits that die `d` sends: those of its own switch (R202). -/
def opSent (p : Pattern) (d : Die) (e : Engine) (m : Img) (tspan span f : Nat) : BitVec 32 :=
  chanWord (((opreqs p d e m tspan span f).filter fun x => x.2 == (d == .b)).map (·.1))

/-- One telegram's payload from its points (R272). -/
def payload (par : ConnPar) (vals : List Int) : List Byte :=
  let put (bs : List Byte) (x : MapPt × Int) : List Byte :=
    let o := x.1.ofs / 8
    match x.1.ty with
    | .bool => bs.set o (if x.2 == 1 then bs.getD o 0 ||| ((1 : Byte) <<< (7 - x.1.ofs % 8)) else bs.getD o 0)
    | _ => (bs.set o (BitVec.ofNat 8 (container x.2 / 256))).set (o + 1) (BitVec.ofNat 8 (container x.2))
  (par.map.zip vals).foldl put (List.replicate par.len 0)

/-- Bytes 0 to 17 + LEN of a telegram (Table 10-3). -/
def teleBytes (par : ConnPar) (boot epoch seq ts : Nat) (pl : List Byte) : List Byte :=
  beBytes 2 par.connId ++ [BitVec.ofNat 8 (par.auth * 128 + (if seq = 1 then 32 else 0)), BitVec.ofNat 8 par.len]
    ++ beBytes 2 epoch ++ beBytes 4 boot ++ beBytes 4 seq ++ beBytes 4 ts ++ pl

/-- TSTAMP of a span (R275). -/
def tstamp (s : State) (m : Nat) : Nat := (m * tspanNs s.modes.spanK + s.modes.tickOfs) % 2 ^ 32

/-- The point values of a CONN_OUT in an image: safe values in SERVICE test access (R470). -/
def connVals (s : State) (p : Pattern) (e : EvalEnv) (i : Inst) (par : ConnPar) : List Int :=
  if s.testAccess then par.map.map (·.safe) else (List.range par.map.length).map fun k => (e.port p i k).v

/-- The fields of a telegram that its compare record carries in 4 flits: bytes 2 to 17 + LEN, filled up with 0 (R146); CONN_ID stands in TAG. -/
def teleFields (bytes : List Byte) : List Byte :=
  let b := bytes.drop 2
  (b ++ List.replicate (80 - b.length) 0).take 80

/-- The bytes of the telegram of the CONN_OUT at `q`, with its tuple. -/
def teleOf (s : State) (p : Pattern) (e : EvalEnv) (q : Nat) (i : Inst) (par : ConnPar) (ep sq : Nat) : List Byte :=
  let _ := q
  teleBytes par s.keys.bootEpoch ep sq (tstamp s e.c.span) (payload par (connVals s p e i par))

/-- CONN_OUT instances that send in this span: position, instance, parameters, EPOCH and SEQ. -/
def sends (p : Pattern) (m : Img) : List (Nat × Inst × ConnPar × Nat × Nat) :=
  p.insts.zipIdx.filterMap fun x => match x.1.block, Tab.get IState.plain m.ist x.2 with
    | .connOut par, .connOut ep sq => if m.ev.contains (x.2, .send) then some (x.2, x.1, par, ep, sq) else none
    | _, _ => none

/-- The records of groups `gs`, of the telegrams of positions that `keep` names and, with `fs`, of the F-dies (R146, R147). -/
def State.records (s : State) (d : Die) (p : Pattern) (gs : List Nat) (keep : Nat → Bool) (fs : List Nat) : List CmpRec :=
  let e := s.env d
  let l := s.die d
  let m := l.eng.work
  (gs.map fun g => .group g (groupSig e.c.span g (groupWords p d m g)))
    ++ ((sends p m).filter fun x => keep x.1).map (fun x => .telegram x.2.2.1.connId (teleFields (teleOf s p e x.1 x.2.1 x.2.2.1 x.2.2.2.1 x.2.2.2.2)))
    ++ fs.map fun f => .fdie (Fin.ofNat 4 f) (cmdWord p d m f).toNat
        (opWord p d l.eng m e.c.tspan e.c.span f).toNat

/-- Groups whose last position lies below `n`. -/
def groupsTo (p : Pattern) (n : Nat) : List Nat :=
  (p.groups.zipIdx.filter fun (x : (Nat × Nat) × Nat) => decide (x.1.1 + x.1.2 ≤ n)).map (·.2)

/-- Own records without a peer record. -/
def Cmp.open_ (c : Cmp) : List CmpRec := c.own.filter fun r => !c.peer.any fun x => x.key == r.key

/-- Own records that the peer's record disagrees with. -/
def Cmp.diffs (c : Cmp) : List CmpRec :=
  c.own.filter fun r => match c.peer.find? fun x => x.key == r.key with
    | some x => x != r
    | none => false

/-- Every compare of the span has completed. -/
def State.compared (s : State) (d : Die) (p : Pattern) : Bool :=
  let l := s.die d
  l.eng.complete p && !l.eng.active && l.cmp.open_.isEmpty

/-- Die `d` sends READY, once in a span. -/
def State.sendReady (s : State) (d : Die) : State :=
  if (s.die d).cmp.readySent then s
  else s.updDie d fun l => { l with cmp := { l.cmp with readySent := true } }.push [flitReady]

/-- Group compares of the span that have completed on a die: own and peer's record are there. -/
def Cmp.groupsDone (c : Cmp) : Nat := (c.own.filter fun r => r.key.1 == 0 && c.peer.any fun x => x.key == r.key).length

/-- CMP_GROUPS of the device: the group compares that completed on the serving die since `c0` (R160). -/
def State.countCompares (s : State) (d : Die) (c0 : Cmp) : State :=
  if d = s.srv then s.setReg 0x5010 1 (min (s.reg 0x5010 1 + ((s.die d).cmp.groupsDone - c0.groupsDone)) (2 ^ 32 - 1)) else s

/-- READY is sent once every compare has completed and agreed (R151). -/
def State.ready (s : State) (d : Die) (p : Pattern) : State :=
  if s.compared d p && (s.die d).cmp.diffs.isEmpty then s.sendReady d else s

/-- Mismatch perturbation: bit 0 of the phase C record of its target (R471). -/
def State.flip (s : State) (d : Die) (r : CmpRec) : CmpRec :=
  let hit := s.ptActs 3 && s.reg 0xD014 1 == d.n && (s.reg 0xD014 2, s.reg 0xD014 3) == r.key
  if !hit then r
  else match r with
    | .group g x => .group g (Nat.xor x 1)
    | .fdie f c o => .fdie f c (Nat.xor o 1)
    | .telegram c fs => .telegram c (match fs.reverse with
        | [] => []
        | b :: bs => ((b ^^^ 1) :: bs).reverse)

/-- When a compare record of die `d` that is formed now leaves: STR_US later while the stretch perturbation acts on the die (R471). -/
def State.leaveAt (s : State) (d : Die) : Nat := if s.ptActs 0 && s.reg 0xD011 1 == d.n then s.time + 8 * s.reg 0xD011 2 else 0

/-- Form and send the records whose source has retired, each once (R150). -/
def State.formRecords (s : State) (d : Die) (p : Pattern) : State :=
  let l := s.die d
  let n := l.eng.retired
  let rs := s.records d p (groupsTo p n) (fun q => decide (q < n)) (if l.eng.complete p then s.fdies else [])
  let new := (rs.filter fun r => !l.cmp.own.any fun x => x.key == r.key).map (s.flip d)
  (s.setDie d ({ l with cmp := { l.cmp with own := l.cmp.own ++ new } }.pushAt (s.leaveAt d) (new.flatMap fun r => (CmpRec.flits r).map (CmpFlit.flit 2)))).countCompares d l.cmp

/-- F-die `f` is driven by an instance of the groups `gs`. -/
def drivenBy (p : Pattern) (gs : List Nat) (f : Nat) : Bool :=
  p.insts.zipIdx.any fun (x : Inst × Nat) => gs.contains (p.groupOf x.2) && x.1.block.target.any fun n => n / 32 == f

/-- The records of a replayed set, on VC3 (R156). -/
def State.replayRecords (s : State) (d : Die) (p : Pattern) : State :=
  let l := s.die d
  let rs := s.records d p l.cmp.set (fun q => l.cmp.set.contains (p.groupOf q)) (s.fdies.filter (drivenBy p l.cmp.set))
  let keep (x : List CmpRec) : List CmpRec := x.filter fun r => !rs.any fun y => y.key == r.key
  (s.setDie d ({ l with cmp := { l.cmp with own := keep l.cmp.own ++ rs, stage := .recompare } }.push (rs.flatMap fun r => (CmpRec.flits r).map (CmpFlit.flit 3)))).countCompares d
    { l.cmp with own := keep l.cmp.own }

/-- After a completion: retire, send records of what has retired, dispatch (R74, R75, R150, R156). -/
def State.advance (s : State) (d : Die) (p : Pattern) : State :=
  let l := s.die d
  let e1 := Engine.retire l.cmp p (p.insts.length + 1) l.eng
  if e1.complete p then
    let s1 := s.setDie d { l with eng := { e1 with active := false }
                                  tb := if l.tb.phase = .el then { l.tb with phase := .c } else l.tb }
    let us := (s.time - l.tb.tickAt) / 8
    if l.cmp.stage = .eval then s1.replayRecords d p
    else ((s1.setReg 0x5009 (3 + d.n) (max us (s1.reg 0x5009 (3 + d.n)))).formRecords d p).ready d p
  else
    let s1 := s.setDie d { l with eng := e1.dispatch l.cmp p }
    if l.cmp.stage = .eval then s1 else s1.formRecords d p

/-- Begin the evaluation of a span from its frozen snapshot. -/
def State.startEval (s : State) (d : Die) (p : Pattern) : State :=
  let l := s.die d
  let e := { l.eng with active := true, abandoned := false, retired := 0, done := [], errs := [], work := Img.ofSnap p d l.cur
                        lanes := Tab.mapV .free (fun x => match x with
                          | .busy _ => LaneSt.free
                          | y => y) l.eng.lanes }
  (s.setDie d { l with eng := e }).advance d p

/-- A lane reports an error (R76, R77): the lane-error bit, the lane out of dispatch, the job again on another lane; a
second error of the job abandons the evaluation, or the replay. -/
def State.laneFail (s : State) (d : Die) (lane : Nat) (p : Pattern) : State :=
  let l := s.die d
  match Tab.get LaneSt.free l.eng.lanes lane with
  | .busy q =>
    let lanes := Tab.set .free l.eng.lanes lane .errored
    let e1 := { l.eng with lanes := lanes, errs := l.eng.errs ++ [q] }
    let s1 := if l.eng.errs.contains q then
        let s2 := s.setDie d { l with eng := { e1 with active := false, abandoned := true } }
        if l.cmp.stage = .eval then s2.latch 59 else s2
      else s.setDie d { l with eng := e1.dispatch l.cmp p }
    (s1.causeOn (dieBit d 0)).latch (dieBit d 0)
  | _ => s

/-! ## Zone effects outside evaluation -/

/-- Replace the outputs of a position in an image. -/
def Img.setOuts (p : Pattern) (d : Die) (m : Img) (i : Inst) (vals : List (Nat × Int)) : Img :=
  { m with vars := vals.foldl (fun (t : Tab Int) (x : Nat × Int) =>
      match i.outs[x.1]? with
      | some v => Tab.set 0 t v (enc p d v x.2)
      | none => t) m.vars }

/-- Lock one instance of a zone (R83, R296): zone LOCKED with a lock-out, EN_TQ 0 and STOP 1, brakes and outputs off,
ramps abandoned, a coupled group to GSTO with CAUSE 8. -/
def lockInst (p : Pattern) (d : Die) (zs : List Nat) (ns : Nat) (m : Img) (x : Inst × Nat) : Img :=
  let i := x.1
  let q := x.2
  let az := (i.block.ax.map p.axZone).getD i.zone
  if !zs.contains az then m
  else match i.block, Tab.get IState.plain m.ist q with
    | .zone .., st =>
      let r := match st with
        | .zone _ o c n => (o, c, n)
        | _ => (false, 0, 0)
      let was := (m.rd p d (i.outs.headD 0)).getD 0 == 0
      let m1 := m.setOuts p d i [(0, 0), (1, 0), (2, 0), (3, 0)]
      let st1 : IState := .zone false true (if was then r.2.1 else (r.2.1 + 1) % 65536) (if was then r.2.2 else ns)
      { m1 with ist := Tab.set .plain m1.ist q st1 }
    | .axis _, .axis f a b _ =>
      let m1 := m.setOuts p d i [(0, 0), (1, 1)]
      { m1 with ist := Tab.set .plain m1.ist q (.axis f a b none) }
    | .sbc .., .sbc f _ t =>
      let m1 := m.setOuts p d i [(0, 0)]
      { m1 with ist := Tab.set .plain m1.ist q (.sbc f false t) }
    | .outsafe .., .outsafe st b _ =>
      let m1 := m.setOuts p d i [(0, 0)]
      { m1 with ist := Tab.set .plain m1.ist q (.outsafe (if st = 1 then 0 else st) b none) }
    | .rein _, .rein st c s n e r =>
      if st = 0 || st = 1 then
        let m1 := m.setOuts p d i [(0, 2), (1, 0), (2, 1)]
        { m1 with ist := Tab.set .plain m1.ist q (.rein 2 8 s n none none) }
      else { m with ist := Tab.set .plain m.ist q (.rein st c s n e r) }
    | .ss1 .., .ramp 1 _ v =>
      let m1 := m.setOuts p d i [(0, 0)]
      { m1 with ist := Tab.set .plain m1.ist q (.ramp 0 none v) }
    | .ss2 .., .ramp 1 _ v =>
      let m1 := m.setOuts p d i [(0, 0)]
      { m1 with ist := Tab.set .plain m1.ist q (.ramp 0 none v) }
    | _, _ => m

/-- Lock zones in an image. -/
def lockZones (p : Pattern) (d : Die) (zs : List Nat) (ns : Nat) (m : Img) : Img :=
  p.insts.zipIdx.foldl (lockInst p d zs ns) m

/-- Add a latching stop demand to every zone that is not LOCKED (R340): RUNNING and READY zones take their transition. -/
def stopZones (p : Pattern) (d : Die) (ns : Nat) (m : Img) : Img :=
  p.insts.zipIdx.foldl (fun (m : Img) (x : Inst × Nat) => match x.1.block, Tab.get IState.plain m.ist x.2 with
    | .zone .., .zone l o c n =>
      match ((m.rd p d (x.1.outs.headD 0)).getD 0).toNat with
      | 2 =>
        let m1 : Img := m.setOuts p d x.1 [(0, 3), (1, 0), (2, 0), (3, 1)]
        { m1 with ist := Tab.set .plain m1.ist x.2 (.zone true o c n) }
      | 1 =>
        let m1 : Img := m.setOuts p d x.1 [(0, 0), (1, 0), (2, 0), (3, 0)]
        { m1 with ist := Tab.set .plain m1.ist x.2 (.zone false true ((c + 1) % 65536) ns) }
      | 3 => { m with ist := Tab.set .plain m.ist x.2 (.zone true o c n) }
      | _ => { m with ist := Tab.set .plain m.ist x.2 (.zone l o c n) }
    | _, _ => m) m

/-- State of a zone in an image. -/
def Img.zoneSt (p : Pattern) (d : Die) (m : Img) (z : Nat) : Nat :=
  ((p.zonePos z).bind fun q => (p.insts[q]?).map fun i => ((m.rd p d (i.outs.headD 0)).getD 0).toNat).getD 0

/-- Every zone of an image is LOCKED. -/
def Img.allLocked (p : Pattern) (d : Die) (m : Img) : Bool := p.zones.all fun z => m.zoneSt p d z.zone == 0

/-- Committed state of a zone on a die. -/
def State.zoneCom (s : State) (d : Die) (z : Nat) : Nat :=
  match s.pattern with
  | none => 0
  | some p => (s.die d).eng.com.zoneSt p d z

/-! ## Frames -/

/-- A command frame (Table 07-3). -/
def mkFrame (cmd op : BitVec 32) (seq span : Nat) (hold : Bool) : BitVec 128 :=
  let hi : BitVec 112 := cmd ++ op ++ BitVec.ofNat 16 seq ++ BitVec.ofNat 16 span ++ (0#15 : BitVec 15) ++ BitVec.ofBool hold
  hi ++ BitVec.ofNat 16 (crc16 (beBytes 14 hi.toNat))

/-- Channels that self-test holds off: both dies send their CMD bit as 0 (R440). -/
def State.heldOff (s : State) (f : Nat) : BitVec 32 := (Tab.get FDie.init s.fd f).heldOff

/-- Die `d` sends one frame to F-die `f`: its sequence advances and the command is remembered (R193). -/
def LDie.sendCmd (l : LDie) (f : Nat) (cmd : BitVec 32) : LDie :=
  let t := Tab.get { ktSeq := 0, cmd := 0 } l.tx f
  { l with tx := Tab.set { ktSeq := 0, cmd := 0 } l.tx f { ktSeq := (t.ktSeq + 1) % 65536, cmd := cmd.toNat } }

/-- Frames to every F-die, unless the port is in hold mode. -/
def State.sendCmds (s : State) (d : Die) (cmd : Nat → BitVec 32) : State :=
  if (s.die d).hold.on then s
  else s.updDie d fun l => s.fdies.foldl (fun l f => l.sendCmd f (cmd f &&& ~~~s.heldOff f)) l

end Machine

end Sys2Proof
end

