-- ==== Sys2Proof/Machine/RingOps.lean ====
section
/-! DEFINITION. Shared operations on rings, the change log and the journal of committed values
(15_rings_journal.md R386 to R401, 09_rein_groups.md R261). -/

namespace Sys2Proof.Machine

/-! ## Rings -/

/-- Slots of a ring (Table 15-2). -/
def Ring.slots (r : Ring) : Nat := 2 ^ (r.sz + 1)

/-- Bytes of an entry. -/
def Ring.eb (r : Ring) : Nat := 8 * 2 ^ r.esize

/-- Entries held. -/
def Ring.level (r : Ring) : Nat := (r.head + 2 ^ 32 - r.tail) % 2 ^ 32

/-- ALLOC. -/
def Ring.alloc (r : Ring) : Bool := r.owner != 15

/-- Bytes of memory that a ring takes (R388). -/
def Ring.bytes (r : Ring) : Nat := ceilDiv (r.slots * r.eb) 64 * 64

/-- Address of entry counter `c`. -/
def Ring.addr (r : Ring) (c : Nat) : Nat := r.base * 64 + c % r.slots * r.eb

/-- A ring by its number. -/
def Rings.ring (rs : Rings) (n : Nat) : Ring := Tab.get Ring.free rs.desc n

/-- Replace a descriptor. -/
def Rings.put (rs : Rings) (n : Nat) (r : Ring) : Rings := { rs with desc := Tab.set Ring.free rs.desc n r }

/-- The ring lies in L-B's SRAM (Table 15-1). -/
def Ring.inB (order : Nat) (r : Ring) : Bool := order == 830 && r.home == 1

/-- Entry memory of a ring. -/
def Rings.mem (rs : Rings) (order : Nat) (r : Ring) : Mem := if r.inB order then rs.mem1 else rs.mem0

/-- Write the bytes of an entry at HEAD, then advance HEAD (R391). -/
def Rings.write1 (rs : Rings) (order n : Nat) (bs : List Byte) : Rings :=
  let r := rs.ring n
  let a := r.addr r.head
  let rs1 := if r.inB order then { rs with mem1 := Mem.writeL rs.mem1 a bs } else { rs with mem0 := Mem.writeL rs.mem0 a bs }
  rs1.put n { r with head := (r.head + 1) % 2 ^ 32 }

/-- TAIL advances by 1 and RING_DROPS counts. -/
def Rings.dropOldest (rs : Rings) (n : Nat) : Rings :=
  let r := rs.ring n
  rs.put n { r with tail := (r.tail + 1) % 2 ^ 32, drops := satInc 32 r.drops }

/-- A producer writes an entry where `room` slots are free for it (Table 15-3); answers whether it was written. -/
def Rings.devPut (rs : Rings) (order n room : Nat) (bs : List Byte) : Rings × Bool :=
  let r := rs.ring n
  if !r.alloc then (rs, false)
  else if 0 < room then (rs.write1 order n bs, true)
  else if r.policy = 0 && r.level != 0 then ((rs.dropOldest n).write1 order n bs, true)
  else (rs.put n { r with drops := satInc 32 r.drops }, false)

/-- Entry counter `c` of a ring: ring 0 lies in the change log (R401). -/
def Rings.entry (rs : Rings) (order n c : Nat) : List Byte :=
  let r := rs.ring n
  if n = 0 then rs.log.getD c [] else Mem.readN (rs.mem order r) (r.addr c) r.eb

/-- Bytes `lo` to `lo + n − 1` of a ring-entry region are overwritten: a CRC descriptor that runs over them gives a free value
(Table 20-5). -/
def State.crcTouch (s : State) (inB : Bool) (lo n : Nat) : State :=
  let hit (k : Nat) : Bool :=
    let no := s.reg (0x9000 + k) 8
    let e := s.rings.entry s.order no (s.rings.ring no).tail
    leAt e 0 1 == 0 && (s.order == 830 && decide (8 ≤ k)) == inB && decide (lo < leAt e 8 8 + leAt e 4 4) && decide (leAt e 8 8 < lo + n)
  { s with crc := (List.range 16).foldl (fun (t : Tab CrcCh) k =>
      if (Tab.get CrcCh.init t k).busy && hit k then Tab.upd CrcCh.init t k fun (x : CrcCh) => { x with dirty := true } else t) s.crc }

/-- The entry that the next write of ring `n` puts at HEAD. -/
def State.crcTouchHead (s : State) (n : Nat) : State :=
  let r := s.rings.ring n
  s.crcTouch (r.inB s.order) (r.addr r.head) r.eb

/-- The newer of the two flash copies of the change log (R401). -/
def PatStore.newerLog (p : PatStore) : List (List Byte) := if p.fa.log.length < p.fb.log.length then p.fb.log else p.fa.log

/-- Entries go to the change-log region of the flash of each die that runs (R90, R401). -/
def State.flashLog (s : State) (es : List (List Byte)) : PatStore :=
  let put (d : Die) (f : PatFlash) : PatFlash := if s.admitted d then { f with log := f.log ++ es } else f
  { s.pat with fa := put .a s.pat.fa, fb := put .b s.pat.fb }

/-- The descriptor of ring 0 over the change log (R401). -/
def Rings.ring0 (rs : Rings) : Rings :=
  rs.put 0 { base := 0, sz := 15, esize := 3, policy := 2, owner := 8, home := 0, locked := true, purpose := 1,
             head := rs.log.length, tail := 0, chk := true, drops := 0 }

/-- A descriptor that fails its check is rewritten from the copy, its ring emptied; ring 0 is rebuilt from the flashes
(R389). RING_FE of the home die latches and RING_RESETS counts. -/
def State.ringFix (s : State) (n : Nat) : State :=
  let r := s.rings.ring n
  if r.chk then s
  else
    let rs := if n = 0 then { s.rings with log := s.pat.newerLog }.ring0 else s.rings.put n { r with head := 0, tail := 0, chk := true, loose := false }
    (({ s with rings := rs }).bump 32 0x8000 4).latch (dieBit (if r.home = 1 then .b else .a) 11)

/-- Ring service of the ring's die is stopped: a MEM_* bit restricts its port, or CK_MEM is gated (R394). -/
def State.ringBusy (s : State) (r : Ring) : Bool :=
  s.order != 830 && (s.restricts 44 || s.restricts 45 || s.restricts (46 + r.home) || s.clk.gated.getLsbD 13 || !s.pdOn 14 || s.clk.swMem.other || s.dieSt 2 != 0)

/-- Free slots of a ring for a producer: the credit perturbation leaves a part of those of a seat's ring (R390, R471). -/
def State.ringRoom (s : State) (r : Ring) : Nat :=
  let room := r.slots - r.level
  if r.owner < 8 then s.credit room else room

/-- A device producer puts an entry into ring `n`, through its descriptor check. -/
def State.ringPut (s : State) (n : Nat) (bs : List Byte) : State × Bool :=
  let s1 := s.ringFix n
  if s1.ringBusy (s1.rings.ring n) then (s1, false)
  else
    let x := s1.rings.devPut s1.order n (s1.ringRoom (s1.rings.ring n)) bs
    ({ s1.crcTouchHead n with rings := x.1 }, x.2)

/-- The rings that a load of a Pattern lays out from ring 1 on (Table 15-4): port histories and connection windows for
each die, mailboxes. Their sizes and numbers are the model's (log 24). -/
def tkRings (p : Pattern) : List Ring :=
  let mk (esize policy home purpose sz : Nat) : Ring :=
    { base := 0, sz := sz, esize := esize, policy := policy, owner := 8, home := home, locked := true, purpose := purpose, head := 0,
      tail := 0, chk := true, drops := 0 }
  let seats := (p.zones.map (·.seat)).eraseDups
  ((p.chans.filter fun c => c.portHist == 1).flatMap fun _ => [mk 1 0 0 2 7, mk 1 0 1 2 7])
    ++ ((p.conns.filter fun c => c.kind == 1).flatMap fun _ => [mk 3 0 0 3 2, mk 3 0 1 3 2])
    ++ seats.map fun z => { mk 3 2 (if z = 0 then 0 else 1) 4 3 with owner := z }

/-- Place the rings one after the other, ring entries from unit `base` on. -/
def layRings : Nat → Nat → List Ring → List (Nat × Ring)
  | _, _, [] => []
  | n, base, r :: rs => (n, { r with base := base }) :: layRings (n + 1) (base + r.bytes / 64) rs

/-- Entry units of 64 bytes that ring 0 takes. -/
def ring0Units : Nat := 65536

/-- The Tackroom rings of a Pattern with their numbers and places; on the TRK-V830 those of each die on their own (R387). -/
def tkLaid (order : Nat) (p : Pattern) : List (Nat × Ring) :=
  if order = 830 then layRings 1 0 ((tkRings p).filter fun r => r.home == 0) ++ layRings 2048 0 ((tkRings p).filter fun r => r.home == 1)
  else layRings 1 ring0Units (tkRings p)

/-- The number of the Tackroom ring at position `i` of `tkRings`. -/
def tkNo (order : Nat) (p : Pattern) (i : Nat) : Nat :=
  if order = 830 then
    let home := ((tkRings p)[i]?.map (·.home)).getD 0
    let before := (((tkRings p).take i).filter fun r => r.home == home).length
    if home = 0 then 1 + before else 2048 + before
  else 1 + i

/-- First unit after a ring. -/
def Ring.stop (r : Ring) : Nat := r.base + r.bytes / 64

/-- Two rings share entry memory. -/
def Ring.meets (order : Nat) (x y : Ring) : Bool :=
  x.inB order == y.inB order && decide (x.base < y.stop) && decide (y.base < x.stop)

/-- Allocate ring 0 and the Tackroom rings of a Pattern (R395). A seat ring whose number or memory they take is freed (log 24). -/
def Rings.load (rs : Rings) (order : Nat) (p : Pattern) : Rings :=
  let tk := tkLaid order p
  let keep := rs.desc.filter fun x => x.2.purpose == 0 && !tk.any fun y => y.1 == x.1 || y.2.meets order x.2
  { rs with desc := tk.foldl (fun (t : Tab Ring) (x : Nat × Ring) => Tab.set Ring.free t x.1 x.2) keep }.ring0

/-- The rings are those of this Pattern already. -/
def Rings.laidFor (rs : Rings) (order : Nat) (p : Pattern) : Bool :=
  let key (r : Ring) : Ring := { r with head := 0, tail := 0, chk := true, drops := 0, loose := false }
  ((rs.desc.filter fun x => x.1 != 0 && x.2.purpose != 0).map fun x => (x.1, key x.2)) == tkLaid order p

/-- The Tackroom rings of the Pattern that is to run (R387, R395). -/
def State.ringsFor (s : State) (p : Pattern) : State :=
  if s.rings.laidFor s.order p then s else { s with rings := s.rings.load s.order p }

/-- Number of the port-history ring of channel `n` on die `d`. -/
def histRing (order : Nat) (p : Pattern) (d : Die) (n : Nat) : Option Nat :=
  ((p.chans.filter fun c => c.portHist == 1).findIdx? fun c => c.n == n).map fun k => tkNo order p (2 * k + d.n)

/-- Number of the connection-window ring of the CONN_OUT `id` on die `d`. -/
def winRing (order : Nat) (p : Pattern) (d : Die) (id : Nat) : Option Nat :=
  ((p.conns.filter fun c => c.kind == 1).findIdx? fun c => c.inst == id).map fun k =>
    tkNo order p (2 * (p.chans.filter fun c => c.portHist == 1).length + 2 * k + d.n)

/-! ## Change log -/

/-- Append entries to the change log, first to the flashes and then to ring 0; refused when it would not fit (R401). -/
def State.logAppend (s : State) (es : List (List Byte)) : State × Bool :=
  if s.rings.log.length + es.length ≤ 65536 then
    ({ s with pat := s.flashLog es, rings := { s.rings with log := s.rings.log ++ es }.ring0 }, true)
  else (s, false)

/-- A change-log entry of KIND 0x03 (R261). -/
def dcplEntry (g new old rtc boot span : Nat) : List Byte :=
  let body := [3, 0xFF, BitVec.ofNat 8 g, 0] ++ leBytes 4 new ++ leBytes 4 old ++ leBytes 8 rtc ++ leBytes 8 boot ++ leBytes 8 span
    ++ List.replicate 20 0
  body ++ leBytes 4 (crc32c body) ++ [0, 0, 0, 0]

/-- A change of the effective decoupled set of group `g` (R261). -/
def State.dcplChange (s : State) (g new old span : Nat) : State :=
  let s1 := (s.bump 32 (0x6C00 + g) 5).setReg (0x6C00 + g) 6 span
  let x := s1.logAppend [dcplEntry g new old s1.rtcMs s1.bkp.bootCnt span]
  if x.2 then x.1 else x.1.bump 32 (0x6C00 + g) 7

/-! ## Journal of committed values -/

/-- The U14 code of Table 15-7. -/
def codeU14 (v : Nat) : Nat :=
  if v < 32 then v else if v < 64 then 32 + (v - 32) / 2 else if v < 128 then 48 + (v - 64) / 4
  else if v < 256 then 64 + (v - 128) / 8 else if v < 512 then 80 + (v - 256) / 16 else if v < 1024 then 96 + (v - 512) / 32
  else if v < 4096 then 112 + (v - 1024) / 64 else 160 + (v - 4096) / 128

/-- The magnitude code of an S14 value. -/
def codeMag (m : Nat) : Nat :=
  if m < 16 then m else if m < 32 then 16 + (m - 16) / 2 else if m < 64 then 24 + (m - 32) / 4
  else if m < 128 then 32 + (m - 64) / 8 else if m < 256 then 40 + (m - 128) / 16 else if m < 512 then 48 + (m - 256) / 32
  else if m < 2048 then 56 + (m - 512) / 64 else 80 + (m - 2048) / 128

/-- CODE of a value under journal mode 2 (R400). -/
def compand (t : Ty) (v : Int) : Nat :=
  match t with
  | .s14 => let m := min v.natAbs 8191; (if v < 0 && m != 0 then 128 else 0) + codeMag m
  | _ => codeU14 v.toNat

/-- What the journal holds of a value under its mode. -/
def jrnCode (v : Var) (x : Int) : Nat := if v.jmode = 2 then compand v.ty x else container x

/-- The record of a value (Table 15-5): type and body. -/
def jrnBody (v : Var) (x : Int) : Nat × List Byte :=
  if v.jmode = 1 then (2, leBytes 2 (v.id % 32768 + 32768 * jrnCode v x))
  else if v.jmode = 2 then (3, leBytes 2 (v.id % 32768) ++ [BitVec.ofNat 8 (jrnCode v x)])
  else (4, leBytes 2 (v.id % 32768) ++ leBytes 2 (jrnCode v x))

/-- Record the committed changes of one variable on die `d` (R397, R399). -/
def State.jrnVar (s : State) (d : Die) (v : Var) (old new : Int) : State :=
  if v.jmode = 0 then s
  else
    let j := (s.die d).jrn
    let last := if v.jmode = 2 then (Tab.get none j.vals v.id).getD (jrnCode v old) else jrnCode v old
    if last = jrnCode v new then s
    else
      let b := jrnBody v new
      let s1 := s.jrnRec d b.1 b.2
      if j.dropping then s1
      else s1.updDie d fun l => { l with jrn := { l.jrn with vals := Tab.set none l.jrn.vals v.id (some (jrnCode v new)) } }

/-- Record every committed change between two images (R397). -/
def State.jrnVars (s : State) (d : Die) (p : Pattern) (old new : Img) : State :=
  p.vars.foldl (fun s v => s.jrnVar d v ((old.rd p d v.id).getD 0) ((new.rd p d v.id).getD 0)) s

end Sys2Proof.Machine
end

