-- ==== Sys2Proof/Machine/Snapshot.lean ====
section
/-! DEFINITION. What enters the span snapshot (03_pattern_engine.md R79): chain states and their supervision
(06_field_inputs.md R166 to R183), output readback (07_field_outputs.md R201), telegram pairing (10_safe_networks.md R282
to R284), positions (08_safe_motion.md R217 to R222). -/

namespace Sys2Proof

/-- A CONN_IN. -/
def Block.isConnIn : Block → Bool | .connIn _ => true | _ => false

/-- A CONN_OUT. -/
def Block.isConnOut : Block → Bool | .connOut _ => true | _ => false

/-- Inbound connection number of a position in Pattern order (R291). -/
def Pattern.inNo (p : Pattern) (q : Nat) : Nat := ((p.insts.take q).filter fun i => i.block.isConnIn).length

/-- Outbound connection number of a position (R291). -/
def Pattern.outNo (p : Pattern) (q : Nat) : Nat := ((p.insts.take q).filter fun i => i.block.isConnOut).length

/-- The test-pulse source record of a number. -/
def Pattern.src (p : Pattern) (s : Nat) : Option SrcRec := p.srcs.find? fun x => x.s == s

/-- A configured input: a channel in mode 1, or a RSTIN ball, with a kind other than 0 (R164). -/
def ChanRec.isInput (c : ChanRec) : Bool := c.kind != 0 && (c.mode == 1 || decide (128 ≤ c.n))

/-- A channel that drives current (R190). -/
def ChanRec.isOutput (c : ChanRec) : Bool := c.mode == 2 || c.mode == 3 || c.mode == 4

/-- Debounce time of a channel in µs: the fixed 10 µs of an output (R201), DEB of an input, none for kind 0. -/
def ChanRec.debUs (c : ChanRec) : Nat := if c.isOutput then 10 else if c.isInput then c.deb else 0

/-- The kind whose filter chain a channel has: that of an input, else plain (R164, R201). -/
def ChanRec.chainKind (c : ChanRec) : Nat := if c.isInput then c.kind else 1

/-- Pulse term of the filter delay in µs (Table 06-3). -/
def Pattern.pulseTerm (p : Pattern) (c : ChanRec) : Nat :=
  if c.kind = 2 then ((p.src c.tpSrc).map fun x => x.width + 40).getD 0 else if c.kind = 3 then c.ossdPw else 0

/-- N_CH of a channel (R170). -/
def Pattern.nCh (p : Pattern) (tspan : Nat) (c : ChanRec) : Nat := ceilDiv ((c.deb + p.pulseTerm c + 1000) * 1000) tspan

/-- Spans of the test-pulse period (R171). -/
def Pattern.nTp (p : Pattern) (tspan : Nat) : Nat := nSpans tspan p.map.tpPeriod

/-- A tuple as one number, so that the order of tuples is that of numbers (R279, check 5). -/
def tupleNum (boot epoch seq : Nat) : Nat := boot * 2 ^ 48 + epoch * 2 ^ 32 + seq

namespace Machine

/-! ## The CRC of a slot (R79, R80) -/

/-- A Bool as a byte. -/
def boolByte (b : Bool) : Byte := if b then 1 else 0

/-- An integer as 8 bytes. -/
def intBytes (i : Int) : List Byte := leBytes 8 (i % 2 ^ 64).toNat

/-- The bytes of a channel of the snapshot. -/
def ChanSnap.bytes (c : ChanSnap) : List Byte :=
  [boolByte c.own, boolByte c.peer, BitVec.ofNat 8 c.codeOwn, BitVec.ofNat 8 c.codePeer, boolByte c.warmOwn, boolByte c.warmPeer,
    boolByte c.chainErr, boolByte c.cap.ovRise, boolByte c.cap.ovFall] ++ leBytes 8 c.cap.rise ++ leBytes 8 c.cap.fall

/-- The bytes of a connection of the snapshot. -/
def ConnSnap.bytes : ConnSnap → List Byte
  | .none => [0]
  | .pair b e q pl => [1] ++ leBytes 4 b ++ leBytes 2 e ++ leBytes 4 q ++ pl
  | .lone b e q pl => [2] ++ leBytes 4 b ++ leBytes 2 e ++ leBytes 4 q ++ pl
  | .mismatch => [3]

/-- The bytes of an axis of the snapshot. -/
def AxSnap.bytes (x : AxSnap) : List Byte :=
  let opt (v : Option Int) : List Byte := (v.map fun i => 1 :: intBytes i).getD [0]
  [boolByte x.valid1, boolByte x.valid2, boolByte x.recon1, boolByte x.recon2, boolByte x.full1, boolByte x.full2] ++ leBytes 4 x.p1
    ++ leBytes 4 x.p2 ++ opt x.d1 ++ opt x.d2

/-- The bytes of a table, each entry behind its number. -/
def tabBytes {α : Type} (f : α → List Byte) (t : Tab α) : List Byte := t.flatMap fun x => leBytes 4 x.1 ++ f x.2

/-- The contents of a slot as bytes, in an order of the model (log 102). -/
def Snap.bytes (x : Snap) : List Byte :=
  leBytes 8 x.span ++ leBytes 8 x.tickNs ++ leBytes 1 x.images ++ leBytes 1 x.peerImages ++ tabBytes ChanSnap.bytes x.chans
    ++ tabBytes ConnSnap.bytes x.conns ++ tabBytes AxSnap.bytes x.axes
    ++ tabBytes (fun (y : Option (Int × Nat)) => (y.map fun v => intBytes v.1 ++ leBytes 8 v.2).getD []) x.stdin
    ++ tabBytes (fun (y : Option Nat) => (y.map (leBytes 8)).getD []) x.remote ++ tabBytes (fun b => [boolByte b]) x.outFault

/-- Freeze a slot and store the CRC-32C over its contents (R79). -/
def Snap.seal (x : Snap) : Snap := { x with frozen := true, crc := crc32c x.bytes }

/-- The stored CRC-32C is that of the contents (R80). -/
def Snap.intact (x : Snap) : Bool := x.crc == crc32c x.bytes

/-- A frozen slot is intact. -/
theorem Snap.seal_intact (x : Snap) : x.seal.intact = true := by simp [Snap.seal, Snap.intact, Snap.bytes]

/-! ## Chains -/

/-- The lowest-numbered code of a set of latched codes (R180, R206). -/
def lowCode (codes : Nat) : Nat := ((List.range 10).find? fun k => k != 0 && bitAt codes k).getD 0

/-- Chain of channel `n` on a die. -/
def LDie.chain (l : LDie) (n : Nat) : Chain := Tab.get Chain.init l.chains n

/-- Change a chain. -/
def LDie.updChain (l : LDie) (n : Nat) (f : Chain → Chain) : LDie := { l with chains := Tab.upd Chain.init l.chains n f }

/-- Output supervision of channel `n` on a die. -/
def LDie.outSup (l : LDie) (n : Nat) : OutSup := Tab.get OutSup.init l.outs n

/-- Change it. -/
def LDie.updOut (l : LDie) (n : Nat) (f : OutSup → OutSup) : LDie := { l with outs := Tab.upd OutSup.init l.outs n f }

/-- Set bit `k` of a number. -/
def setBitN (v k : Nat) : Nat := if bitAt v k then v else v + 2 ^ k

/-- Clear bit `k` of a number. -/
def clrBitN (v k : Nat) : Nat := if bitAt v k then v - 2 ^ k else v

/-- A chain of die `d` sets supervision code `k` of channel `n`: a change from 0 is journalled and counted (R180, R181). -/
def State.setCode (s : State) (d : Die) (n k : Nat) : State :=
  let v := ((s.die d).chain n).v
  if bitAt v.codes k then s
  else
    let s1 := s.updDie d fun l => l.updChain n fun c => { c with v := { c.v with codes := setBitN c.v.codes k } }
    if v.codes = 0 then (s1.event d 3 [BitVec.ofNat 8 n, BitVec.ofNat 8 d.n, BitVec.ofNat 8 k]).bump 32 (0x4300 + n) 4 else s1

/-- A die sets output code `k` of channel `n` (R206). -/
def State.setOut (s : State) (d : Die) (n k : Nat) : State :=
  let c := ((s.die d).outSup n).codes
  if bitAt c k then s
  else
    let s1 := s.updDie d fun l => l.updOut n fun x => { x with codes := setBitN x.codes k }
    if c = 0 then (s1.event d 3 [BitVec.ofNat 8 n, BitVec.ofNat 8 (2 + d.n), BitVec.ofNat 8 k]).bump 32 (0x4600 + n) 5 else s1

/-- Latch the image of one chain at a tick (R166, R176, R178, R343): `period` that a test-pulse period ends, `deep` that the
device is in DEEP-SLEEP, `held` that self-test holds the channel off. -/
def Chain.latchImg (kind : Nat) (period deep held : Bool) (c : Chain) : Chain :=
  let on := c.f.on && !c.f.offSeen
  let offAll := !c.f.onSeen && !c.f.on
  let k2 := kind == 2
  let codes4 := if kind == 3 && offAll then clrBitN c.v.codes 4 else c.v.codes
  let clear := k2 && period && c.v.offPeriod && offAll && c.v.fgnFree
  let codes := if clear then clrBitN (clrBitN (clrBitN codes4 1) 2) 3 else codes4
  let done := k2 && period && c.v.cleanSeen && c.v.fgnFree
  let need := k2 && ((c.v.needClean && !done) || deep || (clear && codes != codes4))
  let may := !(k2 && (need || deep)) && !held
  { c with
    f := { c.f with offSeen := !c.f.on, onSeen := c.f.on }
    v := { c.v with codes := codes, needClean := if k2 then need else c.v.needClean
                    warm := c.v.warm || (on && may), cleanSeen := c.v.cleanSeen && !period
                    offPeriod := if period then !c.f.on else c.v.offPeriod && offAll
                    fgnFree := if period then true else c.v.fgnFree }
    img := on && may, code := lowCode codes, near := c.f.on && c.f.offSeen && may }

/-- Timestamp of the last filtered edge in ns (R64, R167, R415): Table 06-3's delay after the last raw edge or the end of the window that it
fell into, or the tick that stands for it. -/
def Filt.stamp (c : ChanRec) (f : Filt) : Nat :=
  f.late.getD (f.base + ((if c.chainKind = 3 && !f.raw then c.ossdPw else 0) + c.debUs) * 1000)

/-- Latch every chain of a die; the test-pulse period counts configured spans of `tspan` ns (R171). -/
def LDie.latchImgs (p : Option Pattern) (tspan span : Nat) (deep : Bool) (held : Nat → Bool) (l : LDie) : LDie :=
  let kind (n : Nat) : Nat := match p with
    | some q => (q.chan n).chainKind
    | none => 1
  let nTp := match p with
    | some q => q.nTp tspan
    | none => 0
  let period := nTp != 0 && span % nTp == 0
  { l with chains := (List.range 132).foldl (fun (t : Tab Chain) n =>
      Tab.upd Chain.init t n (Chain.latchImg (kind n) period deep (held n))) l.chains }

/-- What a die's own chain puts into the snapshot. -/
def Chain.own (c : Chain) (x : ChanSnap) : ChanSnap :=
  { x with own := c.img, codeOwn := c.code, warmOwn := c.v.warm
           cap := { rise := c.f.capRise, fall := c.f.capFall, ovRise := c.f.ovRise, ovFall := c.f.ovFall } }

/-- Put the own states of channels `ns` into the snapshot. -/
def LDie.ownChans (l : LDie) (ns : List Nat) : LDie :=
  { l with cur := { l.cur with chans := ns.foldl (fun (t : Tab ChanSnap) n => Tab.upd ChanSnap.off t n (l.chain n).own) l.cur.chans } }

/-- One span of R170. -/
def Superv.chainStep (nch : Nat) (own peer : Bool) (v : Superv) : Superv :=
  let df := if own != peer then min (v.differ + 1) nch else 0
  let bo := if !own && !peer then min (v.bothOff + 1) nch else 0
  { v with differ := df, bothOff := bo, chainErr := decide (nch ≤ df) || (v.chainErr && !decide (nch ≤ bo)) }

/-- IN_STAT of a channel (Table 06-7) from the snapshot of die `d`; `isIn` that it is an input of a kind other than 0 (Table 06-2). -/
def inStat (d : Die) (isIn : Bool) (c : ChanSnap) : Nat :=
  let sa := if d = .a then c.own else c.peer
  let sb := if d = .a then c.peer else c.own
  let wa := if d = .a then c.warmOwn else c.warmPeer
  let wb := if d = .a then c.warmPeer else c.warmOwn
  let ca := if d = .a then c.codeOwn else c.codePeer
  let cb := if d = .a then c.codePeer else c.codeOwn
  b2n sa + 2 * b2n sb + 4 * b2n (isIn && c.agreed) + 8 * b2n (isIn && c.valid) + 16 * b2n wa + 32 * b2n wb + 64 * b2n c.chainErr
    + 256 * ca + 4096 * cb

/-- A change-of-state event of channel `n` (R183 to R185), with the timestamp of its filtered edge on chain A. DESIGN CHOICE (log 119): SEQ of
the first event after power-up is 1. -/
def State.cosEvent (s : State) (n stat edge : Nat) : State :=
  let cfg := s.reg (0x4400 + n) 1
  let on := bitAt stat 2
  if !(if on then bitAt cfg 0 else bitAt cfg 1) then s
  else
    let e := leBytes 4 s.a.tb.spanNo ++ [BitVec.ofNat 8 n, BitVec.ofNat 8 (b2n on + 2 * (stat / 8 % 2) + 4 * (stat / 64 % 2)),
      BitVec.ofNat 8 (stat / 256 % 256), 0] ++ leBytes 4 edge ++ leBytes 4 (s.br.cosSeq + 1)
    let s1 := { s with br := { s.br with cosSeq := (s.br.cosSeq + 1) % 2 ^ 32 } }
    let s2 := if bitAt cfg 2 then
        let x := s1.ringPut (s1.reg (0x4400 + n) 2) e
        if x.2 then x.1 else x.1.bump 32 0x4490 6
      else s1
    let s3 := if bitAt cfg 3 then
        { s2 with br := { s2.br with subs := s2.br.subs.map fun x =>
            if x.idx = 0x4300 + n && x.sub = 1 then { x with ev := true } else x } }
      else s2
    let s4 := if bitAt cfg 4 then s3.setReg 0x4490 (n / 32 + 1) (setBitN (s3.reg 0x4490 (n / 32 + 1)) (n % 32)) else s3
    s4

/-- The entry of a channel's port-history ring (Table 15-4), in the layout of Table 06-6. DESIGN CHOICE (log 139): its SEQ counts the entries
of this ring from 1. -/
def State.portHist (s : State) (p : Pattern) (d : Die) (n stat edge : Nat) : State :=
  match histRing s.order p d n with
  | none => s
  | some r => (s.ringPut r (leBytes 4 (s.die d).tb.spanNo ++ [BitVec.ofNat 8 n, BitVec.ofNat 8 (stat / 4 % 2 + 2 * (stat / 8 % 2) + 4 * (stat / 64 % 2)),
      BitVec.ofNat 8 (stat / 256 % 256), 0] ++ leBytes 4 edge ++ leBytes 4 ((s.rings.ring r).head + 1))).1

/-- Channels of F-die `f`. -/
def fdChans (f : Nat) : List Nat := (List.range 32).map (32 * f + ·)

/-- Channels that the package has: those of its F-dies, and the RSTIN balls. -/
def State.chanNos (s : State) : List Nat := s.fdies.flatMap fdChans ++ [128, 129, 130, 131]

/-- The channel record of the Pattern that the dies run. -/
def State.chanRec (s : State) (n : Nat) : ChanRec := (s.pattern.map fun p => p.chan n).getD (ChanRec.unused n)

/-- A channel of the snapshot once phase A ends: the warm-up of both chains (R86, R169), and in single-channel operation the own chain's state
as the agreed value (R459). -/
def Superv.snap (v : Superv) (alone : Bool) (x : ChanSnap) : ChanSnap :=
  if alone then { x with peer := x.own, codePeer := 0, warmOwn := v.warm, warmPeer := v.warm }
  else { x with warmOwn := v.warm, warmPeer := v.peerWarm || x.peer }

/-- End of phase A for one channel of die `d`: CHAIN_ERR of an input, snapshot, IN_STAT; on L-A the events of changes since the last span
(R169, R170, R183, R186). -/
def State.chanEnd (d : Die) (s : State) (n : Nat) : State :=
  let l := s.die d
  let c := s.chanRec n
  let f := (l.chain n).f
  let v0 := (l.chain n).v
  let x1 := v0.snap (s.alone d) (Tab.get ChanSnap.off l.cur.chans n)
  let nch := (s.pattern.map fun p => p.nCh l.tb.tspan c).getD 1
  let v1 := if s.alone d || !c.isInput then v0 else v0.chainStep nch x1.own x1.peer
  let x2 := { x1 with chainErr := v1.chainErr }
  let st := inStat d c.isInput x2
  let old := (l.chain n).stat
  let l1 := l.updChain n fun y => { y with v := { v1 with peerWarm := v1.peerWarm || (!s.alone d && x1.peer) }, stat := st }
  let s1 := s.setDie d { l1 with cur := { l1.cur with chans := Tab.set ChanSnap.off l1.cur.chans n x2 } }
  let s2 := if v1.chainErr && !v0.chainErr then
      (s1.event d 3 [BitVec.ofNat 8 n, BitVec.ofNat 8 d.n, 0xFF]).bumpOnce d 32 (0x4300 + n) 4
    else s1
  let changed := bitAt st 2 != bitAt old 2 || bitAt st 3 != bitAt old 3
  let s3 := if d = s.srv then s2.setReg (0x4300 + n) 1 st else s2
  let s4 := match s.pattern with
    | some p => if changed && c.portHist == 1 then s3.portHist p d n st (f.stamp c) else s3
    | none => s3
  if d = .a && changed then s4.cosEvent n st (f.stamp c) else s4

/-! ## Output readback -/

/-- F-die `f`. -/
def State.fdie (s : State) (f : Nat) : FDie := Tab.get FDie.init s.fd f

/-- Change it. -/
def State.updF (s : State) (f : Nat) (g : FDie → FDie) : State := { s with fd := Tab.upd FDie.init s.fd f g }

/-- The port of a die on an F-die. -/
def FDie.port (x : FDie) : Die → FPort
  | .a => x.a
  | .b => x.b

/-- Change it. -/
def FDie.updPort (x : FDie) (d : Die) (g : FPort → FPort) : FDie :=
  match d with
  | .a => { x with a := g x.a }
  | .b => { x with b := g x.b }

/-- Both ports, or either port, command channel `n` on. -/
def State.cmdOn (s : State) (n : Nat) : Bool × Bool :=
  let x := s.fdie (n / 32)
  let a := x.a.cmd.getLsbD (n % 32)
  let b := x.b.cmd.getLsbD (n % 32)
  (a && b, a || b)

/-- What a tick does with the supervision of an output: whether its check was suspended in the interval that the image latches (R201), and the
clean interval of R206 ends where the image reads on. -/
def OutSup.latch (now : Nat) (img : Bool) (o : OutSup) : OutSup :=
  { o with suspImg := o.susp, susp := o.pulse || decide (now < o.settle), cleanSince := if img then none else o.cleanSince }

/-- The check of R201 on the latched state of one output channel; not judged in a span whose latched interval overlaps a
suspension. -/
def State.readback (d : Die) (s : State) (c : ChanRec) : State :=
  let l := s.die d
  let on := (l.chain c.n).img
  let x := s.cmdOn c.n
  let busy := (l.outSup c.n).suspImg || (s.fdie (c.n / 32)).test.isSome
  let s1 := if !busy && x.1 && !on then s.setOut d c.n 1 else s
  if !busy && c.mode != 4 && !x.1 && on then s1.setOut d c.n 2 else s1

/-- The die's own codes of F-die `f` count in the snapshot's verdicts, and their flit is ready (R205). -/
def LDie.outVerdict (f : Nat) (l : LDie) : LDie :=
  let code (k : Nat) : Nat := lowCode (l.outSup (32 * f + k)).codes
  let x : LDie := { l with cur := { l.cur with outFault := (List.range 32).foldl (fun (t : Tab Bool) k =>
    if code k != 0 then Tab.set false t (32 * f + k) true else t) l.cur.outFault } }
  x.push [flitOut f ((List.range 32).map code)]

/-! ## Pairing -/

/-- Tuple of a copy. -/
def Copy.tuple (c : Copy) : Nat := tupleNum c.boot c.epoch c.seq

/-- Tuple of a peer record. -/
def PeerCopy.tuple (c : PeerCopy) : Nat := tupleNum c.boot c.epoch c.seq

/-- Two copies of one tuple agree (R283). -/
def copiesAgree (c : Copy) (r : PeerCopy) : Bool :=
  match r.body with
  | some b => b == c.body
  | none => r.crc == crc64 c.body && r.len == (c.body.getD 3 0).toNat

/-- What pairing answers: the snapshot's item, the connection, a disagreement, a lone acceptance. -/
structure PairOut where
  snap : ConnSnap
  conn : InConn
  mism : Bool
  lone : Bool
  /-- later span of arrival of the pair -/
  at_ : Nat
  deriving DecidableEq, Repr

/-- The greatest element by a measure. -/
def maxBy {α : Type} (f : α → Nat) : List α → Option α
  | [] => none
  | x :: xs => match maxBy f xs with
    | none => some x
    | some y => if f y < f x then some x else some y

/-- Pairing of one inbound connection at the end of phase A of span `n` (R282 to R284). `inc` is what SPAN_NO advanced by,
`lone` the committed count since the first lone acceptance, `dt` the spans since the last commit. -/
def pairConn (par : ConnPar) (n inc nLone dt : Nat) (lone : Tm) (x : InConn) : PairOut :=
  let pairs : List (Copy × PeerCopy) := x.held.filterMap fun c =>
    if c.tuple ≤ x.last then none
    else (x.peer.find? fun r => r.tuple == c.tuple && decide (c.span ≤ r.span + par.pairWin) && decide (r.span ≤ c.span + par.pairWin)
      && decide (c.span ≤ n) && decide (r.span ≤ n)).map fun r => (c, r)
  let bad := pairs.filter fun y => !copiesAgree y.1 y.2
  if !bad.isEmpty then
    let ts := bad.map fun y => y.1.tuple
    { snap := .mismatch, conn := { x with held := x.held.filter (fun c => !ts.contains c.tuple)
                                          peer := x.peer.filter (fun c => !ts.contains c.tuple), lastChk := 7 }
      mism := true, lone := false, at_ := n }
  else match maxBy (fun (y : Copy × PeerCopy) => y.1.tuple) pairs with
    | some y =>
      { snap := .pair y.1.boot y.1.epoch y.1.seq (y.1.body.drop 18)
        conn := { x with held := x.held.filter fun c => decide (y.1.tuple ≤ c.tuple) }
        mism := false, lone := false, at_ := max y.1.span y.2.span }
    | none =>
      let due (sp t : Nat) : Bool := decide (x.last < t) && decide (sp + par.pairWin ≤ n) && decide (n < sp + par.pairWin + inc)
      let own : List (Nat × Nat × Nat × List Byte) :=
        (x.held.filter fun c => due c.span c.tuple).map fun c => (c.boot, c.epoch, c.seq, c.body)
      let peer : List (Nat × Nat × Nat × List Byte) := x.peer.filterMap fun c =>
        if due c.span c.tuple then c.body.map fun b => (c.boot, c.epoch, c.seq, b) else none
      let may := par.loneT != 0 && (match lone with
        | none => true
        | some k => decide (k + dt < nLone))
      match maxBy (fun (y : Nat × Nat × Nat × List Byte) => tupleNum y.1 y.2.1 y.2.2.1) (own ++ peer) with
      | some y =>
        if may then
          { snap := .lone y.1 y.2.1 y.2.2.1 (y.2.2.2.drop 18), conn := x, mism := false, lone := true, at_ := n }
        else { snap := .none, conn := x, mism := false, lone := false, at_ := n }
      | none => { snap := .none, conn := x, mism := false, lone := false, at_ := n }

/-- Latch the pairing bit for a connection (R283, R284): a C2 on it concerns the zones of the connection. -/
def State.latchPair (s : State) (p : Pattern) (id : Nat) : State :=
  let s1 := { s with flt := { s.flt with pairZones := zUnion s.flt.pairZones (p.zonesOfConn id) } }
  s1.latch 54

/-- Pairing of the CONN_IN at position `q` of die `d`. -/
def State.pairAt (p : Pattern) (d : Die) (s : State) (q : Nat) (i : Inst) (par : ConnPar) : State :=
  let l := s.die d
  let e := s.env d
  let w := match e.comSt p q with
    | .connIn _ wd lone _ _ _ => (wd, lone)
    | _ => (0, none)
  let o := pairConn par l.tb.spanNo s.spanInc (nSpans e.c.tspan par.loneT) e.c.dt w.2 (Tab.get InConn.init l.ins q)
  let s1 := s.setDie d { l with ins := Tab.set InConn.init l.ins q o.conn
                                cur := { l.cur with conns := Tab.set ConnSnap.none l.cur.conns q o.snap } }
  let idx := 0x7100 + p.inNo q
  let s2 := if o.mism then (s1.bumpOnce d 32 idx 0x0A).latchPair p i.id else s1
  let s3 := if o.lone then
      let s' := s2.bumpOnce d 32 idx 0x0D
      if w.2.isNone then s'.latchPair p i.id else s'
    else s2
  let late := match o.snap with
    | .pair .. => decide (par.wd ≤ w.1 + e.c.dt) && o.at_ == l.tb.spanNo && !e.c.first
    | _ => false
  if late then s3.bumpOnce d 32 0x2005 4 else s3

/-! ## Positions -/

/-- Position of a raw count (R213). -/
def axisPos (par : AxisPar) (k raw : Nat) : Nat :=
  let ofs := if k = 0 then par.ofs1 else par.ofs2
  if bitAt par.sign k then (ofs + 2 ^ 32 - raw % 2 ^ 32) % 2 ^ 32 else (raw + ofs) % 2 ^ 32

/-- What a decoder answers for one sample: slot, count, valid, full, reconstruction fault. -/
structure Decoded where
  slot : Slot
  raw : Nat
  valid : Bool
  full : Bool
  recon : Bool
  deriving DecidableEq, Repr

/-- A sample that is missing or not valid (R219). -/
def Decoded.missing (sl : Slot) : Decoded := { slot := { sl with broken := true }, raw := sl.raw, valid := false, full := false, recon := false }

/-- Decode slot `k` of a telegram (R218, R219); `vStep` is ceil(V_MAX · T_span). -/
def decodeSlot (vStep k : Nat) (t : PosTel) (sl : Slot) : Decoded :=
  match t.words[k]? with
  | none => Decoded.missing sl
  | some (dk, full) =>
    let sum := ((sl.raw : Int) + dk) % (2 ^ 32 : Int)
    let raw : Option Nat := match full with
      | some f => some f
      | none => if sl.broken then none else some sum.toNat
    let stepOk := match raw with
      | some r => sl.broken || decide ((posDiff r sl.raw).natAbs ≤ vStep)
      | none => true
    let good := t.next && bitAt t.ok k && stepOk && (!t.key || full.isSome)
    if !good then Decoded.missing sl
    else match raw with
      | none => { slot := { sl with broken := true }, raw := sl.raw, valid := true, full := false, recon := false }
      | some r =>
        let cmp := t.key && !sl.broken && dk != -8192
        { slot := { raw := r, broken := false }, raw := r, valid := true, full := full.isSome, recon := cmp && sum.toNat != r }

/-- Largest position step of an axis in one span (R218). -/
def vStep (par : AxisPar) (tspan : Nat) : Nat := ceilDiv (par.vMax * tspan) 1000000000

/-- A history takes one sample (R219, R221): missing, valid but not making the chain intact, or valid. -/
def PosHist.push (h : PosHist) (pos : Nat) (valid full : Bool) : PosHist :=
  let intact := valid && (full || h.chain)
  { ps := (pos :: h.ps).take 65, hv := if intact then min (h.hv + 1) 65 else 0, chain := intact }

/-- D_k of a history (R221). -/
def PosHist.diff (h : PosHist) (w : Nat) : Option Int :=
  if h.hv < w + 1 then none else some (posDiff (h.ps.getD 0 0) (h.ps.getD w 0))

/-- The own source of die `d` of an axis: stream and slot. -/
def ownSrc (d : Die) (r : AxisRec) : Nat × Nat := if d = .a then (r.str1, r.slot1) else (r.str2, r.slot2)

/-- The sample of the own source of an axis for the span of the die (R217 to R219). -/
def LDie.ownSample (p : Pattern) (d : Die) (deep : Bool) (l : LDie) (r : AxisRec) : Decoded :=
  let par := p.axPar r.axis
  let src := ownSrc d r
  let st := Tab.get Stream.init l.streams src.1
  let sl := Tab.get Slot.init st.slots src.2
  match st.buf.find? fun t => decide (t.tick + par.lag = l.tb.spanNo) && decide (t.from_ ≤ l.tb.spanNo) with
  | some t => if deep then Decoded.missing sl else decodeSlot (vStep par l.tb.tspan) src.2 t sl
  | none => Decoded.missing sl

/-- Decode the own source of an axis for the span of the die and enter it into the axis snapshot. -/
def LDie.decodeAxis (p : Pattern) (d : Die) (deep : Bool) (l : LDie) (r : AxisRec) : LDie :=
  let par := p.axPar r.axis
  let src := ownSrc d r
  let st := Tab.get Stream.init l.streams src.1
  let o := l.ownSample p d deep r
  let x := Tab.get AxSnap.empty l.cur.axes r.axis
  let pos := axisPos par d.n o.raw
  let x1 := match d with
    | .a => { x with p1 := pos, valid1 := o.valid, recon1 := o.recon, full1 := o.full }
    | .b => { x with p2 := pos, valid2 := o.valid, recon2 := o.recon, full2 := o.full }
  { l with streams := Tab.set Stream.init l.streams src.1 { st with slots := Tab.set Slot.init st.slots src.2 o.slot }
           cur := { l.cur with axes := Tab.set AxSnap.empty l.cur.axes r.axis x1 } }

/-- The position and flags of the own source of an axis (R220); zeros for an axis that the Pattern does not have. -/
def LDie.posRec (p : Pattern) (d : Die) (deep : Bool) (l : LDie) (a : Nat) : PosRec :=
  match p.axes.find? fun r => r.axis == a with
  | none => { pos := 0, flags := 0 }
  | some r =>
    let o := l.ownSample p d deep r
    { pos := axisPos (p.axPar a) d.n o.raw, flags := bitsOf [(0, o.valid), (1, o.full), (2, o.recon)] }

/-- The position flits of the span are ready, in place of those not sent yet: four axes each, from a multiple of four on (R220). -/
def LDie.pushPos (p : Option Pattern) (d : Die) (deep : Bool) (l : LDie) : LDie :=
  match p with
  | none => l
  | some p =>
    let firsts := p.axes.foldl (fun (t : List Nat) r => if t.contains (r.axis / 4 * 4) then t else t ++ [r.axis / 4 * 4]) []
    let x : LDie := { l with link := { l.link with txq := l.link.txq.filter fun y => !(y.rec_.vc == 1 && y.rec_.kind == 3) } }
    x.push (firsts.map fun f => flitPos f ((List.range 4).map fun k => l.posRec p d deep (f + k)))

/-- Advance both histories of an axis at the end of phase A (R221) and enter the window differences. -/
def LDie.histAxis (p : Pattern) (deep : Bool) (l : LDie) (r : AxisRec) : LDie :=
  let w := (p.axPar r.axis).w
  let x := Tab.get AxSnap.empty l.cur.axes r.axis
  let h (k : Nat) : PosHist := Tab.get PosHist.init l.hist (2 * r.axis + k)
  let h1 := if deep then PosHist.init else (h 0).push x.p1 x.valid1 x.full1
  let h2 := if deep then PosHist.init else (h 1).push x.p2 x.valid2 x.full2
  { l with hist := Tab.set PosHist.init (Tab.set PosHist.init l.hist (2 * r.axis) h1) (2 * r.axis + 1) h2
           cur := { l.cur with axes := Tab.set AxSnap.empty l.cur.axes r.axis { x with d1 := h1.diff w, d2 := h2.diff w } } }

end Machine

end Sys2Proof
end

