-- ==== Sys2Proof/Machine/TimerOps.lean ====
section
/-! DEFINITION. General timers: what one source edge does, a match, a reload, and a write of the live compare
(16_crc_timers.md R410 to R412, Table 16-4). Timer t of L-A has number t, of L-B 8 + t. -/

namespace Sys2Proof.Machine

/-! ## One timer -/

/-- COUNT equals CMP. -/
def Tmr.eq (t : Tmr) : Bool := t.count == t.cmp

/-- CMP takes CMP_NEXT where NEXT_PEND is 1. -/
def Tmr.transfer (t : Tmr) : Tmr := if t.nextPend then { t with cmp := t.next, nextPend := false } else t

/-- A match: MATCH, TMR_MATCHES, and in free-run mode the transfer of the edge after it. -/
def Tmr.match_ (t : Tmr) : Tmr := { t with isMatch := true, matches_ := (t.matches_ + 1) % 2 ^ 32, xfer := true }

/-- Steps 1 and 2 of a source edge: reload or count, then the transfer of CMP_NEXT. -/
def Tmr.count1 (t : Tmr) : Tmr :=
  if t.period then
    if t.eq then { ({ t with count := 0 } : Tmr).transfer with xfer := false } else { t with count := (t.count + 1) % 2 ^ 32 }
  else
    let t1 := { t with count := (t.count + 1) % 2 ^ 32 }
    if t1.xfer then { t1.transfer with xfer := false } else t1

/-- Steps 1 to 3 of a source edge; answers whether a match occurred. -/
def Tmr.edge (t : Tmr) : Tmr × Bool :=
  if !t.en then (t, false)
  else
    let t1 := t.count1
    if t1.eq && !t.eq then (t1.match_, true) else (t1, false)

/-- The edges up to the next match, taken at once: in period mode a reload that is due comes first, in free-run mode the transfer
that is due. Answers whether there is such a match. -/
def Tmr.toMatch (t : Tmr) : Tmr × Bool :=
  if !t.en then (t, false)
  else if t.period then
    if t.eq then
      let t1 := ({ t with count := 0 } : Tmr).transfer
      if t1.cmp = 0 then (t, false) else ({ t1 with count := t1.cmp }.match_, true)
    else ({ t with count := t.cmp }.match_, true)
  else
    let t1 := if t.xfer then { t.transfer with xfer := false } else t
    ({ t1 with count := t1.cmp }.match_, true)

/-- A write of CMP while EN is 1 (Table 16-4); answers whether a match occurs at once. -/
def Tmr.writeCmp (t : Tmr) (n : Nat) : Tmr × Bool :=
  let t1 := { t with cmp := n }
  if !t.en || n = t.cmp then (t1, false)
  else if t.eq then
    if n < t.count then ({ t1 with late := true }, false)
    else if t.period then ({ t1 with double := true }, false)
    else (t1, false)
  else if n = t.count then (t1.match_, true)
  else if n < t.count then ({ t1 with late := true }, false)
  else (t1, false)

/-! ## Timers of the device -/

/-- A timer. -/
def State.timer (s : State) (k : Nat) : Tmr := Tab.get Tmr.init s.tmr k

/-- Replace it. -/
def State.setTimer (s : State) (k : Nat) (t : Tmr) : State := { s with tmr := Tab.set Tmr.init s.tmr k t }

/-- The entry that a match writes to TMR_RING (R410). -/
def State.matchEntry (s : State) (k : Nat) (t : Tmr) : List Byte :=
  leBytes 4 (s.die (if k < 8 then .a else .b)).tb.spanNo ++ [BitVec.ofNat 8 (k % 8), BitVec.ofNat 8 (k / 8)] ++ leBytes 2 t.matches_

/-- Put a timer's new state in place; a match with RING 1 writes its entry. -/
def State.putTimer (s : State) (k : Nat) (x : Tmr × Bool) : State :=
  let s1 := s.setTimer k x.1
  if x.2 && x.1.ring then (s1.ringPut (s1.reg (0x9100 + k) 7) (s1.matchEntry k x.1)).1 else s1

/-- One edge of a source (true: ticks of the grid) for the timers of die `d`. -/
def State.timerEdge (s : State) (d : Die) (src : Bool) : State :=
  (List.range 8).foldl (fun (s : State) t =>
    let k := 8 * d.n + t
    let x := s.timer k
    if x.en && x.src == src then s.putTimer k x.edge else s) s

end Sys2Proof.Machine
end

