-- ==== Sys2Proof/Machine/Release.lean ====
section
/-! DEFINITION. Release of outbound telegrams at a commit: key derivation, tag, journal of sent telegrams
(10_safe_networks.md R272 to R276, R286, R289), and the handover of committed state between the dies
(11_fault_handling.md R310, 19_update.md R459 to R463). -/

namespace Sys2Proof

/-- Position streams with their numbers (R250, R498): those on network 1 from 0, those on network 2 from 1,024, in the order
of the records (log 27). -/
def Pattern.streamRecs (p : Pattern) : List (ConnRec × Nat) :=
  let all := p.conns.filter fun c => c.kind == 2
  ((all.filter fun c => c.ports % 4 != 0).zipIdx) ++ (all.filter fun c => c.ports % 4 == 0).zipIdx 1024

/-- Ports of a connection on the network of die `d`, as bits. -/
def ConnRec.portsOf (c : ConnRec) (d : Die) : Nat := if d = .a then c.ports % 4 else c.ports / 4 % 4

namespace Machine

/-- The key of a slot in force on a die, with its type (R430). -/
def Keys.cell (k : Keys) (d : Die) (slot : Nat) : Option KeyCell :=
  if k.wiped then none else (Tab.get KeySlot.init (if d = .a then k.a else k.b) slot).cur.filter fun c => c.typ != 0

/-- K_e of R286. -/
def kdf (key : List Byte) (conn boot epoch : Nat) : List Byte :=
  Config.aesCmac key ([1] ++ beBytes 4 0x54524B53 ++ [0] ++ beBytes 2 conn ++ beBytes 4 boot ++ beBytes 2 epoch ++ beBytes 2 0x80)

/-- K_e of a connection record on die `d`, `none` where its slot holds no key. -/
def State.epochKey (s : State) (d : Die) (c : ConnRec) (boot epoch : Nat) : Option (List Byte) :=
  ((s.keys.cell d c.key).filter fun x => x.typ == 2).map fun x => kdf x.key c.connId boot epoch

/-- The whole body: fields, CRC and, with a key, the truncated tag (Table 10-3). -/
def sealBody (bytes : List Byte) (key : Option (List Byte)) : List Byte :=
  bytes ++ beBytes 4 (crc32c bytes) ++ (match key with
    | some k => (Config.aesCmac k bytes).take 8
    | none => [])

/-- The frame of an outbound telegram: C-VLAN tag with the VID and PCP of its connection, SAFE_ETYPE, body, padding (R272, R274). -/
def State.safeFrame (s : State) (d : Die) (c : ConnRec) (body : List Byte) : List Byte :=
  beBytes 6 c.dst ++ beBytes 6 (Config.macAddr (d.n + 1)) ++ beBytes 2 0x8100 ++ beBytes 2 (c.pcp % 8 * 8192 + c.vid % 4096)
    ++ beBytes 2 (s.reg 0x7000 0) ++ body ++ List.replicate (42 - body.length) 0

/-- A safe telegram enters queue 7 of a port, whatever its PCP (R268). -/
def Net.sendSafe (n : Net) (k : Nat) (frame : List Byte) : Net := n.send k { queue := 7, bytes := frame, len := frame.length + 4 }

/-- Release one telegram on die `d` (R274, R275, R289): its key at the start of an epoch, its frame on every port
that its connection names, its journal entry, CO_SENT, the connection-window ring. A key-engine restriction sends nothing with AUTH = 1
(Table 11-3), nor does a connection whose slot holds no key (DESIGN CHOICE, log 129). -/
def State.release (p : Pattern) (d : Die) (e : EvalEnv) (s : State) (x : Nat × Inst × ConnPar × Nat × Nat) : State :=
  let q := x.1
  let i := x.2.1
  let par := x.2.2.1
  let ep := x.2.2.2.1
  let sq := x.2.2.2.2
  match p.connOf i.id with
  | none => s
  | some c =>
    if par.auth = 1 && s.restricts (dieBit d 10) then s
    else
      let l := s.die d
      let oc := Tab.get OutConn.init l.outc q
      let key := if par.auth = 1 then
          (if oc.epoch = ep && oc.sent then some oc.key else s.epochKey d c s.keys.bootEpoch ep)
        else none
      if par.auth = 1 && key.isNone then s else
      let body := sealBody (teleOf s p e q i par ep sq) key
      let fr := s.safeFrame d c body
      let r : Released := { span := e.c.span, conn := par.connId, epoch := ep, seq := sq, ports := c.portsOf d, body := body, frame := fr }
      let net := [0, 1].foldl (fun (n : Net) k => if bitAt r.ports k then n.sendSafe k fr else n) l.net
      let l1 := { l with
        outc := Tab.set OutConn.init l.outc q { epoch := ep, key := key.getD [], sent := true }
        net := { net with released := (l.net.released.filter fun y => decide (e.c.span ≤ y.span + 2 * s.spanInc)) ++ (if l.jrn.dropping then [] else [r]) } }
      let s1 := (s.setDie d l1).bumpOnce d 32 (0x7900 + p.outNo q) 4
      match winRing s.order p d i.id with
      | none => s1
      | some n =>
        let pad := body ++ List.replicate (128 - body.length) 0
        ((s1.ringPut n (pad.take 64)).1.ringPut n (pad.drop 64)).1

/-- Release every telegram of the span. -/
def State.releaseAll (s : State) (d : Die) (p : Pattern) (m : Img) : State :=
  let e := { s.env d with work := m }
  (sends p m).foldl (fun s x => s.release p d e x) s

/-! ## Handover of committed state -/

/-- Words of one die in the form of the other. -/
def recodeVars (p : Pattern) (src dst : Die) (t : Tab Int) : Tab Int :=
  p.vars.foldl (fun (u : Tab Int) v => Tab.set 0 u v.id (enc p dst v.id ((dec p src v.id (Tab.get 0 t v.id)).getD 0))) []

/-- A committed image of one die in the form of the other: decoded and coded with the signatures of the taker. -/
def Img.recode (p : Pattern) (src dst : Die) (m : Img) : Img :=
  p.insts.zipIdx.foldl (fun (t : Img) x => t.putSt p dst x.2 ((m.stRd p src x.2).getD .plain))
    { vars := recodeVars p src dst m.vars, ist := [], limbs := [], ev := m.ev }

/-- Die `d` takes the committed state of its peer over VC3 (R310 step 3, R460): image, counts of spans, accepted tuples, sent
telegrams, the histories of the peer, and the grid of the peer's ticks (R47); a save buffer that a fence took
is rebuilt (R436). -/
def State.takeState (u : State) (d : Die) : State :=
  let s := { u with st := u.st.setGran d .off }
  match s.pattern with
  | none => s
  | some p =>
    let src := s.die d.peer
    let l := s.die d
    let ins := Tab.mapV InConn.init (fun (x : InConn) => { x with held := [], peer := [], keys := [] }) src.ins
    let eng := { Engine.init with
      com := src.eng.com.recode p d.peer d, com0 := recodeVars p d.peer d src.eng.com0, comOut := src.eng.comOut, first := src.eng.first, comSpan := src.eng.comSpan
      firstSpan := src.eng.firstSpan, firstTickNs := src.eng.firstTickNs, clears := src.eng.clears, alt := src.eng.alt
      rejs := src.eng.rejs }
    s.setDie d { l with eng := eng, ins := ins, hist := src.hist
                        tb := { src.tb with locked := l.tb.locked, ever := l.tb.ever, syncs := l.tb.syncs, offs := l.tb.offs, phase := .idle } }

/-- Switch the port of die `d` to hold mode and hold the die in reset (R199, R458, R459): its shadow opens, its peer runs
alone. The port keeps its sequence, and the journal half stays. -/
def State.enterHold (s : State) (d : Die) : State :=
  let l := s.die d
  let s1 := s.setDie d { l.resetState with hold := { on := true, since := s.time } }
  let f := if s1.flt.shadowOf (.lDie d) then s1.flt else s1.flt.openShadow (.lDie d)
  { s1 with flt := f, upd := { s1.upd with reboot := some d, booted := false, rejoined := false } }

/-- The shadow of a die's reset has run its course and ends 20 µs later (R307, R459). -/
def Faults.shadowDone (f : Faults) (k : Blk) : Faults :=
  { f with shadows := f.shadows.map fun x => if x.blk == k then { x with complete := true } else x }

/-- Microseconds since a time in CK_TICK cycles. -/
def State.usSince (s : State) (t : Nat) : Nat := (s.time - t) / 8

/-- The first joint commit of a rebooted die (R460, R461, R462): hold mode ends with its frame, the single-channel interval
ends, the activation goes to its next stage. -/
def State.rejoinCommit (s : State) (d : Die) : State :=
  let l := s.die d
  let s1 := s.setDie d { l with hold := { on := false, since := 0 } }
  let s2 := s1.setReg 0xA009 (if d = .b then 4 else 5) (s.usSince l.hold.since)
  { s2 with
    flt := s2.flt.shadowDone (.lDie d)
    upd := { s2.upd with
      reboot := none, booted := false, rejoined := false, agree := 0, state := if d = .b then 5 else 6
      newA := s2.upd.newA || d == .a, newB := s2.upd.newB || d == .b } }

/-- Every axis speed is known and at standstill (R457), from the snapshot and the committed state of die `d`. -/
def State.standstill (s : State) (d : Die) (p : Pattern) : Bool :=
  let l := s.die d
  p.axes.all fun r =>
    match (Tab.get AxSnap.empty l.cur.axes r.axis).dMax with
    | none => false
    | some x => decide (x ≤ winUnits (p.axPar r.axis) l.tb.tspan (s.reg 0xA006 0))

/-- A safety output whose HOLD_PERMIT is 0 has its committed command on (R456, UPD_WHY 11). -/
def State.noPermitOn (s : State) (d : Die) (p : Pattern) : Bool :=
  p.chans.any fun c => c.mode == 3 && c.holdPermit == 0
    && (cmdChans p d (s.die d).eng.com (c.n / 32)).contains c.n

/-- L-A begins its reboot at a commit point at which every axis is known again and the conditions hold (R461). The SVC session
ends. -/
def State.laReboot (s : State) (p : Pattern) : State :=
  if s.upd.state == 5 && s.upd.reboot.isNone && s.upd.newB && !s.upd.newA && s.standstill .a p && !s.noPermitOn .a p then
    let s1 := s.enterHold .a
    { s1 with upd := { s1.upd with sess := none, chal := none } }
  else s

/-- The manifest commits (R462): both dies flip the firmware-slot marker, part 5 installs its library (R496), and the mode returns to the one that the activation
was entered from. -/
def State.flip_ (s : State) : State :=
  let m := s.modes.act.getD .run
  let svn := leAt s.upd.manifest 8 4
  let s1 := (s.bump 32 0xA009 1).setReg 0xA009 3 s.rtcMs
  let s2 := (List.range 5).foldl (fun s k => s.setReg 0xA002 (k + 1) (leAt s.upd.manifest (24 + 48 * k + 4) 4)) s1
  let s3 := (s2.setReg 0xA003 1 svn).setReg 0xA00A 0 (leAt s.upd.manifest 20 2)
  let s4 := if s3.modes.mode == .service then
      { s3 with modes := { s3.modes with mode := m, act := none } }.event2 7 [BitVec.ofNat 8 m.code]
    else { s3 with modes := { s3.modes with act := none } }
  { s4 with
    upd := { s4.upd with state := 7, why := 0, fwA := s4.upd.fwA.flip, fwB := s4.upd.fwB.flip, handover := none, lib := some (leAt s4.upd.manifest (24 + 48 * 4 + 4) 4), newA := false, newB := false, agree := 0, defer := false } }

/-- PFW is set. -/
def State.pfw (s : State) : Bool := s.pow.rails.getLsbD 7

/-- One more agreeing span after L-A's first joint commit; at 64 the flip, or its deferral while PFW is set (R462). -/
def State.updAgree (s : State) : State :=
  if s.upd.state != 6 then s
  else
    let n := s.upd.agree + 1
    let s1 := { s with upd := { s.upd with agree := n } }
    if n < 64 then s1 else if s1.pfw then { s1 with upd := { s1.upd with defer := true } } else s1.flip_

/-- One more agreeing span of a die under re-admission; at 64 it is admitted (R310 step 5): its shadow ends 20 µs later. -/
def State.readmAgree (s : State) (d : Die) : State :=
  let r := s.flt.rd d
  if s.dieSt d.n != 2 || r.step != 5 then s
  else if r.spans + 1 < 64 then { s with flt := s.flt.setRd d { r with spans := r.spans + 1 } }
  else
    let s1 := { s with flt := (s.flt.shadowDone (.lDie d)).setRd d { r with step := 0, spans := 0, last := some s.time } }
    (((s1.setDieSt d.n 0).bump 32 (0x3030 + d.n) 2).setReg (0x3030 + d.n) 4 s.rtcMs)

/-- A span that did not agree begins the counts of R310 and R462 again. -/
def State.notAgreed (s : State) (d : Die) : State :=
  let r := s.flt.rd d
  { s with flt := if s.dieSt d.n == 2 then s.flt.setRd d { r with spans := 0 } else s.flt
           upd := if s.upd.state == 6 then { s.upd with agree := 0 } else s.upd }

end Machine

end Sys2Proof
end

