-- ==== Sys2Proof/Machine/TickOps.lean ====
section
/-! DEFINITION. What a tick does around the span: the timebase (02_span_timing.md R43 to R50), the lanes (03_pattern_engine.md
R77, R78), lane rotation, the heavy token and the round of self-test (18_self_test.md R435 to R442), perturbations
(20_commissioning_access.md R471). -/

namespace Sys2Proof.Machine

/-! ## Timebase -/

/-- Die `d` steers to the tick marks of its peer (R47, R50). -/
def State.steers (s : State) (d : Die) : Bool :=
  let own := (s.die d).tb.locked
  let peer := (s.die d.peer).tb.locked
  match d with
  | .a => s.modes.tbMode == 0 && !own && peer
  | .b => s.modes.tbMode != 0 || !own

/-- A channel has been locked since power-up (R48, R499). -/
def State.everLocked (s : State) : Bool := s.a.tb.ever || s.b.tb.ever

/-- Holdover (R48): TB_MODE 0, a channel has been locked, and either is not. -/
def State.holdover (s : State) : Bool := s.modes.tbMode == 0 && s.everLocked && !(s.a.tb.locked && s.b.tb.locked)

/-- The remaining phase error after a span that removes at most 100 ppm of it (R49). -/
def slewStep (tspan : Nat) (e : Int) : Int :=
  let m : Int := (tspan / 10000 : Nat)
  if e < 0 then min 0 (e + m) else max 0 (e - m)

/-- What SPAN_NO advances by at the tick that ends the span in progress (R44, R65): a span of 4 ms counts 2^(7 − SPAN_K) configured ones. -/
def State.incOf (s : State) (t : Timebase) : Nat :=
  if t.phase = .idle then 1 else max 1 (t.tspan / tspanNs s.modes.spanK)

/-- A steered generator measures the span that ends on its own reference, as `meas` ns: more than ±50 ppm from nominal (R47). -/
def State.offSpan (s : State) (d : Die) (meas : Nat) : Bool :=
  let t := (s.die d).tb
  t.steer && t.phase != .idle && t.step.isNone && decide ((t.tspan : Nat) < 20000 * ((meas : Int) - (t.tspan : Nat)).natAbs)

/-- The timebase of die `d` at its next tick (R43 to R50, R499). The steered die follows the error of its peer (log 25). -/
def State.nextTb (s : State) (d : Die) : Timebase :=
  let t := (s.die d).tb
  let pt := (s.die d.peer).tb
  let n := t.step.getD (t.spanNo + s.incOf t)
  let steer := s.steers d
  let e := if steer then pt.err else if t.slew then slewStep s.tspan t.err else t.err
  let slew := !steer && t.slew && decide (100 ≤ e.natAbs)
  let grid := s.modes.tbMode == 0 && s.everLocked
  let at_ := if grid then (((n * tspanNs s.modes.spanK + s.modes.tickOfs : Nat) : Int) + e).toNat else t.tickNs + s.tspan
  { t with spanNo := n, prev := t.spanNo, err := e, tspan := s.tspan, tickNs := at_, tickAt := s.time, phase := .a, steer := steer, slew := slew
           step := none, ts := at_ / 8 * 8 }

/-! ## Lanes -/

/-- The lane that stands in for a failed one: the spare, or the lane isolated for test (R77, R439). -/
def Engine.spareLane (e : Engine) : Option Nat :=
  (List.range 17).find? fun n => match Tab.get LaneSt.free e.lanes n with
    | .spare => true
    | .isolated => true
    | _ => false

/-- One errored lane at the next tick: the spare takes its place; while one was at hand the failed lane is isolated in its
turn, else the die goes on with a lane less (R77, R439). -/
def Engine.swapLane (e : Engine) (n : Nat) : Engine :=
  match Tab.get LaneSt.free e.lanes n with
  | .errored => match e.spareLane with
    | some k => { e with lanes := Tab.set .free (Tab.set .free e.lanes k .free) n .failed }
    | none => { e with lanes := Tab.set .free e.lanes n .failed }
  | _ => e

/-- Lanes that do not evaluate because they failed, errored or were retired. -/
def Engine.lanesDown (e : Engine) : Nat :=
  ((List.range 17).filter fun n => match Tab.get LaneSt.free e.lanes n with
    | .errored => true
    | .failed => true
    | .retired => true
    | _ => false).length

/-- LANE_MAP of a die (R78): lanes that evaluate. -/
def Engine.laneMap (e : Engine) : Nat :=
  (List.range 17).foldl (fun w n => match Tab.get LaneSt.free e.lanes n with
    | .free => w + 2 ^ n
    | .busy _ => w + 2 ^ n
    | _ => w) 0

/-! ## Self-test -/

/-- An item of Table 18-1: class 1 lanes, 3 memory regions, 5 CRC channels, 6 MAC check units, 7 field channels, 8 rail
monitors, 9 the M-die patrol; number in the class. -/
def stItem (cls k : Nat) : Nat := cls * 4096 + k

/-- Class and number of an item. -/
def stCls (i : Nat) : Nat := i / 4096
def stNo (i : Nat) : Nat := i % 4096

/-- Slices are not suspended (R435, R437). -/
def State.slicesOn (s : State) : Bool :=
  (s.modes.mode == .run || s.modes.mode == .safe || s.modes.mode == .configure) && s.modes.pwr != .deepSleep && s.modes.act.isNone

/-- A slice runs in span `n` (R437): in SLEEP every second span (the even ones, log 26). -/
def State.sliceIn (s : State) (n : Nat) : Bool := s.slicesOn && (s.modes.pwr != .sleep || n % 2 == 0)

/-- Every item that die `d` tests in a round; the P-die's run on L-A's grid (R438). -/
def State.stAll (s : State) (d : Die) : List Nat :=
  ((List.range 17).filter fun n => Tab.get LaneSt.free (s.die d).eng.lanes n != .retired).map (stItem 1)
    ++ (List.range 4).map (stItem 3) ++ (List.range 8).map (stItem 5) ++ [stItem 6 0, stItem 6 1]
    ++ (if d = .b then [] else
      (s.fdies.flatMap fdChans).map (stItem 7) ++ (List.range 11).map (stItem 8) ++ (if s.order = 830 then [] else [stItem 9 0]))

/-- Items still to be tested on die `d`. -/
def SelfTest.left (t : SelfTest) : Die → List Nat
  | .a => t.leftA
  | .b => t.leftB

/-- Replace them. -/
def SelfTest.setLeft (t : SelfTest) (d : Die) (l : List Nat) : SelfTest :=
  match d with
  | .a => { t with leftA := l }
  | .b => { t with leftB := l }

/-- The swap of R77 on die `d`: LANE_DEGR once 15 lanes evaluate. A lane under test that takes a place abandons its test, and its
last full pass stands for it (R439). -/
def State.swapLanes (s : State) (d : Die) : State :=
  let e := (List.range 17).foldl Engine.swapLane (s.die d).eng
  let took := (List.range 17).filter fun n => Tab.get LaneSt.free (s.die d).eng.lanes n == .isolated
    && Tab.get LaneSt.free e.lanes n != .isolated
  let s1 := s.updDie d fun l => { l with eng := e }
  let s2 := { s1 with st := (s1.st.setLeft d ((s1.st.left d).filter fun i => !(took.map (stItem 1)).contains i)) }
  if 2 ≤ e.lanesDown && !s2.flt.cause.getLsbD (dieBit d 1) then s2.latchStanding (dieBit d 1) else s2

/-- Begin a round; what the last one had to leave comes first (R442). -/
def State.newRound (s : State) : State :=
  let f (d : Die) : List Nat := s.st.left d ++ (s.stAll d).filter fun i => !(s.st.left d).contains i
  { s with st := { s.st with leftA := f .a, leftB := f .b, lateStart := false, ran := 0 } }

/-- A granule of the die is heavy and pending: a lane waits for its test (R441, Table 18-1). -/
def State.heavy (s : State) (d : Die) : Bool :=
  s.ticking d && (s.die d).eng.spareLane.isSome && (s.st.left d).any fun i => stCls i == 1

/-- The P-die grants the heavy token to one die, in rotation (R441). -/
def State.grantToken (s : State) : State :=
  let want := match s.st.token with
    | some .a => if s.heavy .b then some Die.b else if s.heavy .a then some .a else none
    | _ => if s.heavy .a then some Die.a else if s.heavy .b then some .b else none
  { s with st := { s.st with token := if s.slicesOn then want else none } }

/-- Rotation of R439: with a spare at hand, no lane under test and lanes left to test, the next lane is isolated and the
spare evaluates in its place. -/
def State.rotate (s : State) (d : Die) : State :=
  let e := (s.die d).eng
  let lanes := ((s.st.left d).filter fun i => stCls i == 1).map stNo
  let spare := (List.range 17).find? fun n => Tab.get LaneSt.free e.lanes n == .spare
  let tested := e.lanes.any fun x => x.2 == .isolated
  match spare with
  | none => s
  | some k =>
    if !s.slicesOn || tested then s
    else match ((List.range 17).map fun j => (k + 1 + j) % 17).find? fun n => lanes.contains n
        && (n == k || Tab.get LaneSt.free e.lanes n == .free) with
      | none => s
      | some n =>
        let lanes' := Tab.set .free (Tab.set .free e.lanes k .free) n .isolated
        s.updDie d fun l => { l with eng := { l.eng with lanes := lanes' } }

/-- Doubled units whose copies swap roles at this tick (Table 18-1). -/
def State.swapRoles (s : State) (d : Die) : State :=
  let mine := s.st.swaps.filter fun k => k / 65536 == d.n
  { s with st := { s.st with
      roles := mine.foldl (fun (t : Tab Bool) k => Tab.upd false t k not) s.st.roles
      swaps := s.st.swaps.filter fun k => k / 65536 != d.n } }

/-- A slice begins in phase S (R435): the die runs granules of the items that are left. -/
def State.granStart (s : State) (d : Die) (n : Nat) : State :=
  if s.sliceIn n && !(s.st.left d).isEmpty && s.st.gran d != .lost then { s with st := s.st.setGran d .running } else s

/-- The tick of a die: no granule runs, an aborted one has its region back, and items that failed may be tested again (R435, R436). -/
def SelfTest.endSlice (t : SelfTest) (d : Die) : SelfTest :=
  let t1 := if t.gran d = .lost then t else t.setGran d .off
  { t1 with later := t1.later.filter fun k => k / 65536 != d.n }

/-- Self-test at a tick of die `d`. -/
def State.stTick (u : State) (d : Die) : State :=
  let s := { u with st := u.st.endSlice d }
  let s1 := if s.slicesOn && s.st.leftA.isEmpty && s.st.leftB.isEmpty then s.newRound else s
  let s2 := (s1.swapRoles d).rotate d
  if d = s2.srv then s2.grantToken else s2

/-! ## Perturbations -/

/-- SPANS and EVERY of perturbation `k` (Table 20-4). -/
def State.ptTimes (s : State) (k : Nat) : Nat × Nat :=
  match k with
  | 0 => (s.reg 0xD011 3, s.reg 0xD011 4)
  | 1 => (s.reg 0xD012 4, s.reg 0xD012 5)
  | 2 => (s.reg 0xD013 3, s.reg 0xD013 4)
  | _ => (s.reg 0xD014 4, s.reg 0xD014 5)

/-- Spans left of each perturbation at a tick with SPAN_NO `n`, from those left before it: an armed one begins to act where n mod EVERY is
0, and acts for SPANS spans; nothing acts outside SERVICE test access (R471). -/
def State.ptLeft (s : State) (n : Nat) (before : Tab Nat) : Tab Nat :=
  if !(s.testAccess && s.modes.wait.isNone) then []
  else
    let f (t : Tab Nat) (k : Nat) : Tab Nat :=
      let x := s.ptTimes k
      let v := Tab.get 0 t k - 1
      Tab.set 0 t k (if bitAt (s.reg 0xD010 0) k then (if n % max 1 x.2 = 0 then x.1 else v) else 0)
    [0, 1, 2, 3].foldl f before

/-- At a tick with SPAN_NO `n` the span that ends counts in PT_HITS where a perturbation acted in it, and the new span's act (R471). -/
def State.ptTick (s : State) (n : Nat) : State :=
  let s1 := if s.tst.left.isEmpty then s else s.bump 32 0xD015 0
  { s1 with tst := { s1.tst with before := s1.tst.left, left := s1.ptLeft n s1.tst.left } }

/-- Values that a write puts in force at the tick govern the span that begins there (R366, R471). -/
def State.ptAgain (s : State) : State := { s with tst := { s.tst with left := s.ptLeft s.spanNo s.tst.before } }

end Sys2Proof.Machine
end

