-- ==== Sys2Proof/Machine/Span.lean ====
section
/-! DEFINITION. The span family up to the end of phase E: TICK, PHASE_A_END, PHASE_E_END (02_span_timing.md, 03_pattern_engine.md R71 to R81). -/

namespace Sys2Proof

/-- The limits in spans of an instance that may await a field input, with the timers that run towards them. -/
def Block.limits (tspan : Nat) : Block → IState → List (Tm × Nat)
  | .estop _ t, .dual m => [(m.tm, nSpans tspan t)]
  | .guard _ t _, .dual m => [(m.tm, nSpans tspan t)]
  | .ossd _ t, .dual m => [(m.tm, nSpans tspan t)]
  | .glock _ t tl, .glock a l mis => [(a.tm, nSpans tspan t), (l.tm, nSpans tspan tl), (mis, nSpans tspan tl)]
  | .mute2 a b o, .mute s _ _ _ pr ru _ => [(pr, nSpans tspan a), (ru, nSpans tspan (if s = 1 then b else o))]
  | .mute4 a b o _, .mute s _ _ _ pr ru _ => [(pr, nSpans tspan a), (ru, nSpans tspan (if s = 1 then b else o))]
  | .twohand _ t k, .twohand _ _ y c1 c2 => [(y, nSpansFloor tspan t), (c1, nSpans tspan k), (c2, nSpans tspan k)]
  | .enable3 t, .enable3 m _ _ => [(m.tm, nSpans tspan t)]
  | .modesel _ t, .modesel _ h _ => [(h, nSpans tspan t)]
  | .edm t _, .edm _ tm => [(tm, nSpans tspan t)]
  | .sto _ t, .sto _ _ dis => [(dis, nSpans tspan t)]
  | .sbc _ _ _ _ t, .sbc _ _ fb => [(fb, nSpans tspan t)]
  | .sbt _ t _ _, .sbt _ _ _ te _ _ _ _ => [(te, nSpans tspan t)]
  | _, _ => []

end Sys2Proof

namespace Sys2Proof.Machine

/-! ## Reading the chains -/

/-- A time limit of an instance that reads channel `n` ends at the tick of the die's span (R64). -/
def State.limitEnds (s : State) (d : Die) (p : Pattern) (n : Nat) : Bool :=
  let e := s.env d
  p.insts.zipIdx.any fun (x : Inst × Nat) => (x.1.ins.any fun y => Tab.get SnapSrc.none p.encA.snap y.var == .chan n)
    && (x.1.block.limits e.c.tspan (e.comSt p x.2)).any fun t => t.1.any fun k => k + e.c.dt == t.2

/-- The die finds CAP_OVR of a chain: the edge counts as of the tick that ends the span, and CAP_STAT and the counter show it (R415). -/
def State.capOvr (d : Die) (s : State) (n : Nat) : State :=
  let l := s.die d
  let f := (l.chain n).f
  if !(f.ovRise || f.ovFall) then s
  else
    let s1 := (s.setReg (0x9200 + n) 5 (setBitN (s.reg (0x9200 + n) 5) d.n)).bump 32 (0x9200 + n) 6
    s1.updDie d fun l => l.updChain n fun c => { c with f := { c.f with ovRise := false, ovFall := false, late := some (l.tb.tickNs + l.tb.tspan) } }

/-- An on edge that the image of a channel does not hold yet meets a limit that ends at this tick: it enters the snapshot, and DEADLINE_WINS
counts it (R64, R102; log 120). -/
def State.edgeWins (d : Die) (s : State) (n : Nat) : State :=
  let l := s.die d
  let c := l.chain n
  match s.pattern with
  | some p =>
    if c.near && decide (c.f.stamp (p.chan n) ≤ l.tb.tickNs) && s.limitEnds d p n then
      (s.setDie d { l with cur := { l.cur with chans := Tab.upd ChanSnap.off l.cur.chans n fun x => { x with own := true } } }).bumpOnce d 32 0x2005 4
    else s
  | none => s

/-- The image of channels `ns` is at hand: their states and captures enter the snapshot, and the pairs are locked (R79, R166, R414, R415). -/
def State.readPairs (s : State) (d : Die) (ns : List Nat) : State :=
  let l := (s.die d).ownChans ns
  let s1 := s.setDie d { l with
    chains := ns.foldl (fun (t : Tab Chain) n => Tab.upd Chain.init t n fun c => { c with f := { c.f with lock := true } }) l.chains }
  ns.foldl (State.edgeWins d) (ns.foldl (State.capOvr d) s1)

/-! ## TICK -/

/-- The snapshot that opens at a tick (R79): the reset inputs of the die's own chains, the STDIN values, the remote resets of ticks since
the one before. -/
def State.openSnap (s : State) (tb : Timebase) (x : Snap) : Snap :=
  let n := tb.spanNo
  let stdin : Tab (Option (Int × Nat)) := s.stdin.filterMap fun (k, l) =>
    ((l.filter fun (y : Int × Nat) => decide (y.2 ≤ n)).getLast?).map fun y => (k, some y)
  let remote : Tab (Option Nat) := s.remote.filterMap fun (z, l) =>
    (l.find? fun (y : Nat × Nat) => decide (y.1 ≤ n) && decide (tb.prev < y.1)).map fun y => (z, some y.2)
  { x with stdin := stdin, remote := remote }

/-- Copies whose span of arrival falls more than 2 spans behind are dropped (R280), and so are peer records. -/
def InConn.age (n : Nat) (c : InConn) : InConn :=
  { c with held := c.held.filter (fun x => decide (n ≤ x.span + 2)), peer := c.peer.filter (fun x => decide (n ≤ x.span + 2))
           seen := false, seenLast := c.seen }

/-- Position telegrams that no snapshot takes any more. -/
def Stream.age (n : Nat) (x : Stream) : Stream := { x with buf := x.buf.filter fun t => decide (n ≤ t.tick + 2) }

/-- The input supervision flit of F-die `tag`, or 4 for the RSTIN balls, from the states and codes latched in the span (R168); `here` that its
image is there. -/
def LDie.inFlit (l : LDie) (tag : Nat) (here : Bool) : FlitRec :=
  let c (k : Nat) : ChanSnap := Tab.get ChanSnap.off l.cur.chans (32 * tag + k)
  if here then flitIn tag (bitsOf ((List.range 32).map fun k => (k, (c k).own))) ((List.range 32).map fun k => (c k).codeOwn) else flitIn tag 0 []

/-- What ends at a tick on one die: phase S work and everything of the span before but the committed state (R56, R57); flits whose record
would be stale at the receiver are no longer sent (log 114), but for compare records that a stretch still holds back (R471). The slot of span
n − 8 is taken over, unless a C3 or C4 keeps the slots (R79, R81). -/
def LDie.newSpan (p : Option Pattern) (tspan n : Nat) (deep keep : Bool) (held : Nat → Bool) (tb : Timebase) (l : LDie) : LDie :=
  let l1 := l.latchImgs p tspan n deep held
  { l1 with
    tb := tb
    outs := l1.outs.foldl (fun (t : Tab OutSup) x => Tab.set OutSup.init t x.1 (OutSup.latch tb.tickNs (l1.chain x.1).img x.2)) []
    eng := { l.eng with active := false, abandoned := false, retired := 0, done := [], errs := [], work := .empty
                        lanes := Tab.mapV .free (fun x => match x with
                          | .busy _ => LaneSt.free
                          | y => y) l.eng.lanes }
    cmp := { l.cmp with disagPrev := if l.tb.phase = .s then l.cmp.disagPrev else [], own := [], peer := [], readySent := false, readyRx := false, stage := .none, set := [], grp := 0
                        ownWords := [], parts := [], stale := [], locs := [], named := none, locks := []
                        overs := l.cmp.overs.filter fun k => decide (n < k + 1024) }
    link := { l.link with vc2 := 0, txq := l.link.txq.filter fun x => x.rec_.vc == 4 || decide (tb.tickAt < x.at_) || (x.rec_.vc == 1 && x.rec_.kind != 3 && decide (n ≤ x.span + 2)) }
    ins := Tab.mapV InConn.init (InConn.age n) l.ins
    streams := Tab.mapV Stream.init (Stream.age n) l.streams
    cur := { Snap.empty with opened := true, span := n, tickNs := tb.tickNs, images := 16 }
    snap := if keep then l.snap else Tab.set Snap.empty l.snap (n % 8) { Snap.empty with opened := true, span := n, tickNs := tb.tickNs, images := 16 } }

/-- Subindex of an external port in the per-port entries of Table 10-8. -/
def portSub (d : Die) (port : Nat) : Nat := 2 * d.n + port + 1

/-- Entry `k` of a port's gate control list sets the gates, and frames whose gate stands open leave (R277). -/
def Net.gate (n : Net) (p : Option Pattern) (d : Die) (port k : Nat) : Net :=
  let gs := (p.map fun p => p.gates.filter fun g => g.port == portSub d port).getD []
  let m := n.updPort port fun q =>
    if gs.isEmpty then { q with entry := 0, gates := 255 }
    else { q with entry := k % gs.length, gates := ((gs[k % gs.length]?).map (·.mask)).getD 255 }
  if m.sends port then m.emit port else m

/-- The networks at a tick: the lists begin again, and `sent` shows what leaves in the new span (R277). -/
def Net.newSpan (n : Net) (p : Option Pattern) (d : Die) : Net := ((({ n with sent := [] } : Net).gate p d 0 0).gate p d 1 0)

/-- Channels that self-test holds off (R440). -/
def State.heldChan (s : State) (n : Nat) : Bool := decide (n < 128) && (Tab.get FDie.init s.fd (n / 32)).heldOff.getLsbD (n % 32)

/-- The journal flush of the span that ends on die `d` (R56): a replay or late commit that is still under way at the tick comes before
it, so that the flush is cut short and leaves a gap marker. -/
def State.jrnFlush (s : State) (d : Die) : State :=
  let l := s.die d
  if l.jrn.buf.isEmpty then s
  else if l.cmp.stage != .none || l.jrn.dropping then s.jrnStop d
  else s.setDie d { l with jrn := l.jrn.flush s.order }

/-- TICK of die `d` (R44, R47, R52, R56, R57, R77, R79, R166, R280, R439, R441, R471). `meas` is the length of the span that ends, in ns, as
the die's own reference measures it. -/
def doTick (d : Die) (meas : Nat) (s : State) : State :=
  if !s.ticking d then s
  else
    let tb := s.nextTb d
    let n := tb.spanNo
    let deep := s.modes.pwr == .deepSleep
    let s0 := (if s.offSpan d meas then s.latch 53 else s).jrnFlush d
    let s1 := s0.updDie d (LDie.newSpan s0.pattern (tspanNs s0.modes.spanK) n deep (s0.flt.frozen != 0) s0.heldChan tb)
    let s1a := (s1.updDie d fun l => { l with cur := s1.openSnap tb l.cur }).readPairs d [128, 129, 130, 131]
    let s2 := s1a.updDie d fun l => (l.push [flitTick tb.ts tb.lastCommit, l.inFlit 4 true]).pushPos s1a.pattern d deep
    let s2 := s2.updDie d fun l => { l with net := l.net.newSpan s2.pattern d }
    let s3 := { s2 with st := { s2.st with slice := if d = s2.srv then false else s2.st.slice }
                        flt := { s2.flt with tripTicks := if d = s2.srv then s2.flt.tripTicks + 1 else s2.flt.tripTicks } }
    let s4 := (s3.swapLanes d).stTick d
    (if d = s4.srv then s4.ptTick n else s4).timerEdge d true

def execTick (e : TickEdge) (s : State) : Host.Outcome State Fault Refusal := .next (doTick e.die e.meas s)

/-! ## PHASE_A_END -/

/-- Field images that did not arrive: the inputs read off, and the die's own output codes count (R52, R168, R205). Where the F-die has power
the event is counted, and FLD_PORT latches for the die. -/
def State.missingImages (s : State) (d : Die) : State :=
  let none_ := s.fdies.filter fun f => !bitAt (s.die d).cur.images f
  let fs := none_.filter fun f => s.pdOn (15 + f)
  let s1 := s.updDie d fun l => none_.foldl (fun (l : LDie) f => LDie.outVerdict f (l.push [l.inFlit f false])) l
  if fs.isEmpty then s1
  else (s1.updDie d fun l => { l with imgMiss := fs.foldl (fun (t : Tab Nat) f => Tab.upd 0 t f (satInc 32)) l.imgMiss }).latchReset
    (.fldPort d) (dieBit d 12) id

/-- Counters of one axis at the end of phase A (R227): chain breaks, the largest |P1 − P2| and the largest D_max. -/
def State.axisCounts (p : Pattern) (d : Die) (old : Tab PosHist) (s : State) (r : AxisRec) : State :=
  if d != s.srv then s
  else
    let l := s.die d
    let idx := 0x6000 + r.axis
    let brk := ([0, 1].filter fun k => (Tab.get PosHist.init old (2 * r.axis + k)).chain && !(Tab.get PosHist.init l.hist (2 * r.axis + k)).chain).length
    let s1 := s.setReg idx 0x09 (min (s.reg idx 0x09 + brk) (2 ^ 32 - 1))
    let x := Tab.get AxSnap.empty l.cur.axes r.axis
    let _ := p
    let s2 := if x.valid1 && x.valid2 then s1.setReg idx 0x0A (max (s1.reg idx 0x0A) (posDiff x.p1 x.p2).natAbs) else s1
    match x.dMax with
    | some v => s2.setReg idx 0x0B (max (s2.reg idx 0x0B) v)
    | none => s2

/-- The sample tick that lies the largest POS_LAG of the stream's slots back has no telegram: PS_MISS counts it (R232). -/
def State.streamCounts (p : Pattern) (d : Die) (s : State) (x : ConnRec × Nat) : State :=
  let l := s.die d
  let st := Tab.get Stream.init l.streams x.2
  let mine := p.axes.filter fun r => (ownSrc d r).1 == x.2
  let lag := mine.foldl (fun n r => max n (p.axPar r.axis).lag) 0
  let got := st.buf.any fun t => decide (t.tick + lag = l.tb.spanNo) && decide (t.from_ ≤ l.tb.spanNo)
  if mine.isEmpty || got then s else s.bump 32 (0x6400 + x.2) 6

/-- Positions, histories and their counters of the span (R217 to R221). -/
def State.positions (s : State) (d : Die) (p : Pattern) : State :=
  let deep := s.modes.pwr == .deepSleep
  let old := (s.die d).hist
  let s1 := s.updDie d fun l => p.axes.foldl (LDie.histAxis p deep) (p.axes.foldl (LDie.decodeAxis p d deep) l)
  p.streamRecs.foldl (State.streamCounts p d) (p.axes.foldl (State.axisCounts p d old) s1)

/-- Freeze the snapshot and store it in the slot that its tick took over; while a C3 or C4 keeps the slots, the snapshot of a later
span has none (R79, R81, log 102). -/
def LDie.freeze (l : LDie) : LDie :=
  let x := l.cur.seal
  let slot := Tab.get Snap.empty l.snap (x.span % 8)
  { l with cur := x, snap := if slot.opened && slot.span == x.span then Tab.set Snap.empty l.snap (x.span % 8) x else l.snap
           tb := { l.tb with phase := .e } }

/-- PHASE_A_END of die `d` (R52, R79, R170, R183, R201, R205, R219 to R221, R282 to R284). -/
def doPhaseAEnd (d : Die) (s : State) : State :=
  if !s.ticking d || (s.die d).tb.phase != .a then s
  else
    let s0 := s.missingImages d
    let t1 := s0.chanNos.foldl (State.chanEnd d) s0
    let s1 := match s0.pattern with
      | none => t1
      | some p =>
        p.insts.zipIdx.foldl (fun (u : State) (x : Inst × Nat) => match x.1.block with
          | .connIn par => u.pairAt p d x.2 x.1 par
          | _ => u) (t1.positions d p)
    let s2 := s1.updDie d (LDie.freeze)
    match s2.pattern with
    | some p => if s2.evals d then s2.startEval d p else s2
    | none => s2

def execPhaseAEnd (d : Die) (s : State) : Host.Outcome State Fault Refusal := .next (doPhaseAEnd d s)

/-! ## PHASE_E_END -/

/-- PHASE_E_END of die `d`: phase C begins now, or with the last job (R53). -/
def doPhaseEEnd (d : Die) (s : State) : State :=
  let l := s.die d
  if !s.ticking d || l.tb.phase != .e then s
  else
    let done := match s.pattern with
      | some p => l.eng.complete p || !s.evals d
      | none => true
    s.setDie d { l with tb := { l.tb with phase := if done then .c else .el } }

def execPhaseEEnd (d : Die) (s : State) : Host.Outcome State Fault Refusal := .next (doPhaseEEnd d s)

end Sys2Proof.Machine
end

