-- ==== Sys2Proof/Machine/OdTable.lean ====
section
/-! DEFINITION. The object dictionary: every entry of the spec's entry tables with its index range, subindex range, type code, access
code and persistence class (14_object_dictionary.md R353 to R358, and the entry table of each chapter). -/

namespace Sys2Proof

/-- One row of an entry table: first index, number of indices, first and last subindex, type code (Table 14-3), access code
(Table 14-2), persistence class as DESC_PERSIST shows it. -/
structure OdRow where
  lo : Nat
  n : Nat
  s0 : Nat
  s1 : Nat
  ty : Nat
  acc : Nat
  pers : Nat
  deriving DecidableEq, Repr

/-- Entries of 02_span_timing.md. -/
def odRows02 : List OdRow :=
  [⟨0x2001, 1, 0, 0, 1, 4, 1⟩,
   ⟨0x2002, 1, 0, 0, 3, 4, 1⟩,
   ⟨0x2003, 1, 0, 0, 1, 4, 1⟩,
   ⟨0x2004, 1, 0, 0, 1, 4, 1⟩,
   ⟨0x2005, 1, 1, 1, 3, 0, 0⟩,
   ⟨0x2005, 1, 2, 2, 2, 0, 0⟩,
   ⟨0x2005, 1, 3, 3, 3, 0, 0⟩,
   ⟨0x2005, 1, 4, 4, 3, 0, 0⟩,
   ⟨0x2006, 1, 0, 0, 2, 0, 0⟩,
   ⟨0x2007, 1, 1, 1, 5, 0, 0⟩,
   ⟨0x2007, 1, 2, 2, 3, 0, 0⟩,
   ⟨0x2008, 1, 0, 0, 11, 0, 0⟩,
   ⟨0x2009, 1, 0, 0, 4, 0, 0⟩,
   ⟨0x200A, 1, 0, 0, 3, 0, 0⟩]

/-- Entries of 03_pattern_engine.md. -/
def odRows03 : List OdRow :=
  [⟨0x5020, 44, 1, 1, 2, 0, 0⟩,
   ⟨0x5020, 44, 2, 2, 2, 0, 0⟩,
   ⟨0x5020, 44, 3, 3, 2, 0, 0⟩,
   ⟨0x5020, 44, 4, 4, 2, 0, 0⟩,
   ⟨0x5000, 1, 0, 0, 1, 0, 0⟩,
   ⟨0x5001, 1, 1, 1, 3, 0, 0⟩,
   ⟨0x5001, 1, 2, 2, 4, 0, 0⟩,
   ⟨0x5002, 1, 1, 1, 3, 0, 0⟩,
   ⟨0x5002, 1, 2, 2, 4, 0, 0⟩,
   ⟨0x5003, 1, 0, 0, 1, 2, 0⟩,
   ⟨0x5003, 1, 1, 1, 1, 0, 0⟩,
   ⟨0x5004, 1, 0, 0, 13, 2, 0⟩,
   ⟨0x5005, 1, 0, 0, 2, 0, 0⟩,
   ⟨0x5006, 1, 0, 0, 13, 2, 0⟩,
   ⟨0x5007, 1, 1, 1, 4, 0, 0⟩,
   ⟨0x5007, 1, 2, 2, 4, 0, 0⟩,
   ⟨0x5008, 1, 1, 1, 3, 0, 0⟩,
   ⟨0x5008, 1, 2, 2, 3, 0, 0⟩,
   ⟨0x5009, 1, 1, 1, 2, 0, 0⟩,
   ⟨0x5009, 1, 2, 2, 2, 0, 0⟩,
   ⟨0x5009, 1, 3, 3, 11, 0, 0⟩,
   ⟨0x5009, 1, 4, 4, 11, 0, 0⟩,
   ⟨0x5100, 64, 1, 1, 1, 0, 0⟩,
   ⟨0x5100, 64, 2, 2, 1, 0, 0⟩,
   ⟨0x5100, 64, 3, 3, 2, 0, 0⟩,
   ⟨0x5100, 64, 4, 4, 3, 0, 0⟩,
   ⟨0x5100, 64, 5, 5, 1, 0, 3⟩]

/-- Entries of 04_function_blocks.md. -/
def odRows04 : List OdRow :=
  [⟨0x5400, 1, 0, 0, 2, 1, 0⟩,
   ⟨0x5400, 1, 1, 1, 1, 0, 0⟩,
   ⟨0x5400, 1, 2, 2, 1, 0, 0⟩,
   ⟨0x5400, 1, 3, 3, 2, 0, 0⟩,
   ⟨0x5400, 1, 4, 4, 3, 0, 0⟩,
   ⟨0x5400, 1, 5, 5, 4, 0, 0⟩,
   ⟨0x5400, 1, 6, 6, 3, 0, 0⟩,
   ⟨0x5200, 256, 1, 1, 2, 1, 0⟩,
   ⟨0x5200, 256, 2, 2, 10, 0, 0⟩,
   ⟨0x5300, 256, 1, 16, 2, 0, 0⟩]

/-- Entries of 05_channel_diversity.md. -/
def odRows05 : List OdRow :=
  [⟨0x5010, 1, 1, 1, 3, 0, 0⟩,
   ⟨0x5010, 1, 2, 2, 3, 0, 0⟩,
   ⟨0x5010, 1, 3, 3, 3, 0, 0⟩,
   ⟨0x5010, 1, 4, 4, 3, 0, 0⟩,
   ⟨0x5011, 1, 1, 1, 3, 0, 0⟩,
   ⟨0x5011, 1, 2, 2, 3, 0, 0⟩,
   ⟨0x5011, 1, 3, 3, 4, 0, 0⟩,
   ⟨0x5012, 1, 0, 0, 2, 0, 0⟩,
   ⟨0x5013, 1, 0, 0, 2, 0, 0⟩,
   ⟨0x5014, 1, 1, 1, 3, 0, 0⟩,
   ⟨0x5014, 1, 2, 2, 3, 0, 0⟩,
   ⟨0x5014, 1, 3, 3, 2, 0, 0⟩]

/-- Entries of 06_field_inputs.md. -/
def odRows06 : List OdRow :=
  [⟨0x4100, 132, 1, 1, 1, 0, 3⟩,
   ⟨0x4100, 132, 2, 2, 2, 0, 3⟩,
   ⟨0x4100, 132, 3, 3, 1, 0, 3⟩,
   ⟨0x4100, 132, 4, 4, 2, 0, 3⟩,
   ⟨0x4100, 132, 5, 5, 11, 0, 3⟩,
   ⟨0x4200, 32, 1, 1, 1, 0, 3⟩,
   ⟨0x4200, 32, 2, 2, 2, 0, 3⟩,
   ⟨0x4200, 32, 3, 3, 11, 0, 3⟩,
   ⟨0x4220, 1, 0, 0, 11, 0, 3⟩,
   ⟨0x4300, 132, 1, 1, 2, 0, 0⟩,
   ⟨0x4300, 132, 2, 2, 3, 0, 0⟩,
   ⟨0x4300, 132, 3, 3, 3, 0, 0⟩,
   ⟨0x4300, 132, 4, 4, 3, 0, 0⟩,
   ⟨0x4300, 132, 5, 5, 2, 0, 0⟩,
   ⟨0x4400, 132, 1, 1, 1, 1, 0⟩,
   ⟨0x4400, 132, 2, 2, 3, 1, 0⟩,
   ⟨0x4490, 1, 1, 5, 3, 5, 0⟩,
   ⟨0x4490, 1, 6, 6, 3, 0, 0⟩]

/-- Entries of 07_field_outputs.md. -/
def odRows07 : List OdRow :=
  [⟨0x4000, 128, 0, 0, 1, 0, 3⟩,
   ⟨0x4090, 1, 1, 4, 3, 0, 0⟩,
   ⟨0x4091, 1, 0, 0, 11, 0, 3⟩,
   ⟨0x4500, 128, 1, 1, 2, 0, 3⟩,
   ⟨0x4500, 128, 2, 2, 10, 0, 3⟩,
   ⟨0x4500, 128, 3, 3, 11, 0, 3⟩,
   ⟨0x4500, 128, 4, 4, 2, 0, 3⟩,
   ⟨0x4500, 128, 5, 5, 2, 0, 3⟩,
   ⟨0x4500, 128, 6, 6, 2, 0, 3⟩,
   ⟨0x4500, 128, 7, 7, 2, 0, 3⟩,
   ⟨0x4500, 128, 8, 8, 0, 0, 3⟩,
   ⟨0x4600, 128, 1, 1, 2, 0, 0⟩,
   ⟨0x4600, 128, 2, 2, 2, 0, 0⟩,
   ⟨0x4600, 128, 3, 3, 2, 0, 0⟩,
   ⟨0x4600, 128, 4, 4, 3, 0, 0⟩,
   ⟨0x4600, 128, 5, 5, 3, 0, 0⟩,
   ⟨0x4700, 4, 1, 1, 2, 0, 0⟩,
   ⟨0x4700, 4, 2, 2, 2, 0, 0⟩,
   ⟨0x4700, 4, 3, 3, 2, 0, 3⟩,
   ⟨0x4700, 4, 4, 4, 3, 0, 0⟩,
   ⟨0x4700, 4, 5, 5, 3, 0, 0⟩,
   ⟨0x4700, 4, 6, 6, 3, 0, 0⟩,
   ⟨0x4700, 4, 7, 7, 3, 0, 0⟩,
   ⟨0x4700, 4, 8, 8, 1, 0, 0⟩]

/-- Entries of 08_safe_motion.md. -/
def odRows08 : List OdRow :=
  [⟨0x6000, 1024, 1, 1, 2, 0, 0⟩,
   ⟨0x6000, 1024, 2, 2, 3, 0, 0⟩,
   ⟨0x6000, 1024, 3, 3, 3, 0, 0⟩,
   ⟨0x6000, 1024, 4, 4, 5, 0, 0⟩,
   ⟨0x6000, 1024, 5, 5, 5, 0, 0⟩,
   ⟨0x6000, 1024, 6, 6, 1, 0, 3⟩,
   ⟨0x6000, 1024, 7, 7, 1, 0, 3⟩,
   ⟨0x6000, 1024, 8, 8, 3, 0, 3⟩,
   ⟨0x6000, 1024, 9, 9, 3, 0, 0⟩,
   ⟨0x6000, 1024, 10, 10, 3, 0, 0⟩,
   ⟨0x6000, 1024, 11, 11, 3, 0, 0⟩,
   ⟨0x6400, 2048, 1, 1, 2, 0, 3⟩,
   ⟨0x6400, 2048, 2, 2, 1, 0, 3⟩,
   ⟨0x6400, 2048, 3, 3, 1, 0, 3⟩,
   ⟨0x6400, 2048, 4, 4, 3, 0, 0⟩,
   ⟨0x6400, 2048, 5, 5, 3, 0, 0⟩,
   ⟨0x6400, 2048, 6, 6, 3, 0, 0⟩,
   ⟨0x6400, 2048, 7, 7, 3, 0, 0⟩]

/-- Entries of 09_rein_groups.md. -/
def odRows09 : List OdRow :=
  [⟨0x6C00, 64, 1, 1, 2, 0, 0⟩,
   ⟨0x6C00, 64, 2, 2, 2, 0, 3⟩,
   ⟨0x6C00, 64, 3, 3, 1, 0, 3⟩,
   ⟨0x6C00, 64, 4, 4, 3, 0, 0⟩,
   ⟨0x6C00, 64, 5, 5, 3, 0, 0⟩,
   ⟨0x6C00, 64, 6, 6, 4, 0, 0⟩,
   ⟨0x6C00, 64, 7, 7, 3, 0, 0⟩,
   ⟨0x6C00, 64, 8, 8, 3, 0, 0⟩,
   ⟨0x6C00, 64, 9, 9, 3, 0, 0⟩,
   ⟨0x6C00, 64, 10, 10, 5, 0, 0⟩,
   ⟨0x6C00, 64, 11, 11, 1, 0, 0⟩,
   ⟨0x6E00, 64, 1, 31, 5, 0, 0⟩,
   ⟨0x6D00, 256, 1, 1, 1, 0, 3⟩,
   ⟨0x6D00, 256, 2, 2, 2, 0, 0⟩,
   ⟨0x6D00, 256, 3, 3, 1, 0, 0⟩]

/-- Entries of 10_safe_networks.md. -/
def odRows10 : List OdRow :=
  [⟨0x7000, 1, 0, 0, 2, 4, 1⟩,
   ⟨0x7001, 1, 1, 4, 1, 4, 1⟩,
   ⟨0x7002, 1, 1, 4, 2, 4, 1⟩,
   ⟨0x7003, 1, 1, 2, 1, 4, 1⟩,
   ⟨0x7004, 1, 1, 2, 1, 4, 1⟩,
   ⟨0x7005, 1, 1, 2, 1, 4, 1⟩,
   ⟨0x7006, 1, 1, 4, 5, 4, 1⟩,
   ⟨0x7007, 1, 1, 4, 3, 4, 1⟩,
   ⟨0x7008, 1, 1, 2, 2, 0, 0⟩,
   ⟨0x7009, 1, 1, 2, 3, 0, 0⟩,
   ⟨0x7009, 1, 3, 4, 3, 0, 0⟩,
   ⟨0x7009, 1, 5, 6, 3, 0, 0⟩,
   ⟨0x700A, 1, 0, 0, 3, 0, 0⟩,
   ⟨0x700B, 1, 0, 0, 2, 0, 0⟩,
   ⟨0x700C, 1, 0, 0, 1, 0, 0⟩,
   ⟨0x7100, 2048, 1, 1, 2, 0, 0⟩,
   ⟨0x7100, 2048, 2, 2, 3, 0, 0⟩,
   ⟨0x7100, 2048, 3, 3, 4, 0, 0⟩,
   ⟨0x7100, 2048, 4, 10, 3, 0, 0⟩,
   ⟨0x7100, 2048, 11, 11, 3, 0, 0⟩,
   ⟨0x7100, 2048, 12, 12, 3, 0, 0⟩,
   ⟨0x7100, 2048, 13, 13, 3, 0, 0⟩,
   ⟨0x7100, 2048, 14, 14, 3, 0, 0⟩,
   ⟨0x7900, 512, 1, 1, 1, 0, 0⟩,
   ⟨0x7900, 512, 2, 2, 2, 0, 0⟩,
   ⟨0x7900, 512, 3, 3, 3, 0, 0⟩,
   ⟨0x7900, 512, 4, 4, 3, 0, 0⟩,
   ⟨0x7900, 512, 5, 5, 3, 0, 0⟩,
   ⟨0x7900, 512, 6, 6, 3, 0, 0⟩]

/-- Entries of 11_fault_handling.md. -/
def odRows11 : List OdRow :=
  [⟨0x3000, 1, 0, 0, 4, 0, 0⟩,
   ⟨0x3001, 1, 0, 0, 4, 0, 0⟩,
   ⟨0x3002, 1, 1, 1, 4, 5, 0⟩,
   ⟨0x3002, 1, 2, 2, 4, 5, 0⟩,
   ⟨0x3003, 1, 1, 1, 4, 0, 0⟩,
   ⟨0x3003, 1, 2, 2, 4, 0, 0⟩,
   ⟨0x3003, 1, 3, 3, 4, 0, 0⟩,
   ⟨0x3004, 1, 0, 0, 3, 0, 0⟩,
   ⟨0x3005, 1, 0, 0, 4, 0, 0⟩,
   ⟨0x3010, 1, 1, 64, 1, 4, 1⟩,
   ⟨0x3011, 1, 1, 64, 1, 0, 0⟩,
   ⟨0x3012, 1, 0, 0, 1, 4, 1⟩,
   ⟨0x3013, 1, 0, 0, 11, 4, 1⟩,
   ⟨0x3020, 1, 0, 0, 1, 0, 0⟩,
   ⟨0x3021, 1, 1, 2, 3, 0, 0⟩,
   ⟨0x3030, 7, 1, 1, 1, 0, 0⟩,
   ⟨0x3030, 7, 2, 2, 3, 0, 0⟩,
   ⟨0x3030, 7, 3, 3, 3, 0, 0⟩,
   ⟨0x3030, 7, 4, 4, 4, 0, 0⟩,
   ⟨0x3040, 64, 1, 1, 2, 0, 0⟩,
   ⟨0x3040, 64, 2, 2, 2, 2, 0⟩,
   ⟨0x3040, 64, 3, 3, 1, 0, 0⟩]

/-- Entries of 12_clocks.md. -/
def odRows12 : List OdRow :=
  [⟨0x2010, 1, 1, 1, 2, 0, 0⟩,
   ⟨0x2010, 1, 2, 2, 2, 0, 0⟩,
   ⟨0x2010, 1, 3, 3, 1, 0, 0⟩,
   ⟨0x2011, 1, 0, 0, 2, 1, 0⟩,
   ⟨0x2012, 1, 0, 0, 3, 0, 0⟩,
   ⟨0x2013, 1, 1, 18, 1, 4, 1⟩,
   ⟨0x2014, 1, 1, 18, 3, 0, 0⟩,
   ⟨0x2015, 1, 1, 2, 2, 0, 0⟩,
   ⟨0x2015, 1, 3, 4, 11, 0, 0⟩,
   ⟨0x2016, 1, 1, 1, 1, 1, 0⟩,
   ⟨0x2016, 1, 2, 2, 2, 1, 0⟩]

/-- Entries of 13_power_modes.md. -/
def odRows13 : List OdRow :=
  [⟨0x2020, 1, 0, 0, 1, 2, 0⟩,
   ⟨0x2021, 1, 0, 0, 2, 0, 0⟩,
   ⟨0x2022, 1, 0, 0, 1, 0, 0⟩,
   ⟨0x2023, 1, 0, 0, 0, 4, 1⟩,
   ⟨0x2024, 1, 0, 0, 1, 2, 0⟩,
   ⟨0x2030, 1, 0, 0, 2, 0, 0⟩,
   ⟨0x2031, 1, 1, 11, 3, 0, 0⟩,
   ⟨0x2032, 1, 0, 0, 3, 0, 0⟩,
   ⟨0x2033, 1, 1, 1, 3, 0, 2⟩,
   ⟨0x2033, 1, 2, 2, 4, 0, 0⟩,
   ⟨0x2033, 1, 3, 3, 1, 0, 0⟩,
   ⟨0x2033, 1, 4, 4, 4, 0, 0⟩,
   ⟨0x2034, 1, 1, 1, 11, 0, 0⟩,
   ⟨0x2034, 1, 2, 2, 1, 0, 0⟩,
   ⟨0x2034, 1, 3, 3, 1, 0, 0⟩]

/-- Entries of 14_object_dictionary.md. -/
def odRows14 : List OdRow :=
  [⟨0x1000, 1, 1, 1, 12, 0, 0⟩,
   ⟨0x1000, 1, 2, 2, 12, 0, 0⟩,
   ⟨0x1000, 1, 3, 3, 12, 0, 0⟩,
   ⟨0x1000, 1, 4, 4, 4, 0, 0⟩,
   ⟨0x1000, 1, 5, 5, 3, 0, 0⟩,
   ⟨0x1000, 1, 6, 6, 3, 0, 0⟩,
   ⟨0x1000, 1, 7, 7, 2, 0, 0⟩,
   ⟨0x1001, 1, 1, 1, 3, 1, 0⟩,
   ⟨0x1001, 1, 2, 2, 1, 0, 0⟩,
   ⟨0x1001, 1, 3, 3, 1, 0, 0⟩,
   ⟨0x1001, 1, 4, 4, 1, 0, 0⟩,
   ⟨0x1001, 1, 5, 5, 13, 0, 0⟩,
   ⟨0x1010, 1, 0, 0, 1, 4, 1⟩,
   ⟨0x1011, 1, 0, 0, 12, 2, 0⟩,
   ⟨0x1012, 1, 0, 0, 12, 2, 1⟩,
   ⟨0x1013, 1, 0, 0, 2, 0, 0⟩,
   ⟨0x1020, 1, 0, 0, 2, 4, 1⟩,
   ⟨0x1021, 1, 1, 2, 3, 4, 1⟩,
   ⟨0x1022, 1, 1, 2, 13, 4, 1⟩,
   ⟨0x1023, 1, 0, 0, 0, 4, 1⟩,
   ⟨0x1024, 1, 0, 0, 11, 4, 1⟩,
   ⟨0x1100, 8, 1, 1, 1, 4, 1⟩,
   ⟨0x1100, 8, 2, 2, 3, 4, 1⟩,
   ⟨0x1100, 8, 3, 3, 1, 4, 1⟩,
   ⟨0x1100, 8, 4, 4, 13, 4, 1⟩,
   ⟨0x1100, 8, 5, 5, 2, 4, 1⟩,
   ⟨0x1100, 8, 6, 6, 2, 4, 1⟩,
   ⟨0x1100, 8, 7, 7, 3, 4, 1⟩,
   ⟨0x1100, 8, 8, 8, 3, 4, 1⟩,
   ⟨0x1100, 8, 9, 9, 4, 0, 0⟩,
   ⟨0x1100, 8, 10, 10, 13, 2, 0⟩,
   ⟨0x1100, 8, 11, 11, 1, 0, 0⟩,
   ⟨0x1100, 8, 12, 12, 1, 0, 0⟩,
   ⟨0x1100, 8, 13, 13, 3, 0, 0⟩,
   ⟨0x1100, 8, 14, 14, 3, 0, 0⟩,
   ⟨0x1200, 1, 1, 1, 3, 0, 0⟩,
   ⟨0x1200, 1, 2, 2, 3, 0, 0⟩,
   ⟨0x1200, 1, 3, 3, 3, 0, 0⟩,
   ⟨0x1200, 1, 4, 4, 3, 0, 0⟩]

/-- Entries of 15_rings_journal.md. -/
def odRows15 : List OdRow :=
  [⟨0x8000, 1, 1, 1, 3, 0, 3⟩,
   ⟨0x8000, 1, 2, 2, 3, 0, 0⟩,
   ⟨0x8000, 1, 3, 3, 3, 0, 0⟩,
   ⟨0x8000, 1, 4, 4, 3, 0, 0⟩,
   ⟨0x8100, 1, 1, 1, 3, 1, 0⟩,
   ⟨0x8100, 1, 2, 2, 13, 0, 0⟩,
   ⟨0x8100, 1, 3, 3, 13, 1, 0⟩,
   ⟨0x8100, 1, 4, 4, 3, 2, 0⟩,
   ⟨0x8100, 1, 5, 5, 3, 0, 0⟩,
   ⟨0x8100, 1, 6, 6, 3, 0, 0⟩,
   ⟨0x8100, 1, 7, 7, 1, 2, 0⟩,
   ⟨0x8101, 1, 0, 0, 3, 2, 0⟩,
   ⟨0x8102, 1, 0, 0, 3, 0, 0⟩,
   ⟨0x8103, 1, 1, 1, 3, 0, 0⟩,
   ⟨0x8103, 1, 2, 2, 3, 0, 0⟩,
   ⟨0x8200, 1, 1, 1, 13, 0, 0⟩,
   ⟨0x8200, 1, 2, 2, 3, 0, 0⟩,
   ⟨0x8200, 1, 3, 3, 3, 0, 0⟩,
   ⟨0x8200, 1, 4, 4, 3, 0, 0⟩,
   ⟨0x8200, 1, 5, 5, 3, 0, 0⟩,
   ⟨0x8200, 1, 6, 6, 3, 0, 0⟩]

/-- Entries of 16_crc_timers.md. -/
def odRows16 : List OdRow :=
  [⟨0x9000, 16, 1, 1, 1, 1, 0⟩,
   ⟨0x9000, 16, 2, 2, 1, 1, 0⟩,
   ⟨0x9000, 16, 3, 3, 1, 1, 0⟩,
   ⟨0x9000, 16, 4, 4, 4, 1, 0⟩,
   ⟨0x9000, 16, 5, 5, 4, 1, 0⟩,
   ⟨0x9000, 16, 6, 6, 4, 1, 0⟩,
   ⟨0x9000, 16, 7, 7, 1, 1, 0⟩,
   ⟨0x9000, 16, 8, 8, 3, 1, 0⟩,
   ⟨0x9000, 16, 9, 9, 1, 0, 3⟩,
   ⟨0x9000, 16, 10, 10, 4, 0, 0⟩,
   ⟨0x9000, 16, 11, 11, 3, 0, 0⟩,
   ⟨0x9000, 16, 12, 12, 2, 0, 0⟩,
   ⟨0x9000, 16, 13, 13, 3, 0, 0⟩,
   ⟨0x9000, 16, 14, 14, 4, 1, 0⟩,
   ⟨0x9000, 16, 15, 15, 4, 0, 0⟩,
   ⟨0x9100, 16, 1, 1, 1, 1, 0⟩,
   ⟨0x9100, 16, 2, 2, 3, 1, 0⟩,
   ⟨0x9100, 16, 3, 3, 3, 1, 0⟩,
   ⟨0x9100, 16, 4, 4, 3, 1, 0⟩,
   ⟨0x9100, 16, 5, 5, 1, 5, 0⟩,
   ⟨0x9100, 16, 6, 6, 3, 0, 0⟩,
   ⟨0x9100, 16, 7, 7, 3, 1, 0⟩,
   ⟨0x9100, 16, 8, 8, 1, 4, 1⟩,
   ⟨0x9200, 132, 1, 1, 3, 0, 0⟩,
   ⟨0x9200, 132, 2, 2, 3, 0, 0⟩,
   ⟨0x9200, 132, 3, 3, 3, 0, 0⟩,
   ⟨0x9200, 132, 4, 4, 3, 0, 0⟩,
   ⟨0x9200, 132, 5, 5, 1, 5, 0⟩,
   ⟨0x9200, 132, 6, 6, 3, 0, 0⟩]

/-- Entries of 17_otp_keys_lifecycle.md. -/
def odRows17 : List OdRow :=
  [⟨0xC000, 1, 0, 0, 1, 0, 0⟩,
   ⟨0xC001, 1, 0, 0, 2, 0, 0⟩,
   ⟨0xC002, 1, 0, 0, 1, 2, 0⟩,
   ⟨0xC003, 1, 0, 0, 4, 0, 0⟩,
   ⟨0xC004, 1, 0, 0, 13, 2, 0⟩,
   ⟨0xC010, 1, 0, 0, 2, 1, 0⟩,
   ⟨0xC011, 1, 0, 0, 3, 0, 0⟩,
   ⟨0xC012, 1, 0, 0, 3, 2, 0⟩,
   ⟨0xC013, 1, 0, 0, 1, 0, 0⟩,
   ⟨0xC014, 1, 0, 0, 3, 0, 0⟩,
   ⟨0xC015, 1, 0, 0, 4, 0, 0⟩,
   ⟨0xC020, 16, 1, 1, 2, 0, 0⟩,
   ⟨0xC020, 16, 2, 2, 3, 0, 0⟩,
   ⟨0xC020, 16, 3, 3, 3, 0, 0⟩,
   ⟨0xC030, 1, 0, 0, 13, 2, 0⟩,
   ⟨0xC031, 1, 0, 0, 1, 2, 0⟩,
   ⟨0xC040, 1, 1, 1, 4, 0, 2⟩,
   ⟨0xC040, 1, 2, 2, 4, 0, 2⟩,
   ⟨0xC040, 1, 3, 3, 2, 0, 2⟩,
   ⟨0xC040, 1, 4, 4, 2, 0, 0⟩,
   ⟨0xC040, 1, 5, 5, 4, 0, 0⟩,
   ⟨0xC040, 1, 6, 6, 1, 0, 0⟩]

/-- Entries of 18_self_test.md. -/
def odRows18 : List OdRow :=
  [⟨0xB000, 1, 0, 0, 1, 4, 1⟩,
   ⟨0xB001, 1, 0, 0, 1, 4, 1⟩,
   ⟨0xB002, 1, 0, 0, 2, 4, 1⟩,
   ⟨0xB003, 1, 0, 0, 2, 0, 0⟩,
   ⟨0xB004, 1, 1, 1, 3, 0, 0⟩,
   ⟨0xB004, 1, 2, 2, 3, 0, 0⟩,
   ⟨0xB005, 1, 0, 0, 1, 2, 0⟩,
   ⟨0xB006, 1, 0, 0, 1, 0, 0⟩,
   ⟨0xB007, 1, 1, 1, 3, 0, 0⟩,
   ⟨0xB007, 1, 2, 2, 3, 0, 0⟩,
   ⟨0xB007, 1, 3, 3, 3, 0, 0⟩,
   ⟨0xB007, 1, 4, 4, 3, 0, 0⟩,
   ⟨0xB008, 1, 0, 0, 1, 0, 0⟩,
   ⟨0xB009, 1, 1, 4, 3, 0, 0⟩]

/-- Entries of 19_update.md. -/
def odRows19 : List OdRow :=
  [⟨0xA000, 1, 0, 0, 1, 0, 0⟩,
   ⟨0xA001, 1, 0, 0, 1, 0, 0⟩,
   ⟨0xA002, 1, 1, 5, 3, 0, 0⟩,
   ⟨0xA003, 1, 1, 1, 3, 0, 0⟩,
   ⟨0xA003, 1, 2, 2, 3, 0, 0⟩,
   ⟨0xA004, 1, 0, 0, 3, 0, 0⟩,
   ⟨0xA005, 1, 0, 0, 0, 1, 1⟩,
   ⟨0xA006, 1, 0, 0, 3, 4, 1⟩,
   ⟨0xA007, 1, 0, 0, 3, 4, 1⟩,
   ⟨0xA008, 1, 0, 0, 1, 4, 1⟩,
   ⟨0xA009, 1, 1, 1, 3, 0, 1⟩,
   ⟨0xA009, 1, 2, 2, 3, 0, 1⟩,
   ⟨0xA009, 1, 3, 3, 4, 0, 0⟩,
   ⟨0xA009, 1, 4, 4, 11, 0, 0⟩,
   ⟨0xA009, 1, 5, 5, 11, 0, 0⟩,
   ⟨0xA00A, 1, 0, 0, 2, 0, 0⟩]

/-- Entries of 20_commissioning_access.md. -/
def odRows20 : List OdRow :=
  [⟨0xD000, 1, 0, 0, 1, 2, 0⟩,
   ⟨0xD001, 1, 0, 0, 1, 0, 0⟩,
   ⟨0xD002, 1, 0, 0, 4, 0, 0⟩,
   ⟨0xD003, 1, 0, 0, 13, 2, 0⟩,
   ⟨0xD010, 1, 0, 0, 1, 1, 0⟩,
   ⟨0xD011, 1, 1, 1, 1, 1, 0⟩,
   ⟨0xD011, 1, 2, 2, 11, 1, 0⟩,
   ⟨0xD011, 1, 3, 3, 10, 1, 0⟩,
   ⟨0xD011, 1, 4, 4, 10, 1, 0⟩,
   ⟨0xD012, 1, 1, 1, 1, 1, 0⟩,
   ⟨0xD012, 1, 2, 2, 2, 1, 0⟩,
   ⟨0xD012, 1, 3, 3, 11, 1, 0⟩,
   ⟨0xD012, 1, 4, 4, 10, 1, 0⟩,
   ⟨0xD012, 1, 5, 5, 10, 1, 0⟩,
   ⟨0xD013, 1, 1, 1, 1, 1, 0⟩,
   ⟨0xD013, 1, 2, 2, 1, 1, 0⟩,
   ⟨0xD013, 1, 3, 3, 10, 1, 0⟩,
   ⟨0xD013, 1, 4, 4, 10, 1, 0⟩,
   ⟨0xD014, 1, 1, 1, 1, 1, 0⟩,
   ⟨0xD014, 1, 2, 2, 1, 1, 0⟩,
   ⟨0xD014, 1, 3, 3, 2, 1, 0⟩,
   ⟨0xD014, 1, 4, 4, 10, 1, 0⟩,
   ⟨0xD014, 1, 5, 5, 10, 1, 0⟩,
   ⟨0xD015, 1, 0, 0, 3, 0, 0⟩]

/-- Every entry. -/
def odRows : List OdRow :=
  odRows02 ++ odRows03 ++ odRows04 ++ odRows05 ++ odRows06 ++ odRows07 ++ odRows08 ++ odRows09 ++ odRows10 ++ odRows11 ++ odRows12 ++ odRows13 ++ odRows14 ++ odRows15 ++ odRows16 ++ odRows17 ++ odRows18 ++ odRows19 ++ odRows20

/-- The row that defines an entry. -/
def odFind (idx sub : Nat) : Option OdRow :=
  odRows.find? fun r => decide (r.lo ≤ idx) && decide (idx < r.lo + r.n) && decide (r.s0 ≤ sub) && decide (sub ≤ r.s1)

/-- Bytes of a value of a fixed-length type (Table 00-4, R9); 0 for STR and OCT. -/
def tyBytes (ty : Nat) : Nat :=
  if ty = 0 || ty = 1 then 1 else if ty = 2 then 2 else if ty = 3 || ty = 5 || ty = 10 || ty = 11 then 4 else if ty = 4 then 8
  else if 6 ≤ ty && ty ≤ 9 then 2 else 0

/-- The container rule of 14-bit types and the values of BOOL (R8, R9). -/
def tyOk (ty v : Nat) : Bool :=
  if ty = 0 then decide (v ≤ 1)
  else if ty = 6 || ty = 9 then decide (v < 8192) || (decide (57344 ≤ v) && decide (v < 65536))
  else if ty = 7 || ty = 8 then decide (v < 16384)
  else true

end Sys2Proof
end

