-- ==== Sys2Proof/Machine/OtpOps.lean ====
section
/-! DEFINITION. Reading the OTP array: fixed and log words, the lifecycle, key anchors, OSC_DLY, repair records
(17_otp_keys_lifecycle.md R417 to R428, 18_self_test.md R447, 12_clocks.md R319). -/

namespace Sys2Proof.Machine

/-- OTP word `n`. -/
def Otp.word (o : Otp) (n : Nat) : OtpWord := Tab.get .blank o.words n

/-- The data of a word that reads without an uncorrectable error, 0 for a blank one. -/
def OtpWord.val : OtpWord → Nat
  | .data v => v.toNat
  | .corrected v => v.toNat
  | _ => 0

/-- A log word is valid by its ECC: programmed and readable (R419). -/
def OtpWord.ok : OtpWord → Bool
  | .data _ => true
  | .corrected _ => true
  | _ => false

/-- SERIAL (Table 17-1). -/
def Otp.serial (o : Otp) : Nat := (o.word 0).val + 2 ^ 32 * (o.word 1).val

/-- Lowest blank word of `lo` to `lo + n − 1`. -/
def Otp.freeIn (o : Otp) (lo n : Nat) : Option Nat := ((List.range n).map (lo + ·)).find? fun k => o.word k == .blank

/-- Blank words of `lo` to `lo + n − 1`. -/
def Otp.blanks (o : Otp) (lo n : Nat) : Nat := (((List.range n).map (lo + ·)).filter fun k => o.word k == .blank).length

/-! ## Key slots -/

/-- The highest KGEN that a slot holds on a die. -/
def KeySlot.top (x : KeySlot) : Nat := max ((x.cur.map (·.gen)).getD 0) ((x.old.map (·.gen)).getD 0)

/-- A newer generation than the one in force stands in the other cell. -/
def KeySlot.newer (x : KeySlot) : Bool := decide ((x.cur.map (·.gen)).getD 0 < (x.old.map (·.gen)).getD 0)

/-! ## Lifecycle -/

/-- Readable lifecycle words, in order of position: (position, value). -/
def Otp.lcWords (o : Otp) : List (Nat × Nat) :=
  ((List.range 16).map (16 + ·)).filterMap fun k => if (o.word k).ok then some (k, (o.word k).val) else none

/-- Fields of a lifecycle word (Table 17-3). -/
def lcKind (v : Nat) : Nat := v / 2 ^ 28
def lcTarget (v : Nat) : Nat := v / 2 ^ 24 % 16
def lcChg (v : Nat) : Nat := v / 2 ^ 16 % 256
def lcAuth (v : Nat) : Nat := v / 2 ^ 8 % 256
def lcParam (v : Nat) : Nat := v % 256

/-- Valid state words of completed changes: a valid intent word stands at an earlier position with equal CHG, TARGET, AUTH and
PARAM (R423). -/
def Otp.lcDone (o : Otp) : List Nat :=
  (o.lcWords.filter fun x => lcKind x.2 == 5 && o.lcWords.any fun y =>
    decide (y.1 < x.1) && lcKind y.2 == 10 && y.2 % 2 ^ 28 == x.2 % 2 ^ 28).map (·.2)

/-- The change number of the last completed change (R423). -/
def Otp.lcL (o : Otp) : Nat := (o.lcDone.map lcChg).foldl max 0

/-- The state word of the last completed change. -/
def Otp.lcLast (o : Otp) : Option Nat := o.lcDone.find? fun v => lcChg v == o.lcL

/-- The lifecycle state in force: 0 BLANK, 1 TRIMMED, 2 SHIPPED, 3 RETURNED, 4 VOID (R422, R423). -/
def Otp.lc (o : Otp) : Nat := (o.lcLast.map lcTarget).getD 0

/-- The pending intent word (R423). -/
def Otp.lcPend (o : Otp) : Option Nat :=
  (o.lcWords.find? fun x => lcKind x.2 == 10 && lcChg x.2 == o.lcL + 1
    && !(o.lcWords.any fun y => decide (x.1 < y.1) && lcKind y.2 == 5 && y.2 % 2 ^ 28 == x.2 % 2 ^ 28)).map (·.2)

/-- The KEK generation in force: PARAM of the state word of the last SHIPPED change (R428). -/
def Otp.kekGen (o : Otp) : Nat :=
  let l := o.lcDone.filter fun v => lcTarget v == 2
  let top := (l.map lcChg).foldl max 0
  ((l.find? fun v => lcChg v == top).map lcParam).getD 0

/-- LC_STAT (Table 17-6). -/
def Otp.lcStat (o : Otp) : Nat :=
  (o.lcLast.map lcAuth).getD 0 % 8 + 8 * (((o.lcPend.map lcTarget).getD 0) % 8) + 64 * (o.kekGen % 4) + 256 * (o.blanks 16 16 % 32)

/-! ## Anchors, wrapping keys, OSC_DLY -/

/-- Anchor `a` is revoked (Table 17-1). -/
def Otp.revoked (o : Otp) (a : Nat) : Bool :=
  ((List.range 8).map (392 + ·)).any fun k => (o.word k).ok && bitAt (o.word k).val a && decide ((o.word k).val < 256)

/-- The SHA-256 of anchor `a`, word by word in the order they are stored. -/
def Otp.anchor (o : Otp) (a : Nat) : List Byte := (List.range 8).flatMap fun k => beBytes 4 (o.word (256 + 8 * a + k)).val

/-- Anchor `a` is programmed and not revoked. -/
def Otp.anchorOk (o : Otp) (a : Nat) : Bool := ((List.range 8).all fun k => (o.word (256 + 8 * a + k)).ok) && !o.revoked a

/-- KEK of a die and generation (R428), low word first. -/
def Otp.kek (o : Otp) (d : Die) (g : Nat) : List Byte :=
  (List.range 8).flatMap fun k => leBytes 4 (o.word (320 + 16 * g + 8 * d.n + k)).val

/-- A repair record names a spare that is not named by an earlier valid one (R447). -/
def Otp.repairs (o : Otp) (order : Nat) : List Nat :=
  ((List.range 128).map (128 + ·)).foldl (fun (l : List Nat) k =>
    let v := (o.word k).val
    let kind := v / 2 ^ 28
    let die := v / 2 ^ 25 % 8
    let present := decide (die < 2) || die == 7 || (order != 830 && decide (die ≤ 3)) || order == 884
    let key (w : Nat) : Nat := w / 2 ^ 12
    if (o.word k).ok && (kind == 6 || kind == 9 || kind == 12) && present
        && !(kind != 12 && l.any fun w => key w == key v) && !l.contains v then l ++ [v] else l) []

end Sys2Proof.Machine
end

