-- ==== Sys2Proof/Machine/OdView.lean ====
section
/-! DEFINITION. The values that reads of the object dictionary answer: entries with a typed home in State, and the register store for
the rest (14_object_dictionary.md R353, R382; the status tables of each chapter). -/

namespace Sys2Proof

/-- The type code of a block (Table 04-1). -/
def Block.code : Block → Nat
  | .estop .. => 0
  | .guard .. => 1
  | .glock .. => 2
  | .ossd .. => 3
  | .mute2 .. => 4
  | .mute4 .. => 5
  | .twohand .. => 6
  | .enable3 .. => 7
  | .modesel .. => 8
  | .reset .. => 9
  | .edm .. => 10
  | .and .. => 11
  | .or .. => 12
  | .not => 13
  | .xor .. => 14
  | .rs => 15
  | .ton .. => 16
  | .tof .. => 17
  | .tp .. => 18
  | .ctu .. => 19
  | .cmp14 .. => 20
  | .sel .. => 21
  | .zone .. => 22
  | .connIn .. => 23
  | .connOut .. => 24
  | .axis .. => 25
  | .encpair .. => 26
  | .sto .. => 27
  | .ss1 .. => 28
  | .ss2 .. => 29
  | .sos .. => 30
  | .sls .. => 31
  | .slp .. => 32
  | .sdi .. => 33
  | .sbc .. => 34
  | .sbt .. => 35
  | .ssm .. => 36
  | .rein .. => 37
  | .tension .. => 38
  | .outsafe .. => 39
  | .outstd .. => 40
  | .stdin .. => 41
  | .stdout .. => 42
  | .diag .. => 43

/-- The block has the outputs FLT and FCODE, FCODE last (R98). -/
def Block.hasFlt (b : Block) : Bool :=
  !([9, 11, 12, 13, 14, 15, 16, 17, 18, 19, 20, 22, 23, 24, 36, 40, 42, 43].contains b.code)

end Sys2Proof

namespace Sys2Proof

/-- A set of clock domains by their numbers 1 to 18 (Table 12-1). -/
def domainSet (l : List Nat) : BitVec 18 := l.foldl (fun w n => w ||| ((1 : BitVec 18) <<< (n - 1))) 0

end Sys2Proof

namespace Sys2Proof.Machine

/-- ASCII bytes. -/
def ascii (l : List Nat) : List Byte := l.map (BitVec.ofNat 8)

/-! ## Clocks, power, modes -/

/-- TICK_STAT (Table 02-3). -/
def State.tickStat (s : State) : Nat :=
  bitsOf [(0, s.a.tb.locked), (1, s.b.tb.locked), (2, s.a.tb.steer), (3, s.b.tb.steer), (4, s.holdover),
    (5, s.holdover && decide (10000000000 ≤ max s.a.tb.holdNs s.b.tb.holdNs)), (6, s.a.tb.slew), (7, s.b.tb.slew), (8, s.modes.tbMode == 1)]

/-- CLK_STAT (Table 12-8). -/
def State.clkStat (s : State) : Nat :=
  bitsOf [(0, s.clk.refA.st == .passed), (1, s.clk.refB.st == .passed), (2, s.clk.s4), (3, s.clk.lockPmu), (4, s.clk.lockA),
    (5, s.clk.lockB), (6, s.clk.lockMem), (7, s.clk.swPmu.other), (8, s.clk.forced)]

/-- MODE_STAT (Table 13-9). -/
def State.modeStat (s : State) : Nat :=
  s.modes.mode.code + bitsOf [(4, s.reg 0x2023 0 == 1), (5, s.modes.req.isSome || s.modes.wait.isSome || s.modes.pwrReq.isSome)]
    + 64 * s.modes.pwr.code + 256 * (if s.modes.mode = .boot then s.pow.bootStep else 0)

/-- Domains that are gated or stopped: failed and not restarted, or fed by a crystal that has not begun to swing. -/
def State.stopped (s : State) : BitVec 18 :=
  let off (x : Source) (b : BitVec 18) : BitVec 18 := if x.st == .off || x.st == .starting || x.st == .waiting then b else 0
  s.clk.gated ||| s.clk.down ||| off s.clk.refA (domainSet [3, 6, 7, 10, 12]) ||| off s.clk.refB (domainSet [4, 8, 9, 11])

/-- The domain runs from the other source of its switch (Table 12-6). -/
def State.onOther (s : State) (n : Nat) : Bool :=
  if n = 5 then s.clk.swPmu.other else if n = 6 || n = 7 then s.clk.swA.other else if n = 8 || n = 9 then s.clk.swB.other
  else n == 14 && s.clk.swMem.other

/-- Entries of 0x2000. -/
def State.view2 (s : State) (d : Die) (idx sub : Nat) : Nat :=
  if idx = 0x2005 && sub = 2 then (s.overs s.spanNo).length
  else if idx = 0x2006 then s.tickStat
  else if idx = 0x2008 then (if s.holdover then max s.a.tb.holdNs s.b.tb.holdNs / 1000 else 0)
  else if idx = 0x2009 then (s.die d).tb.spanNo
  else if idx = 0x200A then tspanNs s.modes.spanK
  else if idx = 0x2011 then s.clkStat
  else if idx = 0x2012 then s.clk.failed.toNat
  else if idx = 0x2014 then
    (if s.stopped.getLsbD (sub - 1) then 0 else Config.measuredKHz sub (s.onOther sub))
  else if idx = 0x2021 then s.modeStat
  else if idx = 0x2030 then s.pow.rails.toNat
  else if idx = 0x2032 then s.pow.pd.toNat
  else if idx = 0x2033 && sub = 3 then (if s.pow.recA.isNone && s.pow.recB.isNone then 0 else if s.pow.newRec then 1 else 2)
  else if idx = 0x2033 && sub = 4 then ((s.pow.recA.map (·.span)).getD ((s.pow.recB.map (·.span)).getD 0))
  else if idx = 0x2034 && sub = 2 then s.pow.fails
  else s.reg idx sub

/-- Entries of 0x3000. -/
def State.view3 (s : State) (d : Die) (idx sub : Nat) : Nat :=
  if idx = 0x3000 then s.flt.fsw.toNat
  else if idx = 0x3001 then s.flt.sec.toNat
  else if idx = 0x3005 then s.flt.diverts.toNat
  else if idx = 0x3011 then classMins.getD (sub - 1) 0
  else if 0x3030 ≤ idx && idx < 0x3037 && sub = 1 then s.dieSt (idx - 0x3030)
  else if 0x3040 ≤ idx && idx < 0x3080 && sub = 1 then
    (match s.pattern with
      | some p => (match (p.zonePos (idx - 0x3040)).map fun q => Tab.get IState.plain (s.die d).mir.img.ist q with
        | some (.zone _ _ n _) => n
        | _ => 0)
      | none => 0)
  else s.reg idx sub

/-! ## Field -/

/-- OUT_STAT (Table 07-9). -/
def State.outStat (s : State) (n : Nat) : Nat :=
  let x := s.fdie (n / 32)
  let k := n % 32
  bitsOf [(0, (s.a.chain n).img), (1, (s.b.chain n).img), (2, x.a.cmd.getLsbD k), (3, x.b.cmd.getLsbD k),
    (4, decide (12000 ≤ (s.a.outSup n).vMid)), (5, x.powered && (!x.a.token || !x.b.token)), (6, x.a.tripped.getLsbD k || x.b.tripped.getLsbD k),
    (7, x.a.hold || x.b.hold)] + 256 * lowCode (s.a.outSup n).codes + 4096 * lowCode (s.b.outSup n).codes

/-- Pattern entries of a channel. -/
def chanView (c : ChanRec) (grp sub : Nat) : Nat :=
  if grp = 0x4000 then c.mode
  else if grp = 0x4100 then
    (if sub = 1 then c.kind else if sub = 2 then c.deb else if sub = 3 then c.tpSrc else if sub = 4 then c.ossdPw else c.ossdTmax)
  else if sub = 1 then c.opW else if sub = 2 then c.opPhase else if sub = 3 then c.rbSettle else if sub = 4 then c.loadL
  else if sub = 5 then c.loadI else if sub = 6 then c.loadOffs else if sub = 7 then c.olMin else c.holdPermit

/-- Entries of 0x4000. -/
def State.view4 (s : State) (idx sub : Nat) : Nat :=
  let chan (n : Nat) : ChanRec := (s.pat.active.map fun p => p.chan n).getD (ChanRec.unused n)
  if 0x4000 ≤ idx && idx < 0x4080 then chanView (chan (idx - 0x4000)) 0x4000 sub
  else if idx = 0x4091 then (s.pat.active.map fun p => p.map.opPeriod).getD 10000000
  else if 0x4100 ≤ idx && idx < 0x4184 then chanView (chan (idx - 0x4100)) 0x4100 sub
  else if 0x4200 ≤ idx && idx < 0x4220 then
    (match (s.pat.active.bind fun p => p.src (idx - 0x4200)) with
      | some r => if sub = 1 then r.chan else if sub = 2 then r.width else r.phase
      | none => if sub = 1 then 255 else if sub = 2 then 200 else 10)
  else if idx = 0x4220 then (s.pat.active.map fun p => p.map.tpPeriod).getD 20000
  else if 0x4300 ≤ idx && idx < 0x4384 then
    (if sub = 2 then (s.a.chain (idx - 0x4300)).v.lastLow else if sub = 3 then (s.b.chain (idx - 0x4300)).v.lastLow
      else if sub = 5 then (s.a.outSup (idx - 0x4300)).vBall else s.reg idx sub)
  else if 0x4500 ≤ idx && idx < 0x4580 then chanView (chan (idx - 0x4500)) 0x4500 sub
  else if 0x4600 ≤ idx && idx < 0x4680 then
    (if sub = 1 then s.outStat (idx - 0x4600) else if sub = 2 then (s.a.outSup (idx - 0x4600)).ma
      else if sub = 3 then (s.a.outSup (idx - 0x4600)).vMid else s.reg idx sub)
  else if 0x4700 ≤ idx && idx < 0x4704 then
    (if sub = 3 then (s.pat.active.map fun p => p.map.vfldMax.getD (idx - 0x4700) 30000).getD 30000
      else if sub = 8 then (s.fdie (idx - 0x4700)).causes else s.reg idx sub)
  else s.reg idx sub

/-! ## Pattern and blocks -/

/-- STITCH_STAT (Table 05-8). -/
def State.stitchStat (s : State) : Nat :=
  s.a.link.lanes % 16 + 16 * (s.b.link.lanes % 16)
    + bitsOf [(8, s.a.link.lanes % 16 != 15), (9, s.b.link.lanes % 16 != 15), (10, s.reg 0x5013 0 == 1)]

/-- The window of the instance that a seat has selected (R132). -/
def State.instView (s : State) (p : Pattern) (d : Die) (id sub : Nat) : Nat :=
  match p.insts.zipIdx.find? fun (x : Inst × Nat) => x.1.id == id with
  | none => 0
  | some (i, q) =>
    let m := (s.die d).mir.img
    let out (k : Nat) : Int := ((i.outs[k]?).bind fun v => m.rd p d v).getD 0
    let st := Tab.get IState.plain m.ist q
    let nOut := i.outs.length
    if sub = 1 then i.block.code
    else if sub = 2 then (if i.block.isZone then (out 0).toNat else st.code)
    else if sub = 3 then (if nOut < 2 then 0 else if i.block.hasFlt then container (out (nOut - 1)) else 0)
    else if sub = 4 then st.timerCount
    else if sub = 5 then (List.range 4).foldl (fun w k => w + container (out k) * 65536 ^ k) 0
    else Tab.get 0 (s.die d).eng.rejs q

/-- Entries of 0x5000. DESIGN CHOICE (log 112): STDIN_AGE reads 0 before the first accepted write, the default of Table 04-12; the age
that R128 counts from the first span in RUN is the block's. -/
def State.view5 (s : State) (d : Die) (sel idx sub : Nat) : Nat :=
  let hdr (f : PatHdr → Nat) : Nat := (s.pat.active.map fun p => f p.hdr).getD 0
  if idx = 0x5000 then s.pat.state
  else if idx = 0x5001 then (s.pat.active.map fun p => if sub = 1 then p.sig32 else p.sig64).getD 0
  else if idx = 0x5002 then (s.pat.cand.map fun p => if sub = 1 then p.sig32 else p.sig64).getD 0
  else if idx = 0x5003 then s.pat.loadErr
  else if idx = 0x5007 then (if sub = 1 then hdr (·.wA) + 2 ^ 32 * hdr (·.lA) else hdr (·.wB) + 2 ^ 32 * hdr (·.lB))
  else if idx = 0x5008 then (if sub = 1 then s.a.eng.laneMap else s.b.eng.laneMap)
  else if idx = 0x5009 && sub = 1 then s.a.eng.peak
  else if idx = 0x5009 && sub = 2 then s.b.eng.peak
  else if idx = 0x5012 then (s.pat.active.map fun p => p.vc2 s.fdies.length).getD 0
  else if idx = 0x5013 then s.stitchStat
  else if 0x5020 ≤ idx && idx < 0x504C then
    let c := Config.libCost s.libVer (if sub ≤ 2 then .a else .b) (idx - 0x5020)
    if sub = 1 || sub = 3 then c.1 else c.2
  else if 0x5100 ≤ idx && idx < 0x5140 then
    (match s.pattern with
      | none => if sub = 3 || sub = 4 then s.reg idx sub else 0
      | some p =>
        let z := idx - 0x5100
        let r := p.zones.find? fun x => x.zone == z
        if sub = 1 then (s.die d).mir.img.zoneSt p d z else if sub = 2 then (r.map (·.seat)).getD 0
        else if sub = 5 then (r.map (·.startMode)).getD 0 else s.reg idx sub)
  else if 0x5200 ≤ idx && idx < 0x5300 then
    let l := Tab.get [] s.stdin (idx - 0x5200)
    let last := (l.filter fun (y : Int × Nat) => decide (y.2 ≤ (s.die d).tb.spanNo)).getLast?
    (if sub = 1 then (last.map fun y => container y.1).getD 0
      else match last with
        | some y => (s.die d).tb.spanNo - y.2
        | none => 0)
  else if idx = 0x5400 then
    (if sub = 0 then sel else match s.pattern with
      | some p => s.instView p d sel sub
      | none => 0)
  else s.reg idx sub

/-! ## Axes, rein groups -/

/-- A value of the mirror of die `d`. -/
def State.mirOut (s : State) (p : Pattern) (d : Die) (q k : Nat) : Int :=
  ((((p.insts[q]?).bind fun i => i.outs[k]?).bind fun v => (s.die d).mir.img.rd p d v)).getD 0

/-- AX_STAT (Table 08-6). -/
def State.axStat (s : State) (p : Pattern) (d : Die) (a : Nat) : Nat :=
  let l := s.die d
  let out (f : Block → Bool) (k : Nat) : Bool := ((p.blkPos a f).map fun q => s.mirOut p d q k == 1).getD false
  let st (f : Block → Bool) : IState := ((p.blkPos a f).map fun q => Tab.get IState.plain l.mir.img.ist q).getD .plain
  let ax (k : Nat) : Bool := ((p.axisPos a).map fun q => s.mirOut p d q k == 1).getD false
  let x := Tab.get AxSnap.empty l.cur.axes a
  let slsIn := (p.blksPos a fun b => match b with
    | .sls .. => true
    | _ => false).any fun q => match Tab.get IState.plain l.mir.img.ist q with
      | .sls _ lim _ _ => lim != noLimit
      | _ => false
  let tested := match st Block.isSbt with
    | .sbt _ t _ _ _ _ _ _ => t
    | _ => false
  let flt := p.insts.zipIdx.any fun (y : Inst × Nat) => p.axisOf y.1 == some a && (match fltIdx y.1.block with
    | some k => s.mirOut p d y.2 k == 1
    | none => false)
  let held := sosSt (st Block.isSos) == 1
  let fn := if rampSt (st Block.isSs1) = 1 then 1 else if rampSt (st Block.isSs2) = 1 then 2 else if (p.axisPos a).isSome && !ax 0 then 4 else if held then 3 else 0
  let enc := (p.insts.zipIdx.find? fun (y : Inst × Nat) => match y.1.block with
    | .encpair b _ _ => b == a
    | _ => false).map fun y => s.mirOut p d y.2 0 == 1
  fn + bitsOf [(3, x.valid1), (4, x.valid2), (5, (Tab.get PosHist.init l.hist (2 * a)).chain), (6, (Tab.get PosHist.init l.hist (2 * a + 1)).chain),
    (7, x.known), (8, enc.getD false), (9, tested), (10, out Block.isSbc 0), (11, slsIn), (12, held), (13, ax 0), (14, ax 1), (15, flt)]

/-- Entries of 0x6000. -/
def State.view6 (s : State) (d : Die) (idx sub : Nat) : Nat :=
  match s.pattern with
  | none => s.reg idx sub
  | some p =>
    let l := s.die d
    if idx < 0x6400 then
      let a := idx - 0x6000
      let x := Tab.get AxSnap.empty l.cur.axes a
      let r := p.axes.find? fun y => y.axis == a
      if sub = 1 then s.axStat p d a else if sub = 2 then x.p1 else if sub = 3 then x.p2
      else if sub = 4 then toS32 (x.d1.getD 0) else if sub = 5 then toS32 (x.d2.getD 0)
      else if sub = 6 then (if r.isSome then (p.axPar a).win else 3) else if sub = 7 then (if r.isSome then (p.axPar a).lag else 1)
      else if sub = 8 then (r.map fun y => y.str1 % 4096 + 4096 * (y.slot1 % 16) + 65536 * (y.str2 % 4096) + 2 ^ 28 * (y.slot2 % 16)).getD 0
      else s.reg idx sub
    else if idx < 0x6C00 then
      let c := (p.streamRecs.find? fun y => y.2 == idx - 0x6400).map (·.1)
      if sub = 1 then (c.map (·.connId)).getD 0 else if sub = 2 then (c.map (·.slots)).getD 0
      else if sub = 3 then (c.map (·.kfPhase)).getD 0 else s.reg idx sub
    else if idx < 0x6D00 then
      let r := p.reinGrp (idx - 0x6C00)
      match r with
      | none => if sub = 1 then 2 else s.reg idx sub
      | some (q, par) =>
        let st := Tab.get IState.plain l.mir.img.ist q
        let e := { s.env d with com := l.mir.img, work := l.mir.img, done := [] }
        let cause := match st with
          | .rein _ c _ _ _ _ => c
          | _ => 0
        let stn := reinSt st
        let known := (p.axes.filter fun y => y.axis == par.refAx || par.fol.any fun f => f.axis == y.axis).all fun y =>
          (Tab.get AxSnap.empty l.cur.axes y.axis).known
        if sub = 1 then stn.1 % 8 + 16 * cause + bitsOf [(3, known), (8, s.reg idx 0 == 1),
          (9, stn.1 == 1 && reinNext st != (if e.dcpl p q then par.dcMask else 0)), (10, e.tension p par.group != 0)]
        else if sub = 2 then par.refAx else if sub = 3 then par.fol.length else if sub = 4 then reinNext st else s.reg idx sub
    else if idx < 0x6E00 then
      match (p.insts.zipIdx.filter fun (y : Inst × Nat) => match y.1.block with
        | .tension .. => true
        | _ => false)[idx - 0x6D00]? with
      | none => 0
      | some (i, q) =>
        match i.block with
        | .tension g _ _ _ =>
          let e := { s.env d with com := l.mir.img, work := l.mir.img, done := [] }
          let t : Int := (e.port p i 0).v
          let tv : Bool := decide ((e.port p i 1).v = (1 : Int))
          let tst := s.reg (0x6C00 + g) 0 == 1
          (if sub = 1 then g else if sub = 2 then container t else bitsOf [(0, s.mirOut p d q 0 == 1), (1, tst), (2, tv)] : Nat)
        | _ => 0
    else s.reg idx sub

/-! ## Networks -/

/-- NET_STAT (Table 10-9). -/
def State.netStat (s : State) (d : Die) : Nat :=
  let n := (s.die d).net
  bitsOf [(0, n.p0.replay || n.p1.replay), (1, n.p0.link), (2, n.p1.link), (3, n.p0.gigabit), (4, n.p1.gigabit), (5, n.p0.asCapable),
    (6, n.p1.asCapable), (7, (s.die d).tb.locked), (8, n.p0.slave), (9, n.p1.slave)]

/-- CI_STAT (Table 10-10). -/
def State.ciStat (s : State) (p : Pattern) (d : Die) (q : Nat) (par : ConnPar) : Nat :=
  let l := s.die d
  let st := Tab.get IState.plain l.mir.img.ist q
  let w := match st with
    | .connIn a _ ln _ _ _ => (a, ln)
    | _ => (false, none)
  let spent := match w.2 with
    | some k => decide (nSpans (tspanNs s.modes.spanK) par.loneT ≤ k + 1)
    | none => false
  bitsOf [(0, (Tab.get InConn.init s.a.ins q).seenLast), (1, (Tab.get InConn.init s.b.ins q).seenLast), (8, s.mirOut p d q 0 == 1), (9, s.mirOut p d q 1 == 1),
    (10, spent), (11, w.1), (12, par.auth == 1 && s.keys.auth != 0)] + 16 * ((Tab.get InConn.init l.ins q).lastChk % 16)

/-- Entries of 0x7000. -/
def State.view7 (s : State) (d : Die) (idx sub : Nat) : Nat :=
  if idx = 0x7008 then s.netStat (if sub = 1 then .a else .b)
  else if idx = 0x700A then s.keys.bootEpoch
  else if idx = 0x700B then (s.keys.era.map (·.era)).getD 0
  else if idx = 0x700C then s.keys.auth
  else match s.pattern with
    | none => s.reg idx sub
    | some p =>
      if 0x7100 ≤ idx && idx < 0x7900 then
        match (p.insts.zipIdx.filter fun (y : Inst × Nat) => y.1.block.isConnIn)[idx - 0x7100]? with
        | some (i, q) =>
          match i.block, Tab.get IState.plain (s.die d).mir.img.ist q with
          | .connIn par, st =>
            let t := match st with
              | .connIn _ _ _ b e sq => (b, e, sq)
              | _ => (0, 0, 0)
            if sub = 1 then s.ciStat p d q par else if sub = 2 then t.2.2 else if sub = 3 then t.1 * 65536 + t.2.1 else s.reg idx sub
          | _, _ => s.reg idx sub
        | none => s.reg idx sub
      else if 0x7900 ≤ idx && idx < 0x7B00 then
        match (p.insts.zipIdx.filter fun (y : Inst × Nat) => y.1.block.isConnOut)[idx - 0x7900]? with
        | some (i, q) =>
          match i.block, Tab.get IState.plain (s.die d).mir.img.ist q with
          | .connOut par, st =>
            let t := match st with
              | .connOut e sq => (e, sq)
              | _ => (0, 0)
            if sub = 1 then bitsOf [(0, s.mirOut p d q 0 == 1), (1, par.auth == 1 && s.keys.auth != 0), (2, t.1 == 65535 && (t.2 == 0 || t.2 + 1 == 2 ^ 31))]
            else if sub = 2 then t.1 else if sub = 3 then t.2 else s.reg idx sub
          | _, _ => s.reg idx sub
        | none => s.reg idx sub
      else s.reg idx sub

/-! ## Rings, CRC, timers -/

/-- Ring numbers of the order code (Table 15-1). -/
def ringCount (order : Nat) : Nat := if order = 830 then 4096 else 1048576

/-- Bytes of one ring-entry region (Table 15-1). -/
def ringRegion (order : Nat) : Nat := if order = 830 then 786432 else 805306368

/-- Rings that a seat holds. -/
def Rings.held (rs : Rings) (seat : Nat) : List Ring := (rs.desc.map (·.2)).filter fun r => r.owner == seat && r.purpose != 4

/-- KiB that rings take. -/
def ringsKib (l : List Ring) : Nat := ceilDiv ((l.map Ring.bytes).foldl (· + ·) 0) 1024

/-- Entries of 0x8000; `sel` is RING_SEL and `last` RING_LAST of the reading seat. -/
def State.view8 (s : State) (d : Die) (seat sel last idx sub : Nat) : Nat :=
  let j := (s.die d).jrn
  if idx = 0x8000 && sub = 1 then (s.pat.active.map fun p => ((tkLaid s.order p).map (·.1)).foldl max 0).getD 0
  else if idx = 0x8000 && sub = 2 then ringCount s.order - s.rings.desc.length
  else if idx = 0x8000 && sub = 3 then 
    (if s.order = 830 then 2 else 1) * ringRegion s.order / 1024 - ringsKib ((s.rings.desc.filter fun x => s.order != 830 || x.1 != 0).map (·.2))
  else if idx = 0x8100 && sub = 1 then sel
  else if idx = 0x8100 && sub = 5 then (s.rings.ring sel).level
  else if idx = 0x8100 && sub = 6 then (s.rings.ring sel).drops
  else if idx = 0x8102 then last
  else if idx = 0x8103 && sub = 1 then (s.rings.held seat).length
  else if idx = 0x8103 && sub = 2 then ringsKib (s.rings.held seat)
  else if idx = 0x8200 && sub = 2 then j.head % jhalf s.order
  else if idx = 0x8200 && sub = 3 then j.oldest
  else if idx = 0x8200 && sub = 4 then jblk s.order
  else s.reg idx sub

/-- Entries of 0x9000. -/
def State.view9 (s : State) (idx sub : Nat) : Nat :=
  if 0x9000 ≤ idx && idx < 0x9010 then
    let c := Tab.get CrcCh.init s.crc (idx - 0x9000)
    let en := s.reg idx 1 % 2 == 1
    if sub = 1 then s.reg idx 1 % 2
    else if sub = 12 then
      s.reg idx 12 / 8 * 8 + bitsOf [(0, en && (s.rings.ring (s.reg idx 8)).level == 0), (1, c.busy), (2, c.failed)]
    else if sub = 14 then c.acc
    else s.reg idx sub
  else if 0x9100 ≤ idx && idx < 0x9110 then
    let t := Tab.get Tmr.init s.tmr (idx - 0x9100)
    if sub = 1 then bitsOf [(0, t.en), (1, t.src), (2, t.period), (3, t.ring)]
    else if sub = 2 then t.count else if sub = 3 then t.cmp else if sub = 4 then t.next
    else if sub = 5 then bitsOf [(0, t.isMatch), (1, t.late), (2, t.double), (3, t.nextPend)]
    else if sub = 6 then t.matches_ else s.reg idx sub
  else if 0x9200 ≤ idx && idx < 0x9284 then
    let n := idx - 0x9200
    let ca := (Tab.get ChanSnap.off s.a.cur.chans n).cap
    let cb := (Tab.get ChanSnap.off s.b.cur.chans n).cap
    if sub = 1 then ca.rise else if sub = 2 then ca.fall else if sub = 3 then cb.rise else if sub = 4 then cb.fall
    else s.reg idx sub
  else s.reg idx sub

/-! ## Update, self-test, OTP, keys, test access -/

/-- Bytes staged. -/
def Update.rcvd (u : Update) : Nat := (u.have_.map (·.2)).foldl (· + ·) 0

/-- A key slot is in use: the Pattern, a seat or the service port refers to it. -/
def State.keyUsed (s : State) (k : Nat) : Bool :=
  ((s.pat.active.map fun p => p.conns.any fun c => c.key == k).getD false)
    || ((List.range 8).any fun z => s.reg (0x1100 + z) 3 == k) || s.reg 0xA008 0 == k

/-- The 32-bit check value of a cell (R430). -/
def KeyCell.check (c : KeyCell) : Nat := beNat ((Config.aesCmac c.key (ascii [0x4B, 0x43, 0x48, 0x4B])).take 4)

/-- LB_PENDING of F-die `f` (R440): channels of mode 1 or 4 whose loop-back waits for the next stay in SAFE or CONFIGURE. -/
def State.lbPending (s : State) (f : Nat) : Nat :=
  if s.modes.mode = .safe || s.modes.mode = .configure then 0
  else (List.range 32).foldl (fun w k =>
    let m := Tab.get 0 (s.fdie f).modes k
    if (m == 1 || m == 4) && (s.st.leftA.contains (stItem 7 (32 * f + k))) then w + 2 ^ k else w) 0

/-- Entries of 0xA000 to 0xDFFF. -/
def State.viewA (s : State) (idx sub : Nat) : Nat :=
  if idx = 0xA000 then s.upd.state
  else if idx = 0xA001 then s.upd.why
  else if idx = 0xA003 && sub = 2 then (if s.upd.manifest.isEmpty then 0 else leAt s.upd.manifest 8 4)
  else if idx = 0xA004 then s.upd.rcvd
  else if idx = 0xB003 then
    bitsOf [(0, s.st.slice), (1, s.st.token == some .a), (2, s.st.token == some .b), (3, !s.slicesOn), (4, s.a.eng.spareLane.isNone),
      (5, s.b.eng.spareLane.isNone), (6, s.st.late), (7, s.pow.scan)]
  else if idx = 0xB006 then s.st.queue.length
  else if idx = 0xB009 then s.lbPending (sub - 1)
  else if idx = 0xB008 then s.otp.blanks 128 128
  else if idx = 0xC000 then s.otp.lc
  else if idx = 0xC001 then s.otp.lcStat
  else if idx = 0xC013 then s.otp.stat
  else if idx = 0xC015 then
    (if (s.otp.word 12) == .spent || (s.otp.word 13) == .spent then 2 ^ 64 - 1 else (s.otp.word 12).val + 2 ^ 32 * (s.otp.word 13).val)
  else if 0xC020 ≤ idx && idx < 0xC030 then
    let k := Tab.get KeySlot.init s.keys.a (idx - 0xC020)
    let kb := Tab.get KeySlot.init s.keys.b (idx - 0xC020)
    if sub = 1 then ((k.cur.map (·.typ)).getD 0) % 16 * 256 + bitsOf [(0, s.keyUsed (idx - 0xC020)), (1, k.pending),
      (2, k.newer || kb.newer), (3, k.mismatch)]
    else if s.keys.wiped then 0
    else if sub = 2 then (k.cur.map (·.gen)).getD 0 else ((k.cur.filter fun c => c.typ != 0).map KeyCell.check).getD 0
  else if idx = 0xC040 then
    (if sub = 1 then s.bkp.bootCnt else if sub = 2 then s.bkp.eraBase else if sub = 3 then s.bkp.eraSeen
      else if sub = 4 then (s.keys.era.map (·.keyset)).getD 0 else if sub = 5 then s.rtcMs
      else bitsOf [(0, s.reg 0xC040 7 == 1), (1, s.reg 0xC040 8 == 1), (2, s.bkp.rtcOk)])
  else if idx = 0xD001 then s.tst.state
  else s.reg idx sub

/-! ## Identity and seats -/

/-- A seat. -/
def Bridle.seat (b : Bridle) (k : Nat) : Seat := Tab.get Seat.init b.seats k

/-- Change a seat. -/
def State.updSeat (s : State) (k : Nat) (f : Seat → Seat) : State := { s with br := { s.br with seats := Tab.upd Seat.init s.br.seats k f } }

/-- The row of an entry: of the tables, or of a diagnostic mirror of the snapshot slots, read only (R81, log 42). -/
def odRowOf (idx sub : Nat) : Option OdRow :=
  if decide (0xF000 ≤ idx) then ((Config.mirrorType idx sub).filter fun t => decide (t < 12)).map fun t => ⟨idx, 1, sub, sub, t, 0, 0⟩ else odFind idx sub

/-- Entries of 0x1000; window entries are those of the reading seat. -/
def State.view1 (s : State) (seat idx sub : Nat) : Nat :=
  if idx = 0x1000 && sub = 4 then s.otp.serial
  else if idx = 0x1000 && sub = 5 then s.reg 0xA002 1
  else if idx = 0x1000 && sub = 6 then s.reg 0xA002 2
  else if idx = 0x1000 && sub = 7 then s.libVer
  else if idx = 0x1001 then
    let sel := Tab.get 0 (s.br.seat seat).win 0x100101
    let r := odRowOf (sel / 256 % 65536) (sel % 256)
    if sub = 1 then sel else if sub = 2 then (r.map (·.ty)).getD 0 else if sub = 3 then (r.map (·.acc)).getD 0 else (r.map (·.pers)).getD 0
  else if 0x1100 ≤ idx && idx < 0x1108 && sub = 11 then
    let x := s.br.seat (idx - 0x1100)
    bitsOf [(0, x.sess.isSome), (1, x.pass)]
  else if 0x1100 ≤ idx && idx < 0x1108 && sub = 12 then (s.br.subs.filter fun x => x.seat == idx - 0x1100).length
  else s.reg idx sub

/-- The number that a read of an entry of a fixed-length type answers on die `d` to `seat`. -/
def State.view (s : State) (d : Die) (seat idx sub : Nat) : Nat :=
  let w := (s.br.seat seat).win
  match idx / 4096 with
  | 1 => s.view1 seat idx sub
  | 2 => s.view2 d idx sub
  | 3 => s.view3 d idx sub
  | 4 => s.view4 idx sub
  | 5 => s.view5 d (Tab.get 0 w 0x540000) idx sub
  | 6 => s.view6 d idx sub
  | 7 => s.view7 d idx sub
  | 8 => s.view8 d seat (Tab.get 0 w 0x810001) (s.br.seat seat).ringLast idx sub
  | 9 => s.view9 idx sub
  | 15 => Config.mirrorValue (s.die d).snap idx sub
  | _ => if idx = 0xC010 then Tab.get 0 w 0xC01000 else if idx = 0xC011 then (s.otp.word (Tab.get 0 w 0xC01000)).val else s.viewA idx sub

/-- Bits [127:16] of a ring descriptor (Table 15-2). -/
def Ring.hi (r : Ring) : Nat :=
  ((((((((((r.base % 2 ^ 24) * 16 + r.sz % 16) * 4 + r.esize % 4) * 4 + r.policy % 4) * 16 + r.owner % 16) * 2 + r.home % 2) * 2 + b2n r.alloc) * 2
    + b2n r.locked) * 2 * 256 + r.purpose % 256) * 2 ^ 32 + r.head % 2 ^ 32) * 2 ^ 32 + r.tail % 2 ^ 32

/-- RING_DESC: 16 bytes, little-endian. -/
def Ring.descBytes (r : Ring) : List Byte := leBytes 16 (r.hi * 65536 + crc16 (beBytes 14 r.hi))

/-- The octets that a read of a STR or OCT entry answers. -/
def State.viewBytes (s : State) (_d : Die) (seat idx sub : Nat) : List Byte :=
  if idx = 0x1000 && sub = 1 then ascii [0x4D, 0x6F, 0x61, 0x64, 0x75, 0x6E]
  else if idx = 0x1000 && sub = 2 then
    ascii [0x54, 0x52, 0x4B, 0x2D, 0x56, 0x38] ++ (if s.order = 830 then ascii [0x33, 0x30] else if s.order = 851 then ascii [0x35, 0x31]
      else ascii [0x38, 0x34])
  else if idx = 0x1000 && sub = 3 then
    let v := (s.otp.word 3).val
    [BitVec.ofNat 8 (v / 256), BitVec.ofNat 8 (0x30 + v % 256 % 10)]
  else if idx = 0x1001 && sub = 5 then
    let sel := Tab.get 0 (s.br.seat seat).win 0x100101
    match odFind (sel / 256 % 65536) (sel % 256) with
    | some r => leBytes (tyBytes r.ty) (odDflt (sel % 2 ^ 24))
    | none => []
  else if idx = 0x1022 || (0x1100 ≤ idx && idx < 0x1108) then leBytes 16 (s.reg idx sub)
  else if idx = 0x8100 && sub = 2 then (s.rings.ring (Tab.get 0 (s.br.seat seat).win 0x810001)).descBytes
  else []

end Sys2Proof.Machine
end

