-- ==== Sys2Proof/Machine/Commit.lean ====
section
/-! DEFINITION. COMMIT_POINT (02_span_timing.md R54 to R62, 05_channel_diversity.md R150 to R157, 11_fault_handling.md R296, R297,
15_rings_journal.md R397): commit, overrun, disagreement, and what a commit carries out. -/

namespace Sys2Proof

/-- The units of R382, as (kind, number): 0 zones, 1 instances, 2 axes, 3 rein groups, 4 connections, 5 field channels, 6 F-dies. -/
def Pattern.units (p : Pattern) (fdies : List Nat) : List (Nat × Nat) :=
  p.zones.map (fun z => (0, z.zone)) ++ p.insts.map (fun i => (1, i.id)) ++ p.axes.map (fun a => (2, a.axis))
    ++ p.reins.map (fun r => (3, r.group)) ++ p.conns.map (fun c => (4, c.connId)) ++ p.chans.map (fun c => (5, c.n)) ++ fdies.map (fun f => (6, f))

/-- Zones of the instances of some groups. -/
def Pattern.zonesOfGroups (p : Pattern) (gs : List Nat) : List Nat := p.zonesOf fun i => gs.contains i.group

/-- The rein group of a block. -/
def Block.group : Block → Nat
  | .rein r => r.group
  | _ => 0

end Sys2Proof

namespace Sys2Proof.Machine

/-! ## What a commit carries out -/

/-- Add to a saturating 32-bit counter once for the device (log 19). -/
def State.addOnce (s : State) (d : Die) (n idx sub : Nat) : State :=
  if d = s.srv then s.setReg idx sub (min (s.reg idx sub + n) (2 ^ 32 - 1)) else s

/-- Write an entry once for the device (log 19). -/
def State.setOnce (s : State) (d : Die) (idx sub v : Nat) : State := if d = s.srv then s.setReg idx sub v else s

/-- Streams whose loss puts an AXIS into FAULT with FCODE 19 in a committed image, each once (R232). -/
def lostStreams (p : Pattern) (m : Img) : List Nat :=
  let of_ (x : Nat × BEv) : List Nat := match (p.insts[x.1]?).map Inst.block, x.2, Tab.get IState.plain m.ist x.1 with
    | some (.axis par), .fault 19, .axis _ l1 l2 _ => (if 64 ≤ l1 then [par.str1] else []) ++ if 64 ≤ l2 then [par.str2] else []
    | _, _, _ => []
  (m.ev.flatMap of_).foldl (fun (t : List Nat) k => if t.contains k then t else t ++ [k]) []

/-- Carry out one event of a committed image (R98, R131, R254, R257, R304, R397). -/
def State.commitEv (p : Pattern) (d : Die) (s : State) (x : Nat × BEv) : State :=
  match p.insts[x.1]? with
  | none => s
  | some i => match x.2 with
    | .fault c => s.event d 2 (leBytes 2 i.id ++ [BitVec.ofNat 8 c])
    | .lamp => s.event d 2 (leBytes 2 i.id ++ [14])
    | .rej => s.updDie d fun l => { l with eng := { l.eng with rejs := Tab.upd 0 l.eng.rejs x.1 (satInc 32) } }
    | .diag vals => s.event d 4 (leBytes 2 i.id ++ leBytes 8 (s.die d).tb.spanNo ++ vals.flatMap fun v => leBytes 2 (container v))
    | .gstop _ => s.addOnce d 1 (0x6C00 + i.block.group) 8
    | .escal _ => s.addOnce d 1 (0x6C00 + i.block.group) 9
    | .zoneReset => if d = s.srv then { s with modes := { s.modes with lockouts := Tab.set false s.modes.lockouts i.zone false } } else s
    | .zoneRefused why =>
      ((s.addOnce d 1 (0x5100 + i.zone) 4).setOnce d (0x3040 + i.zone) 3 why).event d 8 [BitVec.ofNat 8 i.zone, BitVec.ofNat 8 why]
    | .zoneCause inst => s.setOnce d (0x5100 + i.zone) 3 inst
    | .send => s

/-- A zone transition that took effect (R83): its event, and its lock-out on the way into LOCKED (R85). -/
def State.zoneMove (p : Pattern) (d : Die) (old new : Img) (s : State) (z : ZoneRec) : State :=
  let a := old.zoneSt p d z.zone
  let b := new.zoneSt p d z.zone
  if a = b then s
  else
    let s1 := s.event d 5 [BitVec.ofNat 8 z.zone, BitVec.ofNat 8 b]
    if b = 0 && d = s.srv then { s1 with modes := { s1.modes with lockouts := Tab.set false s1.modes.lockouts z.zone true } } else s1

/-- The coupling law of a REIN is tested in this span (R256). -/
def EvalEnv.reinTested (e : EvalEnv) (p : Pattern) (q : Nat) (i : Inst) (r : ReinPar) : Bool :=
  let x := e.reinIn p q i r
  let cf := coupledFols (e.dcSet p q r) x.fols
  let st := (reinSt (e.comSt p q)).1
  let anyTq := x.ref.enC || cf.any fun (f : Follower × Member) => f.2.enC
  st == 1 || (st == 0 && r.gstop == 1 && groupStopCause x cf != 0) || (st == 0 && r.mon == 1 && anyTq)

/-- RG_DEV, RG_MARGIN and RG_WORST_AX of one follower in a tested span. -/
def State.reinDev (tspan g : Nat) (ref : Member) (s : State) (x : (Follower × Member) × Nat) : State :=
  let f := x.1.1
  let m := x.1.2
  match couplingMargin tspan f m ref, m.snap.d1, ref.snap.d1 with
  | some mg, some a, some b =>
    let s1 := s.setReg (0x6E00 + g) (x.2 + 1) (toS32 (couplingDev tspan m.par f a b).1)
    if decide (mg < s32Of (s1.reg (0x6C00 + g) 10)) then (s1.setReg (0x6C00 + g) 10 (toS32 mg)).setReg (0x6C00 + g) 11 (x.2 + 1) else s1
  | _, _, _ => s

/-- What the commit of a REIN carries out: whether the law was tested in the span, which register 0x6C00+g:00 keeps for MON_ON, the law's figures, and a change of its decoupled set (R256, R261). -/
def State.reinCommit (p : Pattern) (d : Die) (e : EvalEnv) (m : Img) (s : State) (y : Inst × Nat) : State :=
  match y.1.block with
  | .rein r =>
    if d != s.srv then s
    else
      let dc := e.dcSet p y.2 r
      let x := e.reinIn p y.2 y.1 r
      let tested := e.reinTested p y.2 y.1 r
      let s0 := s.setReg (0x6C00 + r.group) 0 (b2n tested)
      let s1 := if !tested then s0
        else (x.fols.zipIdx.filter fun (k : (Follower × Member) × Nat) => !bitAt dc (k.2 + 1)).foldl (State.reinDev e.c.tspan r.group x.ref) s0
      let new := reinNext (Tab.get IState.plain m.ist y.2)
      let old := if e.c.first then new else reinNext (e.comSt p y.2)
      if new = old then s1 else s1.dcplChange r.group new old e.c.span
  | _ => s

/-- An accepted tuple becomes the last accepted one (R279), and a watchdog trip counts (R285). -/
def State.connCommit (p : Pattern) (d : Die) (old new : Img) (s : State) (x : Inst × Nat) : State :=
  match x.1.block, Tab.get IState.plain new.ist x.2 with
  | .connIn _, .connIn _ _ _ b e sq =>
    let l := s.die d
    let took (t : Nat) : State := s.setDie d { l with ins := Tab.upd InConn.init l.ins x.2 fun c =>
      { c with last := t, held := c.held.filter fun y => decide (t < y.tuple) } }
    match Tab.get ConnSnap.none l.cur.conns x.2 with
    | .pair .. => took (tupleNum b e sq)
    | .lone .. => took (tupleNum b e sq)
    | .none =>
      let v (m : Img) : Bool := (m.rd p d (x.1.outs.headD 0)).getD 0 == 1
      if v old && !v new then s.addOnce d 1 (0x7100 + p.inNo x.2) 0x0E else s
    | .mismatch => s
  | _, _ => s

/-- STDOUT values of a committed image (R130). -/
def State.stdoutCommit (p : Pattern) (d : Die) (e : EvalEnv) (s : State) (x : Inst × Nat) : State :=
  match x.1.block with
  | .stdout slot => if d != s.srv then s else
      (List.range x.1.nIn).foldl (fun s k => s.setReg (0x5300 + slot) (k + 1) (container (e.port p x.1 k).v)) s
  | _ => s

/-- Brake outputs that pulse alternate their switch (R202, R243). -/
def altNext (p : Pattern) (d : Die) (com : Img) (tspan span : Nat) (t : Tab Bool) : Tab Bool :=
  p.insts.foldl (fun (t : Tab Bool) i => match i.block with
    | .sbc _ n _ _ _ => if (com.rd p d (i.outs.headD 0)).getD 0 == 1 && pulseDue p tspan span n then Tab.upd false t n not else t
    | _ => t) t

/-! ## Mirror and subscriptions -/

/-- A journal entry for each unit of a list. -/
def State.unitEvents (s : State) (d : Die) (l : List (Nat × Nat)) (kind : Nat) : State :=
  l.foldl (fun s u => s.event d kind (BitVec.ofNat 8 u.1 :: leBytes 2 u.2)) s

/-- Instances whose committed values belong to a unit: those of a zone, an instance, an axis, a rein group or a connection. -/
def Pattern.unitPos (p : Pattern) (u : Nat × Nat) : List Nat :=
  if u.1 = 0 then (p.zonePos u.2).toList
  else if u.1 = 1 then p.posOf fun i => i.id == u.2
  else if u.1 = 2 then p.posOf fun i => p.axisOf i == some u.2
  else if u.1 = 3 then ((p.reinGrp u.2).map (·.1)).toList
  else if u.1 = 4 then p.posOf fun i => match i.block with
    | .connIn c => c.connId == u.2
    | .connOut c => c.connId == u.2
    | _ => false
  else []

/-- Outputs, state and state words of an instance, in plain form. -/
def instBytes (p : Pattern) (d : Die) (m : Img) (q : Nat) : List Byte :=
  let st := Tab.get IState.plain m.ist q
  ((((p.insts[q]?).map (·.outs)).getD []).flatMap fun v => leBytes 2 (container ((m.rd p d v).getD 0)))
    ++ leBytes 2 st.code ++ st.words.flatMap (leBytes 8)

/-- The CRC-32C of the committed state of a die, as the handover record carries it (R460): the span and every instance. -/
def LDie.stateCrc (l : LDie) (p : Pattern) (d : Die) : Nat :=
  crc32c (leBytes 8 l.tb.lastCommit ++ (List.range p.insts.length).flatMap (instBytes p d l.eng.com))

/-- The CRC-32C of a unit's committed values (R382): outputs, state and state words of its instances; of a channel its IN_STAT, of an
F-die those of its channels. The values that it covers, and their order, are the model's (log 136). -/
def unitCrc (p : Pattern) (d : Die) (m : Img) (r : Regs) (u : Nat × Nat) : Nat :=
  let chan (n : Nat) : List Byte := leBytes 4 (Regs.get r (odKey (0x4300 + n) 1))
  crc32c ((Pattern.unitPos p u).flatMap (instBytes p d m) ++ (if u.1 = 5 then chan u.2 else if u.1 = 6 then (List.range 32).flatMap fun k => chan (32 * u.2 + k) else []))

/-- Refresh the mirror in phase S of a committed span (R382). A die whose management processor restarts refreshes nothing: a unit is stale
there from the second committed span on, and at once where the CRC of its last refresh differs from that of the committed values (R383). -/
def State.mirror (s : State) (d : Die) (p : Pattern) : State :=
  let l := s.die d
  if l.mgmt = .serving then
    let s1 := s.setDie d { l with mir := { img := l.eng.com, regs := s.regs, age := 0, stale := [] } }
    s1.unitEvents d l.mir.stale 10
  else
    let gone (u : Nat × Nat) : Bool :=
      decide (2 ≤ l.mir.age + 1) || unitCrc p d l.mir.img l.mir.regs u != unitCrc p d l.eng.com s.regs u
    let new := (p.units s.fdies).filter fun u => !l.mir.stale.contains u && gone u
    let s1 := s.setDie d { l with mir := { l.mir with age := l.mir.age + 1, stale := l.mir.stale ++ new } }
    (s1.addOnce d new.length 0x1200 3).unitEvents d new 9

/-- Committed changes of subscribed entries (R381). -/
def State.subCommit (s : State) : State :=
  { s with br := { s.br with subs := s.br.subs.map fun x =>
      let v := s.view s.srv x.seat x.idx x.sub
      if v = x.cur then x else { x with cur := v, nseq := (x.nseq + 1) % 65536, unsent := x.unsent + 1 } } }

/-! ## Commit -/

/-- A C2 reaction takes coupled groups to GSTO at the commit point: RG_ESCAL counts each (R257, R266). -/
def State.escalC2 (s : State) (d : Die) (p : Pattern) (old new : Img) : State :=
  p.insts.zipIdx.foldl (fun (s : State) (x : Inst × Nat) => match x.1.block, Tab.get IState.plain old.ist x.2, Tab.get IState.plain new.ist x.2 with
    | .rein r, .rein a _ _ _ _ _, .rein 2 8 _ _ _ _ => if a ≤ 1 then s.addOnce d 1 (0x6C00 + r.group) 9 else s
    | _, _, _ => s) s

/-- A safety output that is off in the image that a span commits does not advance its alternation (R202). -/
def keepAlt (p : Pattern) (old m : Img) : Img :=
  p.insts.zipIdx.foldl (fun (m : Img) (x : Inst × Nat) => match x.1.block, Tab.get IState.plain m.ist x.2, Tab.get IState.plain old.ist x.2 with
    | .outsafe .., .outsafe 1 _ _, _ => m
    | .outsafe .., .outsafe st _ t, .outsafe _ b _ => { m with ist := Tab.set .plain m.ist x.2 (.outsafe st b t) }
    | _, _, _ => m) m

/-- The running die writes its committed state to the handover area of the M-die, through its port (R460). -/
def State.handOver (s : State) (d : Die) (p : Pattern) : State :=
  if s.alone d && s.order != 830 && !s.ringBusy { Ring.free with home := d.n } then
    { s with upd := { s.upd with handover := some ((s.die d).stateCrc p d) } }
  else s

/-- Commit the span of die `d` with `locks` locked (R54, R57, R296, R340). -/
def State.commitDie (s : State) (d : Die) (p : Pattern) (locks : List Nat) : State :=
  let l := s.die d
  let e := s.env d
  let ns := l.tb.commitAt
  let w0 := lockZones p d locks ns l.eng.work
  let w := if s.modes.stopping then stopZones p d ns w0 else w0
  let com : Img := { keepAlt p l.eng.com w with ev := [] }
  let outs : Tab (Nat × Nat) := s.fdies.foldl (fun (t : Tab (Nat × Nat)) f => Tab.set (0, 0) t f
    ((cmdWord p d com f).toNat, (opSent p d l.eng com l.tb.tspan l.tb.spanNo f).toNat)) []
  let s1 := (s.releaseAll d p w).updDie d fun l => { l with
    eng := { l.eng with com := com, com0 := if l.eng.first then Img.first p d l.eng.com else l.eng.com.vars, comOut := outs, first := false, comSpan := l.tb.spanNo
                        alt := altNext p d com l.tb.tspan l.tb.spanNo l.eng.alt }
    tb := { l.tb with lastCommit := l.tb.spanNo } }
  let s2 := s1.sendCmds d fun f => if s1.cmdZero then 0 else cmdWord p d com f
  let s2a := (lostStreams p w).foldl (fun (s : State) k => s.addOnce d 1 (0x6400 + k) 7) (s2.escalC2 d p l.eng.work com)
  let s3 := p.zones.foldl (State.zoneMove p d l.eng.com com) (w.ev.foldl (State.commitEv p d) s2a)
  let s4 := p.insts.zipIdx.foldl (fun (s : State) (x : Inst × Nat) =>
    (((s.reinCommit p d e com x).connCommit p d l.eng.com com x).stdoutCommit p d { e with work := com, done := [] } x)) s3
  let s5 := ((s4.jrnVars d p l.eng.com com).mirror d p).handOver d p
  let s6 := if d = s5.srv then s5.subCommit else s5
  if d = .a then s6.laReboot p else s6

/-- A span with every compare agreeing counts for re-admission and update (R310, R462). -/
def State.agreed (s : State) (d : Die) : State :=
  if d = s.srv then ((s.readmAgree .a).readmAgree .b).updAgree else s

/-! ## Reactions due at a commit point -/

/-- Zones that reactions lock at a commit point of die `d` now: those of latches more than 4 µs ago (R296, R297). -/
def State.dueLocks (s : State) (d : Die) : List Nat :=
  let c2 := ((if d = .a then s.flt.c2A else s.flt.c2B).filter fun x => past4 s.time x.2).map (·.1)
  match s.flt.c3 with
  | .none => c2
  | .lock a b t => if (if d = .a then a else b) && past4 s.time t then s.allZones else c2
  | .safe => s.allZones

/-- A locking of every zone by a latch more than 4 µs before `t` is taken on die `d`. -/
def C3St.take (t : Nat) (d : Die) (x : C3St) : C3St :=
  match x with
  | .lock _ _ since => if past4 t since then x.drop d else x
  | _ => x

/-- The reactions due on die `d` at time `t` are taken. -/
def Faults.takeLocks (f : Faults) (d : Die) (t : Nat) : Faults :=
  match d with
  | .a => { f with c2A := f.c2A.filter fun x => !past4 t x.2, c3 := f.c3.take t .a }
  | .b => { f with c2B := f.c2B.filter fun x => !past4 t x.2, c3 := f.c3.take t .b }

/-- The reaction of R61 is taken on die `d` at the commit point of the overrunning span itself. -/
def Faults.takeNow (f : Faults) (d : Die) (zs : List Nat) (all : Bool) : Faults :=
  let keep (l : List (Nat × Nat)) : List (Nat × Nat) := l.filter fun x => !zs.contains x.1
  let c3 := if all then f.c3.drop d else f.c3
  match d with
  | .a => { f with c2A := keep f.c2A, c3 := c3 }
  | .b => { f with c2B := keep f.c2B, c3 := c3 }

/-- Lock zones in the last committed state of die `d` (R296, commit withheld). -/
def State.lockCom (s : State) (d : Die) (p : Pattern) (locks : List Nat) : State :=
  if locks.isEmpty then s
  else
    let l := s.die d
    let com := lockZones p d locks l.tb.commitAt l.eng.com
    let s1 := s.setDie d { l with eng := { l.eng with com := com } }
    p.zones.foldl (State.zoneMove p d l.eng.com com) (s1.escalC2 d p l.eng.com com)

/-- The CMD words of the last committed image again, with OPREQ 0 (R60). -/
def State.resend (s : State) (d : Die) (p : Pattern) : State :=
  let com := (s.die d).eng.com
  let outs : Tab (Nat × Nat) := s.fdies.foldl (fun (t : Tab (Nat × Nat)) f => Tab.set (0, 0) t f ((cmdWord p d com f).toNat, 0)) []
  let s1 := s.updDie d fun l => { l with eng := { l.eng with comOut := outs } }
  s1.sendCmds d fun f => if s1.cmdZero then 0 else cmdWord p d com f

/-! ## Overrun -/

/-- Groups of the span without both records. -/
def Cmp.incomplete (c : Cmp) (p : Pattern) : List Nat :=
  (List.range p.groups.length).filter fun g =>
    !(c.own.any (fun r => r.key == (0, g)) && c.peer.any fun r => r.key == (0, g))

/-- The zones an overrun concerns (R61). -/
def State.overrunZones (s : State) (c : Cmp) (p : Pattern) : List Nat :=
  let gs := c.incomplete p
  let z1 := p.zonesOfGroups gs
  let z2 := p.zonesOfGroups (gs.flatMap fun g => ((p.encA.closures[g]?).map (·.groups)).getD [])
  if !z1.isEmpty then z1 else if !z2.isEmpty then z2 else s.allZones

/-- An overrun of die `d` (R60, R61), with `due` due at this commit point. A span that overruns on both dies counts once. -/
def State.overrun (s : State) (d : Die) (p : Pattern) (due : List Nat) : State :=
  let l := s.die d
  let n := l.tb.spanNo
  let all := s.overs n
  let was := l.cmp.overPrev || (decide (0 < n) && all.contains (n - s.spanInc))
  let overs := if all.contains n then all else all ++ [n]
  let s1 := (if all.contains n then s else s.bump 32 0x2005 1).setDie d { l with cmp := { l.cmp with
    overs := l.cmp.overs ++ [n], overPrev := true, disagPrev := (l.cmp.diffs.filter fun r => r.key.1 == 0).map fun r => r.key.2 } }
  let s2 := { s1 with flt := { s1.flt with ovrZones := s1.overrunZones l.cmp p } }
  let s3 := if was then s2.latch3 (dieBit d 15) else if s2.modes.ovrTol < overs.length then s2.latch (dieBit d 15) else s2
  let b := dieBit d 15
  let acts := (was || decide (s2.modes.ovrTol < overs.length)) && !s2.diverted b
  let all := acts && decide (3 ≤ s3.cls b)
  let zs := if !acts then [] else if all then s3.allZones else s3.zonesOfBit b
  let s4 := { s3 with flt := s3.flt.takeNow d zs all }
  ((s4.lockCom d p (zUnion due zs)).resend d p).notAgreed d

/-! ## Disagreement -/

/-- A record comes from an instance of the groups `gs` (R153). -/
def recIn (p : Pattern) (gs : List Nat) : CmpRec → Bool
  | .group g _ => gs.contains g
  | .fdie f _ _ => drivenBy p gs f.val
  | .telegram c _ => p.insts.any fun i => gs.contains i.group && (match i.block with
      | .connOut par => par.connId == c
      | _ => false)

/-- Replay is refused or has failed: REPLAY_FAIL (R154, R157). -/
def State.replayFail (s : State) (d : Die) : State := (s.latch 59).notAgreed d

/-- A disagreement at the commit point of die `d` (R153, R154), the commit being withheld so far. -/
def State.disagree (s : State) (d : Die) (p : Pattern) (due : List Nat) : State :=
  let l := s.die d
  let diffs := l.cmp.diffs
  let sigs := (diffs.filter fun r => r.key.1 == 0).map fun r => r.key.2
  let s1 := (s.addOnce d sigs.length 0x5010 2).addOnce d (diffs.length - sigs.length) 0x5010 3
  let s2 := s1.lockCom d p due
  let s3 := if due.isEmpty then s2 else s2.resend d p
  match sigs.min? with
  | some g =>
    let cl := (p.encA.closures[g]?).getD { groups := [], time := 0 }
    let ok := diffs.all (recIn p cl.groups) && cl.groups.contains g && !l.cmp.disagPrev.contains g && s.a.cur.intact && s.b.cur.intact
      && decide (commitNs l.tb.tspan + 125 * cl.time ≤ lateNs l.tb.tspan)
    let s4 := s3.updDie d fun l => LDie.push { l with cmp := { l.cmp with
      disagPrev := sigs, locks := due, set := cl.groups, grp := g, ownWords := groupWords p d l.eng.work g, named := none
      readySent := false, readyRx := false, stage := if ok then .local else .none } }
        (if ok then locFlits (groupStream l.tb.spanNo g (groupWords p d l.eng.work g)) else [])
    if ok then s4 else (s4.addOnce d 1 0x5011 2).replayFail d
  | none =>
    let fs := s3.fdies
    let new := s3.records d p [] (fun _ => true) fs
    s3.updDie d fun l => LDie.push { l with cmp := { l.cmp with
      disagPrev := [], locks := due, stage := .full, readySent := false, readyRx := false
      own := l.cmp.own.map fun r => if diffs.any fun x => x.key == r.key then (new.find? fun y => y.key == r.key).getD r else r
      peer := l.cmp.peer.filter fun r => !diffs.any fun x => x.key == r.key } }
        ((new.filter fun (y : CmpRec) => diffs.any fun x => x.key == y.key).flatMap fun (r : CmpRec) => (CmpRec.flits r).map (CmpFlit.flit 3))

/-! ## COMMIT_POINT -/

/-- The commit point of a die that evaluates. -/
def State.judge (s : State) (d : Die) (p : Pattern) (due : List Nat) : State :=
  let l := s.die d
  let agree := s.compared d p && l.cmp.diffs.isEmpty && l.cmp.readySent && l.cmp.readyRx
  let calm (s : State) : State := s.updDie d fun l => { l with cmp := { l.cmp with overPrev := false, disagPrev := [] } }
  if agree then
    let s1 := if s.upd.reboot == some d then s.rejoinCommit d else s
    ((calm s1).commitDie d p due).agreed d
  else if s.alone d then
    if l.eng.complete p then (calm s).commitDie d p due else s.overrun d p due
  else if s.upd.reboot == some d then (calm s).lockCom d p due
  else if s.compared d p && !l.cmp.diffs.isEmpty then
    (s.updDie d fun l => { l with cmp := { l.cmp with overPrev := false } }).disagree d p due
  else s.overrun d p due

/-- The commit point of a die that does not evaluate: it locks what is due in its state and, while its port is its own,
sends CMD 0 (Table 07-4). -/
def State.idleCommit (s : State) (d : Die) (due : List Nat) : State :=
  let s1 := match s.pattern with
    | some p => s.lockCom d p due
    | none => s
  if s1.admitted d && s1.upd.reboot != some d then s1.sendCmds d fun _ => 0 else s1

/-- COMMIT_POINT of die `d`. -/
def doCommitPoint (d : Die) (s : State) : State :=
  let ph := (s.die d).tb.phase
  if !s.ticking d || !(ph == .e || ph == .el || ph == .c) then s
  else
    let due := s.dueLocks d
    let s1 := { s with flt := s.flt.takeLocks d s.time }.updDie d fun l => { l with tb := { l.tb with phase := .s } }
    let s2 := match s1.pattern with
      | some p => if s1.evals d then s1.judge d p due else s1.idleCommit d due
      | none => s1.idleCommit d due
    let s3 := s2.granStart d (s.die d).tb.spanNo
    if d = s2.srv then { s3 with st := { s3.st with slice := s3.sliceIn (s.die d).tb.spanNo } } else s3

def execCommitPoint (d : Die) (s : State) : Host.Outcome State Fault Refusal := .next (doCommitPoint d s)

/-- The late commit after an agreeing replay or resend: READY is sent, and with the peer's READY the span commits, no later than
the late-commit limit (R157). -/
def State.lateCommit (s : State) (d : Die) (p : Pattern) : State :=
  let l := s.die d
  let st := l.cmp.stage
  if l.tb.phase != .s || !(st == .full || st == .recompare) || !l.cmp.open_.isEmpty || !l.cmp.diffs.isEmpty then s
  else
    let s1 := s.sendReady d
    if !l.cmp.readyRx then s1
    else
      let nowOf (x : Die) : Option Nat := l.cmp.named.bind fun n =>
        (groupWords p x (s.die x).eng.work l.cmp.grp)[n.2]?
      let firstOf (x : Die) : Option Nat := l.cmp.named.bind fun n => (s.die x).cmp.ownWords[n.2]?
      let da := nowOf .a != firstOf .a
      let db := nowOf .b != firstOf .b
      let s2 := if l.cmp.named.isNone || d != s1.srv then s1
        else
          let r := s1.reg 0x5011 3 % 2 ^ 40
          s1.setReg 0x5011 3 (r + (if da != db then (if db then 2 ^ 40 else 0) else 2 ^ 41))
      let s3 := ((s2.addOnce d 1 0x2005 3).addOnce d 1 0x5011 1).event d 6 (leBytes 8 (s2.reg 0x5011 3))
      ((s3.updDie d fun l => { l with cmp := { l.cmp with stage := .none } }).commitDie d p l.cmp.locks).agreed d

/-- After a record of a replay or a resend, own or the peer's: with every pair of records there, agreement sends READY and commits at once,
and a disagreement is REPLAY_FAIL (R153 case 2, R157). -/
def State.settleReplay (s : State) (d : Die) : State :=
  match s.pattern with
  | none => s
  | some p =>
    let c := (s.die d).cmp
    if !(c.stage == .full || c.stage == .recompare) || !c.open_.isEmpty then s
    else if c.diffs.isEmpty then s.lateCommit d p
    else (s.updDie d fun l => { l with cmp := { l.cmp with stage := .none } }).replayFail d

end Sys2Proof.Machine
end

