-- ==== Sys2Proof/Machine/ClockOps.lean ====
section
/-! DEFINITION. Clock commands: oscillator start, PLLs, monitors, switches, gates (12_clocks.md R313 to R330). -/

namespace Sys2Proof

/-- Domains that a source feeds (Table 12-1, Table 12-5). -/
def Src.domains : Src → BitVec 18
  | .refA => domainSet [3, 6, 7, 10, 12, 17]
  | .refB => domainSet [4, 8, 9, 11, 17]
  | .pmu => domainSet [5]
  | .mem => domainSet [14]

/-- The source whose start rule holds the lock of a PLL (R321). -/
def Pll.src : Pll → Src
  | .pmu => .pmu
  | .a => .refA
  | .b => .refB
  | .mem => .mem

/-- The switch of a PLL's domains (Table 12-6). -/
def Pll.sw : Pll → ClkSw
  | .pmu => .pmu
  | .a => .a
  | .b => .b
  | .mem => .mem

end Sys2Proof

namespace Sys2Proof.Machine

/-- A source with a start rule. -/
def Clocks.src (c : Clocks) : Src → Source
  | .refA => c.refA
  | .refB => c.refB
  | .pmu => c.pmu
  | .mem => c.mem

/-- Replace it. -/
def Clocks.setSrc (c : Clocks) (x : Src) (v : Source) : Clocks :=
  match x with
  | .refA => { c with refA := v }
  | .refB => { c with refB := v }
  | .pmu => { c with pmu := v }
  | .mem => { c with mem := v }

/-- Whether a PLL is locked. -/
def Clocks.setLock (c : Clocks) (p : Pll) (b : Bool) : Clocks :=
  match p with
  | .pmu => { c with lockPmu := b }
  | .a => { c with lockA := b }
  | .b => { c with lockB := b }
  | .mem => { c with lockMem := b }

/-- A request to a clock switch: while a switch is in progress it waits, and replaces one that waits (R327). -/
def Switch.request (w : Switch) (other : Bool) : Switch :=
  if w.busy.isSome then { w with wait := some other }
  else if w.other = other then w else { w with busy := some other }

/-- A switch completes (R327). -/
def Switch.complete (w : Switch) : Switch :=
  match w.busy with
  | none => w
  | some b => { other := b, busy := if w.wait = some (!b) then some (!b) else none, wait := none }

/-- Change one clock switch. -/
def Clocks.updSw (c : Clocks) (x : ClkSw) (f : Switch → Switch) : Clocks :=
  match x with
  | .pmu => { c with swPmu := f c.swPmu }
  | .a => { c with swA := f c.swA }
  | .b => { c with swB := f c.swB }
  | .mem => { c with swMem := f c.swMem }

/-- A clock switch. -/
def Clocks.sw (c : Clocks) : ClkSw → Switch
  | .pmu => c.swPmu
  | .a => c.swA
  | .b => c.swB
  | .mem => c.swMem

/-- CLK_MON is standing: a failed domain has not passed its start rule again, or a start has failed three times and not passed
(R321, R325). -/
def Clocks.standing (c : Clocks) : Bool :=
  c.down != 0 || [c.refA, c.refB, c.pmu, c.mem].any fun (x : Source) => decide (3 ≤ x.fails) && x.st != .passed

/-- Domains that the gate bits of a power state stop; in SHELF all but CK_BKP (R328). -/
def State.gatesOf (s : State) : BitVec 18 :=
  if s.modes.mode = .shelf then domainSet ((List.range 17).map (· + 2))
  else domainSet (((List.range 17).map (· + 1)).filter fun n => !bitAt (s.reg 0x2013 n) s.modes.pwr.code)

/-- Apply the gate bits: gated domains lose their monitors, ungated ones arm again (R329), PD_SVC follows CK_SVC, and is off in SLEEP
and DEEP-SLEEP (R335, Table 13-2). -/
def State.regate (s : State) : State :=
  let g := s.gatesOf
  let up := s.clk.gated &&& ~~~g
  let svc := if g.getLsbD 11 || !s.pow.pd.getLsbD 7 || s.modes.pwr != .active then s.pow.pd &&& ~~~((1 : BitVec 20) <<< 8) else s.pow.pd ||| ((1 : BitVec 20) <<< 8)
  { s with clk := { s.clk with gated := g, armed := (s.clk.armed ||| (up &&& (Src.refA.domains ||| Src.mem.domains))) &&& ~~~g }
           pow := { s.pow with pd := svc } }

/-! ## Commands -/

/-- CRYSTAL_FIRST_VALID_CYCLE (R316, R317): with a native delay of 0 the crystal is released at once. -/
def doCrystalFirstValidCycle (d : Die) (us : Nat) (s : State) : State :=
  let x : Src := if d = .a then .refA else .refB
  let c := s.clk.src x
  if c.st != .starting then s
  else
    let now := !s.clk.s4 && s.reg 0x2010 (d.n + 1) == 0
    { s with clk := s.clk.setSrc x { c with st := if now then .released else .valid } }.setReg 0x2015 (3 + d.n) us

def execCrystalFirstValidCycle (d : Die) (us : Nat) (s : State) : Host.Outcome State Fault Refusal :=
  .next (doCrystalFirstValidCycle d us s)

/-- CRYSTAL_RELEASE (R317, R320). -/
def doCrystalRelease (d : Die) (s : State) : State :=
  let x : Src := if d = .a then .refA else .refB
  let c := s.clk.src x
  if c.st = .valid then { s with clk := s.clk.setSrc x { c with st := .released } } else s

def execCrystalRelease (d : Die) (s : State) : Host.Outcome State Fault Refusal := .next (doCrystalRelease d s)

/-- PLL_LOCK (R321, R326): the domains switch back to the PLL, except CK_PMU after a failure of CK_RC or CK_PMU (R324). -/
def doPllLock (p : Pll) (s : State) : State :=
  let x := s.clk.src p.src
  if x.st = .off || x.st = .starting || x.st = .valid || x.st = .waiting then s
  else
    let c1 := (s.clk.setLock p true).setSrc p.src { x with st := if x.st = .released then .locked else x.st }
    let c2 := if p = .pmu && s.clk.tripHeld then c1 else c1.updSw p.sw fun w => w.request false
    { s with clk := c2 }

def execPllLock (p : Pll) (s : State) : Host.Outcome State Fault Refusal := .next (doPllLock p s)

/-- Reset of a network MAC with its shadow (Table 11-3, Table 11-4). -/
def State.resetMac (s : State) (d : Die) : State :=
  s.resetBlock (.mac d) (dieBit d 6) fun t => t.updDie d fun l => { l with net := l.net.reset }

/-- START_RULE_PASS (R321, R325): monitors arm; failed domains of the source are back, an L-die that had lost its clocks is
re-admitted with READMIT_TMO counted from here, its MAC resets, and the transmitters may send again. -/
def doStartRulePass (x : Src) (s : State) : State :=
  let c := s.clk.src x
  let back := s.clk.down &&& x.domains
  if !(c.st == .locked || (c.st == .passed && back != 0)) then s
  else
    let c1 := s.clk.setSrc x { c with st := .passed }
    let c2 : Clocks := { c1 with armed := c1.armed ||| (x.domains &&& ~~~c1.gated), down := c1.down &&& ~~~x.domains }
    let s1 := { s with clk := c2 }
    let s2 := if c2.standing then s1 else s1.causeOff 55
    let s3 := if c2.down != 0 then s2
      else
        let quiet (l : LDie) : LDie := { l with net := { l.net with idle := false } }
        ({ s2 with clk := { s2.clk with stitchIdle := false } }.updDie .a quiet).updDie .b quiet
    match x with
    | .refA =>
      let s4 := if back.getLsbD 9 then s3.resetMac .a else s3
      if s4.clk.deadA then { s4 with clk := { s4.clk with deadA := false } }.fenceDie .a else s4
    | .refB =>
      let s4 := if back.getLsbD 10 then s3.resetMac .b else s3
      if s4.clk.deadB then { s4 with clk := { s4.clk with deadB := false } }.fenceDie .b else s4
    | _ => s3

def execStartRulePass (src : Src) (s : State) : Host.Outcome State Fault Refusal := .next (doStartRulePass src s)

/-- START_ATTEMPT_FAIL (R321): the third failed attempt latches CLK_MON. -/
def doStartAttemptFail (x : Src) (s : State) : State :=
  let c := s.clk.src x
  if !(c.st == .released || c.st == .locked) then s
  else
    let n := c.fails + 1
    let p : Pll := match x with
      | .refA => .a
      | .refB => .b
      | .pmu => .pmu
      | .mem => .mem
    let s1 := { s with clk := (s.clk.setSrc x { st := .waiting, fails := n }).setLock p false }
    if n < 3 then s1 else s1.latchStanding 55

def execStartAttemptFail (src : Src) (s : State) : Host.Outcome State Fault Refusal := .next (doStartAttemptFail src s)

/-- OSC_RESTART (R321): an amplifier starts from cold, a PLL after its reset. -/
def doOscRestart (x : Src) (s : State) : State :=
  let c := s.clk.src x
  if c.st != .waiting then s
  else match x with
    | .refA => { s with clk := s.clk.setSrc x { c with st := .starting } }.bump 16 0x2015 1
    | .refB => { s with clk := s.clk.setSrc x { c with st := .starting } }.bump 16 0x2015 2
    | _ => { s with clk := s.clk.setSrc x { c with st := .released } }

def execOscRestart (src : Src) (s : State) : Host.Outcome State Fault Refusal := .next (doOscRestart src s)

/-- The link of a die after a retrain: empty retry buffer, every credit restored, its trained lanes as they were (R142). -/
def Link.fresh (l : Link) : Link := { Link.init with lanes := l.lanes, txq := l.txq, retrain := true }

/-- The Stitch link retrains (R142): its shadow opens with the reset. Of a record in several flits, those that had arrived are lost. -/
def State.stitchReset (s : State) : State :=
  let f (l : LDie) : LDie := { l with link := l.link.fresh, cmp := { l.cmp with parts := [], stale := [] }
                                      ins := Tab.mapV InConn.init (fun (c : InConn) => { c with part := [] }) l.ins }
  let s1 := if s.flt.shadowOf .stitch then s else { s with flt := s.flt.openShadow .stitch }
  (s1.updDie .a f).updDie .b f

/-- What a failed domain stops, by its number (R324, Table 12-5); while a PLL is not locked its domains run on the other source (R326). -/
def State.clockDown (s : State) (n : Nat) (d : Die) : State :=
  let dead (s : State) (d : Die) : State :=
    let s1 := if d = .a then { s with clk := { s.clk with deadA := true } } else { s with clk := { s.clk with deadB := true } }
    { s1 with flt := { s1.flt with c3 := s1.flt.c3.drop d } }
  let src (s : State) (p : Pll) (st : StartSt) : State :=
    { s with clk := ((s.clk.setSrc p.src { s.clk.src p.src with st := st }).setLock p false).updSw p.sw fun w => w.request true }
  if n = 1 then { s with bkp := { s.bkp with rtcOk := false } }
  else if n = 2 || n = 5 then
    { s with clk := { (s.clk.updSw .pmu fun w => w.request true) with tripHeld := true } }
  else if n = 3 then dead (src s .a .waiting) .a
  else if n = 4 then dead (src s .b .waiting) .b
  else if n = 6 || n = 7 then dead (src s .a .released) .a
  else if n = 8 || n = 9 then dead (src s .b .released) .b
  else if n = 17 then dead (src s (if d = .a then .a else .b) .released) d
  else if n = 13 then s.stitchReset
  else if n = 14 then (src s .mem .released).fenceM
  else s

/-- Failure of domain `n`: both trip lines, idle transmitters, CLK_FAIL and CLK_MON (R324). CK_BKP and CK_SVC restart by
themselves, so they stand down in nothing and their monitors stay armed (Table 12-5). -/
def State.clockFailed (s : State) (n : Nat) (d : Die) : State :=
  let b := domainSet [n]
  let quiet (l : LDie) : LDie := { l with net := l.net.quiet }
  let s1 := ((s.tripNow).updDie .a quiet).updDie .b quiet
  let s2 := { s1 with clk := { s1.clk with
    stitchIdle := true, failed := s1.clk.failed ||| b, armed := if n = 1 || n = 12 then s1.clk.armed else s1.clk.armed &&& ~~~b
    down := if n = 1 || n = 12 then s1.clk.down else s1.clk.down ||| b } }
  let s3 := s2.clockDown n d
  let s4 := if s3.clk.standing then s3.causeOn 55 else s3
  let s5 := s4.latch 55
  if s5.clk.down = 0 then
    let free (l : LDie) : LDie := { l with net := { l.net with idle := false } }
    ({ s5 with clk := { s5.clk with stitchIdle := false } }.updDie .a free).updDie .b free
  else s5

/-- CLOCK_FAIL: the monitor of an armed domain detects a failure (R322 to R325). CK_TCK has no monitor, and a crystal is not judged
against a CK_RC that has failed (R323). -/
def doClockFail (dom : Fin 18) (d : Die) (s : State) : State :=
  if !s.clk.armed.getLsbD dom.val || dom.val == 17 || ((dom.val == 2 || dom.val == 3) && s.clk.down.getLsbD 1) then s
  else s.clockFailed (dom.val + 1) d

def execClockFail (dom : Fin 18) (die : Die) (s : State) : Host.Outcome State Fault Refusal := .next (doClockFail dom die s)

/-- CLOCK_SWITCH_COMPLETE (R327). -/
def doClockSwitchComplete (x : ClkSw) (forced : Bool) (s : State) : State :=
  if (s.clk.sw x).busy.isNone then s
  else { s with clk := { (s.clk.updSw x Switch.complete) with forced := s.clk.forced || forced } }

def execClockSwitchComplete (sw : ClkSw) (forced : Bool) (s : State) : Host.Outcome State Fault Refusal :=
  .next (doClockSwitchComplete sw forced s)

/-- PLL_UNLOCK (R326): the domains switch to the other source; of PLL_PMU after BOOT it is a failure of CK_PMU. With PLL_MEM the DRAM goes to
self-refresh, so that journal writes are dropped and rings answer BUSY (R329). -/
def doPllUnlock (p : Pll) (s : State) : State :=
  let s1 := { s with clk := (s.clk.setLock p false).updSw p.sw fun w => w.request true }
  if p = .pmu && s.modes.mode != .boot && s.modes.mode != .shelf then s1.clockFailed 5 .a
  else if p = .mem && s.order != 830 then (s1.jrnStop .a).jrnStop .b
  else s1

def execPllUnlock (p : Pll) (s : State) : Host.Outcome State Fault Refusal := .next (doPllUnlock p s)

end Sys2Proof.Machine
end

