-- ==== Sys2Proof/Machine/Access.lean ====
section
/-! DEFINITION. Who may do what: the statuses of a write, rights of a seat, what Bridle serves, and the running OTP operations
that several chapters start (14_object_dictionary.md R355, R362, R375, R376, R384; 17_otp_keys_lifecycle.md R420, R424). -/

namespace Sys2Proof

/-- Position of the CONN_IN or CONN_OUT of a connection. -/
def Pattern.connPos (p : Pattern) (inbound : Bool) (id : Nat) : Option Nat :=
  p.insts.findIdx? fun i => match i.block with
    | .connIn c => inbound && c.connId == id
    | .connOut c => !inbound && c.connId == id
    | _ => false

end Sys2Proof

namespace Sys2Proof.Machine

/-! ## Statuses -/

/-- The status that a write is answered with. -/
def State.ans (s : State) (c : Status) : State := { s with br := { s.br with last := c, retry := 0xFFFF } }

/-- The octets that a read answers. -/
def State.reply (s : State) (bs : List Byte) : State := { s with br := { s.br with data := bs } }

/-- BUSY with a RETRY (R361). -/
def State.ansBusy (s : State) (n : Nat) : State := { s with br := { s.br with last := .busy, retry := n } }

/-- Bridle serves writes (R384): not in SHELF or BOOT, and not once the lifecycle is VOID (Table 17-2). -/
def State.serves (s : State) : Bool := s.modes.mode != .shelf && s.modes.mode != .boot && s.otp.lc != 4

/-- A write in the order of Table 14-6: the status of the first check that fails, else the effect with status OK. In SHELF
Bridle serves nothing. -/
def State.write (s : State) (busy rights mode range : Bool) (f : State → State) : State :=
  if s.modes.mode = .shelf then s
  else if !s.serves then s.ans .mode
  else if busy then s.ans .busy
  else if !rights then s.ans .rights
  else if !mode then s.ans .mode
  else if !range then s.ans .range
  else f (s.ans .ok)

/-- The line-owner seat (R378). -/
def State.owner (s : State) (seat : Nat) : Bool := s.reg 0x1010 0 == seat

/-- A right of Table 14-11 by its bit; the line owner holds every right (R375). -/
def State.has (s : State) (seat bit : Nat) : Bool := s.owner seat || bitAt (s.reg (0x1100 + seat) 1) bit

/-- The line owner with the password presented in its session (R378). -/
def State.ownerPass (s : State) (seat : Nat) : Bool := s.owner seat && (s.br.seat seat).pass

/-- The device is in CONFIGURE. -/
def State.inConf (s : State) : Bool := s.modes.mode == .configure

/-! ## VIN and OTP -/

/-- VIN is good (Table 13-6, OTP row). -/
def State.vinGood (s : State) : Bool := decide (20000 ≤ s.pow.vinMv) && !s.pow.pfwBoot

/-- A program operation may start (R351, R420): VIN at 20.0 V or more, PFW clear, no OTP_PROG since power-up, the OTP domain on,
no other operation. -/
def State.otpMay (s : State) : Bool :=
  decide (20000 ≤ s.pow.vinMv) && !s.pfw && !s.otp.failed && s.otp.op.isNone && s.pdOn 3

/-- The word that an item of `todo` goes to: area 16 and area 128 stand for their lowest blank word (R424, R446). -/
def Otp.place (o : Otp) (x : Nat × Nat) : Option Nat :=
  if x.1 = 16 then o.freeIn 16 16
  else if x.1 = 128 then o.freeIn 128 128
  else if o.word x.1 == .blank then some x.1 else none

/-- Take up the next program operation of the device itself, where one may start; it runs once its die holds the OTP lease (R420). An
item without a blank word is dropped. -/
def State.otpNext (s : State) : State :=
  if !s.otpMay then s
  else match s.otp.todo with
    | [] => s
    | x :: t => match s.otp.place x with
      | none => { s with otp := { s.otp with todo := t } }
      | some w => { s with otp := { s.otp with
          op := some { die := s.srv, word := w, v := BitVec.ofNat 32 x.2, seat := none, ans := none }, todo := t } }.leaseAsk 4 s.srv.n

/-- The device wants words programmed, in order. -/
def State.otpWant (s : State) (l : List (Nat × Nat)) : State :=
  { s with otp := { s.otp with todo := s.otp.todo ++ l.filter fun x => !s.otp.todo.contains x } }.otpNext

/-! ## Key slots -/

/-- The flags PENDING of a slot (Table 17-7). -/
def State.keyPend (s : State) (slot : Nat) (v : Bool) : State :=
  let f (t : Tab KeySlot) : Tab KeySlot := Tab.upd KeySlot.init t slot fun (x : KeySlot) => { x with pending := v }
  { s with keys := { s.keys with a := f s.keys.a, b := f s.keys.b } }

/-- A new generation that takes effect: it replaces the cell that does not hold the highest KGEN (R430). -/
def KeySlot.write (x : KeySlot) (typ : Nat) (key : List Byte) : KeySlot :=
  { old := if x.newer then x.old else x.cur, cur := some { typ := typ, gen := x.top + 1, key := key }, mismatch := false, pending := false }

/-- A new generation that one die alone has committed: the previous one stays in force (R431). -/
def KeySlot.store (x : KeySlot) (typ : Nat) (key : List Byte) : KeySlot :=
  { x with old := some { typ := typ, gen := x.top + 1, key := key }, pending := false }

/-- A KEY_PUT: where both dies commit, the new generation is in force on both; a die that cannot commit keeps both on the previous one
(R431). -/
def State.keyPut (s : State) (slot typ : Nat) (key : List Byte) : State :=
  let both := s.admitted .a && s.admitted .b
  let f (d : Die) (t : Tab KeySlot) : Tab KeySlot := Tab.upd KeySlot.init t slot fun (x : KeySlot) =>
    if both then x.write typ key else if s.admitted d then x.store typ key else { x with pending := false }
  { s with keys := { s.keys with a := f .a s.keys.a, b := f .b s.keys.b } }

/-- A KEY_ERASE: an empty cell on every die that runs; no key engine holds the key any longer (R432). -/
def State.keyClear (s : State) (slot : Nat) : State :=
  let f (d : Die) (t : Tab KeySlot) : Tab KeySlot := Tab.upd KeySlot.init t slot fun (x : KeySlot) =>
    if s.admitted d then x.write 0 [] else { x with pending := false }
  { s with keys := { s.keys with a := f .a s.keys.a, b := f .b s.keys.b } }

/-- KEY_ERASE takes effect (R374, R432): an empty cell, every K_e of the slot zeroised, its sessions ended at their next frame. -/
def State.keyEraseCommit (s : State) (slot : Nat) : State :=
  let s1 := if s.keys.wiped then s.keyPend slot false else s.keyClear slot
  let qs (inb : Bool) : List Nat := match s1.pattern with
    | none => []
    | some p => (p.conns.filter fun c => c.key == slot).filterMap fun c => p.connPos inb c.connId
  let wipe (l : LDie) : LDie :=
    { l with ins := (qs true).foldl (fun (t : Tab InConn) q => Tab.upd InConn.init t q fun (c : InConn) => { c with keys := [] }) l.ins
             outc := (qs false).foldl (fun (t : Tab OutConn) q => Tab.set OutConn.init t q OutConn.init) l.outc }
  let s2 := (s1.updDie .a wipe).updDie .b wipe
  let gone (t : Tab Seat) (k : Nat) : Tab Seat := if s.reg (0x1100 + k) 3 = slot then Tab.upd Seat.init t k fun (x : Seat) =>
      { x with keyGone := x.keyGone || x.sess.isSome || x.chal.isSome } else t
  { s2 with br := { s2.br with seats := (List.range 8).foldl gone s2.br.seats }
            upd := { s2.upd with keyGone := s2.upd.keyGone || (s.reg 0xA008 0 == slot && (s2.upd.sess.isSome || s2.upd.chal.isSome)) } }

/-- The actions of a lifecycle change (R424 step 2), which a boot can repeat: RETURNED erases every key slot on both dies (R432). -/
def State.lcAct (s : State) (target : Nat) : State := if target = 3 then (List.range 16).foldl State.keyEraseCommit s else s

/-- Whether the L-dies load the Pattern of the active slot follows the lifecycle (R422). -/
def State.lcLoad (s : State) : State :=
  let p := s.pat
  let all := p.active.orElse fun _ => p.held
  if s.otp.lc = 2 then { s with pat := { p with active := all, held := none } }
  else { s with pat := { p with active := none, held := all } }

/-- The state word that completes an intent word (Table 17-3). -/
def stateWord (intent : Nat) : Nat := 5 * 2 ^ 28 + intent % 2 ^ 28

end Sys2Proof.Machine
end

