-- ==== Sys2Proof/Machine/CrcOps.lean ====
section
/-! DEFINITION. CRC channels: the descriptor at TAIL, its checks and its bytes (16_crc_timers.md R403 to R408). Channel c of L-A has
number c, of L-B 8 + c. -/

namespace Sys2Proof.Machine

/-- EN of a channel. -/
def State.crcEn (s : State) (k : Nat) : Bool := bitAt (s.reg (0x9000 + k) 1) 0

/-- The die of a channel or timer. -/
def unitDie (k : Nat) : Die := if k < 8 then .a else .b

/-- Parameters of a channel (R404). -/
def State.crcPar (s : State) (k : Nat) : CrcPar :=
  let r (sub : Nat) : Nat := s.reg (0x9000 + k) sub
  let m := 2 ^ r 3
  { width := r 3, poly := r 4 % m, init := r 5 % m, refin := bitAt (r 7) 0, refout := bitAt (r 7) 1, xorout := r 6 % m }

/-- The descriptor ring that a channel names. -/
def State.crcRing (s : State) (k : Nat) : Ring := s.rings.ring (s.reg (0x9000 + k) 8)

/-- The seat of a channel: CRC_SEAT, or the owner of its ring where CRC_SEAT names none (log 33). -/
def State.crcSeat (s : State) (k : Nat) : Nat := if s.reg (0x9000 + k) 9 = 0xFF then (s.crcRing k).owner else s.reg (0x9000 + k) 9

/-- A seat may read a ring (R394). -/
def State.mayReadRing (s : State) (seat : Nat) (r : Ring) : Bool :=
  r.alloc && (r.owner == seat || s.owner seat || (r.owner == 8 && s.has seat 0))

/-- Bytes of the staging region (log 33). -/
def Update.stageByte (u : Update) (a : Nat) : Byte :=
  match (List.range 5).find? fun k => decide (Config.stagePlace (k + 1) ≤ a) && decide (a < Config.stagePlace (k + 1) + leAt u.manifest (24 + 48 * k + 8) 4) with
  | some k => Mem.read u.data ((k + 1) * 2 ^ 24 + (a - Config.stagePlace (k + 1)))
  | none => 0

/-- The bytes that a descriptor names. -/
def State.regionBytes (s : State) (d : Die) (region ofs len : Nat) : List Byte :=
  if region = 0 then Mem.readN (if s.order = 830 && d = .b then s.rings.mem1 else s.rings.mem0) ofs len
  else if region = 1 then Mem.readN (s.die d).jrn.mem ofs len
  else (List.range len).map fun i => s.upd.stageByte (ofs + i)

/-- The ring of die `d`'s entry memory that holds a byte. -/
def State.ringAt (s : State) (d : Die) (ofs : Nat) : Option Ring :=
  (s.rings.desc.map (·.2)).find? fun r => r.alloc && (s.order != 830 || (r.purpose != 1 && r.home == d.n))
    && decide (64 * r.base ≤ ofs) && decide (ofs < 64 * r.base + r.bytes)

/-- DSTAT of the checks of Table 16-3 in its order, 0 where the descriptor passes. -/
def State.descCheck (s : State) (k : Nat) (b : List Byte) : Nat :=
  let d := unitDie k
  let region := leAt b 0 1
  let len := leAt b 4 4
  let ofs := leAt b 8 8
  let start := bitAt (leAt b 1 1) 0
  let ring := s.ringAt d ofs
  let rsvd := 4 ≤ leAt b 1 1 || leAt b 2 2 != 0 || leNat (slice b 20 12) != 0
  if rsvd || len = 0 || 2 < region || (region = 2 && s.order = 830) || (!start && !(Tab.get CrcCh.init s.crc k).chain) then 3
  else if (region = 0 && !(ring.map fun r => s.mayReadRing (s.crcSeat k) r).getD false) || (region = 2 && !s.owner (s.crcSeat k)) then 2
  else if (region = 0 && (ring.map fun r => decide (64 * r.base + r.bytes < ofs + len)).getD false) || (region = 1 && jhalf s.order < ofs + len)
      || (region = 2 && 48 * 2 ^ 20 < ofs + len) then 1
  else 0

/-- A channel asks for the CRC DMA lease of its die and answers whether it holds it; on the TRK-V830 no lease is involved (R407). -/
def State.crcLease (s : State) (k : Nat) : State × Bool :=
  if s.order = 830 then (s, true)
  else
    let s1 := s.leaseAsk (5 + k / 8) (k % 8)
    (s1, s1.leaseHas (5 + k / 8) (k % 8))

/-- A channel with EN takes the descriptor at TAIL: one that fails a check is refused whole and halts the channel (R407); the others
begin once the channel holds its lease (R31). -/
def State.crcNext (s : State) (k : Nat) : State :=
  let x := Tab.get CrcCh.init s.crc k
  let n := s.reg (0x9000 + k) 8
  let r := s.crcRing k
  if !s.crcEn k || x.busy || !r.alloc || r.level = 0 then s
  else
    let e := s.descCheck k (s.rings.entry s.order n r.tail)
    if e != 0 then s.crcHalt k e false
    else
      let y := s.crcLease k
      if y.2 then { y.1 with crc := Tab.set CrcCh.init y.1.crc k { x with busy := true, dirty := false } } else y.1

/-- What a party that the resource passes to has waited for begins: the descriptor of a CRC channel (R407). -/
def State.leaseStart (s : State) (res : Nat) : State :=
  match (s.lease res).holder with
  | some p => if res = 5 then s.crcNext p else if res = 6 then s.crcNext (8 + p) else s
  | none => s

/-- A channel is done with its descriptor or halted: its lease passes on. -/
def State.crcRest (s : State) (k : Nat) : State :=
  if s.leaseHas (5 + k / 8) (k % 8) then (s.leaseEnd (5 + k / 8) (k % 8)).leaseStart (5 + k / 8) else s

/-- Channels that take their work from ring `n`. -/
def State.crcKick (s : State) (n : Nat) : State :=
  (List.range 16).foldl (fun (s : State) k => if s.reg (0x9000 + k) 8 = n then s.crcNext k else s) s

/-- Another channel with EN takes its descriptors from the same ring (Table 20-5). -/
def State.crcShared (s : State) (k : Nat) : Bool :=
  (List.range 16).any fun j => j != k && s.crcEn j && s.reg (0x9000 + j) 8 == s.reg (0x9000 + k) 8

/-- The register and the results after a descriptor (R407 steps 2 to 4). After FINAL the accumulator holds a free value, and so do the
results of a ring that two channels name or of bytes overwritten while the descriptor ran (Table 20-5, log 6). -/
def State.crcFeedDesc (s : State) (k : Nat) (b : List Byte) : State :=
  let idx := 0x9000 + k
  let x := Tab.get CrcCh.init s.crc k
  let par := s.crcPar k
  let len := leAt b 4 4
  let final := bitAt (leAt b 1 1) 1
  let f := crcFeed par (if bitAt (leAt b 1 1) 0 then par.init else x.acc) (s.regionBytes (unitDie k) (leAt b 0 1) (leAt b 8 8) len)
  let y := s.free
  let z := y.2.free
  let open_ := s.crcShared k || x.dirty
  let acc := if open_ then y.1 % 2 ^ par.width else f
  let s1 := (if open_ then z.2 else s).setReg idx 15 ((s.reg idx 15 + len) % 2 ^ 64)
  if final then
    let e := s1.free
    let tag := if s.crcShared k then z.1 % 2 ^ 32 else leAt b 16 4
    let s2 := ((e.2.setReg idx 10 (crcFinal par acc)).setReg idx 11 tag).setReg idx 13 ((e.2.reg idx 13 + 1) % 2 ^ 32)
    { s2.setReg idx 12 8 with crc := Tab.set CrcCh.init s2.crc k { x with acc := e.1 % 2 ^ par.width, chain := false, busy := false, dirty := false } }
  else { s1.setReg idx 12 (s1.reg idx 12 / 8 % 2 * 8) with
    crc := Tab.set CrcCh.init s1.crc k { x with acc := acc, chain := true, busy := false, dirty := false } }

end Sys2Proof.Machine
end

