-- ==== Sys2Proof/Machine/Modes.lean ====
section
/-! DEFINITION. Modes and power states (13_power_modes.md R337 to R343), the entry into RUN (02_span_timing.md R43,
03_pattern_engine.md R85 to R90, 17_otp_keys_lifecycle.md R418) and into SAFE (11_fault_handling.md R297). -/

namespace Sys2Proof

/-- START_MODE READY of a zone (R85). -/
def Pattern.startReady (p : Pattern) (z : Nat) : Bool := p.zones.any fun r => r.zone == z && r.startMode == 1

end Sys2Proof

namespace Sys2Proof.Machine

/-! ## Change of mode -/

/-- Configuration opens on every port in BOOT and CONFIGURE only (R188). -/
def State.openConf (s : State) (on : Bool) : State :=
  { s with fd := s.fdies.foldl (fun (t : Tab FDie) f => Tab.upd FDie.init t f fun x =>
      { x with a := { x.a with cfgOpen := on }, b := { x.b with cfgOpen := on } }) s.fd }

/-- Domains that follow the power state (Table 13-2): PD_OTP and PD_MEM_IO are off in DEEP-SLEEP. Those of a fenced M-die stay off (R311). -/
def State.pwrDomains (s : State) : State :=
  let off : BitVec 20 := ((1 : BitVec 20) <<< 3) ||| ((1 : BitVec 20) <<< 14)
  let on : BitVec 20 := if s.order = 830 || s.dieSt 2 != 0 then ((1 : BitVec 20) <<< 3) else off
  { s with pow := { s.pow with pd := if s.modes.pwr = .deepSleep then s.pow.pd &&& ~~~off else s.pow.pd ||| on } }

/-- The device is in another mode, outside RUN and SAFE in ACTIVE (R341); TEST_STATE falls at an entry into RUN or SAFE (R468). -/
def State.toMode (s : State) (m : Mode) : State :=
  let keep := m == .run || m == .safe
  let s1 := { s with modes := { s.modes with
    mode := m, req := none, wait := none, stopping := false
    pwr := if keep then s.modes.pwr else .active, pwrReq := if keep then s.modes.pwrReq else none } }
  let s2 := if keep && (s.tst.state == 1 || s.tst.state == 2) then
      { s1 with tst := { s1.tst with state := 0 } }.setReg 0xD010 0 0
    else s1
  let s3 := if s.modes.pwr == .deepSleep then s2.pwrDomains else s2
  ((s3.openConf (m == .configure || m == .boot)).regate).event2 7 [BitVec.ofNat 8 m.code]

/-! ## Start of an evaluation -/

/-- A filter at an entry into RUN (R86): off, with the level at the ball present from now on. -/
def Filt.restart (kind : Nat) (f : Filt) : Filt :=
  { Filt.init with
    raw := f.raw, lvl := f.raw && kind != 3, deb := f.raw && kind != 3, lastEdge := f.lastEdge, base := f.base, late := f.late, capRise := f.capRise
    capFall := f.capFall, fallSeen := f.fallSeen, lock := f.lock, pend := f.pend, ovRise := f.ovRise, ovFall := f.ovFall
    low := kind == 3 }

/-- A chain at an entry into RUN: latched codes stay until their own rule clears them. -/
def Chain.restart (kind : Nat) (c : Chain) : Chain :=
  { c with
    f := c.f.restart kind
    v := { Superv.init with codes := c.v.codes, differ := c.v.differ, bothOff := c.v.bothOff, chainErr := c.v.chainErr, lastLow := c.v.lastLow
                            clean := c.v.clean }
    img := false, near := false }

/-- Start state of one instance (R85, R86): a zone keeps its lock count, a connection its tuple within a boot (R276, R279). -/
def startIst (p : Pattern) (old : Option Pattern) (com : Img) (locked : Nat → Bool) (i : Inst) : IState :=
  let prev (f : Pattern → Option Nat) : IState := ((old.bind f).map fun q => Tab.get IState.plain com.ist q).getD .plain
  let _ := p
  match i.block with
  | .zone .. => match prev fun o => o.zonePos i.zone with
    | .zone _ _ n t => .zone false (locked i.zone) n t
    | _ => .zone false (locked i.zone) 0 0
  | .connIn c => match prev fun o => o.connPos true c.connId with
    | .connIn _ _ _ b e q => .connIn false 0 none b e q
    | _ => .connIn false 0 none 0 0 0
  | .connOut c => match prev fun o => o.connPos false c.connId with
    | .connOut e _ => .connOut e 0
    | _ => .connOut 0 0
  | b => b.start

/-- One die begins to evaluate `p` at its next tick, every element in its start state (R86). -/
def State.startDie (s : State) (p : Pattern) (locked : Nat → Bool) (d : Die) : State :=
  let old := s.pat.ran
  let l := s.die d
  let nt := s.nextTb d
  let zs (z : Nat) : Nat := if locked z then 0 else if p.startReady z then 1 else 0
  let com := Img.start p d zs fun _ i => startIst p old l.eng.com locked i
  let eng := { Engine.init with
    lanes := l.eng.lanes, com := com, firstSpan := nt.spanNo, firstTickNs := nt.tickNs, comSpan := nt.spanNo, clears := l.eng.clears }
  let ins : Tab InConn := p.insts.zipIdx.foldl (fun (t : Tab InConn) (x : Inst × Nat) => match x.1.block with
    | .connIn c =>
      let o := ((old.bind fun q => q.connPos true c.connId).map fun q => Tab.get InConn.init l.ins q).getD InConn.init
      Tab.set InConn.init t x.2 { InConn.init with last := o.last, lastChk := o.lastChk, keys := o.keys }
    | _ => t) []
  let kind (n : Nat) : Nat := (p.chan n).chainKind
  s.setDie d { l with
    eng := eng, cmp := { Cmp.init with overs := l.cmp.overs }, ins := ins, outc := [], hist := []
    chains := (List.range 132).foldl (fun (t : Tab Chain) n => Tab.upd Chain.init t n (Chain.restart (kind n))) l.chains }

/-- Both dies begin to evaluate `p`; an STDIN value or remote reset for an earlier tick is discarded (R128). -/
def State.startBoth (s : State) (p : Pattern) (locked : Nat → Bool) : State :=
  let n := (s.nextTb s.srv).spanNo
  let s1 := (((s.ringsFor p).startDie p locked .a).startDie p locked .b)
  let stdin : Tab (List (Int × Nat)) := s.stdin.filterMap fun (k, l) =>
    let l' := l.filter fun (y : Int × Nat) => decide (n ≤ y.2)
    if l'.isEmpty then none else some (k, l')
  let remote : Tab (List (Nat × Nat)) := s.remote.filterMap fun (k, l) =>
    let l' := l.filter fun (y : Nat × Nat) => decide (n ≤ y.1)
    if l'.isEmpty then none else some (k, l')
  { s1 with stdin := stdin, remote := remote, pat := { s1.pat with ran := some p } }

/-- Every zone holds a lock-out, those of another Pattern too (R85). -/
def State.lockoutAll (s : State) : State :=
  { s with modes := { s.modes with lockouts := (List.range 64).foldl (fun (t : Tab Bool) z => Tab.set false t z true) s.modes.lockouts } }

/-- Every zone of both committed images is LOCKED. -/
def State.lockBoth (s : State) : State :=
  match s.pattern with
  | none => s
  | some p => (s.lockCom .a p s.allZones).lockCom .b p s.allZones

/-- The device enters SAFE (R297, R337, R340): every zone LOCKED with a lock-out. From BOOT and CONFIGURE the dies begin to
evaluate the active Pattern. -/
def State.enterSafe (s : State) : State :=
  let fresh := s.modes.mode == .boot || s.modes.mode == .configure
  let s1 := { s with modes := { s.modes with act := none } }.toMode .safe
  let s2 := if fresh then (match s1.pat.active with
      | some p => s1.startBoth p fun _ => true
      | none => s1)
    else s1.lockBoth
  s2.lockoutAll

/-! ## Conditions -/

/-- An active or candidate Pattern passes R69 at SPAN_K = k. -/
def State.passes69 (s : State) (k : Nat) (p : Pattern) : Bool :=
  Enc.passes p.encA p.sig64 && Enc.passes p.encB p.sig64 && p.hdr.target == s.order && decide (p.hdr.spanKMin ≤ 7) && capsOk s.order k p.hdr && localCaps s.order p && budgetOk k p.hdr

/-- Condition 1 of R339 (R87, R422): a CONFIRMED candidate, or a confirmed active Pattern that passes R69. -/
def State.patternCond (s : State) : Bool :=
  let k := s.reg 0x2001 0
  s.otp.lc == 2 &&
    ((s.pat.state == 2 && s.pat.cand.isSome)
      || ((s.pat.state == 3 || s.pat.state == 1) && (match s.pat.active with
        | some p => s.passes69 k p
        | none => false)))

/-- The Pattern that an entry into RUN takes (R87). -/
def State.runPattern (s : State) : Option Pattern := if s.pat.state == 2 then s.pat.cand else s.pat.active

/-- Every parameter of the range "1 span to t" of the Pattern that RUN takes is at least T_span (R95). -/
def State.spanParsOk (s : State) : Bool :=
  let t := tspanNs (s.reg 0x2001 0)
  s.runPattern.all fun p => p.insts.all fun i => i.block.spanPars.all fun us => decide (t ≤ us * 1000)

/-- A die is fenced or not yet admitted again. -/
def State.dieFenced (s : State) : Bool := (List.range 7).any fun x => s.dieSt x != 0

/-- A channel is in CFG_MISMATCH (R188). -/
def State.cfgMismatch (s : State) : Bool := s.fdies.any fun f => s.reg 0x4090 (f + 1) != 0

/-- MODE_WHY of a request for RUN: the first condition of R339 that fails, 0 for none. DESIGN CHOICE (log 104): the refusal of R95 shows 1,
that of the Pattern condition; no table names a code for it. -/
def State.runWhy (s : State) : Nat :=
  if s.pow.scan then 9
  else if !s.patternCond || !s.spanParsOk then 1
  else if s.anyClass 3 then 2
  else if s.dieFenced then 3
  else if s.tripLine .a || s.tripLine .b then 4
  else if s.flt.cause.getLsbD 56 || s.flt.cause.getLsbD 55 || s.pfw then 5
  else if s.cfgMismatch then 6
  else if s.modes.pwr == .deepSleep then 7
  else 0

/-! ## Channel modes -/

/-- A write of the mode of one channel through the port of die `d` (R188): accepted only while both ports have opened
configuration, applied when both ports have written the same value, reported in CFG_MISMATCH otherwise. -/
def State.writeMode (d : Die) (n mode : Nat) (s : State) : State :=
  let f := n / 32
  let k := n % 32
  let x := s.fdie f
  if !(s.fdies.contains f && x.powered && x.a.cfgOpen && x.b.cfgOpen) then s
  else
    let y := x.updPort d fun q => { q with modes := Tab.set 0 q.modes k mode, wrote := q.wrote ||| BitVec.ofNat 32 (2 ^ k) }
    let va := Tab.get 0 y.a.modes k
    let vb := Tab.get 0 y.b.modes k
    let r := s.reg 0x4090 (f + 1)
    let open_ (q : FPort) : FPort := { q with closed := q.closed &&& ~~~BitVec.ofNat 32 (2 ^ k) }
    let y' := { y with a := open_ y.a, b := open_ y.b, modes := Tab.set 0 y.modes k (if va = vb then va else 0) }
    (s.updF f fun _ => y').setReg 0x4090 (f + 1) (if va = vb then clrBitN r k else setBitN r k)

/-- Cause `i` of R210 on F-die `f` begins or ends; the common bit holds F_COMMON while any lasts. -/
def State.fCause (s : State) (f i : Nat) (on : Bool) : State :=
  let old := (s.fdie f).causes
  let new := if on then setBitN old i else clrBitN old i
  let fresh (p : FPort) : FPort := if i = 4 && on then { p with wrote := 0 } else p
  let s1 := s.updF f fun x => { x with causes := new, a := fresh x.a, b := fresh x.b }
  if new = 0 then (if old = 0 then s1 else s1.causeOff (48 + f))
  else if old = 0 || !bitAt old i && on then s1.latchStanding (48 + f)
  else s1

/-- The modes of the whole F-die have been written through both ports again: a CRC error of the stored modes ends (R210). -/
def State.modesWritten (s : State) (f : Nat) : State :=
  let x := s.fdie f
  if bitAt x.causes 4 && x.a.wrote == BitVec.allOnes 32 && x.b.wrote == BitVec.allOnes 32 then s.fCause f 4 false else s

/-- Both dies write the modes of a Pattern (R189); a die that is not admitted writes nothing. -/
def State.writeModes (s : State) (p : Pattern) : State :=
  s.fdies.foldl (fun s f => (fdChans f).foldl (fun s n =>
    let m := if n < 128 then (p.chan n).mode else 0
    let s1 := if s.admitted .a then s.writeMode .a n m else s
    if s1.admitted .b then s1.writeMode .b n m else s1) s |>.modesWritten f) s

/-- A Pattern without channels: every channel in mode 0. -/
def Pattern.noModes (p : Option Pattern) (s : State) : State :=
  match p with
  | some q => s.writeModes q
  | none => s

/-- The modes that a request leaving CONFIGURE is judged with (R189). -/
def State.rewrite (s : State) (code : Nat) : State :=
  let p := if (code = 3 || code = 5) && s.pat.state = 2 then s.pat.cand else s.pat.active
  Pattern.noModes p s

/-! ## Requests -/

/-- Table 13-3 as it concerns a request. -/
def reqAllowed (m : Mode) (code : Nat) (activation : Bool) : Bool :=
  match m with
  | .configure => code == 3 || code == 4 || code == 5
  | .safe => code == 2 || code == 3
  | .run => code == 4
  | .service => code == 2 && !activation
  | _ => false

/-- A seat may write request `code` (R338). -/
def State.reqRight (s : State) (seat code : Nat) : Bool :=
  s.owner seat || (s.has seat 2 && (code == 2 || code == 5 || (code == 3 && s.inConf)))

/-- A request is pending. -/
def State.reqPending (s : State) : Bool := s.modes.req.isSome || s.modes.wait.isSome

/-- MODE_REQ (R338). -/
def State.modeReq (s : State) (seat code : Nat) : State :=
  s.write s.reqPending (s.reqRight seat code) (reqAllowed s.modes.mode code s.modes.act.isSome || !(decide (2 ≤ code) && decide (code ≤ 5)))
    (decide (2 ≤ code) && decide (code ≤ 5))
    fun s => { s with modes := { s.modes with req := some (code, seat) } }

def doModeReqConfigure (seat : Fin 8) (s : State) : State := s.modeReq seat 2

def execModeReqConfigure (seat : Fin 8) (s : State) : Host.Outcome State Fault Refusal := .next (doModeReqConfigure seat s)

def doModeReqRun (seat : Fin 8) (s : State) : State := s.modeReq seat 3

def execModeReqRun (seat : Fin 8) (s : State) : Host.Outcome State Fault Refusal := .next (doModeReqRun seat s)

def doModeReqSafe (seat : Fin 8) (s : State) : State := s.modeReq seat 4

def execModeReqSafe (seat : Fin 8) (s : State) : Host.Outcome State Fault Refusal := .next (doModeReqSafe seat s)

def doModeReqService (seat : Fin 8) (s : State) : State := s.modeReq seat 5

def execModeReqService (seat : Fin 8) (s : State) : Host.Outcome State Fault Refusal := .next (doModeReqService seat s)

/-- A request fails at its tick (R338). -/
def State.reqFail (s : State) (why : Nat) : State :=
  { s with modes := { s.modes with req := none } }.setReg 0x2022 0 why

/-- A generator moves to the grid of the values in force (R43): it keeps its ticks where they lie on that grid. -/
def State.regrid (s : State) (d : Die) (same : Bool) : State :=
  let t := (s.die d).tb
  if same && t.err == 0 then s
  else
    let n := if s.modes.tbMode = 0 then
        (if s.everLocked then (s.nowNs d - s.modes.tickOfs) / tspanNs s.modes.spanK + 1 else t.spanNo + 1)
      else t.spanNo + 1
    s.updDie d fun l => { l with tb := { l.tb with step := some n, err := 0, slew := false } }

/-- A request for RUN or test access is taken (R43): the grid of the written values comes into force, both generators move to it, and
the wait for R45 begins. OVR_TOL follows at the entry itself. -/
def State.takeRun (s : State) (service : Bool) : State :=
  let m := s.modes
  let k := s.reg 0x2001 0
  let o := s.reg 0x2002 0
  let t := s.reg 0x2003 0
  let same := m.spanK == k && m.tickOfs == o && m.tbMode == t
  let s1 := { s with modes := { m with
    req := none, spanK := k, tickOfs := o, tbMode := t
    wait := some { aligned := 0, eighthNs := none, since := s.time, service := service, ovrTol := s.reg 0x2004 0 } } }
  ((s1.setReg 0x2022 0 0).regrid .a same).regrid .b same

/-- MODE_REQUEST_TAKE (R338, R339, R340, R189). -/
def doModeRequestTake (s : State) : State :=
  match s.modes.req with
  | none => s
  | some (code, _) =>
    if s.modes.stopping then s
    else if s.pow.scan then s.reqFail 9
    else
      let s1 := if s.inConf then s.rewrite code else s
      if s.inConf && s1.cfgMismatch then s1.reqFail 6
      else if code = 3 then (if s1.runWhy = 0 then s1.takeRun false else s1.reqFail s1.runWhy)
      else if code = 5 then s1.takeRun true
      else if code = 4 then
        if s1.modes.mode = .run then { s1 with modes := { s1.modes with stopping := true } }.setReg 0x2022 0 0
        else if s1.otp.lc == 2 && (match s1.pat.active with
            | some p => s1.passes69 s1.modes.spanK p
            | none => false) then (s1.setReg 0x2022 0 0).enterSafe
        else s1.reqFail 1
      else (s1.setReg 0x2022 0 0).toMode .configure

def execModeRequestTake (s : State) : Host.Outcome State Fault Refusal := .next (doModeRequestTake s)

/-- The active-slot marker of a flash flips (R90). -/
def PatFlash.flip (f : PatFlash) : PatFlash := { f with marker := 1 - f.marker }

/-- A confirmed candidate becomes the active Pattern: both flashes name its slot active, and the other slot keeps what it holds (R66,
R87, R90). -/
def State.activate (s : State) : State :=
  if s.pat.state = 2 then
    let p := s.pat
    { s with pat := { p with active := p.cand, cand := none, state := 3, fa := p.fa.flip, fb := p.fb.flip } }
  else s

/-- The first-run record and the words that it still wants programmed (R418). -/
def State.firstRun (s : State) : State :=
  if s.otp.lc != 2 then s
  else
    let blank := (List.range 3).all fun k => s.otp.word (12 + k) == .blank
    let rec_ := match s.otp.firstRun with
      | some r => some r
      | none => if blank then some (s.rtcMs, s.bkp.bootCnt % 2 ^ 32) else none
    let s1 := { s with otp := { s.otp with firstRun := rec_ } }
    match rec_ with
    | none => s1
    | some (t, b) => if s1.vinGood then
        s1.otpWant ([(12, t % 2 ^ 32), (13, t / 2 ^ 32), (14, b)].filter fun x => s1.otp.word x.1 == .blank)
      else s1

/-- The wait of R43 is over: 8 aligned ticks, 1 ms, and with TB_MODE 0 a locked channel. -/
def State.waitOver (s : State) (w : RunWait) : Bool :=
  (match w.eighthNs with
    | some t => decide (t + 1000000 ≤ (s.nextTb s.srv).tickNs)
    | none => false)
    && (s.modes.tbMode != 0 || s.a.tb.locked || s.b.tb.locked)

/-- Counters and extremes that count since RUN entry. -/
def sinceRun (k : Nat) : Bool :=
  let i := k / 256
  let n := k % 256
  (i == 0x2005 && n == 1) || (i == 0x2007 && n == 2) || i == 0x5009 || (i == 0x5010 && n == 1) || (i == 0x5013 && n == 0) || (i == 0x5014 && n == 2)
    || (decide (0x4600 ≤ i) && decide (i < 0x4680) && n == 4)
    || (decide (0x6000 ≤ i) && decide (i < 0x6400) && decide (9 ≤ n) && decide (n ≤ 11))
    || (decide (0x6C00 ≤ i) && decide (i < 0x6C40) && decide (8 ≤ n) && decide (n ≤ 11))
    || (decide (0x7900 ≤ i) && decide (i < 0x7B00) && n == 4)

/-- They begin again. -/
def State.clearRun (s : State) : State := { s with regs := s.regs.filter fun x => !sinceRun x.1 }

/-- RUN_ENTRY (R43, R85, R86, R90, R418, R470): at the next tick the first span begins. -/
def doRunEntry (s : State) : State :=
  match s.modes.wait with
  | none => s
  | some w =>
    if !s.waitOver w then s
    else
      let fromSafe := s.modes.mode == .safe
      let s := { s with modes := { s.modes with ovrTol := w.ovrTol } }
      if w.service then
        let s1 := (s.toMode .service).clearRun
        match s1.pattern with
        | none => s1
        | some p => s1.startBoth p fun z => Tab.get false s1.modes.lockouts z
      else
        let s1 := ((s.activate.toMode .run).firstRun).clearRun
        match s1.pat.active with
        | none => s1
        | some p => s1.startBoth p fun z => fromSafe || Tab.get false s1.modes.lockouts z

def execRunEntry (s : State) : Host.Outcome State Fault Refusal := .next (doRunEntry s)

/-- RUN_REQUEST_LAPSE: 10 s without R45 (R339). A BOOT that would have ended in RUN ends in SAFE (Table 13-3). -/
def doRunRequestLapse (s : State) : State :=
  if s.modes.wait.isNone then s
  else
    let s1 := { s with modes := { s.modes with wait := none } }.setReg 0x2022 0 8
    if s1.modes.mode = .boot then s1.enterSafe else s1

def execRunRequestLapse (s : State) : Host.Outcome State Fault Refusal := .next (doRunRequestLapse s)

/-- SAFE_ENTRY_AFTER_STOP (R340): every zone is LOCKED on both dies. -/
def doSafeEntryAfterStop (s : State) : State :=
  let locked (d : Die) : Bool := match s.pattern with
    | some p => (s.die d).eng.com.allLocked p d || !s.admitted d
    | none => true
  if s.modes.stopping && s.modes.mode == .run && locked .a && locked .b then s.enterSafe else s

def execSafeEntryAfterStop (s : State) : Host.Outcome State Fault Refusal := .next (doSafeEntryAfterStop s)

/-- SAFE_ENTRY (R297): the tick after the commit points that locked every zone. -/
def doSafeEntry (s : State) : State :=
  if s.flt.c3 == .safe then
    let s1 := { s with flt := { s.flt with c3 := .none } }
    if s1.modes.mode = .safe || s1.modes.mode = .shelf || s1.modes.mode = .boot then s1 else s1.enterSafe
  else s

def execSafeEntry (s : State) : Host.Outcome State Fault Refusal := .next (doSafeEntry s)

/-! ## Power states -/

/-- PWR_REQ (R341). -/
def State.pwrReq (s : State) (seat : Nat) (x : Pwr) : State :=
  s.write false (s.owner seat)
    ((s.modes.mode == .run || s.modes.mode == .safe) && !(s.modes.mode == .run && x == .deepSleep)) true
    fun s => { s with modes := { s.modes with pwrReq := some x } }

def doPwrReqActive (seat : Fin 8) (s : State) : State := s.pwrReq seat .active

def execPwrReqActive (seat : Fin 8) (s : State) : Host.Outcome State Fault Refusal := .next (doPwrReqActive seat s)

def doPwrReqSleep (seat : Fin 8) (s : State) : State := s.pwrReq seat .sleep

def execPwrReqSleep (seat : Fin 8) (s : State) : Host.Outcome State Fault Refusal := .next (doPwrReqSleep seat s)

def doPwrReqDeepSleep (seat : Fin 8) (s : State) : State := s.pwrReq seat .deepSleep

def execPwrReqDeepSleep (seat : Fin 8) (s : State) : Host.Outcome State Fault Refusal := .next (doPwrReqDeepSleep seat s)

/-- POWER_STATE_CHANGE (R341, R329, R65): at the next tick, or to and from DEEP-SLEEP at a tick of its grid. While CK_MEM is gated,
journal writes are dropped. -/
def doPowerStateChange (s : State) : State :=
  match s.modes.pwrReq with
  | none => s
  | some x =>
    let deep := x == .deepSleep || s.modes.pwr == .deepSleep
    let grid := (s.spanNo + 1) % 2 ^ (7 - s.modes.spanK) == 0 || s.modes.pwr == .deepSleep
    if x == .deepSleep && s.modes.mode != .safe then { s with modes := { s.modes with pwrReq := none } }
    else if deep && x != s.modes.pwr && !grid then s
    else
      let s1 := ({ s with modes := { s.modes with pwr := x, pwrReq := none } }.regate).pwrDomains
      let gated := s1.order != 830 && (s1.clk.gated.getLsbD 13 || !s1.pdOn 14)
      if gated then (s1.jrnStop .a).jrnStop .b else s1

def execPowerStateChange (s : State) : Host.Outcome State Fault Refusal := .next (doPowerStateChange s)

end Sys2Proof.Machine
end

