-- ==== Sys2Proof/Machine/Power.lean ====
section
/-! DEFINITION. Supply and boot commands (13_power_modes.md R332 to R351, 10_safe_networks.md R287, 17_otp_keys_lifecycle.md R424,
R426, R430, 20_commissioning_access.md R474). -/

namespace Sys2Proof.Machine

/-! ## Domains and enables -/

/-- A set of PD_STAT bits. -/
def pdSet (l : List Nat) : BitVec 20 := l.foldl (fun w n => w ||| ((1 : BitVec 20) <<< n)) 0

/-- A set of PWR_EN balls. -/
def enSet (l : List Nat) : BitVec 8 := l.foldl (fun w n => w ||| ((1 : BitVec 8) <<< n)) 0

/-- Turn enables and domains on. -/
def Power.on (p : Power) (en pd : List Nat) : Power := { p with en := p.en ||| enSet en, pd := p.pd ||| pdSet pd }

/-- Turn enables and domains off. -/
def Power.cut (p : Power) (en pd : List Nat) : Power := { p with en := p.en &&& ~~~enSet en, pd := p.pd &&& ~~~pdSet pd }

/-- Arm the monitors of rails, by their place in RAIL_MV. -/
def Power.arm (p : Power) (l : List Nat) : Power :=
  { p with armed := p.armed ||| l.foldl (fun w n => w ||| ((1 : BitVec 11) <<< n)) 0 }

/-- Disarm them; RAIL_STAT shows nothing of a rail that the sequencer has removed (R333). -/
def Power.disarm (p : Power) (l : List Nat) : Power :=
  let gone : BitVec 13 := l.foldl (fun w n => w ||| ((1 : BitVec 13) <<< (if n ≤ 5 then n else n + 2))) 0
  { p with armed := p.armed &&& ~~~l.foldl (fun w n => w ||| ((1 : BitVec 11) <<< n)) 0, rails := p.rails &&& ~~~gone }

/-- RAIL_STAT bits other than PFW and VBAT_LOW (R333). -/
def Power.railBad (p : Power) : Bool := (p.rails &&& 0x0F7F#13) != 0

/-- Place of a rail in RAIL_MV, from 0, and its RAIL_STAT bit. -/
def railIdx : Rail → Nat
  | .ca => 0
  | .cb => 1
  | .v18 => 2
  | .v33 => 3
  | .mem => 4
  | .vin => 5
  | .vfld d => 6 + d.val
  | .vbat => 10

def railBit : Rail → Nat
  | .ca => 0
  | .cb => 1
  | .v18 => 2
  | .v33 => 3
  | .mem => 4
  | .vin => 6
  | .vfld d => 8 + d.val
  | .vbat => 12

/-- The monitor window of a rail in mV (Table 13-1). Those that the field and VIN thresholds bound below have rows of their own. -/
def railWindow : Rail → Nat × Nat
  | .ca => (713, 787)
  | .cb => (760, 840)
  | .v18 => (1710, 1890)
  | .v33 => (3135, 3465)
  | .mem => (1045, 1155)
  | .vin => (0, 33000)
  | .vfld _ => (0, 32000)
  | .vbat => (2400, 1000000)

/-- A rail lies outside its window. -/
def railOut (r : Rail) (mv : Nat) : Bool := decide (mv < (railWindow r).1) || decide ((railWindow r).2 < mv)

/-- RAIL stands while any RAIL_STAT bit but PFW and VBAT_LOW is 1 (R333). -/
def State.railCause (s : State) : State := if s.pow.railBad then s.causeOn 56 else s.causeOff 56

/-! ## Off and on -/

/-- An entry of the register store that outlives a loss of power: persistent, in the backup domain, or a fact of the firmware. -/
def keepReg (k : Nat) : Bool :=
  match odFind (k / 256) (k % 256) with
  | some r => r.pers == 1 || r.pers == 2 || r.lo == 0xA002 || (r.lo == 0xA003 && k % 256 == 1) || r.lo == 0xA00A
  | none => k / 256 == 0xC040

/-- Registers as a boot finds them (R356), from the flash of a die that was written last. -/
def State.bootRegs (s : State) : Regs :=
  (if s.admitted .a then s.pers.a else s.pers.b).foldl (fun (t : Regs) x => Regs.set t x.1 x.2) ((s.regs.filter fun x => keepReg x.1 && (match odFind (x.1 / 256) (x.1 % 256) with
    | some r => r.acc != 4
    | none => true)))

/-- What an update keeps over a loss of power (R451, R463): the firmware slots with their markers, and the manifest of a staging that stands
in the inactive slots; an upload that had not come so far is lost. -/
def Update.cold (u : Update) : Update :=
  let u1 := { Update.init with fwA := u.fwA, fwB := u.fwB, lib := u.lib, why := u.why }
  if u.state < 3 then u1 else { u1 with manifest := u.manifest, have_ := u.have_, state := u.state }

/-- A pulse that was running when the supply went has left its word with some bits programmed (Table 13-6). -/
def Otp.cold (o : Otp) : Otp :=
  let w := match o.op with
    | some x => o.put x.word .spent
    | none => o.words
  { Otp.init with words := w, firstRun := o.firstRun }

/-- The password hash in the Pattern flashes (R378): 32 bytes and a closing 1 as one number, 0 while none is set. -/
def keptHash (v : Nat) : List Byte := if v = 0 then [] else leBytes 32 v

/-- The device with every domain but PD_BKP off: SHELF (R335, R347). Flash contents, OTP and the backup domain stay. -/
def State.shelf (s : State) : State :=
  let p := s.pow
  { State.reset with
    order := s.order, otp := s.otp.cold, bkp := s.bkp, regs := s.bootRegs, pers := s.pers
    keys := { s.keys with auth := 0, recorded := [], eraPend := none, bootEpoch := 0, wiped := false }
    rings := { Rings.init with log := s.pat.newerLog }
    br := { Bridle.init with hash := keptHash (Regs.get (if s.admitted .a then s.pers.a else s.pers.b) 0x101200) }
    upd := s.upd.cold
    pat := { s.pat with loading := false, confirming := false, loadErr := 0, ran := none }
    pow := { Power.init with
      vinMv := p.vinMv, strapMv := p.strapMv, resetLow := p.resetLow, recA := p.recA, recB := p.recB
      newRec := p.pfA == .done || p.pfB == .done, gapRec := !(p.pfA == .done || p.pfB == .done) && (p.pfA != .idle || p.pfB != .idle) }
    freeCtr := s.freeCtr, time := s.time, pending := s.pending }

/-- The delay of a crystal by the OTP word: where a reserved bit is 1 it is some value from 0 to 1,023 (Table 20-5, log 6). -/
def State.oscDly (s : State) (v k : Nat) : Nat :=
  if v / 1024 % 64 = 0 && v / 2 ^ 26 % 32 = 0 then v / 65536 ^ k % 1024 else Config.freeValue (s.freeCtr + k) % 1024

/-- OSCMODE selects start mode and delays (R318, R319): source, delay A, delay B. -/
def State.oscMode (s : State) (mv : Nat) : Nat × Nat × Nat :=
  let o := s.otp
  let best := (((List.range 8).map fun k => 391 - k).find? fun k => (o.word k).ok && bitAt (o.word k).val 31).map fun k => (o.word k).val
  if mv < 50 then (0, 0, 0)
  else if mv < 250 then
    (match best with
      | some v => (1, s.oscDly v 0, s.oscDly v 1)
      | none => (2, 156, 156))
  else if mv < 1000 then (3, 125, 125)
  else (4, 500, 500)

/-- Boot step `k` begins (Table 13-5). -/
def State.beginStep (s : State) (k : Nat) : State :=
  let s0 := { s with pow := { s.pow with bootStep := k } }
  let up (en pd : List Nat) : State := { s0 with pow := s0.pow.on en pd }
  if k = 1 then up [] [1]
  else if k = 2 then up [0] []
  else if k = 3 then
    let s1 := up [1] [2, 3]
    { s1 with clk := s1.clk.setSrc .pmu { s1.clk.pmu with st := .released } }
  else if k = 4 then
    let s1 := up [2, 3] []
    let c := (s1.clk.setSrc .refA { s1.clk.refA with st := .starting }).setSrc .refB { s1.clk.refB with st := .starting }
    ({ s1 with clk := c }.bump 16 0x2015 1).bump 16 0x2015 2
  else if k = 5 then
    let s1 := up [] [4, 5, 7, 9, 10, 12]
    let boot (l : LDie) : LDie := { l with mgmt := .booting }
    ((s1.updDie .a boot).updDie .b boot).regate
  else if k = 6 then up [] [19]
  else if k = 7 then
    let s1 := up [4] [13, 14]
    { s1 with clk := s1.clk.setSrc .mem { s1.clk.mem with st := .released } }
  else if k = 8 then up [5, 6] [6, 11]
  else if k = 9 then up [7] (s0.fdies.map (15 + ·))
  else s0

/-- OSCMODE is sampled and the sequencer starts with step 1 (R337, R344). -/
def State.startBoot (s : State) (strapMv : Nat) : State :=
  let m := s.oscMode strapMv
  let s1 := { s with
    modes := { s.modes with
      mode := .boot, spanK := s.reg 0x2001 0, tickOfs := s.reg 0x2002 0, tbMode := s.reg 0x2003 0, ovrTol := s.reg 0x2004 0 }
    pow := { s.pow with bootAt := s.time, fails := 0, held := false, retry := false, strapMv := strapMv, down := 0, off := false }
    clk := { s.clk with s4 := m.1 == 0 }
    freeCtr := s.freeCtr + 2 }
  ((((s1.setReg 0x2010 1 m.2.1).setReg 0x2010 2 m.2.2).setReg 0x2010 3 m.1).regate).beginStep 1

/-- VIN_RISE (R337): VIN at 19.5 V ±0.3 V or more for 5 ms. -/
def doVinRise (mv strapMv : Nat) (s : State) : State :=
  if s.modes.mode != .shelf || s.pow.resetLow || decide (mv < 19200) then s
  else
    ({ s with pow := { s.pow with vinMv := mv } }.setReg 0x2031 6 mv).startBoot strapMv

def execVinRise (mv strapMv : Nat) (s : State) : Host.Outcome State Fault Refusal := .next (doVinRise mv strapMv s)

/-! ## What the boot steps do -/

/-- The backup domain is lost (R426). -/
def Backup.lost (b : Backup) : Bool := !b.crcOk || b.brown || b.tamper

/-- Step 3: a lost backup domain, BOOT_CNT, the latches of the domain (R287, R426). -/
def State.bootCount (s : State) : State :=
  let lost := s.bkp.lost
  let s1 := (s.setReg 0xC040 7 (b2n lost)).setReg 0xC040 8 (b2n s.bkp.tamper)
  let b0 := if lost then { s1.bkp with rtc := 0, rtcOk := false, bootCnt := 0, eraSeen := 0, eraBase := 0, tamper := false, brown := false, crcOk := true }
    else s1.bkp
  let s2 := { s1 with bkp := { b0 with bootCnt := b0.bootCnt + 1 } }
  if lost then ((s2.setReg 0x2033 1 0).latch 36) else s2

/-- A lifecycle change is pending and the boot can finish it (R424, Table 13-6). -/
def State.lcFinish (s : State) : Bool := s.otp.lcPend.isSome && s.vinGood && s.otpMay && decide (0 < s.otp.blanks 16 16)

/-- The boot repeats the actions of a pending lifecycle change and programs its state word. -/
def State.lcResume (s : State) : State :=
  match s.otp.lcPend with
  | none => s
  | some w => (s.lcAct (lcTarget w)).otpWant [(16, stateWord w)]

/-- A lane is retired for good (18_self_test.md R439, R446): the spare evaluates in its place, so that 16 lanes evaluate with none
to spare. -/
def Engine.retireLane (e : Engine) (n : Nat) : Engine :=
  let lanes := Tab.set .free e.lanes n .retired
  match (List.range 17).find? fun k => Tab.get LaneSt.free lanes k == .spare with
  | some k => { e with lanes := Tab.set .free lanes k .free }
  | none => { e with lanes := lanes }

/-- Step 3 loads every valid repair record (R446): lanes and channels that a record retires stay out. -/
def State.loadRepairs (s : State) : State :=
  (s.otp.repairs s.order).foldl (fun s v =>
    let die := v / 2 ^ 25 % 8
    let unit := v % 2 ^ 12
    if v / 2 ^ 28 == 12 && die < 2 then s.updDie (if die = 0 then .a else .b) fun l => { l with eng := l.eng.retireLane unit }
    else s) s

/-- The generation in force of one slot (R430): the highest that both dies hold with equal check values. -/
def pairSlot (x y : KeySlot) : KeySlot × KeySlot :=
  let cells (k : KeySlot) : List KeyCell := k.cur.toList ++ k.old.toList
  let both := (cells x).filter fun c => (cells y).any fun e => e.gen == c.gen && e.check == c.check
  match maxBy (fun (c : KeyCell) => c.gen) both with
  | none =>
    let mis := !(cells x).isEmpty || !(cells y).isEmpty
    ({ x with cur := none, old := maxBy (fun (c : KeyCell) => c.gen) (cells x), mismatch := mis, pending := false },
      { y with cur := none, old := maxBy (fun (c : KeyCell) => c.gen) (cells y), mismatch := mis, pending := false })
  | some c =>
    let of (k : KeySlot) : KeySlot :=
      { cur := (cells k).find? fun e => e.gen == c.gen, old := (cells k).find? fun e => e.gen != c.gen, mismatch := false, pending := false }
    (of x, of y)

/-- The dies compare their key slots over the Stitch link (R430). -/
def Keys.pair (k : Keys) : Keys :=
  (List.range 16).foldl (fun k n =>
    let r := pairSlot (Tab.get KeySlot.init k.a n) (Tab.get KeySlot.init k.b n)
    { k with a := Tab.set KeySlot.init k.a n r.1, b := Tab.set KeySlot.init k.b n r.2 }) k

/-- BOOT of an era: ERA × 2^20 + (BOOT_CNT − ERA_BASE) (R287). -/
def bootOf (era cnt base : Nat) : Nat := (era * 2 ^ 20 + (cnt - base)) % 2 ^ 32

/-- KGEN of every CONN slot, recorded while AUTH_STATE is not 0 (R433). -/
def Keys.record (k : Keys) : Keys :=
  { k with recorded := (List.range 16).foldl (fun (t : Tab Nat) n => match k.cell .a n with
      | some c => if c.typ = 2 then Tab.set 0 t n c.gen else t
      | none => t) [] }

/-- AUTH_STATE not 0. -/
def State.authClose (s : State) (v : Nat) : State := { s with keys := { s.keys.record with auth := v } }

/-- Begin the write of a new era record (R287, R427); AUTH_STATE opens once it is written. -/
def State.newEra (s : State) (era keyset : Nat) (install : Bool) : State :=
  let g := (s.keys.era.map (·.gen)).getD 0
  let r : EraRec := { gen := g + 1, era := era, keyset := keyset, boot := s.bkp.bootCnt }
  let s1 := s.authClose (if install then s.keys.auth else 1)
  { s1 with keys := { s1.keys with eraPend := some (r, install) } }

/-- Table 10-7. -/
def State.bootEra (s : State) : State :=
  let lost := s.reg 0xC040 7 == 1
  let cnt := s.bkp.bootCnt
  let base := s.bkp.eraBase
  let ks := (s.keys.era.map (·.keyset)).getD 0
  let era := (s.keys.era.map (·.era)).getD 0
  let s0 := { s with keys := { s.keys with bootEpoch := bootOf era cnt base } }
  let fresh (e : Nat) : State := if 4095 < e then s0.authClose 2 else s0.newEra e ks false
  if lost then
    (match s.keys.era with
      | some r => fresh (r.era + 1)
      | none => s0.authClose 1)
  else match s.keys.era with
    | some r =>
      if r.era = s.bkp.eraSeen && decide (cnt - base ≤ 2 ^ 20 - 1) then { s0 with keys := { s0.keys with auth := 0 } }
      else fresh (max r.era s.bkp.eraSeen + 1)
    | none => fresh (s.bkp.eraSeen + 1)

/-- A power-fail record as the 2,048 bytes of R349, its parts in the order of the rule. -/
def PfRec.bytes (r : PfRec) : List Byte :=
  let l := r.jrn.flatMap id ++ leBytes 8 r.fsw.toNat ++ leBytes 8 r.sec.toNat ++ leBytes 8 r.span ++ leBytes 8 r.rtc
  (l ++ List.replicate 2048 0).take 2048

/-- The journal of a die begins with the record of the last power failure, or with a gap marker (R349, Table 13-6). -/
def State.bootJournal (s : State) (d : Die) : State :=
  let r := if d = .a then s.pow.recA else s.pow.recB
  match r with
  | some x => if s.pow.newRec then s.jrnRec d 6 (leBytes 2 x.jrn.length ++ x.bytes) else if s.pow.gapRec then s.jrnRec d 15 (leBytes 4 0) else s
  | none => if s.pow.gapRec then s.jrnRec d 15 (leBytes 4 0) else s

/-- The Pattern check of step 10 (R69, R87): each die reads the slots of its own flash again; a candidate that fails is gone, an active
Pattern that fails leaves INVALID. -/
def State.bootPattern (s : State) : State :=
  let s1 := s.lcLoad
  let k := s1.modes.spanK
  let p := s1.pat
  let candErr := loadErr s1.order k p.fa.cand.bytes p.fb.cand.bytes
  let actErr := loadErr s1.order k p.fa.active.bytes p.fb.active.bytes
  let act := p.active.map fun _ => readBoth p.fa.active.bytes p.fb.active.bytes
  if (p.state == 1 || p.state == 2) && p.cand.isSome && candErr == 0 then
    { s1 with pat := { p with active := act, cand := some (readBoth p.fa.cand.bytes p.fb.cand.bytes) } }
  else { s1 with pat := { p with active := act, cand := none, state := if act.isNone then 0 else if actErr == 0 then 3 else 4 } }

/-- The active slot holds a Pattern that passes R69. -/
def State.activeOk (s : State) : Bool :=
  match s.pat.active with
  | some p => s.passes69 s.modes.spanK p
  | none => false

/-- Release of the trip lines: the P-die lets them go, and so do admitted L-dies (R21, R306, R344). -/
def State.untrip (s : State) : State :=
  { s with flt := { s.flt with tripA := false, tripB := false, tripLA := false, tripLB := false } }.driveTrips

/-- BOOT ends (R337, R344, R349). -/
def State.bootEnd (s : State) : State :=
  let s0 := s.setReg 0x2034 1 ((s.time - s.pow.bootAt) / 8)
  let s1 := { s0 with pow := { s0.pow with bootStep := 0, pfA := .idle, pfB := .idle } }
  let clean := !s1.anyClass 3 && !s1.flt.cause.getLsbD 56 && !s1.flt.cause.getLsbD 55 && !s1.clk.tripHeld
  let s2 := if clean then s1.untrip else s1
  if s2.pow.c3Boot then s2.enterSafe
  else if !s2.activeOk then s2.toMode .configure
  else if s2.reg 0x2023 0 == 1 && s2.runWhy == 0 then s2.takeRun false
  else s2.enterSafe

/-- The supply current and VFLD of an F-die that gets power, as measured there: free values with no cause of R197 or R209 (log 123). -/
def State.fieldSupply (s : State) (f : Nat) : State :=
  let s1 := s.free.2.setReg (0x4700 + f) 1 (s.free.1 % 4401)
  s1.free.2.setReg (0x4700 + f) 2 (17501 + s1.free.1 % 48035)

/-- A boot step is complete (Table 13-5). Answers the next state before the next step begins. -/
def State.endStep (s : State) (k : Nat) : State :=
  let arm (l : List Nat) : State := { s with pow := s.pow.arm l }
  if k = 1 then
    let s1 := arm [5, 10]
    { s1 with clk := { s1.clk with armed := s1.clk.armed ||| domainSet [1, 2] } }
  else if k = 2 then arm [3]
  else if k = 3 then ((arm [2]).bootCount).loadRepairs
  else if k = 4 then arm [0, 1]
  else if k = 5 then
    let up (l : LDie) : LDie := { l with mgmt := .serving }
    (s.updDie .a up).updDie .b up
  else if k = 6 then
    let up (l : LDie) : LDie := { l with link := { Link.init with lanes := l.link.lanes } }
    let s1 := (s.updDie .a up).updDie .b up
    { s1 with clk := { s1.clk with armed := s1.clk.armed ||| domainSet [13] } }
  else if k = 7 then arm [4]
  else if k = 9 then
    let s1 := arm ((s.fdies.map (6 + ·)))
    let s2 := { s1.fdies.foldl State.fieldSupply s1 with
      fd := s1.fdies.foldl (fun (t : Tab FDie) f => Tab.upd FDie.init t f fun x => { x with powered := true, low := false, gate := true }) s1.fd
      clk := { s1.clk with armed := s1.clk.armed ||| domainSet [15, 16] } }
    let s3 := (s2.openConf true).driveTrips
    Pattern.noModes s3.pat.active s3
  else if k = 10 then 
    let rings : Rings := match s.pat.active with
      | some p => ({ s.rings with desc := [] } : Rings).load s.order p
      | none => ({ s.rings with desc := [] } : Rings).ring0
    (({ s with rings := rings }.bootJournal .a).bootJournal .b).bootEnd
  else s

/-- Boot steps in order; the TRK-V830 skips 7 and 9 (R344). -/
def nextStep (order k : Nat) : Nat := if order = 830 && (k = 6 || k = 8) then k + 2 else k + 1

/-- A step can be complete: the crystals under R321, the four Stitch lanes, a pending lifecycle change and the era record. -/
def State.stepMay (s : State) (k : Nat) : Bool :=
  if k = 3 then s.otp.op.isNone && !s.lcFinish
  else if k = 4 then s.clk.refA.st == .passed && s.clk.refB.st == .passed
  else if k = 6 then s.a.link.lanes % 16 == 15 && s.b.link.lanes % 16 == 15
  else if k = 10 then s.keys.eraPend.isNone
  else true

/-- BOOT_STEP_COMPLETE (R344). Completing step 3 first finishes a pending lifecycle change; step 10 begins with the Pattern check
and the boot epoch. -/
def doBootStepComplete (s : State) : State :=
  let k := s.pow.bootStep
  if s.modes.mode != .boot || k = 0 || s.pow.retry || s.pow.held || s.pow.off || s.modes.wait.isSome then s
  else if k = 3 && s.lcFinish then s.lcResume
  else if !s.stepMay k then s
  else
    let s1 := s.endStep k
    if k = 10 then s1
    else
      let n := nextStep s1.order k
      let s2 := s1.beginStep n
      if n = 10 then ({ s2 with keys := s2.keys.pair }.bootPattern).bootEra else s2

def execBootStepComplete (s : State) : Host.Outcome State Fault Refusal := .next (doBootStepComplete s)

/-! ## Failed boots -/

/-- The sequencer removes the domains and rails above the first `keep` steps (R345): the dies lose what they hold. -/
def State.unboot (s : State) (held : Bool) : State :=
  let off : Source → Source := fun x => { x with st := .off }
  let p := s.pow
  let p1 := if held then (p.cut [2, 3, 4, 5, 6, 7] [4, 5, 6, 7, 8, 9, 10, 11, 12, 13, 14, 15, 16, 17, 18, 19]).disarm [0, 1, 4, 6, 7, 8, 9]
    else (p.cut [0, 1, 2, 3, 4, 5, 6, 7] [2, 3, 4, 5, 6, 7, 8, 9, 10, 11, 12, 13, 14, 15, 16, 17, 18, 19]).disarm [0, 1, 2, 3, 4, 6, 7, 8, 9]
  let c := s.clk
  { s with
    pow := p1, a := .init, b := .init, fd := []
    clk := { c with refA := off c.refA, refB := off c.refB, mem := off c.mem, pmu := if held then c.pmu else off c.pmu
                    lockA := false, lockB := false, lockMem := false, lockPmu := c.lockPmu && held, swA := .init, swB := .init, swMem := .init
                    swPmu := if held then c.swPmu else .init
                    armed := c.armed &&& domainSet [1, 2], deadA := false, deadB := false }
    keys := { s.keys with eraPend := none } }

/-- BOOT_STEP_TIMEOUT (R345): SEQ latches, and after the third failed boot steps 1 to 3 stay powered. At step 4 the
command stands for its rails, since a crystal that does not start is no step failure. -/
def doBootStepTimeout (s : State) : State :=
  let k := s.pow.bootStep
  if s.modes.mode != .boot || k = 0 || s.pow.retry || s.pow.held || s.modes.wait.isSome then s
  else
    let n := s.pow.fails + 1
    let s1 := (s.latch 35).setReg 0x2034 3 k
    let s2 := (s1.unboot (decide (3 ≤ n))).railCause
    { s2 with pow := { s2.pow with fails := min n 255, held := decide (3 ≤ n), retry := decide (n < 3) } }

def execBootStepTimeout (s : State) : Host.Outcome State Fault Refusal := .next (doBootStepTimeout s)

/-- BOOT_RETRY (R345): 100 ms later the sequencer starts again from step 2. -/
def doBootRetry (s : State) : State :=
  if s.modes.mode == .boot && s.pow.retry then { s with pow := { s.pow with retry := false } }.beginStep 2 else s

def execBootRetry (s : State) : Host.Outcome State Fault Refusal := .next (doBootRetry s)

/-! ## VIN -/

/-- VIN falls below VIN_OFF, or RESET_N acts as if it did (R347, R474): an activation reverts, RAIL latches. -/
def State.vinOff (s : State) : State :=
  let s1 := s.revert 20
  let s2 := { s1 with pow := { s1.pow with off := true } }
  (s2.latchStanding 56).tripNow

/-- RESET_N_LOW (R474). -/
def doResetNLow (s : State) : State :=
  let s1 := { s with pow := { s.pow with resetLow := true } }
  if s1.modes.mode = .shelf || s1.pow.off then s1 else s1.vinOff

def execResetNLow (s : State) : Host.Outcome State Fault Refusal := .next (doResetNLow s)

/-- RESET_N_RELEASE (R474): BOOT starts 10 µs after RESET_N returns high. -/
def doResetNRelease (s : State) : State :=
  let was := s.pow.resetLow
  let s1 := { s with pow := { s.pow with resetLow := false } }
  if was && s1.modes.mode == .shelf && decide (19200 ≤ s1.pow.vinMv) then s1.startBoot s1.pow.strapMv else s1

def execResetNRelease (s : State) : Host.Outcome State Fault Refusal := .next (doResetNRelease s)

/-- Length of a journal record without its tag and distance, from its type and the byte after the EVENT kind (Table 15-5). -/
def recLen (typ len : Nat) : Nat :=
  if typ = 1 then 16 else if typ = 2 then 2 else if typ = 3 then 3 else if typ = 4 then 4 else if typ = 5 then 2 + len
  else if typ = 6 then 2050 else if typ = 15 then 4 else 0

/-- The records of a run of journal bytes, oldest first; padding ends it. -/
def jrnRecords : Nat → List Byte → List (List Byte)
  | 0, _ => []
  | _, [] => []
  | n + 1, b :: bs =>
    let typ := b.toNat / 16
    if typ = 0 then []
    else
      let ext := if b.toNat % 16 = 15 then 4 else 0
      let len := 1 + ext + recLen typ (bs.getD (ext + 1) 0).toNat
      (b :: bs).take len :: jrnRecords n ((b :: bs).drop len)

/-- The last records of a journal: those of its current block, and before them those of the block before. -/
def Journal.last (order n : Nat) (j : Journal) : List (List Byte) :=
  let blk := jblk order
  let o := (j.head - 1) / blk * blk
  let p := (o + jhalf order - blk) % jhalf order
  let cur := jrnRecords (j.head - o) (Mem.readN j.mem o (j.head - o))
  let all := (if o = p || o == j.oldest then [] else jrnRecords blk (Mem.readN j.mem p blk)) ++ cur
  all.drop (all.length - n)

/-- The record of die `d` as the latch of PFW finds it: the last 32 journal entries, FSW, FSW_SEC, SPAN_NO and the RTC time (R349). -/
def State.pfRec (s : State) (d : Die) : PfRec :=
  let l := s.die d
  { span := l.tb.spanNo, rtc := s.rtcMs, fsw := s.flt.fsw, sec := s.flt.sec, jrn := (l.jrn.flush s.order).last s.order 32 }

/-- The power-fail record of a die starts (R349), once per boot and only on a die that can write. -/
def State.pfStart (s : State) : State :=
  let go (d : Die) (x : PfState) : PfState := if x == .idle && s.ticking d && s.modes.mode != .boot then .writing (s.pfRec d) else x
  { s with pow := { s.pow with pfA := go .a s.pow.pfA, pfB := go .b s.pow.pfB } }

/-- PFW_LATCH (R346). -/
def doPfwLatch (mv : Nat) (s : State) : State :=
  if s.modes.mode = .shelf || s.pfw || decide (17900 ≤ mv) then s
  else
    let s1 := { s with pow := { s.pow with
      rails := s.pow.rails ||| ((1 : BitVec 13) <<< 7), vinMv := mv, pfwBoot := true, pfwAt := s.time } }
    let s2 := ((s1.bump 32 0x2033 1).setReg 0x2033 2 s1.rtcMs).setReg 0x2031 6 mv
    (s2.latchStanding 41).pfStart

def execPfwLatch (mv : Nat) (s : State) : Host.Outcome State Fault Refusal := .next (doPfwLatch mv s)

/-- POWER_FAIL_RECORD_DONE (R349): the commit marker is there, and this record is the newer valid one. -/
def doPowerFailRecordDone (d : Die) (s : State) : State :=
  match d, s.pow.pfA, s.pow.pfB with
  | .a, .writing r, _ => { s with pow := { s.pow with pfA := .done, recA := some r } }
  | .b, _, .writing r => { s with pow := { s.pow with pfB := .done, recB := some r } }
  | _, _, _ => s

def execPowerFailRecordDone (d : Die) (s : State) : Host.Outcome State Fault Refusal := .next (doPowerFailRecordDone d s)

/-- PFW_CLEAR (R346): VIN above the clear threshold of 17.8 V ±0.2 V. -/
def doPfwClear (mv : Nat) (s : State) : State :=
  if !s.pfw || decide (mv < 17600) then s
  else
    let s1 := ({ s with pow := { s.pow with rails := s.pow.rails &&& ~~~((1 : BitVec 13) <<< 7), vinMv := mv } }.setReg 0x2031 6 mv).causeOff 41
    s1.otpNext

def execPfwClear (mv : Nat) (s : State) : Host.Outcome State Fault Refusal := .next (doPfwClear mv s)

/-- VIN_OFF (R347): VIN below 15.0 V ±0.3 V. -/
def doVinOff (mv : Nat) (s : State) : State :=
  if s.modes.mode = .shelf || s.pow.off || decide (15300 ≤ mv) then s
  else ({ s with pow := { s.pow with rails := s.pow.rails ||| ((1 : BitVec 13) <<< 5), vinMv := mv } }.setReg 0x2031 6 mv).vinOff

def execVinOff (mv : Nat) (s : State) : Host.Outcome State Fault Refusal := .next (doVinOff mv s)

/-- One step of the power-down (R347). -/
def State.downStep (s : State) (k : Nat) : State :=
  let cut (en pd arm : List Nat) : State := { s with pow := { (s.pow.cut en pd).disarm arm with down := k + 1 } }
  if k = 1 then { cut [7] [15, 16, 17, 18] [6, 7, 8, 9] with fd := [] }
  else if k = 2 then cut [5, 6] [6, 11] []
  else if k = 3 then cut [4] [13, 14] [4]
  else if k = 4 then { cut [2, 3] [4, 5, 7, 8, 9, 10, 12, 19] [0, 1] with a := .init, b := .init }
  else if k = 5 then cut [1] [2, 3] [2]
  else (cut [0] [1] [3, 5]).shelf

/-- POWER_DOWN_START (R347): the first step. -/
def doPowerDownStart (s : State) : State :=
  if s.pow.off && s.pow.down == 0 && s.modes.mode != .shelf then s.downStep 1 else s

def execPowerDownStart (s : State) : Host.Outcome State Fault Refusal := .next (doPowerDownStart s)

/-- POWER_DOWN_STEP (R347): the next step, 50 µs later; the sixth ends in SHELF. -/
def doPowerDownStep (s : State) : State :=
  if s.pow.off && s.pow.down != 0 && s.modes.mode != .shelf then s.downStep s.pow.down else s

def execPowerDownStep (s : State) : Host.Outcome State Fault Refusal := .next (doPowerDownStep s)

/-! ## Rails -/

/-- RAIL_EXCURSION (R333): an armed monitor finds its rail outside the window. -/
def doRailExcursion (r : Rail) (mv : Nat) (s : State) : State :=
  if !s.pow.armed.getLsbD (railIdx r) || !railOut r mv then s
  else
    let s1 := ({ s with pow := { s.pow with
      rails := s.pow.rails ||| ((1 : BitVec 13) <<< railBit r), vinMv := if r = Rail.vin then mv else s.pow.vinMv } }).setReg 0x2031 (railIdx r + 1) mv
    match r with
    | .vbat => s1.latchStanding 42
    | _ => s1.railCause.latch 56

def execRailExcursion (r : Rail) (mv : Nat) (s : State) : Host.Outcome State Fault Refusal := .next (doRailExcursion r mv s)

/-- RAIL_RETURN: the rail lies within its window again (R333). The field supplies return under R197. -/
def doRailReturn (r : Rail) (mv : Nat) (s : State) : State :=
  if !s.pow.armed.getLsbD (railIdx r) || railOut r mv then s
  else
    let low := match r with
      | .vfld d => (s.fdie d.val).low
      | _ => false
    let s1 := ({ s with pow := { s.pow with
      rails := if low then s.pow.rails else s.pow.rails &&& ~~~((1 : BitVec 13) <<< railBit r)
      vinMv := if r = Rail.vin then mv else s.pow.vinMv } }).setReg 0x2031 (railIdx r + 1) mv
    match r with
    | .vbat => s1.causeOff 42
    | _ => s1.railCause

def execRailReturn (r : Rail) (mv : Nat) (s : State) : Host.Outcome State Fault Refusal := .next (doRailReturn r mv s)

end Sys2Proof.Machine
end

