-- ==== Sys2Proof/Machine/Stitch.lean ====
section
/-! DEFINITION. The Stitch link and the records that arrive over it (05_channel_diversity.md R141 to R157, 02_span_timing.md R45, R47,
06_field_inputs.md R168, 07_field_outputs.md R205, 08_safe_motion.md R220, 10_safe_networks.md R281). A command `… d h …` is the
arrival of a flit at die `d` with the link fields `h`. -/

namespace Sys2Proof.Machine

/-! ## Link -/

/-- `seq` is acknowledged by `ack`, both modulo 4,096. -/
def acked (ack seq : Nat) : Bool := decide ((ack + 4096 - seq) % 4096 < 2048)

/-- A flit of the sender's buffer uses a credit of its channel (R144). -/
def Link.credit (l : Link) (vc : Nat) : Link :=
  { l with cr0 := if vc = 0 then l.cr0 - 1 else l.cr0, cr1 := if vc = 1 then l.cr1 - 1 else l.cr1
           cr3 := if vc = 3 then l.cr3 - 1 else l.cr3, cr4 := if vc = 4 then l.cr4 - 1 else l.cr4 }

/-- The sender's side of a flit on virtual channel `vc`: it has left the ready flits, stands in the retry buffer of 64 flits until it is
acknowledged, with those lost before it (R142), and uses a credit of its channel. A flit that is sent again is in the buffer already. -/
def Link.sent (l : Link) (seq vc kind : Nat) : Link :=
  let out (k : Link) : Link := { k with txq := k.txq.eraseP fun x => x.rec_.vc == vc && x.rec_.kind == kind }
  if l.retry.any fun x => x.seq == seq && x.vc != 255 then l
  else if l.retry.any fun x => x.seq == seq then
    let again : List TxFlit := l.retry.map fun (x : TxFlit) => if x.seq == seq then { x with vc := vc, kind := kind } else x
    out (Link.credit { l with retry := again } vc)
  else if acked ((l.txSeq + 4095) % 4096) seq then l
  else
    let lost : List TxFlit := (List.range (min 63 ((seq + 4096 - l.txSeq) % 4096))).map fun k => { seq := (l.txSeq + k) % 4096, vc := 255, kind := 0, tries := 1 }
    let r := l.retry ++ lost ++ [{ seq := seq, vc := vc, kind := kind, tries := 1 }]
    out (Link.credit { l with txSeq := (seq + 1) % 4096, retry := r.drop (r.length - 64) } vc)

/-- The receiver's side: next in sequence, ACK and credits of the other direction (R142, R144). -/
def Link.recv (l : Link) (h : FlitHdr) (vc : Nat) : Link :=
  { l with
    rxSeq := h.seq, ack := h.ack, retry := l.retry.filter fun x => !acked h.ack x.seq
    vc2 := if vc = 2 then l.vc2 + 1 else l.vc2
    cr0 := if h.cvc = 0 then min 32 (l.cr0 + h.ccnt) else l.cr0, cr1 := if h.cvc = 1 then min 512 (l.cr1 + h.ccnt) else l.cr1
    cr3 := if h.cvc = 3 then min 512 (l.cr3 + h.ccnt) else l.cr3, cr4 := if h.cvc = 4 then min 64 (l.cr4 + h.ccnt) else l.cr4 }

/-- A direction carries flits: all its lanes have trained, or lanes 0 and 1, or lanes 2 and 3 (R143, log 116). -/
def Link.runs (l : Link) : Bool := l.lanes % 4 == 3 || l.lanes / 4 % 4 == 3

/-- Flits arrive at die `d`: it runs, and the link is neither retraining nor held idle. -/
def State.linkUp (s : State) (d : Die) : Bool :=
  s.ticking d && !s.clk.stitchIdle && !(s.die d).link.retrain && (s.die d.peer).link.runs

/-- The stretch perturbation still holds the flit back on the sending die (R471): it cannot arrive yet. -/
def State.heldBack (s : State) (d : Die) (r : FlitRec) : Bool :=
  (s.die d.peer).link.txq.any fun x => x.rec_ == r && decide (s.time < x.at_)

/-- The flit is the next in SEQ order and its CRC is right. -/
def State.flitOk (s : State) (d : Die) (h : FlitHdr) (r : FlitRec) : Bool :=
  s.linkUp d && !s.heldBack d r && flitCrcOk h r && h.seq == ((s.die d).link.rxSeq + 1) % 4096

/-- The record belongs to the span in progress on the receiving die. -/
def State.spanIs (s : State) (d : Die) (h : FlitHdr) : Bool := (s.die d).tb.spanNo % 256 == h.span

/-- A retrain (R142): RETRAINS counts, STITCH sets. While the shadow of an earlier one is open, nothing resets (R308). -/
def State.retrain (s : State) : State :=
  if s.flt.shadowOf .stitch then s.latch3 52
  else ((s.bump 32 0x5014 2).latch 52).stitchReset

/-- A flit of the buffer needs a fourth transmission. -/
def Link.worn (l : Link) : Bool := l.retry.any fun x => decide (3 ≤ x.tries)

/-- Die `d` sends again from the first flit after ACK. -/
def State.resendFrom (s : State) (d : Die) : State :=
  if (s.die d).link.worn then s.retrain
  else s.updDie d fun l => { l with link := { l.link with nak := false, retry := l.link.retry.map fun x => { x with tries := x.tries + 1 } } }

/-- Die `d` discards a flit whose CRC fails and reports it to the sender, which sends again (R142). -/
def State.flitBad (s : State) (d : Die) : State :=
  let l := (s.die d).link
  let s1 := s.bump 32 0x5014 1
  let s2 := s1.updDie d.peer fun x => { x with link := { (x.link.sent ((l.rxSeq + 1) % 4096) 255 0) with nak := true } }
  s2.resendFrom d.peer

/-- A flit arrives at die `d`: one with a failing CRC is discarded and sent again; any other stands in the sender's retry buffer; one out
of SEQ order is discarded (R142); the next in order has its link work done, then the record's own effect. -/
def State.flit (s : State) (d : Die) (h : FlitHdr) (r : FlitRec) (f : State → State) : State :=
  if !s.linkUp d || s.heldBack d r then s
  else if !flitCrcOk h r then s.flitBad d
  else
    let s1 := s.updDie d.peer fun l => { l with link := l.link.sent h.seq r.vc r.kind }
    if h.seq != ((s.die d).link.rxSeq + 1) % 4096 then s1
    else f (s1.updDie d fun l => { l with link := l.link.recv h r.vc })

/-- STITCH_FLIT_CRC_ERROR: a flit with a failing CRC arrives at die `d` (R142). -/
def doStitchFlitCrcError (d : Die) (s : State) : State := if !s.linkUp d then s else s.flitBad d

def execStitchFlitCrcError (d : Die) (s : State) : Host.Outcome State Fault Refusal := .next (doStitchFlitCrcError d s)

/-- STITCH_RETRY_TIMEOUT: ACK of die `d` has not advanced for 2 µs, or its retry buffer has stayed full (R142). -/
def doStitchRetryTimeout (d : Die) (s : State) : State :=
  let l := (s.die d).link
  if l.retrain || l.retry.isEmpty then s
  else if 64 ≤ l.retry.length then s.retrain else s.resendFrom d

def execStitchRetryTimeout (d : Die) (s : State) : Host.Outcome State Fault Refusal := .next (doStitchRetryTimeout d s)

/-- RETRAIN_COMPLETE (R142, R307, R325): the shadow ends 20 µs later; a failed CK_STITCH is back. -/
def doRetrainComplete (s : State) : State :=
  if !(s.a.link.retrain || s.b.link.retrain) then s
  else
    let f (l : LDie) : LDie := { l with link := { l.link with retrain := false } }
    let s1 := (s.updDie .a f).updDie .b f
    let c := { s1.clk with down := s1.clk.down &&& ~~~domainSet [13] }
    let s2 := { s1 with flt := s1.flt.shadowDone .stitch, clk := { c with armed := c.armed ||| domainSet [13] } }
    let s3 := if c.standing then s2 else s2.causeOff 55
    if c.down = 0 && s.clk.down != 0 then
      let free (l : LDie) : LDie := { l with net := { l.net with idle := false } }
      ({ s3 with clk := { s3.clk with stitchIdle := false } }.updDie .a free).updDie .b free
    else s3

def execRetrainComplete (s : State) : Host.Outcome State Fault Refusal := .next (doRetrainComplete s)

/-- STITCH_LANE_TRAIN_FAIL: a lane of the direction that die `d` sends fails to train; the direction runs on the other pair, and STITCH_STAT
shows every lane that trained (R143). DESIGN CHOICE (log 116): with a lane of each pair failed there is no pair to run on, and the direction
carries no flit. -/
def doStitchLaneTrainFail (d : Die) (lane : Fin 4) (s : State) : State :=
  let s1 := s.updDie d fun l => { l with link := { l.link with lanes := clrBitN l.link.lanes lane.val } }
  s1.latchStanding 52

def execStitchLaneTrainFail (d : Die) (lane : Fin 4) (s : State) : Host.Outcome State Fault Refusal :=
  .next (doStitchLaneTrainFail d lane s)

/-! ## Tick timestamp -/

/-- The wait of R43 counts one more aligned tick on the new grid, or begins again; a tick before the step of either generator lies on the
old grid. -/
def State.waitTick (s : State) (d : Die) (skew : Nat) : State :=
  match s.modes.wait with
  | none => s
  | some w =>
    if d != s.srv || w.eighthNs.isSome || s.a.tb.step.isSome || s.b.tb.step.isSome then s
    else
      let n := if 1000 < skew then 0 else w.aligned + 1
      { s with modes := { s.modes with
        wait := some { w with aligned := n, eighthNs := if 8 ≤ n then some (s.die d).tb.tickNs else none } } }

/-- Step 4 of R310 for the peer of die `d`: 8 consecutive ticks below 1 µs. -/
def State.readmTick (s : State) (d : Die) (skew : Nat) : State :=
  let x := d.peer
  let r := s.flt.rd x
  if s.dieSt x.n != 2 || r.step != 4 then s
  else if 1000 ≤ skew then { s with flt := s.flt.setRd x { r with ticks := 0 } }
  else if r.ticks + 1 < 8 then { s with flt := s.flt.setRd x { r with ticks := r.ticks + 1 } }
  else { s with flt := s.flt.setRd x { r with step := 5, ticks := 0, spans := 0 } }

/-- TICK_TIMESTAMP_RX (R45, R152): skew, and the last committed SPAN_NO of both dies; different ones are a divergence (Table 05-8). -/
def doTickTimestampRx (d : Die) (h : FlitHdr) (ts lastCommit : Nat) (s : State) : State :=
  s.flit d h (flitTick ts lastCommit) fun s =>
    if !s.spanIs d h then s
    else
      let l := s.die d
      let a : Int := if d = .a then l.tb.ts else ts
      let b : Int := if d = .a then ts else l.tb.ts
      let skew := (b - a).natAbs
      let s2 := if d = s.srv then (s.setReg 0x2007 1 (toS32 (b - a))).setReg 0x2007 2 (max skew (s.reg 0x2007 2)) else s
      let s3 := if 1000 < skew then s2.latch 53 else s2
      let s4 := if lastCommit != l.tb.lastCommit then (s3.latch 59).setReg 0x5013 0 1 else s3
      (s4.waitTick d skew).readmTick d skew

def execTickTimestampRx (d : Die) (h : FlitHdr) (ts lastCommit : Nat) (s : State) : Host.Outcome State Fault Refusal :=
  .next (doTickTimestampRx d h ts lastCommit s)

/-! ## Supervision flits -/

/-- What the peer says of one input channel: its latched state, its code and whether its own warm-up is over, which both
dies see from the same latched states (R86, R168). -/
def ChanSnap.peerIs (on : Bool) (code : Nat) (c : ChanSnap) : ChanSnap :=
  { c with peer := on, codePeer := code }

/-- INPUT_SUPERVISION_FLIT_RX (R168): TAG 0 to 3 an F-die, 4 the RSTIN balls. -/
def doInputSupervisionFlitRx (d : Die) (h : FlitHdr) (tag states : Nat) (codes : List Nat) (s : State) : State :=
  s.flit d h (flitIn tag states codes) fun s =>
    let l := s.die d
    if !s.spanIs d h || l.tb.phase != .a || l.cur.frozen then s
    else
      let ns := if tag = 4 then [128, 129, 130, 131] else fdChans tag
      let base := 32 * tag
      let chans := ns.foldl (fun (t : Tab ChanSnap) n =>
        Tab.upd ChanSnap.off t n (ChanSnap.peerIs (bitAt states (n - base)) (codes.getD (n - base) 0))) l.cur.chans
      s.setDie d { l with cur := { l.cur with chans := chans, peerImages := setBitN l.cur.peerImages tag } }

def execInputSupervisionFlitRx (d : Die) (h : FlitHdr) (tag states : Nat) (codes : List Nat) (s : State) :
    Host.Outcome State Fault Refusal := .next (doInputSupervisionFlitRx d h tag states codes s)

/-- OUTPUT_SUPERVISION_FLIT_RX (R205): a channel is faulty while the peer's code is not 0. -/
def doOutputSupervisionFlitRx (d : Die) (h : FlitHdr) (fd : Fin 4) (codes : List Nat) (s : State) : State :=
  s.flit d h (flitOut fd.val codes) fun s =>
    let l := s.die d
    if !s.spanIs d h || l.tb.phase != .a || l.cur.frozen then s
    else
      let f := (fdChans fd.val).foldl (fun (t : Tab Bool) n =>
        if codes.getD (n % 32) 0 != 0 then Tab.set false t n true else t) l.cur.outFault
      s.setDie d { l with cur := { l.cur with outFault := f } }

def execOutputSupervisionFlitRx (d : Die) (h : FlitHdr) (fd : Fin 4) (codes : List Nat) (s : State) :
    Host.Outcome State Fault Refusal := .next (doOutputSupervisionFlitRx d h fd codes s)

/-! ## Compare -/

/-- The VC2 reservation towards die `d` is used up, as the credit perturbation of that direction leaves it (R144, R471). -/
def State.vc2Full (s : State) (d : Die) : Bool :=
  s.ptActs 2 && s.reg 0xD013 1 == (if d = .b then 0 else 1)
    && decide ((s.pattern.map fun p => p.vc2 s.fdies.length).getD 0 * s.reg 0xD013 2 / 100 < (s.die d).link.vc2)

/-- The peer's flit of a record of the span joins it: the record, once it is whole (R146). -/
def Cmp.join (c : Cmp) : CmpFlit → Cmp × Option CmpRec
  | .group g x => (c, some (.group g x))
  | .fdie f x o => (c, some (.fdie f x o))
  | .part n bs =>
    let b := Tab.get [] c.parts n ++ bs
    if b.length < 80 then ({ c with parts := Tab.set [] c.parts n b }, none) else ({ c with parts := Tab.set [] c.parts n [] }, some (.telegram n b))

/-- A record of another span is discarded and counted in STALE_RECS, a telegram with its fourth flit (R150). -/
def State.staleRec (s : State) (d : Die) (r : CmpFlit) : State :=
  match r with
  | .part n _ =>
    let k := Tab.get 0 (s.die d).cmp.stale n + 1
    let s1 := s.updDie d fun l => { l with cmp := { l.cmp with stale := Tab.set 0 l.cmp.stale n (k % 4) } }
    if k % 4 = 0 then s1.bump 32 0x5010 4 else s1
  | _ => s.bump 32 0x5010 4

/-- COMPARE_RECORD_RX (R146, R147, R150): a record of another span is stale; the compare completes with both records. -/
def doCompareRecordRx (d : Die) (h : FlitHdr) (r : CmpFlit) (s : State) : State :=
  s.flit d h (CmpFlit.flit 2 r) fun s =>
    let s1 := s.setReg 0x5014 3 (max ((s.die d).link.vc2) (s.reg 0x5014 3))
    if s1.vc2Full d then s1
    else if !s1.spanIs d h then s1.staleRec d r
    else
      let l := s1.die d
      let c := l.cmp.join r
      match c.2 with
      | none => s1.setDie d { l with cmp := c.1 }
      | some x =>
        if l.cmp.peer.any fun y => y.key == x.key then s1
        else
          let s2 := (s1.setDie d { l with cmp := { c.1 with peer := c.1.peer ++ [x] } }).countCompares d l.cmp
          match s2.pattern with
          | some p => if s2.evals d then s2.ready d p else s2
          | none => s2

def execCompareRecordRx (d : Die) (h : FlitHdr) (r : CmpFlit) (s : State) : Host.Outcome State Fault Refusal :=
  .next (doCompareRecordRx d h r s)

/-- READY_RX (R151, R157). -/
def doReadyRx (d : Die) (h : FlitHdr) (s : State) : State :=
  s.flit d h flitReady fun s =>
    if !s.spanIs d h then s
    else
      let s1 := s.updDie d fun l => { l with cmp := { l.cmp with readyRx := true } }
      match s1.pattern with
      | some p => s1.lateCommit d p
      | none => s1

def execReadyRx (d : Die) (h : FlitHdr) (s : State) : Host.Outcome State Fault Refusal := .next (doReadyRx d h s)

/-! ## Localisation and replay -/

/-- The instance and word that position `k` of a group's stream belongs to (R155). -/
def wordAt (p : Pattern) (d : Die) (m : Img) (g k : Nat) : Nat × Nat :=
  let lens := (p.groupPos g).map fun q => (((p.insts[q]?).map (·.id)).getD 0xFFFF, (streamWords p d m q).length)
  (lens.foldl (fun (acc : Option (Nat × Nat) × Nat) x => match acc.1 with
    | some r => (some r, acc.2)
    | none => if k < acc.2 + x.2 then (some (x.1, k - acc.2), acc.2) else (none, acc.2 + x.2)) (none, 0)).1.getD (0xFFFF, 0xFF)

/-- The peer's stream of the earliest disagreeing group is whole: the first differing word is named in REPLAY_LAST, and the replay of the set
begins (R155, R156). DESIGN CHOICE (log 117): where the streams agree and both phase C records disagree with them, the peer of the serving die
is named; the spec names one die and not which. -/
def State.localise (s : State) (d : Die) (p : Pattern) (bytes : List Byte) : State :=
  let l := s.die d
  let own := l.cmp.ownWords
  let group := l.cmp.grp
  let words := (List.range own.length).map fun k => leAt bytes (10 + 2 * k) 2
  let diff := (List.range own.length).find? fun k => own[k]? != words[k]?
  let sent := (l.cmp.peer.find? fun r => r.key == (0, group)).map fun r => match r with
    | .group _ x => x
    | _ => 0
  let peerOk := sent == some (crc64 bytes)
  let who : Die := if peerOk then d else d.peer
  let at_ := match diff with
    | some k => wordAt p d l.eng.work group k
    | none => (0xFFFF, 0xFF)
  let v := group + 2 ^ 16 * at_.1 + 2 ^ 32 * (at_.2 % 256) + (if diff.isNone then 2 ^ 40 * who.n else 0)
  let s1 := s.setOnce d 0x5011 3 v
  let lanes := Tab.mapV .free (fun x => match x with
    | .busy _ => LaneSt.free
    | y => y) l.eng.lanes
  let s2 := s1.setDie d { l with
    cmp := { l.cmp with named := diff.map fun k => (at_.1, k), stage := .eval, peer := l.cmp.peer.filter fun r => !recIn p l.cmp.set r, locs := [] }
    eng := { l.eng with active := true, abandoned := false, retired := 0, errs := [], lanes := lanes } }
  (s2.advance d p).settleReplay d

/-- LOCALISATION_RECORD_RX (R155): 20 bytes of the peer's stream of the earliest disagreeing group, with their record index. A record of another
span is stale (R150). -/
def doLocalisationRecordRx (d : Die) (h : FlitHdr) (index : Nat) (bytes : List Byte) (s : State) : State :=
  s.flit d h (flitLoc index bytes) fun s =>
    if !s.spanIs d h then s.bump 32 0x5010 4
    else
      let l := s.die d
      match s.pattern with
      | none => s
      | some p =>
        if l.cmp.stage != .local then s
        else
          let locs := Tab.set [] l.cmp.locs index bytes
          let len := 10 + 2 * l.cmp.ownWords.length
          let n := (len + 19) / 20
          let s1 := s.setDie d { l with cmp := { l.cmp with locs := locs } }
          if (List.range n).all fun k => (Tab.get [] locs k).length == 20 then
            s1.localise d p (((List.range n).flatMap fun k => Tab.get [] locs k).take len)
          else s1

def execLocalisationRecordRx (d : Die) (h : FlitHdr) (index : Nat) (bytes : List Byte) (s : State) :
    Host.Outcome State Fault Refusal := .next (doLocalisationRecordRx d h index bytes s)

/-- REPLAY_RECORD_RX (R150, R153 case 2, R156, R157): a new record of the peer. Agreement commits late; a record that disagrees again is
REPLAY_FAIL. -/
def doReplayRecordRx (d : Die) (h : FlitHdr) (r : CmpFlit) (s : State) : State :=
  s.flit d h (CmpFlit.flit 3 r) fun s =>
    let l := s.die d
    if !s.spanIs d h then s.staleRec d r
    else if !(l.cmp.stage == .full || l.cmp.stage == .eval || l.cmp.stage == .recompare) then s
    else
      let c := l.cmp.join r
      match c.2 with
      | none => s.setDie d { l with cmp := c.1 }
      | some x =>
        let c1 : Cmp := { c.1 with peer := c.1.peer.filter fun y => y.key != x.key }
        ((s.setDie d { l with cmp := { c1 with peer := c1.peer ++ [x] } }).countCompares d c1).settleReplay d

def execReplayRecordRx (d : Die) (h : FlitHdr) (r : CmpFlit) (s : State) : Host.Outcome State Fault Refusal :=
  .next (doReplayRecordRx d h r s)

/-! ## Jobs -/

/-- The core clock of die `d` runs from its crystal: the lanes do not evaluate (R326). -/
def State.onRef (s : State) (d : Die) : Bool := if d = .a then s.clk.swA.other else s.clk.swB.other

/-- JOB_COMPLETE: the lane's job ends with its results, or on L-B with a residue error (R75, R76, R136). The last job of a replay completes it
(R157). -/
def doJobComplete (d : Die) (lane : Fin 17) (s : State) : State :=
  let l := s.die d
  match s.pattern, Tab.get LaneSt.free l.eng.lanes lane with
  | some p, .busy q =>
    if !l.eng.active || s.onRef d then s
    else match runJob (s.env d) p q with
      | none => s.laneFail d lane p
      | some r =>
        let e := { l.eng with lanes := Tab.set .free l.eng.lanes lane .free, done := l.eng.done ++ [(q, r)] }
        ((s.setDie d { l with eng := e }).advance d p).settleReplay d
  | _, _ => s

def execJobComplete (d : Die) (lane : Fin 17) (s : State) : Host.Outcome State Fault Refusal := .next (doJobComplete d lane s)

/-- LANE_ERROR: the lane reports an error during its job (R76). -/
def doLaneError (d : Die) (lane : Fin 17) (s : State) : State :=
  match s.pattern with
  | some p => if (s.die d).eng.active && !s.onRef d then s.laneFail d lane p else s
  | none => s

def execLaneError (d : Die) (lane : Fin 17) (s : State) : Host.Outcome State Fault Refusal := .next (doLaneError d lane s)

/-- LATE_COMMIT_LIMIT: a replay or a recompare that has not agreed by now has failed (R55, R157). -/
def doLateCommitLimit (d : Die) (s : State) : State :=
  let l := s.die d
  if l.cmp.stage = .none || l.tb.phase != .s then s
  else
    let s1 := s.setDie d { l with
      cmp := { l.cmp with stage := .none }
      eng := { l.eng with active := false
                          lanes := Tab.mapV .free (fun x => match x with
                            | .busy _ => LaneSt.free
                            | y => y) l.eng.lanes } }
    (s1.latch 59).notAgreed d

def execLateCommitLimit (d : Die) (s : State) : Host.Outcome State Fault Refusal := .next (doLateCommitLimit d s)

/-! ## Pairing and positions -/

/-- The peer's copy that the bytes of a full record stand for. -/
def peerFull (span : Nat) (bytes : List Byte) : PeerCopy :=
  { span := span, boot := beAt bytes 6 4, epoch := beAt bytes 4 2, seq := beAt bytes 10 4, len := (bytes.getD 3 0).toNat
    crc := crc64 bytes, body := some bytes }

/-- A flit of a pairing record reaches its connection: the peer's copy once the record is whole. A full record is 5 flits with the index 4 in
the last byte of the fifth; one without it is discarded (R281, log 118). -/
def InConn.join (c : InConn) (span : Nat) : PairRec → InConn × Option PeerCopy
  | .digest _ seq epoch boot len crc => (c, some { span := span, boot := boot, epoch := epoch, seq := seq, len := len, crc := crc, body := none })
  | .full _ bytes =>
    let b := c.part ++ bytes
    if b.length < 100 then ({ c with part := b }, none)
    else ({ c with part := [] }, if b.getD 99 0 = 4 then some (peerFull span (b.take (18 + (b.getD 3 0).toNat))) else none)

/-- Connection of a pairing record. -/
def PairRec.conn : PairRec → Nat
  | .digest c .. => c
  | .full c _ => c

/-- SPAN_NO of a record from its low 8 bits: the span of that value nearest to the receiver's, at most 3 behind and 1 ahead. -/
def spanOf (now low : Nat) : Nat := now + 1 - (now + 1 + 256 - low) % 256

/-- PAIRING_RECORD_RX (R281): the record joins those of its connection; one per span of arrival stands, the greater tuple (R280). -/
def doPairingRecordRx (d : Die) (h : FlitHdr) (r : PairRec) (s : State) : State :=
  s.flit d h (PairRec.flit r) fun s =>
    let l := s.die d
    match s.pattern.bind fun p => p.connPos true (PairRec.conn r) with
    | none => s
    | some q =>
      let c := (Tab.get InConn.init l.ins q).join (spanOf l.tb.spanNo h.span) r
      match c.2 with
      | none => s.setDie d { l with ins := Tab.set InConn.init l.ins q c.1 }
      | some x =>
        let same := c.1.peer.filter fun y => y.span == x.span
        let stay := same.any fun y => decide (x.tuple ≤ y.tuple)
        let peer := if stay then c.1.peer else (c.1.peer.filter fun y => y.span != x.span) ++ [x]
        s.setDie d { l with ins := Tab.set InConn.init l.ins q { c.1 with peer := peer } }

def execPairingRecordRx (d : Die) (h : FlitHdr) (r : PairRec) (s : State) : Host.Outcome State Fault Refusal :=
  .next (doPairingRecordRx d h r s)

/-- The peer's sample of one axis (R220). -/
def AxSnap.peerIs (d : Die) (r : PosRec) (x : AxSnap) : AxSnap :=
  match d with
  | .a => { x with p2 := r.pos, valid2 := bitAt r.flags 0, full2 := bitAt r.flags 1, recon2 := bitAt r.flags 2 }
  | .b => { x with p1 := r.pos, valid1 := bitAt r.flags 0, full1 := bitAt r.flags 1, recon1 := bitAt r.flags 2 }

/-- POSITION_RECORD_RX (R220): four axes of the peer's own source. -/
def doPositionRecordRx (d : Die) (h : FlitHdr) (first : Nat) (recs : List PosRec) (s : State) : State :=
  s.flit d h (flitPos first recs) fun s =>
    let l := s.die d
    if !s.spanIs d h || l.tb.phase != .a || l.cur.frozen then s
    else
      let axes := (recs.take 4).zipIdx.foldl (fun (t : Tab AxSnap) (x : PosRec × Nat) =>
        Tab.upd AxSnap.empty t (first + x.2) (AxSnap.peerIs d x.1)) l.cur.axes
      s.setDie d { l with cur := { l.cur with axes := axes } }

def execPositionRecordRx (d : Die) (h : FlitHdr) (first : Nat) (recs : List PosRec) (s : State) :
    Host.Outcome State Fault Refusal := .next (doPositionRecordRx d h first recs s)

end Sys2Proof.Machine
end

