-- ==== Sys2Proof/Machine/Timing.lean ====
section
/-! DEFINITION. gPTP and the timebase (02_span_timing.md R43 to R50, R499; 10_safe_networks.md R267 to R270, R277). A command `… d port …`
concerns an external port of the network of die `d`. -/

namespace Sys2Proof.Machine

/-- A frame on the wire reaches the network of die `d`: the die runs, its MAC is not in reset, the link is up. -/
def State.netRx (s : State) (d : Die) (port : Nat) : Bool :=
  s.ticking d && !(s.die d).net.macReset && ((s.die d).net.port port).link

/-! ## gPTP -/

/-- A holdover that ends takes its standing cause with it (Table 11-1, HOLD_TIME). -/
def State.holdEnd (s : State) : State :=
  if s.holdover then s
  else
    let f (l : LDie) : LDie := { l with tb := { l.tb with holdNs := 0 } }
    ((s.updDie .a f).updDie .b f).causeOff 60

/-- The channel of die `d` loses lock (R47, R270): it removes no phase error of its own any more. -/
def State.unlock (s : State) (d : Die) : State :=
  (s.updDie d fun l => { l with tb := { l.tb with locked := false, syncs := 0, offs := [], slew := false } }).holdEnd

/-- First tick after gPTP time `ns` on the grid of R44, in DEEP-SLEEP on that of R65. -/
def State.nextOnGrid (s : State) (ns : Nat) : Nat :=
  let m := (ns - s.modes.tickOfs) / tspanNs s.modes.spanK + 1
  ceilDiv m s.spanInc * s.spanInc

/-- The channel of die `d` locks at gPTP time `gm` (R49, R499). The first lock of the device moves both generators to the grid by
a single step; a later one removes the phase error. -/
def State.lockTo (s : State) (d : Die) (gm : Nat) : State :=
  let first := !s.everLocked
  let l := s.die d
  let s1 := s.setDie d { l with tb := { l.tb with locked := true, ever := true } }
  if s.modes.tbMode != 0 then s1.holdEnd
  else if first then
    let n := s.nextOnGrid gm
    let f (l : LDie) : LDie := { l with tb := { l.tb with step := some n, err := 0, slew := false } }
    let s2 := (s1.updDie .a f).updDie .b f
    { s2 with modes := { s2.modes with wait := s2.modes.wait.map fun w => { w with aligned := 0, eighthNs := none } } }
  else
    let off : Int := (gm : Int) - s.nowNs d
    let e := l.tb.err + off
    (s1.updDie d fun l => { l with tb := { l.tb with
      err := e, tickNs := ((l.tb.tickNs : Int) + off).toNat, slew := decide (100 ≤ e.natAbs) } }).holdEnd

/-- SYNC_RX (R270, R47): a Sync on the slave port with the grandmaster time, the offset of the estimate from the servo's value and
the step of the grandmaster time since the last one, in ns. -/
def doSyncRx (d : Die) (port : Fin 2) (gmNs : Nat) (offset step : Int) (s : State) : State :=
  let l := s.die d
  let q := l.net.port port.val
  if !s.netRx d port.val || !q.slave || !q.asCapable then s
  else if l.tb.locked && decide (1000 < step.natAbs) then s.unlock d
  else
    let offs := (l.tb.offs ++ [offset]).drop (l.tb.offs.length + 1 - 8)
    let n := min 16 (l.tb.syncs + 1)
    let s1 := s.setDie d { l with tb := { l.tb with syncs := n, offs := offs } }
    if !l.tb.locked && n == 16 && offs.all fun x => decide (x.natAbs ≤ 100) then s1.lockTo d gmNs else s1

def execSyncRx (d : Die) (port : Fin 2) (gmNs : Nat) (offset step : Int) (s : State) : Host.Outcome State Fault Refusal :=
  .next (doSyncRx d port gmNs offset step s)

/-- SYNC_RECEIPT_TIMEOUT (R270). -/
def doSyncReceiptTimeout (d : Die) (s : State) : State := s.unlock d

def execSyncReceiptTimeout (d : Die) (s : State) : Host.Outcome State Fault Refusal := .next (doSyncReceiptTimeout d s)

/-- HOLDOVER_EXPIRE (R48): the present holdover has lasted 10 s. -/
def doHoldoverExpire (s : State) : State :=
  if !s.holdover then s
  else
    let f (l : LDie) : LDie := { l with tb := { l.tb with holdNs := max 10000000000 l.tb.holdNs } }
    ((s.updDie .a f).updDie .b f).latchStanding 60

def execHoldoverExpire (s : State) : Host.Outcome State Fault Refusal := .next (doHoldoverExpire s)

/-- The slave port of a network: the asCapable port with the better announce; the other is passive (R269). -/
def Net.roles (n : Net) : Net :=
  let rank (p : EPort) : Option Nat := if p.asCapable then p.best.map fun b => b.1 * 2 ^ 64 + b.2 else none
  let first := match rank n.p0, rank n.p1 with
    | some x, some y => some (decide (x ≤ y))
    | some _, none => some true
    | none, some _ => some false
    | none, none => none
  { n with p0 := { n.p0 with slave := first == some true }, p1 := { n.p1 with slave := first == some false } }

/-- PDELAY_RX (R270): a port whose mean link delay exceeds PDELAY_THR is not asCapable. -/
def doPdelayRx (d : Die) (port : Fin 2) (delay : Nat) (s : State) : State :=
  if !s.netRx d port.val then s
  else
    let ok := decide (delay ≤ s.reg 0x7007 (portSub d port.val))
    s.updDie d fun l => { l with net := (l.net.updPort port.val fun q => { q with delay := delay, asCapable := ok }).roles }

def execPdelayRx (d : Die) (port : Fin 2) (delay : Nat) (s : State) : Host.Outcome State Fault Refusal :=
  .next (doPdelayRx d port delay s)

/-- ANNOUNCE_RX (R269): the BMCA over the announces of the configured domain; of two grandmasters, the one of lower priority value and
then lower identity is better. -/
def doAnnounceRx (d : Die) (port : Fin 2) (domain priority gmId : Nat) (s : State) : State :=
  if !s.netRx d port.val || domain != s.reg 0x7003 (d.n + 1) then s
  else s.updDie d fun l => { l with net := (l.net.updPort port.val fun q => { q with best := some (priority, gmId) }).roles }

def execAnnounceRx (d : Die) (port : Fin 2) (domain priority gmId : Nat) (s : State) : Host.Outcome State Fault Refusal :=
  .next (doAnnounceRx d port domain priority gmId s)

/-- GATE_CONTROL_ENTRY (R277): the running entry of a port's list ends, and the next one sets the gates; the list begins again
with each span. Without a list every gate stands open. Frames whose gate opens leave. -/
def doGateControlEntry (d : Die) (port : Fin 2) (s : State) : State :=
  s.updDie d fun l => { l with net := l.net.gate s.pattern d port.val ((l.net.port port.val).entry + 1) }

def execGateControlEntry (d : Die) (port : Fin 2) (s : State) : Host.Outcome State Fault Refusal := .next (doGateControlEntry d port s)

end Sys2Proof.Machine
end

