-- ==== Sys2Proof/Machine/Nets.lean ====
section
/-! DEFINITION. Reception of safe telegrams and position telegrams, links, replay, the 3-port switch and the network stack
(10_safe_networks.md R267 to R290, 08_safe_motion.md R213 to R218). -/

namespace Sys2Proof

/-- VIDs of the VLAN table of the network of die `d`: those of its connections and forwarding records (R274). -/
def Pattern.vids (p : Pattern) (d : Die) : List Nat :=
  ((p.conns.filter fun c => c.portsOf d != 0).map (·.vid)) ++ ((p.fwds.filter fun r => r.network == d.n + 1).map (·.vid))

/-- The inbound connection record of a CONN_ID on the network of die `d`. -/
def Pattern.inRec (p : Pattern) (d : Die) (id : Nat) : Option ConnRec :=
  p.conns.find? fun c => c.kind == 0 && c.connId == id && c.portsOf d != 0

/-- The stream record of a CONN_ID on the network of die `d`, with its number. -/
def Pattern.streamRec (p : Pattern) (d : Die) (id : Nat) : Option (ConnRec × Nat) :=
  p.streamRecs.find? fun x => x.1.connId == id && x.1.portsOf d != 0

/-- A point of a payload keeps the container rule of its 14-bit type (R9). -/
def MapPt.ok (m : MapPt) (pl : List Byte) : Bool :=
  match m.ty with
  | .bool => true
  | .s14 => tyOk 6 (beAt pl (m.ofs / 8) 2)
  | .u14 => tyOk 8 (beAt pl (m.ofs / 8) 2)

/-- Length of a frame with a payload of `n` bytes after its EtherType, FCS included. -/
def EthHdr.size (h : EthHdr) (n : Nat) : Nat := (if h.tag.isNone then 18 else 22) + n

/-- VID of a frame, 0 where it carries none. -/
def EthHdr.vid (h : EthHdr) : Nat := (h.tag.map fun t => t.2 % 4096).getD 0

/-- PCP of a frame, 0 where it carries none. -/
def EthHdr.pcp (h : EthHdr) : Nat := (h.tag.map fun t => t.2 / 8192 % 8).getD 0

/-- Addresses, tag and EtherType as bytes. -/
def EthHdr.bytes (h : EthHdr) : List Byte :=
  beBytes 6 h.dst ++ beBytes 6 h.src ++ (match h.tag with
    | some t => beBytes 2 t.1 ++ beBytes 2 t.2
    | none => []) ++ beBytes 2 h.etype

namespace Machine

/-! ## The fields of a body -/

def tConn (b : List Byte) : Nat := beAt b 0 2
def tFlags (b : List Byte) : Nat := (b.getD 2 0).toNat
def tLen (b : List Byte) : Nat := (b.getD 3 0).toNat
def tEpoch (b : List Byte) : Nat := beAt b 4 2
def tBoot (b : List Byte) : Nat := beAt b 6 4
def tSeq (b : List Byte) : Nat := beAt b 10 4
def tStamp (b : List Byte) : Nat := beAt b 14 4

/-- Bytes 0 to 17 + LEN. -/
def tFields (b : List Byte) : List Byte := b.take (18 + tLen b)

/-- Check 1, FORMAT. -/
def chkFormat (b : List Byte) : Bool :=
  decide (1 ≤ tLen b) && decide (tLen b ≤ 64) && decide (22 + tLen b + (if bitAt (tFlags b) 7 then 8 else 0) ≤ b.length)
    && tFlags b % 32 == 0

/-- Check 2, CRC. -/
def chkCrc (b : List Byte) : Bool := beAt b (18 + tLen b) 4 == crc32c (tFields b)

/-- Check 3, IDENT, of a telegram whose connection is known. -/
def chkIdent (par : ConnPar) (b : List Byte) : Bool :=
  tLen b == par.len && !bitAt (tFlags b) 6 && par.map.all fun m => m.ok ((tFields b).drop 18)

/-- The tag is the leftmost 64 bits of the CMAC under K_e (R286). -/
def chkTag (key : List Byte) (b : List Byte) : Bool := slice b (22 + tLen b) 8 == (Config.aesCmac key (tFields b)).take 8

/-- K_e for a copy: a key that the connection keeps, or one derived now. -/
def State.keyFor (s : State) (d : Die) (c : ConnRec) (keys : List (Nat × Nat × List Byte)) (b : List Byte) : Option (List Byte) :=
  match keys.find? fun k => k.1 == tBoot b && k.2.1 == tEpoch b with
  | some k => some k.2.2
  | none => s.epochKey d c (tBoot b) (tEpoch b)

/-- Check 4, AUTH, with the key of the copy. -/
def State.chkAuth (s : State) (d : Die) (auth : Bool) (key : Option (List Byte)) (b : List Byte) : Bool :=
  bitAt (tFlags b) 7 == auth && (!auth || (s.keys.auth == 0 && !s.restricts (dieBit d 10) && (match key with
    | some k => chkTag k b
    | none => false)))

/-- The limits of check 5 that hold whatever was accepted before. -/
def chkOrder (last : Nat) (b : List Byte) : Bool :=
  tEpoch b != 0 && tSeq b != 0 && decide (tSeq b < 2 ^ 31) && decide (last < tupleNum (tBoot b) (tEpoch b) (tSeq b))

/-- Ingress time − TSTAMP modulo 2^32, as S32. -/
def ageOf (ingress : Nat) (b : List Byte) : Int := s32Of (ingress % 2 ^ 32 + 2 ^ 32 - tStamp b)

/-- Check 6, AGE. -/
def chkAge (par : ConnPar) (tspan ingress : Nat) (b : List Byte) : Bool :=
  let a := ageOf ingress b
  decide (-2000 ≤ a) && decide (a ≤ (min (par.wd * tspan) 2000000000 : Nat))

/-! ## Reception -/

/-- The first failing check of a copy of a known connection (Table 10-5): 0 for none, 11 for a duplicate. -/
def State.rxCheck (s : State) (d : Die) (c : ConnRec) (par : ConnPar) (x : InConn) (ingress : Nat) (b : List Byte) : Nat :=
  if !chkFormat b then 1
  else if !chkCrc b then 2
  else if !chkIdent par b then 3
  else if !s.chkAuth d (par.auth == 1) (s.keyFor d c x.keys b) b then 4
  else if x.held.any fun y => y.tuple == tupleNum (tBoot b) (tEpoch b) (tSeq b) then 11
  else if !chkOrder x.last b then 5
  else if !chkAge par (tspanNs s.modes.spanK) ingress b then 6
  else 0

/-- Keys that a connection keeps: those of the current and the next epoch (R286). -/
def keepKeys (last : Nat) (keys : List (Nat × Nat × List Byte)) (boot epoch : Nat) (k : Option (List Byte)) : List (Nat × Nat × List Byte) :=
  match k with
  | none => keys
  | some v => (keys.filter fun y => y.1 * 2 ^ 16 + y.2.1 == last / 2 ^ 32 && !(y.1 == boot && y.2.1 == epoch)) ++ [(boot, epoch, v)]

/-- Span of arrival (R26): that of the next tick; an arrival that meets a limit which ended at the present tick belongs to the span
in progress (R64). -/
def State.arrival (s : State) (d : Die) (ingress : Nat) (limit : Bool) : Nat :=
  let t := (s.die d).tb
  if t.phase == .a && decide (ingress ≤ t.tickNs) && limit then t.spanNo else t.spanNo + s.spanInc

/-- The watchdog of a CONN_IN ends at the tick of the span in progress unless something arrives. -/
def State.wdEnds (s : State) (d : Die) (q : Nat) (par : ConnPar) : Bool :=
  let e := (s.die d).eng
  match Tab.get IState.plain e.com.ist q with
  | .connIn _ wd _ _ _ _ => !e.first && decide (par.wd ≤ wd + ((s.die d).tb.spanNo - e.comSpan))
  | _ => false

/-- A copy that passed every check joins the inbound buffer: one per span of arrival, the greater tuple (R280). -/
def InConn.hold (x : InConn) (c : Copy) : InConn × Bool :=
  let same := x.held.any fun y => y.span == c.span
  let stay := x.held.any fun y => y.span == c.span && decide (c.tuple ≤ y.tuple)
  ({ x with held := if stay then x.held else (x.held.filter fun y => y.span != c.span) ++ [c], seen := true }, same)

/-- The inbound buffer of a connection is full for a copy of span `span`: it holds copies of 3 other spans (R39, R280). -/
def InConn.full (x : InConn) (span : Nat) : Bool := decide (3 ≤ (x.held.filter fun y => y.span != span).length)

/-- The pairing record of an accepted copy, or the 5 flits of its full record (R281). -/
def pairFlits (par : ConnPar) (b : List Byte) : List FlitRec :=
  let f := tFields b
  if par.loneT = 0 then [PairRec.flit (.digest (tConn b) (tSeq b) (tEpoch b) (tBoot b) (tLen b) (crc64 f))]
  else
    let x := f ++ List.replicate (99 - f.length) 0 ++ [4]
    (List.range 5).map fun k => PairRec.flit (.full (tConn b) (slice x (20 * k) 20))

/-- A telegram dropped before or at checks 1 to 3. -/
def State.dropSafe (s : State) (d : Die) : State := s.bump 32 0x7009 (3 + d.n)

/-- The switch drops a frame tagged for a VID that is not in the VLAN table (R274) and every frame with an S-VLAN tag (R269). -/
def State.vlanOk (s : State) (d : Die) : Option (Nat × Nat) → Bool
  | none => true
  | some t => t.1 == 0x8100 && (t.2 % 4096 == 0 || ((s.pattern.map fun p => p.vids d).getD []).contains (t.2 % 4096))

/-- The switch takes a frame of `len` bytes: 64 to 1,522 bytes, a VID that it knows, no PAUSE frame (R269). -/
def State.takes (s : State) (d : Die) (h : EthHdr) (len : Nat) : Bool :=
  decide (64 ≤ len) && decide (len ≤ 1522) && s.vlanOk d h.tag && h.etype != 0x8808

/-- Multicast groups of the connection table on the network of die `d`: those of its connection and forwarding records. -/
def State.groupsOf (s : State) (d : Die) : List Nat :=
  (s.pattern.map fun p => (((p.conns.filter fun c => c.portsOf d != 0).map (·.dst)) ++ (p.fwds.filter fun r => r.network == d.n + 1).map (·.mac)).filter
    fun m => bitAt m 40).getD []

/-- The switch delivers a frame to the internal port: own address, broadcast, or a group of the connection table (R268). -/
def State.delivers (s : State) (d : Die) (dst : Nat) : Bool :=
  dst == Config.macAddr (d.n + 1) || dst == 2 ^ 48 - 1 || (s.groupsOf d).contains dst

/-- A frame is a safe telegram for this network: EtherType SAFE_ETYPE (R272), delivered to the internal port. -/
def State.isSafe (s : State) (d : Die) (h : EthHdr) : Bool := h.etype == s.reg 0x7000 0 && s.delivers d h.dst

/-- The frame passes the switch and the MAC with its FCS right. -/
def State.frameOk (s : State) (d : Die) (h : EthHdr) (len : Nat) : Bool := !(s.die d).net.macReset && s.takes d h len && h.fcsOk

/-- A copy of the connection at position `q` (R279 to R281, R286). Where the inbound buffer is full, the copy is the newest telegram and is
dropped and counted (R37, DEDUCED, log 131). -/
def State.takeCopy (s : State) (d : Die) (p : Pattern) (q : Nat) (c : ConnRec) (par : ConnPar) (ingress : Nat) (b : List Byte) : State :=
  let l := s.die d
  let x := Tab.get InConn.init l.ins q
  let idx := 0x7100 + p.inNo q
  let code := s.rxCheck d c par x ingress b
  let put (x : InConn) : State := s.setDie d { l with ins := Tab.set InConn.init l.ins q x }
  if code = 11 then s.bump 32 idx 0x0B
  else if code = 0 then
    let keys := if par.auth = 1 then keepKeys x.last x.keys (tBoot b) (tEpoch b) (s.keyFor d c x.keys b) else x.keys
    let span := s.arrival d ingress (s.wdEnds d q par)
    if x.full span then s.dropSafe d
    else
      let r := ({ x with keys := keys }).hold
        { span := span, ingress := ingress, boot := tBoot b, epoch := tEpoch b, seq := tSeq b, body := tFields b }
      let s1 := (put r.1).updDie d fun l => { l with link := (pairFlits par b).foldl (fun k f => k.push span 0 f) l.link }
      if r.2 then s1.bump 32 idx 0x0C else s1
  else
    let s1 := (put { x with lastChk := code }).bump 32 idx (3 + code)
    if code ≤ 3 then s1.dropSafe d else s1

/-- The ingress time of a telegram of connection `conn` on the network of die `d`, later by DLY_US while the delay perturbation acts
on it (R471). -/
def State.ingressOf (s : State) (d : Die) (conn ingress : Nat) : Nat :=
  if s.ptActs 1 && s.reg 0xD012 1 == d.n + 1 && (s.reg 0xD012 2 == 0xFFFF || s.reg 0xD012 2 == conn) then ingress + 1000 * s.reg 0xD012 3
  else ingress

/-- SAFE_TELEGRAM_RX: a copy arrives on an external port of the network of die `d`, with its frame header, the bytes after the EtherType
and the ingress time of its last bit. A frame of another EtherType or for another station is no safe telegram of this network and enters no
buffer (R39, R268). -/
def doSafeTelegramRx (d : Die) (port : Fin 2) (h : EthHdr) (body : List Byte) (ingress : Nat) (s : State) : State :=
  if !s.ticking d || !((s.die d).net.port port.val).link || !s.isSafe d h then s
  else if !s.frameOk d h (h.size body.length) then s.dropSafe d
  else match s.pattern with
    | none => s.dropSafe d
    | some p =>
      match p.inRec d (tConn body), p.connPos true (tConn body) with
      | some c, some q => (match (p.insts[q]?).map Inst.block with
        | some (.connIn par) => s.takeCopy d p q c par (s.ingressOf d (tConn body) ingress) body
        | _ => s.dropSafe d)
      | _, _ => s.dropSafe d

def execSafeTelegramRx (d : Die) (port : Fin 2) (h : EthHdr) (body : List Byte) (ingress : Nat) (s : State) :
    Host.Outcome State Fault Refusal := .next (doSafeTelegramRx d port h body ingress s)

/-! ## Position telegrams -/

/-- The words of a position payload from byte `o` on for `n` slots: D_k, the full count where one follows, and whether the word
keeps R9; then the length read (R215). -/
def posWords (key : Bool) (pl : List Byte) : Nat → Nat → List (Int × Option Nat) × Bool × Nat
  | 0, o => ([], true, o)
  | n + 1, o =>
    let w := beAt pl o 2
    let dk := ofContainer .s14 w
    let full := key || dk == -8192
    let r := posWords key pl n (if full then o + 6 else o + 2)
    ((dk, if full then some (beAt pl (o + 2) 4) else none) :: r.1, tyOk 6 w && r.2.1, r.2.2)

/-- The tick that a timestamp lies at, within ±1,000 ns (R217). -/
def State.tickOf (s : State) (ingress : Nat) (b : List Byte) : Option Nat :=
  let t := tspanNs s.modes.spanK
  let ts : Int := (ingress : Int) - ageOf ingress b - s.modes.tickOfs
  let j := (ts + (t / 2 : Nat)) / (t : Int)
  if 0 ≤ j && decide ((ts - j * t).natAbs ≤ 1000) then some j.toNat else none

/-- A number greater than all of a set joins it; the set is a list of ranges, the greatest first (R218). -/
def addRange (k : Nat) : List (Nat × Nat) → List (Nat × Nat)
  | (a, b) :: t => if b + 1 = k then (a, k) :: t else (k, k) :: (a, b) :: t
  | [] => [(k, k)]

/-- What a check of a position telegram answers: the first failing check, 0 for none, 11 for a duplicate. -/
def State.posCheck (s : State) (d : Die) (c : ConnRec) (x : Stream) (ingress : Nat) (b : List Byte) : Nat :=
  let tu := tupleNum (tBoot b) (tEpoch b) (tSeq b)
  let j := s.tickOf ingress b
  let key := match j with
    | some k => k % 64 == c.kfPhase
    | none => false
  let pl := (tFields b).drop 18
  let w := posWords key pl c.slots 2
  if !chkFormat b then 1
  else if !chkCrc b then 2
  else if !bitAt (tFlags b) 6 || (j.isSome && tLen b != w.2.2) || !w.2.1 || decide (2 ^ c.slots ≤ beAt pl 0 2) then 3
  else if !s.chkAuth d (c.key != 255) (s.epochKey d c (tBoot b) (tEpoch b)) b then 4
  else if x.acc.any fun r => decide (r.1 ≤ tu) && decide (tu ≤ r.2) then 11
  else if !chkOrder (tupleNum x.boot x.epoch x.seq) b then 5
  else if j.isNone then 6
  else 0

/-- A position telegram of stream `k` (R214 to R218). -/
def State.takePos (s : State) (d : Die) (p : Pattern) (k : Nat) (c : ConnRec) (ingress : Nat) (b : List Byte) : State :=
  let l := s.die d
  let x := Tab.get Stream.init l.streams k
  let code := s.posCheck d c x ingress b
  if code = 11 then s.bump 32 (0x6400 + k) 5
  else if code = 0 then
    let j := (s.tickOf ingress b).getD 0
    let pl := (tFields b).drop 18
    let key := j % 64 == c.kfPhase
    let tu := tupleNum (tBoot b) (tEpoch b) (tSeq b)
    let from_ := s.arrival d ingress true
    let t : PosTel := { tick := j, from_ := from_, next := tBoot b == x.boot && tEpoch b == x.epoch && tSeq b == x.seq + 1, key := key
                        ok := beAt pl 0 2, words := (posWords key pl c.slots 2).1 }
    let x' : Stream := { x with
      boot := tBoot b, epoch := tEpoch b, seq := tSeq b, acc := addRange tu x.acc, buf := x.buf ++ [t] }
    let won := from_ == l.tb.spanNo && p.axes.any fun r => (ownSrc d r).1 == k && decide (j + (p.axPar r.axis).lag = l.tb.spanNo)
    let s1 := (s.setDie d { l with streams := Tab.set Stream.init l.streams k x' }).bump 32 (0x6400 + k) 4
    if won then (s1.updDie d fun l => l.pushPos (some p) d (s.modes.pwr == .deepSleep)).bump 32 0x2005 4 else s1
  else if code ≤ 3 then s.dropSafe d
  else s

/-- POSITION_TELEGRAM_RX. -/
def doPositionTelegramRx (d : Die) (port : Fin 2) (h : EthHdr) (body : List Byte) (ingress : Nat) (s : State) : State :=
  if !s.ticking d || !((s.die d).net.port port.val).link || !s.isSafe d h then s
  else if !s.frameOk d h (h.size body.length) then s.dropSafe d
  else match s.pattern.bind fun p => (p.streamRec d (tConn body)).map fun x => (p, x) with
    | some (p, c, k) => s.takePos d p k c (s.ingressOf d (tConn body) ingress) body
    | none => s.dropSafe d

def execPositionTelegramRx (d : Die) (rx : Arrival) (body : List Byte) (ingress : Nat) (s : State) :
    Host.Outcome State Fault Refusal := .next (doPositionTelegramRx d rx.port rx.h body ingress s)

/-! ## Links and replay -/

/-- A telegram that will not be replayed. -/
def State.replayDrop (s : State) (conn : Nat) : State :=
  match s.pattern.bind fun p => (p.connPos false conn).map fun q => p.outNo q with
  | some o => s.bump 32 (0x7900 + o) 6
  | none => s

/-- EGRESS_LOST (R289): a telegram without a record in the journal is not replayed. -/
def doEgressLost (d : Die) (port : Fin 2) (conn epoch seq : Nat) (s : State) : State :=
  let l := s.die d
  let s1 := s.bump 32 0x7009 (5 + d.n)
  match l.net.released.find? fun r => r.conn == conn && r.epoch == epoch && r.seq == seq && bitAt r.ports port.val with
  | some r => s1.updDie d fun l => { l with net := l.net.updPort port.val fun q =>
      { q with lost := q.lost ++ [(r.span, conn, epoch, seq)], replay := q.link } }
  | none => s1.replayDrop conn

def execEgressLost (d : Die) (port : Fin 2) (conn epoch seq : Nat) (s : State) : Host.Outcome State Fault Refusal :=
  .next (doEgressLost d port conn epoch seq s)

/-- LINK_DOWN: what its egress queues held does not leave (R289). -/
def doLinkDown (d : Die) (port : Fin 2) (s : State) : State :=
  s.updDie d fun l => { l with net := (l.net.updPort port.val fun q =>
    { q with link := false, gigabit := false, asCapable := false, best := none, replay := false, queue := [] }).roles }

def execLinkDown (d : Die) (port : Fin 2) (s : State) : Host.Outcome State Fault Refusal := .next (doLinkDown d port s)

/-- LINK_UP (R267, R289): RMII runs at 100 Mbit/s, a disabled port has no link; lost telegrams are due for replay. -/
def doLinkUp (d : Die) (port : Fin 2) (gigabit : Bool) (s : State) : State :=
  let f := s.reg 0x7001 (portSub d port.val)
  if f = 2 then s
  else s.updDie d fun l => { l with net := l.net.updPort port.val fun q =>
    { q with link := true, gigabit := gigabit && f == 0, replay := !q.lost.isEmpty } }

def execLinkUp (d : Die) (port : Fin 2) (gigabit : Bool) (s : State) : Host.Outcome State Fault Refusal :=
  .next (doLinkUp d port gigabit s)

/-- Wire time of a telegram in ns: the tagged frame, at least 64 bytes, with preamble and gap (R272). -/
def wireNs (gigabit : Bool) (body : List Byte) : Nat := (max 64 (22 + body.length) + 20) * (if gigabit then 8 else 80)

/-- One lost telegram in its turn: (free wire time, state). -/
def State.replayOne (d : Die) (port : Nat) (x : Nat × State) (y : Nat × Nat × Nat × Nat) : Nat × State :=
  let s := x.2
  let l := s.die d
  let q := l.net.port port
  let old := decide (y.1 + 2 * s.spanInc < l.tb.spanNo)
  match l.net.released.find? fun r => r.conn == y.2.1 && r.epoch == y.2.2.1 && r.seq == y.2.2.2 with
  | none => (x.1, s.replayDrop y.2.1)
  | some r =>
    let w := wireNs q.gigabit r.body
    if old || decide (x.1 < w) then (x.1, s.replayDrop y.2.1)
    else
      let s1 := s.setDie d { l with net := l.net.sendSafe port r.frame }
      (x.1 - w, match s.pattern.bind fun p => (p.connPos false y.2.1).map fun q => p.outNo q with
        | some o => s1.bump 32 (0x7900 + o) 5
        | none => s1)

/-- Insert in tuple order. -/
def insLost (y : Nat × Nat × Nat × Nat) : List (Nat × Nat × Nat × Nat) → List (Nat × Nat × Nat × Nat)
  | [] => [y]
  | z :: zs => if y.2.2.1 * 2 ^ 32 + y.2.2.2 < z.2.2.1 * 2 ^ 32 + z.2.2.2 then y :: z :: zs else z :: insLost y zs

/-- TELEGRAM_REPLAY (R289, R290): in the egress interval after the commit point, with the wire time that the span's own telegrams leave
within L_W. -/
def doTelegramReplay (d : Die) (port : Fin 2) (s : State) : State :=
  let l := s.die d
  let q := l.net.port port.val
  if !s.ticking d || !q.replay || !q.link || l.net.macReset || l.net.idle || l.tb.phase != .s then s
  else
    let own := l.net.released.filter fun r => r.span == l.tb.spanNo && bitAt r.ports port.val
    let used := (own.map fun r => wireNs q.gigabit r.body).foldl (· + ·) 0
    let free := l.tb.tspan - lateNs l.tb.tspan - 1000 - used
    let order := q.lost.foldl (fun a y => insLost y a) []
    let s0 := s.setDie d { l with net := l.net.updPort port.val fun q => { q with lost := [], replay := false } }
    (order.foldl (State.replayOne d port.val) (free, s0)).2

def execTelegramReplay (d : Die) (port : Fin 2) (s : State) : Host.Outcome State Fault Refusal := .next (doTelegramReplay d port s)

/-! ## Switch -/

/-- Ports of a static forwarding entry. -/
def State.fdbStatic (s : State) (d : Die) (vid mac : Nat) : Option Nat :=
  (s.pattern.bind fun p => p.fwds.find? fun r => r.network == d.n + 1 && r.vid == vid && r.mac == mac).map (·.mask)

/-- Queue of a PCP: the default mapping of IEEE 802.1Q onto 8 queues (PRESUMED, log 130), with PCP 7 in queue 6 (R268). -/
def pcpQueue (p : Nat) : Nat := if p = 0 then 1 else if p = 1 then 0 else min p 6

/-- External ports to which the switch forwards a frame that came in on `port`, as bits. -/
def State.fwdTo (s : State) (d : Die) (port : Nat) (h : EthHdr) : Nat :=
  let out := 2 ^ (1 - port)
  if h.dst = Config.macAddr (d.n + 1) then 0
  else match s.fdbStatic d h.vid h.dst with
    | some m => if bitAt m (1 - port) then out else 0
    | none => match Tab.get none (s.die d).net.fdb h.dst with
      | some k => if k = port then 0 else out
      | none => out

/-- FRAME_FORWARD (R268, R269): the source address is learned while one of the 1,024 entries is free; a frame that the switch does not take
or that is longer than the PORT_MTU of its egress port is dropped. The frame enters the egress queue of its PCP. Cut-through: a wrong FCS
is seen only when the frame has gone, so it is forwarded and its address not learned (DEDUCED, log 130). -/
def doFrameForward (d : Die) (port : Fin 2) (h : EthHdr) (len : Nat) (s : State) : State :=
  let l := s.die d
  if !s.netRx d port.val || !s.takes d h len then s
  else
    let known := (Tab.get none l.net.fdb h.src).isSome
    let learn := h.fcsOk && !bitAt h.src 40 && (s.fdbStatic d h.vid h.src).isNone && (known || decide (l.net.fdb.length < 1024))
    let net := if learn then { l.net with fdb := Tab.set none l.net.fdb h.src (some port.val) } else l.net
    let goes := s.fwdTo d port.val h != 0 && decide (len ≤ s.reg 0x7002 (portSub d (1 - port.val)))
    s.setDie d { l with net := if goes then net.send (1 - port.val) { queue := pcpQueue h.pcp, bytes := h.bytes, len := len } else net }

def execFrameForward (d : Die) (port : Fin 2) (dst src : Nat) (tag : Option (Nat × Nat)) (etype : Nat) (fin : FrameEnd) (s : State) :
    Host.Outcome State Fault Refusal := .next (doFrameForward d port ⟨dst, src, tag, etype, fin.fcsOk⟩ fin.len s)

/-- FDB_AGEOUT (R268): a learned entry is 300 s old. -/
def doFdbAgeout (d : Die) (mac : Nat) (s : State) : State :=
  s.updDie d fun l => { l with net := { l.net with fdb := Tab.del l.net.fdb mac } }

def execFdbAgeout (d : Die) (mac : Nat) (s : State) : Host.Outcome State Fault Refusal := .next (doFdbAgeout d mac s)

/-! ## Network stack -/

/-- The own addresses of the network of die `d`. -/
def State.ip4 (s : State) (d : Die) : Nat := s.reg 0x1021 (d.n + 1)
def State.ip6 (s : State) (d : Die) : Nat := beNat (leBytes 16 (s.reg 0x1022 (d.n + 1)))

/-- Sum of 16-bit words, folded, for the Internet checksum. -/
def sum16 : List Byte → Nat
  | a :: b :: t => a.toNat * 256 + b.toNat + sum16 t
  | [a] => a.toNat * 256
  | [] => 0

/-- The Internet checksum of a byte string. -/
def inetSum (bs : List Byte) : Nat :=
  let x := sum16 bs
  let y := x % 65536 + x / 65536
  let z := y % 65536 + y / 65536
  65535 - z % 65536

/-- An answer leaves untagged on the port that the question came from: addresses, EtherType, message (log 29), in the queue of PCP 0, where
its length is within PORT_MTU. `hdr` counts the bytes of an IP header. -/
def State.answer (s : State) (d : Die) (port dst etype hdr : Nat) (msg : List Byte) : State :=
  let len := max 64 (18 + hdr + msg.length)
  if s.reg 0x7002 (portSub d port) < len then s
  else
    let bs := beBytes 6 dst ++ beBytes 6 (Config.macAddr (d.n + 1)) ++ beBytes 2 etype ++ msg
    s.updDie d fun l => { l with net := l.net.send port { queue := pcpQueue 0, bytes := bs, len := len } }

/-- A frame with `n` bytes after its EtherType reaches the management path of a network: it passes the switch and the MAC and is delivered
to the internal port. -/
def State.mgmtRx (s : State) (d : Die) (port : Nat) (h : EthHdr) (n : Nat) : Bool :=
  s.netRx d port && s.takes d h (max 64 (h.size n)) && h.fcsOk && s.delivers d h.dst

/-- A frame of the management path: the management processor takes it, or it is a non-safety frame that is dropped and counted (R37,
DESIGN CHOICE, log 131). -/
def State.stackRx (s : State) (d : Die) (port : Nat) (h : EthHdr) (n : Nat) (act : State → State) : State :=
  if !s.mgmtRx d port h n then s
  else if (s.die d).mgmt != .serving then s.bump 32 0x7009 (1 + d.n)
  else act s

/-- ARP_REQUEST_RX: a request for the own address is answered. -/
def doArpRequestRx (d : Die) (port : Fin 2) (h : EthHdr) (senderMac senderIp targetIp : Nat) (s : State) : State :=
  s.stackRx d port.val h 28 fun s =>
    if targetIp != s.ip4 d || targetIp = 0 || h.etype != 0x0806 then s
    else s.answer d port.val senderMac 0x0806 0 (beBytes 2 1 ++ beBytes 2 0x0800 ++ [6, 4] ++ beBytes 2 2
      ++ beBytes 6 (Config.macAddr (d.n + 1)) ++ beBytes 4 targetIp ++ beBytes 6 senderMac ++ beBytes 4 senderIp)

def execArpRequestRx (d : Die) (rx : Arrival) (senderMac senderIp targetIp : Nat) (s : State) :
    Host.Outcome State Fault Refusal := .next (doArpRequestRx d rx.port rx.h senderMac senderIp targetIp s)

/-- An ICMPv6 message with its checksum over the pseudo-header. -/
def icmp6 (src dst : Nat) (typ : Nat) (rest : List Byte) : List Byte :=
  let m (c : Nat) : List Byte := [BitVec.ofNat 8 typ, 0] ++ beBytes 2 c ++ rest
  m (inetSum (beBytes 16 src ++ beBytes 16 dst ++ beBytes 4 (m 0).length ++ [0, 0, 0, 58] ++ m 0))

/-- NEIGHBOUR_DISCOVERY_RX: a solicitation for the own address is answered by an advertisement. A solicitation comes to the solicited-node
group of the address too, which no connection table need name (DEDUCED, log 130). -/
def doNeighbourDiscoveryRx (d : Die) (port : Fin 2) (h : EthHdr) (senderMac senderIp targetIp : Nat) (s : State) : State :=
  let g := 0x3333FF000000 + s.ip6 d % 2 ^ 24
  let h1 := if h.dst = g then { h with dst := Config.macAddr (d.n + 1) } else h
  s.stackRx d port.val h1 72 fun s =>
    if targetIp != s.ip6 d || targetIp = 0 || h.etype != 0x86DD then s
    else s.answer d port.val senderMac 0x86DD 40 (icmp6 targetIp senderIp 136
      ([0x60, 0, 0, 0] ++ beBytes 16 targetIp ++ [2, 1] ++ beBytes 6 (Config.macAddr (d.n + 1))))

def execNeighbourDiscoveryRx (d : Die) (rx : Arrival) (senderMac senderIp targetIp : Nat) (s : State) :
    Host.Outcome State Fault Refusal := .next (doNeighbourDiscoveryRx d rx.port rx.h senderMac senderIp targetIp s)

/-- ECHO_REQUEST_RX: the data after the checksum comes back in an echo reply. A request in more than 2 fragments is not put together, and a
reply that would need fragments is not sent (R269). -/
def doEchoRequestRx (d : Die) (port : Fin 2) (h : EthHdr) (v6 : Bool) (frags senderIp targetIp : Nat) (data : List Byte) (s : State) : State :=
  let own := if v6 then s.ip6 d else s.ip4 d
  let hdr := if v6 then 40 else 20
  s.stackRx d port.val h (if frags ≤ 1 then hdr + 4 + data.length else 46) fun s =>
    if targetIp != own || targetIp = 0 || decide (2 < frags) || decide (1500 < hdr + 4 + data.length) || h.etype != (if v6 then 0x86DD else 0x0800) then s
    else if v6 then s.answer d port.val h.src 0x86DD hdr (icmp6 own senderIp 129 data)
    else s.answer d port.val h.src 0x0800 hdr ([0, 0] ++ beBytes 2 (inetSum ([0, 0, 0, 0] ++ data)) ++ data)

def execEchoRequestRx (d : Die) (rx : Arrival) (v6 : Bool) (frags senderIp targetIp : Nat) (data : List Byte) (s : State) :
    Host.Outcome State Fault Refusal := .next (doEchoRequestRx d rx.port rx.h v6 frags senderIp targetIp data s)

end Machine

end Sys2Proof
end

