-- ==== Sys2Proof/Machine/Inputs.lean ====
section
/-! DEFINITION. The field-input family: FIELD_IMAGE_RX, CAPTURE_LOCK_END, FIELD_INPUT_EDGE, DEBOUNCE_EXPIRE, the OSSD and
test-pulse rows, ADC_SAMPLE, ADC_REFERENCE_CHECK, COS_HIRQ_CLEAR (06_field_inputs.md, 16_crc_timers.md R413 to R415,
07_field_outputs.md R191, R201 to R206). -/

namespace Sys2Proof

/-- Two channels are the pair of one SBC (R242, R243). -/
def Pattern.pairMates (p : Pattern) (m n : Nat) : Bool :=
  p.insts.any fun i => match i.block with
    | .sbc _ a b _ _ => (a == m && b == n) || (a == n && b == m)
    | _ => false

end Sys2Proof

namespace Sys2Proof.Machine

/-! ## Where a chain stands -/

/-- F-die `f` is on the package and powered. -/
def State.fOn (s : State) (f : Nat) : Bool := s.fdies.contains f && (s.fdie f).powered

/-- The chain of channel `n` on the port of die `d` works: its F-die has power; the RSTIN balls belong to the L-dies. -/
def State.chainOn (s : State) (d : Die) (n : Nat) : Bool := s.ticking d && (decide (128 ≤ n) || s.fOn (n / 32))

/-! ## Filters -/

/-- The filtered state takes a level. -/
def Filt.take (f : Filt) (v : Bool) : Filt :=
  if v then { f with on := true, onSeen := true, deb := false } else { f with on := false, offSeen := true, deb := false }

/-- The level at the debounce changes or repeats: the count restarts, and without a debounce time the filtered state follows
at once (R165). -/
def Filt.feed (f : Filt) (debUs : Nat) (v : Bool) : Filt :=
  let f1 := { f with lvl := v }
  if debUs = 0 then f1.take v else { f1 with deb := v != f1.on }

/-- A raw edge reaches the filter chain of its kind (Table 06-2, R173, R177). -/
def Filt.raw_ (f : Filt) (kind debUs : Nat) (v : Bool) : Filt :=
  if kind = 3 then
    if v then
      if f.pf then { f with low := false }
      else if f.low then f
      else ({ f with pf := true }).feed debUs true
    else if f.pf then { f with low := true }
    else f
  else if kind = 2 && f.win then f
  else f.feed debUs v

/-- Capture of an edge (R413): CAP_RISE after a CAP_FALL forms LAST_LOW. -/
def Chain.capture (c : Chain) (rise : Bool) (t : Nat) : Chain :=
  let k := t % 2 ^ 32
  if rise then
    { c with f := { c.f with capRise := k, fallSeen := false }
             v := { c.v with lastLow := if c.f.fallSeen then (k + 2 ^ 32 - c.f.capFall) % 2 ^ 32 else c.v.lastLow } }
  else { c with f := { c.f with capFall := k, fallSeen := true } }

/-- A capture while the pair may be locked (R414): the pending stage takes one, a further one sets CAP_OVR and is lost. -/
def Chain.edgeCap (c : Chain) (rise : Bool) (t : Nat) : Chain :=
  if !c.f.lock then c.capture rise t
  else match c.f.pend with
    | none => { c with f := { c.f with pend := some (rise, t) } }
    | some _ => { c with f := { c.f with ovRise := true, ovFall := true, fallSeen := false } }

/-- A raw edge in the windows of test pulses (R174). -/
def Superv.edge (v : Superv) (own : Bool) (rise : Bool) (fall t : Nat) : Superv :=
  if rise then
    let v1 := if own then
        { v with winLow := match v.winLow with
            | none => some (fall, t - fall)
            | some x => some (x.1, 0) }
      else v
    match v1.fgnOpen, v1.fgnFall with
    | true, some f => { v1 with fgnLow := (t - f) :: v1.fgnLow, fgnFall := none }
    | _, _ => v1
  else if v.fgnOpen then { v with fgnFall := some t }
  else v

/-- A raw edge at an output (R203, R205 code 5): whether the ball fell in time during an own pulse, and the low interval. -/
def OutSup.edge (o : OutSup) (rise : Bool) (t wUs : Nat) : OutSup :=
  if rise then { o with lowAt := none }
  else
    let inTime := match o.pulseAt with
      | some p => o.pulse && decide (t + 20000 ≤ p + wUs * 1000)
      | none => false
    { o with fell := o.fell || inTime, lowAt := some t }

/-- Length of the overlap of two intervals. -/
def overlap (a b c d : Nat) : Nat := min b d - max a c

/-- The output's low interval [a, b] began during the pulse interval of another safety output and lasts 20 µs or more in it,
outside its own pulse and settling (Table 07-5, code 5; R204); the two channels of a brake are one output (R243). -/
def LDie.foreignLow (l : LDie) (p : Pattern) (n a b : Nat) : Bool :=
  let o := l.outSup n
  !o.pulse && decide (o.settle ≤ a) && p.chans.any fun c => c.mode == 3 && c.n != n && !p.pairMates n c.n && (match (l.outSup c.n).pulseAt with
    | some t => decide (t ≤ a) && decide (20000 ≤ overlap a b t (t + (c.opW + 1000) * 1000))
    | none => false)

/-- Width of the pulse that a channel makes itself, µs: OP_W, and of a source its own width (DESIGN CHOICE, log 122: R203 names OP_W alone). -/
def State.pulseUs (s : State) (c : ChanRec) : Nat :=
  if c.mode = 4 then ((s.pattern.bind fun p => p.srcs.find? fun x => x.chan == c.n).map fun x => x.width).getD 0 else c.opW

/-! ## FIELD_INPUT_EDGE, DEBOUNCE_EXPIRE, OSSD rows -/

/-- A raw edge at `25 × cyc` ns after the last tick mark (R163 to R165, R173, R177, R413). An edge to the level that the chain
has already is no edge. -/
def doFieldInputEdge (d : Die) (n : Fin 132) (level : Bool) (cyc : Nat) (s : State) : State :=
  let l := s.die d
  if !s.chainOn d n || (l.chain n).f.raw == level then s
  else
    let t := l.tb.tickNs + 25 * cyc
    let c := s.chanRec n
    let x := l.chain n
    let fall := x.f.lastEdge
    let x1 := x.edgeCap level t
    let f1 := { (x1.f.raw_ c.chainKind c.debUs level) with
      raw := level, lastEdge := t, base := t, inWin := c.chainKind == 2 && x1.f.win, late := none }
    let v1 := if c.chainKind = 2 then x1.v.edge x1.f.win level fall t else x1.v
    let l1 := l.updChain n fun _ => { x1 with f := f1, v := v1 }
    if !c.isOutput then s.setDie d l1
    else
      let o := l1.outSup n
      let hit := level && c.mode == 3 && (match s.pattern, o.lowAt with
        | some p, some a => l1.foreignLow p n a t
        | _, _ => false)
      let s1 := s.setDie d (l1.updOut n fun _ => o.edge level t (s.pulseUs c))
      if hit then s1.setOut d n 5 else s1

def execFieldInputEdge (d : Die) (n : Fin 132) (level : Bool) (cyc : Nat) (s : State) : Host.Outcome State Fault Refusal :=
  .next (doFieldInputEdge d n level cyc s)

/-- The level at the debounce has been stable for DEB (R165). -/
def doDebounceExpire (d : Die) (n : Fin 132) (s : State) : State :=
  if !s.chainOn d n || !((s.die d).chain n).f.deb then s
  else s.updDie d fun l => l.updChain n fun c => { c with f := c.f.take c.f.lvl }

def execDebounceExpire (d : Die) (n : Fin 132) (s : State) : Host.Outcome State Fault Refusal := .next (doDebounceExpire d n s)

/-- OSSD_PW has passed (R177): a low interval turns the pulse filter off, or the first on level after an entry into RUN
turns it on. -/
def doOssdPulseFilterExpire (d : Die) (n : Fin 132) (s : State) : State :=
  let c := s.chanRec n
  let f := ((s.die d).chain n).f
  if !s.chainOn d n || c.chainKind != 3 || !f.low then s
  else if f.pf && !f.raw then
    s.updDie d fun l => l.updChain n fun x => { x with f := ({ x.f with pf := false, low := false }).feed c.debUs false }
  else if !f.pf && f.raw then
    s.updDie d fun l => l.updChain n fun x => { x with f := ({ x.f with pf := true, low := false }).feed c.debUs true }
  else s

def execOssdPulseFilterExpire (d : Die) (n : Fin 132) (s : State) : Host.Outcome State Fault Refusal :=
  .next (doOssdPulseFilterExpire d n s)

/-- OSSD_TMAX without a short low interval (R178). -/
def doOssdSilentExpire (d : Die) (n : Fin 132) (s : State) : State :=
  let c := s.chanRec n
  if s.chainOn d n && c.chainKind == 3 && c.ossdTmax != 0 && ((s.die d).chain n).f.on then s.setCode d n 4 else s

def execOssdSilentExpire (d : Die) (n : Fin 132) (s : State) : Host.Outcome State Fault Refusal := .next (doOssdSilentExpire d n s)

/-! ## FIELD_IMAGE_RX, CAPTURE_LOCK_END -/

/-- The image of an F-die latched at the tick arrives in phase A: the pairs of its chains are read and locked, the outputs are checked, and
both supervision flits of the F-die are ready (R22, R79, R168, R201, R205, R414, R415). -/
def doFieldImageRx (d : Die) (fd : Fin 4) (s : State) : State :=
  if !s.ticking d || (s.die d).tb.phase != .a || !s.fOn fd then s
  else
    let s1 := s.readPairs d (fdChans fd)
    let outs := ((fdChans fd).map s1.chanRec).filter ChanRec.isOutput
    (outs.foldl (State.readback d) s1).updDie d fun l =>
      let l1 : LDie := { l with cur := { l.cur with images := setBitN l.cur.images fd } }
      LDie.outVerdict fd (l1.push [l1.inFlit fd true])

def execFieldImageRx (d : Die) (fd : Fin 4) (s : State) : Host.Outcome State Fault Refusal := .next (doFieldImageRx d fd s)

/-- Two CK_FLD cycles after the read the pending capture is written (R414). -/
def doCaptureLockEnd (d : Die) (n : Fin 132) (s : State) : State :=
  let x := (s.die d).chain n
  if !s.chainOn d n || !x.f.lock then s
  else
    let y := { x with f := { x.f with lock := false, pend := none } }
    s.updDie d fun l => l.updChain n fun _ => match x.f.pend with
      | some p => y.capture p.1 p.2
      | none => y

def execCaptureLockEnd (d : Die) (n : Fin 132) (s : State) : Host.Outcome State Fault Refusal := .next (doCaptureLockEnd d n s)

/-! ## Test-pulse sources -/

/-- Channel of a source that may pulse now: the F-die is on, holds the channel in mode 4 and closed on port A, whose token is
alive and which does not hold (Table 07-4). -/
def State.srcChan (s : State) (x : SrcRec) : Option Nat :=
  let f := s.fdie (x.chan / 32)
  let k := x.chan % 32
  if s.fOn (x.chan / 32) && Tab.get 0 f.modes k == 4 && f.a.token && !f.a.hold && f.a.closed.getLsbD k then some x.chan else none

/-- Both dies begin to watch a pulse of channel `n` (R201, R203). DESIGN CHOICE (log 122): a raw level that is below the off threshold already
when the pulse begins counts as fallen in time. -/
def State.pulseOn (s : State) (n : Nat) : State :=
  [Die.a, Die.b].foldl (fun s d => s.updDie d fun l => l.updOut n fun o =>
    { o with pulse := true, susp := true, fell := !(l.chain n).f.raw, pulseAt := some (s.nowNs d) }) s

/-- Both dies judge the pulse (R203), and the readback settles (R201). -/
def State.pulseOff (s : State) (n code : Nat) : State :=
  let c := s.chanRec n
  [Die.a, Die.b].foldl (fun s d =>
    let ok := ((s.die d).outSup n).fell
    let s1 := s.updDie d fun l => l.updOut n fun o => { o with pulse := false, settle := s.nowNs d + c.rbSettle * 1000 }
    if ok then s1 else s1.setOut d n code) s

/-- SW_A of a source opens for its pulse (R171, R198). -/
def doTestPulseStart (k : Fin 32) (s : State) : State :=
  match (s.pattern.bind fun p => p.src k).bind s.srcChan with
  | none => s
  | some n =>
    let s1 := s.updF (n / 32) fun x => { x with
      pulsing := x.pulsing ||| BitVec.ofNat 8 (2 ^ (k.val % 8)), sinks := x.sinks ||| BitVec.ofNat 32 (2 ^ (n % 32)) }
    s1.pulseOn n

def execTestPulseStart (k : Fin 32) (s : State) : Host.Outcome State Fault Refusal := .next (doTestPulseStart k s)

/-- The pulse ends and SW_A closes again (R171); a pulse that did not bring the ball down gives code 3 (R203). -/
def doTestPulseEnd (k : Fin 32) (s : State) : State :=
  match s.pattern.bind fun p => p.src k with
  | none => s
  | some x =>
    let n := x.chan
    if !(s.fdie (n / 32)).pulsing.getLsbD (k % 8) then s
    else (s.updF (n / 32) fun x => { x with pulsing := x.pulsing &&& ~~~ BitVec.ofNat 8 (2 ^ (k.val % 8)) }).pulseOff n 3

def execTestPulseEnd (k : Fin 32) (s : State) : Host.Outcome State Fault Refusal := .next (doTestPulseEnd k s)

/-! ## Windows -/

/-- Kind-2 channels of die `d` with a working chain. -/
def State.kind2 (s : State) (d : Die) : List ChanRec :=
  match s.pattern with
  | none => []
  | some p => p.chans.filter fun c => c.isInput && c.kind == 2 && s.chainOn d c.n

/-- The window of source `k` opens for one channel (R172, R173). -/
def Chain.winOpen (own : Bool) (c : Chain) : Chain :=
  if own then { c with f := { c.f with win := true, held := c.f.raw }, v := { c.v with winOn := c.f.on, winLow := none } }
  else { c with v := { c.v with fgnOpen := true, fgnFall := none, fgnLow := [] } }

/-- TP_WINDOW_OPEN (R172, R173). -/
def doTpWindowOpen (d : Die) (k : Fin 32) (s : State) : State :=
  if !s.ticking d || (s.pattern.bind fun p => p.src k).isNone then s
  else (s.kind2 d).foldl (fun s c => s.updDie d fun l => l.updChain c.n (Chain.winOpen (c.tpSrc == k.val))) s

def execTpWindowOpen (d : Die) (k : Fin 32) (s : State) : Host.Outcome State Fault Refusal := .next (doTpWindowOpen d k s)

/-- Time of the tick that began the test-pulse period in progress (R171). -/
def Timebase.periodNs (t : Timebase) (tspan nTp : Nat) : Nat := t.tickNs - t.spanNo % max 1 nTp * tspan

/-- The low interval is a clean pulse: it began within 10 µs of φ and lasted from w − 10 to w + 30 µs (R174). -/
def cleanLow (x : SrcRec) (period : Nat) (y : Nat × Nat) : Bool :=
  decide (period + (x.phase - 10) * 1000 ≤ y.1) && decide (y.1 ≤ period + (x.phase + 10) * 1000)
    && decide ((x.width - 10) * 1000 ≤ y.2) && decide (y.2 ≤ (x.width + 30) * 1000)

/-- The own window of a channel ends: the raw level reaches the filter again (R173), and the channel is judged (R174).
No verdict falls in DEEP-SLEEP (R343). -/
def State.ownWinEnd (s : State) (d : Die) (x : SrcRec) (period : Nat) (c : ChanRec) : State :=
  let y := (s.die d).chain c.n
  let judged := y.v.winOn && y.f.raw && y.f.win && s.modes.pwr != .deepSleep
  let good := match y.v.winLow with
    | some z => cleanLow x period z
    | none => false
  let s1 := s.updDie d fun l => l.updChain c.n fun z =>
    let f1 := { z.f with win := false, inWin := false, base := if z.f.inWin then period + (x.phase + x.width + 30) * 1000 else z.f.base }
    { z with f := if f1.raw == f1.lvl then f1 else f1.feed c.deb f1.raw
             v := { z.v with winOn := false, winLow := none, cleanSeen := z.v.cleanSeen || (judged && good) } }
  if !judged || good then s1 else s1.setCode d c.n (if y.v.winLow.isNone then 1 else 3)

/-- A foreign window ends (R174): code 2 for a pulse of its source on a channel that is on. -/
def State.fgnWinEnd (s : State) (d : Die) (x : SrcRec) (c : ChanRec) : State :=
  let y := (s.die d).chain c.n
  let hit := y.v.fgnOpen && y.f.on && s.modes.pwr != .deepSleep
    && y.v.fgnLow.any fun w => decide ((x.width - 10) * 1000 ≤ w) && decide (w ≤ (x.width + 30) * 1000)
  let s1 := s.updDie d fun l => l.updChain c.n fun z =>
    { z with v := { z.v with fgnOpen := false, fgnFall := none, fgnLow := [], fgnFree := z.v.fgnFree && !hit } }
  if hit then s1.setCode d c.n 2 else s1

/-- TP_WINDOW_END (R172 to R174, R176, R181). -/
def doTpWindowEnd (d : Die) (k : Fin 32) (s : State) : State :=
  match s.pattern with
  | none => s
  | some p => match p.src k with
    | none => s
    | some x =>
      if !s.ticking d then s
      else
        let ts := tspanNs s.modes.spanK
        let period := (s.die d).tb.periodNs ts (p.nTp ts)
        (s.kind2 d).foldl (fun s c => if c.tpSrc = k.val then s.ownWinEnd d x period c else s.fgnWinEnd d x c) s

def execTpWindowEnd (d : Die) (k : Fin 32) (s : State) : Host.Outcome State Fault Refusal := .next (doTpWindowEnd d k s)

/-! ## ADC -/

/-- A counter of consecutive samples, kept at 16. -/
def cnt16 (b : Bool) (n : Nat) : Nat := if b then min 16 (n + 1) else 0

/-- A sample of an input is used (R179). -/
def Filt.used (f : Filt) (kind debUs now : Nat) : Bool :=
  !(kind == 2 && f.win) && !(kind == 3 && f.pf && f.low) && decide (f.lastEdge + (debUs + 40) * 1000 ≤ now)

/-- One used sample of an input (R179). -/
def Superv.sample (v : Superv) (on : Bool) (mv : Nat) : Superv :=
  { v with
    mid := cnt16 (decide (6000 ≤ mv) && decide (mv ≤ 10000)) v.mid
    disHi := cnt16 (!on && decide (12000 ≤ mv)) v.disHi
    disLo := cnt16 (on && decide (mv ≤ 4000)) v.disLo
    clean := cnt16 ((!on && decide (mv ≤ 5000)) || (on && decide (11000 ≤ mv))) v.clean }

/-- Level supervision of an input (R179): codes 5 and 6 set at the 16th sample, clear after 16 clean ones. -/
def State.adcInput (s : State) (d : Die) (c : ChanRec) (mv : Nat) : State :=
  let x := (s.die d).chain c.n
  if !x.f.used c.kind c.deb (s.nowNs d) then s
  else
    let v := x.v.sample x.f.on mv
    let clr := v.clean = 16 && (bitAt v.codes 5 || bitAt v.codes 6)
    let v1 := if clr then { v with codes := clrBitN (clrBitN v.codes 5) 6, needClean := v.needClean || c.kind == 2 } else v
    let s1 := s.updDie d fun l => l.updChain c.n fun y => { y with v := v1 }
    let s2 := if v.mid = 16 then s1.setCode d c.n 5 else s1
    if v.disHi = 16 || v.disLo = 16 then s2.setCode d c.n 6 else s2

/-- Samples of an output (R191, R201, Table 07-5), and the clean interval of R206. -/
def State.adcOutput (s : State) (d : Die) (c : ChanRec) (ball mid ma : Nat) : State :=
  let n := c.n
  let l := s.die d
  let o := l.outSup n
  let cmd := s.cmdOn n
  let swA := (s.fdie (n / 32)).a.cmd.getLsbD (n % 32)
  let now := s.nowNs d
  let vfld := s.reg (0x4700 + n / 32) 2
  let clean := !cmd.2 && !(l.chain n).img && decide (ball ≤ 5000) && decide (mid ≤ 1000)
  let s1 := s.updDie d fun l => l.updOut n fun o =>
    { o with cleanSince := if clean then some (o.cleanSince.getD now) else none }
  if decide (now < o.settle) || o.pulse then s1
  else
    let set (b : Bool) (k : Nat) (s : State) : State := if b then s.setOut d n k else s
    set (c.mode == 3 && c.olMin != 0 && cmd.1 && decide (ma < c.olMin)) 8
      (set (!swA && decide (12000 ≤ mid)) 6
        (set (c.mode != 4 && !cmd.1 && decide (5000 < ball)) 2
          (set (cmd.1 && decide (ball + 3000 < vfld)) 1 s1)))

/-- ADC_SAMPLE of channel `n` on the port of die `d`: ball voltage, mid node and output current (R179, R191, R201). -/
def doAdcSample (d : Die) (n : Fin 132) (ball mid ma : Nat) (s : State) : State :=
  if !s.chainOn d n then s
  else
    let c := s.chanRec n
    let s1 := s.updDie d fun l => l.updOut n fun o =>
      { o with vBall := ball, vMid := if c.isOutput then mid else o.vMid, ma := if c.isOutput then ma else o.ma }
    if c.isInput then s1.adcInput d c ball else if c.isOutput then s1.adcOutput d c ball mid ma else s1

def execAdcSample (d : Die) (n : Fin 132) (ball mid ma : Nat) (s : State) : Host.Outcome State Fault Refusal :=
  .next (doAdcSample d n ball mid ma s)

/-- The reference check of an F-die's ADC (R210). -/
def doAdcReferenceCheck (fd : Fin 4) (pass : Bool) (s : State) : State := if s.fOn fd then s.fCause fd 2 (!pass) else s

def execAdcReferenceCheck (fd : Fin 4) (pass : Bool) (s : State) : Host.Outcome State Fault Refusal :=
  .next (doAdcReferenceCheck fd pass s)

/-! ## COS_HIRQ_CLEAR -/

/-- Bits of a register that a write of 1 clears. -/
def State.w1c (s : State) (idx sub mask : Nat) : State := s.setReg idx sub (s.reg idx sub &&& (2 ^ 64 - 1 - mask % 2 ^ 64))

/-- Seat 0 clears bits of COS_HIRQ (R185). -/
def doCosHirqClear (seat : Fin 8) (word : Fin 5) (mask : Nat) (s : State) : State :=
  s.write false (seat == 0) true (decide (mask < 2 ^ 32)) fun s => s.w1c 0x4490 (word + 1) mask

def execCosHirqClear (seat : Fin 8) (word : Fin 5) (mask : Nat) (s : State) : Host.Outcome State Fault Refusal :=
  .next (doCosHirqClear seat word mask s)

end Sys2Proof.Machine
end

