-- ==== Sys2Proof/Machine/Outputs.lean ====
section
/-! DEFINITION. The field-output family: command frames, tick marks and keep tokens, trip lines, protection, off-pulses, hold
mode, causes of the common fault bit (07_field_outputs.md R187 to R211, 01_architecture.md R20 to R25, 11_fault_handling.md
R298). -/

namespace Sys2Proof.Machine

/-! ## Switches of a port -/

/-- Bit `k` of a 32-channel mask. -/
def chBit (k : Nat) : BitVec 32 := BitVec.ofNat 32 (2 ^ k)

/-- The channels whose applied mode satisfies a test. -/
def FDie.maskOf (x : FDie) (f : Nat → Bool) : BitVec 32 := BitVec.ofFnLE fun (k : Fin 32) => f (Tab.get 0 x.modes k)

/-- Channels with switches: modes 2 to 4 (Table 07-1). -/
def FDie.driven (x : FDie) : BitVec 32 := x.maskOf fun m => m == 2 || m == 3 || m == 4

/-- Safety outputs. -/
def FDie.safety (x : FDie) : BitVec 32 := x.maskOf fun m => m == 3

/-- Channels that a port may close now: none while its trip line is asserted, VFLD is low or the P-die heartbeat is missing;
none under protection (R23, R192, R196, R197). -/
def FDie.mayClose (x : FDie) (p : FPort) (beat : Bool) : BitVec 32 :=
  if p.trip || x.low || !beat then 0 else x.driven &&& ~~~p.prot

/-- The fields of a command frame (Table 07-3). -/
def frCmd (fr : BitVec 128) : BitVec 32 := fr.extractLsb' 96 32
def frOp (fr : BitVec 128) : BitVec 32 := fr.extractLsb' 64 32
def frSeq (fr : BitVec 128) : Nat := (fr.extractLsb' 48 16).toNat
def frHold (fr : BitVec 128) : Bool := fr.getLsbD 16

/-- KT_CHK is correct (R193). -/
def frOk (fr : BitVec 128) : Bool := (fr.extractLsb' 0 16).toNat == crc16 (beBytes 14 (fr.extractLsb' 16 112).toNat)

/-- KT_SEQ follows the last accepted one, or any is accepted (R194). -/
def FPort.seqOk (p : FPort) (fr : BitVec 128) : Bool :=
  match p.seq with
  | none => true
  | some q => frSeq fr == (q + 1) % 65536

/-- A port after an accepted frame (R192, R194, R196). -/
def FDie.accept (x : FDie) (p : FPort) (beat : Bool) (fr : BitVec 128) : FPort :=
  let p1 := { p with
    token := true, seq := some (frSeq fr), marks := 0, cmd := frCmd fr, opReq := frOp fr, hold := frHold fr
    prot := p.prot &&& frCmd fr }
  let c := frCmd fr &&& x.mayClose p1 beat
  { p1 with closed := c, tripped := p1.tripped &&& ~~~c }

/-- A frame that is not accepted although its check is right opens what it does not command, and closes nothing (R194). -/
def FPort.reject (p : FPort) (fr : BitVec 128) : FPort := { p with closed := p.closed &&& frCmd fr }

/-- Expiry of the keep token (R195): mode-3 switches open, and the next frame is accepted with any KT_SEQ (R194). -/
def FDie.expire (x : FDie) (p : FPort) : FPort := { p with token := false, seq := none, closed := p.closed &&& ~~~x.safety }

/-- A switch conducts: closed, gate drive supplied, no off-pulse or source pulse (R25, R171, R202). Source pulses act on SW_A;
`src` names the channels whose source pulses now. -/
def FDie.conducts (x : FDie) (d : Die) (src : BitVec 32) : BitVec 32 :=
  if !x.powered || !x.gate then 0
  else (x.port d).closed &&& ~~~(x.port d).opRun &&& ~~~(if d = .a then src else 0)

/-- Missing heartbeat of F-die `f` (R23). -/
def State.beat (s : State) (f : Nat) : Bool := !s.clk.noBeat.getLsbD (2 + f)

/-- Both dies begin a suspension of RB_SETTLE on the channels of F-die `f` whose command changed; the clean interval of a
channel commanded on ends (R201, R206). -/
def State.settle (s : State) (f : Nat) (changed on : BitVec 32) : State :=
  (List.range 32).foldl (fun (s : State) k =>
    if !changed.getLsbD k && !on.getLsbD k then s
    else
      let n := 32 * f + k
      let us := (s.chanRec n).rbSettle
      [Die.a, Die.b].foldl (fun (s : State) d => s.updDie d fun l => l.updOut n fun o =>
        { o with settle := if changed.getLsbD k then s.nowNs d + us * 1000 else o.settle
                 susp := o.susp || changed.getLsbD k
                 cleanSince := if on.getLsbD k then none else o.cleanSince }) s) s

/-- Change the port of die `d` on F-die `f`; a switch that opens turns its discharge sink on (Table 07-2). -/
def State.portTo (s : State) (d : Die) (f : Nat) (p : FPort) : State :=
  s.updF f fun x =>
    let gone := (x.port d).closed &&& ~~~p.closed
    { (x.updPort d fun _ => p) with sinks := x.sinks ||| gone }

/-! ## CMD_FRAME_RX, TICK_MARK_RX, KEEP_TOKEN_EXPIRE -/

/-- A command frame arrives at the port of die `d` on an F-die (R22, R193, R194). A command to close ends a loop-back test
(R440). -/
def doCmdFrameRx (d : Die) (fd : Fin 4) (fr : BitVec 128) (s : State) : State :=
  if !s.fOn fd then s
  else
    let x := s.fdie fd
    let p := x.port d
    if !frOk fr then s.bump 32 (0x4700 + fd) (4 + d.n)
    else if !p.seqOk fr then (s.portTo d fd (p.reject fr)).bump 32 (0x4700 + fd) (4 + d.n)
    else
      let q := x.accept p (s.beat fd) fr
      let s1 := s.portTo d fd q
      let s2 := if x.test.isSome && q.closed &&& ~~~p.closed != 0 then s1.updF fd fun y => { y with test := none } else s1
      s2.settle fd (p.cmd ^^^ q.cmd) q.cmd

def execCmdFrameRx (d : Die) (fd : Fin 4) (frame : BitVec 128) (s : State) : Host.Outcome State Fault Refusal :=
  .next (doCmdFrameRx d fd frame s)

/-- The keep token of a port expires; SILENCE counts it (R195). -/
def State.expireToken (s : State) (d : Die) (f : Nat) : State :=
  let x := s.fdie f
  if !(x.port d).token then s else (s.portTo d f (x.expire (x.port d))).bump 32 (0x4700 + f) (6 + d.n)

/-- The skew of the two marks of one tick (R46, R210): over 2 µs is cause 1, which lasts until 1,024 ticks in a row were good. -/
def State.markSkew (s : State) (f : Nat) (own other : Nat) : State :=
  let diff := max own other - min own other
  if s.tspan < 2 * diff then s
  else if 2000 < diff then (s.updF f fun x => { x with clean := 0 }).fCause f 1 true
  else
    let n := min 1024 ((s.fdie f).clean + 1)
    let s1 := s.updF f fun x => { x with clean := n }
    if n = 1024 then s1.fCause f 1 false else s1

/-- A tick mark reaches the port of die `d` at time `t` (ns on CK_FLD): the second without an accepted frame ends the token
(R7, R195). -/
def doTickMarkRx (fd : Fin 4) (d : Die) (t : Nat) (s : State) : State :=
  if !s.fOn fd then s
  else
    let x := s.fdie fd
    let s1 := s.updF fd fun x => x.updPort d fun p => { p with marks := min 2 (p.marks + 1), markAt := t }
    let s2 := s1.markSkew fd t (x.port d.peer).markAt
    if 2 ≤ (x.port d).marks + 1 then s2.expireToken d fd else s2

def execTickMarkRx (fd : Fin 4) (d : Die) (t : Nat) (s : State) : Host.Outcome State Fault Refusal := .next (doTickMarkRx fd d t s)

/-- 2.2 × T_span on the F-die's local oscillator without an accepted frame (R195). -/
def doKeepTokenExpire (d : Die) (fd : Fin 4) (s : State) : State := if s.fOn fd then s.expireToken d fd else s

def execKeepTokenExpire (d : Die) (fd : Fin 4) (s : State) : Host.Outcome State Fault Refusal := .next (doKeepTokenExpire d fd s)

/-! ## Trip lines and heartbeat -/

/-- A trip line is asserted: every switch of its channel opens on every F-die (R196). -/
def doTripAssert (line : Die) (s : State) : State :=
  ({ s with flt := match line with
      | .a => { s.flt with tripA := true, tripTicks := 0 }
      | .b => { s.flt with tripB := true, tripTicks := 0 } }).driveTrips

def execTripAssert (line : Die) (s : State) : Host.Outcome State Fault Refusal := .next (doTripAssert line s)

/-- Both L-dies report SAFE with every zone LOCKED. -/
def State.safeLocked (s : State) : Bool :=
  s.modes.mode == .safe && (match s.pattern with
    | none => true
    | some p => s.a.eng.com.allLocked p .a && s.b.eng.com.allLocked p .b)

/-- The conditions of R298 at a tick; a trip held since a failure of CK_RC or CK_PMU lasts until power-up (R324). -/
def State.mayUntrip (s : State) : Bool :=
  (s.tripLine .a || s.tripLine .b) && decide (2 ≤ s.flt.tripTicks) && s.admitted .a && s.admitted .b && s.safeLocked
    && !s.flt.cause.getLsbD 55 && !s.flt.cause.getLsbD 56 && !s.clk.tripHeld

/-- TRIP_RELEASE (R298). The P-die's heartbeat is there again (log 30). -/
def doTripRelease (s : State) : State :=
  if s.mayUntrip then { s with clk := { s.clk with noBeat := 0 } }.untrip else s

def execTripRelease (s : State) : Host.Outcome State Fault Refusal := .next (doTripRelease s)

/-- The P-die heartbeat has been missing for 4 µs (R23): an L-die asserts its own trip line, an F-die opens every switch. -/
def doHeartbeatLoss (rx : HbRx) (s : State) : State :=
  match rx with
  | .lDie .a => { s with clk := { s.clk with noBeat := s.clk.noBeat ||| 1 }
                         flt := { s.flt with tripLA := true, tripTicks := 0 } }.driveTrips
  | .lDie .b => { s with clk := { s.clk with noBeat := s.clk.noBeat ||| 2 }
                         flt := { s.flt with tripLB := true, tripTicks := 0 } }.driveTrips
  | .fDie f =>
    let s1 := { s with clk := { s.clk with noBeat := s.clk.noBeat ||| BitVec.ofNat 6 (2 ^ (2 + f.val)) } }
    let x := s1.fdie f
    (s1.portTo .a f { x.a with closed := 0 }).portTo .b f { x.b with closed := 0 }

def execHeartbeatLoss (rx : HbRx) (s : State) : Host.Outcome State Fault Refusal := .next (doHeartbeatLoss rx s)

/-! ## VFLD, protection, causes of the common bit -/

/-- VFLD of an F-die fell below 16.0 V ± 0.5 V (R197): every switch opens, every held command is discarded. -/
def doVfldLow (fd : Fin 4) (mv : Nat) (s : State) : State :=
  if !s.fOn fd || 16500 < mv then s
  else
    let f := fd.val
    let x := s.fdie f
    let drop (p : FPort) : FPort := { p with closed := 0, cmd := 0, opReq := 0 }
    let s1 := ((s.setReg (0x4700 + f) 2 mv).portTo .a f (drop x.a)).portTo .b f (drop x.b)
    let s2 := (s1.updF f fun x => { x with low := true }).fCause f 3 false
    s2.settle f (x.a.cmd ||| x.b.cmd) 0

def execVfldLow (fd : Fin 4) (mv : Nat) (s : State) : Host.Outcome State Fault Refusal := .next (doVfldLow fd mv s)

/-- VFLD is above 17.5 V ± 0.5 V (R197); a missing gate-drive supply counts from here (R210). -/
def doVfldRecover (fd : Fin 4) (mv : Nat) (s : State) : State :=
  if !s.fOn fd || mv < 17000 then s
  else
    let s1 := (s.setReg (0x4700 + fd) 2 mv).updF fd fun x => { x with low := false }
    if (s.fdie fd).gate || mv ≤ 17500 then s1 else s1.fCause fd 3 true

def execVfldRecover (fd : Fin 4) (mv : Nat) (s : State) : Host.Outcome State Fault Refusal := .next (doVfldRecover fd mv s)

/-- One switch opens under protection and stays open until a command with its bit at 0 (R192); both dies set the code. -/
def State.protect (s : State) (d : Die) (n code : Nat) : State :=
  let f := n / 32
  let k := n % 32
  let p := (s.fdie f).port d
  if !s.fOn f || !p.closed.getLsbD k then s
  else
    let s1 := s.portTo d f { p with closed := p.closed &&& ~~~chBit k, prot := p.prot ||| chBit k }
    (s1.setOut .a n code).setOut .b n code

/-- SW_A in current limit for its time (R192, code 7). -/
def doCurrentLimitTrip (n : Fin 128) (s : State) : State := s.protect .a n 7

def execCurrentLimitTrip (n : Fin 128) (s : State) : Host.Outcome State Fault Refusal := .next (doCurrentLimitTrip n s)

/-- The overtemperature turn-off of a switch (R192, code 9). -/
def doSwitchOvertemp (d : Die) (n : Fin 128) (s : State) : State := s.protect d n 9

def execSwitchOvertemp (d : Die) (n : Fin 128) (s : State) : Host.Outcome State Fault Refusal := .next (doSwitchOvertemp d n s)

/-- The gate-drive supply is lost (R25, R192): no switch of the F-die conducts; a cause of R210 while VFLD is above 17.5 V. -/
def doGateDriveLoss (fd : Fin 4) (s : State) : State :=
  if !s.fOn fd then s
  else
    let s1 := s.updF fd fun x => { x with gate := false, sinks := x.sinks ||| x.a.closed ||| x.b.closed }
    if s.reg (0x4700 + fd) 2 ≤ 17500 then s1 else s1.fCause fd 3 true

def execGateDriveLoss (fd : Fin 4) (s : State) : Host.Outcome State Fault Refusal := .next (doGateDriveLoss fd s)

/-- The gate-drive supply is back: the switches follow their commands again (R25, R210). -/
def doGateDriveReturn (fd : Fin 4) (s : State) : State :=
  if !s.fOn fd then s else (s.updF fd fun x => { x with gate := true }).fCause fd 3 false

def execGateDriveReturn (fd : Fin 4) (s : State) : Host.Outcome State Fault Refusal := .next (doGateDriveReturn fd s)

/-- The VFLD supply current has exceeded 4.4 A for 10 ms (R209, R210). -/
def doFdieOvercurrent (fd : Fin 4) (ma : Nat) (s : State) : State :=
  if !s.fOn fd || ma ≤ 4400 then s else (s.setReg (0x4700 + fd) 1 ma).fCause fd 0 true

def execFdieOvercurrent (fd : Fin 4) (ma : Nat) (s : State) : Host.Outcome State Fault Refusal := .next (doFdieOvercurrent fd ma s)

/-- The supply current is 4.4 A or less again (R210); F_CURR shows a current in that range (log 123). -/
def doSupplyCurrentReturn (fd : Fin 4) (s : State) : State :=
  if s.fOn fd then (s.free.2.setReg (0x4700 + fd) 1 (s.free.1 % 4401)).fCause fd 0 false else s

def execSupplyCurrentReturn (fd : Fin 4) (s : State) : Host.Outcome State Fault Refusal := .next (doSupplyCurrentReturn fd s)

/-- An F-die has reached 150 °C (R210). -/
def doFdieOvertemp (fd : Fin 4) (s : State) : State := if s.fOn fd then s.fCause fd 5 true else s

def execFdieOvertemp (fd : Fin 4) (s : State) : Host.Outcome State Fault Refusal := .next (doFdieOvertemp fd s)

/-- The P-die is below its threshold, or an F-die below 140 °C (R210, R293). -/
def doOvertemperatureEnd (who : TempWho) (s : State) : State :=
  match who with
  | .pDie => s.causeOff 40
  | .fDie f => if s.fOn f then s.fCause f 5 false else s

def execOvertemperatureEnd (who : TempWho) (s : State) : Host.Outcome State Fault Refusal := .next (doOvertemperatureEnd who s)

/-- The discharge sink of a channel is released 1 ms after its switch-off (Table 07-2, Table 07-7). -/
def doDischargeSinkRelease (n : Fin 128) (s : State) : State :=
  s.updF (n / 32) fun x => { x with sinks := x.sinks &&& ~~~chBit (n.val % 32) }

def execDischargeSinkRelease (n : Fin 128) (s : State) : Host.Outcome State Fault Refusal := .next (doDischargeSinkRelease n s)

/-! ## Off-pulses and codes -/

/-- The tick mark of the port starts the requested off-pulse of a safety output (R202). -/
def doOffPulseStart (d : Die) (n : Fin 128) (s : State) : State :=
  let f := n.val / 32
  let k := n.val % 32
  let x := s.fdie f
  let p := x.port d
  if !s.fOn f || !p.opReq.getLsbD k || Tab.get 0 x.modes k != 3 then s
  else
    let s1 := s.updF f fun x =>
      { (x.updPort d fun p => { p with opReq := p.opReq &&& ~~~chBit k, opRun := p.opRun ||| chBit k }) with sinks := x.sinks ||| chBit k }
    s1.pulseOn n

def execOffPulseStart (d : Die) (n : Fin 128) (s : State) : Host.Outcome State Fault Refusal := .next (doOffPulseStart d n s)

/-- Other safety outputs that have been low for 20 µs in the pulse interval of this one get code 5. -/
def State.foreignEnd (s : State) (d : Die) : State :=
  match s.pattern with
  | none => s
  | some p => p.chans.foldl (fun (s : State) c =>
      match ((s.die d).outSup c.n).lowAt with
      | some a => if c.mode == 3 && (s.die d).foreignLow p c.n a (s.nowNs d) then s.setOut d c.n 5 else s
      | none => s) s

/-- OP_W has passed: the switch returns to its commanded state, and both dies judge the pulse with code 3 or 4 (R202, R203). -/
def doOffPulseEnd (d : Die) (n : Fin 128) (s : State) : State :=
  let f := n.val / 32
  let k := n.val % 32
  if !s.fOn f || !((s.fdie f).port d).opRun.getLsbD k then s
  else
    let s1 := s.updF f fun x => x.updPort d fun p => { p with opRun := p.opRun &&& ~~~chBit k }
    let ok := ((s.die s.srv).outSup n).fell
    let s2 := s1.pulseOff n (if d = .a then 3 else 4)
    let s3 := (s2.foreignEnd .a).foreignEnd .b
    if ok then s3.bump 32 (0x4600 + n) 4 else s3

def execOffPulseEnd (d : Die) (n : Fin 128) (s : State) : Host.Outcome State Fault Refusal := .next (doOffPulseEnd d n s)

/-- Both ports have commanded the channel off for 1 s and everything read off in that time (R206). -/
def doOutputCodeClear (d : Die) (n : Fin 128) (s : State) : State :=
  let l := s.die d
  if (l.outSup n).cleanSince.isNone || (s.cmdOn n).2 || (l.chain n).img then s
  else s.updDie d fun l => l.updOut n fun o => { o with codes := 0 }

def execOutputCodeClear (d : Die) (n : Fin 128) (s : State) : Host.Outcome State Fault Refusal := .next (doOutputCodeClear d n s)

/-! ## CHANNEL_MODE_WRITE -/

/-- A die writes the mode of one channel through its port (R188). -/
def doChannelModeWrite (d : Die) (n : Fin 128) (mode : Nat) (s : State) : State :=
  if 4 < mode then s else (s.writeMode d n mode).modesWritten (n.val / 32)

def execChannelModeWrite (d : Die) (n : Fin 128) (mode : Nat) (s : State) : Host.Outcome State Fault Refusal :=
  .next (doChannelModeWrite d n mode s)

/-! ## Hold mode -/

/-- Die `d` may switch its port to hold mode now (R199, R457 to R461): L-B first, then L-A from its new image on L-B. -/
def State.mayHold (s : State) (d : Die) : Bool :=
  s.modes.act.isSome && s.upd.reboot.isNone && !(s.die d).hold.on && (match d with
    | .b => s.upd.state == 4 && !s.upd.newB
    | .a => s.upd.state == 5 && s.upd.newB && !s.upd.newA)

/-- HOLD_MODE_ENTER (R199). -/
def doHoldModeEnter (d : Die) (s : State) : State := if s.mayHold d then s.enterHold d else s

def execHoldModeEnter (d : Die) (s : State) : Host.Outcome State Fault Refusal := .next (doHoldModeEnter d s)

/-- The CMD of a hold frame: what was sent last, without the safety outputs that no hold permits (R199). -/
def State.holdCmd (s : State) (d : Die) (f : Nat) : BitVec 32 :=
  let last := BitVec.ofNat 32 (Tab.get { ktSeq := 0, cmd := 0 } (s.die d).tx f).cmd
  last &&& BitVec.ofFnLE fun (k : Fin 32) =>
    let c := s.chanRec (32 * f + k)
    c.mode != 3 || c.holdPermit == 1

/-- HOLD_FRAME_SEND (R199): one frame per F-die; the sequencer keeps the trip line of its channel deasserted. -/
def doHoldFrameSend (d : Die) (s : State) : State :=
  if !(s.die d).hold.on then s
  else s.updDie d fun l => s.fdies.foldl (fun (l : LDie) f => l.sendCmd f (s.holdCmd d f)) l

def execHoldFrameSend (d : Die) (s : State) : Host.Outcome State Fault Refusal := .next (doHoldFrameSend d s)

/-- 50 ms of hold mode have passed (R200): the sequencer stops, and an activation still under way reverts (R463). -/
def doHoldTimeout (d : Die) (s : State) : State :=
  if !(s.die d).hold.on then s else (s.updDie d fun l => { l with hold := { on := false, since := 0 } }).revert 16

def execHoldTimeout (d : Die) (s : State) : Host.Outcome State Fault Refusal := .next (doHoldTimeout d s)

end Sys2Proof.Machine
end

