-- ==== Sys2Proof/Machine/Expire.lean ====
section
/-! DEFINITION. The time limits of the blocks, one row each (chapters 04, 08, 09, 10). A limit is counted in spans by the evaluation itself
(R58): the row ends the job of its instance in the span in which the count reaches its limit (log 31). -/

namespace Sys2Proof

/-- A running timer that reaches `n` in a span `dt` after the last committed one (R58). -/
def Tm.due (t : Tm) (dt n : Nat) : Bool := t.any fun k => decide (n ≤ k + dt)

end Sys2Proof

namespace Sys2Proof.Machine

/-- A time limit of an instance is reached in this span: its timer runs in the committed state and the elapsed spans take it to its limit. -/
abbrev Lim := EvalEnv → Pattern → Nat → Inst → IState → Bool

/-- The lane that runs the job of position `q`. -/
def Engine.laneOf (e : Engine) (q : Nat) : Option (Fin 17) :=
  ((List.range 17).find? fun n => Tab.get LaneSt.free e.lanes n == .busy q).map (Fin.ofNat 17)

/-- The lane whose job is that of instance `inst`, where the limit is reached in its span. -/
def State.limLane (s : State) (d : Die) (inst : Nat) (lim : Lim) : Option (Fin 17) :=
  (s.pattern.bind fun p => (p.pos inst).bind fun q => (p.insts[q]?).bind fun i =>
    if lim (s.env d) p q i ((s.env d).comSt p q) then (s.die d).eng.laneOf q else none)

/-- A time limit of the instance `inst` is reached on die `d`: the job of the instance ends, and its results hold what the rule of its block
does at the limit. Like every result they pass retirement, compare and commit (R57, R75, R98). -/
def State.expire (s : State) (d : Die) (inst : Nat) (lim : Lim) : State :=
  match s.limLane d inst lim with
  | some n => doJobComplete d n s
  | none => s

/-! ## Limits -/

/-- The watchdog of a CONN_IN, in a span that accepts no input (R285). -/
def limWatchdog : Lim := fun e _ q i st => match i.block, st with
  | .connIn c, .connIn _ k _ _ _ _ => decide (c.wd ≤ if e.c.first then 0 else k + e.c.dt) && Tab.get ConnSnap.none e.snap.conns q == .none
  | _, _ => false

/-- The budget of lone copies (R284). -/
def limLone : Lim := fun e _ _ i st => match i.block, st with
  | .connIn c, .connIn _ _ l _ _ _ => l.due e.c.dt (nSpans e.c.tspan c.loneT)
  | _, _ => false

/-- Discrepancy time of a pair (R101, R104, R111). -/
def limDisc : Lim := fun e _ _ i st => match i.block, st with
  | .estop _ t, .dual m => m.tm.due e.c.dt (nSpans e.c.tspan t)
  | .guard _ t _, .dual m => m.tm.due e.c.dt (nSpans e.c.tspan t)
  | .ossd _ t, .dual m => m.tm.due e.c.dt (nSpans e.c.tspan t)
  | .glock _ t tl, .glock a l _ => a.tm.due e.c.dt (nSpans e.c.tspan t) || l.tm.due e.c.dt (nSpans e.c.tspan tl)
  | .enable3 t, .enable3 m _ _ => m.tm.due e.c.dt (nSpans e.c.tspan t)
  | _, _ => false

/-- Lock without door (R105). -/
def limMismatch : Lim := fun e _ _ i st => match i.block, st with
  | .glock _ _ tl, .glock _ _ mis => mis.due e.c.dt (nSpans e.c.tspan tl)
  | _, _ => false

/-- Muting time or override time, in the state `at_` of Table 04-6 (R107). -/
def limMute (at_ : Nat) : Lim := fun e _ _ i st => match i.block, st with
  | .mute2 _ tm tov, .mute s _ _ _ _ ru _ => s == at_ && ru.due e.c.dt (nSpans e.c.tspan (if at_ = 1 then tm else tov))
  | .mute4 _ tm tov _, .mute s _ _ _ _ ru _ => s == at_ && ru.due e.c.dt (nSpans e.c.tspan (if at_ = 1 then tm else tov))
  | _, _ => false

/-- CONTACT_T of a button (R110). -/
def limContact : Lim := fun e _ _ i st => match i.block, st with
  | .twohand _ _ k, .twohand _ _ _ c1 c2 => c1.due e.c.dt (nSpans e.c.tspan k) || c2.due e.c.dt (nSpans e.c.tspan k)
  | _, _ => false

/-- Discrepancy time of MODESEL (R112). -/
def limModesel : Lim := fun e _ _ i st => match i.block, st with
  | .modesel _ t, .modesel _ h _ => h.due e.c.dt (nSpans e.c.tspan t)
  | _, _ => false

/-- T_EDM (R115). -/
def limEdm : Lim := fun e _ _ i st => match i.block, st with
  | .edm t _, .edm _ tm => tm.due e.c.dt (nSpans e.c.tspan t)
  | _, _ => false

/-- PT of a timer block (R117). -/
def limTimer : Lim := fun e _ _ i st => match i.block, st with
  | .ton t, .timer tm => tm.due e.c.dt (nSpans e.c.tspan t)
  | .tof t, .timer tm => tm.due e.c.dt (nSpans e.c.tspan t)
  | .tp t, .timer tm => tm.due e.c.dt (nSpans e.c.tspan t)
  | _, _ => false

/-- DLY of an OUTSAFE (R125). -/
def limDly : Lim := fun e _ _ i st => match i.block, st with
  | .outsafe _ dl _, .outsafe _ _ tm => tm.due e.c.dt (nSpans e.c.tspan dl)
  | _, _ => false

/-- STALE of a STDIN (R128): the last value taken lies STALE spans back. -/
def limStale : Lim := fun e _ _ i _ => match i.block with
  | .stdin sl _ _ sa _ => decide (sa ≤ e.c.span - ((Tab.get none e.snap.stdin sl).map (·.2)).getD e.c.firstSpan)
  | _ => false

/-- Sixty-four spans without a valid sample of a source (R232). -/
def limStream : Lim := fun e p _ i st => match i.block, st with
  | .axis _, .axis _ l1 l2 _ =>
    let a := e.ax p ((p.axisOf i).getD 0)
    (!a.valid1 && decide (64 ≤ l1 + e.c.dt)) || (!a.valid2 && decide (64 ≤ l2 + e.c.dt))
  | _, _ => false

/-- T_FB of an STO (R234). -/
def limStoFb : Lim := fun e _ _ i st => match i.block, st with
  | .sto _ t, .sto _ _ dis => dis.due e.c.dt (nSpans e.c.tspan t)
  | _, _ => false

/-- T_STO of an SS1 or SS2 stop (R235, R236). -/
def limRamp : Lim := fun e _ _ i st => match i.block, st with
  | .ss1 _ rp, .ramp 1 r _ => r.due e.c.dt (nSpans e.c.tspan rp.tSto)
  | .ss2 _ rp, .ramp 1 r _ => r.due e.c.dt (nSpans e.c.tspan rp.tSto)
  | _, _ => false

/-- T_ADAPT of an SLS (R238). -/
def limAdapt : Lim := fun e _ _ i st => match i.block, st with
  | .sls _ _ t _, .sls _ _ _ ad => ad.due e.c.dt (nSpans e.c.tspan t)
  | _, _ => false

/-- T_ENG of an axis's brake (R229, R242): the lead that its AXIS counts. -/
def limBrake : Lim := fun e p _ i st => match i.block, st with
  | .axis _, .axis _ _ _ eng => eng.due e.c.dt (nSpans e.c.tspan (sbcEng p ((p.axisOf i).getD 0)))
  | _, _ => false

/-- T_FB of an SBC (R242). -/
def limSbcFb : Lim := fun e _ _ i st => match i.block, st with
  | .sbc _ _ _ _ t, .sbc _ _ fb => fb.due e.c.dt (nSpans e.c.tspan t)
  | _, _ => false

/-- T_TEST of an SBT (R244). -/
def limSbt : Lim := fun e _ _ i st => match i.block, st with
  | .sbt _ t _ _, .sbt _ _ _ te _ _ _ _ => te.due e.c.dt (nSpans e.c.tspan t)
  | _, _ => false

/-- INTERVAL_H of an SBT (R244). -/
def limSbtAge : Lim := fun e _ _ i st => match i.block, st with
  | .sbt _ _ _ h, .sbt _ _ _ _ _ _ _ ag => ag.due e.c.dt (nSpans e.c.tspan (h * 3600000000))
  | _, _ => false

/-- T_ENG_G of a REIN group (R255). -/
def limGroup : Lim := fun e _ _ i st => match i.block, st with
  | .rein r, .rein _ _ _ _ eng _ => eng.due e.c.dt (nSpans e.c.tspan r.tEng)
  | _, _ => false

/-- T_FILT of a TENSION (R259): a count reaches it in this span. -/
def limTension : Lim := fun e p q i _ => match i.block, (evalInst e p q i).st with
  | .tension _ _ _ t, .tension b l =>
    let n := nSpans e.c.tspan t
    (b != 0 && decide (n ≤ b)) || (l != 0 && decide (n ≤ l))
  | _, _ => false

/-! ## The rows -/

def doConnWatchdogExpire (d : Die) (inst : Nat) (s : State) : State := s.expire d inst limWatchdog
def execConnWatchdogExpire (d : Die) (inst : Nat) (s : State) : Host.Outcome State Fault Refusal := .next (doConnWatchdogExpire d inst s)

def doLoneBudgetExpire (d : Die) (inst : Nat) (s : State) : State := s.expire d inst limLone
def execLoneBudgetExpire (d : Die) (inst : Nat) (s : State) : Host.Outcome State Fault Refusal := .next (doLoneBudgetExpire d inst s)

def doDiscTimerExpire (d : Die) (inst : Nat) (s : State) : State := s.expire d inst limDisc
def execDiscTimerExpire (d : Die) (inst : Nat) (s : State) : Host.Outcome State Fault Refusal := .next (doDiscTimerExpire d inst s)

def doLockMismatchExpire (d : Die) (inst : Nat) (s : State) : State := s.expire d inst limMismatch
def execLockMismatchExpire (d : Die) (inst : Nat) (s : State) : Host.Outcome State Fault Refusal := .next (doLockMismatchExpire d inst s)

def doMuteTimeExpire (d : Die) (inst : Nat) (s : State) : State := s.expire d inst (limMute 1)
def execMuteTimeExpire (d : Die) (inst : Nat) (s : State) : Host.Outcome State Fault Refusal := .next (doMuteTimeExpire d inst s)

def doOverrideTimeExpire (d : Die) (inst : Nat) (s : State) : State := s.expire d inst (limMute 2)
def execOverrideTimeExpire (d : Die) (inst : Nat) (s : State) : Host.Outcome State Fault Refusal := .next (doOverrideTimeExpire d inst s)

def doContactTExpire (d : Die) (inst : Nat) (s : State) : State := s.expire d inst limContact
def execContactTExpire (d : Die) (inst : Nat) (s : State) : Host.Outcome State Fault Refusal := .next (doContactTExpire d inst s)

def doModeselDiscExpire (d : Die) (inst : Nat) (s : State) : State := s.expire d inst limModesel
def execModeselDiscExpire (d : Die) (inst : Nat) (s : State) : Host.Outcome State Fault Refusal := .next (doModeselDiscExpire d inst s)

def doEdmTimeout (d : Die) (inst : Nat) (s : State) : State := s.expire d inst limEdm
def execEdmTimeout (d : Die) (inst : Nat) (s : State) : Host.Outcome State Fault Refusal := .next (doEdmTimeout d inst s)

def doTimerPtExpire (d : Die) (inst : Nat) (s : State) : State := s.expire d inst limTimer
def execTimerPtExpire (d : Die) (inst : Nat) (s : State) : Host.Outcome State Fault Refusal := .next (doTimerPtExpire d inst s)

def doOutsafeDlyExpire (d : Die) (inst : Nat) (s : State) : State := s.expire d inst limDly
def execOutsafeDlyExpire (d : Die) (inst : Nat) (s : State) : Host.Outcome State Fault Refusal := .next (doOutsafeDlyExpire d inst s)

def doStdinStale (d : Die) (inst : Nat) (s : State) : State := s.expire d inst limStale
def execStdinStale (d : Die) (inst : Nat) (s : State) : Host.Outcome State Fault Refusal := .next (doStdinStale d inst s)

def doStreamLost (d : Die) (inst : Nat) (s : State) : State := s.expire d inst limStream
def execStreamLost (d : Die) (inst : Nat) (s : State) : Host.Outcome State Fault Refusal := .next (doStreamLost d inst s)

def doStoFbTimeout (d : Die) (inst : Nat) (s : State) : State := s.expire d inst limStoFb
def execStoFbTimeout (d : Die) (inst : Nat) (s : State) : Host.Outcome State Fault Refusal := .next (doStoFbTimeout d inst s)

def doSs1StopTimeout (d : Die) (inst : Nat) (s : State) : State := s.expire d inst limRamp
def execSs1StopTimeout (d : Die) (inst : Nat) (s : State) : Host.Outcome State Fault Refusal := .next (doSs1StopTimeout d inst s)

def doSlsAdaptExpire (d : Die) (inst : Nat) (s : State) : State := s.expire d inst limAdapt
def execSlsAdaptExpire (d : Die) (inst : Nat) (s : State) : Host.Outcome State Fault Refusal := .next (doSlsAdaptExpire d inst s)

/-- The AXIS instance behind an SBC; an AXIS stands for itself. -/
def Pattern.axisInstOf (p : Option Pattern) (inst : Nat) : Nat :=
  match p with
  | none => inst
  | some q => match (q.insts.find? fun i => i.id == inst).map Inst.block with
    | some (.sbc a _ _ _ _) => ((q.axes.find? fun r => r.axis == a).map fun r => r.axisInst).getD inst
    | _ => inst

def doBrakeEngageExpire (d : Die) (inst : Nat) (s : State) : State := s.expire d (Pattern.axisInstOf s.pattern inst) limBrake
def execBrakeEngageExpire (d : Die) (inst : Nat) (s : State) : Host.Outcome State Fault Refusal := .next (doBrakeEngageExpire d inst s)

def doSbcFbTimeout (d : Die) (inst : Nat) (s : State) : State := s.expire d inst limSbcFb
def execSbcFbTimeout (d : Die) (inst : Nat) (s : State) : Host.Outcome State Fault Refusal := .next (doSbcFbTimeout d inst s)

def doSbtTestTimeout (d : Die) (inst : Nat) (s : State) : State := s.expire d inst limSbt
def execSbtTestTimeout (d : Die) (inst : Nat) (s : State) : Host.Outcome State Fault Refusal := .next (doSbtTestTimeout d inst s)

def doSbtIntervalExpire (d : Die) (inst : Nat) (s : State) : State := s.expire d inst limSbtAge
def execSbtIntervalExpire (d : Die) (inst : Nat) (s : State) : Host.Outcome State Fault Refusal := .next (doSbtIntervalExpire d inst s)

def doGroupEngageExpire (d : Die) (inst : Nat) (s : State) : State := s.expire d inst limGroup
def execGroupEngageExpire (d : Die) (inst : Nat) (s : State) : Host.Outcome State Fault Refusal := .next (doGroupEngageExpire d inst s)

def doTensionFilterExpire (d : Die) (inst : Nat) (s : State) : State := s.expire d inst limTension
def execTensionFilterExpire (d : Die) (inst : Nat) (s : State) : Host.Outcome State Fault Refusal := .next (doTensionFilterExpire d inst s)

end Sys2Proof.Machine
end

