-- ==== Sys2Proof/Machine/OtpRows.lean ====
section
/-! DEFINITION. OTP, lifecycle, keys and backup domain: OTP_PROG, OTP_PROGRAM_DONE, OTP_DATA, LC_REQ, LC_RESP, LC_CHAL, KEY_PUT,
KEY_ERASE, ERA_RECORD_WRITE, TAMPER, TAMPER_RELEASE, VBAT_BROWN_OUT (17_otp_keys_lifecycle.md R417 to R434). -/

namespace Sys2Proof.Machine

/-! ## Helpers -/

/-- The next `n` random bytes (log 16). -/
def State.rand (s : State) (n : Nat) : List Byte × State := ((Config.random n s.freeCtr).take n, { s with freeCtr := s.freeCtr + 1 })

/-- A random U64 or U32 of `n` bytes. -/
def State.randNat (s : State) (n : Nat) : Nat × State := (leNat (s.rand n).1, (s.rand n).2)

/-- A value that waits for both flash copies (R357). -/
def State.persist (s : State) (idx sub val seat : Nat) : State :=
  { s with br := { s.br with pers := s.br.pers ++ [{ idx := idx, sub := sub, val := val, seat := seat, ans := none }] } }

/-- Persistent writes are refused with BUSY while PFW is set and during an update activation (R357, R459, Table 11-3). -/
def State.persBusy (s : State) : Bool := s.pfw || s.restricts 41 || s.modes.act.isSome

/-- A value of a window entry of a seat. -/
def State.winOf (s : State) (seat idx sub : Nat) : Nat := Tab.get 0 (s.br.seat seat).win (odKey idx sub)

/-! ## Program operations -/

/-- A log word whose content breaks the rule of its area counts as spent (R419, R423, Table 17-1). -/
def logOk (n v : Nat) : Bool :=
  if 16 ≤ n && n < 32 then v / 2 ^ 28 == 10 || v / 2 ^ 28 == 5
  else if 128 ≤ n && n < 256 then v / 2 ^ 28 == 6 || v / 2 ^ 28 == 9 || v / 2 ^ 28 == 12
  else if 392 ≤ n && n < 400 then decide (v < 256)
  else true

/-- A fixed word of Table 17-1. -/
def fixedWord (n : Nat) : Bool := decide (n < 12) || (decide (32 ≤ n) && decide (n < 128)) || (decide (256 ≤ n) && decide (n < 384))

/-- Words 12 to 14 read valid: the record in the flashes is invalidated (R418). -/
def State.firstRunDone (s : State) : State :=
  match s.otp.firstRun with
  | none => s
  | some (t, b) =>
    let good (n v : Nat) : Bool := if v = 0 then s.otp.word n == .blank else (s.otp.word n).ok
    if good 12 (t % 2 ^ 32) && good 13 (t / 2 ^ 32) && good 14 b && !s.otp.todo.any (fun x => 12 ≤ x.1 && x.1 ≤ 14) then
      { s with otp := { s.otp with firstRun := none } }
    else s

/-- What follows a lifecycle word that has been programmed (R424): the actions and the state word after an intent word, the new
state after a state word. -/
def State.lcAfter (s : State) (v : Nat) : State :=
  if lcKind v = 10 then (s.lcAct (lcTarget v)).otpWant [(16, stateWord v)] else s.lcLoad

/-- A program operation ends (R420), and its die releases the OTP lease. A word of 32 zeros stays blank (R417). -/
def State.otpEnd (u : State) (x : OtpOp) (ok : Bool) : State :=
  let s := u.leaseEnd 4 x.die.n
  let o := s.otp
  if ok then
    let s1 := { s with otp := { o with words := o.put x.word (OtpWord.of x.v), op := none, stat := 0 } }
    let s2 := if x.seat.isSome then (s1.ans .ok).otpAns x.ans else if 16 ≤ x.word && x.word < 32 then s1.lcAfter x.v.toNat
      else if 128 ≤ x.word && x.word < 256 then s1.bump 32 0xB007 3 else s1
    s2.firstRunDone.otpNext
  else
    let s1 := { s with otp := { o with words := o.put x.word .spent, op := none, stat := 5, failed := true } }
    (if x.seat.isSome then (s1.ansBusy 0xFFFF).otpAns x.ans else s1).latch 39

/-- OTP_PROGRAM_DONE (R420): an operation whose die does not hold the OTP lease has not begun (R31). -/
def doOtpProgramDone (ok : Bool) (s : State) : State :=
  match s.otp.op with
  | none => s
  | some x => if s.leaseHas 4 x.die.n then s.otpEnd x ok else s

def execOtpProgramDone (ok : Bool) (s : State) : Host.Outcome State Fault Refusal := .next (doOtpProgramDone ok s)

/-- A word that the line owner may program: blank, from 384 on, or one of anchors 4 to 7 (R421, Table 17-1). -/
def State.otpOpen (s : State) (n : Nat) : Bool :=
  s.otp.word n == .blank && ((decide (384 ≤ n) && decide (n < 1024)) || (decide (288 ≤ n) && decide (n < 320)))

/-- OTP_PROG (R420, R421): the line owner programs the word at its OTP_ADDR. The serving die asks for the OTP lease, and the answer
follows the final verify. -/
def doOtpProg (seat : Fin 8) (v : Nat) (s : State) : State :=
  let n := s.winOf seat 0xC010 0
  s.write (!s.otpMay) (s.ownerPass seat) s.inConf (decide (v < 2 ^ 32) && s.otpOpen n) fun s =>
    { s with otp := { s.otp with op := some { die := s.srv, word := n, v := BitVec.ofNat 32 v, seat := some seat.val, ans := none } } }.leaseAsk 4 s.srv.n

def execOtpProg (seat : Fin 8) (v : Nat) (s : State) : Host.Outcome State Fault Refusal := .next (doOtpProg seat v s)

/-- OTP_STAT after a read of word `n` (R419, Table 17-5). -/
def Otp.statOf (o : Otp) (n : Nat) : Nat :=
  match o.word n with
  | .blank => 1
  | .data v => if logOk n v.toNat then 0 else 2
  | .corrected v => if logOk n v.toNat then 3 else 2
  | .spent => 2

/-- A read of OTP_DATA by a seat (R419, R434): the keys of 320 to 383 answer ACCESS, an uncorrectable fixed word latches OTP_ECC. -/
def State.otpRead (s : State) (n : Nat) : State :=
  if 320 ≤ n && n < 384 then s.ans .access
  else
    let s1 := (({ s with otp := { s.otp with stat := s.otp.statOf n } }).ans .ok).reply (leBytes 4 (s.otp.word n).val)
    match s.otp.word n with
    | .corrected _ => s1.bump 32 0xC014 0
    | .spent => if fixedWord n then s1.latch 38 else s1
    | _ => s1

/-- OTP_DATA. -/
def doOtpData (seat : Fin 8) (s : State) : State :=
  if s.modes.mode = .shelf then s else if !s.serves then s.ans .mode else if !s.has seat 0 then s.ans .rights else s.otpRead (s.winOf seat 0xC010 0)

def execOtpData (seat : Fin 8) (s : State) : Host.Outcome State Fault Refusal := .next (doOtpData seat s)

/-! ## Lifecycle -/

/-- A change is pending or under way (R425). -/
def State.lcBusy (s : State) : Bool :=
  s.otp.lcPend.isSome || s.otp.todo.any (fun x => x.1 == 16) || (match s.otp.op with
    | some x => decide (16 ≤ x.word) && decide (x.word < 32)
    | none => false)

/-- The next KEK generation that is programmed for both dies (R425, R428). -/
def Otp.nextKek (o : Otp) : Option Nat :=
  (List.range 4).find? fun g => !o.zeroised && decide (o.kekGen < g) && (List.range 16).all fun k => (o.word (320 + 16 * g + k)).ok

/-- Room for the words of a change (R425). -/
def Otp.lcRoom (o : Otp) (target : Nat) : Bool := decide ((if target = 4 then 2 else 4) ≤ o.blanks 16 16) && decide (o.lcL < 255)

/-- The intent word of the next change (Table 17-3). -/
def Otp.intent (o : Otp) (target auth : Nat) : Nat :=
  10 * 2 ^ 28 + target * 2 ^ 24 + (o.lcL + 1) * 2 ^ 16 + auth * 2 ^ 8 + (if target = 2 then o.nextKek.getD 0 else 0)

/-- LC_REQ (R425): RETURNED or VOID by the line owner. -/
def doLcReq (seat : Fin 8) (v : Nat) (s : State) : State :=
  let lc := s.otp.lc
  s.write (s.lcBusy || !s.otpMay) (s.ownerPass seat) s.inConf
    (((v == 3 && lc == 2) || (v == 4 && (lc == 2 || lc == 3))) && s.otp.lcRoom v)
    fun s => s.otpWant [(16, s.otp.intent v 2)]

def execLcReq (seat : Fin 8) (v : Nat) (s : State) : Host.Outcome State Fault Refusal := .next (doLcReq seat v s)

/-- The signature verifies against an unrevoked anchor from `lo` to `lo + 3` (R425). -/
def State.anchorSig (s : State) (lo : Nat) (msg sig : List Byte) : Bool :=
  ((List.range 4).map (lo + ·)).any fun a => s.otp.anchorOk a && Config.sigVerify (s.otp.anchor a) msg sig

/-- Transitions of Table 17-2 by vendor challenge. -/
def lcVendor (lc target : Nat) : Bool := (target == 4 && (lc == 1 || lc == 2 || lc == 3)) || (target == 3 && lc == 2) || (target == 2 && lc == 3)

/-- LC_RESP (R425): each challenge serves one response. -/
def doLcResp (seat : Fin 8) (target : Nat) (sig : List Byte) (s : State) : State :=
  if s.modes.mode = .shelf then s
  else
    let msg := leBytes 8 s.otp.serial ++ leBytes 8 (s.otp.lcChal.getD 0) ++ [BitVec.ofNat 8 target]
    let ok := s.otp.lcChal.isSome && s.anchorSig 0 msg sig
    let s1 := s.write (s.lcBusy || !s.otpMay) (s.has seat 1 && ok) s.inConf
      (lcVendor s.otp.lc target && s.otp.lcRoom target && (target != 2 || s.otp.nextKek.isSome))
      fun s => s.otpWant [(16, s.otp.intent target 1)]
    { s1 with otp := { s1.otp with lcChal := none } }

def execLcResp (seat : Fin 8) (target : Nat) (sig : List Byte) (s : State) : Host.Outcome State Fault Refusal :=
  .next (doLcResp seat target sig s)

/-- A read of LC_CHAL draws a new challenge (R425). -/
def doLcChal (seat : Fin 8) (s : State) : State :=
  if s.modes.mode = .shelf then s else if !s.serves then s.ans .mode
  else if !s.has seat 0 then s.ans .rights
  else
    let x := s.randNat 8
    ({ x.2 with otp := { x.2.otp with lcChal := some x.1 } }.ans .ok).reply (leBytes 8 x.1)

def execLcChal (seat : Fin 8) (s : State) : Host.Outcome State Fault Refusal := .next (doLcChal seat s)

/-! ## Keys -/

/-- What a KEY_PUT asks for: slot, type, key (R431); `none` where the length, the unwrap or the type fails. -/
def State.keyPut? (s : State) (bytes : List Byte) : Option (Nat × Nat × List Byte) :=
  let slot := (bytes.getD 0 0).toNat
  let typ := (bytes.getD 1 0).toNat
  let zero := bytes.getD 2 0 == 0 && bytes.getD 3 0 == 0
  let may := decide (slot < 16) && zero && (if slot = 0 then typ == 1 else typ == 2 || typ == 3 || typ == 4)
  if !may then none
  else if bytes.length = 20 then some (slot, typ, bytes.drop 4)
  else if bytes.length = 28 then
    match s.keys.cell .a 0 with
    | none => none
    | some k => (Config.keyUnwrap k.key (bytes.drop 4)).map fun x => (slot, typ, x)
  else none

/-- A plain key may come from seat 0 into an empty slot 0 only (R431). -/
def State.keyPlainOk (s : State) (seat : Nat) (bytes : List Byte) : Bool :=
  bytes.length != 20 || (seat == 0 && bytes.getD 0 0 == 0 && (s.keys.cell .a 0).isNone)

/-- KEY_PUT (R431): by the line owner with the password, not during an update activation. The new generation takes effect when both
dies have committed (PERSISTENT_WRITE_COMMIT). -/
def doKeyPut (seat : Fin 8) (bytes : List Byte) (s : State) : State :=
  let k := s.keyPut? bytes
  s.write s.persBusy (s.ownerPass seat && s.keyPlainOk seat bytes) s.modes.act.isNone k.isSome fun s =>
    match k with
    | none => s
    | some (slot, typ, key) => (s.keyPend slot true).persist 0xC030 0 (leNat ([BitVec.ofNat 8 slot, BitVec.ofNat 8 typ] ++ key.take 16)) seat

def execKeyPut (seat : Fin 8) (bytes : List Byte) (s : State) : Host.Outcome State Fault Refusal := .next (doKeyPut seat bytes s)

/-- KEY_ERASE (R432). -/
def doKeyErase (seat : Fin 8) (slot : Nat) (s : State) : State :=
  s.write s.persBusy (s.ownerPass seat) s.modes.act.isNone (decide (slot < 16)) fun s => (s.keyPend slot true).persist 0xC031 0 slot seat

def execKeyErase (seat : Fin 8) (slot : Nat) (s : State) : Host.Outcome State Fault Refusal := .next (doKeyErase seat slot s)

/-- Every CONN slot that the Pattern uses holds a higher generation than was recorded (R433). -/
def State.keysRenewed (s : State) : Bool :=
  let used := (((s.pat.active.map fun p => p.conns.map fun c => c.key).getD []).filter fun k => decide (k < 16)).eraseDups
  used.all fun k => (match s.keys.cell .a k, s.keys.cell .b k with
    | some x, some y => x.typ == 2 && y.typ == 2 && decide (Tab.get 0 s.keys.recorded k < x.gen) && decide (Tab.get 0 s.keys.recorded k < y.gen)
    | _, _ => false)

/-- KEY_PUT takes effect (R431, R433). -/
def State.keyCommit (s : State) (slot typ : Nat) (key : List Byte) : State :=
  let s1 := if s.keys.wiped then s.keyPend slot false else s.keyPut slot typ key
  if s1.keys.auth != 0 && typ = 2 && s1.keys.eraPend.isNone && s1.keysRenewed then
    s1.newEra 0 ((s1.keys.era.map (·.keyset)).getD 0 + 1) true
  else s1

/-! ## Era record -/

/-- The era record has been written to both flashes, or its write has failed (R287, R427, R433). -/
def doEraRecordWrite (ok : Bool) (s : State) : State :=
  match s.keys.eraPend with
  | none => s
  | some (r, _) =>
    if ok then
      { s with
        keys := { s.keys with
          eraA := if s.admitted .a then s.keys.eraA.put r else s.keys.eraA, eraB := if s.admitted .b then s.keys.eraB.put r else s.keys.eraB, eraPend := none, auth := 0, recorded := [], bootEpoch := bootOf r.era s.bkp.bootCnt s.bkp.bootCnt }
        bkp := { s.bkp with eraBase := s.bkp.bootCnt, eraSeen := r.era } }
    else { s with keys := { s.keys with eraPend := none, auth := 2 } }

def execEraRecordWrite (ok : Bool) (s : State) : Host.Outcome State Fault Refusal := .next (doEraRecordWrite ok s)

/-! ## Backup domain -/

/-- A TAMPER input is active (R293, R426): the tamper latch is set and the other contents are cleared, in SHELF as well. -/
def doTamper (i : Fin 4) (s : State) : State :=
  let s1 := { s with bkp := { s.bkp with
    inputs := s.bkp.inputs ||| BitVec.ofNat 4 (2 ^ i.val), tamper := true, rtc := 0, rtcOk := false, bootCnt := 0, eraSeen := 0, eraBase := 0 } }
  if s.modes.mode = .shelf then s1 else s1.latchStanding 37

def execTamper (i : Fin 4) (s : State) : Host.Outcome State Fault Refusal := .next (doTamper i s)

/-- A TAMPER input is released; with none active the cause has gone (Table 11-1). -/
def doTamperRelease (i : Fin 4) (s : State) : State :=
  let w := s.bkp.inputs &&& ~~~BitVec.ofNat 4 (2 ^ i.val)
  let s1 := { s with bkp := { s.bkp with inputs := w } }
  if w = 0 then s1.causeOff 37 else s1

def execTamperRelease (i : Fin 4) (s : State) : Host.Outcome State Fault Refusal := .next (doTamperRelease i s)

/-- PD_BKP fell below 1.8 V while VDD_33 was absent: the brown-out latch (R426). -/
def doVbatBrownOut (s : State) : State :=
  if s.pow.en.getLsbD 0 then s else { s with bkp := { s.bkp with brown := true } }

def execVbatBrownOut (s : State) : Host.Outcome State Fault Refusal := .next (doVbatBrownOut s)

end Sys2Proof.Machine
end

