-- ==== Sys2Proof/Machine/FaultRows.lean ====
section
/-! DEFINITION. Faults, leases, re-admission and the girth watchdog: FAULT_LATCH, FSW_CLR, FSW_SEC_CLR, SHADOW_END,
BLOCK_RESET_COMPLETE, the LEASE, READMIT and GIRTH rows, MDIE_READMIT, STATE_TRANSFER_RX, ZONE_RRST, STDIN_VAL
(11_fault_handling.md, 01_architecture.md R31 to R36, 04_function_blocks.md R128). -/

namespace Sys2Proof.Machine

/-! ## FAULT_LATCH -/

/-- Bits of Table 11-1 whose cause stands. -/
def standingBits : List Nat := [0, 1, 3, 10, 14, 16, 17, 19, 26, 30, 37, 40, 41, 42, 46, 47, 48, 49, 50, 51, 52, 55, 56, 60]

/-- The die of a bit below 32. -/
def bitDie (b : Nat) : Die := if b < 16 then .a else .b

/-- Journal writes through an affected M-die port stop with a gap marker (Table 11-3). -/
def State.memStop (s : State) (b : Nat) : State :=
  let s1 := if b = 44 || b = 45 || b = 46 then s.jrnStop .a else s
  if b = 44 || b = 45 || b = 47 then s1.jrnStop .b else s1

/-- A CRC channel of a die in which an error is reported: the first that runs, else channel 0. -/
def State.crcOfDie (s : State) (d : Die) : Fin 8 :=
  ((List.finRange 8).find? fun (c : Fin 8) => (Tab.get CrcCh.init s.crc (8 * d.n + c.val)).busy).getD 0

/-- A ring descriptor homed on die `d` fails its check; which one is a free value (R389). -/
def State.ringFail (s : State) (d : Die) : State :=
  let l := (s.rings.desc.map (·.1)).filter fun n => (s.rings.ring n).home == d.n
  match l with
  | [] => s.latch (dieBit d 11)
  | n0 :: _ =>
    let x := s.free
    let n := l.getD (x.1 % l.length) n0
    ({ x.2 with rings := x.2.rings.put n { x.2.rings.ring n with chk := false } }).ringFix n

/-- FAULT_LATCH: an error is asserted at its source (R292, R295, Table 11-3, Table 11-4). -/
def doFaultLatch (bit : Fin 64) (s : State) : State :=
  let b := bit.val
  let d := bitDie b
  if s.modes.mode = .shelf || !fswPresent s.order b then s
  else
    let s0 := if standingBits.contains b then s.causeOn b else s
    if b = 2 || b = 18 then
      s0.latchReset (.mgmt d) b fun t => t.updDie d fun l => { l with mgmt := if l.mgmt == .serving then .restarting else l.mgmt }
    else if b = 6 || b = 22 then
      s0.latchReset (.mac d) b fun t => t.updDie d fun l => { l with net := l.net.reset }
    else if b = 8 || b = 24 then
      let c := s.crcOfDie d
      s0.latchReset (.crcCh d c) b fun t => (t.crcHalt (8 * d.n + c) 6 true).crcRest (8 * d.n + c)
    else if b = 11 || b = 27 then s0.ringFail d
    else if b = 12 || b = 28 then s0.latchReset (.fldPort d) b id
    else if b = 46 || b = 47 then (s0.latchReset (.memPort (if b = 46 then .a else .b)) b id).memStop b
    else if b = 44 || b = 45 then (s0.latch b).memStop b
    else if b = 52 then (s0.latch b).stitchReset
    else if 48 ≤ b && b ≤ 51 then s.fCause (b - 48) 4 true
    else s0.latch b

def execFaultLatch (bit : Fin 64) (s : State) : Host.Outcome State Fault Refusal := .next (doFaultLatch bit s)

/-! ## Clears -/

/-- The set bits of a mask. -/
def maskBits (m : Nat) : List Nat := (List.range 64).filter fun b => bitAt m b

/-- A seat owns a zone: it is the zone's SEAT. -/
def State.ownsZone (s : State) (seat z : Nat) : Bool := (s.pattern.map fun p => p.zones.any fun r => r.zone == z && r.seat == seat).getD false

/-- The right to clear one bit (R302). -/
def State.mayClear (s : State) (seat b : Nat) : Bool :=
  let c := s.cls b
  decide (c ≤ 1) || s.owner seat || (c == 2 && (s.zonesOfBit b).all fun z => s.ownsZone seat z)

/-- Zones that a bit concerns by its class (R304). -/
def State.clearZones (s : State) (b : Nat) : List Nat :=
  if 3 ≤ s.cls b then s.allZones else if s.cls b = 2 then s.zonesOfBit b else []

/-- A bit that was refused a clear because its cause stands (R303). -/
def State.relatch (s : State) (b : Nat) : State := (s.bump 32 0x3004 0).event2 1 [BitVec.ofNat 8 b, 2]

/-- One bit of FSW is cleared (R303), unless it latched in the same cycle: the moment is kept for the zones it concerned (R304), and what hung on it ends (R81, R323). -/
def State.clearBit (s : State) (b : Nat) : State :=
  if !s.flt.fsw.getLsbD b then s
  else if s.flt.cause.getLsbD b then s.relatch b
  else if Tab.get none s.flt.latchAt b = some s.time then s
  else
    let zs := s.clearZones b
    let at_ (s : State) (d : Die) : State := s.updDie d fun l =>
      { l with eng := { l.eng with clears := zs.foldl (fun (t : Tab Nat) z => Tab.set 0 t z (s.nowNs d)) l.eng.clears } }
    let s1 := at_ (at_ s .a) .b
    let f := s1.flt
    { s1 with
      flt := { f with f1 := clrBit64 f.f1 b, f2 := clrBit64 f.f2 b, force3 := clrBit64 f.force3 b, frozen := clrBit64 f.frozen b
                      pairZones := if b = 54 then [] else f.pairZones }
      clk := if b = 55 then { s1.clk with failed := 0 } else s1.clk }

/-- One bit of FSW_SEC is cleared (R303). -/
def State.clearSec (s : State) (b : Nat) : State :=
  if !s.flt.sec.getLsbD b then s
  else if s.flt.cause.getLsbD b then s.relatch b
  else if Tab.get none s.flt.secAt b = some s.time then s
  else { s with flt := { s.flt with sec := clrBit64 s.flt.sec b } }

/-- FSW_CLR (R302, R303): refused whole where the right for one bit is lacking. -/
def doFswClr (seat : Fin 8) (mask : Nat) (s : State) : State :=
  s.write false ((maskBits mask).all fun b => s.mayClear seat b) true (decide (mask < 2 ^ 64)) fun s => (maskBits mask).foldl State.clearBit s

def execFswClr (seat : Fin 8) (mask : Nat) (s : State) : Host.Outcome State Fault Refusal := .next (doFswClr seat mask s)

/-- FSW_SEC_CLR. -/
def doFswSecClr (seat : Fin 8) (mask : Nat) (s : State) : State :=
  s.write false ((maskBits mask).all fun b => s.mayClear seat b) true (decide (mask < 2 ^ 64)) fun s => (maskBits mask).foldl State.clearSec s

def execFswSecClr (seat : Fin 8) (mask : Nat) (s : State) : Host.Outcome State Fault Refusal := .next (doFswSecClr seat mask s)

/-! ## Shadows -/

/-- The block's own bit (R307); an L-die and the M-die have none that a late reset could set. -/
def blkBit : Blk → Option Nat
  | .stitch => some 52
  | .fldPort d => some (dieBit d 12)
  | .mac d => some (dieBit d 6)
  | .crcCh d _ => some (dieBit d 8)
  | .mgmt d => some (dieBit d 2)
  | .memPort d => some (46 + d.n)
  | .lDie _ => none
  | .mDie => none

/-- SHADOW_END (R307): dependants whose cause stands latch; a reset that has not completed by its longest duration latches the
block's own bit. -/
def doShadowEnd (blk : Blk) (s : State) : State :=
  match s.flt.shadows.find? fun x => x.blk == blk with
  | none => s
  | some x =>
    let s1 := { s with flt := { s.flt with shadows := s.flt.shadows.filter fun y => y.blk != blk } }
    let s2 := ((List.range 64).filter fun b => x.mask.getLsbD b && s1.flt.cause.getLsbD b && !s1.flt.fsw.getLsbD b).foldl State.latch s1
    match x.complete, blkBit blk with
    | false, some b => s2.latch b
    | _, _ => s2

def execShadowEnd (blk : Blk) (s : State) : Host.Outcome State Fault Refusal := .next (doShadowEnd blk s)

/-- A recovered field-link port brings its clocks back (R325): domains CK_FLD and CK_ADC. -/
def State.fldClocks (s : State) : State :=
  let c := { s.clk with down := s.clk.down &&& ~~~domainSet [15, 16], armed := s.clk.armed ||| (s.clk.down &&& domainSet [15, 16]) }
  let s1 := { s with clk := c }
  let s2 := if c.standing then s1 else s1.causeOff 55
  if c.down != 0 then s2
  else
    let free (l : LDie) : LDie := { l with net := { l.net with idle := false } }
    ({ s2 with clk := { s2.clk with stitchIdle := false } }.updDie .a free).updDie .b free

/-- BLOCK_RESET_COMPLETE (R307, Table 11-4): the block serves again. The resets of an L-die and of the M-die end with their
re-admission. -/
def doBlockResetComplete (blk : Blk) (s : State) : State :=
  let s1 := match blk with
    | .lDie _ => s
    | .mDie => s
    | k => { s with flt := s.flt.shadowDone k }
  match blk with
  | .mac d => s1.updDie d fun l => { l with net := { l.net with macReset := false } }
  | .mgmt d => s1.updDie d fun l => { l with mgmt := if l.mgmt == .restarting then .serving else l.mgmt }
  | .memPort d => s1.causeOff (46 + d.n)
  | .fldPort _ => s1.fldClocks
  | .crcCh d c => { s1 with crc := Tab.upd CrcCh.init s1.crc (8 * d.n + c) fun (x : CrcCh) => { x with busy := false } }
  | _ => s1

def execBlockResetComplete (blk : Blk) (s : State) : Host.Outcome State Fault Refusal := .next (doBlockResetComplete blk s)

/-! ## Leases -/

/-- LEASE_REQUEST (R31, R32): granted where the resource is free, else queued. Whether a party on a fenced, unpowered or absent die may
be granted a lease is open; the model grants it (log 97). -/
def doLeaseRequest (res party : Nat) (s : State) : State :=
  if 7 ≤ res || leaseParties res ≤ party then s else s.leaseAsk res party

def execLeaseRequest (res party : Nat) (s : State) : Host.Outcome State Fault Refusal := .next (doLeaseRequest res party s)

/-- LEASE_RENEW (R32): the 8 µs of a holder begin again, while they have not passed and no request is pending. -/
def doLeaseRenew (res party : Nat) (s : State) : State :=
  let l := s.lease res
  if l.holder = some party && l.queue.isEmpty && !l.over s.time then s.setLease res { l with since := s.time } else s

def execLeaseRenew (res party : Nat) (s : State) : Host.Outcome State Fault Refusal := .next (doLeaseRenew res party s)

/-- LEASE_RELEASE (R32). A holder does not release in the middle of a descriptor or a retrain; a program operation goes on when the OTP
lease comes back to its die, which asks for it again (R420, log 95). -/
def doLeaseRelease (res party : Nat) (s : State) : State :=
  if !s.leaseHas res party || (s.leaseOut res party && res != 4) then s
  else
    let s1 := (s.leaseEnd res party).leaseStart res
    if res = 4 then (if s1.otp.opOf party then s1.leaseAsk 4 party else s1.otpNext) else s1

def execLeaseRelease (res party : Nat) (s : State) : Host.Outcome State Fault Refusal := .next (doLeaseRelease res party s)

/-- The lease that the last holder of a resource released in this cycle had reached 8 µs (R35). -/
def Lease.late (t : Nat) (l : Lease) : Bool := l.sameCycle t fun _ g => decide (g + leaseLen ≤ t)

/-- LEASE_EXPIRE (R32, R33, R35, R36): a lease reaches 8 µs. A holder with a transaction outstanding is fenced and LEASE latches, else
the resource passes on. The transactions of a management processor, a ring front end and the register bus are whole commands here; where
one of theirs is outstanding is free, and its FENCED is the last status (log 6, log 95). A release in the same cycle leaves nothing to
abort, and LEASE latches all the same. -/
def doLeaseExpire (res : Nat) (s : State) : State :=
  let l := s.lease res
  if l.late s.time then (s.setLease res { l with rel := none }).latch 58
  else if !l.over s.time then s
  else match l.holder with
    | none => s
    | some p =>
      let held := s.leaseOut res p
      let x := s.free
      let open_ := res ≤ 3 && !held && x.1 % 2 = 1
      let s0 := if res ≤ 3 && !held then x.2 else s
      let s1 := s0.setLease res (l.pass s.time)
      if !held && !open_ then (if res = 4 then s1.otpNext else s1.leaseStart res)
      else
        let s2 := (s1.latch 58).leaseReset res p
        let s3 := if open_ then s2.ans .fenced else s2
        if res = 4 then s3.otpNext else s3.leaseStart res

def execLeaseExpire (res : Nat) (s : State) : Host.Outcome State Fault Refusal := .next (doLeaseExpire res s)

/-! ## Re-admission -/

/-- A re-admission has failed: the die stays fenced until power-up (R310). -/
def State.readmFail (s : State) (d : Die) : State :=
  let s1 := (s.setDieSt d.n 3).bump 32 (0x3030 + d.n) 3
  let s2 := { s1 with flt := { (s1.flt.setRd d { (s1.flt.rd d) with step := 0 }) with
    shadows := s1.flt.shadows.filter fun (x : Shadow) => x.blk != Blk.lDie d } }
  s2.setDie d (s2.die d).resetState

/-- READMIT_POWER_RESTORE (R310 step 1): the domains are back, and the die boots, once its clocks have passed their start rule (Table 12-5). -/
def doReadmitPowerRestore (d : Die) (s : State) : State :=
  if s.dieSt d.n != 1 || (s.flt.rd d).step != 1 || s.dead d then s
  else
    let pd : BitVec 20 := if d = .a then 0x30 else 0x600
    let s1 := { s with pow := { s.pow with pd := s.pow.pd ||| pd }, flt := s.flt.setRd d { (s.flt.rd d) with step := 2 } }
    s1.setDieSt d.n 2

def execReadmitPowerRestore (d : Die) (s : State) : Host.Outcome State Fault Refusal := .next (doReadmitPowerRestore d s)

/-- READMIT_BOOT_DONE (R310 step 2): the die has booted and its Pattern and signatures are right, or the step has failed. -/
def doReadmitBootDone (d : Die) (ok : Bool) (s : State) : State :=
  if s.dieSt d.n != 2 || (s.flt.rd d).step != 2 then s
  else if !ok then s.readmFail d
  else
    let s1 := { s with flt := s.flt.setRd d { (s.flt.rd d) with step := 3 } }
    s1.updDie d fun l => { l with mgmt := .serving }

def execReadmitBootDone (d : Die) (ok : Bool) (s : State) : Host.Outcome State Fault Refusal := .next (doReadmitBootDone d ok s)

/-- READMIT_TIMEOUT (R310): the sequence is not complete within READMIT_TMO of the fence, which counts from the start rule where the die had
lost its clocks (Table 12-5). -/
def doReadmitTimeout (d : Die) (s : State) : State :=
  if (s.dieSt d.n == 1 || s.dieSt d.n == 2) && !s.dead d then s.readmFail d else s

def execReadmitTimeout (d : Die) (s : State) : Host.Outcome State Fault Refusal := .next (doReadmitTimeout d s)

/-- The handover record of the running die and the state it sends on VC3 agree in their CRC-32C; on the TRK-V830 VC3 alone serves (R460). -/
def State.handOk (s : State) (d : Die) : Bool :=
  match s.pattern with
  | some p => s.order == 830 || s.upd.handover == some ((s.die d.peer).stateCrc p d.peer)
  | none => true

/-- STATE_TRANSFER_RX (R310 step 3, R460): the die that is re-admitted, or that has rebooted into a new image, takes the committed
state of its peer. -/
def doStateTransferRx (d : Die) (h : FlitHdr) (s : State) : State :=
  s.flit d h (flitOf 3 5 0) fun s =>
    if s.dieSt d.n == 2 && (s.flt.rd d).step == 3 then
      (s.takeState d) |> fun t => { t with flt := t.flt.setRd d { (t.flt.rd d) with step := 4, ticks := 0 } }
    else if s.upd.reboot == some d && s.upd.booted && !s.upd.rejoined then
      if !s.handOk d then s.revert 17 else
      (s.takeState d) |> fun t => { t with upd := { t.upd with rejoined := true } }
    else s

def execStateTransferRx (d : Die) (h : FlitHdr) (s : State) : Host.Outcome State Fault Refusal := .next (doStateTransferRx d h s)

/-- MDIE_READMIT (R311): both ports have passed their link training after the power cycle. Tackroom rings are rebuilt empty, the
change-log ring is reloaded, seat rings are lost, the journal goes on behind a gap marker. -/
def doMdieReadmit (s : State) : State :=
  if s.dieSt 2 != 1 then s
  else
    let rings := match s.pat.active with
      | some p => ({ s.rings with desc := [], mem0 := [] } : Rings).load s.order p
      | none => ({ s.rings with desc := [], mem0 := [] } : Rings).ring0
    let jrn (l : LDie) : LDie := { l with jrn := { Journal.init with dropping := l.jrn.dropping, dropped := l.jrn.dropped } }
    let s1 := ({ s with rings := rings, flt := s.flt.shadowDone .mDie, pow := { s.pow with pd := s.pow.pd ||| 0x6000 } }.updDie .a jrn).updDie .b jrn
    (((s1.setDieSt 2 0).bump 32 0x3032 2).setReg 0x3032 4 s.rtcMs)

def execMdieReadmit (s : State) : Host.Outcome State Fault Refusal := .next (doMdieReadmit s)

/-! ## Girth watchdog -/

/-- A girth error of die `d` (R300): GIRTH_WHO names every die that failed in the check. -/
def State.girthError (s : State) (d : Die) : State :=
  let w := setBitN s.flt.girthFail d.n
  let s1 := ({ s with flt := { s.flt with girthFail := w } }.setReg 0x3020 0 w).bump 32 0x3021 (d.n + 1)
  s1.latch 57

/-- The watchdog supervises a die (R300): admitted, powered and booted. A die that has lost its clocks toggles no line and answers
nothing, and stays supervised until it is fenced. -/
def State.girthOn (s : State) (d : Die) : Bool :=
  s.modes.mode != .shelf && s.admitted d && s.pow.pd.getLsbD (if d = .a then 5 else 10) && (s.die d).mgmt != .booting

/-- GIRTH_HEARTBEAT_TIMEOUT (R300). -/
def doGirthHeartbeatTimeout (d : Die) (s : State) : State := if s.girthOn d then s.girthError d else s

def execGirthHeartbeatTimeout (d : Die) (s : State) : Host.Outcome State Fault Refusal := .next (doGirthHeartbeatTimeout d s)

/-- GIRTH_CHALLENGE (R300): a new check begins. -/
def doGirthChallenge (word : Nat) (s : State) : State :=
  { s with flt := { s.flt with
    girthA := if s.girthOn .a then some (word % 2 ^ 32) else none, girthB := if s.girthOn .b then some (word % 2 ^ 32) else none
    girthFail := 0 } }

def execGirthChallenge (word : Nat) (s : State) : Host.Outcome State Fault Refusal := .next (doGirthChallenge word s)

/-- The response that the P-die expects of a die: CRC-32C of the challenge, the die number and SIG_ACT_32 (R300). -/
def State.girthWant (s : State) (d : Die) (word : Nat) : Nat :=
  crc32c (leBytes 4 word ++ [BitVec.ofNat 8 d.n] ++ leBytes 4 ((s.pat.active.map fun p => p.sig32).getD 0))

/-- The challenge of a die that is outstanding. -/
def Faults.girth (f : Faults) : Die → Option Nat
  | .a => f.girthA
  | .b => f.girthB

/-- It is answered or given up. -/
def Faults.girthOff (f : Faults) (d : Die) : Faults :=
  match d with
  | .a => { f with girthA := none }
  | .b => { f with girthB := none }

/-- GIRTH_RESPONSE_RX (R300). -/
def doGirthResponseRx (d : Die) (v : Nat) (s : State) : State :=
  match s.flt.girth d with
  | none => s
  | some w =>
    let s1 := { s with flt := s.flt.girthOff d }
    if v = s.girthWant d w || !s.girthOn d then s1 else s1.girthError d

def execGirthResponseRx (d : Die) (v : Nat) (s : State) : Host.Outcome State Fault Refusal := .next (doGirthResponseRx d v s)

/-- GIRTH_RESPONSE_TIMEOUT (R300). -/
def doGirthResponseTimeout (d : Die) (s : State) : State :=
  if (s.flt.girth d).isNone then s
  else
    let s1 := { s with flt := s.flt.girthOff d }
    if s.girthOn d then s1.girthError d else s1

def execGirthResponseTimeout (d : Die) (s : State) : Host.Outcome State Fault Refusal := .next (doGirthResponseTimeout d s)

/-! ## Zones and STDIN -/

/-- SPAN_NO of the first tick at least one span after now (R128, R366). -/
def State.applySpan (s : State) : Nat := s.spanNo + 2 * s.spanInc

/-- The zone record of the Pattern. -/
def State.zoneRec (s : State) (z : Nat) : Option ZoneRec := s.pattern.bind fun p => p.zones.find? fun r => r.zone == z

/-- ZONE_LOCK_CNT of a zone as committed. -/
def State.lockCnt (s : State) (z : Nat) : Nat :=
  match s.pattern.bind fun p => (p.zonePos z).map fun q => Tab.get IState.plain (s.die s.srv).eng.com.ist q with
  | some (.zone _ _ n _) => n
  | _ => 0

/-- ZONE_RRST (R305): a remote reset for the tick one span on. A refusal sets RESET_WHY. -/
def doZoneRrst (seat : Fin 8) (z : Fin 64) (v : Nat) (s : State) : State :=
  let ok := match s.zoneRec z with
    | none => false
    | some r => r.remoteRst == 1 && r.seat == seat.val
  let cnt := v = s.lockCnt z
  let mode := s.modes.act.isNone
  let s1 := s.write false ok mode cnt fun s =>
    { s with remote := Tab.upd [] s.remote z fun (l : List (Nat × Nat)) => l ++ [(s.applySpan, s.nowNs s.srv)] }
  if s.modes.mode = .shelf || !s.serves then s1
  else if !ok then s1.setReg (0x3040 + z) 3 5
  else if !cnt && mode then s1.setReg (0x3040 + z) 3 6
  else s1

def execZoneRrst (seat : Fin 8) (z : Fin 64) (v : Nat) (s : State) : Host.Outcome State Fault Refusal := .next (doZoneRrst seat z v s)

/-- The parameters of the STDIN of a slot: SEAT and TYPE. -/
def Pattern.stdinOf (p : Pattern) (slot : Nat) : Option (Nat × Ty) :=
  p.insts.findSome? fun i => match i.block with
    | .stdin sl seat ty _ _ => if sl = slot then some (seat, tyOf ty) else none
    | _ => none

/-- The value that a 16-bit container holds, where it lies in the range of its type (R8, R9). -/
def inContainer (t : Ty) (v : Nat) : Option Int := if decide (v < 65536) && inRange t (ofContainer t v) then some (ofContainer t v) else none

/-- STDIN_VAL (R128): the value enters the snapshot of the first tick at least one span after the write. -/
def doStdinVal (seat : Fin 8) (slot : Fin 256) (v : Nat) (s : State) : State :=
  let r := s.pattern.bind fun p => Pattern.stdinOf p slot
  let x := r.bind fun y => inContainer y.2 v
  s.write false (match r with
    | none => false
    | some y => y.1 == seat.val) s.modes.act.isNone x.isSome fun s =>
    match x with
    | none => s
    | some i => { s with stdin := Tab.upd [] s.stdin slot fun (l : List (Int × Nat)) => l ++ [(i, s.applySpan)] }

def execStdinVal (seat : Fin 8) (slot : Fin 256) (v : Nat) (s : State) : Host.Outcome State Fault Refusal := .next (doStdinVal seat slot v s)

end Sys2Proof.Machine
end

