-- ==== Sys2Proof/Machine/PatRows.lean ====
section
/-! DEFINITION. The Pattern commands: PAT_IMAGE, LOAD, DISCARD, PATTERN_CHECK_DONE, CONFIRM, CHANGE_LOG_COMMIT
(03_pattern_engine.md R69, R87 to R91, 15_rings_journal.md R395, R401). -/

namespace Sys2Proof.Machine

/-! ## Candidate -/

/-- PAT_STATE without a candidate (Table 03-5). -/
def State.patBase (s : State) : Nat :=
  match s.pat.active with
  | none => 0
  | some p => if s.pat.state = 4 || !s.passes69 s.modes.spanK p then 4 else 3

/-- The candidate goes, together with its confirmation (R88). -/
def State.dropCand (s : State) : State :=
  { s with pat := { s.pat with cand := none, confirming := false, state := s.patBase }, rings := { s.rings with pend := [] } }

/-- A write of LOAD to PAT_CMD waits for its apply tick. -/
def State.loadWaits (s : State) : Bool :=
  s.br.writes.any fun w => w.items.any fun x => x.idx == 0x5003 && x.sub == 0 && leNat x.val == 1

/-- PAT_IMAGE (R88, R366): data goes to the candidate slot of both flashes on receipt; a fenced die writes nothing (log 101). Beyond
the window of 16 MiB: BOUNDS. -/
def doPatImage (seat : Fin 8) (ofs : Nat) (data : List Byte) (s : State) : State :=
  s.write false (s.has seat 2) s.inConf true fun s =>
    if 16777216 < ofs + data.length then s.ans .bounds
    else if data.isEmpty || 1024 < data.length then s.ans .range
    else { s with pat := { s.pat with
      fa := if s.admitted .a then s.pat.fa.put ofs data else s.pat.fa
      fb := if s.admitted .b then s.pat.fb.put ofs data else s.pat.fb
      torn := s.pat.torn || s.pat.loading || s.loadWaits } }

def execPatImage (seat : Fin 8) (ofs : Nat) (data : List Byte) (s : State) : Host.Outcome State Fault Refusal :=
  .next (doPatImage seat ofs data s)

/-- LOAD (R88): any candidate is discarded, and the checks of R69 begin. Outside SHIPPED neither L-die loads a Pattern (R422). -/
def doLoad (seat : Fin 8) (s : State) : State :=
  s.write false (s.has seat 2) (s.inConf && s.otp.lc == 2) true fun s =>
    let s1 := s.dropCand
    { s1 with pat := { s1.pat with loading := true, loadErr := 0 } }

def execLoad (seat : Fin 8) (s : State) : Host.Outcome State Fault Refusal := .next (doLoad seat s)

/-- DISCARD (R88). -/
def doDiscard (seat : Fin 8) (s : State) : State :=
  s.write false (s.has seat 2) s.inConf true fun s =>
    let s1 := s.dropCand
    { s1 with pat := { s1.pat with loading := false } }

def execDiscard (seat : Fin 8) (s : State) : Host.Outcome State Fault Refusal := .next (doDiscard seat s)

/-- A candidate has passed: LOADED, with its rings laid out (R69, R395); the Pattern memory has been reloaded (Table 11-1). -/
def State.takeCand (s : State) (p : Pattern) : State :=
  let s1 := { s with pat := { s.pat with cand := some p, state := 1, loadErr := 0, loading := false, torn := false } }
  ((s1.ringsFor p).causeOff 3).causeOff 19

/-- A candidate has failed with PAT_LOAD_ERR `e`. -/
def State.failCand (s : State) (e : Nat) : State :=
  { s with pat := { s.pat with cand := none, state := s.patBase, loadErr := e, loading := false, torn := false } }

/-- PATTERN_CHECK_DONE (R69, R87): each die has checked its own slot and the signatures are compared. Without both dies no comparison
ends equal (log 101). What an image that was written while it was checked leaves is open (Table 20-5): free values (log 6). -/
def doPatternCheckDone (s : State) : State :=
  if !s.pat.loading then s
  else if s.pat.torn then
    let x := s.free
    let y := x.2.free
    if x.1 % 2 = 0 then y.2.takeCand (readPattern (leBytes s.pat.fa.cand.len y.1)) else y.2.failCand (y.1 % 7)
  else
    let a := s.pat.fa.cand.bytes
    let b := s.pat.fb.cand.bytes
    let e := if s.admitted .a && s.admitted .b then loadErr s.order s.modes.spanK a b else 6
    if e = 0 then s.takeCand (readBoth a b) else s.failCand e

def execPatternCheckDone (s : State) : Host.Outcome State Fault Refusal := .next (doPatternCheckDone s)

/-! ## Change log -/

/-- A large Pattern has more than 1,024 instances. -/
def Pattern.large (p : Pattern) : Bool := decide (1024 < p.hdr.nInst)

/-- Numbers in rising order without repeats. -/
def sortIds (l : List Nat) : List Nat := (l.foldl (fun (t : Tab Bool) k => Tab.set false t k true) []).map (·.1)

/-- Runs of consecutive numbers: first and last. -/
def idRuns : List Nat → List (Nat × Nat)
  | [] => []
  | k :: t => match idRuns t with
    | (a, b) :: r => if k + 1 = a then (k, b) :: r else (k, k) :: (a, b) :: r
    | [] => [(k, k)]

/-- IDs of the changed instances by kind: added, removed, parameters changed, edges changed (R91). A change of another field of the
instance record counts as one of parameters (log 32). -/
def patDiff (old : Option Pattern) (new : Pattern) : List (List Nat) :=
  let o := (old.map (·.insts)).getD []
  let n := new.insts
  let of (l : List Inst) (k : Nat) : Option Inst := l.find? fun i => i.id == k
  let common := n.filterMap fun i => (of o i.id).map fun j => (j, i)
  let bare (i : Inst) : Inst := { i with ins := [], outs := [] }
  [sortIds ((n.filter fun i => (of o i.id).isNone).map (·.id)), sortIds ((o.filter fun i => (of n i.id).isNone).map (·.id)),
    sortIds ((common.filter fun (x : Inst × Inst) => bare x.1 != bare x.2).map fun x => x.2.id),
    sortIds ((common.filter fun (x : Inst × Inst) => x.1.ins != x.2.ins).map fun x => x.2.id)]

/-- The items of the continuation entries (R91). -/
def diffItems (d : List (List Nat)) : List Nat :=
  d.zipIdx.flatMap fun (x : List Nat × Nat) => (idRuns x.1).map fun r => x.2 * 2 ^ 30 + r.2 % 2 ^ 14 * 2 ^ 16 + r.1 % 2 ^ 14

/-- Continuation entries of 15 items. -/
def contEntries (items : List Nat) : List (List Byte) :=
  (List.range (ceilDiv items.length 15)).map fun k =>
    [2, 0, 0, 0] ++ (List.range 15).flatMap fun j => leBytes 4 (items.getD (15 * k + j) 0xFFFFFFFF)

/-- The change-log record of a confirmation (R91, Table 03-6). -/
def State.logRecord (s : State) (seat : Nat) (p : Pattern) : List (List Byte) :=
  let d := patDiff s.pat.active p
  let cont := if Pattern.large p then contEntries (diffItems d) else []
  let old := (s.pat.active.map fun q => (q.sig32, q.sig64)).getD (0, 0)
  let changed := (sortIds (d.getD 2 [] ++ d.getD 3 [])).length
  let body := [1, BitVec.ofNat 8 seat] ++ leBytes 2 cont.length ++ leBytes 4 (s.reg (0x1100 + seat) 2) ++ leBytes 8 s.rtcMs
    ++ leBytes 8 s.bkp.bootCnt ++ leBytes 4 old.1 ++ leBytes 8 old.2 ++ leBytes 4 p.sig32 ++ leBytes 8 p.sig64
    ++ leBytes 2 (d.getD 0 []).length ++ leBytes 2 (d.getD 1 []).length ++ leBytes 2 changed ++ leBytes 2 Config.logFormat
  (body ++ leBytes 4 (crc32c body) ++ [0, 0, 0, 0]) :: cont

/-- One more unequal entry in a row; the third locks CONFIRM for 60 s (R89). -/
def State.confirmFail (s : State) : State :=
  let n := s.br.confFails + 1
  let s1 := (s.ans .range).bump 16 0x5005 0
  { s1 with br := { s1.br with confFails := if 3 ≤ n then 0 else n, confLock := decide (3 ≤ n) } }

/-- CONFIRM (R88, R89, R91): the 12 bytes of the candidate's signature, by a seat with the commissioning right that has presented the
line-owner password for a large Pattern. BUSY during the lock-out, and while the change log has no room. -/
def doConfirm (seat : Fin 8) (bytes : List Byte) (s : State) : State :=
  let rec_ := (s.pat.cand.map fun p => s.logRecord seat p).getD []
  let large := (s.pat.cand.map Pattern.large).getD false
  s.write (s.br.confLock || decide (65536 < s.rings.log.length + rec_.length) || s.pat.confirming)
    (s.has seat 2 && (!large || (s.br.seat seat).pass)) (s.inConf && s.pat.state == 1) true fun s =>
    match s.pat.cand with
    | none => s
    | some p =>
      if bytes = leBytes 4 p.sig32 ++ leBytes 8 p.sig64 then
        { s with pat := { s.pat with confirming := true }, br := { s.br with confFails := 0 }, rings := { s.rings with pend := rec_ } }
      else s.confirmFail

def execConfirm (seat : Fin 8) (bytes : List Byte) (s : State) : Host.Outcome State Fault Refusal := .next (doConfirm seat bytes s)

/-- CHANGE_LOG_COMMIT (R90, R401): both flash copies of the record carry their marker; it is appended to ring 0, and the
confirmation takes effect. -/
def doChangeLogCommit (s : State) : State :=
  if !s.pat.confirming || s.pat.state != 1 then s
  else
    let x := s.logAppend s.rings.pend
    if x.2 then { x.1 with pat := { x.1.pat with confirming := false, state := 2 }, rings := { x.1.rings with pend := [] } }
    else { s with pat := { s.pat with confirming := false }, rings := { s.rings with pend := [] } }

def execChangeLogCommit (s : State) : Host.Outcome State Fault Refusal := .next (doChangeLogCommit s)

end Sys2Proof.Machine
end

