-- ==== Sys2Proof/Machine/CrcRows.lean ====
section
/-! DEFINITION. CRC channels and general timers: the CRC rows, CRC_DESCRIPTOR_DONE, TIMER_MATCH, TIMER_RELOAD, the TMR rows
(16_crc_timers.md R403 to R412, R416). Channel c of L-A has number c, of L-B 8 + c. -/

namespace Sys2Proof.Machine

/-! ## Refusals in the order of Table 14-6 -/

/-- A write, or a read of a row of its own: the status of the first condition that holds, else the effect with status OK. The
conditions are given in the order of Table 14-6. -/
def State.refuse (s : State) (l : List (Bool × Status)) (f : State → State) : State :=
  if s.modes.mode = .shelf then s
  else if !s.serves then s.ans .mode
  else match l.find? fun (x : Bool × Status) => x.1 with
    | some x => s.ans x.2
    | none => f (s.ans .ok)

/-- CRC_DESCRIPTOR_DONE (R407): the descriptor at TAIL has been processed; the lease passes on (R32), and the channel turns to its next
descriptor. -/
def doCrcDescriptorDone (d : Die) (c : Fin 8) (s : State) : State :=
  let k := 8 * d.n + c.val
  let n := s.reg (0x9000 + k) 8
  let r := s.crcRing k
  let x := Tab.get CrcCh.init s.crc k
  if !x.busy || s.ringBusy r then s
  else if r.level = 0 then { s with crc := Tab.set CrcCh.init s.crc k { x with busy := false, dirty := false } }.crcRest k
  else
    let s1 := s.crcFeedDesc k (s.rings.entry s.order n r.tail)
    ({ s1 with rings := s1.rings.put n { r with tail := (r.tail + 1) % 2 ^ 32 } }.crcRest k).crcNext k

def execCrcDescriptorDone (d : Die) (c : Fin 8) (s : State) : Host.Outcome State Fault Refusal := .next (doCrcDescriptorDone d c s)

/-! ## Writes of a channel -/

/-- A seat may write the RW entries of a channel or timer whose seat is `owner` (R416). -/
def State.unitRight (s : State) (seat owner : Nat) : Bool := if owner = 0xFF then s.has seat 1 else seat == owner || s.owner seat

/-- Right to write a channel. -/
def State.crcRight (s : State) (seat k : Nat) : Bool := s.unitRight seat (s.reg (0x9000 + k) 9)

/-- EN becomes 1: the next descriptor must have START (R407). -/
def State.crcStart (s : State) (k : Nat) : State :=
  if s.crcEn k then s
  else
    let s1 := s.setReg (0x9000 + k) 1 1
    { s1 with crc := Tab.upd CrcCh.init s1.crc k fun (x : CrcCh) => { x with chain := false, failed := false } }.crcNext k

/-- CRC_ENABLE: a write of EN = 1 (R405, R407); an isolated channel answers MODE (Table 18-1). -/
def doCrcEnable (seat : Fin 8) (d : Die) (c : Fin 8) (s : State) : State :=
  let k := 8 * d.n + c.val
  s.refuse [(!s.crcRight seat k, .rights), (s.st.crcBad.getLsbD k, .mode)] fun s => s.crcStart k

def execCrcEnable (seat : Fin 8) (d : Die) (c : Fin 8) (s : State) : Host.Outcome State Fault Refusal := .next (doCrcEnable seat d c s)

/-- CRC_ABORT: a write of ABORT (R408): the accumulator is that before the descriptor, and the channel halts with DSTAT 5. -/
def doCrcAbort (seat : Fin 8) (d : Die) (c : Fin 8) (s : State) : State :=
  let k := 8 * d.n + c.val
  s.refuse [(!s.crcRight seat k, .rights)] fun s => if s.crcEn k || (Tab.get CrcCh.init s.crc k).busy then (s.crcHalt k 5 false).crcRest k else s

def execCrcAbort (seat : Fin 8) (d : Die) (c : Fin 8) (s : State) : Host.Outcome State Fault Refusal := .next (doCrcAbort seat d c s)

/-- Every parameter of Table 16-1. -/
def State.loadPreset (s : State) (k v : Nat) (p : CrcPar) : State :=
  let idx := 0x9000 + k
  (((((s.setReg idx 2 v).setReg idx 3 p.width).setReg idx 4 p.poly).setReg idx 5 p.init).setReg idx 6 p.xorout).setReg idx 7 (b2n p.refin + 2 * b2n p.refout)

/-- CRC_PRESET (R404, R405). -/
def doCrcPreset (seat : Fin 8) (d : Die) (c : Fin 8) (v : Nat) (s : State) : State :=
  let k := 8 * d.n + c.val
  s.refuse [(!s.crcRight seat k, .rights), (s.crcEn k, .mode), ((crcPresetPar v).isNone, .range)] fun s =>
    match crcPresetPar v with
    | some p => s.loadPreset k v p
    | none => s

def execCrcPreset (seat : Fin 8) (d : Die) (c : Fin 8) (v : Nat) (s : State) : Host.Outcome State Fault Refusal :=
  .next (doCrcPreset seat d c v s)

/-- A ring that a channel may name (R406): entries of 32 bytes, the channel's die as home, its seat as owner. -/
def State.crcRingOk (s : State) (seat k v : Nat) : Bool :=
  let r := s.rings.ring v
  v == 0xFFFFFFFF || (r.alloc && r.esize == 2 && r.home == k / 8
    && (r.owner == (if s.reg (0x9000 + k) 9 = 0xFF then seat else s.reg (0x9000 + k) 9) || r.purpose == 5))

/-- The value of a parameter is in its range (R404, Table 16-6). -/
def State.crcParOk (s : State) (seat k sub v : Nat) : Bool :=
  let w := s.reg (0x9000 + k) 3
  if sub = 3 then decide (8 ≤ v) && decide (v ≤ 64)
  else if 4 ≤ sub && sub ≤ 6 then decide (v < 2 ^ w)
  else if sub = 7 then true
  else if sub = 8 then s.crcRingOk seat k v
  else decide (v < 2 ^ 64)

/-- CRC_PARAMETER_WRITE (R404, R405): WIDTH, POLY, INIT, XOROUT, REFL set CRC_PRESET to 0; RING; ACC. -/
def doCrcParameterWrite (seat : Fin 8) (d : Die) (c : Fin 8) (sub v : Nat) (s : State) : State :=
  let k := 8 * d.n + c.val
  s.refuse [(!((decide (3 ≤ sub) && decide (sub ≤ 8)) || sub == 14), .noEntry), (!s.crcRight seat k, .rights), (s.crcEn k, .mode),
      (!s.crcParOk seat k sub v, .range)] fun s =>
    if sub = 14 then { s with crc := Tab.upd CrcCh.init s.crc k fun (x : CrcCh) => { x with acc := v } }
    else if sub = 8 then s.setReg (0x9000 + k) 8 v
    else (s.setReg (0x9000 + k) sub (if sub = 7 then v % 4 else v)).setReg (0x9000 + k) 2 0

def execCrcParameterWrite (seat : Fin 8) (d : Die) (c : Fin 8) (sub v : Nat) (s : State) : Host.Outcome State Fault Refusal :=
  .next (doCrcParameterWrite seat d c sub v s)

/-! ## Timers -/

/-- TIMER_MATCH (R410): the source edges up to the next match have passed. -/
def doTimerMatch (d : Die) (t : Fin 8) (s : State) : State :=
  let k := 8 * d.n + t.val
  if s.modes.mode = .shelf then s else s.putTimer k (s.timer k).toMatch

def execTimerMatch (d : Die) (t : Fin 8) (s : State) : Host.Outcome State Fault Refusal := .next (doTimerMatch d t s)

/-- TIMER_RELOAD (R410): in period mode, the source edge at which COUNT equals CMP. -/
def doTimerReload (d : Die) (t : Fin 8) (s : State) : State :=
  let k := 8 * d.n + t.val
  let x := s.timer k
  if s.modes.mode = .shelf || !(x.en && x.period && x.eq) then s else s.putTimer k x.edge

def execTimerReload (d : Die) (t : Fin 8) (s : State) : Host.Outcome State Fault Refusal := .next (doTimerReload d t s)

/-- Right to write a timer (R416). -/
def State.tmrRight (s : State) (seat k : Nat) : Bool := s.unitRight seat (s.reg (0x9100 + k) 8)

/-- TMR_CTRL (R412): SRC and MODE change only while EN is 0. A rise of EN clears TMR_MATCHES. -/
def doTmrCtrl (seat : Fin 8) (d : Die) (t : Fin 8) (v : Nat) (s : State) : State :=
  let k := 8 * d.n + t.val
  let x := s.timer k
  s.refuse [(!s.tmrRight seat k, .rights), (x.en && (bitAt v 1 != x.src || bitAt v 2 != x.period), .mode)] fun s =>
    s.setTimer k { x with
      en := bitAt v 0, src := bitAt v 1, period := bitAt v 2, ring := bitAt v 3, matches_ := if bitAt v 0 && !x.en then 0 else x.matches_
      xfer := x.xfer && x.en }

def execTmrCtrl (seat : Fin 8) (d : Die) (t : Fin 8) (v : Nat) (s : State) : Host.Outcome State Fault Refusal := .next (doTmrCtrl seat d t v s)

/-- TMR_CMP (R411, Table 16-4). -/
def doTmrCmp (seat : Fin 8) (d : Die) (t : Fin 8) (v : Nat) (s : State) : State :=
  let k := 8 * d.n + t.val
  s.refuse [(!s.tmrRight seat k, .rights), (decide (2 ^ 32 ≤ v) || ((s.timer k).period && v == 0), .range)] fun s =>
    s.putTimer k ((s.timer k).writeCmp v)

def execTmrCmp (seat : Fin 8) (d : Die) (t : Fin 8) (v : Nat) (s : State) : Host.Outcome State Fault Refusal := .next (doTmrCmp seat d t v s)

/-- TMR_CMP_NEXT (R412). -/
def doTmrCmpNext (seat : Fin 8) (d : Die) (t : Fin 8) (v : Nat) (s : State) : State :=
  let k := 8 * d.n + t.val
  s.refuse [(!s.tmrRight seat k, .rights), (decide (2 ^ 32 ≤ v), .range)] fun s =>
    s.setTimer k { (s.timer k) with next := v, nextPend := true }

def execTmrCmpNext (seat : Fin 8) (d : Die) (t : Fin 8) (v : Nat) (s : State) : Host.Outcome State Fault Refusal :=
  .next (doTmrCmpNext seat d t v s)

/-- TMR_COUNT (R412): only while EN is 0. -/
def doTmrCount (seat : Fin 8) (d : Die) (t : Fin 8) (v : Nat) (s : State) : State :=
  let k := 8 * d.n + t.val
  s.refuse [(!s.tmrRight seat k, .rights), ((s.timer k).en, .mode), (decide (2 ^ 32 ≤ v), .range)] fun s =>
    s.setTimer k { (s.timer k) with count := v }

def execTmrCount (seat : Fin 8) (d : Die) (t : Fin 8) (v : Nat) (s : State) : Host.Outcome State Fault Refusal := .next (doTmrCount seat d t v s)

end Sys2Proof.Machine
end

