-- ==== Sys2Proof/Machine/RingRows.lean ====
section
/-! DEFINITION. Rings and journal as seats use them: RING_PUSH, RING_READ, RING_CONSUME, FREE, RESET, RING_ALLOC, JRN_DATA_READ,
JOURNAL_RESUME (15_rings_journal.md R386 to R402). -/

namespace Sys2Proof.Machine

/-- RING_SEL of a seat. -/
def State.selRing (s : State) (seat : Nat) : Nat := s.winOf seat 0x8100 1

/-- A seat may push to and consume from a ring: its owner, or the line owner (R394). -/
def State.mayUseRing (s : State) (seat : Nat) (r : Ring) : Bool := r.alloc && (r.owner == seat || s.owner seat)

/-! ## Read, push, consume -/

/-- Place of entry counter OFFSET / ESIZE after TAIL; counters run modulo 2^32, and so does OFFSET (R393). -/
def Ring.place (r : Ring) (ofs : Nat) : Nat :=
  let m := 2 ^ 32 / r.eb
  (ofs / r.eb + m - r.tail % m) % m

/-- Free octets for an entry. -/
def State.freeBytes (s : State) (k : Nat) : List Byte × State :=
  let x := s.free
  (leBytes k x.1, x.2)

/-- Entries of a ring as a consumer sees them: those in memory, or free values where they are unpredictable (Table 20-5). -/
def State.readEntries (s : State) (n : Nat) (cs : List Nat) : State :=
  let x := cs.foldl (fun (x : List Byte × State) c =>
    if (x.2.rings.ring n).loose then
      let y := x.2.freeBytes (s.rings.ring n).eb
      (x.1 ++ y.1, y.2)
    else (x.1 ++ x.2.rings.entry s.order n c, x.2)) ([], s)
  x.2.reply x.1

/-- RING_READ (R393, R394): COUNT bytes of whole entries from OFFSET. -/
def doRingRead (seat : Fin 8) (ofs count : Nat) (s : State) : State :=
  let n := s.selRing seat
  let s1 := s.ringFix n
  let r := s1.rings.ring n
  s1.refuse [(s1.ringBusy r, .busy), (!s1.mayReadRing seat r, .rights), (decide (r.level < r.place ofs + count / r.eb), .bounds),
      (decide (count % r.eb ≠ 0) || decide (ofs % r.eb ≠ 0) || count == 0 || decide (1024 < count), .range)] fun s =>
    s.readEntries n ((List.range (count / r.eb)).map fun i => (r.tail + r.place ofs + i) % 2 ^ 32)

def execRingRead (seat : Fin 8) (ofs count : Nat) (s : State) : Host.Outcome State Fault Refusal := .next (doRingRead seat ofs count s)

/-- Push entries one after the other, the oldest dropped where POLICY is 0 (Table 15-3). -/
def State.pushAll (s : State) (n : Nat) (es : List (List Byte)) : State :=
  (es.foldl (fun (s : State) e => { s.crcTouchHead n with rings := (s.rings.devPut s.order n (s.ringRoom (s.rings.ring n)) e).1 }) s).crcKick n

/-- The bytes of a push as entries. -/
def entriesOf (eb : Nat) (data : List Byte) : List (List Byte) := (List.range (data.length / eb)).map fun i => slice data (eb * i) eb

/-- The change-of-state events of some channel go to ring `n`. -/
def State.cosRing (s : State) (n : Nat) : Bool :=
  (List.range 132).any fun k => bitAt (s.reg (0x4400 + k) 1) 2 && s.reg (0x4400 + k) 2 == n

/-- After a push by a seat: the line owner's own change-of-state ring becomes unpredictable to its consumers (Table 20-5). -/
def State.pushed (s : State) (seat n : Nat) : State :=
  if s.owner seat && s.cosRing n then { s with rings := s.rings.put n { s.rings.ring n with loose := true } } else s

/-- RING_PUSH (R390, R392 to R394): all or nothing, at the apply tick. -/
def doRingPush (seat : Fin 8) (data : List Byte) (s : State) : State :=
  let n := s.selRing seat
  let s1 := s.ringFix n
  let r := s1.rings.ring n
  let k := data.length / r.eb
  s1.refuse [(s1.ringBusy r || (r.alloc && r.policy != 0 && decide (s1.ringRoom r < k)), .busy), (r.owner == 8, .access),
      (!s1.mayUseRing seat r, .rights), (decide (r.slots < k), .bounds),
      (decide (data.length % r.eb ≠ 0) || data.isEmpty || decide (1024 < data.length), .range)] fun s =>
    (s.pushAll n (entriesOf r.eb data)).pushed seat n

def execRingPush (seat : Fin 8) (data : List Byte) (s : State) : Host.Outcome State Fault Refusal := .next (doRingPush seat data s)

/-- RING_CONSUME (R392 to R394). -/
def doRingConsume (seat : Fin 8) (k : Nat) (s : State) : State :=
  let n := s.selRing seat
  let s1 := s.ringFix n
  let r := s1.rings.ring n
  s1.refuse [(s1.ringBusy r, .busy), (r.locked && r.alloc && r.purpose != 4, .access), (!s1.mayUseRing seat r, .rights),
      (decide (r.level < k), .range)] fun s =>
    { s with rings := s.rings.put n { r with tail := (r.tail + k) % 2 ^ 32 } }

def execRingConsume (seat : Fin 8) (k : Nat) (s : State) : Host.Outcome State Fault Refusal := .next (doRingConsume seat k s)

/-! ## Allocation -/

/-- FREE (R394, R396). -/
def doFree (seat : Fin 8) (s : State) : State :=
  let n := s.selRing seat
  let s1 := s.ringFix n
  let r := s1.rings.ring n
  s1.refuse [(s1.ringBusy r, .busy), (r.locked && r.alloc, .access), (!s1.mayUseRing seat r, .rights)] fun s =>
    { s with rings := s.rings.put n Ring.free }

def execFree (seat : Fin 8) (s : State) : Host.Outcome State Fault Refusal := .next (doFree seat s)

/-- RESET sets TAIL to HEAD (R394, R396). -/
def doReset (seat : Fin 8) (s : State) : State :=
  let n := s.selRing seat
  let s1 := s.ringFix n
  let r := s1.rings.ring n
  s1.refuse [(s1.ringBusy r, .busy), (r.locked && r.alloc, .access), (!s1.mayUseRing seat r, .rights)] fun s =>
    { s with rings := s.rings.put n { r with tail := r.head, loose := false } }

def execReset (seat : Fin 8) (s : State) : Host.Outcome State Fault Refusal := .next (doReset seat s)

/-- Ring numbers of a home die: first that a seat may have, and the end (R387, Table 15-1). -/
def State.ringNos (s : State) (d : Die) : Nat × Nat :=
  let tk := (s.rings.desc.filter fun x => x.1 != 0 && x.2.purpose != 0 && (s.order != 830 || x.2.home == d.n)).length
  if s.order = 830 then (if d = .a then (1 + tk, 2048) else (2048 + tk, 4096)) else (1 + tk, ringCount s.order)

/-- The lowest free ring number. -/
def State.freeNo (s : State) (d : Die) : Option Nat :=
  let (lo, hi) := s.ringNos d
  ((List.range (min (s.rings.desc.length + 1) (hi - lo))).map (lo + ·)).find? fun n => !(s.rings.ring n).alloc

/-- The first free run of entry memory for a ring, in 64-byte units (R396). -/
def State.freeBase (s : State) (r : Ring) : Option Nat :=
  let used := (s.rings.desc.map (·.2)).filter fun x => x.alloc && x.inB s.order == r.inB s.order && (s.order != 830 || x.purpose != 1)
  let fits (b : Nat) : Bool :=
    let x := { r with base := b }
    decide (64 * b + r.bytes ≤ ringRegion s.order) && !used.any fun y => Ring.meets s.order x y
  let ends := (0 :: used.map Ring.stop).filter fits
  match ends with
  | [] => none
  | b :: t => some (t.foldl min b)

/-- RING_ALLOC (R396): at die `d`, which received the write. Bits above the fields are reserved (R12). -/
def doRingAlloc (d : Die) (seat : Fin 8) (v : Nat) (s : State) : State :=
  let r : Ring := { base := 0, sz := v % 16, esize := v / 16 % 4, policy := v / 64 % 4, owner := seat, home := d.n, locked := false, purpose := 0
                    head := 0, tail := 0, chk := true, drops := 0 }
  let held := r :: s.rings.held seat
  let no := s.freeNo d
  let base := s.freeBase r
  s.refuse [(s.ringBusy r || no.isNone || base.isNone, .busy),
      (!s.has seat 1 || decide (s.reg (0x1100 + seat) 7 < held.length) || decide (s.reg (0x1100 + seat) 8 < ringsKib held), .rights),
      (decide (r.sz = 0) || decide (r.policy = 3), .range)] fun s =>
    match no, base with
    | some n, some b =>
      ({ s with rings := s.rings.put n { r with base := b } }).updSeat seat fun x => { x with ringLast := n }
    | _, _ => s

def execRingAlloc (d : Die) (seat : Fin 8) (v : Nat) (s : State) : Host.Outcome State Fault Refusal := .next (doRingAlloc d seat v s)

/-! ## Journal -/

/-- A port of the M-die cannot be used by die `d` for its journal half (R394, Table 11-3). -/
def State.jrnBusy (s : State) (d : Die) : Bool := s.ringBusy { Ring.free with home := d.n }

/-- Bytes `ofs` to `ofs + n − 1` lie between the oldest block and the head of a journal half (R402). -/
def Journal.valid (order : Nat) (j : Journal) (ofs n : Nat) : Bool :=
  if j.at_.isNone then false
  else if j.oldest < j.head then decide (j.oldest ≤ ofs) && decide (ofs + n ≤ j.head)
  else (decide (j.oldest ≤ ofs) && decide (ofs + n ≤ jhalf order)) || decide (ofs + n ≤ j.head)

/-- JRN_DATA_READ (R402). -/
def doJrnDataRead (d : Die) (seat : Fin 8) (ofs count : Nat) (s : State) : State :=
  let j := (s.die d).jrn
  s.refuse [(s.jrnBusy d, .busy), (!s.has seat 0, .rights), (!j.valid s.order ofs count, .bounds), (count == 0 || decide (1024 < count), .range)]
    fun s => s.reply (Mem.readN j.mem ofs count)

def execJrnDataRead (d : Die) (seat : Fin 8) (ofs count : Nat) (s : State) : Host.Outcome State Fault Refusal :=
  .next (doJrnDataRead d seat ofs count s)

/-- The resynchronising record of one variable: its committed value, where that differs from the last one recorded (R399 step 3). -/
def State.jrnSync (d : Die) (p : Pattern) (s : State) (v : Var) : State :=
  if v.jmode = 0 then s
  else
    let j := (s.die d).jrn
    let x := ((s.die d).eng.com.rd p d v.id).getD v.init
    if (Tab.get none j.vals v.id).getD (jrnCode v v.init) = jrnCode v x then s
    else
      let b := jrnBody v x
      (s.jrnRec d b.1 b.2).updDie d fun l => { l with jrn := { l.jrn with vals := Tab.set none l.jrn.vals v.id (some (jrnCode v x)) } }

/-- GAP and TIME (R398, R399). -/
def Journal.resume (order span rtc : Nat) (j : Journal) : Journal :=
  let j1 := Journal.write order span rtc { j with dropping := false, dropped := 0, buf := [], at_ := j.at_.map fun _ => span } 15 (leBytes 4 j.dropped)
  Journal.write order span rtc j1 1 (leBytes 8 span ++ leBytes 8 rtc)

/-- JOURNAL_RESUME (R399). -/
def doJournalResume (d : Die) (s : State) : State :=
  let l := s.die d
  if !l.jrn.dropping || s.jrnBusy d || s.jrnShut || !s.ticking d then s
  else
    let s1 := (s.setDie d { l with jrn := l.jrn.resume s.order l.tb.spanNo s.rtcMs }).bumpOnce d 32 0x8200 6
    match s1.pattern with
    | none => s1
    | some p => p.vars.foldl (State.jrnSync d p) s1

def execJournalResume (d : Die) (s : State) : Host.Outcome State Fault Refusal := .next (doJournalResume d s)

end Sys2Proof.Machine
end

