-- ==== Sys2Proof/Machine/TestRows.lean ====
section
/-! DEFINITION. Periodic self-test and repair: GRANULE_DONE, ROUND_LATE, ST_REQ (18_self_test.md R435 to R447). Items are numbered
as in TickOps: class × 4,096 + number. -/

namespace Sys2Proof.Machine

/-! ## Granules -/

/-- Granules of an item (Table 18-1); a memory region's size is the silicon's (log 26), and its granules halve at SPAN_K 0 and 1. -/
def State.granules (s : State) (item : Nat) : Nat :=
  match stCls item with
  | 1 => 16
  | 3 => Config.regionGranules (stNo item) * (if s.modes.spanK ≤ 1 then 2 else 1)
  | 6 => 4
  | 9 => Config.regionGranules 9
  | _ => 1

/-- Key of an item of a die. -/
def stKey (d : Die) (item : Nat) : Nat := d.n * 65536 + item

/-- The repair record that is being tried for an item. -/
def SelfTest.tried (t : SelfTest) (d : Die) (item : Nat) : Option Nat :=
  (t.open_.find? fun x => x.1 == d.n && x.2.1 == item).map (·.2.2)

/-- The lane is out for its test: isolated, failed under R76, or retired with its retirement not yet proven (R439, R445). -/
def State.laneOut (s : State) (d : Die) (n : Nat) : Bool :=
  match Tab.get LaneSt.free (s.die d).eng.lanes n with
  | .isolated => true
  | .failed => true
  | .retired => (s.st.tried d (stItem 1 n)).isSome
  | _ => false

/-- A field channel may be tested now (R440). -/
def State.loopMay (s : State) (n : Nat) : Bool :=
  let x := s.fdie (n / 32)
  let m := Tab.get 0 x.modes (n % 32)
  let rest (d : Die) : Bool := decide (((s.die d).outSup n).settle ≤ s.nowNs d)
  x.powered && (m == 0 || ((m == 2 || m == 3) && !x.a.cmd.getLsbD (n % 32) && !x.b.cmd.getLsbD (n % 32) && rest .a && rest .b)
    || s.modes.mode == .safe || s.modes.mode == .configure)

/-- The condition of Table 18-1 under which an item is tested. -/
def State.testMay (s : State) (d : Die) (item : Nat) : Bool :=
  match stCls item with
  | 1 => s.laneOut d (stNo item) && (!bitAt (s.reg 0xB000 0) 1 || s.st.token == some d)
  | 5 => !s.crcEn (8 * d.n + stNo item)
  | 7 => s.loopMay (stNo item)
  | 9 => s.order != 830 && s.dieSt 2 == 0
  | _ => true

/-- An item that a round leaves out while its condition does not hold (R442). -/
def State.excluded (s : State) (d : Die) (item : Nat) : Bool :=
  match stCls item with
  | 1 => (s.die d).eng.spareLane.isNone && !s.laneOut d (stNo item)
  | 5 => s.crcEn (8 * d.n + stNo item)
  | 7 => bitAt (s.lbPending (stNo item / 32)) (stNo item % 32)
  | _ => false

/-! ## Rounds and requests -/

/-- The items of a request by code (Table 18-4), as keys. -/
def State.reqItems (s : State) (code : Nat) : List Nat :=
  let all (d : Die) (c : Nat) : List Nat := ((s.stAll d).filter fun i => stCls i == c).map (stKey d)
  match code with
  | 1 => all .a 1
  | 2 => all .b 1
  | 3 => all .a 3
  | 4 => all .b 3
  | 5 => all .a 5 ++ all .b 5
  | 6 => all .a 6 ++ all .b 6
  | 7 => all .a 7
  | _ => all .a 8

/-- The oldest request begins: its items go ahead of the round (R443). -/
def State.reqBegin (s : State) : State :=
  match s.st.queue with
  | [] => { s with st := { s.st with qLeft := [] } }
  | c :: _ =>
    let ks := s.reqItems c
    let front (d : Die) : List Nat :=
      let mine := (ks.filter fun k => k / 65536 == d.n).map (· % 65536)
      mine ++ (s.st.left d).filter fun i => !mine.contains i
    { s with st := { s.st with qLeft := ks, leftA := front .a, leftB := front .b } }

/-- The round ends when nothing but excluded items is left (R442). -/
def State.roundEnd (s : State) : State :=
  if (s.st.leftA.all fun i => s.excluded .a i) && (s.st.leftB.all fun i => s.excluded .b i) then
    let s1 := (s.bump 32 0xB004 1).setReg 0xB004 2 (s.st.ran / 16000000)
    { s1 with st := { s1.st with late := s1.st.lateStart } }.newRound
  else s

/-- An item has been tested: it leaves the round and the oldest request. -/
def State.itemTested (s : State) (d : Die) (item : Nat) : State :=
  let t := s.st
  let q := t.qLeft.filter fun k => k != stKey d item
  let t1 := { t.setLeft d ((t.left d).filter fun i => i != item) with qLeft := q, prog := Tab.set 0 t.prog (stKey d item) 0 }
  let s1 := { s with st := t1 }
  let s2 := if q.isEmpty && !t.queue.isEmpty then { s1 with st := { t1 with queue := t1.queue.tail } }.reqBegin else s1
  s2.roundEnd

/-! ## Repair -/

/-- A repair record (Table 18-2). -/
def repairWord (kind die macro_ spare addr : Nat) : Nat :=
  kind % 16 * 2 ^ 28 + die % 8 * 2 ^ 25 + macro_ % 512 * 2 ^ 16 + spare % 16 * 2 ^ 12 + addr % 4096

/-- Spares of a kind that a macro has used: in OTP records and soft. -/
def State.sparesUsed (s : State) (kind die macro_ : Nat) : Nat :=
  ((s.otp.repairs s.order ++ s.st.soft).eraseDups.filter fun w =>
    w / 2 ^ 28 == kind && w / 2 ^ 25 % 8 == die && w / 2 ^ 16 % 512 == macro_).length

/-- The next spare for a failed region of die `d` (R444): a row and then a column, after a row a column, while one is left. The macro
and the failing row or column are what the test finds: free values (log 6). -/
def State.nextSpare (s : State) (d : Die) (item : Nat) : Option Nat × State :=
  let x := s.free
  let y := x.2.free
  let prev := s.st.tried d item
  let m := match prev with
    | some w => w / 2 ^ 16 % 512
    | none => x.1 % 512
  let row := s.sparesUsed 6 d.n m
  let col := s.sparesUsed 9 d.n m
  let r : Option Nat := if row < 4 then some (repairWord 6 d.n m row y.1) else none
  let c : Option Nat := if col < 2 then some (repairWord 9 d.n m col y.1) else none
  let first := (prev.map fun w => w / 2 ^ 28 == 6).getD false
  ((if first then c.orElse fun _ => r else r.orElse fun _ => c), y.2)

/-- Record what is being tried for an item. -/
def State.tryRepair (s : State) (d : Die) (item w : Nat) : State :=
  { s with st := { s.st with open_ := (s.st.open_.filter fun x => !(x.1 == d.n && x.2.1 == item)) ++ [(d.n, item, w)] } }

/-- No failure of a die is open any more: BIST has lost its cause (R446). -/
def State.bistCheck (s : State) (d : Die) : State :=
  if (s.st.open_.any fun x => x.1 == d.n) || ((List.range 8).any fun c => s.st.crcBad.getLsbD (8 * d.n + c)) then s
  else s.causeOff (dieBit d 14)

/-- The failure of an item is over. -/
def State.closeItem (s : State) (d : Die) (item : Nat) : State :=
  { s with st := { s.st with open_ := s.st.open_.filter fun x => !(x.1 == d.n && x.2.1 == item) } }.bistCheck d

/-- A repair is proven: its record is programmed while the lifecycle is SHIPPED and R351 permits (R446). -/
def State.proven (s : State) (d : Die) (item w : Nat) : State :=
  let s1 := s.closeItem d item
  if s1.otp.lc == 2 && decide (20000 ≤ s1.pow.vinMv) && !s1.pfw && !s1.otp.failed && s1.pdOn 3 then s1.otpWant [(128, w)] else s1

/-- Lanes of a die that evaluate. -/
def Engine.running (e : Engine) : Nat :=
  ((List.range 17).filter fun n => match Tab.get LaneSt.free e.lanes n with
    | .free => true
    | .busy _ => true
    | _ => false).length

/-- A lane that has passed comes back: as the spare, or to evaluate where 15 lanes do (R78, R439). The causes of LANE_ERR and LANE_DEGR
end with the state that Table 11-1 names. -/
def State.laneBack (s : State) (d : Die) (n : Nat) : State :=
  let s1 := s.updDie d fun l => { l with eng := { l.eng with
    lanes := Tab.set .free l.eng.lanes n (if l.eng.running < 16 then .free else .spare) } }
  let e := (s1.die d).eng
  let s2 := if 16 ≤ e.running then s1.causeOff (dieBit d 1) else s1
  if e.spareLane.isSome then s2.causeOff (dieBit d 0) else s2

/-! ## Verdicts -/

/-- An item has passed whole. -/
def State.itemPass (s : State) (d : Die) (item : Nat) : State :=
  let no := stNo item
  let w := s.st.tried d item
  match stCls item, w with
  | 1, none => (s.laneBack d no).itemTested d item
  | 1, some _ =>
    let k := d.n * 32 + no
    let n := Tab.get 0 s.st.passes k + 1
    let s1 := { s with st := { s.st with passes := Tab.set 0 s.st.passes k (if 3 ≤ n then 0 else n), prog := Tab.set 0 s.st.prog (stKey d item) 0 } }
    if 3 ≤ n then ((s1.closeItem d item).laneBack d no).itemTested d item else s1
  | 3, some x => (s.proven d item x).itemTested d item
  | 5, _ => s.itemTested d item
  | 6, _ => ({ s with st := { s.st with swaps := s.st.swaps ++ [stKey d item] } }.closeItem d item).itemTested d item
  | 7, _ =>
    let s1 := s.updF (no / 32) fun x => { x with heldOff := x.heldOff &&& ~~~chBit (no % 32) }
    (s1.closeItem d item).itemTested d item
  | 8, _ => ({ s with st := { s.st with swaps := s.st.swaps ++ [stKey d item] } }.closeItem d item).itemTested d item
  | _, _ => (s.closeItem d item).itemTested d item

/-- The bit of Table 11-1 that a failed region, unit or monitor latches beside BIST (Table 18-1, R444). -/
def State.itemBit (s : State) (d : Die) (item : Nat) : State :=
  let b (k : Nat) : Fin 64 := Fin.ofNat 64 (dieBit d k)
  match stCls item, stNo item with
  | 3, 0 => doFaultLatch (b 2) s
  | 3, 1 => doFaultLatch (b 3) s
  | 3, 2 => doFaultLatch (b 4) s
  | 6, _ => doFaultLatch (b 6) s
  | 8, _ => doFaultLatch 32 s
  | 9, _ => doFaultLatch 44 s
  | _, _ => s

/-- Every failure: ST_FAILS, ST_LAST_FAIL, BIST standing (R446). -/
def State.failNote (s : State) (d : Die) (w : Nat) : State := ((s.bump 32 0xB007 1).setReg 0xB007 4 w).latchStanding (dieBit d 14)

/-- An item that has failed waits for a later slice. -/
def State.failWait (s : State) (d : Die) (item : Nat) : State := { s with st := { s.st with later := s.st.later ++ [stKey d item] } }

/-- A granule has failed (R440, R444, R445). ST_LAST_FAIL of an item that has no repair record is a free value (log 6). -/
def State.itemFail (s : State) (d : Die) (item : Nat) : State :=
  let no := stNo item
  let s0 := { s with st := { s.st with prog := Tab.set 0 s.st.prog (stKey d item) 0 } }
  match stCls item with
  | 1 =>
    let w := repairWord 12 d.n 0 0 no
    let s1 := { s0 with st := { s0.st with passes := Tab.set 0 s0.st.passes (d.n * 32 + no) 0 } }.failNote d w
    if (s.st.tried d item).isSome then (s1.proven d item w).itemTested d item
    else ((s1.updDie d fun l => { l with eng := { l.eng with lanes := Tab.set .free l.eng.lanes no .retired } }).tryRepair d item w).bump 32 0xB007 2
  | 3 =>
    let x := s0.nextSpare d item
    match x.1 with
    | some w =>
      let s1 := (x.2.failNote d w).bump 32 0xB007 2
      { s1 with st := { s1.st with soft := s1.st.soft ++ [w] } }.tryRepair d item w
    | none =>
      let y := x.2.free
      ((((y.2.failNote d (y.1 % 2 ^ 32)).tryRepair d item 0).itemBit d item)).itemTested d item
  | c =>
    let y := s0.free
    let s1 := ((y.2.failNote d (y.1 % 2 ^ 32)).tryRepair d item 0).itemBit d item
    let s2 := if c = 5 then { s1 with st := { s1.st with crcBad := s1.st.crcBad ||| ((1 : BitVec 16) <<< (8 * d.n + no)) } }
      else if c = 7 then s1.updF (no / 32) fun x => { x with heldOff := x.heldOff ||| chBit (no % 32) }
      else s1
    s2.itemTested d item

/-- GRANULE_DONE (R435): one granule of an item of die `d`, with its block or region restored. P-die items run on L-A's grid. A granule
that a reaction has aborted gives no verdict (R436). -/
def doGranuleDone (d : Die) (item : Nat) (pass : Bool) (s : State) : State :=
  if !(s.ticking d && s.sliceIn (s.die d).tb.spanNo && (s.die d).tb.phase == .s && s.st.gran d == .running && (s.st.left d).contains item
      && !s.st.later.contains (stKey d item) && s.testMay d item) then s
  else if !pass then (s.itemFail d item).failWait d item
  else
    let n := Tab.get 0 s.st.prog (stKey d item) + 1
    if n < s.granules item then { s with st := { s.st with prog := Tab.set 0 s.st.prog (stKey d item) n } } else s.itemPass d item

def execGranuleDone (d : Die) (item : Nat) (pass : Bool) (s : State) : Host.Outcome State Fault Refusal := .next (doGranuleDone d item pass s)

/-! ## ROUND_LATE and ST_REQ -/

/-- ROUND_LATE (R442): ST_ROUND has passed since the round began. -/
def doRoundLate (s : State) : State := if !s.slicesOn then s else { s with st := { s.st with late := true, lateStart := true } }

def execRoundLate (s : State) : Host.Outcome State Fault Refusal := .next (doRoundLate s)

/-- ST_REQ (R443, Table 18-4). -/
def doStReq (seat : Fin 8) (v : Nat) (s : State) : State :=
  let noLane := (v == 1 && s.a.eng.spareLane.isNone) || (v == 2 && s.b.eng.spareLane.isNone)
  s.refuse [(decide (8 ≤ s.st.queue.length), .busy), (!s.has seat 1, .rights), (noLane, .mode), (v == 0 || decide (8 < v), .range)] fun s =>
    let s1 := { s with st := { s.st with queue := s.st.queue ++ [v] } }
    if s.st.queue.isEmpty then s1.reqBegin else s1

def execStReq (seat : Fin 8) (v : Nat) (s : State) : Host.Outcome State Fault Refusal := .next (doStReq seat v s)

end Sys2Proof.Machine
end

