-- ==== Sys2Proof/Machine/UpdRows.lean ====
section
/-! DEFINITION. Field update over the service port: CHAL, AUTH, MANIFEST, CHUNK, ABORT, ACTIVATE, STAGING_COMPLETE, UPDATE_BOOT_DONE,
ACTIVATION_WAIT_TIMEOUT, FLIP_DEFER_END, SVC_SESSION_TIMEOUT (19_update.md R450 to R464). -/

namespace Sys2Proof.Machine

/-! ## Frames -/

/-- The service port serves (R342, R450): powered, with an address, in ACTIVE, its die running. -/
def State.svcOn (s : State) : Bool :=
  s.modes.mode != .shelf && s.modes.mode != .boot && s.pdOn 8 && s.reg 0xA007 0 != 0 && s.modes.pwr == .active && s.ticking .a

/-- The bytes of a service frame before its CRC (R451). -/
def svcBytes (magic op status session len rsvd : Nat) (payload : List Byte) : List Byte :=
  leBytes 2 magic ++ leBytes 1 op ++ leBytes 1 status ++ leBytes 4 session ++ leBytes 2 len ++ leBytes 2 rsvd ++ payload

/-- MAGIC, LEN and CRC of a request are right (R451). -/
def SvcFrame.good (f : SvcFrame) (k : Nat) : Bool :=
  f.magic == 0x5356 && f.len == f.payload.length && decide (f.len ≤ 1100)
    && f.crc == crc32c (svcBytes f.magic (Config.svcOp k) f.status f.session f.len f.rsvd f.payload)

/-- Send a response. -/
def State.svcAnswer (s : State) (k : Nat) (st : Status) (session : Nat) (payload : List Byte) : State :=
  let b := svcBytes 0x5356 (Config.svcOp (k + 8)) st.num session payload.length 0 payload
  { s with upd := { s.upd with out := (b ++ leBytes 4 (crc32c b)) :: s.upd.out } }

/-- A request of operation `k` that the port takes: a frame that is not good is discarded; after an erase of the key slot the next
one is answered KEYGONE, and the session ends (R374, R452). -/
def State.svcTake (s : State) (k : Nat) (f : SvcFrame) (g : State → State) : State :=
  if !s.svcOn || !SvcFrame.good f k then s
  else if s.upd.keyGone then
    { s with upd := { s.upd with sess := none, chal := none, keyGone := false, state := if s.upd.state = 1 then 0 else s.upd.state } }.svcAnswer k .keygone f.session []
  else g s

/-- A request that needs the open session (R452, R454). -/
def State.svcSess (s : State) (k : Nat) (f : SvcFrame) (g : State → State) : State :=
  s.svcTake k f fun s =>
    if s.upd.sess != some f.session then s.svcAnswer k .token f.session []
    else g { s with upd := { s.upd with sessLast := s.time } }

/-! ## Session -/

/-- CHAL (R452). -/
def doChal (f : SvcFrame) (s : State) : State :=
  s.svcTake 1 f fun s =>
    if !f.payload.isEmpty || f.rsvd != 0 then s.svcAnswer 1 .format f.session []
    else
      let x := s.randNat 8
      { x.2 with upd := { x.2.upd with chal := some x.1 } }.svcAnswer 1 .ok f.session (leBytes 8 x.1)

def execChal (f : SvcFrame) (s : State) : Host.Outcome State Fault Refusal := .next (doChal f s)

/-- K_svc: the key of slot SVC_KEY, which must hold TYPE 4 (R452). -/
def State.svcKey (s : State) : Option (List Byte) :=
  match s.keys.cell .a (s.reg 0xA008 0) with
  | some c => if c.typ = 4 then some c.key else none
  | none => none

/-- The value that AUTH must carry. -/
def authValue (key : List Byte) (serial chal : Nat) : List Byte :=
  (Config.aesCmac key (ascii [0x53, 0x56, 0x43, 0x41] ++ beBytes 8 serial ++ beBytes 8 chal)).take 8

/-- SESSION: 0 is replaced by 1. -/
def sessValue (key : List Byte) (chal : Nat) : Nat :=
  let v := beNat ((Config.aesCmac key (ascii [0x53, 0x56, 0x43, 0x53] ++ beBytes 8 chal)).take 4)
  if v = 0 then 1 else v

/-- One more wrong AUTH; the third in a row locks AUTH for 60 s. -/
def State.authFail (s : State) (session : Nat) : State :=
  let n := s.upd.fails + 1
  { s with upd := { s.upd with chal := none, fails := if 3 ≤ n then 0 else n, lock := decide (3 ≤ n) } }.svcAnswer 2 .rights session []

/-- AUTH (R452). -/
def doAuth (f : SvcFrame) (s : State) : State :=
  s.svcTake 2 f fun s =>
    if s.upd.lock then s.svcAnswer 2 .busy f.session [0xFF, 0xFF]
    else if f.payload.length != 8 || f.rsvd != 0 then s.svcAnswer 2 .format f.session []
    else match s.svcKey, s.upd.chal with
      | some k, some c =>
        if f.payload = authValue k s.otp.serial c then
          let v := sessValue k c
          { s with upd := { s.upd with
            sess := some v, sessLast := s.time, chal := none, fails := 0, state := if s.upd.state = 0 then 1 else s.upd.state } }.svcAnswer 2 .ok v []
        else s.authFail f.session
      | _, _ => s.authFail f.session

def execAuth (f : SvcFrame) (s : State) : Host.Outcome State Fault Refusal := .next (doAuth f s)

/-- SVC_SESSION_TIMEOUT (R452): 300 s without an accepted frame. -/
def doSvcSessionTimeout (s : State) : State :=
  if s.upd.sess.isNone then s
  else { s with upd := { s.upd with sess := none, state := if s.upd.state = 1 then 0 else s.upd.state } }

def execSvcSessionTimeout (s : State) : Host.Outcome State Fault Refusal := .next (doSvcSessionTimeout s)

/-! ## Manifest -/

/-- LENGTH of part `k`, 1 to 5 (Table 19-1). -/
def partLen (m : List Byte) (k : Nat) : Nat := leAt m (24 + 48 * (k - 1) + 8) 4

/-- The fixed fields of a manifest (R453). -/
def manifestForm (order : Nat) (m : List Byte) : Bool :=
  m.length == 328 && leAt m 0 4 == 0x4D414E31 && leAt m 4 2 == 1 && leAt m 6 1 == 5
    && ((List.range 5).all fun k =>
      let o := 24 + 48 * k
      leAt m o 1 == k + 1 && leAt m (o + 1) 3 == 0 && leAt m (o + 12) 4 == 0 && decide (leAt m (o + 8) 4 ≤ 2 ^ 24))
    && (order != 830 || partLen m 4 == 0)

/-- The signature verifies against the anchor it names (R453). -/
def State.manifestSig (s : State) (m : List Byte) : Bool :=
  let a := leAt m 7 1
  decide (a < 4) && s.otp.anchorOk a && Config.sigVerify (s.otp.anchor a) (m.take 264) (slice m 264 64)

/-- The parts fit the staging region and the slots (R455). -/
def manifestFits (order : Nat) (m : List Byte) : Bool :=
  let l := partLen m
  (order == 830 || decide (l 1 + l 2 + l 3 + l 4 + l 5 ≤ 48 * 2 ^ 20)) && decide (l 1 + l 3 + l 4 + l 5 ≤ 40 * 2 ^ 20)
    && decide (l 2 + l 3 + l 4 + l 5 ≤ 40 * 2 ^ 20)

/-- PFW is set, or it was set within the last 10 s of CK_RC. -/
def State.pfwRecent (s : State) : Bool := s.pfw || (s.pow.pfwAt != 0 && decide (s.time < s.pow.pfwAt + 80000000))

/-- The conditions of Table 19-2 that MANIFEST and ACTIVATE check: UPD_WHY and status of the first that holds. -/
def State.updRefuse (s : State) (m : List Byte) : Option (Nat × Status) :=
  let lib := s.pat.active.map fun p => p.hdr.library
  if s.reg 0xA005 0 = 1 then some (1, .rights)
  else if s.reg 0x2031 11 < 2400 then some (2, .busy)
  else if s.pow.vinMv < 20000 then some (3, .busy)
  else if s.pfwRecent then some (4, .busy)
  else if !s.manifestSig m then some (5, .rights)
  else if leAt m 12 2 != s.order || (s.otp.word 3).val < leAt m 14 2 then some (6, .range)
  else if !manifestFits s.order m then some (21, .range)
  else if leAt m 8 4 < s.reg 0xA003 1 then some (7, .range)
  else if (lib.map fun v => decide (v < leAt m 16 2) || decide (leAt m 18 2 < v)).getD false then some (8, .range)
  else if s.reg 0xA00A 0 < leAt m 22 2 then some (9, .range)
  else none

/-- An activation is under way. -/
def State.updActive (s : State) : Bool := s.upd.pend.isSome || (decide (4 ≤ s.upd.state) && decide (s.upd.state ≤ 6))

/-- The staging is empty; on the TRK-V830 it lies in the inactive slots (R455). -/
def Update.unstage (u : Update) (order : Nat) : Update :=
  let u1 := { u with manifest := [], data := [], have_ := [] }
  if order = 830 then { u1 with fwA := u.fwA.setRest [], fwB := u.fwB.setRest [] } else u1

/-- MANIFEST (R453 to R456): an accepted manifest discards what was staged. -/
def doManifest (f : SvcFrame) (s : State) : State :=
  s.svcSess 3 f fun s =>
    if f.payload.length != 328 || f.rsvd != 0 || !manifestForm s.order f.payload then s.svcAnswer 3 .format f.session []
    else if s.updActive then s.svcAnswer 3 .mode f.session []
    else match s.updRefuse f.payload with
      | some (why, st) =>
        { s with upd := { s.upd with why := why } }.svcAnswer 3 st f.session (if st == Status.busy then [0xFF, 0xFF] else [])
      | none =>
        { s with upd := { s.upd.unstage s.order with manifest := f.payload, state := 2, why := 0 } }.svcAnswer 3 .ok f.session []

def execManifest (f : SvcFrame) (s : State) : Host.Outcome State Fault Refusal := .next (doManifest f s)

/-! ## Staging -/

/-- Bytes `a` to `b − 1` join the staged runs (start, length), which stay disjoint and in order. -/
def addRun : Nat → Nat → List (Nat × Nat) → List (Nat × Nat)
  | a, b, [] => [(a, b - a)]
  | a, b, (x, n) :: t =>
    if b < x then (a, b - a) :: (x, n) :: t
    else if x + n < a then (x, n) :: addRun a b t
    else addRun (min a x) (max b (x + n)) t

/-- Every byte of every part is staged. -/
def Update.whole (u : Update) : Bool :=
  !u.manifest.isEmpty && u.rcvd == ((List.range 5).map fun k => partLen u.manifest (k + 1)).foldl (· + ·) 0

/-- The flash of a die takes part `k` (R455). -/
def takesPart (d : Die) (k : Nat) : Bool := k != (if d = .a then 2 else 1)

/-- Bytes of part `k` arrive: in the staging region of the M-die, on the TRK-V830 in the inactive slots (R455). -/
def Update.stage (u : Update) (order k a : Nat) (data : List Byte) : Update :=
  if order = 830 then
    { u with fwA := if takesPart .a k then u.fwA.setRest (Mem.writeL u.fwA.rest a data) else u.fwA
             fwB := if takesPart .b k then u.fwB.setRest (Mem.writeL u.fwB.rest a data) else u.fwB }
  else { u with data := Mem.writeL u.data a data }

/-- The staged parts go to the inactive slots (R455). -/
def Update.toSlots (u : Update) (order : Nat) : Update :=
  let part (d : Die) : Mem := u.data.filter fun x => takesPart d (x.1 / 2 ^ 24)
  if order = 830 then u else { u with fwA := u.fwA.setRest (part .a), fwB := u.fwB.setRest (part .b) }

/-- The inactive slot of the flash of a die. -/
def Update.slotOf (u : Update) (d : Die) : Mem := if d = .a then u.fwA.rest else u.fwB.rest

/-- CHUNK (R454). -/
def doChunk (f : SvcFrame) (s : State) : State :=
  s.svcSess 4 f fun s =>
    let part := leAt f.payload 0 1
    let ofs := leAt f.payload 4 4
    let data := f.payload.drop 8
    let len := if s.upd.manifest.isEmpty then 0 else partLen s.upd.manifest part
    if f.rsvd != 0 || data.isEmpty || 1024 < data.length || leAt f.payload 1 3 != 0 then s.svcAnswer 4 .format f.session []
    else if s.upd.state != 2 then s.svcAnswer 4 .mode f.session []
    else if part = 0 || 5 < part then s.svcAnswer 4 .range f.session []
    else if len < ofs + data.length then s.svcAnswer 4 .bounds f.session []
    else
      let a := part * 2 ^ 24 + ofs
      { s with upd := { s.upd.stage s.order part a data with have_ := addRun a (a + data.length) s.upd.have_ } }.svcAnswer 4 .ok f.session []

def execChunk (f : SvcFrame) (s : State) : Host.Outcome State Fault Refusal := .next (doChunk f s)

/-- STAGING_COMPLETE (R455): every write into the inactive slots carries its commit marker; the flash of a fenced die takes none. -/
def doStagingComplete (s : State) : State :=
  if s.upd.state = 2 && s.upd.whole && s.admitted .a && s.admitted .b then { s with upd := { s.upd.toSlots s.order with state := 3 } } else s

def execStagingComplete (s : State) : Host.Outcome State Fault Refusal := .next (doStagingComplete s)

/-- ABORT discards the staging (R454); not during an activation. -/
def doAbort (f : SvcFrame) (s : State) : State :=
  s.svcSess 5 f fun s =>
    if !f.payload.isEmpty || f.rsvd != 0 then s.svcAnswer 5 .format f.session []
    else if s.updActive then s.svcAnswer 5 .mode f.session []
    else { s with upd := { s.upd.unstage s.order with state := 1 } }.svcAnswer 5 .ok f.session []

def execAbort (f : SvcFrame) (s : State) : Host.Outcome State Fault Refusal := .next (doAbort f s)

/-! ## Activation -/

/-- ACTIVATE (R456): its conditions are judged at its apply tick (WRITE_APPLY). -/
def doActivate (f : SvcFrame) (s : State) : State :=
  s.svcSess 6 f fun s =>
    if !f.payload.isEmpty || f.rsvd != 0 then s.svcAnswer 6 .format f.session []
    else if s.updActive then s.svcAnswer 6 .mode f.session []
    else { s with upd := { s.upd with pend := some s.applySpan } }

def execActivate (f : SvcFrame) (s : State) : Host.Outcome State Fault Refusal := .next (doActivate f s)

/-- The conditions 10 to 14 of Table 19-2. After a revert a whole staging counts as STAGED (R463). -/
def State.actRefuse (s : State) : Option (Nat × Status) :=
  let p := s.pattern
  if !(p.map fun q => s.standstill s.srv q).getD true then some (10, .busy)
  else if (p.map fun q => s.noPermitOn s.srv q).getD false then some (11, .busy)
  else if !(s.modes.mode == .run || s.modes.mode == .safe) || s.modes.pwr != .active then some (12, .mode)
  else if !(s.upd.state == 3 || (s.upd.state == 8 && s.upd.whole)) then some (13, .mode)
  else if (List.range 7).any (fun x => s.dieSt x != 0) || s.anyClass 3 || s.tripLine .a || s.tripLine .b || s.pat.state == 2 then some (14, .mode)
  else none

/-- The apply tick of ACTIVATE (R456): refused with the first condition, or L-B's reboot is due at the next commit point (R458). The
mode is SERVICE, and the mode before it returns at the flip (R462). -/
def State.activateApply (s : State) : State :=
  match s.upd.pend with
  | none => s
  | some n =>
    if s.spanNo < n then s
    else
      let s1 := { s with upd := { s.upd with pend := none } }
      let sess := s.upd.sess.getD 0
      match (s1.updRefuse s1.upd.manifest).orElse fun _ => s1.actRefuse with
      | some (why, st) =>
        { s1 with upd := { s1.upd with why := why } }.svcAnswer 6 st sess (if st == Status.busy then [0xFF, 0xFF] else [])
      | none =>
        let s2 := { s1 with modes := { s1.modes with act := some s1.modes.mode, mode := .service, req := none, pwrReq := none }
                            upd := { s1.upd with state := 4, why := 0, agree := 0, newA := false, newB := false, defer := false } }
        (s2.event2 7 [BitVec.ofNat 8 Mode.service.code]).svcAnswer 6 .ok sess []

/-- The SHA-256 of a part in the inactive slot of a die is that of the manifest (R458). -/
def Update.partOk (u : Update) (d : Die) (k : Nat) : Bool :=
  Config.sha256 (Mem.readN (u.slotOf d) (k * 2 ^ 24) (partLen u.manifest k)) == slice u.manifest (24 + 48 * (k - 1) + 16) 32

/-- The parts that a die checks at its boot, and the manifest's SIG (R458). -/
def State.bootParts (s : State) (d : Die) : Bool :=
  s.manifestSig s.upd.manifest && (if d = .a then [1, 3, 4, 5] else [2, 5]).all fun k => partLen s.upd.manifest k == 0 || s.upd.partOk d k

/-- A reverted die has booted its old image: it takes the state of its peer, and its shadow runs out. -/
def State.oldImage (s : State) (d : Die) : State :=
  let s1 := (s.updDie d fun l => { l with mgmt := .serving, hold := { on := false, since := 0 } }).takeState d
  { s1 with flt := s1.flt.shadowDone (.lDie d) }

/-- UPDATE_BOOT_DONE (R458, R463, R464): a die has booted from the inactive slot, or the old image after a revert. -/
def doUpdateBootDone (d : Die) (ok : Bool) (s : State) : State :=
  if s.upd.reboot == some d && !s.upd.booted then
    if !(ok && s.bootParts d) then s.revert 15
    else if leAt s.upd.manifest 20 2 < s.reg 0xA00A 0 then s.revert 19
    else { s with upd := { s.upd with booted := true } }.updDie d fun l => { l with mgmt := .serving }
  else if s.upd.state = 8 && (s.die d).mgmt == .booting && s.admitted d && ok then s.oldImage d
  else s

def execUpdateBootDone (d : Die) (ok : Bool) (s : State) : Host.Outcome State Fault Refusal := .next (doUpdateBootDone d ok s)

/-- ACTIVATION_WAIT_TIMEOUT (R461): 10 s after L-B's rejoin the conditions for L-A's reboot still do not hold. -/
def doActivationWaitTimeout (s : State) : State :=
  if s.upd.state != 5 || s.upd.reboot.isSome || !s.upd.newB || s.upd.newA then s
  else s.revert (if (s.pattern.map fun p => s.standstill .a p).getD true then 11 else 10)

def execActivationWaitTimeout (s : State) : Host.Outcome State Fault Refusal := .next (doActivationWaitTimeout s)

/-- FLIP_DEFER_END (R462): PFW has been clear for 10 s. -/
def doFlipDeferEnd (s : State) : State := if s.upd.state = 6 && s.upd.defer && !s.pfw then s.flip_ else s

def execFlipDeferEnd (s : State) : Host.Outcome State Fault Refusal := .next (doFlipDeferEnd s)

end Sys2Proof.Machine
end

