-- ==== Sys2Proof/Machine/AccessRows.lean ====
section
/-! DEFINITION. Sessions that end, test access and JTAG scan: TEST_OPEN, TEST_CHAL, TEST_RESP, ZEROISE_READBACK_DONE, ZEROISE_TIMEOUT
(14_object_dictionary.md R373, 18_selftest_repair.md R448, 20_commissioning_test.md R467 to R469). -/

namespace Sys2Proof.Machine

/-! ## Test access and sessions -/

/-- TEST_STATE falls from 1 or 2 to 0, and PT_ARM with it (R468). State 3 stays. -/
def State.testClose (s : State) : State :=
  if s.tst.state = 1 || s.tst.state = 2 then { s with tst := { s.tst with state := 0 } }.setReg 0xD010 0 0 else s

/-- The session of a seat ends: its PASS mark, its subscriptions and the test access that it opened end with it (R373, R378, R380,
R468). -/
def State.endSession (s : State) (k : Nat) : State :=
  let s1 := s.updSeat k fun x => { x with sess := none, pass := false, keyGone := false }
  let s2 := { s1 with br := { s1.br with subs := s1.br.subs.filter fun x => x.seat != k } }
  if s2.tst.seat = k then s2.testClose else s2

/-! ## TEST_OPEN -/

/-- A seat may open perturbation access in this lifecycle state by TEST_OPEN (Table 20-1); an access that is open already belongs to
the seat that opened it. -/
def State.testMayOpen (s : State) (seat : Nat) : Bool :=
  let lc := s.otp.lc
  s.has seat 3 && (if lc = 0 || lc = 1 then seat == 0 else lc == 2 && (s.br.seat seat).pass)
    && (s.tst.state == 0 || (s.tst.state != 3 && s.tst.seat == seat))

/-- TEST_STATE rises: PT_HITS counts from here (Table 20-4). -/
def State.testRise (s : State) (seat st : Nat) : State :=
  let s1 := { s with tst := { s.tst with state := st, seat := seat } }
  if s.tst.state = 0 then s1.setReg 0xD015 0 0 else s1

/-- TEST_OPEN (R467, R468): 1 opens in CONFIGURE, 0 closes, other values answer RANGE. -/
def doTestOpen (seat : Fin 8) (v : Nat) (s : State) : State :=
  s.refuse
    [(!(if v = 0 then s.has seat 3 else s.testMayOpen seat), .rights), (v == 1 && !s.inConf, .mode), (decide (2 ≤ v), .range)]
    fun s => if v = 0 then s.testClose else if s.tst.state = 0 then s.testRise seat 1 else s

def execTestOpen (seat : Fin 8) (v : Nat) (s : State) : Host.Outcome State Fault Refusal := .next (doTestOpen seat v s)

/-! ## Vendor response -/

/-- A read of TEST_CHAL draws a new challenge (R469). -/
def doTestChal (seat : Fin 8) (s : State) : State :=
  s.refuse [(!s.has seat 3, .rights)] fun s =>
    let x := s.randNat 8
    { x.2 with tst := { x.2.tst with chal := some x.1 } }.reply (leBytes 8 x.1)

def execTestChal (seat : Fin 8) (s : State) : Host.Outcome State Fault Refusal := .next (doTestChal seat s)

/-- Every derived K_e of a die is zeroised. -/
def LDie.dropKeys (l : LDie) : LDie :=
  { l with ins := Tab.mapV InConn.init (fun (x : InConn) => { x with keys := [] }) l.ins, outc := [] }

/-- The SRAM of the management processors reads zero (R448): on the TRK-V830 it holds the rings and the journals (Table 15-1). -/
def State.wipeSram (s : State) : State :=
  if s.order = 830 then
    let f (l : LDie) : LDie := { l with jrn := Journal.init }
    { (s.updDie .a f).updDie .b f with rings := { Rings.init with log := s.pat.newerLog, pend := s.rings.pend } }
  else s

/-- R448 steps 1 and 2: both trip lines, the scan latch, SAFE; keys, derived keys and SRAM are zeroised, every session ends. -/
def State.scanStart (s : State) : State :=
  let s1 := { s with pow := { s.pow with scan := true } }.tripNow
  let s2 := if s1.modes.mode = .safe then s1.lockBoth.lockoutAll else s1.enterSafe
  let s3 := (List.range 8).foldl (fun (s : State) k => s.endSession k) s2
  let s4 := ((s3.updDie .a LDie.dropKeys).updDie .b LDie.dropKeys).wipeSram
  { s4 with
    keys := { s4.keys with wiped := true }
    otp := { s4.otp with zeroised := true }
    upd := { s4.upd with sess := none, chal := none }
    br := { s4.br with seats := Tab.mapV Seat.init (fun (x : Seat) => { x with chal := none, kept := [] }) s4.br.seats }
    tst := { s4.tst with zeroise := true } }

/-- What a vendor response signs (R469). -/
def State.testMsg (s : State) (code : Nat) : List Byte :=
  beBytes 8 s.otp.serial ++ beBytes 8 (s.tst.chal.getD 0) ++ [BitVec.ofNat 8 code]

/-- The code is allowed in the lifecycle state (Table 20-1). -/
def State.testCode (s : State) (code : Nat) : Bool := (code == 1 && s.otp.lc == 3) || (code == 2 && s.otp.lc != 4)

/-- A refused response: the third in a row locks TEST_RESP for 60 s (R469). -/
def State.testRefuse (s : State) : State :=
  let n := s.tst.refusals + 1
  { s with tst := { s.tst with refusals := if n = 3 then 0 else n, lock := n == 3 } }.ans .rights

/-- TEST_RESP (R467, R469): code 1 opens perturbation access, code 2 begins the steps of R448. Each challenge serves one response. -/
def doTestResp (seat : Fin 8) (code : Nat) (sig : List Byte) (s : State) : State :=
  s.refuse [(s.tst.lock, .busy), (!s.has seat 3, .rights)] fun s =>
    let ok := s.tst.chal.isSome && s.testCode code && s.anchorSig 0 (s.testMsg code) sig
    let s1 := { s with tst := { s.tst with chal := none } }
    if !ok then s1.testRefuse
    else
      let s2 := { s1 with tst := { s1.tst with refusals := 0 } }
      if code = 2 then (if s2.pow.scan then s2 else s2.scanStart)
      else if !s1.inConf then s1.ans .mode
      else if s1.tst.state = 3 || (s1.tst.state != 0 && s1.tst.seat != seat.val) then s1.ans .rights
      else s2.testRise seat 2

def execTestResp (seat : Fin 8) (code : Nat) (sig : List Byte) (s : State) : Host.Outcome State Fault Refusal :=
  .next (doTestResp seat code sig s)

/-- ZEROISE_READBACK_DONE (R448 steps 3 and 4): the TAPs enable scan. -/
def doZeroiseReadbackDone (s : State) : State :=
  if s.tst.zeroise then { s with tst := { s.tst with zeroise := false, state := 3 } } else s

def execZeroiseReadbackDone (s : State) : Host.Outcome State Fault Refusal := .next (doZeroiseReadbackDone s)

/-- ZEROISE_TIMEOUT (R448): 5 ms have passed; scan stays disabled, and the scan latch holds the device in SAFE. -/
def doZeroiseTimeout (s : State) : State := { s with tst := { s.tst with zeroise := false } }

def execZeroiseTimeout (s : State) : Host.Outcome State Fault Refusal := .next (doZeroiseTimeout s)

end Sys2Proof.Machine
end

