-- ==== Sys2Proof/Machine/SeatRows.lean ====
section
/-! DEFINITION. Seats, line owner and plain entries: SEAT_CHAL, SEAT_LOGIN, SESSION_TIMEOUT, LO_PASS, LO_PASS_NEW, LINE_OWNER,
LOCKOUT_END, PERSISTENT_WRITE_COMMIT, SPAN_K_WRITE, TICK_OFS_WRITE, CLK_GATE, CLKOBS_SELECT, REGISTER_WRITE
(14_object_dictionary.md R355 to R358, R371 to R378, 02_span_timing.md R500, 12_clocks.md R328, R330). -/

namespace Sys2Proof.Machine

/-! ## Login -/

/-- A read of SEAT_CHAL draws a new challenge (R372). -/
def doSeatChal (seat : Fin 8) (s : State) : State :=
  s.refuse [] fun s =>
    let x := s.randNat 8
    (x.2.updSeat seat fun y => { y with chal := some x.1 }).reply (leBytes 8 x.1)

def execSeatChal (seat : Fin 8) (s : State) : Host.Outcome State Fault Refusal := .next (doSeatChal seat s)

/-- The credential key of a seat (R372): a key of type SEAT in the slot SEAT_KEY. -/
def State.seatKey (s : State) (seat : Nat) : Option (List Byte) :=
  ((s.keys.cell .a (s.reg (0x1100 + seat) 3)).filter fun c => c.typ == 3).map fun c => c.key

/-- What a correct SEAT_LOGIN carries: SEAT_CRED and the leftmost 64 bits of the CMAC (R372); `none` where the seat has no
credential, no key or no challenge. -/
def State.loginBytes (s : State) (seat : Nat) : Option (List Byte) :=
  let cred := s.reg (0x1100 + seat) 2
  if cred = 0 then none
  else match s.seatKey seat, (s.br.seat seat).chal with
    | some k, some c => some (beBytes 4 cred ++
        (Config.aesCmac k (ascii [0x42, 0x52, 0x4C, 0x47] ++ [BitVec.ofNat 8 seat] ++ beBytes 4 cred ++ beBytes 8 c)).take 8)
    | _, _ => none

/-- The token of the session that a login opens (R372). -/
def State.loginToken (s : State) (seat : Nat) : Nat :=
  match s.seatKey seat, (s.br.seat seat).chal with
  | some k, some c =>
    let t := beNat ((Config.aesCmac k (ascii [0x42, 0x52, 0x54, 0x4B] ++ [BitVec.ofNat 8 seat] ++ beBytes 8 c)).take 4)
    if t = 0 then 1 else t
  | _, _ => 1

/-- A wrong login: the third in a row locks SEAT_LOGIN for 60 s (R372). -/
def Seat.loginFail (x : Seat) : Seat :=
  { x with chal := none, logFails := if x.logFails = 2 then 0 else x.logFails + 1, logLock := x.logFails == 2 }

/-- SEAT_LOGIN (R372, R374): each challenge serves one attempt; a correct value ends the old session and opens a new one. -/
def doSeatLogin (seat : Fin 8) (bytes : List Byte) (s : State) : State :=
  let x := s.br.seat seat
  if x.keyGone && x.sess.isNone && s.serves then (s.updSeat seat fun y => { y with keyGone := false, chal := none }).ans .keygone
  else s.refuse [(x.logLock, .busy), (bytes.length != 12, .type)] fun s =>
    if s.loginBytes seat = some bytes then
      let t := s.loginToken seat
      (s.endSession seat).updSeat seat fun y => { y with sess := some t, chal := none, logFails := 0, last := s.time }
    else (s.updSeat seat Seat.loginFail).ans .rights

def execSeatLogin (seat : Fin 8) (bytes : List Byte) (s : State) : Host.Outcome State Fault Refusal := .next (doSeatLogin seat bytes s)

/-- SESSION_TIMEOUT (R373): SESSION_TMO has passed without an accepted frame. -/
def doSessionTimeout (seat : Fin 8) (s : State) : State := s.endSession seat

def execSessionTimeout (seat : Fin 8) (s : State) : Host.Outcome State Fault Refusal := .next (doSessionTimeout seat s)

/-! ## Line owner -/

/-- SHA-256 of the serial number and a password (R378). -/
def State.passHash (s : State) (bytes : List Byte) : List Byte := leBytes 32 (leNat (Config.sha256 (leBytes 8 s.otp.serial ++ bytes)))

/-- LO_PASS (R378): the right password marks the session of the seat; the third wrong one in a row locks LO_PASS for 60 s. -/
def doLoPass (seat : Fin 8) (bytes : List Byte) (s : State) : State :=
  let len := decide (8 ≤ bytes.length) && decide (bytes.length ≤ 64)
  s.refuse [((s.br.seat seat).passLock, .busy), (s.br.hash.isEmpty, .rights), (!len, .range)] fun s =>
    if s.passHash bytes = s.br.hash then s.updSeat seat fun y => { y with pass := true, passFails := 0 }
    else ((s.updSeat seat fun y =>
      { y with passFails := if y.passFails = 2 then 0 else y.passFails + 1, passLock := y.passFails == 2 }).bump 16 0x1013 0).ans .rights

def execLoPass (seat : Fin 8) (bytes : List Byte) (s : State) : Host.Outcome State Fault Refusal := .next (doLoPass seat bytes s)

/-- The persistent form of the password hash: its bytes with a closing 1, as one number. -/
def hashNum (h : List Byte) : Nat := leNat (h ++ [1])

/-- LO_PASS_NEW (R378). -/
def doLoPassNew (seat : Fin 8) (bytes : List Byte) (s : State) : State :=
  let len := decide (8 ≤ bytes.length) && decide (bytes.length ≤ 64)
  s.refuse [(s.persBusy, .busy), (!(s.owner seat && ((s.br.seat seat).pass || s.br.hash.isEmpty)), .rights), (!s.inConf, .mode),
      (!len, .range)] fun s =>
    let h := s.passHash bytes
    { s with br := { s.br with hash := h } }.persist 0x1012 0 (hashNum h) seat

def execLoPassNew (seat : Fin 8) (bytes : List Byte) (s : State) : Host.Outcome State Fault Refusal := .next (doLoPassNew seat bytes s)

/-- A persistent entry takes a value now and in both flash copies later (R357). -/
def State.conf (s : State) (seat idx sub v : Nat) : State := (s.setReg idx sub v).persist idx sub v seat

/-- LINE_OWNER (R378). -/
def doLineOwner (seat : Fin 8) (v : Nat) (s : State) : State :=
  s.refuse [(s.persBusy, .busy), (!s.ownerPass seat, .rights), (!s.inConf, .mode), (decide (7 < v), .range)] fun s =>
    s.conf seat 0x1010 0 v

def execLineOwner (seat : Fin 8) (v : Nat) (s : State) : Host.Outcome State Fault Refusal := .next (doLineOwner seat v s)

/-- LOCKOUT_END (R89, R372, R378, R452, R469): the time of a lock-out has passed. -/
def doLockoutEnd (k : Lockout) (s : State) : State :=
  match k with
  | .confirm => { s with br := { s.br with confLock := false } }
  | .seat z => s.updSeat z fun y => { y with logLock := false }
  | .pass z => s.updSeat z fun y => { y with passLock := false }
  | .svc => { s with upd := { s.upd with lock := false } }
  | .test => { s with tst := { s.tst with lock := false } }

def execLockoutEnd (k : Lockout) (s : State) : Host.Outcome State Fault Refusal := .next (doLockoutEnd k s)

/-! ## Persistent values -/

/-- What a persistent value does when both copies carry their markers: a key takes effect (R431, R432); any other is kept (R356). -/
def State.persDone (s : State) (w : PersWrite) : State :=
  if w.idx = 0xC030 then
    let b := leBytes 18 w.val
    s.keyCommit (b.getD 0 0).toNat (b.getD 1 0).toNat (b.drop 2)
  else if w.idx = 0xC031 then s.keyEraseCommit w.val
  else { s with pers := {
    a := if s.admitted .a then Regs.set s.pers.a (odKey w.idx w.sub) w.val else s.pers.a
    b := if s.admitted .b then Regs.set s.pers.b (odKey w.idx w.sub) w.val else s.pers.b } }

/-- PERSISTENT_WRITE_COMMIT (R357): both flash copies of the oldest value carry their commit marker, and the write is answered. -/
def doPersistentWriteCommit (s : State) : State :=
  match s.br.pers with
  | [] => s
  | w :: t =>
    let s1 := { s with br := { s.br with pers := t } }.persDone w
    match w.ans with
    | none => s1
    | some r => (s1.ans .ok).sendAns r

def execPersistentWriteCommit (s : State) : Host.Outcome State Fault Refusal := .next (doPersistentWriteCommit s)

/-! ## SPAN_K, TICK_OFS, clocks -/

/-- The Pattern that a RUN entry at this moment would run. -/
def State.nextPattern (s : State) : Option Pattern := if s.pat.state = 2 then s.pat.cand else s.pat.active

/-- A value of SPAN_K is in range (R30, R70, R500). -/
def State.spanKOk (s : State) (v : Nat) : Bool :=
  decide (v ≤ 7) && decide (s.reg 0x2002 0 < tspanNs v)
    && (match s.nextPattern with
      | some p => capsOk s.order v p.hdr && budgetOk v p.hdr
      | none => true)

/-- SPAN_K_WRITE (R30, R70, R500). -/
def doSpanKWrite (seat : Fin 8) (v : Nat) (s : State) : State :=
  s.refuse [(s.persBusy, .busy), (!s.owner seat, .rights), (!s.inConf, .mode), (!s.spanKOk v, .range)] fun s => s.conf seat 0x2001 0 v

def execSpanKWrite (seat : Fin 8) (v : Nat) (s : State) : Host.Outcome State Fault Refusal := .next (doSpanKWrite seat v s)

/-- TICK_OFS_WRITE (R500): below the T_span of the SPAN_K that is held. -/
def doTickOfsWrite (seat : Fin 8) (v : Nat) (s : State) : State :=
  s.refuse [(s.persBusy, .busy), (!s.owner seat, .rights), (!s.inConf, .mode), (decide (tspanNs (s.reg 0x2001 0) ≤ v), .range)] fun s =>
    s.conf seat 0x2002 0 v

def execTickOfsWrite (seat : Fin 8) (v : Nat) (s : State) : Host.Outcome State Fault Refusal := .next (doTickOfsWrite seat v s)

/-- The order code holds unit `x` of Table 11-6: L-A, L-B, M-die, F-dies 0 to 3. -/
def State.unitPresent (s : State) (x : Nat) : Bool := decide (x < 2) || (x == 2 && s.order != 830) || (decide (3 ≤ x) && s.fdies.contains (x - 3))

/-- An entry of a die that the order code does not hold (R2): reads answer 0, writes ACCESS. -/
def State.absent (s : State) (idx sub : Nat) : Bool :=
  let gone (f : Nat) : Bool := decide (f < 4) && !s.fdies.contains f
  let chan (lo : Nat) : Bool := decide (lo ≤ idx) && decide (idx < lo + 128) && gone ((idx - lo) / 32)
  chan 0x4000 || chan 0x4100 || chan 0x4300 || chan 0x4400 || chan 0x4500 || chan 0x4600 || chan 0x9200
    || (decide (0x4200 ≤ idx) && decide (idx < 0x4220) && gone ((idx - 0x4200) / 8))
    || (decide (0x4700 ≤ idx) && decide (idx < 0x4704) && gone (idx - 0x4700))
    || ((idx == 0x4090 || idx == 0xB009) && gone (sub - 1))
    || (decide (0x3030 ≤ idx) && decide (idx < 0x3037) && !s.unitPresent (idx - 0x3030))
    || (s.order == 830 && (idx == 0x2013 || idx == 0x2014) && decide (14 ≤ sub) && decide (sub ≤ 16))

/-- Bits of CLK_GATE that cannot change (Table 12-1): all where FIXED is 1, RUN_EN of CK_MEM. -/
def clkFixed (sub old new : Nat) : Bool := (bitAt old 3 && old % 8 != new % 8) || (sub == 14 && old % 2 != new % 2) || sub == 18

/-- CLK_GATE of domain n + 1 (R328). -/
def doClkGate (seat : Fin 8) (n : Fin 18) (v : Nat) (s : State) : State :=
  let old := s.reg 0x2013 (n + 1)
  s.refuse [(s.persBusy, .busy), (s.absent 0x2013 (n + 1), .access), (!s.owner seat, .rights), (!s.inConf, .mode),
    (decide (256 ≤ v) || clkFixed (n + 1) old v, .range)] fun s => (s.conf seat 0x2013 (n + 1) (old / 8 % 2 * 8 + v % 8)).regate

def execClkGate (seat : Fin 8) (n : Fin 18) (v : Nat) (s : State) : Host.Outcome State Fault Refusal := .next (doClkGate seat n v s)

/-- Nominal frequency of a domain in kHz (Table 12-1), CK_BKP rounded up. -/
def domainKHz (n : Nat) : Nat :=
  [0, 33, 16000, 25000, 24000, 50000, 500000, 250000, 480000, 240000, 125000, 125000, 25000, 1000000, 800000, 40000, 16000, 8000, 25000].getD n 0

/-- CLKOBS_SELECT (R330): sub 1 CLKOBS_SEL, sub 2 CLKOBS_DIV; the output is at most 100 MHz. -/
def doClkobsSelect (seat : Fin 8) (sub v : Nat) (s : State) : State :=
  let sel := if sub = 1 then v else s.reg 0x2016 1
  let div := if sub = 1 then s.reg 0x2016 2 else v
  let ok := decide (sel ≤ 18) && decide (1 ≤ div) && decide (div ≤ 4096) && decide (domainKHz sel ≤ 100000 * div)
  s.refuse [(!(sub == 1 || sub == 2), .noEntry), (!s.owner seat, .rights), (!ok, .range)] fun s => s.setReg 0x2016 sub v

def execClkobsSelect (seat : Fin 8) (sub v : Nat) (s : State) : Host.Outcome State Fault Refusal := .next (doClkobsSelect seat sub v s)

/-! ## Entries of the order code -/

/-- A value between two bounds. -/
def within (lo hi v : Nat) : Bool := decide (lo ≤ v) && decide (v ≤ hi)

/-- A REIN of the Pattern has GROUP `g`, and how many TENSION instances it has (R266). -/
def State.groupUsed (s : State) (g : Nat) : Bool := (s.pattern.bind fun p => p.reinGrp g).isSome
def State.tensions (s : State) : Nat :=
  (s.pattern.map fun p => (p.posOf fun i => match i.block with
    | .tension .. => true
    | _ => false).length).getD 0

/-- The row of an entry that exists at the capacities in force (R12, R27, R266, R291, R353), or of a diagnostic mirror (R81). -/
def State.odRow (s : State) (idx sub : Nat) : Option OdRow :=
  let k := s.modes.spanK
  (odRowOf idx sub).filter fun _ =>
    !((decide (0x6000 + axisCap s.order k ≤ idx) && decide (idx < 0x6400))
      || (decide (0x7100 + scaleCap k 2048 ≤ idx) && decide (idx < 0x7900))
      || (within 0x6C00 0x6C3F idx && !s.groupUsed (idx - 0x6C00)) || (within 0x6E00 0x6E3F idx && !s.groupUsed (idx - 0x6E00))
      || (within 0x6D00 0x6DFF idx && decide (s.tensions ≤ idx - 0x6D00))
      || (decide (0x7900 + scaleCap k 512 ≤ idx) && decide (idx < 0x7B00)))

/-- The instance that the entry at `k` of a bank describes, among those that `f` takes. -/
def Pattern.nthUnit (p : Pattern) (f : Inst → Bool) (k : Nat) : Option Nat := (p.insts.filter f)[k]?.map (·.id)

/-- The unit that an entry belongs to (R382), as the mirror numbers it: 0 zone, 1 instance, 2 axis, 3 rein group, 4 connection, 5 field
channel, 6 F-die; `none` for any other entry. `sel` is the instance that the seat's window shows. -/
def unitOf (p : Pattern) (sel idx sub : Nat) : Option (Nat × Nat) :=
  let ch (lo n : Nat) : Bool := decide (lo ≤ idx) && decide (idx < lo + n)
  let inst (f : Inst → Bool) (k : Nat) : Option (Nat × Nat) := (Pattern.nthUnit p f k).map fun i => (1, i)
  let conn (f : Inst → Bool) (k : Nat) : Option (Nat × Nat) := (((p.insts.filter f)[k]?).bind fun i => match i.block with
    | .connIn c => some c.connId
    | .connOut c => some c.connId
    | _ => none).map fun c => (4, c)
  if ch 0x3040 64 then some (0, idx - 0x3040)
  else if ch 0x4000 128 then some (5, idx - 0x4000)
  else if idx = 0x4090 then some (6, sub - 1)
  else if ch 0x4100 132 then some (5, idx - 0x4100)
  else if ch 0x4200 32 then some (6, (idx - 0x4200) / 8)
  else if ch 0x4300 132 then some (5, idx - 0x4300)
  else if ch 0x4400 132 then some (5, idx - 0x4400)
  else if ch 0x4500 128 then some (5, idx - 0x4500)
  else if ch 0x4600 128 then some (5, idx - 0x4600)
  else if ch 0x4700 4 then some (6, idx - 0x4700)
  else if ch 0x5100 64 then some (0, idx - 0x5100)
  else if ch 0x5200 256 then inst (fun i => match i.block with
    | .stdin k .. => k == idx - 0x5200
    | _ => false) 0
  else if ch 0x5300 256 then inst (fun i => match i.block with
    | .stdout k .. => k == idx - 0x5300
    | _ => false) 0
  else if idx = 0x5400 && sub != 0 then some (1, sel)
  else if ch 0x6000 1024 then some (2, idx - 0x6000)
  else if ch 0x6C00 64 then some (3, idx - 0x6C00)
  else if ch 0x6D00 256 then inst (fun i => match i.block with
    | .tension .. => true
    | _ => false) (idx - 0x6D00)
  else if ch 0x6E00 64 then some (3, idx - 0x6E00)
  else if ch 0x7100 2048 then conn (fun i => i.block.isConnIn) (idx - 0x7100)
  else if ch 0x7900 512 then conn (fun i => i.block.isConnOut) (idx - 0x7900)
  else if ch 0x9200 132 then some (5, idx - 0x9200)
  else none

/-- The unit of an entry is stale in the mirror of die `d` (R383). -/
def State.staleOn (s : State) (d : Die) (seat idx sub : Nat) : Bool :=
  match (s.die d).mir.stale, s.pattern with
  | [], _ => false
  | _, none => false
  | l, some p => ((unitOf p (s.winOf seat 0x5400 0) idx sub).map fun u => l.contains u).getD false

/-- What reads of die `d` see of the plain entries of a stale unit: those of its last refresh (R383). -/
def State.mirrored (s : State) (d : Die) : State := { s with regs := (s.die d).mir.regs }

/-! ## REGISTER_WRITE -/

/-- Zones that channel `n` belongs to. -/
def State.chanZones (s : State) (n : Nat) : List Nat :=
  match s.pattern with
  | none => []
  | some p => p.zonesOf fun i => i.block.target.contains n || p.reads (fun x => match x with
      | .chan k => k == n
      | _ => false) i

/-- Seats that own zone `z` may write entries of it (R376). -/
def State.zoneRight (s : State) (seat : Nat) (zs : List Nat) : Bool :=
  s.owner seat || zs.all fun z => ((s.zoneRec z).map (·.seat)) == some seat

/-- A zone that the seat owns is in RUNNING or STOPPING (R82, R355). -/
def State.seatRunning (s : State) (seat : Nat) : Bool :=
  match s.pattern with
  | none => false
  | some p => p.zones.any fun r => r.seat == seat && decide (2 ≤ (s.die s.srv).eng.com.zoneSt p s.srv r.zone)

/-- The channel of an entry of 0x4400 or 0x9200. -/
def chanOf (idx : Nat) : Option Nat :=
  if 0x4400 ≤ idx && idx < 0x4484 then some (idx - 0x4400) else if 0x9200 ≤ idx && idx < 0x9284 then some (idx - 0x9200) else none

/-- The access code that a write meets: RESULT_NEW of CRC_STAT is W1C although the entry is RO (Table 16-7). -/
def wrAcc (r : OdRow) (idx sub : Nat) : Nat := if 0x9000 ≤ idx && idx < 0x9010 && sub = 12 then 5 else r.acc

/-- A seat may write an entry without behaviour of its own (R331, R376, R416, R465, R468). -/
def State.regRight (s : State) (seat acc idx sub : Nat) : Bool :=
  if idx = 0x1001 then s.has seat 0
  else if acc = 4 || idx / 4096 = 1 || idx / 256 = 0x20 || (0x4400 ≤ idx && idx < 0x4484 && sub = 1) || idx = 0xA005 then s.owner seat
  else if 0xD010 ≤ idx && idx < 0xE000 then (s.tst.state == 1 || s.tst.state == 2) && s.tst.seat == seat
  else if 0x9000 ≤ idx && idx < 0x9010 then s.crcRight seat (idx - 0x9000)
  else if 0x9100 ≤ idx && idx < 0x9110 then s.tmrRight seat (idx - 0x9100)
  else s.has seat 1 && (match chanOf idx with
    | some n => s.zoneRight seat (s.chanZones n)
    | none => true)

/-- Bits of an entry that a write reaches; the others are reserved (R12). -/
def wrMask (idx sub v : Nat) : Nat :=
  if idx = 0x1001 then v % 2 ^ 24
  else if 0x1100 ≤ idx && idx < 0x1108 && sub = 1 then v % 16
  else if 0x4400 ≤ idx && idx < 0x4484 && sub = 1 then v % 32
  else if idx = 0xB000 then v % 4
  else if idx = 0xD010 then v % 16
  else v

/-- A ring that an entry may name: allocated, of an entry size, owned by a seat. -/
def State.ringFor (s : State) (v esize seat : Nat) : Bool :=
  let r := s.rings.ring v
  v == 0xFFFFFFFF || (r.alloc && r.esize == esize && r.owner == seat)

/-- CLASS_MAP values (R294): at least the minimum; C4 only for bits that name a die that can be fenced. -/
def classOk (b v : Nat) : Bool :=
  decide (classMins.getD b 0 ≤ v) && (decide (v ≤ 3) || (v == 4 && (decide (b < 32) || (decide (44 ≤ b) && decide (b ≤ 51)) || b == 57)))

/-- Ranges below 0x4000. -/
def rangeLow (idx sub v : Nat) : Bool :=
  if idx = 0x1020 then within 1024 65535 v
  else if idx = 0x1024 then within 10000000 3600000000 v
  else if 0x1100 ≤ idx && idx < 0x1108 then
    (if sub = 3 then decide (v ≤ 15) || v == 0xFF else if sub = 5 then within 10 5000 v else if sub = 6 then within 1 256 v else true)
  else if idx = 0x2003 then decide (v ≤ 1)
  else if idx = 0x2004 then decide (v ≤ 4)
  else if idx = 0x3010 then classOk (sub - 1) v
  else if idx = 0x3012 then within 1 4 v
  else if idx = 0x3013 then within 500000 10000000 v
  else true

/-- Ranges of the network, self-test and update entries. -/
def rangeMid (idx v : Nat) : Bool :=
  if idx = 0x7000 then decide (0x0600 ≤ v) && !([0x0800, 0x0806, 0x8100, 0x86DD, 0x88A8, 0x88F7].contains v)
  else if idx = 0x7001 then decide (v ≤ 2)
  else if idx = 0x7002 then within 128 1522 v
  else if idx = 0x7003 then decide (v ≤ 127)
  else if idx = 0x7004 then decide (v ≤ 7)
  else if idx = 0x7005 then within 2 10 v
  else if idx = 0x7006 then decide (v ≤ 100000) || decide (2 ^ 32 - 100000 ≤ v)
  else if idx = 0xA008 then decide (v ≤ 15) || v == 0xFF
  else if idx = 0xB000 then v != 0
  else if idx = 0xB001 then within 1 20 v
  else if idx = 0xB002 then within 10 1440 v
  else true

/-- Ranges of the test access entries (Table 20-4). -/
def rangeTest (tspan idx sub v : Nat) : Bool :=
  if idx = 0xD011 then (if sub = 1 then decide (v ≤ 1) else if sub = 2 then decide (1000 * v ≤ tspan) else within 1 65535 v)
  else if idx = 0xD012 then
    (if sub = 1 then within 1 2 v else if sub = 2 then true else if sub = 3 then decide (v ≤ 1000000) else within 1 65535 v)
  else if idx = 0xD013 then (if sub = 1 then decide (v ≤ 2) else if sub = 2 then decide (v ≤ 100) else within 1 65535 v)
  else if idx = 0xD014 then
    (if sub = 1 then decide (v ≤ 1) else if sub = 2 then decide (v ≤ 2) else if sub = 3 then true else if sub = 4 then within 1 8 v
      else within 1 65535 v)
  else true

/-- The value fits the type of the entry; an OCT entry written here is an address of 16 bytes. -/
def typeFits (r : OdRow) (v : Nat) : Bool := if r.ty = 0 then decide (v ≤ 1) else if r.ty = 13 then decide (v < 2 ^ 128) else decide (v < 256 ^ tyBytes r.ty)

/-- A value is in the range of an entry without behaviour of its own. -/
def State.regRange (s : State) (seat : Nat) (r : OdRow) (idx sub v : Nat) : Bool :=
  typeFits r v && rangeLow idx sub v && rangeMid idx v && rangeTest s.tspan idx sub v
    && (if idx = 0x5400 then (s.pattern.map fun p => p.insts.any fun i => i.id == v).getD false
      else if 0x4400 ≤ idx && idx < 0x4484 && sub = 2 then s.ringFor v 1 (s.reg 0x1010 0)
      else if 0x9100 ≤ idx && idx < 0x9110 && sub = 7 then
        s.ringFor v 0 (if s.reg idx 8 = 0xFF then seat else s.reg idx 8)
      else if 0x9100 ≤ idx && idx < 0x9110 && sub = 8 then decide (v ≤ 7) || v == 0xFF
      else if 0x9000 ≤ idx && idx < 0x9010 && sub = 1 then v == 0
      else if idx = 0xC010 then decide (v < 1024)
      else true)

/-- An entry that a row of its own writes. -/
def ownRow (idx sub : Nat) : Bool :=
  [0x1010, 0x1011, 0x1012, 0x2001, 0x2002, 0x2013, 0x2016, 0x2020, 0x2024, 0x3002, 0x4490, 0x5003, 0x5004, 0x5006, 0x8101, 0xB005,
    0xC002, 0xC004, 0xC012, 0xC030, 0xC031, 0xD000, 0xD003].contains idx
    || (decide (0x1100 ≤ idx) && decide (idx < 0x1108) && sub == 10) || (decide (0x3040 ≤ idx) && decide (idx < 0x3080))
    || (decide (0x5200 ≤ idx) && decide (idx < 0x5300)) || (idx == 0x8100 && sub != 1)
    || (decide (0x9000 ≤ idx) && decide (idx < 0x9010) && sub != 1 && sub != 12)
    || (decide (0x9100 ≤ idx) && decide (idx < 0x9110) && decide (sub ≤ 4))

/-- Window entries, of which every seat has its own (R402, R434, Tables 04-12 and 14-12). -/
def windowIdx (idx sub : Nat) : Bool := idx == 0x1001 || (idx == 0x5400 && sub == 0) || (idx == 0x8100 && sub == 1) || idx == 0xC010

/-- The effect of a write of a value that has passed its checks. -/
def State.regSet (s : State) (seat : Nat) (r : OdRow) (idx sub v : Nat) : State :=
  if windowIdx idx sub then s.updSeat seat fun x => { x with win := Tab.set 0 x.win (odKey idx sub) v }
  else if r.pers = 1 then
    let s1 := s.conf seat idx sub v
    if 0x1100 ≤ idx && idx < 0x1108 && s.reg idx sub != v then s1.endSession (idx - 0x1100) else s1
  else if idx = 0x2011 then (if bitAt v 8 then { s with clk := { s.clk with forced := false } } else s)
  else if 0x9100 ≤ idx && idx < 0x9110 && sub = 5 then
    { s with tmr := Tab.upd Tmr.init s.tmr (idx - 0x9100) fun (t : Tmr) =>
        { t with isMatch := t.isMatch && !bitAt v 0, late := t.late && !bitAt v 1, double := t.double && !bitAt v 2 } }
  else if 0x9000 ≤ idx && idx < 0x9010 && sub = 12 then (if bitAt v 3 then s.setReg idx 12 (s.reg idx 12 / 16 * 16) else s)
  else if r.acc = 5 then s.w1c idx sub v
  else s.setReg idx sub v

/-- REGISTER_WRITE: a write of an entry without behaviour of its own, under its access code, in the order of Table 14-6 (R355, R356,
R376, R383). A writable entry that a row of its own writes is left to that row. -/
def doRegisterWrite (seat : Fin 8) (idx sub v : Nat) (s : State) : State :=
  match s.odRow idx sub with
  | none => s.refuse [(true, .noEntry)] id
  | some r =>
    if ownRow idx sub && r.acc != 0 then s
    else
      let acc := wrAcc r idx sub
      let w := wrMask idx sub v
      s.refuse [(r.pers == 1 && s.persBusy, .busy),
        (acc == 0 || r.pers == 3 || s.absent idx sub || (decide (0xD010 ≤ idx) && decide (idx < 0xE000) && s.tst.state == 0), .access),
        (idx == 0xC010 && within 320 383 v, .access), (!s.regRight seat acc idx sub, .rights),
        (acc == 4 && !s.inConf, .mode), (acc == 3 && s.seatRunning seat, .mode), (!s.regRange seat r idx sub w, .range),
        (s.staleOn s.srv seat idx sub, .mgmtStale)] fun s => s.regSet seat r idx sub w

def execRegisterWrite (seat : Fin 8) (idx sub v : Nat) (s : State) : Host.Outcome State Fault Refusal :=
  .next (doRegisterWrite seat idx sub v s)

end Sys2Proof.Machine
end

