-- ==== Sys2Proof/Machine/BridleOps.lean ====
section
/-! DEFINITION. Bridle: values in frames, one entry read or written, the checks of a request, answers and writes that wait for their
apply tick (14_object_dictionary.md R358 to R368, R371 to R384). -/

namespace Sys2Proof

/-- The bytes of a request frame without its CRC (Table 14-4). -/
def Frame.head (op : Nat) (f : Frame) : List Byte :=
  leBytes 2 f.magic ++ [BitVec.ofNat 8 f.ver, BitVec.ofNat 8 op, BitVec.ofNat 8 f.seat, BitVec.ofNat 8 f.status] ++ leBytes 2 f.reqId
    ++ leBytes 4 f.token ++ leBytes 2 f.len ++ leBytes 2 f.rsvd ++ f.payload

/-- MAGIC, VER, LEN and CRC (R362). -/
def Frame.good (op : Nat) (f : Frame) : Bool :=
  f.magic == 0x4252 && f.ver == 1 && f.len == f.payload.length && decide (f.len ≤ 1280) && f.crc == Machine.crc32c (Frame.head op f)

end Sys2Proof

namespace Sys2Proof.Machine

/-! ## Values -/

/-- A value in its encoding (R358, Table 00-4). -/
def encVal (ty : Nat) (bs : List Byte) : List Byte :=
  if ty = 12 then BitVec.ofNat 8 bs.length :: bs else if ty = 13 then leBytes 2 bs.length ++ bs else bs

/-- The value at the start of `bs` and what follows it, `none` where too few bytes stand there. -/
def decVal (ty : Nat) (bs : List Byte) : Option (List Byte × List Byte) :=
  let k := if ty = 12 then 1 else if ty = 13 then 2 else 0
  let n := if ty = 12 then leAt bs 0 1 else if ty = 13 then leAt bs 0 2 else tyBytes ty
  if bs.length < k + n then none else some (slice bs k n, bs.drop (k + n))

/-- Values of consecutive entries, `none` where they do not fill `bs`. -/
def decVals : List Nat → List Byte → Option (List (List Byte))
  | [], bs => if bs.isEmpty then some [] else none
  | ty :: t, bs => (decVal ty bs).bind fun x => (decVals t x.2).map fun l => x.1 :: l

/-! ## Reading one entry -/

/-- A seat may read an entry (R375, R377). -/
def State.readRight (s : State) (seat idx sub : Nat) : Bool :=
  if 0x1000 ≤ idx && idx ≤ 0x1003 then true
  else if 0x1100 ≤ idx && idx < 0x1108 && sub = 9 then idx == 0x1100 + seat
  else s.has seat 0 && (!(0x1100 ≤ idx && idx < 0x1108 && [2, 3, 5, 6, 11, 12, 13, 14].contains sub) || idx == 0x1100 + seat || s.owner seat)

/-- Entries of test access that are closed (R468). -/
def State.testShut (s : State) (idx : Nat) : Bool := decide (0xD010 ≤ idx) && decide (idx < 0xE000) && s.tst.state == 0

/-- The status and octets of a read of one entry by a seat on die `d`, in the order of Table 14-6. -/
def State.readEntry (s : State) (seat : Fin 8) (d : Die) (idx sub : Nat) : State :=
  match s.odRow idx sub with
  | none => s.ans .noEntry
  | some r =>
    if r.acc = 2 || s.testShut idx then s.ans .access
    else if !s.readRight seat idx sub then s.ans .rights
    else if s.absent idx sub then (s.ans .ok).reply (leBytes (tyBytes r.ty) 0)
    else if 0x1100 ≤ idx && idx < 0x1108 && sub = 9 then doSeatChal seat s
    else if idx = 0xC003 then doLcChal seat s
    else if idx = 0xC011 then doOtpData seat s
    else if idx = 0xD002 then doTestChal seat s
    else if (idx = 0x8100 && sub = 3) || (idx = 0x8200 && sub = 1) then s.ans .bounds
    else
      let old := s.staleOn d seat idx sub
      let m := if old then s.mirrored d else s
      (s.ans (if old then .mgmtStale else .ok)).reply
        (if r.ty = 12 || r.ty = 13 then m.viewBytes d seat idx sub else leBytes (tyBytes r.ty) (m.view d seat idx sub))

/-! ## Writing one entry -/

/-- A write of CRC_CTRL (R405, R408): ABORT, EN, or neither. -/
def State.writeCrc (s : State) (seat : Fin 8) (k sub v : Nat) : State :=
  let d := unitDie k
  let c := Fin.ofNat 8 k
  if sub = 1 then
    (if bitAt v 1 then doCrcAbort seat d c s else if bitAt v 0 then doCrcEnable seat d c s else doRegisterWrite seat (0x9000 + k) 1 0 s)
  else if sub = 2 then doCrcPreset seat d c v s
  else doCrcParameterWrite seat d c sub v s

/-- A write of a timer's own entries. -/
def State.writeTmr (s : State) (seat : Fin 8) (k sub v : Nat) : State :=
  let d := unitDie k
  let t := Fin.ofNat 8 k
  if sub = 1 then doTmrCtrl seat d t v s
  else if sub = 2 then doTmrCount seat d t v s
  else if sub = 3 then doTmrCmp seat d t v s
  else doTmrCmpNext seat d t v s

/-- A write of the window of rings and of RING_ALLOC, which the receiving die carries out as home (R393, R396). -/
def State.writeRing (s : State) (seat : Fin 8) (d : Die) (x : WItem) : State :=
  let v := leNat x.val
  if x.idx = 0x8101 then doRingAlloc d seat v s
  else if x.sub = 3 then (if x.ofs = 0 then doRingPush seat x.val s else s.ans .range)
  else if x.sub = 4 then doRingConsume seat v s
  else if v = 1 then doFree seat s
  else if v = 2 then doReset seat s
  else s.ans .range

/-- A write of an entry of identity, span, clocks and modes that a row of its own writes. -/
def State.writeLow (s : State) (seat : Fin 8) (x : WItem) : State :=
  let v := leNat x.val
  if x.idx = 0x1010 then doLineOwner seat v s
  else if x.idx = 0x1011 then doLoPass seat x.val s
  else if x.idx = 0x1012 then doLoPassNew seat x.val s
  else if x.idx < 0x1108 then doSeatLogin seat x.val s
  else if x.idx = 0x2001 then doSpanKWrite seat v s
  else if x.idx = 0x2002 then doTickOfsWrite seat v s
  else if x.idx = 0x2013 then doClkGate seat (Fin.ofNat 18 (x.sub - 1)) v s
  else if x.idx = 0x2016 then doClkobsSelect seat x.sub v s
  else if x.idx = 0x2020 then s.modeReq seat v
  else if v = 0 then doPwrReqActive seat s
  else if v = 1 then doPwrReqSleep seat s
  else if v = 2 then doPwrReqDeepSleep seat s
  else s.write false (s.owner seat) (s.modes.mode == .run || s.modes.mode == .safe) false id

/-- A write of an entry of faults, inputs, Pattern and zones that a row of its own writes. A plain write of PAT_IMAGE is refused
(Table 03-7). -/
def State.writeMid (s : State) (seat : Fin 8) (x : WItem) : State :=
  let v := leNat x.val
  if x.idx = 0x3002 then (if x.sub = 1 then doFswClr seat v s else doFswSecClr seat v s)
  else if x.idx < 0x3080 then doZoneRrst seat (Fin.ofNat 64 (x.idx - 0x3040)) v s
  else if x.idx = 0x4490 then doCosHirqClear seat (Fin.ofNat 5 (x.sub - 1)) v s
  else if x.idx = 0x5003 then
    (if v = 1 then doLoad seat s else if v = 2 then doDiscard seat s else s.write false (s.has seat 2) s.inConf false id)
  else if x.idx = 0x5004 then doConfirm seat x.val s
  else if x.idx = 0x5006 then s.ans .access
  else doStdinVal seat (Fin.ofNat 256 (x.idx - 0x5200)) v s

/-- A write of an entry of self-test, OTP, keys and test access that a row of its own writes. -/
def State.writeHigh (s : State) (seat : Fin 8) (x : WItem) : State :=
  let v := leNat x.val
  if x.idx = 0xB005 then doStReq seat v s
  else if x.idx = 0xC002 then doLcReq seat v s
  else if x.idx = 0xC004 then doLcResp seat (leAt x.val 0 1) (x.val.drop 1) s
  else if x.idx = 0xC012 then doOtpProg seat v s
  else if x.idx = 0xC030 then doKeyPut seat x.val s
  else if x.idx = 0xC031 then doKeyErase seat v s
  else if x.idx = 0xD000 then doTestOpen seat v s
  else doTestResp seat (leAt x.val 0 1) (x.val.drop 1) s

/-- A write of one value by a seat, received by die `d`: the rows that write entries of their own, REGISTER_WRITE for the rest. -/
def State.writeEntry (s : State) (seat : Fin 8) (d : Die) (x : WItem) : State :=
  match s.odRow x.idx x.sub with
  | none => s.ans .noEntry
  | some r =>
    if !ownRow x.idx x.sub then
      (if 0x9000 ≤ x.idx && x.idx < 0x9010 && x.sub = 1 then s.writeCrc seat (x.idx - 0x9000) 1 (leNat x.val)
        else if r.ty = 13 && x.val.length != 16 then s.ans .type else doRegisterWrite seat x.idx x.sub (leNat x.val) s)
    else if r.acc = 0 || s.absent x.idx x.sub then s.ans .access
    else if 0x9100 ≤ x.idx && x.idx < 0x9110 then s.writeTmr seat (x.idx - 0x9100) x.sub (leNat x.val)
    else if 0x9000 ≤ x.idx && x.idx < 0x9010 then s.writeCrc seat (x.idx - 0x9000) x.sub (leNat x.val)
    else if x.idx = 0x8100 || x.idx = 0x8101 then s.writeRing seat d x
    else if x.idx < 0x3000 then s.writeLow seat x
    else if x.idx < 0x8000 then s.writeMid seat x
    else s.writeHigh seat x

/-- A write that passes but meets a stale unit is refused (R383). -/
def State.writeFresh (s : State) (seat : Fin 8) (d : Die) (x : WItem) : State :=
  let t := s.writeEntry seat d x
  if t.br.last = .ok && s.staleOn d seat x.idx x.sub then s.ans .mgmtStale else t

/-- Values in order, up to the first that is refused. -/
def State.writeItems (s : State) (seat : Fin 8) (d : Die) (l : List WItem) : State :=
  l.foldl (fun (s : State) x => if s.br.last = .ok then s.writeFresh seat d x else s) (s.ans .ok)

/-- All or nothing (R368): of several values, a refusal leaves none, and keeps only its status. -/
def State.writeAll (s : State) (seat : Fin 8) (d : Die) (l : List WItem) : State :=
  let t := s.writeItems seat d l
  if t.br.last = .ok || l.length = 1 then t
  else { s with br := { s.br with last := t.br.last, retry := t.br.retry } }

/-! ## Requests -/

/-- The die that serves a transport (R359). -/
def Frame.die (f : Frame) : Die := if f.tr = 2 then .b else .a

/-- Where and how a request is answered. -/
def respOf (op : Nat) (f : Frame) : RespTo :=
  { die := Machine.Frame.die f, dst := { tr := f.tr, addr := f.addr, port := f.port }, seat := f.seat, op := op, reqId := f.reqId, token := f.token,
    crc := f.crc, pay := [] }

/-- Die `d` receives frames of a transport (R384): not in SHELF, in BOOT from step 5 or 8 on, not while it is fenced or boots. -/
def State.receives (s : State) (d : Die) (tr : Nat) : Bool :=
  s.modes.mode != .shelf && s.admitted d && (s.die d).mgmt != .booting
    && (s.modes.mode != .boot || decide ((if tr = 0 then 5 else 8) ≤ s.pow.bootStep))

/-- A frame belongs to its transport and comes from the seat's address (R371). -/
def State.belongs (s : State) (f : Frame) : Bool :=
  (if f.tr = 0 then f.seat == 0 else decide (f.tr ≤ 2) && decide (1 ≤ f.seat) && decide (f.seat ≤ 7))
    && (f.seat == 0 || s.reg (0x1100 + f.seat) 4 == 0 || s.reg (0x1100 + f.seat) 4 == leNat (beBytes 16 f.addr))

/-- The bucket of a seat holds a frame (R379); it is counted in units of 1 / 8,000,000 frame. -/
def State.hasFrame (s : State) (k : Nat) : Bool := decide (8000000 ≤ (s.br.seat k).bucket)

/-- One frame is taken. -/
def State.takeFrame (s : State) (k : Nat) : State := if s.hasFrame k then s.updSeat k fun x => { x with bucket := x.bucket - 8000000 } else s

/-- Spans until the bucket holds one frame. -/
def State.frameRetry (s : State) (k : Nat) : Nat :=
  max 1 (ceilDiv (ceilDiv (8000000 - (s.br.seat k).bucket) (s.reg (0x1100 + k) 5) * 125) s.tspan)

/-- Requests of a seat that are not answered yet (R363). -/
def State.outstanding (s : State) (k : Nat) : Nat :=
  (s.br.writes.filter fun w => w.resp.seat == k).length + (s.br.fwds.filter fun w => w.f.seat == k).length
    + (s.br.pers.filter fun w => (w.ans.map fun r => r.seat == k).getD false).length
    + (match s.otp.op with
      | some x => if (x.ans.map fun r => r.seat == k).getD false then 1 else 0
      | none => 0)

/-- The session of a seat is open at this moment (R373). -/
def State.sessLive (s : State) (k : Nat) : Bool :=
  let x := s.br.seat k
  x.sess.isSome && decide (s.time ≤ x.last + 8 * s.reg 0x1024 0)

/-- A request that token 0 may make without a session (R373). -/
def freeToken (op : Nat) (f : Frame) : Bool :=
  let idx := leAt f.payload 0 2
  let sub := leAt f.payload 2 1
  ((op == 1 || op == 3) && decide (0x1000 ≤ idx) && decide (idx ≤ 0x1003))
    || (op == 1 && idx == 0x1100 + f.seat && sub == 9) || (op == 2 && idx == 0x1100 + f.seat && sub == 10)

/-- Check 1 of Table 14-6: TOKEN, KEYGONE, or `none` where the token is good. -/
def State.tokenCheck (s : State) (op : Nat) (f : Frame) : Option Status :=
  let x := s.br.seat f.seat
  if s.sessLive f.seat && x.sess == some f.token then (if x.keyGone then some .keygone else none)
  else if f.token = 0 && ((f.seat = 0 && s.reg 0x1023 0 = 1) || freeToken op f) then none
  else some .token

/-- Served in this mode (R384, Table 17-2): in BOOT, reads of 0x1000 to 0x1003 and MODE_STAT; in VOID, reads of 0x1000 to 0x1003 and
0xC000 to 0xC001. -/
def State.modeServes (s : State) (op : Nat) (f : Frame) : Bool :=
  let idx := leAt f.payload 0 2
  let rd := op == 1 || op == 3
  let id_ := decide (0x1000 ≤ idx) && decide (idx ≤ 0x1003)
  if s.modes.mode = .boot then rd && (id_ || idx == 0x2021)
  else if s.otp.lc = 4 then rd && (id_ || idx == 0xC000 || idx == 0xC001)
  else true

/-- The checks of a request after R362, then `g` (R363, R379, Table 14-6 checks 1 to 3, R384). -/
def State.checked (s : State) (op : Nat) (f : Frame) (shape : Bool) (g : State → State) : State :=
  let r := respOf op f
  match (s.br.seat f.seat).kept.find? fun (x : Nat × Nat × List Byte) => x.1 == f.reqId && x.2.1 == f.crc with
  | some x => (s.takeFrame f.seat).post r.dst x.2.2
  | none =>
    let s2 := s.takeFrame f.seat
    match s2.tokenCheck op f with
    | some .keygone => ((s2.endSession f.seat).ans .keygone).sendAns r
    | some st => (s2.ans st).sendAns r
    | none =>
      let s3 := s2.updSeat f.seat fun x => { x with last := s.time }
      if !s.hasFrame f.seat then (s3.ansBusy (s.frameRetry f.seat)).sendAns r
      else if 4 ≤ s3.outstanding f.seat then (s3.ansBusy 1).sendAns r
      else if (s3.die r.die).mgmt = .restarting then (s3.ansBusy 0xFFFF).sendAns r
      else if !shape || f.rsvd != 0 || f.status != 0 then (s3.ans .format).sendAns r
      else if !s3.modeServes op f then (s3.ans .mode).sendAns r
      else g s3

/-- A request frame (R362): over HSPI the one that stands in the receive buffer. -/
def State.request (s : State) (op : Nat) (f : Frame) (shape : Bool) (g : State → State) : State :=
  let here := f.tr != 0 || s.br.rx.contains (op, f)
  let s0 := if f.tr = 0 then { s with br := { s.br with rx := s.br.rx.erase (op, f) } } else s
  if !here || !s.receives (Machine.Frame.die f) f.tr then s0
  else if !Frame.good op f || !s.belongs f then s0.bump 32 0x1200 1
  else s0.checked op f shape g

/-- A status of a block refusal: undefined, closed and foreign entries answer BOUNDS (R368). -/
def blockSt (st : Status) : Status := if st = .noEntry || st = .access || st = .rights then .bounds else st

/-- The refusal of a block (R368). -/
def State.asBlock (s : State) : State := { s with br := { s.br with last := blockSt s.br.last } }

/-- A write has been received: refused at once, or it waits for its apply tick (R365, R366). -/
def State.takeWrite (s : State) (r : RespTo) (block : Bool) (l : List WItem) : State :=
  let t := s.writeAll (Fin.ofNat 8 r.seat) r.die l
  if t.br.last = .ok then
    let w : PendWrite := { id := s.br.nextId, recv := s.nowNs r.die, acked := false, apply := s.applySpan, pass := (s.br.seat r.seat).pass, items := l, resp := r }
    { s with br := { s.br with writes := s.br.writes ++ [w], nextId := s.br.nextId + 1 } }
  else if block then t.asBlock.sendAns r
  else t.sendAns r

/-- Statuses that are checked before TYPE (Table 14-6). -/
def beforeType (st : Status) : Bool :=
  st == .token || st == .keygone || st == .busy || st == .format || st == .noEntry || st == .access || st == .rights || st == .mode

/-- A write whose TYPE or length is wrong: an earlier check that fails, else TYPE. -/
def State.wrongType (s : State) (r : RespTo) (l : List WItem) : State :=
  let t := s.writeAll (Fin.ofNat 8 r.seat) r.die l
  if beforeType t.br.last then { s with br := { s.br with last := t.br.last, retry := t.br.retry } }.sendAns r else (s.ans .type).sendAns r

/-! ## Forwarding -/

/-- The die that reads and writes of an entry belong to (R392, R416): that of a CRC channel, a timer, or the selected ring. -/
def State.homeOf (s : State) (seat : Nat) (d : Die) (idx sub : Nat) : Die :=
  if (0x9000 ≤ idx && idx < 0x9010) || (0x9100 ≤ idx && idx < 0x9110) then (if idx % 16 < 8 then .a else .b)
  else if idx = 0x8100 && sub != 1 then
    (let n := s.winOf seat 0x8100 1
     if n = 0 then d else if (s.rings.ring n).home = 0 then .a else .b)
  else d

/-- A read is carried out on the receiving die, or forwarded to the home die on VC4; without that die it answers BUSY. -/
def State.atHome (s : State) (op : Nat) (f : Frame) (idx sub : Nat) (g : State → State) : State :=
  let d := Machine.Frame.die f
  let h := s.homeOf f.seat d idx sub
  if h = d then g s
  else if !s.admitted h then (s.ansBusy 1).sendAns (respOf op f)
  else { s with br := { s.br with fwds := s.br.fwds ++ [{ id := s.br.nextId, die := d, op := op, f := f }], nextId := s.br.nextId + 1 } }

/-! ## Reads -/

/-- Index and subindices that a request names. -/
def reqIdx (f : Frame) : Nat := leAt f.payload 0 2

def reqSub (f : Frame) : Nat := leAt f.payload 2 1

/-- READ carried out on die `d` (Table 14-5). -/
def State.readOn (s : State) (d : Die) (f : Frame) : State :=
  let idx := reqIdx f
  let sub := reqSub f
  let t := s.readEntry (Fin.ofNat 8 f.seat) d idx sub
  let ty := ((s.odRow idx sub).map (·.ty)).getD 0
  t.sendAns { respOf 1 f with pay := leBytes 2 idx ++ [BitVec.ofNat 8 sub, BitVec.ofNat 8 ty] ++ encVal ty t.br.data }

/-- The values of consecutive subindices; the first refusal stops the read (R368). -/
def State.readRun (s : State) (seat : Fin 8) (d : Die) (idx : Nat) : List Nat → List Byte → Bool → State × List Byte × Bool
  | [], acc, stale => (s, acc, stale)
  | sub :: t, acc, stale =>
    let u := s.readEntry seat d idx sub
    let ty := ((s.odRow idx sub).map (·.ty)).getD 0
    if u.br.last = .ok || u.br.last = .mgmtStale then
      State.readRun u seat d idx t (acc ++ encVal ty u.br.data) (stale || u.br.last == .mgmtStale)
    else (u, [], false)

/-- The fields of a block request after INDEX and SUB_FIRST. -/
def blkLast (f : Frame) : Nat := leAt f.payload 3 1

def blkOfs (f : Frame) : Nat := leAt f.payload 4 4

def blkCount (f : Frame) : Nat := leAt f.payload 8 2

/-- The request names bytes of one OCT entry. -/
def State.blkOct (s : State) (f : Frame) : Bool :=
  reqSub f == blkLast f && blkCount f != 0 && (((s.odRow (reqIdx f) (reqSub f)).map fun r => r.ty == 13).getD false)

/-- Bytes of one OCT entry (R368, R393, R402, R409). -/
def State.readOct (s : State) (seat : Fin 8) (d : Die) (f : Frame) : State :=
  let idx := reqIdx f
  let ofs := blkOfs f
  let n := blkCount f
  if idx = 0x8100 && reqSub f = 3 then doRingRead seat ofs n s
  else if idx = 0x8200 && reqSub f = 1 then doJrnDataRead d seat ofs n s
  else
    let t := s.readEntry seat d idx (reqSub f)
    if !(t.br.last = .ok || t.br.last = .mgmtStale) then t.asBlock
    else if t.br.data.length < ofs + n then s.ans .bounds
    else if 1024 < n then s.ans .range
    else t.reply (slice t.br.data ofs n)

/-- The subindices of a block request. -/
def blkSubs (f : Frame) : List Nat := (List.range (blkLast f + 1 - reqSub f)).map (reqSub f + ·)

/-- Every subindex is defined, or the status that says otherwise. -/
def State.blkDefined (s : State) (f : Frame) : Option Status :=
  let l := blkSubs f
  let ok (k : Nat) : Bool := (s.odRow (reqIdx f) k).isSome
  if !l.any ok then some .noEntry else if !l.all ok || blkOfs f != 0 || blkCount f != 0 then some .bounds else none

/-- READ_BLOCK carried out on die `d` (R368). -/
def State.readBlockOn (s : State) (d : Die) (f : Frame) : State :=
  let seat : Fin 8 := Fin.ofNat 8 f.seat
  let r := respOf 3 f
  let hdr := f.payload.take 12
  if s.blkOct f then
    let t := s.readOct seat d f
    t.sendAns { r with pay := hdr ++ t.br.data }
  else match s.blkDefined f with
    | some st => (s.ans st).sendAns r
    | none =>
      let x := s.readRun seat d (reqIdx f) (blkSubs f) [] false
      if !(x.1.br.last = .ok || x.1.br.last = .mgmtStale) then
        { s with br := { s.br with last := x.1.br.last, retry := x.1.br.retry } }.asBlock.sendAns r
      else if 1268 < x.2.1.length then (s.ans .bounds).sendAns r
      else (x.1.ans (if x.2.2 then .mgmtStale else .ok)).sendAns { r with pay := hdr ++ x.2.1 }

/-! ## Writes -/

/-- WRITE (R361, R365). -/
def State.writeReq (s : State) (f : Frame) : State :=
  let idx := reqIdx f
  let sub := reqSub f
  let ty := leAt f.payload 3 1
  let r := { respOf 2 f with pay := f.payload.take 4 }
  let want := ((s.odRow idx sub).map (·.ty)).getD 0
  let item (v : List Byte) : List WItem := [{ idx := idx, sub := sub, ofs := 0, val := v }]
  match (decVal want (f.payload.drop 4)).filter fun x => x.2.isEmpty && ty == want with
  | some x => s.takeWrite r false (item x.1)
  | none => s.wrongType r (item [])

/-- A block write of one OCT entry: PAT_IMAGE at once (R366), RING_DATA as a push, any other as its value with the bytes replaced. -/
def State.writeOct (s : State) (f : Frame) : State :=
  let idx := reqIdx f
  let sub := reqSub f
  let ofs := blkOfs f
  let data := f.payload.drop 12
  let r := { respOf 4 f with pay := f.payload.take 12 }
  if idx = 0x5006 then
    let t := doPatImage (Fin.ofNat 8 f.seat) ofs data s
    t.asBlock.sendAns r
  else if idx = 0x8100 then s.takeWrite r true [{ idx := idx, sub := sub, ofs := ofs, val := data }]
  else
    let old := s.viewBytes (Machine.Frame.die f) f.seat idx sub
    let v := old.take ofs ++ List.replicate (ofs - old.length) 0 ++ data ++ old.drop (ofs + data.length)
    if 65535 < v.length then (s.ans .bounds).sendAns r
    else if 1024 < data.length then (s.ans .range).sendAns r
    else s.takeWrite r true [{ idx := idx, sub := sub, ofs := 0, val := v }]

/-- WRITE_BLOCK (R368). -/
def State.writeBlockReq (s : State) (f : Frame) : State :=
  let r := { respOf 4 f with pay := f.payload.take 12 }
  if s.blkOct f then s.writeOct f
  else match s.blkDefined f with
    | some st => (s.ans st).sendAns r
    | none =>
      let subs := blkSubs f
      let tys := subs.map fun k => ((s.odRow (reqIdx f) k).map (·.ty)).getD 0
      match decVals tys (f.payload.drop 12) with
      | none => (s.ans .type).sendAns r
      | some vs => s.takeWrite r true ((subs.zip vs).map fun x => { idx := reqIdx f, sub := x.1, ofs := 0, val := x.2 })

end Sys2Proof.Machine
end

