-- ==== Sys2Proof/Machine/BridleRows.lean ====
section
/-! DEFINITION. The Bridle rows: READ, WRITE, READ_BLOCK, WRITE_BLOCK, SUBSCRIBE, UNSUBSCRIBE, WRITE_APPLY, NOTIFICATION,
FORWARDED_WRITE_RX, FORWARDED_RESPONSE_RX, and the HSPI commands WRITE_FRAME, READ_FRAME, READ_STATUS
(14_object_dictionary.md R359 to R370, R380, R381, 16_crc_timers.md R416). -/

namespace Sys2Proof.Machine

/-! ## Requests -/

/-- READ (R361, R364): from the mirror of the receiving die, or through the home die of a ring, channel or timer. -/
def doRead (f : Frame) (s : State) : State :=
  s.request 1 f (f.payload.length == 4 && leAt f.payload 3 1 == 0) fun s =>
    s.atHome 1 f (reqIdx f) (reqSub f) fun s => s.readOn (Machine.Frame.die f) f

def execRead (f : Frame) (s : State) : Host.Outcome State Fault Refusal := .next (doRead f s)

/-- WRITE (R361, R365). -/
def doWrite (f : Frame) (s : State) : State := s.request 2 f (decide (4 ≤ f.payload.length)) fun s => s.writeReq f

def execWrite (f : Frame) (s : State) : Host.Outcome State Fault Refusal := .next (doWrite f s)

/-- READ_BLOCK (R368). -/
def doReadBlock (f : Frame) (s : State) : State :=
  s.request 3 f (f.payload.length == 12 && leAt f.payload 10 2 == 0) fun s =>
    s.atHome 3 f (reqIdx f) (reqSub f) fun s => s.readBlockOn (Machine.Frame.die f) f

def execReadBlock (f : Frame) (s : State) : Host.Outcome State Fault Refusal := .next (doReadBlock f s)

/-- WRITE_BLOCK (R368): 12 bytes, then COUNT bytes, or the values of a run of subindices. -/
def doWriteBlock (f : Frame) (s : State) : State :=
  s.request 4 f (decide (12 ≤ f.payload.length) && leAt f.payload 10 2 == 0
      && (blkCount f == 0 || f.payload.length == 12 + blkCount f)) fun s => s.writeBlockReq f

def execWriteBlock (f : Frame) (s : State) : Host.Outcome State Fault Refusal := .next (doWriteBlock f s)

/-! ## Subscriptions -/

/-- A notification frame (Tables 14-4 and 14-5). -/
def State.notifBytes (s : State) (x : Sub) : List Byte :=
  let ty := ((s.odRow x.idx x.sub).map (·.ty)).getD 0
  let pay := leBytes 2 x.id ++ leBytes 2 x.nseq ++ leBytes 4 (s.die s.srv).tb.lastCommit ++ leBytes 2 x.idx
    ++ [BitVec.ofNat 8 x.sub, BitVec.ofNat 8 ty] ++ leBytes (tyBytes ty) x.cur
  let h := leBytes 2 0x4252 ++ [1, 0xC5, BitVec.ofNat 8 x.seat, 0] ++ leBytes 2 0 ++ leBytes 4 0 ++ leBytes 2 pay.length ++ [0, 0] ++ pay
  h ++ leBytes 4 (crc32c h)

/-- A notification leaves: the value is now the one last sent, and the changes it stands for beyond one are coalesced (R381). -/
def State.notify (s : State) (x : Sub) : State :=
  let bs := s.notifBytes x
  let y := { x with sent := some x.cur, lastSpan := s.spanNo, unsent := 0, ev := false }
  let s1 := { s with br := { s.br with subs := s.br.subs.map fun (z : Sub) => if z.id = x.id then y else z } }
  let s2 := if x.dst.tr = 0 then { s1 with br := { s1.br with notif := s1.br.notif ++ [bs] } }
    else { s1 with br := { s1.br with out := (x.dst, bs) :: s1.br.out } }
  s2.setReg 0x1200 4 (min (2 ^ 32 - 1) (s2.reg 0x1200 4 + (x.unsent - 1)))

/-- An entry that SUBSCRIBE applies to (R130, R183, R380). -/
def State.mayWatch (s : State) (idx sub : Nat) : Bool :=
  match s.odRow idx sub with
  | none => false
  | some r => r.acc == 0 && r.ty != 12 && r.ty != 13 && ((decide (0x3000 ≤ idx) && decide (idx ≤ 0x9FFF)) || decide (0xF000 ≤ idx))

/-- The next SUB_ID after `n` that no subscription holds. -/
def freeSub (l : List Sub) (n : Nat) : Nat :=
  (((List.range 257).map fun k => (n + 1 + k) % 65535).find? fun i => !l.any fun x => x.id == i).getD 0

/-- SUBSCRIBE (R380, R381): answered, and the current value is notified at once. -/
def State.watch (s : State) (f : Frame) : State :=
  let idx := reqIdx f
  let sub := reqSub f
  let gap := leAt f.payload 4 2
  let r := { respOf 5 f with pay := f.payload.take 3 ++ leBytes 2 s.br.nextSub }
  let full := decide (64 ≤ (s.br.subs.filter fun x => x.seat == f.seat).length) || decide (256 ≤ s.br.subs.length)
  if full then (s.ans .busy).sendAns r
  else if (s.odRow idx sub).isNone then (s.ans .noEntry).sendAns r
  else if !s.readRight f.seat idx sub then (s.ans .rights).sendAns r
  else if !s.mayWatch idx sub || gap = 0 then (s.ans .range).sendAns r
  else
    let v := if s.absent idx sub then 0 else s.view s.srv f.seat idx sub
    let x : Sub := { id := s.br.nextSub, seat := f.seat, dst := r.dst, idx := idx, sub := sub, gap := gap, nseq := 0, lastSpan := s.spanNo
                     sent := none, cur := v, unsent := 0, ev := false }
    let s1 := { s with br := { s.br with subs := s.br.subs ++ [x], nextSub := freeSub (x :: s.br.subs) s.br.nextSub } }
    ((s1.ans .ok).sendAns r).notify x

def doSubscribe (f : Frame) (s : State) : State :=
  s.request 5 f (f.payload.length == 6 && leAt f.payload 3 1 == 0) fun s => s.watch f

def execSubscribe (f : Frame) (s : State) : Host.Outcome State Fault Refusal := .next (doSubscribe f s)

/-- UNSUBSCRIBE (R361): one subscription of the seat, or with 0xFFFF every one. -/
def State.unwatch (s : State) (f : Frame) : State :=
  let id := leAt f.payload 0 2
  let r := { respOf 6 f with pay := f.payload }
  let mine (x : Sub) : Bool := x.seat == f.seat && (id == 0xFFFF || x.id == id)
  if id != 0xFFFF && !s.br.subs.any mine then (s.ans .range).sendAns r
  else ({ s with br := { s.br with subs := s.br.subs.filter fun x => !mine x } }.ans .ok).sendAns r

def doUnsubscribe (f : Frame) (s : State) : State := s.request 6 f (f.payload.length == 2) fun s => s.unwatch f

def execUnsubscribe (f : Frame) (s : State) : Host.Outcome State Fault Refusal := .next (doUnsubscribe f s)

/-- NOTIFICATION (R381): a committed value that differs from the one last sent, or a change-of-state event (R183), at least MIN_GAP
spans after the last notification. -/
def doNotification (sub : Nat) (s : State) : State :=
  match s.br.subs.find? fun x => x.id == sub with
  | none => s
  | some x => if (x.sent != some x.cur || x.ev) && decide (x.lastSpan + x.gap ≤ s.spanNo) then s.notify x else s

def execNotification (sub : Nat) (s : State) : Host.Outcome State Fault Refusal := .next (doNotification sub s)

/-! ## Forwarded requests -/

/-- FORWARDED_WRITE_RX (R365): die `d` checks a write that the other die has received, and acknowledges it. -/
def doForwardedWriteRx (d : Die) (h : FlitHdr) (id : Nat) (s : State) : State :=
  s.flit d h (flitOf 4 1 id) fun s =>
    match s.br.writes.find? fun w => w.id == id && w.resp.die == d.peer with
    | none => s
    | some w =>
      let ok := (s.writeAll (Fin.ofNat 8 w.resp.seat) w.resp.die w.items).br.last == .ok
      { s with br := { s.br with writes := s.br.writes.map fun (x : PendWrite) => if x.id = id then { x with acked := ok } else x } }

def execForwardedWriteRx (d : Die) (h : FlitHdr) (id : Nat) (s : State) : Host.Outcome State Fault Refusal :=
  .next (doForwardedWriteRx d h id s)

/-- FORWARDED_RESPONSE_RX (R392, R416): the home die has carried out a read, and die `d` answers the host. -/
def doForwardedResponseRx (d : Die) (h : FlitHdr) (id : Nat) (s : State) : State :=
  s.flit d h (flitOf 4 2 id) fun s =>
    match s.br.fwds.find? fun w => w.id == id && w.die == d with
    | none => s
    | some w =>
      let s1 := { s with br := { s.br with fwds := s.br.fwds.filter fun x => x.id != id } }
      if w.op = 3 then s1.readBlockOn d.peer w.f else s1.readOn d.peer w.f

def execForwardedResponseRx (d : Die) (h : FlitHdr) (id : Nat) (s : State) : Host.Outcome State Fault Refusal :=
  .next (doForwardedResponseRx d h id s)

/-! ## WRITE_APPLY -/

/-- A write that consumes from a ring, and one that pushes to a ring (R393). -/
def PendWrite.consumes (x : PendWrite) : Bool := x.items.any fun i => i.idx == 0x8100 && i.sub == 4
def PendWrite.pushes (x : PendWrite) : Bool := x.items.any fun i => i.idx == 0x8100 && i.sub == 3

/-- Order of writes with one apply tick: receipt time, then seat (R366); of a push and a consume of two seats that arrive together, the
consume goes first (R392). -/
def PendWrite.before (x y : PendWrite) : Bool :=
  decide (x.recv < y.recv) || (x.recv == y.recv && (x.resp.seat == y.resp.seat || (x.consumes && y.pushes)
    || (!(x.pushes && y.consumes) && decide (x.resp.seat ≤ y.resp.seat))))

/-- Insert a write in that order. -/
def insWrite (w : PendWrite) : List PendWrite → List PendWrite
  | [] => [w]
  | x :: t => if x.before w then x :: insWrite w t else w :: x :: t

/-- A write takes the tick at which it is applied (R128, R305): its STDIN value or remote reset belongs to the snapshot of this span,
a remote reset with its time of writing. -/
def State.takeNow (s : State) (recv : Nat) (x : WItem) : State :=
  if 0x5200 ≤ x.idx && x.idx < 0x5300 then
    { s with stdin := Tab.upd [] s.stdin (x.idx - 0x5200) fun (l : List (Int × Nat)) =>
      l.dropLast ++ (l.getLast?.toList.map fun y => (y.1, s.spanNo)) }
  else if 0x3040 ≤ x.idx && x.idx < 0x3080 then
    { s with remote := Tab.upd [] s.remote (x.idx - 0x3040) fun (l : List (Nat × Nat)) =>
      l.dropLast ++ (l.getLast?.toList.map fun _ => (s.spanNo, recv)) }
  else s

/-- The answer of an applied write: at once, with the flash copies (R357), or after the verify of a program operation (R421). -/
def State.applyAnswer (s old : State) (r : RespTo) : State :=
  if old.br.pers.length < s.br.pers.length then
    { s with br := { s.br with pers := s.br.pers.dropLast ++ (s.br.pers.getLast?.toList.map fun w => { w with ans := some r }) } }
  else match s.otp.op with
    | some x => if old.otp.op.isNone && x.seat == some r.seat then { s with otp := { s.otp with op := some { x with ans := some r } } } else s.sendAns r
    | none => s.sendAns r

/-- One write at its apply tick (R365, R366): BUSY where the other die has not acknowledged it, else the checks again, then applied
or refused. A PASS mark of the session at receipt still counts where the session has ended since (R367). -/
def State.applyWrite (s : State) (w : PendWrite) : State :=
  if !w.acked || !s.admitted .a || !s.admitted .b then (s.ansBusy 1).sendAns w.resp
  else
    let lent := w.pass && !(s.br.seat w.resp.seat).pass && !(w.items.any fun x => x.idx == 0x1011)
    let u := if lent then s.updSeat w.resp.seat fun x => { x with pass := true } else s
    let v := u.writeAll (Fin.ofNat 8 w.resp.seat) w.resp.die w.items
    let t := if lent then v.updSeat w.resp.seat fun x => { x with pass := false } else v
    if t.br.last = .ok then (w.items.foldl (fun (s : State) x => s.takeNow w.recv x) t).applyAnswer s w.resp
    else if w.resp.op = 4 then t.asBlock.sendAns w.resp
    else t.sendAns w.resp

/-- The snapshots of the span in progress show the values of this tick. -/
def State.reopen (s : State) : State :=
  let f (l : LDie) : LDie := if l.cur.opened then { l with cur := s.openSnap l.tb l.cur } else l
  (s.updDie .a f).updDie .b f

/-- WRITE_APPLY (R366, R456, R471): every write whose apply tick has come, in its order; an ACTIVATE as well. -/
def doWriteApply (s : State) : State :=
  if s.modes.mode = .shelf then s
  else
    let due (w : PendWrite) : Bool := decide (w.apply ≤ s.spanNo)
    let l := (s.br.writes.filter due).foldl (fun (l : List PendWrite) w => insWrite w l) []
    let s0 := { s with br := { s.br with writes := s.br.writes.filter fun w => !due w } }
    let pt := l.any fun w => w.items.any fun x => decide (0xD010 ≤ x.idx) && decide (x.idx < 0xD015)
    let s1 := (l.foldl State.applyWrite s0).reopen
    (if pt then s1.ptAgain else s1).activateApply

def execWriteApply (s : State) : Host.Outcome State Fault Refusal := .next (doWriteApply s)

/-! ## HSPI -/

/-- A transaction reaches the port: HSPI is served by L-A (R359, R384). -/
def State.hspiOn (s : State) : Bool := s.receives .a 0

/-- WRITE_FRAME (R369): `whole` tells whether the transaction held the frame's last byte. An unknown OP is answered FORMAT. -/
def doWriteFrame (whole : Bool) (op : Nat) (f : Frame) (s : State) : State :=
  if !s.hspiOn || f.tr != 0 then s
  else if !whole || decide (4 ≤ s.br.rx.length) then s.bump 32 0x1200 2
  else
    let s1 := { s with br := { s.br with rx := s.br.rx ++ [(op, f)] } }
    if op = 0 || 6 < op then s1.request op f false id else s1

def execWriteFrame (whole : Bool) (op : Nat) (f : Frame) (s : State) : Host.Outcome State Fault Refusal := .next (doWriteFrame whole op f s)

/-- READ_FRAME (R369): responses first, then notifications; a frame that is not read whole stays pending. -/
def doReadFrame (whole : Bool) (s : State) : State :=
  if !s.hspiOn then s
  else match s.br.resp, s.br.notif with
    | x :: t, _ => { s with br := { s.br with shifted := x, resp := if whole then t else x :: t } }
    | [], x :: t => { s with br := { s.br with shifted := x, notif := if whole then t else x :: t } }
    | [], [] => { s with br := { s.br with shifted := [0, 0] } }

def execReadFrame (whole : Bool) (s : State) : Host.Outcome State Fault Refusal := .next (doReadFrame whole s)

/-- A COS_HIRQ bit is set (R185). -/
def State.cosSet (s : State) : Bool := [1, 2, 3, 4, 5].any fun k => s.reg 0x4490 k != 0

/-- The HSPI status byte (Table 14-8). -/
def State.hspiStatus (s : State) : Nat :=
  bitsOf [(0, !s.br.resp.isEmpty), (1, !s.br.notif.isEmpty), (2, decide (4 ≤ s.br.rx.length)), (3, s.cosSet)]

/-- HIRQ_N is low (R370). -/
def State.hirqLow (s : State) : Bool := s.hspiOn && (!s.br.resp.isEmpty || !s.br.notif.isEmpty || s.cosSet)

/-- READ_STATUS (R369). -/
def doReadStatus (s : State) : State :=
  if !s.hspiOn then s else { s with br := { s.br with shifted := [BitVec.ofNat 8 s.hspiStatus] } }

def execReadStatus (s : State) : Host.Outcome State Fault Refusal := .next (doReadStatus s)

end Sys2Proof.Machine
end

