-- ==== Sys2Proof/Machine/Dispatch.lean ====
section
/-! DEFINITION. One arm per command of the table: each calls the meaning of its command. -/

namespace Sys2Proof.Machine

/-- The effect of a command on everything but the queue. -/
def exec (i : Instr) (s : State) : Host.Outcome State Fault Refusal :=
  match i with
  | .vinRise mv strapMv => Sys2Proof.Machine.execVinRise mv strapMv s
  | .bootStepComplete => Sys2Proof.Machine.execBootStepComplete s
  | .bootStepTimeout => Sys2Proof.Machine.execBootStepTimeout s
  | .bootRetry => Sys2Proof.Machine.execBootRetry s
  | .resetNLow => Sys2Proof.Machine.execResetNLow s
  | .resetNRelease => Sys2Proof.Machine.execResetNRelease s
  | .pfwLatch mv => Sys2Proof.Machine.execPfwLatch mv s
  | .powerFailRecordDone d => Sys2Proof.Machine.execPowerFailRecordDone d s
  | .pfwClear mv => Sys2Proof.Machine.execPfwClear mv s
  | .vinOff mv => Sys2Proof.Machine.execVinOff mv s
  | .powerDownStart => Sys2Proof.Machine.execPowerDownStart s
  | .powerDownStep => Sys2Proof.Machine.execPowerDownStep s
  | .railExcursion r mv => Sys2Proof.Machine.execRailExcursion r mv s
  | .modeReqConfigure seat => Sys2Proof.Machine.execModeReqConfigure seat s
  | .modeReqRun seat => Sys2Proof.Machine.execModeReqRun seat s
  | .modeReqSafe seat => Sys2Proof.Machine.execModeReqSafe seat s
  | .modeReqService seat => Sys2Proof.Machine.execModeReqService seat s
  | .modeRequestTake => Sys2Proof.Machine.execModeRequestTake s
  | .runEntry => Sys2Proof.Machine.execRunEntry s
  | .runRequestLapse => Sys2Proof.Machine.execRunRequestLapse s
  | .safeEntryAfterStop => Sys2Proof.Machine.execSafeEntryAfterStop s
  | .safeEntry => Sys2Proof.Machine.execSafeEntry s
  | .pwrReqActive seat => Sys2Proof.Machine.execPwrReqActive seat s
  | .pwrReqSleep seat => Sys2Proof.Machine.execPwrReqSleep seat s
  | .pwrReqDeepSleep seat => Sys2Proof.Machine.execPwrReqDeepSleep seat s
  | .powerStateChange => Sys2Proof.Machine.execPowerStateChange s
  | .tick e => Sys2Proof.Machine.execTick e s
  | .phaseAEnd d => Sys2Proof.Machine.execPhaseAEnd d s
  | .phaseEEnd d => Sys2Proof.Machine.execPhaseEEnd d s
  | .commitPoint d => Sys2Proof.Machine.execCommitPoint d s
  | .lateCommitLimit d => Sys2Proof.Machine.execLateCommitLimit d s
  | .jobComplete d lane => Sys2Proof.Machine.execJobComplete d lane s
  | .laneError d lane => Sys2Proof.Machine.execLaneError d lane s
  | .tickTimestampRx d h ts lastCommit => Sys2Proof.Machine.execTickTimestampRx d h ts lastCommit s
  | .inputSupervisionFlitRx d h tag states codes => Sys2Proof.Machine.execInputSupervisionFlitRx d h tag states codes s
  | .outputSupervisionFlitRx d h fd codes => Sys2Proof.Machine.execOutputSupervisionFlitRx d h fd codes s
  | .compareRecordRx d h r => Sys2Proof.Machine.execCompareRecordRx d h r s
  | .readyRx d h => Sys2Proof.Machine.execReadyRx d h s
  | .pairingRecordRx d h r => Sys2Proof.Machine.execPairingRecordRx d h r s
  | .positionRecordRx d h first recs => Sys2Proof.Machine.execPositionRecordRx d h first recs s
  | .localisationRecordRx d h index bytes => Sys2Proof.Machine.execLocalisationRecordRx d h index bytes s
  | .replayRecordRx d h r => Sys2Proof.Machine.execReplayRecordRx d h r s
  | .forwardedWriteRx d h id => Sys2Proof.Machine.execForwardedWriteRx d h id s
  | .stateTransferRx d h => Sys2Proof.Machine.execStateTransferRx d h s
  | .stitchFlitCrcError d => Sys2Proof.Machine.execStitchFlitCrcError d s
  | .stitchRetryTimeout d => Sys2Proof.Machine.execStitchRetryTimeout d s
  | .retrainComplete => Sys2Proof.Machine.execRetrainComplete s
  | .stitchLaneTrainFail d lane => Sys2Proof.Machine.execStitchLaneTrainFail d lane s
  | .syncRx d port gmNs offset step => Sys2Proof.Machine.execSyncRx d port gmNs offset step s
  | .syncReceiptTimeout d => Sys2Proof.Machine.execSyncReceiptTimeout d s
  | .holdoverExpire => Sys2Proof.Machine.execHoldoverExpire s
  | .spanKWrite seat v => Sys2Proof.Machine.execSpanKWrite seat v s
  | .tickOfsWrite seat v => Sys2Proof.Machine.execTickOfsWrite seat v s
  | .tickMarkRx fd d t => Sys2Proof.Machine.execTickMarkRx fd d t s
  | .fieldImageRx d fd => Sys2Proof.Machine.execFieldImageRx d fd s
  | .captureLockEnd d n => Sys2Proof.Machine.execCaptureLockEnd d n s
  | .fieldInputEdge d n level cyc => Sys2Proof.Machine.execFieldInputEdge d n level cyc s
  | .debounceExpire d n => Sys2Proof.Machine.execDebounceExpire d n s
  | .ossdPulseFilterExpire d n => Sys2Proof.Machine.execOssdPulseFilterExpire d n s
  | .ossdSilentExpire d n => Sys2Proof.Machine.execOssdSilentExpire d n s
  | .testPulseStart k => Sys2Proof.Machine.execTestPulseStart k s
  | .testPulseEnd k => Sys2Proof.Machine.execTestPulseEnd k s
  | .tpWindowOpen d k => Sys2Proof.Machine.execTpWindowOpen d k s
  | .tpWindowEnd d k => Sys2Proof.Machine.execTpWindowEnd d k s
  | .adcSample d n mvBall mvMid ma => Sys2Proof.Machine.execAdcSample d n mvBall mvMid ma s
  | .adcReferenceCheck fd pass => Sys2Proof.Machine.execAdcReferenceCheck fd pass s
  | .cosHirqClear seat word mask => Sys2Proof.Machine.execCosHirqClear seat word mask s
  | .cmdFrameRx d fd frame => Sys2Proof.Machine.execCmdFrameRx d fd frame s
  | .keepTokenExpire d fd => Sys2Proof.Machine.execKeepTokenExpire d fd s
  | .tripAssert line => Sys2Proof.Machine.execTripAssert line s
  | .tripRelease => Sys2Proof.Machine.execTripRelease s
  | .vfldLow fd mv => Sys2Proof.Machine.execVfldLow fd mv s
  | .vfldRecover fd mv => Sys2Proof.Machine.execVfldRecover fd mv s
  | .currentLimitTrip n => Sys2Proof.Machine.execCurrentLimitTrip n s
  | .switchOvertemp d n => Sys2Proof.Machine.execSwitchOvertemp d n s
  | .gateDriveLoss fd => Sys2Proof.Machine.execGateDriveLoss fd s
  | .fdieOvercurrent fd ma => Sys2Proof.Machine.execFdieOvercurrent fd ma s
  | .fdieOvertemp fd => Sys2Proof.Machine.execFdieOvertemp fd s
  | .offPulseStart d n => Sys2Proof.Machine.execOffPulseStart d n s
  | .offPulseEnd d n => Sys2Proof.Machine.execOffPulseEnd d n s
  | .outputCodeClear d n => Sys2Proof.Machine.execOutputCodeClear d n s
  | .channelModeWrite d n mode => Sys2Proof.Machine.execChannelModeWrite d n mode s
  | .holdModeEnter d => Sys2Proof.Machine.execHoldModeEnter d s
  | .holdFrameSend d => Sys2Proof.Machine.execHoldFrameSend d s
  | .holdTimeout d => Sys2Proof.Machine.execHoldTimeout d s
  | .heartbeatLoss rx => Sys2Proof.Machine.execHeartbeatLoss rx s
  | .safeTelegramRx d port h body ingress => Sys2Proof.Machine.execSafeTelegramRx d port h body ingress s
  | .positionTelegramRx d rx body ingress => Sys2Proof.Machine.execPositionTelegramRx d rx body ingress s
  | .connWatchdogExpire d inst => Sys2Proof.Machine.execConnWatchdogExpire d inst s
  | .loneBudgetExpire d inst => Sys2Proof.Machine.execLoneBudgetExpire d inst s
  | .egressLost d port conn epoch seq => Sys2Proof.Machine.execEgressLost d port conn epoch seq s
  | .linkDown d port => Sys2Proof.Machine.execLinkDown d port s
  | .linkUp d port gigabit => Sys2Proof.Machine.execLinkUp d port gigabit s
  | .telegramReplay d port => Sys2Proof.Machine.execTelegramReplay d port s
  | .frameForward d port dst src tag etype fin => Sys2Proof.Machine.execFrameForward d port dst src tag etype fin s
  | .fdbAgeout d mac => Sys2Proof.Machine.execFdbAgeout d mac s
  | .arpRequestRx d rx senderMac senderIp targetIp => Sys2Proof.Machine.execArpRequestRx d rx senderMac senderIp targetIp s
  | .neighbourDiscoveryRx d rx senderMac senderIp targetIp => Sys2Proof.Machine.execNeighbourDiscoveryRx d rx senderMac senderIp targetIp s
  | .echoRequestRx d rx v6 frags senderIp targetIp data => Sys2Proof.Machine.execEchoRequestRx d rx v6 frags senderIp targetIp data s
  | .faultLatch bit => Sys2Proof.Machine.execFaultLatch bit s
  | .fswClr seat mask => Sys2Proof.Machine.execFswClr seat mask s
  | .fswSecClr seat mask => Sys2Proof.Machine.execFswSecClr seat mask s
  | .shadowEnd blk => Sys2Proof.Machine.execShadowEnd blk s
  | .leaseRequest res party => Sys2Proof.Machine.execLeaseRequest res party s
  | .leaseRenew res party => Sys2Proof.Machine.execLeaseRenew res party s
  | .leaseRelease res party => Sys2Proof.Machine.execLeaseRelease res party s
  | .leaseExpire res => Sys2Proof.Machine.execLeaseExpire res s
  | .readmitPowerRestore d => Sys2Proof.Machine.execReadmitPowerRestore d s
  | .readmitBootDone d ok => Sys2Proof.Machine.execReadmitBootDone d ok s
  | .readmitTimeout d => Sys2Proof.Machine.execReadmitTimeout d s
  | .mdieReadmit => Sys2Proof.Machine.execMdieReadmit s
  | .girthHeartbeatTimeout d => Sys2Proof.Machine.execGirthHeartbeatTimeout d s
  | .girthChallenge word => Sys2Proof.Machine.execGirthChallenge word s
  | .girthResponseRx d v => Sys2Proof.Machine.execGirthResponseRx d v s
  | .girthResponseTimeout d => Sys2Proof.Machine.execGirthResponseTimeout d s
  | .zoneRrst seat z v => Sys2Proof.Machine.execZoneRrst seat z v s
  | .stdinVal seat slot v => Sys2Proof.Machine.execStdinVal seat slot v s
  | .discTimerExpire d inst => Sys2Proof.Machine.execDiscTimerExpire d inst s
  | .lockMismatchExpire d inst => Sys2Proof.Machine.execLockMismatchExpire d inst s
  | .muteTimeExpire d inst => Sys2Proof.Machine.execMuteTimeExpire d inst s
  | .overrideTimeExpire d inst => Sys2Proof.Machine.execOverrideTimeExpire d inst s
  | .contactTExpire d inst => Sys2Proof.Machine.execContactTExpire d inst s
  | .modeselDiscExpire d inst => Sys2Proof.Machine.execModeselDiscExpire d inst s
  | .edmTimeout d inst => Sys2Proof.Machine.execEdmTimeout d inst s
  | .timerPtExpire d inst => Sys2Proof.Machine.execTimerPtExpire d inst s
  | .outsafeDlyExpire d inst => Sys2Proof.Machine.execOutsafeDlyExpire d inst s
  | .stdinStale d inst => Sys2Proof.Machine.execStdinStale d inst s
  | .streamLost d inst => Sys2Proof.Machine.execStreamLost d inst s
  | .stoFbTimeout d inst => Sys2Proof.Machine.execStoFbTimeout d inst s
  | .ss1StopTimeout d inst => Sys2Proof.Machine.execSs1StopTimeout d inst s
  | .slsAdaptExpire d inst => Sys2Proof.Machine.execSlsAdaptExpire d inst s
  | .brakeEngageExpire d inst => Sys2Proof.Machine.execBrakeEngageExpire d inst s
  | .sbcFbTimeout d inst => Sys2Proof.Machine.execSbcFbTimeout d inst s
  | .sbtTestTimeout d inst => Sys2Proof.Machine.execSbtTestTimeout d inst s
  | .sbtIntervalExpire d inst => Sys2Proof.Machine.execSbtIntervalExpire d inst s
  | .groupEngageExpire d inst => Sys2Proof.Machine.execGroupEngageExpire d inst s
  | .tensionFilterExpire d inst => Sys2Proof.Machine.execTensionFilterExpire d inst s
  | .crystalFirstValidCycle d us => Sys2Proof.Machine.execCrystalFirstValidCycle d us s
  | .crystalRelease d => Sys2Proof.Machine.execCrystalRelease d s
  | .pllLock p => Sys2Proof.Machine.execPllLock p s
  | .startRulePass src => Sys2Proof.Machine.execStartRulePass src s
  | .startAttemptFail src => Sys2Proof.Machine.execStartAttemptFail src s
  | .oscRestart src => Sys2Proof.Machine.execOscRestart src s
  | .clockFail dom die => Sys2Proof.Machine.execClockFail dom die s
  | .clockSwitchComplete sw forced => Sys2Proof.Machine.execClockSwitchComplete sw forced s
  | .clkGate seat n v => Sys2Proof.Machine.execClkGate seat n v s
  | .clkobsSelect seat sub v => Sys2Proof.Machine.execClkobsSelect seat sub v s
  | .read f => Sys2Proof.Machine.execRead f s
  | .write f => Sys2Proof.Machine.execWrite f s
  | .readBlock f => Sys2Proof.Machine.execReadBlock f s
  | .writeBlock f => Sys2Proof.Machine.execWriteBlock f s
  | .subscribe f => Sys2Proof.Machine.execSubscribe f s
  | .unsubscribe f => Sys2Proof.Machine.execUnsubscribe f s
  | .writeApply => Sys2Proof.Machine.execWriteApply s
  | .notification sub => Sys2Proof.Machine.execNotification sub s
  | .writeFrame whole op f => Sys2Proof.Machine.execWriteFrame whole op f s
  | .readFrame whole => Sys2Proof.Machine.execReadFrame whole s
  | .readStatus => Sys2Proof.Machine.execReadStatus s
  | .seatChal seat => Sys2Proof.Machine.execSeatChal seat s
  | .seatLogin seat bytes => Sys2Proof.Machine.execSeatLogin seat bytes s
  | .sessionTimeout seat => Sys2Proof.Machine.execSessionTimeout seat s
  | .loPass seat bytes => Sys2Proof.Machine.execLoPass seat bytes s
  | .loPassNew seat bytes => Sys2Proof.Machine.execLoPassNew seat bytes s
  | .lineOwner seat v => Sys2Proof.Machine.execLineOwner seat v s
  | .lockoutEnd k => Sys2Proof.Machine.execLockoutEnd k s
  | .persistentWriteCommit => Sys2Proof.Machine.execPersistentWriteCommit s
  | .registerWrite seat idx sub v => Sys2Proof.Machine.execRegisterWrite seat idx sub v s
  | .patImage seat ofs data => Sys2Proof.Machine.execPatImage seat ofs data s
  | .load seat => Sys2Proof.Machine.execLoad seat s
  | .discard seat => Sys2Proof.Machine.execDiscard seat s
  | .patternCheckDone => Sys2Proof.Machine.execPatternCheckDone s
  | .confirm seat bytes => Sys2Proof.Machine.execConfirm seat bytes s
  | .changeLogCommit => Sys2Proof.Machine.execChangeLogCommit s
  | .ringPush seat data => Sys2Proof.Machine.execRingPush seat data s
  | .ringRead seat ofs count => Sys2Proof.Machine.execRingRead seat ofs count s
  | .ringConsume seat n => Sys2Proof.Machine.execRingConsume seat n s
  | .free seat => Sys2Proof.Machine.execFree seat s
  | .reset seat => Sys2Proof.Machine.execReset seat s
  | .ringAlloc d seat v => Sys2Proof.Machine.execRingAlloc d seat v s
  | .jrnDataRead d seat ofs count => Sys2Proof.Machine.execJrnDataRead d seat ofs count s
  | .journalResume d => Sys2Proof.Machine.execJournalResume d s
  | .crcEnable seat x c => Sys2Proof.Machine.execCrcEnable seat x c s
  | .crcAbort seat x c => Sys2Proof.Machine.execCrcAbort seat x c s
  | .crcPreset seat x c v => Sys2Proof.Machine.execCrcPreset seat x c v s
  | .crcParameterWrite seat x c sub v => Sys2Proof.Machine.execCrcParameterWrite seat x c sub v s
  | .crcDescriptorDone x c => Sys2Proof.Machine.execCrcDescriptorDone x c s
  | .timerMatch x t => Sys2Proof.Machine.execTimerMatch x t s
  | .timerReload x t => Sys2Proof.Machine.execTimerReload x t s
  | .tmrCtrl seat x t v => Sys2Proof.Machine.execTmrCtrl seat x t v s
  | .tmrCmp seat x t v => Sys2Proof.Machine.execTmrCmp seat x t v s
  | .tmrCmpNext seat x t v => Sys2Proof.Machine.execTmrCmpNext seat x t v s
  | .tmrCount seat x t v => Sys2Proof.Machine.execTmrCount seat x t v s
  | .otpProg seat v => Sys2Proof.Machine.execOtpProg seat v s
  | .otpProgramDone ok => Sys2Proof.Machine.execOtpProgramDone ok s
  | .otpData seat => Sys2Proof.Machine.execOtpData seat s
  | .lcReq seat v => Sys2Proof.Machine.execLcReq seat v s
  | .lcResp seat target sig => Sys2Proof.Machine.execLcResp seat target sig s
  | .lcChal seat => Sys2Proof.Machine.execLcChal seat s
  | .keyPut seat bytes => Sys2Proof.Machine.execKeyPut seat bytes s
  | .keyErase seat slot => Sys2Proof.Machine.execKeyErase seat slot s
  | .eraRecordWrite ok => Sys2Proof.Machine.execEraRecordWrite ok s
  | .tamper ball => Sys2Proof.Machine.execTamper ball s
  | .granuleDone d item pass => Sys2Proof.Machine.execGranuleDone d item pass s
  | .roundLate => Sys2Proof.Machine.execRoundLate s
  | .stReq seat v => Sys2Proof.Machine.execStReq seat v s
  | .chal f => Sys2Proof.Machine.execChal f s
  | .auth f => Sys2Proof.Machine.execAuth f s
  | .manifest f => Sys2Proof.Machine.execManifest f s
  | .chunk f => Sys2Proof.Machine.execChunk f s
  | .abort f => Sys2Proof.Machine.execAbort f s
  | .activate f => Sys2Proof.Machine.execActivate f s
  | .stagingComplete => Sys2Proof.Machine.execStagingComplete s
  | .updateBootDone d ok => Sys2Proof.Machine.execUpdateBootDone d ok s
  | .activationWaitTimeout => Sys2Proof.Machine.execActivationWaitTimeout s
  | .flipDeferEnd => Sys2Proof.Machine.execFlipDeferEnd s
  | .svcSessionTimeout => Sys2Proof.Machine.execSvcSessionTimeout s
  | .testOpen seat v => Sys2Proof.Machine.execTestOpen seat v s
  | .testChal seat => Sys2Proof.Machine.execTestChal seat s
  | .testResp seat code sig => Sys2Proof.Machine.execTestResp seat code sig s
  | .pllUnlock p => Sys2Proof.Machine.execPllUnlock p s
  | .railReturn r mv => Sys2Proof.Machine.execRailReturn r mv s
  | .overtemperatureEnd who => Sys2Proof.Machine.execOvertemperatureEnd who s
  | .gateDriveReturn fd => Sys2Proof.Machine.execGateDriveReturn fd s
  | .supplyCurrentReturn fd => Sys2Proof.Machine.execSupplyCurrentReturn fd s
  | .tamperRelease ball => Sys2Proof.Machine.execTamperRelease ball s
  | .vbatBrownOut => Sys2Proof.Machine.execVbatBrownOut s
  | .blockResetComplete blk => Sys2Proof.Machine.execBlockResetComplete blk s
  | .dischargeSinkRelease n => Sys2Proof.Machine.execDischargeSinkRelease n s
  | .gateControlEntry d port => Sys2Proof.Machine.execGateControlEntry d port s
  | .pdelayRx d port delay => Sys2Proof.Machine.execPdelayRx d port delay s
  | .announceRx d port domain priority gmId => Sys2Proof.Machine.execAnnounceRx d port domain priority gmId s
  | .forwardedResponseRx d h id => Sys2Proof.Machine.execForwardedResponseRx d h id s
  | .zeroiseReadbackDone => Sys2Proof.Machine.execZeroiseReadbackDone s
  | .zeroiseTimeout => Sys2Proof.Machine.execZeroiseTimeout s

end Sys2Proof.Machine
end

