-- ==== Sys2Proof/Machine/Idle.lean ====
section
/-! DEFINITION. What one CK_TICK cycle of 125 ns does when no command waits (log 5): the clocks that count time go on, and so do the
timers that count CK_TICK and the frame buckets of the seats (02_span_timing.md R40, R48, 14_object_dictionary.md R379,
16_crc_timers.md R410, 17_otp_keys_lifecycle.md R426). -/

namespace Sys2Proof.Machine

/-- A bucket refills at RATE frames per second up to BURST frames, in units of 1 / 8,000,000 frame (R379). -/
def refill (rate burst bucket : Nat) : Nat := min (burst * 8000000) (bucket + rate)

/-- Every seat's bucket takes what one cycle brings. -/
def State.refillAll (s : State) : State :=
  { s with br := { s.br with seats := (List.range 8).foldl (fun (t : Tab Seat) k => Tab.upd Seat.init t k fun (x : Seat) =>
      { x with bucket := refill (s.reg (0x1100 + k) 5) (s.reg (0x1100 + k) 6) x.bucket }) s.br.seats } }

/-- Holdover goes on (R48). -/
def State.holdOn (s : State) : State :=
  if s.holdover then
    let f (l : LDie) : LDie := { l with tb := { l.tb with holdNs := l.tb.holdNs + 125 } }
    (s.updDie .a f).updDie .b f
  else s

/-- CK_TICK timers of a die that runs. -/
def State.tickTimers (s : State) (d : Die) : State := if s.ticking d then s.timerEdge d false else s

/-- The round clock runs in ACTIVE, at half speed in SLEEP, and stands while slices are suspended (R437, R442). -/
def State.roundOn (s : State) : State :=
  if s.slicesOn then { s with st := { s.st with ran := s.st.ran + (if s.modes.pwr = .sleep then 1 else 2) } } else s

/-- One CK_TICK cycle passes. The RTC runs on CK_BKP in SHELF as well. A program operation that the device still wants starts where one
may (R421). -/
def idle (s : State) : State :=
  let s1 := { s with time := s.time + 1, bkp := { s.bkp with rtc := if s.bkp.rtcOk then s.bkp.rtc + 1 else s.bkp.rtc } }
  if s1.modes.mode = .shelf then s1 else ((s1.holdOn.tickTimers .a).tickTimers .b).refillAll.roundOn.otpNext

end Sys2Proof.Machine
end

