-- ==== Sys2Proof/Safety.lean ====
section
/-! DEFINITION. The words that claims about the block are made with: memories in canonical form, latched fault bits, a command at the
front of the queue, a session of a seat. -/

namespace Sys2Proof.Machine

/-- The addressed memories outside the journals (ring-entry regions, the Pattern slots of both flashes, update staging, the firmware slots
of both flashes) are in canonical form. -/
def State.canonical (s : State) : Prop :=
  (Mem.wf s.rings.mem0 = true ∧ Mem.wf s.rings.mem1 = true)
  ∧ (Mem.wf s.pat.fa.s0.img = true ∧ Mem.wf s.pat.fa.s1.img = true)
  ∧ (Mem.wf s.pat.fb.s0.img = true ∧ Mem.wf s.pat.fb.s1.img = true)
  ∧ Mem.wf s.upd.data = true ∧ (Mem.wf s.upd.fwA.s0 = true ∧ Mem.wf s.upd.fwA.s1 = true) ∧ (Mem.wf s.upd.fwB.s0 = true ∧ Mem.wf s.upd.fwB.s1 = true)

/-- The journals of both dies are in canonical form. -/
def State.journalsCanonical (s : State) : Prop := Mem.wf s.a.jrn.mem = true ∧ Mem.wf s.b.jrn.mem = true

/-- FSW bit `b` is set (R292). -/
def State.fswBit (s : State) (b : Nat) : Bool := s.flt.fsw.getLsbD b

/-- The reserved positions of FSW (Table 11-1): 29, 43, 61 to 63. -/
def reservedBits : BitVec 64 := 0xE000080020000000#64

/-- The state with command `c` at the front of the queue. -/
def State.front (s : State) (c : Instr) : State := { s with pending := c :: s.pending }

/-- Bridle serves writes in the mode of the state (R384): not in SHELF, BOOT or the lifecycle VOID. -/
def State.open_ (s : State) : Prop := s.modes.mode ≠ .shelf ∧ s.serves = true

/-- How a data command is answered (R362, Table 14-6): not at all in SHELF, MODE where nothing is served, else the status of the first
condition of `l` that holds and nothing else; where none holds, `f` acts on the state whose status is OK. -/
def Checked (s : State) (c : Instr) (l : List (Bool × Status)) (f : State → State) : Prop :=
  (s.modes.mode = .shelf → exec c s = .next s)
  ∧ (s.modes.mode ≠ .shelf → s.serves = false → exec c s = .next (s.ans .mode))
  ∧ (s.open_ → ∀ l1 st l2, l = l1 ++ (true, st) :: l2 → (∀ x ∈ l1, x.1 = false) → exec c s = .next (s.ans st))
  ∧ (s.open_ → (∀ x ∈ l, x.1 = false) → exec c s = .next (f (s.ans .ok)))

end Sys2Proof.Machine

namespace Sys2Proof

/-- Commands at which a job can complete: with the last one of a replay a late commit follows (R157, R158). -/
def Instr.endsJob : Instr → Bool
  | .jobComplete _ _ => true
  | .connWatchdogExpire _ _ => true
  | .loneBudgetExpire _ _ => true
  | .discTimerExpire _ _ => true
  | .lockMismatchExpire _ _ => true
  | .muteTimeExpire _ _ => true
  | .overrideTimeExpire _ _ => true
  | .contactTExpire _ _ => true
  | .modeselDiscExpire _ _ => true
  | .edmTimeout _ _ => true
  | .timerPtExpire _ _ => true
  | .outsafeDlyExpire _ _ => true
  | .stdinStale _ _ => true
  | .streamLost _ _ => true
  | .stoFbTimeout _ _ => true
  | .ss1StopTimeout _ _ => true
  | .slsAdaptExpire _ _ => true
  | .brakeEngageExpire _ _ => true
  | .sbcFbTimeout _ _ => true
  | .sbtTestTimeout _ _ => true
  | .sbtIntervalExpire _ _ => true
  | .groupEngageExpire _ _ => true
  | .tensionFilterExpire _ _ => true
  | _ => false

/-- Commands at which the mode can change (R337); a commit ends an update that both dies agree on (R462). -/
def Instr.movesMode : Instr → Bool
  | .localisationRecordRx _ _ _ _ => true
  | .vinRise _ _ => true
  | .bootStepComplete => true
  | .resetNRelease => true
  | .powerDownStep => true
  | .modeRequestTake => true
  | .runEntry => true
  | .runRequestLapse => true
  | .safeEntryAfterStop => true
  | .safeEntry => true
  | .commitPoint _ => true
  | .readyRx _ _ => true
  | .replayRecordRx _ _ _ => true
  | .forwardedWriteRx _ _ _ => true
  | .write _ => true
  | .writeBlock _ => true
  | .writeApply => true
  | .flipDeferEnd => true
  | .testResp _ _ _ => true
  | c => c.endsJob

/-- Commands that can touch the Pattern store; a commit appends the change of a rein group to the change log (R261). -/
def Instr.movesPattern : Instr → Bool
  | .commitPoint _ => true
  | .readyRx _ _ => true
  | .localisationRecordRx _ _ _ _ => true
  | .replayRecordRx _ _ _ => true
  | .bootStepComplete => true
  | .powerDownStart => true
  | .powerDownStep => true
  | .modeRequestTake => true
  | .runEntry => true
  | .runRequestLapse => true
  | .safeEntryAfterStop => true
  | .safeEntry => true
  | .forwardedWriteRx _ _ _ => true
  | .write _ => true
  | .writeBlock _ => true
  | .writeApply => true
  | .patImage _ _ _ => true
  | .load _ => true
  | .discard _ => true
  | .patternCheckDone => true
  | .confirm _ _ => true
  | .changeLogCommit => true
  | .otpProgramDone _ => true
  | .testResp _ _ _ => true
  | c => c.endsJob

/-- Commands that can touch key slots or era records. -/
def Instr.movesKeys : Instr → Bool
  | .bootStepComplete => true
  | .bootStepTimeout => true
  | .powerDownStart => true
  | .powerDownStep => true
  | .forwardedWriteRx _ _ _ => true
  | .write _ => true
  | .writeBlock _ => true
  | .writeApply => true
  | .persistentWriteCommit => true
  | .otpProgramDone _ => true
  | .keyPut _ _ => true
  | .keyErase _ _ => true
  | .eraRecordWrite _ => true
  | .testResp _ _ _ => true
  | _ => false

end Sys2Proof
end

