-- ==== Sys2Proof/Certificates/Slice0/Obligations.lean ====
section
/-! DEFINITION. What the provers are asked to show of the model: for every family of commands what it does, what it leaves alone and
that it completes, and the invariants that every step keeps. -/

open Sys2Proof Sys2Proof.Machine

/-- A step takes the command at the front of the queue and answers what its meaning answers on the state with the rest of the queue.
The queue is the model's own form (log 5). -/
def Obligations.StepRunsFrontCommand : Prop :=
  ∀ (c : Instr) (s : State), step (s.front c) = exec c s

/-- No command takes, adds or reorders waiting commands (log 5). -/
def Obligations.QueueBelongsToTheSender : Prop :=
  ∀ (c : Instr) (s t : State), exec c s = .next t → t.pending = s.pending

/-- Every row of the table has an effect on every state; a command whose conditions do not hold changes nothing or is answered (log 1). -/
def Obligations.EveryCommandAnswersANextState : Prop :=
  (∀ (c : Instr) (s : State), ∃ t, exec c s = .next t) ∧ (∀ s : State, ∃ t, step s = .next t)

/-- What time does when no command waits (log 5): R426's RTC, R379's buckets, R410's timers on CK_TICK, R48's holdover, R442's
round clock; no event of the table. -/
def Obligations.EmptyQueueIsOneCycle : Prop :=
  (∀ s : State, s.pending = [] → s.modes.mode = .shelf →
    step s = .next { s with time := s.time + 1, bkp := { s.bkp with rtc := if s.bkp.rtcOk then s.bkp.rtc + 1 else s.bkp.rtc } })
  ∧ ∀ s : State, s.pending = [] → s.modes.mode ≠ .shelf → (∀ k, (s.timer k).ring = false) → s.otp.todo = [] → ∃ t,
    step s = .next t
    ∧ t.time = s.time + 1
    ∧ t.bkp = { s.bkp with rtc := if s.bkp.rtcOk then s.bkp.rtc + 1 else s.bkp.rtc }
    ∧ (∀ k : Fin 8, t.br.seat k.val =
        { (s.br.seat k.val) with
          bucket := min (s.reg (0x1100 + k.val) 6 * 8000000) ((s.br.seat k.val).bucket + s.reg (0x1100 + k.val) 5) })
    ∧ (∀ k : Fin 16, t.timer k.val =
        if s.ticking (if k.val < 8 then .a else .b) && (s.timer k.val).en && !(s.timer k.val).src then (s.timer k.val).edge.1
        else s.timer k.val)
    ∧ t.a = { s.a with tb := { s.a.tb with holdNs := t.a.tb.holdNs } } ∧ t.b = { s.b with tb := { s.b.tb with holdNs := t.b.tb.holdNs } }
    ∧ t.st = (if s.slicesOn then { s.st with ran := s.st.ran + (if s.modes.pwr = .sleep then 1 else 2) } else s.st)
    ∧ t = { s with time := t.time, bkp := t.bkp, br := { s.br with seats := t.br.seats }, tmr := t.tmr, a := t.a, b := t.b, st := t.st }

/-- The machine right after reset. SHELF as the reset state and the order code 884 are the model's choices (log 2 to 4); an undriven trip
line reads asserted (R21). -/
def Obligations.ResetIsShelf : Prop :=
  State.reset.modes.mode = .shelf ∧ State.reset.pow.pd = 1 ∧ State.reset.pow.en = 0
  ∧ State.reset.flt.fsw = 0 ∧ State.reset.flt.sec = 0 ∧ State.reset.tripLine .a = true ∧ State.reset.tripLine .b = true
  ∧ State.reset.pat.active = none ∧ State.reset.pat.state = 0 ∧ (∀ k, (State.reset.br.seat k).sess = none)
  ∧ State.reset.pending = [] ∧ State.reset.canonical ∧ State.reset.journalsCanonical
  ∧ (∀ a, State.reset.rings.mem0.read a = 0 ∧ State.reset.rings.mem1.read a = 0)
  ∧ (∀ n, n ≠ 2 → State.reset.otp.word n = .blank) ∧ State.reset.otp.word 2 = .data 884#32

/-- The register store: defaults at reset (the tables of entries; log 2), a read after a write, and no other entry changed. -/
def Obligations.EntriesResetToTheirDefaults : Prop :=
  (∀ i j, State.reset.reg i j = odDflt (odKey i j))
  ∧ State.reset.reg 0x2001 0 = 3
  ∧ (∀ b : Fin 64, State.reset.cls b.val = classMins.getD b.val 0)
  ∧ ∀ (s : State) (i j v i' j' : Nat), j < 256 → j' < 256 →
      (s.setReg i j v).reg i' j' = if i' = i ∧ j' = j then v else s.reg i' j'

/-- The canonical form of the addressed memories is an invariant (log 8). -/
def Obligations.MemoriesStayCanonical : Prop :=
  ∀ s t : State, s.canonical → step s = .next t → t.canonical

/-- R417: a word that holds any 1 bit can never be programmed again. -/
def Obligations.ProgrammedOtpWordsArePermanent : Prop :=
  ∀ (s t : State) (n : Nat), step s = .next t → s.otp.word n ≠ .blank → t.otp.word n = s.otp.word n

/-- R401: the change log, in the flash region of each die, never wraps, never drops an entry, and is only appended to. -/
def Obligations.ChangeLogOnlyGrows : Prop :=
  ∀ s t : State, step s = .next t → s.pat.fa.log <+: t.pat.fa.log ∧ s.pat.fb.log <+: t.pat.fb.log

/-- R292: a set bit stays set until a clear removes it; reserved bits never set. -/
def Obligations.LatchedFaultBitsStay : Prop :=
  ∀ (c : Instr) (s t : State), (∀ seat mask, c ≠ .fswClr seat mask) → c ≠ .writeApply → c ≠ .powerDownStep → exec c s = .next t →
    (∀ b, s.fswBit b = true → t.fswBit b = true) ∧ (s.flt.fsw &&& reservedBits = 0 → t.flt.fsw &&& reservedBits = 0)

/-- The laws of the addressed memories and of a journal's memory (R397; log 8). -/
def Obligations.MemoryReadsWhatWasWritten : Prop :=
  (∀ (m : Mem) (a : Nat) (b : Byte), (m.write a b).read a = b ∧ ∀ x, x ≠ a → (m.write a b).read x = m.read x)
  ∧ (∀ (m : Mem) (a : Nat) (bs : List Byte),
      (∀ i, (h : i < bs.length) → (m.writeL a bs).read (a + i) = bs[i])
      ∧ ∀ x, (x < a ∨ a + bs.length ≤ x) → (m.writeL a bs).read x = m.read x)
  ∧ (∀ (m : Mem) (a n : Nat) (bs : List Byte), m.wf = true → (m.writeL a bs).wf = true ∧ (m.clear a n).wf = true)
  ∧ ∀ (order span rtc typ : Nat) (j : Journal) (body : List Byte), j.mem.wf = true →
      (j.write order span rtc typ body).mem.wf = true ∧ (j.flush order).mem.wf = true
      ∧ (j.add span rtc typ body).mem = j.mem ∧ j.stop.mem = j.mem

/-- R292, R293, R307: where an error goes. Bits 48 to 51 latch through the cause word of their F-die (R210). -/
def Obligations.FaultLatchSetsItsBit : Prop :=
  (∀ (s : State) (b : Fin 64), (s.modes.mode = .shelf ∨ fswPresent s.order b.val = false) → exec (.faultLatch b) s = .next s)
  ∧ (∀ (s : State) (b : Fin 64), s.modes.mode ≠ .shelf → fswPresent s.order b.val = true → s.diverted b.val = false →
      ¬ (48 ≤ b.val ∧ b.val ≤ 51 ∧ bitAt (s.fdie (b.val - 48)).causes 4 = true) →
      ∃ t, exec (.faultLatch b) s = .next t ∧ t.fswBit b.val = true)
  ∧ (∀ (s : State) (b : Fin 64), s.modes.mode ≠ .shelf → fswPresent s.order b.val = true →
      b.val ∉ [2, 18, 6, 22, 8, 24, 11, 27, 12, 28, 44, 45, 46, 47, 48, 49, 50, 51, 52] → ∃ t, exec (.faultLatch b) s = .next t
      ∧ t.clk = s.clk ∧ t.pers = s.pers ∧ t.tmr = s.tmr ∧ t.keys = s.keys ∧ t.pat = s.pat ∧ t.bkp = s.bkp
      ∧ t.st = { s.st with granA := t.st.granA, granB := t.st.granB }
      ∧ (s.diverted b.val = true → t.flt.f1 = s.flt.f1 ∧ t.flt.f2 = s.flt.f2 ∧ t.flt.sec.getLsbD b.val = true ∧ t.modes = s.modes
          ∧ t.fd = s.fd ∧ t.pow = s.pow ∧ t.flt.c2A = s.flt.c2A ∧ t.flt.c2B = s.flt.c2B ∧ t.flt.c3 = s.flt.c3
          ∧ t.tripLine .a = s.tripLine .a ∧ t.tripLine .b = s.tripLine .b))

/-- Table 11-2 with R295 to R299, for the errors that reset nothing. -/
def Obligations.ReactionFollowsTheClass : Prop :=
  ∀ (s : State) (b : Fin 64), s.modes.mode ≠ .shelf → fswPresent s.order b.val = true → s.fswBit b.val = false → s.diverted b.val = false →
    b.val ∉ [2, 18, 6, 22, 8, 24, 11, 27, 12, 28, 44, 45, 46, 47, 48, 49, 50, 51, 52] →
    let s0 := if standingBits.contains b.val then s.causeOn b.val else s
    let s1 := if s.flt.fsw = 0 then ((s0.setReg 0x3003 1 (2 ^ b.val)).setReg 0x3003 2 s.spanNo).setReg 0x3003 3 s.rtcMs
      else if s.flt.firstAt = some s.time then s0.setReg 0x3003 1 (s.reg 0x3003 1 ||| 2 ^ b.val) else s0
    let s2 := { s1 with flt := { s1.flt with
      f1 := setBit64 s1.flt.f1 b.val, f2 := setBit64 s1.flt.f2 b.val, latchAt := s1.flt.stamped s.time b.val
      firstAt := if s.flt.fsw = 0 then some s.time else s.flt.firstAt } }
    let s3 := s2.event2 1 [BitVec.ofNat 8 b.val, 0]
    (s3.cls b.val ≤ 1 → exec (.faultLatch b) s = .next s3)
    ∧ (s3.cls b.val = 2 → exec (.faultLatch b) s = .next { s3 with flt := s3.flt.addC2 s3.time (s3.zonesOfBit b.val) })
    ∧ (s3.cls b.val = 3 → ∃ t, exec (.faultLatch b) s = .next t ∧ t.tripLine .a = true ∧ t.tripLine .b = true
        ∧ (∀ f : Fin 4, (t.fdie f.val).a.closed = 0 ∧ (t.fdie f.val).b.closed = 0 ∧ (t.fdie f.val).a.trip = true ∧ (t.fdie f.val).b.trip = true)
        ∧ (s.modes.mode = .boot → t.pow.c3Boot = true)
        ∧ (s.modes.mode ≠ .boot → t.flt.frozen.getLsbD b.val = true))
    ∧ (s3.cls b.val = 4 → exec (.faultLatch b) s = .next ((s3.reactC3 b.val).fenceOf b.val))

/-- R302, R303. -/
def Obligations.ClearsFollowRightsAndCauses : Prop :=
  (∀ (s : State) (seat : Fin 8) (mask : Nat),
    (s.modes.mode = .shelf → exec (.fswClr seat mask) s = .next s ∧ exec (.fswSecClr seat mask) s = .next s)
    ∧ (s.modes.mode = .boot → exec (.fswClr seat mask) s = .next (s.ans .mode) ∧ exec (.fswSecClr seat mask) s = .next (s.ans .mode)))
  ∧ ∀ (s : State) (seat : Fin 8) (mask : Nat), s.open_ → mask < 2 ^ 64 →
    ((∃ b, b < 64 ∧ bitAt mask b = true ∧ ¬ (s.cls b ≤ 1 ∨ s.owner seat.val = true
          ∨ (s.cls b = 2 ∧ ∀ z ∈ s.zonesOfBit b, s.ownsZone seat.val z = true))) →
      exec (.fswClr seat mask) s = .next (s.ans .rights) ∧ exec (.fswSecClr seat mask) s = .next (s.ans .rights))
    ∧ ((∀ b, b < 64 → bitAt mask b = true → s.cls b ≤ 1 ∨ s.owner seat.val = true
          ∨ (s.cls b = 2 ∧ ∀ z ∈ s.zonesOfBit b, s.ownsZone seat.val z = true)) →
      (∃ t, exec (.fswClr seat mask) s = .next t
        ∧ (∀ b, b < 64 → t.fswBit b = (s.fswBit b && !(bitAt mask b && !s.flt.cause.getLsbD b && decide (Tab.get none s.flt.latchAt b ≠ some s.time))))
        ∧ t.flt.sec = s.flt.sec ∧ t.flt.cause = s.flt.cause ∧ t.modes = s.modes ∧ t.flt.die = s.flt.die ∧ t.flt.shadows = s.flt.shadows
        ∧ (∀ d, t.tripLine d = s.tripLine d) ∧ t.otp = s.otp ∧ t.rings = s.rings ∧ t.pat = s.pat ∧ t.fd = s.fd ∧ t.pow = s.pow)
      ∧ ∃ t, exec (.fswSecClr seat mask) s = .next t
        ∧ (∀ b, b < 64 → t.flt.sec.getLsbD b = (s.flt.sec.getLsbD b && !(bitAt mask b && !s.flt.cause.getLsbD b && decide (Tab.get none s.flt.secAt b ≠ some s.time))))
        ∧ t.flt.f1 = s.flt.f1 ∧ t.flt.f2 = s.flt.f2 ∧ t.flt.cause = s.flt.cause ∧ t.modes = s.modes ∧ t.flt.die = s.flt.die
        ∧ t.flt.shadows = s.flt.shadows ∧ (∀ d, t.tripLine d = s.tripLine d) ∧ t.otp = s.otp ∧ t.rings = s.rings ∧ t.pat = s.pat
        ∧ t.fd = s.fd ∧ t.pow = s.pow ∧ t.clk = s.clk)

/-- R307, Table 11-4, R325. -/
def Obligations.ShadowEndReleasesItsDependants : Prop :=
  (∀ (s : State) (x : Shadow), s.flt.shadows = [x] → x.complete = true →
      (∀ b, b < 64 → x.mask.getLsbD b = true → s.flt.cause.getLsbD b = true → s.fswBit b = true) →
      exec (.shadowEnd x.blk) s = .next { s with flt := { s.flt with shadows := [] } })
  ∧ (∀ (s : State) (x : Shadow) (b : Nat), s.flt.shadows = [x] → x.complete = true → b ≠ 57 → fswPresent s.order b = true →
      x.mask.getLsbD b = true → s.flt.cause.getLsbD b = true → s.fswBit b = false →
      (∀ c, c < 64 → c ≠ b → x.mask.getLsbD c = true → s.flt.cause.getLsbD c = true → s.fswBit c = true) →
      ∃ t, exec (.shadowEnd x.blk) s = .next t ∧ t.fswBit b = true)
  ∧ (∀ (s : State) (x : Shadow) (b : Nat), s.flt.shadows = [x] → x.complete = false → blkBit x.blk = some b → fswPresent s.order b = true →
      (∀ c, c < 64 → x.mask.getLsbD c = true → s.flt.cause.getLsbD c = true → s.fswBit c = true) →
      ∃ t, exec (.shadowEnd x.blk) s = .next t ∧ t.fswBit b = true)
  ∧ (∀ (s : State) (d : Die) (c : Fin 8),
      exec (.blockResetComplete .stitch) s = .next { s with flt := s.flt.shadowDone .stitch }
      ∧ exec (.blockResetComplete (.mac d)) s = .next (({ s with flt := s.flt.shadowDone (.mac d) } : State).updDie d
          fun l => { l with net := { l.net with macReset := false } })
      ∧ exec (.blockResetComplete (.mgmt d)) s = .next (({ s with flt := s.flt.shadowDone (.mgmt d) } : State).updDie d
          fun l => { l with mgmt := if l.mgmt == .restarting then .serving else l.mgmt })
      ∧ exec (.blockResetComplete (.memPort d)) s = .next (({ s with flt := s.flt.shadowDone (.memPort d) } : State).causeOff (46 + d.n))
      ∧ exec (.blockResetComplete (.crcCh d c)) s = .next { s with
          flt := s.flt.shadowDone (.crcCh d c)
          crc := Tab.upd CrcCh.init s.crc (8 * d.n + c.val) fun (x : CrcCh) => { x with busy := false } }
      ∧ exec (.blockResetComplete (.lDie d)) s = .next s ∧ exec (.blockResetComplete .mDie) s = .next s
      ∧ ∃ t, exec (.blockResetComplete (.fldPort d)) s = .next t ∧ t.flt.shadows = (s.flt.shadowDone (.fldPort d)).shadows
        ∧ t.clk.down = s.clk.down &&& ~~~domainSet [15, 16] ∧ t.flt.f1 = s.flt.f1 ∧ t.flt.f2 = s.flt.f2 ∧ t.modes = s.modes
        ∧ t.fd = s.fd ∧ t.pow = s.pow ∧ t.pat = s.pat)

/-- R31 to R35. -/
def Obligations.LeasesPassInOrder : Prop :=
  (∀ (s : State) (res party : Nat), res < 7 → party < leaseParties res → (s.lease res).holder ≠ some party →
      (s.lease res).queue.contains party = false →
      ((s.lease res).holder = none → exec (.leaseRequest res party) s =
        .next (s.setLease res { (s.lease res) with holder := some party, since := s.time }))
      ∧ ((s.lease res).holder ≠ none → exec (.leaseRequest res party) s =
          .next (s.setLease res { (s.lease res) with queue := (s.lease res).queue ++ [party] })))
  ∧ (∀ (s : State) (res party : Nat), (s.lease res).holder = some party →
      ((s.lease res).queue = [] → s.time < (s.lease res).since + 64 →
        exec (.leaseRenew res party) s = .next (s.setLease res { (s.lease res) with since := s.time }))
      ∧ ((s.lease res).queue ≠ [] → exec (.leaseRenew res party) s = .next s))
  ∧ (∀ (s : State) (res party : Nat), (s.lease res).holder = some party → s.leaseOut res party = false →
      (res ≤ 3 ∨ (res = 4 ∧ s.otp.todo = []) ∨ (s.lease res).queue = [] ∧ res ≠ 4) →
      exec (.leaseRelease res party) s = .next (s.setLease res { holder := (s.lease res).queue.head?, queue := (s.lease res).queue.tail
                                                                 since := s.time, rel := some (party, (s.lease res).since, s.time) }))
  ∧ (∀ (s : State) (res party : Nat), (s.lease res).holder = some party → (s.lease res).rel = none →
      let t := { (s.lease res) with holder := (s.lease res).queue.head?, queue := (s.lease res).queue.tail, since := s.time }
      (s.time < (s.lease res).since + 64 → exec (.leaseExpire res) s = .next s)
      ∧ ((s.lease res).since + 64 ≤ s.time → s.leaseOut res party = false →
          (3 < res → (res = 4 → s.otp.todo = []) → (res ≠ 4 → (s.lease res).queue = []) → exec (.leaseExpire res) s = .next (s.setLease res t))
          ∧ (res ≤ 3 → s.free.1 % 2 = 0 → exec (.leaseExpire res) s = .next (s.free.2.setLease res t)))
      ∧ ((s.lease res).since + 64 ≤ s.time → s.leaseOut res party = true → s.diverted 58 = false →
          ∃ t, exec (.leaseExpire res) s = .next t ∧ t.fswBit 58 = true))
  ∧ (∀ (s : State) (res p g : Nat), (s.lease res).rel = some (p, g, s.time) → g + 64 ≤ s.time →
      exec (.leaseExpire res) s = .next ((s.setLease res { (s.lease res) with rel := none }).latch 58))
  ∧ ∀ (s : State) (res k : Nat) (l : Lease), ((s.setLease res l).lease k) = if k = res then l else s.lease k

/-- R300, R310, R311. -/
def Obligations.ReadmissionAndGirthWatchdog : Prop :=
  (∀ (s : State) (d : Die), s.dieSt d.n = 1 → (s.flt.rd d).step = 1 → s.dead d = false → exec (.readmitPowerRestore d) s = .next { s with
      pow := { s.pow with pd := s.pow.pd ||| (if d = .a then 0x30 else 0x600) }
      flt := { (s.flt.setRd d { (s.flt.rd d) with step := 2 }) with
        die := Tab.set 0 (s.flt.setRd d { (s.flt.rd d) with step := 2 }).die d.n 2 } })
  ∧ (∀ (s : State) (d : Die), s.dieSt d.n = 2 → (s.flt.rd d).step = 2 → exec (.readmitBootDone d true) s = .next
      (({ s with flt := s.flt.setRd d { (s.flt.rd d) with step := 3 } } : State).setDie d { (s.die d) with mgmt := .serving }))
  ∧ (∀ (s : State) (d : Die),
      let failed (t : State) : Prop := t.dieSt d.n = 3 ∧ t.reg (0x3030 + d.n) 3 = satInc 32 (s.reg (0x3030 + d.n) 3)
        ∧ t.flt.shadowOf (.lDie d) = false ∧ t.die d.peer = s.die d.peer ∧ t.modes = s.modes ∧ t.flt.f1 = s.flt.f1 ∧ t.flt.f2 = s.flt.f2
        ∧ t.pow = s.pow ∧ t.fd = s.fd ∧ t.otp = s.otp ∧ t.pat = s.pat;
      (s.dieSt d.n = 2 → (s.flt.rd d).step = 2 → ∃ t, exec (.readmitBootDone d false) s = .next t ∧ failed t)
      ∧ ((s.dieSt d.n = 1 ∨ s.dieSt d.n = 2) → s.dead d = false → ∃ t, exec (.readmitTimeout d) s = .next t ∧ failed t))
  ∧ (∀ s : State, s.dieSt 2 = 1 → ∃ t, exec .mdieReadmit s = .next t ∧ t.dieSt 2 = 0 ∧ t.rings.log = s.rings.log ∧ t.rings.mem0 = []
      ∧ (∀ x ∈ t.flt.shadows, x.blk = .mDie → x.complete = true) ∧ t.reg 0x3032 4 = s.rtcMs ∧ t.reg 0x3032 2 = satInc 32 (s.reg 0x3032 2)
      ∧ t.flt.f1 = s.flt.f1 ∧ t.flt.f2 = s.flt.f2 ∧ t.modes = s.modes ∧ t.otp = s.otp ∧ t.pat = s.pat ∧ t.fd = s.fd)
  ∧ (∀ (s : State) (word : Nat), exec (.girthChallenge word) s = .next { s with flt := { s.flt with
      girthA := if s.girthOn .a then some (word % 2 ^ 32) else none, girthB := if s.girthOn .b then some (word % 2 ^ 32) else none
      girthFail := 0 } })
  ∧ (∀ (s : State) (d : Die) (w : Nat), s.flt.girth d = some w →
      exec (.girthResponseRx d (crc32c (leBytes 4 w ++ [BitVec.ofNat 8 d.n] ++ leBytes 4 ((s.pat.active.map fun p => p.sig32).getD 0)))) s
        = .next { s with flt := s.flt.girthOff d })
  ∧ ∀ (s : State) (d : Die), s.girthOn d = true → s.flt.shadows = [] →
      (∃ t, exec (.girthHeartbeatTimeout d) s = .next t ∧ t.fswBit 57 = true)
      ∧ (∀ w, s.flt.girth d = some w → ∃ t, exec (.girthResponseTimeout d) s = .next t ∧ t.fswBit 57 = true)
      ∧ ∀ w v, s.flt.girth d = some w → v ≠ s.girthWant d w → ∃ t, exec (.girthResponseRx d v) s = .next t ∧ t.fswBit 57 = true

/-- R128, R305. -/
def Obligations.RemoteResetsAndStdinValues : Prop :=
  (∀ (s : State) (seat : Fin 8) (z : Fin 64) (r : ZoneRec) (v : Nat), s.open_ → s.modes.act = none → s.zoneRec z.val = some r →
      (r.remoteRst = 1 → r.seat = seat.val → v = s.lockCnt z.val → exec (.zoneRrst seat z v) s = .next { (s.ans .ok) with
        remote := Tab.upd [] s.remote z.val fun (l : List (Nat × Nat)) => l ++ [(s.applySpan, s.nowNs s.srv)] })
      ∧ ((r.remoteRst ≠ 1 ∨ r.seat ≠ seat.val) → exec (.zoneRrst seat z v) s = .next ((s.ans .rights).setReg (0x3040 + z.val) 3 5))
      ∧ (r.remoteRst = 1 → r.seat = seat.val → v ≠ s.lockCnt z.val →
          exec (.zoneRrst seat z v) s = .next ((s.ans .range).setReg (0x3040 + z.val) 3 6)))
  ∧ ∀ (s : State) (seat : Fin 8) (slot : Fin 256) (p : Pattern) (own : Nat) (ty : Ty) (v : Nat), s.open_ → s.modes.act = none →
      s.pattern = some p → Pattern.stdinOf p slot.val = some (own, ty) →
      (∀ i, own = seat.val → inContainer ty v = some i → exec (.stdinVal seat slot v) s = .next { (s.ans .ok) with
        stdin := Tab.upd [] s.stdin slot.val fun (l : List (Int × Nat)) => l ++ [(i, s.applySpan)] })
      ∧ (own ≠ seat.val → exec (.stdinVal seat slot v) s = .next (s.ans .rights))
      ∧ (own = seat.val → inContainer ty v = none → exec (.stdinVal seat slot v) s = .next (s.ans .range))

/-- R337, R344 step 1, R347, R474. -/
def Obligations.SupplyStartsBoot : Prop :=
  (∀ (s : State),
      let boots (mv strap : Nat) (t : State) : Prop := t.modes.mode = .boot ∧ t.pow.bootStep = 1 ∧ t.pow.pd.getLsbD 1 = true
        ∧ t.pow.fails = 0 ∧ t.pow.vinMv = mv ∧ t.pow.strapMv = strap ∧ t.pow.resetLow = false ∧ t.pow.en = s.pow.en
        ∧ t.modes.spanK = s.reg 0x2001 0 ∧ t.modes.tickOfs = s.reg 0x2002 0 ∧ t.modes.tbMode = s.reg 0x2003 0
        ∧ t.modes.ovrTol = s.reg 0x2004 0
        ∧ t.reg 0x2010 3 = (s.oscMode strap).1 ∧ t.reg 0x2010 1 = (s.oscMode strap).2.1 ∧ t.reg 0x2010 2 = (s.oscMode strap).2.2
        ∧ (∀ k, k ≠ odKey 0x2031 6 → k ≠ odKey 0x2010 1 → k ≠ odKey 0x2010 2 → k ≠ odKey 0x2010 3 →
            Regs.get t.regs k = Regs.get s.regs k)
        ∧ t = { s with modes := t.modes, pow := t.pow, clk := t.clk, regs := t.regs, freeCtr := s.freeCtr + 2 };
      s.modes.mode = .shelf →
      (∀ mv strap, s.pow.resetLow = false → 19200 ≤ mv → ∃ t, exec (.vinRise mv strap) s = .next t ∧ boots mv strap t)
      ∧ (s.pow.resetLow = true → 19200 ≤ s.pow.vinMv → ∃ t, exec .resetNRelease s = .next t ∧ boots s.pow.vinMv s.pow.strapMv t))
  ∧ (∀ s : State, (s.modes.mode = .shelf ∨ s.pow.off = true) → exec .resetNLow s = .next { s with pow := { s.pow with resetLow := true } })
  ∧ (∀ s : State, (s.pow.resetLow = false ∨ s.modes.mode ≠ .shelf ∨ s.pow.vinMv < 19200) →
      exec .resetNRelease s = .next { s with pow := { s.pow with resetLow := false } })
  ∧ (∀ s : State, s.modes.mode ≠ .shelf → s.pow.off = false → ∃ t, exec .resetNLow s = .next t ∧ t.tripLine .a = true ∧ t.tripLine .b = true
      ∧ (s.flt.shadows = [] → s.upd.state < 4 → t.fswBit 56 = true))

/-- R344, R345, R337. -/
def Obligations.BootRunsItsSteps : Prop :=
  (∀ (s : State) (k : Nat), s.modes.mode = .boot → s.pow.bootStep = k → 1 ≤ k → k ≤ 9 → s.pow.retry = false → s.pow.held = false →
      s.pow.off = false → s.modes.wait = none → (k = 3 → s.otp.op = none ∧ s.lcFinish = false) →
      (k = 4 → s.clk.refA.st = .passed ∧ s.clk.refB.st = .passed) → (k = 6 → s.a.link.lanes % 16 = 15 ∧ s.b.link.lanes % 16 = 15) →
      ∃ t, exec .bootStepComplete s = .next t ∧ t.modes.mode = .boot ∧ t.pow.bootStep = nextStep s.order k
        ∧ (k ≤ 8 → (k = 3 → s.bkp.lost = false) → ∀ i, s.pow.en.getLsbD i = true → t.pow.en.getLsbD i = true)
        ∧ (∀ i ∈ (match nextStep s.order k with
            | 2 => [0] | 3 => [1] | 4 => [2, 3] | 7 => [4] | 8 => [5, 6] | 9 => [7] | _ => []), t.pow.en.getLsbD i = true)
        ∧ (∀ i ∈ (match nextStep s.order k with
            | 3 => [2, 3] | 5 => [4, 5, 7, 9, 10, 12] | 6 => [19] | 7 => [13, 14] | 8 => [6, 11] | _ => []), t.pow.pd.getLsbD i = true))
  ∧ (∀ s : State, s.modes.mode = .boot → s.pow.bootStep = 10 → s.pow.retry = false → s.pow.held = false → s.pow.off = false →
      s.modes.wait = none → s.keys.eraPend = none → ∃ t, exec .bootStepComplete s = .next t ∧ t.pow.bootStep = 0
        ∧ (s.pow.c3Boot = true → t.modes.mode = .safe)
        ∧ (t.modes.mode = .safe ∨ t.modes.mode = .configure ∨ (t.modes.mode = .boot ∧ t.modes.wait.isSome = true))
        ∧ t.bkp = s.bkp ∧ t.otp = s.otp ∧ t.keys = s.keys)
  ∧ (∀ s : State, s.modes.mode = .boot → 1 ≤ s.pow.bootStep → s.pow.retry = false → s.pow.held = false → s.modes.wait = none →
      ∃ t, exec .bootStepTimeout s = .next t ∧ t.a = .init ∧ t.b = .init ∧ t.fd = []
        ∧ (s.flt.shadows = [] → t.fswBit 35 = true) ∧ t.pers = s.pers ∧ t.pat = s.pat ∧ t.bkp = s.bkp
        ∧ (s.pow.fails < 2 → t.pow.en = 0 ∧ t.pow.retry = true ∧ t.pow.held = false ∧ t.pow.fails = s.pow.fails + 1)
        ∧ (2 ≤ s.pow.fails → t.pow.en &&& 0xFC = 0 ∧ t.pow.retry = false ∧ t.pow.held = true))
  ∧ ∀ s : State, s.modes.mode = .boot → s.pow.retry = true →
      exec .bootRetry s = .next { s with pow := { s.pow with retry := false, bootStep := 2, en := s.pow.en ||| 1 } }

/-- R349. -/
def Obligations.PowerFailIsLatchedAndRecorded : Prop :=
  (∀ (s : State) (mv : Nat), s.modes.mode ≠ .shelf → s.pfw = false → mv < 17900 → ∃ t, exec (.pfwLatch mv) s = .next t
      ∧ t.pow.rails.getLsbD 7 = true ∧ t.pow.vinMv = mv ∧ t.pow.pfwAt = s.time ∧ t.pow.recA = s.pow.recA ∧ t.pow.recB = s.pow.recB
      ∧ (s.diverted 41 = false → t.fswBit 41 = true) ∧ t.pers = s.pers ∧ t.pat = s.pat ∧ t.keys = s.keys ∧ t.tmr = s.tmr ∧ t.clk = s.clk)
  ∧ (∀ (s : State) (mv : Nat), (s.modes.mode = .shelf ∨ s.pfw = true ∨ 17900 ≤ mv) → exec (.pfwLatch mv) s = .next s)
  ∧ (∀ (s : State) (r : PfRec),
      (s.pow.pfA = .writing r → exec (.powerFailRecordDone .a) s = .next { s with pow := { s.pow with pfA := .done, recA := some r } })
      ∧ (s.pow.pfB = .writing r → exec (.powerFailRecordDone .b) s = .next { s with pow := { s.pow with pfB := .done, recB := some r } }))
  ∧ (∀ s : State, ((∀ r, s.pow.pfA ≠ .writing r) → exec (.powerFailRecordDone .a) s = .next s)
      ∧ ((∀ r, s.pow.pfB ≠ .writing r) → exec (.powerFailRecordDone .b) s = .next s))
  ∧ (∀ (s : State) (mv : Nat), s.pfw = true → 17600 ≤ mv → ∃ t, exec (.pfwClear mv) s = .next t
      ∧ t.pow = { s.pow with rails := s.pow.rails &&& ~~~((1 : BitVec 13) <<< 7), vinMv := mv }
      ∧ t.flt = { s.flt with cause := clrBit64 s.flt.cause 41 } ∧ t.reg 0x2031 6 = mv
      ∧ t = { s with pow := t.pow, flt := t.flt, regs := t.regs, otp := t.otp, leases := t.leases })
  ∧ ∀ (s : State) (mv : Nat), (s.pfw = false ∨ mv < 17600) → exec (.pfwClear mv) s = .next s

/-- R337: the events that can move the device from one mode to another. -/
def Obligations.ModeChangesOnlyAtModeEvents : Prop :=
  ∀ (c : Instr) (s t : State), c.movesMode = false → exec c s = .next t → t.modes.mode = s.modes.mode

/-- Which commands can touch the stores that outlive a mode. -/
def Obligations.StoresChangeOnlyByTheirCommands : Prop :=
  ∀ (c : Instr) (s t : State), c ≠ .powerDownStart → c ≠ .powerDownStep → exec c s = .next t →
    (c ≠ .persistentWriteCommit → t.pers = s.pers) ∧ t.order = s.order
    ∧ (c.movesPattern = false → t.pat = s.pat) ∧ (c.movesKeys = false → t.keys = s.keys)

/-- R347, R337. -/
def Obligations.PowerDownFollowsItsSteps : Prop :=
  (∀ (s : State) (mv : Nat), s.modes.mode ≠ .shelf → s.pow.off = false → mv < 15300 → ∃ t, exec (.vinOff mv) s = .next t
      ∧ t.pow.off = true ∧ t.pow.vinMv = mv ∧ t.pow.rails.getLsbD 5 = true ∧ t.tripLine .a = true ∧ t.tripLine .b = true
      ∧ (s.flt.shadows = [] → (s.upd.state < 4 ∨ 6 < s.upd.state) → t.fswBit 56 = true))
  ∧ (∀ (s : State) (mv : Nat), (s.modes.mode = .shelf ∨ s.pow.off = true ∨ 15300 ≤ mv) → exec (.vinOff mv) s = .next s)
  ∧ (∀ s : State,
      let lowered (k : Nat) (t : State) : Prop := t.pow.down = k + 1 ∧ t = { s with pow := t.pow, fd := t.fd, a := t.a, b := t.b }
        ∧ (∀ i ∈ (match k with | 1 => [7] | 2 => [5, 6] | 3 => [4] | 4 => [2, 3] | _ => [1]), t.pow.en.getLsbD i = false)
        ∧ (∀ i ∈ (match k with | 1 => [15, 16, 17, 18] | 2 => [6, 11] | 3 => [13, 14] | 4 => [4, 5, 7, 8, 9, 10, 12, 19] | _ => [2, 3]),
            t.pow.pd.getLsbD i = false)
        ∧ (k = 1 → t.fd = []) ∧ (k ≠ 1 → t.fd = s.fd) ∧ (k = 4 → t.a = .init ∧ t.b = .init) ∧ (k ≠ 4 → t.a = s.a ∧ t.b = s.b);
      s.modes.mode ≠ .shelf → s.pow.off = true →
      (s.pow.down = 0 → ∃ t, exec .powerDownStart s = .next t ∧ lowered 1 t)
      ∧ (1 ≤ s.pow.down → s.pow.down ≤ 5 → ∃ t, exec .powerDownStep s = .next t ∧ lowered s.pow.down t))
  ∧ (∀ s : State, s.modes.mode ≠ .shelf → s.pow.off = true → 6 ≤ s.pow.down → ∃ t, exec .powerDownStep s = .next t
      ∧ t.modes = Modes.init ∧ t.pow.en = 0 ∧ t.pow.pd = 1 ∧ t.pow.off = false ∧ t.flt = State.reset.flt ∧ t.tmr = State.reset.tmr
      ∧ t.a = State.reset.a ∧ t.b = State.reset.b ∧ t.fd = State.reset.fd ∧ t.pers = s.pers ∧ t.bkp = s.bkp
      ∧ (s.otp.op = none → ∀ n, t.otp.word n = s.otp.word n) ∧ t.pat.active = s.pat.active ∧ t.pat.cand = s.pat.cand ∧ t.keys.a = s.keys.a ∧ t.keys.b = s.keys.b ∧ t.order = s.order)
  ∧ ∀ s : State, (s.modes.mode = .shelf ∨ s.pow.off = false →
        exec .powerDownStart s = .next s ∧ exec .powerDownStep s = .next s)
      ∧ (s.pow.down ≠ 0 → exec .powerDownStart s = .next s) ∧ (s.pow.down = 0 → exec .powerDownStep s = .next s)

/-- R337, R338, R341. -/
def Obligations.RequestsAreCheckedInOrder : Prop :=
  (∀ (s : State) (seat : Fin 8), s.open_ →
      let took (code : Nat) : Host.Outcome State Fault Refusal := .next { (s.ans .ok) with modes := { s.modes with req := some (code, seat.val) } };
      ((s.modes.req.isSome = true ∨ s.modes.wait.isSome = true) →
        exec (.modeReqConfigure seat) s = .next (s.ans .busy) ∧ exec (.modeReqRun seat) s = .next (s.ans .busy)
        ∧ exec (.modeReqSafe seat) s = .next (s.ans .busy) ∧ exec (.modeReqService seat) s = .next (s.ans .busy))
      ∧ (s.modes.req = none → s.modes.wait = none →
          (s.owner seat = false → exec (.modeReqSafe seat) s = .next (s.ans .rights)
            ∧ ((s.has seat 2 = false ∨ s.modes.mode ≠ .configure) → exec (.modeReqRun seat) s = .next (s.ans .rights))
            ∧ (s.has seat 2 = false → exec (.modeReqConfigure seat) s = .next (s.ans .rights)
                ∧ exec (.modeReqService seat) s = .next (s.ans .rights)))
          ∧ ((s.owner seat = true ∨ s.has seat 2 = true) →
            ((s.modes.mode = .safe ∨ (s.modes.mode = .service ∧ s.modes.act = none)) → exec (.modeReqConfigure seat) s = took 2)
            ∧ ((s.modes.mode = .configure ∨ s.modes.mode = .run ∨ (s.modes.mode = .service ∧ s.modes.act.isSome = true)) →
                exec (.modeReqConfigure seat) s = .next (s.ans .mode))
            ∧ (s.modes.mode = .configure → exec (.modeReqService seat) s = took 5)
            ∧ (s.modes.mode ≠ .configure → exec (.modeReqService seat) s = .next (s.ans .mode))
            ∧ (s.modes.mode = .configure → exec (.modeReqRun seat) s = took 3))
          ∧ (s.owner seat = true →
            (s.modes.mode = .safe → exec (.modeReqRun seat) s = took 3)
            ∧ ((s.modes.mode = .run ∨ s.modes.mode = .service) → exec (.modeReqRun seat) s = .next (s.ans .mode))
            ∧ ((s.modes.mode = .configure ∨ s.modes.mode = .run) → exec (.modeReqSafe seat) s = took 4)
            ∧ ((s.modes.mode = .safe ∨ s.modes.mode = .service) → exec (.modeReqSafe seat) s = .next (s.ans .mode)))))
  ∧ ∀ (s : State) (seat : Fin 8), s.open_ →
      let took (x : Pwr) : Host.Outcome State Fault Refusal := .next { (s.ans .ok) with modes := { s.modes with pwrReq := some x } };
      (s.owner seat = false → exec (.pwrReqActive seat) s = .next (s.ans .rights) ∧ exec (.pwrReqSleep seat) s = .next (s.ans .rights)
        ∧ exec (.pwrReqDeepSleep seat) s = .next (s.ans .rights))
      ∧ (s.owner seat = true →
          ((s.modes.mode = .safe ∨ s.modes.mode = .run) → exec (.pwrReqActive seat) s = took .active ∧ exec (.pwrReqSleep seat) s = took .sleep)
          ∧ (s.modes.mode = .safe → exec (.pwrReqDeepSleep seat) s = took .deepSleep)
          ∧ ((s.modes.mode = .configure ∨ s.modes.mode = .service) → exec (.pwrReqActive seat) s = .next (s.ans .mode)
              ∧ exec (.pwrReqSleep seat) s = .next (s.ans .mode))
          ∧ ((s.modes.mode = .configure ∨ s.modes.mode = .service ∨ s.modes.mode = .run) →
              exec (.pwrReqDeepSleep seat) s = .next (s.ans .mode)))

/-- R337, R338, R339, R340, R341. -/
def Obligations.TransitionsFollowTheModeTable : Prop :=
  (∀ s : State, (s.modes.req = none ∨ s.modes.stopping = true) → exec .modeRequestTake s = .next s)
  ∧ (∀ (s : State) (code seat : Nat), s.modes.req = some (code, seat) → s.modes.stopping = false → s.modes.mode ≠ .configure →
      (s.pow.scan = true → exec .modeRequestTake s = .next ({ s with modes := { s.modes with req := none } }.setReg 0x2022 0 9))
      ∧ (s.pow.scan = false → code = 2 → ∃ t, exec .modeRequestTake s = .next t ∧ t.modes.mode = .configure ∧ t.modes.req = none
          ∧ t.flt = s.flt ∧ t.pers = s.pers ∧ t.pat = s.pat)
      ∧ (s.pow.scan = false → code = 4 → s.modes.mode = .run →
          exec .modeRequestTake s = .next ({ s with modes := { s.modes with stopping := true } }.setReg 0x2022 0 0))
      ∧ (s.pow.scan = false → code = 3 → s.runWhy = 0 → ∃ t, exec .modeRequestTake s = .next t ∧ t.modes.mode = s.modes.mode
          ∧ t.modes.wait.isSome = true ∧ t.modes.req = none ∧ t.pow = s.pow ∧ t.flt = s.flt ∧ t.fd = s.fd)
      ∧ (s.pow.scan = false → code = 3 → s.runWhy ≠ 0 →
          exec .modeRequestTake s = .next ({ s with modes := { s.modes with req := none } }.setReg 0x2022 0 s.runWhy)))
  ∧ (∀ (s : State) (w : RunWait), s.modes.wait = some w →
      (s.waitOver w = false → exec .runEntry s = .next s)
      ∧ (s.waitOver w = true → ∃ t, exec .runEntry s = .next t ∧ t.modes.mode = (if w.service then .service else .run) ∧ t.modes.wait = none
          ∧ (w.service = false → s.pat.state = 2 → t.pat.active = s.pat.cand ∧ t.pat.cand = none)
          ∧ (w.service = true → t.pat.active = s.pat.active) ∧ t.flt = s.flt ∧ t.pers = s.pers))
  ∧ (∀ s : State, s.modes.wait = none → exec .runEntry s = .next s ∧ exec .runRequestLapse s = .next s)
  ∧ (∀ s : State, s.modes.wait.isSome = true →
      (s.modes.mode ≠ .boot → exec .runRequestLapse s = .next ({ s with modes := { s.modes with wait := none } }.setReg 0x2022 0 8))
      ∧ (s.modes.mode = .boot → ∃ t, exec .runRequestLapse s = .next t ∧ t.modes.mode = .safe ∧ t.modes.wait = none ∧ t.flt = s.flt))
  ∧ (∀ s : State, s.flt.c3 = .safe → (s.modes.mode = .run ∨ s.modes.mode = .configure ∨ s.modes.mode = .service) →
      ∃ t, exec .safeEntry s = .next t ∧ t.modes.mode = .safe ∧ t.flt.c3 = .none ∧ t.flt.fsw = s.flt.fsw ∧ t.pers = s.pers)
  ∧ (∀ s : State, s.flt.c3 ≠ .safe → exec .safeEntry s = .next s)
  ∧ (∀ s : State, s.modes.stopping = true → s.modes.mode = .run → (∃ p, s.pattern = some p ∧
        ∀ d, (s.die d).eng.com.allLocked p d = true ∨ s.admitted d = false) →
      ∃ t, exec .safeEntryAfterStop s = .next t ∧ t.modes.mode = .safe ∧ t.flt = s.flt ∧ t.pers = s.pers)
  ∧ (∀ s : State, (s.modes.stopping = false ∨ s.modes.mode ≠ .run) → exec .safeEntryAfterStop s = .next s)
  ∧ ∀ s : State, (s.modes.pwrReq = none → exec .powerStateChange s = .next s)
      ∧ ∀ x, s.modes.pwrReq = some x →
        (x = .deepSleep → s.modes.mode = .safe ∧ (s.modes.pwr = .deepSleep ∨ (s.spanNo + 1) % 2 ^ (7 - s.modes.spanK) = 0)) → ∃ t, exec .powerStateChange s = .next t
        ∧ t.modes = { s.modes with pwr := x, pwrReq := none } ∧ t.flt = s.flt ∧ t.otp = s.otp ∧ t.keys = s.keys ∧ t.pat = s.pat

/-- R40, R47, R52, R53, R79. -/
def Obligations.SpanRunsItsPhases : Prop :=
  (∀ (s : State) (d : Die) (meas : Nat), s.ticking d = false →
      exec (.tick ⟨d, meas⟩) s = .next s ∧ exec (.phaseAEnd d) s = .next s ∧ exec (.phaseEEnd d) s = .next s ∧ exec (.commitPoint d) s = .next s)
  ∧ (∀ (s : State) (d : Die), ((s.die d).tb.phase ≠ .a → exec (.phaseAEnd d) s = .next s)
      ∧ ((s.die d).tb.phase ≠ .e → exec (.phaseEEnd d) s = .next s))
  ∧ (∀ (s : State) (d : Die) (meas : Nat), s.ticking d = true → ∃ t, exec (.tick ⟨d, meas⟩) s = .next t
      ∧ t.pers = s.pers ∧ t.bkp = s.bkp ∧ t.keys = s.keys ∧ t.clk = s.clk ∧ t.pat = s.pat ∧ t.time = s.time
      ∧ (((s.die d).tb.steer = false ∨ 20000 * ((meas : Int) - (s.die d).tb.tspan).natAbs ≤ (s.die d).tb.tspan) →
          (∀ x ∈ (s.die d).eng.lanes, x.2 = .free ∨ x.2 = .spare ∨ ∃ i, x.2 = .busy i) →
          (∀ k, k < 8 → (s.timer (8 * d.n + k)).en = false ∨ (s.timer (8 * d.n + k)).src = false) →
          (t.die d).tb = s.nextTb d ∧ (t.die d).tb.phase = .a ∧ (t.die d).cur.opened = true ∧ (t.die d).cur.frozen = false
            ∧ (t.die d).cur.span = (s.nextTb d).spanNo ∧ (t.die d).cur.tickNs = (s.nextTb d).tickNs
            ∧ (t.die d.peer).tb = (s.die d.peer).tb))
  ∧ (∀ (s : State) (d : Die), s.ticking d = true → (s.die d).tb.phase = .a → ∃ t, exec (.phaseAEnd d) s = .next t
      ∧ t.pers = s.pers ∧ t.bkp = s.bkp ∧ t.keys = s.keys ∧ t.clk = s.clk
      ∧ (s.pattern = none → (∀ f ∈ s.fdies, bitAt (s.die d).cur.images f = true) → (∀ n, s.reg (0x4400 + n) 1 = 0) →
          t.pat = s.pat ∧ (t.die d).tb = { (s.die d).tb with phase := .e } ∧ (t.die d.peer).tb = (s.die d.peer).tb
          ∧ (t.die d).cur.frozen = true ∧ (t.die d).cur.span = (s.die d).cur.span ∧ (t.die d).cur.crc = crc32c (t.die d).cur.bytes
          ∧ ((Tab.get Snap.empty (s.die d).snap ((s.die d).cur.span % 8)).opened = true →
              (Tab.get Snap.empty (s.die d).snap ((s.die d).cur.span % 8)).span = (s.die d).cur.span →
              Tab.get Snap.empty (t.die d).snap ((s.die d).cur.span % 8) = (t.die d).cur)))
  ∧ ∀ (s : State) (d : Die), s.ticking d = true → (s.die d).tb.phase = .e →
      ((s.pattern = none ∨ s.evals d = false ∨ (∃ p, s.pattern = some p ∧ (s.die d).eng.complete p = true)) →
        exec (.phaseEEnd d) s = .next (s.updDie d fun l => { l with tb := { l.tb with phase := .c } }))
      ∧ (∀ p, s.pattern = some p → s.evals d = true → (s.die d).eng.complete p = false →
        exec (.phaseEEnd d) s = .next (s.updDie d fun l => { l with tb := { l.tb with phase := .el } }))

/-- R57, R75, R76, R153, R157. -/
def Obligations.DisagreementCommitsNothing : Prop :=
  (∀ (s : State) (d : Die) (lane : Fin 17), (s.pattern = none ∨ (s.die d).eng.active = false
        ∨ Tab.get LaneSt.free (s.die d).eng.lanes lane.val = .free) →
      exec (.jobComplete d lane) s = .next s ∧ exec (.laneError d lane) s = .next s)
  ∧ (∀ (s : State) (d : Die) (lane : Fin 17) (p : Pattern) (q : Nat), s.pattern = some p → (s.die d).eng.active = true →
      Tab.get LaneSt.free (s.die d).eng.lanes lane.val = .busy q → s.clk.swA.other = false → s.clk.swB.other = false →
      (∀ r, (s.die d).cmp.stage = .none → runJob (s.env d) p q = some r → ∃ t, exec (.jobComplete d lane) s = .next t
        ∧ t = (s.setDie d { (s.die d) with eng := { (s.die d).eng with
            lanes := Tab.set .free (s.die d).eng.lanes lane .free, done := (s.die d).eng.done ++ [(q, r)] } }).advance d p
        ∧ t = { s with a := t.a, b := t.b, regs := t.regs })
      ∧ ∃ t, exec (.laneError d lane) s = .next t ∧ t.pers = s.pers ∧ t.pat = s.pat ∧ t.bkp = s.bkp
        ∧ (q ∉ (s.die d).eng.errs → s.flt.shadows = [] → t.fswBit (dieBit d 0) = true))
  ∧ (∀ (s : State) (d : Die), (s.die d).tb.phase ∉ [Phase.e, .el, .c] → exec (.commitPoint d) s = .next s)
  ∧ (∀ (s : State) (d : Die) (p : Pattern), s.ticking d = true → (s.die d).tb.phase ∈ [Phase.e, .el, .c] → s.pattern = some p →
      s.evals d = true → s.upd.reboot = none → (s.die d).eng.complete p = true → (s.die d).eng.active = false →
      (s.die d).cmp.open_ = [] → (s.die d).cmp.diffs ≠ [] → (∀ r ∈ (s.die d).cmp.diffs, r.key.1 ≠ 0) → s.dueLocks d = [] →
      ∃ t, exec (.commitPoint d) s = .next t ∧ (t.die d).eng.com = (s.die d).eng.com ∧ (t.die d).tb.phase = .s
        ∧ (t.die d).cmp.stage = .full ∧ t.modes = s.modes ∧ t.fd = s.fd ∧ t.pow = s.pow ∧ t.flt = s.flt.takeLocks d s.time
        ∧ t.pers = s.pers ∧ t.pat = s.pat ∧ t.upd = s.upd)
  ∧ (∀ (s : State) (d : Die) (p : Pattern), s.ticking d = true → (s.die d).tb.phase ∈ [Phase.e, .el, .c] → s.pattern = some p →
      s.evals d = true → s.upd.reboot = none → (s.die d).eng.complete p = true → (s.die d).eng.active = false →
      (s.die d).cmp.open_ = [] → (s.die d).cmp.diffs = [] → (s.die d).cmp.readySent = true → (s.die d).cmp.readyRx = true → s.dueLocks d = [] →
      let n := (s.die d).tb.spanNo
      let u := { s with flt := s.flt.takeLocks d s.time }.updDie d fun l => { l with
        tb := { l.tb with phase := .s }, cmp := { l.cmp with overPrev := false, disagPrev := [] } }
      let w := (u.commitDie d p []).agreed d
      let t := w.granStart d n
      exec (.commitPoint d) s = .next (if d = w.srv then { t with st := { t.st with slice := t.sliceIn n } } else t))
  ∧ ∀ (s : State) (d : Die), ((s.die d).cmp.stage = .none ∨ (s.die d).tb.phase ≠ .s → exec (.lateCommitLimit d) s = .next s)
      ∧ ((s.die d).cmp.stage ≠ .none → (s.die d).tb.phase = .s → ∃ t, exec (.lateCommitLimit d) s = .next t
          ∧ t.pers = s.pers ∧ t.pat = s.pat ∧ (s.flt.shadows = [] → t.fswBit 59 = true))

/-- R45, R142, R146, R151, R152, R168, R205, R220. `s.flit d h r id` is the state that has taken the flit `r` and done nothing with it. -/
def Obligations.FlitsAreTakenInOrderOnly : Prop :=
  (∀ (s : State) (d : Die) (h : FlitHdr), s.linkUp d = false →
      (∀ x y, exec (.tickTimestampRx d h x y) s = .next s) ∧ (∀ x y z, exec (.inputSupervisionFlitRx d h x y z) s = .next s)
      ∧ (∀ x y, exec (.outputSupervisionFlitRx d h x y) s = .next s) ∧ (∀ x, exec (.compareRecordRx d h x) s = .next s)
      ∧ exec (.readyRx d h) s = .next s ∧ (∀ x, exec (.pairingRecordRx d h x) s = .next s)
      ∧ (∀ x y, exec (.positionRecordRx d h x y) s = .next s) ∧ (∀ x y, exec (.localisationRecordRx d h x y) s = .next s)
      ∧ (∀ x, exec (.replayRecordRx d h x) s = .next s) ∧ (∀ x, exec (.forwardedWriteRx d h x) s = .next s)
      ∧ (∀ x, exec (.forwardedResponseRx d h x) s = .next s) ∧ exec (.stateTransferRx d h) s = .next s)
  ∧ (∀ (s : State) (d : Die) (h : FlitHdr), s.linkUp d = true →
      let miss (r : FlitRec) : Prop := s.heldBack d r = false ∧ s.flitOk d h r = false
      let got (r : FlitRec) : Host.Outcome State Fault Refusal := .next
        (if flitCrcOk h r then s.updDie d.peer fun l => { l with link := l.link.sent h.seq r.vc r.kind } else s.flitBad d)
      (∀ x y, miss (flitTick x y) → exec (.tickTimestampRx d h x y) s = got (flitTick x y))
      ∧ (∀ x y z, miss (flitIn x y z) → exec (.inputSupervisionFlitRx d h x y z) s = got (flitIn x y z))
      ∧ (∀ (x : Fin 4) y, miss (flitOut x.val y) → exec (.outputSupervisionFlitRx d h x y) s = got (flitOut x.val y))
      ∧ (∀ x, miss (CmpFlit.flit 2 x) → exec (.compareRecordRx d h x) s = got (CmpFlit.flit 2 x))
      ∧ (miss flitReady → exec (.readyRx d h) s = got flitReady)
      ∧ (∀ x, miss (PairRec.flit x) → exec (.pairingRecordRx d h x) s = got (PairRec.flit x))
      ∧ (∀ x y, miss (flitPos x y) → exec (.positionRecordRx d h x y) s = got (flitPos x y))
      ∧ (∀ x y, miss (flitLoc x y) → exec (.localisationRecordRx d h x y) s = got (flitLoc x y))
      ∧ (∀ x, miss (CmpFlit.flit 3 x) → exec (.replayRecordRx d h x) s = got (CmpFlit.flit 3 x))
      ∧ (∀ x, miss (flitOf 4 1 x) → exec (.forwardedWriteRx d h x) s = got (flitOf 4 1 x))
      ∧ (∀ x, miss (flitOf 4 2 x) → exec (.forwardedResponseRx d h x) s = got (flitOf 4 2 x))
      ∧ (miss (flitOf 3 5 0) → exec (.stateTransferRx d h) s = got (flitOf 3 5 0)))
  ∧ (∀ (s : State) (d : Die) (h : FlitHdr) (r : FlitRec), s.flitOk d h r = true →
      ((s.flit d h r id).die d).link.rxSeq = h.seq
        ∧ ((s.flit d h r id).die d).link.vc2 = (s.die d).link.vc2 + (if r.vc = 2 then 1 else 0)
        ∧ ((s.flit d h r id).die d.peer).link = (s.die d.peer).link.sent h.seq r.vc r.kind
        ∧ ((s.flit d h r id).die d).tb = (s.die d).tb ∧ ((s.flit d h r id).die d).cur = (s.die d).cur)
  ∧ (∀ (s : State) (d : Die) (h : FlitHdr), (s.die d).tb.spanNo % 256 ≠ h.span →
      (∀ x y, s.flitOk d h (flitTick x y) = true → exec (.tickTimestampRx d h x y) s = .next (s.flit d h (flitTick x y) id))
      ∧ (∀ x y z, s.flitOk d h (flitIn x y z) = true → exec (.inputSupervisionFlitRx d h x y z) s = .next (s.flit d h (flitIn x y z) id))
      ∧ (∀ (x : Fin 4) y, s.flitOk d h (flitOut x.val y) = true →
          exec (.outputSupervisionFlitRx d h x y) s = .next (s.flit d h (flitOut x.val y) id))
      ∧ (s.flitOk d h flitReady = true → exec (.readyRx d h) s = .next (s.flit d h flitReady id))
      ∧ (∀ x y, s.flitOk d h (flitPos x y) = true → exec (.positionRecordRx d h x y) s = .next (s.flit d h (flitPos x y) id)))
  ∧ (∀ (s : State) (d : Die) (h : FlitHdr), (s.die d).tb.spanNo % 256 = h.span → (s.die d).tb.phase = .a →
      (s.die d).cur.frozen = false →
      (∀ tag states codes, s.flitOk d h (flitIn tag states codes) = true →
        exec (.inputSupervisionFlitRx d h tag states codes) s = .next ((s.flit d h (flitIn tag states codes) id).updDie d fun l => { l with
        cur := { l.cur with
          chans := (if tag = 4 then [128, 129, 130, 131] else fdChans tag).foldl (fun (t : Tab ChanSnap) n =>
            Tab.upd ChanSnap.off t n (ChanSnap.peerIs (bitAt states (n - 32 * tag)) (codes.getD (n - 32 * tag) 0))) l.cur.chans
          peerImages := setBitN l.cur.peerImages tag } }))
      ∧ (∀ (f : Fin 4) codes, s.flitOk d h (flitOut f.val codes) = true →
        exec (.outputSupervisionFlitRx d h f codes) s = .next ((s.flit d h (flitOut f.val codes) id).updDie d fun l => { l with
        cur := { l.cur with outFault := (fdChans f.val).foldl (fun (t : Tab Bool) n =>
          if codes.getD (n % 32) 0 != 0 then Tab.set false t n true else t) l.cur.outFault } }))
      ∧ (∀ first recs, s.flitOk d h (flitPos first recs) = true →
        exec (.positionRecordRx d h first recs) s = .next ((s.flit d h (flitPos first recs) id).updDie d fun l => { l with
        cur := { l.cur with axes := (recs.take 4).zipIdx.foldl (fun (t : Tab AxSnap) (x : PosRec × Nat) =>
          Tab.upd AxSnap.empty t (first + x.2) (AxSnap.peerIs d x.1)) l.cur.axes } })))
  ∧ (∀ (s : State) (d : Die) (h : FlitHdr) (ts last : Nat), s.flitOk d h (flitTick ts last) = true → (s.die d).tb.spanNo % 256 = h.span → ∃ t,
      exec (.tickTimestampRx d h ts last) s = .next t ∧ t.pers = s.pers ∧ t.pat = s.pat
      ∧ (last ≠ (s.die d).tb.lastCommit → ((ts : Int) - (s.die d).tb.ts).natAbs ≤ 1000 → s.flt.shadows = [] → t.fswBit 59 = true)
      ∧ (1000 < ((ts : Int) - (s.die d).tb.ts).natAbs → s.flt.shadows = [] → t.fswBit 53 = true))
  ∧ (∀ (s : State) (d : Die) (h : FlitHdr) (r : CmpFlit), s.flitOk d h (CmpFlit.flit 2 r) = true → ∃ t, exec (.compareRecordRx d h r) s = .next t
      ∧ t = { s with a := t.a, b := t.b, regs := t.regs }
      ∧ ((s.die d).tb.spanNo % 256 = h.span → s.ptActs 2 = false → ∀ x, ((s.die d).cmp.join r).2 = some x →
          (∀ y ∈ (s.die d).cmp.peer, y.key ≠ x.key) → (t.die d).cmp.peer = ((s.die d).cmp.join r).1.peer ++ [x]))
  ∧ ∀ (s : State) (d : Die) (h : FlitHdr), s.flitOk d h flitReady = true → (s.die d).tb.spanNo % 256 = h.span → (s.die d).cmp.stage = .none →
      exec (.readyRx d h) s = .next ((s.flit d h flitReady id).updDie d fun l => { l with cmp := { l.cmp with readyRx := true } })

/-- R142, R143, R155, R157, R281, R310, R363. `s.flit d h r id` is the state that has taken the flit `r` and done nothing with it. -/
def Obligations.StitchRecordsAndErrors : Prop :=
  (∀ (s : State) (d : Die) (h : FlitHdr) (r : PairRec), s.flitOk d h (PairRec.flit r) = true →
      ((s.pattern.bind fun p => p.connPos true (PairRec.conn r)) = none →
          exec (.pairingRecordRx d h r) s = .next (s.flit d h (PairRec.flit r) id))
      ∧ ∀ q, (s.pattern.bind fun p => p.connPos true (PairRec.conn r)) = some q →
          let c := (Tab.get InConn.init (s.die d).ins q).join (spanOf (s.die d).tb.spanNo h.span) r
          (c.2 = none → exec (.pairingRecordRx d h r) s = .next ((s.flit d h (PairRec.flit r) id).updDie d fun l =>
            { l with ins := Tab.set InConn.init l.ins q c.1 }))
          ∧ (∀ x, c.2 = some x → (∃ y ∈ c.1.peer, y.span = x.span ∧ x.tuple ≤ y.tuple) →
            exec (.pairingRecordRx d h r) s = .next ((s.flit d h (PairRec.flit r) id).updDie d fun l =>
              { l with ins := Tab.set InConn.init l.ins q c.1 }))
          ∧ ∀ x, c.2 = some x → (∀ y ∈ c.1.peer, y.span = x.span → ¬ x.tuple ≤ y.tuple) →
            exec (.pairingRecordRx d h r) s = .next ((s.flit d h (PairRec.flit r) id).updDie d fun l =>
              { l with ins := Tab.set InConn.init l.ins q { c.1 with peer := (c.1.peer.filter fun y => y.span != x.span) ++ [x] } }))
  ∧ (∀ (s : State) (d : Die) (h : FlitHdr) (k : Nat) (bytes : List Byte), s.flitOk d h (flitLoc k bytes) = true →
      let u := s.flit d h (flitLoc k bytes) id
      ((s.die d).tb.spanNo % 256 ≠ h.span → exec (.localisationRecordRx d h k bytes) s = .next (u.bump 32 0x5010 4))
      ∧ ((s.die d).tb.spanNo % 256 = h.span → (s.pattern = none ∨ (s.die d).cmp.stage ≠ .local) →
          exec (.localisationRecordRx d h k bytes) s = .next u)
      ∧ ∀ p, (s.die d).tb.spanNo % 256 = h.span → s.pattern = some p → (s.die d).cmp.stage = .local →
          let locs := Tab.set [] (s.die d).cmp.locs k bytes
          let n := (10 + 2 * (s.die d).cmp.ownWords.length + 19) / 20
          let kept := u.updDie d fun l => { l with cmp := { l.cmp with locs := locs } }
          ((∃ j < n, (Tab.get [] locs j).length ≠ 20) → exec (.localisationRecordRx d h k bytes) s = .next kept)
          ∧ ((∀ j < n, (Tab.get [] locs j).length = 20) → exec (.localisationRecordRx d h k bytes) s =
            .next (kept.localise d p (((List.range n).flatMap fun j => Tab.get [] locs j).take (10 + 2 * (s.die d).cmp.ownWords.length)))))
  ∧ (∀ (s : State) (d : Die) (h : FlitHdr) (r : CmpFlit), s.flitOk d h (CmpFlit.flit 3 r) = true →
      let u := s.flit d h (CmpFlit.flit 3 r) id
      ((s.die d).tb.spanNo % 256 ≠ h.span → exec (.replayRecordRx d h r) s = .next (u.staleRec d r))
      ∧ ((s.die d).tb.spanNo % 256 = h.span → (s.die d).cmp.stage ≠ .full → (s.die d).cmp.stage ≠ .eval → (s.die d).cmp.stage ≠ .recompare →
          exec (.replayRecordRx d h r) s = .next u)
      ∧ ((s.die d).tb.spanNo % 256 = h.span → (s.die d).cmp.stage = .full ∨ (s.die d).cmp.stage = .eval ∨ (s.die d).cmp.stage = .recompare →
          let c := (s.die d).cmp.join r
          (c.2 = none → exec (.replayRecordRx d h r) s = .next (u.updDie d fun l => { l with cmp := c.1 }))
          ∧ ∀ x, c.2 = some x → let old : Cmp := { c.1 with peer := c.1.peer.filter fun y => y.key != x.key }
            exec (.replayRecordRx d h r) s =
              .next (((u.updDie d fun l => { l with cmp := { old with peer := old.peer ++ [x] } }).countCompares d old).settleReplay d)))
  ∧ (∀ (s : State) (d : Die) (h : FlitHdr) (i : Nat), s.flitOk d h (flitOf 4 1 i) = true →
      let u := s.flit d h (flitOf 4 1 i) id
      ((∀ w ∈ s.br.writes, w.id = i → w.resp.die ≠ d.peer) → exec (.forwardedWriteRx d h i) s = .next u)
      ∧ ∀ w, (s.br.writes.find? fun w => w.id == i && w.resp.die == d.peer) = some w →
          exec (.forwardedWriteRx d h i) s = .next { u with br := { u.br with writes := u.br.writes.map fun (x : PendWrite) =>
            if x.id = i then { x with acked := (u.writeAll (Fin.ofNat 8 w.resp.seat) w.resp.die w.items).br.last == .ok } else x } })
  ∧ (∀ (s : State) (d : Die) (h : FlitHdr) (i : Nat), s.flitOk d h (flitOf 4 2 i) = true →
      let u := s.flit d h (flitOf 4 2 i) id
      ((∀ w ∈ s.br.fwds, w.id = i → w.die ≠ d) → exec (.forwardedResponseRx d h i) s = .next u)
      ∧ ∀ w, (s.br.fwds.find? fun w => w.id == i && w.die == d) = some w →
          let ended : State := { u with br := { u.br with fwds := u.br.fwds.filter fun x => x.id != i } }
          exec (.forwardedResponseRx d h i) s = .next (if w.op = 3 then ended.readBlockOn d.peer w.f else ended.readOn d.peer w.f))
  ∧ (∀ (s : State) (d : Die) (h : FlitHdr), s.flitOk d h (flitOf 3 5 0) = true →
      let u := s.flit d h (flitOf 3 5 0) id
      let readmitting := s.dieSt d.n = 2 ∧ (s.flt.rd d).step = 3
      let rebooting := s.upd.reboot = some d ∧ s.upd.booted = true ∧ s.upd.rejoined = false
      (readmitting → ∃ t, exec (.stateTransferRx d h) s = .next t ∧ (t.flt.rd d).step = 4 ∧ (t.flt.rd d).ticks = 0
          ∧ t = { u.takeState d with flt := t.flt })
      ∧ (¬ readmitting → rebooting → u.handOk d = true → ∃ t, exec (.stateTransferRx d h) s = .next t ∧ t.upd.rejoined = true
          ∧ t = { u.takeState d with upd := t.upd })
      ∧ (¬ readmitting → rebooting → u.handOk d = false → exec (.stateTransferRx d h) s = .next (u.revert 17))
      ∧ (¬ readmitting → ¬ rebooting → exec (.stateTransferRx d h) s = .next u))
  ∧ (∀ (s : State) (d : Die), let k := (s.die d.peer).link.sent (((s.die d).link.rxSeq + 1) % 4096) 255 0
      (s.linkUp d = false → exec (.stitchFlitCrcError d) s = .next s)
      ∧ (s.linkUp d = true → k.worn = false → exec (.stitchFlitCrcError d) s = .next ((s.bump 32 0x5014 1).updDie d.peer fun l => { l with
          link := { k with nak := false, retry := k.retry.map fun x => { x with tries := x.tries + 1 } } }))
      ∧ (s.linkUp d = true → k.worn = true → s.flt.shadows = [] → ∃ t, exec (.stitchFlitCrcError d) s = .next t ∧ t.fswBit 52 = true))
  ∧ (∀ (s : State) (d : Die), ((s.die d).link.retrain = true ∨ (s.die d).link.retry = [] → exec (.stitchRetryTimeout d) s = .next s)
      ∧ ((s.die d).link.retrain = false → (s.die d).link.retry ≠ [] → (s.die d).link.retry.length < 64 → (s.die d).link.worn = false →
          exec (.stitchRetryTimeout d) s = .next (s.updDie d fun l => { l with
            link := { l.link with nak := false, retry := l.link.retry.map fun x => { x with tries := x.tries + 1 } } }))
      ∧ ((s.die d).link.retrain = false → (64 ≤ (s.die d).link.retry.length ∨ (s.die d).link.worn = true ∧ (s.die d).link.retry ≠ []) →
          s.flt.shadows = [] → ∃ t, exec (.stitchRetryTimeout d) s = .next t ∧ t.fswBit 52 = true))
  ∧ (∀ s : State, (s.a.link.retrain = false → s.b.link.retrain = false → exec .retrainComplete s = .next s)
      ∧ (s.a.link.retrain = true ∨ s.b.link.retrain = true → ∃ t, exec .retrainComplete s = .next t ∧ t.a.link.retrain = false
          ∧ t.b.link.retrain = false ∧ t.clk.down &&& domainSet [13] = 0
          ∧ (∀ x ∈ t.flt.shadows, x.blk = .stitch → x.complete = true) ∧ t.modes = s.modes ∧ t.fd = s.fd ∧ t.pers = s.pers))
  ∧ ∀ (s : State) (d : Die) (lane : Fin 4), ∃ t, exec (.stitchLaneTrainFail d lane) s = .next t
      ∧ t = (s.updDie d fun l => { l with link := { l.link with lanes := clrBitN l.link.lanes lane.val } }).latchStanding 52
      ∧ (s.flt.shadows = [] → t.fswBit 52 = true)

/-- R48, R269, R270, R277. -/
def Obligations.TimeSyncFollowsItsMessages : Prop :=
  (∀ (s : State) (d : Die) (p : Fin 2) (g : Nat) (off step : Int),
      (s.ticking d = false ∨ (s.die d).net.macReset = true ∨ ((s.die d).net.port p.val).link = false
        ∨ ((s.die d).net.port p.val).slave = false ∨ ((s.die d).net.port p.val).asCapable = false) →
      exec (.syncRx d p g off step) s = .next s)
  ∧ (∀ (s : State) (d : Die) (p : Fin 2) (g : Nat) (off step : Int),
      s.ticking d = true → (s.die d).net.macReset = false → ((s.die d).net.port p.val).link = true →
      ((s.die d).net.port p.val).slave = true → ((s.die d).net.port p.val).asCapable = true →
      ((s.die d).tb.locked = true → 1000 < step.natAbs → ∃ t, exec (.syncRx d p g off step) s = .next t
          ∧ (t.die d).tb.locked = false ∧ (t.die d).tb.syncs = 0 ∧ (t.die d).tb.offs = [] ∧ t.pers = s.pers ∧ t.modes = s.modes)
      ∧ (((s.die d).tb.locked = true → step.natAbs ≤ 1000) →
          ((s.die d).tb.locked = true ∨ (s.die d).tb.syncs < 15
            ∨ ∃ x ∈ ((s.die d).tb.offs ++ [off]).drop ((s.die d).tb.offs.length + 1 - 8), 100 < x.natAbs) →
          exec (.syncRx d p g off step) s = .next (s.updDie d fun l => { l with tb := { l.tb with
            syncs := min 16 (l.tb.syncs + 1), offs := (l.tb.offs ++ [off]).drop (l.tb.offs.length + 1 - 8) } }))
      ∧ ((s.die d).tb.locked = false → 15 ≤ (s.die d).tb.syncs →
          (∀ x ∈ ((s.die d).tb.offs ++ [off]).drop ((s.die d).tb.offs.length + 1 - 8), x.natAbs ≤ 100) →
          ∃ t, exec (.syncRx d p g off step) s = .next t ∧ (t.die d).tb.locked = true ∧ (t.die d).tb.ever = true ∧ t.pers = s.pers))
  ∧ (∀ (s : State) (d : Die), ∃ t, exec (.syncReceiptTimeout d) s = .next t ∧ (t.die d).tb.locked = false ∧ (t.die d).tb.syncs = 0
      ∧ (t.die d).tb.offs = [] ∧ (t.die d.peer).tb.locked = (s.die d.peer).tb.locked ∧ t.modes = s.modes ∧ t.fd = s.fd ∧ t.regs = s.regs
      ∧ t.pers = s.pers)
  ∧ (∀ s : State, (s.holdover = false → exec .holdoverExpire s = .next s)
      ∧ (s.holdover = true → ∃ t, exec .holdoverExpire s = .next t ∧ t.pers = s.pers ∧ t.pat = s.pat
          ∧ (s.flt.shadows = [] → t.fswBit 60 = true)))
  ∧ (∀ (s : State) (d : Die) (p : Fin 2), s.ticking d = false ∨ (s.die d).net.macReset = true ∨ ((s.die d).net.port p.val).link = false →
      (∀ delay, exec (.pdelayRx d p delay) s = .next s) ∧ ∀ dom pr gm, exec (.announceRx d p dom pr gm) s = .next s)
  ∧ (∀ (s : State) (d : Die) (p : Fin 2), s.ticking d = true → (s.die d).net.macReset = false → ((s.die d).net.port p.val).link = true →
      (∀ delay, exec (.pdelayRx d p delay) s = .next (s.updDie d fun l => { l with net := (l.net.updPort p.val fun q => { q with
        delay := delay, asCapable := decide (delay ≤ s.reg 0x7007 (portSub d p.val)) }).roles }))
      ∧ (∀ dom pr gm, (dom = s.reg 0x7003 (d.n + 1) → exec (.announceRx d p dom pr gm) s = .next (s.updDie d fun l => { l with
            net := (l.net.updPort p.val fun q => { q with best := some (pr, gm) }).roles }))
          ∧ (dom ≠ s.reg 0x7003 (d.n + 1) → exec (.announceRx d p dom pr gm) s = .next s)))
  ∧ ∀ (s : State) (d : Die) (p : Fin 2), ∃ t, exec (.gateControlEntry d p) s = .next t ∧ t = { s with a := t.a, b := t.b }
      ∧ ((s.pattern = none ∨ ∃ q, s.pattern = some q ∧ ∀ g ∈ q.gates, g.port ≠ portSub d p.val) →
          ((t.die d).net.port p.val).gates = 255 ∧ ((t.die d).net.port p.val).entry = 0)
      ∧ (∀ q g, s.pattern = some q →
          let gs := q.gates.filter fun g => g.port == portSub d p.val
          gs ≠ [] → gs[(((s.die d).net.port p.val).entry + 1) % gs.length]? = some g →
          ((t.die d).net.port p.val).entry = (((s.die d).net.port p.val).entry + 1) % gs.length ∧ ((t.die d).net.port p.val).gates = g.mask)

/-- R30, R70, R328, R500, Table 12-7. -/
def Obligations.ConfigurationWritesAreChecked : Prop :=
  (∀ (s : State) (seat : Fin 8) (v : Nat), s.open_ →
      let refuses (r : Host.Outcome State Fault Refusal) (own ok : Bool) : Prop :=
        ((s.pfw = true ∨ s.restricts 41 = true ∨ s.modes.act.isSome = true) → r = .next (s.ans .busy))
        ∧ (s.pfw = false → s.restricts 41 = false → s.modes.act = none →
            (own = false → r = .next (s.ans .rights))
            ∧ (own = true → s.modes.mode ≠ .configure → r = .next (s.ans .mode))
            ∧ (own = true → s.modes.mode = .configure → ok = false → r = .next (s.ans .range)))
      let put (t : State) (idx sub : Nat) : Prop := t.br.last = .ok ∧ t.reg idx sub = v
        ∧ t.br.pers = s.br.pers ++ [{ idx := idx, sub := sub, val := v, seat := seat.val, ans := none }]
        ∧ (∀ i j, odKey i j ≠ odKey idx sub → t.reg i j = s.reg i j) ∧ t = { s with regs := t.regs, br := t.br }
      refuses (exec (.spanKWrite seat v) s) (s.owner seat) (s.spanKOk v)
      ∧ refuses (exec (.tickOfsWrite seat v) s) (s.owner seat) (decide (v < tspanNs (s.reg 0x2001 0)))
      ∧ refuses (exec (.lineOwner seat v) s) (s.owner seat && (s.br.seat seat).pass) (decide (v ≤ 7))
      ∧ (s.pfw = false → s.restricts 41 = false → s.modes.act = none → s.owner seat = true → s.modes.mode = .configure →
          (s.spanKOk v = true → ∃ t, exec (.spanKWrite seat v) s = .next t ∧ put t 0x2001 0)
          ∧ (v < tspanNs (s.reg 0x2001 0) → ∃ t, exec (.tickOfsWrite seat v) s = .next t ∧ put t 0x2002 0)
          ∧ ((s.br.seat seat).pass = true → v ≤ 7 → ∃ t, exec (.lineOwner seat v) s = .next t ∧ put t 0x1010 0)))
  ∧ (∀ (s : State) (v : Nat) (p : Pattern), s.nextPattern = some p → (capsOk s.order v p.hdr = false ∨ budgetOk v p.hdr = false) →
      s.spanKOk v = false)
  ∧ (∀ (s : State) (v : Nat), (7 < v ∨ tspanNs v ≤ s.reg 0x2002 0) → s.spanKOk v = false)
  ∧ (∀ (s : State) (seat : Fin 8) (n : Fin 18) (v : Nat), s.open_ → s.pfw = false → s.restricts 41 = false → s.modes.act = none →
      (s.order = 830 → 13 ≤ n.val → n.val ≤ 15 → exec (.clkGate seat n v) s = .next (s.ans .access))
      ∧ (s.absent 0x2013 (n.val + 1) = false →
      (s.owner seat = false → exec (.clkGate seat n v) s = .next (s.ans .rights))
      ∧ (s.owner seat = true → s.modes.mode ≠ .configure → exec (.clkGate seat n v) s = .next (s.ans .mode))
      ∧ (s.owner seat = true → s.modes.mode = .configure →
          (256 ≤ v ∨ n.val + 1 = 18 ∨ (bitAt (s.reg 0x2013 (n.val + 1)) 3 = true ∧ v % 8 ≠ s.reg 0x2013 (n.val + 1) % 8)) →
          exec (.clkGate seat n v) s = .next (s.ans .range))
      ∧ (s.owner seat = true → s.modes.mode = .configure → v < 256 → clkFixed (n.val + 1) (s.reg 0x2013 (n.val + 1)) v = false → ∃ t,
          exec (.clkGate seat n v) s = .next t ∧ t.reg 0x2013 (n.val + 1) = s.reg 0x2013 (n.val + 1) / 8 % 2 * 8 + v % 8
          ∧ t = { s with pow := t.pow, clk := t.clk, regs := t.regs, br := t.br })))
  ∧ (∀ (s : State) (seat : Fin 8) (sub v : Nat), s.open_ →
      (sub ≠ 1 → sub ≠ 2 → exec (.clkobsSelect seat sub v) s = .next (s.ans .noEntry))
      ∧ (sub = 1 ∨ sub = 2 → s.owner seat = false → exec (.clkobsSelect seat sub v) s = .next (s.ans .rights))
      ∧ (s.owner seat = true → sub = 1 → (v ≤ 18 → 1 ≤ s.reg 0x2016 2 → s.reg 0x2016 2 ≤ 4096 → domainKHz v ≤ 100000 * s.reg 0x2016 2 →
            exec (.clkobsSelect seat sub v) s = .next ((s.ans .ok).setReg 0x2016 1 v))
          ∧ (18 < v ∨ 100000 * s.reg 0x2016 2 < domainKHz v → exec (.clkobsSelect seat sub v) s = .next (s.ans .range)))
      ∧ (s.owner seat = true → sub = 2 → s.reg 0x2016 1 ≤ 18 → 1 ≤ v → v ≤ 4096 → domainKHz (s.reg 0x2016 1) ≤ 100000 * v →
            exec (.clkobsSelect seat sub v) s = .next ((s.ans .ok).setReg 0x2016 2 v)))
  ∧ ∀ (s : State) (seat : Fin 8) (w : Fin 5) (m : Nat), s.open_ →
      (seat ≠ 0 → exec (.cosHirqClear seat w m) s = .next (s.ans .rights))
      ∧ (seat = 0 → m < 2 ^ 32 → exec (.cosHirqClear seat w m) s
          = .next ((s.ans .ok).setReg 0x4490 (w.val + 1) (s.reg 0x4490 (w.val + 1) &&& (2 ^ 64 - 1 - m))))

/-- R18, R20, R167, R172, R173, R174, R177, R178, R179. -/
def Obligations.FieldEventsStayOnTheirDie : Prop :=
  (∀ (s : State) (d : Die) (c : Instr),
      (∃ f, c = .fieldImageRx d f) ∨ (∃ n, c = .captureLockEnd d n) ∨ (∃ n l y, c = .fieldInputEdge d n l y) ∨ (∃ n, c = .debounceExpire d n)
        ∨ (∃ n, c = .ossdPulseFilterExpire d n) ∨ (∃ n, c = .ossdSilentExpire d n) ∨ (∃ k, c = .tpWindowOpen d k) ∨ (∃ k, c = .tpWindowEnd d k)
        ∨ (∃ n x y z, c = .adcSample d n x y z) →
      ∃ t, exec c s = .next t ∧ t.die d.peer = s.die d.peer ∧ t = { s with a := t.a, b := t.b, regs := t.regs })
  ∧ (∀ (s : State) (d : Die) (f : Fin 4), s.ticking d = true → (s.die d).tb.phase = .a → s.fOn f = true → ∃ t,
      exec (.fieldImageRx d f) s = .next t ∧ bitAt (t.die d).cur.images f.val = true)
  ∧ (∀ (s : State) (d : Die) (n : Fin 132), s.chainOn d n = false →
      exec (.captureLockEnd d n) s = .next s ∧ (∀ l y, exec (.fieldInputEdge d n l y) s = .next s) ∧ exec (.debounceExpire d n) s = .next s
      ∧ exec (.ossdPulseFilterExpire d n) s = .next s ∧ exec (.ossdSilentExpire d n) s = .next s
      ∧ ∀ x y z, exec (.adcSample d n x y z) s = .next s)
  ∧ (∀ (s : State) (d : Die) (n : Fin 132), s.chainOn d n = true → ((s.die d).chain n).f.lock = true → ∃ t,
      exec (.captureLockEnd d n) s = .next t
      ∧ (((s.die d).chain n).f.pend = none → ((t.die d).chain n).f.lock = false ∧ ((t.die d).chain n).f.pend = none))
  ∧ (∀ (s : State) (d : Die) (n : Fin 132), s.chainOn d n = true →
      ((((s.die d).chain n).f.deb = true → exec (.debounceExpire d n) s = .next (s.updDie d fun l => l.updChain n fun c => { c with f := c.f.take c.f.lvl }))
      ∧ (((s.die d).chain n).f.deb = false → exec (.debounceExpire d n) s = .next s)))
  ∧ (∀ (s : State) (d : Die) (n : Fin 132), s.chainOn d n = true → (s.chanRec n).chainKind = 3 → (s.chanRec n).ossdTmax ≠ 0 →
      ((s.die d).chain n).f.on = true → ∃ t, exec (.ossdSilentExpire d n) s = .next t ∧ bitAt ((t.die d).chain n).v.codes 4 = true)
  ∧ (∀ (s : State) (d : Die) (n : Fin 132), s.chainOn d n = true → (s.chanRec n).chainKind = 3 →
      let f := ((s.die d).chain n).f
      let passes (b : Bool) : Host.Outcome State Fault Refusal := .next (s.updDie d fun l => l.updChain n fun x =>
        { x with f := ({ x.f with pf := b, low := false }).feed (s.chanRec n).debUs b })
      (f.low = true → f.pf = true → f.raw = false → exec (.ossdPulseFilterExpire d n) s = passes false)
      ∧ (f.low = true → f.pf = false → f.raw = true → exec (.ossdPulseFilterExpire d n) s = passes true)
      ∧ (f.low = false ∨ f.pf = f.raw → exec (.ossdPulseFilterExpire d n) s = .next s))
  ∧ (∀ (s : State) (d : Die) (n : Fin 132), s.chainOn d n = true →
      (∀ level cyc, ((s.die d).chain n).f.raw = level → exec (.fieldInputEdge d n level cyc) s = .next s)
      ∧ (∀ level cyc, ((s.die d).chain n).f.raw ≠ level → ∃ t, exec (.fieldInputEdge d n level cyc) s = .next t
          ∧ ((t.die d).chain n).f.raw = level ∧ ((t.die d).chain n).f.lastEdge = (s.die d).tb.tickNs + 25 * cyc)
      ∧ ∀ ball mid ma, ∃ t, exec (.adcSample d n ball mid ma) s = .next t ∧ ((t.die d).outSup n).vBall = ball)
  ∧ (∀ (s : State) (d : Die) (k : Fin 32), (s.ticking d = false ∨ (s.pattern.bind fun p => p.src k) = none →
        exec (.tpWindowOpen d k) s = .next s ∧ exec (.tpWindowEnd d k) s = .next s)
      ∧ ∀ p x, s.ticking d = true → s.pattern = some p → p.src k = some x →
        let period := (s.die d).tb.periodNs (tspanNs s.modes.spanK) (p.nTp (tspanNs s.modes.spanK))
        exec (.tpWindowOpen d k) s = .next ((s.kind2 d).foldl (fun u c => u.updDie d fun l => l.updChain c.n (Chain.winOpen (c.tpSrc == k.val))) s)
        ∧ exec (.tpWindowEnd d k) s = .next ((s.kind2 d).foldl (fun u c =>
            if c.tpSrc = k.val then u.ownWinEnd d x period c else u.fgnWinEnd d x c) s))
  ∧ ∀ (s : State) (d : Die) (x : SrcRec) (period : Nat) (c : ChanRec),
      let y := (s.die d).chain c.n
      let codes (t : State) : Nat := ((t.die d).chain c.n).v.codes
      let judged := y.v.winOn = true ∧ y.f.raw = true ∧ y.f.win = true ∧ s.modes.pwr ≠ .deepSleep
      (judged → y.v.winLow = none → bitAt (codes (s.ownWinEnd d x period c)) 1 = true)
      ∧ (∀ z, judged → y.v.winLow = some z → cleanLow x period z = false → bitAt (codes (s.ownWinEnd d x period c)) 3 = true)
      ∧ ((∃ z, y.v.winLow = some z ∧ cleanLow x period z = true) ∨ ¬ judged → codes (s.ownWinEnd d x period c) = y.v.codes)
      ∧ (y.v.fgnOpen = true → y.f.on = true → s.modes.pwr ≠ .deepSleep →
          (∃ w ∈ y.v.fgnLow, (x.width - 10) * 1000 ≤ w ∧ w ≤ (x.width + 30) * 1000) → bitAt (codes (s.fgnWinEnd d x c)) 2 = true)

/-- R23, R194, R195, R196, R199. -/
def Obligations.TripLinesOpenTheirSwitches : Prop :=
  (∀ (s : State) (d : Die), ∃ t, exec (.tripAssert d) s = .next t ∧ t.tripLine d = true ∧ t.tripLine d.peer = s.tripLine d.peer
      ∧ (∀ f, f < 4 → ((t.fdie f).port d).trip = true ∧ ((t.fdie f).port d).closed = 0) ∧ t = { s with flt := t.flt, fd := t.fd })
  ∧ (∀ (s : State) (d : Die), ∃ t, exec (.heartbeatLoss (.lDie d)) s = .next t ∧ t.tripLine d = true
      ∧ (∀ f, f < 4 → ((t.fdie f).port d).closed = 0) ∧ t = { s with clk := t.clk, flt := t.flt, fd := t.fd })
  ∧ (∀ (s : State) (f : Fin 4), ∃ t, exec (.heartbeatLoss (.fDie f)) s = .next t ∧ (∀ d, ((t.fdie f.val).port d).closed = 0)
      ∧ t = { s with clk := t.clk, fd := t.fd })
  ∧ (∀ s : State, (s.mayUntrip = false → exec .tripRelease s = .next s)
      ∧ (s.mayUntrip = true → ∃ t, exec .tripRelease s = .next t ∧ t.flt.tripA = false ∧ t.flt.tripB = false
          ∧ (∀ f d, f < 4 → ((t.fdie f).port d).closed &&& ~~~((s.fdie f).port d).closed = 0) ∧ t = { s with clk := t.clk, flt := t.flt, fd := t.fd }))
  ∧ (∀ (s : State) (d : Die) (f : Fin 4) (fr : BitVec 128), (s.fOn f.val = false → exec (.cmdFrameRx d f fr) s = .next s)
      ∧ (s.fOn f.val = true → frOk fr = false → exec (.cmdFrameRx d f fr) s = .next (s.bump 32 (0x4700 + f.val) (4 + d.n)))
      ∧ (s.fOn f.val = true → frOk fr = true → ((s.fdie f.val).port d).seqOk fr = false → ∃ t, exec (.cmdFrameRx d f fr) s = .next t
          ∧ ((t.fdie f.val).port d).closed = ((s.fdie f.val).port d).closed &&& frCmd fr ∧ t = { s with fd := t.fd, regs := t.regs })
      ∧ (s.fOn f.val = true → frOk fr = true → ((s.fdie f.val).port d).seqOk fr = true → ∃ t, exec (.cmdFrameRx d f fr) s = .next t
          ∧ ((t.fdie f.val).port d).token = true ∧ ((t.fdie f.val).port d).seq = some (frSeq fr) ∧ ((t.fdie f.val).port d).cmd = frCmd fr
          ∧ ((t.fdie f.val).port d).closed &&& ~~~frCmd fr = 0
          ∧ (((s.fdie f.val).port d).trip = true → ((t.fdie f.val).port d).closed = 0)
          ∧ ((t.fdie f.val).port d.peer) = ((s.fdie f.val).port d.peer) ∧ t = { s with a := t.a, b := t.b, fd := t.fd }))
  ∧ (∀ (s : State) (d : Die) (f : Fin 4), ((s.fOn f.val = false ∨ ((s.fdie f.val).port d).token = false) → exec (.keepTokenExpire d f) s = .next s)
      ∧ (s.fOn f.val = true → ((s.fdie f.val).port d).token = true → ∃ t, exec (.keepTokenExpire d f) s = .next t
          ∧ ((t.fdie f.val).port d).token = false ∧ ((t.fdie f.val).port d).seq = none
          ∧ ((t.fdie f.val).port d).closed = ((s.fdie f.val).port d).closed &&& ~~~(s.fdie f.val).safety
          ∧ ((t.fdie f.val).port d.peer) = ((s.fdie f.val).port d.peer) ∧ t = { s with fd := t.fd, regs := t.regs })
      ∧ (s.fOn f.val = false → ∀ n, exec (.tickMarkRx f d n) s = .next s)
      ∧ (s.fOn f.val = true → 1 ≤ ((s.fdie f.val).port d).marks → ∀ n, ∃ t, exec (.tickMarkRx f d n) s = .next t
          ∧ ((t.fdie f.val).port d).token = false ∧ t.pers = s.pers ∧ t.pat = s.pat ∧ t.clk = s.clk)
      ∧ (s.fOn f.val = true → ((s.fdie f.val).port d).marks = 0 → ∀ n,
          s.tspan < 2 * (max n ((s.fdie f.val).port d.peer).markAt - min n ((s.fdie f.val).port d.peer).markAt) →
          exec (.tickMarkRx f d n) s = .next (s.updF f.val fun x => x.updPort d fun p => { p with marks := 1, markAt := n })))
  ∧ ∀ (s : State) (d : Die), (s.mayHold d = false → exec (.holdModeEnter d) s = .next s)
      ∧ (s.mayHold d = true → ∃ t, exec (.holdModeEnter d) s = .next t ∧ (t.die d).hold.on = true ∧ t.upd.reboot = some d
          ∧ t.die d.peer = s.die d.peer ∧ t = { s with flt := t.flt, a := t.a, b := t.b, upd := t.upd })
      ∧ ((s.die d).hold.on = false → exec (.holdFrameSend d) s = .next s ∧ exec (.holdTimeout d) s = .next s)
      ∧ ((s.die d).hold.on = true → exec (.holdFrameSend d) s = .next (s.updDie d fun l => s.fdies.foldl (fun (l : LDie) f => l.sendCmd f (s.holdCmd d f)) l)
          ∧ ∃ t, exec (.holdTimeout d) s = .next t ∧ ((s.upd.state < 4 ∨ 6 < s.upd.state) → (t.die d).hold.on = false)
            ∧ (4 ≤ s.upd.state → s.upd.state ≤ 6 → t.upd.state = 8 ∧ t.upd.why = 16) ∧ t.fd = s.fd ∧ t.modes = s.modes)

/-- R188, R192, R197, R202, R210. -/
def Obligations.FDieProtectionOnlyOpens : Prop :=
  (∀ (s : State) (f : Fin 4), s.fOn f.val = true →
      let latches (t : State) (i : Nat) : Prop := t.pers = s.pers ∧ t.pat = s.pat ∧ t.keys = s.keys
        ∧ (s.flt.shadows = [] → bitAt (s.fdie f.val).causes i = false → t.fswBit (48 + f.val) = true)
      let ends (t : State) (i : Nat) : Prop := (t.fdie f.val).causes = clrBitN (s.fdie f.val).causes i
      (∀ ma, (4400 < ma → ∃ t, exec (.fdieOvercurrent f ma) s = .next t ∧ latches t 0)
          ∧ (ma ≤ 4400 → exec (.fdieOvercurrent f ma) s = .next s))
      ∧ (∃ t, exec (.adcReferenceCheck f false) s = .next t ∧ latches t 2)
      ∧ (17500 < s.reg (0x4700 + f.val) 2 → ∃ t, exec (.gateDriveLoss f) s = .next t ∧ latches t 3)
      ∧ (s.reg (0x4700 + f.val) 2 ≤ 17500 → exec (.gateDriveLoss f) s = .next (s.updF f.val fun x =>
          { x with gate := false, sinks := x.sinks ||| x.a.closed ||| x.b.closed }))
      ∧ (∃ t, exec (.fdieOvertemp f) s = .next t ∧ latches t 5)
      ∧ (∃ t, exec (.supplyCurrentReturn f) s = .next t ∧ ends t 0 ∧ t.reg (0x4700 + f.val) 1 ≤ 4400
          ∧ t = { s with fd := t.fd, flt := t.flt, regs := t.regs, freeCtr := t.freeCtr })
      ∧ (∃ t, exec (.adcReferenceCheck f true) s = .next t ∧ ends t 2 ∧ t = { s with fd := t.fd, flt := t.flt })
      ∧ (∃ t, exec (.gateDriveReturn f) s = .next t ∧ ends t 3 ∧ (t.fdie f.val).gate = true ∧ t = { s with fd := t.fd, flt := t.flt })
      ∧ (∃ t, exec (.overtemperatureEnd (.fDie f)) s = .next t ∧ ends t 5 ∧ t = { s with fd := t.fd, flt := t.flt })
      ∧ (∀ mv, mv ≤ 16500 → ∃ t, exec (.vfldLow f mv) s = .next t ∧ (t.fdie f.val).low = true ∧ t.reg (0x4700 + f.val) 2 = mv
          ∧ (∀ d, ((t.fdie f.val).port d).closed = 0 ∧ ((t.fdie f.val).port d).cmd = 0 ∧ ((t.fdie f.val).port d).opReq = 0)
          ∧ t = { s with a := t.a, b := t.b, fd := t.fd, flt := t.flt, regs := t.regs })
      ∧ (∀ mv, 17000 ≤ mv → (s.fdie f.val).gate = true ∨ mv ≤ 17500 →
          exec (.vfldRecover f mv) s = .next ((s.setReg (0x4700 + f.val) 2 mv).updF f.val fun x => { x with low := false }))
      ∧ (∀ mv, 17500 < mv → (s.fdie f.val).gate = false → ∃ t, exec (.vfldRecover f mv) s = .next t ∧ latches t 3))
  ∧ (∀ (s : State) (f : Fin 4), s.fOn f.val = false →
      (∀ x, exec (.fdieOvercurrent f x) s = .next s ∧ exec (.vfldLow f x) s = .next s ∧ exec (.vfldRecover f x) s = .next s)
      ∧ (∀ x, exec (.adcReferenceCheck f x) s = .next s) ∧ exec (.gateDriveLoss f) s = .next s ∧ exec (.gateDriveReturn f) s = .next s
      ∧ exec (.fdieOvertemp f) s = .next s ∧ exec (.supplyCurrentReturn f) s = .next s ∧ exec (.overtemperatureEnd (.fDie f)) s = .next s)
  ∧ (∀ s : State, exec (.overtemperatureEnd .pDie) s = .next { s with flt := { s.flt with cause := clrBit64 s.flt.cause 40 } })
  ∧ (∀ (s : State) (d : Die) (n : Fin 128),
      let on (e : Die) : Bool := s.fOn (n.val / 32) && ((s.fdie (n.val / 32)).port e).closed.getLsbD (n.val % 32)
      let opened (e : Die) (t : State) : Prop :=
        ((t.fdie (n.val / 32)).port e).closed = ((s.fdie (n.val / 32)).port e).closed &&& ~~~chBit (n.val % 32)
        ∧ ((t.fdie (n.val / 32)).port e.peer) = ((s.fdie (n.val / 32)).port e.peer)
        ∧ t = { s with a := t.a, b := t.b, fd := t.fd, regs := t.regs }
      (on d = false → exec (.switchOvertemp d n) s = .next s) ∧ (on .a = false → exec (.currentLimitTrip n) s = .next s)
      ∧ (on d = true → ∃ t, exec (.switchOvertemp d n) s = .next t ∧ opened d t
          ∧ ∀ e, bitAt ((t.die e).outSup n.val).codes 9 = true)
      ∧ (on .a = true → ∃ t, exec (.currentLimitTrip n) s = .next t ∧ opened .a t ∧ ∀ e, bitAt ((t.die e).outSup n.val).codes 7 = true))
  ∧ (∀ (s : State) (k : Fin 32), ((s.pattern = none) → exec (.testPulseStart k) s = .next s ∧ exec (.testPulseEnd k) s = .next s)
      ∧ (∃ t, exec (.testPulseStart k) s = .next t ∧ t = { s with a := t.a, b := t.b, fd := t.fd }
          ∧ ∀ n, ((s.pattern.bind fun p => p.src k.val).bind s.srcChan) = some n → (t.fdie (n / 32)).pulsing.getLsbD (k.val % 8) = true)
      ∧ (∀ x, (s.pattern.bind fun p => p.src k.val) = some x → (s.fdie (x.chan / 32)).pulsing.getLsbD (k.val % 8) = false →
          exec (.testPulseEnd k) s = .next s)
      ∧ (∃ t, exec (.testPulseEnd k) s = .next t ∧ t = { s with a := t.a, b := t.b, fd := t.fd, regs := t.regs }
          ∧ ∀ x, (s.pattern.bind fun p => p.src k.val) = some x → (t.fdie (x.chan / 32)).pulsing.getLsbD (k.val % 8) = false))
  ∧ (∀ (s : State) (d : Die) (n : Fin 128),
      (∃ t, exec (.offPulseStart d n) s = .next t ∧ t = { s with a := t.a, b := t.b, fd := t.fd }
          ∧ (s.fOn (n.val / 32) = true → ((s.fdie (n.val / 32)).port d).opReq.getLsbD (n.val % 32) = true →
              Tab.get 0 (s.fdie (n.val / 32)).modes (n.val % 32) = 3 →
              ((t.fdie (n.val / 32)).port d).opRun = ((s.fdie (n.val / 32)).port d).opRun ||| chBit (n.val % 32)))
      ∧ (∃ t, exec (.offPulseEnd d n) s = .next t ∧ t = { s with a := t.a, b := t.b, fd := t.fd, regs := t.regs }
          ∧ (s.fOn (n.val / 32) = true → ((s.fdie (n.val / 32)).port d).opRun.getLsbD (n.val % 32) = true →
              ((t.fdie (n.val / 32)).port d).opRun = ((s.fdie (n.val / 32)).port d).opRun &&& ~~~chBit (n.val % 32)))
      ∧ (s.fOn (n.val / 32) = false ∨ ((s.fdie (n.val / 32)).port d).opReq.getLsbD (n.val % 32) = false
          ∨ Tab.get 0 (s.fdie (n.val / 32)).modes (n.val % 32) ≠ 3 → exec (.offPulseStart d n) s = .next s)
      ∧ (s.fOn (n.val / 32) = false ∨ ((s.fdie (n.val / 32)).port d).opRun.getLsbD (n.val % 32) = false → exec (.offPulseEnd d n) s = .next s)
      ∧ (((s.die d).outSup n.val).cleanSince.isSome = true → (s.cmdOn n.val).2 = false → ((s.die d).chain n.val).img = false →
          exec (.outputCodeClear d n) s = .next (s.updDie d fun l => l.updOut n.val fun o => { o with codes := 0 }))
      ∧ (((s.die d).outSup n.val).cleanSince = none ∨ (s.cmdOn n.val).2 = true ∨ ((s.die d).chain n.val).img = true →
          exec (.outputCodeClear d n) s = .next s)
      ∧ exec (.dischargeSinkRelease n) s = .next (s.updF (n.val / 32) fun x => { x with sinks := x.sinks &&& ~~~chBit (n.val % 32) }))
  ∧ ∀ (s : State) (d : Die) (n : Fin 128) (m : Nat), (4 < m → exec (.channelModeWrite d n m) s = .next s)
      ∧ (m ≤ 4 → n.val / 32 ∈ s.fdies → (s.fdie (n.val / 32)).powered = true → (s.fdie (n.val / 32)).a.cfgOpen = true →
          (s.fdie (n.val / 32)).b.cfgOpen = true → ∃ t, exec (.channelModeWrite d n m) s = .next t
          ∧ Tab.get 0 ((t.fdie (n.val / 32)).port d).modes (n.val % 32) = m
          ∧ Tab.get 0 (t.fdie (n.val / 32)).modes (n.val % 32)
            = (if Tab.get 0 ((s.fdie (n.val / 32)).port d.peer).modes (n.val % 32) = m then m else 0)
          ∧ t = { s with flt := t.flt, fd := t.fd, regs := t.regs })

/-- R316, R321 to R327. -/
def Obligations.ClockSourcesStartAndFail : Prop :=
  (∀ (s : State) (d : Die) (us : Nat), let x := if d = .a then Src.refA else Src.refB
      ((s.clk.src x).st ≠ .starting → exec (.crystalFirstValidCycle d us) s = .next s)
      ∧ ((s.clk.src x).st = .starting → ∃ t, exec (.crystalFirstValidCycle d us) s = .next t ∧ t.reg 0x2015 (3 + d.n) = us
          ∧ t.clk = s.clk.setSrc x { (s.clk.src x) with st := if s.clk.s4 = false ∧ s.reg 0x2010 (d.n + 1) = 0 then .released else .valid }
          ∧ t = { s with clk := t.clk, regs := t.regs })
      ∧ exec (.crystalRelease d) s = .next (if (s.clk.src x).st = .valid then
          { s with clk := s.clk.setSrc x { (s.clk.src x) with st := .released } } else s))
  ∧ (∀ (s : State) (p : Pll), ((s.clk.src p.src).st ∈ [.off, .starting, .valid, .waiting] → exec (.pllLock p) s = .next s)
      ∧ ((s.clk.src p.src).st ∈ [.released, .locked, .passed] → ∃ t, exec (.pllLock p) s = .next t ∧ t = { s with clk := t.clk }
          ∧ (t.clk.src p.src).st = (if (s.clk.src p.src).st = .released then .locked else (s.clk.src p.src).st)
          ∧ t.clk.sw p.sw = (if p = .pmu ∧ s.clk.tripHeld = true then s.clk.sw p.sw else (s.clk.sw p.sw).request false))
      ∧ ((p ≠ .pmu ∨ s.modes.mode = .boot ∨ s.modes.mode = .shelf) → (p ≠ .mem ∨ s.order = 830) →
          exec (.pllUnlock p) s = .next { s with clk := (s.clk.setLock p false).updSw p.sw fun w => w.request true })
      ∧ (p = .mem → s.order ≠ 830 → exec (.pllUnlock p) s = .next
          ((State.jrnStop { s with clk := (s.clk.setLock p false).updSw p.sw fun w => w.request true } .a).jrnStop .b))
      ∧ (p = .pmu → s.modes.mode ≠ .boot → s.modes.mode ≠ .shelf → ∃ t, exec (.pllUnlock p) s = .next t ∧ t.clk.failed.getLsbD 4 = true
          ∧ t.tripLine .a = true ∧ t.tripLine .b = true ∧ t.pers = s.pers ∧ t.pat = s.pat))
  ∧ (∀ (s : State) (x : Src), ((s.clk.src x).st ∉ [.locked, .passed] ∨ ((s.clk.src x).st = .passed ∧ s.clk.down &&& x.domains = 0) → exec (.startRulePass x) s = .next s)
      ∧ ((s.clk.src x).st = .locked ∨ ((s.clk.src x).st = .passed ∧ s.clk.down &&& x.domains ≠ 0) → ∃ t, exec (.startRulePass x) s = .next t ∧ (t.clk.src x).st = .passed ∧ t.pers = s.pers
          ∧ t.clk.armed = s.clk.armed ||| (x.domains &&& ~~~s.clk.gated) ∧ t.clk.down = s.clk.down &&& ~~~x.domains)
      ∧ ((s.clk.src x).st ∉ [.released, .locked] → exec (.startAttemptFail x) s = .next s)
      ∧ ((s.clk.src x).st ∈ [.released, .locked] → ∃ t, exec (.startAttemptFail x) s = .next t
          ∧ t.clk.src x = { st := .waiting, fails := (s.clk.src x).fails + 1 }
          ∧ ((s.clk.src x).fails < 2 → t = { s with clk := t.clk })
          ∧ (2 ≤ (s.clk.src x).fails → s.flt.diverts.getLsbD 55 = false → t.fswBit 55 = true))
      ∧ ((s.clk.src x).st ≠ .waiting → exec (.oscRestart x) s = .next s)
      ∧ ((s.clk.src x).st = .waiting → ∃ t, exec (.oscRestart x) s = .next t ∧ t = { s with clk := t.clk, regs := t.regs }
          ∧ t.clk.src x = { (s.clk.src x) with st := if x = .refA ∨ x = .refB then .starting else .released }))
  ∧ (∀ (s : State) (dom : Fin 18) (d : Die),
      (s.clk.armed.getLsbD dom.val = false ∨ dom.val = 17 ∨ (dom.val = 2 ∨ dom.val = 3) ∧ s.clk.down.getLsbD 1 = true → exec (.clockFail dom d) s = .next s)
      ∧ (s.clk.armed.getLsbD dom.val = true → dom.val ≠ 17 → ((dom.val = 2 ∨ dom.val = 3) → s.clk.down.getLsbD 1 = false) → ∃ t, exec (.clockFail dom d) s = .next t
          ∧ t.clk.failed.getLsbD dom.val = true ∧ (dom.val ∉ [0, 11] → t.clk.armed.getLsbD dom.val = false)
          ∧ t.tripLine .a = true ∧ t.tripLine .b = true
          ∧ (s.flt.diverts.getLsbD 55 = false → t.fswBit 55 = true)
          ∧ (dom.val ∉ [0, 11] → t.clk.down.getLsbD dom.val = true ∧ t.clk.stitchIdle = true)
          ∧ t.pers = s.pers ∧ t.pat = s.pat ∧ t.keys = s.keys ∧ t.rings = s.rings ∧ t.tmr = s.tmr))
  ∧ ∀ (s : State) (x : ClkSw) (b : Bool), ((s.clk.sw x).busy = none → exec (.clockSwitchComplete x b) s = .next s)
      ∧ (∀ o, (s.clk.sw x).busy = some o → ∃ t, exec (.clockSwitchComplete x b) s = .next t ∧ t = { s with clk := t.clk }
          ∧ (t.clk.sw x).other = o ∧ t.clk.forced = (s.clk.forced || b)
          ∧ (t.clk.sw x).busy = (if (s.clk.sw x).wait = some (!o) then some (!o) else none))

/-- R39, R217, R218, R268, R269, R279, R280, R289: what the frames and events of one network do. -/
def Obligations.NetworkFramesStayOnTheirNetwork : Prop :=
  (∀ (s : State) (d : Die), let own (t : State) : Prop := t.die d.peer = s.die d.peer ∧ (t.die d).eng = (s.die d).eng
          ∧ (t.die d).cur = (s.die d).cur ∧ (t.die d).cmp = (s.die d).cmp ∧ (t.die d).chains = (s.die d).chains
          ∧ t = { s with a := t.a, b := t.b, regs := t.regs };
      (∀ p h b i, ∃ t, exec (.safeTelegramRx d p h b i) s = .next t ∧ own t)
      ∧ (∀ p h b i, ∃ t, exec (.positionTelegramRx d ⟨p, h⟩ b i) s = .next t ∧ own t)
      ∧ (∀ p x e q, ∃ t, exec (.egressLost d p x e q) s = .next t ∧ own t)
      ∧ (∀ p, ∃ t, exec (.linkDown d p) s = .next t ∧ own t) ∧ (∀ p g, ∃ t, exec (.linkUp d p g) s = .next t ∧ own t)
      ∧ (∀ p, ∃ t, exec (.telegramReplay d p) s = .next t ∧ own t) ∧ (∀ p m a tag e fin, ∃ t, exec (.frameForward d p m a tag e fin) s = .next t ∧ own t)
      ∧ (∀ m, ∃ t, exec (.fdbAgeout d m) s = .next t ∧ own t) ∧ (∀ p h m a b, ∃ t, exec (.arpRequestRx d ⟨p, h⟩ m a b) s = .next t ∧ own t)
      ∧ (∀ p h m a b, ∃ t, exec (.neighbourDiscoveryRx d ⟨p, h⟩ m a b) s = .next t ∧ own t)
      ∧ ∀ p h v f a b l, ∃ t, exec (.echoRequestRx d ⟨p, h⟩ v f a b l) s = .next t ∧ own t)
  ∧ (∀ (s : State) (d : Die) (p : Fin 2) (h : EthHdr) (b : List Byte) (i : Nat),
      (s.ticking d = false ∨ ((s.die d).net.port p.val).link = false ∨ s.isSafe d h = false →
        exec (.safeTelegramRx d p h b i) s = .next s ∧ exec (.positionTelegramRx d ⟨p, h⟩ b i) s = .next s)
      ∧ (s.ticking d = true → ((s.die d).net.port p.val).link = true → s.isSafe d h = true →
        (s.frameOk d h (h.size b.length) = false →
          exec (.safeTelegramRx d p h b i) s = .next (s.dropSafe d) ∧ exec (.positionTelegramRx d ⟨p, h⟩ b i) s = .next (s.dropSafe d))
        ∧ (s.pattern = none ∨ (∃ x, s.pattern = some x ∧ x.inRec d (tConn b) = none) → exec (.safeTelegramRx d p h b i) s = .next (s.dropSafe d))
        ∧ (s.pattern = none ∨ (∃ x, s.pattern = some x ∧ x.streamRec d (tConn b) = none) →
            exec (.positionTelegramRx d ⟨p, h⟩ b i) s = .next (s.dropSafe d))
        ∧ (∀ x c q par, s.frameOk d h (h.size b.length) = true →
          s.pattern = some x → x.inRec d (tConn b) = some c → x.connPos true (tConn b) = some q → (x.insts[q]?).map Inst.block = some (.connIn par) →
          let old := Tab.get InConn.init (s.die d).ins q
          let code := s.rxCheck d c par old (s.ingressOf d (tConn b) i) b
          let span := s.arrival d (s.ingressOf d (tConn b) i) (s.wdEnds d q par)
          let keys := if par.auth = 1 then keepKeys old.last old.keys (tBoot b) (tEpoch b) (s.keyFor d c old.keys b) else old.keys
          let copy : Copy := { span := span, ingress := s.ingressOf d (tConn b) i, boot := tBoot b, epoch := tEpoch b, seq := tSeq b, body := tFields b }
          (code = 11 → exec (.safeTelegramRx d p h b i) s = .next (s.bump 32 (0x7100 + x.inNo q) 0x0B))
          ∧ (code ∉ [0, 11] → ∃ t, exec (.safeTelegramRx d p h b i) s = .next t
              ∧ Tab.get InConn.init (t.die d).ins q = { old with lastChk := code })
          ∧ (code = 0 → old.full span = true → exec (.safeTelegramRx d p h b i) s = .next (s.dropSafe d))
          ∧ (code = 0 → old.full span = false → ∃ t, exec (.safeTelegramRx d p h b i) s = .next t
              ∧ Tab.get InConn.init (t.die d).ins q = (InConn.hold { old with keys := keys } copy).1))
        ∧ (∀ x c k, s.frameOk d h (h.size b.length) = true → s.pattern = some x → x.streamRec d (tConn b) = some (c, k) →
          let old := Tab.get Stream.init (s.die d).streams k
          let code := s.posCheck d c old (s.ingressOf d (tConn b) i) b
          (code = 11 → exec (.positionTelegramRx d ⟨p, h⟩ b i) s = .next (s.bump 32 (0x6400 + k) 5))
          ∧ (1 ≤ code → code ≤ 3 → exec (.positionTelegramRx d ⟨p, h⟩ b i) s = .next (s.dropSafe d))
          ∧ (4 ≤ code → code ≠ 11 → exec (.positionTelegramRx d ⟨p, h⟩ b i) s = .next s)
          ∧ (code = 0 → ∃ t, exec (.positionTelegramRx d ⟨p, h⟩ b i) s = .next t ∧ (Tab.get Stream.init (t.die d).streams k).seq = tSeq b
              ∧ (Tab.get Stream.init (t.die d).streams k).epoch = tEpoch b ∧ (Tab.get Stream.init (t.die d).streams k).boot = tBoot b
              ∧ (Tab.get Stream.init (t.die d).streams k).buf.length = old.buf.length + 1))))
  ∧ (∀ (s : State) (d : Die) (p : Fin 2), ∃ t, exec (.linkDown d p) s = .next t ∧ ((t.die d).net.port p.val).link = false
      ∧ ((t.die d).net.port p.val).replay = false ∧ ((t.die d).net.port p.val).queue = []
      ∧ ((t.die d).net.port (1 - p.val)).link = ((s.die d).net.port (1 - p.val)).link)
  ∧ (∀ (s : State) (d : Die) (p : Fin 2) (g : Bool),
      (s.reg 0x7001 (portSub d p.val) = 2 → exec (.linkUp d p g) s = .next s)
      ∧ (s.reg 0x7001 (portSub d p.val) ≠ 2 → ∃ t, exec (.linkUp d p g) s = .next t ∧ ((t.die d).net.port p.val).link = true
          ∧ ((t.die d).net.port p.val).gigabit = (g && s.reg 0x7001 (portSub d p.val) == 0)
          ∧ ((t.die d).net.port p.val).replay = !((s.die d).net.port p.val).lost.isEmpty))
  ∧ (∀ (s : State) (d : Die) (p : Fin 2) (c e q : Nat), ∃ t, exec (.egressLost d p c e q) s = .next t
      ∧ t.reg 0x7009 (5 + d.n) = satInc 32 (s.reg 0x7009 (5 + d.n))
      ∧ (∀ r, (s.die d).net.released.find? (fun r => r.conn == c && r.epoch == e && r.seq == q && bitAt r.ports p.val) = some r →
          ((t.die d).net.port p.val).lost = ((s.die d).net.port p.val).lost ++ [(r.span, c, e, q)]
          ∧ ((t.die d).net.port p.val).replay = ((s.die d).net.port p.val).link)
      ∧ ((s.die d).net.released.find? (fun r => r.conn == c && r.epoch == e && r.seq == q && bitAt r.ports p.val) = none → t.die d = s.die d))
  ∧ (∀ (s : State) (d : Die) (p : Fin 2),
      (s.ticking d = false ∨ ((s.die d).net.port p.val).replay = false ∨ ((s.die d).net.port p.val).link = false ∨ (s.die d).net.macReset = true
        ∨ (s.die d).net.idle = true ∨ (s.die d).tb.phase ≠ .s → exec (.telegramReplay d p) s = .next s)
      ∧ (s.ticking d = true → ((s.die d).net.port p.val).replay = true → ((s.die d).net.port p.val).link = true → (s.die d).net.macReset = false →
          (s.die d).net.idle = false → (s.die d).tb.phase = .s → ∃ t, exec (.telegramReplay d p) s = .next t
          ∧ ((t.die d).net.port p.val).lost = [] ∧ ((t.die d).net.port p.val).replay = false ∧ (t.die d).net.released = (s.die d).net.released))
  ∧ (∀ (s : State) (d : Die) (p : Fin 2) (h : EthHdr) (len : Nat),
      (s.netRx d p.val = false ∨ s.takes d h len = false → exec (.frameForward d p h.dst h.src h.tag h.etype ⟨len, h.fcsOk⟩) s = .next s)
      ∧ (s.netRx d p.val = true → s.takes d h len = true → ∃ net : Net, exec (.frameForward d p h.dst h.src h.tag h.etype ⟨len, h.fcsOk⟩) s = .next (s.updDie d fun l => { l with
            net := if s.fwdTo d p.val h ≠ 0 ∧ len ≤ s.reg 0x7002 (portSub d (1 - p.val)) then
              net.send (1 - p.val) { queue := pcpQueue h.pcp, bytes := h.bytes, len := len } else net })
          ∧ net = { (s.die d).net with fdb := net.fdb }
          ∧ (h.fcsOk = true → bitAt h.src 40 = false → s.fdbStatic d h.vid h.src = none →
              Tab.get none (s.die d).net.fdb h.src ≠ none ∨ (s.die d).net.fdb.length < 1024 → Tab.get none net.fdb h.src = some p.val)
          ∧ (h.fcsOk = false ∨ bitAt h.src 40 = true ∨ s.fdbStatic d h.vid h.src ≠ none → net.fdb = (s.die d).net.fdb)
          ∧ ∀ m, m ≠ h.src → Tab.get none net.fdb m = Tab.get none (s.die d).net.fdb m))
  ∧ (∀ (n : Net) (k : Fin 2) (f : EthFrame), (n.sends k.val = false → n.send k.val f = n)
      ∧ (n.sends k.val = true → f.queue < 8 → (n.port k.val).gates / 2 ^ f.queue % 2 = 1 → (n.port k.val).queue = [] →
          (n.send k.val f).sent = n.sent ++ [(k.val, f.bytes)] ∧ ((n.send k.val f).port k.val).queue = [])
      ∧ (n.sends k.val = true → (n.port k.val).gates = 0 →
          (n.send k.val f).sent = n.sent ∧ ((n.send k.val f).port k.val).queue = (n.port k.val).queue ++ [f]))
  ∧ (∀ (s : State) (d : Die) (m : Nat), ∃ t, exec (.fdbAgeout d m) s = .next t ∧ Tab.get none (t.die d).net.fdb m = none
      ∧ ∀ k, k ≠ m → Tab.get none (t.die d).net.fdb k = Tab.get none (s.die d).net.fdb k)
  ∧ (∀ (s : State) (d : Die) (p : Fin 2) (h : EthHdr) (m src dst : Nat),
      (s.mgmtRx d p.val h 28 = false → exec (.arpRequestRx d ⟨p, h⟩ m src dst) s = .next s)
      ∧ (s.mgmtRx d p.val h 28 = true → ((s.die d).mgmt ≠ .serving → exec (.arpRequestRx d ⟨p, h⟩ m src dst) s = .next (s.bump 32 0x7009 (1 + d.n)))
        ∧ ((s.die d).mgmt = .serving → dst = 0 ∨ dst ≠ s.ip4 d ∨ h.etype ≠ 0x0806 → exec (.arpRequestRx d ⟨p, h⟩ m src dst) s = .next s)
        ∧ ((s.die d).mgmt = .serving → dst ≠ 0 → dst = s.ip4 d → h.etype = 0x0806 →
          exec (.arpRequestRx d ⟨p, h⟩ m src dst) s = .next (s.answer d p.val m 0x0806 0 (beBytes 2 1 ++ beBytes 2 0x0800 ++ [6, 4] ++ beBytes 2 2
            ++ beBytes 6 (Config.macAddr (d.n + 1)) ++ beBytes 4 dst ++ beBytes 6 m ++ beBytes 4 src))))
      ∧ (let g := if h.dst = 0x3333FF000000 + s.ip6 d % 2 ^ 24 then { h with dst := Config.macAddr (d.n + 1) } else h
        (s.mgmtRx d p.val g 72 = false → exec (.neighbourDiscoveryRx d ⟨p, h⟩ m src dst) s = .next s)
        ∧ (s.mgmtRx d p.val g 72 = true → ((s.die d).mgmt ≠ .serving → exec (.neighbourDiscoveryRx d ⟨p, h⟩ m src dst) s = .next (s.bump 32 0x7009 (1 + d.n)))
          ∧ ((s.die d).mgmt = .serving → dst = 0 ∨ dst ≠ s.ip6 d ∨ h.etype ≠ 0x86DD → exec (.neighbourDiscoveryRx d ⟨p, h⟩ m src dst) s = .next s)
          ∧ ((s.die d).mgmt = .serving → dst ≠ 0 → dst = s.ip6 d → h.etype = 0x86DD →
            exec (.neighbourDiscoveryRx d ⟨p, h⟩ m src dst) s = .next (s.answer d p.val m 0x86DD 40 (icmp6 dst src 136
              ([0x60, 0, 0, 0] ++ beBytes 16 dst ++ [2, 1] ++ beBytes 6 (Config.macAddr (d.n + 1)))))))))
  ∧ ∀ (s : State) (d : Die) (p : Fin 2) (h : EthHdr) (v6 : Bool) (frags src dst : Nat) (l : List Byte),
      let n := (if v6 then 40 else 20) + 4 + l.length
      let size := if frags ≤ 1 then n else 46
      let et := if v6 then 0x86DD else 0x0800
      (s.mgmtRx d p.val h size = false → exec (.echoRequestRx d ⟨p, h⟩ v6 frags src dst l) s = .next s)
      ∧ (s.mgmtRx d p.val h size = true → ((s.die d).mgmt ≠ .serving → exec (.echoRequestRx d ⟨p, h⟩ v6 frags src dst l) s = .next (s.bump 32 0x7009 (1 + d.n)))
        ∧ ((s.die d).mgmt = .serving → (dst = 0 ∨ dst ≠ (if v6 then s.ip6 d else s.ip4 d) ∨ 2 < frags ∨ 1500 < n ∨ h.etype ≠ et) →
            exec (.echoRequestRx d ⟨p, h⟩ v6 frags src dst l) s = .next s)
        ∧ ((s.die d).mgmt = .serving → dst ≠ 0 → dst = (if v6 then s.ip6 d else s.ip4 d) → frags ≤ 2 → n ≤ 1500 → h.etype = et →
            ∃ msg, exec (.echoRequestRx d ⟨p, h⟩ v6 frags src dst l) s = .next (s.answer d p.val h.src et (if v6 then 40 else 20) msg)
              ∧ msg.drop 4 = l ∧ msg.length = 4 + l.length))

/-- R101 to R128, R229 to R259, R284, R285 (the model's choice for the expiry rows is log 31): what an expiry does. -/
def Obligations.TimeLimitsActOnTheirInstance : Prop :=
  (∀ (s : State) (d : Die) (inst : Nat),
    let frees (k : Fin 17) (q : Nat) (r : Res) : State := s.setDie d { s.die d with eng := { (s.die d).eng with lanes := Tab.set .free (s.die d).eng.lanes k .free, done := (s.die d).eng.done ++ [(q, r)] } };
    let ends (n : Nat) (lim : Lim) (t : State) : Prop := (s.limLane d n lim = none → t = s)
      ∧ ((s.die d).eng.active = false ∨ s.onRef d = true → t = s)
      ∧ (∀ p q k, s.pattern = some p → s.limLane d n lim = some k → p.pos n = some q → (s.die d).eng.active = true → s.onRef d = false →
          (∀ r, runJob (s.env d) p q = some r → t = ((frees k q r).advance d p).settleReplay d)
          ∧ (runJob (s.env d) p q = none → t = s.laneFail d k p))
      ∧ t = { s with modes := t.modes, pow := t.pow, flt := t.flt, leases := t.leases, a := t.a, b := t.b, fd := t.fd, regs := t.regs, br := t.br, rings := t.rings, crc := t.crc, otp := t.otp, st := t.st, upd := t.upd, pat := t.pat, freeCtr := t.freeCtr };
    (∃ t, exec (.connWatchdogExpire d inst) s = .next t ∧ ends inst limWatchdog t)
    ∧ (∃ t, exec (.loneBudgetExpire d inst) s = .next t ∧ ends inst limLone t)
    ∧ (∃ t, exec (.discTimerExpire d inst) s = .next t ∧ ends inst limDisc t)
    ∧ (∃ t, exec (.lockMismatchExpire d inst) s = .next t ∧ ends inst limMismatch t)
    ∧ (∃ t, exec (.muteTimeExpire d inst) s = .next t ∧ ends inst (limMute 1) t)
    ∧ (∃ t, exec (.overrideTimeExpire d inst) s = .next t ∧ ends inst (limMute 2) t)
    ∧ (∃ t, exec (.contactTExpire d inst) s = .next t ∧ ends inst limContact t)
    ∧ (∃ t, exec (.modeselDiscExpire d inst) s = .next t ∧ ends inst limModesel t)
    ∧ (∃ t, exec (.edmTimeout d inst) s = .next t ∧ ends inst limEdm t)
    ∧ (∃ t, exec (.timerPtExpire d inst) s = .next t ∧ ends inst limTimer t)
    ∧ (∃ t, exec (.outsafeDlyExpire d inst) s = .next t ∧ ends inst limDly t)
    ∧ (∃ t, exec (.stdinStale d inst) s = .next t ∧ ends inst limStale t)
    ∧ (∃ t, exec (.streamLost d inst) s = .next t ∧ ends inst limStream t)
    ∧ (∃ t, exec (.stoFbTimeout d inst) s = .next t ∧ ends inst limStoFb t)
    ∧ (∃ t, exec (.ss1StopTimeout d inst) s = .next t ∧ ends inst limRamp t)
    ∧ (∃ t, exec (.slsAdaptExpire d inst) s = .next t ∧ ends inst limAdapt t)
    ∧ (∃ t, exec (.sbcFbTimeout d inst) s = .next t ∧ ends inst limSbcFb t)
    ∧ (∃ t, exec (.sbtTestTimeout d inst) s = .next t ∧ ends inst limSbt t)
    ∧ (∃ t, exec (.sbtIntervalExpire d inst) s = .next t ∧ ends inst limSbtAge t)
    ∧ (∃ t, exec (.groupEngageExpire d inst) s = .next t ∧ ends inst limGroup t)
    ∧ (∃ t, exec (.tensionFilterExpire d inst) s = .next t ∧ ends inst limTension t)
    ∧ (∃ t, exec (.brakeEngageExpire d inst) s = .next t ∧ ends (Pattern.axisInstOf s.pattern inst) limBrake t)
  )
  ∧ (∀ (s : State) (d : Die) (n : Nat) (lim : Lim) (k : Fin 17), s.limLane d n lim = some k ↔
      ∃ p q i, s.pattern = some p ∧ p.pos n = some q ∧ p.insts[q]? = some i ∧ lim (s.env d) p q i ((s.env d).comSt p q) = true
        ∧ (s.die d).eng.laneOf q = some k)
  ∧ (∀ (e : Engine) (q : Nat) (k : Fin 17), e.laneOf q = some k → Tab.get LaneSt.free e.lanes k = .busy q)
  ∧ (∀ (e : Engine) (q : Nat), e.laneOf q = none → ∀ k < 17, Tab.get LaneSt.free e.lanes k ≠ .busy q)

/-- R362 to R371, R379, R380. -/
def Obligations.BridleFramesAreCheckedInOrder : Prop :=
  (∀ (s : State) (f : Frame),
      let req (op : Nat) (shape : Bool) (act : State → State) (t : State) : Prop := let s0 := if f.tr = 0 then { s with br := { s.br with rx := s.br.rx.erase (op, f) } } else s
        let s2 := s0.takeFrame f.seat
        let s3 := s2.updSeat f.seat fun y => { y with last := s.time }
        let r := respOf op f
        let kept := (s0.br.seat f.seat).kept.find? fun y => y.1 == f.reqId && y.2.1 == f.crc
        ((f.tr = 0 ∧ (op, f) ∉ s.br.rx) ∨ s.receives (Machine.Frame.die f) f.tr = false → t = s0)
        ∧ ((f.tr ≠ 0 ∨ (op, f) ∈ s.br.rx) → s.receives (Machine.Frame.die f) f.tr = true →
          (Frame.good op f = false ∨ s.belongs f = false → t = s0.bump 32 0x1200 1)
          ∧ (Frame.good op f = true → s.belongs f = true →
              (∀ y, kept = some y → t = s2.post r.dst y.2.2)
              ∧ (kept = none →
                  (s2.tokenCheck op f = some .keygone → t = ((s2.endSession f.seat).ans .keygone).sendAns r)
                  ∧ (∀ st, s2.tokenCheck op f = some st → st ≠ .keygone → t = (s2.ans st).sendAns r)
                  ∧ (s2.tokenCheck op f = none →
                      (s0.hasFrame f.seat = false → t = (s3.ansBusy (s0.frameRetry f.seat)).sendAns r)
                      ∧ (s0.hasFrame f.seat = true → 4 ≤ s3.outstanding f.seat → t = (s3.ansBusy 1).sendAns r)
                      ∧ (s0.hasFrame f.seat = true → s3.outstanding f.seat < 4 →
                          ((s3.die r.die).mgmt = .restarting → t = (s3.ansBusy 0xFFFF).sendAns r)
                          ∧ ((s3.die r.die).mgmt ≠ .restarting →
                              (shape = false ∨ f.rsvd ≠ 0 ∨ f.status ≠ 0 → t = (s3.ans .format).sendAns r)
                              ∧ (shape = true → f.rsvd = 0 → f.status = 0 →
                                  t = if s3.modeServes op f then act s3 else (s3.ans .mode).sendAns r)))))));
      (∃ t, exec (.read f) s = .next t ∧ req 1 (f.payload.length == 4 && leAt f.payload 3 1 == 0)
          (fun u => u.atHome 1 f (reqIdx f) (reqSub f) fun v => v.readOn (Machine.Frame.die f) f) t)
      ∧ (∃ t, exec (.write f) s = .next t ∧ req 2 (decide (4 ≤ f.payload.length)) (fun u => u.writeReq f) t)
      ∧ (∃ t, exec (.readBlock f) s = .next t ∧ req 3 (f.payload.length == 12 && leAt f.payload 10 2 == 0)
          (fun u => u.atHome 3 f (reqIdx f) (reqSub f) fun v => v.readBlockOn (Machine.Frame.die f) f) t)
      ∧ (∃ t, exec (.writeBlock f) s = .next t ∧ req 4 (decide (12 ≤ f.payload.length) && leAt f.payload 10 2 == 0
            && (blkCount f == 0 || f.payload.length == 12 + blkCount f)) (fun u => u.writeBlockReq f) t)
      ∧ (∃ t, exec (.subscribe f) s = .next t ∧ req 5 (f.payload.length == 6 && leAt f.payload 3 1 == 0) (fun u => u.watch f) t)
      ∧ ∃ t, exec (.unsubscribe f) s = .next t ∧ req 6 (f.payload.length == 2) (fun u => u.unwatch f) t)
  ∧ (∀ (s : State) (r : RespTo) (b : Bool) (l : List WItem), (s.writeAll (Fin.ofNat 8 r.seat) r.die l).br.last = .ok →
      s.takeWrite r b l = { s with br := { s.br with
        writes := s.br.writes ++ [{ id := s.br.nextId, recv := s.nowNs r.die, acked := false, apply := s.applySpan, pass := (s.br.seat r.seat).pass, items := l, resp := r }],
        nextId := s.br.nextId + 1 } })
  ∧ (∀ s : State, (s.modes.mode = .shelf → exec .writeApply s = .next s)
      ∧ (s.modes.mode ≠ .shelf → let due := (s.br.writes.filter fun w => decide (w.apply ≤ s.spanNo)).foldl (fun l w => insWrite w l) []
          let s0 : State := { s with br := { s.br with writes := s.br.writes.filter fun w => !decide (w.apply ≤ s.spanNo) } }
          let u := (due.foldl State.applyWrite s0).reopen
          ((∀ w ∈ due, ∀ x ∈ w.items, x.idx < 0xD010 ∨ 0xD015 ≤ x.idx) → exec .writeApply s = .next u.activateApply)
          ∧ ((∃ w ∈ due, ∃ x ∈ w.items, 0xD010 ≤ x.idx ∧ x.idx < 0xD015) → exec .writeApply s = .next u.ptAgain.activateApply))
      ∧ ((∀ w ∈ s.br.writes, s.spanNo < w.apply) → s.modes.mode ≠ .shelf → exec .writeApply s = .next (s.reopen.activateApply)))
  ∧ (∀ l : List PendWrite, (l.foldl (fun l w => insWrite w l) []).Perm l
      ∧ (l.foldl (fun l w => insWrite w l) []).Pairwise fun x y => x.recv ≤ y.recv)
  ∧ (∀ (s : State) (w : PendWrite),
      (w.acked = false ∨ s.admitted .a = false ∨ s.admitted .b = false → s.applyWrite w = (s.ansBusy 1).sendAns w.resp)
      ∧ (w.acked = true → s.admitted .a = true → s.admitted .b = true → (w.pass = (s.br.seat w.resp.seat).pass ∨ ∃ x ∈ w.items, x.idx = 0x1011) →
          let u := s.writeAll (Fin.ofNat 8 w.resp.seat) w.resp.die w.items
          (u.br.last = .ok → s.applyWrite w = (w.items.foldl (fun (v : State) y => v.takeNow w.recv y) u).applyAnswer s w.resp)
          ∧ (u.br.last ≠ .ok → w.resp.op = 4 → s.applyWrite w = u.asBlock.sendAns w.resp)
          ∧ (u.br.last ≠ .ok → w.resp.op ≠ 4 → s.applyWrite w = u.sendAns w.resp)))
  ∧ (∀ (s : State) (f : Frame), (leAt f.payload 0 2 = 0xFFFF ∨ ∃ y ∈ s.br.subs, y.seat = f.seat ∧ y.id = leAt f.payload 0 2) →
      ∀ y, y ∈ (s.unwatch f).br.subs ↔ (y ∈ s.br.subs ∧ ¬ (y.seat = f.seat ∧ (leAt f.payload 0 2 = 0xFFFF ∨ y.id = leAt f.payload 0 2))))
  ∧ (∀ (s : State) (n : Nat), (s.br.subs.find? (fun y => y.id == n) = none → exec (.notification n) s = .next s)
      ∧ ∀ y, s.br.subs.find? (fun y => y.id == n) = some y →
        ((y.sent = some y.cur ∧ y.ev = false) ∨ s.spanNo < y.lastSpan + y.gap → exec (.notification n) s = .next s)
        ∧ (y.sent ≠ some y.cur ∨ y.ev = true → y.lastSpan + y.gap ≤ s.spanNo → ∃ t, exec (.notification n) s = .next t
            ∧ t = { s with br := t.br, regs := t.regs }
            ∧ (∀ z ∈ t.br.subs, z.id = y.id → z.unsent = 0 ∧ z.ev = false ∧ z.sent = some y.cur ∧ z.lastSpan = s.spanNo)
            ∧ t.reg 0x1200 4 = min (2 ^ 32 - 1) (s.reg 0x1200 4 + (y.unsent - 1))
            ∧ (y.dst.tr = 0 → t.br.notif = s.br.notif ++ [s.notifBytes y]) ∧ (y.dst.tr ≠ 0 → t.br.out = (y.dst, s.notifBytes y) :: s.br.out)))
  ∧ ∀ (s : State) (w : Bool) (op : Nat) (f : Frame),
      (s.hspiOn = false → exec (.writeFrame w op f) s = .next s ∧ exec (.readFrame w) s = .next s ∧ exec .readStatus s = .next s)
      ∧ (s.hspiOn = true → f.tr = 0 → (w = false ∨ 4 ≤ s.br.rx.length) → exec (.writeFrame w op f) s = .next (s.bump 32 0x1200 2))
      ∧ (s.hspiOn = true → f.tr = 0 → w = true → s.br.rx.length < 4 → 1 ≤ op → op ≤ 6 →
          exec (.writeFrame w op f) s = .next { s with br := { s.br with rx := s.br.rx ++ [(op, f)] } })
      ∧ (f.tr ≠ 0 → exec (.writeFrame w op f) s = .next s)
      ∧ (s.hspiOn = true → f.tr = 0 → w = true → s.br.rx.length < 4 → op = 0 ∨ 6 < op → exec (.writeFrame w op f) s
          = .next (({ s with br := { s.br with rx := s.br.rx ++ [(op, f)] } } : State).request op f false id))
      ∧ (s.hspiOn = true → (∃ t, exec (.readFrame w) s = .next t ∧ t.br.shifted = (s.br.resp ++ s.br.notif).headD [0, 0]
            ∧ t.br.resp ++ t.br.notif = (if w then (s.br.resp ++ s.br.notif).tail else s.br.resp ++ s.br.notif) ∧ t = { s with br := t.br })
          ∧ exec .readStatus s = .next { s with br := { s.br with shifted := [BitVec.ofNat 8 (bitsOf [(0, !s.br.resp.isEmpty), (1, !s.br.notif.isEmpty),
              (2, decide (4 ≤ s.br.rx.length)), (3, s.cosSet)])] } })

/-- R357, R362, R372 to R378. -/
def Obligations.SeatsLogInAndOut : Prop :=
  (∀ (s : State) (k : Fin 8), s.open_ → ∃ t x, exec (.seatChal k) s = .next t ∧ t.br.last = .ok ∧ t.br.data = leBytes 8 x
      ∧ t.br.seat k.val = { (s.br.seat k.val) with chal := some x } ∧ (∀ j, j ≠ k.val → t.br.seat j = s.br.seat j)
      ∧ t = { s with br := t.br, freeCtr := t.freeCtr })
  ∧ (∀ (s : State) (k : Fin 8) (b : List Byte), let x := s.br.seat k.val
      (x.keyGone = true → x.sess = none → s.serves = true →
        exec (.seatLogin k b) s = .next ((s.updSeat k.val fun y => { y with keyGone := false, chal := none }).ans .keygone))
      ∧ (x.keyGone = false ∨ x.sess.isSome = true ∨ s.serves = false → Checked s (.seatLogin k b) [(x.logLock, .busy), (b.length != 12, .type)]
          fun u => if u.loginBytes k.val = some b then (u.endSession k.val).updSeat k.val fun y =>
              { y with sess := some (u.loginToken k.val), chal := none, logFails := 0, last := u.time }
            else (u.updSeat k.val Seat.loginFail).ans .rights)
      ∧ (s.open_ → x.keyGone = false → x.logLock = false → b.length = 12 → s.loginBytes k.val = some b → ∃ t, exec (.seatLogin k b) s = .next t
          ∧ (t.br.seat k.val).sess = some (s.loginToken k.val) ∧ (t.br.seat k.val).chal = none ∧ (t.br.seat k.val).pass = false ∧ t.br.last = .ok
          ∧ (∀ j, j ≠ k.val → t.br.seat j = s.br.seat j) ∧ t = { s with regs := t.regs, br := t.br, tst := t.tst })
      ∧ (s.open_ → x.keyGone = false → x.logLock = false → b.length = 12 → s.loginBytes k.val ≠ some b → ∃ t, exec (.seatLogin k b) s = .next t
          ∧ t.br.last = .rights ∧ t.br.seat k.val = { x with
              chal := none, logFails := if x.logFails = 2 then 0 else x.logFails + 1, logLock := x.logFails == 2 }))
  ∧ (∀ (s : State) (k : Fin 8), ∃ t, exec (.sessionTimeout k) s = .next t ∧ (t.br.seat k.val).sess = none ∧ (t.br.seat k.val).pass = false
      ∧ (∀ y, y ∈ t.br.subs ↔ y ∈ s.br.subs ∧ y.seat ≠ k.val) ∧ (∀ j, j ≠ k.val → t.br.seat j = s.br.seat j)
      ∧ (s.tst.seat = k.val → s.tst.state = 1 ∨ s.tst.state = 2 → t.tst.state = 0) ∧ (s.tst.seat ≠ k.val → t.tst = s.tst)
      ∧ t = { s with regs := t.regs, br := t.br, tst := t.tst })
  ∧ (∀ (s : State) (k : Fin 8) (b : List Byte),
      Checked s (.loPass k b) [((s.br.seat k.val).passLock, .busy), (s.br.hash.isEmpty, .rights), (!(decide (8 ≤ b.length) && decide (b.length ≤ 64)), .range)]
        (fun u => if u.passHash b = u.br.hash then u.updSeat k.val fun y => { y with pass := true, passFails := 0 }
          else ((u.updSeat k.val fun y => { y with passFails := if y.passFails = 2 then 0 else y.passFails + 1, passLock := y.passFails == 2 }).bump 16 0x1013 0).ans .rights)
      ∧ Checked s (.loPassNew k b) [(s.persBusy, .busy), (!(s.owner k.val && ((s.br.seat k.val).pass || s.br.hash.isEmpty)), .rights), (!s.inConf, .mode),
          (!(decide (8 ≤ b.length) && decide (b.length ≤ 64)), .range)]
        fun u => { u with br := { u.br with hash := u.passHash b } }.persist 0x1012 0 (hashNum (u.passHash b)) k.val)
  ∧ (∀ s : State, exec (.lockoutEnd .confirm) s = .next { s with br := { s.br with confLock := false } }
      ∧ (∀ k : Fin 8, exec (.lockoutEnd (.seat k)) s = .next (s.updSeat k.val fun y => { y with logLock := false })
          ∧ exec (.lockoutEnd (.pass k)) s = .next (s.updSeat k.val fun y => { y with passLock := false }))
      ∧ exec (.lockoutEnd .svc) s = .next { s with upd := { s.upd with lock := false } }
      ∧ exec (.lockoutEnd .test) s = .next { s with tst := { s.tst with lock := false } })
  ∧ (∀ (s : State) (k : Fin 8) (b : List Byte), s.open_ → 8 ≤ b.length → b.length ≤ 64 →
      ((s.br.seat k.val).passLock = false → s.br.hash ≠ [] →
        (s.passHash b = s.br.hash → exec (.loPass k b) s = .next ((s.ans .ok).updSeat k.val fun y => { y with pass := true, passFails := 0 }))
        ∧ (s.passHash b ≠ s.br.hash → ∃ t, exec (.loPass k b) s = .next t ∧ t.br.last = .rights ∧ t.reg 0x1013 0 = satInc 16 (s.reg 0x1013 0)
            ∧ t.br.seat k.val = { s.br.seat k.val with
                passFails := if (s.br.seat k.val).passFails = 2 then 0 else (s.br.seat k.val).passFails + 1, passLock := (s.br.seat k.val).passFails == 2 }
            ∧ (∀ j, j ≠ k.val → t.br.seat j = s.br.seat j) ∧ t = { s with regs := t.regs, br := t.br }))
      ∧ (s.persBusy = false → s.owner k.val = true → (s.br.seat k.val).pass = true ∨ s.br.hash = [] → s.modes.mode = .configure →
          ∃ t, exec (.loPassNew k b) s = .next t ∧ t.br.last = .ok ∧ t.br.hash = s.passHash b
            ∧ t.br.pers = s.br.pers ++ [{ idx := 0x1012, sub := 0, val := hashNum (s.passHash b), seat := k.val, ans := none }]
            ∧ t = { s with br := { s.br with last := t.br.last, retry := t.br.retry, data := t.br.data, hash := t.br.hash, pers := t.br.pers } }))
  ∧ (∀ (s : State) (k : Fin 8) (i j v : Nat), (s.odRow i j = none → Checked s (.registerWrite k i j v) [(true, .noEntry)] id)
      ∧ (s.odRow i j = none → s.open_ → exec (.registerWrite k i j v) s = .next (s.ans .noEntry))
      ∧ ∀ r, s.odRow i j = some r →
        (ownRow i j = true → r.acc ≠ 0 → exec (.registerWrite k i j v) s = .next s)
        ∧ (ownRow i j = false ∨ r.acc = 0 → let l := [(r.pers == 1 && s.persBusy, Status.busy),
            (wrAcc r i j == 0 || r.pers == 3 || s.absent i j || (decide (0xD010 ≤ i) && decide (i < 0xE000) && s.tst.state == 0), .access),
            (i == 0xC010 && within 320 383 v, .access), (!s.regRight k.val (wrAcc r i j) i j, .rights), (wrAcc r i j == 4 && !s.inConf, .mode),
            (wrAcc r i j == 3 && s.seatRunning k.val, .mode), (!s.regRange k.val r i j (wrMask i j v), .range), (s.staleOn s.srv k.val i j, .mgmtStale)]
          Checked s (.registerWrite k i j v) l (fun u => u.regSet k.val r i j (wrMask i j v))
          ∧ (s.open_ → (∀ x ∈ l, x.1 = false) → exec (.registerWrite k i j v) s = .next ((s.ans .ok).regSet k.val r i j (wrMask i j v)))))
  ∧ ∀ s : State, (s.br.pers = [] → exec .persistentWriteCommit s = .next s)
      ∧ ∀ w l, s.br.pers = w :: l → ∃ t, exec .persistentWriteCommit s = .next t ∧ t.br.pers = l ∧ t.br.writes = s.br.writes
          ∧ (w.idx ∉ [0xC030, 0xC031] → t.keys = s.keys
            ∧ t.pers.a = (if s.admitted .a then Regs.set s.pers.a (odKey w.idx w.sub) w.val else s.pers.a)
            ∧ t.pers.b = (if s.admitted .b then Regs.set s.pers.b (odKey w.idx w.sub) w.val else s.pers.b))
          ∧ (∀ r, w.ans = some r → t.br.last = .ok)

/-- R88 to R91. -/
def Obligations.PatternsAreLoadedCheckedAndConfirmed : Prop :=
  (∀ (s : State) (k : Fin 8) (o : Nat) (data : List Byte), let w := [(!s.has k.val 2, Status.rights), (!s.inConf, .mode)]
      Checked s (.patImage k o data) w (fun u => if 16777216 < o + data.length then u.ans .bounds
          else if data.isEmpty || 1024 < data.length then u.ans .range
          else { u with pat := { u.pat with
            fa := if u.admitted .a then u.pat.fa.put o data else u.pat.fa, fb := if u.admitted .b then u.pat.fb.put o data else u.pat.fb,
            torn := u.pat.torn || u.pat.loading || u.loadWaits } })
      ∧ (s.open_ → s.has k.val 2 = true → s.inConf = true → o + data.length ≤ 16777216 → 1 ≤ data.length → data.length ≤ 1024 →
          let wrote (f g : PatFlash) : Prop := (∀ i, (h : i < data.length) → g.cand.img.read (o + i) = data[i])
            ∧ (∀ a, a < o ∨ o + data.length ≤ a → g.cand.img.read a = f.cand.img.read a) ∧ g.cand.len = max f.cand.len (o + data.length)
            ∧ g.active = f.active ∧ g.marker = f.marker ∧ g.log = f.log;
          ∃ t, exec (.patImage k o data) s = .next t ∧ t.br.last = .ok
          ∧ (s.admitted .a = true → wrote s.pat.fa t.pat.fa) ∧ (s.admitted .a = false → t.pat.fa = s.pat.fa)
          ∧ (s.admitted .b = true → wrote s.pat.fb t.pat.fb) ∧ (s.admitted .b = false → t.pat.fb = s.pat.fb)
          ∧ t.pat = { s.pat with fa := t.pat.fa, fb := t.pat.fb, torn := s.pat.torn || s.pat.loading || s.loadWaits }
          ∧ t = { s with br := t.br, pat := t.pat })
      ∧ (s.open_ → s.has k.val 2 = true → s.inConf = true →
          let gone (t : State) : Prop := t.br.last = .ok ∧ t.rings.pend = []
            ∧ t = { s with br := { s.br with last := t.br.last, retry := t.br.retry, data := t.br.data }, rings := { s.rings with pend := [] }, pat := t.pat };
          (∃ t, exec (.discard k) s = .next t ∧ gone t ∧ t.pat = { s.pat with cand := none, confirming := false, state := s.patBase, loading := false })
          ∧ (s.otp.lc = 2 → ∃ t, exec (.load k) s = .next t ∧ gone t
              ∧ t.pat = { s.pat with cand := none, confirming := false, state := s.patBase, loading := true, loadErr := 0 }))
      ∧ Checked s (.discard k) w (fun u => let v := u.dropCand; { v with pat := { v.pat with loading := false } })
      ∧ Checked s (.load k) [(!s.has k.val 2, .rights), (!(s.inConf && s.otp.lc == 2), .mode)]
          (fun u => let v := u.dropCand; { v with pat := { v.pat with loading := true, loadErr := 0 } }))
  ∧ (∀ (s : State) (c : Instr), (∃ k, c = .load k ∨ c = .discard k) → ∃ t, exec c s = .next t
      ∧ t.pat = { s.pat with cand := t.pat.cand, confirming := t.pat.confirming, state := t.pat.state, loading := t.pat.loading, loadErr := t.pat.loadErr }
      ∧ (t.br.last = .ok → s.open_ → t.pat.cand = none ∧ t.pat.confirming = false ∧ t.rings.pend = [] ∧ t.pat.state = s.patBase)
      ∧ t = { s with br := t.br, rings := t.rings, pat := t.pat })
  ∧ (∀ s : State, (s.pat.loading = false → exec .patternCheckDone s = .next s)
      ∧ (s.pat.loading = true → s.pat.torn = false → let a := s.pat.fa.cand.bytes; let b := s.pat.fb.cand.bytes
          let e := if s.admitted .a && s.admitted .b then loadErr s.order s.modes.spanK a b else 6
          (e = 0 → ∃ t, exec .patternCheckDone s = .next t ∧ t.pat = { s.pat with cand := some (readBoth a b), state := 1, loadErr := 0, loading := false })
          ∧ (e ≠ 0 → ∃ t, exec .patternCheckDone s = .next t ∧ t.pat = { s.pat with cand := none, state := s.patBase, loadErr := e, loading := false }))
      ∧ (s.pat.loading = true → ∃ t, exec .patternCheckDone s = .next t ∧ t.pat.loading = false ∧ t.pat.torn = false ∧ t.pat.active = s.pat.active
          ∧ t.pat.fa = s.pat.fa ∧ t.pat.fb = s.pat.fb ∧ t = { s with flt := t.flt, rings := t.rings, pat := t.pat, freeCtr := t.freeCtr }))
  ∧ (∀ (order k : Nat) (a b : List Byte), (loadErr order k a b = 0 ↔ dieErr order k .a a = 0 ∧ dieErr order k .b b = 0
        ∧ (readPattern a).sig32 = (readPattern b).sig32 ∧ (readPattern a).sig64 = (readPattern b).sig64)
      ∧ (dieErr order k .a a ≠ 0 → loadErr order k a b = dieErr order k .a a)
      ∧ (dieErr order k .a a = 0 → dieErr order k .b b ≠ 0 → loadErr order k a b = dieErr order k .b b))
  ∧ (∀ (s : State) (k : Fin 8) (b : List Byte), let rec_ := (s.pat.cand.map fun p => s.logRecord k.val p).getD []
      let large := (s.pat.cand.map Pattern.large).getD false
      Checked s (.confirm k b) [(s.br.confLock || decide (65536 < s.rings.log.length + rec_.length) || s.pat.confirming, .busy),
          (!(s.has k.val 2 && (!large || (s.br.seat k.val).pass)), .rights), (!(s.inConf && s.pat.state == 1), .mode)]
        (fun u => match u.pat.cand with
          | none => u
          | some p => if b = leBytes 4 p.sig32 ++ leBytes 8 p.sig64 then
              { u with pat := { u.pat with confirming := true }, br := { u.br with confFails := 0 }, rings := { u.rings with pend := rec_ } }
            else u.confirmFail)
      ∧ (∀ p, s.open_ → s.br.confLock = false → s.pat.confirming = false → s.pat.cand = some p → s.rings.log.length + (s.logRecord k.val p).length ≤ 65536 →
          s.has k.val 2 = true → (Pattern.large p = false ∨ (s.br.seat k.val).pass = true) → s.inConf = true → s.pat.state = 1 →
          (b = leBytes 4 p.sig32 ++ leBytes 8 p.sig64 → ∃ t, exec (.confirm k b) s = .next t ∧ t.br.last = .ok ∧ t.br.confFails = 0
              ∧ t.pat = { s.pat with confirming := true } ∧ t.rings = { s.rings with pend := s.logRecord k.val p } ∧ t = { s with br := t.br, rings := t.rings, pat := t.pat })
          ∧ (b ≠ leBytes 4 p.sig32 ++ leBytes 8 p.sig64 → ∃ t, exec (.confirm k b) s = .next t ∧ t.br.last = .range ∧ t.reg 0x5005 0 = satInc 16 (s.reg 0x5005 0)
              ∧ t.br.confFails = (if 2 ≤ s.br.confFails then 0 else s.br.confFails + 1) ∧ t.br.confLock = decide (2 ≤ s.br.confFails)
              ∧ t = { s with br := t.br, regs := t.regs }))
      ∧ (∀ u : State, u.confirmFail.br.last = .range ∧ u.confirmFail.br.confLock = decide (2 ≤ u.br.confFails) ∧ u.confirmFail.pat = u.pat
          ∧ u.confirmFail.reg 0x5005 0 = satInc 16 (u.reg 0x5005 0)))
  ∧ ∀ s : State, (s.pat.confirming = false ∨ s.pat.state ≠ 1 → exec .changeLogCommit s = .next s)
      ∧ (s.pat.confirming = true → s.pat.state = 1 → ∃ t, exec .changeLogCommit s = .next t ∧ t.pat.confirming = false ∧ t.rings.pend = []
          ∧ (s.rings.log.length + s.rings.pend.length ≤ 65536 → t.pat.state = 2 ∧ t.rings.log = s.rings.log ++ s.rings.pend
              ∧ t.pat.fa.log = (if s.admitted .a then s.pat.fa.log ++ s.rings.pend else s.pat.fa.log)
              ∧ t.pat.fb.log = (if s.admitted .b then s.pat.fb.log ++ s.rings.pend else s.pat.fb.log))
          ∧ (65536 < s.rings.log.length + s.rings.pend.length → t.pat.state = 1 ∧ t.rings.log = s.rings.log)
          ∧ t.pat.active = s.pat.active ∧ t.pat.cand = s.pat.cand ∧ t = { s with rings := t.rings, pat := t.pat })

/-- R388 to R398. -/
def Obligations.RingAccessIsCheckedAndAtomic : Prop :=
  (∀ (s : State) (k : Fin 8) (data : List Byte) (ofs cnt : Nat), let n := s.selRing k.val; let s1 := s.ringFix n; let r := s1.rings.ring n
      let asked (c : Instr) (l : List (Bool × Status)) (f : State → State) : Prop := (s1.modes.mode = .shelf → exec c s = .next s1)
        ∧ (s1.modes.mode ≠ .shelf → s1.serves = false → exec c s = .next (s1.ans .mode))
        ∧ (s1.open_ → ∀ l1 st l2, l = l1 ++ (true, st) :: l2 → (∀ x ∈ l1, x.1 = false) → exec c s = .next (s1.ans st))
        ∧ (s1.open_ → (∀ x ∈ l, x.1 = false) → exec c s = .next (f (s1.ans .ok)));
      asked (.ringPush k data) [(s1.ringBusy r || (r.alloc && r.policy != 0 && decide (s1.ringRoom r < data.length / r.eb)), .busy), (r.owner == 8, .access),
          (!s1.mayUseRing k.val r, .rights), (decide (r.slots < data.length / r.eb), .bounds),
          (decide (data.length % r.eb ≠ 0) || data.isEmpty || decide (1024 < data.length), .range)] (fun u => (u.pushAll n (entriesOf r.eb data)).pushed k.val n)
      ∧ asked (.ringRead k ofs cnt) [(s1.ringBusy r, .busy), (!s1.mayReadRing k.val r, .rights), (decide (r.level < r.place ofs + cnt / r.eb), .bounds),
          (decide (cnt % r.eb ≠ 0) || decide (ofs % r.eb ≠ 0) || cnt == 0 || decide (1024 < cnt), .range)]
          (fun u => u.readEntries n ((List.range (cnt / r.eb)).map fun i => (r.tail + r.place ofs + i) % 2 ^ 32))
      ∧ asked (.ringConsume k cnt) [(s1.ringBusy r, .busy), (r.locked && r.alloc && r.purpose != 4, .access), (!s1.mayUseRing k.val r, .rights),
          (decide (r.level < cnt), .range)] (fun u => { u with rings := u.rings.put n { r with tail := (r.tail + cnt) % 2 ^ 32 } })
      ∧ asked (.free k) [(s1.ringBusy r, .busy), (r.locked && r.alloc, .access), (!s1.mayUseRing k.val r, .rights)]
          (fun u => { u with rings := u.rings.put n Ring.free })
      ∧ asked (.reset k) [(s1.ringBusy r, .busy), (r.locked && r.alloc, .access), (!s1.mayUseRing k.val r, .rights)]
          (fun u => { u with rings := u.rings.put n { r with tail := r.head, loose := false } })
      ∧ ((s.rings.ring n).chk = true → s1 = s)
      ∧ ((s.rings.ring n).chk = false → n ≠ 0 →
          s1 = ((({ s with rings := s.rings.put n { s.rings.ring n with head := 0, tail := 0, chk := true, loose := false } } : State).bump 32 0x8000 4).latch
            (dieBit (if (s.rings.ring n).home = 1 then .b else .a) 11)))
      ∧ (s1.open_ → s1.ringBusy r = false →
          (r.owner ≠ 8 → s1.mayUseRing k.val r = true → (r.alloc = false ∨ r.policy = 0 ∨ data.length / r.eb ≤ s1.ringRoom r) → data.length / r.eb ≤ r.slots →
            data.length % r.eb = 0 → 1 ≤ data.length → data.length ≤ 1024 →
            exec (.ringPush k data) s = .next (((s1.ans .ok).pushAll n (entriesOf r.eb data)).pushed k.val n))
          ∧ (s1.mayReadRing k.val r = true → r.place ofs + cnt / r.eb ≤ r.level → cnt % r.eb = 0 → ofs % r.eb = 0 → 1 ≤ cnt → cnt ≤ 1024 →
            (r.loose = false → exec (.ringRead k ofs cnt) s
              = .next ((s1.ans .ok).reply ((List.range (cnt / r.eb)).flatMap fun i => s1.rings.entry s1.order n ((r.tail + r.place ofs + i) % 2 ^ 32))))
            ∧ (r.loose = true → ∃ t, exec (.ringRead k ofs cnt) s = .next t ∧ t = { s1 with br := t.br, freeCtr := t.freeCtr }))
          ∧ (r.locked = false ∨ r.alloc = false ∨ r.purpose = 4 → s1.mayUseRing k.val r = true → cnt ≤ r.level → exec (.ringConsume k cnt) s
              = .next { s1.ans .ok with rings := s1.rings.put n { r with tail := (r.tail + cnt) % 2 ^ 32 } })
          ∧ (r.locked = false ∨ r.alloc = false → s1.mayUseRing k.val r = true →
            exec (.free k) s = .next { s1.ans .ok with rings := s1.rings.put n Ring.free }
            ∧ exec (.reset k) s = .next { s1.ans .ok with rings := s1.rings.put n { r with tail := r.head, loose := false } }))
      ∧ (n ≠ 0 → r.alloc = true → r.level < r.slots → 0 < s.ringRoom r → r.head < 2 ^ 32 → r.tail < 2 ^ 32 → r.sz < 16 → ∀ u : State, u.rings = s1.rings → u.order = s.order → u.ringRoom r = s.ringRoom r →
          data.length = r.eb →
          (u.pushAll n (entriesOf r.eb data)).rings.entry s.order n r.head = data ∧ ((u.pushAll n (entriesOf r.eb data)).rings.ring n).level = r.level + 1
          ∧ (∀ m, m ≠ n → (u.pushAll n (entriesOf r.eb data)).rings.ring m = u.rings.ring m)
          ∧ u.pushAll n (entriesOf r.eb data) = { u with
              rings := (u.pushAll n (entriesOf r.eb data)).rings, crc := (u.pushAll n (entriesOf r.eb data)).crc, regs := (u.pushAll n (entriesOf r.eb data)).regs,
              leases := (u.pushAll n (entriesOf r.eb data)).leases }))
  ∧ (∀ (s : State) (k : Fin 8) (c : Instr), c ∈ [Instr.free k, .reset k] ∨ (∃ n, c = .ringConsume k n) ∨ (∃ o n, c = .ringRead k o n) →
      s.selRing k.val ≠ 0 → (s.rings.ring (s.selRing k.val)).chk = false → ∃ t, exec c s = .next t
      ∧ (t.rings.ring (s.selRing k.val)).chk = true ∧ (t.rings.ring (s.selRing k.val)).level = 0)
  ∧ (∀ (s : State) (d : Die) (k : Fin 8) (v : Nat),
      let r : Ring := { base := 0, sz := v % 16, esize := v / 16 % 4, policy := v / 64 % 4, owner := k.val, home := d.n, locked := false, purpose := 0
                        head := 0, tail := 0, chk := true, drops := 0 }
      let w := [(s.ringBusy r || (s.freeNo d).isNone || (s.freeBase r).isNone, Status.busy),
        (!s.has k.val 1 || decide (s.reg (0x1100 + k.val) 7 < (r :: s.rings.held k.val).length)
          || decide (s.reg (0x1100 + k.val) 8 < ringsKib (r :: s.rings.held k.val)), .rights),
        (decide (r.sz = 0) || decide (r.policy = 3), .range)]
      (s.open_ → ∀ l1 st l2, w = l1 ++ (true, st) :: l2 → (∀ x ∈ l1, x.1 = false) → exec (.ringAlloc d k v) s = .next (s.ans st))
      ∧ ∀ n b, s.open_ → (∀ x ∈ w, x.1 = false) → s.freeNo d = some n → s.freeBase r = some b → ∃ t, exec (.ringAlloc d k v) s = .next t
        ∧ t.rings = s.rings.put n { r with base := b } ∧ (t.br.seat k.val).ringLast = n ∧ t.br.last = .ok
        ∧ (∀ j, j ≠ k.val → t.br.seat j = s.br.seat j) ∧ t = { s with br := t.br, rings := t.rings })
  ∧ (∀ (s : State) (d : Die) (k : Fin 8) (ofs cnt : Nat),
      Checked s (.jrnDataRead d k ofs cnt) [(s.jrnBusy d, .busy), (!s.has k.val 0, .rights), (!(s.die d).jrn.valid s.order ofs cnt, .bounds),
        (cnt == 0 || decide (1024 < cnt), .range)] (fun u => u.reply (Mem.readN (s.die d).jrn.mem ofs cnt))
      ∧ (s.open_ → s.jrnBusy d = false → s.has k.val 0 = true → (s.die d).jrn.valid s.order ofs cnt = true → 1 ≤ cnt → cnt ≤ 1024 →
          exec (.jrnDataRead d k ofs cnt) s = .next ((s.ans .ok).reply (Mem.readN (s.die d).jrn.mem ofs cnt))))
  ∧ ∀ (s : State) (d : Die),
      ((s.die d).jrn.dropping = false ∨ s.jrnBusy d = true ∨ s.jrnShut = true ∨ s.ticking d = false → exec (.journalResume d) s = .next s)
      ∧ (∃ t, exec (.journalResume d) s = .next t ∧ t.die d.peer = s.die d.peer ∧ (t.die d).eng = (s.die d).eng ∧ (t.die d).cur = (s.die d).cur
          ∧ t = { s with a := t.a, b := t.b, regs := t.regs })
      ∧ ((s.die d).jrn.dropping = true → s.jrnBusy d = false → s.jrnShut = false → s.ticking d = true → s.pattern = none →
          ∃ t, exec (.journalResume d) s = .next t ∧ (t.die d).jrn = (s.die d).jrn.resume s.order (s.die d).tb.spanNo s.rtcMs)

/-- R412. -/
def Obligations.TimersHoldTheirModeWhileEnabled : Prop :=
  ∀ (s : State) (k : Fin 8) (d : Die) (n : Fin 8) (v : Nat), s.open_ → s.tmrRight k.val (8 * d.n + n.val) = true →
    let x := s.timer (8 * d.n + n.val)
    (x.en = true → bitAt v 1 ≠ x.src ∨ bitAt v 2 ≠ x.period → exec (.tmrCtrl k d n v) s = .next (s.ans .mode))
    ∧ (x.en = true → exec (.tmrCount k d n v) s = .next (s.ans .mode))
    ∧ (x.en = false → ∃ t, exec (.tmrCtrl k d n v) s = .next t ∧ (t.timer (8 * d.n + n.val)).src = bitAt v 1
        ∧ (t.timer (8 * d.n + n.val)).period = bitAt v 2)
    ∧ (x.en = false → v < 2 ^ 32 → ∃ t, exec (.tmrCount k d n v) s = .next t ∧ (t.timer (8 * d.n + n.val)).count = v)
    ∧ (v < 2 ^ 32 → ∃ t, exec (.tmrCmpNext k d n v) s = .next t ∧ (t.timer (8 * d.n + n.val)).nextPend = true ∧ (t.timer (8 * d.n + n.val)).next = v)
    ∧ ∃ t, exec (.tmrCmp k d n v) s = .next t ∧ (t.timer (8 * d.n + n.val)).nextPend = x.nextPend ∧ (t.timer (8 * d.n + n.val)).next = x.next

/-- R410, R411, Table 16-4. -/
def Obligations.TimerMatchesFollowTheCount : Prop :=
  (∀ (s : State) (k : Fin 8) (d : Die) (n : Fin 8) (v : Nat), let i := 8 * d.n + n.val; let x := s.timer i
      Checked s (.tmrCtrl k d n v) [(!s.tmrRight k.val i, .rights), (x.en && (bitAt v 1 != x.src || bitAt v 2 != x.period), .mode)]
          (fun u => u.setTimer i { x with
            en := bitAt v 0, src := bitAt v 1, period := bitAt v 2, ring := bitAt v 3, matches_ := if bitAt v 0 && !x.en then 0 else x.matches_
            xfer := x.xfer && x.en })
      ∧ Checked s (.tmrCmp k d n v) [(!s.tmrRight k.val i, .rights), (decide (2 ^ 32 ≤ v) || (x.period && v == 0), .range)] (fun u => u.putTimer i ((u.timer i).writeCmp v))
      ∧ Checked s (.tmrCmpNext k d n v) [(!s.tmrRight k.val i, .rights), (decide (2 ^ 32 ≤ v), .range)]
          (fun u => u.setTimer i { (u.timer i) with next := v, nextPend := true })
      ∧ Checked s (.tmrCount k d n v) [(!s.tmrRight k.val i, .rights), (x.en, .mode), (decide (2 ^ 32 ≤ v), .range)]
          (fun u => u.setTimer i { (u.timer i) with count := v }))
  ∧ (∀ (s : State) (d : Die) (n : Fin 8), let i := 8 * d.n + n.val; let x := s.timer i
      (s.modes.mode = .shelf → exec (.timerMatch d n) s = .next s ∧ exec (.timerReload d n) s = .next s)
      ∧ (x.en = false → (∃ t, exec (.timerMatch d n) s = .next t ∧ t.timer i = x) ∧ exec (.timerReload d n) s = .next s)
      ∧ (s.modes.mode ≠ .shelf → x.en = true → ¬ (x.period = true ∧ x.count = x.cmp ∧ x.nextPend = true ∧ x.next = 0) →
          ¬ (x.period = true ∧ x.count = x.cmp ∧ x.nextPend = false ∧ x.cmp = 0) →
          ∃ t, exec (.timerMatch d n) s = .next t ∧ (t.timer i).isMatch = true ∧ (t.timer i).count = (t.timer i).cmp
          ∧ (t.timer i).matches_ = x.match_.matches_ ∧ (∀ j, j ≠ i → t.timer j = s.timer j) ∧ t.pat = s.pat ∧ t.pers = s.pers ∧ t.keys = s.keys)
      ∧ (s.modes.mode ≠ .shelf → x.en = true → x.period = true → x.count = x.cmp → ∃ t, exec (.timerReload d n) s = .next t
          ∧ (t.timer i).count = 0 ∧ (t.timer i).cmp = (if x.nextPend then x.next else x.cmp) ∧ (t.timer i).nextPend = false
          ∧ (∀ j, j ≠ i → t.timer j = s.timer j) ∧ t.pat = s.pat ∧ t.pers = s.pers ∧ t.keys = s.keys)
      ∧ (x.period = false ∨ x.count ≠ x.cmp → exec (.timerReload d n) s = .next s))
  ∧ ∀ (x : Tmr) (v : Nat),
      (x.en = false → x.writeCmp v = ({ x with cmp := v }, false))
      ∧ (x.en = true → let o := x.writeCmp v
          o.1.cmp = v ∧ o.1.count = x.count
          ∧ (v = x.cmp → o = (x, false))
          ∧ (v ≠ x.cmp → x.count ≠ x.cmp → (x.count < v → o = ({ x with cmp := v }, false)) ∧ (v = x.count → o.2 = true ∧ o.1.isMatch = true ∧ o.1.late = x.late)
              ∧ (v < x.count → o = ({ x with cmp := v, late := true }, false)))
          ∧ (v ≠ x.cmp → x.count = x.cmp → (x.count < v → o = ({ x with cmp := v, double := x.double || x.period }, false))
              ∧ (v < x.count → o = ({ x with cmp := v, late := true }, false))))

/-- R405. -/
def Obligations.CrcParametersAreHeldWhileEnabled : Prop :=
  ∀ (s : State) (k : Fin 8) (d : Die) (c : Fin 8) (sub v : Nat), s.open_ → s.crcRight k.val (8 * d.n + c.val) = true →
    let i := 8 * d.n + c.val
    (s.crcEn i = true → exec (.crcPreset k d c v) s = .next (s.ans .mode)
      ∧ ((3 ≤ sub ∧ sub ≤ 8) ∨ sub = 14 → exec (.crcParameterWrite k d c sub v) s = .next (s.ans .mode)))
    ∧ (s.crcEn i = false → s.crcParOk k.val i sub v = true →
        (3 ≤ sub → sub ≤ 8 → ∃ t, exec (.crcParameterWrite k d c sub v) s = .next t ∧ t.br.last = .ok ∧ t.reg (0x9000 + i) sub = (if sub = 7 then v % 4 else v))
        ∧ (sub = 14 → ∃ t, exec (.crcParameterWrite k d c sub v) s = .next t ∧ t.br.last = .ok ∧ (Tab.get CrcCh.init t.crc i).acc = v))

/-- R404 to R408. -/
def Obligations.CrcChannelsRunTheirDescriptors : Prop :=
  (∀ (s : State) (k : Fin 8) (d : Die) (c : Fin 8) (v : Nat), let i := 8 * d.n + c.val
      Checked s (.crcEnable k d c) [(!s.crcRight k.val i, .rights), (s.st.crcBad.getLsbD i, .mode)] (fun u => u.crcStart i)
      ∧ Checked s (.crcAbort k d c) [(!s.crcRight k.val i, .rights)] (fun u => if u.crcEn i || (Tab.get CrcCh.init u.crc i).busy then (u.crcHalt i 5 false).crcRest i else u)
      ∧ Checked s (.crcPreset k d c v) [(!s.crcRight k.val i, .rights), (s.crcEn i, .mode), ((crcPresetPar v).isNone, .range)]
          (fun u => match crcPresetPar v with
            | some p => u.loadPreset i v p
            | none => u)
      ∧ (s.open_ → s.crcRight k.val i = true →
          (s.st.crcBad.getLsbD i = false → exec (.crcEnable k d c) s = .next ((s.ans .ok).crcStart i))
          ∧ (s.crcEn i = true ∨ (Tab.get CrcCh.init s.crc i).busy = true → exec (.crcAbort k d c) s = .next (((s.ans .ok).crcHalt i 5 false).crcRest i))
          ∧ (s.crcEn i = false → (Tab.get CrcCh.init s.crc i).busy = false → exec (.crcAbort k d c) s = .next (s.ans .ok))
          ∧ ∀ p, s.crcEn i = false → crcPresetPar v = some p → exec (.crcPreset k d c v) s = .next ((s.ans .ok).loadPreset i v p)))
  ∧ (∀ (s : State) (i : Nat), (s.crcEn i = true → s.crcStart i = s)
      ∧ (s.crcEn i = false → (Tab.get CrcCh.init s.crc i).busy = false → s.crcRing i = (s.crcStart i).crcRing i
          ∧ ((s.crcStart i).crcEn i = true ∨ (Tab.get CrcCh.init (s.crcStart i).crc i).failed = true))
      ∧ (∀ e b, (s.crcHalt i e b).crcEn i = false ∧ (Tab.get CrcCh.init (s.crcHalt i e b).crc i).busy = false ∧ (s.crcHalt i e b).reg (0x9000 + i) 12 / 256 = e
          ∧ (Tab.get CrcCh.init (s.crcHalt i e b).crc i).acc = (if b then 0 else (Tab.get CrcCh.init s.crc i).acc)
          ∧ ∀ j, j ≠ i → Tab.get CrcCh.init (s.crcHalt i e b).crc j = Tab.get CrcCh.init s.crc j))
  ∧ (∀ (s : State) (i v : Nat) (p : CrcPar), crcPresetPar v = some p → (s.loadPreset i v p).reg (0x9000 + i) 2 = v
      ∧ (s.loadPreset i v p).reg (0x9000 + i) 3 = p.width ∧ (s.loadPreset i v p).reg (0x9000 + i) 4 = p.poly ∧ (s.loadPreset i v p).reg (0x9000 + i) 5 = p.init
      ∧ (s.loadPreset i v p).reg (0x9000 + i) 6 = p.xorout ∧ (s.loadPreset i v p).reg (0x9000 + i) 7 = b2n p.refin + 2 * b2n p.refout)
  ∧ ∀ (s : State) (d : Die) (c : Fin 8), let i := 8 * d.n + c.val; let x := Tab.get CrcCh.init s.crc i; let n := s.reg (0x9000 + i) 8
      (x.busy = false ∨ s.ringBusy (s.crcRing i) = true → exec (.crcDescriptorDone d c) s = .next s)
      ∧ (x.busy = true → s.ringBusy (s.crcRing i) = false → (s.crcRing i).level = 0 →
          exec (.crcDescriptorDone d c) s = .next (State.crcRest { s with crc := Tab.set CrcCh.init s.crc i { x with busy := false, dirty := false } } i))
      ∧ (x.busy = true → s.ringBusy (s.crcRing i) = false → (s.crcRing i).level ≠ 0 →
          let u := s.crcFeedDesc i (s.rings.entry s.order n (s.crcRing i).tail)
          let v : State := { u with rings := u.rings.put n { (s.crcRing i) with tail := ((s.crcRing i).tail + 1) % 2 ^ 32 } }
          exec (.crcDescriptorDone d c) s = .next ((v.crcRest i).crcNext i) ∧ u.rings = s.rings
          ∧ ((v.crcRest i).crcNext i).rings = s.rings.put n { (s.crcRing i) with tail := ((s.crcRing i).tail + 1) % 2 ^ 32 }
          ∧ (v.crcRest i).crcNext i = { s with leases := ((v.crcRest i).crcNext i).leases, regs := ((v.crcRest i).crcNext i).regs, rings := ((v.crcRest i).crcNext i).rings, crc := ((v.crcRest i).crcNext i).crc, freeCtr := ((v.crcRest i).crcNext i).freeCtr })
      ∧ ∀ b, s.crcShared i = false → x.dirty = false → bitAt (leAt b 1 1) 1 = true → let w := s.crcFeedDesc i b; let par := s.crcPar i
          w.reg (0x9000 + i) 10 = crcFinal par (crcFeed par (if bitAt (leAt b 1 1) 0 then par.init else x.acc)
            (s.regionBytes (unitDie i) (leAt b 0 1) (leAt b 8 8) (leAt b 4 4)))
          ∧ w.reg (0x9000 + i) 11 = leAt b 16 4 ∧ w.reg (0x9000 + i) 12 = 8 ∧ w.reg (0x9000 + i) 13 = (s.reg (0x9000 + i) 13 + 1) % 2 ^ 32
          ∧ w.reg (0x9000 + i) 15 = (s.reg (0x9000 + i) 15 + leAt b 4 4) % 2 ^ 64

/-- Rules R417 to R425, R429 to R433. -/
def Obligations.OtpAndKeysAreGuarded : Prop :=
  (∀ (s : State) (k : Fin 8) (v : Nat), Checked s (.otpProg k v)
      [(!s.otpMay, .busy), (!s.ownerPass k, .rights), (!s.inConf, .mode), (!(decide (v < 2 ^ 32) && s.otpOpen (s.winOf k 0xC010 0)), .range)]
      (fun u => State.leaseAsk { u with otp := { u.otp with
        op := some { die := s.srv, word := s.winOf k 0xC010 0, v := BitVec.ofNat 32 v, seat := some k.val, ans := none } } } 4 s.srv.n)
    ∧ (s.open_ → s.ownerPass k.val = true → s.inConf = true → s.otpMay = true →
        (v < 2 ^ 32 → s.otpOpen (s.winOf k 0xC010 0) = true → ∃ t, exec (.otpProg k v) s = .next t ∧ t.br.last = .ok ∧ t.otp = { s.otp with
            op := some { die := s.srv, word := s.winOf k 0xC010 0, v := BitVec.ofNat 32 v, seat := some k.val, ans := none } }
            ∧ t.leases = (s.leaseAsk 4 s.srv.n).leases ∧ t = { s with br := t.br, otp := t.otp, leases := t.leases })
        ∧ (s.lcBusy = false → (v = 3 ∧ s.otp.lc = 2) ∨ (v = 4 ∧ (s.otp.lc = 2 ∨ s.otp.lc = 3)) → s.otp.lcRoom v = true →
            exec (.lcReq k v) s = .next ((s.ans .ok).otpWant [(16, s.otp.intent v 2)]))))
  ∧ (∀ (s : State) (k : Fin 8) (v : Nat), Checked s (.lcReq k v)
      [(s.lcBusy || !s.otpMay, .busy), (!s.ownerPass k, .rights), (!s.inConf, .mode),
        (!(((v == 3 && s.otp.lc == 2) || (v == 4 && (s.otp.lc == 2 || s.otp.lc == 3))) && s.otp.lcRoom v), .range)]
      fun u => u.otpWant [(16, u.otp.intent v 2)])
  ∧ (∀ (s : State) (k : Fin 8) (bs : List Byte), Checked s (.keyPut k bs)
      [(s.persBusy, .busy), (!(s.ownerPass k && s.keyPlainOk k bs), .rights), (!s.modes.act.isNone, .mode), (!(s.keyPut? bs).isSome, .range)]
      fun u => match s.keyPut? bs with
        | none => u
        | some (slot, typ, key) => (u.keyPend slot true).persist 0xC030 0 (leNat ([BitVec.ofNat 8 slot, BitVec.ofNat 8 typ] ++ key.take 16)) k)
  ∧ (∀ (s : State) (k : Fin 8), s.open_ → s.persBusy = false → s.ownerPass k.val = true → s.modes.act = none →
      (∀ bs slot typ key, s.keyPlainOk k bs = true → s.keyPut? bs = some (slot, typ, key) → ∃ t, exec (.keyPut k bs) s = .next t ∧ t.br.last = .ok
          ∧ t.br.pers = s.br.pers ++ [{ idx := 0xC030, sub := 0, val := leNat ([BitVec.ofNat 8 slot, BitVec.ofNat 8 typ] ++ key.take 16), seat := k.val, ans := none }]
          ∧ t.keys = (s.keyPend slot true).keys ∧ t = { s with br := t.br, keys := t.keys })
      ∧ ∀ slot, slot < 16 → ∃ t, exec (.keyErase k slot) s = .next t ∧ t.br.last = .ok
          ∧ t.br.pers = s.br.pers ++ [{ idx := 0xC031, sub := 0, val := slot, seat := k.val, ans := none }]
          ∧ t.keys = (s.keyPend slot true).keys ∧ t = { s with br := t.br, keys := t.keys })
  ∧ (∀ (s : State) (k : Fin 8) (slot : Nat), Checked s (.keyErase k slot)
      [(s.persBusy, .busy), (!s.ownerPass k, .rights), (!s.modes.act.isNone, .mode), (!decide (slot < 16), .range)]
      fun u => (u.keyPend slot true).persist 0xC031 0 slot k)
  ∧ (∀ (s : State) (ok : Bool),
      (s.otp.op = none → exec (.otpProgramDone ok) s = .next s)
      ∧ (∀ x, s.otp.op = some x → s.leaseHas 4 x.die.n = false → exec (.otpProgramDone ok) s = .next s)
      ∧ ∀ x, s.otp.op = some x → s.leaseHas 4 x.die.n = true → ∃ t, exec (.otpProgramDone ok) s = .next t
        ∧ (s.otp.word x.word = .blank → ok = true → x.v ≠ 0 → t.otp.word x.word = .data x.v)
        ∧ (s.otp.word x.word = .blank → ok = false → t.otp.word x.word = .spent)
        ∧ (ok = false → s.diverted 39 = false → t.fswBit 39 = true)
        ∧ (∀ n, s.otp.word n ≠ .blank → t.otp.word n = s.otp.word n)
        ∧ t = { s with modes := t.modes, pow := t.pow, flt := t.flt, leases := t.leases, a := t.a, b := t.b, fd := t.fd, regs := t.regs, br := t.br, crc := t.crc,
                        otp := t.otp, st := t.st, keys := t.keys, upd := t.upd, pat := t.pat, freeCtr := t.freeCtr })
  ∧ (∀ (s : State) (k : Fin 8), s.open_ → s.has k 0 = false → exec (.otpData k) s = .next (s.ans .rights) ∧ exec (.lcChal k) s = .next (s.ans .rights))
  ∧ (∀ (s : State) (k : Fin 8), s.open_ → s.has k 0 = true →
      (320 ≤ s.winOf k 0xC010 0 → s.winOf k 0xC010 0 < 384 → exec (.otpData k) s = .next (s.ans .access))
      ∧ (¬ (320 ≤ s.winOf k 0xC010 0 ∧ s.winOf k 0xC010 0 < 384) → s.otp.word (s.winOf k 0xC010 0) ≠ .spent ∨ fixedWord (s.winOf k 0xC010 0) = false →
          ∃ t, exec (.otpData k) s = .next t ∧ t.otp.words = s.otp.words ∧ t.otp.op = s.otp.op ∧ t = { s with otp := t.otp, br := t.br, regs := t.regs })
      ∧ (s.otp.word (s.winOf k 0xC010 0) = .spent → fixedWord (s.winOf k 0xC010 0) = true → s.diverted 38 = false → ¬ (320 ≤ s.winOf k 0xC010 0 ∧ s.winOf k 0xC010 0 < 384) →
          ∃ t, exec (.otpData k) s = .next t ∧ t.fswBit 38 = true))
  ∧ (∀ (s : State) (k : Fin 8) (target : Nat) (sig : List Byte), s.modes.mode ≠ .shelf →
      (∃ t, exec (.lcResp k target sig) s = .next t ∧ t.otp.lcChal = none ∧ t.otp.words = s.otp.words ∧ t = { s with otp := t.otp, br := t.br, leases := t.leases })
      ∧ (s.open_ → s.lcBusy = false → s.otpMay = true → s.has k 1 = true → s.inConf = true → lcVendor s.otp.lc target = true → s.otp.lcRoom target = true →
          (target = 2 → s.otp.nextKek.isSome = true) → ∀ c, s.otp.lcChal = some c →
          s.anchorSig 0 (leBytes 8 s.otp.serial ++ leBytes 8 c ++ [BitVec.ofNat 8 target]) sig = true →
          let u := (s.ans .ok).otpWant [(16, s.otp.intent target 1)]
          exec (.lcResp k target sig) s = .next { u with otp := { u.otp with lcChal := none } }))
  ∧ ∀ (s : State) (k : Fin 8), s.open_ → s.has k 0 = true → ∃ t, exec (.lcChal k) s = .next t ∧ t.otp.lcChal = some (s.randNat 8).1 ∧ t.otp.words = s.otp.words
      ∧ t = { s with otp := t.otp, br := t.br, freeCtr := t.freeCtr }

/-- Rules R332, R347, R426, R427. -/
def Obligations.BackupDomainAndRailsAreWatched : Prop :=
  (∀ (s : State) (ok : Bool),
      (s.keys.eraPend = none → exec (.eraRecordWrite ok) s = .next s)
      ∧ ∀ r p, s.keys.eraPend = some (r, p) → ∃ t, exec (.eraRecordWrite ok) s = .next t ∧ t.keys.eraPend = none
        ∧ t.keys.eraA = (if ok && s.admitted .a then s.keys.eraA.put r else s.keys.eraA)
        ∧ t.keys.eraB = (if ok && s.admitted .b then s.keys.eraB.put r else s.keys.eraB)
        ∧ (ok = true → s.admitted .a = true ∨ s.admitted .b = true →
            (∀ x ∈ s.keys.eraA.s0 ++ s.keys.eraA.s1 ++ (s.keys.eraB.s0 ++ s.keys.eraB.s1), x.gen < r.gen) → t.keys.era = some r)
        ∧ (ok = false → t.keys.era = s.keys.era) ∧ t.keys.auth = (if ok then 0 else 2)
        ∧ t.bkp.eraSeen = (if ok then r.era else s.bkp.eraSeen) ∧ t.bkp.eraBase = (if ok then s.bkp.bootCnt else s.bkp.eraBase)
        ∧ t.bkp.bootCnt = s.bkp.bootCnt ∧ t.bkp.rtc = s.bkp.rtc ∧ t = { s with keys := t.keys, bkp := t.bkp })
  ∧ (∀ (s : State) (i : Fin 4), ∃ t, exec (.tamper i) s = .next t
      ∧ t.bkp.tamper = true ∧ t.bkp.inputs = s.bkp.inputs ||| BitVec.ofNat 4 (2 ^ i.val)
      ∧ t.bkp.rtc = 0 ∧ t.bkp.rtcOk = false ∧ t.bkp.bootCnt = 0 ∧ t.bkp.eraSeen = 0 ∧ t.bkp.eraBase = 0
      ∧ (s.modes.mode = .shelf → t = { s with bkp := t.bkp })
      ∧ (s.modes.mode ≠ .shelf → s.diverted 37 = false → fswPresent s.order 37 = true → t.fswBit 37 = true))
  ∧ (∀ (s : State) (i : Fin 4), ∃ t, exec (.tamperRelease i) s = .next t
      ∧ t.bkp = { s.bkp with inputs := s.bkp.inputs &&& ~~~BitVec.ofNat 4 (2 ^ i.val) }
      ∧ t.flt = (if t.bkp.inputs = 0 then { s.flt with cause := clrBit64 s.flt.cause 37 } else s.flt) ∧ t = { s with bkp := t.bkp, flt := t.flt })
  ∧ (∀ s : State, (s.pow.en.getLsbD 0 = true → exec .vbatBrownOut s = .next s)
      ∧ (s.pow.en.getLsbD 0 = false → exec .vbatBrownOut s = .next { s with bkp := { s.bkp with brown := true } }))
  ∧ (∀ (s : State) (r : Rail) (mv : Nat),
      (s.pow.armed.getLsbD (railIdx r) = false ∨ railOut r mv = false → exec (.railExcursion r mv) s = .next s)
      ∧ (s.pow.armed.getLsbD (railIdx r) = true → railOut r mv = true → ∃ t, exec (.railExcursion r mv) s = .next t
          ∧ t.pow.rails = s.pow.rails ||| ((1 : BitVec 13) <<< railBit r) ∧ t.pow.vinMv = (if r = Rail.vin then mv else s.pow.vinMv)
          ∧ (s.diverted (if r = Rail.vbat then 42 else 56) = false → t.fswBit (if r = Rail.vbat then 42 else 56) = true)))
  ∧ ∀ (s : State) (r : Rail) (mv : Nat),
      (s.pow.armed.getLsbD (railIdx r) = false ∨ railOut r mv = true → exec (.railReturn r mv) s = .next s)
      ∧ (s.pow.armed.getLsbD (railIdx r) = true → railOut r mv = false → ∃ t, exec (.railReturn r mv) s = .next t
          ∧ t.reg 0x2031 (railIdx r + 1) = mv ∧ t.pow.vinMv = (if r = Rail.vin then mv else s.pow.vinMv)
          ∧ ((∀ d, r = Rail.vfld d → (s.fdie d.val).low = false) → t.pow.rails = s.pow.rails &&& ~~~((1 : BitVec 13) <<< railBit r))
          ∧ (∀ d, r = Rail.vfld d → (s.fdie d.val).low = true → t.pow.rails = s.pow.rails)
          ∧ (r = Rail.vbat → t.flt.cause = clrBit64 s.flt.cause 42)
          ∧ (r ≠ Rail.vbat → t.flt.cause = (if t.pow.railBad then setBit64 s.flt.cause 56 else clrBit64 s.flt.cause 56))
          ∧ t = { s with pow := t.pow, flt := t.flt, regs := t.regs })

/-- Rules R436 to R446. -/
def Obligations.SelfTestRunsGranulesAndLatchesFailures : Prop :=
  (∀ (s : State) (d : Die) (item : Nat) (pass : Bool),
      let at_ := s.ticking d && s.sliceIn (s.die d).tb.spanNo && (s.die d).tb.phase == .s && s.st.gran d == .running && (s.st.left d).contains item
        && !s.st.later.contains (stKey d item) && s.testMay d item
      let n := Tab.get 0 s.st.prog (stKey d item) + 1
      (at_ = false → exec (.granuleDone d item pass) s = .next s)
      ∧ (at_ = true → pass = true → n < s.granules item →
          exec (.granuleDone d item pass) s = .next { s with st := { s.st with prog := Tab.set 0 s.st.prog (stKey d item) n } })
      ∧ (at_ = true → pass = true → ¬ n < s.granules item → exec (.granuleDone d item pass) s = .next (s.itemPass d item))
      ∧ (at_ = true → pass = false → ∃ t, exec (.granuleDone d item pass) s = .next t
          ∧ t = (s.itemFail d item).failWait d item ∧ t.st.later.getLast? = some (stKey d item)
          ∧ (s.diverted (dieBit d 14) = false → t.fswBit (dieBit d 14) = true))
      ∧ (∀ p, s.st.gran d ≠ .running → exec (.granuleDone d item p) s = .next s)
      ∧ ∃ t, exec (.granuleDone d item pass) s = .next t ∧ t.pat = s.pat ∧ (pass = true → t.rings = s.rings) ∧ t.pers = s.pers ∧ t.keys = s.keys ∧ t.tmr = s.tmr
          ∧ t.pending = s.pending ∧ ∀ k, s.otp.word k ≠ .blank → t.otp.word k = s.otp.word k)
  ∧ (∀ s : State, (s.slicesOn = false → exec .roundLate s = .next s)
      ∧ (s.slicesOn = true → exec .roundLate s = .next { s with st := { s.st with late := true, lateStart := true } }))
  ∧ ∀ (s : State) (k : Fin 8) (v : Nat), Checked s (.stReq k v)
      [(decide (8 ≤ s.st.queue.length), .busy), (!s.has k 1, .rights), ((v == 1 && s.a.eng.spareLane.isNone) || (v == 2 && s.b.eng.spareLane.isNone), .mode),
        (v == 0 || decide (8 < v), .range)]
      (fun u => if s.st.queue.isEmpty then { u with st := { u.st with queue := s.st.queue ++ [v] } }.reqBegin else { u with st := { u.st with queue := s.st.queue ++ [v] } })
    ∧ (s.open_ → s.st.queue.length < 8 → s.has k 1 = true → (v = 1 → s.a.eng.spareLane ≠ none) → (v = 2 → s.b.eng.spareLane ≠ none) → 1 ≤ v → v ≤ 8 →
        let w : State := { s.ans .ok with st := { s.st with queue := s.st.queue ++ [v] } }
        (s.st.queue = [] → exec (.stReq k v) s = .next w.reqBegin) ∧ (s.st.queue ≠ [] → exec (.stReq k v) s = .next w))

/-- Rules R450 to R456. -/
def Obligations.UpdateFramesFollowTheSession : Prop :=
  ∀ (s : State) (f : SvcFrame),
    let staging (t : State) (d : Die) : Mem := if s.order = 830 then t.upd.slotOf d else t.upd.data;
    (∀ x ∈ [(1, Instr.chal f), (2, .auth f), (3, .manifest f), (4, .chunk f), (5, .abort f), (6, .activate f)],
      (s.svcOn = false ∨ SvcFrame.good f x.1 = false → exec x.2 s = .next s)
      ∧ (s.svcOn = true → SvcFrame.good f x.1 = true → s.upd.keyGone = true →
          exec x.2 s = .next ({ s with upd := { s.upd with sess := none, chal := none, keyGone := false, state := if s.upd.state = 1 then 0 else s.upd.state } }.svcAnswer x.1 .keygone f.session []))
      ∧ (3 ≤ x.1 → s.svcOn = true → SvcFrame.good f x.1 = true → s.upd.keyGone = false → s.upd.sess ≠ some f.session →
          exec x.2 s = .next (s.svcAnswer x.1 .token f.session []))
      ∧ ∃ t, exec x.2 s = .next t ∧ t = { s with upd := t.upd, freeCtr := t.freeCtr })
    ∧ (s.svcOn = true → s.upd.keyGone = false →
      (SvcFrame.good f 1 = true → f.payload = [] → f.rsvd = 0 → ∃ t, exec (.chal f) s = .next t ∧ t.upd.chal = some (s.randNat 8).1 ∧ t.upd.sess = s.upd.sess)
      ∧ (SvcFrame.good f 2 = true → s.upd.lock = true → exec (.auth f) s = .next (s.svcAnswer 2 .busy f.session [0xFF, 0xFF]))
      ∧ (SvcFrame.good f 2 = true → s.upd.lock = false → f.payload.length = 8 → f.rsvd = 0 →
          (∀ k c, s.svcKey = some k → s.upd.chal = some c → f.payload = authValue k s.otp.serial c →
            ∃ t, exec (.auth f) s = .next t ∧ t.upd.sess = some (sessValue k c) ∧ t.upd.chal = none ∧ t.upd.fails = 0 ∧ t.upd.sessLast = s.time
              ∧ t.upd.state = (if s.upd.state = 0 then 1 else s.upd.state))
          ∧ ((∀ k c, s.svcKey = some k → s.upd.chal = some c → f.payload ≠ authValue k s.otp.serial c) →
            ∃ t, exec (.auth f) s = .next t ∧ t.upd.sess = s.upd.sess ∧ t.upd.chal = none
              ∧ t.upd.fails = (if 3 ≤ s.upd.fails + 1 then 0 else s.upd.fails + 1) ∧ t.upd.lock = decide (3 ≤ s.upd.fails + 1))))
    ∧ (s.svcOn = true → s.upd.keyGone = false → s.upd.sess = some f.session → f.rsvd = 0 →
      (SvcFrame.good f 3 = true → f.payload.length = 328 → manifestForm s.order f.payload = true →
          (s.updActive = true → ∃ t, exec (.manifest f) s = .next t ∧ t.upd.manifest = s.upd.manifest ∧ staging t = staging s ∧ t.upd.state = s.upd.state)
          ∧ (s.updActive = false → ∀ why st, s.updRefuse f.payload = some (why, st) → ∃ t, exec (.manifest f) s = .next t
              ∧ t.upd.why = why ∧ t.upd.manifest = s.upd.manifest ∧ staging t = staging s ∧ t.upd.state = s.upd.state)
          ∧ (s.updActive = false → s.updRefuse f.payload = none → ∃ t, exec (.manifest f) s = .next t
              ∧ t.upd.manifest = f.payload ∧ (∀ d, staging t d = []) ∧ t.upd.have_ = [] ∧ t.upd.state = 2 ∧ t.upd.why = 0))
      ∧ (SvcFrame.good f 4 = true → 8 < f.payload.length → f.payload.length ≤ 1032 → leAt f.payload 1 3 = 0 → s.upd.state = 2 → s.upd.manifest ≠ [] →
          let part := leAt f.payload 0 1
          let ofs := leAt f.payload 4 4
          1 ≤ part → part ≤ 5 →
          (partLen s.upd.manifest part < ofs + (f.payload.length - 8) →
            exec (.chunk f) s = .next ({ s with upd := { s.upd with sessLast := s.time } }.svcAnswer 4 .bounds f.session []))
          ∧ (ofs + (f.payload.length - 8) ≤ partLen s.upd.manifest part → ∃ t, exec (.chunk f) s = .next t
              ∧ (∀ d, s.order ≠ 830 ∨ (if d = .a then part ≠ 2 else part ≠ 1) →
                  (∀ i, (h : i < (f.payload.drop 8).length) → Mem.read (staging t d) (part * 2 ^ 24 + ofs + i) = (f.payload.drop 8)[i])
                  ∧ ∀ a, a < part * 2 ^ 24 + ofs ∨ part * 2 ^ 24 + ofs + (f.payload.drop 8).length ≤ a → Mem.read (staging t d) a = Mem.read (staging s d) a)
              ∧ (∀ d, s.order = 830 → (if d = .a then part = 2 else part = 1) → staging t d = staging s d)
              ∧ (s.order ≠ 830 → ∀ d, t.upd.slotOf d = s.upd.slotOf d) ∧ (s.order = 830 → t.upd.data = s.upd.data)
              ∧ t.upd.manifest = s.upd.manifest ∧ t.upd.state = 2))
      ∧ (SvcFrame.good f 5 = true → f.payload = [] → s.updActive = false → ∃ t, exec (.abort f) s = .next t
          ∧ t.upd.manifest = [] ∧ (∀ d, staging t d = []) ∧ t.upd.have_ = [] ∧ t.upd.state = 1 ∧ t.upd.sess = s.upd.sess)
      ∧ (SvcFrame.good f 6 = true → f.payload = [] → s.updActive = false →
          ∃ t, exec (.activate f) s = .next t ∧ t.upd = { s.upd with sessLast := s.time, pend := some s.applySpan })
      ∧ (s.updActive = true → (SvcFrame.good f 5 = true → f.payload = [] → ∃ t, exec (.abort f) s = .next t ∧ t.upd.manifest = s.upd.manifest ∧ staging t = staging s ∧ t.upd.state = s.upd.state)
          ∧ (SvcFrame.good f 6 = true → f.payload = [] → ∃ t, exec (.activate f) s = .next t ∧ t.upd.pend = s.upd.pend ∧ t.upd.state = s.upd.state)))

/-- Rules R452, R455, R458, R461 to R464. -/
def Obligations.UpdateActivationCommitsOrReverts : Prop :=
  ∀ s : State,
    let reverted (why : Nat) (t : State) : Prop :=
      t.upd.state = 8 ∧ t.upd.why = why ∧ t.upd.pend = none ∧ t.upd.reboot = none ∧ t.upd.newA = false ∧ t.upd.newB = false
        ∧ t.upd.manifest = s.upd.manifest ∧ t.upd.data = s.upd.data ∧ t.upd.have_ = s.upd.have_ ∧ t.upd.fwA = s.upd.fwA ∧ t.upd.fwB = s.upd.fwB
        ∧ (∀ b, s.fswBit b = true → t.fswBit b = true) ∧ t = { s with flt := t.flt, a := t.a, b := t.b, regs := t.regs, upd := t.upd }
    let activating := 4 ≤ s.upd.state ∧ s.upd.state ≤ 6
    (s.upd.state = 2 → s.upd.whole = true → s.admitted .a = true → s.admitted .b = true → ∃ t, exec .stagingComplete s = .next t
        ∧ t.upd = { s.upd with state := 3, fwA := t.upd.fwA, fwB := t.upd.fwB } ∧ t.upd.fwA.act = s.upd.fwA.act ∧ t.upd.fwB.act = s.upd.fwB.act
        ∧ t = { s with upd := t.upd } ∧ (s.order = 830 → t.upd.slotOf = s.upd.slotOf)
        ∧ (s.order ≠ 830 → ∀ d k x, k ≠ (if d = .a then 2 else 1) → x < 2 ^ 24 → Mem.read (t.upd.slotOf d) (k * 2 ^ 24 + x) = Mem.read s.upd.data (k * 2 ^ 24 + x)))
    ∧ (s.upd.state ≠ 2 ∨ s.upd.whole = false ∨ s.admitted .a = false ∨ s.admitted .b = false → exec .stagingComplete s = .next s)
    ∧ (∀ d, s.upd.reboot = some d → s.upd.booted = false →
        (s.bootParts d = false → activating → ∀ ok, ∃ t, exec (.updateBootDone d ok) s = .next t ∧ reverted 15 t)
        ∧ (activating → ∃ t, exec (.updateBootDone d false) s = .next t ∧ reverted 15 t)
        ∧ (s.bootParts d = true → leAt s.upd.manifest 20 2 < s.reg 0xA00A 0 → activating → ∃ t, exec (.updateBootDone d true) s = .next t ∧ reverted 19 t)
        ∧ (s.bootParts d = true → ¬ leAt s.upd.manifest 20 2 < s.reg 0xA00A 0 → ∃ t, exec (.updateBootDone d true) s = .next t
            ∧ t.upd = { s.upd with booted := true } ∧ (t.die d) = { s.die d with mgmt := .serving } ∧ t.die d.peer = s.die d.peer
            ∧ t = { s with upd := t.upd, a := t.a, b := t.b }))
    ∧ (∀ d ok, s.upd.reboot ≠ some d ∨ s.upd.booted = true →
        (s.upd.state ≠ 8 ∨ (s.die d).mgmt ≠ .booting ∨ s.admitted d = false ∨ ok = false → exec (.updateBootDone d ok) s = .next s)
        ∧ (s.upd.state = 8 → (s.die d).mgmt = .booting → s.admitted d = true → ok = true → ∃ t, exec (.updateBootDone d ok) s = .next t
            ∧ (t.die d).mgmt = .serving ∧ (t.die d).hold.on = false ∧ t.upd = s.upd ∧ t = { s with flt := t.flt, a := t.a, b := t.b, st := t.st }))
    ∧ (s.upd.state ≠ 5 ∨ s.upd.reboot.isSome = true ∨ s.upd.newB = false ∨ s.upd.newA = true → exec .activationWaitTimeout s = .next s)
    ∧ (s.upd.state = 5 → s.upd.reboot = none → s.upd.newB = true → s.upd.newA = false → ∃ t, exec .activationWaitTimeout s = .next t
        ∧ reverted (if (s.pattern.map fun p => s.standstill .a p).getD true then 11 else 10) t)
    ∧ (s.upd.state ≠ 6 ∨ s.upd.defer = false ∨ s.pfw = true → exec .flipDeferEnd s = .next s)
    ∧ (s.upd.state = 6 → s.upd.defer = true → s.pfw = false → ∃ t, exec .flipDeferEnd s = .next t
        ∧ t.upd.state = 7 ∧ t.upd.why = 0 ∧ t.upd.fwA = { s.upd.fwA with act := 1 - s.upd.fwA.act } ∧ t.upd.fwB = { s.upd.fwB with act := 1 - s.upd.fwB.act } ∧ t.upd.defer = false ∧ t.modes.act = none
        ∧ t.modes.mode = (if s.modes.mode == .service then s.modes.act.getD .run else s.modes.mode)
        ∧ t.reg 0xA003 1 = leAt s.upd.manifest 8 4 ∧ t.reg 0xA00A 0 = leAt s.upd.manifest 20 2
        ∧ t = { s with modes := t.modes, a := t.a, b := t.b, regs := t.regs, upd := t.upd })
    ∧ (s.upd.sess = none → exec .svcSessionTimeout s = .next s)
    ∧ (s.upd.sess ≠ none → exec .svcSessionTimeout s = .next { s with upd := { s.upd with sess := none, state := if s.upd.state = 1 then 0 else s.upd.state } })

/-- Rules R448, R466 to R469. -/
def Obligations.TestAccessNeedsTheVendorAndScanWipes : Prop :=
  (∀ (s : State) (k : Fin 8) (v : Nat),
      Checked s (.testOpen k v) [(!(if v = 0 then s.has k 3 else s.testMayOpen k), .rights), (v == 1 && !s.inConf, .mode), (decide (2 ≤ v), .range)]
        (fun u => if v = 0 then u.testClose else if u.tst.state = 0 then u.testRise k 1 else u)
      ∧ (s.open_ → s.has k 3 = true → s.tst.state = 1 ∨ s.tst.state = 2 → ∃ t, exec (.testOpen k 0) s = .next t ∧ t.tst.state = 0 ∧ t.reg 0xD010 0 = 0)
      ∧ (s.open_ → s.testMayOpen k = true → s.inConf = true → s.tst.state = 0 → ∃ t, exec (.testOpen k 1) s = .next t ∧ t.tst.state = 1 ∧ t.tst.seat = k.val)
      ∧ ∃ t, exec (.testOpen k v) s = .next t ∧ t = { s with regs := t.regs, br := t.br, tst := t.tst })
  ∧ (∀ (s : State) (k : Fin 8),
      Checked s (.testChal k) [(!s.has k 3, .rights)] (fun u => { (u.randNat 8).2 with tst := { (u.randNat 8).2.tst with chal := some (u.randNat 8).1 } }.reply (leBytes 8 (u.randNat 8).1))
      ∧ (s.open_ → s.has k 3 = true → ∃ t n, exec (.testChal k) s = .next t ∧ n = (s.randNat 8).1 ∧ t.tst = { s.tst with chal := some n } ∧ t.br.last = .ok ∧ t.br.data = leBytes 8 n
          ∧ t = { s with br := t.br, tst := t.tst, freeCtr := t.freeCtr }))
  ∧ (∀ (s : State) (k : Fin 8) (code : Nat) (sig : List Byte), s.open_ →
      (s.tst.lock = true → exec (.testResp k code sig) s = .next (s.ans .busy))
      ∧ (s.tst.lock = false → s.has k 3 = false → exec (.testResp k code sig) s = .next (s.ans .rights))
      ∧ (s.tst.lock = false → s.has k 3 = true →
          let ok := s.tst.chal.isSome && s.testCode code && s.anchorSig 0 (s.testMsg code) sig
          (ok = false → ∃ t, exec (.testResp k code sig) s = .next t ∧ t.tst.chal = none ∧ t.br.last = .rights ∧ t.tst.state = s.tst.state
              ∧ t.tst.refusals = (if s.tst.refusals + 1 = 3 then 0 else s.tst.refusals + 1) ∧ t.tst.lock = (s.tst.refusals + 1 == 3)
              ∧ t = { s with br := t.br, tst := t.tst })
          ∧ (ok = true → code = 2 → s.pow.scan = false → ∃ t, exec (.testResp k code sig) s = .next t ∧ t.pow.scan = true ∧ t.flt.tripA = true ∧ t.flt.tripB = true
              ∧ t.modes.mode = .safe ∧ t.keys.wiped = true ∧ t.otp.zeroised = true ∧ t.tst.zeroise = true ∧ t.upd.sess = none ∧ t.otp.words = s.otp.words)
          ∧ (ok = true → code = 2 → s.pow.scan = true → ∃ t, exec (.testResp k code sig) s = .next t ∧ t.tst.chal = none ∧ t.tst.refusals = 0
              ∧ t.tst.zeroise = s.tst.zeroise ∧ t = { s with br := t.br, tst := t.tst })
          ∧ (ok = true → code ≠ 2 → s.inConf = false → ∃ t, exec (.testResp k code sig) s = .next t ∧ t.br.last = .mode ∧ t.tst = { s.tst with chal := none } ∧ t = { s with br := t.br, tst := t.tst })
          ∧ (ok = true → code ≠ 2 → s.inConf = true → s.tst.state = 3 ∨ s.tst.state ≠ 0 ∧ s.tst.seat ≠ k.val → ∃ t, exec (.testResp k code sig) s = .next t
              ∧ t.br.last = .rights ∧ t.tst = { s.tst with chal := none } ∧ t = { s with br := t.br, tst := t.tst })
          ∧ (ok = true → code ≠ 2 → s.inConf = true → s.tst.state = 0 → ∃ t, exec (.testResp k code sig) s = .next t ∧ t.tst.state = 2 ∧ t.tst.seat = k.val ∧ t.tst.chal = none
              ∧ t.reg 0xD015 0 = 0 ∧ t = { s with regs := t.regs, br := t.br, tst := t.tst })))
  ∧ ∀ s : State,
      (s.tst.zeroise = true → exec .zeroiseReadbackDone s = .next { s with tst := { s.tst with zeroise := false, state := 3 } })
      ∧ (s.tst.zeroise = false → exec .zeroiseReadbackDone s = .next s)
      ∧ exec .zeroiseTimeout s = .next { s with tst := { s.tst with zeroise := false } }

/-- R118, R96, R97. -/
def Obligations.CounterCountsRisingEdges : Prop :=
  ∀ (pv cv : Nat) (q : Int) (cu r : In), cv ≤ 16383 →
    let o := (evalCtu pv [cu, r] [q, (cv : Int)]).outs
    ∃ n : Nat, o = [if pv ≤ n then 1 else 0, (n : Int)] ∧ n ≤ 16383
      ∧ (r.v = 1 → n = 0)
      ∧ (r.v ≠ 1 → cu.v = 1 → cu.prev = 0 → n = min 16383 (cv + 1))
      ∧ (r.v ≠ 1 → (cu.v ≠ 1 ∨ cu.prev = 1) → n = cv)
end

