-- ==== Sys2Proof/Laws/Only.lean ====
section
/-! SUPPORT. Which parts of the state an operation can touch: `Only m s t` says that `t` differs from `s` at most in the fields whose bits
are set in `m`. The fields are numbered in the order of State: 0 order, 1 modes, 2 pow, 3 clk, 4 flt, 5 leases, 6 a, 7 b, 8 fd, 9 regs,
10 pers, 11 br, 12 rings, 13 crc, 14 tmr, 15 otp, 16 bkp, 17 keys, 18 st, 19 upd, 20 tst, 21 pat, 22 stdin, 23 remote, 24 freeCtr, 25 time,
26 pending; bit 27 stands for the mode within modes. One lemma per operation in the files Laws/Only*.lean says so once. -/

namespace Sys2Proof.Machine

/-- The relation of `Only`, field by field. -/
def OnlyParts (m : Nat) (s0 : State) (order : Nat) (modes : Modes) (pow : Power) (clk : Clocks) (flt : Faults) (leases : Tab Lease) (a : LDie) (b : LDie) (fd : Tab FDie) (regs : Regs) (pers : Pers) (br : Bridle) (rings : Rings) (crc : Tab CrcCh) (tmr : Tab Tmr) (otp : Otp) (bkp : Backup) (keys : Keys) (st : SelfTest) (upd : Update) (tst : Test) (pat : PatStore) (stdin : Tab (List (Int × Nat))) (remote : Tab (List (Nat × Nat))) (freeCtr : Nat) (time : Nat) (pending : List Instr) : Prop :=
  (m.testBit 0 = false → order = s0.order) ∧ (m.testBit 1 = false → modes = s0.modes) ∧ (m.testBit 2 = false → pow = s0.pow) ∧ (m.testBit 3 = false → clk = s0.clk) ∧ (m.testBit 4 = false → flt = s0.flt) ∧ (m.testBit 5 = false → leases = s0.leases) ∧ (m.testBit 6 = false → a = s0.a) ∧ (m.testBit 7 = false → b = s0.b) ∧ (m.testBit 8 = false → fd = s0.fd) ∧ (m.testBit 9 = false → regs = s0.regs) ∧ (m.testBit 10 = false → pers = s0.pers) ∧ (m.testBit 11 = false → br = s0.br) ∧ (m.testBit 12 = false → rings = s0.rings) ∧ (m.testBit 13 = false → crc = s0.crc) ∧ (m.testBit 14 = false → tmr = s0.tmr) ∧ (m.testBit 15 = false → otp = s0.otp) ∧ (m.testBit 16 = false → bkp = s0.bkp) ∧ (m.testBit 17 = false → keys = s0.keys) ∧ (m.testBit 18 = false → st = s0.st) ∧ (m.testBit 19 = false → upd = s0.upd) ∧ (m.testBit 20 = false → tst = s0.tst) ∧ (m.testBit 21 = false → pat = s0.pat) ∧ (m.testBit 22 = false → stdin = s0.stdin) ∧ (m.testBit 23 = false → remote = s0.remote) ∧ (m.testBit 24 = false → freeCtr = s0.freeCtr) ∧ (m.testBit 25 = false → time = s0.time) ∧ (m.testBit 26 = false → pending = s0.pending) ∧ (m.testBit 27 = false → modes.mode = s0.modes.mode)

/-- Fields outside `m` are the same in `s` and `t`. -/
def Only (m : Nat) (s t : State) : Prop :=
  OnlyParts m s t.order t.modes t.pow t.clk t.flt t.leases t.a t.b t.fd t.regs t.pers t.br t.rings t.crc t.tmr t.otp t.bkp t.keys t.st t.upd t.tst t.pat t.stdin t.remote t.freeCtr t.time t.pending

theorem Only.refl (m : Nat) (s : State) : Only m s s := ⟨fun _ => rfl, fun _ => rfl, fun _ => rfl, fun _ => rfl, fun _ => rfl, fun _ => rfl, fun _ => rfl, fun _ => rfl, fun _ => rfl, fun _ => rfl, fun _ => rfl, fun _ => rfl, fun _ => rfl, fun _ => rfl, fun _ => rfl, fun _ => rfl, fun _ => rfl, fun _ => rfl, fun _ => rfl, fun _ => rfl, fun _ => rfl, fun _ => rfl, fun _ => rfl, fun _ => rfl, fun _ => rfl, fun _ => rfl, fun _ => rfl, fun _ => rfl⟩

/-- A state seen through its fields. -/
theorem Only.parts {m : Nat} {s0 t : State} (h : Only m s0 t) :
    OnlyParts m s0 t.order t.modes t.pow t.clk t.flt t.leases t.a t.b t.fd t.regs t.pers t.br t.rings t.crc t.tmr t.otp t.bkp t.keys t.st t.upd t.tst t.pat t.stdin t.remote t.freeCtr t.time t.pending := h

/-- A state rebuilt field by field. -/
theorem Only.mk {m : Nat} {s0 : State} {order modes pow clk flt leases a b fd regs pers br rings crc tmr otp bkp keys st upd tst pat stdin remote freeCtr time pending} (h : OnlyParts m s0 order modes pow clk flt leases a b fd regs pers br rings crc tmr otp bkp keys st upd tst pat stdin remote freeCtr time pending) :
    Only m s0 (State.mk order modes pow clk flt leases a b fd regs pers br rings crc tmr otp bkp keys st upd tst pat stdin remote freeCtr time pending) := h

/-- The same, read as an equation on a state that is written out. -/
theorem Only.mk_eq {m : Nat} {s0 : State} {order modes pow clk flt leases a b fd regs pers br rings crc tmr otp bkp keys st upd tst pat stdin remote freeCtr time pending} :
    Only m s0 (State.mk order modes pow clk flt leases a b fd regs pers br rings crc tmr otp bkp keys st upd tst pat stdin remote freeCtr time pending) = OnlyParts m s0 order modes pow clk flt leases a b fd regs pers br rings crc tmr otp bkp keys st upd tst pat stdin remote freeCtr time pending := rfl

/-- A bit outside a larger mask is outside the smaller one. -/
theorem testBit_le {m M i : Nat} (le : m ||| M = M) (n : M.testBit i = false) : m.testBit i = false := by
  rw [← le, Nat.testBit_or, Bool.or_eq_false_iff] at n
  exact n.1

/-- A bit of the smaller mask is in the larger one. -/
theorem testBit_ge {m M i : Nat} (le : m ||| M = M) (n : m.testBit i = true) : M.testBit i = true := by
  rw [← le, Nat.testBit_or, n, Bool.true_or]

theorem or_le {k m M : Nat} (h : k ||| m = m) (le : m ||| M = M) : k ||| M = M := by
  rw [← le, ← Nat.or_assoc, h]

/-- An operation that touches fewer fields. -/
theorem Only.step {m M : Nat} {s0 s t : State} (k : Only m s t) (h : Only M s0 s) (le : m ||| M = M) : Only M s0 t :=
  ⟨fun n => (k.1 (testBit_le le n)).trans (h.1 n),
   fun n => (k.2.1 (testBit_le le n)).trans (h.2.1 n),
   fun n => (k.2.2.1 (testBit_le le n)).trans (h.2.2.1 n),
   fun n => (k.2.2.2.1 (testBit_le le n)).trans (h.2.2.2.1 n),
   fun n => (k.2.2.2.2.1 (testBit_le le n)).trans (h.2.2.2.2.1 n),
   fun n => (k.2.2.2.2.2.1 (testBit_le le n)).trans (h.2.2.2.2.2.1 n),
   fun n => (k.2.2.2.2.2.2.1 (testBit_le le n)).trans (h.2.2.2.2.2.2.1 n),
   fun n => (k.2.2.2.2.2.2.2.1 (testBit_le le n)).trans (h.2.2.2.2.2.2.2.1 n),
   fun n => (k.2.2.2.2.2.2.2.2.1 (testBit_le le n)).trans (h.2.2.2.2.2.2.2.2.1 n),
   fun n => (k.2.2.2.2.2.2.2.2.2.1 (testBit_le le n)).trans (h.2.2.2.2.2.2.2.2.2.1 n),
   fun n => (k.2.2.2.2.2.2.2.2.2.2.1 (testBit_le le n)).trans (h.2.2.2.2.2.2.2.2.2.2.1 n),
   fun n => (k.2.2.2.2.2.2.2.2.2.2.2.1 (testBit_le le n)).trans (h.2.2.2.2.2.2.2.2.2.2.2.1 n),
   fun n => (k.2.2.2.2.2.2.2.2.2.2.2.2.1 (testBit_le le n)).trans (h.2.2.2.2.2.2.2.2.2.2.2.2.1 n),
   fun n => (k.2.2.2.2.2.2.2.2.2.2.2.2.2.1 (testBit_le le n)).trans (h.2.2.2.2.2.2.2.2.2.2.2.2.2.1 n),
   fun n => (k.2.2.2.2.2.2.2.2.2.2.2.2.2.2.1 (testBit_le le n)).trans (h.2.2.2.2.2.2.2.2.2.2.2.2.2.2.1 n),
   fun n => (k.2.2.2.2.2.2.2.2.2.2.2.2.2.2.2.1 (testBit_le le n)).trans (h.2.2.2.2.2.2.2.2.2.2.2.2.2.2.2.1 n),
   fun n => (k.2.2.2.2.2.2.2.2.2.2.2.2.2.2.2.2.1 (testBit_le le n)).trans (h.2.2.2.2.2.2.2.2.2.2.2.2.2.2.2.2.1 n),
   fun n => (k.2.2.2.2.2.2.2.2.2.2.2.2.2.2.2.2.2.1 (testBit_le le n)).trans (h.2.2.2.2.2.2.2.2.2.2.2.2.2.2.2.2.2.1 n),
   fun n => (k.2.2.2.2.2.2.2.2.2.2.2.2.2.2.2.2.2.2.1 (testBit_le le n)).trans (h.2.2.2.2.2.2.2.2.2.2.2.2.2.2.2.2.2.2.1 n),
   fun n => (k.2.2.2.2.2.2.2.2.2.2.2.2.2.2.2.2.2.2.2.1 (testBit_le le n)).trans (h.2.2.2.2.2.2.2.2.2.2.2.2.2.2.2.2.2.2.2.1 n),
   fun n => (k.2.2.2.2.2.2.2.2.2.2.2.2.2.2.2.2.2.2.2.2.1 (testBit_le le n)).trans (h.2.2.2.2.2.2.2.2.2.2.2.2.2.2.2.2.2.2.2.2.1 n),
   fun n => (k.2.2.2.2.2.2.2.2.2.2.2.2.2.2.2.2.2.2.2.2.2.1 (testBit_le le n)).trans (h.2.2.2.2.2.2.2.2.2.2.2.2.2.2.2.2.2.2.2.2.2.1 n),
   fun n => (k.2.2.2.2.2.2.2.2.2.2.2.2.2.2.2.2.2.2.2.2.2.2.1 (testBit_le le n)).trans (h.2.2.2.2.2.2.2.2.2.2.2.2.2.2.2.2.2.2.2.2.2.2.1 n),
   fun n => (k.2.2.2.2.2.2.2.2.2.2.2.2.2.2.2.2.2.2.2.2.2.2.2.1 (testBit_le le n)).trans (h.2.2.2.2.2.2.2.2.2.2.2.2.2.2.2.2.2.2.2.2.2.2.2.1 n),
   fun n => (k.2.2.2.2.2.2.2.2.2.2.2.2.2.2.2.2.2.2.2.2.2.2.2.2.1 (testBit_le le n)).trans (h.2.2.2.2.2.2.2.2.2.2.2.2.2.2.2.2.2.2.2.2.2.2.2.2.1 n),
   fun n => (k.2.2.2.2.2.2.2.2.2.2.2.2.2.2.2.2.2.2.2.2.2.2.2.2.2.1 (testBit_le le n)).trans (h.2.2.2.2.2.2.2.2.2.2.2.2.2.2.2.2.2.2.2.2.2.2.2.2.2.1 n),
   fun n => (k.2.2.2.2.2.2.2.2.2.2.2.2.2.2.2.2.2.2.2.2.2.2.2.2.2.2.1 (testBit_le le n)).trans (h.2.2.2.2.2.2.2.2.2.2.2.2.2.2.2.2.2.2.2.2.2.2.2.2.2.2.1 n),
   fun n => (k.2.2.2.2.2.2.2.2.2.2.2.2.2.2.2.2.2.2.2.2.2.2.2.2.2.2.2 (testBit_le le n)).trans (h.2.2.2.2.2.2.2.2.2.2.2.2.2.2.2.2.2.2.2.2.2.2.2.2.2.2.2 n)⟩

theorem OnlyParts.order {m : Nat} {s0 : State} {x' : Nat} {order modes pow clk flt leases a b fd regs pers br rings crc tmr otp bkp keys st upd tst pat stdin remote freeCtr time pending} (h : OnlyParts m s0 x' modes pow clk flt leases a b fd regs pers br rings crc tmr otp bkp keys st upd tst pat stdin remote freeCtr time pending) (c : m.testBit 0 = true) :
    OnlyParts m s0 order modes pow clk flt leases a b fd regs pers br rings crc tmr otp bkp keys st upd tst pat stdin remote freeCtr time pending :=
  ⟨fun n => absurd (c.symm.trans n) (by decide), h.2.1, h.2.2.1, h.2.2.2.1, h.2.2.2.2.1, h.2.2.2.2.2.1, h.2.2.2.2.2.2.1, h.2.2.2.2.2.2.2.1, h.2.2.2.2.2.2.2.2.1, h.2.2.2.2.2.2.2.2.2.1, h.2.2.2.2.2.2.2.2.2.2.1, h.2.2.2.2.2.2.2.2.2.2.2.1, h.2.2.2.2.2.2.2.2.2.2.2.2.1, h.2.2.2.2.2.2.2.2.2.2.2.2.2.1, h.2.2.2.2.2.2.2.2.2.2.2.2.2.2.1, h.2.2.2.2.2.2.2.2.2.2.2.2.2.2.2.1, h.2.2.2.2.2.2.2.2.2.2.2.2.2.2.2.2.1, h.2.2.2.2.2.2.2.2.2.2.2.2.2.2.2.2.2.1, h.2.2.2.2.2.2.2.2.2.2.2.2.2.2.2.2.2.2.1, h.2.2.2.2.2.2.2.2.2.2.2.2.2.2.2.2.2.2.2.1, h.2.2.2.2.2.2.2.2.2.2.2.2.2.2.2.2.2.2.2.2.1, h.2.2.2.2.2.2.2.2.2.2.2.2.2.2.2.2.2.2.2.2.2.1, h.2.2.2.2.2.2.2.2.2.2.2.2.2.2.2.2.2.2.2.2.2.2.1, h.2.2.2.2.2.2.2.2.2.2.2.2.2.2.2.2.2.2.2.2.2.2.2.1, h.2.2.2.2.2.2.2.2.2.2.2.2.2.2.2.2.2.2.2.2.2.2.2.2.1, h.2.2.2.2.2.2.2.2.2.2.2.2.2.2.2.2.2.2.2.2.2.2.2.2.2.1, h.2.2.2.2.2.2.2.2.2.2.2.2.2.2.2.2.2.2.2.2.2.2.2.2.2.2.1, h.2.2.2.2.2.2.2.2.2.2.2.2.2.2.2.2.2.2.2.2.2.2.2.2.2.2.2⟩

theorem OnlyParts.modes {m : Nat} {s0 : State} {x' : Modes} {order modes pow clk flt leases a b fd regs pers br rings crc tmr otp bkp keys st upd tst pat stdin remote freeCtr time pending} (h : OnlyParts m s0 order x' pow clk flt leases a b fd regs pers br rings crc tmr otp bkp keys st upd tst pat stdin remote freeCtr time pending) (c : m.testBit 1 = true) (c2 : m.testBit 27 = true) :
    OnlyParts m s0 order modes pow clk flt leases a b fd regs pers br rings crc tmr otp bkp keys st upd tst pat stdin remote freeCtr time pending :=
  ⟨h.1, fun n => absurd (c.symm.trans n) (by decide), h.2.2.1, h.2.2.2.1, h.2.2.2.2.1, h.2.2.2.2.2.1, h.2.2.2.2.2.2.1, h.2.2.2.2.2.2.2.1, h.2.2.2.2.2.2.2.2.1, h.2.2.2.2.2.2.2.2.2.1, h.2.2.2.2.2.2.2.2.2.2.1, h.2.2.2.2.2.2.2.2.2.2.2.1, h.2.2.2.2.2.2.2.2.2.2.2.2.1, h.2.2.2.2.2.2.2.2.2.2.2.2.2.1, h.2.2.2.2.2.2.2.2.2.2.2.2.2.2.1, h.2.2.2.2.2.2.2.2.2.2.2.2.2.2.2.1, h.2.2.2.2.2.2.2.2.2.2.2.2.2.2.2.2.1, h.2.2.2.2.2.2.2.2.2.2.2.2.2.2.2.2.2.1, h.2.2.2.2.2.2.2.2.2.2.2.2.2.2.2.2.2.2.1, h.2.2.2.2.2.2.2.2.2.2.2.2.2.2.2.2.2.2.2.1, h.2.2.2.2.2.2.2.2.2.2.2.2.2.2.2.2.2.2.2.2.1, h.2.2.2.2.2.2.2.2.2.2.2.2.2.2.2.2.2.2.2.2.2.1, h.2.2.2.2.2.2.2.2.2.2.2.2.2.2.2.2.2.2.2.2.2.2.1, h.2.2.2.2.2.2.2.2.2.2.2.2.2.2.2.2.2.2.2.2.2.2.2.1, h.2.2.2.2.2.2.2.2.2.2.2.2.2.2.2.2.2.2.2.2.2.2.2.2.1, h.2.2.2.2.2.2.2.2.2.2.2.2.2.2.2.2.2.2.2.2.2.2.2.2.2.1, h.2.2.2.2.2.2.2.2.2.2.2.2.2.2.2.2.2.2.2.2.2.2.2.2.2.2.1, fun n => absurd (c2.symm.trans n) (by decide)⟩

theorem OnlyParts.pow {m : Nat} {s0 : State} {x' : Power} {order modes pow clk flt leases a b fd regs pers br rings crc tmr otp bkp keys st upd tst pat stdin remote freeCtr time pending} (h : OnlyParts m s0 order modes x' clk flt leases a b fd regs pers br rings crc tmr otp bkp keys st upd tst pat stdin remote freeCtr time pending) (c : m.testBit 2 = true) :
    OnlyParts m s0 order modes pow clk flt leases a b fd regs pers br rings crc tmr otp bkp keys st upd tst pat stdin remote freeCtr time pending :=
  ⟨h.1, h.2.1, fun n => absurd (c.symm.trans n) (by decide), h.2.2.2.1, h.2.2.2.2.1, h.2.2.2.2.2.1, h.2.2.2.2.2.2.1, h.2.2.2.2.2.2.2.1, h.2.2.2.2.2.2.2.2.1, h.2.2.2.2.2.2.2.2.2.1, h.2.2.2.2.2.2.2.2.2.2.1, h.2.2.2.2.2.2.2.2.2.2.2.1, h.2.2.2.2.2.2.2.2.2.2.2.2.1, h.2.2.2.2.2.2.2.2.2.2.2.2.2.1, h.2.2.2.2.2.2.2.2.2.2.2.2.2.2.1, h.2.2.2.2.2.2.2.2.2.2.2.2.2.2.2.1, h.2.2.2.2.2.2.2.2.2.2.2.2.2.2.2.2.1, h.2.2.2.2.2.2.2.2.2.2.2.2.2.2.2.2.2.1, h.2.2.2.2.2.2.2.2.2.2.2.2.2.2.2.2.2.2.1, h.2.2.2.2.2.2.2.2.2.2.2.2.2.2.2.2.2.2.2.1, h.2.2.2.2.2.2.2.2.2.2.2.2.2.2.2.2.2.2.2.2.1, h.2.2.2.2.2.2.2.2.2.2.2.2.2.2.2.2.2.2.2.2.2.1, h.2.2.2.2.2.2.2.2.2.2.2.2.2.2.2.2.2.2.2.2.2.2.1, h.2.2.2.2.2.2.2.2.2.2.2.2.2.2.2.2.2.2.2.2.2.2.2.1, h.2.2.2.2.2.2.2.2.2.2.2.2.2.2.2.2.2.2.2.2.2.2.2.2.1, h.2.2.2.2.2.2.2.2.2.2.2.2.2.2.2.2.2.2.2.2.2.2.2.2.2.1, h.2.2.2.2.2.2.2.2.2.2.2.2.2.2.2.2.2.2.2.2.2.2.2.2.2.2.1, h.2.2.2.2.2.2.2.2.2.2.2.2.2.2.2.2.2.2.2.2.2.2.2.2.2.2.2⟩

theorem OnlyParts.clk {m : Nat} {s0 : State} {x' : Clocks} {order modes pow clk flt leases a b fd regs pers br rings crc tmr otp bkp keys st upd tst pat stdin remote freeCtr time pending} (h : OnlyParts m s0 order modes pow x' flt leases a b fd regs pers br rings crc tmr otp bkp keys st upd tst pat stdin remote freeCtr time pending) (c : m.testBit 3 = true) :
    OnlyParts m s0 order modes pow clk flt leases a b fd regs pers br rings crc tmr otp bkp keys st upd tst pat stdin remote freeCtr time pending :=
  ⟨h.1, h.2.1, h.2.2.1, fun n => absurd (c.symm.trans n) (by decide), h.2.2.2.2.1, h.2.2.2.2.2.1, h.2.2.2.2.2.2.1, h.2.2.2.2.2.2.2.1, h.2.2.2.2.2.2.2.2.1, h.2.2.2.2.2.2.2.2.2.1, h.2.2.2.2.2.2.2.2.2.2.1, h.2.2.2.2.2.2.2.2.2.2.2.1, h.2.2.2.2.2.2.2.2.2.2.2.2.1, h.2.2.2.2.2.2.2.2.2.2.2.2.2.1, h.2.2.2.2.2.2.2.2.2.2.2.2.2.2.1, h.2.2.2.2.2.2.2.2.2.2.2.2.2.2.2.1, h.2.2.2.2.2.2.2.2.2.2.2.2.2.2.2.2.1, h.2.2.2.2.2.2.2.2.2.2.2.2.2.2.2.2.2.1, h.2.2.2.2.2.2.2.2.2.2.2.2.2.2.2.2.2.2.1, h.2.2.2.2.2.2.2.2.2.2.2.2.2.2.2.2.2.2.2.1, h.2.2.2.2.2.2.2.2.2.2.2.2.2.2.2.2.2.2.2.2.1, h.2.2.2.2.2.2.2.2.2.2.2.2.2.2.2.2.2.2.2.2.2.1, h.2.2.2.2.2.2.2.2.2.2.2.2.2.2.2.2.2.2.2.2.2.2.1, h.2.2.2.2.2.2.2.2.2.2.2.2.2.2.2.2.2.2.2.2.2.2.2.1, h.2.2.2.2.2.2.2.2.2.2.2.2.2.2.2.2.2.2.2.2.2.2.2.2.1, h.2.2.2.2.2.2.2.2.2.2.2.2.2.2.2.2.2.2.2.2.2.2.2.2.2.1, h.2.2.2.2.2.2.2.2.2.2.2.2.2.2.2.2.2.2.2.2.2.2.2.2.2.2.1, h.2.2.2.2.2.2.2.2.2.2.2.2.2.2.2.2.2.2.2.2.2.2.2.2.2.2.2⟩

theorem OnlyParts.flt {m : Nat} {s0 : State} {x' : Faults} {order modes pow clk flt leases a b fd regs pers br rings crc tmr otp bkp keys st upd tst pat stdin remote freeCtr time pending} (h : OnlyParts m s0 order modes pow clk x' leases a b fd regs pers br rings crc tmr otp bkp keys st upd tst pat stdin remote freeCtr time pending) (c : m.testBit 4 = true) :
    OnlyParts m s0 order modes pow clk flt leases a b fd regs pers br rings crc tmr otp bkp keys st upd tst pat stdin remote freeCtr time pending :=
  ⟨h.1, h.2.1, h.2.2.1, h.2.2.2.1, fun n => absurd (c.symm.trans n) (by decide), h.2.2.2.2.2.1, h.2.2.2.2.2.2.1, h.2.2.2.2.2.2.2.1, h.2.2.2.2.2.2.2.2.1, h.2.2.2.2.2.2.2.2.2.1, h.2.2.2.2.2.2.2.2.2.2.1, h.2.2.2.2.2.2.2.2.2.2.2.1, h.2.2.2.2.2.2.2.2.2.2.2.2.1, h.2.2.2.2.2.2.2.2.2.2.2.2.2.1, h.2.2.2.2.2.2.2.2.2.2.2.2.2.2.1, h.2.2.2.2.2.2.2.2.2.2.2.2.2.2.2.1, h.2.2.2.2.2.2.2.2.2.2.2.2.2.2.2.2.1, h.2.2.2.2.2.2.2.2.2.2.2.2.2.2.2.2.2.1, h.2.2.2.2.2.2.2.2.2.2.2.2.2.2.2.2.2.2.1, h.2.2.2.2.2.2.2.2.2.2.2.2.2.2.2.2.2.2.2.1, h.2.2.2.2.2.2.2.2.2.2.2.2.2.2.2.2.2.2.2.2.1, h.2.2.2.2.2.2.2.2.2.2.2.2.2.2.2.2.2.2.2.2.2.1, h.2.2.2.2.2.2.2.2.2.2.2.2.2.2.2.2.2.2.2.2.2.2.1, h.2.2.2.2.2.2.2.2.2.2.2.2.2.2.2.2.2.2.2.2.2.2.2.1, h.2.2.2.2.2.2.2.2.2.2.2.2.2.2.2.2.2.2.2.2.2.2.2.2.1, h.2.2.2.2.2.2.2.2.2.2.2.2.2.2.2.2.2.2.2.2.2.2.2.2.2.1, h.2.2.2.2.2.2.2.2.2.2.2.2.2.2.2.2.2.2.2.2.2.2.2.2.2.2.1, h.2.2.2.2.2.2.2.2.2.2.2.2.2.2.2.2.2.2.2.2.2.2.2.2.2.2.2⟩

theorem OnlyParts.leases {m : Nat} {s0 : State} {x' : Tab Lease} {order modes pow clk flt leases a b fd regs pers br rings crc tmr otp bkp keys st upd tst pat stdin remote freeCtr time pending} (h : OnlyParts m s0 order modes pow clk flt x' a b fd regs pers br rings crc tmr otp bkp keys st upd tst pat stdin remote freeCtr time pending) (c : m.testBit 5 = true) :
    OnlyParts m s0 order modes pow clk flt leases a b fd regs pers br rings crc tmr otp bkp keys st upd tst pat stdin remote freeCtr time pending :=
  ⟨h.1, h.2.1, h.2.2.1, h.2.2.2.1, h.2.2.2.2.1, fun n => absurd (c.symm.trans n) (by decide), h.2.2.2.2.2.2.1, h.2.2.2.2.2.2.2.1, h.2.2.2.2.2.2.2.2.1, h.2.2.2.2.2.2.2.2.2.1, h.2.2.2.2.2.2.2.2.2.2.1, h.2.2.2.2.2.2.2.2.2.2.2.1, h.2.2.2.2.2.2.2.2.2.2.2.2.1, h.2.2.2.2.2.2.2.2.2.2.2.2.2.1, h.2.2.2.2.2.2.2.2.2.2.2.2.2.2.1, h.2.2.2.2.2.2.2.2.2.2.2.2.2.2.2.1, h.2.2.2.2.2.2.2.2.2.2.2.2.2.2.2.2.1, h.2.2.2.2.2.2.2.2.2.2.2.2.2.2.2.2.2.1, h.2.2.2.2.2.2.2.2.2.2.2.2.2.2.2.2.2.2.1, h.2.2.2.2.2.2.2.2.2.2.2.2.2.2.2.2.2.2.2.1, h.2.2.2.2.2.2.2.2.2.2.2.2.2.2.2.2.2.2.2.2.1, h.2.2.2.2.2.2.2.2.2.2.2.2.2.2.2.2.2.2.2.2.2.1, h.2.2.2.2.2.2.2.2.2.2.2.2.2.2.2.2.2.2.2.2.2.2.1, h.2.2.2.2.2.2.2.2.2.2.2.2.2.2.2.2.2.2.2.2.2.2.2.1, h.2.2.2.2.2.2.2.2.2.2.2.2.2.2.2.2.2.2.2.2.2.2.2.2.1, h.2.2.2.2.2.2.2.2.2.2.2.2.2.2.2.2.2.2.2.2.2.2.2.2.2.1, h.2.2.2.2.2.2.2.2.2.2.2.2.2.2.2.2.2.2.2.2.2.2.2.2.2.2.1, h.2.2.2.2.2.2.2.2.2.2.2.2.2.2.2.2.2.2.2.2.2.2.2.2.2.2.2⟩

theorem OnlyParts.a {m : Nat} {s0 : State} {x' : LDie} {order modes pow clk flt leases a b fd regs pers br rings crc tmr otp bkp keys st upd tst pat stdin remote freeCtr time pending} (h : OnlyParts m s0 order modes pow clk flt leases x' b fd regs pers br rings crc tmr otp bkp keys st upd tst pat stdin remote freeCtr time pending) (c : m.testBit 6 = true) :
    OnlyParts m s0 order modes pow clk flt leases a b fd regs pers br rings crc tmr otp bkp keys st upd tst pat stdin remote freeCtr time pending :=
  ⟨h.1, h.2.1, h.2.2.1, h.2.2.2.1, h.2.2.2.2.1, h.2.2.2.2.2.1, fun n => absurd (c.symm.trans n) (by decide), h.2.2.2.2.2.2.2.1, h.2.2.2.2.2.2.2.2.1, h.2.2.2.2.2.2.2.2.2.1, h.2.2.2.2.2.2.2.2.2.2.1, h.2.2.2.2.2.2.2.2.2.2.2.1, h.2.2.2.2.2.2.2.2.2.2.2.2.1, h.2.2.2.2.2.2.2.2.2.2.2.2.2.1, h.2.2.2.2.2.2.2.2.2.2.2.2.2.2.1, h.2.2.2.2.2.2.2.2.2.2.2.2.2.2.2.1, h.2.2.2.2.2.2.2.2.2.2.2.2.2.2.2.2.1, h.2.2.2.2.2.2.2.2.2.2.2.2.2.2.2.2.2.1, h.2.2.2.2.2.2.2.2.2.2.2.2.2.2.2.2.2.2.1, h.2.2.2.2.2.2.2.2.2.2.2.2.2.2.2.2.2.2.2.1, h.2.2.2.2.2.2.2.2.2.2.2.2.2.2.2.2.2.2.2.2.1, h.2.2.2.2.2.2.2.2.2.2.2.2.2.2.2.2.2.2.2.2.2.1, h.2.2.2.2.2.2.2.2.2.2.2.2.2.2.2.2.2.2.2.2.2.2.1, h.2.2.2.2.2.2.2.2.2.2.2.2.2.2.2.2.2.2.2.2.2.2.2.1, h.2.2.2.2.2.2.2.2.2.2.2.2.2.2.2.2.2.2.2.2.2.2.2.2.1, h.2.2.2.2.2.2.2.2.2.2.2.2.2.2.2.2.2.2.2.2.2.2.2.2.2.1, h.2.2.2.2.2.2.2.2.2.2.2.2.2.2.2.2.2.2.2.2.2.2.2.2.2.2.1, h.2.2.2.2.2.2.2.2.2.2.2.2.2.2.2.2.2.2.2.2.2.2.2.2.2.2.2⟩

theorem OnlyParts.b {m : Nat} {s0 : State} {x' : LDie} {order modes pow clk flt leases a b fd regs pers br rings crc tmr otp bkp keys st upd tst pat stdin remote freeCtr time pending} (h : OnlyParts m s0 order modes pow clk flt leases a x' fd regs pers br rings crc tmr otp bkp keys st upd tst pat stdin remote freeCtr time pending) (c : m.testBit 7 = true) :
    OnlyParts m s0 order modes pow clk flt leases a b fd regs pers br rings crc tmr otp bkp keys st upd tst pat stdin remote freeCtr time pending :=
  ⟨h.1, h.2.1, h.2.2.1, h.2.2.2.1, h.2.2.2.2.1, h.2.2.2.2.2.1, h.2.2.2.2.2.2.1, fun n => absurd (c.symm.trans n) (by decide), h.2.2.2.2.2.2.2.2.1, h.2.2.2.2.2.2.2.2.2.1, h.2.2.2.2.2.2.2.2.2.2.1, h.2.2.2.2.2.2.2.2.2.2.2.1, h.2.2.2.2.2.2.2.2.2.2.2.2.1, h.2.2.2.2.2.2.2.2.2.2.2.2.2.1, h.2.2.2.2.2.2.2.2.2.2.2.2.2.2.1, h.2.2.2.2.2.2.2.2.2.2.2.2.2.2.2.1, h.2.2.2.2.2.2.2.2.2.2.2.2.2.2.2.2.1, h.2.2.2.2.2.2.2.2.2.2.2.2.2.2.2.2.2.1, h.2.2.2.2.2.2.2.2.2.2.2.2.2.2.2.2.2.2.1, h.2.2.2.2.2.2.2.2.2.2.2.2.2.2.2.2.2.2.2.1, h.2.2.2.2.2.2.2.2.2.2.2.2.2.2.2.2.2.2.2.2.1, h.2.2.2.2.2.2.2.2.2.2.2.2.2.2.2.2.2.2.2.2.2.1, h.2.2.2.2.2.2.2.2.2.2.2.2.2.2.2.2.2.2.2.2.2.2.1, h.2.2.2.2.2.2.2.2.2.2.2.2.2.2.2.2.2.2.2.2.2.2.2.1, h.2.2.2.2.2.2.2.2.2.2.2.2.2.2.2.2.2.2.2.2.2.2.2.2.1, h.2.2.2.2.2.2.2.2.2.2.2.2.2.2.2.2.2.2.2.2.2.2.2.2.2.1, h.2.2.2.2.2.2.2.2.2.2.2.2.2.2.2.2.2.2.2.2.2.2.2.2.2.2.1, h.2.2.2.2.2.2.2.2.2.2.2.2.2.2.2.2.2.2.2.2.2.2.2.2.2.2.2⟩

theorem OnlyParts.fd {m : Nat} {s0 : State} {x' : Tab FDie} {order modes pow clk flt leases a b fd regs pers br rings crc tmr otp bkp keys st upd tst pat stdin remote freeCtr time pending} (h : OnlyParts m s0 order modes pow clk flt leases a b x' regs pers br rings crc tmr otp bkp keys st upd tst pat stdin remote freeCtr time pending) (c : m.testBit 8 = true) :
    OnlyParts m s0 order modes pow clk flt leases a b fd regs pers br rings crc tmr otp bkp keys st upd tst pat stdin remote freeCtr time pending :=
  ⟨h.1, h.2.1, h.2.2.1, h.2.2.2.1, h.2.2.2.2.1, h.2.2.2.2.2.1, h.2.2.2.2.2.2.1, h.2.2.2.2.2.2.2.1, fun n => absurd (c.symm.trans n) (by decide), h.2.2.2.2.2.2.2.2.2.1, h.2.2.2.2.2.2.2.2.2.2.1, h.2.2.2.2.2.2.2.2.2.2.2.1, h.2.2.2.2.2.2.2.2.2.2.2.2.1, h.2.2.2.2.2.2.2.2.2.2.2.2.2.1, h.2.2.2.2.2.2.2.2.2.2.2.2.2.2.1, h.2.2.2.2.2.2.2.2.2.2.2.2.2.2.2.1, h.2.2.2.2.2.2.2.2.2.2.2.2.2.2.2.2.1, h.2.2.2.2.2.2.2.2.2.2.2.2.2.2.2.2.2.1, h.2.2.2.2.2.2.2.2.2.2.2.2.2.2.2.2.2.2.1, h.2.2.2.2.2.2.2.2.2.2.2.2.2.2.2.2.2.2.2.1, h.2.2.2.2.2.2.2.2.2.2.2.2.2.2.2.2.2.2.2.2.1, h.2.2.2.2.2.2.2.2.2.2.2.2.2.2.2.2.2.2.2.2.2.1, h.2.2.2.2.2.2.2.2.2.2.2.2.2.2.2.2.2.2.2.2.2.2.1, h.2.2.2.2.2.2.2.2.2.2.2.2.2.2.2.2.2.2.2.2.2.2.2.1, h.2.2.2.2.2.2.2.2.2.2.2.2.2.2.2.2.2.2.2.2.2.2.2.2.1, h.2.2.2.2.2.2.2.2.2.2.2.2.2.2.2.2.2.2.2.2.2.2.2.2.2.1, h.2.2.2.2.2.2.2.2.2.2.2.2.2.2.2.2.2.2.2.2.2.2.2.2.2.2.1, h.2.2.2.2.2.2.2.2.2.2.2.2.2.2.2.2.2.2.2.2.2.2.2.2.2.2.2⟩

theorem OnlyParts.regs {m : Nat} {s0 : State} {x' : Regs} {order modes pow clk flt leases a b fd regs pers br rings crc tmr otp bkp keys st upd tst pat stdin remote freeCtr time pending} (h : OnlyParts m s0 order modes pow clk flt leases a b fd x' pers br rings crc tmr otp bkp keys st upd tst pat stdin remote freeCtr time pending) (c : m.testBit 9 = true) :
    OnlyParts m s0 order modes pow clk flt leases a b fd regs pers br rings crc tmr otp bkp keys st upd tst pat stdin remote freeCtr time pending :=
  ⟨h.1, h.2.1, h.2.2.1, h.2.2.2.1, h.2.2.2.2.1, h.2.2.2.2.2.1, h.2.2.2.2.2.2.1, h.2.2.2.2.2.2.2.1, h.2.2.2.2.2.2.2.2.1, fun n => absurd (c.symm.trans n) (by decide), h.2.2.2.2.2.2.2.2.2.2.1, h.2.2.2.2.2.2.2.2.2.2.2.1, h.2.2.2.2.2.2.2.2.2.2.2.2.1, h.2.2.2.2.2.2.2.2.2.2.2.2.2.1, h.2.2.2.2.2.2.2.2.2.2.2.2.2.2.1, h.2.2.2.2.2.2.2.2.2.2.2.2.2.2.2.1, h.2.2.2.2.2.2.2.2.2.2.2.2.2.2.2.2.1, h.2.2.2.2.2.2.2.2.2.2.2.2.2.2.2.2.2.1, h.2.2.2.2.2.2.2.2.2.2.2.2.2.2.2.2.2.2.1, h.2.2.2.2.2.2.2.2.2.2.2.2.2.2.2.2.2.2.2.1, h.2.2.2.2.2.2.2.2.2.2.2.2.2.2.2.2.2.2.2.2.1, h.2.2.2.2.2.2.2.2.2.2.2.2.2.2.2.2.2.2.2.2.2.1, h.2.2.2.2.2.2.2.2.2.2.2.2.2.2.2.2.2.2.2.2.2.2.1, h.2.2.2.2.2.2.2.2.2.2.2.2.2.2.2.2.2.2.2.2.2.2.2.1, h.2.2.2.2.2.2.2.2.2.2.2.2.2.2.2.2.2.2.2.2.2.2.2.2.1, h.2.2.2.2.2.2.2.2.2.2.2.2.2.2.2.2.2.2.2.2.2.2.2.2.2.1, h.2.2.2.2.2.2.2.2.2.2.2.2.2.2.2.2.2.2.2.2.2.2.2.2.2.2.1, h.2.2.2.2.2.2.2.2.2.2.2.2.2.2.2.2.2.2.2.2.2.2.2.2.2.2.2⟩

theorem OnlyParts.pers {m : Nat} {s0 : State} {x' : Pers} {order modes pow clk flt leases a b fd regs pers br rings crc tmr otp bkp keys st upd tst pat stdin remote freeCtr time pending} (h : OnlyParts m s0 order modes pow clk flt leases a b fd regs x' br rings crc tmr otp bkp keys st upd tst pat stdin remote freeCtr time pending) (c : m.testBit 10 = true) :
    OnlyParts m s0 order modes pow clk flt leases a b fd regs pers br rings crc tmr otp bkp keys st upd tst pat stdin remote freeCtr time pending :=
  ⟨h.1, h.2.1, h.2.2.1, h.2.2.2.1, h.2.2.2.2.1, h.2.2.2.2.2.1, h.2.2.2.2.2.2.1, h.2.2.2.2.2.2.2.1, h.2.2.2.2.2.2.2.2.1, h.2.2.2.2.2.2.2.2.2.1, fun n => absurd (c.symm.trans n) (by decide), h.2.2.2.2.2.2.2.2.2.2.2.1, h.2.2.2.2.2.2.2.2.2.2.2.2.1, h.2.2.2.2.2.2.2.2.2.2.2.2.2.1, h.2.2.2.2.2.2.2.2.2.2.2.2.2.2.1, h.2.2.2.2.2.2.2.2.2.2.2.2.2.2.2.1, h.2.2.2.2.2.2.2.2.2.2.2.2.2.2.2.2.1, h.2.2.2.2.2.2.2.2.2.2.2.2.2.2.2.2.2.1, h.2.2.2.2.2.2.2.2.2.2.2.2.2.2.2.2.2.2.1, h.2.2.2.2.2.2.2.2.2.2.2.2.2.2.2.2.2.2.2.1, h.2.2.2.2.2.2.2.2.2.2.2.2.2.2.2.2.2.2.2.2.1, h.2.2.2.2.2.2.2.2.2.2.2.2.2.2.2.2.2.2.2.2.2.1, h.2.2.2.2.2.2.2.2.2.2.2.2.2.2.2.2.2.2.2.2.2.2.1, h.2.2.2.2.2.2.2.2.2.2.2.2.2.2.2.2.2.2.2.2.2.2.2.1, h.2.2.2.2.2.2.2.2.2.2.2.2.2.2.2.2.2.2.2.2.2.2.2.2.1, h.2.2.2.2.2.2.2.2.2.2.2.2.2.2.2.2.2.2.2.2.2.2.2.2.2.1, h.2.2.2.2.2.2.2.2.2.2.2.2.2.2.2.2.2.2.2.2.2.2.2.2.2.2.1, h.2.2.2.2.2.2.2.2.2.2.2.2.2.2.2.2.2.2.2.2.2.2.2.2.2.2.2⟩

theorem OnlyParts.br {m : Nat} {s0 : State} {x' : Bridle} {order modes pow clk flt leases a b fd regs pers br rings crc tmr otp bkp keys st upd tst pat stdin remote freeCtr time pending} (h : OnlyParts m s0 order modes pow clk flt leases a b fd regs pers x' rings crc tmr otp bkp keys st upd tst pat stdin remote freeCtr time pending) (c : m.testBit 11 = true) :
    OnlyParts m s0 order modes pow clk flt leases a b fd regs pers br rings crc tmr otp bkp keys st upd tst pat stdin remote freeCtr time pending :=
  ⟨h.1, h.2.1, h.2.2.1, h.2.2.2.1, h.2.2.2.2.1, h.2.2.2.2.2.1, h.2.2.2.2.2.2.1, h.2.2.2.2.2.2.2.1, h.2.2.2.2.2.2.2.2.1, h.2.2.2.2.2.2.2.2.2.1, h.2.2.2.2.2.2.2.2.2.2.1, fun n => absurd (c.symm.trans n) (by decide), h.2.2.2.2.2.2.2.2.2.2.2.2.1, h.2.2.2.2.2.2.2.2.2.2.2.2.2.1, h.2.2.2.2.2.2.2.2.2.2.2.2.2.2.1, h.2.2.2.2.2.2.2.2.2.2.2.2.2.2.2.1, h.2.2.2.2.2.2.2.2.2.2.2.2.2.2.2.2.1, h.2.2.2.2.2.2.2.2.2.2.2.2.2.2.2.2.2.1, h.2.2.2.2.2.2.2.2.2.2.2.2.2.2.2.2.2.2.1, h.2.2.2.2.2.2.2.2.2.2.2.2.2.2.2.2.2.2.2.1, h.2.2.2.2.2.2.2.2.2.2.2.2.2.2.2.2.2.2.2.2.1, h.2.2.2.2.2.2.2.2.2.2.2.2.2.2.2.2.2.2.2.2.2.1, h.2.2.2.2.2.2.2.2.2.2.2.2.2.2.2.2.2.2.2.2.2.2.1, h.2.2.2.2.2.2.2.2.2.2.2.2.2.2.2.2.2.2.2.2.2.2.2.1, h.2.2.2.2.2.2.2.2.2.2.2.2.2.2.2.2.2.2.2.2.2.2.2.2.1, h.2.2.2.2.2.2.2.2.2.2.2.2.2.2.2.2.2.2.2.2.2.2.2.2.2.1, h.2.2.2.2.2.2.2.2.2.2.2.2.2.2.2.2.2.2.2.2.2.2.2.2.2.2.1, h.2.2.2.2.2.2.2.2.2.2.2.2.2.2.2.2.2.2.2.2.2.2.2.2.2.2.2⟩

theorem OnlyParts.rings {m : Nat} {s0 : State} {x' : Rings} {order modes pow clk flt leases a b fd regs pers br rings crc tmr otp bkp keys st upd tst pat stdin remote freeCtr time pending} (h : OnlyParts m s0 order modes pow clk flt leases a b fd regs pers br x' crc tmr otp bkp keys st upd tst pat stdin remote freeCtr time pending) (c : m.testBit 12 = true) :
    OnlyParts m s0 order modes pow clk flt leases a b fd regs pers br rings crc tmr otp bkp keys st upd tst pat stdin remote freeCtr time pending :=
  ⟨h.1, h.2.1, h.2.2.1, h.2.2.2.1, h.2.2.2.2.1, h.2.2.2.2.2.1, h.2.2.2.2.2.2.1, h.2.2.2.2.2.2.2.1, h.2.2.2.2.2.2.2.2.1, h.2.2.2.2.2.2.2.2.2.1, h.2.2.2.2.2.2.2.2.2.2.1, h.2.2.2.2.2.2.2.2.2.2.2.1, fun n => absurd (c.symm.trans n) (by decide), h.2.2.2.2.2.2.2.2.2.2.2.2.2.1, h.2.2.2.2.2.2.2.2.2.2.2.2.2.2.1, h.2.2.2.2.2.2.2.2.2.2.2.2.2.2.2.1, h.2.2.2.2.2.2.2.2.2.2.2.2.2.2.2.2.1, h.2.2.2.2.2.2.2.2.2.2.2.2.2.2.2.2.2.1, h.2.2.2.2.2.2.2.2.2.2.2.2.2.2.2.2.2.2.1, h.2.2.2.2.2.2.2.2.2.2.2.2.2.2.2.2.2.2.2.1, h.2.2.2.2.2.2.2.2.2.2.2.2.2.2.2.2.2.2.2.2.1, h.2.2.2.2.2.2.2.2.2.2.2.2.2.2.2.2.2.2.2.2.2.1, h.2.2.2.2.2.2.2.2.2.2.2.2.2.2.2.2.2.2.2.2.2.2.1, h.2.2.2.2.2.2.2.2.2.2.2.2.2.2.2.2.2.2.2.2.2.2.2.1, h.2.2.2.2.2.2.2.2.2.2.2.2.2.2.2.2.2.2.2.2.2.2.2.2.1, h.2.2.2.2.2.2.2.2.2.2.2.2.2.2.2.2.2.2.2.2.2.2.2.2.2.1, h.2.2.2.2.2.2.2.2.2.2.2.2.2.2.2.2.2.2.2.2.2.2.2.2.2.2.1, h.2.2.2.2.2.2.2.2.2.2.2.2.2.2.2.2.2.2.2.2.2.2.2.2.2.2.2⟩

theorem OnlyParts.crc {m : Nat} {s0 : State} {x' : Tab CrcCh} {order modes pow clk flt leases a b fd regs pers br rings crc tmr otp bkp keys st upd tst pat stdin remote freeCtr time pending} (h : OnlyParts m s0 order modes pow clk flt leases a b fd regs pers br rings x' tmr otp bkp keys st upd tst pat stdin remote freeCtr time pending) (c : m.testBit 13 = true) :
    OnlyParts m s0 order modes pow clk flt leases a b fd regs pers br rings crc tmr otp bkp keys st upd tst pat stdin remote freeCtr time pending :=
  ⟨h.1, h.2.1, h.2.2.1, h.2.2.2.1, h.2.2.2.2.1, h.2.2.2.2.2.1, h.2.2.2.2.2.2.1, h.2.2.2.2.2.2.2.1, h.2.2.2.2.2.2.2.2.1, h.2.2.2.2.2.2.2.2.2.1, h.2.2.2.2.2.2.2.2.2.2.1, h.2.2.2.2.2.2.2.2.2.2.2.1, h.2.2.2.2.2.2.2.2.2.2.2.2.1, fun n => absurd (c.symm.trans n) (by decide), h.2.2.2.2.2.2.2.2.2.2.2.2.2.2.1, h.2.2.2.2.2.2.2.2.2.2.2.2.2.2.2.1, h.2.2.2.2.2.2.2.2.2.2.2.2.2.2.2.2.1, h.2.2.2.2.2.2.2.2.2.2.2.2.2.2.2.2.2.1, h.2.2.2.2.2.2.2.2.2.2.2.2.2.2.2.2.2.2.1, h.2.2.2.2.2.2.2.2.2.2.2.2.2.2.2.2.2.2.2.1, h.2.2.2.2.2.2.2.2.2.2.2.2.2.2.2.2.2.2.2.2.1, h.2.2.2.2.2.2.2.2.2.2.2.2.2.2.2.2.2.2.2.2.2.1, h.2.2.2.2.2.2.2.2.2.2.2.2.2.2.2.2.2.2.2.2.2.2.1, h.2.2.2.2.2.2.2.2.2.2.2.2.2.2.2.2.2.2.2.2.2.2.2.1, h.2.2.2.2.2.2.2.2.2.2.2.2.2.2.2.2.2.2.2.2.2.2.2.2.1, h.2.2.2.2.2.2.2.2.2.2.2.2.2.2.2.2.2.2.2.2.2.2.2.2.2.1, h.2.2.2.2.2.2.2.2.2.2.2.2.2.2.2.2.2.2.2.2.2.2.2.2.2.2.1, h.2.2.2.2.2.2.2.2.2.2.2.2.2.2.2.2.2.2.2.2.2.2.2.2.2.2.2⟩

theorem OnlyParts.tmr {m : Nat} {s0 : State} {x' : Tab Tmr} {order modes pow clk flt leases a b fd regs pers br rings crc tmr otp bkp keys st upd tst pat stdin remote freeCtr time pending} (h : OnlyParts m s0 order modes pow clk flt leases a b fd regs pers br rings crc x' otp bkp keys st upd tst pat stdin remote freeCtr time pending) (c : m.testBit 14 = true) :
    OnlyParts m s0 order modes pow clk flt leases a b fd regs pers br rings crc tmr otp bkp keys st upd tst pat stdin remote freeCtr time pending :=
  ⟨h.1, h.2.1, h.2.2.1, h.2.2.2.1, h.2.2.2.2.1, h.2.2.2.2.2.1, h.2.2.2.2.2.2.1, h.2.2.2.2.2.2.2.1, h.2.2.2.2.2.2.2.2.1, h.2.2.2.2.2.2.2.2.2.1, h.2.2.2.2.2.2.2.2.2.2.1, h.2.2.2.2.2.2.2.2.2.2.2.1, h.2.2.2.2.2.2.2.2.2.2.2.2.1, h.2.2.2.2.2.2.2.2.2.2.2.2.2.1, fun n => absurd (c.symm.trans n) (by decide), h.2.2.2.2.2.2.2.2.2.2.2.2.2.2.2.1, h.2.2.2.2.2.2.2.2.2.2.2.2.2.2.2.2.1, h.2.2.2.2.2.2.2.2.2.2.2.2.2.2.2.2.2.1, h.2.2.2.2.2.2.2.2.2.2.2.2.2.2.2.2.2.2.1, h.2.2.2.2.2.2.2.2.2.2.2.2.2.2.2.2.2.2.2.1, h.2.2.2.2.2.2.2.2.2.2.2.2.2.2.2.2.2.2.2.2.1, h.2.2.2.2.2.2.2.2.2.2.2.2.2.2.2.2.2.2.2.2.2.1, h.2.2.2.2.2.2.2.2.2.2.2.2.2.2.2.2.2.2.2.2.2.2.1, h.2.2.2.2.2.2.2.2.2.2.2.2.2.2.2.2.2.2.2.2.2.2.2.1, h.2.2.2.2.2.2.2.2.2.2.2.2.2.2.2.2.2.2.2.2.2.2.2.2.1, h.2.2.2.2.2.2.2.2.2.2.2.2.2.2.2.2.2.2.2.2.2.2.2.2.2.1, h.2.2.2.2.2.2.2.2.2.2.2.2.2.2.2.2.2.2.2.2.2.2.2.2.2.2.1, h.2.2.2.2.2.2.2.2.2.2.2.2.2.2.2.2.2.2.2.2.2.2.2.2.2.2.2⟩

theorem OnlyParts.otp {m : Nat} {s0 : State} {x' : Otp} {order modes pow clk flt leases a b fd regs pers br rings crc tmr otp bkp keys st upd tst pat stdin remote freeCtr time pending} (h : OnlyParts m s0 order modes pow clk flt leases a b fd regs pers br rings crc tmr x' bkp keys st upd tst pat stdin remote freeCtr time pending) (c : m.testBit 15 = true) :
    OnlyParts m s0 order modes pow clk flt leases a b fd regs pers br rings crc tmr otp bkp keys st upd tst pat stdin remote freeCtr time pending :=
  ⟨h.1, h.2.1, h.2.2.1, h.2.2.2.1, h.2.2.2.2.1, h.2.2.2.2.2.1, h.2.2.2.2.2.2.1, h.2.2.2.2.2.2.2.1, h.2.2.2.2.2.2.2.2.1, h.2.2.2.2.2.2.2.2.2.1, h.2.2.2.2.2.2.2.2.2.2.1, h.2.2.2.2.2.2.2.2.2.2.2.1, h.2.2.2.2.2.2.2.2.2.2.2.2.1, h.2.2.2.2.2.2.2.2.2.2.2.2.2.1, h.2.2.2.2.2.2.2.2.2.2.2.2.2.2.1, fun n => absurd (c.symm.trans n) (by decide), h.2.2.2.2.2.2.2.2.2.2.2.2.2.2.2.2.1, h.2.2.2.2.2.2.2.2.2.2.2.2.2.2.2.2.2.1, h.2.2.2.2.2.2.2.2.2.2.2.2.2.2.2.2.2.2.1, h.2.2.2.2.2.2.2.2.2.2.2.2.2.2.2.2.2.2.2.1, h.2.2.2.2.2.2.2.2.2.2.2.2.2.2.2.2.2.2.2.2.1, h.2.2.2.2.2.2.2.2.2.2.2.2.2.2.2.2.2.2.2.2.2.1, h.2.2.2.2.2.2.2.2.2.2.2.2.2.2.2.2.2.2.2.2.2.2.1, h.2.2.2.2.2.2.2.2.2.2.2.2.2.2.2.2.2.2.2.2.2.2.2.1, h.2.2.2.2.2.2.2.2.2.2.2.2.2.2.2.2.2.2.2.2.2.2.2.2.1, h.2.2.2.2.2.2.2.2.2.2.2.2.2.2.2.2.2.2.2.2.2.2.2.2.2.1, h.2.2.2.2.2.2.2.2.2.2.2.2.2.2.2.2.2.2.2.2.2.2.2.2.2.2.1, h.2.2.2.2.2.2.2.2.2.2.2.2.2.2.2.2.2.2.2.2.2.2.2.2.2.2.2⟩

theorem OnlyParts.bkp {m : Nat} {s0 : State} {x' : Backup} {order modes pow clk flt leases a b fd regs pers br rings crc tmr otp bkp keys st upd tst pat stdin remote freeCtr time pending} (h : OnlyParts m s0 order modes pow clk flt leases a b fd regs pers br rings crc tmr otp x' keys st upd tst pat stdin remote freeCtr time pending) (c : m.testBit 16 = true) :
    OnlyParts m s0 order modes pow clk flt leases a b fd regs pers br rings crc tmr otp bkp keys st upd tst pat stdin remote freeCtr time pending :=
  ⟨h.1, h.2.1, h.2.2.1, h.2.2.2.1, h.2.2.2.2.1, h.2.2.2.2.2.1, h.2.2.2.2.2.2.1, h.2.2.2.2.2.2.2.1, h.2.2.2.2.2.2.2.2.1, h.2.2.2.2.2.2.2.2.2.1, h.2.2.2.2.2.2.2.2.2.2.1, h.2.2.2.2.2.2.2.2.2.2.2.1, h.2.2.2.2.2.2.2.2.2.2.2.2.1, h.2.2.2.2.2.2.2.2.2.2.2.2.2.1, h.2.2.2.2.2.2.2.2.2.2.2.2.2.2.1, h.2.2.2.2.2.2.2.2.2.2.2.2.2.2.2.1, fun n => absurd (c.symm.trans n) (by decide), h.2.2.2.2.2.2.2.2.2.2.2.2.2.2.2.2.2.1, h.2.2.2.2.2.2.2.2.2.2.2.2.2.2.2.2.2.2.1, h.2.2.2.2.2.2.2.2.2.2.2.2.2.2.2.2.2.2.2.1, h.2.2.2.2.2.2.2.2.2.2.2.2.2.2.2.2.2.2.2.2.1, h.2.2.2.2.2.2.2.2.2.2.2.2.2.2.2.2.2.2.2.2.2.1, h.2.2.2.2.2.2.2.2.2.2.2.2.2.2.2.2.2.2.2.2.2.2.1, h.2.2.2.2.2.2.2.2.2.2.2.2.2.2.2.2.2.2.2.2.2.2.2.1, h.2.2.2.2.2.2.2.2.2.2.2.2.2.2.2.2.2.2.2.2.2.2.2.2.1, h.2.2.2.2.2.2.2.2.2.2.2.2.2.2.2.2.2.2.2.2.2.2.2.2.2.1, h.2.2.2.2.2.2.2.2.2.2.2.2.2.2.2.2.2.2.2.2.2.2.2.2.2.2.1, h.2.2.2.2.2.2.2.2.2.2.2.2.2.2.2.2.2.2.2.2.2.2.2.2.2.2.2⟩

theorem OnlyParts.keys {m : Nat} {s0 : State} {x' : Keys} {order modes pow clk flt leases a b fd regs pers br rings crc tmr otp bkp keys st upd tst pat stdin remote freeCtr time pending} (h : OnlyParts m s0 order modes pow clk flt leases a b fd regs pers br rings crc tmr otp bkp x' st upd tst pat stdin remote freeCtr time pending) (c : m.testBit 17 = true) :
    OnlyParts m s0 order modes pow clk flt leases a b fd regs pers br rings crc tmr otp bkp keys st upd tst pat stdin remote freeCtr time pending :=
  ⟨h.1, h.2.1, h.2.2.1, h.2.2.2.1, h.2.2.2.2.1, h.2.2.2.2.2.1, h.2.2.2.2.2.2.1, h.2.2.2.2.2.2.2.1, h.2.2.2.2.2.2.2.2.1, h.2.2.2.2.2.2.2.2.2.1, h.2.2.2.2.2.2.2.2.2.2.1, h.2.2.2.2.2.2.2.2.2.2.2.1, h.2.2.2.2.2.2.2.2.2.2.2.2.1, h.2.2.2.2.2.2.2.2.2.2.2.2.2.1, h.2.2.2.2.2.2.2.2.2.2.2.2.2.2.1, h.2.2.2.2.2.2.2.2.2.2.2.2.2.2.2.1, h.2.2.2.2.2.2.2.2.2.2.2.2.2.2.2.2.1, fun n => absurd (c.symm.trans n) (by decide), h.2.2.2.2.2.2.2.2.2.2.2.2.2.2.2.2.2.2.1, h.2.2.2.2.2.2.2.2.2.2.2.2.2.2.2.2.2.2.2.1, h.2.2.2.2.2.2.2.2.2.2.2.2.2.2.2.2.2.2.2.2.1, h.2.2.2.2.2.2.2.2.2.2.2.2.2.2.2.2.2.2.2.2.2.1, h.2.2.2.2.2.2.2.2.2.2.2.2.2.2.2.2.2.2.2.2.2.2.1, h.2.2.2.2.2.2.2.2.2.2.2.2.2.2.2.2.2.2.2.2.2.2.2.1, h.2.2.2.2.2.2.2.2.2.2.2.2.2.2.2.2.2.2.2.2.2.2.2.2.1, h.2.2.2.2.2.2.2.2.2.2.2.2.2.2.2.2.2.2.2.2.2.2.2.2.2.1, h.2.2.2.2.2.2.2.2.2.2.2.2.2.2.2.2.2.2.2.2.2.2.2.2.2.2.1, h.2.2.2.2.2.2.2.2.2.2.2.2.2.2.2.2.2.2.2.2.2.2.2.2.2.2.2⟩

theorem OnlyParts.st {m : Nat} {s0 : State} {x' : SelfTest} {order modes pow clk flt leases a b fd regs pers br rings crc tmr otp bkp keys st upd tst pat stdin remote freeCtr time pending} (h : OnlyParts m s0 order modes pow clk flt leases a b fd regs pers br rings crc tmr otp bkp keys x' upd tst pat stdin remote freeCtr time pending) (c : m.testBit 18 = true) :
    OnlyParts m s0 order modes pow clk flt leases a b fd regs pers br rings crc tmr otp bkp keys st upd tst pat stdin remote freeCtr time pending :=
  ⟨h.1, h.2.1, h.2.2.1, h.2.2.2.1, h.2.2.2.2.1, h.2.2.2.2.2.1, h.2.2.2.2.2.2.1, h.2.2.2.2.2.2.2.1, h.2.2.2.2.2.2.2.2.1, h.2.2.2.2.2.2.2.2.2.1, h.2.2.2.2.2.2.2.2.2.2.1, h.2.2.2.2.2.2.2.2.2.2.2.1, h.2.2.2.2.2.2.2.2.2.2.2.2.1, h.2.2.2.2.2.2.2.2.2.2.2.2.2.1, h.2.2.2.2.2.2.2.2.2.2.2.2.2.2.1, h.2.2.2.2.2.2.2.2.2.2.2.2.2.2.2.1, h.2.2.2.2.2.2.2.2.2.2.2.2.2.2.2.2.1, h.2.2.2.2.2.2.2.2.2.2.2.2.2.2.2.2.2.1, fun n => absurd (c.symm.trans n) (by decide), h.2.2.2.2.2.2.2.2.2.2.2.2.2.2.2.2.2.2.2.1, h.2.2.2.2.2.2.2.2.2.2.2.2.2.2.2.2.2.2.2.2.1, h.2.2.2.2.2.2.2.2.2.2.2.2.2.2.2.2.2.2.2.2.2.1, h.2.2.2.2.2.2.2.2.2.2.2.2.2.2.2.2.2.2.2.2.2.2.1, h.2.2.2.2.2.2.2.2.2.2.2.2.2.2.2.2.2.2.2.2.2.2.2.1, h.2.2.2.2.2.2.2.2.2.2.2.2.2.2.2.2.2.2.2.2.2.2.2.2.1, h.2.2.2.2.2.2.2.2.2.2.2.2.2.2.2.2.2.2.2.2.2.2.2.2.2.1, h.2.2.2.2.2.2.2.2.2.2.2.2.2.2.2.2.2.2.2.2.2.2.2.2.2.2.1, h.2.2.2.2.2.2.2.2.2.2.2.2.2.2.2.2.2.2.2.2.2.2.2.2.2.2.2⟩

theorem OnlyParts.upd {m : Nat} {s0 : State} {x' : Update} {order modes pow clk flt leases a b fd regs pers br rings crc tmr otp bkp keys st upd tst pat stdin remote freeCtr time pending} (h : OnlyParts m s0 order modes pow clk flt leases a b fd regs pers br rings crc tmr otp bkp keys st x' tst pat stdin remote freeCtr time pending) (c : m.testBit 19 = true) :
    OnlyParts m s0 order modes pow clk flt leases a b fd regs pers br rings crc tmr otp bkp keys st upd tst pat stdin remote freeCtr time pending :=
  ⟨h.1, h.2.1, h.2.2.1, h.2.2.2.1, h.2.2.2.2.1, h.2.2.2.2.2.1, h.2.2.2.2.2.2.1, h.2.2.2.2.2.2.2.1, h.2.2.2.2.2.2.2.2.1, h.2.2.2.2.2.2.2.2.2.1, h.2.2.2.2.2.2.2.2.2.2.1, h.2.2.2.2.2.2.2.2.2.2.2.1, h.2.2.2.2.2.2.2.2.2.2.2.2.1, h.2.2.2.2.2.2.2.2.2.2.2.2.2.1, h.2.2.2.2.2.2.2.2.2.2.2.2.2.2.1, h.2.2.2.2.2.2.2.2.2.2.2.2.2.2.2.1, h.2.2.2.2.2.2.2.2.2.2.2.2.2.2.2.2.1, h.2.2.2.2.2.2.2.2.2.2.2.2.2.2.2.2.2.1, h.2.2.2.2.2.2.2.2.2.2.2.2.2.2.2.2.2.2.1, fun n => absurd (c.symm.trans n) (by decide), h.2.2.2.2.2.2.2.2.2.2.2.2.2.2.2.2.2.2.2.2.1, h.2.2.2.2.2.2.2.2.2.2.2.2.2.2.2.2.2.2.2.2.2.1, h.2.2.2.2.2.2.2.2.2.2.2.2.2.2.2.2.2.2.2.2.2.2.1, h.2.2.2.2.2.2.2.2.2.2.2.2.2.2.2.2.2.2.2.2.2.2.2.1, h.2.2.2.2.2.2.2.2.2.2.2.2.2.2.2.2.2.2.2.2.2.2.2.2.1, h.2.2.2.2.2.2.2.2.2.2.2.2.2.2.2.2.2.2.2.2.2.2.2.2.2.1, h.2.2.2.2.2.2.2.2.2.2.2.2.2.2.2.2.2.2.2.2.2.2.2.2.2.2.1, h.2.2.2.2.2.2.2.2.2.2.2.2.2.2.2.2.2.2.2.2.2.2.2.2.2.2.2⟩

theorem OnlyParts.tst {m : Nat} {s0 : State} {x' : Test} {order modes pow clk flt leases a b fd regs pers br rings crc tmr otp bkp keys st upd tst pat stdin remote freeCtr time pending} (h : OnlyParts m s0 order modes pow clk flt leases a b fd regs pers br rings crc tmr otp bkp keys st upd x' pat stdin remote freeCtr time pending) (c : m.testBit 20 = true) :
    OnlyParts m s0 order modes pow clk flt leases a b fd regs pers br rings crc tmr otp bkp keys st upd tst pat stdin remote freeCtr time pending :=
  ⟨h.1, h.2.1, h.2.2.1, h.2.2.2.1, h.2.2.2.2.1, h.2.2.2.2.2.1, h.2.2.2.2.2.2.1, h.2.2.2.2.2.2.2.1, h.2.2.2.2.2.2.2.2.1, h.2.2.2.2.2.2.2.2.2.1, h.2.2.2.2.2.2.2.2.2.2.1, h.2.2.2.2.2.2.2.2.2.2.2.1, h.2.2.2.2.2.2.2.2.2.2.2.2.1, h.2.2.2.2.2.2.2.2.2.2.2.2.2.1, h.2.2.2.2.2.2.2.2.2.2.2.2.2.2.1, h.2.2.2.2.2.2.2.2.2.2.2.2.2.2.2.1, h.2.2.2.2.2.2.2.2.2.2.2.2.2.2.2.2.1, h.2.2.2.2.2.2.2.2.2.2.2.2.2.2.2.2.2.1, h.2.2.2.2.2.2.2.2.2.2.2.2.2.2.2.2.2.2.1, h.2.2.2.2.2.2.2.2.2.2.2.2.2.2.2.2.2.2.2.1, fun n => absurd (c.symm.trans n) (by decide), h.2.2.2.2.2.2.2.2.2.2.2.2.2.2.2.2.2.2.2.2.2.1, h.2.2.2.2.2.2.2.2.2.2.2.2.2.2.2.2.2.2.2.2.2.2.1, h.2.2.2.2.2.2.2.2.2.2.2.2.2.2.2.2.2.2.2.2.2.2.2.1, h.2.2.2.2.2.2.2.2.2.2.2.2.2.2.2.2.2.2.2.2.2.2.2.2.1, h.2.2.2.2.2.2.2.2.2.2.2.2.2.2.2.2.2.2.2.2.2.2.2.2.2.1, h.2.2.2.2.2.2.2.2.2.2.2.2.2.2.2.2.2.2.2.2.2.2.2.2.2.2.1, h.2.2.2.2.2.2.2.2.2.2.2.2.2.2.2.2.2.2.2.2.2.2.2.2.2.2.2⟩

theorem OnlyParts.pat {m : Nat} {s0 : State} {x' : PatStore} {order modes pow clk flt leases a b fd regs pers br rings crc tmr otp bkp keys st upd tst pat stdin remote freeCtr time pending} (h : OnlyParts m s0 order modes pow clk flt leases a b fd regs pers br rings crc tmr otp bkp keys st upd tst x' stdin remote freeCtr time pending) (c : m.testBit 21 = true) :
    OnlyParts m s0 order modes pow clk flt leases a b fd regs pers br rings crc tmr otp bkp keys st upd tst pat stdin remote freeCtr time pending :=
  ⟨h.1, h.2.1, h.2.2.1, h.2.2.2.1, h.2.2.2.2.1, h.2.2.2.2.2.1, h.2.2.2.2.2.2.1, h.2.2.2.2.2.2.2.1, h.2.2.2.2.2.2.2.2.1, h.2.2.2.2.2.2.2.2.2.1, h.2.2.2.2.2.2.2.2.2.2.1, h.2.2.2.2.2.2.2.2.2.2.2.1, h.2.2.2.2.2.2.2.2.2.2.2.2.1, h.2.2.2.2.2.2.2.2.2.2.2.2.2.1, h.2.2.2.2.2.2.2.2.2.2.2.2.2.2.1, h.2.2.2.2.2.2.2.2.2.2.2.2.2.2.2.1, h.2.2.2.2.2.2.2.2.2.2.2.2.2.2.2.2.1, h.2.2.2.2.2.2.2.2.2.2.2.2.2.2.2.2.2.1, h.2.2.2.2.2.2.2.2.2.2.2.2.2.2.2.2.2.2.1, h.2.2.2.2.2.2.2.2.2.2.2.2.2.2.2.2.2.2.2.1, h.2.2.2.2.2.2.2.2.2.2.2.2.2.2.2.2.2.2.2.2.1, fun n => absurd (c.symm.trans n) (by decide), h.2.2.2.2.2.2.2.2.2.2.2.2.2.2.2.2.2.2.2.2.2.2.1, h.2.2.2.2.2.2.2.2.2.2.2.2.2.2.2.2.2.2.2.2.2.2.2.1, h.2.2.2.2.2.2.2.2.2.2.2.2.2.2.2.2.2.2.2.2.2.2.2.2.1, h.2.2.2.2.2.2.2.2.2.2.2.2.2.2.2.2.2.2.2.2.2.2.2.2.2.1, h.2.2.2.2.2.2.2.2.2.2.2.2.2.2.2.2.2.2.2.2.2.2.2.2.2.2.1, h.2.2.2.2.2.2.2.2.2.2.2.2.2.2.2.2.2.2.2.2.2.2.2.2.2.2.2⟩

theorem OnlyParts.stdin {m : Nat} {s0 : State} {x' : Tab (List (Int × Nat))} {order modes pow clk flt leases a b fd regs pers br rings crc tmr otp bkp keys st upd tst pat stdin remote freeCtr time pending} (h : OnlyParts m s0 order modes pow clk flt leases a b fd regs pers br rings crc tmr otp bkp keys st upd tst pat x' remote freeCtr time pending) (c : m.testBit 22 = true) :
    OnlyParts m s0 order modes pow clk flt leases a b fd regs pers br rings crc tmr otp bkp keys st upd tst pat stdin remote freeCtr time pending :=
  ⟨h.1, h.2.1, h.2.2.1, h.2.2.2.1, h.2.2.2.2.1, h.2.2.2.2.2.1, h.2.2.2.2.2.2.1, h.2.2.2.2.2.2.2.1, h.2.2.2.2.2.2.2.2.1, h.2.2.2.2.2.2.2.2.2.1, h.2.2.2.2.2.2.2.2.2.2.1, h.2.2.2.2.2.2.2.2.2.2.2.1, h.2.2.2.2.2.2.2.2.2.2.2.2.1, h.2.2.2.2.2.2.2.2.2.2.2.2.2.1, h.2.2.2.2.2.2.2.2.2.2.2.2.2.2.1, h.2.2.2.2.2.2.2.2.2.2.2.2.2.2.2.1, h.2.2.2.2.2.2.2.2.2.2.2.2.2.2.2.2.1, h.2.2.2.2.2.2.2.2.2.2.2.2.2.2.2.2.2.1, h.2.2.2.2.2.2.2.2.2.2.2.2.2.2.2.2.2.2.1, h.2.2.2.2.2.2.2.2.2.2.2.2.2.2.2.2.2.2.2.1, h.2.2.2.2.2.2.2.2.2.2.2.2.2.2.2.2.2.2.2.2.1, h.2.2.2.2.2.2.2.2.2.2.2.2.2.2.2.2.2.2.2.2.2.1, fun n => absurd (c.symm.trans n) (by decide), h.2.2.2.2.2.2.2.2.2.2.2.2.2.2.2.2.2.2.2.2.2.2.2.1, h.2.2.2.2.2.2.2.2.2.2.2.2.2.2.2.2.2.2.2.2.2.2.2.2.1, h.2.2.2.2.2.2.2.2.2.2.2.2.2.2.2.2.2.2.2.2.2.2.2.2.2.1, h.2.2.2.2.2.2.2.2.2.2.2.2.2.2.2.2.2.2.2.2.2.2.2.2.2.2.1, h.2.2.2.2.2.2.2.2.2.2.2.2.2.2.2.2.2.2.2.2.2.2.2.2.2.2.2⟩

theorem OnlyParts.remote {m : Nat} {s0 : State} {x' : Tab (List (Nat × Nat))} {order modes pow clk flt leases a b fd regs pers br rings crc tmr otp bkp keys st upd tst pat stdin remote freeCtr time pending} (h : OnlyParts m s0 order modes pow clk flt leases a b fd regs pers br rings crc tmr otp bkp keys st upd tst pat stdin x' freeCtr time pending) (c : m.testBit 23 = true) :
    OnlyParts m s0 order modes pow clk flt leases a b fd regs pers br rings crc tmr otp bkp keys st upd tst pat stdin remote freeCtr time pending :=
  ⟨h.1, h.2.1, h.2.2.1, h.2.2.2.1, h.2.2.2.2.1, h.2.2.2.2.2.1, h.2.2.2.2.2.2.1, h.2.2.2.2.2.2.2.1, h.2.2.2.2.2.2.2.2.1, h.2.2.2.2.2.2.2.2.2.1, h.2.2.2.2.2.2.2.2.2.2.1, h.2.2.2.2.2.2.2.2.2.2.2.1, h.2.2.2.2.2.2.2.2.2.2.2.2.1, h.2.2.2.2.2.2.2.2.2.2.2.2.2.1, h.2.2.2.2.2.2.2.2.2.2.2.2.2.2.1, h.2.2.2.2.2.2.2.2.2.2.2.2.2.2.2.1, h.2.2.2.2.2.2.2.2.2.2.2.2.2.2.2.2.1, h.2.2.2.2.2.2.2.2.2.2.2.2.2.2.2.2.2.1, h.2.2.2.2.2.2.2.2.2.2.2.2.2.2.2.2.2.2.1, h.2.2.2.2.2.2.2.2.2.2.2.2.2.2.2.2.2.2.2.1, h.2.2.2.2.2.2.2.2.2.2.2.2.2.2.2.2.2.2.2.2.1, h.2.2.2.2.2.2.2.2.2.2.2.2.2.2.2.2.2.2.2.2.2.1, h.2.2.2.2.2.2.2.2.2.2.2.2.2.2.2.2.2.2.2.2.2.2.1, fun n => absurd (c.symm.trans n) (by decide), h.2.2.2.2.2.2.2.2.2.2.2.2.2.2.2.2.2.2.2.2.2.2.2.2.1, h.2.2.2.2.2.2.2.2.2.2.2.2.2.2.2.2.2.2.2.2.2.2.2.2.2.1, h.2.2.2.2.2.2.2.2.2.2.2.2.2.2.2.2.2.2.2.2.2.2.2.2.2.2.1, h.2.2.2.2.2.2.2.2.2.2.2.2.2.2.2.2.2.2.2.2.2.2.2.2.2.2.2⟩

theorem OnlyParts.freeCtr {m : Nat} {s0 : State} {x' : Nat} {order modes pow clk flt leases a b fd regs pers br rings crc tmr otp bkp keys st upd tst pat stdin remote freeCtr time pending} (h : OnlyParts m s0 order modes pow clk flt leases a b fd regs pers br rings crc tmr otp bkp keys st upd tst pat stdin remote x' time pending) (c : m.testBit 24 = true) :
    OnlyParts m s0 order modes pow clk flt leases a b fd regs pers br rings crc tmr otp bkp keys st upd tst pat stdin remote freeCtr time pending :=
  ⟨h.1, h.2.1, h.2.2.1, h.2.2.2.1, h.2.2.2.2.1, h.2.2.2.2.2.1, h.2.2.2.2.2.2.1, h.2.2.2.2.2.2.2.1, h.2.2.2.2.2.2.2.2.1, h.2.2.2.2.2.2.2.2.2.1, h.2.2.2.2.2.2.2.2.2.2.1, h.2.2.2.2.2.2.2.2.2.2.2.1, h.2.2.2.2.2.2.2.2.2.2.2.2.1, h.2.2.2.2.2.2.2.2.2.2.2.2.2.1, h.2.2.2.2.2.2.2.2.2.2.2.2.2.2.1, h.2.2.2.2.2.2.2.2.2.2.2.2.2.2.2.1, h.2.2.2.2.2.2.2.2.2.2.2.2.2.2.2.2.1, h.2.2.2.2.2.2.2.2.2.2.2.2.2.2.2.2.2.1, h.2.2.2.2.2.2.2.2.2.2.2.2.2.2.2.2.2.2.1, h.2.2.2.2.2.2.2.2.2.2.2.2.2.2.2.2.2.2.2.1, h.2.2.2.2.2.2.2.2.2.2.2.2.2.2.2.2.2.2.2.2.1, h.2.2.2.2.2.2.2.2.2.2.2.2.2.2.2.2.2.2.2.2.2.1, h.2.2.2.2.2.2.2.2.2.2.2.2.2.2.2.2.2.2.2.2.2.2.1, h.2.2.2.2.2.2.2.2.2.2.2.2.2.2.2.2.2.2.2.2.2.2.2.1, fun n => absurd (c.symm.trans n) (by decide), h.2.2.2.2.2.2.2.2.2.2.2.2.2.2.2.2.2.2.2.2.2.2.2.2.2.1, h.2.2.2.2.2.2.2.2.2.2.2.2.2.2.2.2.2.2.2.2.2.2.2.2.2.2.1, h.2.2.2.2.2.2.2.2.2.2.2.2.2.2.2.2.2.2.2.2.2.2.2.2.2.2.2⟩

theorem OnlyParts.time {m : Nat} {s0 : State} {x' : Nat} {order modes pow clk flt leases a b fd regs pers br rings crc tmr otp bkp keys st upd tst pat stdin remote freeCtr time pending} (h : OnlyParts m s0 order modes pow clk flt leases a b fd regs pers br rings crc tmr otp bkp keys st upd tst pat stdin remote freeCtr x' pending) (c : m.testBit 25 = true) :
    OnlyParts m s0 order modes pow clk flt leases a b fd regs pers br rings crc tmr otp bkp keys st upd tst pat stdin remote freeCtr time pending :=
  ⟨h.1, h.2.1, h.2.2.1, h.2.2.2.1, h.2.2.2.2.1, h.2.2.2.2.2.1, h.2.2.2.2.2.2.1, h.2.2.2.2.2.2.2.1, h.2.2.2.2.2.2.2.2.1, h.2.2.2.2.2.2.2.2.2.1, h.2.2.2.2.2.2.2.2.2.2.1, h.2.2.2.2.2.2.2.2.2.2.2.1, h.2.2.2.2.2.2.2.2.2.2.2.2.1, h.2.2.2.2.2.2.2.2.2.2.2.2.2.1, h.2.2.2.2.2.2.2.2.2.2.2.2.2.2.1, h.2.2.2.2.2.2.2.2.2.2.2.2.2.2.2.1, h.2.2.2.2.2.2.2.2.2.2.2.2.2.2.2.2.1, h.2.2.2.2.2.2.2.2.2.2.2.2.2.2.2.2.2.1, h.2.2.2.2.2.2.2.2.2.2.2.2.2.2.2.2.2.2.1, h.2.2.2.2.2.2.2.2.2.2.2.2.2.2.2.2.2.2.2.1, h.2.2.2.2.2.2.2.2.2.2.2.2.2.2.2.2.2.2.2.2.1, h.2.2.2.2.2.2.2.2.2.2.2.2.2.2.2.2.2.2.2.2.2.1, h.2.2.2.2.2.2.2.2.2.2.2.2.2.2.2.2.2.2.2.2.2.2.1, h.2.2.2.2.2.2.2.2.2.2.2.2.2.2.2.2.2.2.2.2.2.2.2.1, h.2.2.2.2.2.2.2.2.2.2.2.2.2.2.2.2.2.2.2.2.2.2.2.2.1, fun n => absurd (c.symm.trans n) (by decide), h.2.2.2.2.2.2.2.2.2.2.2.2.2.2.2.2.2.2.2.2.2.2.2.2.2.2.1, h.2.2.2.2.2.2.2.2.2.2.2.2.2.2.2.2.2.2.2.2.2.2.2.2.2.2.2⟩

theorem OnlyParts.pending {m : Nat} {s0 : State} {x' : List Instr} {order modes pow clk flt leases a b fd regs pers br rings crc tmr otp bkp keys st upd tst pat stdin remote freeCtr time pending} (h : OnlyParts m s0 order modes pow clk flt leases a b fd regs pers br rings crc tmr otp bkp keys st upd tst pat stdin remote freeCtr time x') (c : m.testBit 26 = true) :
    OnlyParts m s0 order modes pow clk flt leases a b fd regs pers br rings crc tmr otp bkp keys st upd tst pat stdin remote freeCtr time pending :=
  ⟨h.1, h.2.1, h.2.2.1, h.2.2.2.1, h.2.2.2.2.1, h.2.2.2.2.2.1, h.2.2.2.2.2.2.1, h.2.2.2.2.2.2.2.1, h.2.2.2.2.2.2.2.2.1, h.2.2.2.2.2.2.2.2.2.1, h.2.2.2.2.2.2.2.2.2.2.1, h.2.2.2.2.2.2.2.2.2.2.2.1, h.2.2.2.2.2.2.2.2.2.2.2.2.1, h.2.2.2.2.2.2.2.2.2.2.2.2.2.1, h.2.2.2.2.2.2.2.2.2.2.2.2.2.2.1, h.2.2.2.2.2.2.2.2.2.2.2.2.2.2.2.1, h.2.2.2.2.2.2.2.2.2.2.2.2.2.2.2.2.1, h.2.2.2.2.2.2.2.2.2.2.2.2.2.2.2.2.2.1, h.2.2.2.2.2.2.2.2.2.2.2.2.2.2.2.2.2.2.1, h.2.2.2.2.2.2.2.2.2.2.2.2.2.2.2.2.2.2.2.1, h.2.2.2.2.2.2.2.2.2.2.2.2.2.2.2.2.2.2.2.2.1, h.2.2.2.2.2.2.2.2.2.2.2.2.2.2.2.2.2.2.2.2.2.1, h.2.2.2.2.2.2.2.2.2.2.2.2.2.2.2.2.2.2.2.2.2.2.1, h.2.2.2.2.2.2.2.2.2.2.2.2.2.2.2.2.2.2.2.2.2.2.2.1, h.2.2.2.2.2.2.2.2.2.2.2.2.2.2.2.2.2.2.2.2.2.2.2.2.1, h.2.2.2.2.2.2.2.2.2.2.2.2.2.2.2.2.2.2.2.2.2.2.2.2.2.1, fun n => absurd (c.symm.trans n) (by decide), h.2.2.2.2.2.2.2.2.2.2.2.2.2.2.2.2.2.2.2.2.2.2.2.2.2.2.2⟩

/-- Modes change, the mode stays. -/
theorem OnlyParts.modesKeep {m : Nat} {s0 : State} {x' : Modes} {order modes pow clk flt leases a b fd regs pers br rings crc tmr otp bkp keys st upd tst pat stdin remote freeCtr time pending} (h : OnlyParts m s0 order x' pow clk flt leases a b fd regs pers br rings crc tmr otp bkp keys st upd tst pat stdin remote freeCtr time pending) (c : m.testBit 1 = true)
    (e : modes.mode = x'.mode) : OnlyParts m s0 order modes pow clk flt leases a b fd regs pers br rings crc tmr otp bkp keys st upd tst pat stdin remote freeCtr time pending :=
  ⟨h.1, fun n => absurd (c.symm.trans n) (by decide), h.2.2.1, h.2.2.2.1, h.2.2.2.2.1, h.2.2.2.2.2.1, h.2.2.2.2.2.2.1, h.2.2.2.2.2.2.2.1, h.2.2.2.2.2.2.2.2.1, h.2.2.2.2.2.2.2.2.2.1, h.2.2.2.2.2.2.2.2.2.2.1, h.2.2.2.2.2.2.2.2.2.2.2.1, h.2.2.2.2.2.2.2.2.2.2.2.2.1, h.2.2.2.2.2.2.2.2.2.2.2.2.2.1, h.2.2.2.2.2.2.2.2.2.2.2.2.2.2.1, h.2.2.2.2.2.2.2.2.2.2.2.2.2.2.2.1, h.2.2.2.2.2.2.2.2.2.2.2.2.2.2.2.2.1, h.2.2.2.2.2.2.2.2.2.2.2.2.2.2.2.2.2.1, h.2.2.2.2.2.2.2.2.2.2.2.2.2.2.2.2.2.2.1, h.2.2.2.2.2.2.2.2.2.2.2.2.2.2.2.2.2.2.2.1, h.2.2.2.2.2.2.2.2.2.2.2.2.2.2.2.2.2.2.2.2.1, h.2.2.2.2.2.2.2.2.2.2.2.2.2.2.2.2.2.2.2.2.2.1, h.2.2.2.2.2.2.2.2.2.2.2.2.2.2.2.2.2.2.2.2.2.2.1, h.2.2.2.2.2.2.2.2.2.2.2.2.2.2.2.2.2.2.2.2.2.2.2.1, h.2.2.2.2.2.2.2.2.2.2.2.2.2.2.2.2.2.2.2.2.2.2.2.2.1, h.2.2.2.2.2.2.2.2.2.2.2.2.2.2.2.2.2.2.2.2.2.2.2.2.2.1, h.2.2.2.2.2.2.2.2.2.2.2.2.2.2.2.2.2.2.2.2.2.2.2.2.2.2.1, fun n => e.trans (h.2.2.2.2.2.2.2.2.2.2.2.2.2.2.2.2.2.2.2.2.2.2.2.2.2.2.2 n)⟩

/-- A state whose modes change while the mode stays. -/
theorem Only.modesKeep {m : Nat} {s0 s : State} (h : Only m s0 s) (x : Modes) (c : m.testBit 1 = true) (e : x.mode = s.modes.mode) :
    Only m s0 { s with modes := x } := OnlyParts.modesKeep h c e

theorem Only.ite {m : Nat} {s0 t u : State} {c : Prop} [Decidable c] (h : Only m s0 t) (k : Only m s0 u) :
    Only m s0 (if c then t else u) := by
  split
  · exact h
  · exact k

theorem Only.foldl {α : Type} {m : Nat} {s0 s : State} {f : State → α → State} {xs : List α} (h : Only m s0 s)
    (k : ∀ t x, Only m s0 t → Only m s0 (f t x)) : Only m s0 (xs.foldl f s) := by
  induction xs generalizing s with
  | nil => exact h
  | cons x xs ih => exact ih (k s x h)

/-- A fold that carries a value beside the state. -/
theorem Only.foldlSnd {α β : Type} {m : Nat} {s0 : State} {x : β × State} {f : β × State → α → β × State} {xs : List α}
    (h : Only m s0 x.2) (k : ∀ x y, Only m s0 x.2 → Only m s0 (f x y).2) : Only m s0 (xs.foldl f x).2 := by
  induction xs generalizing x with
  | nil => exact h
  | cons y xs ih => exact ih (k x y h)

theorem Only.order {m : Nat} {s t : State} (h : Only m s t) (n : m.testBit 0 = false) : t.order = s.order := h.1 n
theorem Only.modes {m : Nat} {s t : State} (h : Only m s t) (n : m.testBit 1 = false) : t.modes = s.modes := h.2.1 n
theorem Only.pow {m : Nat} {s t : State} (h : Only m s t) (n : m.testBit 2 = false) : t.pow = s.pow := h.2.2.1 n
theorem Only.clk {m : Nat} {s t : State} (h : Only m s t) (n : m.testBit 3 = false) : t.clk = s.clk := h.2.2.2.1 n
theorem Only.flt {m : Nat} {s t : State} (h : Only m s t) (n : m.testBit 4 = false) : t.flt = s.flt := h.2.2.2.2.1 n
theorem Only.leases {m : Nat} {s t : State} (h : Only m s t) (n : m.testBit 5 = false) : t.leases = s.leases := h.2.2.2.2.2.1 n
theorem Only.a {m : Nat} {s t : State} (h : Only m s t) (n : m.testBit 6 = false) : t.a = s.a := h.2.2.2.2.2.2.1 n
theorem Only.b {m : Nat} {s t : State} (h : Only m s t) (n : m.testBit 7 = false) : t.b = s.b := h.2.2.2.2.2.2.2.1 n
theorem Only.fd {m : Nat} {s t : State} (h : Only m s t) (n : m.testBit 8 = false) : t.fd = s.fd := h.2.2.2.2.2.2.2.2.1 n
theorem Only.regs {m : Nat} {s t : State} (h : Only m s t) (n : m.testBit 9 = false) : t.regs = s.regs := h.2.2.2.2.2.2.2.2.2.1 n
theorem Only.pers {m : Nat} {s t : State} (h : Only m s t) (n : m.testBit 10 = false) : t.pers = s.pers := h.2.2.2.2.2.2.2.2.2.2.1 n
theorem Only.br {m : Nat} {s t : State} (h : Only m s t) (n : m.testBit 11 = false) : t.br = s.br := h.2.2.2.2.2.2.2.2.2.2.2.1 n
theorem Only.rings {m : Nat} {s t : State} (h : Only m s t) (n : m.testBit 12 = false) : t.rings = s.rings := h.2.2.2.2.2.2.2.2.2.2.2.2.1 n
theorem Only.crc {m : Nat} {s t : State} (h : Only m s t) (n : m.testBit 13 = false) : t.crc = s.crc := h.2.2.2.2.2.2.2.2.2.2.2.2.2.1 n
theorem Only.tmr {m : Nat} {s t : State} (h : Only m s t) (n : m.testBit 14 = false) : t.tmr = s.tmr := h.2.2.2.2.2.2.2.2.2.2.2.2.2.2.1 n
theorem Only.otp {m : Nat} {s t : State} (h : Only m s t) (n : m.testBit 15 = false) : t.otp = s.otp := h.2.2.2.2.2.2.2.2.2.2.2.2.2.2.2.1 n
theorem Only.bkp {m : Nat} {s t : State} (h : Only m s t) (n : m.testBit 16 = false) : t.bkp = s.bkp := h.2.2.2.2.2.2.2.2.2.2.2.2.2.2.2.2.1 n
theorem Only.keys {m : Nat} {s t : State} (h : Only m s t) (n : m.testBit 17 = false) : t.keys = s.keys := h.2.2.2.2.2.2.2.2.2.2.2.2.2.2.2.2.2.1 n
theorem Only.st {m : Nat} {s t : State} (h : Only m s t) (n : m.testBit 18 = false) : t.st = s.st := h.2.2.2.2.2.2.2.2.2.2.2.2.2.2.2.2.2.2.1 n
theorem Only.upd {m : Nat} {s t : State} (h : Only m s t) (n : m.testBit 19 = false) : t.upd = s.upd := h.2.2.2.2.2.2.2.2.2.2.2.2.2.2.2.2.2.2.2.1 n
theorem Only.tst {m : Nat} {s t : State} (h : Only m s t) (n : m.testBit 20 = false) : t.tst = s.tst := h.2.2.2.2.2.2.2.2.2.2.2.2.2.2.2.2.2.2.2.2.1 n
theorem Only.pat {m : Nat} {s t : State} (h : Only m s t) (n : m.testBit 21 = false) : t.pat = s.pat := h.2.2.2.2.2.2.2.2.2.2.2.2.2.2.2.2.2.2.2.2.2.1 n
theorem Only.stdin {m : Nat} {s t : State} (h : Only m s t) (n : m.testBit 22 = false) : t.stdin = s.stdin := h.2.2.2.2.2.2.2.2.2.2.2.2.2.2.2.2.2.2.2.2.2.2.1 n
theorem Only.remote {m : Nat} {s t : State} (h : Only m s t) (n : m.testBit 23 = false) : t.remote = s.remote := h.2.2.2.2.2.2.2.2.2.2.2.2.2.2.2.2.2.2.2.2.2.2.2.1 n
theorem Only.freeCtr {m : Nat} {s t : State} (h : Only m s t) (n : m.testBit 24 = false) : t.freeCtr = s.freeCtr := h.2.2.2.2.2.2.2.2.2.2.2.2.2.2.2.2.2.2.2.2.2.2.2.2.1 n
theorem Only.time {m : Nat} {s t : State} (h : Only m s t) (n : m.testBit 25 = false) : t.time = s.time := h.2.2.2.2.2.2.2.2.2.2.2.2.2.2.2.2.2.2.2.2.2.2.2.2.2.1 n
theorem Only.pending {m : Nat} {s t : State} (h : Only m s t) (n : m.testBit 26 = false) : t.pending = s.pending := h.2.2.2.2.2.2.2.2.2.2.2.2.2.2.2.2.2.2.2.2.2.2.2.2.2.2.1 n
/-- Two states with equal fields are equal. -/
theorem State.eq_of {s t : State} (h_order : t.order = s.order) (h_modes : t.modes = s.modes) (h_pow : t.pow = s.pow) (h_clk : t.clk = s.clk) (h_flt : t.flt = s.flt) (h_leases : t.leases = s.leases) (h_a : t.a = s.a) (h_b : t.b = s.b) (h_fd : t.fd = s.fd) (h_regs : t.regs = s.regs) (h_pers : t.pers = s.pers) (h_br : t.br = s.br) (h_rings : t.rings = s.rings) (h_crc : t.crc = s.crc) (h_tmr : t.tmr = s.tmr) (h_otp : t.otp = s.otp) (h_bkp : t.bkp = s.bkp) (h_keys : t.keys = s.keys) (h_st : t.st = s.st) (h_upd : t.upd = s.upd) (h_tst : t.tst = s.tst) (h_pat : t.pat = s.pat) (h_stdin : t.stdin = s.stdin) (h_remote : t.remote = s.remote) (h_freeCtr : t.freeCtr = s.freeCtr) (h_time : t.time = s.time) (h_pending : t.pending = s.pending) : t = s := by
  cases s
  cases t
  simp_all

theorem Only.mode {m : Nat} {s t : State} (h : Only m s t) (n : m.testBit 27 = false) : t.modes.mode = s.modes.mode := h.2.2.2.2.2.2.2.2.2.2.2.2.2.2.2.2.2.2.2.2.2.2.2.2.2.2.2 n

end Sys2Proof.Machine
end

