-- ==== Sys2Proof/Laws/OnlyOps.lean ====
section
/-! SUPPORT. Which fields the operations of Machine/Ops.lean can touch. -/

set_option linter.unusedTactic false
set_option linter.unreachableTactic false
set_option linter.unusedVariables false

namespace Sys2Proof.Machine

/-- It can touch a, b. -/
theorem State.setDie_only {M : Nat} {s0 : State} (s : State) (d : Die) (l : LDie) (h_s : Only M s0 s) (le : 0xc0 ||| M = M) : Only M s0 (State.setDie s d l) := by
  unfold State.setDie
  repeat' first
    | with_reducible assumption
    | (dsimp only [Only.mk_eq]; with_reducible apply OnlyParts.a (c := testBit_ge le rfl); with_reducible apply OnlyParts.b (c := testBit_ge le rfl); with_reducible apply Only.parts)
    | split
    | dsimp only
    | assumption

/-- It can touch a, b. -/
theorem State.updDie_only {M : Nat} {s0 : State} (s : State) (d : Die) (f : LDie → LDie) (h_s : Only M s0 s) (le : 0xc0 ||| M = M) : Only M s0 (State.updDie s d f) := by
  unfold State.updDie
  repeat' first
    | with_reducible assumption
    | intro _
    | with_reducible apply State.setDie_only (le := or_le rfl le)
    | dsimp only
    | assumption

/-- It can touch regs. -/
theorem State.setReg_only {M : Nat} {s0 : State} (s : State) (idx sub v : Nat) (h_s : Only M s0 s) (le : 0x200 ||| M = M) : Only M s0 (State.setReg s idx sub v) := by
  unfold State.setReg
  repeat' first
    | with_reducible assumption
    | (dsimp only [Only.mk_eq]; with_reducible apply OnlyParts.regs (c := testBit_ge le rfl); with_reducible apply Only.parts)
    | dsimp only
    | assumption

/-- It can touch regs. -/
theorem State.bump_only {M : Nat} {s0 : State} (s : State) (w idx sub : Nat) (h_s : Only M s0 s) (le : 0x200 ||| M = M) : Only M s0 (State.bump s w idx sub) := by
  unfold State.bump
  repeat' first
    | with_reducible assumption
    | with_reducible apply State.setReg_only (le := or_le rfl le)
    | dsimp only
    | assumption

/-- It can touch regs. -/
theorem State.bumpOnce_only {M : Nat} {s0 : State} (s : State) (d : Die) (w idx sub : Nat) (h_s : Only M s0 s) (le : 0x200 ||| M = M) : Only M s0 (State.bumpOnce s d w idx sub) := by
  unfold State.bumpOnce
  repeat' first
    | with_reducible assumption
    | with_reducible apply Only.ite
    | with_reducible apply State.bump_only (le := or_le rfl le)
    | split
    | dsimp only
    | assumption

/-- It can touch freeCtr. -/
theorem State.free_only {M : Nat} {s0 : State} (s : State) (h_s : Only M s0 s) (le : 0x1000000 ||| M = M) : Only M s0 (State.free s).2 := by
  unfold State.free
  repeat' first
    | with_reducible assumption
    | (dsimp only [Only.mk_eq]; with_reducible apply OnlyParts.freeCtr (c := testBit_ge le rfl); with_reducible apply Only.parts)
    | dsimp only
    | assumption

/-- It can touch a, b, regs. -/
theorem State.jrnStop_only {M : Nat} {s0 : State} (s : State) (d : Die) (h_s : Only M s0 s) (le : 0x2c0 ||| M = M) : Only M s0 (State.jrnStop s d) := by
  unfold State.jrnStop
  repeat' first
    | with_reducible assumption
    | with_reducible apply Only.ite
    | with_reducible apply State.setDie_only (le := or_le rfl le)
    | with_reducible apply State.setReg_only (le := or_le rfl le)
    | split
    | dsimp only
    | assumption

/-- It can touch a, b, regs. -/
theorem State.jrnRec_only {M : Nat} {s0 : State} (s : State) (d : Die) (typ : Nat) (body : List Byte) (h_s : Only M s0 s) (le : 0x2c0 ||| M = M) : Only M s0 (State.jrnRec s d typ body) := by
  unfold State.jrnRec
  repeat' first
    | with_reducible assumption
    | with_reducible apply Only.ite
    | with_reducible apply State.bumpOnce_only (le := or_le rfl le)
    | with_reducible apply State.jrnStop_only (le := or_le rfl le)
    | with_reducible apply State.setDie_only (le := or_le rfl le)
    | split
    | dsimp only
    | assumption

/-- It can touch a, b, regs. -/
theorem State.event_only {M : Nat} {s0 : State} (s : State) (d : Die) (kind : Nat) (bytes : List Byte) (h_s : Only M s0 s) (le : 0x2c0 ||| M = M) : Only M s0 (State.event s d kind bytes) := by
  unfold State.event
  repeat' first
    | with_reducible assumption
    | with_reducible apply State.jrnRec_only (le := or_le rfl le)
    | dsimp only
    | assumption

/-- It can touch a, b, regs. -/
theorem State.event2_only {M : Nat} {s0 : State} (s : State) (kind : Nat) (bytes : List Byte) (h_s : Only M s0 s) (le : 0x2c0 ||| M = M) : Only M s0 (State.event2 s kind bytes) := by
  unfold State.event2
  repeat' first
    | with_reducible assumption
    | with_reducible apply State.event_only (le := or_le rfl le)
    | dsimp only
    | assumption

/-- It can touch flt. -/
theorem State.trip_only {M : Nat} {s0 : State} (s : State) (h_s : Only M s0 s) (le : 0x10 ||| M = M) : Only M s0 (State.trip s) := by
  unfold State.trip
  repeat' first
    | with_reducible assumption
    | (dsimp only [Only.mk_eq]; with_reducible apply OnlyParts.flt (c := testBit_ge le rfl); with_reducible apply Only.parts)
    | dsimp only
    | assumption

/-- It can touch fd. -/
theorem State.driveTrips_only {M : Nat} {s0 : State} (s : State) (h_s : Only M s0 s) (le : 0x100 ||| M = M) : Only M s0 (State.driveTrips s) := by
  unfold State.driveTrips
  repeat' first
    | with_reducible assumption
    | intro _
    | with_reducible apply Only.ite
    | with_reducible apply Only.foldl
    | (dsimp only [Only.mk_eq]; with_reducible apply OnlyParts.fd (c := testBit_ge le rfl); with_reducible apply Only.parts)
    | split
    | dsimp only
    | assumption

/-- It can touch flt, fd. -/
theorem State.tripNow_only {M : Nat} {s0 : State} (s : State) (h_s : Only M s0 s) (le : 0x110 ||| M = M) : Only M s0 (State.tripNow s) := by
  unfold State.tripNow
  repeat' first
    | with_reducible assumption
    | with_reducible apply State.driveTrips_only (le := or_le rfl le)
    | with_reducible apply State.trip_only (le := or_le rfl le)
    | dsimp only
    | assumption

/-- It can touch leases. -/
theorem State.setLease_only {M : Nat} {s0 : State} (s : State) (res : Nat) (l : Lease) (h_s : Only M s0 s) (le : 0x20 ||| M = M) : Only M s0 (State.setLease s res l) := by
  unfold State.setLease
  repeat' first
    | with_reducible assumption
    | (dsimp only [Only.mk_eq]; with_reducible apply OnlyParts.leases (c := testBit_ge le rfl); with_reducible apply Only.parts)
    | dsimp only
    | assumption

/-- It can touch leases. -/
theorem State.leaseAsk_only {M : Nat} {s0 : State} (s : State) (res p : Nat) (h_s : Only M s0 s) (le : 0x20 ||| M = M) : Only M s0 (State.leaseAsk s res p) := by
  unfold State.leaseAsk
  repeat' first
    | with_reducible assumption
    | with_reducible apply State.setLease_only (le := or_le rfl le)
    | dsimp only
    | assumption

/-- It can touch leases. -/
theorem State.leaseEnd_only {M : Nat} {s0 : State} (s : State) (res p : Nat) (h_s : Only M s0 s) (le : 0x20 ||| M = M) : Only M s0 (State.leaseEnd s res p) := by
  unfold State.leaseEnd
  repeat' first
    | with_reducible assumption
    | with_reducible apply Only.ite
    | with_reducible apply State.setLease_only (le := or_le rfl le)
    | split
    | dsimp only
    | assumption

/-- It can touch br. -/
theorem State.post_only {M : Nat} {s0 : State} (s : State) (d : Dest) (bs : List Byte) (h_s : Only M s0 s) (le : 0x800 ||| M = M) : Only M s0 (State.post s d bs) := by
  unfold State.post
  repeat' first
    | with_reducible assumption
    | with_reducible apply Only.ite
    | (dsimp only [Only.mk_eq]; with_reducible apply OnlyParts.br (c := testBit_ge le rfl); with_reducible apply Only.parts)
    | split
    | dsimp only
    | assumption

/-- It can touch regs, br. -/
theorem State.sendAns_only {M : Nat} {s0 : State} (s : State) (r : RespTo) (h_s : Only M s0 s) (le : 0xa00 ||| M = M) : Only M s0 (State.sendAns s r) := by
  unfold State.sendAns
  repeat' first
    | with_reducible assumption
    | intro _
    | with_reducible apply Only.ite
    | with_reducible apply State.bump_only (le := or_le rfl le)
    | with_reducible apply State.post_only (le := or_le rfl le)
    | (dsimp only [Only.mk_eq]; with_reducible apply OnlyParts.br (c := testBit_ge le rfl); with_reducible apply Only.parts)
    | split
    | dsimp only
    | assumption

/-- It can touch regs, br. -/
theorem State.otpAns_only {M : Nat} {s0 : State} (s : State) (a : Option RespTo) (h_s : Only M s0 s) (le : 0xa00 ||| M = M) : Only M s0 (State.otpAns s a) := by
  unfold State.otpAns
  repeat' first
    | with_reducible assumption
    | with_reducible apply State.sendAns_only (le := or_le rfl le)
    | split
    | dsimp only
    | assumption

/-- It can touch regs, br, otp, freeCtr. -/
theorem State.otpFence_only {M : Nat} {s0 : State} (s : State) (h_s : Only M s0 s) (le : 0x1008a00 ||| M = M) : Only M s0 (State.otpFence s) := by
  unfold State.otpFence
  repeat' first
    | with_reducible assumption
    | with_reducible apply Only.ite
    | with_reducible apply State.free_only (le := or_le rfl le)
    | with_reducible apply State.otpAns_only (le := or_le rfl le)
    | (dsimp only [Only.mk_eq]; with_reducible apply OnlyParts.br (c := testBit_ge le rfl); with_reducible apply OnlyParts.otp (c := testBit_ge le rfl); with_reducible apply Only.parts)
    | split
    | dsimp only
    | assumption

/-- It can touch regs, crc. -/
theorem State.crcHalt_only {M : Nat} {s0 : State} (s : State) (k dstat : Nat) (clear : Bool) (h_s : Only M s0 s) (le : 0x2200 ||| M = M) : Only M s0 (State.crcHalt s k dstat clear) := by
  unfold State.crcHalt
  repeat' first
    | with_reducible assumption
    | intro _
    | with_reducible apply Only.ite
    | with_reducible apply State.setReg_only (le := or_le rfl le)
    | (dsimp only [Only.mk_eq]; with_reducible apply OnlyParts.crc (c := testBit_ge le rfl); with_reducible apply Only.parts)
    | split
    | dsimp only
    | assumption

/-- It can touch regs, br, otp. -/
theorem State.otpDrop_only {M : Nat} {s0 : State} (s : State) (h_s : Only M s0 s) (le : 0x8a00 ||| M = M) : Only M s0 (State.otpDrop s) := by
  unfold State.otpDrop
  repeat' first
    | with_reducible assumption
    | with_reducible apply Only.ite
    | with_reducible apply State.otpAns_only (le := or_le rfl le)
    | (dsimp only [Only.mk_eq]; with_reducible apply OnlyParts.br (c := testBit_ge le rfl); with_reducible apply OnlyParts.otp (c := testBit_ge le rfl); with_reducible apply Only.parts)
    | split
    | dsimp only
    | assumption

/-- It can touch regs, br. -/
theorem State.fwdFence_only {M : Nat} {s0 : State} (s : State) (d : Die) (h_s : Only M s0 s) (le : 0xa00 ||| M = M) : Only M s0 (State.fwdFence s d) := by
  unfold State.fwdFence
  repeat' first
    | with_reducible assumption
    | intro _
    | with_reducible apply State.sendAns_only (le := or_le rfl le)
    | with_reducible apply Only.foldl
    | (dsimp only [Only.mk_eq]; with_reducible apply OnlyParts.br (c := testBit_ge le rfl); with_reducible apply Only.parts)
    | dsimp only
    | assumption

/-- It can touch flt, a, b, regs, br, crc, otp, freeCtr. -/
theorem State.leaseReset_only {M : Nat} {s0 : State} (s : State) (res p : Nat) (h_s : Only M s0 s) (le : 0x100aad0 ||| M = M) : Only M s0 (State.leaseReset s res p) := by
  unfold State.leaseReset
  repeat' first
    | with_reducible assumption
    | intro _
    | with_reducible apply Only.ite
    | with_reducible apply State.crcHalt_only (le := or_le rfl le)
    | with_reducible apply State.fwdFence_only (le := or_le rfl le)
    | with_reducible apply State.otpFence_only (le := or_le rfl le)
    | with_reducible apply State.updDie_only (le := or_le rfl le)
    | with_reducible apply Only.foldl
    | (dsimp only [Only.mk_eq]; with_reducible apply OnlyParts.flt (c := testBit_ge le rfl); with_reducible apply Only.parts)
    | split
    | dsimp only
    | assumption

/-- It can touch flt, leases, a, b, regs, br, crc, otp, freeCtr. -/
theorem State.fenceLeases_only {M : Nat} {s0 : State} (s : State) (d : Die) (h_s : Only M s0 s) (le : 0x100aaf0 ||| M = M) : Only M s0 (State.fenceLeases s d).1 := by
  unfold State.fenceLeases
  repeat' first
    | with_reducible assumption
    | intro _
    | with_reducible apply Only.ite
    | with_reducible apply State.leaseReset_only (le := or_le rfl le)
    | with_reducible apply State.otpDrop_only (le := or_le rfl le)
    | with_reducible apply State.setLease_only (le := or_le rfl le)
    | with_reducible apply Only.foldl
    | split
    | dsimp only
    | assumption

/-- It can touch flt, a, b, regs. -/
theorem State.leaseSec_only {M : Nat} {s0 : State} (s : State) (held : Bool) (h_s : Only M s0 s) (le : 0x2d0 ||| M = M) : Only M s0 (State.leaseSec s held) := by
  unfold State.leaseSec
  repeat' first
    | with_reducible assumption
    | with_reducible apply Only.ite
    | with_reducible apply State.event2_only (le := or_le rfl le)
    | (dsimp only [Only.mk_eq]; with_reducible apply OnlyParts.flt (c := testBit_ge le rfl); with_reducible apply Only.parts)
    | split
    | dsimp only
    | assumption

/-- It can touch flt. -/
theorem State.setDieSt_only {M : Nat} {s0 : State} (s : State) (x v : Nat) (h_s : Only M s0 s) (le : 0x10 ||| M = M) : Only M s0 (State.setDieSt s x v) := by
  unfold State.setDieSt
  repeat' first
    | with_reducible assumption
    | (dsimp only [Only.mk_eq]; with_reducible apply OnlyParts.flt (c := testBit_ge le rfl); with_reducible apply Only.parts)
    | dsimp only
    | assumption

/-- It can touch pow, flt, leases, a, b, regs, br, crc, otp, st, freeCtr. -/
theorem State.fenceDie_only {M : Nat} {s0 : State} (s : State) (d : Die) (h_s : Only M s0 s) (le : 0x104aaf4 ||| M = M) : Only M s0 (State.fenceDie s d) := by
  unfold State.fenceDie
  repeat' first
    | with_reducible assumption
    | with_reducible apply Only.ite
    | with_reducible apply State.fenceLeases_only (le := or_le rfl le)
    | with_reducible apply State.leaseSec_only (le := or_le rfl le)
    | with_reducible apply State.setDie_only (le := or_le rfl le)
    | with_reducible apply State.setDieSt_only (le := or_le rfl le)
    | (dsimp only [Only.mk_eq]; with_reducible apply OnlyParts.pow (c := testBit_ge le rfl); with_reducible apply OnlyParts.flt (c := testBit_ge le rfl); with_reducible apply OnlyParts.st (c := testBit_ge le rfl); with_reducible apply Only.parts)
    | split
    | dsimp only
    | assumption

/-- It can touch pow, flt, leases, a, b, regs, br, crc, otp, freeCtr. -/
theorem State.fenceM_only {M : Nat} {s0 : State} (s : State) (h_s : Only M s0 s) (le : 0x100aaf4 ||| M = M) : Only M s0 (State.fenceM s) := by
  unfold State.fenceM
  repeat' first
    | with_reducible assumption
    | intro _
    | with_reducible apply State.jrnStop_only (le := or_le rfl le)
    | with_reducible apply State.leaseReset_only (le := or_le rfl le)
    | with_reducible apply State.leaseSec_only (le := or_le rfl le)
    | with_reducible apply State.setDieSt_only (le := or_le rfl le)
    | with_reducible apply Only.foldl
    | (dsimp only [Only.mk_eq]; with_reducible apply OnlyParts.pow (c := testBit_ge le rfl); with_reducible apply OnlyParts.flt (c := testBit_ge le rfl); with_reducible apply OnlyParts.leases (c := testBit_ge le rfl); with_reducible apply Only.parts)
    | split
    | dsimp only
    | assumption

/-- It can touch pow, flt, a, b, fd. -/
theorem State.fenceF_only {M : Nat} {s0 : State} (s : State) (d : Nat) (h_s : Only M s0 s) (le : 0x1d4 ||| M = M) : Only M s0 (State.fenceF s d) := by
  unfold State.fenceF
  repeat' first
    | with_reducible assumption
    | (dsimp only [Only.mk_eq]; with_reducible apply OnlyParts.pow (c := testBit_ge le rfl); with_reducible apply OnlyParts.flt (c := testBit_ge le rfl); with_reducible apply OnlyParts.a (c := testBit_ge le rfl); with_reducible apply OnlyParts.b (c := testBit_ge le rfl); with_reducible apply OnlyParts.fd (c := testBit_ge le rfl); with_reducible apply Only.parts)
    | dsimp only
    | assumption

/-- It can touch pow, flt, leases, a, b, fd, regs, br, crc, otp, st, freeCtr. -/
theorem State.fenceOf_only {M : Nat} {s0 : State} (s : State) (b : Nat) (h_s : Only M s0 s) (le : 0x104abf4 ||| M = M) : Only M s0 (State.fenceOf s b) := by
  unfold State.fenceOf
  repeat' first
    | with_reducible assumption
    | with_reducible apply Only.ite
    | with_reducible apply State.fenceDie_only (le := or_le rfl le)
    | with_reducible apply State.fenceF_only (le := or_le rfl le)
    | with_reducible apply State.fenceM_only (le := or_le rfl le)
    | split
    | dsimp only
    | assumption

/-- It can touch flt. -/
theorem State.lockAll_only {M : Nat} {s0 : State} (s : State) (h_s : Only M s0 s) (le : 0x10 ||| M = M) : Only M s0 (State.lockAll s) := by
  unfold State.lockAll
  repeat' first
    | with_reducible assumption
    | with_reducible apply Only.ite
    | (dsimp only [Only.mk_eq]; with_reducible apply OnlyParts.flt (c := testBit_ge le rfl); with_reducible apply Only.parts)
    | split
    | dsimp only
    | assumption

/-- It can touch flt, a, b, regs, upd. -/
theorem State.revert_only {M : Nat} {s0 : State} (s : State) (why : Nat) (h_s : Only M s0 s) (le : 0x802d0 ||| M = M) : Only M s0 (State.revert s why) := by
  unfold State.revert
  repeat' first
    | with_reducible assumption
    | with_reducible apply Only.ite
    | with_reducible apply State.bump_only (le := or_le rfl le)
    | with_reducible apply State.lockAll_only (le := or_le rfl le)
    | with_reducible apply State.setDie_only (le := or_le rfl le)
    | with_reducible apply State.setReg_only (le := or_le rfl le)
    | (dsimp only [Only.mk_eq]; with_reducible apply OnlyParts.flt (c := testBit_ge le rfl); with_reducible apply OnlyParts.upd (c := testBit_ge le rfl); with_reducible apply Only.parts)
    | split
    | dsimp only
    | assumption

/-- It can touch modes, pow, flt, a, b, fd, regs, st, upd. -/
theorem State.reactC3_only {M : Nat} {s0 : State} (s : State) (b : Nat) (h_s : Only M s0 s) (le : 0xc03d6 ||| M = M) : Only M s0 (State.reactC3 s b) := by
  unfold State.reactC3
  repeat' first
    | with_reducible assumption
    | with_reducible apply Only.ite
    | with_reducible apply State.lockAll_only (le := or_le rfl le)
    | with_reducible apply State.revert_only (le := or_le rfl le)
    | with_reducible apply State.setReg_only (le := or_le rfl le)
    | with_reducible apply State.tripNow_only (le := or_le rfl le)
    | (dsimp only [Only.mk_eq]; with_reducible apply OnlyParts.modesKeep (c := testBit_ge le rfl); with_reducible apply OnlyParts.pow (c := testBit_ge le rfl); with_reducible apply OnlyParts.flt (c := testBit_ge le rfl); with_reducible apply OnlyParts.st (c := testBit_ge le rfl); with_reducible apply Only.parts <;> try with_reducible rfl)
    | split
    | dsimp only
    | assumption

/-- It can touch modes, pow, flt, leases, a, b, fd, regs, br, crc, otp, st, upd, freeCtr. -/
theorem State.react_only {M : Nat} {s0 : State} (s : State) (b : Nat) (h_s : Only M s0 s) (le : 0x10cabf6 ||| M = M) : Only M s0 (State.react s b) := by
  unfold State.react
  repeat' first
    | with_reducible assumption
    | with_reducible apply Only.ite
    | with_reducible apply State.fenceOf_only (le := or_le rfl le)
    | with_reducible apply State.reactC3_only (le := or_le rfl le)
    | (dsimp only [Only.mk_eq]; with_reducible apply OnlyParts.flt (c := testBit_ge le rfl); with_reducible apply Only.parts)
    | split
    | dsimp only
    | assumption

/-- It can touch flt. -/
theorem State.causeOn_only {M : Nat} {s0 : State} (s : State) (b : Nat) (h_s : Only M s0 s) (le : 0x10 ||| M = M) : Only M s0 (State.causeOn s b) := by
  unfold State.causeOn
  repeat' first
    | with_reducible assumption
    | (dsimp only [Only.mk_eq]; with_reducible apply OnlyParts.flt (c := testBit_ge le rfl); with_reducible apply Only.parts)
    | dsimp only
    | assumption

/-- It can touch flt. -/
theorem State.causeOff_only {M : Nat} {s0 : State} (s : State) (b : Nat) (h_s : Only M s0 s) (le : 0x10 ||| M = M) : Only M s0 (State.causeOff s b) := by
  unfold State.causeOff
  repeat' first
    | with_reducible assumption
    | (dsimp only [Only.mk_eq]; with_reducible apply OnlyParts.flt (c := testBit_ge le rfl); with_reducible apply Only.parts)
    | dsimp only
    | assumption

/-- It can touch modes, pow, flt, leases, a, b, fd, regs, br, crc, otp, st, upd, freeCtr. -/
theorem State.again_only {M : Nat} {s0 : State} (s : State) (b : Nat) (h_s : Only M s0 s) (le : 0x10cabf6 ||| M = M) : Only M s0 (State.again s b) := by
  unfold State.again
  repeat' first
    | with_reducible assumption
    | with_reducible apply Only.ite
    | with_reducible apply State.fenceOf_only (le := or_le rfl le)
    | with_reducible apply State.reactC3_only (le := or_le rfl le)
    | (dsimp only [Only.mk_eq]; with_reducible apply OnlyParts.flt (c := testBit_ge le rfl); with_reducible apply Only.parts)
    | split
    | dsimp only
    | assumption

/-- It can touch modes, pow, flt, leases, a, b, fd, regs, br, crc, otp, st, upd, freeCtr. -/
theorem State.latch_only {M : Nat} {s0 : State} (s : State) (b : Nat) (h_s : Only M s0 s) (le : 0x10cabf6 ||| M = M) : Only M s0 (State.latch s b) := by
  unfold State.latch
  repeat' first
    | with_reducible assumption
    | with_reducible apply Only.ite
    | with_reducible apply State.again_only (le := or_le rfl le)
    | with_reducible apply State.event2_only (le := or_le rfl le)
    | with_reducible apply State.react_only (le := or_le rfl le)
    | with_reducible apply State.setReg_only (le := or_le rfl le)
    | (dsimp only [Only.mk_eq]; with_reducible apply OnlyParts.flt (c := testBit_ge le rfl); with_reducible apply Only.parts)
    | split
    | dsimp only
    | assumption

/-- It can touch modes, pow, flt, leases, a, b, fd, regs, br, crc, otp, st, upd, freeCtr. -/
theorem State.latch3_only {M : Nat} {s0 : State} (s : State) (b : Nat) (h_s : Only M s0 s) (le : 0x10cabf6 ||| M = M) : Only M s0 (State.latch3 s b) := by
  unfold State.latch3
  repeat' first
    | with_reducible assumption
    | with_reducible apply Only.ite
    | with_reducible apply State.latch_only (le := or_le rfl le)
    | with_reducible apply State.reactC3_only (le := or_le rfl le)
    | (dsimp only [Only.mk_eq]; with_reducible apply OnlyParts.flt (c := testBit_ge le rfl); with_reducible apply Only.parts)
    | split
    | dsimp only
    | assumption

/-- It can touch modes, pow, flt, leases, a, b, fd, regs, br, crc, otp, st, upd, freeCtr. -/
theorem State.latchStanding_only {M : Nat} {s0 : State} (s : State) (b : Nat) (h_s : Only M s0 s) (le : 0x10cabf6 ||| M = M) : Only M s0 (State.latchStanding s b) := by
  unfold State.latchStanding
  repeat' first
    | with_reducible assumption
    | with_reducible apply State.causeOn_only (le := or_le rfl le)
    | with_reducible apply State.latch_only (le := or_le rfl le)
    | dsimp only
    | assumption

/-- It can touch modes, pow, flt, leases, a, b, fd, regs, br, crc, otp, st, upd, freeCtr and what its argument can. -/
theorem State.resetBlock_only {M : Nat} {s0 : State} (s : State) (k : Blk) (b : Nat) (f : State → State) (h_s : Only M s0 s) (k_f : ∀ t, Only M s0 t → Only M s0 (f t)) (le : 0x10cabf6 ||| M = M) : Only M s0 (State.resetBlock s k b f) := by
  unfold State.resetBlock
  repeat' first
    | with_reducible assumption
    | intro _
    | with_reducible apply Only.ite
    | with_reducible apply State.latch3_only (le := or_le rfl le)
    | with_reducible apply k_f
    | (dsimp only [Only.mk_eq]; with_reducible apply OnlyParts.flt (c := testBit_ge le rfl); with_reducible apply Only.parts)
    | split
    | dsimp only
    | assumption

/-- It can touch modes, pow, flt, leases, a, b, fd, regs, br, crc, otp, st, upd, freeCtr and what its argument can. -/
theorem State.latchReset_only {M : Nat} {s0 : State} (s : State) (k : Blk) (b : Nat) (f : State → State) (h_s : Only M s0 s) (k_f : ∀ t, Only M s0 t → Only M s0 (f t)) (le : 0x10cabf6 ||| M = M) : Only M s0 (State.latchReset s k b f) := by
  unfold State.latchReset
  repeat' first
    | with_reducible assumption
    | intro _
    | with_reducible apply Only.ite
    | with_reducible apply State.latch_only (le := or_le rfl le)
    | with_reducible apply State.resetBlock_only (le := or_le rfl le)
    | with_reducible apply k_f
    | split
    | dsimp only
    | assumption

end Sys2Proof.Machine
end

