-- ==== Sys2Proof/Laws/OnlySpanOps.lean ====
section
/-! SUPPORT. Which fields the operations of Machine/SpanOps.lean can touch. -/

set_option linter.unusedTactic false
set_option linter.unreachableTactic false
set_option linter.unusedVariables false

namespace Sys2Proof.Machine

/-- It can touch a, b. -/
theorem State.sendReady_only {M : Nat} {s0 : State} (s : State) (d : Die) (h_s : Only M s0 s) (le : 0xc0 ||| M = M) : Only M s0 (State.sendReady s d) := by
  unfold State.sendReady
  repeat' first
    | with_reducible assumption
    | intro _
    | with_reducible apply Only.ite
    | with_reducible apply State.updDie_only (le := or_le rfl le)
    | split
    | dsimp only
    | assumption

/-- It can touch regs. -/
theorem State.countCompares_only {M : Nat} {s0 : State} (s : State) (d : Die) (c0 : Cmp) (h_s : Only M s0 s) (le : 0x200 ||| M = M) : Only M s0 (State.countCompares s d c0) := by
  unfold State.countCompares
  repeat' first
    | with_reducible assumption
    | with_reducible apply Only.ite
    | with_reducible apply State.setReg_only (le := or_le rfl le)
    | split
    | dsimp only
    | assumption

/-- It can touch a, b. -/
theorem State.ready_only {M : Nat} {s0 : State} (s : State) (d : Die) (p : Pattern) (h_s : Only M s0 s) (le : 0xc0 ||| M = M) : Only M s0 (State.ready s d p) := by
  unfold State.ready
  repeat' first
    | with_reducible assumption
    | with_reducible apply Only.ite
    | with_reducible apply State.sendReady_only (le := or_le rfl le)
    | split
    | dsimp only
    | assumption

/-- It can touch a, b, regs. -/
theorem State.formRecords_only {M : Nat} {s0 : State} (s : State) (d : Die) (p : Pattern) (h_s : Only M s0 s) (le : 0x2c0 ||| M = M) : Only M s0 (State.formRecords s d p) := by
  unfold State.formRecords
  repeat' first
    | with_reducible assumption
    | intro _
    | with_reducible apply Only.ite
    | with_reducible apply State.countCompares_only (le := or_le rfl le)
    | with_reducible apply State.setDie_only (le := or_le rfl le)
    | split
    | dsimp only
    | assumption

/-- It can touch a, b, regs. -/
theorem State.replayRecords_only {M : Nat} {s0 : State} (s : State) (d : Die) (p : Pattern) (h_s : Only M s0 s) (le : 0x2c0 ||| M = M) : Only M s0 (State.replayRecords s d p) := by
  unfold State.replayRecords
  repeat' first
    | with_reducible assumption
    | intro _
    | with_reducible apply State.countCompares_only (le := or_le rfl le)
    | with_reducible apply State.setDie_only (le := or_le rfl le)
    | dsimp only
    | assumption

/-- It can touch a, b, regs. -/
theorem State.advance_only {M : Nat} {s0 : State} (s : State) (d : Die) (p : Pattern) (h_s : Only M s0 s) (le : 0x2c0 ||| M = M) : Only M s0 (State.advance s d p) := by
  unfold State.advance
  repeat' first
    | with_reducible assumption
    | with_reducible apply Only.ite
    | with_reducible apply State.formRecords_only (le := or_le rfl le)
    | with_reducible apply State.ready_only (le := or_le rfl le)
    | with_reducible apply State.replayRecords_only (le := or_le rfl le)
    | with_reducible apply State.setDie_only (le := or_le rfl le)
    | with_reducible apply State.setReg_only (le := or_le rfl le)
    | split
    | dsimp only
    | assumption

/-- It can touch a, b, regs. -/
theorem State.startEval_only {M : Nat} {s0 : State} (s : State) (d : Die) (p : Pattern) (h_s : Only M s0 s) (le : 0x2c0 ||| M = M) : Only M s0 (State.startEval s d p) := by
  unfold State.startEval
  repeat' first
    | with_reducible assumption
    | intro _
    | with_reducible apply State.advance_only (le := or_le rfl le)
    | with_reducible apply State.setDie_only (le := or_le rfl le)
    | split
    | dsimp only
    | assumption

/-- It can touch modes, pow, flt, leases, a, b, fd, regs, br, crc, otp, st, upd, freeCtr. -/
theorem State.laneFail_only {M : Nat} {s0 : State} (s : State) (d : Die) (lane : Nat) (p : Pattern) (h_s : Only M s0 s) (le : 0x10cabf6 ||| M = M) : Only M s0 (State.laneFail s d lane p) := by
  unfold State.laneFail
  repeat' first
    | with_reducible assumption
    | with_reducible apply Only.ite
    | with_reducible apply State.causeOn_only (le := or_le rfl le)
    | with_reducible apply State.latch_only (le := or_le rfl le)
    | with_reducible apply State.setDie_only (le := or_le rfl le)
    | split
    | dsimp only
    | assumption

/-- It can touch a, b. -/
theorem State.sendCmds_only {M : Nat} {s0 : State} (s : State) (d : Die) (cmd : Nat → BitVec 32) (h_s : Only M s0 s) (le : 0xc0 ||| M = M) : Only M s0 (State.sendCmds s d cmd) := by
  unfold State.sendCmds
  repeat' first
    | with_reducible assumption
    | intro _
    | with_reducible apply Only.ite
    | with_reducible apply State.updDie_only (le := or_le rfl le)
    | with_reducible apply Only.foldl
    | split
    | dsimp only
    | assumption

end Sys2Proof.Machine
end

