-- ==== Sys2Proof/Laws/OnlyRingOps.lean ====
section
/-! SUPPORT. Which fields the operations of Machine/RingOps.lean can touch. -/

set_option linter.unusedTactic false
set_option linter.unreachableTactic false
set_option linter.unusedVariables false

namespace Sys2Proof.Machine

/-- It can touch crc. -/
theorem State.crcTouch_only {M : Nat} {s0 : State} (s : State) (inB : Bool) (lo n : Nat) (h_s : Only M s0 s) (le : 0x2000 ||| M = M) : Only M s0 (State.crcTouch s inB lo n) := by
  unfold State.crcTouch
  repeat' first
    | with_reducible assumption
    | intro _
    | with_reducible apply Only.ite
    | with_reducible apply Only.foldl
    | (dsimp only [Only.mk_eq]; with_reducible apply OnlyParts.crc (c := testBit_ge le rfl); with_reducible apply Only.parts)
    | split
    | dsimp only
    | assumption

/-- It can touch crc. -/
theorem State.crcTouchHead_only {M : Nat} {s0 : State} (s : State) (n : Nat) (h_s : Only M s0 s) (le : 0x2000 ||| M = M) : Only M s0 (State.crcTouchHead s n) := by
  unfold State.crcTouchHead
  repeat' first
    | with_reducible assumption
    | with_reducible apply State.crcTouch_only (le := or_le rfl le)
    | dsimp only
    | assumption

/-- It can touch modes, pow, flt, leases, a, b, fd, regs, br, rings, crc, otp, st, upd, freeCtr. -/
theorem State.ringFix_only {M : Nat} {s0 : State} (s : State) (n : Nat) (h_s : Only M s0 s) (le : 0x10cbbf6 ||| M = M) : Only M s0 (State.ringFix s n) := by
  unfold State.ringFix
  repeat' first
    | with_reducible assumption
    | with_reducible apply Only.ite
    | with_reducible apply State.bump_only (le := or_le rfl le)
    | with_reducible apply State.latch_only (le := or_le rfl le)
    | (dsimp only [Only.mk_eq]; with_reducible apply OnlyParts.rings (c := testBit_ge le rfl); with_reducible apply Only.parts)
    | split
    | dsimp only
    | assumption

/-- It can touch modes, pow, flt, leases, a, b, fd, regs, br, rings, crc, otp, st, upd, freeCtr. -/
theorem State.ringPut_only {M : Nat} {s0 : State} (s : State) (n : Nat) (bs : List Byte) (h_s : Only M s0 s) (le : 0x10cbbf6 ||| M = M) : Only M s0 (State.ringPut s n bs).1 := by
  unfold State.ringPut
  repeat' first
    | with_reducible assumption
    | with_reducible apply Only.ite
    | with_reducible apply State.crcTouchHead_only (le := or_le rfl le)
    | with_reducible apply State.ringFix_only (le := or_le rfl le)
    | (dsimp only [Only.mk_eq]; with_reducible apply OnlyParts.rings (c := testBit_ge le rfl); with_reducible apply Only.parts)
    | split
    | dsimp only
    | assumption

/-- It can touch rings. -/
theorem State.ringsFor_only {M : Nat} {s0 : State} (s : State) (p : Pattern) (h_s : Only M s0 s) (le : 0x1000 ||| M = M) : Only M s0 (State.ringsFor s p) := by
  unfold State.ringsFor
  repeat' first
    | with_reducible assumption
    | with_reducible apply Only.ite
    | (dsimp only [Only.mk_eq]; with_reducible apply OnlyParts.rings (c := testBit_ge le rfl); with_reducible apply Only.parts)
    | split
    | dsimp only
    | assumption

/-- It can touch rings, pat. -/
theorem State.logAppend_only {M : Nat} {s0 : State} (s : State) (es : List (List Byte)) (h_s : Only M s0 s) (le : 0x201000 ||| M = M) : Only M s0 (State.logAppend s es).1 := by
  unfold State.logAppend
  repeat' first
    | with_reducible assumption
    | with_reducible apply Only.ite
    | (dsimp only [Only.mk_eq]; with_reducible apply OnlyParts.rings (c := testBit_ge le rfl); with_reducible apply OnlyParts.pat (c := testBit_ge le rfl); with_reducible apply Only.parts)
    | split
    | dsimp only
    | assumption

/-- It can touch regs, rings, pat. -/
theorem State.dcplChange_only {M : Nat} {s0 : State} (s : State) (g new old span : Nat) (h_s : Only M s0 s) (le : 0x201200 ||| M = M) : Only M s0 (State.dcplChange s g new old span) := by
  unfold State.dcplChange
  repeat' first
    | with_reducible assumption
    | with_reducible apply Only.ite
    | with_reducible apply State.bump_only (le := or_le rfl le)
    | with_reducible apply State.logAppend_only (le := or_le rfl le)
    | with_reducible apply State.setReg_only (le := or_le rfl le)
    | split
    | dsimp only
    | assumption

/-- It can touch a, b, regs. -/
theorem State.jrnVar_only {M : Nat} {s0 : State} (s : State) (d : Die) (v : Var) (old new : Int) (h_s : Only M s0 s) (le : 0x2c0 ||| M = M) : Only M s0 (State.jrnVar s d v old new) := by
  unfold State.jrnVar
  repeat' first
    | with_reducible assumption
    | intro _
    | with_reducible apply Only.ite
    | with_reducible apply State.jrnRec_only (le := or_le rfl le)
    | with_reducible apply State.updDie_only (le := or_le rfl le)
    | exact fun _ h => h
    | split
    | dsimp only
    | assumption

/-- It can touch a, b, regs. -/
theorem State.jrnVars_only {M : Nat} {s0 : State} (s : State) (d : Die) (p : Pattern) (old new : Img) (h_s : Only M s0 s) (le : 0x2c0 ||| M = M) : Only M s0 (State.jrnVars s d p old new) := by
  unfold State.jrnVars
  repeat' first
    | with_reducible assumption
    | intro _
    | with_reducible apply State.jrnVar_only (le := or_le rfl le)
    | exact fun _ h => h
    | with_reducible apply Only.foldl
    | dsimp only
    | assumption

end Sys2Proof.Machine
end

