-- ==== Sys2Proof/Laws/OnlyTimerOps.lean ====
section
/-! SUPPORT. Which fields the operations of Machine/TimerOps.lean can touch. -/

set_option linter.unusedTactic false
set_option linter.unreachableTactic false
set_option linter.unusedVariables false

namespace Sys2Proof.Machine

/-- It can touch tmr. -/
theorem State.setTimer_only {M : Nat} {s0 : State} (s : State) (k : Nat) (t : Tmr) (h_s : Only M s0 s) (le : 0x4000 ||| M = M) : Only M s0 (State.setTimer s k t) := by
  unfold State.setTimer
  repeat' first
    | with_reducible assumption
    | (dsimp only [Only.mk_eq]; with_reducible apply OnlyParts.tmr (c := testBit_ge le rfl); with_reducible apply Only.parts)
    | dsimp only
    | assumption

/-- It can touch modes, pow, flt, leases, a, b, fd, regs, br, rings, crc, tmr, otp, st, upd, freeCtr. -/
theorem State.putTimer_only {M : Nat} {s0 : State} (s : State) (k : Nat) (x : Tmr × Bool) (h_s : Only M s0 s) (le : 0x10cfbf6 ||| M = M) : Only M s0 (State.putTimer s k x) := by
  unfold State.putTimer
  repeat' first
    | with_reducible assumption
    | with_reducible apply Only.ite
    | with_reducible apply State.ringPut_only (le := or_le rfl le)
    | with_reducible apply State.setTimer_only (le := or_le rfl le)
    | split
    | dsimp only
    | assumption

/-- It can touch modes, pow, flt, leases, a, b, fd, regs, br, rings, crc, tmr, otp, st, upd, freeCtr. -/
theorem State.timerEdge_only {M : Nat} {s0 : State} (s : State) (d : Die) (src : Bool) (h_s : Only M s0 s) (le : 0x10cfbf6 ||| M = M) : Only M s0 (State.timerEdge s d src) := by
  unfold State.timerEdge
  repeat' first
    | with_reducible assumption
    | intro _
    | with_reducible apply Only.ite
    | with_reducible apply State.putTimer_only (le := or_le rfl le)
    | with_reducible apply Only.foldl
    | split
    | dsimp only
    | assumption

end Sys2Proof.Machine
end

