-- ==== Sys2Proof/Laws/OnlySnapshot.lean ====
section
/-! SUPPORT. Which fields the operations of Machine/Snapshot.lean can touch. -/

set_option linter.unusedTactic false
set_option linter.unreachableTactic false
set_option linter.unusedVariables false

namespace Sys2Proof.Machine

/-- It can touch a, b, regs. -/
theorem State.setCode_only {M : Nat} {s0 : State} (s : State) (d : Die) (n k : Nat) (h_s : Only M s0 s) (le : 0x2c0 ||| M = M) : Only M s0 (State.setCode s d n k) := by
  unfold State.setCode
  repeat' first
    | with_reducible assumption
    | intro _
    | with_reducible apply Only.ite
    | with_reducible apply State.bump_only (le := or_le rfl le)
    | with_reducible apply State.event_only (le := or_le rfl le)
    | with_reducible apply State.updDie_only (le := or_le rfl le)
    | split
    | dsimp only
    | assumption

/-- It can touch a, b, regs. -/
theorem State.setOut_only {M : Nat} {s0 : State} (s : State) (d : Die) (n k : Nat) (h_s : Only M s0 s) (le : 0x2c0 ||| M = M) : Only M s0 (State.setOut s d n k) := by
  unfold State.setOut
  repeat' first
    | with_reducible assumption
    | intro _
    | with_reducible apply Only.ite
    | with_reducible apply State.bump_only (le := or_le rfl le)
    | with_reducible apply State.event_only (le := or_le rfl le)
    | with_reducible apply State.updDie_only (le := or_le rfl le)
    | split
    | dsimp only
    | assumption

/-- It can touch modes, pow, flt, leases, a, b, fd, regs, br, rings, crc, otp, st, upd, freeCtr. -/
theorem State.cosEvent_only {M : Nat} {s0 : State} (s : State) (n stat edge : Nat) (h_s : Only M s0 s) (le : 0x10cbbf6 ||| M = M) : Only M s0 (State.cosEvent s n stat edge) := by
  unfold State.cosEvent
  repeat' first
    | with_reducible assumption
    | intro _
    | with_reducible apply Only.ite
    | with_reducible apply State.bump_only (le := or_le rfl le)
    | with_reducible apply State.ringPut_only (le := or_le rfl le)
    | with_reducible apply State.setReg_only (le := or_le rfl le)
    | (dsimp only [Only.mk_eq]; with_reducible apply OnlyParts.br (c := testBit_ge le rfl); with_reducible apply Only.parts)
    | split
    | dsimp only
    | assumption

/-- It can touch modes, pow, flt, leases, a, b, fd, regs, br, rings, crc, otp, st, upd, freeCtr. -/
theorem State.portHist_only {M : Nat} {s0 : State} (s : State) (p : Pattern) (d : Die) (n stat edge : Nat) (h_s : Only M s0 s) (le : 0x10cbbf6 ||| M = M) : Only M s0 (State.portHist s p d n stat edge) := by
  unfold State.portHist
  repeat' first
    | with_reducible assumption
    | with_reducible apply State.ringPut_only (le := or_le rfl le)
    | split
    | dsimp only
    | assumption

/-- It can touch modes, pow, flt, leases, a, b, fd, regs, br, rings, crc, otp, st, upd, freeCtr. -/
theorem State.chanEnd_only {M : Nat} {s0 : State} (d : Die) (s : State) (n : Nat) (h_s : Only M s0 s) (le : 0x10cbbf6 ||| M = M) : Only M s0 (State.chanEnd d s n) := by
  unfold State.chanEnd
  repeat' first
    | with_reducible assumption
    | intro _
    | with_reducible apply Only.ite
    | with_reducible apply State.bumpOnce_only (le := or_le rfl le)
    | with_reducible apply State.cosEvent_only (le := or_le rfl le)
    | with_reducible apply State.event_only (le := or_le rfl le)
    | with_reducible apply State.portHist_only (le := or_le rfl le)
    | with_reducible apply State.setDie_only (le := or_le rfl le)
    | with_reducible apply State.setReg_only (le := or_le rfl le)
    | split
    | dsimp only
    | assumption

/-- It can touch fd. -/
theorem State.updF_only {M : Nat} {s0 : State} (s : State) (f : Nat) (g : FDie → FDie) (h_s : Only M s0 s) (le : 0x100 ||| M = M) : Only M s0 (State.updF s f g) := by
  unfold State.updF
  repeat' first
    | with_reducible assumption
    | intro _
    | (dsimp only [Only.mk_eq]; with_reducible apply OnlyParts.fd (c := testBit_ge le rfl); with_reducible apply Only.parts)
    | dsimp only
    | assumption

/-- It can touch a, b, regs. -/
theorem State.readback_only {M : Nat} {s0 : State} (d : Die) (s : State) (c : ChanRec) (h_s : Only M s0 s) (le : 0x2c0 ||| M = M) : Only M s0 (State.readback d s c) := by
  unfold State.readback
  repeat' first
    | with_reducible assumption
    | with_reducible apply Only.ite
    | with_reducible apply State.setOut_only (le := or_le rfl le)
    | split
    | dsimp only
    | assumption

/-- It can touch modes, pow, flt, leases, a, b, fd, regs, br, crc, otp, st, upd, freeCtr. -/
theorem State.latchPair_only {M : Nat} {s0 : State} (s : State) (p : Pattern) (id : Nat) (h_s : Only M s0 s) (le : 0x10cabf6 ||| M = M) : Only M s0 (State.latchPair s p id) := by
  unfold State.latchPair
  repeat' first
    | with_reducible assumption
    | with_reducible apply State.latch_only (le := or_le rfl le)
    | exact fun _ h => h
    | (dsimp only [Only.mk_eq]; with_reducible apply OnlyParts.flt (c := testBit_ge le rfl); with_reducible apply Only.parts)
    | dsimp only
    | assumption

/-- It can touch modes, pow, flt, leases, a, b, fd, regs, br, crc, otp, st, upd, freeCtr. -/
theorem State.pairAt_only {M : Nat} {s0 : State} (p : Pattern) (d : Die) (s : State) (q : Nat) (i : Inst) (par : ConnPar) (h_s : Only M s0 s) (le : 0x10cabf6 ||| M = M) : Only M s0 (State.pairAt p d s q i par) := by
  unfold State.pairAt
  repeat' first
    | with_reducible assumption
    | with_reducible apply Only.ite
    | with_reducible apply State.bumpOnce_only (le := or_le rfl le)
    | with_reducible apply State.latchPair_only (le := or_le rfl le)
    | with_reducible apply State.setDie_only (le := or_le rfl le)
    | exact fun _ h => h
    | split
    | dsimp only
    | assumption

end Sys2Proof.Machine
end

