-- ==== Sys2Proof/Laws/OnlyRelease.lean ====
section
/-! SUPPORT. Which fields the operations of Machine/Release.lean can touch. -/

set_option linter.unusedTactic false
set_option linter.unreachableTactic false
set_option linter.unusedVariables false

namespace Sys2Proof.Machine

/-- It can touch modes, pow, flt, leases, a, b, fd, regs, br, rings, crc, otp, st, upd, freeCtr. -/
theorem State.release_only {M : Nat} {s0 : State} (p : Pattern) (d : Die) (e : EvalEnv) (s : State) (x : Nat × Inst × ConnPar × Nat × Nat) (h_s : Only M s0 s) (le : 0x10cbbf6 ||| M = M) : Only M s0 (State.release p d e s x) := by
  unfold State.release
  repeat' first
    | with_reducible assumption
    | intro _
    | with_reducible apply Only.ite
    | with_reducible apply State.bumpOnce_only (le := or_le rfl le)
    | with_reducible apply State.ringPut_only (le := or_le rfl le)
    | with_reducible apply State.setDie_only (le := or_le rfl le)
    | exact fun _ h => h
    | with_reducible apply Only.foldl
    | with_reducible apply Only.foldlSnd
    | split
    | dsimp only
    | assumption

/-- It can touch modes, pow, flt, leases, a, b, fd, regs, br, rings, crc, otp, st, upd, freeCtr. -/
theorem State.releaseAll_only {M : Nat} {s0 : State} (s : State) (d : Die) (p : Pattern) (m : Img) (h_s : Only M s0 s) (le : 0x10cbbf6 ||| M = M) : Only M s0 (State.releaseAll s d p m) := by
  unfold State.releaseAll
  repeat' first
    | with_reducible assumption
    | intro _
    | with_reducible apply State.release_only (le := or_le rfl le)
    | with_reducible apply Only.foldl
    | dsimp only
    | assumption

/-- It can touch a, b, st. -/
theorem State.takeState_only {M : Nat} {s0 : State} (u : State) (d : Die) (h_u : Only M s0 u) (le : 0x400c0 ||| M = M) : Only M s0 (State.takeState u d) := by
  unfold State.takeState
  repeat' first
    | with_reducible assumption
    | intro _
    | with_reducible apply State.setDie_only (le := or_le rfl le)
    | (dsimp only [Only.mk_eq]; with_reducible apply OnlyParts.st (c := testBit_ge le rfl); with_reducible apply Only.parts)
    | split
    | dsimp only
    | assumption

/-- It can touch flt, a, b, upd. -/
theorem State.enterHold_only {M : Nat} {s0 : State} (s : State) (d : Die) (h_s : Only M s0 s) (le : 0x800d0 ||| M = M) : Only M s0 (State.enterHold s d) := by
  unfold State.enterHold
  repeat' first
    | with_reducible assumption
    | with_reducible apply Only.ite
    | with_reducible apply State.setDie_only (le := or_le rfl le)
    | (dsimp only [Only.mk_eq]; with_reducible apply OnlyParts.flt (c := testBit_ge le rfl); with_reducible apply OnlyParts.upd (c := testBit_ge le rfl); with_reducible apply Only.parts)
    | split
    | dsimp only
    | assumption

/-- It can touch flt, a, b, regs, upd. -/
theorem State.rejoinCommit_only {M : Nat} {s0 : State} (s : State) (d : Die) (h_s : Only M s0 s) (le : 0x802d0 ||| M = M) : Only M s0 (State.rejoinCommit s d) := by
  unfold State.rejoinCommit
  repeat' first
    | with_reducible assumption
    | with_reducible apply Only.ite
    | with_reducible apply State.setDie_only (le := or_le rfl le)
    | with_reducible apply State.setReg_only (le := or_le rfl le)
    | (dsimp only [Only.mk_eq]; with_reducible apply OnlyParts.flt (c := testBit_ge le rfl); with_reducible apply OnlyParts.upd (c := testBit_ge le rfl); with_reducible apply Only.parts)
    | split
    | dsimp only
    | assumption

/-- It can touch flt, a, b, upd. -/
theorem State.laReboot_only {M : Nat} {s0 : State} (s : State) (p : Pattern) (h_s : Only M s0 s) (le : 0x800d0 ||| M = M) : Only M s0 (State.laReboot s p) := by
  unfold State.laReboot
  repeat' first
    | with_reducible assumption
    | with_reducible apply Only.ite
    | with_reducible apply State.enterHold_only (le := or_le rfl le)
    | (dsimp only [Only.mk_eq]; with_reducible apply OnlyParts.upd (c := testBit_ge le rfl); with_reducible apply Only.parts)
    | split
    | dsimp only
    | assumption

/-- It can touch modes, a, b, regs, upd, mode. -/
theorem State.flip__only {M : Nat} {s0 : State} (s : State) (h_s : Only M s0 s) (le : 0x80802c2 ||| M = M) : Only M s0 (State.flip_ s) := by
  unfold State.flip_
  repeat' first
    | with_reducible assumption
    | intro _
    | with_reducible apply Only.ite
    | with_reducible apply State.bump_only (le := or_le rfl le)
    | with_reducible apply State.event2_only (le := or_le rfl le)
    | with_reducible apply State.setReg_only (le := or_le rfl le)
    | with_reducible apply Only.foldl
    | (dsimp only [Only.mk_eq]; with_reducible apply OnlyParts.modes (c := testBit_ge le rfl) (c2 := testBit_ge le rfl); with_reducible apply OnlyParts.upd (c := testBit_ge le rfl); with_reducible apply Only.parts)
    | split
    | dsimp only
    | assumption

/-- It can touch modes, a, b, regs, upd, mode. -/
theorem State.updAgree_only {M : Nat} {s0 : State} (s : State) (h_s : Only M s0 s) (le : 0x80802c2 ||| M = M) : Only M s0 (State.updAgree s) := by
  unfold State.updAgree
  repeat' first
    | with_reducible assumption
    | with_reducible apply Only.ite
    | with_reducible apply State.flip__only (le := or_le rfl le)
    | (dsimp only [Only.mk_eq]; with_reducible apply OnlyParts.upd (c := testBit_ge le rfl); with_reducible apply Only.parts)
    | split
    | dsimp only
    | assumption

/-- It can touch flt, regs. -/
theorem State.readmAgree_only {M : Nat} {s0 : State} (s : State) (d : Die) (h_s : Only M s0 s) (le : 0x210 ||| M = M) : Only M s0 (State.readmAgree s d) := by
  unfold State.readmAgree
  repeat' first
    | with_reducible assumption
    | with_reducible apply Only.ite
    | with_reducible apply State.bump_only (le := or_le rfl le)
    | with_reducible apply State.setDieSt_only (le := or_le rfl le)
    | with_reducible apply State.setReg_only (le := or_le rfl le)
    | (dsimp only [Only.mk_eq]; with_reducible apply OnlyParts.flt (c := testBit_ge le rfl); with_reducible apply Only.parts)
    | split
    | dsimp only
    | assumption

/-- It can touch flt, upd. -/
theorem State.notAgreed_only {M : Nat} {s0 : State} (s : State) (d : Die) (h_s : Only M s0 s) (le : 0x80010 ||| M = M) : Only M s0 (State.notAgreed s d) := by
  unfold State.notAgreed
  repeat' first
    | with_reducible assumption
    | with_reducible apply Only.ite
    | (dsimp only [Only.mk_eq]; with_reducible apply OnlyParts.flt (c := testBit_ge le rfl); with_reducible apply OnlyParts.upd (c := testBit_ge le rfl); with_reducible apply Only.parts)
    | split
    | dsimp only
    | assumption

end Sys2Proof.Machine
end

