-- ==== Sys2Proof/Laws/OnlyTickOps.lean ====
section
/-! SUPPORT. Which fields the operations of Machine/TickOps.lean can touch. -/

set_option linter.unusedTactic false
set_option linter.unreachableTactic false
set_option linter.unusedVariables false

namespace Sys2Proof.Machine

/-- It can touch modes, pow, flt, leases, a, b, fd, regs, br, crc, otp, st, upd, freeCtr. -/
theorem State.swapLanes_only {M : Nat} {s0 : State} (s : State) (d : Die) (h_s : Only M s0 s) (le : 0x10cabf6 ||| M = M) : Only M s0 (State.swapLanes s d) := by
  unfold State.swapLanes
  repeat' first
    | with_reducible assumption
    | intro _
    | with_reducible apply Only.ite
    | with_reducible apply State.latchStanding_only (le := or_le rfl le)
    | with_reducible apply State.updDie_only (le := or_le rfl le)
    | with_reducible apply Only.foldl
    | (dsimp only [Only.mk_eq]; with_reducible apply OnlyParts.st (c := testBit_ge le rfl); with_reducible apply Only.parts)
    | split
    | dsimp only
    | assumption

/-- It can touch st. -/
theorem State.newRound_only {M : Nat} {s0 : State} (s : State) (h_s : Only M s0 s) (le : 0x40000 ||| M = M) : Only M s0 (State.newRound s) := by
  unfold State.newRound
  repeat' first
    | with_reducible assumption
    | intro _
    | (dsimp only [Only.mk_eq]; with_reducible apply OnlyParts.st (c := testBit_ge le rfl); with_reducible apply Only.parts)
    | dsimp only
    | assumption

/-- It can touch st. -/
theorem State.grantToken_only {M : Nat} {s0 : State} (s : State) (h_s : Only M s0 s) (le : 0x40000 ||| M = M) : Only M s0 (State.grantToken s) := by
  unfold State.grantToken
  repeat' first
    | with_reducible assumption
    | with_reducible apply Only.ite
    | (dsimp only [Only.mk_eq]; with_reducible apply OnlyParts.st (c := testBit_ge le rfl); with_reducible apply Only.parts)
    | split
    | dsimp only
    | assumption

/-- It can touch a, b. -/
theorem State.rotate_only {M : Nat} {s0 : State} (s : State) (d : Die) (h_s : Only M s0 s) (le : 0xc0 ||| M = M) : Only M s0 (State.rotate s d) := by
  unfold State.rotate
  repeat' first
    | with_reducible assumption
    | intro _
    | with_reducible apply Only.ite
    | with_reducible apply State.updDie_only (le := or_le rfl le)
    | split
    | dsimp only
    | assumption

/-- It can touch st. -/
theorem State.swapRoles_only {M : Nat} {s0 : State} (s : State) (d : Die) (h_s : Only M s0 s) (le : 0x40000 ||| M = M) : Only M s0 (State.swapRoles s d) := by
  unfold State.swapRoles
  repeat' first
    | with_reducible assumption
    | intro _
    | with_reducible apply Only.foldl
    | (dsimp only [Only.mk_eq]; with_reducible apply OnlyParts.st (c := testBit_ge le rfl); with_reducible apply Only.parts)
    | dsimp only
    | assumption

/-- It can touch st. -/
theorem State.granStart_only {M : Nat} {s0 : State} (s : State) (d : Die) (n : Nat) (h_s : Only M s0 s) (le : 0x40000 ||| M = M) : Only M s0 (State.granStart s d n) := by
  unfold State.granStart
  repeat' first
    | with_reducible assumption
    | with_reducible apply Only.ite
    | (dsimp only [Only.mk_eq]; with_reducible apply OnlyParts.st (c := testBit_ge le rfl); with_reducible apply Only.parts)
    | split
    | dsimp only
    | assumption

/-- It can touch a, b, st. -/
theorem State.stTick_only {M : Nat} {s0 : State} (u : State) (d : Die) (h_u : Only M s0 u) (le : 0x400c0 ||| M = M) : Only M s0 (State.stTick u d) := by
  unfold State.stTick
  repeat' first
    | with_reducible assumption
    | with_reducible apply Only.ite
    | with_reducible apply State.grantToken_only (le := or_le rfl le)
    | with_reducible apply State.newRound_only (le := or_le rfl le)
    | with_reducible apply State.rotate_only (le := or_le rfl le)
    | with_reducible apply State.swapRoles_only (le := or_le rfl le)
    | (dsimp only [Only.mk_eq]; with_reducible apply OnlyParts.st (c := testBit_ge le rfl); with_reducible apply Only.parts)
    | split
    | dsimp only
    | assumption

/-- It can touch regs, tst. -/
theorem State.ptTick_only {M : Nat} {s0 : State} (s : State) (n : Nat) (h_s : Only M s0 s) (le : 0x100200 ||| M = M) : Only M s0 (State.ptTick s n) := by
  unfold State.ptTick
  repeat' first
    | with_reducible assumption
    | with_reducible apply Only.ite
    | with_reducible apply State.bump_only (le := or_le rfl le)
    | (dsimp only [Only.mk_eq]; with_reducible apply OnlyParts.tst (c := testBit_ge le rfl); with_reducible apply Only.parts)
    | split
    | dsimp only
    | assumption

/-- It can touch tst. -/
theorem State.ptAgain_only {M : Nat} {s0 : State} (s : State) (h_s : Only M s0 s) (le : 0x100000 ||| M = M) : Only M s0 (State.ptAgain s) := by
  unfold State.ptAgain
  repeat' first
    | with_reducible assumption
    | (dsimp only [Only.mk_eq]; with_reducible apply OnlyParts.tst (c := testBit_ge le rfl); with_reducible apply Only.parts)
    | dsimp only
    | assumption

end Sys2Proof.Machine
end

