-- ==== Sys2Proof/Laws/OnlySpan.lean ====
section
/-! SUPPORT. Which fields the operations of Machine/Span.lean can touch. -/

set_option linter.unusedTactic false
set_option linter.unreachableTactic false
set_option linter.unusedVariables false

namespace Sys2Proof.Machine

/-- It can touch a, b, regs. -/
theorem State.capOvr_only {M : Nat} {s0 : State} (d : Die) (s : State) (n : Nat) (h_s : Only M s0 s) (le : 0x2c0 ||| M = M) : Only M s0 (State.capOvr d s n) := by
  unfold State.capOvr
  repeat' first
    | with_reducible assumption
    | intro _
    | with_reducible apply Only.ite
    | with_reducible apply State.bump_only (le := or_le rfl le)
    | with_reducible apply State.setReg_only (le := or_le rfl le)
    | with_reducible apply State.updDie_only (le := or_le rfl le)
    | split
    | dsimp only
    | assumption

/-- It can touch a, b, regs. -/
theorem State.edgeWins_only {M : Nat} {s0 : State} (d : Die) (s : State) (n : Nat) (h_s : Only M s0 s) (le : 0x2c0 ||| M = M) : Only M s0 (State.edgeWins d s n) := by
  unfold State.edgeWins
  repeat' first
    | with_reducible assumption
    | intro _
    | with_reducible apply Only.ite
    | with_reducible apply State.bumpOnce_only (le := or_le rfl le)
    | with_reducible apply State.setDie_only (le := or_le rfl le)
    | split
    | dsimp only
    | assumption

/-- It can touch a, b, regs. -/
theorem State.readPairs_only {M : Nat} {s0 : State} (s : State) (d : Die) (ns : List Nat) (h_s : Only M s0 s) (le : 0x2c0 ||| M = M) : Only M s0 (State.readPairs s d ns) := by
  unfold State.readPairs
  repeat' first
    | with_reducible assumption
    | intro _
    | with_reducible apply State.capOvr_only (le := or_le rfl le)
    | with_reducible apply State.edgeWins_only (le := or_le rfl le)
    | with_reducible apply State.setDie_only (le := or_le rfl le)
    | with_reducible apply Only.foldl
    | dsimp only
    | assumption

/-- It can touch a, b, regs. -/
theorem State.jrnFlush_only {M : Nat} {s0 : State} (s : State) (d : Die) (h_s : Only M s0 s) (le : 0x2c0 ||| M = M) : Only M s0 (State.jrnFlush s d) := by
  unfold State.jrnFlush
  repeat' first
    | with_reducible assumption
    | with_reducible apply Only.ite
    | with_reducible apply State.jrnStop_only (le := or_le rfl le)
    | with_reducible apply State.setDie_only (le := or_le rfl le)
    | split
    | dsimp only
    | assumption

/-- It can touch modes, pow, flt, leases, a, b, fd, regs, br, rings, crc, tmr, otp, st, upd, tst, freeCtr. -/
theorem doTick_only {M : Nat} {s0 : State} (d : Die) (meas : Nat) (s : State) (h_s : Only M s0 s) (le : 0x11cfbf6 ||| M = M) : Only M s0 (doTick d meas s) := by
  unfold doTick
  repeat' first
    | with_reducible assumption
    | intro _
    | with_reducible apply Only.ite
    | with_reducible apply State.jrnFlush_only (le := or_le rfl le)
    | with_reducible apply State.latch_only (le := or_le rfl le)
    | with_reducible apply State.ptTick_only (le := or_le rfl le)
    | with_reducible apply State.readPairs_only (le := or_le rfl le)
    | with_reducible apply State.stTick_only (le := or_le rfl le)
    | with_reducible apply State.swapLanes_only (le := or_le rfl le)
    | with_reducible apply State.timerEdge_only (le := or_le rfl le)
    | with_reducible apply State.updDie_only (le := or_le rfl le)
    | (dsimp only [Only.mk_eq]; with_reducible apply OnlyParts.flt (c := testBit_ge le rfl); with_reducible apply OnlyParts.st (c := testBit_ge le rfl); with_reducible apply Only.parts)
    | split
    | dsimp only
    | assumption

/-- It can touch modes, pow, flt, leases, a, b, fd, regs, br, crc, otp, st, upd, freeCtr. -/
theorem State.missingImages_only {M : Nat} {s0 : State} (s : State) (d : Die) (h_s : Only M s0 s) (le : 0x10cabf6 ||| M = M) : Only M s0 (State.missingImages s d) := by
  unfold State.missingImages
  repeat' first
    | with_reducible assumption
    | intro _
    | with_reducible apply Only.ite
    | with_reducible apply State.latchReset_only (le := or_le rfl le)
    | with_reducible apply State.updDie_only (le := or_le rfl le)
    | exact fun _ h => h
    | with_reducible apply Only.foldl
    | split
    | dsimp only
    | assumption

/-- It can touch regs. -/
theorem State.axisCounts_only {M : Nat} {s0 : State} (p : Pattern) (d : Die) (old : Tab PosHist) (s : State) (r : AxisRec) (h_s : Only M s0 s) (le : 0x200 ||| M = M) : Only M s0 (State.axisCounts p d old s r) := by
  unfold State.axisCounts
  repeat' first
    | with_reducible assumption
    | intro _
    | with_reducible apply Only.ite
    | with_reducible apply State.setReg_only (le := or_le rfl le)
    | split
    | dsimp only
    | assumption

/-- It can touch regs. -/
theorem State.streamCounts_only {M : Nat} {s0 : State} (p : Pattern) (d : Die) (s : State) (x : ConnRec × Nat) (h_s : Only M s0 s) (le : 0x200 ||| M = M) : Only M s0 (State.streamCounts p d s x) := by
  unfold State.streamCounts
  repeat' first
    | with_reducible assumption
    | intro _
    | with_reducible apply Only.ite
    | with_reducible apply State.bump_only (le := or_le rfl le)
    | with_reducible apply Only.foldl
    | with_reducible apply Only.foldlSnd
    | split
    | dsimp only
    | assumption

/-- It can touch a, b, regs. -/
theorem State.positions_only {M : Nat} {s0 : State} (s : State) (d : Die) (p : Pattern) (h_s : Only M s0 s) (le : 0x2c0 ||| M = M) : Only M s0 (State.positions s d p) := by
  unfold State.positions
  repeat' first
    | with_reducible assumption
    | intro _
    | with_reducible apply State.axisCounts_only (le := or_le rfl le)
    | with_reducible apply State.streamCounts_only (le := or_le rfl le)
    | with_reducible apply State.updDie_only (le := or_le rfl le)
    | with_reducible apply Only.foldl
    | dsimp only
    | assumption

/-- It can touch modes, pow, flt, leases, a, b, fd, regs, br, rings, crc, otp, st, upd, freeCtr. -/
theorem doPhaseAEnd_only {M : Nat} {s0 : State} (d : Die) (s : State) (h_s : Only M s0 s) (le : 0x10cbbf6 ||| M = M) : Only M s0 (doPhaseAEnd d s) := by
  unfold doPhaseAEnd
  repeat' first
    | with_reducible assumption
    | intro _
    | with_reducible apply Only.ite
    | with_reducible apply State.chanEnd_only (le := or_le rfl le)
    | with_reducible apply State.missingImages_only (le := or_le rfl le)
    | with_reducible apply State.pairAt_only (le := or_le rfl le)
    | with_reducible apply State.positions_only (le := or_le rfl le)
    | with_reducible apply State.startEval_only (le := or_le rfl le)
    | with_reducible apply State.updDie_only (le := or_le rfl le)
    | with_reducible apply Only.foldl
    | with_reducible apply Only.foldlSnd
    | split
    | dsimp only
    | assumption

/-- It can touch a, b. -/
theorem doPhaseEEnd_only {M : Nat} {s0 : State} (d : Die) (s : State) (h_s : Only M s0 s) (le : 0xc0 ||| M = M) : Only M s0 (doPhaseEEnd d s) := by
  unfold doPhaseEEnd
  repeat' first
    | with_reducible assumption
    | with_reducible apply Only.ite
    | with_reducible apply State.setDie_only (le := or_le rfl le)
    | split
    | dsimp only
    | assumption

end Sys2Proof.Machine
end

