-- ==== Sys2Proof/Laws/OnlyOdView.lean ====
section
/-! SUPPORT. Which fields the operations of Machine/OdView.lean can touch. -/

set_option linter.unusedTactic false
set_option linter.unreachableTactic false
set_option linter.unusedVariables false

namespace Sys2Proof.Machine

/-- It can touch br. -/
theorem State.updSeat_only {M : Nat} {s0 : State} (s : State) (k : Nat) (f : Seat → Seat) (h_s : Only M s0 s) (le : 0x800 ||| M = M) : Only M s0 (State.updSeat s k f) := by
  unfold State.updSeat
  repeat' first
    | with_reducible assumption
    | intro _
    | (dsimp only [Only.mk_eq]; with_reducible apply OnlyParts.br (c := testBit_ge le rfl); with_reducible apply Only.parts)
    | dsimp only
    | assumption

end Sys2Proof.Machine
end

