-- ==== Sys2Proof/Laws/OnlyCommit.lean ====
section
/-! SUPPORT. Which fields the operations of Machine/Commit.lean can touch. -/

set_option linter.unusedTactic false
set_option linter.unreachableTactic false
set_option linter.unusedVariables false

namespace Sys2Proof.Machine

/-- It can touch regs. -/
theorem State.addOnce_only {M : Nat} {s0 : State} (s : State) (d : Die) (n idx sub : Nat) (h_s : Only M s0 s) (le : 0x200 ||| M = M) : Only M s0 (State.addOnce s d n idx sub) := by
  unfold State.addOnce
  repeat' first
    | with_reducible assumption
    | with_reducible apply Only.ite
    | with_reducible apply State.setReg_only (le := or_le rfl le)
    | split
    | dsimp only
    | assumption

/-- It can touch regs. -/
theorem State.setOnce_only {M : Nat} {s0 : State} (s : State) (d : Die) (idx sub v : Nat) (h_s : Only M s0 s) (le : 0x200 ||| M = M) : Only M s0 (State.setOnce s d idx sub v) := by
  unfold State.setOnce
  repeat' first
    | with_reducible assumption
    | with_reducible apply Only.ite
    | with_reducible apply State.setReg_only (le := or_le rfl le)
    | split
    | dsimp only
    | assumption

/-- It can touch modes, a, b, regs. -/
theorem State.commitEv_only {M : Nat} {s0 : State} (p : Pattern) (d : Die) (s : State) (x : Nat × BEv) (h_s : Only M s0 s) (le : 0x2c2 ||| M = M) : Only M s0 (State.commitEv p d s x) := by
  unfold State.commitEv
  repeat' first
    | with_reducible assumption
    | intro _
    | with_reducible apply Only.ite
    | with_reducible apply State.addOnce_only (le := or_le rfl le)
    | with_reducible apply State.event_only (le := or_le rfl le)
    | with_reducible apply State.setOnce_only (le := or_le rfl le)
    | with_reducible apply State.updDie_only (le := or_le rfl le)
    | exact fun _ h => h
    | (dsimp only [Only.mk_eq]; with_reducible apply OnlyParts.modesKeep (c := testBit_ge le rfl); with_reducible apply Only.parts <;> try with_reducible rfl)
    | split
    | dsimp only
    | assumption

/-- It can touch modes, a, b, regs. -/
theorem State.zoneMove_only {M : Nat} {s0 : State} (p : Pattern) (d : Die) (old new : Img) (s : State) (z : ZoneRec) (h_s : Only M s0 s) (le : 0x2c2 ||| M = M) : Only M s0 (State.zoneMove p d old new s z) := by
  unfold State.zoneMove
  repeat' first
    | with_reducible assumption
    | with_reducible apply Only.ite
    | with_reducible apply State.event_only (le := or_le rfl le)
    | (dsimp only [Only.mk_eq]; with_reducible apply OnlyParts.modesKeep (c := testBit_ge le rfl); with_reducible apply Only.parts <;> try with_reducible rfl)
    | split
    | dsimp only
    | assumption

/-- It can touch regs. -/
theorem State.reinDev_only {M : Nat} {s0 : State} (tspan g : Nat) (ref : Member) (s : State) (x : (Follower × Member) × Nat) (h_s : Only M s0 s) (le : 0x200 ||| M = M) : Only M s0 (State.reinDev tspan g ref s x) := by
  unfold State.reinDev
  repeat' first
    | with_reducible assumption
    | with_reducible apply Only.ite
    | with_reducible apply State.setReg_only (le := or_le rfl le)
    | split
    | dsimp only
    | assumption

/-- It can touch regs, rings, pat. -/
theorem State.reinCommit_only {M : Nat} {s0 : State} (p : Pattern) (d : Die) (e : EvalEnv) (m : Img) (s : State) (y : Inst × Nat) (h_s : Only M s0 s) (le : 0x201200 ||| M = M) : Only M s0 (State.reinCommit p d e m s y) := by
  unfold State.reinCommit
  repeat' first
    | with_reducible assumption
    | intro _
    | with_reducible apply Only.ite
    | with_reducible apply State.dcplChange_only (le := or_le rfl le)
    | with_reducible apply State.reinDev_only (le := or_le rfl le)
    | with_reducible apply State.setReg_only (le := or_le rfl le)
    | with_reducible apply Only.foldl
    | with_reducible apply Only.foldlSnd
    | split
    | dsimp only
    | assumption

/-- It can touch a, b, regs. -/
theorem State.connCommit_only {M : Nat} {s0 : State} (p : Pattern) (d : Die) (old new : Img) (s : State) (x : Inst × Nat) (h_s : Only M s0 s) (le : 0x2c0 ||| M = M) : Only M s0 (State.connCommit p d old new s x) := by
  unfold State.connCommit
  repeat' first
    | with_reducible assumption
    | intro _
    | with_reducible apply Only.ite
    | with_reducible apply State.addOnce_only (le := or_le rfl le)
    | with_reducible apply State.setDie_only (le := or_le rfl le)
    | split
    | dsimp only
    | assumption

/-- It can touch regs. -/
theorem State.stdoutCommit_only {M : Nat} {s0 : State} (p : Pattern) (d : Die) (e : EvalEnv) (s : State) (x : Inst × Nat) (h_s : Only M s0 s) (le : 0x200 ||| M = M) : Only M s0 (State.stdoutCommit p d e s x) := by
  unfold State.stdoutCommit
  repeat' first
    | with_reducible assumption
    | intro _
    | with_reducible apply Only.ite
    | with_reducible apply State.setReg_only (le := or_le rfl le)
    | with_reducible apply Only.foldl
    | split
    | dsimp only
    | assumption

/-- It can touch a, b, regs. -/
theorem State.unitEvents_only {M : Nat} {s0 : State} (s : State) (d : Die) (l : List (Nat × Nat)) (kind : Nat) (h_s : Only M s0 s) (le : 0x2c0 ||| M = M) : Only M s0 (State.unitEvents s d l kind) := by
  unfold State.unitEvents
  repeat' first
    | with_reducible assumption
    | intro _
    | with_reducible apply State.event_only (le := or_le rfl le)
    | with_reducible apply Only.foldl
    | with_reducible apply Only.foldlSnd
    | dsimp only
    | assumption

/-- It can touch a, b, regs. -/
theorem State.mirror_only {M : Nat} {s0 : State} (s : State) (d : Die) (p : Pattern) (h_s : Only M s0 s) (le : 0x2c0 ||| M = M) : Only M s0 (State.mirror s d p) := by
  unfold State.mirror
  repeat' first
    | with_reducible assumption
    | intro _
    | with_reducible apply Only.ite
    | with_reducible apply State.addOnce_only (le := or_le rfl le)
    | with_reducible apply State.setDie_only (le := or_le rfl le)
    | with_reducible apply State.unitEvents_only (le := or_le rfl le)
    | split
    | dsimp only
    | assumption

/-- It can touch br. -/
theorem State.subCommit_only {M : Nat} {s0 : State} (s : State) (h_s : Only M s0 s) (le : 0x800 ||| M = M) : Only M s0 (State.subCommit s) := by
  unfold State.subCommit
  repeat' first
    | with_reducible assumption
    | intro _
    | with_reducible apply Only.ite
    | (dsimp only [Only.mk_eq]; with_reducible apply OnlyParts.br (c := testBit_ge le rfl); with_reducible apply Only.parts)
    | split
    | dsimp only
    | assumption

/-- It can touch regs. -/
theorem State.escalC2_only {M : Nat} {s0 : State} (s : State) (d : Die) (p : Pattern) (old new : Img) (h_s : Only M s0 s) (le : 0x200 ||| M = M) : Only M s0 (State.escalC2 s d p old new) := by
  unfold State.escalC2
  repeat' first
    | with_reducible assumption
    | intro _
    | with_reducible apply Only.ite
    | with_reducible apply State.addOnce_only (le := or_le rfl le)
    | with_reducible apply Only.foldl
    | with_reducible apply Only.foldlSnd
    | split
    | dsimp only
    | assumption

/-- It can touch upd. -/
theorem State.handOver_only {M : Nat} {s0 : State} (s : State) (d : Die) (p : Pattern) (h_s : Only M s0 s) (le : 0x80000 ||| M = M) : Only M s0 (State.handOver s d p) := by
  unfold State.handOver
  repeat' first
    | with_reducible assumption
    | with_reducible apply Only.ite
    | (dsimp only [Only.mk_eq]; with_reducible apply OnlyParts.upd (c := testBit_ge le rfl); with_reducible apply Only.parts)
    | split
    | dsimp only
    | assumption

/-- It can touch modes, pow, flt, leases, a, b, fd, regs, br, rings, crc, otp, st, upd, pat, freeCtr. -/
theorem State.commitDie_only {M : Nat} {s0 : State} (s : State) (d : Die) (p : Pattern) (locks : List Nat) (h_s : Only M s0 s) (le : 0x12cbbf6 ||| M = M) : Only M s0 (State.commitDie s d p locks) := by
  unfold State.commitDie
  repeat' first
    | with_reducible assumption
    | intro _
    | with_reducible apply Only.ite
    | with_reducible apply State.addOnce_only (le := or_le rfl le)
    | with_reducible apply State.commitEv_only (le := or_le rfl le)
    | with_reducible apply State.connCommit_only (le := or_le rfl le)
    | with_reducible apply State.escalC2_only (le := or_le rfl le)
    | with_reducible apply State.handOver_only (le := or_le rfl le)
    | with_reducible apply State.jrnVars_only (le := or_le rfl le)
    | with_reducible apply State.laReboot_only (le := or_le rfl le)
    | with_reducible apply State.mirror_only (le := or_le rfl le)
    | with_reducible apply State.reinCommit_only (le := or_le rfl le)
    | with_reducible apply State.releaseAll_only (le := or_le rfl le)
    | with_reducible apply State.sendCmds_only (le := or_le rfl le)
    | with_reducible apply State.stdoutCommit_only (le := or_le rfl le)
    | with_reducible apply State.subCommit_only (le := or_le rfl le)
    | with_reducible apply State.updDie_only (le := or_le rfl le)
    | with_reducible apply State.zoneMove_only (le := or_le rfl le)
    | with_reducible apply Only.foldl
    | split
    | dsimp only
    | assumption

/-- It can touch modes, flt, a, b, regs, upd, mode. -/
theorem State.agreed_only {M : Nat} {s0 : State} (s : State) (d : Die) (h_s : Only M s0 s) (le : 0x80802d2 ||| M = M) : Only M s0 (State.agreed s d) := by
  unfold State.agreed
  repeat' first
    | with_reducible assumption
    | with_reducible apply Only.ite
    | with_reducible apply State.readmAgree_only (le := or_le rfl le)
    | with_reducible apply State.updAgree_only (le := or_le rfl le)
    | split
    | dsimp only
    | assumption

/-- It can touch modes, a, b, regs. -/
theorem State.lockCom_only {M : Nat} {s0 : State} (s : State) (d : Die) (p : Pattern) (locks : List Nat) (h_s : Only M s0 s) (le : 0x2c2 ||| M = M) : Only M s0 (State.lockCom s d p locks) := by
  unfold State.lockCom
  repeat' first
    | with_reducible assumption
    | intro _
    | with_reducible apply Only.ite
    | with_reducible apply State.escalC2_only (le := or_le rfl le)
    | with_reducible apply State.setDie_only (le := or_le rfl le)
    | with_reducible apply State.zoneMove_only (le := or_le rfl le)
    | with_reducible apply Only.foldl
    | split
    | dsimp only
    | assumption

/-- It can touch a, b. -/
theorem State.resend_only {M : Nat} {s0 : State} (s : State) (d : Die) (p : Pattern) (h_s : Only M s0 s) (le : 0xc0 ||| M = M) : Only M s0 (State.resend s d p) := by
  unfold State.resend
  repeat' first
    | with_reducible assumption
    | intro _
    | with_reducible apply Only.ite
    | with_reducible apply State.sendCmds_only (le := or_le rfl le)
    | with_reducible apply State.updDie_only (le := or_le rfl le)
    | with_reducible apply Only.foldl
    | split
    | dsimp only
    | assumption

/-- It can touch modes, pow, flt, leases, a, b, fd, regs, br, crc, otp, st, upd, freeCtr. -/
theorem State.overrun_only {M : Nat} {s0 : State} (s : State) (d : Die) (p : Pattern) (due : List Nat) (h_s : Only M s0 s) (le : 0x10cabf6 ||| M = M) : Only M s0 (State.overrun s d p due) := by
  unfold State.overrun
  repeat' first
    | with_reducible assumption
    | intro _
    | with_reducible apply Only.ite
    | with_reducible apply State.bump_only (le := or_le rfl le)
    | with_reducible apply State.latch_only (le := or_le rfl le)
    | with_reducible apply State.latch3_only (le := or_le rfl le)
    | with_reducible apply State.lockCom_only (le := or_le rfl le)
    | with_reducible apply State.notAgreed_only (le := or_le rfl le)
    | with_reducible apply State.resend_only (le := or_le rfl le)
    | with_reducible apply State.setDie_only (le := or_le rfl le)
    | (dsimp only [Only.mk_eq]; with_reducible apply OnlyParts.flt (c := testBit_ge le rfl); with_reducible apply Only.parts)
    | split
    | dsimp only
    | assumption

/-- It can touch modes, pow, flt, leases, a, b, fd, regs, br, crc, otp, st, upd, freeCtr. -/
theorem State.replayFail_only {M : Nat} {s0 : State} (s : State) (d : Die) (h_s : Only M s0 s) (le : 0x10cabf6 ||| M = M) : Only M s0 (State.replayFail s d) := by
  unfold State.replayFail
  repeat' first
    | with_reducible assumption
    | with_reducible apply State.latch_only (le := or_le rfl le)
    | with_reducible apply State.notAgreed_only (le := or_le rfl le)
    | dsimp only
    | assumption

/-- It can touch modes, pow, flt, leases, a, b, fd, regs, br, crc, otp, st, upd, freeCtr. -/
theorem State.disagree_only {M : Nat} {s0 : State} (s : State) (d : Die) (p : Pattern) (due : List Nat) (h_s : Only M s0 s) (le : 0x10cabf6 ||| M = M) : Only M s0 (State.disagree s d p due) := by
  unfold State.disagree
  repeat' first
    | with_reducible assumption
    | intro _
    | with_reducible apply Only.ite
    | with_reducible apply State.addOnce_only (le := or_le rfl le)
    | with_reducible apply State.lockCom_only (le := or_le rfl le)
    | with_reducible apply State.replayFail_only (le := or_le rfl le)
    | with_reducible apply State.resend_only (le := or_le rfl le)
    | with_reducible apply State.updDie_only (le := or_le rfl le)
    | split
    | dsimp only
    | assumption

/-- It can touch modes, pow, flt, leases, a, b, fd, regs, br, rings, crc, otp, st, upd, pat, freeCtr, mode. -/
theorem State.judge_only {M : Nat} {s0 : State} (s : State) (d : Die) (p : Pattern) (due : List Nat) (h_s : Only M s0 s) (le : 0x92cbbf6 ||| M = M) : Only M s0 (State.judge s d p due) := by
  unfold State.judge
  repeat' first
    | with_reducible assumption
    | intro _
    | with_reducible apply Only.ite
    | with_reducible apply State.agreed_only (le := or_le rfl le)
    | with_reducible apply State.commitDie_only (le := or_le rfl le)
    | with_reducible apply State.disagree_only (le := or_le rfl le)
    | with_reducible apply State.lockCom_only (le := or_le rfl le)
    | with_reducible apply State.overrun_only (le := or_le rfl le)
    | with_reducible apply State.rejoinCommit_only (le := or_le rfl le)
    | with_reducible apply State.updDie_only (le := or_le rfl le)
    | split
    | dsimp only
    | assumption

/-- It can touch modes, a, b, regs. -/
theorem State.idleCommit_only {M : Nat} {s0 : State} (s : State) (d : Die) (due : List Nat) (h_s : Only M s0 s) (le : 0x2c2 ||| M = M) : Only M s0 (State.idleCommit s d due) := by
  unfold State.idleCommit
  repeat' first
    | with_reducible assumption
    | intro _
    | with_reducible apply Only.ite
    | with_reducible apply State.lockCom_only (le := or_le rfl le)
    | with_reducible apply State.sendCmds_only (le := or_le rfl le)
    | split
    | dsimp only
    | assumption

/-- It can touch modes, pow, flt, leases, a, b, fd, regs, br, rings, crc, otp, st, upd, pat, freeCtr, mode. -/
theorem doCommitPoint_only {M : Nat} {s0 : State} (d : Die) (s : State) (h_s : Only M s0 s) (le : 0x92cbbf6 ||| M = M) : Only M s0 (doCommitPoint d s) := by
  unfold doCommitPoint
  repeat' first
    | with_reducible assumption
    | intro _
    | with_reducible apply Only.ite
    | with_reducible apply State.granStart_only (le := or_le rfl le)
    | with_reducible apply State.idleCommit_only (le := or_le rfl le)
    | with_reducible apply State.judge_only (le := or_le rfl le)
    | with_reducible apply State.updDie_only (le := or_le rfl le)
    | (dsimp only [Only.mk_eq]; with_reducible apply OnlyParts.flt (c := testBit_ge le rfl); with_reducible apply OnlyParts.st (c := testBit_ge le rfl); with_reducible apply Only.parts)
    | split
    | dsimp only
    | assumption

/-- It can touch modes, pow, flt, leases, a, b, fd, regs, br, rings, crc, otp, st, upd, pat, freeCtr, mode. -/
theorem State.lateCommit_only {M : Nat} {s0 : State} (s : State) (d : Die) (p : Pattern) (h_s : Only M s0 s) (le : 0x92cbbf6 ||| M = M) : Only M s0 (State.lateCommit s d p) := by
  unfold State.lateCommit
  repeat' first
    | with_reducible assumption
    | intro _
    | with_reducible apply Only.ite
    | with_reducible apply State.addOnce_only (le := or_le rfl le)
    | with_reducible apply State.agreed_only (le := or_le rfl le)
    | with_reducible apply State.commitDie_only (le := or_le rfl le)
    | with_reducible apply State.event_only (le := or_le rfl le)
    | with_reducible apply State.sendReady_only (le := or_le rfl le)
    | with_reducible apply State.setReg_only (le := or_le rfl le)
    | with_reducible apply State.updDie_only (le := or_le rfl le)
    | split
    | dsimp only
    | assumption

/-- It can touch modes, pow, flt, leases, a, b, fd, regs, br, rings, crc, otp, st, upd, pat, freeCtr, mode. -/
theorem State.settleReplay_only {M : Nat} {s0 : State} (s : State) (d : Die) (h_s : Only M s0 s) (le : 0x92cbbf6 ||| M = M) : Only M s0 (State.settleReplay s d) := by
  unfold State.settleReplay
  repeat' first
    | with_reducible assumption
    | intro _
    | with_reducible apply Only.ite
    | with_reducible apply State.lateCommit_only (le := or_le rfl le)
    | with_reducible apply State.replayFail_only (le := or_le rfl le)
    | with_reducible apply State.updDie_only (le := or_le rfl le)
    | split
    | dsimp only
    | assumption

end Sys2Proof.Machine
end

