-- ==== Sys2Proof/Laws/OnlyClockOps.lean ====
section
/-! SUPPORT. Which fields the operations of Machine/ClockOps.lean can touch. -/

set_option linter.unusedTactic false
set_option linter.unreachableTactic false
set_option linter.unusedVariables false

namespace Sys2Proof.Machine

/-- It can touch pow, clk. -/
theorem State.regate_only {M : Nat} {s0 : State} (s : State) (h_s : Only M s0 s) (le : 0xc ||| M = M) : Only M s0 (State.regate s) := by
  unfold State.regate
  repeat' first
    | with_reducible assumption
    | with_reducible apply Only.ite
    | (dsimp only [Only.mk_eq]; with_reducible apply OnlyParts.pow (c := testBit_ge le rfl); with_reducible apply OnlyParts.clk (c := testBit_ge le rfl); with_reducible apply Only.parts)
    | split
    | dsimp only
    | assumption

/-- It can touch clk, regs. -/
theorem doCrystalFirstValidCycle_only {M : Nat} {s0 : State} (d : Die) (us : Nat) (s : State) (h_s : Only M s0 s) (le : 0x208 ||| M = M) : Only M s0 (doCrystalFirstValidCycle d us s) := by
  unfold doCrystalFirstValidCycle
  repeat' first
    | with_reducible assumption
    | with_reducible apply Only.ite
    | with_reducible apply State.setReg_only (le := or_le rfl le)
    | (dsimp only [Only.mk_eq]; with_reducible apply OnlyParts.clk (c := testBit_ge le rfl); with_reducible apply Only.parts)
    | split
    | dsimp only
    | assumption

/-- It can touch clk. -/
theorem doCrystalRelease_only {M : Nat} {s0 : State} (d : Die) (s : State) (h_s : Only M s0 s) (le : 0x8 ||| M = M) : Only M s0 (doCrystalRelease d s) := by
  unfold doCrystalRelease
  repeat' first
    | with_reducible assumption
    | with_reducible apply Only.ite
    | (dsimp only [Only.mk_eq]; with_reducible apply OnlyParts.clk (c := testBit_ge le rfl); with_reducible apply Only.parts)
    | split
    | dsimp only
    | assumption

/-- It can touch clk. -/
theorem doPllLock_only {M : Nat} {s0 : State} (p : Pll) (s : State) (h_s : Only M s0 s) (le : 0x8 ||| M = M) : Only M s0 (doPllLock p s) := by
  unfold doPllLock
  repeat' first
    | with_reducible assumption
    | intro _
    | with_reducible apply Only.ite
    | (dsimp only [Only.mk_eq]; with_reducible apply OnlyParts.clk (c := testBit_ge le rfl); with_reducible apply Only.parts)
    | split
    | dsimp only
    | assumption

/-- It can touch modes, pow, flt, leases, a, b, fd, regs, br, crc, otp, st, upd, freeCtr. -/
theorem State.resetMac_only {M : Nat} {s0 : State} (s : State) (d : Die) (h_s : Only M s0 s) (le : 0x10cabf6 ||| M = M) : Only M s0 (State.resetMac s d) := by
  unfold State.resetMac
  repeat' first
    | with_reducible assumption
    | intro _
    | with_reducible apply State.resetBlock_only (le := or_le rfl le)
    | with_reducible apply State.updDie_only (le := or_le rfl le)
    | dsimp only
    | assumption

/-- It can touch modes, pow, clk, flt, leases, a, b, fd, regs, br, crc, otp, st, upd, freeCtr. -/
theorem doStartRulePass_only {M : Nat} {s0 : State} (x : Src) (s : State) (h_s : Only M s0 s) (le : 0x10cabfe ||| M = M) : Only M s0 (doStartRulePass x s) := by
  unfold doStartRulePass
  repeat' first
    | with_reducible assumption
    | with_reducible apply Only.ite
    | with_reducible apply State.causeOff_only (le := or_le rfl le)
    | with_reducible apply State.fenceDie_only (le := or_le rfl le)
    | with_reducible apply State.resetMac_only (le := or_le rfl le)
    | with_reducible apply State.updDie_only (le := or_le rfl le)
    | (dsimp only [Only.mk_eq]; with_reducible apply OnlyParts.clk (c := testBit_ge le rfl); with_reducible apply Only.parts)
    | split
    | dsimp only
    | assumption

/-- It can touch modes, pow, clk, flt, leases, a, b, fd, regs, br, crc, otp, st, upd, freeCtr. -/
theorem doStartAttemptFail_only {M : Nat} {s0 : State} (x : Src) (s : State) (h_s : Only M s0 s) (le : 0x10cabfe ||| M = M) : Only M s0 (doStartAttemptFail x s) := by
  unfold doStartAttemptFail
  repeat' first
    | with_reducible assumption
    | with_reducible apply Only.ite
    | with_reducible apply State.latchStanding_only (le := or_le rfl le)
    | (dsimp only [Only.mk_eq]; with_reducible apply OnlyParts.clk (c := testBit_ge le rfl); with_reducible apply Only.parts)
    | split
    | dsimp only
    | assumption

/-- It can touch clk, regs. -/
theorem doOscRestart_only {M : Nat} {s0 : State} (x : Src) (s : State) (h_s : Only M s0 s) (le : 0x208 ||| M = M) : Only M s0 (doOscRestart x s) := by
  unfold doOscRestart
  repeat' first
    | with_reducible assumption
    | with_reducible apply Only.ite
    | with_reducible apply State.bump_only (le := or_le rfl le)
    | (dsimp only [Only.mk_eq]; with_reducible apply OnlyParts.clk (c := testBit_ge le rfl); with_reducible apply Only.parts)
    | split
    | dsimp only
    | assumption

/-- It can touch flt, a, b. -/
theorem State.stitchReset_only {M : Nat} {s0 : State} (s : State) (h_s : Only M s0 s) (le : 0xd0 ||| M = M) : Only M s0 (State.stitchReset s) := by
  unfold State.stitchReset
  repeat' first
    | with_reducible assumption
    | intro _
    | with_reducible apply Only.ite
    | with_reducible apply State.updDie_only (le := or_le rfl le)
    | (dsimp only [Only.mk_eq]; with_reducible apply OnlyParts.flt (c := testBit_ge le rfl); with_reducible apply Only.parts)
    | split
    | dsimp only
    | assumption

/-- It can touch pow, clk, flt, leases, a, b, regs, br, crc, otp, bkp, st, freeCtr. -/
theorem State.clockDown_only {M : Nat} {s0 : State} (s : State) (n : Nat) (d : Die) (h_s : Only M s0 s) (le : 0x105aafc ||| M = M) : Only M s0 (State.clockDown s n d) := by
  unfold State.clockDown
  repeat' first
    | with_reducible assumption
    | intro _
    | with_reducible apply Only.ite
    | with_reducible apply State.fenceM_only (le := or_le rfl le)
    | with_reducible apply State.stitchReset_only (le := or_le rfl le)
    | (dsimp only [Only.mk_eq]; with_reducible apply OnlyParts.clk (c := testBit_ge le rfl); with_reducible apply OnlyParts.flt (c := testBit_ge le rfl); with_reducible apply OnlyParts.bkp (c := testBit_ge le rfl); with_reducible apply OnlyParts.st (c := testBit_ge le rfl); with_reducible apply Only.parts)
    | split
    | dsimp only
    | assumption

/-- It can touch modes, pow, clk, flt, leases, a, b, fd, regs, br, crc, otp, bkp, st, upd, freeCtr. -/
theorem State.clockFailed_only {M : Nat} {s0 : State} (s : State) (n : Nat) (d : Die) (h_s : Only M s0 s) (le : 0x10dabfe ||| M = M) : Only M s0 (State.clockFailed s n d) := by
  unfold State.clockFailed
  repeat' first
    | with_reducible assumption
    | with_reducible apply Only.ite
    | with_reducible apply State.causeOn_only (le := or_le rfl le)
    | with_reducible apply State.clockDown_only (le := or_le rfl le)
    | with_reducible apply State.latch_only (le := or_le rfl le)
    | with_reducible apply State.tripNow_only (le := or_le rfl le)
    | with_reducible apply State.updDie_only (le := or_le rfl le)
    | (dsimp only [Only.mk_eq]; with_reducible apply OnlyParts.clk (c := testBit_ge le rfl); with_reducible apply Only.parts)
    | split
    | dsimp only
    | assumption

/-- It can touch modes, pow, clk, flt, leases, a, b, fd, regs, br, crc, otp, bkp, st, upd, freeCtr. -/
theorem doClockFail_only {M : Nat} {s0 : State} (dom : Fin 18) (d : Die) (s : State) (h_s : Only M s0 s) (le : 0x10dabfe ||| M = M) : Only M s0 (doClockFail dom d s) := by
  unfold doClockFail
  repeat' first
    | with_reducible assumption
    | with_reducible apply Only.ite
    | with_reducible apply State.clockFailed_only (le := or_le rfl le)
    | split
    | dsimp only
    | assumption

/-- It can touch clk. -/
theorem doClockSwitchComplete_only {M : Nat} {s0 : State} (x : ClkSw) (forced : Bool) (s : State) (h_s : Only M s0 s) (le : 0x8 ||| M = M) : Only M s0 (doClockSwitchComplete x forced s) := by
  unfold doClockSwitchComplete
  repeat' first
    | with_reducible assumption
    | with_reducible apply Only.ite
    | (dsimp only [Only.mk_eq]; with_reducible apply OnlyParts.clk (c := testBit_ge le rfl); with_reducible apply Only.parts)
    | split
    | dsimp only
    | assumption

/-- It can touch modes, pow, clk, flt, leases, a, b, fd, regs, br, crc, otp, bkp, st, upd, freeCtr. -/
theorem doPllUnlock_only {M : Nat} {s0 : State} (p : Pll) (s : State) (h_s : Only M s0 s) (le : 0x10dabfe ||| M = M) : Only M s0 (doPllUnlock p s) := by
  unfold doPllUnlock
  repeat' first
    | with_reducible assumption
    | intro _
    | with_reducible apply Only.ite
    | with_reducible apply State.clockFailed_only (le := or_le rfl le)
    | with_reducible apply State.jrnStop_only (le := or_le rfl le)
    | (dsimp only [Only.mk_eq]; with_reducible apply OnlyParts.clk (c := testBit_ge le rfl); with_reducible apply Only.parts)
    | split
    | dsimp only
    | assumption

end Sys2Proof.Machine
end

