-- ==== Sys2Proof/Laws/OnlyAccess.lean ====
section
/-! SUPPORT. Which fields the operations of Machine/Access.lean can touch. -/

set_option linter.unusedTactic false
set_option linter.unreachableTactic false
set_option linter.unusedVariables false

namespace Sys2Proof.Machine

/-- It can touch br. -/
theorem State.ans_only {M : Nat} {s0 : State} (s : State) (c : Status) (h_s : Only M s0 s) (le : 0x800 ||| M = M) : Only M s0 (State.ans s c) := by
  unfold State.ans
  repeat' first
    | with_reducible assumption
    | (dsimp only [Only.mk_eq]; with_reducible apply OnlyParts.br (c := testBit_ge le rfl); with_reducible apply Only.parts)
    | dsimp only
    | assumption

/-- It can touch br. -/
theorem State.reply_only {M : Nat} {s0 : State} (s : State) (bs : List Byte) (h_s : Only M s0 s) (le : 0x800 ||| M = M) : Only M s0 (State.reply s bs) := by
  unfold State.reply
  repeat' first
    | with_reducible assumption
    | (dsimp only [Only.mk_eq]; with_reducible apply OnlyParts.br (c := testBit_ge le rfl); with_reducible apply Only.parts)
    | dsimp only
    | assumption

/-- It can touch br. -/
theorem State.ansBusy_only {M : Nat} {s0 : State} (s : State) (n : Nat) (h_s : Only M s0 s) (le : 0x800 ||| M = M) : Only M s0 (State.ansBusy s n) := by
  unfold State.ansBusy
  repeat' first
    | with_reducible assumption
    | (dsimp only [Only.mk_eq]; with_reducible apply OnlyParts.br (c := testBit_ge le rfl); with_reducible apply Only.parts)
    | dsimp only
    | assumption

/-- It can touch br and what its argument can. -/
theorem State.write_only {M : Nat} {s0 : State} (s : State) (busy rights mode range : Bool) (f : State → State) (h_s : Only M s0 s) (k_f : ∀ t, Only M s0 t → Only M s0 (f t)) (le : 0x800 ||| M = M) : Only M s0 (State.write s busy rights mode range f) := by
  unfold State.write
  repeat' first
    | with_reducible assumption
    | intro _
    | with_reducible apply Only.ite
    | with_reducible apply State.ans_only (le := or_le rfl le)
    | with_reducible apply k_f
    | split
    | dsimp only
    | assumption

/-- It can touch leases, otp. -/
theorem State.otpNext_only {M : Nat} {s0 : State} (s : State) (h_s : Only M s0 s) (le : 0x8020 ||| M = M) : Only M s0 (State.otpNext s) := by
  unfold State.otpNext
  repeat' first
    | with_reducible assumption
    | with_reducible apply Only.ite
    | with_reducible apply State.leaseAsk_only (le := or_le rfl le)
    | (dsimp only [Only.mk_eq]; with_reducible apply OnlyParts.otp (c := testBit_ge le rfl); with_reducible apply Only.parts)
    | split
    | dsimp only
    | assumption

/-- It can touch leases, otp. -/
theorem State.otpWant_only {M : Nat} {s0 : State} (s : State) (l : List (Nat × Nat)) (h_s : Only M s0 s) (le : 0x8020 ||| M = M) : Only M s0 (State.otpWant s l) := by
  unfold State.otpWant
  repeat' first
    | with_reducible assumption
    | intro _
    | with_reducible apply State.otpNext_only (le := or_le rfl le)
    | (dsimp only [Only.mk_eq]; with_reducible apply OnlyParts.otp (c := testBit_ge le rfl); with_reducible apply Only.parts)
    | dsimp only
    | assumption

/-- It can touch keys. -/
theorem State.keyPend_only {M : Nat} {s0 : State} (s : State) (slot : Nat) (v : Bool) (h_s : Only M s0 s) (le : 0x20000 ||| M = M) : Only M s0 (State.keyPend s slot v) := by
  unfold State.keyPend
  repeat' first
    | with_reducible assumption
    | intro _
    | (dsimp only [Only.mk_eq]; with_reducible apply OnlyParts.keys (c := testBit_ge le rfl); with_reducible apply Only.parts)
    | dsimp only
    | assumption

/-- It can touch br, keys. -/
theorem State.keyPut_only {M : Nat} {s0 : State} (s : State) (slot typ : Nat) (key : List Byte) (h_s : Only M s0 s) (le : 0x20800 ||| M = M) : Only M s0 (State.keyPut s slot typ key) := by
  unfold State.keyPut
  repeat' first
    | with_reducible assumption
    | intro _
    | with_reducible apply Only.ite
    | with_reducible apply State.write_only (le := or_le rfl le)
    | (dsimp only [Only.mk_eq]; with_reducible apply OnlyParts.keys (c := testBit_ge le rfl); with_reducible apply Only.parts)
    | split
    | dsimp only
    | assumption

/-- It can touch br, keys. -/
theorem State.keyClear_only {M : Nat} {s0 : State} (s : State) (slot : Nat) (h_s : Only M s0 s) (le : 0x20800 ||| M = M) : Only M s0 (State.keyClear s slot) := by
  unfold State.keyClear
  repeat' first
    | with_reducible assumption
    | intro _
    | with_reducible apply Only.ite
    | with_reducible apply State.write_only (le := or_le rfl le)
    | (dsimp only [Only.mk_eq]; with_reducible apply OnlyParts.keys (c := testBit_ge le rfl); with_reducible apply Only.parts)
    | split
    | dsimp only
    | assumption

/-- It can touch a, b, br, keys, upd. -/
theorem State.keyEraseCommit_only {M : Nat} {s0 : State} (s : State) (slot : Nat) (h_s : Only M s0 s) (le : 0xa08c0 ||| M = M) : Only M s0 (State.keyEraseCommit s slot) := by
  unfold State.keyEraseCommit
  repeat' first
    | with_reducible assumption
    | intro _
    | with_reducible apply Only.ite
    | with_reducible apply State.keyClear_only (le := or_le rfl le)
    | with_reducible apply State.keyPend_only (le := or_le rfl le)
    | with_reducible apply State.updDie_only (le := or_le rfl le)
    | with_reducible apply Only.foldl
    | (dsimp only [Only.mk_eq]; with_reducible apply OnlyParts.br (c := testBit_ge le rfl); with_reducible apply OnlyParts.upd (c := testBit_ge le rfl); with_reducible apply Only.parts)
    | split
    | dsimp only
    | assumption

/-- It can touch a, b, br, keys, upd. -/
theorem State.lcAct_only {M : Nat} {s0 : State} (s : State) (target : Nat) (h_s : Only M s0 s) (le : 0xa08c0 ||| M = M) : Only M s0 (State.lcAct s target) := by
  unfold State.lcAct
  repeat' first
    | with_reducible assumption
    | intro _
    | with_reducible apply Only.ite
    | with_reducible apply State.keyEraseCommit_only (le := or_le rfl le)
    | with_reducible apply Only.foldl
    | split
    | dsimp only
    | assumption

/-- It can touch pat. -/
theorem State.lcLoad_only {M : Nat} {s0 : State} (s : State) (h_s : Only M s0 s) (le : 0x200000 ||| M = M) : Only M s0 (State.lcLoad s) := by
  unfold State.lcLoad
  repeat' first
    | with_reducible assumption
    | intro _
    | with_reducible apply Only.ite
    | (dsimp only [Only.mk_eq]; with_reducible apply OnlyParts.pat (c := testBit_ge le rfl); with_reducible apply Only.parts)
    | split
    | dsimp only
    | assumption

end Sys2Proof.Machine
end

