-- ==== Sys2Proof/Laws/OnlyCrcOps.lean ====
section
/-! SUPPORT. Which fields the operations of Machine/CrcOps.lean can touch. -/

set_option linter.unusedTactic false
set_option linter.unreachableTactic false
set_option linter.unusedVariables false

namespace Sys2Proof.Machine

/-- It can touch leases. -/
theorem State.crcLease_only {M : Nat} {s0 : State} (s : State) (k : Nat) (h_s : Only M s0 s) (le : 0x20 ||| M = M) : Only M s0 (State.crcLease s k).1 := by
  unfold State.crcLease
  repeat' first
    | with_reducible assumption
    | with_reducible apply Only.ite
    | with_reducible apply State.leaseAsk_only (le := or_le rfl le)
    | split
    | dsimp only
    | assumption

/-- It can touch leases, regs, crc. -/
theorem State.crcNext_only {M : Nat} {s0 : State} (s : State) (k : Nat) (h_s : Only M s0 s) (le : 0x2220 ||| M = M) : Only M s0 (State.crcNext s k) := by
  unfold State.crcNext
  repeat' first
    | with_reducible assumption
    | with_reducible apply Only.ite
    | with_reducible apply State.crcHalt_only (le := or_le rfl le)
    | with_reducible apply State.crcLease_only (le := or_le rfl le)
    | (dsimp only [Only.mk_eq]; with_reducible apply OnlyParts.crc (c := testBit_ge le rfl); with_reducible apply Only.parts)
    | split
    | dsimp only
    | assumption

/-- It can touch leases, regs, crc. -/
theorem State.leaseStart_only {M : Nat} {s0 : State} (s : State) (res : Nat) (h_s : Only M s0 s) (le : 0x2220 ||| M = M) : Only M s0 (State.leaseStart s res) := by
  unfold State.leaseStart
  repeat' first
    | with_reducible assumption
    | with_reducible apply Only.ite
    | with_reducible apply State.crcNext_only (le := or_le rfl le)
    | split
    | dsimp only
    | assumption

/-- It can touch leases, regs, crc. -/
theorem State.crcRest_only {M : Nat} {s0 : State} (s : State) (k : Nat) (h_s : Only M s0 s) (le : 0x2220 ||| M = M) : Only M s0 (State.crcRest s k) := by
  unfold State.crcRest
  repeat' first
    | with_reducible assumption
    | with_reducible apply Only.ite
    | with_reducible apply State.leaseEnd_only (le := or_le rfl le)
    | with_reducible apply State.leaseStart_only (le := or_le rfl le)
    | split
    | dsimp only
    | assumption

/-- It can touch leases, regs, crc. -/
theorem State.crcKick_only {M : Nat} {s0 : State} (s : State) (n : Nat) (h_s : Only M s0 s) (le : 0x2220 ||| M = M) : Only M s0 (State.crcKick s n) := by
  unfold State.crcKick
  repeat' first
    | with_reducible assumption
    | intro _
    | with_reducible apply Only.ite
    | with_reducible apply State.crcNext_only (le := or_le rfl le)
    | with_reducible apply Only.foldl
    | split
    | dsimp only
    | assumption

/-- It can touch regs, crc, freeCtr. -/
theorem State.crcFeedDesc_only {M : Nat} {s0 : State} (s : State) (k : Nat) (b : List Byte) (h_s : Only M s0 s) (le : 0x1002200 ||| M = M) : Only M s0 (State.crcFeedDesc s k b) := by
  unfold State.crcFeedDesc
  repeat' first
    | with_reducible assumption
    | with_reducible apply Only.ite
    | with_reducible apply State.free_only (le := or_le rfl le)
    | with_reducible apply State.setReg_only (le := or_le rfl le)
    | (dsimp only [Only.mk_eq]; with_reducible apply OnlyParts.crc (c := testBit_ge le rfl); with_reducible apply Only.parts)
    | split
    | dsimp only
    | assumption

end Sys2Proof.Machine
end

