-- ==== Sys2Proof/Laws/OnlyModes.lean ====
section
/-! SUPPORT. Which fields the operations of Machine/Modes.lean can touch. -/

set_option linter.unusedTactic false
set_option linter.unreachableTactic false
set_option linter.unusedVariables false

namespace Sys2Proof.Machine

/-- It can touch fd. -/
theorem State.openConf_only {M : Nat} {s0 : State} (s : State) (on : Bool) (h_s : Only M s0 s) (le : 0x100 ||| M = M) : Only M s0 (State.openConf s on) := by
  unfold State.openConf
  repeat' first
    | with_reducible assumption
    | intro _
    | with_reducible apply Only.foldl
    | (dsimp only [Only.mk_eq]; with_reducible apply OnlyParts.fd (c := testBit_ge le rfl); with_reducible apply Only.parts)
    | dsimp only
    | assumption

/-- It can touch pow. -/
theorem State.pwrDomains_only {M : Nat} {s0 : State} (s : State) (h_s : Only M s0 s) (le : 0x4 ||| M = M) : Only M s0 (State.pwrDomains s) := by
  unfold State.pwrDomains
  repeat' first
    | with_reducible assumption
    | with_reducible apply Only.ite
    | (dsimp only [Only.mk_eq]; with_reducible apply OnlyParts.pow (c := testBit_ge le rfl); with_reducible apply Only.parts)
    | split
    | dsimp only
    | assumption

/-- It can touch modes, pow, clk, a, b, fd, regs, tst, mode. -/
theorem State.toMode_only {M : Nat} {s0 : State} (s : State) (m : Mode) (h_s : Only M s0 s) (le : 0x81003ce ||| M = M) : Only M s0 (State.toMode s m) := by
  unfold State.toMode
  repeat' first
    | with_reducible assumption
    | with_reducible apply Only.ite
    | with_reducible apply State.event2_only (le := or_le rfl le)
    | with_reducible apply State.openConf_only (le := or_le rfl le)
    | with_reducible apply State.pwrDomains_only (le := or_le rfl le)
    | with_reducible apply State.regate_only (le := or_le rfl le)
    | with_reducible apply State.setReg_only (le := or_le rfl le)
    | (dsimp only [Only.mk_eq]; with_reducible apply OnlyParts.modes (c := testBit_ge le rfl) (c2 := testBit_ge le rfl); with_reducible apply OnlyParts.tst (c := testBit_ge le rfl); with_reducible apply Only.parts)
    | split
    | dsimp only
    | assumption

/-- It can touch a, b. -/
theorem State.startDie_only {M : Nat} {s0 : State} (s : State) (p : Pattern) (locked : Nat → Bool) (d : Die) (h_s : Only M s0 s) (le : 0xc0 ||| M = M) : Only M s0 (State.startDie s p locked d) := by
  unfold State.startDie
  repeat' first
    | with_reducible assumption
    | intro _
    | with_reducible apply Only.ite
    | with_reducible apply State.setDie_only (le := or_le rfl le)
    | with_reducible apply Only.foldl
    | with_reducible apply Only.foldlSnd
    | split
    | dsimp only
    | assumption

/-- It can touch a, b, rings, pat, stdin, remote. -/
theorem State.startBoth_only {M : Nat} {s0 : State} (s : State) (p : Pattern) (locked : Nat → Bool) (h_s : Only M s0 s) (le : 0xe010c0 ||| M = M) : Only M s0 (State.startBoth s p locked) := by
  unfold State.startBoth
  repeat' first
    | with_reducible assumption
    | intro _
    | with_reducible apply Only.ite
    | with_reducible apply State.ringsFor_only (le := or_le rfl le)
    | with_reducible apply State.startDie_only (le := or_le rfl le)
    | (dsimp only [Only.mk_eq]; with_reducible apply OnlyParts.pat (c := testBit_ge le rfl); with_reducible apply OnlyParts.stdin (c := testBit_ge le rfl); with_reducible apply OnlyParts.remote (c := testBit_ge le rfl); with_reducible apply Only.parts)
    | split
    | dsimp only
    | assumption

/-- It can touch modes. -/
theorem State.lockoutAll_only {M : Nat} {s0 : State} (s : State) (h_s : Only M s0 s) (le : 0x2 ||| M = M) : Only M s0 (State.lockoutAll s) := by
  unfold State.lockoutAll
  repeat' first
    | with_reducible assumption
    | intro _
    | with_reducible apply Only.foldl
    | (dsimp only [Only.mk_eq]; with_reducible apply OnlyParts.modesKeep (c := testBit_ge le rfl); with_reducible apply Only.parts <;> try with_reducible rfl)
    | dsimp only
    | assumption

/-- It can touch modes, a, b, regs. -/
theorem State.lockBoth_only {M : Nat} {s0 : State} (s : State) (h_s : Only M s0 s) (le : 0x2c2 ||| M = M) : Only M s0 (State.lockBoth s) := by
  unfold State.lockBoth
  repeat' first
    | with_reducible assumption
    | with_reducible apply State.lockCom_only (le := or_le rfl le)
    | split
    | dsimp only
    | assumption

/-- It can touch modes, pow, clk, a, b, fd, regs, rings, tst, pat, stdin, remote, mode. -/
theorem State.enterSafe_only {M : Nat} {s0 : State} (s : State) (h_s : Only M s0 s) (le : 0x8f013ce ||| M = M) : Only M s0 (State.enterSafe s) := by
  unfold State.enterSafe
  repeat' first
    | with_reducible assumption
    | intro _
    | with_reducible apply Only.ite
    | with_reducible apply State.lockBoth_only (le := or_le rfl le)
    | with_reducible apply State.lockoutAll_only (le := or_le rfl le)
    | with_reducible apply State.startBoth_only (le := or_le rfl le)
    | with_reducible apply State.toMode_only (le := or_le rfl le)
    | (dsimp only [Only.mk_eq]; with_reducible apply OnlyParts.modesKeep (c := testBit_ge le rfl); with_reducible apply Only.parts <;> try with_reducible rfl)
    | split
    | dsimp only
    | assumption

/-- It can touch fd, regs. -/
theorem State.writeMode_only {M : Nat} {s0 : State} (d : Die) (n mode : Nat) (s : State) (h_s : Only M s0 s) (le : 0x300 ||| M = M) : Only M s0 (State.writeMode d n mode s) := by
  unfold State.writeMode
  repeat' first
    | with_reducible assumption
    | intro _
    | with_reducible apply Only.ite
    | with_reducible apply State.setReg_only (le := or_le rfl le)
    | with_reducible apply State.updF_only (le := or_le rfl le)
    | split
    | dsimp only
    | assumption

/-- It can touch modes, pow, flt, leases, a, b, fd, regs, br, crc, otp, st, upd, freeCtr. -/
theorem State.fCause_only {M : Nat} {s0 : State} (s : State) (f i : Nat) (on : Bool) (h_s : Only M s0 s) (le : 0x10cabf6 ||| M = M) : Only M s0 (State.fCause s f i on) := by
  unfold State.fCause
  repeat' first
    | with_reducible assumption
    | intro _
    | with_reducible apply Only.ite
    | with_reducible apply State.causeOff_only (le := or_le rfl le)
    | with_reducible apply State.latchStanding_only (le := or_le rfl le)
    | with_reducible apply State.updF_only (le := or_le rfl le)
    | split
    | dsimp only
    | assumption

/-- It can touch modes, pow, flt, leases, a, b, fd, regs, br, crc, otp, st, upd, freeCtr. -/
theorem State.modesWritten_only {M : Nat} {s0 : State} (s : State) (f : Nat) (h_s : Only M s0 s) (le : 0x10cabf6 ||| M = M) : Only M s0 (State.modesWritten s f) := by
  unfold State.modesWritten
  repeat' first
    | with_reducible assumption
    | with_reducible apply Only.ite
    | with_reducible apply State.fCause_only (le := or_le rfl le)
    | split
    | dsimp only
    | assumption

/-- It can touch modes, pow, flt, leases, a, b, fd, regs, br, crc, otp, st, upd, freeCtr. -/
theorem State.writeModes_only {M : Nat} {s0 : State} (s : State) (p : Pattern) (h_s : Only M s0 s) (le : 0x10cabf6 ||| M = M) : Only M s0 (State.writeModes s p) := by
  unfold State.writeModes
  repeat' first
    | with_reducible assumption
    | intro _
    | with_reducible apply Only.ite
    | with_reducible apply State.modesWritten_only (le := or_le rfl le)
    | with_reducible apply State.writeMode_only (le := or_le rfl le)
    | with_reducible apply Only.foldl
    | split
    | dsimp only
    | assumption

/-- It can touch modes, pow, flt, leases, a, b, fd, regs, br, crc, otp, st, upd, freeCtr. -/
theorem Pattern.noModes_only {M : Nat} {s0 : State} (p : Option Pattern) (s : State) (h_s : Only M s0 s) (le : 0x10cabf6 ||| M = M) : Only M s0 (Pattern.noModes p s) := by
  unfold Pattern.noModes
  repeat' first
    | with_reducible assumption
    | with_reducible apply State.writeModes_only (le := or_le rfl le)
    | split
    | dsimp only
    | assumption

/-- It can touch modes, pow, flt, leases, a, b, fd, regs, br, crc, otp, st, upd, freeCtr. -/
theorem State.rewrite_only {M : Nat} {s0 : State} (s : State) (code : Nat) (h_s : Only M s0 s) (le : 0x10cabf6 ||| M = M) : Only M s0 (State.rewrite s code) := by
  unfold State.rewrite
  repeat' first
    | with_reducible assumption
    | with_reducible apply Only.ite
    | with_reducible apply Pattern.noModes_only (le := or_le rfl le)
    | split
    | dsimp only
    | assumption

/-- It can touch modes, br. -/
theorem State.modeReq_only {M : Nat} {s0 : State} (s : State) (seat code : Nat) (h_s : Only M s0 s) (le : 0x802 ||| M = M) : Only M s0 (State.modeReq s seat code) := by
  unfold State.modeReq
  repeat' first
    | with_reducible assumption
    | intro _
    | with_reducible apply State.write_only (le := or_le rfl le)
    | (dsimp only [Only.mk_eq]; with_reducible apply OnlyParts.modesKeep (c := testBit_ge le rfl); with_reducible apply Only.parts <;> try with_reducible rfl)
    | dsimp only
    | assumption

/-- It can touch modes, br. -/
theorem doModeReqConfigure_only {M : Nat} {s0 : State} (seat : Fin 8) (s : State) (h_s : Only M s0 s) (le : 0x802 ||| M = M) : Only M s0 (doModeReqConfigure seat s) := by
  unfold doModeReqConfigure
  repeat' first
    | with_reducible assumption
    | with_reducible apply State.modeReq_only (le := or_le rfl le)
    | dsimp only
    | assumption

/-- It can touch modes, br. -/
theorem doModeReqRun_only {M : Nat} {s0 : State} (seat : Fin 8) (s : State) (h_s : Only M s0 s) (le : 0x802 ||| M = M) : Only M s0 (doModeReqRun seat s) := by
  unfold doModeReqRun
  repeat' first
    | with_reducible assumption
    | with_reducible apply State.modeReq_only (le := or_le rfl le)
    | dsimp only
    | assumption

/-- It can touch modes, br. -/
theorem doModeReqSafe_only {M : Nat} {s0 : State} (seat : Fin 8) (s : State) (h_s : Only M s0 s) (le : 0x802 ||| M = M) : Only M s0 (doModeReqSafe seat s) := by
  unfold doModeReqSafe
  repeat' first
    | with_reducible assumption
    | with_reducible apply State.modeReq_only (le := or_le rfl le)
    | dsimp only
    | assumption

/-- It can touch modes, br. -/
theorem doModeReqService_only {M : Nat} {s0 : State} (seat : Fin 8) (s : State) (h_s : Only M s0 s) (le : 0x802 ||| M = M) : Only M s0 (doModeReqService seat s) := by
  unfold doModeReqService
  repeat' first
    | with_reducible assumption
    | with_reducible apply State.modeReq_only (le := or_le rfl le)
    | dsimp only
    | assumption

/-- It can touch modes, regs. -/
theorem State.reqFail_only {M : Nat} {s0 : State} (s : State) (why : Nat) (h_s : Only M s0 s) (le : 0x202 ||| M = M) : Only M s0 (State.reqFail s why) := by
  unfold State.reqFail
  repeat' first
    | with_reducible assumption
    | with_reducible apply State.setReg_only (le := or_le rfl le)
    | (dsimp only [Only.mk_eq]; with_reducible apply OnlyParts.modesKeep (c := testBit_ge le rfl); with_reducible apply Only.parts <;> try with_reducible rfl)
    | dsimp only
    | assumption

/-- It can touch a, b. -/
theorem State.regrid_only {M : Nat} {s0 : State} (s : State) (d : Die) (same : Bool) (h_s : Only M s0 s) (le : 0xc0 ||| M = M) : Only M s0 (State.regrid s d same) := by
  unfold State.regrid
  repeat' first
    | with_reducible assumption
    | intro _
    | with_reducible apply Only.ite
    | with_reducible apply State.updDie_only (le := or_le rfl le)
    | split
    | dsimp only
    | assumption

/-- It can touch modes, a, b, regs. -/
theorem State.takeRun_only {M : Nat} {s0 : State} (s : State) (service : Bool) (h_s : Only M s0 s) (le : 0x2c2 ||| M = M) : Only M s0 (State.takeRun s service) := by
  unfold State.takeRun
  repeat' first
    | with_reducible assumption
    | with_reducible apply State.regrid_only (le := or_le rfl le)
    | with_reducible apply State.setReg_only (le := or_le rfl le)
    | (dsimp only [Only.mk_eq]; with_reducible apply OnlyParts.modesKeep (c := testBit_ge le rfl); with_reducible apply Only.parts <;> try with_reducible rfl)
    | dsimp only
    | assumption

/-- It can touch modes, pow, clk, flt, leases, a, b, fd, regs, br, rings, crc, otp, st, upd, tst, pat, stdin, remote, freeCtr, mode. -/
theorem doModeRequestTake_only {M : Nat} {s0 : State} (s : State) (h_s : Only M s0 s) (le : 0x9fcbbfe ||| M = M) : Only M s0 (doModeRequestTake s) := by
  unfold doModeRequestTake
  repeat' first
    | with_reducible assumption
    | with_reducible apply Only.ite
    | with_reducible apply State.enterSafe_only (le := or_le rfl le)
    | with_reducible apply State.reqFail_only (le := or_le rfl le)
    | with_reducible apply State.rewrite_only (le := or_le rfl le)
    | with_reducible apply State.setReg_only (le := or_le rfl le)
    | with_reducible apply State.takeRun_only (le := or_le rfl le)
    | with_reducible apply State.toMode_only (le := or_le rfl le)
    | (dsimp only [Only.mk_eq]; with_reducible apply OnlyParts.modesKeep (c := testBit_ge le rfl); with_reducible apply Only.parts <;> try with_reducible rfl)
    | split
    | dsimp only
    | assumption

/-- It can touch pat. -/
theorem State.activate_only {M : Nat} {s0 : State} (s : State) (h_s : Only M s0 s) (le : 0x200000 ||| M = M) : Only M s0 (State.activate s) := by
  unfold State.activate
  repeat' first
    | with_reducible assumption
    | with_reducible apply Only.ite
    | (dsimp only [Only.mk_eq]; with_reducible apply OnlyParts.pat (c := testBit_ge le rfl); with_reducible apply Only.parts)
    | split
    | dsimp only
    | assumption

/-- It can touch leases, otp. -/
theorem State.firstRun_only {M : Nat} {s0 : State} (s : State) (h_s : Only M s0 s) (le : 0x8020 ||| M = M) : Only M s0 (State.firstRun s) := by
  unfold State.firstRun
  repeat' first
    | with_reducible assumption
    | intro _
    | with_reducible apply Only.ite
    | with_reducible apply State.otpWant_only (le := or_le rfl le)
    | (dsimp only [Only.mk_eq]; with_reducible apply OnlyParts.otp (c := testBit_ge le rfl); with_reducible apply Only.parts)
    | split
    | dsimp only
    | assumption

/-- It can touch regs. -/
theorem State.clearRun_only {M : Nat} {s0 : State} (s : State) (h_s : Only M s0 s) (le : 0x200 ||| M = M) : Only M s0 (State.clearRun s) := by
  unfold State.clearRun
  repeat' first
    | with_reducible assumption
    | intro _
    | (dsimp only [Only.mk_eq]; with_reducible apply OnlyParts.regs (c := testBit_ge le rfl); with_reducible apply Only.parts)
    | dsimp only
    | assumption

/-- It can touch modes, pow, clk, leases, a, b, fd, regs, rings, otp, tst, pat, stdin, remote, mode. -/
theorem doRunEntry_only {M : Nat} {s0 : State} (s : State) (h_s : Only M s0 s) (le : 0x8f093ee ||| M = M) : Only M s0 (doRunEntry s) := by
  unfold doRunEntry
  repeat' first
    | with_reducible assumption
    | intro _
    | with_reducible apply Only.ite
    | with_reducible apply State.activate_only (le := or_le rfl le)
    | with_reducible apply State.clearRun_only (le := or_le rfl le)
    | with_reducible apply State.firstRun_only (le := or_le rfl le)
    | with_reducible apply State.startBoth_only (le := or_le rfl le)
    | with_reducible apply State.toMode_only (le := or_le rfl le)
    | (dsimp only [Only.mk_eq]; with_reducible apply OnlyParts.modesKeep (c := testBit_ge le rfl); with_reducible apply Only.parts <;> try with_reducible rfl)
    | split
    | dsimp only
    | assumption

/-- It can touch modes, pow, clk, a, b, fd, regs, rings, tst, pat, stdin, remote, mode. -/
theorem doRunRequestLapse_only {M : Nat} {s0 : State} (s : State) (h_s : Only M s0 s) (le : 0x8f013ce ||| M = M) : Only M s0 (doRunRequestLapse s) := by
  unfold doRunRequestLapse
  repeat' first
    | with_reducible assumption
    | with_reducible apply Only.ite
    | with_reducible apply State.enterSafe_only (le := or_le rfl le)
    | with_reducible apply State.setReg_only (le := or_le rfl le)
    | (dsimp only [Only.mk_eq]; with_reducible apply OnlyParts.modesKeep (c := testBit_ge le rfl); with_reducible apply Only.parts <;> try with_reducible rfl)
    | split
    | dsimp only
    | assumption

/-- It can touch modes, pow, clk, a, b, fd, regs, rings, tst, pat, stdin, remote, mode. -/
theorem doSafeEntryAfterStop_only {M : Nat} {s0 : State} (s : State) (h_s : Only M s0 s) (le : 0x8f013ce ||| M = M) : Only M s0 (doSafeEntryAfterStop s) := by
  unfold doSafeEntryAfterStop
  repeat' first
    | with_reducible assumption
    | with_reducible apply Only.ite
    | with_reducible apply State.enterSafe_only (le := or_le rfl le)
    | split
    | dsimp only
    | assumption

/-- It can touch modes, pow, clk, flt, a, b, fd, regs, rings, tst, pat, stdin, remote, mode. -/
theorem doSafeEntry_only {M : Nat} {s0 : State} (s : State) (h_s : Only M s0 s) (le : 0x8f013de ||| M = M) : Only M s0 (doSafeEntry s) := by
  unfold doSafeEntry
  repeat' first
    | with_reducible assumption
    | with_reducible apply Only.ite
    | with_reducible apply State.enterSafe_only (le := or_le rfl le)
    | (dsimp only [Only.mk_eq]; with_reducible apply OnlyParts.flt (c := testBit_ge le rfl); with_reducible apply Only.parts)
    | split
    | dsimp only
    | assumption

/-- It can touch modes, br. -/
theorem State.pwrReq_only {M : Nat} {s0 : State} (s : State) (seat : Nat) (x : Pwr) (h_s : Only M s0 s) (le : 0x802 ||| M = M) : Only M s0 (State.pwrReq s seat x) := by
  unfold State.pwrReq
  repeat' first
    | with_reducible assumption
    | intro _
    | with_reducible apply State.write_only (le := or_le rfl le)
    | (dsimp only [Only.mk_eq]; with_reducible apply OnlyParts.modesKeep (c := testBit_ge le rfl); with_reducible apply Only.parts <;> try with_reducible rfl)
    | dsimp only
    | assumption

/-- It can touch modes, br. -/
theorem doPwrReqActive_only {M : Nat} {s0 : State} (seat : Fin 8) (s : State) (h_s : Only M s0 s) (le : 0x802 ||| M = M) : Only M s0 (doPwrReqActive seat s) := by
  unfold doPwrReqActive
  repeat' first
    | with_reducible assumption
    | with_reducible apply State.pwrReq_only (le := or_le rfl le)
    | dsimp only
    | assumption

/-- It can touch modes, br. -/
theorem doPwrReqSleep_only {M : Nat} {s0 : State} (seat : Fin 8) (s : State) (h_s : Only M s0 s) (le : 0x802 ||| M = M) : Only M s0 (doPwrReqSleep seat s) := by
  unfold doPwrReqSleep
  repeat' first
    | with_reducible assumption
    | with_reducible apply State.pwrReq_only (le := or_le rfl le)
    | dsimp only
    | assumption

/-- It can touch modes, br. -/
theorem doPwrReqDeepSleep_only {M : Nat} {s0 : State} (seat : Fin 8) (s : State) (h_s : Only M s0 s) (le : 0x802 ||| M = M) : Only M s0 (doPwrReqDeepSleep seat s) := by
  unfold doPwrReqDeepSleep
  repeat' first
    | with_reducible assumption
    | with_reducible apply State.pwrReq_only (le := or_le rfl le)
    | dsimp only
    | assumption

/-- It can touch modes, pow, clk, a, b, regs, br. -/
theorem doPowerStateChange_only {M : Nat} {s0 : State} (s : State) (h_s : Only M s0 s) (le : 0xace ||| M = M) : Only M s0 (doPowerStateChange s) := by
  unfold doPowerStateChange
  repeat' first
    | with_reducible assumption
    | with_reducible apply Only.ite
    | with_reducible apply State.jrnStop_only (le := or_le rfl le)
    | with_reducible apply State.pwrDomains_only (le := or_le rfl le)
    | with_reducible apply State.pwrReq_only (le := or_le rfl le)
    | with_reducible apply State.regate_only (le := or_le rfl le)
    | (dsimp only [Only.mk_eq]; with_reducible apply OnlyParts.modesKeep (c := testBit_ge le rfl); with_reducible apply Only.parts <;> try with_reducible rfl)
    | split
    | dsimp only
    | assumption

end Sys2Proof.Machine
end

