-- ==== Sys2Proof/Laws/Tab.lean ====
section
/-! SUPPORT. Laws of the sparse tables and memories: a read after a write, and the canonical form, which every operation on a
memory keeps. -/

namespace Sys2Proof

theorem Tab.get_del_self {α : Type} (dflt : α) (t : Tab α) (k : Nat) : Tab.get dflt (Tab.del t k) k = dflt := by
  induction t with
  | nil => rfl
  | cons x t ih => grind [Tab.del, Tab.get]

theorem Tab.get_del_ne {α : Type} (dflt : α) (t : Tab α) (k n : Nat) (h : n ≠ k) :
    Tab.get dflt (Tab.del t k) n = Tab.get dflt t n := by
  induction t with
  | nil => rfl
  | cons x t ih => grind [Tab.del, Tab.get]

theorem Tab.get_ins_ne {α : Type} (dflt : α) (t : Tab α) (k n : Nat) (v : α) (h : n ≠ k) :
    Tab.get dflt (Tab.ins t k v) n = Tab.get dflt t n := by
  induction t with
  | nil => grind [Tab.ins, Tab.get]
  | cons x t ih => grind [Tab.ins, Tab.get]

theorem Tab.get_ins_del {α : Type} (dflt : α) (t : Tab α) (k : Nat) (v : α) :
    Tab.get dflt (Tab.ins (Tab.del t k) k v) k = v := by
  induction t with
  | nil => grind [Tab.del, Tab.ins, Tab.get]
  | cons x t ih => grind [Tab.del, Tab.ins, Tab.get]

/-- A read after a write to the same number. -/
@[simp] theorem Tab.get_set_self {α : Type} [DecidableEq α] (dflt : α) (t : Tab α) (k : Nat) (v : α) :
    Tab.get dflt (Tab.set dflt t k v) k = v := by
  unfold Tab.set
  split
  · rename_i h
    rw [Tab.get_del_self, h]
  · exact Tab.get_ins_del dflt t k v

/-- A write leaves every other number alone. -/
theorem Tab.get_set_ne {α : Type} [DecidableEq α] (dflt : α) (t : Tab α) (k n : Nat) (v : α) (h : n ≠ k) :
    Tab.get dflt (Tab.set dflt t k v) n = Tab.get dflt t n := by
  unfold Tab.set
  split
  · exact Tab.get_del_ne dflt t k n h
  · rw [Tab.get_ins_ne dflt _ k n v h, Tab.get_del_ne dflt t k n h]

theorem Tab.wfFrom_mono {α : Type} [DecidableEq α] (dflt : α) (t : Tab α) (lo hi : Nat) (h : lo ≤ hi)
    (w : Tab.wfFrom dflt hi t = true) : Tab.wfFrom dflt lo t = true := by
  cases t with
  | nil => rfl
  | cons x t => grind [Tab.wfFrom]

theorem Tab.wfFrom_del {α : Type} [DecidableEq α] (dflt : α) (t : Tab α) (k lo : Nat) (w : Tab.wfFrom dflt lo t = true) :
    Tab.wfFrom dflt lo (Tab.del t k) = true := by
  induction t generalizing lo with
  | nil => rfl
  | cons x t ih =>
    obtain ⟨j, v⟩ := x
    simp only [Tab.wfFrom, Bool.and_eq_true, decide_eq_true_eq] at w
    simp only [Tab.del]
    split
    · exact Tab.wfFrom_mono dflt _ lo (j + 1) (by omega) (ih (j + 1) w.2)
    · simp only [Tab.wfFrom, Bool.and_eq_true, decide_eq_true_eq]
      exact ⟨w.1, ih (j + 1) w.2⟩

/-- Below a bound on every listed number. -/
theorem Tab.wfFrom_del_gt {α : Type} [DecidableEq α] (dflt : α) (t : Tab α) (k lo : Nat) (w : Tab.wfFrom dflt lo t = true)
    (h : lo ≤ k) (v : α) (hv : v ≠ dflt) : Tab.wfFrom dflt lo (Tab.ins (Tab.del t k) k v) = true := by
  induction t generalizing lo with
  | nil => simp [Tab.del, Tab.ins, Tab.wfFrom, h, hv]
  | cons x t ih =>
    obtain ⟨j, u⟩ := x
    simp only [Tab.wfFrom, Bool.and_eq_true, decide_eq_true_eq] at w
    simp only [Tab.del]
    split
    · rename_i hj
      subst hj
      have hd := Tab.wfFrom_del dflt t j (j + 1) w.2
      revert hd
      cases Tab.del t j with
      | nil => intro _; simp [Tab.ins, Tab.wfFrom, h, hv]
      | cons y r =>
        intro hd
        obtain ⟨a, b⟩ := y
        simp only [Tab.wfFrom, Bool.and_eq_true, decide_eq_true_eq] at hd
        have : j < a := by omega
        simp only [Tab.ins, this, if_true, Tab.wfFrom, Bool.and_eq_true, decide_eq_true_eq]
        exact ⟨⟨h, hv⟩, ⟨by omega, hd.1.2⟩, hd.2⟩
    · rename_i hj
      simp only [Tab.ins]
      split
      · rename_i hk
        simp only [Tab.wfFrom, Bool.and_eq_true, decide_eq_true_eq]
        exact ⟨⟨h, hv⟩, ⟨by omega, w.1.2⟩, Tab.wfFrom_del dflt t k (j + 1) w.2⟩
      · simp only [Tab.wfFrom, Bool.and_eq_true, decide_eq_true_eq]
        exact ⟨w.1, ih (j + 1) w.2 (by omega)⟩

/-- A write keeps the canonical form. -/
theorem Tab.wf_set {α : Type} [DecidableEq α] (dflt : α) (t : Tab α) (k : Nat) (v : α) (w : Tab.wf dflt t = true) :
    Tab.wf dflt (Tab.set dflt t k v) = true := by
  unfold Tab.set
  split
  · exact Tab.wfFrom_del dflt t k 0 w
  · rename_i hv
    exact Tab.wfFrom_del_gt dflt t k 0 w (Nat.zero_le k) v hv

theorem Tab.wfFrom_filter {α : Type} [DecidableEq α] (dflt : α) (p : Nat × α → Bool) (t : Tab α) (lo : Nat)
    (w : Tab.wfFrom dflt lo t = true) : Tab.wfFrom dflt lo (t.filter p) = true := by
  induction t generalizing lo with
  | nil => rfl
  | cons x t ih =>
    obtain ⟨j, u⟩ := x
    simp only [Tab.wfFrom, Bool.and_eq_true, decide_eq_true_eq] at w
    simp only [List.filter_cons]
    split
    · simp only [Tab.wfFrom, Bool.and_eq_true, decide_eq_true_eq]
      exact ⟨w.1, ih (j + 1) w.2⟩
    · exact Tab.wfFrom_mono dflt _ lo (j + 1) (by omega) (ih (j + 1) w.2)

/-- A read of a byte just written. -/
@[simp] theorem Mem.read_write_self (m : Mem) (a : Nat) (b : Byte) : Mem.read (Mem.write m a b) a = b :=
  Tab.get_set_self 0#8 m a b

/-- A write leaves every other byte alone. -/
theorem Mem.read_write_ne (m : Mem) (a n : Nat) (b : Byte) (h : n ≠ a) : Mem.read (Mem.write m a b) n = Mem.read m n :=
  Tab.get_set_ne 0#8 m a n b h

theorem Mem.wf_write (m : Mem) (a : Nat) (b : Byte) (w : Mem.wf m = true) : Mem.wf (Mem.write m a b) = true :=
  Tab.wf_set 0#8 m a b w

/-- Bytes outside the written ones read as before. -/
theorem Mem.read_writeL_outside (bs : List Byte) (m : Mem) (a n : Nat) (h : n < a ∨ a + bs.length ≤ n) :
    Mem.read (Mem.writeL m a bs) n = Mem.read m n := by
  induction bs generalizing m a with
  | nil => rfl
  | cons b bs ih =>
    simp only [List.length_cons] at h
    rw [Mem.writeL, ih (Mem.write m a b) (a + 1) (by omega), Mem.read_write_ne m a n b (by omega)]

/-- The written bytes read back. -/
theorem Mem.read_writeL (bs : List Byte) (m : Mem) (a i : Nat) (h : i < bs.length) :
    Mem.read (Mem.writeL m a bs) (a + i) = bs[i] := by
  induction bs generalizing m a i with
  | nil => simp at h
  | cons b bs ih =>
    cases i with
    | zero =>
      rw [Mem.writeL, Mem.read_writeL_outside bs _ (a + 1) (a + 0) (by omega)]
      simp
    | succ i =>
      have e : a + (i + 1) = a + 1 + i := by omega
      simp only [List.length_cons] at h
      rw [Mem.writeL, e, ih (Mem.write m a b) (a + 1) i (by omega)]
      rfl

theorem Mem.wf_writeL (bs : List Byte) (m : Mem) (a : Nat) (w : Mem.wf m = true) : Mem.wf (Mem.writeL m a bs) = true := by
  induction bs generalizing m a with
  | nil => exact w
  | cons b bs ih => exact ih (Mem.write m a b) (a + 1) (Mem.wf_write m a b w)

theorem Mem.wf_clear (m : Mem) (lo n : Nat) (w : Mem.wf m = true) : Mem.wf (Mem.clear m lo n) = true :=
  Tab.wfFrom_filter 0#8 _ m 0 w

end Sys2Proof
end

