-- ==== Sys2Proof/Laws/State.lean ====
section
/-! SUPPORT. One lemma per field and update of State, so that no proof unfolds a record update: an update leaves every field alone that it
does not name. The operations that latch or react are taken from the Laws/Only files. -/

namespace Sys2Proof.Machine

@[simp] theorem State.setReg_order (s : State) (idx sub v : Nat) : (s.setReg idx sub v).order = s.order := rfl
@[simp] theorem State.setReg_modes (s : State) (idx sub v : Nat) : (s.setReg idx sub v).modes = s.modes := rfl
@[simp] theorem State.setReg_pow (s : State) (idx sub v : Nat) : (s.setReg idx sub v).pow = s.pow := rfl
@[simp] theorem State.setReg_clk (s : State) (idx sub v : Nat) : (s.setReg idx sub v).clk = s.clk := rfl
@[simp] theorem State.setReg_flt (s : State) (idx sub v : Nat) : (s.setReg idx sub v).flt = s.flt := rfl
@[simp] theorem State.setReg_leases (s : State) (idx sub v : Nat) : (s.setReg idx sub v).leases = s.leases := rfl
@[simp] theorem State.setReg_a (s : State) (idx sub v : Nat) : (s.setReg idx sub v).a = s.a := rfl
@[simp] theorem State.setReg_b (s : State) (idx sub v : Nat) : (s.setReg idx sub v).b = s.b := rfl
@[simp] theorem State.setReg_fd (s : State) (idx sub v : Nat) : (s.setReg idx sub v).fd = s.fd := rfl
@[simp] theorem State.setReg_pers (s : State) (idx sub v : Nat) : (s.setReg idx sub v).pers = s.pers := rfl
@[simp] theorem State.setReg_br (s : State) (idx sub v : Nat) : (s.setReg idx sub v).br = s.br := rfl
@[simp] theorem State.setReg_rings (s : State) (idx sub v : Nat) : (s.setReg idx sub v).rings = s.rings := rfl
@[simp] theorem State.setReg_crc (s : State) (idx sub v : Nat) : (s.setReg idx sub v).crc = s.crc := rfl
@[simp] theorem State.setReg_tmr (s : State) (idx sub v : Nat) : (s.setReg idx sub v).tmr = s.tmr := rfl
@[simp] theorem State.setReg_otp (s : State) (idx sub v : Nat) : (s.setReg idx sub v).otp = s.otp := rfl
@[simp] theorem State.setReg_bkp (s : State) (idx sub v : Nat) : (s.setReg idx sub v).bkp = s.bkp := rfl
@[simp] theorem State.setReg_keys (s : State) (idx sub v : Nat) : (s.setReg idx sub v).keys = s.keys := rfl
@[simp] theorem State.setReg_st (s : State) (idx sub v : Nat) : (s.setReg idx sub v).st = s.st := rfl
@[simp] theorem State.setReg_upd (s : State) (idx sub v : Nat) : (s.setReg idx sub v).upd = s.upd := rfl
@[simp] theorem State.setReg_tst (s : State) (idx sub v : Nat) : (s.setReg idx sub v).tst = s.tst := rfl
@[simp] theorem State.setReg_pat (s : State) (idx sub v : Nat) : (s.setReg idx sub v).pat = s.pat := rfl
@[simp] theorem State.setReg_stdin (s : State) (idx sub v : Nat) : (s.setReg idx sub v).stdin = s.stdin := rfl
@[simp] theorem State.setReg_remote (s : State) (idx sub v : Nat) : (s.setReg idx sub v).remote = s.remote := rfl
@[simp] theorem State.setReg_freeCtr (s : State) (idx sub v : Nat) : (s.setReg idx sub v).freeCtr = s.freeCtr := rfl
@[simp] theorem State.setReg_time (s : State) (idx sub v : Nat) : (s.setReg idx sub v).time = s.time := rfl
@[simp] theorem State.setReg_pending (s : State) (idx sub v : Nat) : (s.setReg idx sub v).pending = s.pending := rfl

@[simp] theorem State.bump_order (s : State) (w idx sub : Nat) : (s.bump w idx sub).order = s.order := rfl
@[simp] theorem State.bump_modes (s : State) (w idx sub : Nat) : (s.bump w idx sub).modes = s.modes := rfl
@[simp] theorem State.bump_pow (s : State) (w idx sub : Nat) : (s.bump w idx sub).pow = s.pow := rfl
@[simp] theorem State.bump_clk (s : State) (w idx sub : Nat) : (s.bump w idx sub).clk = s.clk := rfl
@[simp] theorem State.bump_flt (s : State) (w idx sub : Nat) : (s.bump w idx sub).flt = s.flt := rfl
@[simp] theorem State.bump_leases (s : State) (w idx sub : Nat) : (s.bump w idx sub).leases = s.leases := rfl
@[simp] theorem State.bump_a (s : State) (w idx sub : Nat) : (s.bump w idx sub).a = s.a := rfl
@[simp] theorem State.bump_b (s : State) (w idx sub : Nat) : (s.bump w idx sub).b = s.b := rfl
@[simp] theorem State.bump_fd (s : State) (w idx sub : Nat) : (s.bump w idx sub).fd = s.fd := rfl
@[simp] theorem State.bump_pers (s : State) (w idx sub : Nat) : (s.bump w idx sub).pers = s.pers := rfl
@[simp] theorem State.bump_br (s : State) (w idx sub : Nat) : (s.bump w idx sub).br = s.br := rfl
@[simp] theorem State.bump_rings (s : State) (w idx sub : Nat) : (s.bump w idx sub).rings = s.rings := rfl
@[simp] theorem State.bump_crc (s : State) (w idx sub : Nat) : (s.bump w idx sub).crc = s.crc := rfl
@[simp] theorem State.bump_tmr (s : State) (w idx sub : Nat) : (s.bump w idx sub).tmr = s.tmr := rfl
@[simp] theorem State.bump_otp (s : State) (w idx sub : Nat) : (s.bump w idx sub).otp = s.otp := rfl
@[simp] theorem State.bump_bkp (s : State) (w idx sub : Nat) : (s.bump w idx sub).bkp = s.bkp := rfl
@[simp] theorem State.bump_keys (s : State) (w idx sub : Nat) : (s.bump w idx sub).keys = s.keys := rfl
@[simp] theorem State.bump_st (s : State) (w idx sub : Nat) : (s.bump w idx sub).st = s.st := rfl
@[simp] theorem State.bump_upd (s : State) (w idx sub : Nat) : (s.bump w idx sub).upd = s.upd := rfl
@[simp] theorem State.bump_tst (s : State) (w idx sub : Nat) : (s.bump w idx sub).tst = s.tst := rfl
@[simp] theorem State.bump_pat (s : State) (w idx sub : Nat) : (s.bump w idx sub).pat = s.pat := rfl
@[simp] theorem State.bump_stdin (s : State) (w idx sub : Nat) : (s.bump w idx sub).stdin = s.stdin := rfl
@[simp] theorem State.bump_remote (s : State) (w idx sub : Nat) : (s.bump w idx sub).remote = s.remote := rfl
@[simp] theorem State.bump_freeCtr (s : State) (w idx sub : Nat) : (s.bump w idx sub).freeCtr = s.freeCtr := rfl
@[simp] theorem State.bump_time (s : State) (w idx sub : Nat) : (s.bump w idx sub).time = s.time := rfl
@[simp] theorem State.bump_pending (s : State) (w idx sub : Nat) : (s.bump w idx sub).pending = s.pending := rfl

@[simp] theorem State.ans_order (s : State) (c : Status) : (s.ans c).order = s.order := rfl
@[simp] theorem State.ans_modes (s : State) (c : Status) : (s.ans c).modes = s.modes := rfl
@[simp] theorem State.ans_pow (s : State) (c : Status) : (s.ans c).pow = s.pow := rfl
@[simp] theorem State.ans_clk (s : State) (c : Status) : (s.ans c).clk = s.clk := rfl
@[simp] theorem State.ans_flt (s : State) (c : Status) : (s.ans c).flt = s.flt := rfl
@[simp] theorem State.ans_leases (s : State) (c : Status) : (s.ans c).leases = s.leases := rfl
@[simp] theorem State.ans_a (s : State) (c : Status) : (s.ans c).a = s.a := rfl
@[simp] theorem State.ans_b (s : State) (c : Status) : (s.ans c).b = s.b := rfl
@[simp] theorem State.ans_fd (s : State) (c : Status) : (s.ans c).fd = s.fd := rfl
@[simp] theorem State.ans_regs (s : State) (c : Status) : (s.ans c).regs = s.regs := rfl
@[simp] theorem State.ans_pers (s : State) (c : Status) : (s.ans c).pers = s.pers := rfl
@[simp] theorem State.ans_rings (s : State) (c : Status) : (s.ans c).rings = s.rings := rfl
@[simp] theorem State.ans_crc (s : State) (c : Status) : (s.ans c).crc = s.crc := rfl
@[simp] theorem State.ans_tmr (s : State) (c : Status) : (s.ans c).tmr = s.tmr := rfl
@[simp] theorem State.ans_otp (s : State) (c : Status) : (s.ans c).otp = s.otp := rfl
@[simp] theorem State.ans_bkp (s : State) (c : Status) : (s.ans c).bkp = s.bkp := rfl
@[simp] theorem State.ans_keys (s : State) (c : Status) : (s.ans c).keys = s.keys := rfl
@[simp] theorem State.ans_st (s : State) (c : Status) : (s.ans c).st = s.st := rfl
@[simp] theorem State.ans_upd (s : State) (c : Status) : (s.ans c).upd = s.upd := rfl
@[simp] theorem State.ans_tst (s : State) (c : Status) : (s.ans c).tst = s.tst := rfl
@[simp] theorem State.ans_pat (s : State) (c : Status) : (s.ans c).pat = s.pat := rfl
@[simp] theorem State.ans_stdin (s : State) (c : Status) : (s.ans c).stdin = s.stdin := rfl
@[simp] theorem State.ans_remote (s : State) (c : Status) : (s.ans c).remote = s.remote := rfl
@[simp] theorem State.ans_freeCtr (s : State) (c : Status) : (s.ans c).freeCtr = s.freeCtr := rfl
@[simp] theorem State.ans_time (s : State) (c : Status) : (s.ans c).time = s.time := rfl
@[simp] theorem State.ans_pending (s : State) (c : Status) : (s.ans c).pending = s.pending := rfl

@[simp] theorem State.ansBusy_order (s : State) (n : Nat) : (s.ansBusy n).order = s.order := rfl
@[simp] theorem State.ansBusy_modes (s : State) (n : Nat) : (s.ansBusy n).modes = s.modes := rfl
@[simp] theorem State.ansBusy_pow (s : State) (n : Nat) : (s.ansBusy n).pow = s.pow := rfl
@[simp] theorem State.ansBusy_clk (s : State) (n : Nat) : (s.ansBusy n).clk = s.clk := rfl
@[simp] theorem State.ansBusy_flt (s : State) (n : Nat) : (s.ansBusy n).flt = s.flt := rfl
@[simp] theorem State.ansBusy_leases (s : State) (n : Nat) : (s.ansBusy n).leases = s.leases := rfl
@[simp] theorem State.ansBusy_a (s : State) (n : Nat) : (s.ansBusy n).a = s.a := rfl
@[simp] theorem State.ansBusy_b (s : State) (n : Nat) : (s.ansBusy n).b = s.b := rfl
@[simp] theorem State.ansBusy_fd (s : State) (n : Nat) : (s.ansBusy n).fd = s.fd := rfl
@[simp] theorem State.ansBusy_regs (s : State) (n : Nat) : (s.ansBusy n).regs = s.regs := rfl
@[simp] theorem State.ansBusy_pers (s : State) (n : Nat) : (s.ansBusy n).pers = s.pers := rfl
@[simp] theorem State.ansBusy_rings (s : State) (n : Nat) : (s.ansBusy n).rings = s.rings := rfl
@[simp] theorem State.ansBusy_crc (s : State) (n : Nat) : (s.ansBusy n).crc = s.crc := rfl
@[simp] theorem State.ansBusy_tmr (s : State) (n : Nat) : (s.ansBusy n).tmr = s.tmr := rfl
@[simp] theorem State.ansBusy_otp (s : State) (n : Nat) : (s.ansBusy n).otp = s.otp := rfl
@[simp] theorem State.ansBusy_bkp (s : State) (n : Nat) : (s.ansBusy n).bkp = s.bkp := rfl
@[simp] theorem State.ansBusy_keys (s : State) (n : Nat) : (s.ansBusy n).keys = s.keys := rfl
@[simp] theorem State.ansBusy_st (s : State) (n : Nat) : (s.ansBusy n).st = s.st := rfl
@[simp] theorem State.ansBusy_upd (s : State) (n : Nat) : (s.ansBusy n).upd = s.upd := rfl
@[simp] theorem State.ansBusy_tst (s : State) (n : Nat) : (s.ansBusy n).tst = s.tst := rfl
@[simp] theorem State.ansBusy_pat (s : State) (n : Nat) : (s.ansBusy n).pat = s.pat := rfl
@[simp] theorem State.ansBusy_stdin (s : State) (n : Nat) : (s.ansBusy n).stdin = s.stdin := rfl
@[simp] theorem State.ansBusy_remote (s : State) (n : Nat) : (s.ansBusy n).remote = s.remote := rfl
@[simp] theorem State.ansBusy_freeCtr (s : State) (n : Nat) : (s.ansBusy n).freeCtr = s.freeCtr := rfl
@[simp] theorem State.ansBusy_time (s : State) (n : Nat) : (s.ansBusy n).time = s.time := rfl
@[simp] theorem State.ansBusy_pending (s : State) (n : Nat) : (s.ansBusy n).pending = s.pending := rfl

@[simp] theorem State.reply_order (s : State) (bs : List Byte) : (s.reply bs).order = s.order := rfl
@[simp] theorem State.reply_modes (s : State) (bs : List Byte) : (s.reply bs).modes = s.modes := rfl
@[simp] theorem State.reply_pow (s : State) (bs : List Byte) : (s.reply bs).pow = s.pow := rfl
@[simp] theorem State.reply_clk (s : State) (bs : List Byte) : (s.reply bs).clk = s.clk := rfl
@[simp] theorem State.reply_flt (s : State) (bs : List Byte) : (s.reply bs).flt = s.flt := rfl
@[simp] theorem State.reply_leases (s : State) (bs : List Byte) : (s.reply bs).leases = s.leases := rfl
@[simp] theorem State.reply_a (s : State) (bs : List Byte) : (s.reply bs).a = s.a := rfl
@[simp] theorem State.reply_b (s : State) (bs : List Byte) : (s.reply bs).b = s.b := rfl
@[simp] theorem State.reply_fd (s : State) (bs : List Byte) : (s.reply bs).fd = s.fd := rfl
@[simp] theorem State.reply_regs (s : State) (bs : List Byte) : (s.reply bs).regs = s.regs := rfl
@[simp] theorem State.reply_pers (s : State) (bs : List Byte) : (s.reply bs).pers = s.pers := rfl
@[simp] theorem State.reply_rings (s : State) (bs : List Byte) : (s.reply bs).rings = s.rings := rfl
@[simp] theorem State.reply_crc (s : State) (bs : List Byte) : (s.reply bs).crc = s.crc := rfl
@[simp] theorem State.reply_tmr (s : State) (bs : List Byte) : (s.reply bs).tmr = s.tmr := rfl
@[simp] theorem State.reply_otp (s : State) (bs : List Byte) : (s.reply bs).otp = s.otp := rfl
@[simp] theorem State.reply_bkp (s : State) (bs : List Byte) : (s.reply bs).bkp = s.bkp := rfl
@[simp] theorem State.reply_keys (s : State) (bs : List Byte) : (s.reply bs).keys = s.keys := rfl
@[simp] theorem State.reply_st (s : State) (bs : List Byte) : (s.reply bs).st = s.st := rfl
@[simp] theorem State.reply_upd (s : State) (bs : List Byte) : (s.reply bs).upd = s.upd := rfl
@[simp] theorem State.reply_tst (s : State) (bs : List Byte) : (s.reply bs).tst = s.tst := rfl
@[simp] theorem State.reply_pat (s : State) (bs : List Byte) : (s.reply bs).pat = s.pat := rfl
@[simp] theorem State.reply_stdin (s : State) (bs : List Byte) : (s.reply bs).stdin = s.stdin := rfl
@[simp] theorem State.reply_remote (s : State) (bs : List Byte) : (s.reply bs).remote = s.remote := rfl
@[simp] theorem State.reply_freeCtr (s : State) (bs : List Byte) : (s.reply bs).freeCtr = s.freeCtr := rfl
@[simp] theorem State.reply_time (s : State) (bs : List Byte) : (s.reply bs).time = s.time := rfl
@[simp] theorem State.reply_pending (s : State) (bs : List Byte) : (s.reply bs).pending = s.pending := rfl

@[simp] theorem State.updSeat_order (s : State) (k : Nat) (f : Seat → Seat) : (s.updSeat k f).order = s.order := rfl
@[simp] theorem State.updSeat_modes (s : State) (k : Nat) (f : Seat → Seat) : (s.updSeat k f).modes = s.modes := rfl
@[simp] theorem State.updSeat_pow (s : State) (k : Nat) (f : Seat → Seat) : (s.updSeat k f).pow = s.pow := rfl
@[simp] theorem State.updSeat_clk (s : State) (k : Nat) (f : Seat → Seat) : (s.updSeat k f).clk = s.clk := rfl
@[simp] theorem State.updSeat_flt (s : State) (k : Nat) (f : Seat → Seat) : (s.updSeat k f).flt = s.flt := rfl
@[simp] theorem State.updSeat_leases (s : State) (k : Nat) (f : Seat → Seat) : (s.updSeat k f).leases = s.leases := rfl
@[simp] theorem State.updSeat_a (s : State) (k : Nat) (f : Seat → Seat) : (s.updSeat k f).a = s.a := rfl
@[simp] theorem State.updSeat_b (s : State) (k : Nat) (f : Seat → Seat) : (s.updSeat k f).b = s.b := rfl
@[simp] theorem State.updSeat_fd (s : State) (k : Nat) (f : Seat → Seat) : (s.updSeat k f).fd = s.fd := rfl
@[simp] theorem State.updSeat_regs (s : State) (k : Nat) (f : Seat → Seat) : (s.updSeat k f).regs = s.regs := rfl
@[simp] theorem State.updSeat_pers (s : State) (k : Nat) (f : Seat → Seat) : (s.updSeat k f).pers = s.pers := rfl
@[simp] theorem State.updSeat_rings (s : State) (k : Nat) (f : Seat → Seat) : (s.updSeat k f).rings = s.rings := rfl
@[simp] theorem State.updSeat_crc (s : State) (k : Nat) (f : Seat → Seat) : (s.updSeat k f).crc = s.crc := rfl
@[simp] theorem State.updSeat_tmr (s : State) (k : Nat) (f : Seat → Seat) : (s.updSeat k f).tmr = s.tmr := rfl
@[simp] theorem State.updSeat_otp (s : State) (k : Nat) (f : Seat → Seat) : (s.updSeat k f).otp = s.otp := rfl
@[simp] theorem State.updSeat_bkp (s : State) (k : Nat) (f : Seat → Seat) : (s.updSeat k f).bkp = s.bkp := rfl
@[simp] theorem State.updSeat_keys (s : State) (k : Nat) (f : Seat → Seat) : (s.updSeat k f).keys = s.keys := rfl
@[simp] theorem State.updSeat_st (s : State) (k : Nat) (f : Seat → Seat) : (s.updSeat k f).st = s.st := rfl
@[simp] theorem State.updSeat_upd (s : State) (k : Nat) (f : Seat → Seat) : (s.updSeat k f).upd = s.upd := rfl
@[simp] theorem State.updSeat_tst (s : State) (k : Nat) (f : Seat → Seat) : (s.updSeat k f).tst = s.tst := rfl
@[simp] theorem State.updSeat_pat (s : State) (k : Nat) (f : Seat → Seat) : (s.updSeat k f).pat = s.pat := rfl
@[simp] theorem State.updSeat_stdin (s : State) (k : Nat) (f : Seat → Seat) : (s.updSeat k f).stdin = s.stdin := rfl
@[simp] theorem State.updSeat_remote (s : State) (k : Nat) (f : Seat → Seat) : (s.updSeat k f).remote = s.remote := rfl
@[simp] theorem State.updSeat_freeCtr (s : State) (k : Nat) (f : Seat → Seat) : (s.updSeat k f).freeCtr = s.freeCtr := rfl
@[simp] theorem State.updSeat_time (s : State) (k : Nat) (f : Seat → Seat) : (s.updSeat k f).time = s.time := rfl
@[simp] theorem State.updSeat_pending (s : State) (k : Nat) (f : Seat → Seat) : (s.updSeat k f).pending = s.pending := rfl

@[simp] theorem State.updF_order (s : State) (n : Nat) (f : FDie → FDie) : (s.updF n f).order = s.order := rfl
@[simp] theorem State.updF_modes (s : State) (n : Nat) (f : FDie → FDie) : (s.updF n f).modes = s.modes := rfl
@[simp] theorem State.updF_pow (s : State) (n : Nat) (f : FDie → FDie) : (s.updF n f).pow = s.pow := rfl
@[simp] theorem State.updF_clk (s : State) (n : Nat) (f : FDie → FDie) : (s.updF n f).clk = s.clk := rfl
@[simp] theorem State.updF_flt (s : State) (n : Nat) (f : FDie → FDie) : (s.updF n f).flt = s.flt := rfl
@[simp] theorem State.updF_leases (s : State) (n : Nat) (f : FDie → FDie) : (s.updF n f).leases = s.leases := rfl
@[simp] theorem State.updF_a (s : State) (n : Nat) (f : FDie → FDie) : (s.updF n f).a = s.a := rfl
@[simp] theorem State.updF_b (s : State) (n : Nat) (f : FDie → FDie) : (s.updF n f).b = s.b := rfl
@[simp] theorem State.updF_regs (s : State) (n : Nat) (f : FDie → FDie) : (s.updF n f).regs = s.regs := rfl
@[simp] theorem State.updF_pers (s : State) (n : Nat) (f : FDie → FDie) : (s.updF n f).pers = s.pers := rfl
@[simp] theorem State.updF_br (s : State) (n : Nat) (f : FDie → FDie) : (s.updF n f).br = s.br := rfl
@[simp] theorem State.updF_rings (s : State) (n : Nat) (f : FDie → FDie) : (s.updF n f).rings = s.rings := rfl
@[simp] theorem State.updF_crc (s : State) (n : Nat) (f : FDie → FDie) : (s.updF n f).crc = s.crc := rfl
@[simp] theorem State.updF_tmr (s : State) (n : Nat) (f : FDie → FDie) : (s.updF n f).tmr = s.tmr := rfl
@[simp] theorem State.updF_otp (s : State) (n : Nat) (f : FDie → FDie) : (s.updF n f).otp = s.otp := rfl
@[simp] theorem State.updF_bkp (s : State) (n : Nat) (f : FDie → FDie) : (s.updF n f).bkp = s.bkp := rfl
@[simp] theorem State.updF_keys (s : State) (n : Nat) (f : FDie → FDie) : (s.updF n f).keys = s.keys := rfl
@[simp] theorem State.updF_st (s : State) (n : Nat) (f : FDie → FDie) : (s.updF n f).st = s.st := rfl
@[simp] theorem State.updF_upd (s : State) (n : Nat) (f : FDie → FDie) : (s.updF n f).upd = s.upd := rfl
@[simp] theorem State.updF_tst (s : State) (n : Nat) (f : FDie → FDie) : (s.updF n f).tst = s.tst := rfl
@[simp] theorem State.updF_pat (s : State) (n : Nat) (f : FDie → FDie) : (s.updF n f).pat = s.pat := rfl
@[simp] theorem State.updF_stdin (s : State) (n : Nat) (f : FDie → FDie) : (s.updF n f).stdin = s.stdin := rfl
@[simp] theorem State.updF_remote (s : State) (n : Nat) (f : FDie → FDie) : (s.updF n f).remote = s.remote := rfl
@[simp] theorem State.updF_freeCtr (s : State) (n : Nat) (f : FDie → FDie) : (s.updF n f).freeCtr = s.freeCtr := rfl
@[simp] theorem State.updF_time (s : State) (n : Nat) (f : FDie → FDie) : (s.updF n f).time = s.time := rfl
@[simp] theorem State.updF_pending (s : State) (n : Nat) (f : FDie → FDie) : (s.updF n f).pending = s.pending := rfl

@[simp] theorem State.setDieSt_order (s : State) (x v : Nat) : (s.setDieSt x v).order = s.order := rfl
@[simp] theorem State.setDieSt_modes (s : State) (x v : Nat) : (s.setDieSt x v).modes = s.modes := rfl
@[simp] theorem State.setDieSt_pow (s : State) (x v : Nat) : (s.setDieSt x v).pow = s.pow := rfl
@[simp] theorem State.setDieSt_clk (s : State) (x v : Nat) : (s.setDieSt x v).clk = s.clk := rfl
@[simp] theorem State.setDieSt_leases (s : State) (x v : Nat) : (s.setDieSt x v).leases = s.leases := rfl
@[simp] theorem State.setDieSt_a (s : State) (x v : Nat) : (s.setDieSt x v).a = s.a := rfl
@[simp] theorem State.setDieSt_b (s : State) (x v : Nat) : (s.setDieSt x v).b = s.b := rfl
@[simp] theorem State.setDieSt_fd (s : State) (x v : Nat) : (s.setDieSt x v).fd = s.fd := rfl
@[simp] theorem State.setDieSt_regs (s : State) (x v : Nat) : (s.setDieSt x v).regs = s.regs := rfl
@[simp] theorem State.setDieSt_pers (s : State) (x v : Nat) : (s.setDieSt x v).pers = s.pers := rfl
@[simp] theorem State.setDieSt_br (s : State) (x v : Nat) : (s.setDieSt x v).br = s.br := rfl
@[simp] theorem State.setDieSt_rings (s : State) (x v : Nat) : (s.setDieSt x v).rings = s.rings := rfl
@[simp] theorem State.setDieSt_crc (s : State) (x v : Nat) : (s.setDieSt x v).crc = s.crc := rfl
@[simp] theorem State.setDieSt_tmr (s : State) (x v : Nat) : (s.setDieSt x v).tmr = s.tmr := rfl
@[simp] theorem State.setDieSt_otp (s : State) (x v : Nat) : (s.setDieSt x v).otp = s.otp := rfl
@[simp] theorem State.setDieSt_bkp (s : State) (x v : Nat) : (s.setDieSt x v).bkp = s.bkp := rfl
@[simp] theorem State.setDieSt_keys (s : State) (x v : Nat) : (s.setDieSt x v).keys = s.keys := rfl
@[simp] theorem State.setDieSt_st (s : State) (x v : Nat) : (s.setDieSt x v).st = s.st := rfl
@[simp] theorem State.setDieSt_upd (s : State) (x v : Nat) : (s.setDieSt x v).upd = s.upd := rfl
@[simp] theorem State.setDieSt_tst (s : State) (x v : Nat) : (s.setDieSt x v).tst = s.tst := rfl
@[simp] theorem State.setDieSt_pat (s : State) (x v : Nat) : (s.setDieSt x v).pat = s.pat := rfl
@[simp] theorem State.setDieSt_stdin (s : State) (x v : Nat) : (s.setDieSt x v).stdin = s.stdin := rfl
@[simp] theorem State.setDieSt_remote (s : State) (x v : Nat) : (s.setDieSt x v).remote = s.remote := rfl
@[simp] theorem State.setDieSt_freeCtr (s : State) (x v : Nat) : (s.setDieSt x v).freeCtr = s.freeCtr := rfl
@[simp] theorem State.setDieSt_time (s : State) (x v : Nat) : (s.setDieSt x v).time = s.time := rfl
@[simp] theorem State.setDieSt_pending (s : State) (x v : Nat) : (s.setDieSt x v).pending = s.pending := rfl

@[simp] theorem State.causeOn_order (s : State) (n : Nat) : (s.causeOn n).order = s.order := rfl
@[simp] theorem State.causeOn_modes (s : State) (n : Nat) : (s.causeOn n).modes = s.modes := rfl
@[simp] theorem State.causeOn_pow (s : State) (n : Nat) : (s.causeOn n).pow = s.pow := rfl
@[simp] theorem State.causeOn_clk (s : State) (n : Nat) : (s.causeOn n).clk = s.clk := rfl
@[simp] theorem State.causeOn_leases (s : State) (n : Nat) : (s.causeOn n).leases = s.leases := rfl
@[simp] theorem State.causeOn_a (s : State) (n : Nat) : (s.causeOn n).a = s.a := rfl
@[simp] theorem State.causeOn_b (s : State) (n : Nat) : (s.causeOn n).b = s.b := rfl
@[simp] theorem State.causeOn_fd (s : State) (n : Nat) : (s.causeOn n).fd = s.fd := rfl
@[simp] theorem State.causeOn_regs (s : State) (n : Nat) : (s.causeOn n).regs = s.regs := rfl
@[simp] theorem State.causeOn_pers (s : State) (n : Nat) : (s.causeOn n).pers = s.pers := rfl
@[simp] theorem State.causeOn_br (s : State) (n : Nat) : (s.causeOn n).br = s.br := rfl
@[simp] theorem State.causeOn_rings (s : State) (n : Nat) : (s.causeOn n).rings = s.rings := rfl
@[simp] theorem State.causeOn_crc (s : State) (n : Nat) : (s.causeOn n).crc = s.crc := rfl
@[simp] theorem State.causeOn_tmr (s : State) (n : Nat) : (s.causeOn n).tmr = s.tmr := rfl
@[simp] theorem State.causeOn_otp (s : State) (n : Nat) : (s.causeOn n).otp = s.otp := rfl
@[simp] theorem State.causeOn_bkp (s : State) (n : Nat) : (s.causeOn n).bkp = s.bkp := rfl
@[simp] theorem State.causeOn_keys (s : State) (n : Nat) : (s.causeOn n).keys = s.keys := rfl
@[simp] theorem State.causeOn_st (s : State) (n : Nat) : (s.causeOn n).st = s.st := rfl
@[simp] theorem State.causeOn_upd (s : State) (n : Nat) : (s.causeOn n).upd = s.upd := rfl
@[simp] theorem State.causeOn_tst (s : State) (n : Nat) : (s.causeOn n).tst = s.tst := rfl
@[simp] theorem State.causeOn_pat (s : State) (n : Nat) : (s.causeOn n).pat = s.pat := rfl
@[simp] theorem State.causeOn_stdin (s : State) (n : Nat) : (s.causeOn n).stdin = s.stdin := rfl
@[simp] theorem State.causeOn_remote (s : State) (n : Nat) : (s.causeOn n).remote = s.remote := rfl
@[simp] theorem State.causeOn_freeCtr (s : State) (n : Nat) : (s.causeOn n).freeCtr = s.freeCtr := rfl
@[simp] theorem State.causeOn_time (s : State) (n : Nat) : (s.causeOn n).time = s.time := rfl
@[simp] theorem State.causeOn_pending (s : State) (n : Nat) : (s.causeOn n).pending = s.pending := rfl

@[simp] theorem State.causeOff_order (s : State) (n : Nat) : (s.causeOff n).order = s.order := rfl
@[simp] theorem State.causeOff_modes (s : State) (n : Nat) : (s.causeOff n).modes = s.modes := rfl
@[simp] theorem State.causeOff_pow (s : State) (n : Nat) : (s.causeOff n).pow = s.pow := rfl
@[simp] theorem State.causeOff_clk (s : State) (n : Nat) : (s.causeOff n).clk = s.clk := rfl
@[simp] theorem State.causeOff_leases (s : State) (n : Nat) : (s.causeOff n).leases = s.leases := rfl
@[simp] theorem State.causeOff_a (s : State) (n : Nat) : (s.causeOff n).a = s.a := rfl
@[simp] theorem State.causeOff_b (s : State) (n : Nat) : (s.causeOff n).b = s.b := rfl
@[simp] theorem State.causeOff_fd (s : State) (n : Nat) : (s.causeOff n).fd = s.fd := rfl
@[simp] theorem State.causeOff_regs (s : State) (n : Nat) : (s.causeOff n).regs = s.regs := rfl
@[simp] theorem State.causeOff_pers (s : State) (n : Nat) : (s.causeOff n).pers = s.pers := rfl
@[simp] theorem State.causeOff_br (s : State) (n : Nat) : (s.causeOff n).br = s.br := rfl
@[simp] theorem State.causeOff_rings (s : State) (n : Nat) : (s.causeOff n).rings = s.rings := rfl
@[simp] theorem State.causeOff_crc (s : State) (n : Nat) : (s.causeOff n).crc = s.crc := rfl
@[simp] theorem State.causeOff_tmr (s : State) (n : Nat) : (s.causeOff n).tmr = s.tmr := rfl
@[simp] theorem State.causeOff_otp (s : State) (n : Nat) : (s.causeOff n).otp = s.otp := rfl
@[simp] theorem State.causeOff_bkp (s : State) (n : Nat) : (s.causeOff n).bkp = s.bkp := rfl
@[simp] theorem State.causeOff_keys (s : State) (n : Nat) : (s.causeOff n).keys = s.keys := rfl
@[simp] theorem State.causeOff_st (s : State) (n : Nat) : (s.causeOff n).st = s.st := rfl
@[simp] theorem State.causeOff_upd (s : State) (n : Nat) : (s.causeOff n).upd = s.upd := rfl
@[simp] theorem State.causeOff_tst (s : State) (n : Nat) : (s.causeOff n).tst = s.tst := rfl
@[simp] theorem State.causeOff_pat (s : State) (n : Nat) : (s.causeOff n).pat = s.pat := rfl
@[simp] theorem State.causeOff_stdin (s : State) (n : Nat) : (s.causeOff n).stdin = s.stdin := rfl
@[simp] theorem State.causeOff_remote (s : State) (n : Nat) : (s.causeOff n).remote = s.remote := rfl
@[simp] theorem State.causeOff_freeCtr (s : State) (n : Nat) : (s.causeOff n).freeCtr = s.freeCtr := rfl
@[simp] theorem State.causeOff_time (s : State) (n : Nat) : (s.causeOff n).time = s.time := rfl
@[simp] theorem State.causeOff_pending (s : State) (n : Nat) : (s.causeOff n).pending = s.pending := rfl

@[simp] theorem State.trip_order (s : State) : (s.trip).order = s.order := rfl
@[simp] theorem State.trip_modes (s : State) : (s.trip).modes = s.modes := rfl
@[simp] theorem State.trip_pow (s : State) : (s.trip).pow = s.pow := rfl
@[simp] theorem State.trip_clk (s : State) : (s.trip).clk = s.clk := rfl
@[simp] theorem State.trip_leases (s : State) : (s.trip).leases = s.leases := rfl
@[simp] theorem State.trip_a (s : State) : (s.trip).a = s.a := rfl
@[simp] theorem State.trip_b (s : State) : (s.trip).b = s.b := rfl
@[simp] theorem State.trip_fd (s : State) : (s.trip).fd = s.fd := rfl
@[simp] theorem State.trip_regs (s : State) : (s.trip).regs = s.regs := rfl
@[simp] theorem State.trip_pers (s : State) : (s.trip).pers = s.pers := rfl
@[simp] theorem State.trip_br (s : State) : (s.trip).br = s.br := rfl
@[simp] theorem State.trip_rings (s : State) : (s.trip).rings = s.rings := rfl
@[simp] theorem State.trip_crc (s : State) : (s.trip).crc = s.crc := rfl
@[simp] theorem State.trip_tmr (s : State) : (s.trip).tmr = s.tmr := rfl
@[simp] theorem State.trip_otp (s : State) : (s.trip).otp = s.otp := rfl
@[simp] theorem State.trip_bkp (s : State) : (s.trip).bkp = s.bkp := rfl
@[simp] theorem State.trip_keys (s : State) : (s.trip).keys = s.keys := rfl
@[simp] theorem State.trip_st (s : State) : (s.trip).st = s.st := rfl
@[simp] theorem State.trip_upd (s : State) : (s.trip).upd = s.upd := rfl
@[simp] theorem State.trip_tst (s : State) : (s.trip).tst = s.tst := rfl
@[simp] theorem State.trip_pat (s : State) : (s.trip).pat = s.pat := rfl
@[simp] theorem State.trip_stdin (s : State) : (s.trip).stdin = s.stdin := rfl
@[simp] theorem State.trip_remote (s : State) : (s.trip).remote = s.remote := rfl
@[simp] theorem State.trip_freeCtr (s : State) : (s.trip).freeCtr = s.freeCtr := rfl
@[simp] theorem State.trip_time (s : State) : (s.trip).time = s.time := rfl
@[simp] theorem State.trip_pending (s : State) : (s.trip).pending = s.pending := rfl

@[simp] theorem State.driveTrips_order (s : State) : (s.driveTrips).order = s.order := rfl
@[simp] theorem State.driveTrips_modes (s : State) : (s.driveTrips).modes = s.modes := rfl
@[simp] theorem State.driveTrips_pow (s : State) : (s.driveTrips).pow = s.pow := rfl
@[simp] theorem State.driveTrips_clk (s : State) : (s.driveTrips).clk = s.clk := rfl
@[simp] theorem State.driveTrips_flt (s : State) : (s.driveTrips).flt = s.flt := rfl
@[simp] theorem State.driveTrips_leases (s : State) : (s.driveTrips).leases = s.leases := rfl
@[simp] theorem State.driveTrips_a (s : State) : (s.driveTrips).a = s.a := rfl
@[simp] theorem State.driveTrips_b (s : State) : (s.driveTrips).b = s.b := rfl
@[simp] theorem State.driveTrips_regs (s : State) : (s.driveTrips).regs = s.regs := rfl
@[simp] theorem State.driveTrips_pers (s : State) : (s.driveTrips).pers = s.pers := rfl
@[simp] theorem State.driveTrips_br (s : State) : (s.driveTrips).br = s.br := rfl
@[simp] theorem State.driveTrips_rings (s : State) : (s.driveTrips).rings = s.rings := rfl
@[simp] theorem State.driveTrips_crc (s : State) : (s.driveTrips).crc = s.crc := rfl
@[simp] theorem State.driveTrips_tmr (s : State) : (s.driveTrips).tmr = s.tmr := rfl
@[simp] theorem State.driveTrips_otp (s : State) : (s.driveTrips).otp = s.otp := rfl
@[simp] theorem State.driveTrips_bkp (s : State) : (s.driveTrips).bkp = s.bkp := rfl
@[simp] theorem State.driveTrips_keys (s : State) : (s.driveTrips).keys = s.keys := rfl
@[simp] theorem State.driveTrips_st (s : State) : (s.driveTrips).st = s.st := rfl
@[simp] theorem State.driveTrips_upd (s : State) : (s.driveTrips).upd = s.upd := rfl
@[simp] theorem State.driveTrips_tst (s : State) : (s.driveTrips).tst = s.tst := rfl
@[simp] theorem State.driveTrips_pat (s : State) : (s.driveTrips).pat = s.pat := rfl
@[simp] theorem State.driveTrips_stdin (s : State) : (s.driveTrips).stdin = s.stdin := rfl
@[simp] theorem State.driveTrips_remote (s : State) : (s.driveTrips).remote = s.remote := rfl
@[simp] theorem State.driveTrips_freeCtr (s : State) : (s.driveTrips).freeCtr = s.freeCtr := rfl
@[simp] theorem State.driveTrips_time (s : State) : (s.driveTrips).time = s.time := rfl
@[simp] theorem State.driveTrips_pending (s : State) : (s.driveTrips).pending = s.pending := rfl

@[simp] theorem State.tripNow_order (s : State) : (s.tripNow).order = s.order := rfl
@[simp] theorem State.tripNow_modes (s : State) : (s.tripNow).modes = s.modes := rfl
@[simp] theorem State.tripNow_pow (s : State) : (s.tripNow).pow = s.pow := rfl
@[simp] theorem State.tripNow_clk (s : State) : (s.tripNow).clk = s.clk := rfl
@[simp] theorem State.tripNow_leases (s : State) : (s.tripNow).leases = s.leases := rfl
@[simp] theorem State.tripNow_a (s : State) : (s.tripNow).a = s.a := rfl
@[simp] theorem State.tripNow_b (s : State) : (s.tripNow).b = s.b := rfl
@[simp] theorem State.tripNow_regs (s : State) : (s.tripNow).regs = s.regs := rfl
@[simp] theorem State.tripNow_pers (s : State) : (s.tripNow).pers = s.pers := rfl
@[simp] theorem State.tripNow_br (s : State) : (s.tripNow).br = s.br := rfl
@[simp] theorem State.tripNow_rings (s : State) : (s.tripNow).rings = s.rings := rfl
@[simp] theorem State.tripNow_crc (s : State) : (s.tripNow).crc = s.crc := rfl
@[simp] theorem State.tripNow_tmr (s : State) : (s.tripNow).tmr = s.tmr := rfl
@[simp] theorem State.tripNow_otp (s : State) : (s.tripNow).otp = s.otp := rfl
@[simp] theorem State.tripNow_bkp (s : State) : (s.tripNow).bkp = s.bkp := rfl
@[simp] theorem State.tripNow_keys (s : State) : (s.tripNow).keys = s.keys := rfl
@[simp] theorem State.tripNow_st (s : State) : (s.tripNow).st = s.st := rfl
@[simp] theorem State.tripNow_upd (s : State) : (s.tripNow).upd = s.upd := rfl
@[simp] theorem State.tripNow_tst (s : State) : (s.tripNow).tst = s.tst := rfl
@[simp] theorem State.tripNow_pat (s : State) : (s.tripNow).pat = s.pat := rfl
@[simp] theorem State.tripNow_stdin (s : State) : (s.tripNow).stdin = s.stdin := rfl
@[simp] theorem State.tripNow_remote (s : State) : (s.tripNow).remote = s.remote := rfl
@[simp] theorem State.tripNow_freeCtr (s : State) : (s.tripNow).freeCtr = s.freeCtr := rfl
@[simp] theorem State.tripNow_time (s : State) : (s.tripNow).time = s.time := rfl
@[simp] theorem State.tripNow_pending (s : State) : (s.tripNow).pending = s.pending := rfl

@[simp] theorem State.setTimer_order (s : State) (k : Nat) (x : Tmr) : (s.setTimer k x).order = s.order := rfl
@[simp] theorem State.setTimer_modes (s : State) (k : Nat) (x : Tmr) : (s.setTimer k x).modes = s.modes := rfl
@[simp] theorem State.setTimer_pow (s : State) (k : Nat) (x : Tmr) : (s.setTimer k x).pow = s.pow := rfl
@[simp] theorem State.setTimer_clk (s : State) (k : Nat) (x : Tmr) : (s.setTimer k x).clk = s.clk := rfl
@[simp] theorem State.setTimer_flt (s : State) (k : Nat) (x : Tmr) : (s.setTimer k x).flt = s.flt := rfl
@[simp] theorem State.setTimer_leases (s : State) (k : Nat) (x : Tmr) : (s.setTimer k x).leases = s.leases := rfl
@[simp] theorem State.setTimer_a (s : State) (k : Nat) (x : Tmr) : (s.setTimer k x).a = s.a := rfl
@[simp] theorem State.setTimer_b (s : State) (k : Nat) (x : Tmr) : (s.setTimer k x).b = s.b := rfl
@[simp] theorem State.setTimer_fd (s : State) (k : Nat) (x : Tmr) : (s.setTimer k x).fd = s.fd := rfl
@[simp] theorem State.setTimer_regs (s : State) (k : Nat) (x : Tmr) : (s.setTimer k x).regs = s.regs := rfl
@[simp] theorem State.setTimer_pers (s : State) (k : Nat) (x : Tmr) : (s.setTimer k x).pers = s.pers := rfl
@[simp] theorem State.setTimer_br (s : State) (k : Nat) (x : Tmr) : (s.setTimer k x).br = s.br := rfl
@[simp] theorem State.setTimer_rings (s : State) (k : Nat) (x : Tmr) : (s.setTimer k x).rings = s.rings := rfl
@[simp] theorem State.setTimer_crc (s : State) (k : Nat) (x : Tmr) : (s.setTimer k x).crc = s.crc := rfl
@[simp] theorem State.setTimer_otp (s : State) (k : Nat) (x : Tmr) : (s.setTimer k x).otp = s.otp := rfl
@[simp] theorem State.setTimer_bkp (s : State) (k : Nat) (x : Tmr) : (s.setTimer k x).bkp = s.bkp := rfl
@[simp] theorem State.setTimer_keys (s : State) (k : Nat) (x : Tmr) : (s.setTimer k x).keys = s.keys := rfl
@[simp] theorem State.setTimer_st (s : State) (k : Nat) (x : Tmr) : (s.setTimer k x).st = s.st := rfl
@[simp] theorem State.setTimer_upd (s : State) (k : Nat) (x : Tmr) : (s.setTimer k x).upd = s.upd := rfl
@[simp] theorem State.setTimer_tst (s : State) (k : Nat) (x : Tmr) : (s.setTimer k x).tst = s.tst := rfl
@[simp] theorem State.setTimer_pat (s : State) (k : Nat) (x : Tmr) : (s.setTimer k x).pat = s.pat := rfl
@[simp] theorem State.setTimer_stdin (s : State) (k : Nat) (x : Tmr) : (s.setTimer k x).stdin = s.stdin := rfl
@[simp] theorem State.setTimer_remote (s : State) (k : Nat) (x : Tmr) : (s.setTimer k x).remote = s.remote := rfl
@[simp] theorem State.setTimer_freeCtr (s : State) (k : Nat) (x : Tmr) : (s.setTimer k x).freeCtr = s.freeCtr := rfl
@[simp] theorem State.setTimer_time (s : State) (k : Nat) (x : Tmr) : (s.setTimer k x).time = s.time := rfl
@[simp] theorem State.setTimer_pending (s : State) (k : Nat) (x : Tmr) : (s.setTimer k x).pending = s.pending := rfl

@[simp] theorem State.setDie_order (s : State) (d : Die) (l : LDie) : (s.setDie d l).order = s.order := by cases d <;> rfl
@[simp] theorem State.setDie_modes (s : State) (d : Die) (l : LDie) : (s.setDie d l).modes = s.modes := by cases d <;> rfl
@[simp] theorem State.setDie_pow (s : State) (d : Die) (l : LDie) : (s.setDie d l).pow = s.pow := by cases d <;> rfl
@[simp] theorem State.setDie_clk (s : State) (d : Die) (l : LDie) : (s.setDie d l).clk = s.clk := by cases d <;> rfl
@[simp] theorem State.setDie_flt (s : State) (d : Die) (l : LDie) : (s.setDie d l).flt = s.flt := by cases d <;> rfl
@[simp] theorem State.setDie_leases (s : State) (d : Die) (l : LDie) : (s.setDie d l).leases = s.leases := by cases d <;> rfl
@[simp] theorem State.setDie_fd (s : State) (d : Die) (l : LDie) : (s.setDie d l).fd = s.fd := by cases d <;> rfl
@[simp] theorem State.setDie_regs (s : State) (d : Die) (l : LDie) : (s.setDie d l).regs = s.regs := by cases d <;> rfl
@[simp] theorem State.setDie_pers (s : State) (d : Die) (l : LDie) : (s.setDie d l).pers = s.pers := by cases d <;> rfl
@[simp] theorem State.setDie_br (s : State) (d : Die) (l : LDie) : (s.setDie d l).br = s.br := by cases d <;> rfl
@[simp] theorem State.setDie_rings (s : State) (d : Die) (l : LDie) : (s.setDie d l).rings = s.rings := by cases d <;> rfl
@[simp] theorem State.setDie_crc (s : State) (d : Die) (l : LDie) : (s.setDie d l).crc = s.crc := by cases d <;> rfl
@[simp] theorem State.setDie_tmr (s : State) (d : Die) (l : LDie) : (s.setDie d l).tmr = s.tmr := by cases d <;> rfl
@[simp] theorem State.setDie_otp (s : State) (d : Die) (l : LDie) : (s.setDie d l).otp = s.otp := by cases d <;> rfl
@[simp] theorem State.setDie_bkp (s : State) (d : Die) (l : LDie) : (s.setDie d l).bkp = s.bkp := by cases d <;> rfl
@[simp] theorem State.setDie_keys (s : State) (d : Die) (l : LDie) : (s.setDie d l).keys = s.keys := by cases d <;> rfl
@[simp] theorem State.setDie_st (s : State) (d : Die) (l : LDie) : (s.setDie d l).st = s.st := by cases d <;> rfl
@[simp] theorem State.setDie_upd (s : State) (d : Die) (l : LDie) : (s.setDie d l).upd = s.upd := by cases d <;> rfl
@[simp] theorem State.setDie_tst (s : State) (d : Die) (l : LDie) : (s.setDie d l).tst = s.tst := by cases d <;> rfl
@[simp] theorem State.setDie_pat (s : State) (d : Die) (l : LDie) : (s.setDie d l).pat = s.pat := by cases d <;> rfl
@[simp] theorem State.setDie_stdin (s : State) (d : Die) (l : LDie) : (s.setDie d l).stdin = s.stdin := by cases d <;> rfl
@[simp] theorem State.setDie_remote (s : State) (d : Die) (l : LDie) : (s.setDie d l).remote = s.remote := by cases d <;> rfl
@[simp] theorem State.setDie_freeCtr (s : State) (d : Die) (l : LDie) : (s.setDie d l).freeCtr = s.freeCtr := by cases d <;> rfl
@[simp] theorem State.setDie_time (s : State) (d : Die) (l : LDie) : (s.setDie d l).time = s.time := by cases d <;> rfl
@[simp] theorem State.setDie_pending (s : State) (d : Die) (l : LDie) : (s.setDie d l).pending = s.pending := by cases d <;> rfl

@[simp] theorem State.updDie_order (s : State) (d : Die) (f : LDie → LDie) : (s.updDie d f).order = s.order := by cases d <;> rfl
@[simp] theorem State.updDie_modes (s : State) (d : Die) (f : LDie → LDie) : (s.updDie d f).modes = s.modes := by cases d <;> rfl
@[simp] theorem State.updDie_pow (s : State) (d : Die) (f : LDie → LDie) : (s.updDie d f).pow = s.pow := by cases d <;> rfl
@[simp] theorem State.updDie_clk (s : State) (d : Die) (f : LDie → LDie) : (s.updDie d f).clk = s.clk := by cases d <;> rfl
@[simp] theorem State.updDie_flt (s : State) (d : Die) (f : LDie → LDie) : (s.updDie d f).flt = s.flt := by cases d <;> rfl
@[simp] theorem State.updDie_leases (s : State) (d : Die) (f : LDie → LDie) : (s.updDie d f).leases = s.leases := by cases d <;> rfl
@[simp] theorem State.updDie_fd (s : State) (d : Die) (f : LDie → LDie) : (s.updDie d f).fd = s.fd := by cases d <;> rfl
@[simp] theorem State.updDie_regs (s : State) (d : Die) (f : LDie → LDie) : (s.updDie d f).regs = s.regs := by cases d <;> rfl
@[simp] theorem State.updDie_pers (s : State) (d : Die) (f : LDie → LDie) : (s.updDie d f).pers = s.pers := by cases d <;> rfl
@[simp] theorem State.updDie_br (s : State) (d : Die) (f : LDie → LDie) : (s.updDie d f).br = s.br := by cases d <;> rfl
@[simp] theorem State.updDie_rings (s : State) (d : Die) (f : LDie → LDie) : (s.updDie d f).rings = s.rings := by cases d <;> rfl
@[simp] theorem State.updDie_crc (s : State) (d : Die) (f : LDie → LDie) : (s.updDie d f).crc = s.crc := by cases d <;> rfl
@[simp] theorem State.updDie_tmr (s : State) (d : Die) (f : LDie → LDie) : (s.updDie d f).tmr = s.tmr := by cases d <;> rfl
@[simp] theorem State.updDie_otp (s : State) (d : Die) (f : LDie → LDie) : (s.updDie d f).otp = s.otp := by cases d <;> rfl
@[simp] theorem State.updDie_bkp (s : State) (d : Die) (f : LDie → LDie) : (s.updDie d f).bkp = s.bkp := by cases d <;> rfl
@[simp] theorem State.updDie_keys (s : State) (d : Die) (f : LDie → LDie) : (s.updDie d f).keys = s.keys := by cases d <;> rfl
@[simp] theorem State.updDie_st (s : State) (d : Die) (f : LDie → LDie) : (s.updDie d f).st = s.st := by cases d <;> rfl
@[simp] theorem State.updDie_upd (s : State) (d : Die) (f : LDie → LDie) : (s.updDie d f).upd = s.upd := by cases d <;> rfl
@[simp] theorem State.updDie_tst (s : State) (d : Die) (f : LDie → LDie) : (s.updDie d f).tst = s.tst := by cases d <;> rfl
@[simp] theorem State.updDie_pat (s : State) (d : Die) (f : LDie → LDie) : (s.updDie d f).pat = s.pat := by cases d <;> rfl
@[simp] theorem State.updDie_stdin (s : State) (d : Die) (f : LDie → LDie) : (s.updDie d f).stdin = s.stdin := by cases d <;> rfl
@[simp] theorem State.updDie_remote (s : State) (d : Die) (f : LDie → LDie) : (s.updDie d f).remote = s.remote := by cases d <;> rfl
@[simp] theorem State.updDie_freeCtr (s : State) (d : Die) (f : LDie → LDie) : (s.updDie d f).freeCtr = s.freeCtr := by cases d <;> rfl
@[simp] theorem State.updDie_time (s : State) (d : Die) (f : LDie → LDie) : (s.updDie d f).time = s.time := by cases d <;> rfl
@[simp] theorem State.updDie_pending (s : State) (d : Die) (f : LDie → LDie) : (s.updDie d f).pending = s.pending := by cases d <;> rfl

@[simp] theorem State.free_order (s : State) : (s.free.2).order = s.order := rfl
@[simp] theorem State.free_modes (s : State) : (s.free.2).modes = s.modes := rfl
@[simp] theorem State.free_pow (s : State) : (s.free.2).pow = s.pow := rfl
@[simp] theorem State.free_clk (s : State) : (s.free.2).clk = s.clk := rfl
@[simp] theorem State.free_flt (s : State) : (s.free.2).flt = s.flt := rfl
@[simp] theorem State.free_leases (s : State) : (s.free.2).leases = s.leases := rfl
@[simp] theorem State.free_a (s : State) : (s.free.2).a = s.a := rfl
@[simp] theorem State.free_b (s : State) : (s.free.2).b = s.b := rfl
@[simp] theorem State.free_fd (s : State) : (s.free.2).fd = s.fd := rfl
@[simp] theorem State.free_regs (s : State) : (s.free.2).regs = s.regs := rfl
@[simp] theorem State.free_pers (s : State) : (s.free.2).pers = s.pers := rfl
@[simp] theorem State.free_br (s : State) : (s.free.2).br = s.br := rfl
@[simp] theorem State.free_rings (s : State) : (s.free.2).rings = s.rings := rfl
@[simp] theorem State.free_crc (s : State) : (s.free.2).crc = s.crc := rfl
@[simp] theorem State.free_tmr (s : State) : (s.free.2).tmr = s.tmr := rfl
@[simp] theorem State.free_otp (s : State) : (s.free.2).otp = s.otp := rfl
@[simp] theorem State.free_bkp (s : State) : (s.free.2).bkp = s.bkp := rfl
@[simp] theorem State.free_keys (s : State) : (s.free.2).keys = s.keys := rfl
@[simp] theorem State.free_st (s : State) : (s.free.2).st = s.st := rfl
@[simp] theorem State.free_upd (s : State) : (s.free.2).upd = s.upd := rfl
@[simp] theorem State.free_tst (s : State) : (s.free.2).tst = s.tst := rfl
@[simp] theorem State.free_pat (s : State) : (s.free.2).pat = s.pat := rfl
@[simp] theorem State.free_stdin (s : State) : (s.free.2).stdin = s.stdin := rfl
@[simp] theorem State.free_remote (s : State) : (s.free.2).remote = s.remote := rfl
@[simp] theorem State.free_time (s : State) : (s.free.2).time = s.time := rfl
@[simp] theorem State.free_pending (s : State) : (s.free.2).pending = s.pending := rfl

@[simp] theorem State.fenceF_order (s : State) (n : Nat) : (s.fenceF n).order = s.order := rfl
@[simp] theorem State.fenceF_modes (s : State) (n : Nat) : (s.fenceF n).modes = s.modes := rfl
@[simp] theorem State.fenceF_clk (s : State) (n : Nat) : (s.fenceF n).clk = s.clk := rfl
@[simp] theorem State.fenceF_leases (s : State) (n : Nat) : (s.fenceF n).leases = s.leases := rfl
@[simp] theorem State.fenceF_regs (s : State) (n : Nat) : (s.fenceF n).regs = s.regs := rfl
@[simp] theorem State.fenceF_pers (s : State) (n : Nat) : (s.fenceF n).pers = s.pers := rfl
@[simp] theorem State.fenceF_br (s : State) (n : Nat) : (s.fenceF n).br = s.br := rfl
@[simp] theorem State.fenceF_rings (s : State) (n : Nat) : (s.fenceF n).rings = s.rings := rfl
@[simp] theorem State.fenceF_crc (s : State) (n : Nat) : (s.fenceF n).crc = s.crc := rfl
@[simp] theorem State.fenceF_tmr (s : State) (n : Nat) : (s.fenceF n).tmr = s.tmr := rfl
@[simp] theorem State.fenceF_otp (s : State) (n : Nat) : (s.fenceF n).otp = s.otp := rfl
@[simp] theorem State.fenceF_bkp (s : State) (n : Nat) : (s.fenceF n).bkp = s.bkp := rfl
@[simp] theorem State.fenceF_keys (s : State) (n : Nat) : (s.fenceF n).keys = s.keys := rfl
@[simp] theorem State.fenceF_st (s : State) (n : Nat) : (s.fenceF n).st = s.st := rfl
@[simp] theorem State.fenceF_upd (s : State) (n : Nat) : (s.fenceF n).upd = s.upd := rfl
@[simp] theorem State.fenceF_tst (s : State) (n : Nat) : (s.fenceF n).tst = s.tst := rfl
@[simp] theorem State.fenceF_pat (s : State) (n : Nat) : (s.fenceF n).pat = s.pat := rfl
@[simp] theorem State.fenceF_stdin (s : State) (n : Nat) : (s.fenceF n).stdin = s.stdin := rfl
@[simp] theorem State.fenceF_remote (s : State) (n : Nat) : (s.fenceF n).remote = s.remote := rfl
@[simp] theorem State.fenceF_freeCtr (s : State) (n : Nat) : (s.fenceF n).freeCtr = s.freeCtr := rfl
@[simp] theorem State.fenceF_time (s : State) (n : Nat) : (s.fenceF n).time = s.time := rfl
@[simp] theorem State.fenceF_pending (s : State) (n : Nat) : (s.fenceF n).pending = s.pending := rfl

/-! Registers. -/

theorem Regs.get_set_self (r : Regs) (k v : Nat) : Regs.get (Regs.set r k v) k = v := by
  unfold Regs.get Regs.set
  exact Tab.get_set_self _ _ _ _

theorem Regs.get_set_ne (r : Regs) {k n : Nat} (v : Nat) (h : k ≠ n) : Regs.get (Regs.set r k v) n = Regs.get r n := by
  unfold Regs.get Regs.set Tab.set
  generalize odDflt k = e
  generalize odDflt n = e'
  split
  · exact Tab.get_del_ne e' r k n (Ne.symm h)
  · rw [Tab.get_ins_ne e' _ k n v (Ne.symm h), Tab.get_del_ne e' r k n (Ne.symm h)]

@[simp] theorem State.reg_setReg_self (s : State) (idx sub v : Nat) : (s.setReg idx sub v).reg idx sub = v := by
  unfold State.reg State.setReg
  exact Regs.get_set_self s.regs (odKey idx sub) v

theorem State.reg_setReg_ne (s : State) {idx sub i j : Nat} (v : Nat) (h : odKey idx sub ≠ odKey i j) :
    (s.setReg idx sub v).reg i j = s.reg i j := by
  unfold State.reg State.setReg
  exact Regs.get_set_ne s.regs v h

@[simp] theorem State.reg_ans (s : State) (c : Status) (i j : Nat) : (s.ans c).reg i j = s.reg i j := rfl
@[simp] theorem State.reg_ansBusy (s : State) (n : Nat) (i j : Nat) : (s.ansBusy n).reg i j = s.reg i j := rfl
@[simp] theorem State.reg_reply (s : State) (bs : List Byte) (i j : Nat) : (s.reply bs).reg i j = s.reg i j := rfl
@[simp] theorem State.reg_updSeat (s : State) (k : Nat) (f : Seat → Seat) (i j : Nat) : (s.updSeat k f).reg i j = s.reg i j := rfl
@[simp] theorem State.reg_updF (s : State) (n : Nat) (f : FDie → FDie) (i j : Nat) : (s.updF n f).reg i j = s.reg i j := rfl
@[simp] theorem State.reg_setDieSt (s : State) (x v : Nat) (i j : Nat) : (s.setDieSt x v).reg i j = s.reg i j := rfl
@[simp] theorem State.reg_causeOn (s : State) (n : Nat) (i j : Nat) : (s.causeOn n).reg i j = s.reg i j := rfl
@[simp] theorem State.reg_causeOff (s : State) (n : Nat) (i j : Nat) : (s.causeOff n).reg i j = s.reg i j := rfl
@[simp] theorem State.reg_trip (s : State) (i j : Nat) : (s.trip).reg i j = s.reg i j := rfl
@[simp] theorem State.reg_driveTrips (s : State) (i j : Nat) : (s.driveTrips).reg i j = s.reg i j := rfl
@[simp] theorem State.reg_tripNow (s : State) (i j : Nat) : (s.tripNow).reg i j = s.reg i j := rfl
@[simp] theorem State.reg_setTimer (s : State) (k : Nat) (x : Tmr) (i j : Nat) : (s.setTimer k x).reg i j = s.reg i j := rfl
@[simp] theorem State.reg_setDie (s : State) (d : Die) (l : LDie) (i j : Nat) : (s.setDie d l).reg i j = s.reg i j := by cases d <;> rfl
@[simp] theorem State.reg_updDie (s : State) (d : Die) (f : LDie → LDie) (i j : Nat) : (s.updDie d f).reg i j = s.reg i j := by cases d <;> rfl
@[simp] theorem State.reg_free (s : State) (i j : Nat) : (s.free.2).reg i j = s.reg i j := rfl
@[simp] theorem State.reg_fenceF (s : State) (n : Nat) (i j : Nat) : (s.fenceF n).reg i j = s.reg i j := rfl

/-! Dies. -/

@[simp] theorem State.die_setDie (s : State) (d : Die) (l : LDie) : (s.setDie d l).die d = l := by cases d <;> rfl
@[simp] theorem State.die_setDie_peer (s : State) (d : Die) (l : LDie) : (s.setDie d l).die d.peer = s.die d.peer := by cases d <;> rfl
@[simp] theorem State.die_updDie (s : State) (d : Die) (f : LDie → LDie) : (s.updDie d f).die d = f (s.die d) := by cases d <;> rfl
@[simp] theorem State.die_updDie_peer (s : State) (d : Die) (f : LDie → LDie) : (s.updDie d f).die d.peer = s.die d.peer := by
  cases d <;> rfl
@[simp] theorem State.die_setReg (s : State) (idx sub v : Nat) (die : Die) : (s.setReg idx sub v).die die = s.die die := rfl
@[simp] theorem State.die_bump (s : State) (w idx sub : Nat) (die : Die) : (s.bump w idx sub).die die = s.die die := rfl
@[simp] theorem State.die_ans (s : State) (c : Status) (die : Die) : (s.ans c).die die = s.die die := rfl
@[simp] theorem State.die_ansBusy (s : State) (n : Nat) (die : Die) : (s.ansBusy n).die die = s.die die := rfl
@[simp] theorem State.die_reply (s : State) (bs : List Byte) (die : Die) : (s.reply bs).die die = s.die die := rfl
@[simp] theorem State.die_updSeat (s : State) (k : Nat) (f : Seat → Seat) (die : Die) : (s.updSeat k f).die die = s.die die := rfl
@[simp] theorem State.die_updF (s : State) (n : Nat) (f : FDie → FDie) (die : Die) : (s.updF n f).die die = s.die die := rfl
@[simp] theorem State.die_setDieSt (s : State) (x v : Nat) (die : Die) : (s.setDieSt x v).die die = s.die die := rfl
@[simp] theorem State.die_causeOn (s : State) (n : Nat) (die : Die) : (s.causeOn n).die die = s.die die := rfl
@[simp] theorem State.die_causeOff (s : State) (n : Nat) (die : Die) : (s.causeOff n).die die = s.die die := rfl
@[simp] theorem State.die_trip (s : State) (die : Die) : (s.trip).die die = s.die die := rfl
@[simp] theorem State.die_driveTrips (s : State) (die : Die) : (s.driveTrips).die die = s.die die := rfl
@[simp] theorem State.die_tripNow (s : State) (die : Die) : (s.tripNow).die die = s.die die := rfl
@[simp] theorem State.die_setTimer (s : State) (k : Nat) (x : Tmr) (die : Die) : (s.setTimer k x).die die = s.die die := rfl
@[simp] theorem State.die_free (s : State) (die : Die) : (s.free.2).die die = s.die die := rfl

/-! DIE_STATE. -/

@[simp] theorem State.dieSt_setDieSt (s : State) (x v : Nat) : (s.setDieSt x v).dieSt x = v := by
  unfold State.dieSt State.setDieSt
  exact Tab.get_set_self (0 : Nat) s.flt.die x v

@[simp] theorem State.dieSt_setReg (s : State) (idx sub v : Nat) (die : Nat) : (s.setReg idx sub v).dieSt die = s.dieSt die := rfl
@[simp] theorem State.dieSt_bump (s : State) (w idx sub : Nat) (die : Nat) : (s.bump w idx sub).dieSt die = s.dieSt die := rfl
@[simp] theorem State.dieSt_ans (s : State) (c : Status) (die : Nat) : (s.ans c).dieSt die = s.dieSt die := rfl
@[simp] theorem State.dieSt_ansBusy (s : State) (n : Nat) (die : Nat) : (s.ansBusy n).dieSt die = s.dieSt die := rfl
@[simp] theorem State.dieSt_reply (s : State) (bs : List Byte) (die : Nat) : (s.reply bs).dieSt die = s.dieSt die := rfl
@[simp] theorem State.dieSt_updSeat (s : State) (k : Nat) (f : Seat → Seat) (die : Nat) : (s.updSeat k f).dieSt die = s.dieSt die := rfl
@[simp] theorem State.dieSt_updF (s : State) (n : Nat) (f : FDie → FDie) (die : Nat) : (s.updF n f).dieSt die = s.dieSt die := rfl
@[simp] theorem State.dieSt_driveTrips (s : State) (die : Nat) : (s.driveTrips).dieSt die = s.dieSt die := rfl
@[simp] theorem State.dieSt_setTimer (s : State) (k : Nat) (x : Tmr) (die : Nat) : (s.setTimer k x).dieSt die = s.dieSt die := rfl
@[simp] theorem State.dieSt_setDie (s : State) (d : Die) (l : LDie) (die : Nat) : (s.setDie d l).dieSt die = s.dieSt die := by cases d <;> rfl
@[simp] theorem State.dieSt_updDie (s : State) (d : Die) (f : LDie → LDie) (die : Nat) : (s.updDie d f).dieSt die = s.dieSt die := by cases d <;> rfl
@[simp] theorem State.dieSt_free (s : State) (die : Nat) : (s.free.2).dieSt die = s.dieSt die := rfl

/-! Operations that latch, react or record. -/

@[simp] theorem State.bumpOnce_order (s : State) (d : Die) (w idx sub : Nat) : (s.bumpOnce d w idx sub).order = s.order :=
  (State.bumpOnce_only s d w idx sub (Only.refl 0x200 s) rfl).order rfl
@[simp] theorem State.bumpOnce_modes (s : State) (d : Die) (w idx sub : Nat) : (s.bumpOnce d w idx sub).modes = s.modes :=
  (State.bumpOnce_only s d w idx sub (Only.refl 0x200 s) rfl).modes rfl
@[simp] theorem State.bumpOnce_pow (s : State) (d : Die) (w idx sub : Nat) : (s.bumpOnce d w idx sub).pow = s.pow :=
  (State.bumpOnce_only s d w idx sub (Only.refl 0x200 s) rfl).pow rfl
@[simp] theorem State.bumpOnce_clk (s : State) (d : Die) (w idx sub : Nat) : (s.bumpOnce d w idx sub).clk = s.clk :=
  (State.bumpOnce_only s d w idx sub (Only.refl 0x200 s) rfl).clk rfl
@[simp] theorem State.bumpOnce_flt (s : State) (d : Die) (w idx sub : Nat) : (s.bumpOnce d w idx sub).flt = s.flt :=
  (State.bumpOnce_only s d w idx sub (Only.refl 0x200 s) rfl).flt rfl
@[simp] theorem State.bumpOnce_leases (s : State) (d : Die) (w idx sub : Nat) : (s.bumpOnce d w idx sub).leases = s.leases :=
  (State.bumpOnce_only s d w idx sub (Only.refl 0x200 s) rfl).leases rfl
@[simp] theorem State.bumpOnce_a (s : State) (d : Die) (w idx sub : Nat) : (s.bumpOnce d w idx sub).a = s.a :=
  (State.bumpOnce_only s d w idx sub (Only.refl 0x200 s) rfl).a rfl
@[simp] theorem State.bumpOnce_b (s : State) (d : Die) (w idx sub : Nat) : (s.bumpOnce d w idx sub).b = s.b :=
  (State.bumpOnce_only s d w idx sub (Only.refl 0x200 s) rfl).b rfl
@[simp] theorem State.bumpOnce_fd (s : State) (d : Die) (w idx sub : Nat) : (s.bumpOnce d w idx sub).fd = s.fd :=
  (State.bumpOnce_only s d w idx sub (Only.refl 0x200 s) rfl).fd rfl
@[simp] theorem State.bumpOnce_pers (s : State) (d : Die) (w idx sub : Nat) : (s.bumpOnce d w idx sub).pers = s.pers :=
  (State.bumpOnce_only s d w idx sub (Only.refl 0x200 s) rfl).pers rfl
@[simp] theorem State.bumpOnce_br (s : State) (d : Die) (w idx sub : Nat) : (s.bumpOnce d w idx sub).br = s.br :=
  (State.bumpOnce_only s d w idx sub (Only.refl 0x200 s) rfl).br rfl
@[simp] theorem State.bumpOnce_rings (s : State) (d : Die) (w idx sub : Nat) : (s.bumpOnce d w idx sub).rings = s.rings :=
  (State.bumpOnce_only s d w idx sub (Only.refl 0x200 s) rfl).rings rfl
@[simp] theorem State.bumpOnce_crc (s : State) (d : Die) (w idx sub : Nat) : (s.bumpOnce d w idx sub).crc = s.crc :=
  (State.bumpOnce_only s d w idx sub (Only.refl 0x200 s) rfl).crc rfl
@[simp] theorem State.bumpOnce_tmr (s : State) (d : Die) (w idx sub : Nat) : (s.bumpOnce d w idx sub).tmr = s.tmr :=
  (State.bumpOnce_only s d w idx sub (Only.refl 0x200 s) rfl).tmr rfl
@[simp] theorem State.bumpOnce_otp (s : State) (d : Die) (w idx sub : Nat) : (s.bumpOnce d w idx sub).otp = s.otp :=
  (State.bumpOnce_only s d w idx sub (Only.refl 0x200 s) rfl).otp rfl
@[simp] theorem State.bumpOnce_bkp (s : State) (d : Die) (w idx sub : Nat) : (s.bumpOnce d w idx sub).bkp = s.bkp :=
  (State.bumpOnce_only s d w idx sub (Only.refl 0x200 s) rfl).bkp rfl
@[simp] theorem State.bumpOnce_keys (s : State) (d : Die) (w idx sub : Nat) : (s.bumpOnce d w idx sub).keys = s.keys :=
  (State.bumpOnce_only s d w idx sub (Only.refl 0x200 s) rfl).keys rfl
@[simp] theorem State.bumpOnce_st (s : State) (d : Die) (w idx sub : Nat) : (s.bumpOnce d w idx sub).st = s.st :=
  (State.bumpOnce_only s d w idx sub (Only.refl 0x200 s) rfl).st rfl
@[simp] theorem State.bumpOnce_upd (s : State) (d : Die) (w idx sub : Nat) : (s.bumpOnce d w idx sub).upd = s.upd :=
  (State.bumpOnce_only s d w idx sub (Only.refl 0x200 s) rfl).upd rfl
@[simp] theorem State.bumpOnce_tst (s : State) (d : Die) (w idx sub : Nat) : (s.bumpOnce d w idx sub).tst = s.tst :=
  (State.bumpOnce_only s d w idx sub (Only.refl 0x200 s) rfl).tst rfl
@[simp] theorem State.bumpOnce_pat (s : State) (d : Die) (w idx sub : Nat) : (s.bumpOnce d w idx sub).pat = s.pat :=
  (State.bumpOnce_only s d w idx sub (Only.refl 0x200 s) rfl).pat rfl
@[simp] theorem State.bumpOnce_stdin (s : State) (d : Die) (w idx sub : Nat) : (s.bumpOnce d w idx sub).stdin = s.stdin :=
  (State.bumpOnce_only s d w idx sub (Only.refl 0x200 s) rfl).stdin rfl
@[simp] theorem State.bumpOnce_remote (s : State) (d : Die) (w idx sub : Nat) : (s.bumpOnce d w idx sub).remote = s.remote :=
  (State.bumpOnce_only s d w idx sub (Only.refl 0x200 s) rfl).remote rfl
@[simp] theorem State.bumpOnce_freeCtr (s : State) (d : Die) (w idx sub : Nat) : (s.bumpOnce d w idx sub).freeCtr = s.freeCtr :=
  (State.bumpOnce_only s d w idx sub (Only.refl 0x200 s) rfl).freeCtr rfl
@[simp] theorem State.bumpOnce_time (s : State) (d : Die) (w idx sub : Nat) : (s.bumpOnce d w idx sub).time = s.time :=
  (State.bumpOnce_only s d w idx sub (Only.refl 0x200 s) rfl).time rfl
@[simp] theorem State.bumpOnce_pending (s : State) (d : Die) (w idx sub : Nat) : (s.bumpOnce d w idx sub).pending = s.pending :=
  (State.bumpOnce_only s d w idx sub (Only.refl 0x200 s) rfl).pending rfl

@[simp] theorem State.jrnRec_order (s : State) (d : Die) (typ : Nat) (body : List Byte) : (s.jrnRec d typ body).order = s.order :=
  (State.jrnRec_only s d typ body (Only.refl 0x2c0 s) rfl).order rfl
@[simp] theorem State.jrnRec_modes (s : State) (d : Die) (typ : Nat) (body : List Byte) : (s.jrnRec d typ body).modes = s.modes :=
  (State.jrnRec_only s d typ body (Only.refl 0x2c0 s) rfl).modes rfl
@[simp] theorem State.jrnRec_pow (s : State) (d : Die) (typ : Nat) (body : List Byte) : (s.jrnRec d typ body).pow = s.pow :=
  (State.jrnRec_only s d typ body (Only.refl 0x2c0 s) rfl).pow rfl
@[simp] theorem State.jrnRec_clk (s : State) (d : Die) (typ : Nat) (body : List Byte) : (s.jrnRec d typ body).clk = s.clk :=
  (State.jrnRec_only s d typ body (Only.refl 0x2c0 s) rfl).clk rfl
@[simp] theorem State.jrnRec_flt (s : State) (d : Die) (typ : Nat) (body : List Byte) : (s.jrnRec d typ body).flt = s.flt :=
  (State.jrnRec_only s d typ body (Only.refl 0x2c0 s) rfl).flt rfl
@[simp] theorem State.jrnRec_leases (s : State) (d : Die) (typ : Nat) (body : List Byte) : (s.jrnRec d typ body).leases = s.leases :=
  (State.jrnRec_only s d typ body (Only.refl 0x2c0 s) rfl).leases rfl
@[simp] theorem State.jrnRec_fd (s : State) (d : Die) (typ : Nat) (body : List Byte) : (s.jrnRec d typ body).fd = s.fd :=
  (State.jrnRec_only s d typ body (Only.refl 0x2c0 s) rfl).fd rfl
@[simp] theorem State.jrnRec_pers (s : State) (d : Die) (typ : Nat) (body : List Byte) : (s.jrnRec d typ body).pers = s.pers :=
  (State.jrnRec_only s d typ body (Only.refl 0x2c0 s) rfl).pers rfl
@[simp] theorem State.jrnRec_br (s : State) (d : Die) (typ : Nat) (body : List Byte) : (s.jrnRec d typ body).br = s.br :=
  (State.jrnRec_only s d typ body (Only.refl 0x2c0 s) rfl).br rfl
@[simp] theorem State.jrnRec_rings (s : State) (d : Die) (typ : Nat) (body : List Byte) : (s.jrnRec d typ body).rings = s.rings :=
  (State.jrnRec_only s d typ body (Only.refl 0x2c0 s) rfl).rings rfl
@[simp] theorem State.jrnRec_crc (s : State) (d : Die) (typ : Nat) (body : List Byte) : (s.jrnRec d typ body).crc = s.crc :=
  (State.jrnRec_only s d typ body (Only.refl 0x2c0 s) rfl).crc rfl
@[simp] theorem State.jrnRec_tmr (s : State) (d : Die) (typ : Nat) (body : List Byte) : (s.jrnRec d typ body).tmr = s.tmr :=
  (State.jrnRec_only s d typ body (Only.refl 0x2c0 s) rfl).tmr rfl
@[simp] theorem State.jrnRec_otp (s : State) (d : Die) (typ : Nat) (body : List Byte) : (s.jrnRec d typ body).otp = s.otp :=
  (State.jrnRec_only s d typ body (Only.refl 0x2c0 s) rfl).otp rfl
@[simp] theorem State.jrnRec_bkp (s : State) (d : Die) (typ : Nat) (body : List Byte) : (s.jrnRec d typ body).bkp = s.bkp :=
  (State.jrnRec_only s d typ body (Only.refl 0x2c0 s) rfl).bkp rfl
@[simp] theorem State.jrnRec_keys (s : State) (d : Die) (typ : Nat) (body : List Byte) : (s.jrnRec d typ body).keys = s.keys :=
  (State.jrnRec_only s d typ body (Only.refl 0x2c0 s) rfl).keys rfl
@[simp] theorem State.jrnRec_st (s : State) (d : Die) (typ : Nat) (body : List Byte) : (s.jrnRec d typ body).st = s.st :=
  (State.jrnRec_only s d typ body (Only.refl 0x2c0 s) rfl).st rfl
@[simp] theorem State.jrnRec_upd (s : State) (d : Die) (typ : Nat) (body : List Byte) : (s.jrnRec d typ body).upd = s.upd :=
  (State.jrnRec_only s d typ body (Only.refl 0x2c0 s) rfl).upd rfl
@[simp] theorem State.jrnRec_tst (s : State) (d : Die) (typ : Nat) (body : List Byte) : (s.jrnRec d typ body).tst = s.tst :=
  (State.jrnRec_only s d typ body (Only.refl 0x2c0 s) rfl).tst rfl
@[simp] theorem State.jrnRec_pat (s : State) (d : Die) (typ : Nat) (body : List Byte) : (s.jrnRec d typ body).pat = s.pat :=
  (State.jrnRec_only s d typ body (Only.refl 0x2c0 s) rfl).pat rfl
@[simp] theorem State.jrnRec_stdin (s : State) (d : Die) (typ : Nat) (body : List Byte) : (s.jrnRec d typ body).stdin = s.stdin :=
  (State.jrnRec_only s d typ body (Only.refl 0x2c0 s) rfl).stdin rfl
@[simp] theorem State.jrnRec_remote (s : State) (d : Die) (typ : Nat) (body : List Byte) : (s.jrnRec d typ body).remote = s.remote :=
  (State.jrnRec_only s d typ body (Only.refl 0x2c0 s) rfl).remote rfl
@[simp] theorem State.jrnRec_freeCtr (s : State) (d : Die) (typ : Nat) (body : List Byte) : (s.jrnRec d typ body).freeCtr = s.freeCtr :=
  (State.jrnRec_only s d typ body (Only.refl 0x2c0 s) rfl).freeCtr rfl
@[simp] theorem State.jrnRec_time (s : State) (d : Die) (typ : Nat) (body : List Byte) : (s.jrnRec d typ body).time = s.time :=
  (State.jrnRec_only s d typ body (Only.refl 0x2c0 s) rfl).time rfl
@[simp] theorem State.jrnRec_pending (s : State) (d : Die) (typ : Nat) (body : List Byte) : (s.jrnRec d typ body).pending = s.pending :=
  (State.jrnRec_only s d typ body (Only.refl 0x2c0 s) rfl).pending rfl

@[simp] theorem State.event_order (s : State) (d : Die) (kind : Nat) (bytes : List Byte) : (s.event d kind bytes).order = s.order :=
  (State.event_only s d kind bytes (Only.refl 0x2c0 s) rfl).order rfl
@[simp] theorem State.event_modes (s : State) (d : Die) (kind : Nat) (bytes : List Byte) : (s.event d kind bytes).modes = s.modes :=
  (State.event_only s d kind bytes (Only.refl 0x2c0 s) rfl).modes rfl
@[simp] theorem State.event_pow (s : State) (d : Die) (kind : Nat) (bytes : List Byte) : (s.event d kind bytes).pow = s.pow :=
  (State.event_only s d kind bytes (Only.refl 0x2c0 s) rfl).pow rfl
@[simp] theorem State.event_clk (s : State) (d : Die) (kind : Nat) (bytes : List Byte) : (s.event d kind bytes).clk = s.clk :=
  (State.event_only s d kind bytes (Only.refl 0x2c0 s) rfl).clk rfl
@[simp] theorem State.event_flt (s : State) (d : Die) (kind : Nat) (bytes : List Byte) : (s.event d kind bytes).flt = s.flt :=
  (State.event_only s d kind bytes (Only.refl 0x2c0 s) rfl).flt rfl
@[simp] theorem State.event_leases (s : State) (d : Die) (kind : Nat) (bytes : List Byte) : (s.event d kind bytes).leases = s.leases :=
  (State.event_only s d kind bytes (Only.refl 0x2c0 s) rfl).leases rfl
@[simp] theorem State.event_fd (s : State) (d : Die) (kind : Nat) (bytes : List Byte) : (s.event d kind bytes).fd = s.fd :=
  (State.event_only s d kind bytes (Only.refl 0x2c0 s) rfl).fd rfl
@[simp] theorem State.event_pers (s : State) (d : Die) (kind : Nat) (bytes : List Byte) : (s.event d kind bytes).pers = s.pers :=
  (State.event_only s d kind bytes (Only.refl 0x2c0 s) rfl).pers rfl
@[simp] theorem State.event_br (s : State) (d : Die) (kind : Nat) (bytes : List Byte) : (s.event d kind bytes).br = s.br :=
  (State.event_only s d kind bytes (Only.refl 0x2c0 s) rfl).br rfl
@[simp] theorem State.event_rings (s : State) (d : Die) (kind : Nat) (bytes : List Byte) : (s.event d kind bytes).rings = s.rings :=
  (State.event_only s d kind bytes (Only.refl 0x2c0 s) rfl).rings rfl
@[simp] theorem State.event_crc (s : State) (d : Die) (kind : Nat) (bytes : List Byte) : (s.event d kind bytes).crc = s.crc :=
  (State.event_only s d kind bytes (Only.refl 0x2c0 s) rfl).crc rfl
@[simp] theorem State.event_tmr (s : State) (d : Die) (kind : Nat) (bytes : List Byte) : (s.event d kind bytes).tmr = s.tmr :=
  (State.event_only s d kind bytes (Only.refl 0x2c0 s) rfl).tmr rfl
@[simp] theorem State.event_otp (s : State) (d : Die) (kind : Nat) (bytes : List Byte) : (s.event d kind bytes).otp = s.otp :=
  (State.event_only s d kind bytes (Only.refl 0x2c0 s) rfl).otp rfl
@[simp] theorem State.event_bkp (s : State) (d : Die) (kind : Nat) (bytes : List Byte) : (s.event d kind bytes).bkp = s.bkp :=
  (State.event_only s d kind bytes (Only.refl 0x2c0 s) rfl).bkp rfl
@[simp] theorem State.event_keys (s : State) (d : Die) (kind : Nat) (bytes : List Byte) : (s.event d kind bytes).keys = s.keys :=
  (State.event_only s d kind bytes (Only.refl 0x2c0 s) rfl).keys rfl
@[simp] theorem State.event_st (s : State) (d : Die) (kind : Nat) (bytes : List Byte) : (s.event d kind bytes).st = s.st :=
  (State.event_only s d kind bytes (Only.refl 0x2c0 s) rfl).st rfl
@[simp] theorem State.event_upd (s : State) (d : Die) (kind : Nat) (bytes : List Byte) : (s.event d kind bytes).upd = s.upd :=
  (State.event_only s d kind bytes (Only.refl 0x2c0 s) rfl).upd rfl
@[simp] theorem State.event_tst (s : State) (d : Die) (kind : Nat) (bytes : List Byte) : (s.event d kind bytes).tst = s.tst :=
  (State.event_only s d kind bytes (Only.refl 0x2c0 s) rfl).tst rfl
@[simp] theorem State.event_pat (s : State) (d : Die) (kind : Nat) (bytes : List Byte) : (s.event d kind bytes).pat = s.pat :=
  (State.event_only s d kind bytes (Only.refl 0x2c0 s) rfl).pat rfl
@[simp] theorem State.event_stdin (s : State) (d : Die) (kind : Nat) (bytes : List Byte) : (s.event d kind bytes).stdin = s.stdin :=
  (State.event_only s d kind bytes (Only.refl 0x2c0 s) rfl).stdin rfl
@[simp] theorem State.event_remote (s : State) (d : Die) (kind : Nat) (bytes : List Byte) : (s.event d kind bytes).remote = s.remote :=
  (State.event_only s d kind bytes (Only.refl 0x2c0 s) rfl).remote rfl
@[simp] theorem State.event_freeCtr (s : State) (d : Die) (kind : Nat) (bytes : List Byte) : (s.event d kind bytes).freeCtr = s.freeCtr :=
  (State.event_only s d kind bytes (Only.refl 0x2c0 s) rfl).freeCtr rfl
@[simp] theorem State.event_time (s : State) (d : Die) (kind : Nat) (bytes : List Byte) : (s.event d kind bytes).time = s.time :=
  (State.event_only s d kind bytes (Only.refl 0x2c0 s) rfl).time rfl
@[simp] theorem State.event_pending (s : State) (d : Die) (kind : Nat) (bytes : List Byte) : (s.event d kind bytes).pending = s.pending :=
  (State.event_only s d kind bytes (Only.refl 0x2c0 s) rfl).pending rfl

@[simp] theorem State.event2_order (s : State) (kind : Nat) (bytes : List Byte) : (s.event2 kind bytes).order = s.order :=
  (State.event2_only s kind bytes (Only.refl 0x2c0 s) rfl).order rfl
@[simp] theorem State.event2_modes (s : State) (kind : Nat) (bytes : List Byte) : (s.event2 kind bytes).modes = s.modes :=
  (State.event2_only s kind bytes (Only.refl 0x2c0 s) rfl).modes rfl
@[simp] theorem State.event2_pow (s : State) (kind : Nat) (bytes : List Byte) : (s.event2 kind bytes).pow = s.pow :=
  (State.event2_only s kind bytes (Only.refl 0x2c0 s) rfl).pow rfl
@[simp] theorem State.event2_clk (s : State) (kind : Nat) (bytes : List Byte) : (s.event2 kind bytes).clk = s.clk :=
  (State.event2_only s kind bytes (Only.refl 0x2c0 s) rfl).clk rfl
@[simp] theorem State.event2_flt (s : State) (kind : Nat) (bytes : List Byte) : (s.event2 kind bytes).flt = s.flt :=
  (State.event2_only s kind bytes (Only.refl 0x2c0 s) rfl).flt rfl
@[simp] theorem State.event2_leases (s : State) (kind : Nat) (bytes : List Byte) : (s.event2 kind bytes).leases = s.leases :=
  (State.event2_only s kind bytes (Only.refl 0x2c0 s) rfl).leases rfl
@[simp] theorem State.event2_fd (s : State) (kind : Nat) (bytes : List Byte) : (s.event2 kind bytes).fd = s.fd :=
  (State.event2_only s kind bytes (Only.refl 0x2c0 s) rfl).fd rfl
@[simp] theorem State.event2_pers (s : State) (kind : Nat) (bytes : List Byte) : (s.event2 kind bytes).pers = s.pers :=
  (State.event2_only s kind bytes (Only.refl 0x2c0 s) rfl).pers rfl
@[simp] theorem State.event2_br (s : State) (kind : Nat) (bytes : List Byte) : (s.event2 kind bytes).br = s.br :=
  (State.event2_only s kind bytes (Only.refl 0x2c0 s) rfl).br rfl
@[simp] theorem State.event2_rings (s : State) (kind : Nat) (bytes : List Byte) : (s.event2 kind bytes).rings = s.rings :=
  (State.event2_only s kind bytes (Only.refl 0x2c0 s) rfl).rings rfl
@[simp] theorem State.event2_crc (s : State) (kind : Nat) (bytes : List Byte) : (s.event2 kind bytes).crc = s.crc :=
  (State.event2_only s kind bytes (Only.refl 0x2c0 s) rfl).crc rfl
@[simp] theorem State.event2_tmr (s : State) (kind : Nat) (bytes : List Byte) : (s.event2 kind bytes).tmr = s.tmr :=
  (State.event2_only s kind bytes (Only.refl 0x2c0 s) rfl).tmr rfl
@[simp] theorem State.event2_otp (s : State) (kind : Nat) (bytes : List Byte) : (s.event2 kind bytes).otp = s.otp :=
  (State.event2_only s kind bytes (Only.refl 0x2c0 s) rfl).otp rfl
@[simp] theorem State.event2_bkp (s : State) (kind : Nat) (bytes : List Byte) : (s.event2 kind bytes).bkp = s.bkp :=
  (State.event2_only s kind bytes (Only.refl 0x2c0 s) rfl).bkp rfl
@[simp] theorem State.event2_keys (s : State) (kind : Nat) (bytes : List Byte) : (s.event2 kind bytes).keys = s.keys :=
  (State.event2_only s kind bytes (Only.refl 0x2c0 s) rfl).keys rfl
@[simp] theorem State.event2_st (s : State) (kind : Nat) (bytes : List Byte) : (s.event2 kind bytes).st = s.st :=
  (State.event2_only s kind bytes (Only.refl 0x2c0 s) rfl).st rfl
@[simp] theorem State.event2_upd (s : State) (kind : Nat) (bytes : List Byte) : (s.event2 kind bytes).upd = s.upd :=
  (State.event2_only s kind bytes (Only.refl 0x2c0 s) rfl).upd rfl
@[simp] theorem State.event2_tst (s : State) (kind : Nat) (bytes : List Byte) : (s.event2 kind bytes).tst = s.tst :=
  (State.event2_only s kind bytes (Only.refl 0x2c0 s) rfl).tst rfl
@[simp] theorem State.event2_pat (s : State) (kind : Nat) (bytes : List Byte) : (s.event2 kind bytes).pat = s.pat :=
  (State.event2_only s kind bytes (Only.refl 0x2c0 s) rfl).pat rfl
@[simp] theorem State.event2_stdin (s : State) (kind : Nat) (bytes : List Byte) : (s.event2 kind bytes).stdin = s.stdin :=
  (State.event2_only s kind bytes (Only.refl 0x2c0 s) rfl).stdin rfl
@[simp] theorem State.event2_remote (s : State) (kind : Nat) (bytes : List Byte) : (s.event2 kind bytes).remote = s.remote :=
  (State.event2_only s kind bytes (Only.refl 0x2c0 s) rfl).remote rfl
@[simp] theorem State.event2_freeCtr (s : State) (kind : Nat) (bytes : List Byte) : (s.event2 kind bytes).freeCtr = s.freeCtr :=
  (State.event2_only s kind bytes (Only.refl 0x2c0 s) rfl).freeCtr rfl
@[simp] theorem State.event2_time (s : State) (kind : Nat) (bytes : List Byte) : (s.event2 kind bytes).time = s.time :=
  (State.event2_only s kind bytes (Only.refl 0x2c0 s) rfl).time rfl
@[simp] theorem State.event2_pending (s : State) (kind : Nat) (bytes : List Byte) : (s.event2 kind bytes).pending = s.pending :=
  (State.event2_only s kind bytes (Only.refl 0x2c0 s) rfl).pending rfl

@[simp] theorem State.fenceDie_order (s : State) (d : Die) : (s.fenceDie d).order = s.order :=
  (State.fenceDie_only s d (Only.refl 0x104aaf4 s) rfl).order rfl
@[simp] theorem State.fenceDie_modes (s : State) (d : Die) : (s.fenceDie d).modes = s.modes :=
  (State.fenceDie_only s d (Only.refl 0x104aaf4 s) rfl).modes rfl
@[simp] theorem State.fenceDie_clk (s : State) (d : Die) : (s.fenceDie d).clk = s.clk :=
  (State.fenceDie_only s d (Only.refl 0x104aaf4 s) rfl).clk rfl
@[simp] theorem State.fenceDie_fd (s : State) (d : Die) : (s.fenceDie d).fd = s.fd :=
  (State.fenceDie_only s d (Only.refl 0x104aaf4 s) rfl).fd rfl
@[simp] theorem State.fenceDie_pers (s : State) (d : Die) : (s.fenceDie d).pers = s.pers :=
  (State.fenceDie_only s d (Only.refl 0x104aaf4 s) rfl).pers rfl
@[simp] theorem State.fenceDie_rings (s : State) (d : Die) : (s.fenceDie d).rings = s.rings :=
  (State.fenceDie_only s d (Only.refl 0x104aaf4 s) rfl).rings rfl
@[simp] theorem State.fenceDie_tmr (s : State) (d : Die) : (s.fenceDie d).tmr = s.tmr :=
  (State.fenceDie_only s d (Only.refl 0x104aaf4 s) rfl).tmr rfl
@[simp] theorem State.fenceDie_bkp (s : State) (d : Die) : (s.fenceDie d).bkp = s.bkp :=
  (State.fenceDie_only s d (Only.refl 0x104aaf4 s) rfl).bkp rfl
@[simp] theorem State.fenceDie_keys (s : State) (d : Die) : (s.fenceDie d).keys = s.keys :=
  (State.fenceDie_only s d (Only.refl 0x104aaf4 s) rfl).keys rfl
@[simp] theorem State.fenceDie_upd (s : State) (d : Die) : (s.fenceDie d).upd = s.upd :=
  (State.fenceDie_only s d (Only.refl 0x104aaf4 s) rfl).upd rfl
@[simp] theorem State.fenceDie_tst (s : State) (d : Die) : (s.fenceDie d).tst = s.tst :=
  (State.fenceDie_only s d (Only.refl 0x104aaf4 s) rfl).tst rfl
@[simp] theorem State.fenceDie_pat (s : State) (d : Die) : (s.fenceDie d).pat = s.pat :=
  (State.fenceDie_only s d (Only.refl 0x104aaf4 s) rfl).pat rfl
@[simp] theorem State.fenceDie_stdin (s : State) (d : Die) : (s.fenceDie d).stdin = s.stdin :=
  (State.fenceDie_only s d (Only.refl 0x104aaf4 s) rfl).stdin rfl
@[simp] theorem State.fenceDie_remote (s : State) (d : Die) : (s.fenceDie d).remote = s.remote :=
  (State.fenceDie_only s d (Only.refl 0x104aaf4 s) rfl).remote rfl
@[simp] theorem State.fenceDie_time (s : State) (d : Die) : (s.fenceDie d).time = s.time :=
  (State.fenceDie_only s d (Only.refl 0x104aaf4 s) rfl).time rfl
@[simp] theorem State.fenceDie_pending (s : State) (d : Die) : (s.fenceDie d).pending = s.pending :=
  (State.fenceDie_only s d (Only.refl 0x104aaf4 s) rfl).pending rfl

@[simp] theorem State.fenceM_order (s : State) : (s.fenceM).order = s.order :=
  (State.fenceM_only s (Only.refl 0x100aaf4 s) rfl).order rfl
@[simp] theorem State.fenceM_modes (s : State) : (s.fenceM).modes = s.modes :=
  (State.fenceM_only s (Only.refl 0x100aaf4 s) rfl).modes rfl
@[simp] theorem State.fenceM_clk (s : State) : (s.fenceM).clk = s.clk :=
  (State.fenceM_only s (Only.refl 0x100aaf4 s) rfl).clk rfl
@[simp] theorem State.fenceM_fd (s : State) : (s.fenceM).fd = s.fd :=
  (State.fenceM_only s (Only.refl 0x100aaf4 s) rfl).fd rfl
@[simp] theorem State.fenceM_pers (s : State) : (s.fenceM).pers = s.pers :=
  (State.fenceM_only s (Only.refl 0x100aaf4 s) rfl).pers rfl
@[simp] theorem State.fenceM_rings (s : State) : (s.fenceM).rings = s.rings :=
  (State.fenceM_only s (Only.refl 0x100aaf4 s) rfl).rings rfl
@[simp] theorem State.fenceM_tmr (s : State) : (s.fenceM).tmr = s.tmr :=
  (State.fenceM_only s (Only.refl 0x100aaf4 s) rfl).tmr rfl
@[simp] theorem State.fenceM_bkp (s : State) : (s.fenceM).bkp = s.bkp :=
  (State.fenceM_only s (Only.refl 0x100aaf4 s) rfl).bkp rfl
@[simp] theorem State.fenceM_keys (s : State) : (s.fenceM).keys = s.keys :=
  (State.fenceM_only s (Only.refl 0x100aaf4 s) rfl).keys rfl
@[simp] theorem State.fenceM_st (s : State) : (s.fenceM).st = s.st :=
  (State.fenceM_only s (Only.refl 0x100aaf4 s) rfl).st rfl
@[simp] theorem State.fenceM_upd (s : State) : (s.fenceM).upd = s.upd :=
  (State.fenceM_only s (Only.refl 0x100aaf4 s) rfl).upd rfl
@[simp] theorem State.fenceM_tst (s : State) : (s.fenceM).tst = s.tst :=
  (State.fenceM_only s (Only.refl 0x100aaf4 s) rfl).tst rfl
@[simp] theorem State.fenceM_pat (s : State) : (s.fenceM).pat = s.pat :=
  (State.fenceM_only s (Only.refl 0x100aaf4 s) rfl).pat rfl
@[simp] theorem State.fenceM_stdin (s : State) : (s.fenceM).stdin = s.stdin :=
  (State.fenceM_only s (Only.refl 0x100aaf4 s) rfl).stdin rfl
@[simp] theorem State.fenceM_remote (s : State) : (s.fenceM).remote = s.remote :=
  (State.fenceM_only s (Only.refl 0x100aaf4 s) rfl).remote rfl
@[simp] theorem State.fenceM_time (s : State) : (s.fenceM).time = s.time :=
  (State.fenceM_only s (Only.refl 0x100aaf4 s) rfl).time rfl
@[simp] theorem State.fenceM_pending (s : State) : (s.fenceM).pending = s.pending :=
  (State.fenceM_only s (Only.refl 0x100aaf4 s) rfl).pending rfl

@[simp] theorem State.lockAll_order (s : State) : (s.lockAll).order = s.order :=
  (State.lockAll_only s (Only.refl 0x10 s) rfl).order rfl
@[simp] theorem State.lockAll_modes (s : State) : (s.lockAll).modes = s.modes :=
  (State.lockAll_only s (Only.refl 0x10 s) rfl).modes rfl
@[simp] theorem State.lockAll_pow (s : State) : (s.lockAll).pow = s.pow :=
  (State.lockAll_only s (Only.refl 0x10 s) rfl).pow rfl
@[simp] theorem State.lockAll_clk (s : State) : (s.lockAll).clk = s.clk :=
  (State.lockAll_only s (Only.refl 0x10 s) rfl).clk rfl
@[simp] theorem State.lockAll_leases (s : State) : (s.lockAll).leases = s.leases :=
  (State.lockAll_only s (Only.refl 0x10 s) rfl).leases rfl
@[simp] theorem State.lockAll_a (s : State) : (s.lockAll).a = s.a :=
  (State.lockAll_only s (Only.refl 0x10 s) rfl).a rfl
@[simp] theorem State.lockAll_b (s : State) : (s.lockAll).b = s.b :=
  (State.lockAll_only s (Only.refl 0x10 s) rfl).b rfl
@[simp] theorem State.lockAll_fd (s : State) : (s.lockAll).fd = s.fd :=
  (State.lockAll_only s (Only.refl 0x10 s) rfl).fd rfl
@[simp] theorem State.lockAll_regs (s : State) : (s.lockAll).regs = s.regs :=
  (State.lockAll_only s (Only.refl 0x10 s) rfl).regs rfl
@[simp] theorem State.lockAll_pers (s : State) : (s.lockAll).pers = s.pers :=
  (State.lockAll_only s (Only.refl 0x10 s) rfl).pers rfl
@[simp] theorem State.lockAll_br (s : State) : (s.lockAll).br = s.br :=
  (State.lockAll_only s (Only.refl 0x10 s) rfl).br rfl
@[simp] theorem State.lockAll_rings (s : State) : (s.lockAll).rings = s.rings :=
  (State.lockAll_only s (Only.refl 0x10 s) rfl).rings rfl
@[simp] theorem State.lockAll_crc (s : State) : (s.lockAll).crc = s.crc :=
  (State.lockAll_only s (Only.refl 0x10 s) rfl).crc rfl
@[simp] theorem State.lockAll_tmr (s : State) : (s.lockAll).tmr = s.tmr :=
  (State.lockAll_only s (Only.refl 0x10 s) rfl).tmr rfl
@[simp] theorem State.lockAll_otp (s : State) : (s.lockAll).otp = s.otp :=
  (State.lockAll_only s (Only.refl 0x10 s) rfl).otp rfl
@[simp] theorem State.lockAll_bkp (s : State) : (s.lockAll).bkp = s.bkp :=
  (State.lockAll_only s (Only.refl 0x10 s) rfl).bkp rfl
@[simp] theorem State.lockAll_keys (s : State) : (s.lockAll).keys = s.keys :=
  (State.lockAll_only s (Only.refl 0x10 s) rfl).keys rfl
@[simp] theorem State.lockAll_st (s : State) : (s.lockAll).st = s.st :=
  (State.lockAll_only s (Only.refl 0x10 s) rfl).st rfl
@[simp] theorem State.lockAll_upd (s : State) : (s.lockAll).upd = s.upd :=
  (State.lockAll_only s (Only.refl 0x10 s) rfl).upd rfl
@[simp] theorem State.lockAll_tst (s : State) : (s.lockAll).tst = s.tst :=
  (State.lockAll_only s (Only.refl 0x10 s) rfl).tst rfl
@[simp] theorem State.lockAll_pat (s : State) : (s.lockAll).pat = s.pat :=
  (State.lockAll_only s (Only.refl 0x10 s) rfl).pat rfl
@[simp] theorem State.lockAll_stdin (s : State) : (s.lockAll).stdin = s.stdin :=
  (State.lockAll_only s (Only.refl 0x10 s) rfl).stdin rfl
@[simp] theorem State.lockAll_remote (s : State) : (s.lockAll).remote = s.remote :=
  (State.lockAll_only s (Only.refl 0x10 s) rfl).remote rfl
@[simp] theorem State.lockAll_freeCtr (s : State) : (s.lockAll).freeCtr = s.freeCtr :=
  (State.lockAll_only s (Only.refl 0x10 s) rfl).freeCtr rfl
@[simp] theorem State.lockAll_time (s : State) : (s.lockAll).time = s.time :=
  (State.lockAll_only s (Only.refl 0x10 s) rfl).time rfl
@[simp] theorem State.lockAll_pending (s : State) : (s.lockAll).pending = s.pending :=
  (State.lockAll_only s (Only.refl 0x10 s) rfl).pending rfl

@[simp] theorem State.revert_order (s : State) (n : Nat) : (s.revert n).order = s.order :=
  (State.revert_only s n (Only.refl 0x802d0 s) rfl).order rfl
@[simp] theorem State.revert_modes (s : State) (n : Nat) : (s.revert n).modes = s.modes :=
  (State.revert_only s n (Only.refl 0x802d0 s) rfl).modes rfl
@[simp] theorem State.revert_pow (s : State) (n : Nat) : (s.revert n).pow = s.pow :=
  (State.revert_only s n (Only.refl 0x802d0 s) rfl).pow rfl
@[simp] theorem State.revert_clk (s : State) (n : Nat) : (s.revert n).clk = s.clk :=
  (State.revert_only s n (Only.refl 0x802d0 s) rfl).clk rfl
@[simp] theorem State.revert_leases (s : State) (n : Nat) : (s.revert n).leases = s.leases :=
  (State.revert_only s n (Only.refl 0x802d0 s) rfl).leases rfl
@[simp] theorem State.revert_fd (s : State) (n : Nat) : (s.revert n).fd = s.fd :=
  (State.revert_only s n (Only.refl 0x802d0 s) rfl).fd rfl
@[simp] theorem State.revert_pers (s : State) (n : Nat) : (s.revert n).pers = s.pers :=
  (State.revert_only s n (Only.refl 0x802d0 s) rfl).pers rfl
@[simp] theorem State.revert_br (s : State) (n : Nat) : (s.revert n).br = s.br :=
  (State.revert_only s n (Only.refl 0x802d0 s) rfl).br rfl
@[simp] theorem State.revert_rings (s : State) (n : Nat) : (s.revert n).rings = s.rings :=
  (State.revert_only s n (Only.refl 0x802d0 s) rfl).rings rfl
@[simp] theorem State.revert_crc (s : State) (n : Nat) : (s.revert n).crc = s.crc :=
  (State.revert_only s n (Only.refl 0x802d0 s) rfl).crc rfl
@[simp] theorem State.revert_tmr (s : State) (n : Nat) : (s.revert n).tmr = s.tmr :=
  (State.revert_only s n (Only.refl 0x802d0 s) rfl).tmr rfl
@[simp] theorem State.revert_otp (s : State) (n : Nat) : (s.revert n).otp = s.otp :=
  (State.revert_only s n (Only.refl 0x802d0 s) rfl).otp rfl
@[simp] theorem State.revert_bkp (s : State) (n : Nat) : (s.revert n).bkp = s.bkp :=
  (State.revert_only s n (Only.refl 0x802d0 s) rfl).bkp rfl
@[simp] theorem State.revert_keys (s : State) (n : Nat) : (s.revert n).keys = s.keys :=
  (State.revert_only s n (Only.refl 0x802d0 s) rfl).keys rfl
@[simp] theorem State.revert_st (s : State) (n : Nat) : (s.revert n).st = s.st :=
  (State.revert_only s n (Only.refl 0x802d0 s) rfl).st rfl
@[simp] theorem State.revert_tst (s : State) (n : Nat) : (s.revert n).tst = s.tst :=
  (State.revert_only s n (Only.refl 0x802d0 s) rfl).tst rfl
@[simp] theorem State.revert_pat (s : State) (n : Nat) : (s.revert n).pat = s.pat :=
  (State.revert_only s n (Only.refl 0x802d0 s) rfl).pat rfl
@[simp] theorem State.revert_stdin (s : State) (n : Nat) : (s.revert n).stdin = s.stdin :=
  (State.revert_only s n (Only.refl 0x802d0 s) rfl).stdin rfl
@[simp] theorem State.revert_remote (s : State) (n : Nat) : (s.revert n).remote = s.remote :=
  (State.revert_only s n (Only.refl 0x802d0 s) rfl).remote rfl
@[simp] theorem State.revert_freeCtr (s : State) (n : Nat) : (s.revert n).freeCtr = s.freeCtr :=
  (State.revert_only s n (Only.refl 0x802d0 s) rfl).freeCtr rfl
@[simp] theorem State.revert_time (s : State) (n : Nat) : (s.revert n).time = s.time :=
  (State.revert_only s n (Only.refl 0x802d0 s) rfl).time rfl
@[simp] theorem State.revert_pending (s : State) (n : Nat) : (s.revert n).pending = s.pending :=
  (State.revert_only s n (Only.refl 0x802d0 s) rfl).pending rfl

@[simp] theorem State.reactC3_order (s : State) (n : Nat) : (s.reactC3 n).order = s.order :=
  (State.reactC3_only s n (Only.refl 0xc03d6 s) rfl).order rfl
@[simp] theorem State.reactC3_clk (s : State) (n : Nat) : (s.reactC3 n).clk = s.clk :=
  (State.reactC3_only s n (Only.refl 0xc03d6 s) rfl).clk rfl
@[simp] theorem State.reactC3_leases (s : State) (n : Nat) : (s.reactC3 n).leases = s.leases :=
  (State.reactC3_only s n (Only.refl 0xc03d6 s) rfl).leases rfl
@[simp] theorem State.reactC3_pers (s : State) (n : Nat) : (s.reactC3 n).pers = s.pers :=
  (State.reactC3_only s n (Only.refl 0xc03d6 s) rfl).pers rfl
@[simp] theorem State.reactC3_br (s : State) (n : Nat) : (s.reactC3 n).br = s.br :=
  (State.reactC3_only s n (Only.refl 0xc03d6 s) rfl).br rfl
@[simp] theorem State.reactC3_rings (s : State) (n : Nat) : (s.reactC3 n).rings = s.rings :=
  (State.reactC3_only s n (Only.refl 0xc03d6 s) rfl).rings rfl
@[simp] theorem State.reactC3_crc (s : State) (n : Nat) : (s.reactC3 n).crc = s.crc :=
  (State.reactC3_only s n (Only.refl 0xc03d6 s) rfl).crc rfl
@[simp] theorem State.reactC3_tmr (s : State) (n : Nat) : (s.reactC3 n).tmr = s.tmr :=
  (State.reactC3_only s n (Only.refl 0xc03d6 s) rfl).tmr rfl
@[simp] theorem State.reactC3_otp (s : State) (n : Nat) : (s.reactC3 n).otp = s.otp :=
  (State.reactC3_only s n (Only.refl 0xc03d6 s) rfl).otp rfl
@[simp] theorem State.reactC3_bkp (s : State) (n : Nat) : (s.reactC3 n).bkp = s.bkp :=
  (State.reactC3_only s n (Only.refl 0xc03d6 s) rfl).bkp rfl
@[simp] theorem State.reactC3_keys (s : State) (n : Nat) : (s.reactC3 n).keys = s.keys :=
  (State.reactC3_only s n (Only.refl 0xc03d6 s) rfl).keys rfl
@[simp] theorem State.reactC3_tst (s : State) (n : Nat) : (s.reactC3 n).tst = s.tst :=
  (State.reactC3_only s n (Only.refl 0xc03d6 s) rfl).tst rfl
@[simp] theorem State.reactC3_pat (s : State) (n : Nat) : (s.reactC3 n).pat = s.pat :=
  (State.reactC3_only s n (Only.refl 0xc03d6 s) rfl).pat rfl
@[simp] theorem State.reactC3_stdin (s : State) (n : Nat) : (s.reactC3 n).stdin = s.stdin :=
  (State.reactC3_only s n (Only.refl 0xc03d6 s) rfl).stdin rfl
@[simp] theorem State.reactC3_remote (s : State) (n : Nat) : (s.reactC3 n).remote = s.remote :=
  (State.reactC3_only s n (Only.refl 0xc03d6 s) rfl).remote rfl
@[simp] theorem State.reactC3_freeCtr (s : State) (n : Nat) : (s.reactC3 n).freeCtr = s.freeCtr :=
  (State.reactC3_only s n (Only.refl 0xc03d6 s) rfl).freeCtr rfl
@[simp] theorem State.reactC3_time (s : State) (n : Nat) : (s.reactC3 n).time = s.time :=
  (State.reactC3_only s n (Only.refl 0xc03d6 s) rfl).time rfl
@[simp] theorem State.reactC3_pending (s : State) (n : Nat) : (s.reactC3 n).pending = s.pending :=
  (State.reactC3_only s n (Only.refl 0xc03d6 s) rfl).pending rfl

@[simp] theorem State.react_order (s : State) (n : Nat) : (s.react n).order = s.order :=
  (State.react_only s n (Only.refl 0x10cabf6 s) rfl).order rfl
@[simp] theorem State.react_clk (s : State) (n : Nat) : (s.react n).clk = s.clk :=
  (State.react_only s n (Only.refl 0x10cabf6 s) rfl).clk rfl
@[simp] theorem State.react_pers (s : State) (n : Nat) : (s.react n).pers = s.pers :=
  (State.react_only s n (Only.refl 0x10cabf6 s) rfl).pers rfl
@[simp] theorem State.react_rings (s : State) (n : Nat) : (s.react n).rings = s.rings :=
  (State.react_only s n (Only.refl 0x10cabf6 s) rfl).rings rfl
@[simp] theorem State.react_tmr (s : State) (n : Nat) : (s.react n).tmr = s.tmr :=
  (State.react_only s n (Only.refl 0x10cabf6 s) rfl).tmr rfl
@[simp] theorem State.react_bkp (s : State) (n : Nat) : (s.react n).bkp = s.bkp :=
  (State.react_only s n (Only.refl 0x10cabf6 s) rfl).bkp rfl
@[simp] theorem State.react_keys (s : State) (n : Nat) : (s.react n).keys = s.keys :=
  (State.react_only s n (Only.refl 0x10cabf6 s) rfl).keys rfl
@[simp] theorem State.react_tst (s : State) (n : Nat) : (s.react n).tst = s.tst :=
  (State.react_only s n (Only.refl 0x10cabf6 s) rfl).tst rfl
@[simp] theorem State.react_pat (s : State) (n : Nat) : (s.react n).pat = s.pat :=
  (State.react_only s n (Only.refl 0x10cabf6 s) rfl).pat rfl
@[simp] theorem State.react_stdin (s : State) (n : Nat) : (s.react n).stdin = s.stdin :=
  (State.react_only s n (Only.refl 0x10cabf6 s) rfl).stdin rfl
@[simp] theorem State.react_remote (s : State) (n : Nat) : (s.react n).remote = s.remote :=
  (State.react_only s n (Only.refl 0x10cabf6 s) rfl).remote rfl
@[simp] theorem State.react_time (s : State) (n : Nat) : (s.react n).time = s.time :=
  (State.react_only s n (Only.refl 0x10cabf6 s) rfl).time rfl
@[simp] theorem State.react_pending (s : State) (n : Nat) : (s.react n).pending = s.pending :=
  (State.react_only s n (Only.refl 0x10cabf6 s) rfl).pending rfl

@[simp] theorem State.latch_order (s : State) (n : Nat) : (s.latch n).order = s.order :=
  (State.latch_only s n (Only.refl 0x10cabf6 s) rfl).order rfl
@[simp] theorem State.latch_clk (s : State) (n : Nat) : (s.latch n).clk = s.clk :=
  (State.latch_only s n (Only.refl 0x10cabf6 s) rfl).clk rfl
@[simp] theorem State.latch_pers (s : State) (n : Nat) : (s.latch n).pers = s.pers :=
  (State.latch_only s n (Only.refl 0x10cabf6 s) rfl).pers rfl
@[simp] theorem State.latch_rings (s : State) (n : Nat) : (s.latch n).rings = s.rings :=
  (State.latch_only s n (Only.refl 0x10cabf6 s) rfl).rings rfl
@[simp] theorem State.latch_tmr (s : State) (n : Nat) : (s.latch n).tmr = s.tmr :=
  (State.latch_only s n (Only.refl 0x10cabf6 s) rfl).tmr rfl
@[simp] theorem State.latch_bkp (s : State) (n : Nat) : (s.latch n).bkp = s.bkp :=
  (State.latch_only s n (Only.refl 0x10cabf6 s) rfl).bkp rfl
@[simp] theorem State.latch_keys (s : State) (n : Nat) : (s.latch n).keys = s.keys :=
  (State.latch_only s n (Only.refl 0x10cabf6 s) rfl).keys rfl
@[simp] theorem State.latch_tst (s : State) (n : Nat) : (s.latch n).tst = s.tst :=
  (State.latch_only s n (Only.refl 0x10cabf6 s) rfl).tst rfl
@[simp] theorem State.latch_pat (s : State) (n : Nat) : (s.latch n).pat = s.pat :=
  (State.latch_only s n (Only.refl 0x10cabf6 s) rfl).pat rfl
@[simp] theorem State.latch_stdin (s : State) (n : Nat) : (s.latch n).stdin = s.stdin :=
  (State.latch_only s n (Only.refl 0x10cabf6 s) rfl).stdin rfl
@[simp] theorem State.latch_remote (s : State) (n : Nat) : (s.latch n).remote = s.remote :=
  (State.latch_only s n (Only.refl 0x10cabf6 s) rfl).remote rfl
@[simp] theorem State.latch_time (s : State) (n : Nat) : (s.latch n).time = s.time :=
  (State.latch_only s n (Only.refl 0x10cabf6 s) rfl).time rfl
@[simp] theorem State.latch_pending (s : State) (n : Nat) : (s.latch n).pending = s.pending :=
  (State.latch_only s n (Only.refl 0x10cabf6 s) rfl).pending rfl

@[simp] theorem State.latch3_order (s : State) (n : Nat) : (s.latch3 n).order = s.order :=
  (State.latch3_only s n (Only.refl 0x10cabf6 s) rfl).order rfl
@[simp] theorem State.latch3_clk (s : State) (n : Nat) : (s.latch3 n).clk = s.clk :=
  (State.latch3_only s n (Only.refl 0x10cabf6 s) rfl).clk rfl
@[simp] theorem State.latch3_pers (s : State) (n : Nat) : (s.latch3 n).pers = s.pers :=
  (State.latch3_only s n (Only.refl 0x10cabf6 s) rfl).pers rfl
@[simp] theorem State.latch3_rings (s : State) (n : Nat) : (s.latch3 n).rings = s.rings :=
  (State.latch3_only s n (Only.refl 0x10cabf6 s) rfl).rings rfl
@[simp] theorem State.latch3_tmr (s : State) (n : Nat) : (s.latch3 n).tmr = s.tmr :=
  (State.latch3_only s n (Only.refl 0x10cabf6 s) rfl).tmr rfl
@[simp] theorem State.latch3_bkp (s : State) (n : Nat) : (s.latch3 n).bkp = s.bkp :=
  (State.latch3_only s n (Only.refl 0x10cabf6 s) rfl).bkp rfl
@[simp] theorem State.latch3_keys (s : State) (n : Nat) : (s.latch3 n).keys = s.keys :=
  (State.latch3_only s n (Only.refl 0x10cabf6 s) rfl).keys rfl
@[simp] theorem State.latch3_tst (s : State) (n : Nat) : (s.latch3 n).tst = s.tst :=
  (State.latch3_only s n (Only.refl 0x10cabf6 s) rfl).tst rfl
@[simp] theorem State.latch3_pat (s : State) (n : Nat) : (s.latch3 n).pat = s.pat :=
  (State.latch3_only s n (Only.refl 0x10cabf6 s) rfl).pat rfl
@[simp] theorem State.latch3_stdin (s : State) (n : Nat) : (s.latch3 n).stdin = s.stdin :=
  (State.latch3_only s n (Only.refl 0x10cabf6 s) rfl).stdin rfl
@[simp] theorem State.latch3_remote (s : State) (n : Nat) : (s.latch3 n).remote = s.remote :=
  (State.latch3_only s n (Only.refl 0x10cabf6 s) rfl).remote rfl
@[simp] theorem State.latch3_time (s : State) (n : Nat) : (s.latch3 n).time = s.time :=
  (State.latch3_only s n (Only.refl 0x10cabf6 s) rfl).time rfl
@[simp] theorem State.latch3_pending (s : State) (n : Nat) : (s.latch3 n).pending = s.pending :=
  (State.latch3_only s n (Only.refl 0x10cabf6 s) rfl).pending rfl

@[simp] theorem State.latchStanding_order (s : State) (n : Nat) : (s.latchStanding n).order = s.order :=
  (State.latchStanding_only s n (Only.refl 0x10cabf6 s) rfl).order rfl
@[simp] theorem State.latchStanding_clk (s : State) (n : Nat) : (s.latchStanding n).clk = s.clk :=
  (State.latchStanding_only s n (Only.refl 0x10cabf6 s) rfl).clk rfl
@[simp] theorem State.latchStanding_pers (s : State) (n : Nat) : (s.latchStanding n).pers = s.pers :=
  (State.latchStanding_only s n (Only.refl 0x10cabf6 s) rfl).pers rfl
@[simp] theorem State.latchStanding_rings (s : State) (n : Nat) : (s.latchStanding n).rings = s.rings :=
  (State.latchStanding_only s n (Only.refl 0x10cabf6 s) rfl).rings rfl
@[simp] theorem State.latchStanding_tmr (s : State) (n : Nat) : (s.latchStanding n).tmr = s.tmr :=
  (State.latchStanding_only s n (Only.refl 0x10cabf6 s) rfl).tmr rfl
@[simp] theorem State.latchStanding_bkp (s : State) (n : Nat) : (s.latchStanding n).bkp = s.bkp :=
  (State.latchStanding_only s n (Only.refl 0x10cabf6 s) rfl).bkp rfl
@[simp] theorem State.latchStanding_keys (s : State) (n : Nat) : (s.latchStanding n).keys = s.keys :=
  (State.latchStanding_only s n (Only.refl 0x10cabf6 s) rfl).keys rfl
@[simp] theorem State.latchStanding_tst (s : State) (n : Nat) : (s.latchStanding n).tst = s.tst :=
  (State.latchStanding_only s n (Only.refl 0x10cabf6 s) rfl).tst rfl
@[simp] theorem State.latchStanding_pat (s : State) (n : Nat) : (s.latchStanding n).pat = s.pat :=
  (State.latchStanding_only s n (Only.refl 0x10cabf6 s) rfl).pat rfl
@[simp] theorem State.latchStanding_stdin (s : State) (n : Nat) : (s.latchStanding n).stdin = s.stdin :=
  (State.latchStanding_only s n (Only.refl 0x10cabf6 s) rfl).stdin rfl
@[simp] theorem State.latchStanding_remote (s : State) (n : Nat) : (s.latchStanding n).remote = s.remote :=
  (State.latchStanding_only s n (Only.refl 0x10cabf6 s) rfl).remote rfl
@[simp] theorem State.latchStanding_time (s : State) (n : Nat) : (s.latchStanding n).time = s.time :=
  (State.latchStanding_only s n (Only.refl 0x10cabf6 s) rfl).time rfl
@[simp] theorem State.latchStanding_pending (s : State) (n : Nat) : (s.latchStanding n).pending = s.pending :=
  (State.latchStanding_only s n (Only.refl 0x10cabf6 s) rfl).pending rfl

@[simp] theorem State.sendAns_order (s : State) (r : RespTo) : (s.sendAns r).order = s.order :=
  (State.sendAns_only s r (Only.refl 0xa00 s) rfl).order rfl
@[simp] theorem State.sendAns_modes (s : State) (r : RespTo) : (s.sendAns r).modes = s.modes :=
  (State.sendAns_only s r (Only.refl 0xa00 s) rfl).modes rfl
@[simp] theorem State.sendAns_pow (s : State) (r : RespTo) : (s.sendAns r).pow = s.pow :=
  (State.sendAns_only s r (Only.refl 0xa00 s) rfl).pow rfl
@[simp] theorem State.sendAns_clk (s : State) (r : RespTo) : (s.sendAns r).clk = s.clk :=
  (State.sendAns_only s r (Only.refl 0xa00 s) rfl).clk rfl
@[simp] theorem State.sendAns_flt (s : State) (r : RespTo) : (s.sendAns r).flt = s.flt :=
  (State.sendAns_only s r (Only.refl 0xa00 s) rfl).flt rfl
@[simp] theorem State.sendAns_leases (s : State) (r : RespTo) : (s.sendAns r).leases = s.leases :=
  (State.sendAns_only s r (Only.refl 0xa00 s) rfl).leases rfl
@[simp] theorem State.sendAns_a (s : State) (r : RespTo) : (s.sendAns r).a = s.a :=
  (State.sendAns_only s r (Only.refl 0xa00 s) rfl).a rfl
@[simp] theorem State.sendAns_b (s : State) (r : RespTo) : (s.sendAns r).b = s.b :=
  (State.sendAns_only s r (Only.refl 0xa00 s) rfl).b rfl
@[simp] theorem State.sendAns_fd (s : State) (r : RespTo) : (s.sendAns r).fd = s.fd :=
  (State.sendAns_only s r (Only.refl 0xa00 s) rfl).fd rfl
@[simp] theorem State.sendAns_pers (s : State) (r : RespTo) : (s.sendAns r).pers = s.pers :=
  (State.sendAns_only s r (Only.refl 0xa00 s) rfl).pers rfl
@[simp] theorem State.sendAns_rings (s : State) (r : RespTo) : (s.sendAns r).rings = s.rings :=
  (State.sendAns_only s r (Only.refl 0xa00 s) rfl).rings rfl
@[simp] theorem State.sendAns_crc (s : State) (r : RespTo) : (s.sendAns r).crc = s.crc :=
  (State.sendAns_only s r (Only.refl 0xa00 s) rfl).crc rfl
@[simp] theorem State.sendAns_tmr (s : State) (r : RespTo) : (s.sendAns r).tmr = s.tmr :=
  (State.sendAns_only s r (Only.refl 0xa00 s) rfl).tmr rfl
@[simp] theorem State.sendAns_otp (s : State) (r : RespTo) : (s.sendAns r).otp = s.otp :=
  (State.sendAns_only s r (Only.refl 0xa00 s) rfl).otp rfl
@[simp] theorem State.sendAns_bkp (s : State) (r : RespTo) : (s.sendAns r).bkp = s.bkp :=
  (State.sendAns_only s r (Only.refl 0xa00 s) rfl).bkp rfl
@[simp] theorem State.sendAns_keys (s : State) (r : RespTo) : (s.sendAns r).keys = s.keys :=
  (State.sendAns_only s r (Only.refl 0xa00 s) rfl).keys rfl
@[simp] theorem State.sendAns_st (s : State) (r : RespTo) : (s.sendAns r).st = s.st :=
  (State.sendAns_only s r (Only.refl 0xa00 s) rfl).st rfl
@[simp] theorem State.sendAns_upd (s : State) (r : RespTo) : (s.sendAns r).upd = s.upd :=
  (State.sendAns_only s r (Only.refl 0xa00 s) rfl).upd rfl
@[simp] theorem State.sendAns_tst (s : State) (r : RespTo) : (s.sendAns r).tst = s.tst :=
  (State.sendAns_only s r (Only.refl 0xa00 s) rfl).tst rfl
@[simp] theorem State.sendAns_pat (s : State) (r : RespTo) : (s.sendAns r).pat = s.pat :=
  (State.sendAns_only s r (Only.refl 0xa00 s) rfl).pat rfl
@[simp] theorem State.sendAns_stdin (s : State) (r : RespTo) : (s.sendAns r).stdin = s.stdin :=
  (State.sendAns_only s r (Only.refl 0xa00 s) rfl).stdin rfl
@[simp] theorem State.sendAns_remote (s : State) (r : RespTo) : (s.sendAns r).remote = s.remote :=
  (State.sendAns_only s r (Only.refl 0xa00 s) rfl).remote rfl
@[simp] theorem State.sendAns_freeCtr (s : State) (r : RespTo) : (s.sendAns r).freeCtr = s.freeCtr :=
  (State.sendAns_only s r (Only.refl 0xa00 s) rfl).freeCtr rfl
@[simp] theorem State.sendAns_time (s : State) (r : RespTo) : (s.sendAns r).time = s.time :=
  (State.sendAns_only s r (Only.refl 0xa00 s) rfl).time rfl
@[simp] theorem State.sendAns_pending (s : State) (r : RespTo) : (s.sendAns r).pending = s.pending :=
  (State.sendAns_only s r (Only.refl 0xa00 s) rfl).pending rfl

@[simp] theorem State.toMode_order (s : State) (m : Mode) : (s.toMode m).order = s.order :=
  (State.toMode_only s m (Only.refl 0x81003ce s) rfl).order rfl
@[simp] theorem State.toMode_flt (s : State) (m : Mode) : (s.toMode m).flt = s.flt :=
  (State.toMode_only s m (Only.refl 0x81003ce s) rfl).flt rfl
@[simp] theorem State.toMode_leases (s : State) (m : Mode) : (s.toMode m).leases = s.leases :=
  (State.toMode_only s m (Only.refl 0x81003ce s) rfl).leases rfl
@[simp] theorem State.toMode_pers (s : State) (m : Mode) : (s.toMode m).pers = s.pers :=
  (State.toMode_only s m (Only.refl 0x81003ce s) rfl).pers rfl
@[simp] theorem State.toMode_br (s : State) (m : Mode) : (s.toMode m).br = s.br :=
  (State.toMode_only s m (Only.refl 0x81003ce s) rfl).br rfl
@[simp] theorem State.toMode_rings (s : State) (m : Mode) : (s.toMode m).rings = s.rings :=
  (State.toMode_only s m (Only.refl 0x81003ce s) rfl).rings rfl
@[simp] theorem State.toMode_crc (s : State) (m : Mode) : (s.toMode m).crc = s.crc :=
  (State.toMode_only s m (Only.refl 0x81003ce s) rfl).crc rfl
@[simp] theorem State.toMode_tmr (s : State) (m : Mode) : (s.toMode m).tmr = s.tmr :=
  (State.toMode_only s m (Only.refl 0x81003ce s) rfl).tmr rfl
@[simp] theorem State.toMode_otp (s : State) (m : Mode) : (s.toMode m).otp = s.otp :=
  (State.toMode_only s m (Only.refl 0x81003ce s) rfl).otp rfl
@[simp] theorem State.toMode_bkp (s : State) (m : Mode) : (s.toMode m).bkp = s.bkp :=
  (State.toMode_only s m (Only.refl 0x81003ce s) rfl).bkp rfl
@[simp] theorem State.toMode_keys (s : State) (m : Mode) : (s.toMode m).keys = s.keys :=
  (State.toMode_only s m (Only.refl 0x81003ce s) rfl).keys rfl
@[simp] theorem State.toMode_st (s : State) (m : Mode) : (s.toMode m).st = s.st :=
  (State.toMode_only s m (Only.refl 0x81003ce s) rfl).st rfl
@[simp] theorem State.toMode_upd (s : State) (m : Mode) : (s.toMode m).upd = s.upd :=
  (State.toMode_only s m (Only.refl 0x81003ce s) rfl).upd rfl
@[simp] theorem State.toMode_pat (s : State) (m : Mode) : (s.toMode m).pat = s.pat :=
  (State.toMode_only s m (Only.refl 0x81003ce s) rfl).pat rfl
@[simp] theorem State.toMode_stdin (s : State) (m : Mode) : (s.toMode m).stdin = s.stdin :=
  (State.toMode_only s m (Only.refl 0x81003ce s) rfl).stdin rfl
@[simp] theorem State.toMode_remote (s : State) (m : Mode) : (s.toMode m).remote = s.remote :=
  (State.toMode_only s m (Only.refl 0x81003ce s) rfl).remote rfl
@[simp] theorem State.toMode_freeCtr (s : State) (m : Mode) : (s.toMode m).freeCtr = s.freeCtr :=
  (State.toMode_only s m (Only.refl 0x81003ce s) rfl).freeCtr rfl
@[simp] theorem State.toMode_time (s : State) (m : Mode) : (s.toMode m).time = s.time :=
  (State.toMode_only s m (Only.refl 0x81003ce s) rfl).time rfl
@[simp] theorem State.toMode_pending (s : State) (m : Mode) : (s.toMode m).pending = s.pending :=
  (State.toMode_only s m (Only.refl 0x81003ce s) rfl).pending rfl

@[simp] theorem State.enterSafe_order (s : State) : (s.enterSafe).order = s.order :=
  (State.enterSafe_only s (Only.refl 0x8f013ce s) rfl).order rfl
@[simp] theorem State.enterSafe_flt (s : State) : (s.enterSafe).flt = s.flt :=
  (State.enterSafe_only s (Only.refl 0x8f013ce s) rfl).flt rfl
@[simp] theorem State.enterSafe_leases (s : State) : (s.enterSafe).leases = s.leases :=
  (State.enterSafe_only s (Only.refl 0x8f013ce s) rfl).leases rfl
@[simp] theorem State.enterSafe_pers (s : State) : (s.enterSafe).pers = s.pers :=
  (State.enterSafe_only s (Only.refl 0x8f013ce s) rfl).pers rfl
@[simp] theorem State.enterSafe_br (s : State) : (s.enterSafe).br = s.br :=
  (State.enterSafe_only s (Only.refl 0x8f013ce s) rfl).br rfl
@[simp] theorem State.enterSafe_crc (s : State) : (s.enterSafe).crc = s.crc :=
  (State.enterSafe_only s (Only.refl 0x8f013ce s) rfl).crc rfl
@[simp] theorem State.enterSafe_tmr (s : State) : (s.enterSafe).tmr = s.tmr :=
  (State.enterSafe_only s (Only.refl 0x8f013ce s) rfl).tmr rfl
@[simp] theorem State.enterSafe_otp (s : State) : (s.enterSafe).otp = s.otp :=
  (State.enterSafe_only s (Only.refl 0x8f013ce s) rfl).otp rfl
@[simp] theorem State.enterSafe_bkp (s : State) : (s.enterSafe).bkp = s.bkp :=
  (State.enterSafe_only s (Only.refl 0x8f013ce s) rfl).bkp rfl
@[simp] theorem State.enterSafe_keys (s : State) : (s.enterSafe).keys = s.keys :=
  (State.enterSafe_only s (Only.refl 0x8f013ce s) rfl).keys rfl
@[simp] theorem State.enterSafe_st (s : State) : (s.enterSafe).st = s.st :=
  (State.enterSafe_only s (Only.refl 0x8f013ce s) rfl).st rfl
@[simp] theorem State.enterSafe_upd (s : State) : (s.enterSafe).upd = s.upd :=
  (State.enterSafe_only s (Only.refl 0x8f013ce s) rfl).upd rfl
@[simp] theorem State.enterSafe_freeCtr (s : State) : (s.enterSafe).freeCtr = s.freeCtr :=
  (State.enterSafe_only s (Only.refl 0x8f013ce s) rfl).freeCtr rfl
@[simp] theorem State.enterSafe_time (s : State) : (s.enterSafe).time = s.time :=
  (State.enterSafe_only s (Only.refl 0x8f013ce s) rfl).time rfl
@[simp] theorem State.enterSafe_pending (s : State) : (s.enterSafe).pending = s.pending :=
  (State.enterSafe_only s (Only.refl 0x8f013ce s) rfl).pending rfl

@[simp] theorem State.lockoutAll_order (s : State) : (s.lockoutAll).order = s.order :=
  (State.lockoutAll_only s (Only.refl 0x2 s) rfl).order rfl
@[simp] theorem State.lockoutAll_pow (s : State) : (s.lockoutAll).pow = s.pow :=
  (State.lockoutAll_only s (Only.refl 0x2 s) rfl).pow rfl
@[simp] theorem State.lockoutAll_clk (s : State) : (s.lockoutAll).clk = s.clk :=
  (State.lockoutAll_only s (Only.refl 0x2 s) rfl).clk rfl
@[simp] theorem State.lockoutAll_flt (s : State) : (s.lockoutAll).flt = s.flt :=
  (State.lockoutAll_only s (Only.refl 0x2 s) rfl).flt rfl
@[simp] theorem State.lockoutAll_leases (s : State) : (s.lockoutAll).leases = s.leases :=
  (State.lockoutAll_only s (Only.refl 0x2 s) rfl).leases rfl
@[simp] theorem State.lockoutAll_a (s : State) : (s.lockoutAll).a = s.a :=
  (State.lockoutAll_only s (Only.refl 0x2 s) rfl).a rfl
@[simp] theorem State.lockoutAll_b (s : State) : (s.lockoutAll).b = s.b :=
  (State.lockoutAll_only s (Only.refl 0x2 s) rfl).b rfl
@[simp] theorem State.lockoutAll_fd (s : State) : (s.lockoutAll).fd = s.fd :=
  (State.lockoutAll_only s (Only.refl 0x2 s) rfl).fd rfl
@[simp] theorem State.lockoutAll_regs (s : State) : (s.lockoutAll).regs = s.regs :=
  (State.lockoutAll_only s (Only.refl 0x2 s) rfl).regs rfl
@[simp] theorem State.lockoutAll_pers (s : State) : (s.lockoutAll).pers = s.pers :=
  (State.lockoutAll_only s (Only.refl 0x2 s) rfl).pers rfl
@[simp] theorem State.lockoutAll_br (s : State) : (s.lockoutAll).br = s.br :=
  (State.lockoutAll_only s (Only.refl 0x2 s) rfl).br rfl
@[simp] theorem State.lockoutAll_rings (s : State) : (s.lockoutAll).rings = s.rings :=
  (State.lockoutAll_only s (Only.refl 0x2 s) rfl).rings rfl
@[simp] theorem State.lockoutAll_crc (s : State) : (s.lockoutAll).crc = s.crc :=
  (State.lockoutAll_only s (Only.refl 0x2 s) rfl).crc rfl
@[simp] theorem State.lockoutAll_tmr (s : State) : (s.lockoutAll).tmr = s.tmr :=
  (State.lockoutAll_only s (Only.refl 0x2 s) rfl).tmr rfl
@[simp] theorem State.lockoutAll_otp (s : State) : (s.lockoutAll).otp = s.otp :=
  (State.lockoutAll_only s (Only.refl 0x2 s) rfl).otp rfl
@[simp] theorem State.lockoutAll_bkp (s : State) : (s.lockoutAll).bkp = s.bkp :=
  (State.lockoutAll_only s (Only.refl 0x2 s) rfl).bkp rfl
@[simp] theorem State.lockoutAll_keys (s : State) : (s.lockoutAll).keys = s.keys :=
  (State.lockoutAll_only s (Only.refl 0x2 s) rfl).keys rfl
@[simp] theorem State.lockoutAll_st (s : State) : (s.lockoutAll).st = s.st :=
  (State.lockoutAll_only s (Only.refl 0x2 s) rfl).st rfl
@[simp] theorem State.lockoutAll_upd (s : State) : (s.lockoutAll).upd = s.upd :=
  (State.lockoutAll_only s (Only.refl 0x2 s) rfl).upd rfl
@[simp] theorem State.lockoutAll_tst (s : State) : (s.lockoutAll).tst = s.tst :=
  (State.lockoutAll_only s (Only.refl 0x2 s) rfl).tst rfl
@[simp] theorem State.lockoutAll_pat (s : State) : (s.lockoutAll).pat = s.pat :=
  (State.lockoutAll_only s (Only.refl 0x2 s) rfl).pat rfl
@[simp] theorem State.lockoutAll_stdin (s : State) : (s.lockoutAll).stdin = s.stdin :=
  (State.lockoutAll_only s (Only.refl 0x2 s) rfl).stdin rfl
@[simp] theorem State.lockoutAll_remote (s : State) : (s.lockoutAll).remote = s.remote :=
  (State.lockoutAll_only s (Only.refl 0x2 s) rfl).remote rfl
@[simp] theorem State.lockoutAll_freeCtr (s : State) : (s.lockoutAll).freeCtr = s.freeCtr :=
  (State.lockoutAll_only s (Only.refl 0x2 s) rfl).freeCtr rfl
@[simp] theorem State.lockoutAll_time (s : State) : (s.lockoutAll).time = s.time :=
  (State.lockoutAll_only s (Only.refl 0x2 s) rfl).time rfl
@[simp] theorem State.lockoutAll_pending (s : State) : (s.lockoutAll).pending = s.pending :=
  (State.lockoutAll_only s (Only.refl 0x2 s) rfl).pending rfl

@[simp] theorem State.lockBoth_order (s : State) : (s.lockBoth).order = s.order :=
  (State.lockBoth_only s (Only.refl 0x2c2 s) rfl).order rfl
@[simp] theorem State.lockBoth_pow (s : State) : (s.lockBoth).pow = s.pow :=
  (State.lockBoth_only s (Only.refl 0x2c2 s) rfl).pow rfl
@[simp] theorem State.lockBoth_clk (s : State) : (s.lockBoth).clk = s.clk :=
  (State.lockBoth_only s (Only.refl 0x2c2 s) rfl).clk rfl
@[simp] theorem State.lockBoth_flt (s : State) : (s.lockBoth).flt = s.flt :=
  (State.lockBoth_only s (Only.refl 0x2c2 s) rfl).flt rfl
@[simp] theorem State.lockBoth_leases (s : State) : (s.lockBoth).leases = s.leases :=
  (State.lockBoth_only s (Only.refl 0x2c2 s) rfl).leases rfl
@[simp] theorem State.lockBoth_fd (s : State) : (s.lockBoth).fd = s.fd :=
  (State.lockBoth_only s (Only.refl 0x2c2 s) rfl).fd rfl
@[simp] theorem State.lockBoth_pers (s : State) : (s.lockBoth).pers = s.pers :=
  (State.lockBoth_only s (Only.refl 0x2c2 s) rfl).pers rfl
@[simp] theorem State.lockBoth_br (s : State) : (s.lockBoth).br = s.br :=
  (State.lockBoth_only s (Only.refl 0x2c2 s) rfl).br rfl
@[simp] theorem State.lockBoth_rings (s : State) : (s.lockBoth).rings = s.rings :=
  (State.lockBoth_only s (Only.refl 0x2c2 s) rfl).rings rfl
@[simp] theorem State.lockBoth_crc (s : State) : (s.lockBoth).crc = s.crc :=
  (State.lockBoth_only s (Only.refl 0x2c2 s) rfl).crc rfl
@[simp] theorem State.lockBoth_tmr (s : State) : (s.lockBoth).tmr = s.tmr :=
  (State.lockBoth_only s (Only.refl 0x2c2 s) rfl).tmr rfl
@[simp] theorem State.lockBoth_otp (s : State) : (s.lockBoth).otp = s.otp :=
  (State.lockBoth_only s (Only.refl 0x2c2 s) rfl).otp rfl
@[simp] theorem State.lockBoth_bkp (s : State) : (s.lockBoth).bkp = s.bkp :=
  (State.lockBoth_only s (Only.refl 0x2c2 s) rfl).bkp rfl
@[simp] theorem State.lockBoth_keys (s : State) : (s.lockBoth).keys = s.keys :=
  (State.lockBoth_only s (Only.refl 0x2c2 s) rfl).keys rfl
@[simp] theorem State.lockBoth_st (s : State) : (s.lockBoth).st = s.st :=
  (State.lockBoth_only s (Only.refl 0x2c2 s) rfl).st rfl
@[simp] theorem State.lockBoth_upd (s : State) : (s.lockBoth).upd = s.upd :=
  (State.lockBoth_only s (Only.refl 0x2c2 s) rfl).upd rfl
@[simp] theorem State.lockBoth_tst (s : State) : (s.lockBoth).tst = s.tst :=
  (State.lockBoth_only s (Only.refl 0x2c2 s) rfl).tst rfl
@[simp] theorem State.lockBoth_pat (s : State) : (s.lockBoth).pat = s.pat :=
  (State.lockBoth_only s (Only.refl 0x2c2 s) rfl).pat rfl
@[simp] theorem State.lockBoth_stdin (s : State) : (s.lockBoth).stdin = s.stdin :=
  (State.lockBoth_only s (Only.refl 0x2c2 s) rfl).stdin rfl
@[simp] theorem State.lockBoth_remote (s : State) : (s.lockBoth).remote = s.remote :=
  (State.lockBoth_only s (Only.refl 0x2c2 s) rfl).remote rfl
@[simp] theorem State.lockBoth_freeCtr (s : State) : (s.lockBoth).freeCtr = s.freeCtr :=
  (State.lockBoth_only s (Only.refl 0x2c2 s) rfl).freeCtr rfl
@[simp] theorem State.lockBoth_time (s : State) : (s.lockBoth).time = s.time :=
  (State.lockBoth_only s (Only.refl 0x2c2 s) rfl).time rfl
@[simp] theorem State.lockBoth_pending (s : State) : (s.lockBoth).pending = s.pending :=
  (State.lockBoth_only s (Only.refl 0x2c2 s) rfl).pending rfl

@[simp] theorem State.startBoth_order (s : State) (p : Pattern) (locked : Nat → Bool) : (s.startBoth p locked).order = s.order :=
  (State.startBoth_only s p locked (Only.refl 0xe010c0 s) rfl).order rfl
@[simp] theorem State.startBoth_modes (s : State) (p : Pattern) (locked : Nat → Bool) : (s.startBoth p locked).modes = s.modes :=
  (State.startBoth_only s p locked (Only.refl 0xe010c0 s) rfl).modes rfl
@[simp] theorem State.startBoth_pow (s : State) (p : Pattern) (locked : Nat → Bool) : (s.startBoth p locked).pow = s.pow :=
  (State.startBoth_only s p locked (Only.refl 0xe010c0 s) rfl).pow rfl
@[simp] theorem State.startBoth_clk (s : State) (p : Pattern) (locked : Nat → Bool) : (s.startBoth p locked).clk = s.clk :=
  (State.startBoth_only s p locked (Only.refl 0xe010c0 s) rfl).clk rfl
@[simp] theorem State.startBoth_flt (s : State) (p : Pattern) (locked : Nat → Bool) : (s.startBoth p locked).flt = s.flt :=
  (State.startBoth_only s p locked (Only.refl 0xe010c0 s) rfl).flt rfl
@[simp] theorem State.startBoth_leases (s : State) (p : Pattern) (locked : Nat → Bool) : (s.startBoth p locked).leases = s.leases :=
  (State.startBoth_only s p locked (Only.refl 0xe010c0 s) rfl).leases rfl
@[simp] theorem State.startBoth_fd (s : State) (p : Pattern) (locked : Nat → Bool) : (s.startBoth p locked).fd = s.fd :=
  (State.startBoth_only s p locked (Only.refl 0xe010c0 s) rfl).fd rfl
@[simp] theorem State.startBoth_regs (s : State) (p : Pattern) (locked : Nat → Bool) : (s.startBoth p locked).regs = s.regs :=
  (State.startBoth_only s p locked (Only.refl 0xe010c0 s) rfl).regs rfl
@[simp] theorem State.startBoth_pers (s : State) (p : Pattern) (locked : Nat → Bool) : (s.startBoth p locked).pers = s.pers :=
  (State.startBoth_only s p locked (Only.refl 0xe010c0 s) rfl).pers rfl
@[simp] theorem State.startBoth_br (s : State) (p : Pattern) (locked : Nat → Bool) : (s.startBoth p locked).br = s.br :=
  (State.startBoth_only s p locked (Only.refl 0xe010c0 s) rfl).br rfl
@[simp] theorem State.startBoth_crc (s : State) (p : Pattern) (locked : Nat → Bool) : (s.startBoth p locked).crc = s.crc :=
  (State.startBoth_only s p locked (Only.refl 0xe010c0 s) rfl).crc rfl
@[simp] theorem State.startBoth_tmr (s : State) (p : Pattern) (locked : Nat → Bool) : (s.startBoth p locked).tmr = s.tmr :=
  (State.startBoth_only s p locked (Only.refl 0xe010c0 s) rfl).tmr rfl
@[simp] theorem State.startBoth_otp (s : State) (p : Pattern) (locked : Nat → Bool) : (s.startBoth p locked).otp = s.otp :=
  (State.startBoth_only s p locked (Only.refl 0xe010c0 s) rfl).otp rfl
@[simp] theorem State.startBoth_bkp (s : State) (p : Pattern) (locked : Nat → Bool) : (s.startBoth p locked).bkp = s.bkp :=
  (State.startBoth_only s p locked (Only.refl 0xe010c0 s) rfl).bkp rfl
@[simp] theorem State.startBoth_keys (s : State) (p : Pattern) (locked : Nat → Bool) : (s.startBoth p locked).keys = s.keys :=
  (State.startBoth_only s p locked (Only.refl 0xe010c0 s) rfl).keys rfl
@[simp] theorem State.startBoth_st (s : State) (p : Pattern) (locked : Nat → Bool) : (s.startBoth p locked).st = s.st :=
  (State.startBoth_only s p locked (Only.refl 0xe010c0 s) rfl).st rfl
@[simp] theorem State.startBoth_upd (s : State) (p : Pattern) (locked : Nat → Bool) : (s.startBoth p locked).upd = s.upd :=
  (State.startBoth_only s p locked (Only.refl 0xe010c0 s) rfl).upd rfl
@[simp] theorem State.startBoth_tst (s : State) (p : Pattern) (locked : Nat → Bool) : (s.startBoth p locked).tst = s.tst :=
  (State.startBoth_only s p locked (Only.refl 0xe010c0 s) rfl).tst rfl
@[simp] theorem State.startBoth_freeCtr (s : State) (p : Pattern) (locked : Nat → Bool) : (s.startBoth p locked).freeCtr = s.freeCtr :=
  (State.startBoth_only s p locked (Only.refl 0xe010c0 s) rfl).freeCtr rfl
@[simp] theorem State.startBoth_time (s : State) (p : Pattern) (locked : Nat → Bool) : (s.startBoth p locked).time = s.time :=
  (State.startBoth_only s p locked (Only.refl 0xe010c0 s) rfl).time rfl
@[simp] theorem State.startBoth_pending (s : State) (p : Pattern) (locked : Nat → Bool) : (s.startBoth p locked).pending = s.pending :=
  (State.startBoth_only s p locked (Only.refl 0xe010c0 s) rfl).pending rfl

@[simp] theorem State.regate_order (s : State) : (s.regate).order = s.order :=
  (State.regate_only s (Only.refl 0xc s) rfl).order rfl
@[simp] theorem State.regate_modes (s : State) : (s.regate).modes = s.modes :=
  (State.regate_only s (Only.refl 0xc s) rfl).modes rfl
@[simp] theorem State.regate_flt (s : State) : (s.regate).flt = s.flt :=
  (State.regate_only s (Only.refl 0xc s) rfl).flt rfl
@[simp] theorem State.regate_leases (s : State) : (s.regate).leases = s.leases :=
  (State.regate_only s (Only.refl 0xc s) rfl).leases rfl
@[simp] theorem State.regate_a (s : State) : (s.regate).a = s.a :=
  (State.regate_only s (Only.refl 0xc s) rfl).a rfl
@[simp] theorem State.regate_b (s : State) : (s.regate).b = s.b :=
  (State.regate_only s (Only.refl 0xc s) rfl).b rfl
@[simp] theorem State.regate_fd (s : State) : (s.regate).fd = s.fd :=
  (State.regate_only s (Only.refl 0xc s) rfl).fd rfl
@[simp] theorem State.regate_regs (s : State) : (s.regate).regs = s.regs :=
  (State.regate_only s (Only.refl 0xc s) rfl).regs rfl
@[simp] theorem State.regate_pers (s : State) : (s.regate).pers = s.pers :=
  (State.regate_only s (Only.refl 0xc s) rfl).pers rfl
@[simp] theorem State.regate_br (s : State) : (s.regate).br = s.br :=
  (State.regate_only s (Only.refl 0xc s) rfl).br rfl
@[simp] theorem State.regate_rings (s : State) : (s.regate).rings = s.rings :=
  (State.regate_only s (Only.refl 0xc s) rfl).rings rfl
@[simp] theorem State.regate_crc (s : State) : (s.regate).crc = s.crc :=
  (State.regate_only s (Only.refl 0xc s) rfl).crc rfl
@[simp] theorem State.regate_tmr (s : State) : (s.regate).tmr = s.tmr :=
  (State.regate_only s (Only.refl 0xc s) rfl).tmr rfl
@[simp] theorem State.regate_otp (s : State) : (s.regate).otp = s.otp :=
  (State.regate_only s (Only.refl 0xc s) rfl).otp rfl
@[simp] theorem State.regate_bkp (s : State) : (s.regate).bkp = s.bkp :=
  (State.regate_only s (Only.refl 0xc s) rfl).bkp rfl
@[simp] theorem State.regate_keys (s : State) : (s.regate).keys = s.keys :=
  (State.regate_only s (Only.refl 0xc s) rfl).keys rfl
@[simp] theorem State.regate_st (s : State) : (s.regate).st = s.st :=
  (State.regate_only s (Only.refl 0xc s) rfl).st rfl
@[simp] theorem State.regate_upd (s : State) : (s.regate).upd = s.upd :=
  (State.regate_only s (Only.refl 0xc s) rfl).upd rfl
@[simp] theorem State.regate_tst (s : State) : (s.regate).tst = s.tst :=
  (State.regate_only s (Only.refl 0xc s) rfl).tst rfl
@[simp] theorem State.regate_pat (s : State) : (s.regate).pat = s.pat :=
  (State.regate_only s (Only.refl 0xc s) rfl).pat rfl
@[simp] theorem State.regate_stdin (s : State) : (s.regate).stdin = s.stdin :=
  (State.regate_only s (Only.refl 0xc s) rfl).stdin rfl
@[simp] theorem State.regate_remote (s : State) : (s.regate).remote = s.remote :=
  (State.regate_only s (Only.refl 0xc s) rfl).remote rfl
@[simp] theorem State.regate_freeCtr (s : State) : (s.regate).freeCtr = s.freeCtr :=
  (State.regate_only s (Only.refl 0xc s) rfl).freeCtr rfl
@[simp] theorem State.regate_time (s : State) : (s.regate).time = s.time :=
  (State.regate_only s (Only.refl 0xc s) rfl).time rfl
@[simp] theorem State.regate_pending (s : State) : (s.regate).pending = s.pending :=
  (State.regate_only s (Only.refl 0xc s) rfl).pending rfl

@[simp] theorem State.openConf_order (s : State) (on : Bool) : (s.openConf on).order = s.order :=
  (State.openConf_only s on (Only.refl 0x100 s) rfl).order rfl
@[simp] theorem State.openConf_modes (s : State) (on : Bool) : (s.openConf on).modes = s.modes :=
  (State.openConf_only s on (Only.refl 0x100 s) rfl).modes rfl
@[simp] theorem State.openConf_pow (s : State) (on : Bool) : (s.openConf on).pow = s.pow :=
  (State.openConf_only s on (Only.refl 0x100 s) rfl).pow rfl
@[simp] theorem State.openConf_clk (s : State) (on : Bool) : (s.openConf on).clk = s.clk :=
  (State.openConf_only s on (Only.refl 0x100 s) rfl).clk rfl
@[simp] theorem State.openConf_flt (s : State) (on : Bool) : (s.openConf on).flt = s.flt :=
  (State.openConf_only s on (Only.refl 0x100 s) rfl).flt rfl
@[simp] theorem State.openConf_leases (s : State) (on : Bool) : (s.openConf on).leases = s.leases :=
  (State.openConf_only s on (Only.refl 0x100 s) rfl).leases rfl
@[simp] theorem State.openConf_a (s : State) (on : Bool) : (s.openConf on).a = s.a :=
  (State.openConf_only s on (Only.refl 0x100 s) rfl).a rfl
@[simp] theorem State.openConf_b (s : State) (on : Bool) : (s.openConf on).b = s.b :=
  (State.openConf_only s on (Only.refl 0x100 s) rfl).b rfl
@[simp] theorem State.openConf_regs (s : State) (on : Bool) : (s.openConf on).regs = s.regs :=
  (State.openConf_only s on (Only.refl 0x100 s) rfl).regs rfl
@[simp] theorem State.openConf_pers (s : State) (on : Bool) : (s.openConf on).pers = s.pers :=
  (State.openConf_only s on (Only.refl 0x100 s) rfl).pers rfl
@[simp] theorem State.openConf_br (s : State) (on : Bool) : (s.openConf on).br = s.br :=
  (State.openConf_only s on (Only.refl 0x100 s) rfl).br rfl
@[simp] theorem State.openConf_rings (s : State) (on : Bool) : (s.openConf on).rings = s.rings :=
  (State.openConf_only s on (Only.refl 0x100 s) rfl).rings rfl
@[simp] theorem State.openConf_crc (s : State) (on : Bool) : (s.openConf on).crc = s.crc :=
  (State.openConf_only s on (Only.refl 0x100 s) rfl).crc rfl
@[simp] theorem State.openConf_tmr (s : State) (on : Bool) : (s.openConf on).tmr = s.tmr :=
  (State.openConf_only s on (Only.refl 0x100 s) rfl).tmr rfl
@[simp] theorem State.openConf_otp (s : State) (on : Bool) : (s.openConf on).otp = s.otp :=
  (State.openConf_only s on (Only.refl 0x100 s) rfl).otp rfl
@[simp] theorem State.openConf_bkp (s : State) (on : Bool) : (s.openConf on).bkp = s.bkp :=
  (State.openConf_only s on (Only.refl 0x100 s) rfl).bkp rfl
@[simp] theorem State.openConf_keys (s : State) (on : Bool) : (s.openConf on).keys = s.keys :=
  (State.openConf_only s on (Only.refl 0x100 s) rfl).keys rfl
@[simp] theorem State.openConf_st (s : State) (on : Bool) : (s.openConf on).st = s.st :=
  (State.openConf_only s on (Only.refl 0x100 s) rfl).st rfl
@[simp] theorem State.openConf_upd (s : State) (on : Bool) : (s.openConf on).upd = s.upd :=
  (State.openConf_only s on (Only.refl 0x100 s) rfl).upd rfl
@[simp] theorem State.openConf_tst (s : State) (on : Bool) : (s.openConf on).tst = s.tst :=
  (State.openConf_only s on (Only.refl 0x100 s) rfl).tst rfl
@[simp] theorem State.openConf_pat (s : State) (on : Bool) : (s.openConf on).pat = s.pat :=
  (State.openConf_only s on (Only.refl 0x100 s) rfl).pat rfl
@[simp] theorem State.openConf_stdin (s : State) (on : Bool) : (s.openConf on).stdin = s.stdin :=
  (State.openConf_only s on (Only.refl 0x100 s) rfl).stdin rfl
@[simp] theorem State.openConf_remote (s : State) (on : Bool) : (s.openConf on).remote = s.remote :=
  (State.openConf_only s on (Only.refl 0x100 s) rfl).remote rfl
@[simp] theorem State.openConf_freeCtr (s : State) (on : Bool) : (s.openConf on).freeCtr = s.freeCtr :=
  (State.openConf_only s on (Only.refl 0x100 s) rfl).freeCtr rfl
@[simp] theorem State.openConf_time (s : State) (on : Bool) : (s.openConf on).time = s.time :=
  (State.openConf_only s on (Only.refl 0x100 s) rfl).time rfl
@[simp] theorem State.openConf_pending (s : State) (on : Bool) : (s.openConf on).pending = s.pending :=
  (State.openConf_only s on (Only.refl 0x100 s) rfl).pending rfl

@[simp] theorem State.activate_order (s : State) : (s.activate).order = s.order :=
  (State.activate_only s (Only.refl 0x200000 s) rfl).order rfl
@[simp] theorem State.activate_modes (s : State) : (s.activate).modes = s.modes :=
  (State.activate_only s (Only.refl 0x200000 s) rfl).modes rfl
@[simp] theorem State.activate_pow (s : State) : (s.activate).pow = s.pow :=
  (State.activate_only s (Only.refl 0x200000 s) rfl).pow rfl
@[simp] theorem State.activate_clk (s : State) : (s.activate).clk = s.clk :=
  (State.activate_only s (Only.refl 0x200000 s) rfl).clk rfl
@[simp] theorem State.activate_flt (s : State) : (s.activate).flt = s.flt :=
  (State.activate_only s (Only.refl 0x200000 s) rfl).flt rfl
@[simp] theorem State.activate_leases (s : State) : (s.activate).leases = s.leases :=
  (State.activate_only s (Only.refl 0x200000 s) rfl).leases rfl
@[simp] theorem State.activate_a (s : State) : (s.activate).a = s.a :=
  (State.activate_only s (Only.refl 0x200000 s) rfl).a rfl
@[simp] theorem State.activate_b (s : State) : (s.activate).b = s.b :=
  (State.activate_only s (Only.refl 0x200000 s) rfl).b rfl
@[simp] theorem State.activate_fd (s : State) : (s.activate).fd = s.fd :=
  (State.activate_only s (Only.refl 0x200000 s) rfl).fd rfl
@[simp] theorem State.activate_regs (s : State) : (s.activate).regs = s.regs :=
  (State.activate_only s (Only.refl 0x200000 s) rfl).regs rfl
@[simp] theorem State.activate_pers (s : State) : (s.activate).pers = s.pers :=
  (State.activate_only s (Only.refl 0x200000 s) rfl).pers rfl
@[simp] theorem State.activate_br (s : State) : (s.activate).br = s.br :=
  (State.activate_only s (Only.refl 0x200000 s) rfl).br rfl
@[simp] theorem State.activate_rings (s : State) : (s.activate).rings = s.rings :=
  (State.activate_only s (Only.refl 0x200000 s) rfl).rings rfl
@[simp] theorem State.activate_crc (s : State) : (s.activate).crc = s.crc :=
  (State.activate_only s (Only.refl 0x200000 s) rfl).crc rfl
@[simp] theorem State.activate_tmr (s : State) : (s.activate).tmr = s.tmr :=
  (State.activate_only s (Only.refl 0x200000 s) rfl).tmr rfl
@[simp] theorem State.activate_otp (s : State) : (s.activate).otp = s.otp :=
  (State.activate_only s (Only.refl 0x200000 s) rfl).otp rfl
@[simp] theorem State.activate_bkp (s : State) : (s.activate).bkp = s.bkp :=
  (State.activate_only s (Only.refl 0x200000 s) rfl).bkp rfl
@[simp] theorem State.activate_keys (s : State) : (s.activate).keys = s.keys :=
  (State.activate_only s (Only.refl 0x200000 s) rfl).keys rfl
@[simp] theorem State.activate_st (s : State) : (s.activate).st = s.st :=
  (State.activate_only s (Only.refl 0x200000 s) rfl).st rfl
@[simp] theorem State.activate_upd (s : State) : (s.activate).upd = s.upd :=
  (State.activate_only s (Only.refl 0x200000 s) rfl).upd rfl
@[simp] theorem State.activate_tst (s : State) : (s.activate).tst = s.tst :=
  (State.activate_only s (Only.refl 0x200000 s) rfl).tst rfl
@[simp] theorem State.activate_stdin (s : State) : (s.activate).stdin = s.stdin :=
  (State.activate_only s (Only.refl 0x200000 s) rfl).stdin rfl
@[simp] theorem State.activate_remote (s : State) : (s.activate).remote = s.remote :=
  (State.activate_only s (Only.refl 0x200000 s) rfl).remote rfl
@[simp] theorem State.activate_freeCtr (s : State) : (s.activate).freeCtr = s.freeCtr :=
  (State.activate_only s (Only.refl 0x200000 s) rfl).freeCtr rfl
@[simp] theorem State.activate_time (s : State) : (s.activate).time = s.time :=
  (State.activate_only s (Only.refl 0x200000 s) rfl).time rfl
@[simp] theorem State.activate_pending (s : State) : (s.activate).pending = s.pending :=
  (State.activate_only s (Only.refl 0x200000 s) rfl).pending rfl

@[simp] theorem State.clearRun_order (s : State) : (s.clearRun).order = s.order :=
  (State.clearRun_only s (Only.refl 0x200 s) rfl).order rfl
@[simp] theorem State.clearRun_modes (s : State) : (s.clearRun).modes = s.modes :=
  (State.clearRun_only s (Only.refl 0x200 s) rfl).modes rfl
@[simp] theorem State.clearRun_pow (s : State) : (s.clearRun).pow = s.pow :=
  (State.clearRun_only s (Only.refl 0x200 s) rfl).pow rfl
@[simp] theorem State.clearRun_clk (s : State) : (s.clearRun).clk = s.clk :=
  (State.clearRun_only s (Only.refl 0x200 s) rfl).clk rfl
@[simp] theorem State.clearRun_flt (s : State) : (s.clearRun).flt = s.flt :=
  (State.clearRun_only s (Only.refl 0x200 s) rfl).flt rfl
@[simp] theorem State.clearRun_leases (s : State) : (s.clearRun).leases = s.leases :=
  (State.clearRun_only s (Only.refl 0x200 s) rfl).leases rfl
@[simp] theorem State.clearRun_a (s : State) : (s.clearRun).a = s.a :=
  (State.clearRun_only s (Only.refl 0x200 s) rfl).a rfl
@[simp] theorem State.clearRun_b (s : State) : (s.clearRun).b = s.b :=
  (State.clearRun_only s (Only.refl 0x200 s) rfl).b rfl
@[simp] theorem State.clearRun_fd (s : State) : (s.clearRun).fd = s.fd :=
  (State.clearRun_only s (Only.refl 0x200 s) rfl).fd rfl
@[simp] theorem State.clearRun_pers (s : State) : (s.clearRun).pers = s.pers :=
  (State.clearRun_only s (Only.refl 0x200 s) rfl).pers rfl
@[simp] theorem State.clearRun_br (s : State) : (s.clearRun).br = s.br :=
  (State.clearRun_only s (Only.refl 0x200 s) rfl).br rfl
@[simp] theorem State.clearRun_rings (s : State) : (s.clearRun).rings = s.rings :=
  (State.clearRun_only s (Only.refl 0x200 s) rfl).rings rfl
@[simp] theorem State.clearRun_crc (s : State) : (s.clearRun).crc = s.crc :=
  (State.clearRun_only s (Only.refl 0x200 s) rfl).crc rfl
@[simp] theorem State.clearRun_tmr (s : State) : (s.clearRun).tmr = s.tmr :=
  (State.clearRun_only s (Only.refl 0x200 s) rfl).tmr rfl
@[simp] theorem State.clearRun_otp (s : State) : (s.clearRun).otp = s.otp :=
  (State.clearRun_only s (Only.refl 0x200 s) rfl).otp rfl
@[simp] theorem State.clearRun_bkp (s : State) : (s.clearRun).bkp = s.bkp :=
  (State.clearRun_only s (Only.refl 0x200 s) rfl).bkp rfl
@[simp] theorem State.clearRun_keys (s : State) : (s.clearRun).keys = s.keys :=
  (State.clearRun_only s (Only.refl 0x200 s) rfl).keys rfl
@[simp] theorem State.clearRun_st (s : State) : (s.clearRun).st = s.st :=
  (State.clearRun_only s (Only.refl 0x200 s) rfl).st rfl
@[simp] theorem State.clearRun_upd (s : State) : (s.clearRun).upd = s.upd :=
  (State.clearRun_only s (Only.refl 0x200 s) rfl).upd rfl
@[simp] theorem State.clearRun_tst (s : State) : (s.clearRun).tst = s.tst :=
  (State.clearRun_only s (Only.refl 0x200 s) rfl).tst rfl
@[simp] theorem State.clearRun_pat (s : State) : (s.clearRun).pat = s.pat :=
  (State.clearRun_only s (Only.refl 0x200 s) rfl).pat rfl
@[simp] theorem State.clearRun_stdin (s : State) : (s.clearRun).stdin = s.stdin :=
  (State.clearRun_only s (Only.refl 0x200 s) rfl).stdin rfl
@[simp] theorem State.clearRun_remote (s : State) : (s.clearRun).remote = s.remote :=
  (State.clearRun_only s (Only.refl 0x200 s) rfl).remote rfl
@[simp] theorem State.clearRun_freeCtr (s : State) : (s.clearRun).freeCtr = s.freeCtr :=
  (State.clearRun_only s (Only.refl 0x200 s) rfl).freeCtr rfl
@[simp] theorem State.clearRun_time (s : State) : (s.clearRun).time = s.time :=
  (State.clearRun_only s (Only.refl 0x200 s) rfl).time rfl
@[simp] theorem State.clearRun_pending (s : State) : (s.clearRun).pending = s.pending :=
  (State.clearRun_only s (Only.refl 0x200 s) rfl).pending rfl

@[simp] theorem State.firstRun_order (s : State) : (s.firstRun).order = s.order :=
  (State.firstRun_only s (Only.refl 0x8020 s) rfl).order rfl
@[simp] theorem State.firstRun_modes (s : State) : (s.firstRun).modes = s.modes :=
  (State.firstRun_only s (Only.refl 0x8020 s) rfl).modes rfl
@[simp] theorem State.firstRun_pow (s : State) : (s.firstRun).pow = s.pow :=
  (State.firstRun_only s (Only.refl 0x8020 s) rfl).pow rfl
@[simp] theorem State.firstRun_clk (s : State) : (s.firstRun).clk = s.clk :=
  (State.firstRun_only s (Only.refl 0x8020 s) rfl).clk rfl
@[simp] theorem State.firstRun_flt (s : State) : (s.firstRun).flt = s.flt :=
  (State.firstRun_only s (Only.refl 0x8020 s) rfl).flt rfl
@[simp] theorem State.firstRun_a (s : State) : (s.firstRun).a = s.a :=
  (State.firstRun_only s (Only.refl 0x8020 s) rfl).a rfl
@[simp] theorem State.firstRun_b (s : State) : (s.firstRun).b = s.b :=
  (State.firstRun_only s (Only.refl 0x8020 s) rfl).b rfl
@[simp] theorem State.firstRun_fd (s : State) : (s.firstRun).fd = s.fd :=
  (State.firstRun_only s (Only.refl 0x8020 s) rfl).fd rfl
@[simp] theorem State.firstRun_regs (s : State) : (s.firstRun).regs = s.regs :=
  (State.firstRun_only s (Only.refl 0x8020 s) rfl).regs rfl
@[simp] theorem State.firstRun_pers (s : State) : (s.firstRun).pers = s.pers :=
  (State.firstRun_only s (Only.refl 0x8020 s) rfl).pers rfl
@[simp] theorem State.firstRun_br (s : State) : (s.firstRun).br = s.br :=
  (State.firstRun_only s (Only.refl 0x8020 s) rfl).br rfl
@[simp] theorem State.firstRun_rings (s : State) : (s.firstRun).rings = s.rings :=
  (State.firstRun_only s (Only.refl 0x8020 s) rfl).rings rfl
@[simp] theorem State.firstRun_crc (s : State) : (s.firstRun).crc = s.crc :=
  (State.firstRun_only s (Only.refl 0x8020 s) rfl).crc rfl
@[simp] theorem State.firstRun_tmr (s : State) : (s.firstRun).tmr = s.tmr :=
  (State.firstRun_only s (Only.refl 0x8020 s) rfl).tmr rfl
@[simp] theorem State.firstRun_bkp (s : State) : (s.firstRun).bkp = s.bkp :=
  (State.firstRun_only s (Only.refl 0x8020 s) rfl).bkp rfl
@[simp] theorem State.firstRun_keys (s : State) : (s.firstRun).keys = s.keys :=
  (State.firstRun_only s (Only.refl 0x8020 s) rfl).keys rfl
@[simp] theorem State.firstRun_st (s : State) : (s.firstRun).st = s.st :=
  (State.firstRun_only s (Only.refl 0x8020 s) rfl).st rfl
@[simp] theorem State.firstRun_upd (s : State) : (s.firstRun).upd = s.upd :=
  (State.firstRun_only s (Only.refl 0x8020 s) rfl).upd rfl
@[simp] theorem State.firstRun_tst (s : State) : (s.firstRun).tst = s.tst :=
  (State.firstRun_only s (Only.refl 0x8020 s) rfl).tst rfl
@[simp] theorem State.firstRun_pat (s : State) : (s.firstRun).pat = s.pat :=
  (State.firstRun_only s (Only.refl 0x8020 s) rfl).pat rfl
@[simp] theorem State.firstRun_stdin (s : State) : (s.firstRun).stdin = s.stdin :=
  (State.firstRun_only s (Only.refl 0x8020 s) rfl).stdin rfl
@[simp] theorem State.firstRun_remote (s : State) : (s.firstRun).remote = s.remote :=
  (State.firstRun_only s (Only.refl 0x8020 s) rfl).remote rfl
@[simp] theorem State.firstRun_freeCtr (s : State) : (s.firstRun).freeCtr = s.freeCtr :=
  (State.firstRun_only s (Only.refl 0x8020 s) rfl).freeCtr rfl
@[simp] theorem State.firstRun_time (s : State) : (s.firstRun).time = s.time :=
  (State.firstRun_only s (Only.refl 0x8020 s) rfl).time rfl
@[simp] theorem State.firstRun_pending (s : State) : (s.firstRun).pending = s.pending :=
  (State.firstRun_only s (Only.refl 0x8020 s) rfl).pending rfl

@[simp] theorem State.otpNext_order (s : State) : (s.otpNext).order = s.order :=
  (State.otpNext_only s (Only.refl 0x8020 s) rfl).order rfl
@[simp] theorem State.otpNext_modes (s : State) : (s.otpNext).modes = s.modes :=
  (State.otpNext_only s (Only.refl 0x8020 s) rfl).modes rfl
@[simp] theorem State.otpNext_pow (s : State) : (s.otpNext).pow = s.pow :=
  (State.otpNext_only s (Only.refl 0x8020 s) rfl).pow rfl
@[simp] theorem State.otpNext_clk (s : State) : (s.otpNext).clk = s.clk :=
  (State.otpNext_only s (Only.refl 0x8020 s) rfl).clk rfl
@[simp] theorem State.otpNext_flt (s : State) : (s.otpNext).flt = s.flt :=
  (State.otpNext_only s (Only.refl 0x8020 s) rfl).flt rfl
@[simp] theorem State.otpNext_a (s : State) : (s.otpNext).a = s.a :=
  (State.otpNext_only s (Only.refl 0x8020 s) rfl).a rfl
@[simp] theorem State.otpNext_b (s : State) : (s.otpNext).b = s.b :=
  (State.otpNext_only s (Only.refl 0x8020 s) rfl).b rfl
@[simp] theorem State.otpNext_fd (s : State) : (s.otpNext).fd = s.fd :=
  (State.otpNext_only s (Only.refl 0x8020 s) rfl).fd rfl
@[simp] theorem State.otpNext_regs (s : State) : (s.otpNext).regs = s.regs :=
  (State.otpNext_only s (Only.refl 0x8020 s) rfl).regs rfl
@[simp] theorem State.otpNext_pers (s : State) : (s.otpNext).pers = s.pers :=
  (State.otpNext_only s (Only.refl 0x8020 s) rfl).pers rfl
@[simp] theorem State.otpNext_br (s : State) : (s.otpNext).br = s.br :=
  (State.otpNext_only s (Only.refl 0x8020 s) rfl).br rfl
@[simp] theorem State.otpNext_rings (s : State) : (s.otpNext).rings = s.rings :=
  (State.otpNext_only s (Only.refl 0x8020 s) rfl).rings rfl
@[simp] theorem State.otpNext_crc (s : State) : (s.otpNext).crc = s.crc :=
  (State.otpNext_only s (Only.refl 0x8020 s) rfl).crc rfl
@[simp] theorem State.otpNext_tmr (s : State) : (s.otpNext).tmr = s.tmr :=
  (State.otpNext_only s (Only.refl 0x8020 s) rfl).tmr rfl
@[simp] theorem State.otpNext_bkp (s : State) : (s.otpNext).bkp = s.bkp :=
  (State.otpNext_only s (Only.refl 0x8020 s) rfl).bkp rfl
@[simp] theorem State.otpNext_keys (s : State) : (s.otpNext).keys = s.keys :=
  (State.otpNext_only s (Only.refl 0x8020 s) rfl).keys rfl
@[simp] theorem State.otpNext_st (s : State) : (s.otpNext).st = s.st :=
  (State.otpNext_only s (Only.refl 0x8020 s) rfl).st rfl
@[simp] theorem State.otpNext_upd (s : State) : (s.otpNext).upd = s.upd :=
  (State.otpNext_only s (Only.refl 0x8020 s) rfl).upd rfl
@[simp] theorem State.otpNext_tst (s : State) : (s.otpNext).tst = s.tst :=
  (State.otpNext_only s (Only.refl 0x8020 s) rfl).tst rfl
@[simp] theorem State.otpNext_pat (s : State) : (s.otpNext).pat = s.pat :=
  (State.otpNext_only s (Only.refl 0x8020 s) rfl).pat rfl
@[simp] theorem State.otpNext_stdin (s : State) : (s.otpNext).stdin = s.stdin :=
  (State.otpNext_only s (Only.refl 0x8020 s) rfl).stdin rfl
@[simp] theorem State.otpNext_remote (s : State) : (s.otpNext).remote = s.remote :=
  (State.otpNext_only s (Only.refl 0x8020 s) rfl).remote rfl
@[simp] theorem State.otpNext_freeCtr (s : State) : (s.otpNext).freeCtr = s.freeCtr :=
  (State.otpNext_only s (Only.refl 0x8020 s) rfl).freeCtr rfl
@[simp] theorem State.otpNext_time (s : State) : (s.otpNext).time = s.time :=
  (State.otpNext_only s (Only.refl 0x8020 s) rfl).time rfl
@[simp] theorem State.otpNext_pending (s : State) : (s.otpNext).pending = s.pending :=
  (State.otpNext_only s (Only.refl 0x8020 s) rfl).pending rfl

@[simp] theorem State.regrid_order (s : State) (d : Die) (same : Bool) : (s.regrid d same).order = s.order :=
  (State.regrid_only s d same (Only.refl 0xc0 s) rfl).order rfl
@[simp] theorem State.regrid_modes (s : State) (d : Die) (same : Bool) : (s.regrid d same).modes = s.modes :=
  (State.regrid_only s d same (Only.refl 0xc0 s) rfl).modes rfl
@[simp] theorem State.regrid_pow (s : State) (d : Die) (same : Bool) : (s.regrid d same).pow = s.pow :=
  (State.regrid_only s d same (Only.refl 0xc0 s) rfl).pow rfl
@[simp] theorem State.regrid_clk (s : State) (d : Die) (same : Bool) : (s.regrid d same).clk = s.clk :=
  (State.regrid_only s d same (Only.refl 0xc0 s) rfl).clk rfl
@[simp] theorem State.regrid_flt (s : State) (d : Die) (same : Bool) : (s.regrid d same).flt = s.flt :=
  (State.regrid_only s d same (Only.refl 0xc0 s) rfl).flt rfl
@[simp] theorem State.regrid_leases (s : State) (d : Die) (same : Bool) : (s.regrid d same).leases = s.leases :=
  (State.regrid_only s d same (Only.refl 0xc0 s) rfl).leases rfl
@[simp] theorem State.regrid_fd (s : State) (d : Die) (same : Bool) : (s.regrid d same).fd = s.fd :=
  (State.regrid_only s d same (Only.refl 0xc0 s) rfl).fd rfl
@[simp] theorem State.regrid_regs (s : State) (d : Die) (same : Bool) : (s.regrid d same).regs = s.regs :=
  (State.regrid_only s d same (Only.refl 0xc0 s) rfl).regs rfl
@[simp] theorem State.regrid_pers (s : State) (d : Die) (same : Bool) : (s.regrid d same).pers = s.pers :=
  (State.regrid_only s d same (Only.refl 0xc0 s) rfl).pers rfl
@[simp] theorem State.regrid_br (s : State) (d : Die) (same : Bool) : (s.regrid d same).br = s.br :=
  (State.regrid_only s d same (Only.refl 0xc0 s) rfl).br rfl
@[simp] theorem State.regrid_rings (s : State) (d : Die) (same : Bool) : (s.regrid d same).rings = s.rings :=
  (State.regrid_only s d same (Only.refl 0xc0 s) rfl).rings rfl
@[simp] theorem State.regrid_crc (s : State) (d : Die) (same : Bool) : (s.regrid d same).crc = s.crc :=
  (State.regrid_only s d same (Only.refl 0xc0 s) rfl).crc rfl
@[simp] theorem State.regrid_tmr (s : State) (d : Die) (same : Bool) : (s.regrid d same).tmr = s.tmr :=
  (State.regrid_only s d same (Only.refl 0xc0 s) rfl).tmr rfl
@[simp] theorem State.regrid_otp (s : State) (d : Die) (same : Bool) : (s.regrid d same).otp = s.otp :=
  (State.regrid_only s d same (Only.refl 0xc0 s) rfl).otp rfl
@[simp] theorem State.regrid_bkp (s : State) (d : Die) (same : Bool) : (s.regrid d same).bkp = s.bkp :=
  (State.regrid_only s d same (Only.refl 0xc0 s) rfl).bkp rfl
@[simp] theorem State.regrid_keys (s : State) (d : Die) (same : Bool) : (s.regrid d same).keys = s.keys :=
  (State.regrid_only s d same (Only.refl 0xc0 s) rfl).keys rfl
@[simp] theorem State.regrid_st (s : State) (d : Die) (same : Bool) : (s.regrid d same).st = s.st :=
  (State.regrid_only s d same (Only.refl 0xc0 s) rfl).st rfl
@[simp] theorem State.regrid_upd (s : State) (d : Die) (same : Bool) : (s.regrid d same).upd = s.upd :=
  (State.regrid_only s d same (Only.refl 0xc0 s) rfl).upd rfl
@[simp] theorem State.regrid_tst (s : State) (d : Die) (same : Bool) : (s.regrid d same).tst = s.tst :=
  (State.regrid_only s d same (Only.refl 0xc0 s) rfl).tst rfl
@[simp] theorem State.regrid_pat (s : State) (d : Die) (same : Bool) : (s.regrid d same).pat = s.pat :=
  (State.regrid_only s d same (Only.refl 0xc0 s) rfl).pat rfl
@[simp] theorem State.regrid_stdin (s : State) (d : Die) (same : Bool) : (s.regrid d same).stdin = s.stdin :=
  (State.regrid_only s d same (Only.refl 0xc0 s) rfl).stdin rfl
@[simp] theorem State.regrid_remote (s : State) (d : Die) (same : Bool) : (s.regrid d same).remote = s.remote :=
  (State.regrid_only s d same (Only.refl 0xc0 s) rfl).remote rfl
@[simp] theorem State.regrid_freeCtr (s : State) (d : Die) (same : Bool) : (s.regrid d same).freeCtr = s.freeCtr :=
  (State.regrid_only s d same (Only.refl 0xc0 s) rfl).freeCtr rfl
@[simp] theorem State.regrid_time (s : State) (d : Die) (same : Bool) : (s.regrid d same).time = s.time :=
  (State.regrid_only s d same (Only.refl 0xc0 s) rfl).time rfl
@[simp] theorem State.regrid_pending (s : State) (d : Die) (same : Bool) : (s.regrid d same).pending = s.pending :=
  (State.regrid_only s d same (Only.refl 0xc0 s) rfl).pending rfl

@[simp] theorem State.otpWant_order (s : State) (l : List (Nat × Nat)) : (s.otpWant l).order = s.order :=
  (State.otpWant_only s l (Only.refl 0x8020 s) rfl).order rfl
@[simp] theorem State.otpWant_modes (s : State) (l : List (Nat × Nat)) : (s.otpWant l).modes = s.modes :=
  (State.otpWant_only s l (Only.refl 0x8020 s) rfl).modes rfl
@[simp] theorem State.otpWant_pow (s : State) (l : List (Nat × Nat)) : (s.otpWant l).pow = s.pow :=
  (State.otpWant_only s l (Only.refl 0x8020 s) rfl).pow rfl
@[simp] theorem State.otpWant_clk (s : State) (l : List (Nat × Nat)) : (s.otpWant l).clk = s.clk :=
  (State.otpWant_only s l (Only.refl 0x8020 s) rfl).clk rfl
@[simp] theorem State.otpWant_flt (s : State) (l : List (Nat × Nat)) : (s.otpWant l).flt = s.flt :=
  (State.otpWant_only s l (Only.refl 0x8020 s) rfl).flt rfl
@[simp] theorem State.otpWant_a (s : State) (l : List (Nat × Nat)) : (s.otpWant l).a = s.a :=
  (State.otpWant_only s l (Only.refl 0x8020 s) rfl).a rfl
@[simp] theorem State.otpWant_b (s : State) (l : List (Nat × Nat)) : (s.otpWant l).b = s.b :=
  (State.otpWant_only s l (Only.refl 0x8020 s) rfl).b rfl
@[simp] theorem State.otpWant_fd (s : State) (l : List (Nat × Nat)) : (s.otpWant l).fd = s.fd :=
  (State.otpWant_only s l (Only.refl 0x8020 s) rfl).fd rfl
@[simp] theorem State.otpWant_regs (s : State) (l : List (Nat × Nat)) : (s.otpWant l).regs = s.regs :=
  (State.otpWant_only s l (Only.refl 0x8020 s) rfl).regs rfl
@[simp] theorem State.otpWant_pers (s : State) (l : List (Nat × Nat)) : (s.otpWant l).pers = s.pers :=
  (State.otpWant_only s l (Only.refl 0x8020 s) rfl).pers rfl
@[simp] theorem State.otpWant_br (s : State) (l : List (Nat × Nat)) : (s.otpWant l).br = s.br :=
  (State.otpWant_only s l (Only.refl 0x8020 s) rfl).br rfl
@[simp] theorem State.otpWant_rings (s : State) (l : List (Nat × Nat)) : (s.otpWant l).rings = s.rings :=
  (State.otpWant_only s l (Only.refl 0x8020 s) rfl).rings rfl
@[simp] theorem State.otpWant_crc (s : State) (l : List (Nat × Nat)) : (s.otpWant l).crc = s.crc :=
  (State.otpWant_only s l (Only.refl 0x8020 s) rfl).crc rfl
@[simp] theorem State.otpWant_tmr (s : State) (l : List (Nat × Nat)) : (s.otpWant l).tmr = s.tmr :=
  (State.otpWant_only s l (Only.refl 0x8020 s) rfl).tmr rfl
@[simp] theorem State.otpWant_bkp (s : State) (l : List (Nat × Nat)) : (s.otpWant l).bkp = s.bkp :=
  (State.otpWant_only s l (Only.refl 0x8020 s) rfl).bkp rfl
@[simp] theorem State.otpWant_keys (s : State) (l : List (Nat × Nat)) : (s.otpWant l).keys = s.keys :=
  (State.otpWant_only s l (Only.refl 0x8020 s) rfl).keys rfl
@[simp] theorem State.otpWant_st (s : State) (l : List (Nat × Nat)) : (s.otpWant l).st = s.st :=
  (State.otpWant_only s l (Only.refl 0x8020 s) rfl).st rfl
@[simp] theorem State.otpWant_upd (s : State) (l : List (Nat × Nat)) : (s.otpWant l).upd = s.upd :=
  (State.otpWant_only s l (Only.refl 0x8020 s) rfl).upd rfl
@[simp] theorem State.otpWant_tst (s : State) (l : List (Nat × Nat)) : (s.otpWant l).tst = s.tst :=
  (State.otpWant_only s l (Only.refl 0x8020 s) rfl).tst rfl
@[simp] theorem State.otpWant_pat (s : State) (l : List (Nat × Nat)) : (s.otpWant l).pat = s.pat :=
  (State.otpWant_only s l (Only.refl 0x8020 s) rfl).pat rfl
@[simp] theorem State.otpWant_stdin (s : State) (l : List (Nat × Nat)) : (s.otpWant l).stdin = s.stdin :=
  (State.otpWant_only s l (Only.refl 0x8020 s) rfl).stdin rfl
@[simp] theorem State.otpWant_remote (s : State) (l : List (Nat × Nat)) : (s.otpWant l).remote = s.remote :=
  (State.otpWant_only s l (Only.refl 0x8020 s) rfl).remote rfl
@[simp] theorem State.otpWant_freeCtr (s : State) (l : List (Nat × Nat)) : (s.otpWant l).freeCtr = s.freeCtr :=
  (State.otpWant_only s l (Only.refl 0x8020 s) rfl).freeCtr rfl
@[simp] theorem State.otpWant_time (s : State) (l : List (Nat × Nat)) : (s.otpWant l).time = s.time :=
  (State.otpWant_only s l (Only.refl 0x8020 s) rfl).time rfl
@[simp] theorem State.otpWant_pending (s : State) (l : List (Nat × Nat)) : (s.otpWant l).pending = s.pending :=
  (State.otpWant_only s l (Only.refl 0x8020 s) rfl).pending rfl

end Sys2Proof.Machine
end

