-- ==== Sys2Proof/Laws/Access.lean ====
section
/-! SUPPORT. What a write answers, check by check (Machine/Access.lean, the order of Table 14-6), and what a journal record on both dies
leaves alone. -/

namespace Sys2Proof.Machine

/-- All checks pass: status OK and the effect. -/
theorem State.write_ok (s : State) (busy rights mode range : Bool) (f : State → State) (h : s.open_) (hb : busy = false)
    (hr : rights = true) (hm : mode = true) (hn : range = true) : s.write busy rights mode range f = f (s.ans .ok) := by
  unfold State.write
  rw [if_neg h.1, if_neg (by simp [h.2])]
  simp [hb, hr, hm, hn]

/-- In SHELF nothing is served. -/
theorem State.write_shelf (s : State) (busy rights mode range : Bool) (f : State → State) (h : s.modes.mode = .shelf) :
    s.write busy rights mode range f = s := by
  unfold State.write
  rw [if_pos h]

/-- In BOOT, or once the lifecycle is VOID, a write answers MODE. -/
theorem State.write_closed (s : State) (busy rights mode range : Bool) (f : State → State) (h : s.modes.mode ≠ .shelf)
    (hs : s.serves = false) : s.write busy rights mode range f = s.ans .mode := by
  unfold State.write
  rw [if_neg h, if_pos (by simp [hs])]

/-- A write that must wait answers BUSY. -/
theorem State.write_busy (s : State) (rights mode range : Bool) (f : State → State) (h : s.open_) :
    s.write true rights mode range f = s.ans .busy := by
  unfold State.write
  rw [if_neg h.1, if_neg (by simp [h.2])]
  simp

/-- A write without the right answers RIGHTS. -/
theorem State.write_rights (s : State) (mode range : Bool) (f : State → State) (h : s.open_) :
    s.write false false mode range f = s.ans .rights := by
  unfold State.write
  rw [if_neg h.1, if_neg (by simp [h.2])]
  simp

/-- A write that the mode does not allow answers MODE. -/
theorem State.write_mode (s : State) (range : Bool) (f : State → State) (h : s.open_) :
    s.write false true false range f = s.ans .mode := by
  unfold State.write
  rw [if_neg h.1, if_neg (by simp [h.2])]
  simp

/-- A value outside its range answers RANGE. -/
theorem State.write_range (s : State) (f : State → State) (h : s.open_) : s.write false true true false f = s.ans .range := by
  unfold State.write
  rw [if_neg h.1, if_neg (by simp [h.2])]
  simp

/-- No condition holds: status OK and the effect. -/
theorem State.refuse_ok (s : State) (l : List (Bool × Status)) (f : State → State) (h : s.open_) (hl : ∀ x ∈ l, x.1 = false) :
    s.refuse l f = f (s.ans .ok) := by
  unfold State.refuse
  rw [if_neg h.1, if_neg (by simp [h.2])]
  have : (l.find? fun (x : Bool × Status) => x.1) = none := by
    rw [List.find?_eq_none]
    intro x hx
    simp [hl x hx]
  rw [this]

/-- The first condition that holds gives the status. -/
theorem State.refuse_first (s : State) (pre l : List (Bool × Status)) (st : Status) (f : State → State) (h : s.open_)
    (hl : ∀ x ∈ pre, x.1 = false) : s.refuse (pre ++ (true, st) :: l) f = s.ans st := by
  unfold State.refuse
  rw [if_neg h.1, if_neg (by simp [h.2])]
  have : ((pre ++ (true, st) :: l).find? fun (x : Bool × Status) => x.1) = some (true, st) := by
    rw [List.find?_append]
    have : (pre.find? fun (x : Bool × Status) => x.1) = none := by
      rw [List.find?_eq_none]
      intro x hx
      simp [hl x hx]
    rw [this]
    rfl
  rw [this]

/-- In SHELF nothing is served. -/
theorem State.refuse_shelf (s : State) (l : List (Bool × Status)) (f : State → State) (h : s.modes.mode = .shelf) : s.refuse l f = s := by
  unfold State.refuse
  rw [if_pos h]

/-- In BOOT, or once the lifecycle is VOID, a request answers MODE. -/
theorem State.refuse_closed (s : State) (l : List (Bool × Status)) (f : State → State) (h : s.modes.mode ≠ .shelf)
    (hs : s.serves = false) : s.refuse l f = s.ans .mode := by
  unfold State.refuse
  rw [if_neg h, if_pos (by simp [hs])]

/-- What touches no field but a, b and regs is such a change. -/
theorem Only.parts3 {s t : State} (h : Only 0x2c0 s t) : t = { s with a := t.a, b := t.b, regs := t.regs } := by
  apply State.eq_of <;> first
    | rfl
    | exact h.order rfl
    | exact h.modes rfl
    | exact h.pow rfl
    | exact h.clk rfl
    | exact h.flt rfl
    | exact h.leases rfl
    | exact h.fd rfl
    | exact h.pers rfl
    | exact h.br rfl
    | exact h.rings rfl
    | exact h.crc rfl
    | exact h.tmr rfl
    | exact h.otp rfl
    | exact h.bkp rfl
    | exact h.keys rfl
    | exact h.st rfl
    | exact h.upd rfl
    | exact h.tst rfl
    | exact h.pat rfl
    | exact h.stdin rfl
    | exact h.remote rfl
    | exact h.freeCtr rfl
    | exact h.time rfl
    | exact h.pending rfl

/-- An EVENT record on one die touches journals and JRN_DROPS only. -/
theorem State.event_parts (s : State) (d : Die) (k : Nat) (l : List Byte) :
    ∃ a b regs, s.event d k l = { s with a := a, b := b, regs := regs } :=
  ⟨_, _, _, (State.event_only s d k l (Only.refl 0x2c0 s) rfl).parts3⟩

/-- An EVENT record on both dies touches their journals and JRN_DROPS only. -/
theorem State.event2_parts (s : State) (k : Nat) (l : List Byte) :
    ∃ a b regs, s.event2 k l = { s with a := a, b := b, regs := regs } :=
  ⟨_, _, _, (State.event2_only s k l (Only.refl 0x2c0 s) rfl).parts3⟩

end Sys2Proof.Machine
end

