-- ==== Sys2Proof/Laws/Checked.lean ====
section
/-! SUPPORT. A meaning that refuses by a list of conditions is answered by the first of them that holds. -/

namespace Sys2Proof.Machine

theorem State.refuse_checked (s : State) (c : Instr) (l : List (Bool × Status)) (f : State → State)
    (h : exec c s = .next (s.refuse l f)) : Checked s c l f := by
  refine ⟨fun h1 => ?_, fun h1 h2 => ?_, fun h1 l1 st l2 h2 h3 => ?_, fun h1 h2 => ?_⟩
  · rw [h, State.refuse_shelf s l f h1]
  · rw [h, State.refuse_closed s l f h1 h2]
  · rw [h, h2, State.refuse_first s l1 l2 st f h1 h3]
  · rw [h, State.refuse_ok s l f h1 h2]

/-- A write of an entry with four conditions is a list of four. -/
theorem State.write_refuse (s : State) (busy rights mode range : Bool) (f : State → State) :
    s.write busy rights mode range f = s.refuse [(busy, .busy), (!rights, .rights), (!mode, .mode), (!range, .range)] f := by
  unfold State.write State.refuse
  cases busy <;> cases rights <;> cases mode <;> cases range <;> rfl

theorem State.write_checked (s : State) (c : Instr) (busy rights mode range : Bool) (f : State → State)
    (h : exec c s = .next (s.write busy rights mode range f)) :
    Checked s c [(busy, .busy), (!rights, .rights), (!mode, .mode), (!range, .range)] f :=
  State.refuse_checked s c _ f (by rw [h, State.write_refuse])

/-- A write that is never busy. -/
theorem State.write_checked_f (s : State) (c : Instr) (rights mode range : Bool) (f : State → State)
    (h : exec c s = .next (s.write false rights mode range f)) : Checked s c [(!rights, .rights), (!mode, .mode), (!range, .range)] f :=
  State.refuse_checked s c _ f (by rw [h, State.write_refuse]; rfl)

/-- A write that no value fails. -/
theorem State.write_checked_t (s : State) (c : Instr) (busy rights mode : Bool) (f : State → State)
    (h : exec c s = .next (s.write busy rights mode true f)) : Checked s c [(busy, .busy), (!rights, .rights), (!mode, .mode)] f :=
  State.refuse_checked s c _ f (by rw [h, State.write_refuse]; cases busy <;> cases rights <;> cases mode <;> rfl)

/-- A write that is never busy and that no value fails. -/
theorem State.write_checked_ft (s : State) (c : Instr) (rights mode : Bool) (f : State → State)
    (h : exec c s = .next (s.write false rights mode true f)) : Checked s c [(!rights, .rights), (!mode, .mode)] f :=
  State.refuse_checked s c _ f (by rw [h, State.write_refuse]; cases rights <;> cases mode <;> rfl)

end Sys2Proof.Machine
end

