-- ==== Sys2Proof/Laws/Latched.lean ====
section
/-! SUPPORT. A latched fault bit stays latched (11_fault_handling.md R292): `Latched s t` says that every FSW bit set in `s` is set in
`t`, and that the reserved bits of `t` are clear where those of `s` are. Every operation that clears nothing keeps this; the lemmas
say so one by one, each taking the start state `s0` along. -/

namespace Sys2Proof.Machine

/-- The reserved bits of Table 11-1. -/
def fswReserved : BitVec 64 := bits64 [29, 43, 61, 62, 63]

/-- The relation of `Latched`, on the two copies of FSW. -/
def LatchedParts (s0 : State) (a b : BitVec 64) : Prop :=
  (∀ i, s0.flt.fsw.getLsbD i = true → (a ||| b).getLsbD i = true)
    ∧ (s0.flt.fsw &&& fswReserved = 0 → (a ||| b) &&& fswReserved = 0)

/-- Latched bits of `s0` stand in `t`, and no reserved bit is new. -/
def Latched (s0 t : State) : Prop := LatchedParts s0 t.flt.f1 t.flt.f2

theorem Latched.refl (s : State) : Latched s s := ⟨fun _ h => h, id⟩

theorem Latched.trans {s t u : State} (h : Latched s t) (k : Latched t u) : Latched s u :=
  ⟨fun i hi => k.1 i (h.1 i hi), fun m => k.2 (h.2 m)⟩

/-- A state seen through its parts. -/
theorem Latched.parts {s0 t : State} (h : Latched s0 t) : LatchedParts s0 t.flt.f1 t.flt.f2 := h

/-- A bit that Table 11-1 gives is not reserved. -/
theorem fswPresent_free (order b : Nat) (h : fswPresent order b = true) : ((1 : BitVec 64) <<< b) &&& fswReserved = 0 := by
  have hb : b < 61 := by
    unfold fswPresent at h
    simp only [Bool.and_eq_true, decide_eq_true_eq] at h
    exact h.1.1.1.1
  have h43 : b ≠ 43 := by rintro rfl; simp [fswPresent] at h
  have h29 : b ≠ 29 := by rintro rfl; simp [fswPresent] at h
  have all : ∀ b : Fin 61, b.val ≠ 43 → b.val ≠ 29 → ((1 : BitVec 64) <<< b.val) &&& fswReserved = 0 := by decide
  exact all ⟨b, hb⟩ h43 h29

/-- A bit of Table 11-1 sets in both copies. -/
theorem LatchedParts.set {s0 : State} {a c : BitVec 64} {order b : Nat} (h : LatchedParts s0 a c) (p : fswPresent order b = true) :
    LatchedParts s0 (setBit64 a b) (setBit64 c b) := by
  have e := fswPresent_free order b p
  refine ⟨fun i hi => ?_, fun m => ?_⟩
  · have := h.1 i hi
    simp only [BitVec.getLsbD_or, Bool.or_eq_true] at this ⊢
    unfold setBit64
    simp only [BitVec.getLsbD_or, Bool.or_eq_true]
    tauto
  · have := h.2 m
    unfold setBit64
    ext i hi
    have e1 := congrArg (fun w => w.getLsbD i) e
    have e2 := congrArg (fun w => w.getLsbD i) this
    have z : BitVec.getLsbD (0 : BitVec 64) i = false := by simp
    simp only [BitVec.getLsbD_and, BitVec.getLsbD_or, z] at e1 e2
    simp only [← BitVec.getLsbD_eq_getElem, BitVec.getLsbD_and, BitVec.getLsbD_or, z]
    revert e1 e2
    cases a.getLsbD i <;> cases c.getLsbD i <;> cases fswReserved.getLsbD i <;> cases ((1 : BitVec 64) <<< b).getLsbD i <;> simp

/-! Operations on the collector that leave both copies of FSW alone. -/

@[simp] theorem Faults.takeLocks_f1 (f : Faults) (d : Die) (t : Nat) : (f.takeLocks d t).f1 = f.f1 := by cases d <;> rfl
@[simp] theorem Faults.takeLocks_f2 (f : Faults) (d : Die) (t : Nat) : (f.takeLocks d t).f2 = f.f2 := by cases d <;> rfl
@[simp] theorem Faults.takeNow_f1 (f : Faults) (d : Die) (zs : List Nat) (all : Bool) : (f.takeNow d zs all).f1 = f.f1 := by cases d <;> rfl
@[simp] theorem Faults.takeNow_f2 (f : Faults) (d : Die) (zs : List Nat) (all : Bool) : (f.takeNow d zs all).f2 = f.f2 := by cases d <;> rfl
@[simp] theorem Faults.girthOff_f1 (f : Faults) (d : Die) : (f.girthOff d).f1 = f.f1 := by cases d <;> rfl
@[simp] theorem Faults.girthOff_f2 (f : Faults) (d : Die) : (f.girthOff d).f2 = f.f2 := by cases d <;> rfl
@[simp] theorem Faults.openShadow_f1 (f : Faults) (k : Blk) : (f.openShadow k).f1 = f.f1 := rfl
@[simp] theorem Faults.openShadow_f2 (f : Faults) (k : Blk) : (f.openShadow k).f2 = f.f2 := rfl
@[simp] theorem Faults.addC2_f1 (f : Faults) (t : Nat) (zs : List Nat) : (f.addC2 t zs).f1 = f.f1 := rfl
@[simp] theorem Faults.addC2_f2 (f : Faults) (t : Nat) (zs : List Nat) : (f.addC2 t zs).f2 = f.f2 := rfl
@[simp] theorem Faults.setRd_f1 (f : Faults) (d : Die) (r : Readm) : (f.setRd d r).f1 = f.f1 := by cases d <;> rfl
@[simp] theorem Faults.setRd_f2 (f : Faults) (d : Die) (r : Readm) : (f.setRd d r).f2 = f.f2 := by cases d <;> rfl
@[simp] theorem Faults.shadowDone_f1 (f : Faults) (k : Blk) : (f.shadowDone k).f1 = f.f1 := rfl
@[simp] theorem Faults.shadowDone_f2 (f : Faults) (k : Blk) : (f.shadowDone k).f2 = f.f2 := rfl

/-- A state rebuilt field by field. -/
theorem Latched.mk {s0 : State} {order modes pow clk flt leases a b fd regs pers br rings crc tmr otp bkp keys st upd tst pat stdin remote
    freeCtr time pending} (h : LatchedParts s0 flt.f1 flt.f2) :
    Latched s0 (State.mk order modes pow clk flt leases a b fd regs pers br rings crc tmr otp bkp keys st upd tst pat stdin remote freeCtr
      time pending) := h

theorem Latched.ite {s0 t u : State} {c : Prop} [Decidable c] (h : Latched s0 t) (k : Latched s0 u) : Latched s0 (if c then t else u) := by
  split
  · exact h
  · exact k

theorem Latched.foldl {α : Type} {s0 s : State} {f : State → α → State} {l : List α} (h : Latched s0 s)
    (k : ∀ t x, Latched s0 t → Latched s0 (f t x)) : Latched s0 (l.foldl f s) := by
  induction l generalizing s with
  | nil => exact h
  | cons x l ih => exact ih (k s x h)

/-- A fold that carries a value beside the state. -/
theorem Latched.foldlSnd {α β : Type} {s0 : State} {x : β × State} {f : β × State → α → β × State} {l : List α} (h : Latched s0 x.2)
    (k : ∀ x y, Latched s0 x.2 → Latched s0 (f x y).2) : Latched s0 (l.foldl f x).2 := by
  induction l generalizing x with
  | nil => exact h
  | cons y l ih => exact ih (k x y h)

end Sys2Proof.Machine
end

