-- ==== Sys2Proof/Laws/LatchedOps.lean ====
section
/-! SUPPORT. The operations of Machine/Ops.lean clear no latched fault bit and set no reserved one. -/

set_option linter.unusedTactic false
set_option linter.unreachableTactic false
set_option linter.unusedVariables false

namespace Sys2Proof.Machine

theorem State.setDie_latched {s0 : State} (s : State) (d : Die) (l : LDie) (h_s : Latched s0 s) : Latched s0 (State.setDie s d l) := by
  unfold State.setDie
  repeat' first
    | with_reducible assumption
    | fail_if_no_progress (with_reducible apply Latched.mk; (try dsimp only); with_reducible apply Latched.parts)
    | split
    | dsimp only
    | assumption

theorem State.updDie_latched {s0 : State} (s : State) (d : Die) (f : LDie → LDie) (h_s : Latched s0 s) : Latched s0 (State.updDie s d f) := by
  unfold State.updDie
  repeat' first
    | with_reducible assumption
    | intro _
    | with_reducible apply State.setDie_latched
    | dsimp only
    | assumption

theorem State.setReg_latched {s0 : State} (s : State) (idx sub v : Nat) (h_s : Latched s0 s) : Latched s0 (State.setReg s idx sub v) := by
  unfold State.setReg
  repeat' first
    | with_reducible assumption
    | fail_if_no_progress (with_reducible apply Latched.mk; (try dsimp only); with_reducible apply Latched.parts)
    | dsimp only
    | assumption

theorem State.bump_latched {s0 : State} (s : State) (w idx sub : Nat) (h_s : Latched s0 s) : Latched s0 (State.bump s w idx sub) := by
  unfold State.bump
  repeat' first
    | with_reducible assumption
    | with_reducible apply State.setReg_latched
    | dsimp only
    | assumption

theorem State.bumpOnce_latched {s0 : State} (s : State) (d : Die) (w idx sub : Nat) (h_s : Latched s0 s) : Latched s0 (State.bumpOnce s d w idx sub) := by
  unfold State.bumpOnce
  repeat' first
    | with_reducible assumption
    | with_reducible apply Latched.ite
    | with_reducible apply State.bump_latched
    | split
    | dsimp only
    | assumption

theorem State.free_latched {s0 : State} (s : State) (h_s : Latched s0 s) : Latched s0 (State.free s).2 := by
  unfold State.free
  repeat' first
    | with_reducible assumption
    | fail_if_no_progress (with_reducible apply Latched.mk; (try dsimp only); with_reducible apply Latched.parts)
    | dsimp only
    | assumption

theorem State.jrnStop_latched {s0 : State} (s : State) (d : Die) (h_s : Latched s0 s) : Latched s0 (State.jrnStop s d) := by
  unfold State.jrnStop
  repeat' first
    | with_reducible assumption
    | with_reducible apply Latched.ite
    | with_reducible apply State.setDie_latched
    | with_reducible apply State.setReg_latched
    | fail_if_no_progress (with_reducible apply Latched.mk; (try dsimp only); with_reducible apply Latched.parts)
    | split
    | dsimp only
    | assumption

theorem State.jrnRec_latched {s0 : State} (s : State) (d : Die) (typ : Nat) (body : List Byte) (h_s : Latched s0 s) : Latched s0 (State.jrnRec s d typ body) := by
  unfold State.jrnRec
  repeat' first
    | with_reducible assumption
    | with_reducible apply Latched.ite
    | with_reducible apply State.bumpOnce_latched
    | with_reducible apply State.jrnStop_latched
    | with_reducible apply State.setDie_latched
    | fail_if_no_progress (with_reducible apply Latched.mk; (try dsimp only); with_reducible apply Latched.parts)
    | split
    | dsimp only
    | assumption

theorem State.event_latched {s0 : State} (s : State) (d : Die) (kind : Nat) (bytes : List Byte) (h_s : Latched s0 s) : Latched s0 (State.event s d kind bytes) := by
  unfold State.event
  repeat' first
    | with_reducible assumption
    | with_reducible apply State.jrnRec_latched
    | dsimp only
    | assumption

theorem State.event2_latched {s0 : State} (s : State) (kind : Nat) (bytes : List Byte) (h_s : Latched s0 s) : Latched s0 (State.event2 s kind bytes) := by
  unfold State.event2
  repeat' first
    | with_reducible assumption
    | with_reducible apply State.event_latched
    | dsimp only
    | assumption

theorem State.trip_latched {s0 : State} (s : State) (h_s : Latched s0 s) : Latched s0 (State.trip s) := by
  unfold State.trip
  repeat' first
    | with_reducible assumption
    | fail_if_no_progress (with_reducible apply Latched.mk; (try dsimp only); with_reducible apply Latched.parts)
    | dsimp only
    | assumption

theorem State.driveTrips_latched {s0 : State} (s : State) (h_s : Latched s0 s) : Latched s0 (State.driveTrips s) := by
  unfold State.driveTrips
  repeat' first
    | with_reducible assumption
    | intro _
    | with_reducible apply Latched.ite
    | with_reducible apply Latched.foldl
    | fail_if_no_progress (with_reducible apply Latched.mk; (try dsimp only); with_reducible apply Latched.parts)
    | split
    | dsimp only
    | assumption

theorem State.tripNow_latched {s0 : State} (s : State) (h_s : Latched s0 s) : Latched s0 (State.tripNow s) := by
  unfold State.tripNow
  repeat' first
    | with_reducible assumption
    | with_reducible apply State.driveTrips_latched
    | with_reducible apply State.trip_latched
    | dsimp only
    | assumption

theorem State.setLease_latched {s0 : State} (s : State) (res : Nat) (l : Lease) (h_s : Latched s0 s) : Latched s0 (State.setLease s res l) := by
  unfold State.setLease
  repeat' first
    | with_reducible assumption
    | fail_if_no_progress (with_reducible apply Latched.mk; (try dsimp only); with_reducible apply Latched.parts)
    | dsimp only
    | assumption

theorem State.leaseAsk_latched {s0 : State} (s : State) (res p : Nat) (h_s : Latched s0 s) : Latched s0 (State.leaseAsk s res p) := by
  unfold State.leaseAsk
  repeat' first
    | with_reducible assumption
    | with_reducible apply State.setLease_latched
    | dsimp only
    | assumption

theorem State.leaseEnd_latched {s0 : State} (s : State) (res p : Nat) (h_s : Latched s0 s) : Latched s0 (State.leaseEnd s res p) := by
  unfold State.leaseEnd
  repeat' first
    | with_reducible assumption
    | with_reducible apply Latched.ite
    | with_reducible apply State.setLease_latched
    | split
    | dsimp only
    | assumption

theorem State.post_latched {s0 : State} (s : State) (d : Dest) (bs : List Byte) (h_s : Latched s0 s) : Latched s0 (State.post s d bs) := by
  unfold State.post
  repeat' first
    | with_reducible assumption
    | with_reducible apply Latched.ite
    | fail_if_no_progress (with_reducible apply Latched.mk; (try dsimp only); with_reducible apply Latched.parts)
    | split
    | dsimp only
    | assumption

theorem State.sendAns_latched {s0 : State} (s : State) (r : RespTo) (h_s : Latched s0 s) : Latched s0 (State.sendAns s r) := by
  unfold State.sendAns
  repeat' first
    | with_reducible assumption
    | intro _
    | with_reducible apply Latched.ite
    | with_reducible apply State.bump_latched
    | with_reducible apply State.post_latched
    | fail_if_no_progress (with_reducible apply Latched.mk; (try dsimp only); with_reducible apply Latched.parts)
    | split
    | dsimp only
    | assumption

theorem State.otpAns_latched {s0 : State} (s : State) (a : Option RespTo) (h_s : Latched s0 s) : Latched s0 (State.otpAns s a) := by
  unfold State.otpAns
  repeat' first
    | with_reducible assumption
    | with_reducible apply State.sendAns_latched
    | fail_if_no_progress (with_reducible apply Latched.mk; (try dsimp only); with_reducible apply Latched.parts)
    | split
    | dsimp only
    | assumption

theorem State.otpFence_latched {s0 : State} (s : State) (h_s : Latched s0 s) : Latched s0 (State.otpFence s) := by
  unfold State.otpFence
  repeat' first
    | with_reducible assumption
    | with_reducible apply Latched.ite
    | with_reducible apply State.free_latched
    | with_reducible apply State.otpAns_latched
    | fail_if_no_progress (with_reducible apply Latched.mk; (try dsimp only); with_reducible apply Latched.parts)
    | split
    | dsimp only
    | assumption

theorem State.crcHalt_latched {s0 : State} (s : State) (k dstat : Nat) (clear : Bool) (h_s : Latched s0 s) : Latched s0 (State.crcHalt s k dstat clear) := by
  unfold State.crcHalt
  repeat' first
    | with_reducible assumption
    | intro _
    | with_reducible apply Latched.ite
    | with_reducible apply State.setReg_latched
    | fail_if_no_progress (with_reducible apply Latched.mk; (try dsimp only); with_reducible apply Latched.parts)
    | split
    | dsimp only
    | assumption

theorem State.otpDrop_latched {s0 : State} (s : State) (h_s : Latched s0 s) : Latched s0 (State.otpDrop s) := by
  unfold State.otpDrop
  repeat' first
    | with_reducible assumption
    | with_reducible apply Latched.ite
    | with_reducible apply State.otpAns_latched
    | fail_if_no_progress (with_reducible apply Latched.mk; (try dsimp only); with_reducible apply Latched.parts)
    | split
    | dsimp only
    | assumption

theorem State.fwdFence_latched {s0 : State} (s : State) (d : Die) (h_s : Latched s0 s) : Latched s0 (State.fwdFence s d) := by
  unfold State.fwdFence
  repeat' first
    | with_reducible assumption
    | intro _
    | with_reducible apply State.sendAns_latched
    | with_reducible apply Latched.foldl
    | fail_if_no_progress (with_reducible apply Latched.mk; (try dsimp only); with_reducible apply Latched.parts)
    | dsimp only
    | assumption

theorem State.leaseReset_latched {s0 : State} (s : State) (res p : Nat) (h_s : Latched s0 s) : Latched s0 (State.leaseReset s res p) := by
  unfold State.leaseReset
  repeat' first
    | with_reducible assumption
    | intro _
    | with_reducible apply Latched.ite
    | with_reducible apply State.crcHalt_latched
    | with_reducible apply State.fwdFence_latched
    | with_reducible apply State.otpFence_latched
    | with_reducible apply State.updDie_latched
    | with_reducible apply Latched.foldl
    | fail_if_no_progress (with_reducible apply Latched.mk; (try dsimp only); (try simp only [Faults.takeLocks_f1, Faults.takeLocks_f2, Faults.takeNow_f1, Faults.takeNow_f2, Faults.girthOff_f1, Faults.girthOff_f2, Faults.openShadow_f1, Faults.openShadow_f2, Faults.addC2_f1, Faults.addC2_f2, Faults.setRd_f1, Faults.setRd_f2, Faults.shadowDone_f1, Faults.shadowDone_f2]); with_reducible apply Latched.parts)
    | split
    | dsimp only
    | assumption

theorem State.fenceLeases_latched {s0 : State} (s : State) (d : Die) (h_s : Latched s0 s) : Latched s0 (State.fenceLeases s d).1 := by
  unfold State.fenceLeases
  repeat' first
    | with_reducible assumption
    | intro _
    | with_reducible apply Latched.ite
    | with_reducible apply State.leaseReset_latched
    | with_reducible apply State.otpDrop_latched
    | with_reducible apply State.setLease_latched
    | with_reducible apply Latched.foldl
    | fail_if_no_progress (with_reducible apply Latched.mk; (try dsimp only); with_reducible apply Latched.parts)
    | split
    | dsimp only
    | assumption

theorem State.leaseSec_latched {s0 : State} (s : State) (held : Bool) (h_s : Latched s0 s) : Latched s0 (State.leaseSec s held) := by
  unfold State.leaseSec
  repeat' first
    | with_reducible assumption
    | with_reducible apply Latched.ite
    | with_reducible apply State.event2_latched
    | fail_if_no_progress (with_reducible apply Latched.mk; (try dsimp only); with_reducible apply Latched.parts)
    | split
    | dsimp only
    | assumption

theorem State.setDieSt_latched {s0 : State} (s : State) (x v : Nat) (h_s : Latched s0 s) : Latched s0 (State.setDieSt s x v) := by
  unfold State.setDieSt
  repeat' first
    | with_reducible assumption
    | fail_if_no_progress (with_reducible apply Latched.mk; (try dsimp only); with_reducible apply Latched.parts)
    | dsimp only
    | assumption

theorem State.fenceDie_latched {s0 : State} (s : State) (d : Die) (h_s : Latched s0 s) : Latched s0 (State.fenceDie s d) := by
  unfold State.fenceDie
  repeat' first
    | with_reducible assumption
    | with_reducible apply Latched.ite
    | with_reducible apply State.fenceLeases_latched
    | with_reducible apply State.leaseSec_latched
    | with_reducible apply State.setDie_latched
    | with_reducible apply State.setDieSt_latched
    | fail_if_no_progress (with_reducible apply Latched.mk; (try dsimp only); (try simp only [Faults.takeLocks_f1, Faults.takeLocks_f2, Faults.takeNow_f1, Faults.takeNow_f2, Faults.girthOff_f1, Faults.girthOff_f2, Faults.openShadow_f1, Faults.openShadow_f2, Faults.addC2_f1, Faults.addC2_f2, Faults.setRd_f1, Faults.setRd_f2, Faults.shadowDone_f1, Faults.shadowDone_f2]); with_reducible apply Latched.parts)
    | split
    | dsimp only
    | assumption

theorem State.fenceM_latched {s0 : State} (s : State) (h_s : Latched s0 s) : Latched s0 (State.fenceM s) := by
  unfold State.fenceM
  repeat' first
    | with_reducible assumption
    | intro _
    | with_reducible apply State.jrnStop_latched
    | with_reducible apply State.leaseReset_latched
    | with_reducible apply State.leaseSec_latched
    | with_reducible apply State.setDieSt_latched
    | with_reducible apply Latched.foldl
    | fail_if_no_progress (with_reducible apply Latched.mk; (try dsimp only); (try simp only [Faults.takeLocks_f1, Faults.takeLocks_f2, Faults.takeNow_f1, Faults.takeNow_f2, Faults.girthOff_f1, Faults.girthOff_f2, Faults.openShadow_f1, Faults.openShadow_f2, Faults.addC2_f1, Faults.addC2_f2, Faults.setRd_f1, Faults.setRd_f2, Faults.shadowDone_f1, Faults.shadowDone_f2]); with_reducible apply Latched.parts)
    | split
    | dsimp only
    | assumption

theorem State.fenceF_latched {s0 : State} (s : State) (d : Nat) (h_s : Latched s0 s) : Latched s0 (State.fenceF s d) := by
  unfold State.fenceF
  repeat' first
    | with_reducible assumption
    | fail_if_no_progress (with_reducible apply Latched.mk; (try dsimp only); with_reducible apply Latched.parts)
    | dsimp only
    | assumption

theorem State.fenceOf_latched {s0 : State} (s : State) (b : Nat) (h_s : Latched s0 s) : Latched s0 (State.fenceOf s b) := by
  unfold State.fenceOf
  repeat' first
    | with_reducible assumption
    | with_reducible apply Latched.ite
    | with_reducible apply State.fenceDie_latched
    | with_reducible apply State.fenceF_latched
    | with_reducible apply State.fenceM_latched
    | split
    | dsimp only
    | assumption

theorem State.lockAll_latched {s0 : State} (s : State) (h_s : Latched s0 s) : Latched s0 (State.lockAll s) := by
  unfold State.lockAll
  repeat' first
    | with_reducible assumption
    | with_reducible apply Latched.ite
    | fail_if_no_progress (with_reducible apply Latched.mk; (try dsimp only); with_reducible apply Latched.parts)
    | split
    | dsimp only
    | assumption

theorem State.revert_latched {s0 : State} (s : State) (why : Nat) (h_s : Latched s0 s) : Latched s0 (State.revert s why) := by
  unfold State.revert
  repeat' first
    | with_reducible assumption
    | with_reducible apply Latched.ite
    | with_reducible apply State.bump_latched
    | with_reducible apply State.lockAll_latched
    | with_reducible apply State.setDie_latched
    | with_reducible apply State.setReg_latched
    | fail_if_no_progress (with_reducible apply Latched.mk; (try dsimp only); (try simp only [Faults.takeLocks_f1, Faults.takeLocks_f2, Faults.takeNow_f1, Faults.takeNow_f2, Faults.girthOff_f1, Faults.girthOff_f2, Faults.openShadow_f1, Faults.openShadow_f2, Faults.addC2_f1, Faults.addC2_f2, Faults.setRd_f1, Faults.setRd_f2, Faults.shadowDone_f1, Faults.shadowDone_f2]); with_reducible apply Latched.parts)
    | split
    | dsimp only
    | assumption

theorem State.reactC3_latched {s0 : State} (s : State) (b : Nat) (h_s : Latched s0 s) : Latched s0 (State.reactC3 s b) := by
  unfold State.reactC3
  repeat' first
    | with_reducible assumption
    | with_reducible apply Latched.ite
    | with_reducible apply State.lockAll_latched
    | with_reducible apply State.revert_latched
    | with_reducible apply State.setReg_latched
    | with_reducible apply State.tripNow_latched
    | fail_if_no_progress (with_reducible apply Latched.mk; (try dsimp only); with_reducible apply Latched.parts)
    | split
    | dsimp only
    | assumption

theorem State.react_latched {s0 : State} (s : State) (b : Nat) (h_s : Latched s0 s) : Latched s0 (State.react s b) := by
  unfold State.react
  repeat' first
    | with_reducible assumption
    | with_reducible apply Latched.ite
    | with_reducible apply State.fenceOf_latched
    | with_reducible apply State.reactC3_latched
    | fail_if_no_progress (with_reducible apply Latched.mk; (try dsimp only); (try simp only [Faults.takeLocks_f1, Faults.takeLocks_f2, Faults.takeNow_f1, Faults.takeNow_f2, Faults.girthOff_f1, Faults.girthOff_f2, Faults.openShadow_f1, Faults.openShadow_f2, Faults.addC2_f1, Faults.addC2_f2, Faults.setRd_f1, Faults.setRd_f2, Faults.shadowDone_f1, Faults.shadowDone_f2]); with_reducible apply Latched.parts)
    | split
    | dsimp only
    | assumption

theorem State.causeOn_latched {s0 : State} (s : State) (b : Nat) (h_s : Latched s0 s) : Latched s0 (State.causeOn s b) := by
  unfold State.causeOn
  repeat' first
    | with_reducible assumption
    | fail_if_no_progress (with_reducible apply Latched.mk; (try dsimp only); with_reducible apply Latched.parts)
    | dsimp only
    | assumption

theorem State.causeOff_latched {s0 : State} (s : State) (b : Nat) (h_s : Latched s0 s) : Latched s0 (State.causeOff s b) := by
  unfold State.causeOff
  repeat' first
    | with_reducible assumption
    | fail_if_no_progress (with_reducible apply Latched.mk; (try dsimp only); with_reducible apply Latched.parts)
    | dsimp only
    | assumption

theorem State.again_latched {s0 : State} (s : State) (b : Nat) (h_s : Latched s0 s) : Latched s0 (State.again s b) := by
  unfold State.again
  repeat' first
    | with_reducible assumption
    | with_reducible apply Latched.ite
    | with_reducible apply State.fenceOf_latched
    | with_reducible apply State.reactC3_latched
    | fail_if_no_progress (with_reducible apply Latched.mk; (try dsimp only); (try simp only [Faults.takeLocks_f1, Faults.takeLocks_f2, Faults.takeNow_f1, Faults.takeNow_f2, Faults.girthOff_f1, Faults.girthOff_f2, Faults.openShadow_f1, Faults.openShadow_f2, Faults.addC2_f1, Faults.addC2_f2, Faults.setRd_f1, Faults.setRd_f2, Faults.shadowDone_f1, Faults.shadowDone_f2]); with_reducible apply Latched.parts)
    | split
    | dsimp only
    | assumption

theorem State.latch_latched {s0 : State} (s : State) (b : Nat) (h_s : Latched s0 s) : Latched s0 (State.latch s b) := by
  unfold State.latch
  split
  · exact h_s
  · rename_i hp
    have p : fswPresent s.order b = true := by simpa using hp
    with_reducible apply Latched.ite
    · with_reducible apply State.event2_latched
      exact Latched.mk h_s.parts
    · with_reducible apply Latched.ite
      · exact State.again_latched _ b (Latched.mk h_s.parts)
      · dsimp only
        with_reducible apply State.react_latched
        with_reducible apply State.event2_latched
        with_reducible apply Latched.mk
        refine LatchedParts.set (order := s.order) ?_ p
        with_reducible apply Latched.parts
        with_reducible apply Latched.ite
        · repeat' with_reducible apply State.setReg_latched
          exact h_s
        · with_reducible apply Latched.ite
          · exact State.setReg_latched _ _ _ _ h_s
          · exact h_s

theorem State.latch3_latched {s0 : State} (s : State) (b : Nat) (h_s : Latched s0 s) : Latched s0 (State.latch3 s b) := by
  unfold State.latch3
  repeat' first
    | with_reducible assumption
    | with_reducible apply Latched.ite
    | with_reducible apply State.latch_latched
    | with_reducible apply State.reactC3_latched
    | fail_if_no_progress (with_reducible apply Latched.mk; (try dsimp only); with_reducible apply Latched.parts)
    | split
    | dsimp only
    | assumption

theorem State.latchStanding_latched {s0 : State} (s : State) (b : Nat) (h_s : Latched s0 s) : Latched s0 (State.latchStanding s b) := by
  unfold State.latchStanding
  repeat' first
    | with_reducible assumption
    | with_reducible apply State.causeOn_latched
    | with_reducible apply State.latch_latched
    | dsimp only
    | assumption

theorem State.resetBlock_latched {s0 : State} (s : State) (k : Blk) (b : Nat) (f : State → State) (h_s : Latched s0 s) (k_f : ∀ t, Latched s0 t → Latched s0 (f t)) : Latched s0 (State.resetBlock s k b f) := by
  unfold State.resetBlock
  repeat' first
    | with_reducible assumption
    | intro _
    | with_reducible apply Latched.ite
    | with_reducible apply State.latch3_latched
    | with_reducible apply k_f
    | fail_if_no_progress (with_reducible apply Latched.mk; (try dsimp only); (try simp only [Faults.takeLocks_f1, Faults.takeLocks_f2, Faults.takeNow_f1, Faults.takeNow_f2, Faults.girthOff_f1, Faults.girthOff_f2, Faults.openShadow_f1, Faults.openShadow_f2, Faults.addC2_f1, Faults.addC2_f2, Faults.setRd_f1, Faults.setRd_f2, Faults.shadowDone_f1, Faults.shadowDone_f2]); with_reducible apply Latched.parts)
    | split
    | dsimp only
    | assumption

theorem State.latchReset_latched {s0 : State} (s : State) (k : Blk) (b : Nat) (f : State → State) (h_s : Latched s0 s) (k_f : ∀ t, Latched s0 t → Latched s0 (f t)) : Latched s0 (State.latchReset s k b f) := by
  unfold State.latchReset
  repeat' first
    | with_reducible assumption
    | intro _
    | with_reducible apply Latched.ite
    | with_reducible apply State.latch_latched
    | with_reducible apply State.resetBlock_latched
    | with_reducible apply k_f
    | split
    | dsimp only
    | assumption

end Sys2Proof.Machine
end

