-- ==== Sys2Proof/Laws/Fault.lean ====
section
/-! SUPPORT. What latching a bit does to it: a bit that exists and is not diverted is set afterwards, whatever the reaction of its class. -/

namespace Sys2Proof.Machine

theorem setBit64_self (w : BitVec 64) (b : Nat) (h : b < 64) : (setBit64 w b).getLsbD b = true := by
  unfold setBit64
  simp [h]

theorem fswPresent_lt {o b : Nat} (h : fswPresent o b = true) : b < 64 := by
  unfold fswPresent at h
  simp at h
  omega

/-- Without an open shadow nothing is diverted but a GIRTH that names nobody. -/
theorem State.not_diverted (s : State) (b : Nat) (h : s.flt.shadows = []) (hb : b ≠ 57) : s.diverted b = false := by
  unfold State.diverted Faults.diverts
  rw [if_neg hb, h]
  simp

/-- A bit that exists and is not diverted is set after its latch. -/
theorem State.latch_sets (s : State) (b : Nat) (hp : fswPresent s.order b = true) (hd : s.diverted b = false) :
    (s.latch b).fswBit b = true := by
  by_cases e : s.flt.fsw.getLsbD b = true
  · exact (State.latch_latched s b (Latched.refl s)).1 b e
  · unfold State.latch
    simp only [hp, hd, e, Bool.not_true, Bool.false_eq_true, if_false]
    refine (State.react_latched _ b (Latched.refl _)).1 b ?_
    refine (State.event2_latched _ _ _ (Latched.refl _)).1 b ?_
    show (setBit64 _ b ||| setBit64 _ b).getLsbD b = true
    simp [setBit64_self _ b (fswPresent_lt hp)]

theorem State.latchStanding_sets (s : State) (b : Nat) (hp : fswPresent s.order b = true) (hd : s.diverted b = false) :
    (s.latchStanding b).fswBit b = true := State.latch_sets (s.causeOn b) b hp hd

/-- A latch keeps every bit that was set. -/
theorem State.latch_fswBit (s : State) (b i : Nat) (h : s.fswBit i = true) : (s.latch b).fswBit i = true :=
  (State.latch_latched s b (Latched.refl s)).1 i h

/-- Of the power state, nothing differs but the domains that are on and the mark that a C3 was latched in BOOT. -/
def SamePower (s t : State) : Prop := t.pow = { s.pow with pd := t.pow.pd, c3Boot := t.pow.c3Boot }

theorem SamePower.of_eq {s t : State} (h : t.pow = s.pow) : SamePower s t := by unfold SamePower; rw [h]

theorem SamePower.trans {s t u : State} (h : SamePower s t) (k : SamePower t u) : SamePower s u := by
  unfold SamePower at *; rw [k, h]

theorem State.reactC3_samePower (s : State) (b : Nat) : SamePower s (s.reactC3 b) := by
  have h : ((s.revert 18).tripNow).pow = s.pow :=
    ((State.tripNow_only _ (Only.refl 0x110 _) rfl).pow rfl).trans ((State.revert_only s 18 (Only.refl 0x802d0 _) rfl).pow rfl)
  unfold State.reactC3
  generalize (s.revert 18).tripNow = s1 at h
  dsimp only
  split
  · unfold SamePower; dsimp only; rw [h]
  · split
    · exact SamePower.of_eq h
    · exact SamePower.of_eq h

theorem State.fenceDie_samePower (s : State) (d : Die) : SamePower s (s.fenceDie d) := by
  unfold State.fenceDie
  dsimp only
  have h : (((s.fenceLeases d).1).setDie d (s.die d).resetState).pow = s.pow :=
    ((State.setDie_only _ d _ (Only.refl 0xc0 _) rfl).pow rfl).trans ((State.fenceLeases_only s d (Only.refl 0x100aaf0 _) rfl).pow rfl)
  generalize ((s.fenceLeases d).1).setDie d (s.die d).resetState = s1 at h
  split
  · exact SamePower.of_eq rfl
  · generalize hs2 : State.leaseSec _ _ = s2
    have h2 : SamePower s s2 := by
      subst hs2
      refine SamePower.trans ?_ (SamePower.of_eq ((State.leaseSec_only _ _ (Only.refl 0x2d0 _) rfl).pow rfl))
      unfold SamePower; dsimp only; rw [h]
    split
    · refine h2.trans (SamePower.of_eq ?_)
      dsimp only [State.setDieSt]
      split
      · exact State.setDie_pow _ _ _
      · rfl
    · exact h2

theorem State.fenceM_samePower (s : State) : SamePower s s.fenceM := by
  unfold State.fenceM
  extract_lets held s0 s1 p s2
  have h0 : s0.pow = s.pow := (Only.foldl (m := 0x100aaf0) (Only.refl _ s) fun t x h => by
    split
    · exact State.leaseReset_only t x _ h rfl
    · exact h).pow rfl
  have h1 : s1.pow = s.pow := ((State.leaseSec_only _ held (Only.refl 0x2d0 _) rfl).pow rfl).trans h0
  have h2 : SamePower s s2 := by unfold SamePower; dsimp only [s2, p, State.setDieSt]; rw [h1]
  exact h2.trans (SamePower.of_eq (((State.jrnStop_only _ .b (Only.refl 0x2c0 _) rfl).pow rfl).trans
    ((State.jrnStop_only s2 .a (Only.refl 0x2c0 _) rfl).pow rfl)))

theorem State.fenceOf_samePower (s : State) (b : Nat) : SamePower s (s.fenceOf b) := by
  unfold State.fenceOf
  split
  · exact State.fenceDie_samePower s .a
  · split
    · exact State.fenceDie_samePower s .b
    · split
      · dsimp only
        have h : SamePower s (if s.reg 0x3020 0 % 2 = 1 then s.fenceDie .a else s) := by
          split
          · exact State.fenceDie_samePower s .a
          · exact SamePower.of_eq rfl
        split
        · exact h.trans (State.fenceDie_samePower _ .b)
        · exact h
      · split
        · exact State.fenceM_samePower s
        · split
          · exact rfl
          · exact SamePower.of_eq rfl

theorem State.again_samePower (s : State) (b : Nat) : SamePower s (s.again b) := by
  unfold State.again
  dsimp only
  split
  · exact SamePower.of_eq rfl
  · split
    · exact (State.reactC3_samePower s b).trans (State.fenceOf_samePower _ b)
    · exact SamePower.of_eq rfl

theorem State.react_samePower (s : State) (b : Nat) : SamePower s (s.react b) := by
  unfold State.react
  dsimp only
  split
  · exact (State.reactC3_samePower s b).trans (State.fenceOf_samePower _ b)
  · split
    · exact State.reactC3_samePower s b
    · split <;> exact SamePower.of_eq rfl

/-- A latch leaves the power state alone, but for the domains it turns off with a fence and the mark of a C3 in BOOT. -/
theorem State.latch_samePower (s : State) (b : Nat) : SamePower s (s.latch b) := by
  unfold State.latch
  split
  · exact SamePower.of_eq rfl
  · split
    · exact SamePower.of_eq ((State.event2_only _ _ _ (Only.refl 0x2c0 _) rfl).pow rfl)
    · split
      · exact SamePower.trans (t := { s with flt := { s.flt with latchAt := s.flt.stamped s.time b } }) (SamePower.of_eq rfl)
          (State.again_samePower _ b)
      · dsimp only
        refine SamePower.trans ?_ (State.react_samePower _ b)
        refine SamePower.of_eq (((State.event2_only _ _ _ (Only.refl 0x2c0 _) rfl).pow rfl).trans ?_)
        dsimp only
        split
        · rfl
        · split <;> rfl

theorem State.latchStanding_samePower (s : State) (b : Nat) : SamePower s (s.latchStanding b) :=
  State.latch_samePower (s.causeOn b) b

/-- Of the self-test, nothing differs but the granules in progress (R436). -/
def SameTest (s t : State) : Prop := t.st = { s.st with granA := t.st.granA, granB := t.st.granB }

theorem SameTest.of_eq {s t : State} (h : t.st = s.st) : SameTest s t := by unfold SameTest; rw [h]

theorem SameTest.trans {s t u : State} (h : SameTest s t) (k : SameTest t u) : SameTest s u := by
  unfold SameTest at *; rw [k, h]

theorem SelfTest.setGran_same (x : SelfTest) (d : Die) (g : Gran) :
    x.setGran d g = { x with granA := (x.setGran d g).granA, granB := (x.setGran d g).granB } := by cases d <;> rfl

theorem SelfTest.abort_same (x : SelfTest) (d : Die) :
    x.abort d = { x with granA := (x.abort d).granA, granB := (x.abort d).granB } := by
  unfold SelfTest.abort
  split
  · exact SelfTest.setGran_same x d _
  · rfl

theorem State.reactC3_sameTest (s : State) (b : Nat) : SameTest s (s.reactC3 b) := by
  have h : ((s.revert 18).tripNow).st = s.st :=
    ((State.tripNow_only _ (Only.refl 0x110 _) rfl).st rfl).trans ((State.revert_only s 18 (Only.refl 0x802d0 _) rfl).st rfl)
  have g : ∀ t : State, t.st = (((s.revert 18).tripNow).st.abort .a).abort .b → SameTest s t := by
    intro t e
    unfold SameTest
    rw [e, SelfTest.abort_same, SelfTest.abort_same, h]
  unfold State.reactC3
  dsimp only
  split
  · exact g _ rfl
  · split
    · exact g _ rfl
    · exact g _ rfl

theorem State.fenceDie_sameTest (s : State) (d : Die) : SameTest s (s.fenceDie d) := by
  unfold State.fenceDie
  dsimp only
  have h : (((s.fenceLeases d).1).setDie d (s.die d).resetState).st = s.st :=
    ((State.setDie_only _ d _ (Only.refl 0xc0 _) rfl).st rfl).trans ((State.fenceLeases_only s d (Only.refl 0x100aaf0 _) rfl).st rfl)
  generalize ((s.fenceLeases d).1).setDie d (s.die d).resetState = s1 at h
  split
  · exact SameTest.of_eq rfl
  · generalize hs2 : State.leaseSec _ _ = s2
    have h2 : s2.st = s.st := by
      subst hs2
      exact ((State.leaseSec_only _ _ (Only.refl 0x2d0 _) rfl).st rfl).trans h
    have h3 : ∀ t : State, t.st = s2.st.setGran d .lost → SameTest s t := by
      intro t e
      unfold SameTest
      rw [e, SelfTest.setGran_same, h2]
    split
    · refine h3 _ ?_
      dsimp only [State.setDieSt]
      split
      · exact State.setDie_st _ _ _
      · rfl
    · exact h3 _ rfl

theorem State.fenceOf_sameTest (s : State) (b : Nat) : SameTest s (s.fenceOf b) := by
  unfold State.fenceOf
  split
  · exact State.fenceDie_sameTest s .a
  · split
    · exact State.fenceDie_sameTest s .b
    · split
      · dsimp only
        have h : SameTest s (if s.reg 0x3020 0 % 2 = 1 then s.fenceDie .a else s) := by
          split
          · exact State.fenceDie_sameTest s .a
          · exact SameTest.of_eq rfl
        split
        · exact h.trans (State.fenceDie_sameTest _ .b)
        · exact h
      · split
        · exact SameTest.of_eq ((State.fenceM_only s (Only.refl 0x100aaf4 _) rfl).st rfl)
        · split
          · exact SameTest.of_eq rfl
          · exact SameTest.of_eq rfl

theorem State.again_sameTest (s : State) (b : Nat) : SameTest s (s.again b) := by
  unfold State.again
  dsimp only
  split
  · exact SameTest.of_eq rfl
  · split
    · exact (State.reactC3_sameTest s b).trans (State.fenceOf_sameTest _ b)
    · exact SameTest.of_eq rfl

theorem State.react_sameTest (s : State) (b : Nat) : SameTest s (s.react b) := by
  unfold State.react
  dsimp only
  split
  · exact (State.reactC3_sameTest s b).trans (State.fenceOf_sameTest _ b)
  · split
    · exact State.reactC3_sameTest s b
    · split <;> exact SameTest.of_eq rfl

/-- A latch leaves the self-test alone, but for a granule that its reaction aborts or loses. -/
theorem State.latch_sameTest (s : State) (b : Nat) : SameTest s (s.latch b) := by
  unfold State.latch
  split
  · exact SameTest.of_eq rfl
  · split
    · exact SameTest.of_eq ((State.event2_only _ _ _ (Only.refl 0x2c0 _) rfl).st rfl)
    · split
      · exact SameTest.trans (t := { s with flt := { s.flt with latchAt := s.flt.stamped s.time b } }) (SameTest.of_eq rfl)
          (State.again_sameTest _ b)
      · dsimp only
        refine SameTest.trans ?_ (State.react_sameTest _ b)
        refine SameTest.of_eq (((State.event2_only _ _ _ (Only.refl 0x2c0 _) rfl).st rfl).trans ?_)
        dsimp only
        split
        · rfl
        · split <;> rfl

end Sys2Proof.Machine
end

