-- ==== Sys2Proof/Laws/Keeps.lean ====
section
/-! SUPPORT. What no command undoes: `Keeps s t` says that `t` has the queue of `s`, that every OTP word of `s` that is not blank
stands in `t` (R417), that the change log of each Pattern flash of `t` begins with that of `s` (R401), and that the addressed memories of
`t` are in canonical form where those of `s` are. Every operation on the state keeps these; the lemmas say so one by one, each taking the
start state `s0` along. -/

namespace Sys2Proof.Machine

/-- Both ring-entry regions are in canonical form. -/
def Rings.Ok (r : Rings) : Prop := Mem.wf r.mem0 = true ∧ Mem.wf r.mem1 = true

/-- Both Pattern slots of a flash are in canonical form. -/
def PatFlash.Ok (f : PatFlash) : Prop := Mem.wf f.s0.img = true ∧ Mem.wf f.s1.img = true

/-- Both firmware slots of a flash are in canonical form. -/
def FwFlash.Ok (f : FwFlash) : Prop := Mem.wf f.s0 = true ∧ Mem.wf f.s1 = true

/-- The update staging and the firmware slots are in canonical form. -/
def UpdOk (up : Mem) (wa wb : FwFlash) : Prop := Mem.wf up = true ∧ wa.Ok ∧ wb.Ok

/-- The addressed memories outside the journal: ring regions, Pattern slots, update staging and firmware slots. -/
def MemsOk (r : Rings) (fa fb : PatFlash) (up : Mem) (wa wb : FwFlash) : Prop := r.Ok ∧ fa.Ok ∧ fb.Ok ∧ UpdOk up wa wb

/-- The relation of `Keeps`, on the parts it looks at. -/
def KeepsParts (s0 : State) (q : List Instr) (w : Tab OtpWord) (r : Rings) (fa fb : PatFlash) (up : Mem) (wa wb : FwFlash) : Prop :=
  q = s0.pending
    ∧ (∀ n, Tab.get .blank s0.otp.words n ≠ .blank → Tab.get .blank w n = Tab.get .blank s0.otp.words n)
    ∧ (MemsOk s0.rings s0.pat.fa s0.pat.fb s0.upd.data s0.upd.fwA s0.upd.fwB → MemsOk r fa fb up wa wb)
    ∧ s0.pat.fa.log <+: fa.log ∧ s0.pat.fb.log <+: fb.log

/-- The queue, the programmed OTP words, the change logs and the canonical form of the memories of `s0` stand in `t`. -/
def Keeps (s0 t : State) : Prop :=
  KeepsParts s0 t.pending t.otp.words t.rings t.pat.fa t.pat.fb t.upd.data t.upd.fwA t.upd.fwB

theorem Keeps.refl (s : State) : Keeps s s := ⟨rfl, fun _ _ => rfl, id, List.prefix_refl _, List.prefix_refl _⟩

theorem Keeps.trans {s t u : State} (h : Keeps s t) (k : Keeps t u) : Keeps s u :=
  ⟨k.1.trans h.1, fun n hn => by
    have e := h.2.1 n hn
    rw [k.2.1 n (by rw [e]; exact hn), e], fun m => k.2.2.1 (h.2.2.1 m), h.2.2.2.1.trans k.2.2.2.1, h.2.2.2.2.trans k.2.2.2.2⟩

/-- A state seen through its parts. -/
theorem Keeps.parts {s0 t : State} (h : Keeps s0 t) :
    KeepsParts s0 t.pending t.otp.words t.rings t.pat.fa t.pat.fb t.upd.data t.upd.fwA t.upd.fwB := h

section

variable {s0 : State} {q : List Instr} {w : Tab OtpWord} {r r' : Rings} {fa fa' fb fb' : PatFlash} {up up' : Mem} {wa wa' wb wb' : FwFlash}

/-- Rings whose memories stay canonical. -/
theorem KeepsParts.rings (h : KeepsParts s0 q w r fa fb up wa wb) (k : r.Ok → r'.Ok) : KeepsParts s0 q w r' fa fb up wa wb :=
  ⟨h.1, h.2.1, fun m => ⟨k (h.2.2.1 m).1, (h.2.2.1 m).2⟩, h.2.2.2⟩

/-- A program operation leaves every word that is not blank as it is (R417). -/
theorem Otp.get_put (o : Otp) (n k : Nat) (w : OtpWord) (h : Tab.get .blank o.words k ≠ .blank) :
    Tab.get .blank (o.put n w) k = Tab.get .blank o.words k := by
  unfold Otp.put
  split
  · rename_i e
    exact Tab.get_set_ne .blank o.words n k w (by rintro rfl; exact h e)
  · rfl

/-- A program operation on the array. -/
theorem KeepsParts.put {o : Otp} (n : Nat) (v : OtpWord) (h : KeepsParts s0 q o.words r fa fb up wa wb) :
    KeepsParts s0 q (o.put n v) r fa fb up wa wb :=
  ⟨h.1, fun k hk => by
    have e := h.2.1 k hk
    rw [Otp.get_put o n k v (by rw [e]; exact hk), e], h.2.2⟩

/-- Memories the same, the rest of the rings any. -/
theorem KeepsParts.sameMem (h : KeepsParts s0 q w r fa fb up wa wb) (e0 : r'.mem0 = r.mem0) (e1 : r'.mem1 = r.mem1) :
    KeepsParts s0 q w r' fa fb up wa wb := h.rings fun m => ⟨by rw [e0]; exact m.1, by rw [e1]; exact m.2⟩

/-- Pattern flashes whose slots stay canonical and whose change logs only grow. -/
theorem KeepsParts.flash (h : KeepsParts s0 q w r fa fb up wa wb) (ka : fa.Ok → fa'.Ok) (kb : fb.Ok → fb'.Ok) (la : fa.log <+: fa'.log)
    (lb : fb.log <+: fb'.log) : KeepsParts s0 q w r fa' fb' up wa wb :=
  ⟨h.1, h.2.1, fun m => ⟨(h.2.2.1 m).1, ka (h.2.2.1 m).2.1, kb (h.2.2.1 m).2.2.1, (h.2.2.1 m).2.2.2⟩, h.2.2.2.1.trans la,
    h.2.2.2.2.trans lb⟩

/-- Update staging and firmware slots that stay canonical. -/
theorem KeepsParts.updMem (h : KeepsParts s0 q w r fa fb up wa wb) (k : UpdOk up wa wb → UpdOk up' wa' wb') :
    KeepsParts s0 q w r fa fb up' wa' wb' :=
  ⟨h.1, h.2.1, fun m => ⟨(h.2.2.1 m).1, (h.2.2.1 m).2.1, (h.2.2.1 m).2.2.1, k (h.2.2.1 m).2.2.2⟩, h.2.2.2⟩

end

theorem PatFlash.ok_flip {f : PatFlash} (h : f.Ok) : f.flip.Ok := h

theorem PatFlash.ok_put {f : PatFlash} (ofs : Nat) (data : List Byte) (h : f.Ok) : (f.put ofs data).Ok := by
  unfold PatFlash.put
  split
  · exact ⟨h.1, Mem.wf_writeL _ _ _ h.2⟩
  · exact ⟨Mem.wf_writeL _ _ _ h.1, h.2⟩

theorem PatFlash.log_put (f : PatFlash) (ofs : Nat) (data : List Byte) : (f.put ofs data).log = f.log := by
  unfold PatFlash.put
  split <;> rfl

theorem FwFlash.ok_flip {f : FwFlash} (h : f.Ok) : f.flip.Ok := h

theorem FwFlash.wf_rest {f : FwFlash} (h : f.Ok) : Mem.wf f.rest = true := by
  unfold FwFlash.rest
  split
  · exact h.2
  · exact h.1

theorem FwFlash.ok_setRest {f : FwFlash} {m : Mem} (h : f.Ok) (k : Mem.wf m = true) : (f.setRest m).Ok := by
  unfold FwFlash.setRest
  split
  · exact ⟨h.1, k⟩
  · exact ⟨k, h.2⟩

/-- The update memories of an update. -/
def Update.Ok (u : Update) : Prop := UpdOk u.data u.fwA u.fwB

theorem Update.ok_unstage {u : Update} (order : Nat) (h : u.Ok) : (u.unstage order).Ok := by
  unfold Update.unstage
  dsimp only
  split
  · exact ⟨rfl, FwFlash.ok_setRest h.2.1 rfl, FwFlash.ok_setRest h.2.2 rfl⟩
  · exact ⟨rfl, h.2⟩

theorem Update.ok_stage {u : Update} (order k a : Nat) (data : List Byte) (h : u.Ok) : (u.stage order k a data).Ok := by
  unfold Update.stage
  split
  · refine ⟨h.1, ?_, ?_⟩
    · dsimp only
      split
      · exact FwFlash.ok_setRest h.2.1 (Mem.wf_writeL _ _ _ (FwFlash.wf_rest h.2.1))
      · exact h.2.1
    · dsimp only
      split
      · exact FwFlash.ok_setRest h.2.2 (Mem.wf_writeL _ _ _ (FwFlash.wf_rest h.2.2))
      · exact h.2.2
  · exact ⟨Mem.wf_writeL _ _ _ h.1, h.2⟩

theorem Update.ok_toSlots {u : Update} (order : Nat) (h : u.Ok) : (u.toSlots order).Ok := by
  unfold Update.toSlots
  dsimp only
  split
  · exact h
  · exact ⟨h.1, FwFlash.ok_setRest h.2.1 (Tab.wfFrom_filter _ _ _ _ h.1), FwFlash.ok_setRest h.2.2 (Tab.wfFrom_filter _ _ _ _ h.1)⟩

/-- A state rebuilt field by field. -/
theorem Keeps.mk {s0 : State} {order modes pow clk flt leases a b fd regs pers br rings crc tmr otp bkp keys st upd tst pat stdin remote
    freeCtr time pending} (h : KeepsParts s0 pending otp.words rings pat.fa pat.fb upd.data upd.fwA upd.fwB) :
    Keeps s0 (State.mk order modes pow clk flt leases a b fd regs pers br rings crc tmr otp bkp keys st upd tst pat stdin remote freeCtr
      time pending) := h

theorem Keeps.ite {s0 t u : State} {c : Prop} [Decidable c] (h : Keeps s0 t) (k : Keeps s0 u) : Keeps s0 (if c then t else u) := by
  split
  · exact h
  · exact k

theorem Keeps.foldl {α : Type} {s0 s : State} {f : State → α → State} {l : List α} (h : Keeps s0 s)
    (k : ∀ t x, Keeps s0 t → Keeps s0 (f t x)) : Keeps s0 (l.foldl f s) := by
  induction l generalizing s with
  | nil => exact h
  | cons x l ih => exact ih (k s x h)

/-- A fold that carries a value beside the state. -/
theorem Keeps.foldlSnd {α β : Type} {s0 : State} {x : β × State} {f : β × State → α → β × State} {l : List α} (h : Keeps s0 x.2)
    (k : ∀ x y, Keeps s0 x.2 → Keeps s0 (f x y).2) : Keeps s0 (l.foldl f x).2 := by
  induction l generalizing x with
  | nil => exact h
  | cons y l ih => exact ih (k x y h)

end Sys2Proof.Machine
end

