-- ==== Sys2Proof/Laws/KeepsOps.lean ====
section
/-! SUPPORT. The operations of Machine/Ops.lean keep the queue, the programmed OTP words and the canonical memories. -/

set_option linter.unusedTactic false
set_option linter.unreachableTactic false
set_option linter.unusedVariables false

namespace Sys2Proof.Machine

theorem State.setDie_keeps {s0 : State} (s : State) (d : Die) (l : LDie) (h_s : Keeps s0 s) : Keeps s0 (State.setDie s d l) := by
  unfold State.setDie
  repeat' first
    | with_reducible assumption
    | fail_if_no_progress (with_reducible apply Keeps.mk; (try dsimp only); with_reducible apply Keeps.parts)
    | split
    | dsimp only
    | assumption

theorem State.updDie_keeps {s0 : State} (s : State) (d : Die) (f : LDie → LDie) (h_s : Keeps s0 s) : Keeps s0 (State.updDie s d f) := by
  unfold State.updDie
  repeat' first
    | with_reducible assumption
    | intro _
    | with_reducible apply State.setDie_keeps
    | dsimp only
    | assumption

theorem State.setReg_keeps {s0 : State} (s : State) (idx sub v : Nat) (h_s : Keeps s0 s) : Keeps s0 (State.setReg s idx sub v) := by
  unfold State.setReg
  repeat' first
    | with_reducible assumption
    | fail_if_no_progress (with_reducible apply Keeps.mk; (try dsimp only); with_reducible apply Keeps.parts)
    | dsimp only
    | assumption

theorem State.bump_keeps {s0 : State} (s : State) (w idx sub : Nat) (h_s : Keeps s0 s) : Keeps s0 (State.bump s w idx sub) := by
  unfold State.bump
  repeat' first
    | with_reducible assumption
    | with_reducible apply State.setReg_keeps
    | dsimp only
    | assumption

theorem State.bumpOnce_keeps {s0 : State} (s : State) (d : Die) (w idx sub : Nat) (h_s : Keeps s0 s) : Keeps s0 (State.bumpOnce s d w idx sub) := by
  unfold State.bumpOnce
  repeat' first
    | with_reducible assumption
    | with_reducible apply Keeps.ite
    | with_reducible apply State.bump_keeps
    | split
    | dsimp only
    | assumption

theorem State.free_keeps {s0 : State} (s : State) (h_s : Keeps s0 s) : Keeps s0 (State.free s).2 := by
  unfold State.free
  repeat' first
    | with_reducible assumption
    | fail_if_no_progress (with_reducible apply Keeps.mk; (try dsimp only); with_reducible apply Keeps.parts)
    | dsimp only
    | assumption

theorem State.jrnStop_keeps {s0 : State} (s : State) (d : Die) (h_s : Keeps s0 s) : Keeps s0 (State.jrnStop s d) := by
  unfold State.jrnStop
  repeat' first
    | with_reducible assumption
    | with_reducible apply Keeps.ite
    | with_reducible apply State.setDie_keeps
    | with_reducible apply State.setReg_keeps
    | fail_if_no_progress (with_reducible apply Keeps.mk; (try dsimp only); with_reducible apply Keeps.parts)
    | split
    | dsimp only
    | assumption

theorem State.jrnRec_keeps {s0 : State} (s : State) (d : Die) (typ : Nat) (body : List Byte) (h_s : Keeps s0 s) : Keeps s0 (State.jrnRec s d typ body) := by
  unfold State.jrnRec
  repeat' first
    | with_reducible assumption
    | with_reducible apply Keeps.ite
    | with_reducible apply State.bumpOnce_keeps
    | with_reducible apply State.jrnStop_keeps
    | with_reducible apply State.setDie_keeps
    | fail_if_no_progress (with_reducible apply Keeps.mk; (try dsimp only); with_reducible apply Keeps.parts)
    | split
    | dsimp only
    | assumption

theorem State.event_keeps {s0 : State} (s : State) (d : Die) (kind : Nat) (bytes : List Byte) (h_s : Keeps s0 s) : Keeps s0 (State.event s d kind bytes) := by
  unfold State.event
  repeat' first
    | with_reducible assumption
    | with_reducible apply State.jrnRec_keeps
    | dsimp only
    | assumption

theorem State.event2_keeps {s0 : State} (s : State) (kind : Nat) (bytes : List Byte) (h_s : Keeps s0 s) : Keeps s0 (State.event2 s kind bytes) := by
  unfold State.event2
  repeat' first
    | with_reducible assumption
    | with_reducible apply State.event_keeps
    | dsimp only
    | assumption

theorem State.trip_keeps {s0 : State} (s : State) (h_s : Keeps s0 s) : Keeps s0 (State.trip s) := by
  unfold State.trip
  repeat' first
    | with_reducible assumption
    | fail_if_no_progress (with_reducible apply Keeps.mk; (try dsimp only); with_reducible apply Keeps.parts)
    | dsimp only
    | assumption

theorem State.driveTrips_keeps {s0 : State} (s : State) (h_s : Keeps s0 s) : Keeps s0 (State.driveTrips s) := by
  unfold State.driveTrips
  repeat' first
    | with_reducible assumption
    | intro _
    | with_reducible apply Keeps.ite
    | with_reducible apply Keeps.foldl
    | fail_if_no_progress (with_reducible apply Keeps.mk; (try dsimp only); with_reducible apply Keeps.parts)
    | split
    | dsimp only
    | assumption

theorem State.tripNow_keeps {s0 : State} (s : State) (h_s : Keeps s0 s) : Keeps s0 (State.tripNow s) := by
  unfold State.tripNow
  repeat' first
    | with_reducible assumption
    | with_reducible apply State.driveTrips_keeps
    | with_reducible apply State.trip_keeps
    | dsimp only
    | assumption

theorem State.setLease_keeps {s0 : State} (s : State) (res : Nat) (l : Lease) (h_s : Keeps s0 s) : Keeps s0 (State.setLease s res l) := by
  unfold State.setLease
  repeat' first
    | with_reducible assumption
    | fail_if_no_progress (with_reducible apply Keeps.mk; (try dsimp only); with_reducible apply Keeps.parts)
    | dsimp only
    | assumption

theorem State.leaseAsk_keeps {s0 : State} (s : State) (res p : Nat) (h_s : Keeps s0 s) : Keeps s0 (State.leaseAsk s res p) := by
  unfold State.leaseAsk
  repeat' first
    | with_reducible assumption
    | with_reducible apply State.setLease_keeps
    | dsimp only
    | assumption

theorem State.leaseEnd_keeps {s0 : State} (s : State) (res p : Nat) (h_s : Keeps s0 s) : Keeps s0 (State.leaseEnd s res p) := by
  unfold State.leaseEnd
  repeat' first
    | with_reducible assumption
    | with_reducible apply Keeps.ite
    | with_reducible apply State.setLease_keeps
    | split
    | dsimp only
    | assumption

theorem State.post_keeps {s0 : State} (s : State) (d : Dest) (bs : List Byte) (h_s : Keeps s0 s) : Keeps s0 (State.post s d bs) := by
  unfold State.post
  repeat' first
    | with_reducible assumption
    | with_reducible apply Keeps.ite
    | fail_if_no_progress (with_reducible apply Keeps.mk; (try dsimp only); with_reducible apply Keeps.parts)
    | split
    | dsimp only
    | assumption

theorem State.sendAns_keeps {s0 : State} (s : State) (r : RespTo) (h_s : Keeps s0 s) : Keeps s0 (State.sendAns s r) := by
  unfold State.sendAns
  repeat' first
    | with_reducible assumption
    | intro _
    | with_reducible apply Keeps.ite
    | with_reducible apply State.bump_keeps
    | with_reducible apply State.post_keeps
    | fail_if_no_progress (with_reducible apply Keeps.mk; (try dsimp only); with_reducible apply Keeps.parts)
    | split
    | dsimp only
    | assumption

theorem State.otpAns_keeps {s0 : State} (s : State) (a : Option RespTo) (h_s : Keeps s0 s) : Keeps s0 (State.otpAns s a) := by
  unfold State.otpAns
  repeat' first
    | with_reducible assumption
    | with_reducible apply State.sendAns_keeps
    | fail_if_no_progress (with_reducible apply Keeps.mk; (try dsimp only); with_reducible apply Keeps.parts)
    | split
    | dsimp only
    | assumption

theorem State.otpFence_keeps {s0 : State} (s : State) (h : Keeps s0 s) : Keeps s0 (s.otpFence) := by
  unfold State.otpFence
  split
  · exact h
  · apply State.otpAns_keeps
    exact KeepsParts.put (o := s.otp) _ _ h

theorem State.crcHalt_keeps {s0 : State} (s : State) (k dstat : Nat) (clear : Bool) (h_s : Keeps s0 s) : Keeps s0 (State.crcHalt s k dstat clear) := by
  unfold State.crcHalt
  repeat' first
    | with_reducible assumption
    | intro _
    | with_reducible apply Keeps.ite
    | with_reducible apply State.setReg_keeps
    | fail_if_no_progress (with_reducible apply Keeps.mk; (try dsimp only); with_reducible apply Keeps.parts)
    | split
    | dsimp only
    | assumption

theorem State.otpDrop_keeps {s0 : State} (s : State) (h_s : Keeps s0 s) : Keeps s0 (State.otpDrop s) := by
  unfold State.otpDrop
  repeat' first
    | with_reducible assumption
    | with_reducible apply Keeps.ite
    | with_reducible apply State.otpAns_keeps
    | fail_if_no_progress (with_reducible apply Keeps.mk; (try dsimp only); with_reducible apply Keeps.parts)
    | split
    | dsimp only
    | assumption

theorem State.fwdFence_keeps {s0 : State} (s : State) (d : Die) (h_s : Keeps s0 s) : Keeps s0 (State.fwdFence s d) := by
  unfold State.fwdFence
  repeat' first
    | with_reducible assumption
    | intro _
    | with_reducible apply State.sendAns_keeps
    | with_reducible apply Keeps.foldl
    | fail_if_no_progress (with_reducible apply Keeps.mk; (try dsimp only); with_reducible apply Keeps.parts)
    | dsimp only
    | assumption

theorem State.leaseReset_keeps {s0 : State} (s : State) (res p : Nat) (h_s : Keeps s0 s) : Keeps s0 (State.leaseReset s res p) := by
  unfold State.leaseReset
  repeat' first
    | with_reducible assumption
    | intro _
    | with_reducible apply Keeps.ite
    | with_reducible apply State.crcHalt_keeps
    | with_reducible apply State.fwdFence_keeps
    | with_reducible apply State.otpFence_keeps
    | with_reducible apply State.updDie_keeps
    | with_reducible apply Keeps.foldl
    | fail_if_no_progress (with_reducible apply Keeps.mk; (try dsimp only); with_reducible apply Keeps.parts)
    | split
    | dsimp only
    | assumption

theorem State.fenceLeases_keeps {s0 : State} (s : State) (d : Die) (h_s : Keeps s0 s) : Keeps s0 (State.fenceLeases s d).1 := by
  unfold State.fenceLeases
  repeat' first
    | with_reducible assumption
    | intro _
    | with_reducible apply Keeps.ite
    | with_reducible apply State.leaseReset_keeps
    | with_reducible apply State.otpDrop_keeps
    | with_reducible apply State.setLease_keeps
    | with_reducible apply Keeps.foldl
    | fail_if_no_progress (with_reducible apply Keeps.mk; (try dsimp only); with_reducible apply Keeps.parts)
    | split
    | dsimp only
    | assumption

theorem State.leaseSec_keeps {s0 : State} (s : State) (held : Bool) (h_s : Keeps s0 s) : Keeps s0 (State.leaseSec s held) := by
  unfold State.leaseSec
  repeat' first
    | with_reducible assumption
    | with_reducible apply Keeps.ite
    | with_reducible apply State.event2_keeps
    | fail_if_no_progress (with_reducible apply Keeps.mk; (try dsimp only); with_reducible apply Keeps.parts)
    | split
    | dsimp only
    | assumption

theorem State.setDieSt_keeps {s0 : State} (s : State) (x v : Nat) (h_s : Keeps s0 s) : Keeps s0 (State.setDieSt s x v) := by
  unfold State.setDieSt
  repeat' first
    | with_reducible assumption
    | fail_if_no_progress (with_reducible apply Keeps.mk; (try dsimp only); with_reducible apply Keeps.parts)
    | dsimp only
    | assumption

theorem State.fenceDie_keeps {s0 : State} (s : State) (d : Die) (h_s : Keeps s0 s) : Keeps s0 (State.fenceDie s d) := by
  unfold State.fenceDie
  repeat' first
    | with_reducible assumption
    | with_reducible apply Keeps.ite
    | with_reducible apply State.fenceLeases_keeps
    | with_reducible apply State.leaseSec_keeps
    | with_reducible apply State.setDie_keeps
    | with_reducible apply State.setDieSt_keeps
    | fail_if_no_progress (with_reducible apply Keeps.mk; (try dsimp only); with_reducible apply Keeps.parts)
    | split
    | dsimp only
    | assumption

theorem State.fenceM_keeps {s0 : State} (s : State) (h_s : Keeps s0 s) : Keeps s0 (State.fenceM s) := by
  unfold State.fenceM
  repeat' first
    | with_reducible assumption
    | intro _
    | with_reducible apply State.jrnStop_keeps
    | with_reducible apply State.leaseReset_keeps
    | with_reducible apply State.leaseSec_keeps
    | with_reducible apply State.setDieSt_keeps
    | with_reducible apply Keeps.foldl
    | fail_if_no_progress (with_reducible apply Keeps.mk; (try dsimp only); with_reducible apply Keeps.parts)
    | split
    | dsimp only
    | assumption

theorem State.fenceF_keeps {s0 : State} (s : State) (d : Nat) (h_s : Keeps s0 s) : Keeps s0 (State.fenceF s d) := by
  unfold State.fenceF
  repeat' first
    | with_reducible assumption
    | fail_if_no_progress (with_reducible apply Keeps.mk; (try dsimp only); with_reducible apply Keeps.parts)
    | dsimp only
    | assumption

theorem State.fenceOf_keeps {s0 : State} (s : State) (b : Nat) (h_s : Keeps s0 s) : Keeps s0 (State.fenceOf s b) := by
  unfold State.fenceOf
  repeat' first
    | with_reducible assumption
    | with_reducible apply Keeps.ite
    | with_reducible apply State.fenceDie_keeps
    | with_reducible apply State.fenceF_keeps
    | with_reducible apply State.fenceM_keeps
    | split
    | dsimp only
    | assumption

theorem State.lockAll_keeps {s0 : State} (s : State) (h_s : Keeps s0 s) : Keeps s0 (State.lockAll s) := by
  unfold State.lockAll
  repeat' first
    | with_reducible assumption
    | with_reducible apply Keeps.ite
    | fail_if_no_progress (with_reducible apply Keeps.mk; (try dsimp only); with_reducible apply Keeps.parts)
    | split
    | dsimp only
    | assumption

theorem State.revert_keeps {s0 : State} (s : State) (why : Nat) (h_s : Keeps s0 s) : Keeps s0 (State.revert s why) := by
  unfold State.revert
  repeat' first
    | with_reducible assumption
    | with_reducible apply Keeps.ite
    | with_reducible apply State.bump_keeps
    | with_reducible apply State.lockAll_keeps
    | with_reducible apply State.setDie_keeps
    | with_reducible apply State.setReg_keeps
    | fail_if_no_progress (with_reducible apply Keeps.mk; (try dsimp only); with_reducible apply Keeps.parts)
    | split
    | dsimp only
    | assumption

theorem State.reactC3_keeps {s0 : State} (s : State) (b : Nat) (h_s : Keeps s0 s) : Keeps s0 (State.reactC3 s b) := by
  unfold State.reactC3
  repeat' first
    | with_reducible assumption
    | with_reducible apply Keeps.ite
    | with_reducible apply State.lockAll_keeps
    | with_reducible apply State.revert_keeps
    | with_reducible apply State.setReg_keeps
    | with_reducible apply State.tripNow_keeps
    | fail_if_no_progress (with_reducible apply Keeps.mk; (try dsimp only); with_reducible apply Keeps.parts)
    | split
    | dsimp only
    | assumption

theorem State.react_keeps {s0 : State} (s : State) (b : Nat) (h_s : Keeps s0 s) : Keeps s0 (State.react s b) := by
  unfold State.react
  repeat' first
    | with_reducible assumption
    | with_reducible apply Keeps.ite
    | with_reducible apply State.fenceOf_keeps
    | with_reducible apply State.reactC3_keeps
    | fail_if_no_progress (with_reducible apply Keeps.mk; (try dsimp only); with_reducible apply Keeps.parts)
    | split
    | dsimp only
    | assumption

theorem State.causeOn_keeps {s0 : State} (s : State) (b : Nat) (h_s : Keeps s0 s) : Keeps s0 (State.causeOn s b) := by
  unfold State.causeOn
  repeat' first
    | with_reducible assumption
    | fail_if_no_progress (with_reducible apply Keeps.mk; (try dsimp only); with_reducible apply Keeps.parts)
    | dsimp only
    | assumption

theorem State.causeOff_keeps {s0 : State} (s : State) (b : Nat) (h_s : Keeps s0 s) : Keeps s0 (State.causeOff s b) := by
  unfold State.causeOff
  repeat' first
    | with_reducible assumption
    | fail_if_no_progress (with_reducible apply Keeps.mk; (try dsimp only); with_reducible apply Keeps.parts)
    | dsimp only
    | assumption

theorem State.again_keeps {s0 : State} (s : State) (b : Nat) (h_s : Keeps s0 s) : Keeps s0 (State.again s b) := by
  unfold State.again
  repeat' first
    | with_reducible assumption
    | with_reducible apply Keeps.ite
    | with_reducible apply State.fenceOf_keeps
    | with_reducible apply State.reactC3_keeps
    | fail_if_no_progress (with_reducible apply Keeps.mk; (try dsimp only); with_reducible apply Keeps.parts)
    | split
    | dsimp only
    | assumption

theorem State.latch_keeps {s0 : State} (s : State) (b : Nat) (h_s : Keeps s0 s) : Keeps s0 (State.latch s b) := by
  unfold State.latch
  repeat' first
    | with_reducible assumption
    | with_reducible apply Keeps.ite
    | with_reducible apply State.again_keeps
    | with_reducible apply State.event2_keeps
    | with_reducible apply State.react_keeps
    | with_reducible apply State.setReg_keeps
    | fail_if_no_progress (with_reducible apply Keeps.mk; (try dsimp only); with_reducible apply Keeps.parts)
    | split
    | dsimp only
    | assumption

theorem State.latch3_keeps {s0 : State} (s : State) (b : Nat) (h_s : Keeps s0 s) : Keeps s0 (State.latch3 s b) := by
  unfold State.latch3
  repeat' first
    | with_reducible assumption
    | with_reducible apply Keeps.ite
    | with_reducible apply State.latch_keeps
    | with_reducible apply State.reactC3_keeps
    | fail_if_no_progress (with_reducible apply Keeps.mk; (try dsimp only); with_reducible apply Keeps.parts)
    | split
    | dsimp only
    | assumption

theorem State.latchStanding_keeps {s0 : State} (s : State) (b : Nat) (h_s : Keeps s0 s) : Keeps s0 (State.latchStanding s b) := by
  unfold State.latchStanding
  repeat' first
    | with_reducible assumption
    | with_reducible apply State.causeOn_keeps
    | with_reducible apply State.latch_keeps
    | dsimp only
    | assumption

theorem State.resetBlock_keeps {s0 : State} (s : State) (k : Blk) (b : Nat) (f : State → State) (h_s : Keeps s0 s) (k_f : ∀ t, Keeps s0 t → Keeps s0 (f t)) : Keeps s0 (State.resetBlock s k b f) := by
  unfold State.resetBlock
  repeat' first
    | with_reducible assumption
    | intro _
    | with_reducible apply Keeps.ite
    | with_reducible apply State.latch3_keeps
    | apply k_f
    | fail_if_no_progress (with_reducible apply Keeps.mk; (try dsimp only); with_reducible apply Keeps.parts)
    | split
    | dsimp only
    | assumption

theorem State.latchReset_keeps {s0 : State} (s : State) (k : Blk) (b : Nat) (f : State → State) (h_s : Keeps s0 s) (k_f : ∀ t, Keeps s0 t → Keeps s0 (f t)) : Keeps s0 (State.latchReset s k b f) := by
  unfold State.latchReset
  repeat' first
    | with_reducible assumption
    | intro _
    | with_reducible apply Keeps.ite
    | with_reducible apply State.latch_keeps
    | with_reducible apply State.resetBlock_keeps
    | apply k_f
    | split
    | dsimp only
    | assumption

end Sys2Proof.Machine
end

