-- ==== Sys2Proof/Laws/KeepsSpanOps.lean ====
section
/-! SUPPORT. The operations of Machine/SpanOps.lean keep the queue, the programmed OTP words and the canonical memories. -/

set_option linter.unusedTactic false
set_option linter.unreachableTactic false
set_option linter.unusedVariables false

namespace Sys2Proof.Machine

theorem State.sendReady_keeps {s0 : State} (s : State) (d : Die) (h_s : Keeps s0 s) : Keeps s0 (State.sendReady s d) := by
  unfold State.sendReady
  repeat' first
    | with_reducible assumption
    | intro _
    | with_reducible apply Keeps.ite
    | with_reducible apply State.updDie_keeps
    | fail_if_no_progress (with_reducible apply Keeps.mk; (try dsimp only); with_reducible apply Keeps.parts)
    | split
    | dsimp only
    | assumption

theorem State.countCompares_keeps {s0 : State} (s : State) (d : Die) (c0 : Cmp) (h_s : Keeps s0 s) : Keeps s0 (State.countCompares s d c0) := by
  unfold State.countCompares
  repeat' first
    | with_reducible assumption
    | with_reducible apply Keeps.ite
    | with_reducible apply State.setReg_keeps
    | split
    | dsimp only
    | assumption

theorem State.ready_keeps {s0 : State} (s : State) (d : Die) (p : Pattern) (h_s : Keeps s0 s) : Keeps s0 (State.ready s d p) := by
  unfold State.ready
  repeat' first
    | with_reducible assumption
    | with_reducible apply Keeps.ite
    | with_reducible apply State.sendReady_keeps
    | split
    | dsimp only
    | assumption

theorem State.formRecords_keeps {s0 : State} (s : State) (d : Die) (p : Pattern) (h_s : Keeps s0 s) : Keeps s0 (State.formRecords s d p) := by
  unfold State.formRecords
  repeat' first
    | with_reducible assumption
    | intro _
    | with_reducible apply Keeps.ite
    | with_reducible apply State.countCompares_keeps
    | with_reducible apply State.setDie_keeps
    | fail_if_no_progress (with_reducible apply Keeps.mk; (try dsimp only); with_reducible apply Keeps.parts)
    | split
    | dsimp only
    | assumption

theorem State.replayRecords_keeps {s0 : State} (s : State) (d : Die) (p : Pattern) (h_s : Keeps s0 s) : Keeps s0 (State.replayRecords s d p) := by
  unfold State.replayRecords
  repeat' first
    | with_reducible assumption
    | intro _
    | with_reducible apply State.countCompares_keeps
    | with_reducible apply State.setDie_keeps
    | fail_if_no_progress (with_reducible apply Keeps.mk; (try dsimp only); with_reducible apply Keeps.parts)
    | dsimp only
    | assumption

theorem State.advance_keeps {s0 : State} (s : State) (d : Die) (p : Pattern) (h_s : Keeps s0 s) : Keeps s0 (State.advance s d p) := by
  unfold State.advance
  repeat' first
    | with_reducible assumption
    | with_reducible apply Keeps.ite
    | with_reducible apply State.formRecords_keeps
    | with_reducible apply State.ready_keeps
    | with_reducible apply State.replayRecords_keeps
    | with_reducible apply State.setDie_keeps
    | with_reducible apply State.setReg_keeps
    | fail_if_no_progress (with_reducible apply Keeps.mk; (try dsimp only); with_reducible apply Keeps.parts)
    | split
    | dsimp only
    | assumption

theorem State.startEval_keeps {s0 : State} (s : State) (d : Die) (p : Pattern) (h_s : Keeps s0 s) : Keeps s0 (State.startEval s d p) := by
  unfold State.startEval
  repeat' first
    | with_reducible assumption
    | intro _
    | with_reducible apply State.advance_keeps
    | with_reducible apply State.free_keeps
    | with_reducible apply State.setDie_keeps
    | fail_if_no_progress (with_reducible apply Keeps.mk; (try dsimp only); with_reducible apply Keeps.parts)
    | split
    | dsimp only
    | assumption

theorem State.laneFail_keeps {s0 : State} (s : State) (d : Die) (lane : Nat) (p : Pattern) (h_s : Keeps s0 s) : Keeps s0 (State.laneFail s d lane p) := by
  unfold State.laneFail
  repeat' first
    | with_reducible assumption
    | with_reducible apply Keeps.ite
    | with_reducible apply State.causeOn_keeps
    | with_reducible apply State.free_keeps
    | with_reducible apply State.latch_keeps
    | with_reducible apply State.setDie_keeps
    | fail_if_no_progress (with_reducible apply Keeps.mk; (try dsimp only); with_reducible apply Keeps.parts)
    | split
    | dsimp only
    | assumption

theorem State.sendCmds_keeps {s0 : State} (s : State) (d : Die) (cmd : Nat → BitVec 32) (h_s : Keeps s0 s) : Keeps s0 (State.sendCmds s d cmd) := by
  unfold State.sendCmds
  repeat' first
    | with_reducible assumption
    | intro _
    | with_reducible apply Keeps.ite
    | with_reducible apply State.updDie_keeps
    | with_reducible apply Keeps.foldl
    | split
    | dsimp only
    | assumption

end Sys2Proof.Machine
end

