-- ==== Sys2Proof/Laws/KeepsRingOps.lean ====
section
/-! SUPPORT. The operations of Machine/RingOps.lean keep the queue, the programmed OTP words and the canonical memories. -/

set_option linter.unusedTactic false
set_option linter.unreachableTactic false
set_option linter.unusedVariables false

namespace Sys2Proof.Machine

theorem State.crcTouch_keeps {s0 : State} (s : State) (inB : Bool) (lo n : Nat) (h_s : Keeps s0 s) : Keeps s0 (State.crcTouch s inB lo n) := by
  unfold State.crcTouch
  repeat' first
    | with_reducible assumption
    | intro _
    | with_reducible apply Keeps.ite
    | with_reducible apply Keeps.foldl
    | fail_if_no_progress (with_reducible apply Keeps.mk; (try dsimp only); with_reducible apply Keeps.parts)
    | split
    | dsimp only
    | assumption

theorem State.crcTouchHead_keeps {s0 : State} (s : State) (n : Nat) (h_s : Keeps s0 s) : Keeps s0 (State.crcTouchHead s n) := by
  unfold State.crcTouchHead
  repeat' first
    | with_reducible assumption
    | with_reducible apply State.crcTouch_keeps
    | dsimp only
    | assumption

theorem State.ringFix_keeps {s0 : State} (s : State) (n : Nat) (h_s : Keeps s0 s) : Keeps s0 (State.ringFix s n) := by
  unfold State.ringFix
  repeat' first
    | with_reducible assumption
    | with_reducible apply Keeps.ite
    | with_reducible apply State.bump_keeps
    | with_reducible apply State.latch_keeps
    | fail_if_no_progress (with_reducible apply Keeps.mk; (try dsimp only); with_reducible apply Keeps.parts)
    | split
    | dsimp only
    | assumption
    | (with_reducible apply Keeps.mk; (try dsimp only); refine KeepsParts.sameMem (Keeps.parts ?_) rfl rfl)

/-- A write of a ring entry keeps both regions canonical. -/
theorem Rings.ok_write1 (rs : Rings) (order n : Nat) (bs : List Byte) (h : rs.Ok) : (rs.write1 order n bs).Ok := by
  unfold Rings.write1
  dsimp only
  split
  · exact ⟨h.1, Mem.wf_writeL bs _ _ h.2⟩
  · exact ⟨Mem.wf_writeL bs _ _ h.1, h.2⟩

theorem Rings.ok_devPut (rs : Rings) (order n room : Nat) (bs : List Byte) (h : rs.Ok) : (rs.devPut order n room bs).1.Ok := by
  unfold Rings.devPut
  dsimp only
  split
  · exact h
  · split
    · exact Rings.ok_write1 rs order n bs h
    · split
      · exact Rings.ok_write1 (rs.dropOldest n) order n bs h
      · exact h

theorem State.ringPut_keeps {s0 : State} (s : State) (n : Nat) (bs : List Byte) (h_s : Keeps s0 s) : Keeps s0 (s.ringPut n bs).1 := by
  have h := State.ringFix_keeps s n h_s
  unfold State.ringPut
  dsimp only
  split
  · exact h
  · unfold State.crcTouchHead State.crcTouch
    generalize State.ringFix s n = t at h
    exact Keeps.mk (h.parts.rings (Rings.ok_devPut _ _ n _ bs))

theorem State.ringsFor_keeps {s0 : State} (s : State) (p : Pattern) (h_s : Keeps s0 s) : Keeps s0 (State.ringsFor s p) := by
  unfold State.ringsFor
  repeat' first
    | with_reducible assumption
    | with_reducible apply Keeps.ite
    | fail_if_no_progress (with_reducible apply Keeps.mk; (try dsimp only); with_reducible apply Keeps.parts)
    | split
    | dsimp only
    | assumption
    | (with_reducible apply Keeps.mk; (try dsimp only); refine KeepsParts.sameMem (Keeps.parts ?_) rfl rfl)

theorem State.logAppend_keeps {s0 : State} (s : State) (es : List (List Byte)) (h_s : Keeps s0 s) : Keeps s0 (State.logAppend s es).1 := by
  have g (d : Die) (f : PatFlash) : let f' := if s.admitted d then { f with log := f.log ++ es } else f
      (f.Ok → f'.Ok) ∧ f.log <+: f'.log := by
    dsimp only
    split
    · exact ⟨id, List.prefix_append _ _⟩
    · exact ⟨id, List.prefix_refl _⟩
  unfold State.logAppend
  split
  · exact (h_s.parts.sameMem (r' := ({ s.rings with log := s.rings.log ++ es } : Rings).ring0) rfl rfl).flash (g .a _).1 (g .b _).1
      (g .a _).2 (g .b _).2
  · exact h_s

theorem State.dcplChange_keeps {s0 : State} (s : State) (g new old span : Nat) (h_s : Keeps s0 s) : Keeps s0 (State.dcplChange s g new old span) := by
  unfold State.dcplChange
  repeat' first
    | with_reducible assumption
    | with_reducible apply Keeps.ite
    | with_reducible apply State.bump_keeps
    | with_reducible apply State.logAppend_keeps
    | with_reducible apply State.setReg_keeps
    | split
    | dsimp only
    | assumption

theorem State.jrnVar_keeps {s0 : State} (s : State) (d : Die) (v : Var) (old new : Int) (h_s : Keeps s0 s) : Keeps s0 (State.jrnVar s d v old new) := by
  unfold State.jrnVar
  repeat' first
    | with_reducible assumption
    | intro _
    | with_reducible apply Keeps.ite
    | with_reducible apply State.jrnRec_keeps
    | with_reducible apply State.updDie_keeps
    | exact fun _ h => h
    | fail_if_no_progress (with_reducible apply Keeps.mk; (try dsimp only); with_reducible apply Keeps.parts)
    | split
    | dsimp only
    | assumption

theorem State.jrnVars_keeps {s0 : State} (s : State) (d : Die) (p : Pattern) (old new : Img) (h_s : Keeps s0 s) : Keeps s0 (State.jrnVars s d p old new) := by
  unfold State.jrnVars
  repeat' first
    | with_reducible assumption
    | intro _
    | with_reducible apply State.jrnVar_keeps
    | exact fun _ h => h
    | with_reducible apply Keeps.foldl
    | dsimp only
    | assumption

end Sys2Proof.Machine
end

