-- ==== Sys2Proof/Laws/KeepsTimerOps.lean ====
section
/-! SUPPORT. The operations of Machine/TimerOps.lean keep the queue, the programmed OTP words and the canonical memories. -/

set_option linter.unusedTactic false
set_option linter.unreachableTactic false
set_option linter.unusedVariables false

namespace Sys2Proof.Machine

theorem State.setTimer_keeps {s0 : State} (s : State) (k : Nat) (t : Tmr) (h_s : Keeps s0 s) : Keeps s0 (State.setTimer s k t) := by
  unfold State.setTimer
  repeat' first
    | with_reducible assumption
    | fail_if_no_progress (with_reducible apply Keeps.mk; (try dsimp only); with_reducible apply Keeps.parts)
    | dsimp only
    | assumption

theorem State.putTimer_keeps {s0 : State} (s : State) (k : Nat) (x : Tmr × Bool) (h_s : Keeps s0 s) : Keeps s0 (State.putTimer s k x) := by
  unfold State.putTimer
  repeat' first
    | with_reducible assumption
    | with_reducible apply Keeps.ite
    | with_reducible apply State.ringPut_keeps
    | with_reducible apply State.setTimer_keeps
    | split
    | dsimp only
    | assumption

theorem State.timerEdge_keeps {s0 : State} (s : State) (d : Die) (src : Bool) (h_s : Keeps s0 s) : Keeps s0 (State.timerEdge s d src) := by
  unfold State.timerEdge
  repeat' first
    | with_reducible assumption
    | intro _
    | with_reducible apply Keeps.ite
    | with_reducible apply State.putTimer_keeps
    | with_reducible apply Keeps.foldl
    | split
    | dsimp only
    | assumption

end Sys2Proof.Machine
end

