-- ==== Sys2Proof/Laws/KeepsSnapshot.lean ====
section
/-! SUPPORT. The operations of Machine/Snapshot.lean keep the queue, the programmed OTP words and the canonical memories. -/

set_option linter.unusedTactic false
set_option linter.unreachableTactic false
set_option linter.unusedVariables false

namespace Sys2Proof.Machine

theorem State.setCode_keeps {s0 : State} (s : State) (d : Die) (n k : Nat) (h_s : Keeps s0 s) : Keeps s0 (State.setCode s d n k) := by
  unfold State.setCode
  repeat' first
    | with_reducible assumption
    | intro _
    | with_reducible apply Keeps.ite
    | with_reducible apply State.bump_keeps
    | with_reducible apply State.event_keeps
    | with_reducible apply State.updDie_keeps
    | fail_if_no_progress (with_reducible apply Keeps.mk; (try dsimp only); with_reducible apply Keeps.parts)
    | split
    | dsimp only
    | assumption

theorem State.setOut_keeps {s0 : State} (s : State) (d : Die) (n k : Nat) (h_s : Keeps s0 s) : Keeps s0 (State.setOut s d n k) := by
  unfold State.setOut
  repeat' first
    | with_reducible assumption
    | intro _
    | with_reducible apply Keeps.ite
    | with_reducible apply State.bump_keeps
    | with_reducible apply State.event_keeps
    | with_reducible apply State.updDie_keeps
    | fail_if_no_progress (with_reducible apply Keeps.mk; (try dsimp only); with_reducible apply Keeps.parts)
    | split
    | dsimp only
    | assumption

theorem State.cosEvent_keeps {s0 : State} (s : State) (n stat edge : Nat) (h_s : Keeps s0 s) : Keeps s0 (State.cosEvent s n stat edge) := by
  unfold State.cosEvent
  repeat' first
    | with_reducible assumption
    | intro _
    | with_reducible apply Keeps.ite
    | with_reducible apply State.bump_keeps
    | with_reducible apply State.ringPut_keeps
    | with_reducible apply State.setReg_keeps
    | fail_if_no_progress (with_reducible apply Keeps.mk; (try dsimp only); with_reducible apply Keeps.parts)
    | split
    | dsimp only
    | assumption

theorem State.portHist_keeps {s0 : State} (s : State) (p : Pattern) (d : Die) (n stat edge : Nat) (h_s : Keeps s0 s) : Keeps s0 (State.portHist s p d n stat edge) := by
  unfold State.portHist
  repeat' first
    | with_reducible assumption
    | with_reducible apply State.ringPut_keeps
    | fail_if_no_progress (with_reducible apply Keeps.mk; (try dsimp only); with_reducible apply Keeps.parts)
    | split
    | dsimp only
    | assumption

theorem State.chanEnd_keeps {s0 : State} (d : Die) (s : State) (n : Nat) (h_s : Keeps s0 s) : Keeps s0 (State.chanEnd d s n) := by
  unfold State.chanEnd
  repeat' first
    | with_reducible assumption
    | intro _
    | with_reducible apply Keeps.ite
    | with_reducible apply State.bumpOnce_keeps
    | with_reducible apply State.cosEvent_keeps
    | with_reducible apply State.event_keeps
    | with_reducible apply State.portHist_keeps
    | with_reducible apply State.setDie_keeps
    | with_reducible apply State.setReg_keeps
    | fail_if_no_progress (with_reducible apply Keeps.mk; (try dsimp only); with_reducible apply Keeps.parts)
    | split
    | dsimp only
    | assumption

theorem State.updF_keeps {s0 : State} (s : State) (f : Nat) (g : FDie → FDie) (h_s : Keeps s0 s) : Keeps s0 (State.updF s f g) := by
  unfold State.updF
  repeat' first
    | with_reducible assumption
    | intro _
    | fail_if_no_progress (with_reducible apply Keeps.mk; (try dsimp only); with_reducible apply Keeps.parts)
    | dsimp only
    | assumption

theorem State.readback_keeps {s0 : State} (d : Die) (s : State) (c : ChanRec) (h_s : Keeps s0 s) : Keeps s0 (State.readback d s c) := by
  unfold State.readback
  repeat' first
    | with_reducible assumption
    | with_reducible apply Keeps.ite
    | with_reducible apply State.setOut_keeps
    | split
    | dsimp only
    | assumption

theorem State.latchPair_keeps {s0 : State} (s : State) (p : Pattern) (id : Nat) (h_s : Keeps s0 s) : Keeps s0 (State.latchPair s p id) := by
  unfold State.latchPair
  repeat' first
    | with_reducible assumption
    | with_reducible apply State.latch_keeps
    | exact fun _ h => h
    | fail_if_no_progress (with_reducible apply Keeps.mk; (try dsimp only); with_reducible apply Keeps.parts)
    | dsimp only
    | assumption

theorem State.pairAt_keeps {s0 : State} (p : Pattern) (d : Die) (s : State) (q : Nat) (i : Inst) (par : ConnPar) (h_s : Keeps s0 s) : Keeps s0 (State.pairAt p d s q i par) := by
  unfold State.pairAt
  repeat' first
    | with_reducible assumption
    | with_reducible apply Keeps.ite
    | with_reducible apply State.bumpOnce_keeps
    | with_reducible apply State.latchPair_keeps
    | with_reducible apply State.setDie_keeps
    | exact fun _ h => h
    | fail_if_no_progress (with_reducible apply Keeps.mk; (try dsimp only); with_reducible apply Keeps.parts)
    | split
    | dsimp only
    | assumption

end Sys2Proof.Machine
end

