-- ==== Sys2Proof/Laws/KeepsRelease.lean ====
section
/-! SUPPORT. The operations of Machine/Release.lean keep the queue, the programmed OTP words and the canonical memories. -/

set_option linter.unusedTactic false
set_option linter.unreachableTactic false
set_option linter.unusedVariables false

namespace Sys2Proof.Machine

theorem State.release_keeps {s0 : State} (p : Pattern) (d : Die) (e : EvalEnv) (s : State) (x : Nat × Inst × ConnPar × Nat × Nat) (h_s : Keeps s0 s) : Keeps s0 (State.release p d e s x) := by
  unfold State.release
  repeat' first
    | with_reducible assumption
    | intro _
    | with_reducible apply Keeps.ite
    | with_reducible apply State.bumpOnce_keeps
    | with_reducible apply State.ringPut_keeps
    | with_reducible apply State.setDie_keeps
    | exact fun _ h => h
    | with_reducible apply Keeps.foldl
    | with_reducible apply Keeps.foldlSnd
    | fail_if_no_progress (with_reducible apply Keeps.mk; (try dsimp only); with_reducible apply Keeps.parts)
    | split
    | dsimp only
    | assumption

theorem State.releaseAll_keeps {s0 : State} (s : State) (d : Die) (p : Pattern) (m : Img) (h_s : Keeps s0 s) : Keeps s0 (State.releaseAll s d p m) := by
  unfold State.releaseAll
  repeat' first
    | with_reducible assumption
    | intro _
    | with_reducible apply State.release_keeps
    | with_reducible apply Keeps.foldl
    | fail_if_no_progress (with_reducible apply Keeps.mk; (try dsimp only); with_reducible apply Keeps.parts)
    | dsimp only
    | assumption

theorem State.takeState_keeps {s0 : State} (u : State) (d : Die) (h_u : Keeps s0 u) : Keeps s0 (State.takeState u d) := by
  unfold State.takeState
  repeat' first
    | with_reducible assumption
    | intro _
    | with_reducible apply State.setDie_keeps
    | fail_if_no_progress (with_reducible apply Keeps.mk; (try dsimp only); with_reducible apply Keeps.parts)
    | split
    | dsimp only
    | assumption

theorem State.enterHold_keeps {s0 : State} (s : State) (d : Die) (h_s : Keeps s0 s) : Keeps s0 (State.enterHold s d) := by
  unfold State.enterHold
  repeat' first
    | with_reducible assumption
    | with_reducible apply Keeps.ite
    | with_reducible apply State.setDie_keeps
    | fail_if_no_progress (with_reducible apply Keeps.mk; (try dsimp only); with_reducible apply Keeps.parts)
    | split
    | dsimp only
    | assumption

theorem State.rejoinCommit_keeps {s0 : State} (s : State) (d : Die) (h_s : Keeps s0 s) : Keeps s0 (State.rejoinCommit s d) := by
  unfold State.rejoinCommit
  repeat' first
    | with_reducible assumption
    | with_reducible apply Keeps.ite
    | with_reducible apply State.setDie_keeps
    | with_reducible apply State.setReg_keeps
    | fail_if_no_progress (with_reducible apply Keeps.mk; (try dsimp only); with_reducible apply Keeps.parts)
    | split
    | dsimp only
    | assumption

theorem State.laReboot_keeps {s0 : State} (s : State) (p : Pattern) (h_s : Keeps s0 s) : Keeps s0 (State.laReboot s p) := by
  unfold State.laReboot
  repeat' first
    | with_reducible assumption
    | with_reducible apply Keeps.ite
    | with_reducible apply State.enterHold_keeps
    | fail_if_no_progress (with_reducible apply Keeps.mk; (try dsimp only); with_reducible apply Keeps.parts)
    | split
    | dsimp only
    | assumption

theorem State.flip__keeps {s0 : State} (s : State) (h_s : Keeps s0 s) : Keeps s0 (State.flip_ s) := by
  unfold State.flip_
  extract_lets m svn s1 s2 s3 y4 s4
  have h1 : Keeps s0 s1 := State.setReg_keeps _ _ _ _ (State.bump_keeps _ _ _ _ h_s)
  have h2 : Keeps s0 s2 := Keeps.foldl h1 fun t x h => State.setReg_keeps _ _ _ _ h
  have h3 : Keeps s0 s3 := State.setReg_keeps _ _ _ _ (State.setReg_keeps _ _ _ _ h2)
  have h4 : Keeps s0 s4 := Keeps.ite (State.event2_keeps _ _ _ (Keeps.mk h3.parts)) (Keeps.mk h3.parts)
  exact Keeps.mk (h4.parts.updMem fun k => ⟨k.1, FwFlash.ok_flip k.2.1, FwFlash.ok_flip k.2.2⟩)

theorem State.updAgree_keeps {s0 : State} (s : State) (h_s : Keeps s0 s) : Keeps s0 (State.updAgree s) := by
  unfold State.updAgree
  repeat' first
    | with_reducible assumption
    | with_reducible apply Keeps.ite
    | with_reducible apply State.flip__keeps
    | fail_if_no_progress (with_reducible apply Keeps.mk; (try dsimp only); with_reducible apply Keeps.parts)
    | split
    | dsimp only
    | assumption

theorem State.readmAgree_keeps {s0 : State} (s : State) (d : Die) (h_s : Keeps s0 s) : Keeps s0 (State.readmAgree s d) := by
  unfold State.readmAgree
  repeat' first
    | with_reducible assumption
    | with_reducible apply Keeps.ite
    | with_reducible apply State.bump_keeps
    | with_reducible apply State.setDieSt_keeps
    | with_reducible apply State.setReg_keeps
    | fail_if_no_progress (with_reducible apply Keeps.mk; (try dsimp only); with_reducible apply Keeps.parts)
    | split
    | dsimp only
    | assumption

theorem State.notAgreed_keeps {s0 : State} (s : State) (d : Die) (h_s : Keeps s0 s) : Keeps s0 (State.notAgreed s d) := by
  unfold State.notAgreed
  repeat' first
    | with_reducible assumption
    | with_reducible apply Keeps.ite
    | fail_if_no_progress (with_reducible apply Keeps.mk; (try dsimp only); with_reducible apply Keeps.parts)
    | split
    | dsimp only
    | assumption

end Sys2Proof.Machine
end

