-- ==== Sys2Proof/Laws/KeepsTickOps.lean ====
section
/-! SUPPORT. The operations of Machine/TickOps.lean keep the queue, the programmed OTP words and the canonical memories. -/

set_option linter.unusedTactic false
set_option linter.unreachableTactic false
set_option linter.unusedVariables false

namespace Sys2Proof.Machine

theorem State.swapLanes_keeps {s0 : State} (s : State) (d : Die) (h_s : Keeps s0 s) : Keeps s0 (State.swapLanes s d) := by
  unfold State.swapLanes
  repeat' first
    | with_reducible assumption
    | intro _
    | with_reducible apply Keeps.ite
    | with_reducible apply State.free_keeps
    | with_reducible apply State.latchStanding_keeps
    | with_reducible apply State.updDie_keeps
    | with_reducible apply Keeps.foldl
    | fail_if_no_progress (with_reducible apply Keeps.mk; (try dsimp only); with_reducible apply Keeps.parts)
    | split
    | dsimp only
    | assumption

theorem State.newRound_keeps {s0 : State} (s : State) (h_s : Keeps s0 s) : Keeps s0 (State.newRound s) := by
  unfold State.newRound
  repeat' first
    | with_reducible assumption
    | intro _
    | fail_if_no_progress (with_reducible apply Keeps.mk; (try dsimp only); with_reducible apply Keeps.parts)
    | dsimp only
    | assumption

theorem State.grantToken_keeps {s0 : State} (s : State) (h_s : Keeps s0 s) : Keeps s0 (State.grantToken s) := by
  unfold State.grantToken
  repeat' first
    | with_reducible assumption
    | with_reducible apply Keeps.ite
    | fail_if_no_progress (with_reducible apply Keeps.mk; (try dsimp only); with_reducible apply Keeps.parts)
    | split
    | dsimp only
    | assumption

theorem State.rotate_keeps {s0 : State} (s : State) (d : Die) (h_s : Keeps s0 s) : Keeps s0 (State.rotate s d) := by
  unfold State.rotate
  repeat' first
    | with_reducible assumption
    | intro _
    | with_reducible apply Keeps.ite
    | with_reducible apply State.free_keeps
    | with_reducible apply State.updDie_keeps
    | fail_if_no_progress (with_reducible apply Keeps.mk; (try dsimp only); with_reducible apply Keeps.parts)
    | split
    | dsimp only
    | assumption

theorem State.swapRoles_keeps {s0 : State} (s : State) (d : Die) (h_s : Keeps s0 s) : Keeps s0 (State.swapRoles s d) := by
  unfold State.swapRoles
  repeat' first
    | with_reducible assumption
    | intro _
    | with_reducible apply Keeps.foldl
    | fail_if_no_progress (with_reducible apply Keeps.mk; (try dsimp only); with_reducible apply Keeps.parts)
    | dsimp only
    | assumption

theorem State.granStart_keeps {s0 : State} (s : State) (d : Die) (n : Nat) (h_s : Keeps s0 s) : Keeps s0 (State.granStart s d n) := by
  unfold State.granStart
  repeat' first
    | with_reducible assumption
    | with_reducible apply Keeps.ite
    | fail_if_no_progress (with_reducible apply Keeps.mk; (try dsimp only); with_reducible apply Keeps.parts)
    | split
    | dsimp only
    | assumption

theorem State.stTick_keeps {s0 : State} (u : State) (d : Die) (h_u : Keeps s0 u) : Keeps s0 (State.stTick u d) := by
  unfold State.stTick
  repeat' first
    | with_reducible assumption
    | with_reducible apply Keeps.ite
    | with_reducible apply State.grantToken_keeps
    | with_reducible apply State.newRound_keeps
    | with_reducible apply State.rotate_keeps
    | with_reducible apply State.swapRoles_keeps
    | fail_if_no_progress (with_reducible apply Keeps.mk; (try dsimp only); with_reducible apply Keeps.parts)
    | split
    | dsimp only
    | assumption

theorem State.ptTick_keeps {s0 : State} (s : State) (n : Nat) (h_s : Keeps s0 s) : Keeps s0 (State.ptTick s n) := by
  unfold State.ptTick
  repeat' first
    | with_reducible assumption
    | with_reducible apply Keeps.ite
    | with_reducible apply State.bump_keeps
    | fail_if_no_progress (with_reducible apply Keeps.mk; (try dsimp only); with_reducible apply Keeps.parts)
    | split
    | dsimp only
    | assumption

theorem State.ptAgain_keeps {s0 : State} (s : State) (h_s : Keeps s0 s) : Keeps s0 (State.ptAgain s) := by
  unfold State.ptAgain
  repeat' first
    | with_reducible assumption
    | fail_if_no_progress (with_reducible apply Keeps.mk; (try dsimp only); with_reducible apply Keeps.parts)
    | dsimp only
    | assumption

end Sys2Proof.Machine
end

