-- ==== Sys2Proof/Laws/KeepsSpan.lean ====
section
/-! SUPPORT. The operations of Machine/Span.lean keep the queue, the programmed OTP words and the canonical memories. -/

set_option linter.unusedTactic false
set_option linter.unreachableTactic false
set_option linter.unusedVariables false

namespace Sys2Proof.Machine

theorem State.capOvr_keeps {s0 : State} (d : Die) (s : State) (n : Nat) (h_s : Keeps s0 s) : Keeps s0 (State.capOvr d s n) := by
  unfold State.capOvr
  repeat' first
    | with_reducible assumption
    | intro _
    | with_reducible apply Keeps.ite
    | with_reducible apply State.bump_keeps
    | with_reducible apply State.setReg_keeps
    | with_reducible apply State.updDie_keeps
    | fail_if_no_progress (with_reducible apply Keeps.mk; (try dsimp only); with_reducible apply Keeps.parts)
    | split
    | dsimp only
    | assumption

theorem State.edgeWins_keeps {s0 : State} (d : Die) (s : State) (n : Nat) (h_s : Keeps s0 s) : Keeps s0 (State.edgeWins d s n) := by
  unfold State.edgeWins
  repeat' first
    | with_reducible assumption
    | intro _
    | with_reducible apply Keeps.ite
    | with_reducible apply State.bumpOnce_keeps
    | with_reducible apply State.setDie_keeps
    | fail_if_no_progress (with_reducible apply Keeps.mk; (try dsimp only); with_reducible apply Keeps.parts)
    | split
    | dsimp only
    | assumption

theorem State.readPairs_keeps {s0 : State} (s : State) (d : Die) (ns : List Nat) (h_s : Keeps s0 s) : Keeps s0 (State.readPairs s d ns) := by
  unfold State.readPairs
  repeat' first
    | with_reducible assumption
    | intro _
    | with_reducible apply State.capOvr_keeps
    | with_reducible apply State.edgeWins_keeps
    | with_reducible apply State.setDie_keeps
    | with_reducible apply Keeps.foldl
    | fail_if_no_progress (with_reducible apply Keeps.mk; (try dsimp only); with_reducible apply Keeps.parts)
    | dsimp only
    | assumption

theorem State.jrnFlush_keeps {s0 : State} (s : State) (d : Die) (h_s : Keeps s0 s) : Keeps s0 (State.jrnFlush s d) := by
  unfold State.jrnFlush
  repeat' first
    | with_reducible assumption
    | with_reducible apply Keeps.ite
    | with_reducible apply State.jrnStop_keeps
    | with_reducible apply State.setDie_keeps
    | fail_if_no_progress (with_reducible apply Keeps.mk; (try dsimp only); with_reducible apply Keeps.parts)
    | split
    | dsimp only
    | assumption

theorem doTick_keeps {s0 : State} (d : Die) (meas : Nat) (s : State) (h_s : Keeps s0 s) : Keeps s0 (doTick d meas s) := by
  unfold doTick
  repeat' first
    | with_reducible assumption
    | intro _
    | with_reducible apply Keeps.ite
    | with_reducible apply State.jrnFlush_keeps
    | with_reducible apply State.latch_keeps
    | with_reducible apply State.ptTick_keeps
    | with_reducible apply State.readPairs_keeps
    | with_reducible apply State.stTick_keeps
    | with_reducible apply State.swapLanes_keeps
    | with_reducible apply State.timerEdge_keeps
    | with_reducible apply State.updDie_keeps
    | fail_if_no_progress (with_reducible apply Keeps.mk; (try dsimp only); with_reducible apply Keeps.parts)
    | split
    | dsimp only
    | assumption

theorem State.missingImages_keeps {s0 : State} (s : State) (d : Die) (h_s : Keeps s0 s) : Keeps s0 (State.missingImages s d) := by
  unfold State.missingImages
  repeat' first
    | with_reducible assumption
    | intro _
    | with_reducible apply Keeps.ite
    | with_reducible apply State.latchReset_keeps
    | with_reducible apply State.updDie_keeps
    | exact fun _ h => h
    | with_reducible apply Keeps.foldl
    | fail_if_no_progress (with_reducible apply Keeps.mk; (try dsimp only); with_reducible apply Keeps.parts)
    | split
    | dsimp only
    | assumption

theorem State.axisCounts_keeps {s0 : State} (p : Pattern) (d : Die) (old : Tab PosHist) (s : State) (r : AxisRec) (h_s : Keeps s0 s) : Keeps s0 (State.axisCounts p d old s r) := by
  unfold State.axisCounts
  repeat' first
    | with_reducible assumption
    | intro _
    | with_reducible apply Keeps.ite
    | with_reducible apply State.setReg_keeps
    | fail_if_no_progress (with_reducible apply Keeps.mk; (try dsimp only); with_reducible apply Keeps.parts)
    | split
    | dsimp only
    | assumption

theorem State.streamCounts_keeps {s0 : State} (p : Pattern) (d : Die) (s : State) (x : ConnRec × Nat) (h_s : Keeps s0 s) : Keeps s0 (State.streamCounts p d s x) := by
  unfold State.streamCounts
  repeat' first
    | with_reducible assumption
    | intro _
    | with_reducible apply Keeps.ite
    | with_reducible apply State.bump_keeps
    | with_reducible apply Keeps.foldl
    | with_reducible apply Keeps.foldlSnd
    | split
    | dsimp only
    | assumption

theorem State.positions_keeps {s0 : State} (s : State) (d : Die) (p : Pattern) (h_s : Keeps s0 s) : Keeps s0 (State.positions s d p) := by
  unfold State.positions
  repeat' first
    | with_reducible assumption
    | intro _
    | with_reducible apply State.axisCounts_keeps
    | with_reducible apply State.streamCounts_keeps
    | with_reducible apply State.updDie_keeps
    | with_reducible apply Keeps.foldl
    | dsimp only
    | assumption

theorem doPhaseAEnd_keeps {s0 : State} (d : Die) (s : State) (h_s : Keeps s0 s) : Keeps s0 (doPhaseAEnd d s) := by
  unfold doPhaseAEnd
  repeat' first
    | with_reducible assumption
    | intro _
    | with_reducible apply Keeps.ite
    | with_reducible apply State.chanEnd_keeps
    | with_reducible apply State.missingImages_keeps
    | with_reducible apply State.pairAt_keeps
    | with_reducible apply State.positions_keeps
    | with_reducible apply State.startEval_keeps
    | with_reducible apply State.updDie_keeps
    | with_reducible apply Keeps.foldl
    | with_reducible apply Keeps.foldlSnd
    | fail_if_no_progress (with_reducible apply Keeps.mk; (try dsimp only); with_reducible apply Keeps.parts)
    | split
    | dsimp only
    | assumption

theorem doPhaseEEnd_keeps {s0 : State} (d : Die) (s : State) (h_s : Keeps s0 s) : Keeps s0 (doPhaseEEnd d s) := by
  unfold doPhaseEEnd
  repeat' first
    | with_reducible assumption
    | with_reducible apply Keeps.ite
    | with_reducible apply State.setDie_keeps
    | fail_if_no_progress (with_reducible apply Keeps.mk; (try dsimp only); with_reducible apply Keeps.parts)
    | split
    | dsimp only
    | assumption

end Sys2Proof.Machine
end

