-- ==== Sys2Proof/Laws/KeepsOdView.lean ====
section
/-! SUPPORT. The operations of Machine/OdView.lean keep the queue, the programmed OTP words and the canonical memories. -/

set_option linter.unusedTactic false
set_option linter.unreachableTactic false
set_option linter.unusedVariables false

namespace Sys2Proof.Machine

theorem State.updSeat_keeps {s0 : State} (s : State) (k : Nat) (f : Seat → Seat) (h_s : Keeps s0 s) : Keeps s0 (State.updSeat s k f) := by
  unfold State.updSeat
  repeat' first
    | with_reducible assumption
    | intro _
    | fail_if_no_progress (with_reducible apply Keeps.mk; (try dsimp only); with_reducible apply Keeps.parts)
    | dsimp only
    | assumption

end Sys2Proof.Machine
end

