-- ==== Sys2Proof/Laws/KeepsCommit.lean ====
section
/-! SUPPORT. The operations of Machine/Commit.lean keep the queue, the programmed OTP words and the canonical memories. -/

set_option linter.unusedTactic false
set_option linter.unreachableTactic false
set_option linter.unusedVariables false

namespace Sys2Proof.Machine

theorem State.addOnce_keeps {s0 : State} (s : State) (d : Die) (n idx sub : Nat) (h_s : Keeps s0 s) : Keeps s0 (State.addOnce s d n idx sub) := by
  unfold State.addOnce
  repeat' first
    | with_reducible assumption
    | with_reducible apply Keeps.ite
    | with_reducible apply State.setReg_keeps
    | split
    | dsimp only
    | assumption

theorem State.setOnce_keeps {s0 : State} (s : State) (d : Die) (idx sub v : Nat) (h_s : Keeps s0 s) : Keeps s0 (State.setOnce s d idx sub v) := by
  unfold State.setOnce
  repeat' first
    | with_reducible assumption
    | with_reducible apply Keeps.ite
    | with_reducible apply State.setReg_keeps
    | split
    | dsimp only
    | assumption

theorem State.commitEv_keeps {s0 : State} (p : Pattern) (d : Die) (s : State) (x : Nat × BEv) (h_s : Keeps s0 s) : Keeps s0 (State.commitEv p d s x) := by
  unfold State.commitEv
  repeat' first
    | with_reducible assumption
    | intro _
    | with_reducible apply Keeps.ite
    | with_reducible apply State.addOnce_keeps
    | with_reducible apply State.event_keeps
    | with_reducible apply State.setOnce_keeps
    | with_reducible apply State.updDie_keeps
    | exact fun _ h => h
    | fail_if_no_progress (with_reducible apply Keeps.mk; (try dsimp only); with_reducible apply Keeps.parts)
    | split
    | dsimp only
    | assumption

theorem State.zoneMove_keeps {s0 : State} (p : Pattern) (d : Die) (old new : Img) (s : State) (z : ZoneRec) (h_s : Keeps s0 s) : Keeps s0 (State.zoneMove p d old new s z) := by
  unfold State.zoneMove
  repeat' first
    | with_reducible assumption
    | with_reducible apply Keeps.ite
    | with_reducible apply State.event_keeps
    | fail_if_no_progress (with_reducible apply Keeps.mk; (try dsimp only); with_reducible apply Keeps.parts)
    | split
    | dsimp only
    | assumption

theorem State.reinDev_keeps {s0 : State} (tspan g : Nat) (ref : Member) (s : State) (x : (Follower × Member) × Nat) (h_s : Keeps s0 s) : Keeps s0 (State.reinDev tspan g ref s x) := by
  unfold State.reinDev
  repeat' first
    | with_reducible assumption
    | with_reducible apply Keeps.ite
    | with_reducible apply State.setReg_keeps
    | fail_if_no_progress (with_reducible apply Keeps.mk; (try dsimp only); with_reducible apply Keeps.parts)
    | split
    | dsimp only
    | assumption

theorem State.reinCommit_keeps {s0 : State} (p : Pattern) (d : Die) (e : EvalEnv) (m : Img) (s : State) (y : Inst × Nat) (h_s : Keeps s0 s) : Keeps s0 (State.reinCommit p d e m s y) := by
  unfold State.reinCommit
  repeat' first
    | with_reducible assumption
    | intro _
    | with_reducible apply Keeps.ite
    | with_reducible apply State.dcplChange_keeps
    | with_reducible apply State.reinDev_keeps
    | with_reducible apply State.setReg_keeps
    | with_reducible apply Keeps.foldl
    | with_reducible apply Keeps.foldlSnd
    | fail_if_no_progress (with_reducible apply Keeps.mk; (try dsimp only); with_reducible apply Keeps.parts)
    | split
    | dsimp only
    | assumption

theorem State.connCommit_keeps {s0 : State} (p : Pattern) (d : Die) (old new : Img) (s : State) (x : Inst × Nat) (h_s : Keeps s0 s) : Keeps s0 (State.connCommit p d old new s x) := by
  unfold State.connCommit
  repeat' first
    | with_reducible assumption
    | intro _
    | with_reducible apply Keeps.ite
    | with_reducible apply State.addOnce_keeps
    | with_reducible apply State.setDie_keeps
    | fail_if_no_progress (with_reducible apply Keeps.mk; (try dsimp only); with_reducible apply Keeps.parts)
    | split
    | dsimp only
    | assumption

theorem State.stdoutCommit_keeps {s0 : State} (p : Pattern) (d : Die) (e : EvalEnv) (s : State) (x : Inst × Nat) (h_s : Keeps s0 s) : Keeps s0 (State.stdoutCommit p d e s x) := by
  unfold State.stdoutCommit
  repeat' first
    | with_reducible assumption
    | intro _
    | with_reducible apply Keeps.ite
    | with_reducible apply State.setReg_keeps
    | with_reducible apply Keeps.foldl
    | fail_if_no_progress (with_reducible apply Keeps.mk; (try dsimp only); with_reducible apply Keeps.parts)
    | split
    | dsimp only
    | assumption

theorem State.unitEvents_keeps {s0 : State} (s : State) (d : Die) (l : List (Nat × Nat)) (kind : Nat) (h_s : Keeps s0 s) : Keeps s0 (State.unitEvents s d l kind) := by
  unfold State.unitEvents
  repeat' first
    | with_reducible assumption
    | intro _
    | with_reducible apply State.event_keeps
    | with_reducible apply Keeps.foldl
    | with_reducible apply Keeps.foldlSnd
    | dsimp only
    | assumption

theorem State.mirror_keeps {s0 : State} (s : State) (d : Die) (p : Pattern) (h_s : Keeps s0 s) : Keeps s0 (State.mirror s d p) := by
  unfold State.mirror
  repeat' first
    | with_reducible assumption
    | intro _
    | with_reducible apply Keeps.ite
    | with_reducible apply State.addOnce_keeps
    | with_reducible apply State.setDie_keeps
    | with_reducible apply State.unitEvents_keeps
    | fail_if_no_progress (with_reducible apply Keeps.mk; (try dsimp only); with_reducible apply Keeps.parts)
    | split
    | dsimp only
    | assumption

theorem State.subCommit_keeps {s0 : State} (s : State) (h_s : Keeps s0 s) : Keeps s0 (State.subCommit s) := by
  unfold State.subCommit
  repeat' first
    | with_reducible assumption
    | intro _
    | with_reducible apply Keeps.ite
    | fail_if_no_progress (with_reducible apply Keeps.mk; (try dsimp only); with_reducible apply Keeps.parts)
    | split
    | dsimp only
    | assumption

theorem State.escalC2_keeps {s0 : State} (s : State) (d : Die) (p : Pattern) (old new : Img) (h_s : Keeps s0 s) : Keeps s0 (State.escalC2 s d p old new) := by
  unfold State.escalC2
  repeat' first
    | with_reducible assumption
    | intro _
    | with_reducible apply Keeps.ite
    | with_reducible apply State.addOnce_keeps
    | with_reducible apply Keeps.foldl
    | with_reducible apply Keeps.foldlSnd
    | fail_if_no_progress (with_reducible apply Keeps.mk; (try dsimp only); with_reducible apply Keeps.parts)
    | split
    | dsimp only
    | assumption

theorem State.handOver_keeps {s0 : State} (s : State) (d : Die) (p : Pattern) (h_s : Keeps s0 s) : Keeps s0 (State.handOver s d p) := by
  unfold State.handOver
  repeat' first
    | with_reducible assumption
    | with_reducible apply Keeps.ite
    | with_reducible apply State.free_keeps
    | fail_if_no_progress (with_reducible apply Keeps.mk; (try dsimp only); with_reducible apply Keeps.parts)
    | split
    | dsimp only
    | assumption

theorem State.commitDie_keeps {s0 : State} (s : State) (d : Die) (p : Pattern) (locks : List Nat) (h_s : Keeps s0 s) : Keeps s0 (State.commitDie s d p locks) := by
  unfold State.commitDie
  repeat' first
    | with_reducible assumption
    | intro _
    | with_reducible apply Keeps.ite
    | with_reducible apply State.addOnce_keeps
    | with_reducible apply State.commitEv_keeps
    | with_reducible apply State.connCommit_keeps
    | with_reducible apply State.escalC2_keeps
    | with_reducible apply State.handOver_keeps
    | with_reducible apply State.jrnVars_keeps
    | with_reducible apply State.laReboot_keeps
    | with_reducible apply State.mirror_keeps
    | with_reducible apply State.reinCommit_keeps
    | with_reducible apply State.releaseAll_keeps
    | with_reducible apply State.sendCmds_keeps
    | with_reducible apply State.stdoutCommit_keeps
    | with_reducible apply State.subCommit_keeps
    | with_reducible apply State.updDie_keeps
    | with_reducible apply State.zoneMove_keeps
    | with_reducible apply Keeps.foldl
    | fail_if_no_progress (with_reducible apply Keeps.mk; (try dsimp only); with_reducible apply Keeps.parts)
    | split
    | dsimp only
    | assumption

theorem State.agreed_keeps {s0 : State} (s : State) (d : Die) (h_s : Keeps s0 s) : Keeps s0 (State.agreed s d) := by
  unfold State.agreed
  repeat' first
    | with_reducible assumption
    | with_reducible apply Keeps.ite
    | with_reducible apply State.readmAgree_keeps
    | with_reducible apply State.updAgree_keeps
    | split
    | dsimp only
    | assumption

theorem State.lockCom_keeps {s0 : State} (s : State) (d : Die) (p : Pattern) (locks : List Nat) (h_s : Keeps s0 s) : Keeps s0 (State.lockCom s d p locks) := by
  unfold State.lockCom
  repeat' first
    | with_reducible assumption
    | intro _
    | with_reducible apply Keeps.ite
    | with_reducible apply State.escalC2_keeps
    | with_reducible apply State.setDie_keeps
    | with_reducible apply State.zoneMove_keeps
    | with_reducible apply Keeps.foldl
    | fail_if_no_progress (with_reducible apply Keeps.mk; (try dsimp only); with_reducible apply Keeps.parts)
    | split
    | dsimp only
    | assumption

theorem State.resend_keeps {s0 : State} (s : State) (d : Die) (p : Pattern) (h_s : Keeps s0 s) : Keeps s0 (State.resend s d p) := by
  unfold State.resend
  repeat' first
    | with_reducible assumption
    | intro _
    | with_reducible apply Keeps.ite
    | with_reducible apply State.sendCmds_keeps
    | with_reducible apply State.updDie_keeps
    | with_reducible apply Keeps.foldl
    | fail_if_no_progress (with_reducible apply Keeps.mk; (try dsimp only); with_reducible apply Keeps.parts)
    | split
    | dsimp only
    | assumption

theorem State.overrun_keeps {s0 : State} (s : State) (d : Die) (p : Pattern) (due : List Nat) (h_s : Keeps s0 s) : Keeps s0 (State.overrun s d p due) := by
  unfold State.overrun
  repeat' first
    | with_reducible assumption
    | intro _
    | with_reducible apply Keeps.ite
    | with_reducible apply State.bump_keeps
    | with_reducible apply State.latch_keeps
    | with_reducible apply State.latch3_keeps
    | with_reducible apply State.lockCom_keeps
    | with_reducible apply State.notAgreed_keeps
    | with_reducible apply State.resend_keeps
    | with_reducible apply State.setDie_keeps
    | fail_if_no_progress (with_reducible apply Keeps.mk; (try dsimp only); with_reducible apply Keeps.parts)
    | split
    | dsimp only
    | assumption

theorem State.replayFail_keeps {s0 : State} (s : State) (d : Die) (h_s : Keeps s0 s) : Keeps s0 (State.replayFail s d) := by
  unfold State.replayFail
  repeat' first
    | with_reducible assumption
    | with_reducible apply State.latch_keeps
    | with_reducible apply State.notAgreed_keeps
    | dsimp only
    | assumption

theorem State.disagree_keeps {s0 : State} (s : State) (d : Die) (p : Pattern) (due : List Nat) (h_s : Keeps s0 s) : Keeps s0 (State.disagree s d p due) := by
  unfold State.disagree
  repeat' first
    | with_reducible assumption
    | intro _
    | with_reducible apply Keeps.ite
    | with_reducible apply State.addOnce_keeps
    | with_reducible apply State.lockCom_keeps
    | with_reducible apply State.replayFail_keeps
    | with_reducible apply State.resend_keeps
    | with_reducible apply State.updDie_keeps
    | fail_if_no_progress (with_reducible apply Keeps.mk; (try dsimp only); with_reducible apply Keeps.parts)
    | split
    | dsimp only
    | assumption

theorem State.judge_keeps {s0 : State} (s : State) (d : Die) (p : Pattern) (due : List Nat) (h_s : Keeps s0 s) : Keeps s0 (State.judge s d p due) := by
  unfold State.judge
  repeat' first
    | with_reducible assumption
    | intro _
    | with_reducible apply Keeps.ite
    | with_reducible apply State.agreed_keeps
    | with_reducible apply State.commitDie_keeps
    | with_reducible apply State.disagree_keeps
    | with_reducible apply State.lockCom_keeps
    | with_reducible apply State.overrun_keeps
    | with_reducible apply State.rejoinCommit_keeps
    | with_reducible apply State.updDie_keeps
    | fail_if_no_progress (with_reducible apply Keeps.mk; (try dsimp only); with_reducible apply Keeps.parts)
    | split
    | dsimp only
    | assumption

theorem State.idleCommit_keeps {s0 : State} (s : State) (d : Die) (due : List Nat) (h_s : Keeps s0 s) : Keeps s0 (State.idleCommit s d due) := by
  unfold State.idleCommit
  repeat' first
    | with_reducible assumption
    | intro _
    | with_reducible apply Keeps.ite
    | with_reducible apply State.lockCom_keeps
    | with_reducible apply State.sendCmds_keeps
    | fail_if_no_progress (with_reducible apply Keeps.mk; (try dsimp only); with_reducible apply Keeps.parts)
    | split
    | dsimp only
    | assumption

theorem doCommitPoint_keeps {s0 : State} (d : Die) (s : State) (h_s : Keeps s0 s) : Keeps s0 (doCommitPoint d s) := by
  unfold doCommitPoint
  repeat' first
    | with_reducible assumption
    | intro _
    | with_reducible apply Keeps.ite
    | with_reducible apply State.granStart_keeps
    | with_reducible apply State.idleCommit_keeps
    | with_reducible apply State.judge_keeps
    | with_reducible apply State.updDie_keeps
    | fail_if_no_progress (with_reducible apply Keeps.mk; (try dsimp only); with_reducible apply Keeps.parts)
    | split
    | dsimp only
    | assumption

theorem State.lateCommit_keeps {s0 : State} (s : State) (d : Die) (p : Pattern) (h_s : Keeps s0 s) : Keeps s0 (State.lateCommit s d p) := by
  unfold State.lateCommit
  repeat' first
    | with_reducible assumption
    | intro _
    | with_reducible apply Keeps.ite
    | with_reducible apply State.addOnce_keeps
    | with_reducible apply State.agreed_keeps
    | with_reducible apply State.commitDie_keeps
    | with_reducible apply State.event_keeps
    | with_reducible apply State.sendReady_keeps
    | with_reducible apply State.setReg_keeps
    | with_reducible apply State.updDie_keeps
    | fail_if_no_progress (with_reducible apply Keeps.mk; (try dsimp only); with_reducible apply Keeps.parts)
    | split
    | dsimp only
    | assumption

theorem State.settleReplay_keeps {s0 : State} (s : State) (d : Die) (h_s : Keeps s0 s) : Keeps s0 (State.settleReplay s d) := by
  unfold State.settleReplay
  repeat' first
    | with_reducible assumption
    | intro _
    | with_reducible apply Keeps.ite
    | with_reducible apply State.lateCommit_keeps
    | with_reducible apply State.replayFail_keeps
    | with_reducible apply State.updDie_keeps
    | fail_if_no_progress (with_reducible apply Keeps.mk; (try dsimp only); with_reducible apply Keeps.parts)
    | split
    | dsimp only
    | assumption

end Sys2Proof.Machine
end

