-- ==== Sys2Proof/Laws/KeepsClockOps.lean ====
section
/-! SUPPORT. The operations of Machine/ClockOps.lean keep the queue, the programmed OTP words and the canonical memories. -/

set_option linter.unusedTactic false
set_option linter.unreachableTactic false
set_option linter.unusedVariables false

namespace Sys2Proof.Machine

theorem State.regate_keeps {s0 : State} (s : State) (h_s : Keeps s0 s) : Keeps s0 (State.regate s) := by
  unfold State.regate
  repeat' first
    | with_reducible assumption
    | with_reducible apply Keeps.ite
    | fail_if_no_progress (with_reducible apply Keeps.mk; (try dsimp only); with_reducible apply Keeps.parts)
    | split
    | dsimp only
    | assumption

theorem doCrystalFirstValidCycle_keeps {s0 : State} (d : Die) (us : Nat) (s : State) (h_s : Keeps s0 s) : Keeps s0 (doCrystalFirstValidCycle d us s) := by
  unfold doCrystalFirstValidCycle
  repeat' first
    | with_reducible assumption
    | with_reducible apply Keeps.ite
    | with_reducible apply State.setReg_keeps
    | fail_if_no_progress (with_reducible apply Keeps.mk; (try dsimp only); with_reducible apply Keeps.parts)
    | split
    | dsimp only
    | assumption

theorem doCrystalRelease_keeps {s0 : State} (d : Die) (s : State) (h_s : Keeps s0 s) : Keeps s0 (doCrystalRelease d s) := by
  unfold doCrystalRelease
  repeat' first
    | with_reducible assumption
    | with_reducible apply Keeps.ite
    | fail_if_no_progress (with_reducible apply Keeps.mk; (try dsimp only); with_reducible apply Keeps.parts)
    | split
    | dsimp only
    | assumption

theorem doPllLock_keeps {s0 : State} (p : Pll) (s : State) (h_s : Keeps s0 s) : Keeps s0 (doPllLock p s) := by
  unfold doPllLock
  repeat' first
    | with_reducible assumption
    | intro _
    | with_reducible apply Keeps.ite
    | fail_if_no_progress (with_reducible apply Keeps.mk; (try dsimp only); with_reducible apply Keeps.parts)
    | split
    | dsimp only
    | assumption

theorem State.resetMac_keeps {s0 : State} (s : State) (d : Die) (h_s : Keeps s0 s) : Keeps s0 (State.resetMac s d) := by
  unfold State.resetMac
  repeat' first
    | with_reducible assumption
    | intro _
    | with_reducible apply State.resetBlock_keeps
    | with_reducible apply State.updDie_keeps
    | fail_if_no_progress (with_reducible apply Keeps.mk; (try dsimp only); with_reducible apply Keeps.parts)
    | dsimp only
    | assumption

theorem doStartRulePass_keeps {s0 : State} (x : Src) (s : State) (h_s : Keeps s0 s) : Keeps s0 (doStartRulePass x s) := by
  unfold doStartRulePass
  repeat' first
    | with_reducible assumption
    | with_reducible apply Keeps.ite
    | with_reducible apply State.causeOff_keeps
    | with_reducible apply State.fenceDie_keeps
    | with_reducible apply State.resetMac_keeps
    | with_reducible apply State.updDie_keeps
    | fail_if_no_progress (with_reducible apply Keeps.mk; (try dsimp only); with_reducible apply Keeps.parts)
    | split
    | dsimp only
    | assumption

theorem doStartAttemptFail_keeps {s0 : State} (x : Src) (s : State) (h_s : Keeps s0 s) : Keeps s0 (doStartAttemptFail x s) := by
  unfold doStartAttemptFail
  repeat' first
    | with_reducible assumption
    | with_reducible apply Keeps.ite
    | with_reducible apply State.latchStanding_keeps
    | fail_if_no_progress (with_reducible apply Keeps.mk; (try dsimp only); with_reducible apply Keeps.parts)
    | split
    | dsimp only
    | assumption

theorem doOscRestart_keeps {s0 : State} (x : Src) (s : State) (h_s : Keeps s0 s) : Keeps s0 (doOscRestart x s) := by
  unfold doOscRestart
  repeat' first
    | with_reducible assumption
    | with_reducible apply Keeps.ite
    | with_reducible apply State.bump_keeps
    | fail_if_no_progress (with_reducible apply Keeps.mk; (try dsimp only); with_reducible apply Keeps.parts)
    | split
    | dsimp only
    | assumption

theorem State.stitchReset_keeps {s0 : State} (s : State) (h_s : Keeps s0 s) : Keeps s0 (State.stitchReset s) := by
  unfold State.stitchReset
  repeat' first
    | with_reducible assumption
    | intro _
    | with_reducible apply Keeps.ite
    | with_reducible apply State.updDie_keeps
    | fail_if_no_progress (with_reducible apply Keeps.mk; (try dsimp only); with_reducible apply Keeps.parts)
    | split
    | dsimp only
    | assumption

theorem State.clockDown_keeps {s0 : State} (s : State) (n : Nat) (d : Die) (h_s : Keeps s0 s) : Keeps s0 (State.clockDown s n d) := by
  unfold State.clockDown
  repeat' first
    | with_reducible assumption
    | intro _
    | with_reducible apply Keeps.ite
    | with_reducible apply State.fenceM_keeps
    | with_reducible apply State.stitchReset_keeps
    | fail_if_no_progress (with_reducible apply Keeps.mk; (try dsimp only); with_reducible apply Keeps.parts)
    | split
    | dsimp only
    | assumption

theorem State.clockFailed_keeps {s0 : State} (s : State) (n : Nat) (d : Die) (h_s : Keeps s0 s) : Keeps s0 (State.clockFailed s n d) := by
  unfold State.clockFailed
  repeat' first
    | with_reducible assumption
    | with_reducible apply Keeps.ite
    | with_reducible apply State.causeOn_keeps
    | with_reducible apply State.clockDown_keeps
    | with_reducible apply State.latch_keeps
    | with_reducible apply State.tripNow_keeps
    | with_reducible apply State.updDie_keeps
    | fail_if_no_progress (with_reducible apply Keeps.mk; (try dsimp only); with_reducible apply Keeps.parts)
    | split
    | dsimp only
    | assumption

theorem doClockFail_keeps {s0 : State} (dom : Fin 18) (d : Die) (s : State) (h_s : Keeps s0 s) : Keeps s0 (doClockFail dom d s) := by
  unfold doClockFail
  repeat' first
    | with_reducible assumption
    | with_reducible apply Keeps.ite
    | with_reducible apply State.clockFailed_keeps
    | split
    | dsimp only
    | assumption

theorem doClockSwitchComplete_keeps {s0 : State} (x : ClkSw) (forced : Bool) (s : State) (h_s : Keeps s0 s) : Keeps s0 (doClockSwitchComplete x forced s) := by
  unfold doClockSwitchComplete
  repeat' first
    | with_reducible assumption
    | with_reducible apply Keeps.ite
    | fail_if_no_progress (with_reducible apply Keeps.mk; (try dsimp only); with_reducible apply Keeps.parts)
    | split
    | dsimp only
    | assumption

theorem doPllUnlock_keeps {s0 : State} (p : Pll) (s : State) (h_s : Keeps s0 s) : Keeps s0 (doPllUnlock p s) := by
  unfold doPllUnlock
  repeat' first
    | with_reducible assumption
    | intro _
    | with_reducible apply Keeps.ite
    | with_reducible apply State.clockFailed_keeps
    | with_reducible apply State.jrnStop_keeps
    | fail_if_no_progress (with_reducible apply Keeps.mk; (try dsimp only); with_reducible apply Keeps.parts)
    | split
    | dsimp only
    | assumption

end Sys2Proof.Machine
end

