-- ==== Sys2Proof/Laws/KeepsCrcOps.lean ====
section
/-! SUPPORT. The operations of Machine/CrcOps.lean keep the queue, the programmed OTP words and the canonical memories. -/

set_option linter.unusedTactic false
set_option linter.unreachableTactic false
set_option linter.unusedVariables false

namespace Sys2Proof.Machine

theorem State.crcLease_keeps {s0 : State} (s : State) (k : Nat) (h_s : Keeps s0 s) : Keeps s0 (State.crcLease s k).1 := by
  unfold State.crcLease
  repeat' first
    | with_reducible assumption
    | with_reducible apply Keeps.ite
    | with_reducible apply State.leaseAsk_keeps
    | split
    | dsimp only
    | assumption

theorem State.crcNext_keeps {s0 : State} (s : State) (k : Nat) (h_s : Keeps s0 s) : Keeps s0 (State.crcNext s k) := by
  unfold State.crcNext
  repeat' first
    | with_reducible assumption
    | with_reducible apply Keeps.ite
    | with_reducible apply State.crcHalt_keeps
    | with_reducible apply State.crcLease_keeps
    | fail_if_no_progress (with_reducible apply Keeps.mk; (try dsimp only); with_reducible apply Keeps.parts)
    | split
    | dsimp only
    | assumption

theorem State.leaseStart_keeps {s0 : State} (s : State) (res : Nat) (h_s : Keeps s0 s) : Keeps s0 (State.leaseStart s res) := by
  unfold State.leaseStart
  repeat' first
    | with_reducible assumption
    | with_reducible apply Keeps.ite
    | with_reducible apply State.crcNext_keeps
    | fail_if_no_progress (with_reducible apply Keeps.mk; (try dsimp only); with_reducible apply Keeps.parts)
    | split
    | dsimp only
    | assumption

theorem State.crcRest_keeps {s0 : State} (s : State) (k : Nat) (h_s : Keeps s0 s) : Keeps s0 (State.crcRest s k) := by
  unfold State.crcRest
  repeat' first
    | with_reducible assumption
    | with_reducible apply Keeps.ite
    | with_reducible apply State.leaseEnd_keeps
    | with_reducible apply State.leaseStart_keeps
    | split
    | dsimp only
    | assumption

theorem State.crcKick_keeps {s0 : State} (s : State) (n : Nat) (h_s : Keeps s0 s) : Keeps s0 (State.crcKick s n) := by
  unfold State.crcKick
  repeat' first
    | with_reducible assumption
    | intro _
    | with_reducible apply Keeps.ite
    | with_reducible apply State.crcNext_keeps
    | with_reducible apply Keeps.foldl
    | split
    | dsimp only
    | assumption

theorem State.crcFeedDesc_keeps {s0 : State} (s : State) (k : Nat) (b : List Byte) (h_s : Keeps s0 s) : Keeps s0 (State.crcFeedDesc s k b) := by
  unfold State.crcFeedDesc
  repeat' first
    | with_reducible assumption
    | with_reducible apply Keeps.ite
    | with_reducible apply State.free_keeps
    | with_reducible apply State.setReg_keeps
    | fail_if_no_progress (with_reducible apply Keeps.mk; (try dsimp only); with_reducible apply Keeps.parts)
    | split
    | dsimp only
    | assumption

end Sys2Proof.Machine
end

