-- ==== Sys2Proof/Laws/KeepsModes.lean ====
section
/-! SUPPORT. The operations of Machine/Modes.lean keep the queue, the programmed OTP words and the canonical memories. -/

set_option linter.unusedTactic false
set_option linter.unreachableTactic false
set_option linter.unusedVariables false

namespace Sys2Proof.Machine

theorem State.openConf_keeps {s0 : State} (s : State) (on : Bool) (h_s : Keeps s0 s) : Keeps s0 (State.openConf s on) := by
  unfold State.openConf
  repeat' first
    | with_reducible assumption
    | intro _
    | with_reducible apply Keeps.foldl
    | fail_if_no_progress (with_reducible apply Keeps.mk; (try dsimp only); with_reducible apply Keeps.parts)
    | dsimp only
    | assumption

theorem State.pwrDomains_keeps {s0 : State} (s : State) (h_s : Keeps s0 s) : Keeps s0 (State.pwrDomains s) := by
  unfold State.pwrDomains
  repeat' first
    | with_reducible assumption
    | with_reducible apply Keeps.ite
    | fail_if_no_progress (with_reducible apply Keeps.mk; (try dsimp only); with_reducible apply Keeps.parts)
    | split
    | dsimp only
    | assumption

theorem State.toMode_keeps {s0 : State} (s : State) (m : Mode) (h_s : Keeps s0 s) : Keeps s0 (State.toMode s m) := by
  unfold State.toMode
  repeat' first
    | with_reducible assumption
    | with_reducible apply Keeps.ite
    | with_reducible apply State.event2_keeps
    | with_reducible apply State.openConf_keeps
    | with_reducible apply State.pwrDomains_keeps
    | with_reducible apply State.regate_keeps
    | with_reducible apply State.setReg_keeps
    | fail_if_no_progress (with_reducible apply Keeps.mk; (try dsimp only); with_reducible apply Keeps.parts)
    | split
    | dsimp only
    | assumption

theorem State.startDie_keeps {s0 : State} (s : State) (p : Pattern) (locked : Nat → Bool) (d : Die) (h_s : Keeps s0 s) : Keeps s0 (State.startDie s p locked d) := by
  unfold State.startDie
  repeat' first
    | with_reducible assumption
    | intro _
    | with_reducible apply Keeps.ite
    | with_reducible apply State.setDie_keeps
    | with_reducible apply Keeps.foldl
    | with_reducible apply Keeps.foldlSnd
    | fail_if_no_progress (with_reducible apply Keeps.mk; (try dsimp only); with_reducible apply Keeps.parts)
    | split
    | dsimp only
    | assumption

theorem State.startBoth_keeps {s0 : State} (s : State) (p : Pattern) (locked : Nat → Bool) (h_s : Keeps s0 s) : Keeps s0 (State.startBoth s p locked) := by
  unfold State.startBoth
  repeat' first
    | with_reducible assumption
    | intro _
    | with_reducible apply Keeps.ite
    | with_reducible apply State.ringsFor_keeps
    | with_reducible apply State.startDie_keeps
    | fail_if_no_progress (with_reducible apply Keeps.mk; (try dsimp only); with_reducible apply Keeps.parts)
    | split
    | dsimp only
    | assumption

theorem State.lockoutAll_keeps {s0 : State} (s : State) (h_s : Keeps s0 s) : Keeps s0 (State.lockoutAll s) := by
  unfold State.lockoutAll
  repeat' first
    | with_reducible assumption
    | intro _
    | with_reducible apply Keeps.foldl
    | fail_if_no_progress (with_reducible apply Keeps.mk; (try dsimp only); with_reducible apply Keeps.parts)
    | dsimp only
    | assumption

theorem State.lockBoth_keeps {s0 : State} (s : State) (h_s : Keeps s0 s) : Keeps s0 (State.lockBoth s) := by
  unfold State.lockBoth
  repeat' first
    | with_reducible assumption
    | with_reducible apply State.lockCom_keeps
    | fail_if_no_progress (with_reducible apply Keeps.mk; (try dsimp only); with_reducible apply Keeps.parts)
    | split
    | dsimp only
    | assumption

theorem State.enterSafe_keeps {s0 : State} (s : State) (h_s : Keeps s0 s) : Keeps s0 (State.enterSafe s) := by
  unfold State.enterSafe
  repeat' first
    | with_reducible assumption
    | intro _
    | with_reducible apply Keeps.ite
    | with_reducible apply State.lockBoth_keeps
    | with_reducible apply State.lockoutAll_keeps
    | with_reducible apply State.startBoth_keeps
    | with_reducible apply State.toMode_keeps
    | fail_if_no_progress (with_reducible apply Keeps.mk; (try dsimp only); with_reducible apply Keeps.parts)
    | split
    | dsimp only
    | assumption

theorem State.writeMode_keeps {s0 : State} (d : Die) (n mode : Nat) (s : State) (h_s : Keeps s0 s) : Keeps s0 (State.writeMode d n mode s) := by
  unfold State.writeMode
  repeat' first
    | with_reducible assumption
    | intro _
    | with_reducible apply Keeps.ite
    | with_reducible apply State.setReg_keeps
    | with_reducible apply State.updF_keeps
    | fail_if_no_progress (with_reducible apply Keeps.mk; (try dsimp only); with_reducible apply Keeps.parts)
    | split
    | dsimp only
    | assumption

theorem State.fCause_keeps {s0 : State} (s : State) (f i : Nat) (on : Bool) (h_s : Keeps s0 s) : Keeps s0 (State.fCause s f i on) := by
  unfold State.fCause
  repeat' first
    | with_reducible assumption
    | intro _
    | with_reducible apply Keeps.ite
    | with_reducible apply State.causeOff_keeps
    | with_reducible apply State.latchStanding_keeps
    | with_reducible apply State.updF_keeps
    | fail_if_no_progress (with_reducible apply Keeps.mk; (try dsimp only); with_reducible apply Keeps.parts)
    | split
    | dsimp only
    | assumption

theorem State.modesWritten_keeps {s0 : State} (s : State) (f : Nat) (h_s : Keeps s0 s) : Keeps s0 (State.modesWritten s f) := by
  unfold State.modesWritten
  repeat' first
    | with_reducible assumption
    | with_reducible apply Keeps.ite
    | with_reducible apply State.fCause_keeps
    | split
    | dsimp only
    | assumption

theorem State.writeModes_keeps {s0 : State} (s : State) (p : Pattern) (h_s : Keeps s0 s) : Keeps s0 (State.writeModes s p) := by
  unfold State.writeModes
  repeat' first
    | with_reducible assumption
    | intro _
    | with_reducible apply Keeps.ite
    | with_reducible apply State.modesWritten_keeps
    | with_reducible apply State.writeMode_keeps
    | with_reducible apply Keeps.foldl
    | split
    | dsimp only
    | assumption

theorem Pattern.noModes_keeps {s0 : State} (p : Option Pattern) (s : State) (h_s : Keeps s0 s) : Keeps s0 (Pattern.noModes p s) := by
  unfold Pattern.noModes
  repeat' first
    | with_reducible assumption
    | with_reducible apply State.writeModes_keeps
    | fail_if_no_progress (with_reducible apply Keeps.mk; (try dsimp only); with_reducible apply Keeps.parts)
    | split
    | dsimp only
    | assumption

theorem State.rewrite_keeps {s0 : State} (s : State) (code : Nat) (h_s : Keeps s0 s) : Keeps s0 (State.rewrite s code) := by
  unfold State.rewrite
  repeat' first
    | with_reducible assumption
    | with_reducible apply Keeps.ite
    | with_reducible apply Pattern.noModes_keeps
    | split
    | dsimp only
    | assumption

theorem State.modeReq_keeps {s0 : State} (s : State) (seat code : Nat) (h_s : Keeps s0 s) : Keeps s0 (State.modeReq s seat code) := by
  unfold State.modeReq
  repeat' first
    | with_reducible assumption
    | intro _
    | with_reducible apply State.write_keeps
    | fail_if_no_progress (with_reducible apply Keeps.mk; (try dsimp only); with_reducible apply Keeps.parts)
    | dsimp only
    | assumption

theorem doModeReqConfigure_keeps {s0 : State} (seat : Fin 8) (s : State) (h_s : Keeps s0 s) : Keeps s0 (doModeReqConfigure seat s) := by
  unfold doModeReqConfigure
  repeat' first
    | with_reducible assumption
    | with_reducible apply State.modeReq_keeps
    | dsimp only
    | assumption

theorem doModeReqRun_keeps {s0 : State} (seat : Fin 8) (s : State) (h_s : Keeps s0 s) : Keeps s0 (doModeReqRun seat s) := by
  unfold doModeReqRun
  repeat' first
    | with_reducible assumption
    | with_reducible apply State.modeReq_keeps
    | dsimp only
    | assumption

theorem doModeReqSafe_keeps {s0 : State} (seat : Fin 8) (s : State) (h_s : Keeps s0 s) : Keeps s0 (doModeReqSafe seat s) := by
  unfold doModeReqSafe
  repeat' first
    | with_reducible assumption
    | with_reducible apply State.modeReq_keeps
    | dsimp only
    | assumption

theorem doModeReqService_keeps {s0 : State} (seat : Fin 8) (s : State) (h_s : Keeps s0 s) : Keeps s0 (doModeReqService seat s) := by
  unfold doModeReqService
  repeat' first
    | with_reducible assumption
    | with_reducible apply State.modeReq_keeps
    | dsimp only
    | assumption

theorem State.reqFail_keeps {s0 : State} (s : State) (why : Nat) (h_s : Keeps s0 s) : Keeps s0 (State.reqFail s why) := by
  unfold State.reqFail
  repeat' first
    | with_reducible assumption
    | with_reducible apply State.setReg_keeps
    | fail_if_no_progress (with_reducible apply Keeps.mk; (try dsimp only); with_reducible apply Keeps.parts)
    | dsimp only
    | assumption

theorem State.regrid_keeps {s0 : State} (s : State) (d : Die) (same : Bool) (h_s : Keeps s0 s) : Keeps s0 (State.regrid s d same) := by
  unfold State.regrid
  repeat' first
    | with_reducible assumption
    | intro _
    | with_reducible apply Keeps.ite
    | with_reducible apply State.updDie_keeps
    | fail_if_no_progress (with_reducible apply Keeps.mk; (try dsimp only); with_reducible apply Keeps.parts)
    | split
    | dsimp only
    | assumption

theorem State.takeRun_keeps {s0 : State} (s : State) (service : Bool) (h_s : Keeps s0 s) : Keeps s0 (State.takeRun s service) := by
  unfold State.takeRun
  repeat' first
    | with_reducible assumption
    | with_reducible apply State.regrid_keeps
    | with_reducible apply State.setReg_keeps
    | fail_if_no_progress (with_reducible apply Keeps.mk; (try dsimp only); with_reducible apply Keeps.parts)
    | dsimp only
    | assumption

theorem doModeRequestTake_keeps {s0 : State} (s : State) (h_s : Keeps s0 s) : Keeps s0 (doModeRequestTake s) := by
  unfold doModeRequestTake
  repeat' first
    | with_reducible assumption
    | with_reducible apply Keeps.ite
    | with_reducible apply State.enterSafe_keeps
    | with_reducible apply State.reqFail_keeps
    | with_reducible apply State.rewrite_keeps
    | with_reducible apply State.setReg_keeps
    | with_reducible apply State.takeRun_keeps
    | with_reducible apply State.toMode_keeps
    | fail_if_no_progress (with_reducible apply Keeps.mk; (try dsimp only); with_reducible apply Keeps.parts)
    | split
    | dsimp only
    | assumption

theorem State.activate_keeps {s0 : State} (s : State) (h_s : Keeps s0 s) : Keeps s0 (State.activate s) := by
  unfold State.activate
  repeat' first
    | with_reducible assumption
    | with_reducible apply Keeps.ite
    | fail_if_no_progress (with_reducible apply Keeps.mk; (try dsimp only); with_reducible apply Keeps.parts)
    | split
    | dsimp only
    | assumption

theorem State.firstRun_keeps {s0 : State} (s : State) (h_s : Keeps s0 s) : Keeps s0 (State.firstRun s) := by
  unfold State.firstRun
  repeat' first
    | with_reducible assumption
    | intro _
    | with_reducible apply Keeps.ite
    | with_reducible apply State.otpWant_keeps
    | fail_if_no_progress (with_reducible apply Keeps.mk; (try dsimp only); with_reducible apply Keeps.parts)
    | split
    | dsimp only
    | assumption

theorem State.clearRun_keeps {s0 : State} (s : State) (h_s : Keeps s0 s) : Keeps s0 (State.clearRun s) := by
  unfold State.clearRun
  repeat' first
    | with_reducible assumption
    | intro _
    | fail_if_no_progress (with_reducible apply Keeps.mk; (try dsimp only); with_reducible apply Keeps.parts)
    | dsimp only
    | assumption

theorem doRunEntry_keeps {s0 : State} (s : State) (h_s : Keeps s0 s) : Keeps s0 (doRunEntry s) := by
  unfold doRunEntry
  repeat' first
    | with_reducible assumption
    | intro _
    | with_reducible apply Keeps.ite
    | with_reducible apply State.activate_keeps
    | with_reducible apply State.clearRun_keeps
    | with_reducible apply State.firstRun_keeps
    | with_reducible apply State.startBoth_keeps
    | with_reducible apply State.toMode_keeps
    | fail_if_no_progress (with_reducible apply Keeps.mk; (try dsimp only); with_reducible apply Keeps.parts)
    | split
    | dsimp only
    | assumption

theorem doRunRequestLapse_keeps {s0 : State} (s : State) (h_s : Keeps s0 s) : Keeps s0 (doRunRequestLapse s) := by
  unfold doRunRequestLapse
  repeat' first
    | with_reducible assumption
    | with_reducible apply Keeps.ite
    | with_reducible apply State.enterSafe_keeps
    | with_reducible apply State.setReg_keeps
    | fail_if_no_progress (with_reducible apply Keeps.mk; (try dsimp only); with_reducible apply Keeps.parts)
    | split
    | dsimp only
    | assumption

theorem doSafeEntryAfterStop_keeps {s0 : State} (s : State) (h_s : Keeps s0 s) : Keeps s0 (doSafeEntryAfterStop s) := by
  unfold doSafeEntryAfterStop
  repeat' first
    | with_reducible assumption
    | with_reducible apply Keeps.ite
    | with_reducible apply State.enterSafe_keeps
    | fail_if_no_progress (with_reducible apply Keeps.mk; (try dsimp only); with_reducible apply Keeps.parts)
    | split
    | dsimp only
    | assumption

theorem doSafeEntry_keeps {s0 : State} (s : State) (h_s : Keeps s0 s) : Keeps s0 (doSafeEntry s) := by
  unfold doSafeEntry
  repeat' first
    | with_reducible assumption
    | with_reducible apply Keeps.ite
    | with_reducible apply State.enterSafe_keeps
    | fail_if_no_progress (with_reducible apply Keeps.mk; (try dsimp only); with_reducible apply Keeps.parts)
    | split
    | dsimp only
    | assumption

theorem State.pwrReq_keeps {s0 : State} (s : State) (seat : Nat) (x : Pwr) (h_s : Keeps s0 s) : Keeps s0 (State.pwrReq s seat x) := by
  unfold State.pwrReq
  repeat' first
    | with_reducible assumption
    | intro _
    | with_reducible apply State.write_keeps
    | fail_if_no_progress (with_reducible apply Keeps.mk; (try dsimp only); with_reducible apply Keeps.parts)
    | dsimp only
    | assumption

theorem doPwrReqActive_keeps {s0 : State} (seat : Fin 8) (s : State) (h_s : Keeps s0 s) : Keeps s0 (doPwrReqActive seat s) := by
  unfold doPwrReqActive
  repeat' first
    | with_reducible assumption
    | with_reducible apply State.pwrReq_keeps
    | dsimp only
    | assumption

theorem doPwrReqSleep_keeps {s0 : State} (seat : Fin 8) (s : State) (h_s : Keeps s0 s) : Keeps s0 (doPwrReqSleep seat s) := by
  unfold doPwrReqSleep
  repeat' first
    | with_reducible assumption
    | with_reducible apply State.pwrReq_keeps
    | dsimp only
    | assumption

theorem doPwrReqDeepSleep_keeps {s0 : State} (seat : Fin 8) (s : State) (h_s : Keeps s0 s) : Keeps s0 (doPwrReqDeepSleep seat s) := by
  unfold doPwrReqDeepSleep
  repeat' first
    | with_reducible assumption
    | with_reducible apply State.pwrReq_keeps
    | dsimp only
    | assumption

theorem doPowerStateChange_keeps {s0 : State} (s : State) (h_s : Keeps s0 s) : Keeps s0 (doPowerStateChange s) := by
  unfold doPowerStateChange
  repeat' first
    | with_reducible assumption
    | with_reducible apply Keeps.ite
    | with_reducible apply State.jrnStop_keeps
    | with_reducible apply State.pwrDomains_keeps
    | with_reducible apply State.pwrReq_keeps
    | with_reducible apply State.regate_keeps
    | fail_if_no_progress (with_reducible apply Keeps.mk; (try dsimp only); with_reducible apply Keeps.parts)
    | split
    | dsimp only
    | assumption

end Sys2Proof.Machine
end

