-- ==== Sys2Proof/Laws/KeepsPower.lean ====
section
/-! SUPPORT. The operations of Machine/Power.lean keep the queue, the programmed OTP words and the canonical memories. -/

set_option linter.unusedTactic false
set_option linter.unreachableTactic false
set_option linter.unusedVariables false

namespace Sys2Proof.Machine

theorem State.railCause_keeps {s0 : State} (s : State) (h_s : Keeps s0 s) : Keeps s0 (State.railCause s) := by
  unfold State.railCause
  repeat' first
    | with_reducible assumption
    | with_reducible apply Keeps.ite
    | with_reducible apply State.causeOff_keeps
    | with_reducible apply State.causeOn_keeps
    | split
    | dsimp only
    | assumption

/-- A loss of power in the middle of a program operation leaves the other words. -/
theorem KeepsParts.cold {s0 : State} {q : List Instr} {r : Rings} {fa fb : PatFlash} {up : Mem} {wa wb : FwFlash} {o : Otp}
    (h : KeepsParts s0 q o.words r fa fb up wa wb) : KeepsParts s0 q o.cold.words r fa fb up wa wb := by
  unfold Otp.cold
  dsimp only
  split
  · exact h.put _ _
  · exact h

theorem Update.ok_cold {u : Update} (h : u.Ok) : u.cold.Ok := by
  unfold Update.cold
  dsimp only
  split
  · exact ⟨rfl, h.2⟩
  · exact ⟨rfl, h.2⟩

theorem State.shelf_keeps {s0 : State} (s : State) (h_s : Keeps s0 s) : Keeps s0 (State.shelf s) :=
  ((h_s.parts.cold).rings (r' := { Rings.init with log := s.pat.newerLog }) fun _ => ⟨rfl, rfl⟩).updMem
    (up' := s.upd.cold.data) (wa' := s.upd.cold.fwA) (wb' := s.upd.cold.fwB) (Update.ok_cold (u := s.upd))

theorem State.beginStep_keeps {s0 : State} (s : State) (k : Nat) (h_s : Keeps s0 s) : Keeps s0 (State.beginStep s k) := by
  unfold State.beginStep
  repeat' first
    | with_reducible assumption
    | with_reducible apply Keeps.ite
    | with_reducible apply State.bump_keeps
    | with_reducible apply State.regate_keeps
    | with_reducible apply State.updDie_keeps
    | fail_if_no_progress (with_reducible apply Keeps.mk; (try dsimp only); with_reducible apply Keeps.parts)
    | split
    | dsimp only
    | assumption

theorem State.startBoot_keeps {s0 : State} (s : State) (strapMv : Nat) (h_s : Keeps s0 s) : Keeps s0 (State.startBoot s strapMv) := by
  unfold State.startBoot
  repeat' first
    | with_reducible assumption
    | with_reducible apply State.beginStep_keeps
    | with_reducible apply State.regate_keeps
    | with_reducible apply State.setReg_keeps
    | fail_if_no_progress (with_reducible apply Keeps.mk; (try dsimp only); with_reducible apply Keeps.parts)
    | dsimp only
    | assumption

theorem doVinRise_keeps {s0 : State} (mv strapMv : Nat) (s : State) (h_s : Keeps s0 s) : Keeps s0 (doVinRise mv strapMv s) := by
  unfold doVinRise
  repeat' first
    | with_reducible assumption
    | with_reducible apply Keeps.ite
    | with_reducible apply State.setReg_keeps
    | with_reducible apply State.shelf_keeps
    | with_reducible apply State.startBoot_keeps
    | fail_if_no_progress (with_reducible apply Keeps.mk; (try dsimp only); with_reducible apply Keeps.parts)
    | split
    | dsimp only
    | assumption

theorem State.bootCount_keeps {s0 : State} (s : State) (h_s : Keeps s0 s) : Keeps s0 (State.bootCount s) := by
  unfold State.bootCount
  repeat' first
    | with_reducible assumption
    | with_reducible apply Keeps.ite
    | with_reducible apply State.latch_keeps
    | with_reducible apply State.setReg_keeps
    | fail_if_no_progress (with_reducible apply Keeps.mk; (try dsimp only); with_reducible apply Keeps.parts)
    | split
    | dsimp only
    | assumption

theorem State.lcResume_keeps {s0 : State} (s : State) (h_s : Keeps s0 s) : Keeps s0 (State.lcResume s) := by
  unfold State.lcResume
  repeat' first
    | with_reducible assumption
    | with_reducible apply State.lcAct_keeps
    | with_reducible apply State.otpWant_keeps
    | fail_if_no_progress (with_reducible apply Keeps.mk; (try dsimp only); with_reducible apply Keeps.parts)
    | split
    | dsimp only
    | assumption

theorem State.loadRepairs_keeps {s0 : State} (s : State) (h_s : Keeps s0 s) : Keeps s0 (State.loadRepairs s) := by
  unfold State.loadRepairs
  repeat' first
    | with_reducible assumption
    | intro _
    | with_reducible apply Keeps.ite
    | with_reducible apply State.updDie_keeps
    | with_reducible apply Keeps.foldl
    | fail_if_no_progress (with_reducible apply Keeps.mk; (try dsimp only); with_reducible apply Keeps.parts)
    | split
    | dsimp only
    | assumption

theorem State.authClose_keeps {s0 : State} (s : State) (v : Nat) (h_s : Keeps s0 s) : Keeps s0 (State.authClose s v) := by
  unfold State.authClose
  repeat' first
    | with_reducible assumption
    | fail_if_no_progress (with_reducible apply Keeps.mk; (try dsimp only); with_reducible apply Keeps.parts)
    | dsimp only
    | assumption

theorem State.newEra_keeps {s0 : State} (s : State) (era keyset : Nat) (install : Bool) (h_s : Keeps s0 s) : Keeps s0 (State.newEra s era keyset install) := by
  unfold State.newEra
  repeat' first
    | with_reducible assumption
    | with_reducible apply Keeps.ite
    | with_reducible apply State.authClose_keeps
    | fail_if_no_progress (with_reducible apply Keeps.mk; (try dsimp only); with_reducible apply Keeps.parts)
    | split
    | dsimp only
    | assumption

theorem State.bootEra_keeps {s0 : State} (s : State) (h_s : Keeps s0 s) : Keeps s0 (State.bootEra s) := by
  unfold State.bootEra
  repeat' first
    | with_reducible assumption
    | with_reducible apply Keeps.ite
    | with_reducible apply State.authClose_keeps
    | with_reducible apply State.newEra_keeps
    | fail_if_no_progress (with_reducible apply Keeps.mk; (try dsimp only); with_reducible apply Keeps.parts)
    | split
    | dsimp only
    | assumption

theorem State.bootJournal_keeps {s0 : State} (s : State) (d : Die) (h_s : Keeps s0 s) : Keeps s0 (State.bootJournal s d) := by
  unfold State.bootJournal
  repeat' first
    | with_reducible assumption
    | with_reducible apply Keeps.ite
    | with_reducible apply State.jrnRec_keeps
    | fail_if_no_progress (with_reducible apply Keeps.mk; (try dsimp only); with_reducible apply Keeps.parts)
    | split
    | dsimp only
    | assumption

theorem State.bootPattern_keeps {s0 : State} (s : State) (h_s : Keeps s0 s) : Keeps s0 (State.bootPattern s) := by
  unfold State.bootPattern
  repeat' first
    | with_reducible assumption
    | intro _
    | with_reducible apply Keeps.ite
    | with_reducible apply State.lcLoad_keeps
    | fail_if_no_progress (with_reducible apply Keeps.mk; (try dsimp only); with_reducible apply Keeps.parts)
    | split
    | dsimp only
    | assumption

theorem State.untrip_keeps {s0 : State} (s : State) (h_s : Keeps s0 s) : Keeps s0 (State.untrip s) := by
  unfold State.untrip
  repeat' first
    | with_reducible assumption
    | with_reducible apply State.driveTrips_keeps
    | fail_if_no_progress (with_reducible apply Keeps.mk; (try dsimp only); with_reducible apply Keeps.parts)
    | dsimp only
    | assumption

theorem State.bootEnd_keeps {s0 : State} (s : State) (h_s : Keeps s0 s) : Keeps s0 (State.bootEnd s) := by
  unfold State.bootEnd
  repeat' first
    | with_reducible assumption
    | with_reducible apply Keeps.ite
    | with_reducible apply State.enterSafe_keeps
    | with_reducible apply State.setReg_keeps
    | with_reducible apply State.takeRun_keeps
    | with_reducible apply State.toMode_keeps
    | with_reducible apply State.untrip_keeps
    | fail_if_no_progress (with_reducible apply Keeps.mk; (try dsimp only); with_reducible apply Keeps.parts)
    | split
    | dsimp only
    | assumption

theorem State.fieldSupply_keeps {s0 : State} (s : State) (f : Nat) (h_s : Keeps s0 s) : Keeps s0 (State.fieldSupply s f) := by
  unfold State.fieldSupply
  repeat' first
    | with_reducible assumption
    | with_reducible apply State.free_keeps
    | with_reducible apply State.setReg_keeps
    | dsimp only
    | assumption

theorem State.endStep_keeps {s0 : State} (s : State) (k : Nat) (h_s : Keeps s0 s) : Keeps s0 (State.endStep s k) := by
  unfold State.endStep
  repeat' first
    | with_reducible assumption
    | intro _
    | with_reducible apply Keeps.ite
    | with_reducible apply Pattern.noModes_keeps
    | with_reducible apply State.bootCount_keeps
    | with_reducible apply State.bootEnd_keeps
    | with_reducible apply State.bootJournal_keeps
    | with_reducible apply State.driveTrips_keeps
    | with_reducible apply State.fieldSupply_keeps
    | with_reducible apply State.loadRepairs_keeps
    | with_reducible apply State.openConf_keeps
    | with_reducible apply State.updDie_keeps
    | with_reducible apply Keeps.foldl
    | fail_if_no_progress (with_reducible apply Keeps.mk; (try dsimp only); with_reducible apply Keeps.parts)
    | split
    | dsimp only
    | assumption
    | (with_reducible apply Keeps.mk; (try dsimp only); refine KeepsParts.sameMem (Keeps.parts ?_) rfl rfl)

theorem doBootStepComplete_keeps {s0 : State} (s : State) (h_s : Keeps s0 s) : Keeps s0 (doBootStepComplete s) := by
  unfold doBootStepComplete
  repeat' first
    | with_reducible assumption
    | with_reducible apply Keeps.ite
    | with_reducible apply State.beginStep_keeps
    | with_reducible apply State.bootEra_keeps
    | with_reducible apply State.bootPattern_keeps
    | with_reducible apply State.endStep_keeps
    | with_reducible apply State.lcResume_keeps
    | fail_if_no_progress (with_reducible apply Keeps.mk; (try dsimp only); with_reducible apply Keeps.parts)
    | split
    | dsimp only
    | assumption

theorem State.unboot_keeps {s0 : State} (s : State) (held : Bool) (h_s : Keeps s0 s) : Keeps s0 (State.unboot s held) := by
  unfold State.unboot
  repeat' first
    | with_reducible assumption
    | intro _
    | with_reducible apply Keeps.ite
    | fail_if_no_progress (with_reducible apply Keeps.mk; (try dsimp only); with_reducible apply Keeps.parts)
    | split
    | dsimp only
    | assumption

theorem doBootStepTimeout_keeps {s0 : State} (s : State) (h_s : Keeps s0 s) : Keeps s0 (doBootStepTimeout s) := by
  unfold doBootStepTimeout
  repeat' first
    | with_reducible assumption
    | with_reducible apply Keeps.ite
    | with_reducible apply State.latch_keeps
    | with_reducible apply State.railCause_keeps
    | with_reducible apply State.setReg_keeps
    | with_reducible apply State.unboot_keeps
    | fail_if_no_progress (with_reducible apply Keeps.mk; (try dsimp only); with_reducible apply Keeps.parts)
    | split
    | dsimp only
    | assumption

theorem doBootRetry_keeps {s0 : State} (s : State) (h_s : Keeps s0 s) : Keeps s0 (doBootRetry s) := by
  unfold doBootRetry
  repeat' first
    | with_reducible assumption
    | with_reducible apply Keeps.ite
    | with_reducible apply State.beginStep_keeps
    | fail_if_no_progress (with_reducible apply Keeps.mk; (try dsimp only); with_reducible apply Keeps.parts)
    | split
    | dsimp only
    | assumption

theorem State.vinOff_keeps {s0 : State} (s : State) (h_s : Keeps s0 s) : Keeps s0 (State.vinOff s) := by
  unfold State.vinOff
  repeat' first
    | with_reducible assumption
    | with_reducible apply State.latchStanding_keeps
    | with_reducible apply State.revert_keeps
    | with_reducible apply State.tripNow_keeps
    | fail_if_no_progress (with_reducible apply Keeps.mk; (try dsimp only); with_reducible apply Keeps.parts)
    | dsimp only
    | assumption

theorem doResetNLow_keeps {s0 : State} (s : State) (h_s : Keeps s0 s) : Keeps s0 (doResetNLow s) := by
  unfold doResetNLow
  repeat' first
    | with_reducible assumption
    | with_reducible apply Keeps.ite
    | with_reducible apply State.shelf_keeps
    | with_reducible apply State.vinOff_keeps
    | fail_if_no_progress (with_reducible apply Keeps.mk; (try dsimp only); with_reducible apply Keeps.parts)
    | split
    | dsimp only
    | assumption

theorem doResetNRelease_keeps {s0 : State} (s : State) (h_s : Keeps s0 s) : Keeps s0 (doResetNRelease s) := by
  unfold doResetNRelease
  repeat' first
    | with_reducible assumption
    | with_reducible apply Keeps.ite
    | with_reducible apply State.shelf_keeps
    | with_reducible apply State.startBoot_keeps
    | fail_if_no_progress (with_reducible apply Keeps.mk; (try dsimp only); with_reducible apply Keeps.parts)
    | split
    | dsimp only
    | assumption

theorem State.pfStart_keeps {s0 : State} (s : State) (h_s : Keeps s0 s) : Keeps s0 (State.pfStart s) := by
  unfold State.pfStart
  repeat' first
    | with_reducible assumption
    | with_reducible apply Keeps.ite
    | fail_if_no_progress (with_reducible apply Keeps.mk; (try dsimp only); with_reducible apply Keeps.parts)
    | split
    | dsimp only
    | assumption

theorem doPfwLatch_keeps {s0 : State} (mv : Nat) (s : State) (h_s : Keeps s0 s) : Keeps s0 (doPfwLatch mv s) := by
  unfold doPfwLatch
  repeat' first
    | with_reducible assumption
    | with_reducible apply Keeps.ite
    | with_reducible apply State.bump_keeps
    | with_reducible apply State.latchStanding_keeps
    | with_reducible apply State.pfStart_keeps
    | with_reducible apply State.setReg_keeps
    | with_reducible apply State.shelf_keeps
    | fail_if_no_progress (with_reducible apply Keeps.mk; (try dsimp only); with_reducible apply Keeps.parts)
    | split
    | dsimp only
    | assumption

theorem doPowerFailRecordDone_keeps {s0 : State} (d : Die) (s : State) (h_s : Keeps s0 s) : Keeps s0 (doPowerFailRecordDone d s) := by
  unfold doPowerFailRecordDone
  repeat' first
    | with_reducible assumption
    | fail_if_no_progress (with_reducible apply Keeps.mk; (try dsimp only); with_reducible apply Keeps.parts)
    | split
    | dsimp only
    | assumption

theorem doPfwClear_keeps {s0 : State} (mv : Nat) (s : State) (h_s : Keeps s0 s) : Keeps s0 (doPfwClear mv s) := by
  unfold doPfwClear
  repeat' first
    | with_reducible assumption
    | with_reducible apply Keeps.ite
    | with_reducible apply State.causeOff_keeps
    | with_reducible apply State.otpNext_keeps
    | with_reducible apply State.setReg_keeps
    | fail_if_no_progress (with_reducible apply Keeps.mk; (try dsimp only); with_reducible apply Keeps.parts)
    | split
    | dsimp only
    | assumption

theorem doVinOff_keeps {s0 : State} (mv : Nat) (s : State) (h_s : Keeps s0 s) : Keeps s0 (doVinOff mv s) := by
  unfold doVinOff
  repeat' first
    | with_reducible assumption
    | with_reducible apply Keeps.ite
    | with_reducible apply State.setReg_keeps
    | with_reducible apply State.shelf_keeps
    | with_reducible apply State.vinOff_keeps
    | fail_if_no_progress (with_reducible apply Keeps.mk; (try dsimp only); with_reducible apply Keeps.parts)
    | split
    | dsimp only
    | assumption

theorem State.downStep_keeps {s0 : State} (s : State) (k : Nat) (h_s : Keeps s0 s) : Keeps s0 (State.downStep s k) := by
  unfold State.downStep
  repeat' first
    | with_reducible assumption
    | with_reducible apply Keeps.ite
    | with_reducible apply State.shelf_keeps
    | fail_if_no_progress (with_reducible apply Keeps.mk; (try dsimp only); with_reducible apply Keeps.parts)
    | split
    | dsimp only
    | assumption

theorem doPowerDownStart_keeps {s0 : State} (s : State) (h_s : Keeps s0 s) : Keeps s0 (doPowerDownStart s) := by
  unfold doPowerDownStart
  repeat' first
    | with_reducible assumption
    | with_reducible apply Keeps.ite
    | with_reducible apply State.downStep_keeps
    | with_reducible apply State.shelf_keeps
    | split
    | dsimp only
    | assumption

theorem doPowerDownStep_keeps {s0 : State} (s : State) (h_s : Keeps s0 s) : Keeps s0 (doPowerDownStep s) := by
  unfold doPowerDownStep
  repeat' first
    | with_reducible assumption
    | with_reducible apply Keeps.ite
    | with_reducible apply State.downStep_keeps
    | with_reducible apply State.shelf_keeps
    | split
    | dsimp only
    | assumption

theorem doRailExcursion_keeps {s0 : State} (r : Rail) (mv : Nat) (s : State) (h_s : Keeps s0 s) : Keeps s0 (doRailExcursion r mv s) := by
  unfold doRailExcursion
  repeat' first
    | with_reducible assumption
    | with_reducible apply Keeps.ite
    | with_reducible apply State.latch_keeps
    | with_reducible apply State.latchStanding_keeps
    | with_reducible apply State.railCause_keeps
    | with_reducible apply State.setReg_keeps
    | fail_if_no_progress (with_reducible apply Keeps.mk; (try dsimp only); with_reducible apply Keeps.parts)
    | split
    | dsimp only
    | assumption

theorem doRailReturn_keeps {s0 : State} (r : Rail) (mv : Nat) (s : State) (h_s : Keeps s0 s) : Keeps s0 (doRailReturn r mv s) := by
  unfold doRailReturn
  repeat' first
    | with_reducible assumption
    | with_reducible apply Keeps.ite
    | with_reducible apply State.causeOff_keeps
    | with_reducible apply State.railCause_keeps
    | with_reducible apply State.setReg_keeps
    | fail_if_no_progress (with_reducible apply Keeps.mk; (try dsimp only); with_reducible apply Keeps.parts)
    | split
    | dsimp only
    | assumption

end Sys2Proof.Machine
end

