-- ==== Sys2Proof/Laws/KeepsStitch.lean ====
section
/-! SUPPORT. The operations of Machine/Stitch.lean keep the queue, the programmed OTP words and the canonical memories. -/

set_option linter.unusedTactic false
set_option linter.unreachableTactic false
set_option linter.unusedVariables false

namespace Sys2Proof.Machine

theorem State.retrain_keeps {s0 : State} (s : State) (h_s : Keeps s0 s) : Keeps s0 (State.retrain s) := by
  unfold State.retrain
  repeat' first
    | with_reducible assumption
    | with_reducible apply Keeps.ite
    | with_reducible apply State.bump_keeps
    | with_reducible apply State.latch_keeps
    | with_reducible apply State.latch3_keeps
    | with_reducible apply State.stitchReset_keeps
    | split
    | dsimp only
    | assumption

theorem State.resendFrom_keeps {s0 : State} (s : State) (d : Die) (h_s : Keeps s0 s) : Keeps s0 (State.resendFrom s d) := by
  unfold State.resendFrom
  repeat' first
    | with_reducible assumption
    | intro _
    | with_reducible apply Keeps.ite
    | with_reducible apply State.retrain_keeps
    | with_reducible apply State.updDie_keeps
    | fail_if_no_progress (with_reducible apply Keeps.mk; (try dsimp only); with_reducible apply Keeps.parts)
    | split
    | dsimp only
    | assumption

theorem State.flitBad_keeps {s0 : State} (s : State) (d : Die) (h_s : Keeps s0 s) : Keeps s0 (State.flitBad s d) := by
  unfold State.flitBad
  repeat' first
    | with_reducible assumption
    | intro _
    | with_reducible apply State.bump_keeps
    | with_reducible apply State.resendFrom_keeps
    | with_reducible apply State.updDie_keeps
    | fail_if_no_progress (with_reducible apply Keeps.mk; (try dsimp only); with_reducible apply Keeps.parts)
    | dsimp only
    | assumption

theorem State.flit_keeps {s0 : State} (s : State) (d : Die) (h : FlitHdr) (r : FlitRec) (f : State → State) (h_s : Keeps s0 s) (k_f : ∀ t, Keeps s0 t → Keeps s0 (f t)) : Keeps s0 (State.flit s d h r f) := by
  unfold State.flit
  repeat' first
    | with_reducible assumption
    | intro _
    | with_reducible apply Keeps.ite
    | with_reducible apply State.flitBad_keeps
    | with_reducible apply State.updDie_keeps
    | apply k_f
    | fail_if_no_progress (with_reducible apply Keeps.mk; (try dsimp only); with_reducible apply Keeps.parts)
    | split
    | dsimp only
    | assumption

theorem doStitchFlitCrcError_keeps {s0 : State} (d : Die) (s : State) (h_s : Keeps s0 s) : Keeps s0 (doStitchFlitCrcError d s) := by
  unfold doStitchFlitCrcError
  repeat' first
    | with_reducible assumption
    | with_reducible apply Keeps.ite
    | with_reducible apply State.flitBad_keeps
    | split
    | dsimp only
    | assumption

theorem doStitchRetryTimeout_keeps {s0 : State} (d : Die) (s : State) (h_s : Keeps s0 s) : Keeps s0 (doStitchRetryTimeout d s) := by
  unfold doStitchRetryTimeout
  repeat' first
    | with_reducible assumption
    | with_reducible apply Keeps.ite
    | with_reducible apply State.resendFrom_keeps
    | with_reducible apply State.retrain_keeps
    | split
    | dsimp only
    | assumption

theorem doRetrainComplete_keeps {s0 : State} (s : State) (h_s : Keeps s0 s) : Keeps s0 (doRetrainComplete s) := by
  unfold doRetrainComplete
  repeat' first
    | with_reducible assumption
    | with_reducible apply Keeps.ite
    | with_reducible apply State.causeOff_keeps
    | with_reducible apply State.retrain_keeps
    | with_reducible apply State.updDie_keeps
    | fail_if_no_progress (with_reducible apply Keeps.mk; (try dsimp only); with_reducible apply Keeps.parts)
    | split
    | dsimp only
    | assumption

theorem doStitchLaneTrainFail_keeps {s0 : State} (d : Die) (lane : Fin 4) (s : State) (h_s : Keeps s0 s) : Keeps s0 (doStitchLaneTrainFail d lane s) := by
  unfold doStitchLaneTrainFail
  repeat' first
    | with_reducible assumption
    | intro _
    | with_reducible apply State.latchStanding_keeps
    | with_reducible apply State.updDie_keeps
    | fail_if_no_progress (with_reducible apply Keeps.mk; (try dsimp only); with_reducible apply Keeps.parts)
    | dsimp only
    | assumption

theorem State.waitTick_keeps {s0 : State} (s : State) (d : Die) (skew : Nat) (h_s : Keeps s0 s) : Keeps s0 (State.waitTick s d skew) := by
  unfold State.waitTick
  repeat' first
    | with_reducible assumption
    | with_reducible apply Keeps.ite
    | fail_if_no_progress (with_reducible apply Keeps.mk; (try dsimp only); with_reducible apply Keeps.parts)
    | split
    | dsimp only
    | assumption

theorem State.readmTick_keeps {s0 : State} (s : State) (d : Die) (skew : Nat) (h_s : Keeps s0 s) : Keeps s0 (State.readmTick s d skew) := by
  unfold State.readmTick
  repeat' first
    | with_reducible assumption
    | with_reducible apply Keeps.ite
    | fail_if_no_progress (with_reducible apply Keeps.mk; (try dsimp only); with_reducible apply Keeps.parts)
    | split
    | dsimp only
    | assumption

theorem doTickTimestampRx_keeps {s0 : State} (d : Die) (h : FlitHdr) (ts lastCommit : Nat) (s : State) (h_s : Keeps s0 s) : Keeps s0 (doTickTimestampRx d h ts lastCommit s) := by
  unfold doTickTimestampRx
  repeat' first
    | with_reducible assumption
    | intro _
    | with_reducible apply Keeps.ite
    | with_reducible apply State.flit_keeps
    | with_reducible apply State.latch_keeps
    | with_reducible apply State.readmTick_keeps
    | with_reducible apply State.setReg_keeps
    | with_reducible apply State.waitTick_keeps
    | split
    | dsimp only
    | assumption

theorem doInputSupervisionFlitRx_keeps {s0 : State} (d : Die) (h : FlitHdr) (tag states : Nat) (codes : List Nat) (s : State) (h_s : Keeps s0 s) : Keeps s0 (doInputSupervisionFlitRx d h tag states codes s) := by
  unfold doInputSupervisionFlitRx
  repeat' first
    | with_reducible assumption
    | intro _
    | with_reducible apply Keeps.ite
    | with_reducible apply State.flit_keeps
    | with_reducible apply State.setDie_keeps
    | with_reducible apply Keeps.foldl
    | fail_if_no_progress (with_reducible apply Keeps.mk; (try dsimp only); with_reducible apply Keeps.parts)
    | split
    | dsimp only
    | assumption

theorem doOutputSupervisionFlitRx_keeps {s0 : State} (d : Die) (h : FlitHdr) (fd : Fin 4) (codes : List Nat) (s : State) (h_s : Keeps s0 s) : Keeps s0 (doOutputSupervisionFlitRx d h fd codes s) := by
  unfold doOutputSupervisionFlitRx
  repeat' first
    | with_reducible assumption
    | intro _
    | with_reducible apply Keeps.ite
    | with_reducible apply State.flit_keeps
    | with_reducible apply State.setDie_keeps
    | with_reducible apply Keeps.foldl
    | fail_if_no_progress (with_reducible apply Keeps.mk; (try dsimp only); with_reducible apply Keeps.parts)
    | split
    | dsimp only
    | assumption

theorem State.staleRec_keeps {s0 : State} (s : State) (d : Die) (r : CmpFlit) (h_s : Keeps s0 s) : Keeps s0 (State.staleRec s d r) := by
  unfold State.staleRec
  repeat' first
    | with_reducible assumption
    | intro _
    | with_reducible apply Keeps.ite
    | with_reducible apply State.bump_keeps
    | with_reducible apply State.updDie_keeps
    | fail_if_no_progress (with_reducible apply Keeps.mk; (try dsimp only); with_reducible apply Keeps.parts)
    | split
    | dsimp only
    | assumption

theorem doCompareRecordRx_keeps {s0 : State} (d : Die) (h : FlitHdr) (r : CmpFlit) (s : State) (h_s : Keeps s0 s) : Keeps s0 (doCompareRecordRx d h r s) := by
  unfold doCompareRecordRx
  repeat' first
    | with_reducible assumption
    | intro _
    | with_reducible apply Keeps.ite
    | with_reducible apply State.countCompares_keeps
    | with_reducible apply State.flit_keeps
    | with_reducible apply State.ready_keeps
    | with_reducible apply State.setDie_keeps
    | with_reducible apply State.setReg_keeps
    | with_reducible apply State.staleRec_keeps
    | fail_if_no_progress (with_reducible apply Keeps.mk; (try dsimp only); with_reducible apply Keeps.parts)
    | split
    | dsimp only
    | assumption

theorem doReadyRx_keeps {s0 : State} (d : Die) (h : FlitHdr) (s : State) (h_s : Keeps s0 s) : Keeps s0 (doReadyRx d h s) := by
  unfold doReadyRx
  repeat' first
    | with_reducible assumption
    | intro _
    | with_reducible apply Keeps.ite
    | with_reducible apply State.flit_keeps
    | with_reducible apply State.lateCommit_keeps
    | with_reducible apply State.updDie_keeps
    | fail_if_no_progress (with_reducible apply Keeps.mk; (try dsimp only); with_reducible apply Keeps.parts)
    | split
    | dsimp only
    | assumption

theorem State.localise_keeps {s0 : State} (s : State) (d : Die) (p : Pattern) (bytes : List Byte) (h_s : Keeps s0 s) : Keeps s0 (State.localise s d p bytes) := by
  unfold State.localise
  repeat' first
    | with_reducible assumption
    | intro _
    | with_reducible apply Keeps.ite
    | with_reducible apply State.advance_keeps
    | with_reducible apply State.free_keeps
    | with_reducible apply State.setDie_keeps
    | with_reducible apply State.setOnce_keeps
    | with_reducible apply State.settleReplay_keeps
    | fail_if_no_progress (with_reducible apply Keeps.mk; (try dsimp only); with_reducible apply Keeps.parts)
    | split
    | dsimp only
    | assumption

theorem doLocalisationRecordRx_keeps {s0 : State} (d : Die) (h : FlitHdr) (index : Nat) (bytes : List Byte) (s : State) (h_s : Keeps s0 s) : Keeps s0 (doLocalisationRecordRx d h index bytes s) := by
  unfold doLocalisationRecordRx
  repeat' first
    | with_reducible assumption
    | intro _
    | with_reducible apply Keeps.ite
    | with_reducible apply State.bump_keeps
    | with_reducible apply State.flit_keeps
    | with_reducible apply State.localise_keeps
    | with_reducible apply State.setDie_keeps
    | fail_if_no_progress (with_reducible apply Keeps.mk; (try dsimp only); with_reducible apply Keeps.parts)
    | split
    | dsimp only
    | assumption

theorem doReplayRecordRx_keeps {s0 : State} (d : Die) (h : FlitHdr) (r : CmpFlit) (s : State) (h_s : Keeps s0 s) : Keeps s0 (doReplayRecordRx d h r s) := by
  unfold doReplayRecordRx
  repeat' first
    | with_reducible assumption
    | intro _
    | with_reducible apply Keeps.ite
    | with_reducible apply State.countCompares_keeps
    | with_reducible apply State.flit_keeps
    | with_reducible apply State.setDie_keeps
    | with_reducible apply State.settleReplay_keeps
    | with_reducible apply State.staleRec_keeps
    | fail_if_no_progress (with_reducible apply Keeps.mk; (try dsimp only); with_reducible apply Keeps.parts)
    | split
    | dsimp only
    | assumption

theorem doJobComplete_keeps {s0 : State} (d : Die) (lane : Fin 17) (s : State) (h_s : Keeps s0 s) : Keeps s0 (doJobComplete d lane s) := by
  unfold doJobComplete
  repeat' first
    | with_reducible assumption
    | with_reducible apply Keeps.ite
    | with_reducible apply State.advance_keeps
    | with_reducible apply State.free_keeps
    | with_reducible apply State.laneFail_keeps
    | with_reducible apply State.setDie_keeps
    | with_reducible apply State.settleReplay_keeps
    | fail_if_no_progress (with_reducible apply Keeps.mk; (try dsimp only); with_reducible apply Keeps.parts)
    | split
    | dsimp only
    | assumption

theorem doLaneError_keeps {s0 : State} (d : Die) (lane : Fin 17) (s : State) (h_s : Keeps s0 s) : Keeps s0 (doLaneError d lane s) := by
  unfold doLaneError
  repeat' first
    | with_reducible assumption
    | with_reducible apply Keeps.ite
    | with_reducible apply State.laneFail_keeps
    | fail_if_no_progress (with_reducible apply Keeps.mk; (try dsimp only); with_reducible apply Keeps.parts)
    | split
    | dsimp only
    | assumption

theorem doLateCommitLimit_keeps {s0 : State} (d : Die) (s : State) (h_s : Keeps s0 s) : Keeps s0 (doLateCommitLimit d s) := by
  unfold doLateCommitLimit
  repeat' first
    | with_reducible assumption
    | intro _
    | with_reducible apply Keeps.ite
    | with_reducible apply State.free_keeps
    | with_reducible apply State.latch_keeps
    | with_reducible apply State.notAgreed_keeps
    | with_reducible apply State.setDie_keeps
    | fail_if_no_progress (with_reducible apply Keeps.mk; (try dsimp only); with_reducible apply Keeps.parts)
    | split
    | dsimp only
    | assumption

theorem doPairingRecordRx_keeps {s0 : State} (d : Die) (h : FlitHdr) (r : PairRec) (s : State) (h_s : Keeps s0 s) : Keeps s0 (doPairingRecordRx d h r s) := by
  unfold doPairingRecordRx
  repeat' first
    | with_reducible assumption
    | intro _
    | with_reducible apply Keeps.ite
    | with_reducible apply State.flit_keeps
    | with_reducible apply State.setDie_keeps
    | fail_if_no_progress (with_reducible apply Keeps.mk; (try dsimp only); with_reducible apply Keeps.parts)
    | split
    | dsimp only
    | assumption

theorem doPositionRecordRx_keeps {s0 : State} (d : Die) (h : FlitHdr) (first : Nat) (recs : List PosRec) (s : State) (h_s : Keeps s0 s) : Keeps s0 (doPositionRecordRx d h first recs s) := by
  unfold doPositionRecordRx
  repeat' first
    | with_reducible assumption
    | intro _
    | with_reducible apply Keeps.ite
    | with_reducible apply State.flit_keeps
    | with_reducible apply State.setDie_keeps
    | with_reducible apply Keeps.foldl
    | with_reducible apply Keeps.foldlSnd
    | fail_if_no_progress (with_reducible apply Keeps.mk; (try dsimp only); with_reducible apply Keeps.parts)
    | split
    | dsimp only
    | assumption

end Sys2Proof.Machine
end

