-- ==== Sys2Proof/Laws/KeepsTiming.lean ====
section
/-! SUPPORT. The operations of Machine/Timing.lean keep the queue, the programmed OTP words and the canonical memories. -/

set_option linter.unusedTactic false
set_option linter.unreachableTactic false
set_option linter.unusedVariables false

namespace Sys2Proof.Machine

theorem State.holdEnd_keeps {s0 : State} (s : State) (h_s : Keeps s0 s) : Keeps s0 (State.holdEnd s) := by
  unfold State.holdEnd
  repeat' first
    | with_reducible assumption
    | with_reducible apply Keeps.ite
    | with_reducible apply State.causeOff_keeps
    | with_reducible apply State.updDie_keeps
    | fail_if_no_progress (with_reducible apply Keeps.mk; (try dsimp only); with_reducible apply Keeps.parts)
    | split
    | dsimp only
    | assumption

theorem State.unlock_keeps {s0 : State} (s : State) (d : Die) (h_s : Keeps s0 s) : Keeps s0 (State.unlock s d) := by
  unfold State.unlock
  repeat' first
    | with_reducible assumption
    | intro _
    | with_reducible apply State.holdEnd_keeps
    | with_reducible apply State.updDie_keeps
    | fail_if_no_progress (with_reducible apply Keeps.mk; (try dsimp only); with_reducible apply Keeps.parts)
    | dsimp only
    | assumption

theorem State.lockTo_keeps {s0 : State} (s : State) (d : Die) (gm : Nat) (h_s : Keeps s0 s) : Keeps s0 (State.lockTo s d gm) := by
  unfold State.lockTo
  repeat' first
    | with_reducible assumption
    | intro _
    | with_reducible apply Keeps.ite
    | with_reducible apply State.holdEnd_keeps
    | with_reducible apply State.setDie_keeps
    | with_reducible apply State.updDie_keeps
    | fail_if_no_progress (with_reducible apply Keeps.mk; (try dsimp only); with_reducible apply Keeps.parts)
    | split
    | dsimp only
    | assumption

theorem doSyncRx_keeps {s0 : State} (d : Die) (port : Fin 2) (gmNs : Nat) (offset step : Int) (s : State) (h_s : Keeps s0 s) : Keeps s0 (doSyncRx d port gmNs offset step s) := by
  unfold doSyncRx
  repeat' first
    | with_reducible assumption
    | intro _
    | with_reducible apply Keeps.ite
    | with_reducible apply State.lockTo_keeps
    | with_reducible apply State.setDie_keeps
    | with_reducible apply State.unlock_keeps
    | fail_if_no_progress (with_reducible apply Keeps.mk; (try dsimp only); with_reducible apply Keeps.parts)
    | split
    | dsimp only
    | assumption

theorem doSyncReceiptTimeout_keeps {s0 : State} (d : Die) (s : State) (h_s : Keeps s0 s) : Keeps s0 (doSyncReceiptTimeout d s) := by
  unfold doSyncReceiptTimeout
  repeat' first
    | with_reducible assumption
    | with_reducible apply State.unlock_keeps
    | dsimp only
    | assumption

theorem doHoldoverExpire_keeps {s0 : State} (s : State) (h_s : Keeps s0 s) : Keeps s0 (doHoldoverExpire s) := by
  unfold doHoldoverExpire
  repeat' first
    | with_reducible assumption
    | with_reducible apply Keeps.ite
    | with_reducible apply State.latchStanding_keeps
    | with_reducible apply State.updDie_keeps
    | fail_if_no_progress (with_reducible apply Keeps.mk; (try dsimp only); with_reducible apply Keeps.parts)
    | split
    | dsimp only
    | assumption

theorem doPdelayRx_keeps {s0 : State} (d : Die) (port : Fin 2) (delay : Nat) (s : State) (h_s : Keeps s0 s) : Keeps s0 (doPdelayRx d port delay s) := by
  unfold doPdelayRx
  repeat' first
    | with_reducible assumption
    | intro _
    | with_reducible apply Keeps.ite
    | with_reducible apply State.updDie_keeps
    | fail_if_no_progress (with_reducible apply Keeps.mk; (try dsimp only); with_reducible apply Keeps.parts)
    | split
    | dsimp only
    | assumption

theorem doAnnounceRx_keeps {s0 : State} (d : Die) (port : Fin 2) (domain priority gmId : Nat) (s : State) (h_s : Keeps s0 s) : Keeps s0 (doAnnounceRx d port domain priority gmId s) := by
  unfold doAnnounceRx
  repeat' first
    | with_reducible assumption
    | intro _
    | with_reducible apply Keeps.ite
    | with_reducible apply State.updDie_keeps
    | fail_if_no_progress (with_reducible apply Keeps.mk; (try dsimp only); with_reducible apply Keeps.parts)
    | split
    | dsimp only
    | assumption

theorem doGateControlEntry_keeps {s0 : State} (d : Die) (port : Fin 2) (s : State) (h_s : Keeps s0 s) : Keeps s0 (doGateControlEntry d port s) := by
  unfold doGateControlEntry
  repeat' first
    | with_reducible assumption
    | intro _
    | with_reducible apply State.updDie_keeps
    | fail_if_no_progress (with_reducible apply Keeps.mk; (try dsimp only); with_reducible apply Keeps.parts)
    | dsimp only
    | assumption

end Sys2Proof.Machine
end

