-- ==== Sys2Proof/Laws/KeepsNets.lean ====
section
/-! SUPPORT. The operations of Machine/Nets.lean keep the queue, the programmed OTP words and the canonical memories. -/

set_option linter.unusedTactic false
set_option linter.unreachableTactic false
set_option linter.unusedVariables false

namespace Sys2Proof.Machine

theorem State.dropSafe_keeps {s0 : State} (s : State) (d : Die) (h_s : Keeps s0 s) : Keeps s0 (State.dropSafe s d) := by
  unfold State.dropSafe
  repeat' first
    | with_reducible assumption
    | with_reducible apply State.bump_keeps
    | dsimp only
    | assumption

theorem State.takeCopy_keeps {s0 : State} (s : State) (d : Die) (p : Pattern) (q : Nat) (c : ConnRec) (par : ConnPar) (ingress : Nat) (b : List Byte) (h_s : Keeps s0 s) : Keeps s0 (State.takeCopy s d p q c par ingress b) := by
  unfold State.takeCopy
  repeat' first
    | with_reducible assumption
    | intro _
    | with_reducible apply Keeps.ite
    | with_reducible apply State.bump_keeps
    | with_reducible apply State.dropSafe_keeps
    | with_reducible apply State.setDie_keeps
    | with_reducible apply State.updDie_keeps
    | with_reducible apply Keeps.foldl
    | with_reducible apply Keeps.foldlSnd
    | fail_if_no_progress (with_reducible apply Keeps.mk; (try dsimp only); with_reducible apply Keeps.parts)
    | split
    | dsimp only
    | assumption

theorem doSafeTelegramRx_keeps {s0 : State} (d : Die) (port : Fin 2) (h : EthHdr) (body : List Byte) (ingress : Nat) (s : State) (h_s : Keeps s0 s) : Keeps s0 (doSafeTelegramRx d port h body ingress s) := by
  unfold doSafeTelegramRx
  repeat' first
    | with_reducible assumption
    | with_reducible apply Keeps.ite
    | with_reducible apply State.dropSafe_keeps
    | with_reducible apply State.takeCopy_keeps
    | fail_if_no_progress (with_reducible apply Keeps.mk; (try dsimp only); with_reducible apply Keeps.parts)
    | split
    | dsimp only
    | assumption

theorem State.takePos_keeps {s0 : State} (s : State) (d : Die) (p : Pattern) (k : Nat) (c : ConnRec) (ingress : Nat) (b : List Byte) (h_s : Keeps s0 s) : Keeps s0 (State.takePos s d p k c ingress b) := by
  unfold State.takePos
  repeat' first
    | with_reducible assumption
    | intro _
    | with_reducible apply Keeps.ite
    | with_reducible apply State.bump_keeps
    | with_reducible apply State.dropSafe_keeps
    | with_reducible apply State.setDie_keeps
    | with_reducible apply State.updDie_keeps
    | fail_if_no_progress (with_reducible apply Keeps.mk; (try dsimp only); with_reducible apply Keeps.parts)
    | split
    | dsimp only
    | assumption

theorem doPositionTelegramRx_keeps {s0 : State} (d : Die) (port : Fin 2) (h : EthHdr) (body : List Byte) (ingress : Nat) (s : State) (h_s : Keeps s0 s) : Keeps s0 (doPositionTelegramRx d port h body ingress s) := by
  unfold doPositionTelegramRx
  repeat' first
    | with_reducible assumption
    | intro _
    | with_reducible apply Keeps.ite
    | with_reducible apply State.dropSafe_keeps
    | with_reducible apply State.takePos_keeps
    | fail_if_no_progress (with_reducible apply Keeps.mk; (try dsimp only); with_reducible apply Keeps.parts)
    | split
    | dsimp only
    | assumption

theorem State.replayDrop_keeps {s0 : State} (s : State) (conn : Nat) (h_s : Keeps s0 s) : Keeps s0 (State.replayDrop s conn) := by
  unfold State.replayDrop
  repeat' first
    | with_reducible assumption
    | intro _
    | with_reducible apply State.bump_keeps
    | fail_if_no_progress (with_reducible apply Keeps.mk; (try dsimp only); with_reducible apply Keeps.parts)
    | split
    | dsimp only
    | assumption

theorem doEgressLost_keeps {s0 : State} (d : Die) (port : Fin 2) (conn epoch seq : Nat) (s : State) (h_s : Keeps s0 s) : Keeps s0 (doEgressLost d port conn epoch seq s) := by
  unfold doEgressLost
  repeat' first
    | with_reducible assumption
    | intro _
    | with_reducible apply State.bump_keeps
    | with_reducible apply State.replayDrop_keeps
    | with_reducible apply State.updDie_keeps
    | fail_if_no_progress (with_reducible apply Keeps.mk; (try dsimp only); with_reducible apply Keeps.parts)
    | split
    | dsimp only
    | assumption

theorem doLinkDown_keeps {s0 : State} (d : Die) (port : Fin 2) (s : State) (h_s : Keeps s0 s) : Keeps s0 (doLinkDown d port s) := by
  unfold doLinkDown
  repeat' first
    | with_reducible assumption
    | intro _
    | with_reducible apply State.updDie_keeps
    | fail_if_no_progress (with_reducible apply Keeps.mk; (try dsimp only); with_reducible apply Keeps.parts)
    | dsimp only
    | assumption

theorem doLinkUp_keeps {s0 : State} (d : Die) (port : Fin 2) (gigabit : Bool) (s : State) (h_s : Keeps s0 s) : Keeps s0 (doLinkUp d port gigabit s) := by
  unfold doLinkUp
  repeat' first
    | with_reducible assumption
    | intro _
    | with_reducible apply Keeps.ite
    | with_reducible apply State.updDie_keeps
    | fail_if_no_progress (with_reducible apply Keeps.mk; (try dsimp only); with_reducible apply Keeps.parts)
    | split
    | dsimp only
    | assumption

theorem State.replayOne_keeps {s0 : State} (d : Die) (port : Nat) (x : Nat × State) (y : Nat × Nat × Nat × Nat) (h_x : Keeps s0 x.2) : Keeps s0 (State.replayOne d port x y).2 := by
  unfold State.replayOne
  repeat' first
    | with_reducible assumption
    | intro _
    | with_reducible apply Keeps.ite
    | with_reducible apply State.bump_keeps
    | with_reducible apply State.replayDrop_keeps
    | with_reducible apply State.setDie_keeps
    | fail_if_no_progress (with_reducible apply Keeps.mk; (try dsimp only); with_reducible apply Keeps.parts)
    | split
    | dsimp only
    | assumption

theorem doTelegramReplay_keeps {s0 : State} (d : Die) (port : Fin 2) (s : State) (h_s : Keeps s0 s) : Keeps s0 (doTelegramReplay d port s) := by
  unfold doTelegramReplay
  repeat' first
    | with_reducible assumption
    | intro _
    | with_reducible apply Keeps.ite
    | with_reducible apply State.replayOne_keeps
    | with_reducible apply State.setDie_keeps
    | with_reducible apply Keeps.foldl
    | with_reducible apply Keeps.foldlSnd
    | fail_if_no_progress (with_reducible apply Keeps.mk; (try dsimp only); with_reducible apply Keeps.parts)
    | split
    | dsimp only
    | assumption

theorem doFrameForward_keeps {s0 : State} (d : Die) (port : Fin 2) (h : EthHdr) (len : Nat) (s : State) (h_s : Keeps s0 s) : Keeps s0 (doFrameForward d port h len s) := by
  unfold doFrameForward
  repeat' first
    | with_reducible assumption
    | with_reducible apply Keeps.ite
    | with_reducible apply State.setDie_keeps
    | fail_if_no_progress (with_reducible apply Keeps.mk; (try dsimp only); with_reducible apply Keeps.parts)
    | split
    | dsimp only
    | assumption

theorem doFdbAgeout_keeps {s0 : State} (d : Die) (mac : Nat) (s : State) (h_s : Keeps s0 s) : Keeps s0 (doFdbAgeout d mac s) := by
  unfold doFdbAgeout
  repeat' first
    | with_reducible assumption
    | intro _
    | with_reducible apply State.updDie_keeps
    | fail_if_no_progress (with_reducible apply Keeps.mk; (try dsimp only); with_reducible apply Keeps.parts)
    | dsimp only
    | assumption

theorem State.answer_keeps {s0 : State} (s : State) (d : Die) (port dst etype hdr : Nat) (msg : List Byte) (h_s : Keeps s0 s) : Keeps s0 (State.answer s d port dst etype hdr msg) := by
  unfold State.answer
  repeat' first
    | with_reducible assumption
    | intro _
    | with_reducible apply Keeps.ite
    | with_reducible apply State.updDie_keeps
    | fail_if_no_progress (with_reducible apply Keeps.mk; (try dsimp only); with_reducible apply Keeps.parts)
    | split
    | dsimp only
    | assumption

theorem State.stackRx_keeps {s0 : State} (s : State) (d : Die) (port : Nat) (h : EthHdr) (n : Nat) (act : State → State) (h_s : Keeps s0 s) (k_act : ∀ t, Keeps s0 t → Keeps s0 (act t)) : Keeps s0 (State.stackRx s d port h n act) := by
  unfold State.stackRx
  repeat' first
    | with_reducible assumption
    | intro _
    | with_reducible apply Keeps.ite
    | with_reducible apply State.bump_keeps
    | apply k_act
    | split
    | dsimp only
    | assumption

theorem doArpRequestRx_keeps {s0 : State} (d : Die) (port : Fin 2) (h : EthHdr) (senderMac senderIp targetIp : Nat) (s : State) (h_s : Keeps s0 s) : Keeps s0 (doArpRequestRx d port h senderMac senderIp targetIp s) := by
  unfold doArpRequestRx
  repeat' first
    | with_reducible assumption
    | intro _
    | with_reducible apply Keeps.ite
    | with_reducible apply State.answer_keeps
    | with_reducible apply State.stackRx_keeps
    | split
    | dsimp only
    | assumption

theorem doNeighbourDiscoveryRx_keeps {s0 : State} (d : Die) (port : Fin 2) (h : EthHdr) (senderMac senderIp targetIp : Nat) (s : State) (h_s : Keeps s0 s) : Keeps s0 (doNeighbourDiscoveryRx d port h senderMac senderIp targetIp s) := by
  unfold doNeighbourDiscoveryRx
  repeat' first
    | with_reducible assumption
    | intro _
    | with_reducible apply Keeps.ite
    | with_reducible apply State.answer_keeps
    | with_reducible apply State.stackRx_keeps
    | fail_if_no_progress (with_reducible apply Keeps.mk; (try dsimp only); with_reducible apply Keeps.parts)
    | split
    | dsimp only
    | assumption

theorem doEchoRequestRx_keeps {s0 : State} (d : Die) (port : Fin 2) (h : EthHdr) (v6 : Bool) (frags senderIp targetIp : Nat) (data : List Byte) (s : State) (h_s : Keeps s0 s) : Keeps s0 (doEchoRequestRx d port h v6 frags senderIp targetIp data s) := by
  unfold doEchoRequestRx
  repeat' first
    | with_reducible assumption
    | intro _
    | with_reducible apply Keeps.ite
    | with_reducible apply State.answer_keeps
    | with_reducible apply State.stackRx_keeps
    | split
    | dsimp only
    | assumption

end Sys2Proof.Machine
end

