-- ==== Sys2Proof/Laws/KeepsOutputs.lean ====
section
/-! SUPPORT. The operations of Machine/Outputs.lean keep the queue, the programmed OTP words and the canonical memories. -/

set_option linter.unusedTactic false
set_option linter.unreachableTactic false
set_option linter.unusedVariables false

namespace Sys2Proof.Machine

theorem State.settle_keeps {s0 : State} (s : State) (f : Nat) (changed on : BitVec 32) (h_s : Keeps s0 s) : Keeps s0 (State.settle s f changed on) := by
  unfold State.settle
  repeat' first
    | with_reducible assumption
    | intro _
    | with_reducible apply Keeps.ite
    | with_reducible apply State.updDie_keeps
    | with_reducible apply Keeps.foldl
    | fail_if_no_progress (with_reducible apply Keeps.mk; (try dsimp only); with_reducible apply Keeps.parts)
    | split
    | dsimp only
    | assumption

theorem State.portTo_keeps {s0 : State} (s : State) (d : Die) (f : Nat) (p : FPort) (h_s : Keeps s0 s) : Keeps s0 (State.portTo s d f p) := by
  unfold State.portTo
  repeat' first
    | with_reducible assumption
    | intro _
    | with_reducible apply State.updF_keeps
    | fail_if_no_progress (with_reducible apply Keeps.mk; (try dsimp only); with_reducible apply Keeps.parts)
    | dsimp only
    | assumption

theorem doCmdFrameRx_keeps {s0 : State} (d : Die) (fd : Fin 4) (fr : BitVec 128) (s : State) (h_s : Keeps s0 s) : Keeps s0 (doCmdFrameRx d fd fr s) := by
  unfold doCmdFrameRx
  repeat' first
    | with_reducible assumption
    | intro _
    | with_reducible apply Keeps.ite
    | with_reducible apply State.bump_keeps
    | with_reducible apply State.portTo_keeps
    | with_reducible apply State.settle_keeps
    | with_reducible apply State.updF_keeps
    | fail_if_no_progress (with_reducible apply Keeps.mk; (try dsimp only); with_reducible apply Keeps.parts)
    | split
    | dsimp only
    | assumption

theorem State.expireToken_keeps {s0 : State} (s : State) (d : Die) (f : Nat) (h_s : Keeps s0 s) : Keeps s0 (State.expireToken s d f) := by
  unfold State.expireToken
  repeat' first
    | with_reducible assumption
    | with_reducible apply Keeps.ite
    | with_reducible apply State.bump_keeps
    | with_reducible apply State.portTo_keeps
    | split
    | dsimp only
    | assumption

theorem State.markSkew_keeps {s0 : State} (s : State) (f : Nat) (own other : Nat) (h_s : Keeps s0 s) : Keeps s0 (State.markSkew s f own other) := by
  unfold State.markSkew
  repeat' first
    | with_reducible assumption
    | intro _
    | with_reducible apply Keeps.ite
    | with_reducible apply State.fCause_keeps
    | with_reducible apply State.updF_keeps
    | fail_if_no_progress (with_reducible apply Keeps.mk; (try dsimp only); with_reducible apply Keeps.parts)
    | split
    | dsimp only
    | assumption

theorem doTickMarkRx_keeps {s0 : State} (fd : Fin 4) (d : Die) (t : Nat) (s : State) (h_s : Keeps s0 s) : Keeps s0 (doTickMarkRx fd d t s) := by
  unfold doTickMarkRx
  repeat' first
    | with_reducible assumption
    | intro _
    | with_reducible apply Keeps.ite
    | with_reducible apply State.expireToken_keeps
    | with_reducible apply State.markSkew_keeps
    | with_reducible apply State.updF_keeps
    | fail_if_no_progress (with_reducible apply Keeps.mk; (try dsimp only); with_reducible apply Keeps.parts)
    | split
    | dsimp only
    | assumption

theorem doKeepTokenExpire_keeps {s0 : State} (d : Die) (fd : Fin 4) (s : State) (h_s : Keeps s0 s) : Keeps s0 (doKeepTokenExpire d fd s) := by
  unfold doKeepTokenExpire
  repeat' first
    | with_reducible assumption
    | with_reducible apply Keeps.ite
    | with_reducible apply State.expireToken_keeps
    | split
    | dsimp only
    | assumption

theorem doTripAssert_keeps {s0 : State} (line : Die) (s : State) (h_s : Keeps s0 s) : Keeps s0 (doTripAssert line s) := by
  unfold doTripAssert
  repeat' first
    | with_reducible assumption
    | with_reducible apply State.driveTrips_keeps
    | fail_if_no_progress (with_reducible apply Keeps.mk; (try dsimp only); with_reducible apply Keeps.parts)
    | split
    | dsimp only
    | assumption

theorem doTripRelease_keeps {s0 : State} (s : State) (h_s : Keeps s0 s) : Keeps s0 (doTripRelease s) := by
  unfold doTripRelease
  repeat' first
    | with_reducible assumption
    | with_reducible apply Keeps.ite
    | with_reducible apply State.untrip_keeps
    | fail_if_no_progress (with_reducible apply Keeps.mk; (try dsimp only); with_reducible apply Keeps.parts)
    | split
    | dsimp only
    | assumption

theorem doHeartbeatLoss_keeps {s0 : State} (rx : HbRx) (s : State) (h_s : Keeps s0 s) : Keeps s0 (doHeartbeatLoss rx s) := by
  unfold doHeartbeatLoss
  repeat' first
    | with_reducible assumption
    | with_reducible apply State.driveTrips_keeps
    | with_reducible apply State.portTo_keeps
    | fail_if_no_progress (with_reducible apply Keeps.mk; (try dsimp only); with_reducible apply Keeps.parts)
    | split
    | dsimp only
    | assumption

theorem doVfldLow_keeps {s0 : State} (fd : Fin 4) (mv : Nat) (s : State) (h_s : Keeps s0 s) : Keeps s0 (doVfldLow fd mv s) := by
  unfold doVfldLow
  repeat' first
    | with_reducible assumption
    | intro _
    | with_reducible apply Keeps.ite
    | with_reducible apply State.fCause_keeps
    | with_reducible apply State.portTo_keeps
    | with_reducible apply State.setReg_keeps
    | with_reducible apply State.settle_keeps
    | with_reducible apply State.updF_keeps
    | fail_if_no_progress (with_reducible apply Keeps.mk; (try dsimp only); with_reducible apply Keeps.parts)
    | split
    | dsimp only
    | assumption

theorem doVfldRecover_keeps {s0 : State} (fd : Fin 4) (mv : Nat) (s : State) (h_s : Keeps s0 s) : Keeps s0 (doVfldRecover fd mv s) := by
  unfold doVfldRecover
  repeat' first
    | with_reducible assumption
    | intro _
    | with_reducible apply Keeps.ite
    | with_reducible apply State.fCause_keeps
    | with_reducible apply State.setReg_keeps
    | with_reducible apply State.updF_keeps
    | fail_if_no_progress (with_reducible apply Keeps.mk; (try dsimp only); with_reducible apply Keeps.parts)
    | split
    | dsimp only
    | assumption

theorem State.protect_keeps {s0 : State} (s : State) (d : Die) (n code : Nat) (h_s : Keeps s0 s) : Keeps s0 (State.protect s d n code) := by
  unfold State.protect
  repeat' first
    | with_reducible assumption
    | with_reducible apply Keeps.ite
    | with_reducible apply State.portTo_keeps
    | with_reducible apply State.setOut_keeps
    | fail_if_no_progress (with_reducible apply Keeps.mk; (try dsimp only); with_reducible apply Keeps.parts)
    | split
    | dsimp only
    | assumption

theorem doCurrentLimitTrip_keeps {s0 : State} (n : Fin 128) (s : State) (h_s : Keeps s0 s) : Keeps s0 (doCurrentLimitTrip n s) := by
  unfold doCurrentLimitTrip
  repeat' first
    | with_reducible assumption
    | with_reducible apply State.protect_keeps
    | dsimp only
    | assumption

theorem doSwitchOvertemp_keeps {s0 : State} (d : Die) (n : Fin 128) (s : State) (h_s : Keeps s0 s) : Keeps s0 (doSwitchOvertemp d n s) := by
  unfold doSwitchOvertemp
  repeat' first
    | with_reducible assumption
    | with_reducible apply State.protect_keeps
    | dsimp only
    | assumption

theorem doGateDriveLoss_keeps {s0 : State} (fd : Fin 4) (s : State) (h_s : Keeps s0 s) : Keeps s0 (doGateDriveLoss fd s) := by
  unfold doGateDriveLoss
  repeat' first
    | with_reducible assumption
    | intro _
    | with_reducible apply Keeps.ite
    | with_reducible apply State.fCause_keeps
    | with_reducible apply State.updF_keeps
    | fail_if_no_progress (with_reducible apply Keeps.mk; (try dsimp only); with_reducible apply Keeps.parts)
    | split
    | dsimp only
    | assumption

theorem doGateDriveReturn_keeps {s0 : State} (fd : Fin 4) (s : State) (h_s : Keeps s0 s) : Keeps s0 (doGateDriveReturn fd s) := by
  unfold doGateDriveReturn
  repeat' first
    | with_reducible assumption
    | intro _
    | with_reducible apply Keeps.ite
    | with_reducible apply State.fCause_keeps
    | with_reducible apply State.updF_keeps
    | fail_if_no_progress (with_reducible apply Keeps.mk; (try dsimp only); with_reducible apply Keeps.parts)
    | split
    | dsimp only
    | assumption

theorem doFdieOvercurrent_keeps {s0 : State} (fd : Fin 4) (ma : Nat) (s : State) (h_s : Keeps s0 s) : Keeps s0 (doFdieOvercurrent fd ma s) := by
  unfold doFdieOvercurrent
  repeat' first
    | with_reducible assumption
    | with_reducible apply Keeps.ite
    | with_reducible apply State.fCause_keeps
    | with_reducible apply State.setReg_keeps
    | split
    | dsimp only
    | assumption

theorem doSupplyCurrentReturn_keeps {s0 : State} (fd : Fin 4) (s : State) (h_s : Keeps s0 s) : Keeps s0 (doSupplyCurrentReturn fd s) := by
  unfold doSupplyCurrentReturn
  repeat' first
    | with_reducible assumption
    | with_reducible apply Keeps.ite
    | with_reducible apply State.fCause_keeps
    | with_reducible apply State.free_keeps
    | with_reducible apply State.setReg_keeps
    | split
    | dsimp only
    | assumption

theorem doFdieOvertemp_keeps {s0 : State} (fd : Fin 4) (s : State) (h_s : Keeps s0 s) : Keeps s0 (doFdieOvertemp fd s) := by
  unfold doFdieOvertemp
  repeat' first
    | with_reducible assumption
    | with_reducible apply Keeps.ite
    | with_reducible apply State.fCause_keeps
    | split
    | dsimp only
    | assumption

theorem doOvertemperatureEnd_keeps {s0 : State} (who : TempWho) (s : State) (h_s : Keeps s0 s) : Keeps s0 (doOvertemperatureEnd who s) := by
  unfold doOvertemperatureEnd
  repeat' first
    | with_reducible assumption
    | with_reducible apply Keeps.ite
    | with_reducible apply State.causeOff_keeps
    | with_reducible apply State.fCause_keeps
    | fail_if_no_progress (with_reducible apply Keeps.mk; (try dsimp only); with_reducible apply Keeps.parts)
    | split
    | dsimp only
    | assumption

theorem doDischargeSinkRelease_keeps {s0 : State} (n : Fin 128) (s : State) (h_s : Keeps s0 s) : Keeps s0 (doDischargeSinkRelease n s) := by
  unfold doDischargeSinkRelease
  repeat' first
    | with_reducible assumption
    | intro _
    | with_reducible apply State.updF_keeps
    | fail_if_no_progress (with_reducible apply Keeps.mk; (try dsimp only); with_reducible apply Keeps.parts)
    | dsimp only
    | assumption

theorem doOffPulseStart_keeps {s0 : State} (d : Die) (n : Fin 128) (s : State) (h_s : Keeps s0 s) : Keeps s0 (doOffPulseStart d n s) := by
  unfold doOffPulseStart
  repeat' first
    | with_reducible assumption
    | intro _
    | with_reducible apply Keeps.ite
    | with_reducible apply State.pulseOn_keeps
    | with_reducible apply State.updF_keeps
    | fail_if_no_progress (with_reducible apply Keeps.mk; (try dsimp only); with_reducible apply Keeps.parts)
    | split
    | dsimp only
    | assumption

theorem State.foreignEnd_keeps {s0 : State} (s : State) (d : Die) (h_s : Keeps s0 s) : Keeps s0 (State.foreignEnd s d) := by
  unfold State.foreignEnd
  repeat' first
    | with_reducible assumption
    | intro _
    | with_reducible apply Keeps.ite
    | with_reducible apply State.setOut_keeps
    | with_reducible apply Keeps.foldl
    | fail_if_no_progress (with_reducible apply Keeps.mk; (try dsimp only); with_reducible apply Keeps.parts)
    | split
    | dsimp only
    | assumption

theorem doOffPulseEnd_keeps {s0 : State} (d : Die) (n : Fin 128) (s : State) (h_s : Keeps s0 s) : Keeps s0 (doOffPulseEnd d n s) := by
  unfold doOffPulseEnd
  repeat' first
    | with_reducible assumption
    | intro _
    | with_reducible apply Keeps.ite
    | with_reducible apply State.bump_keeps
    | with_reducible apply State.foreignEnd_keeps
    | with_reducible apply State.pulseOff_keeps
    | with_reducible apply State.updF_keeps
    | fail_if_no_progress (with_reducible apply Keeps.mk; (try dsimp only); with_reducible apply Keeps.parts)
    | split
    | dsimp only
    | assumption

theorem doOutputCodeClear_keeps {s0 : State} (d : Die) (n : Fin 128) (s : State) (h_s : Keeps s0 s) : Keeps s0 (doOutputCodeClear d n s) := by
  unfold doOutputCodeClear
  repeat' first
    | with_reducible assumption
    | intro _
    | with_reducible apply Keeps.ite
    | with_reducible apply State.updDie_keeps
    | fail_if_no_progress (with_reducible apply Keeps.mk; (try dsimp only); with_reducible apply Keeps.parts)
    | split
    | dsimp only
    | assumption

theorem doChannelModeWrite_keeps {s0 : State} (d : Die) (n : Fin 128) (mode : Nat) (s : State) (h_s : Keeps s0 s) : Keeps s0 (doChannelModeWrite d n mode s) := by
  unfold doChannelModeWrite
  repeat' first
    | with_reducible assumption
    | with_reducible apply Keeps.ite
    | with_reducible apply State.modesWritten_keeps
    | with_reducible apply State.writeMode_keeps
    | split
    | dsimp only
    | assumption

theorem doHoldModeEnter_keeps {s0 : State} (d : Die) (s : State) (h_s : Keeps s0 s) : Keeps s0 (doHoldModeEnter d s) := by
  unfold doHoldModeEnter
  repeat' first
    | with_reducible assumption
    | with_reducible apply Keeps.ite
    | with_reducible apply State.enterHold_keeps
    | split
    | dsimp only
    | assumption

theorem doHoldFrameSend_keeps {s0 : State} (d : Die) (s : State) (h_s : Keeps s0 s) : Keeps s0 (doHoldFrameSend d s) := by
  unfold doHoldFrameSend
  repeat' first
    | with_reducible assumption
    | intro _
    | with_reducible apply Keeps.ite
    | with_reducible apply State.updDie_keeps
    | with_reducible apply Keeps.foldl
    | split
    | dsimp only
    | assumption

theorem doHoldTimeout_keeps {s0 : State} (d : Die) (s : State) (h_s : Keeps s0 s) : Keeps s0 (doHoldTimeout d s) := by
  unfold doHoldTimeout
  repeat' first
    | with_reducible assumption
    | intro _
    | with_reducible apply Keeps.ite
    | with_reducible apply State.revert_keeps
    | with_reducible apply State.updDie_keeps
    | fail_if_no_progress (with_reducible apply Keeps.mk; (try dsimp only); with_reducible apply Keeps.parts)
    | split
    | dsimp only
    | assumption

end Sys2Proof.Machine
end

