-- ==== Sys2Proof/Laws/KeepsExpire.lean ====
section
/-! SUPPORT. The operations of Machine/Expire.lean keep the queue, the programmed OTP words and the canonical memories. -/

set_option linter.unusedTactic false
set_option linter.unreachableTactic false
set_option linter.unusedVariables false

namespace Sys2Proof.Machine

theorem State.expire_keeps {s0 : State} (s : State) (d : Die) (inst : Nat) (lim : Lim) (h_s : Keeps s0 s) : Keeps s0 (State.expire s d inst lim) := by
  unfold State.expire
  repeat' first
    | with_reducible assumption
    | with_reducible apply doJobComplete_keeps
    | fail_if_no_progress (with_reducible apply Keeps.mk; (try dsimp only); with_reducible apply Keeps.parts)
    | split
    | dsimp only
    | assumption

theorem doConnWatchdogExpire_keeps {s0 : State} (d : Die) (inst : Nat) (s : State) (h_s : Keeps s0 s) : Keeps s0 (doConnWatchdogExpire d inst s) := by
  unfold doConnWatchdogExpire
  repeat' first
    | with_reducible assumption
    | with_reducible apply State.expire_keeps
    | dsimp only
    | assumption

theorem doLoneBudgetExpire_keeps {s0 : State} (d : Die) (inst : Nat) (s : State) (h_s : Keeps s0 s) : Keeps s0 (doLoneBudgetExpire d inst s) := by
  unfold doLoneBudgetExpire
  repeat' first
    | with_reducible assumption
    | with_reducible apply State.expire_keeps
    | dsimp only
    | assumption

theorem doDiscTimerExpire_keeps {s0 : State} (d : Die) (inst : Nat) (s : State) (h_s : Keeps s0 s) : Keeps s0 (doDiscTimerExpire d inst s) := by
  unfold doDiscTimerExpire
  repeat' first
    | with_reducible assumption
    | with_reducible apply State.expire_keeps
    | dsimp only
    | assumption

theorem doLockMismatchExpire_keeps {s0 : State} (d : Die) (inst : Nat) (s : State) (h_s : Keeps s0 s) : Keeps s0 (doLockMismatchExpire d inst s) := by
  unfold doLockMismatchExpire
  repeat' first
    | with_reducible assumption
    | with_reducible apply State.expire_keeps
    | split
    | dsimp only
    | assumption

theorem doMuteTimeExpire_keeps {s0 : State} (d : Die) (inst : Nat) (s : State) (h_s : Keeps s0 s) : Keeps s0 (doMuteTimeExpire d inst s) := by
  unfold doMuteTimeExpire
  repeat' first
    | with_reducible assumption
    | with_reducible apply State.expire_keeps
    | dsimp only
    | assumption

theorem doOverrideTimeExpire_keeps {s0 : State} (d : Die) (inst : Nat) (s : State) (h_s : Keeps s0 s) : Keeps s0 (doOverrideTimeExpire d inst s) := by
  unfold doOverrideTimeExpire
  repeat' first
    | with_reducible assumption
    | with_reducible apply State.expire_keeps
    | dsimp only
    | assumption

theorem doContactTExpire_keeps {s0 : State} (d : Die) (inst : Nat) (s : State) (h_s : Keeps s0 s) : Keeps s0 (doContactTExpire d inst s) := by
  unfold doContactTExpire
  repeat' first
    | with_reducible assumption
    | with_reducible apply State.expire_keeps
    | dsimp only
    | assumption

theorem doModeselDiscExpire_keeps {s0 : State} (d : Die) (inst : Nat) (s : State) (h_s : Keeps s0 s) : Keeps s0 (doModeselDiscExpire d inst s) := by
  unfold doModeselDiscExpire
  repeat' first
    | with_reducible assumption
    | with_reducible apply State.expire_keeps
    | dsimp only
    | assumption

theorem doEdmTimeout_keeps {s0 : State} (d : Die) (inst : Nat) (s : State) (h_s : Keeps s0 s) : Keeps s0 (doEdmTimeout d inst s) := by
  unfold doEdmTimeout
  repeat' first
    | with_reducible assumption
    | with_reducible apply State.expire_keeps
    | dsimp only
    | assumption

theorem doTimerPtExpire_keeps {s0 : State} (d : Die) (inst : Nat) (s : State) (h_s : Keeps s0 s) : Keeps s0 (doTimerPtExpire d inst s) := by
  unfold doTimerPtExpire
  repeat' first
    | with_reducible assumption
    | with_reducible apply State.expire_keeps
    | dsimp only
    | assumption

theorem doOutsafeDlyExpire_keeps {s0 : State} (d : Die) (inst : Nat) (s : State) (h_s : Keeps s0 s) : Keeps s0 (doOutsafeDlyExpire d inst s) := by
  unfold doOutsafeDlyExpire
  repeat' first
    | with_reducible assumption
    | with_reducible apply State.expire_keeps
    | dsimp only
    | assumption

theorem doStdinStale_keeps {s0 : State} (d : Die) (inst : Nat) (s : State) (h_s : Keeps s0 s) : Keeps s0 (doStdinStale d inst s) := by
  unfold doStdinStale
  repeat' first
    | with_reducible assumption
    | with_reducible apply State.expire_keeps
    | dsimp only
    | assumption

theorem doStreamLost_keeps {s0 : State} (d : Die) (inst : Nat) (s : State) (h_s : Keeps s0 s) : Keeps s0 (doStreamLost d inst s) := by
  unfold doStreamLost
  repeat' first
    | with_reducible assumption
    | with_reducible apply State.expire_keeps
    | dsimp only
    | assumption

theorem doStoFbTimeout_keeps {s0 : State} (d : Die) (inst : Nat) (s : State) (h_s : Keeps s0 s) : Keeps s0 (doStoFbTimeout d inst s) := by
  unfold doStoFbTimeout
  repeat' first
    | with_reducible assumption
    | with_reducible apply State.expire_keeps
    | dsimp only
    | assumption

theorem doSs1StopTimeout_keeps {s0 : State} (d : Die) (inst : Nat) (s : State) (h_s : Keeps s0 s) : Keeps s0 (doSs1StopTimeout d inst s) := by
  unfold doSs1StopTimeout
  repeat' first
    | with_reducible assumption
    | with_reducible apply State.expire_keeps
    | dsimp only
    | assumption

theorem doSlsAdaptExpire_keeps {s0 : State} (d : Die) (inst : Nat) (s : State) (h_s : Keeps s0 s) : Keeps s0 (doSlsAdaptExpire d inst s) := by
  unfold doSlsAdaptExpire
  repeat' first
    | with_reducible assumption
    | with_reducible apply State.expire_keeps
    | dsimp only
    | assumption

theorem doBrakeEngageExpire_keeps {s0 : State} (d : Die) (inst : Nat) (s : State) (h_s : Keeps s0 s) : Keeps s0 (doBrakeEngageExpire d inst s) := by
  unfold doBrakeEngageExpire
  repeat' first
    | with_reducible assumption
    | with_reducible apply State.expire_keeps
    | dsimp only
    | assumption

theorem doSbcFbTimeout_keeps {s0 : State} (d : Die) (inst : Nat) (s : State) (h_s : Keeps s0 s) : Keeps s0 (doSbcFbTimeout d inst s) := by
  unfold doSbcFbTimeout
  repeat' first
    | with_reducible assumption
    | with_reducible apply State.expire_keeps
    | dsimp only
    | assumption

theorem doSbtTestTimeout_keeps {s0 : State} (d : Die) (inst : Nat) (s : State) (h_s : Keeps s0 s) : Keeps s0 (doSbtTestTimeout d inst s) := by
  unfold doSbtTestTimeout
  repeat' first
    | with_reducible assumption
    | with_reducible apply State.expire_keeps
    | dsimp only
    | assumption

theorem doSbtIntervalExpire_keeps {s0 : State} (d : Die) (inst : Nat) (s : State) (h_s : Keeps s0 s) : Keeps s0 (doSbtIntervalExpire d inst s) := by
  unfold doSbtIntervalExpire
  repeat' first
    | with_reducible assumption
    | with_reducible apply State.expire_keeps
    | dsimp only
    | assumption

theorem doGroupEngageExpire_keeps {s0 : State} (d : Die) (inst : Nat) (s : State) (h_s : Keeps s0 s) : Keeps s0 (doGroupEngageExpire d inst s) := by
  unfold doGroupEngageExpire
  repeat' first
    | with_reducible assumption
    | with_reducible apply State.expire_keeps
    | dsimp only
    | assumption

theorem doTensionFilterExpire_keeps {s0 : State} (d : Die) (inst : Nat) (s : State) (h_s : Keeps s0 s) : Keeps s0 (doTensionFilterExpire d inst s) := by
  unfold doTensionFilterExpire
  repeat' first
    | with_reducible assumption
    | with_reducible apply State.expire_keeps
    | dsimp only
    | assumption

end Sys2Proof.Machine
end

