-- ==== Sys2Proof/Laws/KeepsOtpRows.lean ====
section
/-! SUPPORT. The operations of Machine/OtpRows.lean keep the queue, the programmed OTP words and the canonical memories. -/

set_option linter.unusedTactic false
set_option linter.unreachableTactic false
set_option linter.unusedVariables false

namespace Sys2Proof.Machine

theorem State.rand_keeps {s0 : State} (s : State) (n : Nat) (h_s : Keeps s0 s) : Keeps s0 (State.rand s n).2 := by
  unfold State.rand
  repeat' first
    | with_reducible assumption
    | fail_if_no_progress (with_reducible apply Keeps.mk; (try dsimp only); with_reducible apply Keeps.parts)
    | dsimp only
    | assumption

theorem State.randNat_keeps {s0 : State} (s : State) (n : Nat) (h_s : Keeps s0 s) : Keeps s0 (State.randNat s n).2 := by
  unfold State.randNat
  repeat' first
    | with_reducible assumption
    | with_reducible apply State.rand_keeps
    | dsimp only
    | assumption

theorem State.persist_keeps {s0 : State} (s : State) (idx sub val seat : Nat) (h_s : Keeps s0 s) : Keeps s0 (State.persist s idx sub val seat) := by
  unfold State.persist
  repeat' first
    | with_reducible assumption
    | fail_if_no_progress (with_reducible apply Keeps.mk; (try dsimp only); with_reducible apply Keeps.parts)
    | dsimp only
    | assumption

theorem State.firstRunDone_keeps {s0 : State} (s : State) (h_s : Keeps s0 s) : Keeps s0 (State.firstRunDone s) := by
  unfold State.firstRunDone
  repeat' first
    | with_reducible assumption
    | intro _
    | with_reducible apply Keeps.ite
    | with_reducible apply State.firstRun_keeps
    | fail_if_no_progress (with_reducible apply Keeps.mk; (try dsimp only); with_reducible apply Keeps.parts)
    | split
    | dsimp only
    | assumption

theorem State.lcAfter_keeps {s0 : State} (s : State) (v : Nat) (h_s : Keeps s0 s) : Keeps s0 (State.lcAfter s v) := by
  unfold State.lcAfter
  repeat' first
    | with_reducible assumption
    | with_reducible apply Keeps.ite
    | with_reducible apply State.lcAct_keeps
    | with_reducible apply State.lcLoad_keeps
    | with_reducible apply State.otpWant_keeps
    | split
    | dsimp only
    | assumption

theorem State.otpEnd_keeps {s0 : State} (u : State) (x : OtpOp) (ok : Bool) (h_u : Keeps s0 u) : Keeps s0 (State.otpEnd u x ok) := by
  unfold State.otpEnd
  repeat' first
    | with_reducible assumption
    | (with_reducible apply Keeps.mk; exact KeepsParts.put (o := (u.leaseEnd 4 x.die.n).otp) _ _ (State.leaseEnd_keeps u 4 x.die.n h_u).parts)
    | with_reducible apply Keeps.ite
    | with_reducible apply State.ans_keeps
    | with_reducible apply State.ansBusy_keeps
    | with_reducible apply State.bump_keeps
    | with_reducible apply State.firstRunDone_keeps
    | with_reducible apply State.latch_keeps
    | with_reducible apply State.lcAfter_keeps
    | with_reducible apply State.leaseEnd_keeps
    | with_reducible apply State.otpAns_keeps
    | with_reducible apply State.otpNext_keeps
    | fail_if_no_progress (with_reducible apply Keeps.mk; (try dsimp only); with_reducible apply Keeps.parts)
    | split
    | dsimp only
    | assumption

theorem doOtpProgramDone_keeps {s0 : State} (ok : Bool) (s : State) (h_s : Keeps s0 s) : Keeps s0 (doOtpProgramDone ok s) := by
  unfold doOtpProgramDone
  repeat' first
    | with_reducible assumption
    | with_reducible apply Keeps.ite
    | with_reducible apply State.otpEnd_keeps
    | fail_if_no_progress (with_reducible apply Keeps.mk; (try dsimp only); with_reducible apply Keeps.parts)
    | split
    | dsimp only
    | assumption

theorem doOtpProg_keeps {s0 : State} (seat : Fin 8) (v : Nat) (s : State) (h_s : Keeps s0 s) : Keeps s0 (doOtpProg seat v s) := by
  unfold doOtpProg
  repeat' first
    | with_reducible assumption
    | intro _
    | with_reducible apply State.leaseAsk_keeps
    | with_reducible apply State.write_keeps
    | fail_if_no_progress (with_reducible apply Keeps.mk; (try dsimp only); with_reducible apply Keeps.parts)
    | dsimp only
    | assumption

theorem State.otpRead_keeps {s0 : State} (s : State) (n : Nat) (h_s : Keeps s0 s) : Keeps s0 (State.otpRead s n) := by
  unfold State.otpRead
  with_reducible apply Keeps.ite
  · exact State.ans_keeps s .access h_s
  · extract_lets o s1
    have h1 : Keeps s0 s1 := by
      apply State.reply_keeps
      apply State.ans_keeps
      with_reducible apply Keeps.mk
      exact h_s.parts
    clear_value s1
    cases s.otp.word n with
    | blank => exact h1
    | data v => exact h1
    | corrected v => exact State.bump_keeps s1 _ _ _ h1
    | spent => exact Keeps.ite (State.latch_keeps s1 _ h1) h1

theorem doOtpData_keeps {s0 : State} (seat : Fin 8) (s : State) (h_s : Keeps s0 s) : Keeps s0 (doOtpData seat s) := by
  unfold doOtpData
  repeat' first
    | with_reducible assumption
    | with_reducible apply Keeps.ite
    | with_reducible apply State.ans_keeps
    | with_reducible apply State.otpRead_keeps
    | with_reducible apply State.shelf_keeps
    | split
    | dsimp only
    | assumption

theorem doLcReq_keeps {s0 : State} (seat : Fin 8) (v : Nat) (s : State) (h_s : Keeps s0 s) : Keeps s0 (doLcReq seat v s) := by
  unfold doLcReq
  repeat' first
    | with_reducible assumption
    | intro _
    | with_reducible apply State.otpWant_keeps
    | with_reducible apply State.write_keeps
    | dsimp only
    | assumption

theorem doLcResp_keeps {s0 : State} (seat : Fin 8) (target : Nat) (sig : List Byte) (s : State) (h_s : Keeps s0 s) : Keeps s0 (doLcResp seat target sig s) := by
  unfold doLcResp
  repeat' first
    | with_reducible assumption
    | intro _
    | with_reducible apply Keeps.ite
    | with_reducible apply State.otpWant_keeps
    | with_reducible apply State.shelf_keeps
    | with_reducible apply State.write_keeps
    | fail_if_no_progress (with_reducible apply Keeps.mk; (try dsimp only); with_reducible apply Keeps.parts)
    | split
    | dsimp only
    | assumption

theorem doLcChal_keeps {s0 : State} (seat : Fin 8) (s : State) (h_s : Keeps s0 s) : Keeps s0 (doLcChal seat s) := by
  unfold doLcChal
  repeat' first
    | with_reducible assumption
    | with_reducible apply Keeps.ite
    | with_reducible apply State.ans_keeps
    | with_reducible apply State.randNat_keeps
    | with_reducible apply State.reply_keeps
    | with_reducible apply State.shelf_keeps
    | fail_if_no_progress (with_reducible apply Keeps.mk; (try dsimp only); with_reducible apply Keeps.parts)
    | split
    | dsimp only
    | assumption

theorem doKeyPut_keeps {s0 : State} (seat : Fin 8) (bytes : List Byte) (s : State) (h_s : Keeps s0 s) : Keeps s0 (doKeyPut seat bytes s) := by
  unfold doKeyPut
  repeat' first
    | with_reducible assumption
    | intro _
    | with_reducible apply State.keyPend_keeps
    | with_reducible apply State.keyPut_keeps
    | with_reducible apply State.persist_keeps
    | with_reducible apply State.write_keeps
    | fail_if_no_progress (with_reducible apply Keeps.mk; (try dsimp only); with_reducible apply Keeps.parts)
    | split
    | dsimp only
    | assumption

theorem doKeyErase_keeps {s0 : State} (seat : Fin 8) (slot : Nat) (s : State) (h_s : Keeps s0 s) : Keeps s0 (doKeyErase seat slot s) := by
  unfold doKeyErase
  repeat' first
    | with_reducible assumption
    | intro _
    | with_reducible apply State.keyPend_keeps
    | with_reducible apply State.persist_keeps
    | with_reducible apply State.write_keeps
    | dsimp only
    | assumption

theorem State.keyCommit_keeps {s0 : State} (s : State) (slot typ : Nat) (key : List Byte) (h_s : Keeps s0 s) : Keeps s0 (State.keyCommit s slot typ key) := by
  unfold State.keyCommit
  repeat' first
    | with_reducible assumption
    | with_reducible apply Keeps.ite
    | with_reducible apply State.keyPend_keeps
    | with_reducible apply State.keyPut_keeps
    | with_reducible apply State.newEra_keeps
    | split
    | dsimp only
    | assumption

theorem doEraRecordWrite_keeps {s0 : State} (ok : Bool) (s : State) (h_s : Keeps s0 s) : Keeps s0 (doEraRecordWrite ok s) := by
  unfold doEraRecordWrite
  repeat' first
    | with_reducible assumption
    | with_reducible apply Keeps.ite
    | fail_if_no_progress (with_reducible apply Keeps.mk; (try dsimp only); with_reducible apply Keeps.parts)
    | split
    | dsimp only
    | assumption

theorem doTamper_keeps {s0 : State} (i : Fin 4) (s : State) (h_s : Keeps s0 s) : Keeps s0 (doTamper i s) := by
  unfold doTamper
  repeat' first
    | with_reducible assumption
    | with_reducible apply Keeps.ite
    | with_reducible apply State.latchStanding_keeps
    | with_reducible apply State.shelf_keeps
    | fail_if_no_progress (with_reducible apply Keeps.mk; (try dsimp only); with_reducible apply Keeps.parts)
    | split
    | dsimp only
    | assumption

theorem doTamperRelease_keeps {s0 : State} (i : Fin 4) (s : State) (h_s : Keeps s0 s) : Keeps s0 (doTamperRelease i s) := by
  unfold doTamperRelease
  repeat' first
    | with_reducible assumption
    | with_reducible apply Keeps.ite
    | with_reducible apply State.causeOff_keeps
    | fail_if_no_progress (with_reducible apply Keeps.mk; (try dsimp only); with_reducible apply Keeps.parts)
    | split
    | dsimp only
    | assumption

theorem doVbatBrownOut_keeps {s0 : State} (s : State) (h_s : Keeps s0 s) : Keeps s0 (doVbatBrownOut s) := by
  unfold doVbatBrownOut
  repeat' first
    | with_reducible assumption
    | with_reducible apply Keeps.ite
    | fail_if_no_progress (with_reducible apply Keeps.mk; (try dsimp only); with_reducible apply Keeps.parts)
    | split
    | dsimp only
    | assumption

end Sys2Proof.Machine
end

