-- ==== Sys2Proof/Laws/KeepsFaultRows.lean ====
section
/-! SUPPORT. The operations of Machine/FaultRows.lean keep the queue, the programmed OTP words and the canonical memories. -/

set_option linter.unusedTactic false
set_option linter.unreachableTactic false
set_option linter.unusedVariables false

namespace Sys2Proof.Machine

theorem State.memStop_keeps {s0 : State} (s : State) (b : Nat) (h_s : Keeps s0 s) : Keeps s0 (State.memStop s b) := by
  unfold State.memStop
  repeat' first
    | with_reducible assumption
    | with_reducible apply Keeps.ite
    | with_reducible apply State.jrnStop_keeps
    | split
    | dsimp only
    | assumption

theorem State.ringFail_keeps {s0 : State} (s : State) (d : Die) (h_s : Keeps s0 s) : Keeps s0 (State.ringFail s d) := by
  unfold State.ringFail
  repeat' first
    | with_reducible assumption
    | intro _
    | with_reducible apply State.free_keeps
    | with_reducible apply State.latch_keeps
    | with_reducible apply State.ringFix_keeps
    | fail_if_no_progress (with_reducible apply Keeps.mk; (try dsimp only); with_reducible apply Keeps.parts)
    | split
    | dsimp only
    | assumption
    | (with_reducible apply Keeps.mk; (try dsimp only); refine KeepsParts.sameMem (Keeps.parts ?_) rfl rfl)

theorem doFaultLatch_keeps {s0 : State} (bit : Fin 64) (s : State) (h_s : Keeps s0 s) : Keeps s0 (doFaultLatch bit s) := by
  unfold doFaultLatch
  repeat' first
    | with_reducible assumption
    | intro _
    | with_reducible apply Keeps.ite
    | with_reducible apply State.causeOn_keeps
    | with_reducible apply State.crcHalt_keeps
    | with_reducible apply State.crcRest_keeps
    | with_reducible apply State.fCause_keeps
    | with_reducible apply State.latch_keeps
    | with_reducible apply State.latchReset_keeps
    | with_reducible apply State.memStop_keeps
    | with_reducible apply State.ringFail_keeps
    | with_reducible apply State.shelf_keeps
    | with_reducible apply State.stitchReset_keeps
    | with_reducible apply State.updDie_keeps
    | exact fun _ h => h
    | fail_if_no_progress (with_reducible apply Keeps.mk; (try dsimp only); with_reducible apply Keeps.parts)
    | split
    | dsimp only
    | assumption

theorem State.relatch_keeps {s0 : State} (s : State) (b : Nat) (h_s : Keeps s0 s) : Keeps s0 (State.relatch s b) := by
  unfold State.relatch
  repeat' first
    | with_reducible assumption
    | with_reducible apply State.bump_keeps
    | with_reducible apply State.event2_keeps
    | dsimp only
    | assumption

theorem State.clearBit_keeps {s0 : State} (s : State) (b : Nat) (h_s : Keeps s0 s) : Keeps s0 (State.clearBit s b) := by
  unfold State.clearBit
  repeat' first
    | with_reducible assumption
    | intro _
    | with_reducible apply Keeps.ite
    | with_reducible apply State.relatch_keeps
    | with_reducible apply State.updDie_keeps
    | with_reducible apply Keeps.foldl
    | fail_if_no_progress (with_reducible apply Keeps.mk; (try dsimp only); with_reducible apply Keeps.parts)
    | split
    | dsimp only
    | assumption

theorem State.clearSec_keeps {s0 : State} (s : State) (b : Nat) (h_s : Keeps s0 s) : Keeps s0 (State.clearSec s b) := by
  unfold State.clearSec
  repeat' first
    | with_reducible assumption
    | with_reducible apply Keeps.ite
    | with_reducible apply State.relatch_keeps
    | fail_if_no_progress (with_reducible apply Keeps.mk; (try dsimp only); with_reducible apply Keeps.parts)
    | split
    | dsimp only
    | assumption

theorem doFswClr_keeps {s0 : State} (seat : Fin 8) (mask : Nat) (s : State) (h_s : Keeps s0 s) : Keeps s0 (doFswClr seat mask s) := by
  unfold doFswClr
  repeat' first
    | with_reducible assumption
    | intro _
    | with_reducible apply State.clearBit_keeps
    | with_reducible apply State.write_keeps
    | with_reducible apply Keeps.foldl
    | dsimp only
    | assumption

theorem doFswSecClr_keeps {s0 : State} (seat : Fin 8) (mask : Nat) (s : State) (h_s : Keeps s0 s) : Keeps s0 (doFswSecClr seat mask s) := by
  unfold doFswSecClr
  repeat' first
    | with_reducible assumption
    | intro _
    | with_reducible apply State.clearSec_keeps
    | with_reducible apply State.write_keeps
    | with_reducible apply Keeps.foldl
    | dsimp only
    | assumption

theorem doShadowEnd_keeps {s0 : State} (blk : Blk) (s : State) (h_s : Keeps s0 s) : Keeps s0 (doShadowEnd blk s) := by
  unfold doShadowEnd
  repeat' first
    | with_reducible assumption
    | intro _
    | with_reducible apply State.latch_keeps
    | with_reducible apply Keeps.foldl
    | fail_if_no_progress (with_reducible apply Keeps.mk; (try dsimp only); with_reducible apply Keeps.parts)
    | split
    | dsimp only
    | assumption

theorem State.fldClocks_keeps {s0 : State} (s : State) (h_s : Keeps s0 s) : Keeps s0 (State.fldClocks s) := by
  unfold State.fldClocks
  repeat' first
    | with_reducible assumption
    | with_reducible apply Keeps.ite
    | with_reducible apply State.causeOff_keeps
    | with_reducible apply State.updDie_keeps
    | fail_if_no_progress (with_reducible apply Keeps.mk; (try dsimp only); with_reducible apply Keeps.parts)
    | split
    | dsimp only
    | assumption

theorem doBlockResetComplete_keeps {s0 : State} (blk : Blk) (s : State) (h_s : Keeps s0 s) : Keeps s0 (doBlockResetComplete blk s) := by
  unfold doBlockResetComplete
  repeat' first
    | with_reducible assumption
    | intro _
    | with_reducible apply Keeps.ite
    | with_reducible apply State.causeOff_keeps
    | with_reducible apply State.fldClocks_keeps
    | with_reducible apply State.updDie_keeps
    | fail_if_no_progress (with_reducible apply Keeps.mk; (try dsimp only); with_reducible apply Keeps.parts)
    | split
    | dsimp only
    | assumption

theorem doLeaseRequest_keeps {s0 : State} (res party : Nat) (s : State) (h_s : Keeps s0 s) : Keeps s0 (doLeaseRequest res party s) := by
  unfold doLeaseRequest
  repeat' first
    | with_reducible assumption
    | with_reducible apply Keeps.ite
    | with_reducible apply State.leaseAsk_keeps
    | split
    | dsimp only
    | assumption

theorem doLeaseRenew_keeps {s0 : State} (res party : Nat) (s : State) (h_s : Keeps s0 s) : Keeps s0 (doLeaseRenew res party s) := by
  unfold doLeaseRenew
  repeat' first
    | with_reducible assumption
    | with_reducible apply Keeps.ite
    | with_reducible apply State.setLease_keeps
    | fail_if_no_progress (with_reducible apply Keeps.mk; (try dsimp only); with_reducible apply Keeps.parts)
    | split
    | dsimp only
    | assumption

theorem doLeaseRelease_keeps {s0 : State} (res party : Nat) (s : State) (h_s : Keeps s0 s) : Keeps s0 (doLeaseRelease res party s) := by
  unfold doLeaseRelease
  repeat' first
    | with_reducible assumption
    | with_reducible apply Keeps.ite
    | with_reducible apply State.leaseAsk_keeps
    | with_reducible apply State.leaseEnd_keeps
    | with_reducible apply State.leaseStart_keeps
    | with_reducible apply State.otpNext_keeps
    | split
    | dsimp only
    | assumption

theorem doLeaseExpire_keeps {s0 : State} (res : Nat) (s : State) (h_s : Keeps s0 s) : Keeps s0 (doLeaseExpire res s) := by
  unfold doLeaseExpire
  repeat' first
    | with_reducible assumption
    | with_reducible apply Keeps.ite
    | with_reducible apply State.ans_keeps
    | with_reducible apply State.free_keeps
    | with_reducible apply State.latch_keeps
    | with_reducible apply State.leaseReset_keeps
    | with_reducible apply State.leaseStart_keeps
    | with_reducible apply State.otpNext_keeps
    | with_reducible apply State.setLease_keeps
    | fail_if_no_progress (with_reducible apply Keeps.mk; (try dsimp only); with_reducible apply Keeps.parts)
    | split
    | dsimp only
    | assumption

theorem State.readmFail_keeps {s0 : State} (s : State) (d : Die) (h_s : Keeps s0 s) : Keeps s0 (State.readmFail s d) := by
  unfold State.readmFail
  repeat' first
    | with_reducible assumption
    | intro _
    | with_reducible apply State.bump_keeps
    | with_reducible apply State.setDie_keeps
    | with_reducible apply State.setDieSt_keeps
    | fail_if_no_progress (with_reducible apply Keeps.mk; (try dsimp only); with_reducible apply Keeps.parts)
    | dsimp only
    | assumption

theorem doReadmitPowerRestore_keeps {s0 : State} (d : Die) (s : State) (h_s : Keeps s0 s) : Keeps s0 (doReadmitPowerRestore d s) := by
  unfold doReadmitPowerRestore
  repeat' first
    | with_reducible assumption
    | with_reducible apply Keeps.ite
    | with_reducible apply State.setDieSt_keeps
    | fail_if_no_progress (with_reducible apply Keeps.mk; (try dsimp only); with_reducible apply Keeps.parts)
    | split
    | dsimp only
    | assumption

theorem doReadmitBootDone_keeps {s0 : State} (d : Die) (ok : Bool) (s : State) (h_s : Keeps s0 s) : Keeps s0 (doReadmitBootDone d ok s) := by
  unfold doReadmitBootDone
  repeat' first
    | with_reducible assumption
    | intro _
    | with_reducible apply Keeps.ite
    | with_reducible apply State.readmFail_keeps
    | with_reducible apply State.updDie_keeps
    | fail_if_no_progress (with_reducible apply Keeps.mk; (try dsimp only); with_reducible apply Keeps.parts)
    | split
    | dsimp only
    | assumption

theorem doReadmitTimeout_keeps {s0 : State} (d : Die) (s : State) (h_s : Keeps s0 s) : Keeps s0 (doReadmitTimeout d s) := by
  unfold doReadmitTimeout
  repeat' first
    | with_reducible assumption
    | with_reducible apply Keeps.ite
    | with_reducible apply State.readmFail_keeps
    | split
    | dsimp only
    | assumption

theorem doStateTransferRx_keeps {s0 : State} (d : Die) (h : FlitHdr) (s : State) (h_s : Keeps s0 s) : Keeps s0 (doStateTransferRx d h s) := by
  unfold doStateTransferRx
  repeat' first
    | with_reducible assumption
    | intro _
    | with_reducible apply Keeps.ite
    | with_reducible apply State.flit_keeps
    | with_reducible apply State.revert_keeps
    | with_reducible apply State.takeState_keeps
    | fail_if_no_progress (with_reducible apply Keeps.mk; (try dsimp only); with_reducible apply Keeps.parts)
    | split
    | dsimp only
    | assumption

theorem doMdieReadmit_keeps {s0 : State} (s : State) (h_s : Keeps s0 s) : Keeps s0 (doMdieReadmit s) := by
  unfold doMdieReadmit
  repeat' first
    | with_reducible assumption
    | exact KeepsParts.rings h_s (fun m => ⟨rfl, m.2⟩)
    | with_reducible apply Keeps.ite
    | with_reducible apply State.bump_keeps
    | with_reducible apply State.setDieSt_keeps
    | with_reducible apply State.setReg_keeps
    | with_reducible apply State.updDie_keeps
    | fail_if_no_progress (with_reducible apply Keeps.mk; (try dsimp only); with_reducible apply Keeps.parts)
    | split
    | dsimp only
    | assumption
    | (with_reducible apply Keeps.mk; (try dsimp only); refine KeepsParts.sameMem (Keeps.parts ?_) rfl rfl)

theorem State.girthError_keeps {s0 : State} (s : State) (d : Die) (h_s : Keeps s0 s) : Keeps s0 (State.girthError s d) := by
  unfold State.girthError
  repeat' first
    | with_reducible assumption
    | with_reducible apply State.bump_keeps
    | with_reducible apply State.latch_keeps
    | with_reducible apply State.setReg_keeps
    | fail_if_no_progress (with_reducible apply Keeps.mk; (try dsimp only); with_reducible apply Keeps.parts)
    | dsimp only
    | assumption

theorem doGirthHeartbeatTimeout_keeps {s0 : State} (d : Die) (s : State) (h_s : Keeps s0 s) : Keeps s0 (doGirthHeartbeatTimeout d s) := by
  unfold doGirthHeartbeatTimeout
  repeat' first
    | with_reducible assumption
    | with_reducible apply Keeps.ite
    | with_reducible apply State.girthError_keeps
    | split
    | dsimp only
    | assumption

theorem doGirthChallenge_keeps {s0 : State} (word : Nat) (s : State) (h_s : Keeps s0 s) : Keeps s0 (doGirthChallenge word s) := by
  unfold doGirthChallenge
  repeat' first
    | with_reducible assumption
    | with_reducible apply Keeps.ite
    | fail_if_no_progress (with_reducible apply Keeps.mk; (try dsimp only); with_reducible apply Keeps.parts)
    | split
    | dsimp only
    | assumption

theorem doGirthResponseRx_keeps {s0 : State} (d : Die) (v : Nat) (s : State) (h_s : Keeps s0 s) : Keeps s0 (doGirthResponseRx d v s) := by
  unfold doGirthResponseRx
  repeat' first
    | with_reducible assumption
    | with_reducible apply Keeps.ite
    | with_reducible apply State.girthError_keeps
    | fail_if_no_progress (with_reducible apply Keeps.mk; (try dsimp only); with_reducible apply Keeps.parts)
    | split
    | dsimp only
    | assumption

theorem doGirthResponseTimeout_keeps {s0 : State} (d : Die) (s : State) (h_s : Keeps s0 s) : Keeps s0 (doGirthResponseTimeout d s) := by
  unfold doGirthResponseTimeout
  repeat' first
    | with_reducible assumption
    | with_reducible apply Keeps.ite
    | with_reducible apply State.girthError_keeps
    | fail_if_no_progress (with_reducible apply Keeps.mk; (try dsimp only); with_reducible apply Keeps.parts)
    | split
    | dsimp only
    | assumption

theorem doZoneRrst_keeps {s0 : State} (seat : Fin 8) (z : Fin 64) (v : Nat) (s : State) (h_s : Keeps s0 s) : Keeps s0 (doZoneRrst seat z v s) := by
  unfold doZoneRrst
  repeat' first
    | with_reducible assumption
    | intro _
    | with_reducible apply Keeps.ite
    | with_reducible apply State.setReg_keeps
    | with_reducible apply State.shelf_keeps
    | with_reducible apply State.write_keeps
    | fail_if_no_progress (with_reducible apply Keeps.mk; (try dsimp only); with_reducible apply Keeps.parts)
    | split
    | dsimp only
    | assumption

theorem doStdinVal_keeps {s0 : State} (seat : Fin 8) (slot : Fin 256) (v : Nat) (s : State) (h_s : Keeps s0 s) : Keeps s0 (doStdinVal seat slot v s) := by
  unfold doStdinVal
  repeat' first
    | with_reducible assumption
    | intro _
    | with_reducible apply State.write_keeps
    | fail_if_no_progress (with_reducible apply Keeps.mk; (try dsimp only); with_reducible apply Keeps.parts)
    | split
    | dsimp only
    | assumption

end Sys2Proof.Machine
end

