-- ==== Sys2Proof/Laws/KeepsPatRows.lean ====
section
/-! SUPPORT. The operations of Machine/PatRows.lean keep the queue, the programmed OTP words and the canonical memories. -/

set_option linter.unusedTactic false
set_option linter.unreachableTactic false
set_option linter.unusedVariables false

namespace Sys2Proof.Machine

theorem State.dropCand_keeps {s0 : State} (s : State) (h_s : Keeps s0 s) : Keeps s0 (State.dropCand s) := by
  unfold State.dropCand
  repeat' first
    | with_reducible assumption
    | fail_if_no_progress (with_reducible apply Keeps.mk; (try dsimp only); with_reducible apply Keeps.parts)
    | dsimp only
    | assumption
    | (with_reducible apply Keeps.mk; (try dsimp only); refine KeepsParts.sameMem (Keeps.parts ?_) rfl rfl)

theorem doPatImage_keeps {s0 : State} (seat : Fin 8) (ofs : Nat) (data : List Byte) (s : State) (h_s : Keeps s0 s) :
    Keeps s0 (doPatImage seat ofs data s) := by
  have g (c : Bool) (f : PatFlash) : let f' := if c then f.put ofs data else f
      (f.Ok → f'.Ok) ∧ f.log <+: f'.log := by
    dsimp only
    split
    · exact ⟨PatFlash.ok_put _ _, by rw [PatFlash.log_put]⟩
    · exact ⟨id, List.prefix_refl _⟩
  unfold doPatImage
  apply State.write_keeps (h_s := h_s)
  intro t h
  apply Keeps.ite (State.ans_keeps _ _ h)
  apply Keeps.ite (State.ans_keeps _ _ h)
  exact Keeps.mk (h.parts.flash (g _ _).1 (g _ _).1 (g _ _).2 (g _ _).2)

theorem doLoad_keeps {s0 : State} (seat : Fin 8) (s : State) (h_s : Keeps s0 s) : Keeps s0 (doLoad seat s) := by
  unfold doLoad
  repeat' first
    | with_reducible assumption
    | intro _
    | with_reducible apply State.dropCand_keeps
    | with_reducible apply State.write_keeps
    | fail_if_no_progress (with_reducible apply Keeps.mk; (try dsimp only); with_reducible apply Keeps.parts)
    | dsimp only
    | assumption

theorem doDiscard_keeps {s0 : State} (seat : Fin 8) (s : State) (h_s : Keeps s0 s) : Keeps s0 (doDiscard seat s) := by
  unfold doDiscard
  repeat' first
    | with_reducible assumption
    | intro _
    | with_reducible apply State.dropCand_keeps
    | with_reducible apply State.write_keeps
    | fail_if_no_progress (with_reducible apply Keeps.mk; (try dsimp only); with_reducible apply Keeps.parts)
    | dsimp only
    | assumption

theorem State.takeCand_keeps {s0 : State} (s : State) (p : Pattern) (h_s : Keeps s0 s) : Keeps s0 (State.takeCand s p) := by
  unfold State.takeCand
  repeat' first
    | with_reducible assumption
    | with_reducible apply State.causeOff_keeps
    | with_reducible apply State.ringsFor_keeps
    | fail_if_no_progress (with_reducible apply Keeps.mk; (try dsimp only); with_reducible apply Keeps.parts)
    | dsimp only
    | assumption

theorem State.failCand_keeps {s0 : State} (s : State) (e : Nat) (h_s : Keeps s0 s) : Keeps s0 (State.failCand s e) := by
  unfold State.failCand
  repeat' first
    | with_reducible assumption
    | fail_if_no_progress (with_reducible apply Keeps.mk; (try dsimp only); with_reducible apply Keeps.parts)
    | dsimp only
    | assumption

theorem doPatternCheckDone_keeps {s0 : State} (s : State) (h_s : Keeps s0 s) : Keeps s0 (doPatternCheckDone s) := by
  unfold doPatternCheckDone
  repeat' first
    | with_reducible assumption
    | with_reducible apply Keeps.ite
    | with_reducible apply State.failCand_keeps
    | with_reducible apply State.free_keeps
    | with_reducible apply State.takeCand_keeps
    | split
    | dsimp only
    | assumption

theorem State.confirmFail_keeps {s0 : State} (s : State) (h_s : Keeps s0 s) : Keeps s0 (State.confirmFail s) := by
  unfold State.confirmFail
  repeat' first
    | with_reducible assumption
    | with_reducible apply Keeps.ite
    | with_reducible apply State.ans_keeps
    | with_reducible apply State.bump_keeps
    | fail_if_no_progress (with_reducible apply Keeps.mk; (try dsimp only); with_reducible apply Keeps.parts)
    | split
    | dsimp only
    | assumption

theorem doConfirm_keeps {s0 : State} (seat : Fin 8) (bytes : List Byte) (s : State) (h_s : Keeps s0 s) : Keeps s0 (doConfirm seat bytes s) := by
  unfold doConfirm
  repeat' first
    | with_reducible assumption
    | intro _
    | with_reducible apply Keeps.ite
    | with_reducible apply State.confirmFail_keeps
    | with_reducible apply State.write_keeps
    | fail_if_no_progress (with_reducible apply Keeps.mk; (try dsimp only); with_reducible apply Keeps.parts)
    | split
    | dsimp only
    | assumption
    | (with_reducible apply Keeps.mk; (try dsimp only); refine KeepsParts.sameMem (Keeps.parts ?_) rfl rfl)

theorem doChangeLogCommit_keeps {s0 : State} (s : State) (h_s : Keeps s0 s) : Keeps s0 (doChangeLogCommit s) := by
  unfold doChangeLogCommit
  repeat' first
    | with_reducible assumption
    | with_reducible apply Keeps.ite
    | with_reducible apply State.logAppend_keeps
    | fail_if_no_progress (with_reducible apply Keeps.mk; (try dsimp only); with_reducible apply Keeps.parts)
    | split
    | dsimp only
    | assumption
    | (with_reducible apply Keeps.mk; (try dsimp only); refine KeepsParts.sameMem (Keeps.parts ?_) rfl rfl)

end Sys2Proof.Machine
end

