-- ==== Sys2Proof/Laws/KeepsCrcRows.lean ====
section
/-! SUPPORT. The operations of Machine/CrcRows.lean keep the queue, the programmed OTP words and the canonical memories. -/

set_option linter.unusedTactic false
set_option linter.unreachableTactic false
set_option linter.unusedVariables false

namespace Sys2Proof.Machine

theorem State.refuse_keeps {s0 : State} (s : State) (l : List (Bool × Status)) (f : State → State) (h_s : Keeps s0 s) (k_f : ∀ t, Keeps s0 t → Keeps s0 (f t)) : Keeps s0 (State.refuse s l f) := by
  unfold State.refuse
  repeat' first
    | with_reducible assumption
    | intro _
    | with_reducible apply Keeps.ite
    | with_reducible apply State.ans_keeps
    | with_reducible apply State.shelf_keeps
    | apply k_f
    | fail_if_no_progress (with_reducible apply Keeps.mk; (try dsimp only); with_reducible apply Keeps.parts)
    | split
    | dsimp only
    | assumption

theorem doCrcDescriptorDone_keeps {s0 : State} (d : Die) (c : Fin 8) (s : State) (h_s : Keeps s0 s) : Keeps s0 (doCrcDescriptorDone d c s) := by
  unfold doCrcDescriptorDone
  repeat' first
    | with_reducible assumption
    | with_reducible apply Keeps.ite
    | with_reducible apply State.crcFeedDesc_keeps
    | with_reducible apply State.crcNext_keeps
    | with_reducible apply State.crcRest_keeps
    | fail_if_no_progress (with_reducible apply Keeps.mk; (try dsimp only); with_reducible apply Keeps.parts)
    | split
    | dsimp only
    | assumption
    | (with_reducible apply Keeps.mk; (try dsimp only); refine KeepsParts.sameMem (Keeps.parts ?_) rfl rfl)

theorem State.crcStart_keeps {s0 : State} (s : State) (k : Nat) (h_s : Keeps s0 s) : Keeps s0 (State.crcStart s k) := by
  unfold State.crcStart
  repeat' first
    | with_reducible assumption
    | intro _
    | with_reducible apply Keeps.ite
    | with_reducible apply State.crcNext_keeps
    | with_reducible apply State.setReg_keeps
    | fail_if_no_progress (with_reducible apply Keeps.mk; (try dsimp only); with_reducible apply Keeps.parts)
    | split
    | dsimp only
    | assumption

theorem doCrcEnable_keeps {s0 : State} (seat : Fin 8) (d : Die) (c : Fin 8) (s : State) (h_s : Keeps s0 s) : Keeps s0 (doCrcEnable seat d c s) := by
  unfold doCrcEnable
  repeat' first
    | with_reducible assumption
    | intro _
    | with_reducible apply State.crcStart_keeps
    | with_reducible apply State.refuse_keeps
    | dsimp only
    | assumption

theorem doCrcAbort_keeps {s0 : State} (seat : Fin 8) (d : Die) (c : Fin 8) (s : State) (h_s : Keeps s0 s) : Keeps s0 (doCrcAbort seat d c s) := by
  unfold doCrcAbort
  repeat' first
    | with_reducible assumption
    | intro _
    | with_reducible apply Keeps.ite
    | with_reducible apply State.crcHalt_keeps
    | with_reducible apply State.crcRest_keeps
    | with_reducible apply State.refuse_keeps
    | split
    | dsimp only
    | assumption

theorem State.loadPreset_keeps {s0 : State} (s : State) (k v : Nat) (p : CrcPar) (h_s : Keeps s0 s) : Keeps s0 (State.loadPreset s k v p) := by
  unfold State.loadPreset
  repeat' first
    | with_reducible assumption
    | with_reducible apply State.setReg_keeps
    | dsimp only
    | assumption

theorem doCrcPreset_keeps {s0 : State} (seat : Fin 8) (d : Die) (c : Fin 8) (v : Nat) (s : State) (h_s : Keeps s0 s) : Keeps s0 (doCrcPreset seat d c v s) := by
  unfold doCrcPreset
  repeat' first
    | with_reducible assumption
    | intro _
    | with_reducible apply State.loadPreset_keeps
    | with_reducible apply State.refuse_keeps
    | fail_if_no_progress (with_reducible apply Keeps.mk; (try dsimp only); with_reducible apply Keeps.parts)
    | split
    | dsimp only
    | assumption

theorem doCrcParameterWrite_keeps {s0 : State} (seat : Fin 8) (d : Die) (c : Fin 8) (sub v : Nat) (s : State) (h_s : Keeps s0 s) : Keeps s0 (doCrcParameterWrite seat d c sub v s) := by
  unfold doCrcParameterWrite
  repeat' first
    | with_reducible assumption
    | intro _
    | with_reducible apply Keeps.ite
    | with_reducible apply State.refuse_keeps
    | with_reducible apply State.setReg_keeps
    | fail_if_no_progress (with_reducible apply Keeps.mk; (try dsimp only); with_reducible apply Keeps.parts)
    | split
    | dsimp only
    | assumption

theorem doTimerMatch_keeps {s0 : State} (d : Die) (t : Fin 8) (s : State) (h_s : Keeps s0 s) : Keeps s0 (doTimerMatch d t s) := by
  unfold doTimerMatch
  repeat' first
    | with_reducible assumption
    | with_reducible apply Keeps.ite
    | with_reducible apply State.putTimer_keeps
    | with_reducible apply State.shelf_keeps
    | split
    | dsimp only
    | assumption

theorem doTimerReload_keeps {s0 : State} (d : Die) (t : Fin 8) (s : State) (h_s : Keeps s0 s) : Keeps s0 (doTimerReload d t s) := by
  unfold doTimerReload
  repeat' first
    | with_reducible assumption
    | with_reducible apply Keeps.ite
    | with_reducible apply State.putTimer_keeps
    | with_reducible apply State.shelf_keeps
    | split
    | dsimp only
    | assumption

theorem doTmrCtrl_keeps {s0 : State} (seat : Fin 8) (d : Die) (t : Fin 8) (v : Nat) (s : State) (h_s : Keeps s0 s) : Keeps s0 (doTmrCtrl seat d t v s) := by
  unfold doTmrCtrl
  repeat' first
    | with_reducible assumption
    | intro _
    | with_reducible apply Keeps.ite
    | with_reducible apply State.refuse_keeps
    | with_reducible apply State.setTimer_keeps
    | fail_if_no_progress (with_reducible apply Keeps.mk; (try dsimp only); with_reducible apply Keeps.parts)
    | split
    | dsimp only
    | assumption

theorem doTmrCmp_keeps {s0 : State} (seat : Fin 8) (d : Die) (t : Fin 8) (v : Nat) (s : State) (h_s : Keeps s0 s) : Keeps s0 (doTmrCmp seat d t v s) := by
  unfold doTmrCmp
  repeat' first
    | with_reducible assumption
    | intro _
    | with_reducible apply State.putTimer_keeps
    | with_reducible apply State.refuse_keeps
    | dsimp only
    | assumption

theorem doTmrCmpNext_keeps {s0 : State} (seat : Fin 8) (d : Die) (t : Fin 8) (v : Nat) (s : State) (h_s : Keeps s0 s) : Keeps s0 (doTmrCmpNext seat d t v s) := by
  unfold doTmrCmpNext
  repeat' first
    | with_reducible assumption
    | intro _
    | with_reducible apply State.refuse_keeps
    | with_reducible apply State.setTimer_keeps
    | fail_if_no_progress (with_reducible apply Keeps.mk; (try dsimp only); with_reducible apply Keeps.parts)
    | dsimp only
    | assumption

theorem doTmrCount_keeps {s0 : State} (seat : Fin 8) (d : Die) (t : Fin 8) (v : Nat) (s : State) (h_s : Keeps s0 s) : Keeps s0 (doTmrCount seat d t v s) := by
  unfold doTmrCount
  repeat' first
    | with_reducible assumption
    | intro _
    | with_reducible apply State.refuse_keeps
    | with_reducible apply State.setTimer_keeps
    | fail_if_no_progress (with_reducible apply Keeps.mk; (try dsimp only); with_reducible apply Keeps.parts)
    | dsimp only
    | assumption

end Sys2Proof.Machine
end

