-- ==== Sys2Proof/Laws/KeepsRingRows.lean ====
section
/-! SUPPORT. The operations of Machine/RingRows.lean keep the queue, the programmed OTP words and the canonical memories. -/

set_option linter.unusedTactic false
set_option linter.unreachableTactic false
set_option linter.unusedVariables false

namespace Sys2Proof.Machine

theorem State.freeBytes_keeps {s0 : State} (s : State) (k : Nat) (h_s : Keeps s0 s) : Keeps s0 (State.freeBytes s k).2 := by
  unfold State.freeBytes
  repeat' first
    | with_reducible assumption
    | with_reducible apply State.free_keeps
    | dsimp only
    | assumption

theorem State.readEntries_keeps {s0 : State} (s : State) (n : Nat) (cs : List Nat) (h_s : Keeps s0 s) : Keeps s0 (State.readEntries s n cs) := by
  unfold State.readEntries
  repeat' first
    | with_reducible assumption
    | intro _
    | with_reducible apply Keeps.ite
    | with_reducible apply State.freeBytes_keeps
    | with_reducible apply State.reply_keeps
    | with_reducible apply Keeps.foldl
    | with_reducible apply Keeps.foldlSnd
    | split
    | dsimp only
    | assumption

theorem doRingRead_keeps {s0 : State} (seat : Fin 8) (ofs count : Nat) (s : State) (h_s : Keeps s0 s) : Keeps s0 (doRingRead seat ofs count s) := by
  unfold doRingRead
  repeat' first
    | with_reducible assumption
    | intro _
    | with_reducible apply State.readEntries_keeps
    | with_reducible apply State.refuse_keeps
    | with_reducible apply State.ringFix_keeps
    | dsimp only
    | assumption

theorem State.pushAll_keeps {s0 : State} (s : State) (n : Nat) (es : List (List Byte)) (h_s : Keeps s0 s) : Keeps s0 (State.pushAll s n es) := by
  unfold State.pushAll
  with_reducible apply State.crcKick_keeps
  with_reducible apply Keeps.foldl
  · exact h_s
  · intro t x h
    unfold State.crcTouchHead State.crcTouch
    exact Keeps.mk (h.parts.rings (Rings.ok_devPut _ _ n _ x))

theorem State.pushed_keeps {s0 : State} (s : State) (seat n : Nat) (h_s : Keeps s0 s) : Keeps s0 (State.pushed s seat n) := by
  unfold State.pushed
  repeat' first
    | with_reducible assumption
    | with_reducible apply Keeps.ite
    | fail_if_no_progress (with_reducible apply Keeps.mk; (try dsimp only); with_reducible apply Keeps.parts)
    | split
    | dsimp only
    | assumption
    | (with_reducible apply Keeps.mk; (try dsimp only); refine KeepsParts.sameMem (Keeps.parts ?_) rfl rfl)

theorem doRingPush_keeps {s0 : State} (seat : Fin 8) (data : List Byte) (s : State) (h_s : Keeps s0 s) : Keeps s0 (doRingPush seat data s) := by
  unfold doRingPush
  repeat' first
    | with_reducible assumption
    | intro _
    | with_reducible apply State.pushAll_keeps
    | with_reducible apply State.pushed_keeps
    | with_reducible apply State.refuse_keeps
    | with_reducible apply State.ringFix_keeps
    | dsimp only
    | assumption

theorem doRingConsume_keeps {s0 : State} (seat : Fin 8) (k : Nat) (s : State) (h_s : Keeps s0 s) : Keeps s0 (doRingConsume seat k s) := by
  unfold doRingConsume
  repeat' first
    | with_reducible assumption
    | intro _
    | with_reducible apply State.refuse_keeps
    | with_reducible apply State.ringFix_keeps
    | fail_if_no_progress (with_reducible apply Keeps.mk; (try dsimp only); with_reducible apply Keeps.parts)
    | dsimp only
    | assumption
    | (with_reducible apply Keeps.mk; (try dsimp only); refine KeepsParts.sameMem (Keeps.parts ?_) rfl rfl)

theorem doFree_keeps {s0 : State} (seat : Fin 8) (s : State) (h_s : Keeps s0 s) : Keeps s0 (doFree seat s) := by
  unfold doFree
  repeat' first
    | with_reducible assumption
    | intro _
    | with_reducible apply State.free_keeps
    | with_reducible apply State.refuse_keeps
    | with_reducible apply State.ringFix_keeps
    | fail_if_no_progress (with_reducible apply Keeps.mk; (try dsimp only); with_reducible apply Keeps.parts)
    | dsimp only
    | assumption
    | (with_reducible apply Keeps.mk; (try dsimp only); refine KeepsParts.sameMem (Keeps.parts ?_) rfl rfl)

theorem doReset_keeps {s0 : State} (seat : Fin 8) (s : State) (h_s : Keeps s0 s) : Keeps s0 (doReset seat s) := by
  unfold doReset
  repeat' first
    | with_reducible assumption
    | intro _
    | with_reducible apply State.refuse_keeps
    | with_reducible apply State.ringFix_keeps
    | fail_if_no_progress (with_reducible apply Keeps.mk; (try dsimp only); with_reducible apply Keeps.parts)
    | dsimp only
    | assumption
    | (with_reducible apply Keeps.mk; (try dsimp only); refine KeepsParts.sameMem (Keeps.parts ?_) rfl rfl)

theorem doRingAlloc_keeps {s0 : State} (d : Die) (seat : Fin 8) (v : Nat) (s : State) (h_s : Keeps s0 s) : Keeps s0 (doRingAlloc d seat v s) := by
  unfold doRingAlloc
  repeat' first
    | with_reducible assumption
    | intro _
    | with_reducible apply State.refuse_keeps
    | with_reducible apply State.updSeat_keeps
    | fail_if_no_progress (with_reducible apply Keeps.mk; (try dsimp only); with_reducible apply Keeps.parts)
    | split
    | dsimp only
    | assumption
    | (with_reducible apply Keeps.mk; (try dsimp only); refine KeepsParts.sameMem (Keeps.parts ?_) rfl rfl)

theorem doJrnDataRead_keeps {s0 : State} (d : Die) (seat : Fin 8) (ofs count : Nat) (s : State) (h_s : Keeps s0 s) : Keeps s0 (doJrnDataRead d seat ofs count s) := by
  unfold doJrnDataRead
  repeat' first
    | with_reducible assumption
    | intro _
    | with_reducible apply State.refuse_keeps
    | with_reducible apply State.reply_keeps
    | dsimp only
    | assumption

theorem State.jrnSync_keeps {s0 : State} (d : Die) (p : Pattern) (s : State) (v : Var) (h_s : Keeps s0 s) : Keeps s0 (State.jrnSync d p s v) := by
  unfold State.jrnSync
  repeat' first
    | with_reducible assumption
    | intro _
    | with_reducible apply Keeps.ite
    | with_reducible apply State.jrnRec_keeps
    | with_reducible apply State.updDie_keeps
    | exact fun _ h => h
    | fail_if_no_progress (with_reducible apply Keeps.mk; (try dsimp only); with_reducible apply Keeps.parts)
    | split
    | dsimp only
    | assumption

theorem doJournalResume_keeps {s0 : State} (d : Die) (s : State) (h_s : Keeps s0 s) : Keeps s0 (doJournalResume d s) := by
  unfold doJournalResume
  repeat' first
    | with_reducible assumption
    | intro _
    | with_reducible apply Keeps.ite
    | with_reducible apply State.bumpOnce_keeps
    | with_reducible apply State.jrnSync_keeps
    | with_reducible apply State.setDie_keeps
    | with_reducible apply Keeps.foldl
    | fail_if_no_progress (with_reducible apply Keeps.mk; (try dsimp only); with_reducible apply Keeps.parts)
    | split
    | dsimp only
    | assumption

end Sys2Proof.Machine
end

