-- ==== Sys2Proof/Laws/KeepsTestRows.lean ====
section
/-! SUPPORT. The operations of Machine/TestRows.lean keep the queue, the programmed OTP words and the canonical memories. -/

set_option linter.unusedTactic false
set_option linter.unreachableTactic false
set_option linter.unusedVariables false

namespace Sys2Proof.Machine

theorem State.reqBegin_keeps {s0 : State} (s : State) (h_s : Keeps s0 s) : Keeps s0 (State.reqBegin s) := by
  unfold State.reqBegin
  repeat' first
    | with_reducible assumption
    | intro _
    | fail_if_no_progress (with_reducible apply Keeps.mk; (try dsimp only); with_reducible apply Keeps.parts)
    | split
    | dsimp only
    | assumption

theorem State.roundEnd_keeps {s0 : State} (s : State) (h_s : Keeps s0 s) : Keeps s0 (State.roundEnd s) := by
  unfold State.roundEnd
  repeat' first
    | with_reducible assumption
    | intro _
    | with_reducible apply Keeps.ite
    | with_reducible apply State.bump_keeps
    | with_reducible apply State.newRound_keeps
    | with_reducible apply State.setReg_keeps
    | fail_if_no_progress (with_reducible apply Keeps.mk; (try dsimp only); with_reducible apply Keeps.parts)
    | split
    | dsimp only
    | assumption

theorem State.itemTested_keeps {s0 : State} (s : State) (d : Die) (item : Nat) (h_s : Keeps s0 s) : Keeps s0 (State.itemTested s d item) := by
  unfold State.itemTested
  repeat' first
    | with_reducible assumption
    | intro _
    | with_reducible apply Keeps.ite
    | with_reducible apply State.reqBegin_keeps
    | with_reducible apply State.roundEnd_keeps
    | fail_if_no_progress (with_reducible apply Keeps.mk; (try dsimp only); with_reducible apply Keeps.parts)
    | split
    | dsimp only
    | assumption

theorem State.nextSpare_keeps {s0 : State} (s : State) (d : Die) (item : Nat) (h_s : Keeps s0 s) : Keeps s0 (State.nextSpare s d item).2 := by
  unfold State.nextSpare
  repeat' first
    | with_reducible assumption
    | intro _
    | with_reducible apply Keeps.ite
    | with_reducible apply State.free_keeps
    | fail_if_no_progress (with_reducible apply Keeps.mk; (try dsimp only); with_reducible apply Keeps.parts)
    | split
    | dsimp only
    | assumption

theorem State.tryRepair_keeps {s0 : State} (s : State) (d : Die) (item w : Nat) (h_s : Keeps s0 s) : Keeps s0 (State.tryRepair s d item w) := by
  unfold State.tryRepair
  repeat' first
    | with_reducible assumption
    | intro _
    | fail_if_no_progress (with_reducible apply Keeps.mk; (try dsimp only); with_reducible apply Keeps.parts)
    | dsimp only
    | assumption

theorem State.bistCheck_keeps {s0 : State} (s : State) (d : Die) (h_s : Keeps s0 s) : Keeps s0 (State.bistCheck s d) := by
  unfold State.bistCheck
  repeat' first
    | with_reducible assumption
    | intro _
    | with_reducible apply Keeps.ite
    | with_reducible apply State.causeOff_keeps
    | split
    | dsimp only
    | assumption

theorem State.closeItem_keeps {s0 : State} (s : State) (d : Die) (item : Nat) (h_s : Keeps s0 s) : Keeps s0 (State.closeItem s d item) := by
  unfold State.closeItem
  repeat' first
    | with_reducible assumption
    | intro _
    | with_reducible apply State.bistCheck_keeps
    | fail_if_no_progress (with_reducible apply Keeps.mk; (try dsimp only); with_reducible apply Keeps.parts)
    | dsimp only
    | assumption

theorem State.proven_keeps {s0 : State} (s : State) (d : Die) (item w : Nat) (h_s : Keeps s0 s) : Keeps s0 (State.proven s d item w) := by
  unfold State.proven
  repeat' first
    | with_reducible assumption
    | with_reducible apply Keeps.ite
    | with_reducible apply State.closeItem_keeps
    | with_reducible apply State.otpWant_keeps
    | split
    | dsimp only
    | assumption

theorem State.laneBack_keeps {s0 : State} (s : State) (d : Die) (n : Nat) (h_s : Keeps s0 s) : Keeps s0 (State.laneBack s d n) := by
  unfold State.laneBack
  repeat' first
    | with_reducible assumption
    | intro _
    | with_reducible apply Keeps.ite
    | with_reducible apply State.causeOff_keeps
    | with_reducible apply State.free_keeps
    | with_reducible apply State.updDie_keeps
    | fail_if_no_progress (with_reducible apply Keeps.mk; (try dsimp only); with_reducible apply Keeps.parts)
    | split
    | dsimp only
    | assumption

theorem State.itemPass_keeps {s0 : State} (s : State) (d : Die) (item : Nat) (h_s : Keeps s0 s) : Keeps s0 (State.itemPass s d item) := by
  unfold State.itemPass
  repeat' first
    | with_reducible assumption
    | intro _
    | with_reducible apply Keeps.ite
    | with_reducible apply State.closeItem_keeps
    | with_reducible apply State.itemTested_keeps
    | with_reducible apply State.laneBack_keeps
    | with_reducible apply State.proven_keeps
    | with_reducible apply State.updF_keeps
    | fail_if_no_progress (with_reducible apply Keeps.mk; (try dsimp only); with_reducible apply Keeps.parts)
    | split
    | dsimp only
    | assumption

theorem State.itemBit_keeps {s0 : State} (s : State) (d : Die) (item : Nat) (h_s : Keeps s0 s) : Keeps s0 (State.itemBit s d item) := by
  unfold State.itemBit
  repeat' first
    | with_reducible assumption
    | with_reducible apply doFaultLatch_keeps
    | fail_if_no_progress (with_reducible apply Keeps.mk; (try dsimp only); with_reducible apply Keeps.parts)
    | split
    | dsimp only
    | assumption

theorem State.failNote_keeps {s0 : State} (s : State) (d : Die) (w : Nat) (h_s : Keeps s0 s) : Keeps s0 (State.failNote s d w) := by
  unfold State.failNote
  repeat' first
    | with_reducible assumption
    | with_reducible apply State.bump_keeps
    | with_reducible apply State.latchStanding_keeps
    | with_reducible apply State.setReg_keeps
    | dsimp only
    | assumption

theorem State.failWait_keeps {s0 : State} (s : State) (d : Die) (item : Nat) (h_s : Keeps s0 s) : Keeps s0 (State.failWait s d item) := by
  unfold State.failWait
  repeat' first
    | with_reducible assumption
    | fail_if_no_progress (with_reducible apply Keeps.mk; (try dsimp only); with_reducible apply Keeps.parts)
    | dsimp only
    | assumption

theorem State.itemFail_keeps {s0 : State} (s : State) (d : Die) (item : Nat) (h_s : Keeps s0 s) : Keeps s0 (State.itemFail s d item) := by
  unfold State.itemFail
  repeat' first
    | with_reducible assumption
    | intro _
    | with_reducible apply Keeps.ite
    | with_reducible apply State.bump_keeps
    | with_reducible apply State.failNote_keeps
    | with_reducible apply State.free_keeps
    | with_reducible apply State.itemBit_keeps
    | with_reducible apply State.itemTested_keeps
    | with_reducible apply State.nextSpare_keeps
    | with_reducible apply State.proven_keeps
    | with_reducible apply State.tryRepair_keeps
    | with_reducible apply State.updDie_keeps
    | with_reducible apply State.updF_keeps
    | fail_if_no_progress (with_reducible apply Keeps.mk; (try dsimp only); with_reducible apply Keeps.parts)
    | split
    | dsimp only
    | assumption

theorem doGranuleDone_keeps {s0 : State} (d : Die) (item : Nat) (pass : Bool) (s : State) (h_s : Keeps s0 s) : Keeps s0 (doGranuleDone d item pass s) := by
  unfold doGranuleDone
  repeat' first
    | with_reducible assumption
    | with_reducible apply Keeps.ite
    | with_reducible apply State.failWait_keeps
    | with_reducible apply State.itemFail_keeps
    | with_reducible apply State.itemPass_keeps
    | fail_if_no_progress (with_reducible apply Keeps.mk; (try dsimp only); with_reducible apply Keeps.parts)
    | split
    | dsimp only
    | assumption

theorem doRoundLate_keeps {s0 : State} (s : State) (h_s : Keeps s0 s) : Keeps s0 (doRoundLate s) := by
  unfold doRoundLate
  repeat' first
    | with_reducible assumption
    | with_reducible apply Keeps.ite
    | fail_if_no_progress (with_reducible apply Keeps.mk; (try dsimp only); with_reducible apply Keeps.parts)
    | split
    | dsimp only
    | assumption

theorem doStReq_keeps {s0 : State} (seat : Fin 8) (v : Nat) (s : State) (h_s : Keeps s0 s) : Keeps s0 (doStReq seat v s) := by
  unfold doStReq
  repeat' first
    | with_reducible assumption
    | intro _
    | with_reducible apply Keeps.ite
    | with_reducible apply State.refuse_keeps
    | with_reducible apply State.reqBegin_keeps
    | fail_if_no_progress (with_reducible apply Keeps.mk; (try dsimp only); with_reducible apply Keeps.parts)
    | split
    | dsimp only
    | assumption

end Sys2Proof.Machine
end

