-- ==== Sys2Proof/Laws/KeepsUpdRows.lean ====
section
/-! SUPPORT. The operations of Machine/UpdRows.lean keep the queue, the programmed OTP words and the canonical memories. -/

set_option linter.unusedTactic false
set_option linter.unreachableTactic false
set_option linter.unusedVariables false

namespace Sys2Proof.Machine

theorem State.svcAnswer_keeps {s0 : State} (s : State) (k : Nat) (st : Status) (session : Nat) (payload : List Byte) (h_s : Keeps s0 s) : Keeps s0 (State.svcAnswer s k st session payload) := by
  unfold State.svcAnswer
  repeat' first
    | with_reducible assumption
    | fail_if_no_progress (with_reducible apply Keeps.mk; (try dsimp only); with_reducible apply Keeps.parts)
    | dsimp only
    | assumption

theorem State.svcTake_keeps {s0 : State} (s : State) (k : Nat) (f : SvcFrame) (g : State → State) (h_s : Keeps s0 s) (k_g : ∀ t, Keeps s0 t → Keeps s0 (g t)) : Keeps s0 (State.svcTake s k f g) := by
  unfold State.svcTake
  repeat' first
    | with_reducible assumption
    | intro _
    | with_reducible apply Keeps.ite
    | with_reducible apply State.svcAnswer_keeps
    | apply k_g
    | fail_if_no_progress (with_reducible apply Keeps.mk; (try dsimp only); with_reducible apply Keeps.parts)
    | split
    | dsimp only
    | assumption

theorem State.svcSess_keeps {s0 : State} (s : State) (k : Nat) (f : SvcFrame) (g : State → State) (h_s : Keeps s0 s) (k_g : ∀ t, Keeps s0 t → Keeps s0 (g t)) : Keeps s0 (State.svcSess s k f g) := by
  unfold State.svcSess
  repeat' first
    | with_reducible assumption
    | intro _
    | with_reducible apply Keeps.ite
    | with_reducible apply State.svcAnswer_keeps
    | with_reducible apply State.svcTake_keeps
    | apply k_g
    | fail_if_no_progress (with_reducible apply Keeps.mk; (try dsimp only); with_reducible apply Keeps.parts)
    | split
    | dsimp only
    | assumption

theorem doChal_keeps {s0 : State} (f : SvcFrame) (s : State) (h_s : Keeps s0 s) : Keeps s0 (doChal f s) := by
  unfold doChal
  repeat' first
    | with_reducible assumption
    | intro _
    | with_reducible apply Keeps.ite
    | with_reducible apply State.randNat_keeps
    | with_reducible apply State.svcAnswer_keeps
    | with_reducible apply State.svcTake_keeps
    | fail_if_no_progress (with_reducible apply Keeps.mk; (try dsimp only); with_reducible apply Keeps.parts)
    | split
    | dsimp only
    | assumption

theorem State.authFail_keeps {s0 : State} (s : State) (session : Nat) (h_s : Keeps s0 s) : Keeps s0 (State.authFail s session) := by
  unfold State.authFail
  repeat' first
    | with_reducible assumption
    | with_reducible apply Keeps.ite
    | with_reducible apply State.svcAnswer_keeps
    | fail_if_no_progress (with_reducible apply Keeps.mk; (try dsimp only); with_reducible apply Keeps.parts)
    | split
    | dsimp only
    | assumption

theorem doAuth_keeps {s0 : State} (f : SvcFrame) (s : State) (h_s : Keeps s0 s) : Keeps s0 (doAuth f s) := by
  unfold doAuth
  repeat' first
    | with_reducible assumption
    | intro _
    | with_reducible apply Keeps.ite
    | with_reducible apply State.authFail_keeps
    | with_reducible apply State.svcAnswer_keeps
    | with_reducible apply State.svcTake_keeps
    | fail_if_no_progress (with_reducible apply Keeps.mk; (try dsimp only); with_reducible apply Keeps.parts)
    | split
    | dsimp only
    | assumption

theorem doSvcSessionTimeout_keeps {s0 : State} (s : State) (h_s : Keeps s0 s) : Keeps s0 (doSvcSessionTimeout s) := by
  unfold doSvcSessionTimeout
  repeat' first
    | with_reducible assumption
    | with_reducible apply Keeps.ite
    | fail_if_no_progress (with_reducible apply Keeps.mk; (try dsimp only); with_reducible apply Keeps.parts)
    | split
    | dsimp only
    | assumption

/-- The update memories change and stay canonical. -/
theorem Keeps.upd {s0 s : State} (h : Keeps s0 s) (u : Update) (k : s.upd.Ok → u.Ok) : Keeps s0 { s with upd := u } :=
  Keeps.mk (h.parts.updMem k)

theorem doManifest_keeps {s0 : State} (f : SvcFrame) (s : State) (h_s : Keeps s0 s) : Keeps s0 (doManifest f s) := by
  unfold doManifest
  apply State.svcSess_keeps (h_s := h_s)
  intro t h
  apply Keeps.ite (State.svcAnswer_keeps _ _ _ _ _ h)
  apply Keeps.ite (State.svcAnswer_keeps _ _ _ _ _ h)
  split
  · exact State.svcAnswer_keeps _ _ _ _ _ (Keeps.mk h.parts)
  · exact State.svcAnswer_keeps _ _ _ _ _ (h.upd _ fun m => Update.ok_unstage t.order m)

theorem doChunk_keeps {s0 : State} (f : SvcFrame) (s : State) (h_s : Keeps s0 s) : Keeps s0 (doChunk f s) := by
  unfold doChunk
  apply State.svcSess_keeps (h_s := h_s)
  intro t h
  dsimp only
  apply Keeps.ite (State.svcAnswer_keeps _ _ _ _ _ h)
  apply Keeps.ite (State.svcAnswer_keeps _ _ _ _ _ h)
  apply Keeps.ite (State.svcAnswer_keeps _ _ _ _ _ h)
  apply Keeps.ite (State.svcAnswer_keeps _ _ _ _ _ h)
  exact State.svcAnswer_keeps _ _ _ _ _ (h.upd _ fun m => Update.ok_stage t.order _ _ _ m)

theorem doStagingComplete_keeps {s0 : State} (s : State) (h_s : Keeps s0 s) : Keeps s0 (doStagingComplete s) :=
  Keeps.ite (h_s.upd _ fun m => Update.ok_toSlots s.order m) h_s

theorem doAbort_keeps {s0 : State} (f : SvcFrame) (s : State) (h_s : Keeps s0 s) : Keeps s0 (doAbort f s) := by
  unfold doAbort
  apply State.svcSess_keeps (h_s := h_s)
  intro t h
  apply Keeps.ite (State.svcAnswer_keeps _ _ _ _ _ h)
  apply Keeps.ite (State.svcAnswer_keeps _ _ _ _ _ h)
  exact State.svcAnswer_keeps _ _ _ _ _ (h.upd _ fun m => Update.ok_unstage t.order m)

theorem doActivate_keeps {s0 : State} (f : SvcFrame) (s : State) (h_s : Keeps s0 s) : Keeps s0 (doActivate f s) := by
  unfold doActivate
  repeat' first
    | with_reducible assumption
    | intro _
    | with_reducible apply Keeps.ite
    | with_reducible apply State.svcAnswer_keeps
    | with_reducible apply State.svcSess_keeps
    | fail_if_no_progress (with_reducible apply Keeps.mk; (try dsimp only); with_reducible apply Keeps.parts)
    | split
    | dsimp only
    | assumption

theorem State.activateApply_keeps {s0 : State} (s : State) (h_s : Keeps s0 s) : Keeps s0 (State.activateApply s) := by
  unfold State.activateApply
  repeat' first
    | with_reducible assumption
    | intro _
    | with_reducible apply Keeps.ite
    | with_reducible apply State.event2_keeps
    | with_reducible apply State.svcAnswer_keeps
    | fail_if_no_progress (with_reducible apply Keeps.mk; (try dsimp only); with_reducible apply Keeps.parts)
    | split
    | dsimp only
    | assumption

theorem State.oldImage_keeps {s0 : State} (s : State) (d : Die) (h_s : Keeps s0 s) : Keeps s0 (State.oldImage s d) := by
  unfold State.oldImage
  repeat' first
    | with_reducible assumption
    | intro _
    | with_reducible apply State.takeState_keeps
    | with_reducible apply State.updDie_keeps
    | fail_if_no_progress (with_reducible apply Keeps.mk; (try dsimp only); with_reducible apply Keeps.parts)
    | dsimp only
    | assumption

theorem doUpdateBootDone_keeps {s0 : State} (d : Die) (ok : Bool) (s : State) (h_s : Keeps s0 s) : Keeps s0 (doUpdateBootDone d ok s) := by
  unfold doUpdateBootDone
  repeat' first
    | with_reducible assumption
    | intro _
    | with_reducible apply Keeps.ite
    | with_reducible apply State.oldImage_keeps
    | with_reducible apply State.revert_keeps
    | with_reducible apply State.updDie_keeps
    | fail_if_no_progress (with_reducible apply Keeps.mk; (try dsimp only); with_reducible apply Keeps.parts)
    | split
    | dsimp only
    | assumption

theorem doActivationWaitTimeout_keeps {s0 : State} (s : State) (h_s : Keeps s0 s) : Keeps s0 (doActivationWaitTimeout s) := by
  unfold doActivationWaitTimeout
  repeat' first
    | with_reducible assumption
    | intro _
    | with_reducible apply Keeps.ite
    | with_reducible apply State.revert_keeps
    | split
    | dsimp only
    | assumption

theorem doFlipDeferEnd_keeps {s0 : State} (s : State) (h_s : Keeps s0 s) : Keeps s0 (doFlipDeferEnd s) := by
  unfold doFlipDeferEnd
  repeat' first
    | with_reducible assumption
    | with_reducible apply Keeps.ite
    | with_reducible apply State.flip__keeps
    | split
    | dsimp only
    | assumption

end Sys2Proof.Machine
end

