-- ==== Sys2Proof/Laws/KeepsAccessRows.lean ====
section
/-! SUPPORT. The operations of Machine/AccessRows.lean keep the queue, the programmed OTP words and the canonical memories. -/

set_option linter.unusedTactic false
set_option linter.unreachableTactic false
set_option linter.unusedVariables false

namespace Sys2Proof.Machine

theorem State.testClose_keeps {s0 : State} (s : State) (h_s : Keeps s0 s) : Keeps s0 (State.testClose s) := by
  unfold State.testClose
  repeat' first
    | with_reducible assumption
    | with_reducible apply Keeps.ite
    | with_reducible apply State.setReg_keeps
    | fail_if_no_progress (with_reducible apply Keeps.mk; (try dsimp only); with_reducible apply Keeps.parts)
    | split
    | dsimp only
    | assumption

theorem State.endSession_keeps {s0 : State} (s : State) (k : Nat) (h_s : Keeps s0 s) : Keeps s0 (State.endSession s k) := by
  unfold State.endSession
  repeat' first
    | with_reducible assumption
    | intro _
    | with_reducible apply Keeps.ite
    | with_reducible apply State.testClose_keeps
    | with_reducible apply State.updSeat_keeps
    | fail_if_no_progress (with_reducible apply Keeps.mk; (try dsimp only); with_reducible apply Keeps.parts)
    | split
    | dsimp only
    | assumption

theorem State.testRise_keeps {s0 : State} (s : State) (seat st : Nat) (h_s : Keeps s0 s) : Keeps s0 (State.testRise s seat st) := by
  unfold State.testRise
  repeat' first
    | with_reducible assumption
    | with_reducible apply Keeps.ite
    | with_reducible apply State.setReg_keeps
    | fail_if_no_progress (with_reducible apply Keeps.mk; (try dsimp only); with_reducible apply Keeps.parts)
    | split
    | dsimp only
    | assumption

theorem doTestOpen_keeps {s0 : State} (seat : Fin 8) (v : Nat) (s : State) (h_s : Keeps s0 s) : Keeps s0 (doTestOpen seat v s) := by
  unfold doTestOpen
  repeat' first
    | with_reducible assumption
    | intro _
    | with_reducible apply Keeps.ite
    | with_reducible apply State.refuse_keeps
    | with_reducible apply State.testClose_keeps
    | with_reducible apply State.testRise_keeps
    | split
    | dsimp only
    | assumption

theorem doTestChal_keeps {s0 : State} (seat : Fin 8) (s : State) (h_s : Keeps s0 s) : Keeps s0 (doTestChal seat s) := by
  unfold doTestChal
  repeat' first
    | with_reducible assumption
    | intro _
    | with_reducible apply State.randNat_keeps
    | with_reducible apply State.refuse_keeps
    | with_reducible apply State.reply_keeps
    | fail_if_no_progress (with_reducible apply Keeps.mk; (try dsimp only); with_reducible apply Keeps.parts)
    | dsimp only
    | assumption

theorem State.wipeSram_keeps {s0 : State} (s : State) (h_s : Keeps s0 s) : Keeps s0 (State.wipeSram s) := by
  unfold State.wipeSram
  with_reducible apply Keeps.ite
  · dsimp only
    with_reducible apply Keeps.mk
    refine KeepsParts.rings (r' := { Rings.init with log := s.pat.newerLog, pend := s.rings.pend }) (Keeps.parts ?_) (fun _ => ⟨rfl, rfl⟩)
    exact State.updDie_keeps _ _ _ (State.updDie_keeps _ _ _ h_s)
  · exact h_s

theorem State.scanStart_keeps {s0 : State} (s : State) (h_s : Keeps s0 s) : Keeps s0 (State.scanStart s) := by
  unfold State.scanStart
  repeat' first
    | with_reducible assumption
    | intro _
    | with_reducible apply Keeps.ite
    | with_reducible apply State.endSession_keeps
    | with_reducible apply State.enterSafe_keeps
    | with_reducible apply State.lockBoth_keeps
    | with_reducible apply State.lockoutAll_keeps
    | with_reducible apply State.tripNow_keeps
    | with_reducible apply State.updDie_keeps
    | with_reducible apply State.wipeSram_keeps
    | with_reducible apply Keeps.foldl
    | fail_if_no_progress (with_reducible apply Keeps.mk; (try dsimp only); with_reducible apply Keeps.parts)
    | split
    | dsimp only
    | assumption

theorem State.testRefuse_keeps {s0 : State} (s : State) (h_s : Keeps s0 s) : Keeps s0 (State.testRefuse s) := by
  unfold State.testRefuse
  repeat' first
    | with_reducible assumption
    | with_reducible apply Keeps.ite
    | with_reducible apply State.ans_keeps
    | fail_if_no_progress (with_reducible apply Keeps.mk; (try dsimp only); with_reducible apply Keeps.parts)
    | split
    | dsimp only
    | assumption

theorem doTestResp_keeps {s0 : State} (seat : Fin 8) (code : Nat) (sig : List Byte) (s : State) (h_s : Keeps s0 s) : Keeps s0 (doTestResp seat code sig s) := by
  unfold doTestResp
  repeat' first
    | with_reducible assumption
    | intro _
    | with_reducible apply Keeps.ite
    | with_reducible apply State.ans_keeps
    | with_reducible apply State.refuse_keeps
    | with_reducible apply State.scanStart_keeps
    | with_reducible apply State.testRefuse_keeps
    | with_reducible apply State.testRise_keeps
    | fail_if_no_progress (with_reducible apply Keeps.mk; (try dsimp only); with_reducible apply Keeps.parts)
    | split
    | dsimp only
    | assumption

theorem doZeroiseReadbackDone_keeps {s0 : State} (s : State) (h_s : Keeps s0 s) : Keeps s0 (doZeroiseReadbackDone s) := by
  unfold doZeroiseReadbackDone
  repeat' first
    | with_reducible assumption
    | with_reducible apply Keeps.ite
    | fail_if_no_progress (with_reducible apply Keeps.mk; (try dsimp only); with_reducible apply Keeps.parts)
    | split
    | dsimp only
    | assumption

theorem doZeroiseTimeout_keeps {s0 : State} (s : State) (h_s : Keeps s0 s) : Keeps s0 (doZeroiseTimeout s) := by
  unfold doZeroiseTimeout
  repeat' first
    | with_reducible assumption
    | fail_if_no_progress (with_reducible apply Keeps.mk; (try dsimp only); with_reducible apply Keeps.parts)
    | dsimp only
    | assumption

end Sys2Proof.Machine
end

