-- ==== Sys2Proof/Laws/KeepsSeatRows.lean ====
section
/-! SUPPORT. The operations of Machine/SeatRows.lean keep the queue, the programmed OTP words and the canonical memories. -/

set_option linter.unusedTactic false
set_option linter.unreachableTactic false
set_option linter.unusedVariables false

namespace Sys2Proof.Machine

theorem doSeatChal_keeps {s0 : State} (seat : Fin 8) (s : State) (h_s : Keeps s0 s) : Keeps s0 (doSeatChal seat s) := by
  unfold doSeatChal
  repeat' first
    | with_reducible assumption
    | intro _
    | with_reducible apply State.randNat_keeps
    | with_reducible apply State.refuse_keeps
    | with_reducible apply State.reply_keeps
    | with_reducible apply State.updSeat_keeps
    | fail_if_no_progress (with_reducible apply Keeps.mk; (try dsimp only); with_reducible apply Keeps.parts)
    | dsimp only
    | assumption

theorem doSeatLogin_keeps {s0 : State} (seat : Fin 8) (bytes : List Byte) (s : State) (h_s : Keeps s0 s) : Keeps s0 (doSeatLogin seat bytes s) := by
  unfold doSeatLogin
  repeat' first
    | with_reducible assumption
    | intro _
    | with_reducible apply Keeps.ite
    | with_reducible apply State.ans_keeps
    | with_reducible apply State.endSession_keeps
    | with_reducible apply State.refuse_keeps
    | with_reducible apply State.updSeat_keeps
    | fail_if_no_progress (with_reducible apply Keeps.mk; (try dsimp only); with_reducible apply Keeps.parts)
    | split
    | dsimp only
    | assumption

theorem doSessionTimeout_keeps {s0 : State} (seat : Fin 8) (s : State) (h_s : Keeps s0 s) : Keeps s0 (doSessionTimeout seat s) := by
  unfold doSessionTimeout
  repeat' first
    | with_reducible assumption
    | with_reducible apply State.endSession_keeps
    | dsimp only
    | assumption

theorem doLoPass_keeps {s0 : State} (seat : Fin 8) (bytes : List Byte) (s : State) (h_s : Keeps s0 s) : Keeps s0 (doLoPass seat bytes s) := by
  unfold doLoPass
  repeat' first
    | with_reducible assumption
    | intro _
    | with_reducible apply Keeps.ite
    | with_reducible apply State.ans_keeps
    | with_reducible apply State.bump_keeps
    | with_reducible apply State.refuse_keeps
    | with_reducible apply State.updSeat_keeps
    | fail_if_no_progress (with_reducible apply Keeps.mk; (try dsimp only); with_reducible apply Keeps.parts)
    | split
    | dsimp only
    | assumption

theorem doLoPassNew_keeps {s0 : State} (seat : Fin 8) (bytes : List Byte) (s : State) (h_s : Keeps s0 s) : Keeps s0 (doLoPassNew seat bytes s) := by
  unfold doLoPassNew
  repeat' first
    | with_reducible assumption
    | intro _
    | with_reducible apply State.persist_keeps
    | with_reducible apply State.refuse_keeps
    | fail_if_no_progress (with_reducible apply Keeps.mk; (try dsimp only); with_reducible apply Keeps.parts)
    | dsimp only
    | assumption

theorem State.conf_keeps {s0 : State} (s : State) (seat idx sub v : Nat) (h_s : Keeps s0 s) : Keeps s0 (State.conf s seat idx sub v) := by
  unfold State.conf
  repeat' first
    | with_reducible assumption
    | with_reducible apply State.persist_keeps
    | with_reducible apply State.setReg_keeps
    | dsimp only
    | assumption

theorem doLineOwner_keeps {s0 : State} (seat : Fin 8) (v : Nat) (s : State) (h_s : Keeps s0 s) : Keeps s0 (doLineOwner seat v s) := by
  unfold doLineOwner
  repeat' first
    | with_reducible assumption
    | intro _
    | with_reducible apply State.conf_keeps
    | with_reducible apply State.refuse_keeps
    | dsimp only
    | assumption

theorem doLockoutEnd_keeps {s0 : State} (k : Lockout) (s : State) (h_s : Keeps s0 s) : Keeps s0 (doLockoutEnd k s) := by
  unfold doLockoutEnd
  repeat' first
    | with_reducible assumption
    | intro _
    | with_reducible apply State.updSeat_keeps
    | fail_if_no_progress (with_reducible apply Keeps.mk; (try dsimp only); with_reducible apply Keeps.parts)
    | split
    | dsimp only
    | assumption

theorem State.persDone_keeps {s0 : State} (s : State) (w : PersWrite) (h_s : Keeps s0 s) : Keeps s0 (State.persDone s w) := by
  unfold State.persDone
  repeat' first
    | with_reducible assumption
    | with_reducible apply Keeps.ite
    | with_reducible apply State.keyCommit_keeps
    | with_reducible apply State.keyEraseCommit_keeps
    | fail_if_no_progress (with_reducible apply Keeps.mk; (try dsimp only); with_reducible apply Keeps.parts)
    | split
    | dsimp only
    | assumption

theorem doPersistentWriteCommit_keeps {s0 : State} (s : State) (h_s : Keeps s0 s) : Keeps s0 (doPersistentWriteCommit s) := by
  unfold doPersistentWriteCommit
  repeat' first
    | with_reducible assumption
    | with_reducible apply State.ans_keeps
    | with_reducible apply State.persDone_keeps
    | with_reducible apply State.sendAns_keeps
    | fail_if_no_progress (with_reducible apply Keeps.mk; (try dsimp only); with_reducible apply Keeps.parts)
    | split
    | dsimp only
    | assumption

theorem doSpanKWrite_keeps {s0 : State} (seat : Fin 8) (v : Nat) (s : State) (h_s : Keeps s0 s) : Keeps s0 (doSpanKWrite seat v s) := by
  unfold doSpanKWrite
  repeat' first
    | with_reducible assumption
    | intro _
    | with_reducible apply State.conf_keeps
    | with_reducible apply State.refuse_keeps
    | dsimp only
    | assumption

theorem doTickOfsWrite_keeps {s0 : State} (seat : Fin 8) (v : Nat) (s : State) (h_s : Keeps s0 s) : Keeps s0 (doTickOfsWrite seat v s) := by
  unfold doTickOfsWrite
  repeat' first
    | with_reducible assumption
    | intro _
    | with_reducible apply State.conf_keeps
    | with_reducible apply State.refuse_keeps
    | dsimp only
    | assumption

theorem doClkGate_keeps {s0 : State} (seat : Fin 8) (n : Fin 18) (v : Nat) (s : State) (h_s : Keeps s0 s) : Keeps s0 (doClkGate seat n v s) := by
  unfold doClkGate
  repeat' first
    | with_reducible assumption
    | intro _
    | with_reducible apply State.conf_keeps
    | with_reducible apply State.refuse_keeps
    | with_reducible apply State.regate_keeps
    | dsimp only
    | assumption

theorem doClkobsSelect_keeps {s0 : State} (seat : Fin 8) (sub v : Nat) (s : State) (h_s : Keeps s0 s) : Keeps s0 (doClkobsSelect seat sub v s) := by
  unfold doClkobsSelect
  repeat' first
    | with_reducible assumption
    | intro _
    | with_reducible apply Keeps.ite
    | with_reducible apply State.refuse_keeps
    | with_reducible apply State.setReg_keeps
    | split
    | dsimp only
    | assumption

theorem State.mirrored_keeps {s0 : State} (s : State) (d : Die) (h_s : Keeps s0 s) : Keeps s0 (State.mirrored s d) := by
  unfold State.mirrored
  repeat' first
    | with_reducible assumption
    | fail_if_no_progress (with_reducible apply Keeps.mk; (try dsimp only); with_reducible apply Keeps.parts)
    | dsimp only
    | assumption

theorem State.regSet_keeps {s0 : State} (s : State) (seat : Nat) (r : OdRow) (idx sub v : Nat) (h_s : Keeps s0 s) : Keeps s0 (State.regSet s seat r idx sub v) := by
  unfold State.regSet
  repeat' first
    | with_reducible assumption
    | intro _
    | with_reducible apply Keeps.ite
    | with_reducible apply State.conf_keeps
    | with_reducible apply State.endSession_keeps
    | with_reducible apply State.setReg_keeps
    | with_reducible apply State.updSeat_keeps
    | with_reducible apply State.w1c_keeps
    | fail_if_no_progress (with_reducible apply Keeps.mk; (try dsimp only); with_reducible apply Keeps.parts)
    | split
    | dsimp only
    | assumption

theorem doRegisterWrite_keeps {s0 : State} (seat : Fin 8) (idx sub v : Nat) (s : State) (h_s : Keeps s0 s) : Keeps s0 (doRegisterWrite seat idx sub v s) := by
  unfold doRegisterWrite
  repeat' first
    | with_reducible assumption
    | intro _
    | with_reducible apply Keeps.ite
    | with_reducible apply State.refuse_keeps
    | with_reducible apply State.regSet_keeps
    | exact fun _ h => h
    | fail_if_no_progress (with_reducible apply Keeps.mk; (try dsimp only); with_reducible apply Keeps.parts)
    | split
    | dsimp only
    | assumption

end Sys2Proof.Machine
end

