-- ==== Sys2Proof/Laws/KeepsBridleOps.lean ====
section
/-! SUPPORT. The operations of Machine/BridleOps.lean keep the queue, the programmed OTP words and the canonical memories. -/

set_option linter.unusedTactic false
set_option linter.unreachableTactic false
set_option linter.unusedVariables false

namespace Sys2Proof.Machine

theorem State.readEntry_keeps {s0 : State} (s : State) (seat : Fin 8) (d : Die) (idx sub : Nat) (h_s : Keeps s0 s) : Keeps s0 (State.readEntry s seat d idx sub) := by
  unfold State.readEntry
  repeat' first
    | with_reducible assumption
    | with_reducible apply Keeps.ite
    | with_reducible apply State.ans_keeps
    | with_reducible apply State.mirrored_keeps
    | with_reducible apply State.reply_keeps
    | with_reducible apply doLcChal_keeps
    | with_reducible apply doOtpData_keeps
    | with_reducible apply doSeatChal_keeps
    | with_reducible apply doTestChal_keeps
    | fail_if_no_progress (with_reducible apply Keeps.mk; (try dsimp only); with_reducible apply Keeps.parts)
    | split
    | dsimp only
    | assumption

theorem State.writeCrc_keeps {s0 : State} (s : State) (seat : Fin 8) (k sub v : Nat) (h_s : Keeps s0 s) : Keeps s0 (State.writeCrc s seat k sub v) := by
  unfold State.writeCrc
  repeat' first
    | with_reducible assumption
    | with_reducible apply Keeps.ite
    | with_reducible apply doCrcAbort_keeps
    | with_reducible apply doCrcEnable_keeps
    | with_reducible apply doCrcParameterWrite_keeps
    | with_reducible apply doCrcPreset_keeps
    | with_reducible apply doRegisterWrite_keeps
    | split
    | dsimp only
    | assumption

theorem State.writeTmr_keeps {s0 : State} (s : State) (seat : Fin 8) (k sub v : Nat) (h_s : Keeps s0 s) : Keeps s0 (State.writeTmr s seat k sub v) := by
  unfold State.writeTmr
  repeat' first
    | with_reducible assumption
    | with_reducible apply Keeps.ite
    | with_reducible apply doTmrCmp_keeps
    | with_reducible apply doTmrCmpNext_keeps
    | with_reducible apply doTmrCount_keeps
    | with_reducible apply doTmrCtrl_keeps
    | split
    | dsimp only
    | assumption

theorem State.writeRing_keeps {s0 : State} (s : State) (seat : Fin 8) (d : Die) (x : WItem) (h_s : Keeps s0 s) : Keeps s0 (State.writeRing s seat d x) := by
  unfold State.writeRing
  repeat' first
    | with_reducible assumption
    | with_reducible apply Keeps.ite
    | with_reducible apply State.ans_keeps
    | with_reducible apply doFree_keeps
    | with_reducible apply doReset_keeps
    | with_reducible apply doRingAlloc_keeps
    | with_reducible apply doRingConsume_keeps
    | with_reducible apply doRingPush_keeps
    | split
    | dsimp only
    | assumption

theorem State.writeLow_keeps {s0 : State} (s : State) (seat : Fin 8) (x : WItem) (h_s : Keeps s0 s) : Keeps s0 (State.writeLow s seat x) := by
  unfold State.writeLow
  repeat' first
    | with_reducible assumption
    | with_reducible apply Keeps.ite
    | with_reducible apply State.modeReq_keeps
    | with_reducible apply State.write_keeps
    | with_reducible apply doClkGate_keeps
    | with_reducible apply doClkobsSelect_keeps
    | with_reducible apply doLineOwner_keeps
    | with_reducible apply doLoPass_keeps
    | with_reducible apply doLoPassNew_keeps
    | with_reducible apply doPwrReqActive_keeps
    | with_reducible apply doPwrReqDeepSleep_keeps
    | with_reducible apply doPwrReqSleep_keeps
    | with_reducible apply doSeatLogin_keeps
    | with_reducible apply doSpanKWrite_keeps
    | with_reducible apply doTickOfsWrite_keeps
    | exact fun _ h => h
    | split
    | dsimp only
    | assumption

theorem State.writeMid_keeps {s0 : State} (s : State) (seat : Fin 8) (x : WItem) (h_s : Keeps s0 s) : Keeps s0 (State.writeMid s seat x) := by
  unfold State.writeMid
  repeat' first
    | with_reducible assumption
    | with_reducible apply Keeps.ite
    | with_reducible apply State.ans_keeps
    | with_reducible apply State.write_keeps
    | with_reducible apply doConfirm_keeps
    | with_reducible apply doCosHirqClear_keeps
    | with_reducible apply doDiscard_keeps
    | with_reducible apply doFswClr_keeps
    | with_reducible apply doFswSecClr_keeps
    | with_reducible apply doLoad_keeps
    | with_reducible apply doStdinVal_keeps
    | with_reducible apply doZoneRrst_keeps
    | exact fun _ h => h
    | split
    | dsimp only
    | assumption

theorem State.writeHigh_keeps {s0 : State} (s : State) (seat : Fin 8) (x : WItem) (h_s : Keeps s0 s) : Keeps s0 (State.writeHigh s seat x) := by
  unfold State.writeHigh
  repeat' first
    | with_reducible assumption
    | with_reducible apply Keeps.ite
    | with_reducible apply doKeyErase_keeps
    | with_reducible apply doKeyPut_keeps
    | with_reducible apply doLcReq_keeps
    | with_reducible apply doLcResp_keeps
    | with_reducible apply doOtpProg_keeps
    | with_reducible apply doStReq_keeps
    | with_reducible apply doTestOpen_keeps
    | with_reducible apply doTestResp_keeps
    | split
    | dsimp only
    | assumption

theorem State.writeEntry_keeps {s0 : State} (s : State) (seat : Fin 8) (d : Die) (x : WItem) (h_s : Keeps s0 s) : Keeps s0 (State.writeEntry s seat d x) := by
  unfold State.writeEntry
  repeat' first
    | with_reducible assumption
    | with_reducible apply Keeps.ite
    | with_reducible apply State.ans_keeps
    | with_reducible apply State.writeCrc_keeps
    | with_reducible apply State.writeHigh_keeps
    | with_reducible apply State.writeLow_keeps
    | with_reducible apply State.writeMid_keeps
    | with_reducible apply State.writeRing_keeps
    | with_reducible apply State.writeTmr_keeps
    | with_reducible apply doRegisterWrite_keeps
    | fail_if_no_progress (with_reducible apply Keeps.mk; (try dsimp only); with_reducible apply Keeps.parts)
    | split
    | dsimp only
    | assumption

theorem State.writeFresh_keeps {s0 : State} (s : State) (seat : Fin 8) (d : Die) (x : WItem) (h_s : Keeps s0 s) : Keeps s0 (State.writeFresh s seat d x) := by
  unfold State.writeFresh
  repeat' first
    | with_reducible assumption
    | with_reducible apply Keeps.ite
    | with_reducible apply State.ans_keeps
    | with_reducible apply State.writeEntry_keeps
    | split
    | dsimp only
    | assumption

theorem State.writeItems_keeps {s0 : State} (s : State) (seat : Fin 8) (d : Die) (l : List WItem) (h_s : Keeps s0 s) : Keeps s0 (State.writeItems s seat d l) := by
  unfold State.writeItems
  repeat' first
    | with_reducible assumption
    | intro _
    | with_reducible apply Keeps.ite
    | with_reducible apply State.ans_keeps
    | with_reducible apply State.writeFresh_keeps
    | with_reducible apply Keeps.foldl
    | split
    | dsimp only
    | assumption

theorem State.writeAll_keeps {s0 : State} (s : State) (seat : Fin 8) (d : Die) (l : List WItem) (h_s : Keeps s0 s) : Keeps s0 (State.writeAll s seat d l) := by
  unfold State.writeAll
  repeat' first
    | with_reducible assumption
    | with_reducible apply Keeps.ite
    | with_reducible apply State.writeItems_keeps
    | fail_if_no_progress (with_reducible apply Keeps.mk; (try dsimp only); with_reducible apply Keeps.parts)
    | split
    | dsimp only
    | assumption

theorem State.takeFrame_keeps {s0 : State} (s : State) (k : Nat) (h_s : Keeps s0 s) : Keeps s0 (State.takeFrame s k) := by
  unfold State.takeFrame
  repeat' first
    | with_reducible assumption
    | intro _
    | with_reducible apply Keeps.ite
    | with_reducible apply State.updSeat_keeps
    | fail_if_no_progress (with_reducible apply Keeps.mk; (try dsimp only); with_reducible apply Keeps.parts)
    | split
    | dsimp only
    | assumption

theorem State.checked_keeps {s0 : State} (s : State) (op : Nat) (f : Frame) (shape : Bool) (g : State → State) (h_s : Keeps s0 s) (k_g : ∀ t, Keeps s0 t → Keeps s0 (g t)) : Keeps s0 (State.checked s op f shape g) := by
  unfold State.checked
  repeat' first
    | with_reducible assumption
    | intro _
    | with_reducible apply Keeps.ite
    | with_reducible apply State.ans_keeps
    | with_reducible apply State.ansBusy_keeps
    | with_reducible apply State.endSession_keeps
    | with_reducible apply State.post_keeps
    | with_reducible apply State.sendAns_keeps
    | with_reducible apply State.takeFrame_keeps
    | with_reducible apply State.updSeat_keeps
    | apply k_g
    | fail_if_no_progress (with_reducible apply Keeps.mk; (try dsimp only); with_reducible apply Keeps.parts)
    | split
    | dsimp only
    | assumption

theorem State.request_keeps {s0 : State} (s : State) (op : Nat) (f : Frame) (shape : Bool) (g : State → State) (h_s : Keeps s0 s) (k_g : ∀ t, Keeps s0 t → Keeps s0 (g t)) : Keeps s0 (State.request s op f shape g) := by
  unfold State.request
  repeat' first
    | with_reducible assumption
    | intro _
    | with_reducible apply Keeps.ite
    | with_reducible apply State.bump_keeps
    | with_reducible apply State.checked_keeps
    | apply k_g
    | fail_if_no_progress (with_reducible apply Keeps.mk; (try dsimp only); with_reducible apply Keeps.parts)
    | split
    | dsimp only
    | assumption

theorem State.asBlock_keeps {s0 : State} (s : State) (h_s : Keeps s0 s) : Keeps s0 (State.asBlock s) := by
  unfold State.asBlock
  repeat' first
    | with_reducible assumption
    | fail_if_no_progress (with_reducible apply Keeps.mk; (try dsimp only); with_reducible apply Keeps.parts)
    | dsimp only
    | assumption

theorem State.takeWrite_keeps {s0 : State} (s : State) (r : RespTo) (block : Bool) (l : List WItem) (h_s : Keeps s0 s) : Keeps s0 (State.takeWrite s r block l) := by
  unfold State.takeWrite
  repeat' first
    | with_reducible assumption
    | with_reducible apply Keeps.ite
    | with_reducible apply State.asBlock_keeps
    | with_reducible apply State.sendAns_keeps
    | with_reducible apply State.writeAll_keeps
    | exact fun _ h => h
    | fail_if_no_progress (with_reducible apply Keeps.mk; (try dsimp only); with_reducible apply Keeps.parts)
    | split
    | dsimp only
    | assumption

theorem State.wrongType_keeps {s0 : State} (s : State) (r : RespTo) (l : List WItem) (h_s : Keeps s0 s) : Keeps s0 (State.wrongType s r l) := by
  unfold State.wrongType
  repeat' first
    | with_reducible assumption
    | with_reducible apply Keeps.ite
    | with_reducible apply State.ans_keeps
    | with_reducible apply State.sendAns_keeps
    | with_reducible apply State.writeAll_keeps
    | fail_if_no_progress (with_reducible apply Keeps.mk; (try dsimp only); with_reducible apply Keeps.parts)
    | split
    | dsimp only
    | assumption

theorem State.atHome_keeps {s0 : State} (s : State) (op : Nat) (f : Frame) (idx sub : Nat) (g : State → State) (h_s : Keeps s0 s) (k_g : ∀ t, Keeps s0 t → Keeps s0 (g t)) : Keeps s0 (State.atHome s op f idx sub g) := by
  unfold State.atHome
  repeat' first
    | with_reducible assumption
    | intro _
    | with_reducible apply Keeps.ite
    | with_reducible apply State.ansBusy_keeps
    | with_reducible apply State.sendAns_keeps
    | exact fun _ h => h
    | apply k_g
    | fail_if_no_progress (with_reducible apply Keeps.mk; (try dsimp only); with_reducible apply Keeps.parts)
    | split
    | dsimp only
    | assumption

theorem State.readOn_keeps {s0 : State} (s : State) (d : Die) (f : Frame) (h_s : Keeps s0 s) : Keeps s0 (State.readOn s d f) := by
  unfold State.readOn
  repeat' first
    | with_reducible assumption
    | with_reducible apply State.readEntry_keeps
    | with_reducible apply State.sendAns_keeps
    | fail_if_no_progress (with_reducible apply Keeps.mk; (try dsimp only); with_reducible apply Keeps.parts)
    | dsimp only
    | assumption

theorem State.readOct_keeps {s0 : State} (s : State) (seat : Fin 8) (d : Die) (f : Frame) (h_s : Keeps s0 s) : Keeps s0 (State.readOct s seat d f) := by
  unfold State.readOct
  repeat' first
    | with_reducible assumption
    | with_reducible apply Keeps.ite
    | with_reducible apply State.ans_keeps
    | with_reducible apply State.asBlock_keeps
    | with_reducible apply State.readEntry_keeps
    | with_reducible apply State.reply_keeps
    | with_reducible apply doJrnDataRead_keeps
    | with_reducible apply doRingRead_keeps
    | split
    | dsimp only
    | assumption

theorem State.readRun_keeps {s0 : State} (l : List Nat) (s : State) (seat : Fin 8) (d : Die) (idx : Nat) (acc : List Byte) (stale : Bool)
    (h_s : Keeps s0 s) : Keeps s0 (s.readRun seat d idx l acc stale).1 := by
  induction l generalizing s acc stale with
  | nil => exact h_s
  | cons x l ih =>
    have h := State.readEntry_keeps s seat d idx x h_s
    unfold State.readRun
    dsimp only
    split
    · exact ih _ _ _ h
    · exact h

theorem State.readBlockOn_keeps {s0 : State} (s : State) (d : Die) (f : Frame) (h_s : Keeps s0 s) : Keeps s0 (State.readBlockOn s d f) := by
  unfold State.readBlockOn
  repeat' first
    | with_reducible assumption
    | with_reducible apply Keeps.ite
    | with_reducible apply State.ans_keeps
    | with_reducible apply State.asBlock_keeps
    | with_reducible apply State.readOct_keeps
    | with_reducible apply State.sendAns_keeps
    | with_reducible apply State.readRun_keeps
    | fail_if_no_progress (with_reducible apply Keeps.mk; (try dsimp only); with_reducible apply Keeps.parts)
    | split
    | dsimp only
    | assumption

theorem State.writeReq_keeps {s0 : State} (s : State) (f : Frame) (h_s : Keeps s0 s) : Keeps s0 (State.writeReq s f) := by
  unfold State.writeReq
  repeat' first
    | with_reducible assumption
    | intro _
    | with_reducible apply State.takeWrite_keeps
    | with_reducible apply State.wrongType_keeps
    | fail_if_no_progress (with_reducible apply Keeps.mk; (try dsimp only); with_reducible apply Keeps.parts)
    | split
    | dsimp only
    | assumption

theorem State.writeOct_keeps {s0 : State} (s : State) (f : Frame) (h_s : Keeps s0 s) : Keeps s0 (State.writeOct s f) := by
  unfold State.writeOct
  repeat' first
    | with_reducible assumption
    | with_reducible apply Keeps.ite
    | with_reducible apply State.ans_keeps
    | with_reducible apply State.asBlock_keeps
    | with_reducible apply State.sendAns_keeps
    | with_reducible apply State.takeWrite_keeps
    | with_reducible apply doPatImage_keeps
    | fail_if_no_progress (with_reducible apply Keeps.mk; (try dsimp only); with_reducible apply Keeps.parts)
    | split
    | dsimp only
    | assumption

theorem State.writeBlockReq_keeps {s0 : State} (s : State) (f : Frame) (h_s : Keeps s0 s) : Keeps s0 (State.writeBlockReq s f) := by
  unfold State.writeBlockReq
  repeat' first
    | with_reducible assumption
    | intro _
    | with_reducible apply Keeps.ite
    | with_reducible apply State.ans_keeps
    | with_reducible apply State.sendAns_keeps
    | with_reducible apply State.takeWrite_keeps
    | with_reducible apply State.writeOct_keeps
    | fail_if_no_progress (with_reducible apply Keeps.mk; (try dsimp only); with_reducible apply Keeps.parts)
    | split
    | dsimp only
    | assumption

end Sys2Proof.Machine
end

