-- ==== Sys2Proof/Laws/KeepsBridleRows.lean ====
section
/-! SUPPORT. The operations of Machine/BridleRows.lean keep the queue, the programmed OTP words and the canonical memories. -/

set_option linter.unusedTactic false
set_option linter.unreachableTactic false
set_option linter.unusedVariables false

namespace Sys2Proof.Machine

theorem doRead_keeps {s0 : State} (f : Frame) (s : State) (h_s : Keeps s0 s) : Keeps s0 (doRead f s) := by
  unfold doRead
  repeat' first
    | with_reducible assumption
    | intro _
    | with_reducible apply State.atHome_keeps
    | with_reducible apply State.readOn_keeps
    | with_reducible apply State.request_keeps
    | dsimp only
    | assumption

theorem doWrite_keeps {s0 : State} (f : Frame) (s : State) (h_s : Keeps s0 s) : Keeps s0 (doWrite f s) := by
  unfold doWrite
  repeat' first
    | with_reducible assumption
    | intro _
    | with_reducible apply State.request_keeps
    | with_reducible apply State.writeReq_keeps
    | dsimp only
    | assumption

theorem doReadBlock_keeps {s0 : State} (f : Frame) (s : State) (h_s : Keeps s0 s) : Keeps s0 (doReadBlock f s) := by
  unfold doReadBlock
  repeat' first
    | with_reducible assumption
    | intro _
    | with_reducible apply State.atHome_keeps
    | with_reducible apply State.readBlockOn_keeps
    | with_reducible apply State.request_keeps
    | dsimp only
    | assumption

theorem doWriteBlock_keeps {s0 : State} (f : Frame) (s : State) (h_s : Keeps s0 s) : Keeps s0 (doWriteBlock f s) := by
  unfold doWriteBlock
  repeat' first
    | with_reducible assumption
    | intro _
    | with_reducible apply State.request_keeps
    | with_reducible apply State.writeBlockReq_keeps
    | dsimp only
    | assumption

theorem State.notify_keeps {s0 : State} (s : State) (x : Sub) (h_s : Keeps s0 s) : Keeps s0 (State.notify s x) := by
  unfold State.notify
  repeat' first
    | with_reducible assumption
    | intro _
    | with_reducible apply Keeps.ite
    | with_reducible apply State.setReg_keeps
    | exact fun _ h => h
    | fail_if_no_progress (with_reducible apply Keeps.mk; (try dsimp only); with_reducible apply Keeps.parts)
    | split
    | dsimp only
    | assumption

theorem State.watch_keeps {s0 : State} (s : State) (f : Frame) (h_s : Keeps s0 s) : Keeps s0 (State.watch s f) := by
  unfold State.watch
  repeat' first
    | with_reducible assumption
    | intro _
    | with_reducible apply Keeps.ite
    | with_reducible apply State.ans_keeps
    | with_reducible apply State.notify_keeps
    | with_reducible apply State.sendAns_keeps
    | exact fun _ h => h
    | fail_if_no_progress (with_reducible apply Keeps.mk; (try dsimp only); with_reducible apply Keeps.parts)
    | split
    | dsimp only
    | assumption

theorem doSubscribe_keeps {s0 : State} (f : Frame) (s : State) (h_s : Keeps s0 s) : Keeps s0 (doSubscribe f s) := by
  unfold doSubscribe
  repeat' first
    | with_reducible assumption
    | intro _
    | with_reducible apply State.request_keeps
    | with_reducible apply State.watch_keeps
    | dsimp only
    | assumption

theorem State.unwatch_keeps {s0 : State} (s : State) (f : Frame) (h_s : Keeps s0 s) : Keeps s0 (State.unwatch s f) := by
  unfold State.unwatch
  repeat' first
    | with_reducible assumption
    | intro _
    | with_reducible apply Keeps.ite
    | with_reducible apply State.ans_keeps
    | with_reducible apply State.sendAns_keeps
    | exact fun _ h => h
    | fail_if_no_progress (with_reducible apply Keeps.mk; (try dsimp only); with_reducible apply Keeps.parts)
    | split
    | dsimp only
    | assumption

theorem doUnsubscribe_keeps {s0 : State} (f : Frame) (s : State) (h_s : Keeps s0 s) : Keeps s0 (doUnsubscribe f s) := by
  unfold doUnsubscribe
  repeat' first
    | with_reducible assumption
    | intro _
    | with_reducible apply State.request_keeps
    | with_reducible apply State.unwatch_keeps
    | dsimp only
    | assumption

theorem doNotification_keeps {s0 : State} (sub : Nat) (s : State) (h_s : Keeps s0 s) : Keeps s0 (doNotification sub s) := by
  unfold doNotification
  repeat' first
    | with_reducible assumption
    | intro _
    | with_reducible apply Keeps.ite
    | with_reducible apply State.notify_keeps
    | exact fun _ h => h
    | fail_if_no_progress (with_reducible apply Keeps.mk; (try dsimp only); with_reducible apply Keeps.parts)
    | split
    | dsimp only
    | assumption

theorem doForwardedWriteRx_keeps {s0 : State} (d : Die) (h : FlitHdr) (id : Nat) (s : State) (h_s : Keeps s0 s) : Keeps s0 (doForwardedWriteRx d h id s) := by
  unfold doForwardedWriteRx
  repeat' first
    | with_reducible assumption
    | intro _
    | with_reducible apply Keeps.ite
    | with_reducible apply State.flit_keeps
    | with_reducible apply State.writeAll_keeps
    | exact fun _ h => h
    | fail_if_no_progress (with_reducible apply Keeps.mk; (try dsimp only); with_reducible apply Keeps.parts)
    | split
    | dsimp only
    | assumption

theorem doForwardedResponseRx_keeps {s0 : State} (d : Die) (h : FlitHdr) (id : Nat) (s : State) (h_s : Keeps s0 s) : Keeps s0 (doForwardedResponseRx d h id s) := by
  unfold doForwardedResponseRx
  repeat' first
    | with_reducible assumption
    | intro _
    | with_reducible apply Keeps.ite
    | with_reducible apply State.flit_keeps
    | with_reducible apply State.readBlockOn_keeps
    | with_reducible apply State.readOn_keeps
    | exact fun _ h => h
    | fail_if_no_progress (with_reducible apply Keeps.mk; (try dsimp only); with_reducible apply Keeps.parts)
    | split
    | dsimp only
    | assumption

theorem State.takeNow_keeps {s0 : State} (s : State) (recv : Nat) (x : WItem) (h_s : Keeps s0 s) : Keeps s0 (State.takeNow s recv x) := by
  unfold State.takeNow
  repeat' first
    | with_reducible assumption
    | intro _
    | with_reducible apply Keeps.ite
    | fail_if_no_progress (with_reducible apply Keeps.mk; (try dsimp only); with_reducible apply Keeps.parts)
    | split
    | dsimp only
    | assumption

theorem State.applyAnswer_keeps {s0 : State} (s old : State) (r : RespTo) (h_s : Keeps s0 s) (h_old : Keeps s0 old) : Keeps s0 (State.applyAnswer s old r) := by
  unfold State.applyAnswer
  repeat' first
    | with_reducible assumption
    | intro _
    | with_reducible apply Keeps.ite
    | with_reducible apply State.sendAns_keeps
    | fail_if_no_progress (with_reducible apply Keeps.mk; (try dsimp only); with_reducible apply Keeps.parts)
    | split
    | dsimp only
    | assumption

theorem State.applyWrite_keeps {s0 : State} (s : State) (w : PendWrite) (h_s : Keeps s0 s) : Keeps s0 (State.applyWrite s w) := by
  unfold State.applyWrite
  repeat' first
    | with_reducible assumption
    | intro _
    | with_reducible apply Keeps.ite
    | with_reducible apply State.ansBusy_keeps
    | with_reducible apply State.applyAnswer_keeps
    | with_reducible apply State.asBlock_keeps
    | with_reducible apply State.sendAns_keeps
    | with_reducible apply State.takeNow_keeps
    | with_reducible apply State.updSeat_keeps
    | with_reducible apply State.writeAll_keeps
    | with_reducible apply Keeps.foldl
    | fail_if_no_progress (with_reducible apply Keeps.mk; (try dsimp only); with_reducible apply Keeps.parts)
    | split
    | dsimp only
    | assumption

theorem State.reopen_keeps {s0 : State} (s : State) (h_s : Keeps s0 s) : Keeps s0 (State.reopen s) := by
  unfold State.reopen
  repeat' first
    | with_reducible assumption
    | with_reducible apply Keeps.ite
    | with_reducible apply State.updDie_keeps
    | fail_if_no_progress (with_reducible apply Keeps.mk; (try dsimp only); with_reducible apply Keeps.parts)
    | split
    | dsimp only
    | assumption

theorem doWriteApply_keeps {s0 : State} (s : State) (h_s : Keeps s0 s) : Keeps s0 (doWriteApply s) := by
  unfold doWriteApply
  repeat' first
    | with_reducible assumption
    | intro _
    | with_reducible apply Keeps.ite
    | with_reducible apply State.activateApply_keeps
    | with_reducible apply State.applyWrite_keeps
    | with_reducible apply State.ptAgain_keeps
    | with_reducible apply State.reopen_keeps
    | with_reducible apply State.shelf_keeps
    | with_reducible apply Keeps.foldl
    | fail_if_no_progress (with_reducible apply Keeps.mk; (try dsimp only); with_reducible apply Keeps.parts)
    | split
    | dsimp only
    | assumption

theorem doWriteFrame_keeps {s0 : State} (whole : Bool) (op : Nat) (f : Frame) (s : State) (h_s : Keeps s0 s) : Keeps s0 (doWriteFrame whole op f s) := by
  unfold doWriteFrame
  repeat' first
    | with_reducible assumption
    | with_reducible apply Keeps.ite
    | with_reducible apply State.bump_keeps
    | with_reducible apply State.request_keeps
    | exact fun _ h => h
    | fail_if_no_progress (with_reducible apply Keeps.mk; (try dsimp only); with_reducible apply Keeps.parts)
    | split
    | dsimp only
    | assumption

theorem doReadFrame_keeps {s0 : State} (whole : Bool) (s : State) (h_s : Keeps s0 s) : Keeps s0 (doReadFrame whole s) := by
  unfold doReadFrame
  repeat' first
    | with_reducible assumption
    | with_reducible apply Keeps.ite
    | fail_if_no_progress (with_reducible apply Keeps.mk; (try dsimp only); with_reducible apply Keeps.parts)
    | split
    | dsimp only
    | assumption

theorem doReadStatus_keeps {s0 : State} (s : State) (h_s : Keeps s0 s) : Keeps s0 (doReadStatus s) := by
  unfold doReadStatus
  repeat' first
    | with_reducible assumption
    | with_reducible apply Keeps.ite
    | fail_if_no_progress (with_reducible apply Keeps.mk; (try dsimp only); with_reducible apply Keeps.parts)
    | split
    | dsimp only
    | assumption

end Sys2Proof.Machine
end

