-- ==== Sys2Proof/Laws/KeepsIdle.lean ====
section
/-! SUPPORT. The operations of Machine/Idle.lean keep the queue, the programmed OTP words and the canonical memories. -/

set_option linter.unusedTactic false
set_option linter.unreachableTactic false
set_option linter.unusedVariables false

namespace Sys2Proof.Machine

theorem State.refillAll_keeps {s0 : State} (s : State) (h_s : Keeps s0 s) : Keeps s0 (State.refillAll s) := by
  unfold State.refillAll
  repeat' first
    | with_reducible assumption
    | intro _
    | with_reducible apply Keeps.foldl
    | fail_if_no_progress (with_reducible apply Keeps.mk; (try dsimp only); with_reducible apply Keeps.parts)
    | dsimp only
    | assumption

theorem State.holdOn_keeps {s0 : State} (s : State) (h_s : Keeps s0 s) : Keeps s0 (State.holdOn s) := by
  unfold State.holdOn
  repeat' first
    | with_reducible assumption
    | with_reducible apply Keeps.ite
    | with_reducible apply State.updDie_keeps
    | fail_if_no_progress (with_reducible apply Keeps.mk; (try dsimp only); with_reducible apply Keeps.parts)
    | split
    | dsimp only
    | assumption

theorem State.tickTimers_keeps {s0 : State} (s : State) (d : Die) (h_s : Keeps s0 s) : Keeps s0 (State.tickTimers s d) := by
  unfold State.tickTimers
  repeat' first
    | with_reducible assumption
    | with_reducible apply Keeps.ite
    | with_reducible apply State.timerEdge_keeps
    | split
    | dsimp only
    | assumption

theorem State.roundOn_keeps {s0 : State} (s : State) (h_s : Keeps s0 s) : Keeps s0 (State.roundOn s) := by
  unfold State.roundOn
  repeat' first
    | with_reducible assumption
    | with_reducible apply Keeps.ite
    | fail_if_no_progress (with_reducible apply Keeps.mk; (try dsimp only); with_reducible apply Keeps.parts)
    | split
    | dsimp only
    | assumption

theorem idle_keeps {s0 : State} (s : State) (h_s : Keeps s0 s) : Keeps s0 (idle s) := by
  unfold idle
  repeat' first
    | with_reducible assumption
    | with_reducible apply Keeps.ite
    | with_reducible apply State.holdOn_keeps
    | with_reducible apply State.otpNext_keeps
    | with_reducible apply State.refillAll_keeps
    | with_reducible apply State.roundOn_keeps
    | with_reducible apply State.shelf_keeps
    | with_reducible apply State.tickTimers_keeps
    | fail_if_no_progress (with_reducible apply Keeps.mk; (try dsimp only); with_reducible apply Keeps.parts)
    | split
    | dsimp only
    | assumption

end Sys2Proof.Machine
end

