-- ==== Sys2Proof/Laws/LatchedSpanOps.lean ====
section
/-! SUPPORT. The operations of Machine/SpanOps.lean clear no latched fault bit and set no reserved one. -/

set_option linter.unusedTactic false
set_option linter.unreachableTactic false
set_option linter.unusedVariables false

namespace Sys2Proof.Machine

theorem State.sendReady_latched {s0 : State} (s : State) (d : Die) (h_s : Latched s0 s) : Latched s0 (State.sendReady s d) := by
  unfold State.sendReady
  repeat' first
    | with_reducible assumption
    | intro _
    | with_reducible apply Latched.ite
    | with_reducible apply State.updDie_latched
    | fail_if_no_progress (with_reducible apply Latched.mk; (try dsimp only); with_reducible apply Latched.parts)
    | split
    | dsimp only
    | assumption

theorem State.countCompares_latched {s0 : State} (s : State) (d : Die) (c0 : Cmp) (h_s : Latched s0 s) : Latched s0 (State.countCompares s d c0) := by
  unfold State.countCompares
  repeat' first
    | with_reducible assumption
    | with_reducible apply Latched.ite
    | with_reducible apply State.setReg_latched
    | split
    | dsimp only
    | assumption

theorem State.ready_latched {s0 : State} (s : State) (d : Die) (p : Pattern) (h_s : Latched s0 s) : Latched s0 (State.ready s d p) := by
  unfold State.ready
  repeat' first
    | with_reducible assumption
    | with_reducible apply Latched.ite
    | with_reducible apply State.sendReady_latched
    | split
    | dsimp only
    | assumption

theorem State.formRecords_latched {s0 : State} (s : State) (d : Die) (p : Pattern) (h_s : Latched s0 s) : Latched s0 (State.formRecords s d p) := by
  unfold State.formRecords
  repeat' first
    | with_reducible assumption
    | intro _
    | with_reducible apply Latched.ite
    | with_reducible apply State.countCompares_latched
    | with_reducible apply State.setDie_latched
    | fail_if_no_progress (with_reducible apply Latched.mk; (try dsimp only); with_reducible apply Latched.parts)
    | split
    | dsimp only
    | assumption

theorem State.replayRecords_latched {s0 : State} (s : State) (d : Die) (p : Pattern) (h_s : Latched s0 s) : Latched s0 (State.replayRecords s d p) := by
  unfold State.replayRecords
  repeat' first
    | with_reducible assumption
    | intro _
    | with_reducible apply State.countCompares_latched
    | with_reducible apply State.setDie_latched
    | fail_if_no_progress (with_reducible apply Latched.mk; (try dsimp only); with_reducible apply Latched.parts)
    | dsimp only
    | assumption

theorem State.advance_latched {s0 : State} (s : State) (d : Die) (p : Pattern) (h_s : Latched s0 s) : Latched s0 (State.advance s d p) := by
  unfold State.advance
  repeat' first
    | with_reducible assumption
    | with_reducible apply Latched.ite
    | with_reducible apply State.formRecords_latched
    | with_reducible apply State.ready_latched
    | with_reducible apply State.replayRecords_latched
    | with_reducible apply State.setDie_latched
    | with_reducible apply State.setReg_latched
    | fail_if_no_progress (with_reducible apply Latched.mk; (try dsimp only); with_reducible apply Latched.parts)
    | split
    | dsimp only
    | assumption

theorem State.startEval_latched {s0 : State} (s : State) (d : Die) (p : Pattern) (h_s : Latched s0 s) : Latched s0 (State.startEval s d p) := by
  unfold State.startEval
  repeat' first
    | with_reducible assumption
    | intro _
    | with_reducible apply State.advance_latched
    | with_reducible apply State.free_latched
    | with_reducible apply State.setDie_latched
    | fail_if_no_progress (with_reducible apply Latched.mk; (try dsimp only); with_reducible apply Latched.parts)
    | split
    | dsimp only
    | assumption

theorem State.laneFail_latched {s0 : State} (s : State) (d : Die) (lane : Nat) (p : Pattern) (h_s : Latched s0 s) : Latched s0 (State.laneFail s d lane p) := by
  unfold State.laneFail
  repeat' first
    | with_reducible assumption
    | with_reducible apply Latched.ite
    | with_reducible apply State.causeOn_latched
    | with_reducible apply State.free_latched
    | with_reducible apply State.latch_latched
    | with_reducible apply State.setDie_latched
    | fail_if_no_progress (with_reducible apply Latched.mk; (try dsimp only); with_reducible apply Latched.parts)
    | split
    | dsimp only
    | assumption

theorem State.sendCmds_latched {s0 : State} (s : State) (d : Die) (cmd : Nat → BitVec 32) (h_s : Latched s0 s) : Latched s0 (State.sendCmds s d cmd) := by
  unfold State.sendCmds
  repeat' first
    | with_reducible assumption
    | intro _
    | with_reducible apply Latched.ite
    | with_reducible apply State.updDie_latched
    | with_reducible apply Latched.foldl
    | split
    | dsimp only
    | assumption

end Sys2Proof.Machine
end

