-- ==== Sys2Proof/Laws/LatchedRingOps.lean ====
section
/-! SUPPORT. The operations of Machine/RingOps.lean clear no latched fault bit and set no reserved one. -/

set_option linter.unusedTactic false
set_option linter.unreachableTactic false
set_option linter.unusedVariables false

namespace Sys2Proof.Machine

theorem State.crcTouch_latched {s0 : State} (s : State) (inB : Bool) (lo n : Nat) (h_s : Latched s0 s) : Latched s0 (State.crcTouch s inB lo n) := by
  unfold State.crcTouch
  repeat' first
    | with_reducible assumption
    | intro _
    | with_reducible apply Latched.ite
    | with_reducible apply Latched.foldl
    | fail_if_no_progress (with_reducible apply Latched.mk; (try dsimp only); with_reducible apply Latched.parts)
    | split
    | dsimp only
    | assumption

theorem State.crcTouchHead_latched {s0 : State} (s : State) (n : Nat) (h_s : Latched s0 s) : Latched s0 (State.crcTouchHead s n) := by
  unfold State.crcTouchHead
  repeat' first
    | with_reducible assumption
    | with_reducible apply State.crcTouch_latched
    | dsimp only
    | assumption

theorem State.ringFix_latched {s0 : State} (s : State) (n : Nat) (h_s : Latched s0 s) : Latched s0 (State.ringFix s n) := by
  unfold State.ringFix
  repeat' first
    | with_reducible assumption
    | with_reducible apply Latched.ite
    | with_reducible apply State.bump_latched
    | with_reducible apply State.latch_latched
    | fail_if_no_progress (with_reducible apply Latched.mk; (try dsimp only); with_reducible apply Latched.parts)
    | split
    | dsimp only
    | assumption

theorem State.ringPut_latched {s0 : State} (s : State) (n : Nat) (bs : List Byte) (h_s : Latched s0 s) : Latched s0 (State.ringPut s n bs).1 := by
  unfold State.ringPut
  repeat' first
    | with_reducible assumption
    | with_reducible apply Latched.ite
    | with_reducible apply State.crcTouchHead_latched
    | with_reducible apply State.ringFix_latched
    | fail_if_no_progress (with_reducible apply Latched.mk; (try dsimp only); with_reducible apply Latched.parts)
    | split
    | dsimp only
    | assumption

theorem State.ringsFor_latched {s0 : State} (s : State) (p : Pattern) (h_s : Latched s0 s) : Latched s0 (State.ringsFor s p) := by
  unfold State.ringsFor
  repeat' first
    | with_reducible assumption
    | with_reducible apply Latched.ite
    | fail_if_no_progress (with_reducible apply Latched.mk; (try dsimp only); with_reducible apply Latched.parts)
    | split
    | dsimp only
    | assumption

theorem State.logAppend_latched {s0 : State} (s : State) (es : List (List Byte)) (h_s : Latched s0 s) : Latched s0 (State.logAppend s es).1 := by
  unfold State.logAppend
  repeat' first
    | with_reducible assumption
    | with_reducible apply Latched.ite
    | fail_if_no_progress (with_reducible apply Latched.mk; (try dsimp only); with_reducible apply Latched.parts)
    | split
    | dsimp only
    | assumption

theorem State.dcplChange_latched {s0 : State} (s : State) (g new old span : Nat) (h_s : Latched s0 s) : Latched s0 (State.dcplChange s g new old span) := by
  unfold State.dcplChange
  repeat' first
    | with_reducible assumption
    | with_reducible apply Latched.ite
    | with_reducible apply State.bump_latched
    | with_reducible apply State.logAppend_latched
    | with_reducible apply State.setReg_latched
    | split
    | dsimp only
    | assumption

theorem State.jrnVar_latched {s0 : State} (s : State) (d : Die) (v : Var) (old new : Int) (h_s : Latched s0 s) : Latched s0 (State.jrnVar s d v old new) := by
  unfold State.jrnVar
  repeat' first
    | with_reducible assumption
    | intro _
    | with_reducible apply Latched.ite
    | with_reducible apply State.jrnRec_latched
    | with_reducible apply State.updDie_latched
    | exact fun _ h => h
    | fail_if_no_progress (with_reducible apply Latched.mk; (try dsimp only); with_reducible apply Latched.parts)
    | split
    | dsimp only
    | assumption

theorem State.jrnVars_latched {s0 : State} (s : State) (d : Die) (p : Pattern) (old new : Img) (h_s : Latched s0 s) : Latched s0 (State.jrnVars s d p old new) := by
  unfold State.jrnVars
  repeat' first
    | with_reducible assumption
    | intro _
    | with_reducible apply State.jrnVar_latched
    | exact fun _ h => h
    | with_reducible apply Latched.foldl
    | dsimp only
    | assumption

end Sys2Proof.Machine
end

