-- ==== Sys2Proof/Laws/LatchedTimerOps.lean ====
section
/-! SUPPORT. The operations of Machine/TimerOps.lean clear no latched fault bit and set no reserved one. -/

set_option linter.unusedTactic false
set_option linter.unreachableTactic false
set_option linter.unusedVariables false

namespace Sys2Proof.Machine

theorem State.setTimer_latched {s0 : State} (s : State) (k : Nat) (t : Tmr) (h_s : Latched s0 s) : Latched s0 (State.setTimer s k t) := by
  unfold State.setTimer
  repeat' first
    | with_reducible assumption
    | fail_if_no_progress (with_reducible apply Latched.mk; (try dsimp only); with_reducible apply Latched.parts)
    | dsimp only
    | assumption

theorem State.putTimer_latched {s0 : State} (s : State) (k : Nat) (x : Tmr × Bool) (h_s : Latched s0 s) : Latched s0 (State.putTimer s k x) := by
  unfold State.putTimer
  repeat' first
    | with_reducible assumption
    | with_reducible apply Latched.ite
    | with_reducible apply State.ringPut_latched
    | with_reducible apply State.setTimer_latched
    | split
    | dsimp only
    | assumption

theorem State.timerEdge_latched {s0 : State} (s : State) (d : Die) (src : Bool) (h_s : Latched s0 s) : Latched s0 (State.timerEdge s d src) := by
  unfold State.timerEdge
  repeat' first
    | with_reducible assumption
    | intro _
    | with_reducible apply Latched.ite
    | with_reducible apply State.putTimer_latched
    | with_reducible apply Latched.foldl
    | split
    | dsimp only
    | assumption

end Sys2Proof.Machine
end

