-- ==== Sys2Proof/Laws/LatchedRelease.lean ====
section
/-! SUPPORT. The operations of Machine/Release.lean clear no latched fault bit and set no reserved one. -/

set_option linter.unusedTactic false
set_option linter.unreachableTactic false
set_option linter.unusedVariables false

namespace Sys2Proof.Machine

theorem State.release_latched {s0 : State} (p : Pattern) (d : Die) (e : EvalEnv) (s : State) (x : Nat × Inst × ConnPar × Nat × Nat) (h_s : Latched s0 s) : Latched s0 (State.release p d e s x) := by
  unfold State.release
  repeat' first
    | with_reducible assumption
    | intro _
    | with_reducible apply Latched.ite
    | with_reducible apply State.bumpOnce_latched
    | with_reducible apply State.ringPut_latched
    | with_reducible apply State.setDie_latched
    | exact fun _ h => h
    | with_reducible apply Latched.foldl
    | with_reducible apply Latched.foldlSnd
    | fail_if_no_progress (with_reducible apply Latched.mk; (try dsimp only); with_reducible apply Latched.parts)
    | split
    | dsimp only
    | assumption

theorem State.releaseAll_latched {s0 : State} (s : State) (d : Die) (p : Pattern) (m : Img) (h_s : Latched s0 s) : Latched s0 (State.releaseAll s d p m) := by
  unfold State.releaseAll
  repeat' first
    | with_reducible assumption
    | intro _
    | with_reducible apply State.release_latched
    | with_reducible apply Latched.foldl
    | fail_if_no_progress (with_reducible apply Latched.mk; (try dsimp only); with_reducible apply Latched.parts)
    | dsimp only
    | assumption

theorem State.takeState_latched {s0 : State} (u : State) (d : Die) (h_u : Latched s0 u) : Latched s0 (State.takeState u d) := by
  unfold State.takeState
  repeat' first
    | with_reducible assumption
    | intro _
    | with_reducible apply State.setDie_latched
    | fail_if_no_progress (with_reducible apply Latched.mk; (try dsimp only); with_reducible apply Latched.parts)
    | split
    | dsimp only
    | assumption

theorem State.enterHold_latched {s0 : State} (s : State) (d : Die) (h_s : Latched s0 s) : Latched s0 (State.enterHold s d) := by
  unfold State.enterHold
  repeat' first
    | with_reducible assumption
    | with_reducible apply Latched.ite
    | with_reducible apply State.setDie_latched
    | fail_if_no_progress (with_reducible apply Latched.mk; (try dsimp only); (try simp only [Faults.takeLocks_f1, Faults.takeLocks_f2, Faults.takeNow_f1, Faults.takeNow_f2, Faults.girthOff_f1, Faults.girthOff_f2, Faults.openShadow_f1, Faults.openShadow_f2, Faults.addC2_f1, Faults.addC2_f2, Faults.setRd_f1, Faults.setRd_f2, Faults.shadowDone_f1, Faults.shadowDone_f2]); with_reducible apply Latched.parts)
    | split
    | dsimp only
    | assumption

theorem State.rejoinCommit_latched {s0 : State} (s : State) (d : Die) (h_s : Latched s0 s) : Latched s0 (State.rejoinCommit s d) := by
  unfold State.rejoinCommit
  repeat' first
    | with_reducible assumption
    | with_reducible apply Latched.ite
    | with_reducible apply State.setDie_latched
    | with_reducible apply State.setReg_latched
    | fail_if_no_progress (with_reducible apply Latched.mk; (try dsimp only); (try simp only [Faults.takeLocks_f1, Faults.takeLocks_f2, Faults.takeNow_f1, Faults.takeNow_f2, Faults.girthOff_f1, Faults.girthOff_f2, Faults.openShadow_f1, Faults.openShadow_f2, Faults.addC2_f1, Faults.addC2_f2, Faults.setRd_f1, Faults.setRd_f2, Faults.shadowDone_f1, Faults.shadowDone_f2]); with_reducible apply Latched.parts)
    | split
    | dsimp only
    | assumption

theorem State.laReboot_latched {s0 : State} (s : State) (p : Pattern) (h_s : Latched s0 s) : Latched s0 (State.laReboot s p) := by
  unfold State.laReboot
  repeat' first
    | with_reducible assumption
    | with_reducible apply Latched.ite
    | with_reducible apply State.enterHold_latched
    | fail_if_no_progress (with_reducible apply Latched.mk; (try dsimp only); with_reducible apply Latched.parts)
    | split
    | dsimp only
    | assumption

theorem State.flip__latched {s0 : State} (s : State) (h_s : Latched s0 s) : Latched s0 (State.flip_ s) := by
  unfold State.flip_
  repeat' first
    | with_reducible assumption
    | intro _
    | with_reducible apply Latched.ite
    | with_reducible apply State.bump_latched
    | with_reducible apply State.event2_latched
    | with_reducible apply State.setReg_latched
    | with_reducible apply Latched.foldl
    | fail_if_no_progress (with_reducible apply Latched.mk; (try dsimp only); with_reducible apply Latched.parts)
    | split
    | dsimp only
    | assumption

theorem State.updAgree_latched {s0 : State} (s : State) (h_s : Latched s0 s) : Latched s0 (State.updAgree s) := by
  unfold State.updAgree
  repeat' first
    | with_reducible assumption
    | with_reducible apply Latched.ite
    | with_reducible apply State.flip__latched
    | fail_if_no_progress (with_reducible apply Latched.mk; (try dsimp only); with_reducible apply Latched.parts)
    | split
    | dsimp only
    | assumption

theorem State.readmAgree_latched {s0 : State} (s : State) (d : Die) (h_s : Latched s0 s) : Latched s0 (State.readmAgree s d) := by
  unfold State.readmAgree
  repeat' first
    | with_reducible assumption
    | with_reducible apply Latched.ite
    | with_reducible apply State.bump_latched
    | with_reducible apply State.setDieSt_latched
    | with_reducible apply State.setReg_latched
    | fail_if_no_progress (with_reducible apply Latched.mk; (try dsimp only); (try simp only [Faults.takeLocks_f1, Faults.takeLocks_f2, Faults.takeNow_f1, Faults.takeNow_f2, Faults.girthOff_f1, Faults.girthOff_f2, Faults.openShadow_f1, Faults.openShadow_f2, Faults.addC2_f1, Faults.addC2_f2, Faults.setRd_f1, Faults.setRd_f2, Faults.shadowDone_f1, Faults.shadowDone_f2]); with_reducible apply Latched.parts)
    | split
    | dsimp only
    | assumption

theorem State.notAgreed_latched {s0 : State} (s : State) (d : Die) (h_s : Latched s0 s) : Latched s0 (State.notAgreed s d) := by
  unfold State.notAgreed
  repeat' first
    | with_reducible assumption
    | with_reducible apply Latched.ite
    | fail_if_no_progress (with_reducible apply Latched.mk; (try dsimp only); (try simp only [Faults.takeLocks_f1, Faults.takeLocks_f2, Faults.takeNow_f1, Faults.takeNow_f2, Faults.girthOff_f1, Faults.girthOff_f2, Faults.openShadow_f1, Faults.openShadow_f2, Faults.addC2_f1, Faults.addC2_f2, Faults.setRd_f1, Faults.setRd_f2, Faults.shadowDone_f1, Faults.shadowDone_f2]); with_reducible apply Latched.parts)
    | split
    | dsimp only
    | assumption

end Sys2Proof.Machine
end

