-- ==== Sys2Proof/Laws/LatchedTickOps.lean ====
section
/-! SUPPORT. The operations of Machine/TickOps.lean clear no latched fault bit and set no reserved one. -/

set_option linter.unusedTactic false
set_option linter.unreachableTactic false
set_option linter.unusedVariables false

namespace Sys2Proof.Machine

theorem State.swapLanes_latched {s0 : State} (s : State) (d : Die) (h_s : Latched s0 s) : Latched s0 (State.swapLanes s d) := by
  unfold State.swapLanes
  repeat' first
    | with_reducible assumption
    | intro _
    | with_reducible apply Latched.ite
    | with_reducible apply State.free_latched
    | with_reducible apply State.latchStanding_latched
    | with_reducible apply State.updDie_latched
    | with_reducible apply Latched.foldl
    | fail_if_no_progress (with_reducible apply Latched.mk; (try dsimp only); with_reducible apply Latched.parts)
    | split
    | dsimp only
    | assumption

theorem State.newRound_latched {s0 : State} (s : State) (h_s : Latched s0 s) : Latched s0 (State.newRound s) := by
  unfold State.newRound
  repeat' first
    | with_reducible assumption
    | intro _
    | fail_if_no_progress (with_reducible apply Latched.mk; (try dsimp only); with_reducible apply Latched.parts)
    | dsimp only
    | assumption

theorem State.grantToken_latched {s0 : State} (s : State) (h_s : Latched s0 s) : Latched s0 (State.grantToken s) := by
  unfold State.grantToken
  repeat' first
    | with_reducible assumption
    | with_reducible apply Latched.ite
    | fail_if_no_progress (with_reducible apply Latched.mk; (try dsimp only); with_reducible apply Latched.parts)
    | split
    | dsimp only
    | assumption

theorem State.rotate_latched {s0 : State} (s : State) (d : Die) (h_s : Latched s0 s) : Latched s0 (State.rotate s d) := by
  unfold State.rotate
  repeat' first
    | with_reducible assumption
    | intro _
    | with_reducible apply Latched.ite
    | with_reducible apply State.free_latched
    | with_reducible apply State.updDie_latched
    | fail_if_no_progress (with_reducible apply Latched.mk; (try dsimp only); with_reducible apply Latched.parts)
    | split
    | dsimp only
    | assumption

theorem State.swapRoles_latched {s0 : State} (s : State) (d : Die) (h_s : Latched s0 s) : Latched s0 (State.swapRoles s d) := by
  unfold State.swapRoles
  repeat' first
    | with_reducible assumption
    | intro _
    | with_reducible apply Latched.foldl
    | fail_if_no_progress (with_reducible apply Latched.mk; (try dsimp only); with_reducible apply Latched.parts)
    | dsimp only
    | assumption

theorem State.granStart_latched {s0 : State} (s : State) (d : Die) (n : Nat) (h_s : Latched s0 s) : Latched s0 (State.granStart s d n) := by
  unfold State.granStart
  repeat' first
    | with_reducible assumption
    | with_reducible apply Latched.ite
    | fail_if_no_progress (with_reducible apply Latched.mk; (try dsimp only); with_reducible apply Latched.parts)
    | split
    | dsimp only
    | assumption

theorem State.stTick_latched {s0 : State} (u : State) (d : Die) (h_u : Latched s0 u) : Latched s0 (State.stTick u d) := by
  unfold State.stTick
  repeat' first
    | with_reducible assumption
    | with_reducible apply Latched.ite
    | with_reducible apply State.grantToken_latched
    | with_reducible apply State.newRound_latched
    | with_reducible apply State.rotate_latched
    | with_reducible apply State.swapRoles_latched
    | fail_if_no_progress (with_reducible apply Latched.mk; (try dsimp only); with_reducible apply Latched.parts)
    | split
    | dsimp only
    | assumption

theorem State.ptTick_latched {s0 : State} (s : State) (n : Nat) (h_s : Latched s0 s) : Latched s0 (State.ptTick s n) := by
  unfold State.ptTick
  repeat' first
    | with_reducible assumption
    | with_reducible apply Latched.ite
    | with_reducible apply State.bump_latched
    | fail_if_no_progress (with_reducible apply Latched.mk; (try dsimp only); with_reducible apply Latched.parts)
    | split
    | dsimp only
    | assumption

theorem State.ptAgain_latched {s0 : State} (s : State) (h_s : Latched s0 s) : Latched s0 (State.ptAgain s) := by
  unfold State.ptAgain
  repeat' first
    | with_reducible assumption
    | fail_if_no_progress (with_reducible apply Latched.mk; (try dsimp only); with_reducible apply Latched.parts)
    | dsimp only
    | assumption

end Sys2Proof.Machine
end

