-- ==== Sys2Proof/Laws/LatchedSpan.lean ====
section
/-! SUPPORT. The operations of Machine/Span.lean clear no latched fault bit and set no reserved one. -/

set_option linter.unusedTactic false
set_option linter.unreachableTactic false
set_option linter.unusedVariables false

namespace Sys2Proof.Machine

theorem State.capOvr_latched {s0 : State} (d : Die) (s : State) (n : Nat) (h_s : Latched s0 s) : Latched s0 (State.capOvr d s n) := by
  unfold State.capOvr
  repeat' first
    | with_reducible assumption
    | intro _
    | with_reducible apply Latched.ite
    | with_reducible apply State.bump_latched
    | with_reducible apply State.setReg_latched
    | with_reducible apply State.updDie_latched
    | fail_if_no_progress (with_reducible apply Latched.mk; (try dsimp only); with_reducible apply Latched.parts)
    | split
    | dsimp only
    | assumption

theorem State.edgeWins_latched {s0 : State} (d : Die) (s : State) (n : Nat) (h_s : Latched s0 s) : Latched s0 (State.edgeWins d s n) := by
  unfold State.edgeWins
  repeat' first
    | with_reducible assumption
    | intro _
    | with_reducible apply Latched.ite
    | with_reducible apply State.bumpOnce_latched
    | with_reducible apply State.setDie_latched
    | fail_if_no_progress (with_reducible apply Latched.mk; (try dsimp only); with_reducible apply Latched.parts)
    | split
    | dsimp only
    | assumption

theorem State.readPairs_latched {s0 : State} (s : State) (d : Die) (ns : List Nat) (h_s : Latched s0 s) : Latched s0 (State.readPairs s d ns) := by
  unfold State.readPairs
  repeat' first
    | with_reducible assumption
    | intro _
    | with_reducible apply State.capOvr_latched
    | with_reducible apply State.edgeWins_latched
    | with_reducible apply State.setDie_latched
    | with_reducible apply Latched.foldl
    | fail_if_no_progress (with_reducible apply Latched.mk; (try dsimp only); with_reducible apply Latched.parts)
    | dsimp only
    | assumption

theorem State.jrnFlush_latched {s0 : State} (s : State) (d : Die) (h_s : Latched s0 s) : Latched s0 (State.jrnFlush s d) := by
  unfold State.jrnFlush
  repeat' first
    | with_reducible assumption
    | with_reducible apply Latched.ite
    | with_reducible apply State.jrnStop_latched
    | with_reducible apply State.setDie_latched
    | fail_if_no_progress (with_reducible apply Latched.mk; (try dsimp only); with_reducible apply Latched.parts)
    | split
    | dsimp only
    | assumption

theorem doTick_latched {s0 : State} (d : Die) (meas : Nat) (s : State) (h_s : Latched s0 s) : Latched s0 (doTick d meas s) := by
  unfold doTick
  repeat' first
    | with_reducible assumption
    | intro _
    | with_reducible apply Latched.ite
    | with_reducible apply State.jrnFlush_latched
    | with_reducible apply State.latch_latched
    | with_reducible apply State.ptTick_latched
    | with_reducible apply State.readPairs_latched
    | with_reducible apply State.stTick_latched
    | with_reducible apply State.swapLanes_latched
    | with_reducible apply State.timerEdge_latched
    | with_reducible apply State.updDie_latched
    | fail_if_no_progress (with_reducible apply Latched.mk; (try dsimp only); with_reducible apply Latched.parts)
    | split
    | dsimp only
    | assumption

theorem State.missingImages_latched {s0 : State} (s : State) (d : Die) (h_s : Latched s0 s) : Latched s0 (State.missingImages s d) := by
  unfold State.missingImages
  repeat' first
    | with_reducible assumption
    | intro _
    | with_reducible apply Latched.ite
    | with_reducible apply State.latchReset_latched
    | with_reducible apply State.updDie_latched
    | exact fun _ h => h
    | with_reducible apply Latched.foldl
    | fail_if_no_progress (with_reducible apply Latched.mk; (try dsimp only); with_reducible apply Latched.parts)
    | split
    | dsimp only
    | assumption

theorem State.axisCounts_latched {s0 : State} (p : Pattern) (d : Die) (old : Tab PosHist) (s : State) (r : AxisRec) (h_s : Latched s0 s) : Latched s0 (State.axisCounts p d old s r) := by
  unfold State.axisCounts
  repeat' first
    | with_reducible assumption
    | intro _
    | with_reducible apply Latched.ite
    | with_reducible apply State.setReg_latched
    | fail_if_no_progress (with_reducible apply Latched.mk; (try dsimp only); with_reducible apply Latched.parts)
    | split
    | dsimp only
    | assumption

theorem State.streamCounts_latched {s0 : State} (p : Pattern) (d : Die) (s : State) (x : ConnRec × Nat) (h_s : Latched s0 s) : Latched s0 (State.streamCounts p d s x) := by
  unfold State.streamCounts
  repeat' first
    | with_reducible assumption
    | intro _
    | with_reducible apply Latched.ite
    | with_reducible apply State.bump_latched
    | with_reducible apply Latched.foldl
    | with_reducible apply Latched.foldlSnd
    | split
    | dsimp only
    | assumption

theorem State.positions_latched {s0 : State} (s : State) (d : Die) (p : Pattern) (h_s : Latched s0 s) : Latched s0 (State.positions s d p) := by
  unfold State.positions
  repeat' first
    | with_reducible assumption
    | intro _
    | with_reducible apply State.axisCounts_latched
    | with_reducible apply State.streamCounts_latched
    | with_reducible apply State.updDie_latched
    | with_reducible apply Latched.foldl
    | dsimp only
    | assumption

theorem doPhaseAEnd_latched {s0 : State} (d : Die) (s : State) (h_s : Latched s0 s) : Latched s0 (doPhaseAEnd d s) := by
  unfold doPhaseAEnd
  repeat' first
    | with_reducible assumption
    | intro _
    | with_reducible apply Latched.ite
    | with_reducible apply State.chanEnd_latched
    | with_reducible apply State.missingImages_latched
    | with_reducible apply State.pairAt_latched
    | with_reducible apply State.positions_latched
    | with_reducible apply State.startEval_latched
    | with_reducible apply State.updDie_latched
    | with_reducible apply Latched.foldl
    | with_reducible apply Latched.foldlSnd
    | fail_if_no_progress (with_reducible apply Latched.mk; (try dsimp only); with_reducible apply Latched.parts)
    | split
    | dsimp only
    | assumption

theorem doPhaseEEnd_latched {s0 : State} (d : Die) (s : State) (h_s : Latched s0 s) : Latched s0 (doPhaseEEnd d s) := by
  unfold doPhaseEEnd
  repeat' first
    | with_reducible assumption
    | with_reducible apply Latched.ite
    | with_reducible apply State.setDie_latched
    | fail_if_no_progress (with_reducible apply Latched.mk; (try dsimp only); with_reducible apply Latched.parts)
    | split
    | dsimp only
    | assumption

end Sys2Proof.Machine
end

