-- ==== Sys2Proof/Laws/LatchedOdView.lean ====
section
/-! SUPPORT. The operations of Machine/OdView.lean clear no latched fault bit and set no reserved one. -/

set_option linter.unusedTactic false
set_option linter.unreachableTactic false
set_option linter.unusedVariables false

namespace Sys2Proof.Machine

theorem State.updSeat_latched {s0 : State} (s : State) (k : Nat) (f : Seat → Seat) (h_s : Latched s0 s) : Latched s0 (State.updSeat s k f) := by
  unfold State.updSeat
  repeat' first
    | with_reducible assumption
    | intro _
    | fail_if_no_progress (with_reducible apply Latched.mk; (try dsimp only); with_reducible apply Latched.parts)
    | dsimp only
    | assumption

end Sys2Proof.Machine
end

