-- ==== Sys2Proof/Laws/LatchedCommit.lean ====
section
/-! SUPPORT. The operations of Machine/Commit.lean clear no latched fault bit and set no reserved one. -/

set_option linter.unusedTactic false
set_option linter.unreachableTactic false
set_option linter.unusedVariables false

namespace Sys2Proof.Machine

theorem State.addOnce_latched {s0 : State} (s : State) (d : Die) (n idx sub : Nat) (h_s : Latched s0 s) : Latched s0 (State.addOnce s d n idx sub) := by
  unfold State.addOnce
  repeat' first
    | with_reducible assumption
    | with_reducible apply Latched.ite
    | with_reducible apply State.setReg_latched
    | split
    | dsimp only
    | assumption

theorem State.setOnce_latched {s0 : State} (s : State) (d : Die) (idx sub v : Nat) (h_s : Latched s0 s) : Latched s0 (State.setOnce s d idx sub v) := by
  unfold State.setOnce
  repeat' first
    | with_reducible assumption
    | with_reducible apply Latched.ite
    | with_reducible apply State.setReg_latched
    | split
    | dsimp only
    | assumption

theorem State.commitEv_latched {s0 : State} (p : Pattern) (d : Die) (s : State) (x : Nat × BEv) (h_s : Latched s0 s) : Latched s0 (State.commitEv p d s x) := by
  unfold State.commitEv
  repeat' first
    | with_reducible assumption
    | intro _
    | with_reducible apply Latched.ite
    | with_reducible apply State.addOnce_latched
    | with_reducible apply State.event_latched
    | with_reducible apply State.setOnce_latched
    | with_reducible apply State.updDie_latched
    | exact fun _ h => h
    | fail_if_no_progress (with_reducible apply Latched.mk; (try dsimp only); with_reducible apply Latched.parts)
    | split
    | dsimp only
    | assumption

theorem State.zoneMove_latched {s0 : State} (p : Pattern) (d : Die) (old new : Img) (s : State) (z : ZoneRec) (h_s : Latched s0 s) : Latched s0 (State.zoneMove p d old new s z) := by
  unfold State.zoneMove
  repeat' first
    | with_reducible assumption
    | with_reducible apply Latched.ite
    | with_reducible apply State.event_latched
    | fail_if_no_progress (with_reducible apply Latched.mk; (try dsimp only); with_reducible apply Latched.parts)
    | split
    | dsimp only
    | assumption

theorem State.reinDev_latched {s0 : State} (tspan g : Nat) (ref : Member) (s : State) (x : (Follower × Member) × Nat) (h_s : Latched s0 s) : Latched s0 (State.reinDev tspan g ref s x) := by
  unfold State.reinDev
  repeat' first
    | with_reducible assumption
    | with_reducible apply Latched.ite
    | with_reducible apply State.setReg_latched
    | fail_if_no_progress (with_reducible apply Latched.mk; (try dsimp only); with_reducible apply Latched.parts)
    | split
    | dsimp only
    | assumption

theorem State.reinCommit_latched {s0 : State} (p : Pattern) (d : Die) (e : EvalEnv) (m : Img) (s : State) (y : Inst × Nat) (h_s : Latched s0 s) : Latched s0 (State.reinCommit p d e m s y) := by
  unfold State.reinCommit
  repeat' first
    | with_reducible assumption
    | intro _
    | with_reducible apply Latched.ite
    | with_reducible apply State.dcplChange_latched
    | with_reducible apply State.reinDev_latched
    | with_reducible apply State.setReg_latched
    | with_reducible apply Latched.foldl
    | with_reducible apply Latched.foldlSnd
    | fail_if_no_progress (with_reducible apply Latched.mk; (try dsimp only); with_reducible apply Latched.parts)
    | split
    | dsimp only
    | assumption

theorem State.connCommit_latched {s0 : State} (p : Pattern) (d : Die) (old new : Img) (s : State) (x : Inst × Nat) (h_s : Latched s0 s) : Latched s0 (State.connCommit p d old new s x) := by
  unfold State.connCommit
  repeat' first
    | with_reducible assumption
    | intro _
    | with_reducible apply Latched.ite
    | with_reducible apply State.addOnce_latched
    | with_reducible apply State.setDie_latched
    | fail_if_no_progress (with_reducible apply Latched.mk; (try dsimp only); with_reducible apply Latched.parts)
    | split
    | dsimp only
    | assumption

theorem State.stdoutCommit_latched {s0 : State} (p : Pattern) (d : Die) (e : EvalEnv) (s : State) (x : Inst × Nat) (h_s : Latched s0 s) : Latched s0 (State.stdoutCommit p d e s x) := by
  unfold State.stdoutCommit
  repeat' first
    | with_reducible assumption
    | intro _
    | with_reducible apply Latched.ite
    | with_reducible apply State.setReg_latched
    | with_reducible apply Latched.foldl
    | fail_if_no_progress (with_reducible apply Latched.mk; (try dsimp only); with_reducible apply Latched.parts)
    | split
    | dsimp only
    | assumption

theorem State.unitEvents_latched {s0 : State} (s : State) (d : Die) (l : List (Nat × Nat)) (kind : Nat) (h_s : Latched s0 s) : Latched s0 (State.unitEvents s d l kind) := by
  unfold State.unitEvents
  repeat' first
    | with_reducible assumption
    | intro _
    | with_reducible apply State.event_latched
    | with_reducible apply Latched.foldl
    | with_reducible apply Latched.foldlSnd
    | dsimp only
    | assumption

theorem State.mirror_latched {s0 : State} (s : State) (d : Die) (p : Pattern) (h_s : Latched s0 s) : Latched s0 (State.mirror s d p) := by
  unfold State.mirror
  repeat' first
    | with_reducible assumption
    | intro _
    | with_reducible apply Latched.ite
    | with_reducible apply State.addOnce_latched
    | with_reducible apply State.setDie_latched
    | with_reducible apply State.unitEvents_latched
    | fail_if_no_progress (with_reducible apply Latched.mk; (try dsimp only); with_reducible apply Latched.parts)
    | split
    | dsimp only
    | assumption

theorem State.subCommit_latched {s0 : State} (s : State) (h_s : Latched s0 s) : Latched s0 (State.subCommit s) := by
  unfold State.subCommit
  repeat' first
    | with_reducible assumption
    | intro _
    | with_reducible apply Latched.ite
    | fail_if_no_progress (with_reducible apply Latched.mk; (try dsimp only); with_reducible apply Latched.parts)
    | split
    | dsimp only
    | assumption

theorem State.escalC2_latched {s0 : State} (s : State) (d : Die) (p : Pattern) (old new : Img) (h_s : Latched s0 s) : Latched s0 (State.escalC2 s d p old new) := by
  unfold State.escalC2
  repeat' first
    | with_reducible assumption
    | intro _
    | with_reducible apply Latched.ite
    | with_reducible apply State.addOnce_latched
    | with_reducible apply Latched.foldl
    | with_reducible apply Latched.foldlSnd
    | fail_if_no_progress (with_reducible apply Latched.mk; (try dsimp only); with_reducible apply Latched.parts)
    | split
    | dsimp only
    | assumption

theorem State.handOver_latched {s0 : State} (s : State) (d : Die) (p : Pattern) (h_s : Latched s0 s) : Latched s0 (State.handOver s d p) := by
  unfold State.handOver
  repeat' first
    | with_reducible assumption
    | with_reducible apply Latched.ite
    | with_reducible apply State.free_latched
    | fail_if_no_progress (with_reducible apply Latched.mk; (try dsimp only); with_reducible apply Latched.parts)
    | split
    | dsimp only
    | assumption

theorem State.commitDie_latched {s0 : State} (s : State) (d : Die) (p : Pattern) (locks : List Nat) (h_s : Latched s0 s) : Latched s0 (State.commitDie s d p locks) := by
  unfold State.commitDie
  repeat' first
    | with_reducible assumption
    | intro _
    | with_reducible apply Latched.ite
    | with_reducible apply State.addOnce_latched
    | with_reducible apply State.commitEv_latched
    | with_reducible apply State.connCommit_latched
    | with_reducible apply State.escalC2_latched
    | with_reducible apply State.handOver_latched
    | with_reducible apply State.jrnVars_latched
    | with_reducible apply State.laReboot_latched
    | with_reducible apply State.mirror_latched
    | with_reducible apply State.reinCommit_latched
    | with_reducible apply State.releaseAll_latched
    | with_reducible apply State.sendCmds_latched
    | with_reducible apply State.stdoutCommit_latched
    | with_reducible apply State.subCommit_latched
    | with_reducible apply State.updDie_latched
    | with_reducible apply State.zoneMove_latched
    | with_reducible apply Latched.foldl
    | fail_if_no_progress (with_reducible apply Latched.mk; (try dsimp only); with_reducible apply Latched.parts)
    | split
    | dsimp only
    | assumption

theorem State.agreed_latched {s0 : State} (s : State) (d : Die) (h_s : Latched s0 s) : Latched s0 (State.agreed s d) := by
  unfold State.agreed
  repeat' first
    | with_reducible assumption
    | with_reducible apply Latched.ite
    | with_reducible apply State.readmAgree_latched
    | with_reducible apply State.updAgree_latched
    | split
    | dsimp only
    | assumption

theorem State.lockCom_latched {s0 : State} (s : State) (d : Die) (p : Pattern) (locks : List Nat) (h_s : Latched s0 s) : Latched s0 (State.lockCom s d p locks) := by
  unfold State.lockCom
  repeat' first
    | with_reducible assumption
    | intro _
    | with_reducible apply Latched.ite
    | with_reducible apply State.escalC2_latched
    | with_reducible apply State.setDie_latched
    | with_reducible apply State.zoneMove_latched
    | with_reducible apply Latched.foldl
    | fail_if_no_progress (with_reducible apply Latched.mk; (try dsimp only); with_reducible apply Latched.parts)
    | split
    | dsimp only
    | assumption

theorem State.resend_latched {s0 : State} (s : State) (d : Die) (p : Pattern) (h_s : Latched s0 s) : Latched s0 (State.resend s d p) := by
  unfold State.resend
  repeat' first
    | with_reducible assumption
    | intro _
    | with_reducible apply Latched.ite
    | with_reducible apply State.sendCmds_latched
    | with_reducible apply State.updDie_latched
    | with_reducible apply Latched.foldl
    | fail_if_no_progress (with_reducible apply Latched.mk; (try dsimp only); with_reducible apply Latched.parts)
    | split
    | dsimp only
    | assumption

theorem State.overrun_latched {s0 : State} (s : State) (d : Die) (p : Pattern) (due : List Nat) (h_s : Latched s0 s) : Latched s0 (State.overrun s d p due) := by
  unfold State.overrun
  repeat' first
    | with_reducible assumption
    | intro _
    | with_reducible apply Latched.ite
    | with_reducible apply State.bump_latched
    | with_reducible apply State.latch_latched
    | with_reducible apply State.latch3_latched
    | with_reducible apply State.lockCom_latched
    | with_reducible apply State.notAgreed_latched
    | with_reducible apply State.resend_latched
    | with_reducible apply State.setDie_latched
    | fail_if_no_progress (with_reducible apply Latched.mk; (try dsimp only); (try simp only [Faults.takeLocks_f1, Faults.takeLocks_f2, Faults.takeNow_f1, Faults.takeNow_f2, Faults.girthOff_f1, Faults.girthOff_f2, Faults.openShadow_f1, Faults.openShadow_f2, Faults.addC2_f1, Faults.addC2_f2, Faults.setRd_f1, Faults.setRd_f2, Faults.shadowDone_f1, Faults.shadowDone_f2]); with_reducible apply Latched.parts)
    | split
    | dsimp only
    | assumption

theorem State.replayFail_latched {s0 : State} (s : State) (d : Die) (h_s : Latched s0 s) : Latched s0 (State.replayFail s d) := by
  unfold State.replayFail
  repeat' first
    | with_reducible assumption
    | with_reducible apply State.latch_latched
    | with_reducible apply State.notAgreed_latched
    | dsimp only
    | assumption

theorem State.disagree_latched {s0 : State} (s : State) (d : Die) (p : Pattern) (due : List Nat) (h_s : Latched s0 s) : Latched s0 (State.disagree s d p due) := by
  unfold State.disagree
  repeat' first
    | with_reducible assumption
    | intro _
    | with_reducible apply Latched.ite
    | with_reducible apply State.addOnce_latched
    | with_reducible apply State.lockCom_latched
    | with_reducible apply State.replayFail_latched
    | with_reducible apply State.resend_latched
    | with_reducible apply State.updDie_latched
    | fail_if_no_progress (with_reducible apply Latched.mk; (try dsimp only); with_reducible apply Latched.parts)
    | split
    | dsimp only
    | assumption

theorem State.judge_latched {s0 : State} (s : State) (d : Die) (p : Pattern) (due : List Nat) (h_s : Latched s0 s) : Latched s0 (State.judge s d p due) := by
  unfold State.judge
  repeat' first
    | with_reducible assumption
    | intro _
    | with_reducible apply Latched.ite
    | with_reducible apply State.agreed_latched
    | with_reducible apply State.commitDie_latched
    | with_reducible apply State.disagree_latched
    | with_reducible apply State.lockCom_latched
    | with_reducible apply State.overrun_latched
    | with_reducible apply State.rejoinCommit_latched
    | with_reducible apply State.updDie_latched
    | fail_if_no_progress (with_reducible apply Latched.mk; (try dsimp only); with_reducible apply Latched.parts)
    | split
    | dsimp only
    | assumption

theorem State.idleCommit_latched {s0 : State} (s : State) (d : Die) (due : List Nat) (h_s : Latched s0 s) : Latched s0 (State.idleCommit s d due) := by
  unfold State.idleCommit
  repeat' first
    | with_reducible assumption
    | intro _
    | with_reducible apply Latched.ite
    | with_reducible apply State.lockCom_latched
    | with_reducible apply State.sendCmds_latched
    | fail_if_no_progress (with_reducible apply Latched.mk; (try dsimp only); with_reducible apply Latched.parts)
    | split
    | dsimp only
    | assumption

theorem doCommitPoint_latched {s0 : State} (d : Die) (s : State) (h_s : Latched s0 s) : Latched s0 (doCommitPoint d s) := by
  unfold doCommitPoint
  repeat' first
    | with_reducible assumption
    | intro _
    | with_reducible apply Latched.ite
    | with_reducible apply State.granStart_latched
    | with_reducible apply State.idleCommit_latched
    | with_reducible apply State.judge_latched
    | with_reducible apply State.updDie_latched
    | fail_if_no_progress (with_reducible apply Latched.mk; (try dsimp only); (try simp only [Faults.takeLocks_f1, Faults.takeLocks_f2, Faults.takeNow_f1, Faults.takeNow_f2, Faults.girthOff_f1, Faults.girthOff_f2, Faults.openShadow_f1, Faults.openShadow_f2, Faults.addC2_f1, Faults.addC2_f2, Faults.setRd_f1, Faults.setRd_f2, Faults.shadowDone_f1, Faults.shadowDone_f2]); with_reducible apply Latched.parts)
    | split
    | dsimp only
    | assumption

theorem State.lateCommit_latched {s0 : State} (s : State) (d : Die) (p : Pattern) (h_s : Latched s0 s) : Latched s0 (State.lateCommit s d p) := by
  unfold State.lateCommit
  repeat' first
    | with_reducible assumption
    | intro _
    | with_reducible apply Latched.ite
    | with_reducible apply State.addOnce_latched
    | with_reducible apply State.agreed_latched
    | with_reducible apply State.commitDie_latched
    | with_reducible apply State.event_latched
    | with_reducible apply State.sendReady_latched
    | with_reducible apply State.setReg_latched
    | with_reducible apply State.updDie_latched
    | fail_if_no_progress (with_reducible apply Latched.mk; (try dsimp only); with_reducible apply Latched.parts)
    | split
    | dsimp only
    | assumption

theorem State.settleReplay_latched {s0 : State} (s : State) (d : Die) (h_s : Latched s0 s) : Latched s0 (State.settleReplay s d) := by
  unfold State.settleReplay
  repeat' first
    | with_reducible assumption
    | intro _
    | with_reducible apply Latched.ite
    | with_reducible apply State.lateCommit_latched
    | with_reducible apply State.replayFail_latched
    | with_reducible apply State.updDie_latched
    | fail_if_no_progress (with_reducible apply Latched.mk; (try dsimp only); with_reducible apply Latched.parts)
    | split
    | dsimp only
    | assumption

end Sys2Proof.Machine
end

