-- ==== Sys2Proof/Laws/LatchedClockOps.lean ====
section
/-! SUPPORT. The operations of Machine/ClockOps.lean clear no latched fault bit and set no reserved one. -/

set_option linter.unusedTactic false
set_option linter.unreachableTactic false
set_option linter.unusedVariables false

namespace Sys2Proof.Machine

theorem State.regate_latched {s0 : State} (s : State) (h_s : Latched s0 s) : Latched s0 (State.regate s) := by
  unfold State.regate
  repeat' first
    | with_reducible assumption
    | with_reducible apply Latched.ite
    | fail_if_no_progress (with_reducible apply Latched.mk; (try dsimp only); with_reducible apply Latched.parts)
    | split
    | dsimp only
    | assumption

theorem doCrystalFirstValidCycle_latched {s0 : State} (d : Die) (us : Nat) (s : State) (h_s : Latched s0 s) : Latched s0 (doCrystalFirstValidCycle d us s) := by
  unfold doCrystalFirstValidCycle
  repeat' first
    | with_reducible assumption
    | with_reducible apply Latched.ite
    | with_reducible apply State.setReg_latched
    | fail_if_no_progress (with_reducible apply Latched.mk; (try dsimp only); with_reducible apply Latched.parts)
    | split
    | dsimp only
    | assumption

theorem doCrystalRelease_latched {s0 : State} (d : Die) (s : State) (h_s : Latched s0 s) : Latched s0 (doCrystalRelease d s) := by
  unfold doCrystalRelease
  repeat' first
    | with_reducible assumption
    | with_reducible apply Latched.ite
    | fail_if_no_progress (with_reducible apply Latched.mk; (try dsimp only); with_reducible apply Latched.parts)
    | split
    | dsimp only
    | assumption

theorem doPllLock_latched {s0 : State} (p : Pll) (s : State) (h_s : Latched s0 s) : Latched s0 (doPllLock p s) := by
  unfold doPllLock
  repeat' first
    | with_reducible assumption
    | intro _
    | with_reducible apply Latched.ite
    | fail_if_no_progress (with_reducible apply Latched.mk; (try dsimp only); with_reducible apply Latched.parts)
    | split
    | dsimp only
    | assumption

theorem State.resetMac_latched {s0 : State} (s : State) (d : Die) (h_s : Latched s0 s) : Latched s0 (State.resetMac s d) := by
  unfold State.resetMac
  repeat' first
    | with_reducible assumption
    | intro _
    | with_reducible apply State.resetBlock_latched
    | with_reducible apply State.updDie_latched
    | fail_if_no_progress (with_reducible apply Latched.mk; (try dsimp only); with_reducible apply Latched.parts)
    | dsimp only
    | assumption

theorem doStartRulePass_latched {s0 : State} (x : Src) (s : State) (h_s : Latched s0 s) : Latched s0 (doStartRulePass x s) := by
  unfold doStartRulePass
  repeat' first
    | with_reducible assumption
    | with_reducible apply Latched.ite
    | with_reducible apply State.causeOff_latched
    | with_reducible apply State.fenceDie_latched
    | with_reducible apply State.resetMac_latched
    | with_reducible apply State.updDie_latched
    | fail_if_no_progress (with_reducible apply Latched.mk; (try dsimp only); with_reducible apply Latched.parts)
    | split
    | dsimp only
    | assumption

theorem doStartAttemptFail_latched {s0 : State} (x : Src) (s : State) (h_s : Latched s0 s) : Latched s0 (doStartAttemptFail x s) := by
  unfold doStartAttemptFail
  repeat' first
    | with_reducible assumption
    | with_reducible apply Latched.ite
    | with_reducible apply State.latchStanding_latched
    | fail_if_no_progress (with_reducible apply Latched.mk; (try dsimp only); with_reducible apply Latched.parts)
    | split
    | dsimp only
    | assumption

theorem doOscRestart_latched {s0 : State} (x : Src) (s : State) (h_s : Latched s0 s) : Latched s0 (doOscRestart x s) := by
  unfold doOscRestart
  repeat' first
    | with_reducible assumption
    | with_reducible apply Latched.ite
    | with_reducible apply State.bump_latched
    | fail_if_no_progress (with_reducible apply Latched.mk; (try dsimp only); with_reducible apply Latched.parts)
    | split
    | dsimp only
    | assumption

theorem State.stitchReset_latched {s0 : State} (s : State) (h_s : Latched s0 s) : Latched s0 (State.stitchReset s) := by
  unfold State.stitchReset
  repeat' first
    | with_reducible assumption
    | intro _
    | with_reducible apply Latched.ite
    | with_reducible apply State.updDie_latched
    | fail_if_no_progress (with_reducible apply Latched.mk; (try dsimp only); (try simp only [Faults.takeLocks_f1, Faults.takeLocks_f2, Faults.takeNow_f1, Faults.takeNow_f2, Faults.girthOff_f1, Faults.girthOff_f2, Faults.openShadow_f1, Faults.openShadow_f2, Faults.addC2_f1, Faults.addC2_f2, Faults.setRd_f1, Faults.setRd_f2, Faults.shadowDone_f1, Faults.shadowDone_f2]); with_reducible apply Latched.parts)
    | split
    | dsimp only
    | assumption

theorem State.clockDown_latched {s0 : State} (s : State) (n : Nat) (d : Die) (h_s : Latched s0 s) : Latched s0 (State.clockDown s n d) := by
  unfold State.clockDown
  repeat' first
    | with_reducible assumption
    | intro _
    | with_reducible apply Latched.ite
    | with_reducible apply State.fenceM_latched
    | with_reducible apply State.stitchReset_latched
    | fail_if_no_progress (with_reducible apply Latched.mk; (try dsimp only); with_reducible apply Latched.parts)
    | split
    | dsimp only
    | assumption

theorem State.clockFailed_latched {s0 : State} (s : State) (n : Nat) (d : Die) (h_s : Latched s0 s) : Latched s0 (State.clockFailed s n d) := by
  unfold State.clockFailed
  repeat' first
    | with_reducible assumption
    | with_reducible apply Latched.ite
    | with_reducible apply State.causeOn_latched
    | with_reducible apply State.clockDown_latched
    | with_reducible apply State.latch_latched
    | with_reducible apply State.tripNow_latched
    | with_reducible apply State.updDie_latched
    | fail_if_no_progress (with_reducible apply Latched.mk; (try dsimp only); with_reducible apply Latched.parts)
    | split
    | dsimp only
    | assumption

theorem doClockFail_latched {s0 : State} (dom : Fin 18) (d : Die) (s : State) (h_s : Latched s0 s) : Latched s0 (doClockFail dom d s) := by
  unfold doClockFail
  repeat' first
    | with_reducible assumption
    | with_reducible apply Latched.ite
    | with_reducible apply State.clockFailed_latched
    | split
    | dsimp only
    | assumption

theorem doClockSwitchComplete_latched {s0 : State} (x : ClkSw) (forced : Bool) (s : State) (h_s : Latched s0 s) : Latched s0 (doClockSwitchComplete x forced s) := by
  unfold doClockSwitchComplete
  repeat' first
    | with_reducible assumption
    | with_reducible apply Latched.ite
    | fail_if_no_progress (with_reducible apply Latched.mk; (try dsimp only); with_reducible apply Latched.parts)
    | split
    | dsimp only
    | assumption

theorem doPllUnlock_latched {s0 : State} (p : Pll) (s : State) (h_s : Latched s0 s) : Latched s0 (doPllUnlock p s) := by
  unfold doPllUnlock
  repeat' first
    | with_reducible assumption
    | intro _
    | with_reducible apply Latched.ite
    | with_reducible apply State.clockFailed_latched
    | with_reducible apply State.jrnStop_latched
    | fail_if_no_progress (with_reducible apply Latched.mk; (try dsimp only); with_reducible apply Latched.parts)
    | split
    | dsimp only
    | assumption

end Sys2Proof.Machine
end

