-- ==== Sys2Proof/Laws/LatchedAccess.lean ====
section
/-! SUPPORT. The operations of Machine/Access.lean clear no latched fault bit and set no reserved one. -/

set_option linter.unusedTactic false
set_option linter.unreachableTactic false
set_option linter.unusedVariables false

namespace Sys2Proof.Machine

theorem State.ans_latched {s0 : State} (s : State) (c : Status) (h_s : Latched s0 s) : Latched s0 (State.ans s c) := by
  unfold State.ans
  repeat' first
    | with_reducible assumption
    | fail_if_no_progress (with_reducible apply Latched.mk; (try dsimp only); with_reducible apply Latched.parts)
    | dsimp only
    | assumption

theorem State.reply_latched {s0 : State} (s : State) (bs : List Byte) (h_s : Latched s0 s) : Latched s0 (State.reply s bs) := by
  unfold State.reply
  repeat' first
    | with_reducible assumption
    | fail_if_no_progress (with_reducible apply Latched.mk; (try dsimp only); with_reducible apply Latched.parts)
    | dsimp only
    | assumption

theorem State.ansBusy_latched {s0 : State} (s : State) (n : Nat) (h_s : Latched s0 s) : Latched s0 (State.ansBusy s n) := by
  unfold State.ansBusy
  repeat' first
    | with_reducible assumption
    | fail_if_no_progress (with_reducible apply Latched.mk; (try dsimp only); with_reducible apply Latched.parts)
    | dsimp only
    | assumption

theorem State.write_latched {s0 : State} (s : State) (busy rights mode range : Bool) (f : State → State) (h_s : Latched s0 s) (k_f : ∀ t, Latched s0 t → Latched s0 (f t)) : Latched s0 (State.write s busy rights mode range f) := by
  unfold State.write
  repeat' first
    | with_reducible assumption
    | intro _
    | with_reducible apply Latched.ite
    | with_reducible apply State.ans_latched
    | with_reducible apply k_f
    | split
    | dsimp only
    | assumption

theorem State.otpNext_latched {s0 : State} (s : State) (h_s : Latched s0 s) : Latched s0 (State.otpNext s) := by
  unfold State.otpNext
  repeat' first
    | with_reducible assumption
    | with_reducible apply Latched.ite
    | with_reducible apply State.leaseAsk_latched
    | fail_if_no_progress (with_reducible apply Latched.mk; (try dsimp only); with_reducible apply Latched.parts)
    | split
    | dsimp only
    | assumption

theorem State.otpWant_latched {s0 : State} (s : State) (l : List (Nat × Nat)) (h_s : Latched s0 s) : Latched s0 (State.otpWant s l) := by
  unfold State.otpWant
  repeat' first
    | with_reducible assumption
    | intro _
    | with_reducible apply State.otpNext_latched
    | fail_if_no_progress (with_reducible apply Latched.mk; (try dsimp only); with_reducible apply Latched.parts)
    | dsimp only
    | assumption

theorem State.keyPend_latched {s0 : State} (s : State) (slot : Nat) (v : Bool) (h_s : Latched s0 s) : Latched s0 (State.keyPend s slot v) := by
  unfold State.keyPend
  repeat' first
    | with_reducible assumption
    | intro _
    | fail_if_no_progress (with_reducible apply Latched.mk; (try dsimp only); with_reducible apply Latched.parts)
    | dsimp only
    | assumption

theorem State.keyPut_latched {s0 : State} (s : State) (slot typ : Nat) (key : List Byte) (h_s : Latched s0 s) : Latched s0 (State.keyPut s slot typ key) := by
  unfold State.keyPut
  repeat' first
    | with_reducible assumption
    | intro _
    | with_reducible apply Latched.ite
    | with_reducible apply State.write_latched
    | fail_if_no_progress (with_reducible apply Latched.mk; (try dsimp only); with_reducible apply Latched.parts)
    | split
    | dsimp only
    | assumption

theorem State.keyClear_latched {s0 : State} (s : State) (slot : Nat) (h_s : Latched s0 s) : Latched s0 (State.keyClear s slot) := by
  unfold State.keyClear
  repeat' first
    | with_reducible assumption
    | intro _
    | with_reducible apply Latched.ite
    | with_reducible apply State.write_latched
    | fail_if_no_progress (with_reducible apply Latched.mk; (try dsimp only); with_reducible apply Latched.parts)
    | split
    | dsimp only
    | assumption

theorem State.keyEraseCommit_latched {s0 : State} (s : State) (slot : Nat) (h_s : Latched s0 s) : Latched s0 (State.keyEraseCommit s slot) := by
  unfold State.keyEraseCommit
  repeat' first
    | with_reducible assumption
    | intro _
    | with_reducible apply Latched.ite
    | with_reducible apply State.keyClear_latched
    | with_reducible apply State.keyPend_latched
    | with_reducible apply State.updDie_latched
    | with_reducible apply Latched.foldl
    | fail_if_no_progress (with_reducible apply Latched.mk; (try dsimp only); with_reducible apply Latched.parts)
    | split
    | dsimp only
    | assumption

theorem State.lcAct_latched {s0 : State} (s : State) (target : Nat) (h_s : Latched s0 s) : Latched s0 (State.lcAct s target) := by
  unfold State.lcAct
  repeat' first
    | with_reducible assumption
    | intro _
    | with_reducible apply Latched.ite
    | with_reducible apply State.keyEraseCommit_latched
    | with_reducible apply Latched.foldl
    | split
    | dsimp only
    | assumption

theorem State.lcLoad_latched {s0 : State} (s : State) (h_s : Latched s0 s) : Latched s0 (State.lcLoad s) := by
  unfold State.lcLoad
  repeat' first
    | with_reducible assumption
    | intro _
    | with_reducible apply Latched.ite
    | fail_if_no_progress (with_reducible apply Latched.mk; (try dsimp only); with_reducible apply Latched.parts)
    | split
    | dsimp only
    | assumption

end Sys2Proof.Machine
end

