-- ==== Sys2Proof/Laws/LatchedCrcOps.lean ====
section
/-! SUPPORT. The operations of Machine/CrcOps.lean clear no latched fault bit and set no reserved one. -/

set_option linter.unusedTactic false
set_option linter.unreachableTactic false
set_option linter.unusedVariables false

namespace Sys2Proof.Machine

theorem State.crcLease_latched {s0 : State} (s : State) (k : Nat) (h_s : Latched s0 s) : Latched s0 (State.crcLease s k).1 := by
  unfold State.crcLease
  repeat' first
    | with_reducible assumption
    | with_reducible apply Latched.ite
    | with_reducible apply State.leaseAsk_latched
    | split
    | dsimp only
    | assumption

theorem State.crcNext_latched {s0 : State} (s : State) (k : Nat) (h_s : Latched s0 s) : Latched s0 (State.crcNext s k) := by
  unfold State.crcNext
  repeat' first
    | with_reducible assumption
    | with_reducible apply Latched.ite
    | with_reducible apply State.crcHalt_latched
    | with_reducible apply State.crcLease_latched
    | fail_if_no_progress (with_reducible apply Latched.mk; (try dsimp only); with_reducible apply Latched.parts)
    | split
    | dsimp only
    | assumption

theorem State.leaseStart_latched {s0 : State} (s : State) (res : Nat) (h_s : Latched s0 s) : Latched s0 (State.leaseStart s res) := by
  unfold State.leaseStart
  repeat' first
    | with_reducible assumption
    | with_reducible apply Latched.ite
    | with_reducible apply State.crcNext_latched
    | fail_if_no_progress (with_reducible apply Latched.mk; (try dsimp only); with_reducible apply Latched.parts)
    | split
    | dsimp only
    | assumption

theorem State.crcRest_latched {s0 : State} (s : State) (k : Nat) (h_s : Latched s0 s) : Latched s0 (State.crcRest s k) := by
  unfold State.crcRest
  repeat' first
    | with_reducible assumption
    | with_reducible apply Latched.ite
    | with_reducible apply State.leaseEnd_latched
    | with_reducible apply State.leaseStart_latched
    | split
    | dsimp only
    | assumption

theorem State.crcKick_latched {s0 : State} (s : State) (n : Nat) (h_s : Latched s0 s) : Latched s0 (State.crcKick s n) := by
  unfold State.crcKick
  repeat' first
    | with_reducible assumption
    | intro _
    | with_reducible apply Latched.ite
    | with_reducible apply State.crcNext_latched
    | with_reducible apply Latched.foldl
    | split
    | dsimp only
    | assumption

theorem State.crcFeedDesc_latched {s0 : State} (s : State) (k : Nat) (b : List Byte) (h_s : Latched s0 s) : Latched s0 (State.crcFeedDesc s k b) := by
  unfold State.crcFeedDesc
  repeat' first
    | with_reducible assumption
    | with_reducible apply Latched.ite
    | with_reducible apply State.free_latched
    | with_reducible apply State.setReg_latched
    | fail_if_no_progress (with_reducible apply Latched.mk; (try dsimp only); with_reducible apply Latched.parts)
    | split
    | dsimp only
    | assumption

end Sys2Proof.Machine
end

