-- ==== Sys2Proof/Laws/LatchedModes.lean ====
section
/-! SUPPORT. The operations of Machine/Modes.lean clear no latched fault bit and set no reserved one. -/

set_option linter.unusedTactic false
set_option linter.unreachableTactic false
set_option linter.unusedVariables false

namespace Sys2Proof.Machine

theorem State.openConf_latched {s0 : State} (s : State) (on : Bool) (h_s : Latched s0 s) : Latched s0 (State.openConf s on) := by
  unfold State.openConf
  repeat' first
    | with_reducible assumption
    | intro _
    | with_reducible apply Latched.foldl
    | fail_if_no_progress (with_reducible apply Latched.mk; (try dsimp only); with_reducible apply Latched.parts)
    | dsimp only
    | assumption

theorem State.pwrDomains_latched {s0 : State} (s : State) (h_s : Latched s0 s) : Latched s0 (State.pwrDomains s) := by
  unfold State.pwrDomains
  repeat' first
    | with_reducible assumption
    | with_reducible apply Latched.ite
    | fail_if_no_progress (with_reducible apply Latched.mk; (try dsimp only); with_reducible apply Latched.parts)
    | split
    | dsimp only
    | assumption

theorem State.toMode_latched {s0 : State} (s : State) (m : Mode) (h_s : Latched s0 s) : Latched s0 (State.toMode s m) := by
  unfold State.toMode
  repeat' first
    | with_reducible assumption
    | with_reducible apply Latched.ite
    | with_reducible apply State.event2_latched
    | with_reducible apply State.openConf_latched
    | with_reducible apply State.pwrDomains_latched
    | with_reducible apply State.regate_latched
    | with_reducible apply State.setReg_latched
    | fail_if_no_progress (with_reducible apply Latched.mk; (try dsimp only); with_reducible apply Latched.parts)
    | split
    | dsimp only
    | assumption

theorem State.startDie_latched {s0 : State} (s : State) (p : Pattern) (locked : Nat → Bool) (d : Die) (h_s : Latched s0 s) : Latched s0 (State.startDie s p locked d) := by
  unfold State.startDie
  repeat' first
    | with_reducible assumption
    | intro _
    | with_reducible apply Latched.ite
    | with_reducible apply State.setDie_latched
    | with_reducible apply Latched.foldl
    | with_reducible apply Latched.foldlSnd
    | fail_if_no_progress (with_reducible apply Latched.mk; (try dsimp only); with_reducible apply Latched.parts)
    | split
    | dsimp only
    | assumption

theorem State.startBoth_latched {s0 : State} (s : State) (p : Pattern) (locked : Nat → Bool) (h_s : Latched s0 s) : Latched s0 (State.startBoth s p locked) := by
  unfold State.startBoth
  repeat' first
    | with_reducible assumption
    | intro _
    | with_reducible apply Latched.ite
    | with_reducible apply State.ringsFor_latched
    | with_reducible apply State.startDie_latched
    | fail_if_no_progress (with_reducible apply Latched.mk; (try dsimp only); with_reducible apply Latched.parts)
    | split
    | dsimp only
    | assumption

theorem State.lockoutAll_latched {s0 : State} (s : State) (h_s : Latched s0 s) : Latched s0 (State.lockoutAll s) := by
  unfold State.lockoutAll
  repeat' first
    | with_reducible assumption
    | intro _
    | with_reducible apply Latched.foldl
    | fail_if_no_progress (with_reducible apply Latched.mk; (try dsimp only); with_reducible apply Latched.parts)
    | dsimp only
    | assumption

theorem State.lockBoth_latched {s0 : State} (s : State) (h_s : Latched s0 s) : Latched s0 (State.lockBoth s) := by
  unfold State.lockBoth
  repeat' first
    | with_reducible assumption
    | with_reducible apply State.lockCom_latched
    | fail_if_no_progress (with_reducible apply Latched.mk; (try dsimp only); with_reducible apply Latched.parts)
    | split
    | dsimp only
    | assumption

theorem State.enterSafe_latched {s0 : State} (s : State) (h_s : Latched s0 s) : Latched s0 (State.enterSafe s) := by
  unfold State.enterSafe
  repeat' first
    | with_reducible assumption
    | intro _
    | with_reducible apply Latched.ite
    | with_reducible apply State.lockBoth_latched
    | with_reducible apply State.lockoutAll_latched
    | with_reducible apply State.startBoth_latched
    | with_reducible apply State.toMode_latched
    | fail_if_no_progress (with_reducible apply Latched.mk; (try dsimp only); with_reducible apply Latched.parts)
    | split
    | dsimp only
    | assumption

theorem State.writeMode_latched {s0 : State} (d : Die) (n mode : Nat) (s : State) (h_s : Latched s0 s) : Latched s0 (State.writeMode d n mode s) := by
  unfold State.writeMode
  repeat' first
    | with_reducible assumption
    | intro _
    | with_reducible apply Latched.ite
    | with_reducible apply State.setReg_latched
    | with_reducible apply State.updF_latched
    | fail_if_no_progress (with_reducible apply Latched.mk; (try dsimp only); with_reducible apply Latched.parts)
    | split
    | dsimp only
    | assumption

theorem State.fCause_latched {s0 : State} (s : State) (f i : Nat) (on : Bool) (h_s : Latched s0 s) : Latched s0 (State.fCause s f i on) := by
  unfold State.fCause
  repeat' first
    | with_reducible assumption
    | intro _
    | with_reducible apply Latched.ite
    | with_reducible apply State.causeOff_latched
    | with_reducible apply State.latchStanding_latched
    | with_reducible apply State.updF_latched
    | fail_if_no_progress (with_reducible apply Latched.mk; (try dsimp only); with_reducible apply Latched.parts)
    | split
    | dsimp only
    | assumption

theorem State.modesWritten_latched {s0 : State} (s : State) (f : Nat) (h_s : Latched s0 s) : Latched s0 (State.modesWritten s f) := by
  unfold State.modesWritten
  repeat' first
    | with_reducible assumption
    | with_reducible apply Latched.ite
    | with_reducible apply State.fCause_latched
    | split
    | dsimp only
    | assumption

theorem State.writeModes_latched {s0 : State} (s : State) (p : Pattern) (h_s : Latched s0 s) : Latched s0 (State.writeModes s p) := by
  unfold State.writeModes
  repeat' first
    | with_reducible assumption
    | intro _
    | with_reducible apply Latched.ite
    | with_reducible apply State.modesWritten_latched
    | with_reducible apply State.writeMode_latched
    | with_reducible apply Latched.foldl
    | split
    | dsimp only
    | assumption

theorem Pattern.noModes_latched {s0 : State} (p : Option Pattern) (s : State) (h_s : Latched s0 s) : Latched s0 (Pattern.noModes p s) := by
  unfold Pattern.noModes
  repeat' first
    | with_reducible assumption
    | with_reducible apply State.writeModes_latched
    | fail_if_no_progress (with_reducible apply Latched.mk; (try dsimp only); with_reducible apply Latched.parts)
    | split
    | dsimp only
    | assumption

theorem State.rewrite_latched {s0 : State} (s : State) (code : Nat) (h_s : Latched s0 s) : Latched s0 (State.rewrite s code) := by
  unfold State.rewrite
  repeat' first
    | with_reducible assumption
    | with_reducible apply Latched.ite
    | with_reducible apply Pattern.noModes_latched
    | split
    | dsimp only
    | assumption

theorem State.modeReq_latched {s0 : State} (s : State) (seat code : Nat) (h_s : Latched s0 s) : Latched s0 (State.modeReq s seat code) := by
  unfold State.modeReq
  repeat' first
    | with_reducible assumption
    | intro _
    | with_reducible apply State.write_latched
    | fail_if_no_progress (with_reducible apply Latched.mk; (try dsimp only); with_reducible apply Latched.parts)
    | dsimp only
    | assumption

theorem doModeReqConfigure_latched {s0 : State} (seat : Fin 8) (s : State) (h_s : Latched s0 s) : Latched s0 (doModeReqConfigure seat s) := by
  unfold doModeReqConfigure
  repeat' first
    | with_reducible assumption
    | with_reducible apply State.modeReq_latched
    | dsimp only
    | assumption

theorem doModeReqRun_latched {s0 : State} (seat : Fin 8) (s : State) (h_s : Latched s0 s) : Latched s0 (doModeReqRun seat s) := by
  unfold doModeReqRun
  repeat' first
    | with_reducible assumption
    | with_reducible apply State.modeReq_latched
    | dsimp only
    | assumption

theorem doModeReqSafe_latched {s0 : State} (seat : Fin 8) (s : State) (h_s : Latched s0 s) : Latched s0 (doModeReqSafe seat s) := by
  unfold doModeReqSafe
  repeat' first
    | with_reducible assumption
    | with_reducible apply State.modeReq_latched
    | dsimp only
    | assumption

theorem doModeReqService_latched {s0 : State} (seat : Fin 8) (s : State) (h_s : Latched s0 s) : Latched s0 (doModeReqService seat s) := by
  unfold doModeReqService
  repeat' first
    | with_reducible assumption
    | with_reducible apply State.modeReq_latched
    | dsimp only
    | assumption

theorem State.reqFail_latched {s0 : State} (s : State) (why : Nat) (h_s : Latched s0 s) : Latched s0 (State.reqFail s why) := by
  unfold State.reqFail
  repeat' first
    | with_reducible assumption
    | with_reducible apply State.setReg_latched
    | fail_if_no_progress (with_reducible apply Latched.mk; (try dsimp only); with_reducible apply Latched.parts)
    | dsimp only
    | assumption

theorem State.regrid_latched {s0 : State} (s : State) (d : Die) (same : Bool) (h_s : Latched s0 s) : Latched s0 (State.regrid s d same) := by
  unfold State.regrid
  repeat' first
    | with_reducible assumption
    | intro _
    | with_reducible apply Latched.ite
    | with_reducible apply State.updDie_latched
    | fail_if_no_progress (with_reducible apply Latched.mk; (try dsimp only); with_reducible apply Latched.parts)
    | split
    | dsimp only
    | assumption

theorem State.takeRun_latched {s0 : State} (s : State) (service : Bool) (h_s : Latched s0 s) : Latched s0 (State.takeRun s service) := by
  unfold State.takeRun
  repeat' first
    | with_reducible assumption
    | with_reducible apply State.regrid_latched
    | with_reducible apply State.setReg_latched
    | fail_if_no_progress (with_reducible apply Latched.mk; (try dsimp only); with_reducible apply Latched.parts)
    | dsimp only
    | assumption

theorem doModeRequestTake_latched {s0 : State} (s : State) (h_s : Latched s0 s) : Latched s0 (doModeRequestTake s) := by
  unfold doModeRequestTake
  repeat' first
    | with_reducible assumption
    | with_reducible apply Latched.ite
    | with_reducible apply State.enterSafe_latched
    | with_reducible apply State.reqFail_latched
    | with_reducible apply State.rewrite_latched
    | with_reducible apply State.setReg_latched
    | with_reducible apply State.takeRun_latched
    | with_reducible apply State.toMode_latched
    | fail_if_no_progress (with_reducible apply Latched.mk; (try dsimp only); with_reducible apply Latched.parts)
    | split
    | dsimp only
    | assumption

theorem State.activate_latched {s0 : State} (s : State) (h_s : Latched s0 s) : Latched s0 (State.activate s) := by
  unfold State.activate
  repeat' first
    | with_reducible assumption
    | with_reducible apply Latched.ite
    | fail_if_no_progress (with_reducible apply Latched.mk; (try dsimp only); with_reducible apply Latched.parts)
    | split
    | dsimp only
    | assumption

theorem State.firstRun_latched {s0 : State} (s : State) (h_s : Latched s0 s) : Latched s0 (State.firstRun s) := by
  unfold State.firstRun
  repeat' first
    | with_reducible assumption
    | intro _
    | with_reducible apply Latched.ite
    | with_reducible apply State.otpWant_latched
    | fail_if_no_progress (with_reducible apply Latched.mk; (try dsimp only); with_reducible apply Latched.parts)
    | split
    | dsimp only
    | assumption

theorem State.clearRun_latched {s0 : State} (s : State) (h_s : Latched s0 s) : Latched s0 (State.clearRun s) := by
  unfold State.clearRun
  repeat' first
    | with_reducible assumption
    | intro _
    | fail_if_no_progress (with_reducible apply Latched.mk; (try dsimp only); with_reducible apply Latched.parts)
    | dsimp only
    | assumption

theorem doRunEntry_latched {s0 : State} (s : State) (h_s : Latched s0 s) : Latched s0 (doRunEntry s) := by
  unfold doRunEntry
  repeat' first
    | with_reducible assumption
    | intro _
    | with_reducible apply Latched.ite
    | with_reducible apply State.activate_latched
    | with_reducible apply State.clearRun_latched
    | with_reducible apply State.firstRun_latched
    | with_reducible apply State.startBoth_latched
    | with_reducible apply State.toMode_latched
    | fail_if_no_progress (with_reducible apply Latched.mk; (try dsimp only); with_reducible apply Latched.parts)
    | split
    | dsimp only
    | assumption

theorem doRunRequestLapse_latched {s0 : State} (s : State) (h_s : Latched s0 s) : Latched s0 (doRunRequestLapse s) := by
  unfold doRunRequestLapse
  repeat' first
    | with_reducible assumption
    | with_reducible apply Latched.ite
    | with_reducible apply State.enterSafe_latched
    | with_reducible apply State.setReg_latched
    | fail_if_no_progress (with_reducible apply Latched.mk; (try dsimp only); with_reducible apply Latched.parts)
    | split
    | dsimp only
    | assumption

theorem doSafeEntryAfterStop_latched {s0 : State} (s : State) (h_s : Latched s0 s) : Latched s0 (doSafeEntryAfterStop s) := by
  unfold doSafeEntryAfterStop
  repeat' first
    | with_reducible assumption
    | with_reducible apply Latched.ite
    | with_reducible apply State.enterSafe_latched
    | fail_if_no_progress (with_reducible apply Latched.mk; (try dsimp only); with_reducible apply Latched.parts)
    | split
    | dsimp only
    | assumption

theorem doSafeEntry_latched {s0 : State} (s : State) (h_s : Latched s0 s) : Latched s0 (doSafeEntry s) := by
  unfold doSafeEntry
  repeat' first
    | with_reducible assumption
    | with_reducible apply Latched.ite
    | with_reducible apply State.enterSafe_latched
    | fail_if_no_progress (with_reducible apply Latched.mk; (try dsimp only); with_reducible apply Latched.parts)
    | split
    | dsimp only
    | assumption

theorem State.pwrReq_latched {s0 : State} (s : State) (seat : Nat) (x : Pwr) (h_s : Latched s0 s) : Latched s0 (State.pwrReq s seat x) := by
  unfold State.pwrReq
  repeat' first
    | with_reducible assumption
    | intro _
    | with_reducible apply State.write_latched
    | fail_if_no_progress (with_reducible apply Latched.mk; (try dsimp only); with_reducible apply Latched.parts)
    | dsimp only
    | assumption

theorem doPwrReqActive_latched {s0 : State} (seat : Fin 8) (s : State) (h_s : Latched s0 s) : Latched s0 (doPwrReqActive seat s) := by
  unfold doPwrReqActive
  repeat' first
    | with_reducible assumption
    | with_reducible apply State.pwrReq_latched
    | dsimp only
    | assumption

theorem doPwrReqSleep_latched {s0 : State} (seat : Fin 8) (s : State) (h_s : Latched s0 s) : Latched s0 (doPwrReqSleep seat s) := by
  unfold doPwrReqSleep
  repeat' first
    | with_reducible assumption
    | with_reducible apply State.pwrReq_latched
    | dsimp only
    | assumption

theorem doPwrReqDeepSleep_latched {s0 : State} (seat : Fin 8) (s : State) (h_s : Latched s0 s) : Latched s0 (doPwrReqDeepSleep seat s) := by
  unfold doPwrReqDeepSleep
  repeat' first
    | with_reducible assumption
    | with_reducible apply State.pwrReq_latched
    | dsimp only
    | assumption

theorem doPowerStateChange_latched {s0 : State} (s : State) (h_s : Latched s0 s) : Latched s0 (doPowerStateChange s) := by
  unfold doPowerStateChange
  repeat' first
    | with_reducible assumption
    | with_reducible apply Latched.ite
    | with_reducible apply State.jrnStop_latched
    | with_reducible apply State.pwrDomains_latched
    | with_reducible apply State.pwrReq_latched
    | with_reducible apply State.regate_latched
    | fail_if_no_progress (with_reducible apply Latched.mk; (try dsimp only); with_reducible apply Latched.parts)
    | split
    | dsimp only
    | assumption

end Sys2Proof.Machine
end

