-- ==== Sys2Proof/Laws/LatchedPower.lean ====
section
/-! SUPPORT. The operations of Machine/Power.lean clear no latched fault bit and set no reserved one. -/

set_option linter.unusedTactic false
set_option linter.unreachableTactic false
set_option linter.unusedVariables false

namespace Sys2Proof.Machine

theorem State.railCause_latched {s0 : State} (s : State) (h_s : Latched s0 s) : Latched s0 (State.railCause s) := by
  unfold State.railCause
  repeat' first
    | with_reducible assumption
    | with_reducible apply Latched.ite
    | with_reducible apply State.causeOff_latched
    | with_reducible apply State.causeOn_latched
    | split
    | dsimp only
    | assumption

theorem State.beginStep_latched {s0 : State} (s : State) (k : Nat) (h_s : Latched s0 s) : Latched s0 (State.beginStep s k) := by
  unfold State.beginStep
  repeat' first
    | with_reducible assumption
    | with_reducible apply Latched.ite
    | with_reducible apply State.bump_latched
    | with_reducible apply State.regate_latched
    | with_reducible apply State.updDie_latched
    | fail_if_no_progress (with_reducible apply Latched.mk; (try dsimp only); with_reducible apply Latched.parts)
    | split
    | dsimp only
    | assumption

theorem State.startBoot_latched {s0 : State} (s : State) (strapMv : Nat) (h_s : Latched s0 s) : Latched s0 (State.startBoot s strapMv) := by
  unfold State.startBoot
  repeat' first
    | with_reducible assumption
    | with_reducible apply State.beginStep_latched
    | with_reducible apply State.regate_latched
    | with_reducible apply State.setReg_latched
    | fail_if_no_progress (with_reducible apply Latched.mk; (try dsimp only); with_reducible apply Latched.parts)
    | dsimp only
    | assumption

theorem doVinRise_latched {s0 : State} (mv strapMv : Nat) (s : State) (h_s : Latched s0 s) : Latched s0 (doVinRise mv strapMv s) := by
  unfold doVinRise
  repeat' first
    | with_reducible assumption
    | with_reducible apply Latched.ite
    | with_reducible apply State.setReg_latched
    | with_reducible apply State.startBoot_latched
    | fail_if_no_progress (with_reducible apply Latched.mk; (try dsimp only); with_reducible apply Latched.parts)
    | split
    | dsimp only
    | assumption

theorem State.bootCount_latched {s0 : State} (s : State) (h_s : Latched s0 s) : Latched s0 (State.bootCount s) := by
  unfold State.bootCount
  repeat' first
    | with_reducible assumption
    | with_reducible apply Latched.ite
    | with_reducible apply State.latch_latched
    | with_reducible apply State.setReg_latched
    | fail_if_no_progress (with_reducible apply Latched.mk; (try dsimp only); with_reducible apply Latched.parts)
    | split
    | dsimp only
    | assumption

theorem State.lcResume_latched {s0 : State} (s : State) (h_s : Latched s0 s) : Latched s0 (State.lcResume s) := by
  unfold State.lcResume
  repeat' first
    | with_reducible assumption
    | with_reducible apply State.lcAct_latched
    | with_reducible apply State.otpWant_latched
    | fail_if_no_progress (with_reducible apply Latched.mk; (try dsimp only); with_reducible apply Latched.parts)
    | split
    | dsimp only
    | assumption

theorem State.loadRepairs_latched {s0 : State} (s : State) (h_s : Latched s0 s) : Latched s0 (State.loadRepairs s) := by
  unfold State.loadRepairs
  repeat' first
    | with_reducible assumption
    | intro _
    | with_reducible apply Latched.ite
    | with_reducible apply State.updDie_latched
    | with_reducible apply Latched.foldl
    | fail_if_no_progress (with_reducible apply Latched.mk; (try dsimp only); with_reducible apply Latched.parts)
    | split
    | dsimp only
    | assumption

theorem State.authClose_latched {s0 : State} (s : State) (v : Nat) (h_s : Latched s0 s) : Latched s0 (State.authClose s v) := by
  unfold State.authClose
  repeat' first
    | with_reducible assumption
    | fail_if_no_progress (with_reducible apply Latched.mk; (try dsimp only); with_reducible apply Latched.parts)
    | dsimp only
    | assumption

theorem State.newEra_latched {s0 : State} (s : State) (era keyset : Nat) (install : Bool) (h_s : Latched s0 s) : Latched s0 (State.newEra s era keyset install) := by
  unfold State.newEra
  repeat' first
    | with_reducible assumption
    | with_reducible apply Latched.ite
    | with_reducible apply State.authClose_latched
    | fail_if_no_progress (with_reducible apply Latched.mk; (try dsimp only); with_reducible apply Latched.parts)
    | split
    | dsimp only
    | assumption

theorem State.bootEra_latched {s0 : State} (s : State) (h_s : Latched s0 s) : Latched s0 (State.bootEra s) := by
  unfold State.bootEra
  repeat' first
    | with_reducible assumption
    | with_reducible apply Latched.ite
    | with_reducible apply State.authClose_latched
    | with_reducible apply State.newEra_latched
    | fail_if_no_progress (with_reducible apply Latched.mk; (try dsimp only); with_reducible apply Latched.parts)
    | split
    | dsimp only
    | assumption

theorem State.bootJournal_latched {s0 : State} (s : State) (d : Die) (h_s : Latched s0 s) : Latched s0 (State.bootJournal s d) := by
  unfold State.bootJournal
  repeat' first
    | with_reducible assumption
    | with_reducible apply Latched.ite
    | with_reducible apply State.jrnRec_latched
    | fail_if_no_progress (with_reducible apply Latched.mk; (try dsimp only); with_reducible apply Latched.parts)
    | split
    | dsimp only
    | assumption

theorem State.bootPattern_latched {s0 : State} (s : State) (h_s : Latched s0 s) : Latched s0 (State.bootPattern s) := by
  unfold State.bootPattern
  repeat' first
    | with_reducible assumption
    | intro _
    | with_reducible apply Latched.ite
    | with_reducible apply State.lcLoad_latched
    | fail_if_no_progress (with_reducible apply Latched.mk; (try dsimp only); with_reducible apply Latched.parts)
    | split
    | dsimp only
    | assumption

theorem State.untrip_latched {s0 : State} (s : State) (h_s : Latched s0 s) : Latched s0 (State.untrip s) := by
  unfold State.untrip
  repeat' first
    | with_reducible assumption
    | with_reducible apply State.driveTrips_latched
    | fail_if_no_progress (with_reducible apply Latched.mk; (try dsimp only); with_reducible apply Latched.parts)
    | dsimp only
    | assumption

theorem State.bootEnd_latched {s0 : State} (s : State) (h_s : Latched s0 s) : Latched s0 (State.bootEnd s) := by
  unfold State.bootEnd
  repeat' first
    | with_reducible assumption
    | with_reducible apply Latched.ite
    | with_reducible apply State.enterSafe_latched
    | with_reducible apply State.setReg_latched
    | with_reducible apply State.takeRun_latched
    | with_reducible apply State.toMode_latched
    | with_reducible apply State.untrip_latched
    | fail_if_no_progress (with_reducible apply Latched.mk; (try dsimp only); with_reducible apply Latched.parts)
    | split
    | dsimp only
    | assumption

theorem State.fieldSupply_latched {s0 : State} (s : State) (f : Nat) (h_s : Latched s0 s) : Latched s0 (State.fieldSupply s f) := by
  unfold State.fieldSupply
  repeat' first
    | with_reducible assumption
    | with_reducible apply State.free_latched
    | with_reducible apply State.setReg_latched
    | dsimp only
    | assumption

theorem State.endStep_latched {s0 : State} (s : State) (k : Nat) (h_s : Latched s0 s) : Latched s0 (State.endStep s k) := by
  unfold State.endStep
  repeat' first
    | with_reducible assumption
    | intro _
    | with_reducible apply Latched.ite
    | with_reducible apply Pattern.noModes_latched
    | with_reducible apply State.bootCount_latched
    | with_reducible apply State.bootEnd_latched
    | with_reducible apply State.bootJournal_latched
    | with_reducible apply State.driveTrips_latched
    | with_reducible apply State.fieldSupply_latched
    | with_reducible apply State.loadRepairs_latched
    | with_reducible apply State.openConf_latched
    | with_reducible apply State.updDie_latched
    | with_reducible apply Latched.foldl
    | fail_if_no_progress (with_reducible apply Latched.mk; (try dsimp only); with_reducible apply Latched.parts)
    | split
    | dsimp only
    | assumption

theorem doBootStepComplete_latched {s0 : State} (s : State) (h_s : Latched s0 s) : Latched s0 (doBootStepComplete s) := by
  unfold doBootStepComplete
  repeat' first
    | with_reducible assumption
    | with_reducible apply Latched.ite
    | with_reducible apply State.beginStep_latched
    | with_reducible apply State.bootEra_latched
    | with_reducible apply State.bootPattern_latched
    | with_reducible apply State.endStep_latched
    | with_reducible apply State.lcResume_latched
    | fail_if_no_progress (with_reducible apply Latched.mk; (try dsimp only); with_reducible apply Latched.parts)
    | split
    | dsimp only
    | assumption

theorem State.unboot_latched {s0 : State} (s : State) (held : Bool) (h_s : Latched s0 s) : Latched s0 (State.unboot s held) := by
  unfold State.unboot
  repeat' first
    | with_reducible assumption
    | intro _
    | with_reducible apply Latched.ite
    | fail_if_no_progress (with_reducible apply Latched.mk; (try dsimp only); with_reducible apply Latched.parts)
    | split
    | dsimp only
    | assumption

theorem doBootStepTimeout_latched {s0 : State} (s : State) (h_s : Latched s0 s) : Latched s0 (doBootStepTimeout s) := by
  unfold doBootStepTimeout
  repeat' first
    | with_reducible assumption
    | with_reducible apply Latched.ite
    | with_reducible apply State.latch_latched
    | with_reducible apply State.railCause_latched
    | with_reducible apply State.setReg_latched
    | with_reducible apply State.unboot_latched
    | fail_if_no_progress (with_reducible apply Latched.mk; (try dsimp only); with_reducible apply Latched.parts)
    | split
    | dsimp only
    | assumption

theorem doBootRetry_latched {s0 : State} (s : State) (h_s : Latched s0 s) : Latched s0 (doBootRetry s) := by
  unfold doBootRetry
  repeat' first
    | with_reducible assumption
    | with_reducible apply Latched.ite
    | with_reducible apply State.beginStep_latched
    | fail_if_no_progress (with_reducible apply Latched.mk; (try dsimp only); with_reducible apply Latched.parts)
    | split
    | dsimp only
    | assumption

theorem State.vinOff_latched {s0 : State} (s : State) (h_s : Latched s0 s) : Latched s0 (State.vinOff s) := by
  unfold State.vinOff
  repeat' first
    | with_reducible assumption
    | with_reducible apply State.latchStanding_latched
    | with_reducible apply State.revert_latched
    | with_reducible apply State.tripNow_latched
    | fail_if_no_progress (with_reducible apply Latched.mk; (try dsimp only); with_reducible apply Latched.parts)
    | dsimp only
    | assumption

theorem doResetNLow_latched {s0 : State} (s : State) (h_s : Latched s0 s) : Latched s0 (doResetNLow s) := by
  unfold doResetNLow
  repeat' first
    | with_reducible assumption
    | with_reducible apply Latched.ite
    | with_reducible apply State.vinOff_latched
    | fail_if_no_progress (with_reducible apply Latched.mk; (try dsimp only); with_reducible apply Latched.parts)
    | split
    | dsimp only
    | assumption

theorem doResetNRelease_latched {s0 : State} (s : State) (h_s : Latched s0 s) : Latched s0 (doResetNRelease s) := by
  unfold doResetNRelease
  repeat' first
    | with_reducible assumption
    | with_reducible apply Latched.ite
    | with_reducible apply State.startBoot_latched
    | fail_if_no_progress (with_reducible apply Latched.mk; (try dsimp only); with_reducible apply Latched.parts)
    | split
    | dsimp only
    | assumption

theorem State.pfStart_latched {s0 : State} (s : State) (h_s : Latched s0 s) : Latched s0 (State.pfStart s) := by
  unfold State.pfStart
  repeat' first
    | with_reducible assumption
    | with_reducible apply Latched.ite
    | fail_if_no_progress (with_reducible apply Latched.mk; (try dsimp only); with_reducible apply Latched.parts)
    | split
    | dsimp only
    | assumption

theorem doPfwLatch_latched {s0 : State} (mv : Nat) (s : State) (h_s : Latched s0 s) : Latched s0 (doPfwLatch mv s) := by
  unfold doPfwLatch
  repeat' first
    | with_reducible assumption
    | with_reducible apply Latched.ite
    | with_reducible apply State.bump_latched
    | with_reducible apply State.latchStanding_latched
    | with_reducible apply State.pfStart_latched
    | with_reducible apply State.setReg_latched
    | fail_if_no_progress (with_reducible apply Latched.mk; (try dsimp only); with_reducible apply Latched.parts)
    | split
    | dsimp only
    | assumption

theorem doPowerFailRecordDone_latched {s0 : State} (d : Die) (s : State) (h_s : Latched s0 s) : Latched s0 (doPowerFailRecordDone d s) := by
  unfold doPowerFailRecordDone
  repeat' first
    | with_reducible assumption
    | fail_if_no_progress (with_reducible apply Latched.mk; (try dsimp only); with_reducible apply Latched.parts)
    | split
    | dsimp only
    | assumption

theorem doPfwClear_latched {s0 : State} (mv : Nat) (s : State) (h_s : Latched s0 s) : Latched s0 (doPfwClear mv s) := by
  unfold doPfwClear
  repeat' first
    | with_reducible assumption
    | with_reducible apply Latched.ite
    | with_reducible apply State.causeOff_latched
    | with_reducible apply State.otpNext_latched
    | with_reducible apply State.setReg_latched
    | fail_if_no_progress (with_reducible apply Latched.mk; (try dsimp only); with_reducible apply Latched.parts)
    | split
    | dsimp only
    | assumption

theorem doVinOff_latched {s0 : State} (mv : Nat) (s : State) (h_s : Latched s0 s) : Latched s0 (doVinOff mv s) := by
  unfold doVinOff
  repeat' first
    | with_reducible assumption
    | with_reducible apply Latched.ite
    | with_reducible apply State.setReg_latched
    | with_reducible apply State.vinOff_latched
    | fail_if_no_progress (with_reducible apply Latched.mk; (try dsimp only); with_reducible apply Latched.parts)
    | split
    | dsimp only
    | assumption

theorem doPowerDownStart_latched {s0 : State} (s : State) (h_s : Latched s0 s) : Latched s0 (doPowerDownStart s) := by
  unfold doPowerDownStart
  with_reducible apply Latched.ite
  · unfold State.downStep
    rw [if_pos rfl]
    exact h_s
  · exact h_s

theorem doRailExcursion_latched {s0 : State} (r : Rail) (mv : Nat) (s : State) (h_s : Latched s0 s) : Latched s0 (doRailExcursion r mv s) := by
  unfold doRailExcursion
  repeat' first
    | with_reducible assumption
    | with_reducible apply Latched.ite
    | with_reducible apply State.latch_latched
    | with_reducible apply State.latchStanding_latched
    | with_reducible apply State.railCause_latched
    | with_reducible apply State.setReg_latched
    | fail_if_no_progress (with_reducible apply Latched.mk; (try dsimp only); with_reducible apply Latched.parts)
    | split
    | dsimp only
    | assumption

theorem doRailReturn_latched {s0 : State} (r : Rail) (mv : Nat) (s : State) (h_s : Latched s0 s) : Latched s0 (doRailReturn r mv s) := by
  unfold doRailReturn
  repeat' first
    | with_reducible assumption
    | with_reducible apply Latched.ite
    | with_reducible apply State.causeOff_latched
    | with_reducible apply State.railCause_latched
    | with_reducible apply State.setReg_latched
    | fail_if_no_progress (with_reducible apply Latched.mk; (try dsimp only); with_reducible apply Latched.parts)
    | split
    | dsimp only
    | assumption

end Sys2Proof.Machine
end

