-- ==== Sys2Proof/Laws/LatchedStitch.lean ====
section
/-! SUPPORT. The operations of Machine/Stitch.lean clear no latched fault bit and set no reserved one. -/

set_option linter.unusedTactic false
set_option linter.unreachableTactic false
set_option linter.unusedVariables false

namespace Sys2Proof.Machine

theorem State.retrain_latched {s0 : State} (s : State) (h_s : Latched s0 s) : Latched s0 (State.retrain s) := by
  unfold State.retrain
  repeat' first
    | with_reducible assumption
    | with_reducible apply Latched.ite
    | with_reducible apply State.bump_latched
    | with_reducible apply State.latch_latched
    | with_reducible apply State.latch3_latched
    | with_reducible apply State.stitchReset_latched
    | split
    | dsimp only
    | assumption

theorem State.resendFrom_latched {s0 : State} (s : State) (d : Die) (h_s : Latched s0 s) : Latched s0 (State.resendFrom s d) := by
  unfold State.resendFrom
  repeat' first
    | with_reducible assumption
    | intro _
    | with_reducible apply Latched.ite
    | with_reducible apply State.retrain_latched
    | with_reducible apply State.updDie_latched
    | fail_if_no_progress (with_reducible apply Latched.mk; (try dsimp only); with_reducible apply Latched.parts)
    | split
    | dsimp only
    | assumption

theorem State.flitBad_latched {s0 : State} (s : State) (d : Die) (h_s : Latched s0 s) : Latched s0 (State.flitBad s d) := by
  unfold State.flitBad
  repeat' first
    | with_reducible assumption
    | intro _
    | with_reducible apply State.bump_latched
    | with_reducible apply State.resendFrom_latched
    | with_reducible apply State.updDie_latched
    | fail_if_no_progress (with_reducible apply Latched.mk; (try dsimp only); with_reducible apply Latched.parts)
    | dsimp only
    | assumption

theorem State.flit_latched {s0 : State} (s : State) (d : Die) (h : FlitHdr) (r : FlitRec) (f : State → State) (h_s : Latched s0 s) (k_f : ∀ t, Latched s0 t → Latched s0 (f t)) : Latched s0 (State.flit s d h r f) := by
  unfold State.flit
  repeat' first
    | with_reducible assumption
    | intro _
    | with_reducible apply Latched.ite
    | with_reducible apply State.flitBad_latched
    | with_reducible apply State.updDie_latched
    | with_reducible apply k_f
    | fail_if_no_progress (with_reducible apply Latched.mk; (try dsimp only); with_reducible apply Latched.parts)
    | split
    | dsimp only
    | assumption

theorem doStitchFlitCrcError_latched {s0 : State} (d : Die) (s : State) (h_s : Latched s0 s) : Latched s0 (doStitchFlitCrcError d s) := by
  unfold doStitchFlitCrcError
  repeat' first
    | with_reducible assumption
    | with_reducible apply Latched.ite
    | with_reducible apply State.flitBad_latched
    | split
    | dsimp only
    | assumption

theorem doStitchRetryTimeout_latched {s0 : State} (d : Die) (s : State) (h_s : Latched s0 s) : Latched s0 (doStitchRetryTimeout d s) := by
  unfold doStitchRetryTimeout
  repeat' first
    | with_reducible assumption
    | with_reducible apply Latched.ite
    | with_reducible apply State.resendFrom_latched
    | with_reducible apply State.retrain_latched
    | split
    | dsimp only
    | assumption

theorem doRetrainComplete_latched {s0 : State} (s : State) (h_s : Latched s0 s) : Latched s0 (doRetrainComplete s) := by
  unfold doRetrainComplete
  repeat' first
    | with_reducible assumption
    | with_reducible apply Latched.ite
    | with_reducible apply State.causeOff_latched
    | with_reducible apply State.retrain_latched
    | with_reducible apply State.updDie_latched
    | fail_if_no_progress (with_reducible apply Latched.mk; (try dsimp only); (try simp only [Faults.takeLocks_f1, Faults.takeLocks_f2, Faults.takeNow_f1, Faults.takeNow_f2, Faults.girthOff_f1, Faults.girthOff_f2, Faults.openShadow_f1, Faults.openShadow_f2, Faults.addC2_f1, Faults.addC2_f2, Faults.setRd_f1, Faults.setRd_f2, Faults.shadowDone_f1, Faults.shadowDone_f2]); with_reducible apply Latched.parts)
    | split
    | dsimp only
    | assumption

theorem doStitchLaneTrainFail_latched {s0 : State} (d : Die) (lane : Fin 4) (s : State) (h_s : Latched s0 s) : Latched s0 (doStitchLaneTrainFail d lane s) := by
  unfold doStitchLaneTrainFail
  repeat' first
    | with_reducible assumption
    | intro _
    | with_reducible apply State.latchStanding_latched
    | with_reducible apply State.updDie_latched
    | fail_if_no_progress (with_reducible apply Latched.mk; (try dsimp only); with_reducible apply Latched.parts)
    | dsimp only
    | assumption

theorem State.waitTick_latched {s0 : State} (s : State) (d : Die) (skew : Nat) (h_s : Latched s0 s) : Latched s0 (State.waitTick s d skew) := by
  unfold State.waitTick
  repeat' first
    | with_reducible assumption
    | with_reducible apply Latched.ite
    | fail_if_no_progress (with_reducible apply Latched.mk; (try dsimp only); with_reducible apply Latched.parts)
    | split
    | dsimp only
    | assumption

theorem State.readmTick_latched {s0 : State} (s : State) (d : Die) (skew : Nat) (h_s : Latched s0 s) : Latched s0 (State.readmTick s d skew) := by
  unfold State.readmTick
  repeat' first
    | with_reducible assumption
    | with_reducible apply Latched.ite
    | fail_if_no_progress (with_reducible apply Latched.mk; (try dsimp only); (try simp only [Faults.takeLocks_f1, Faults.takeLocks_f2, Faults.takeNow_f1, Faults.takeNow_f2, Faults.girthOff_f1, Faults.girthOff_f2, Faults.openShadow_f1, Faults.openShadow_f2, Faults.addC2_f1, Faults.addC2_f2, Faults.setRd_f1, Faults.setRd_f2, Faults.shadowDone_f1, Faults.shadowDone_f2]); with_reducible apply Latched.parts)
    | split
    | dsimp only
    | assumption

theorem doTickTimestampRx_latched {s0 : State} (d : Die) (h : FlitHdr) (ts lastCommit : Nat) (s : State) (h_s : Latched s0 s) : Latched s0 (doTickTimestampRx d h ts lastCommit s) := by
  unfold doTickTimestampRx
  repeat' first
    | with_reducible assumption
    | intro _
    | with_reducible apply Latched.ite
    | with_reducible apply State.flit_latched
    | with_reducible apply State.latch_latched
    | with_reducible apply State.readmTick_latched
    | with_reducible apply State.setReg_latched
    | with_reducible apply State.waitTick_latched
    | split
    | dsimp only
    | assumption

theorem doInputSupervisionFlitRx_latched {s0 : State} (d : Die) (h : FlitHdr) (tag states : Nat) (codes : List Nat) (s : State) (h_s : Latched s0 s) : Latched s0 (doInputSupervisionFlitRx d h tag states codes s) := by
  unfold doInputSupervisionFlitRx
  repeat' first
    | with_reducible assumption
    | intro _
    | with_reducible apply Latched.ite
    | with_reducible apply State.flit_latched
    | with_reducible apply State.setDie_latched
    | with_reducible apply Latched.foldl
    | fail_if_no_progress (with_reducible apply Latched.mk; (try dsimp only); with_reducible apply Latched.parts)
    | split
    | dsimp only
    | assumption

theorem doOutputSupervisionFlitRx_latched {s0 : State} (d : Die) (h : FlitHdr) (fd : Fin 4) (codes : List Nat) (s : State) (h_s : Latched s0 s) : Latched s0 (doOutputSupervisionFlitRx d h fd codes s) := by
  unfold doOutputSupervisionFlitRx
  repeat' first
    | with_reducible assumption
    | intro _
    | with_reducible apply Latched.ite
    | with_reducible apply State.flit_latched
    | with_reducible apply State.setDie_latched
    | with_reducible apply Latched.foldl
    | fail_if_no_progress (with_reducible apply Latched.mk; (try dsimp only); with_reducible apply Latched.parts)
    | split
    | dsimp only
    | assumption

theorem State.staleRec_latched {s0 : State} (s : State) (d : Die) (r : CmpFlit) (h_s : Latched s0 s) : Latched s0 (State.staleRec s d r) := by
  unfold State.staleRec
  repeat' first
    | with_reducible assumption
    | intro _
    | with_reducible apply Latched.ite
    | with_reducible apply State.bump_latched
    | with_reducible apply State.updDie_latched
    | fail_if_no_progress (with_reducible apply Latched.mk; (try dsimp only); with_reducible apply Latched.parts)
    | split
    | dsimp only
    | assumption

theorem doCompareRecordRx_latched {s0 : State} (d : Die) (h : FlitHdr) (r : CmpFlit) (s : State) (h_s : Latched s0 s) : Latched s0 (doCompareRecordRx d h r s) := by
  unfold doCompareRecordRx
  repeat' first
    | with_reducible assumption
    | intro _
    | with_reducible apply Latched.ite
    | with_reducible apply State.countCompares_latched
    | with_reducible apply State.flit_latched
    | with_reducible apply State.ready_latched
    | with_reducible apply State.setDie_latched
    | with_reducible apply State.setReg_latched
    | with_reducible apply State.staleRec_latched
    | fail_if_no_progress (with_reducible apply Latched.mk; (try dsimp only); with_reducible apply Latched.parts)
    | split
    | dsimp only
    | assumption

theorem doReadyRx_latched {s0 : State} (d : Die) (h : FlitHdr) (s : State) (h_s : Latched s0 s) : Latched s0 (doReadyRx d h s) := by
  unfold doReadyRx
  repeat' first
    | with_reducible assumption
    | intro _
    | with_reducible apply Latched.ite
    | with_reducible apply State.flit_latched
    | with_reducible apply State.lateCommit_latched
    | with_reducible apply State.updDie_latched
    | fail_if_no_progress (with_reducible apply Latched.mk; (try dsimp only); with_reducible apply Latched.parts)
    | split
    | dsimp only
    | assumption

theorem State.localise_latched {s0 : State} (s : State) (d : Die) (p : Pattern) (bytes : List Byte) (h_s : Latched s0 s) : Latched s0 (State.localise s d p bytes) := by
  unfold State.localise
  repeat' first
    | with_reducible assumption
    | intro _
    | with_reducible apply Latched.ite
    | with_reducible apply State.advance_latched
    | with_reducible apply State.free_latched
    | with_reducible apply State.setDie_latched
    | with_reducible apply State.setOnce_latched
    | with_reducible apply State.settleReplay_latched
    | fail_if_no_progress (with_reducible apply Latched.mk; (try dsimp only); with_reducible apply Latched.parts)
    | split
    | dsimp only
    | assumption

theorem doLocalisationRecordRx_latched {s0 : State} (d : Die) (h : FlitHdr) (index : Nat) (bytes : List Byte) (s : State) (h_s : Latched s0 s) : Latched s0 (doLocalisationRecordRx d h index bytes s) := by
  unfold doLocalisationRecordRx
  repeat' first
    | with_reducible assumption
    | intro _
    | with_reducible apply Latched.ite
    | with_reducible apply State.bump_latched
    | with_reducible apply State.flit_latched
    | with_reducible apply State.localise_latched
    | with_reducible apply State.setDie_latched
    | fail_if_no_progress (with_reducible apply Latched.mk; (try dsimp only); with_reducible apply Latched.parts)
    | split
    | dsimp only
    | assumption

theorem doReplayRecordRx_latched {s0 : State} (d : Die) (h : FlitHdr) (r : CmpFlit) (s : State) (h_s : Latched s0 s) : Latched s0 (doReplayRecordRx d h r s) := by
  unfold doReplayRecordRx
  repeat' first
    | with_reducible assumption
    | intro _
    | with_reducible apply Latched.ite
    | with_reducible apply State.countCompares_latched
    | with_reducible apply State.flit_latched
    | with_reducible apply State.setDie_latched
    | with_reducible apply State.settleReplay_latched
    | with_reducible apply State.staleRec_latched
    | fail_if_no_progress (with_reducible apply Latched.mk; (try dsimp only); with_reducible apply Latched.parts)
    | split
    | dsimp only
    | assumption

theorem doJobComplete_latched {s0 : State} (d : Die) (lane : Fin 17) (s : State) (h_s : Latched s0 s) : Latched s0 (doJobComplete d lane s) := by
  unfold doJobComplete
  repeat' first
    | with_reducible assumption
    | with_reducible apply Latched.ite
    | with_reducible apply State.advance_latched
    | with_reducible apply State.free_latched
    | with_reducible apply State.laneFail_latched
    | with_reducible apply State.setDie_latched
    | with_reducible apply State.settleReplay_latched
    | fail_if_no_progress (with_reducible apply Latched.mk; (try dsimp only); with_reducible apply Latched.parts)
    | split
    | dsimp only
    | assumption

theorem doLaneError_latched {s0 : State} (d : Die) (lane : Fin 17) (s : State) (h_s : Latched s0 s) : Latched s0 (doLaneError d lane s) := by
  unfold doLaneError
  repeat' first
    | with_reducible assumption
    | with_reducible apply Latched.ite
    | with_reducible apply State.laneFail_latched
    | fail_if_no_progress (with_reducible apply Latched.mk; (try dsimp only); with_reducible apply Latched.parts)
    | split
    | dsimp only
    | assumption

theorem doLateCommitLimit_latched {s0 : State} (d : Die) (s : State) (h_s : Latched s0 s) : Latched s0 (doLateCommitLimit d s) := by
  unfold doLateCommitLimit
  repeat' first
    | with_reducible assumption
    | intro _
    | with_reducible apply Latched.ite
    | with_reducible apply State.free_latched
    | with_reducible apply State.latch_latched
    | with_reducible apply State.notAgreed_latched
    | with_reducible apply State.setDie_latched
    | fail_if_no_progress (with_reducible apply Latched.mk; (try dsimp only); with_reducible apply Latched.parts)
    | split
    | dsimp only
    | assumption

theorem doPairingRecordRx_latched {s0 : State} (d : Die) (h : FlitHdr) (r : PairRec) (s : State) (h_s : Latched s0 s) : Latched s0 (doPairingRecordRx d h r s) := by
  unfold doPairingRecordRx
  repeat' first
    | with_reducible assumption
    | intro _
    | with_reducible apply Latched.ite
    | with_reducible apply State.flit_latched
    | with_reducible apply State.setDie_latched
    | fail_if_no_progress (with_reducible apply Latched.mk; (try dsimp only); with_reducible apply Latched.parts)
    | split
    | dsimp only
    | assumption

theorem doPositionRecordRx_latched {s0 : State} (d : Die) (h : FlitHdr) (first : Nat) (recs : List PosRec) (s : State) (h_s : Latched s0 s) : Latched s0 (doPositionRecordRx d h first recs s) := by
  unfold doPositionRecordRx
  repeat' first
    | with_reducible assumption
    | intro _
    | with_reducible apply Latched.ite
    | with_reducible apply State.flit_latched
    | with_reducible apply State.setDie_latched
    | with_reducible apply Latched.foldl
    | with_reducible apply Latched.foldlSnd
    | fail_if_no_progress (with_reducible apply Latched.mk; (try dsimp only); with_reducible apply Latched.parts)
    | split
    | dsimp only
    | assumption

end Sys2Proof.Machine
end

