-- ==== Sys2Proof/Laws/LatchedTiming.lean ====
section
/-! SUPPORT. The operations of Machine/Timing.lean clear no latched fault bit and set no reserved one. -/

set_option linter.unusedTactic false
set_option linter.unreachableTactic false
set_option linter.unusedVariables false

namespace Sys2Proof.Machine

theorem State.holdEnd_latched {s0 : State} (s : State) (h_s : Latched s0 s) : Latched s0 (State.holdEnd s) := by
  unfold State.holdEnd
  repeat' first
    | with_reducible assumption
    | with_reducible apply Latched.ite
    | with_reducible apply State.causeOff_latched
    | with_reducible apply State.updDie_latched
    | fail_if_no_progress (with_reducible apply Latched.mk; (try dsimp only); with_reducible apply Latched.parts)
    | split
    | dsimp only
    | assumption

theorem State.unlock_latched {s0 : State} (s : State) (d : Die) (h_s : Latched s0 s) : Latched s0 (State.unlock s d) := by
  unfold State.unlock
  repeat' first
    | with_reducible assumption
    | intro _
    | with_reducible apply State.holdEnd_latched
    | with_reducible apply State.updDie_latched
    | fail_if_no_progress (with_reducible apply Latched.mk; (try dsimp only); with_reducible apply Latched.parts)
    | dsimp only
    | assumption

theorem State.lockTo_latched {s0 : State} (s : State) (d : Die) (gm : Nat) (h_s : Latched s0 s) : Latched s0 (State.lockTo s d gm) := by
  unfold State.lockTo
  repeat' first
    | with_reducible assumption
    | intro _
    | with_reducible apply Latched.ite
    | with_reducible apply State.holdEnd_latched
    | with_reducible apply State.setDie_latched
    | with_reducible apply State.updDie_latched
    | fail_if_no_progress (with_reducible apply Latched.mk; (try dsimp only); with_reducible apply Latched.parts)
    | split
    | dsimp only
    | assumption

theorem doSyncRx_latched {s0 : State} (d : Die) (port : Fin 2) (gmNs : Nat) (offset step : Int) (s : State) (h_s : Latched s0 s) : Latched s0 (doSyncRx d port gmNs offset step s) := by
  unfold doSyncRx
  repeat' first
    | with_reducible assumption
    | intro _
    | with_reducible apply Latched.ite
    | with_reducible apply State.lockTo_latched
    | with_reducible apply State.setDie_latched
    | with_reducible apply State.unlock_latched
    | fail_if_no_progress (with_reducible apply Latched.mk; (try dsimp only); with_reducible apply Latched.parts)
    | split
    | dsimp only
    | assumption

theorem doSyncReceiptTimeout_latched {s0 : State} (d : Die) (s : State) (h_s : Latched s0 s) : Latched s0 (doSyncReceiptTimeout d s) := by
  unfold doSyncReceiptTimeout
  repeat' first
    | with_reducible assumption
    | with_reducible apply State.unlock_latched
    | dsimp only
    | assumption

theorem doHoldoverExpire_latched {s0 : State} (s : State) (h_s : Latched s0 s) : Latched s0 (doHoldoverExpire s) := by
  unfold doHoldoverExpire
  repeat' first
    | with_reducible assumption
    | with_reducible apply Latched.ite
    | with_reducible apply State.latchStanding_latched
    | with_reducible apply State.updDie_latched
    | fail_if_no_progress (with_reducible apply Latched.mk; (try dsimp only); with_reducible apply Latched.parts)
    | split
    | dsimp only
    | assumption

theorem doPdelayRx_latched {s0 : State} (d : Die) (port : Fin 2) (delay : Nat) (s : State) (h_s : Latched s0 s) : Latched s0 (doPdelayRx d port delay s) := by
  unfold doPdelayRx
  repeat' first
    | with_reducible assumption
    | intro _
    | with_reducible apply Latched.ite
    | with_reducible apply State.updDie_latched
    | fail_if_no_progress (with_reducible apply Latched.mk; (try dsimp only); with_reducible apply Latched.parts)
    | split
    | dsimp only
    | assumption

theorem doAnnounceRx_latched {s0 : State} (d : Die) (port : Fin 2) (domain priority gmId : Nat) (s : State) (h_s : Latched s0 s) : Latched s0 (doAnnounceRx d port domain priority gmId s) := by
  unfold doAnnounceRx
  repeat' first
    | with_reducible assumption
    | intro _
    | with_reducible apply Latched.ite
    | with_reducible apply State.updDie_latched
    | fail_if_no_progress (with_reducible apply Latched.mk; (try dsimp only); with_reducible apply Latched.parts)
    | split
    | dsimp only
    | assumption

theorem doGateControlEntry_latched {s0 : State} (d : Die) (port : Fin 2) (s : State) (h_s : Latched s0 s) : Latched s0 (doGateControlEntry d port s) := by
  unfold doGateControlEntry
  repeat' first
    | with_reducible assumption
    | intro _
    | with_reducible apply State.updDie_latched
    | fail_if_no_progress (with_reducible apply Latched.mk; (try dsimp only); with_reducible apply Latched.parts)
    | dsimp only
    | assumption

end Sys2Proof.Machine
end

