-- ==== Sys2Proof/Laws/LatchedNets.lean ====
section
/-! SUPPORT. The operations of Machine/Nets.lean clear no latched fault bit and set no reserved one. -/

set_option linter.unusedTactic false
set_option linter.unreachableTactic false
set_option linter.unusedVariables false

namespace Sys2Proof.Machine

theorem State.dropSafe_latched {s0 : State} (s : State) (d : Die) (h_s : Latched s0 s) : Latched s0 (State.dropSafe s d) := by
  unfold State.dropSafe
  repeat' first
    | with_reducible assumption
    | with_reducible apply State.bump_latched
    | dsimp only
    | assumption

theorem State.takeCopy_latched {s0 : State} (s : State) (d : Die) (p : Pattern) (q : Nat) (c : ConnRec) (par : ConnPar) (ingress : Nat) (b : List Byte) (h_s : Latched s0 s) : Latched s0 (State.takeCopy s d p q c par ingress b) := by
  unfold State.takeCopy
  repeat' first
    | with_reducible assumption
    | intro _
    | with_reducible apply Latched.ite
    | with_reducible apply State.bump_latched
    | with_reducible apply State.dropSafe_latched
    | with_reducible apply State.setDie_latched
    | with_reducible apply State.updDie_latched
    | with_reducible apply Latched.foldl
    | with_reducible apply Latched.foldlSnd
    | fail_if_no_progress (with_reducible apply Latched.mk; (try dsimp only); with_reducible apply Latched.parts)
    | split
    | dsimp only
    | assumption

theorem doSafeTelegramRx_latched {s0 : State} (d : Die) (port : Fin 2) (h : EthHdr) (body : List Byte) (ingress : Nat) (s : State) (h_s : Latched s0 s) : Latched s0 (doSafeTelegramRx d port h body ingress s) := by
  unfold doSafeTelegramRx
  repeat' first
    | with_reducible assumption
    | with_reducible apply Latched.ite
    | with_reducible apply State.dropSafe_latched
    | with_reducible apply State.takeCopy_latched
    | fail_if_no_progress (with_reducible apply Latched.mk; (try dsimp only); with_reducible apply Latched.parts)
    | split
    | dsimp only
    | assumption

theorem State.takePos_latched {s0 : State} (s : State) (d : Die) (p : Pattern) (k : Nat) (c : ConnRec) (ingress : Nat) (b : List Byte) (h_s : Latched s0 s) : Latched s0 (State.takePos s d p k c ingress b) := by
  unfold State.takePos
  repeat' first
    | with_reducible assumption
    | intro _
    | with_reducible apply Latched.ite
    | with_reducible apply State.bump_latched
    | with_reducible apply State.dropSafe_latched
    | with_reducible apply State.setDie_latched
    | with_reducible apply State.updDie_latched
    | fail_if_no_progress (with_reducible apply Latched.mk; (try dsimp only); with_reducible apply Latched.parts)
    | split
    | dsimp only
    | assumption

theorem doPositionTelegramRx_latched {s0 : State} (d : Die) (port : Fin 2) (h : EthHdr) (body : List Byte) (ingress : Nat) (s : State) (h_s : Latched s0 s) : Latched s0 (doPositionTelegramRx d port h body ingress s) := by
  unfold doPositionTelegramRx
  repeat' first
    | with_reducible assumption
    | intro _
    | with_reducible apply Latched.ite
    | with_reducible apply State.dropSafe_latched
    | with_reducible apply State.takePos_latched
    | fail_if_no_progress (with_reducible apply Latched.mk; (try dsimp only); with_reducible apply Latched.parts)
    | split
    | dsimp only
    | assumption

theorem State.replayDrop_latched {s0 : State} (s : State) (conn : Nat) (h_s : Latched s0 s) : Latched s0 (State.replayDrop s conn) := by
  unfold State.replayDrop
  repeat' first
    | with_reducible assumption
    | intro _
    | with_reducible apply State.bump_latched
    | fail_if_no_progress (with_reducible apply Latched.mk; (try dsimp only); with_reducible apply Latched.parts)
    | split
    | dsimp only
    | assumption

theorem doEgressLost_latched {s0 : State} (d : Die) (port : Fin 2) (conn epoch seq : Nat) (s : State) (h_s : Latched s0 s) : Latched s0 (doEgressLost d port conn epoch seq s) := by
  unfold doEgressLost
  repeat' first
    | with_reducible assumption
    | intro _
    | with_reducible apply State.bump_latched
    | with_reducible apply State.replayDrop_latched
    | with_reducible apply State.updDie_latched
    | fail_if_no_progress (with_reducible apply Latched.mk; (try dsimp only); with_reducible apply Latched.parts)
    | split
    | dsimp only
    | assumption

theorem doLinkDown_latched {s0 : State} (d : Die) (port : Fin 2) (s : State) (h_s : Latched s0 s) : Latched s0 (doLinkDown d port s) := by
  unfold doLinkDown
  repeat' first
    | with_reducible assumption
    | intro _
    | with_reducible apply State.updDie_latched
    | fail_if_no_progress (with_reducible apply Latched.mk; (try dsimp only); with_reducible apply Latched.parts)
    | dsimp only
    | assumption

theorem doLinkUp_latched {s0 : State} (d : Die) (port : Fin 2) (gigabit : Bool) (s : State) (h_s : Latched s0 s) : Latched s0 (doLinkUp d port gigabit s) := by
  unfold doLinkUp
  repeat' first
    | with_reducible assumption
    | intro _
    | with_reducible apply Latched.ite
    | with_reducible apply State.updDie_latched
    | fail_if_no_progress (with_reducible apply Latched.mk; (try dsimp only); with_reducible apply Latched.parts)
    | split
    | dsimp only
    | assumption

theorem State.replayOne_latched {s0 : State} (d : Die) (port : Nat) (x : Nat × State) (y : Nat × Nat × Nat × Nat) (h_x : Latched s0 x.2) : Latched s0 (State.replayOne d port x y).2 := by
  unfold State.replayOne
  repeat' first
    | with_reducible assumption
    | intro _
    | with_reducible apply Latched.ite
    | with_reducible apply State.bump_latched
    | with_reducible apply State.replayDrop_latched
    | with_reducible apply State.setDie_latched
    | fail_if_no_progress (with_reducible apply Latched.mk; (try dsimp only); with_reducible apply Latched.parts)
    | split
    | dsimp only
    | assumption

theorem doTelegramReplay_latched {s0 : State} (d : Die) (port : Fin 2) (s : State) (h_s : Latched s0 s) : Latched s0 (doTelegramReplay d port s) := by
  unfold doTelegramReplay
  repeat' first
    | with_reducible assumption
    | intro _
    | with_reducible apply Latched.ite
    | with_reducible apply State.replayOne_latched
    | with_reducible apply State.setDie_latched
    | with_reducible apply Latched.foldl
    | with_reducible apply Latched.foldlSnd
    | fail_if_no_progress (with_reducible apply Latched.mk; (try dsimp only); with_reducible apply Latched.parts)
    | split
    | dsimp only
    | assumption

theorem doFrameForward_latched {s0 : State} (d : Die) (port : Fin 2) (h : EthHdr) (len : Nat) (s : State) (h_s : Latched s0 s) : Latched s0 (doFrameForward d port h len s) := by
  unfold doFrameForward
  repeat' first
    | with_reducible assumption
    | with_reducible apply Latched.ite
    | with_reducible apply State.setDie_latched
    | fail_if_no_progress (with_reducible apply Latched.mk; (try dsimp only); with_reducible apply Latched.parts)
    | split
    | dsimp only
    | assumption

theorem doFdbAgeout_latched {s0 : State} (d : Die) (mac : Nat) (s : State) (h_s : Latched s0 s) : Latched s0 (doFdbAgeout d mac s) := by
  unfold doFdbAgeout
  repeat' first
    | with_reducible assumption
    | intro _
    | with_reducible apply State.updDie_latched
    | fail_if_no_progress (with_reducible apply Latched.mk; (try dsimp only); with_reducible apply Latched.parts)
    | dsimp only
    | assumption

theorem State.answer_latched {s0 : State} (s : State) (d : Die) (port dst etype hdr : Nat) (msg : List Byte) (h_s : Latched s0 s) : Latched s0 (State.answer s d port dst etype hdr msg) := by
  unfold State.answer
  repeat' first
    | with_reducible assumption
    | intro _
    | with_reducible apply Latched.ite
    | with_reducible apply State.updDie_latched
    | fail_if_no_progress (with_reducible apply Latched.mk; (try dsimp only); with_reducible apply Latched.parts)
    | split
    | dsimp only
    | assumption

theorem State.stackRx_latched {s0 : State} (s : State) (d : Die) (port : Nat) (h : EthHdr) (n : Nat) (act : State → State) (h_s : Latched s0 s) (k_act : ∀ t, Latched s0 t → Latched s0 (act t)) : Latched s0 (State.stackRx s d port h n act) := by
  unfold State.stackRx
  repeat' first
    | with_reducible assumption
    | intro _
    | with_reducible apply Latched.ite
    | with_reducible apply State.bump_latched
    | with_reducible apply k_act
    | split
    | dsimp only
    | assumption

theorem doArpRequestRx_latched {s0 : State} (d : Die) (port : Fin 2) (h : EthHdr) (senderMac senderIp targetIp : Nat) (s : State) (h_s : Latched s0 s) : Latched s0 (doArpRequestRx d port h senderMac senderIp targetIp s) := by
  unfold doArpRequestRx
  repeat' first
    | with_reducible assumption
    | intro _
    | with_reducible apply Latched.ite
    | with_reducible apply State.answer_latched
    | with_reducible apply State.stackRx_latched
    | split
    | dsimp only
    | assumption

theorem doNeighbourDiscoveryRx_latched {s0 : State} (d : Die) (port : Fin 2) (h : EthHdr) (senderMac senderIp targetIp : Nat) (s : State) (h_s : Latched s0 s) : Latched s0 (doNeighbourDiscoveryRx d port h senderMac senderIp targetIp s) := by
  unfold doNeighbourDiscoveryRx
  repeat' first
    | with_reducible assumption
    | intro _
    | with_reducible apply Latched.ite
    | with_reducible apply State.answer_latched
    | with_reducible apply State.stackRx_latched
    | fail_if_no_progress (with_reducible apply Latched.mk; (try dsimp only); with_reducible apply Latched.parts)
    | split
    | dsimp only
    | assumption

theorem doEchoRequestRx_latched {s0 : State} (d : Die) (port : Fin 2) (h : EthHdr) (v6 : Bool) (frags senderIp targetIp : Nat) (data : List Byte) (s : State) (h_s : Latched s0 s) : Latched s0 (doEchoRequestRx d port h v6 frags senderIp targetIp data s) := by
  unfold doEchoRequestRx
  repeat' first
    | with_reducible assumption
    | intro _
    | with_reducible apply Latched.ite
    | with_reducible apply State.answer_latched
    | with_reducible apply State.stackRx_latched
    | split
    | dsimp only
    | assumption

end Sys2Proof.Machine
end

