-- ==== Sys2Proof/Laws/LatchedInputs.lean ====
section
/-! SUPPORT. The operations of Machine/Inputs.lean clear no latched fault bit and set no reserved one. -/

set_option linter.unusedTactic false
set_option linter.unreachableTactic false
set_option linter.unusedVariables false

namespace Sys2Proof.Machine

theorem doFieldInputEdge_latched {s0 : State} (d : Die) (n : Fin 132) (level : Bool) (cyc : Nat) (s : State) (h_s : Latched s0 s) : Latched s0 (doFieldInputEdge d n level cyc s) := by
  unfold doFieldInputEdge
  repeat' first
    | with_reducible assumption
    | intro _
    | with_reducible apply Latched.ite
    | with_reducible apply State.setDie_latched
    | with_reducible apply State.setOut_latched
    | fail_if_no_progress (with_reducible apply Latched.mk; (try dsimp only); with_reducible apply Latched.parts)
    | split
    | dsimp only
    | assumption

theorem doDebounceExpire_latched {s0 : State} (d : Die) (n : Fin 132) (s : State) (h_s : Latched s0 s) : Latched s0 (doDebounceExpire d n s) := by
  unfold doDebounceExpire
  repeat' first
    | with_reducible assumption
    | intro _
    | with_reducible apply Latched.ite
    | with_reducible apply State.updDie_latched
    | fail_if_no_progress (with_reducible apply Latched.mk; (try dsimp only); with_reducible apply Latched.parts)
    | split
    | dsimp only
    | assumption

theorem doOssdPulseFilterExpire_latched {s0 : State} (d : Die) (n : Fin 132) (s : State) (h_s : Latched s0 s) : Latched s0 (doOssdPulseFilterExpire d n s) := by
  unfold doOssdPulseFilterExpire
  repeat' first
    | with_reducible assumption
    | intro _
    | with_reducible apply Latched.ite
    | with_reducible apply State.updDie_latched
    | fail_if_no_progress (with_reducible apply Latched.mk; (try dsimp only); with_reducible apply Latched.parts)
    | split
    | dsimp only
    | assumption

theorem doOssdSilentExpire_latched {s0 : State} (d : Die) (n : Fin 132) (s : State) (h_s : Latched s0 s) : Latched s0 (doOssdSilentExpire d n s) := by
  unfold doOssdSilentExpire
  repeat' first
    | with_reducible assumption
    | with_reducible apply Latched.ite
    | with_reducible apply State.setCode_latched
    | split
    | dsimp only
    | assumption

theorem doFieldImageRx_latched {s0 : State} (d : Die) (fd : Fin 4) (s : State) (h_s : Latched s0 s) : Latched s0 (doFieldImageRx d fd s) := by
  unfold doFieldImageRx
  repeat' first
    | with_reducible assumption
    | intro _
    | with_reducible apply Latched.ite
    | with_reducible apply State.readPairs_latched
    | with_reducible apply State.readback_latched
    | with_reducible apply State.updDie_latched
    | with_reducible apply Latched.foldl
    | fail_if_no_progress (with_reducible apply Latched.mk; (try dsimp only); with_reducible apply Latched.parts)
    | split
    | dsimp only
    | assumption

theorem doCaptureLockEnd_latched {s0 : State} (d : Die) (n : Fin 132) (s : State) (h_s : Latched s0 s) : Latched s0 (doCaptureLockEnd d n s) := by
  unfold doCaptureLockEnd
  repeat' first
    | with_reducible assumption
    | intro _
    | with_reducible apply Latched.ite
    | with_reducible apply State.updDie_latched
    | fail_if_no_progress (with_reducible apply Latched.mk; (try dsimp only); with_reducible apply Latched.parts)
    | split
    | dsimp only
    | assumption

theorem State.pulseOn_latched {s0 : State} (s : State) (n : Nat) (h_s : Latched s0 s) : Latched s0 (State.pulseOn s n) := by
  unfold State.pulseOn
  repeat' first
    | with_reducible assumption
    | intro _
    | with_reducible apply State.updDie_latched
    | with_reducible apply Latched.foldl
    | fail_if_no_progress (with_reducible apply Latched.mk; (try dsimp only); with_reducible apply Latched.parts)
    | dsimp only
    | assumption

theorem State.pulseOff_latched {s0 : State} (s : State) (n code : Nat) (h_s : Latched s0 s) : Latched s0 (State.pulseOff s n code) := by
  unfold State.pulseOff
  repeat' first
    | with_reducible assumption
    | intro _
    | with_reducible apply Latched.ite
    | with_reducible apply State.setOut_latched
    | with_reducible apply State.updDie_latched
    | with_reducible apply Latched.foldl
    | fail_if_no_progress (with_reducible apply Latched.mk; (try dsimp only); with_reducible apply Latched.parts)
    | split
    | dsimp only
    | assumption

theorem doTestPulseStart_latched {s0 : State} (k : Fin 32) (s : State) (h_s : Latched s0 s) : Latched s0 (doTestPulseStart k s) := by
  unfold doTestPulseStart
  repeat' first
    | with_reducible assumption
    | intro _
    | with_reducible apply State.pulseOn_latched
    | with_reducible apply State.updF_latched
    | fail_if_no_progress (with_reducible apply Latched.mk; (try dsimp only); with_reducible apply Latched.parts)
    | split
    | dsimp only
    | assumption

theorem doTestPulseEnd_latched {s0 : State} (k : Fin 32) (s : State) (h_s : Latched s0 s) : Latched s0 (doTestPulseEnd k s) := by
  unfold doTestPulseEnd
  repeat' first
    | with_reducible assumption
    | intro _
    | with_reducible apply Latched.ite
    | with_reducible apply State.pulseOff_latched
    | with_reducible apply State.updF_latched
    | fail_if_no_progress (with_reducible apply Latched.mk; (try dsimp only); with_reducible apply Latched.parts)
    | split
    | dsimp only
    | assumption

theorem doTpWindowOpen_latched {s0 : State} (d : Die) (k : Fin 32) (s : State) (h_s : Latched s0 s) : Latched s0 (doTpWindowOpen d k s) := by
  unfold doTpWindowOpen
  repeat' first
    | with_reducible assumption
    | intro _
    | with_reducible apply Latched.ite
    | with_reducible apply State.updDie_latched
    | with_reducible apply Latched.foldl
    | split
    | dsimp only
    | assumption

theorem State.ownWinEnd_latched {s0 : State} (s : State) (d : Die) (x : SrcRec) (period : Nat) (c : ChanRec) (h_s : Latched s0 s) : Latched s0 (State.ownWinEnd s d x period c) := by
  unfold State.ownWinEnd
  repeat' first
    | with_reducible assumption
    | intro _
    | with_reducible apply Latched.ite
    | with_reducible apply State.setCode_latched
    | with_reducible apply State.updDie_latched
    | fail_if_no_progress (with_reducible apply Latched.mk; (try dsimp only); with_reducible apply Latched.parts)
    | split
    | dsimp only
    | assumption

theorem State.fgnWinEnd_latched {s0 : State} (s : State) (d : Die) (x : SrcRec) (c : ChanRec) (h_s : Latched s0 s) : Latched s0 (State.fgnWinEnd s d x c) := by
  unfold State.fgnWinEnd
  repeat' first
    | with_reducible assumption
    | intro _
    | with_reducible apply Latched.ite
    | with_reducible apply State.setCode_latched
    | with_reducible apply State.updDie_latched
    | fail_if_no_progress (with_reducible apply Latched.mk; (try dsimp only); with_reducible apply Latched.parts)
    | split
    | dsimp only
    | assumption

theorem doTpWindowEnd_latched {s0 : State} (d : Die) (k : Fin 32) (s : State) (h_s : Latched s0 s) : Latched s0 (doTpWindowEnd d k s) := by
  unfold doTpWindowEnd
  repeat' first
    | with_reducible assumption
    | intro _
    | with_reducible apply Latched.ite
    | with_reducible apply State.fgnWinEnd_latched
    | with_reducible apply State.ownWinEnd_latched
    | with_reducible apply Latched.foldl
    | fail_if_no_progress (with_reducible apply Latched.mk; (try dsimp only); with_reducible apply Latched.parts)
    | split
    | dsimp only
    | assumption

theorem State.adcInput_latched {s0 : State} (s : State) (d : Die) (c : ChanRec) (mv : Nat) (h_s : Latched s0 s) : Latched s0 (State.adcInput s d c mv) := by
  unfold State.adcInput
  repeat' first
    | with_reducible assumption
    | intro _
    | with_reducible apply Latched.ite
    | with_reducible apply State.setCode_latched
    | with_reducible apply State.updDie_latched
    | fail_if_no_progress (with_reducible apply Latched.mk; (try dsimp only); with_reducible apply Latched.parts)
    | split
    | dsimp only
    | assumption

theorem State.adcOutput_latched {s0 : State} (s : State) (d : Die) (c : ChanRec) (ball mid ma : Nat) (h_s : Latched s0 s) : Latched s0 (State.adcOutput s d c ball mid ma) := by
  unfold State.adcOutput
  repeat' first
    | with_reducible assumption
    | intro _
    | with_reducible apply Latched.ite
    | with_reducible apply State.setOut_latched
    | with_reducible apply State.updDie_latched
    | fail_if_no_progress (with_reducible apply Latched.mk; (try dsimp only); with_reducible apply Latched.parts)
    | split
    | dsimp only
    | assumption

theorem doAdcSample_latched {s0 : State} (d : Die) (n : Fin 132) (ball mid ma : Nat) (s : State) (h_s : Latched s0 s) : Latched s0 (doAdcSample d n ball mid ma s) := by
  unfold doAdcSample
  repeat' first
    | with_reducible assumption
    | intro _
    | with_reducible apply Latched.ite
    | with_reducible apply State.adcInput_latched
    | with_reducible apply State.adcOutput_latched
    | with_reducible apply State.updDie_latched
    | fail_if_no_progress (with_reducible apply Latched.mk; (try dsimp only); with_reducible apply Latched.parts)
    | split
    | dsimp only
    | assumption

theorem doAdcReferenceCheck_latched {s0 : State} (fd : Fin 4) (pass : Bool) (s : State) (h_s : Latched s0 s) : Latched s0 (doAdcReferenceCheck fd pass s) := by
  unfold doAdcReferenceCheck
  repeat' first
    | with_reducible assumption
    | with_reducible apply Latched.ite
    | with_reducible apply State.fCause_latched
    | split
    | dsimp only
    | assumption

theorem State.w1c_latched {s0 : State} (s : State) (idx sub mask : Nat) (h_s : Latched s0 s) : Latched s0 (State.w1c s idx sub mask) := by
  unfold State.w1c
  repeat' first
    | with_reducible assumption
    | with_reducible apply State.setReg_latched
    | dsimp only
    | assumption

theorem doCosHirqClear_latched {s0 : State} (seat : Fin 8) (word : Fin 5) (mask : Nat) (s : State) (h_s : Latched s0 s) : Latched s0 (doCosHirqClear seat word mask s) := by
  unfold doCosHirqClear
  repeat' first
    | with_reducible assumption
    | intro _
    | with_reducible apply State.w1c_latched
    | with_reducible apply State.write_latched
    | dsimp only
    | assumption

end Sys2Proof.Machine
end

