-- ==== Sys2Proof/Laws/LatchedOutputs.lean ====
section
/-! SUPPORT. The operations of Machine/Outputs.lean clear no latched fault bit and set no reserved one. -/

set_option linter.unusedTactic false
set_option linter.unreachableTactic false
set_option linter.unusedVariables false

namespace Sys2Proof.Machine

theorem State.settle_latched {s0 : State} (s : State) (f : Nat) (changed on : BitVec 32) (h_s : Latched s0 s) : Latched s0 (State.settle s f changed on) := by
  unfold State.settle
  repeat' first
    | with_reducible assumption
    | intro _
    | with_reducible apply Latched.ite
    | with_reducible apply State.updDie_latched
    | with_reducible apply Latched.foldl
    | fail_if_no_progress (with_reducible apply Latched.mk; (try dsimp only); with_reducible apply Latched.parts)
    | split
    | dsimp only
    | assumption

theorem State.portTo_latched {s0 : State} (s : State) (d : Die) (f : Nat) (p : FPort) (h_s : Latched s0 s) : Latched s0 (State.portTo s d f p) := by
  unfold State.portTo
  repeat' first
    | with_reducible assumption
    | intro _
    | with_reducible apply State.updF_latched
    | fail_if_no_progress (with_reducible apply Latched.mk; (try dsimp only); with_reducible apply Latched.parts)
    | dsimp only
    | assumption

theorem doCmdFrameRx_latched {s0 : State} (d : Die) (fd : Fin 4) (fr : BitVec 128) (s : State) (h_s : Latched s0 s) : Latched s0 (doCmdFrameRx d fd fr s) := by
  unfold doCmdFrameRx
  repeat' first
    | with_reducible assumption
    | intro _
    | with_reducible apply Latched.ite
    | with_reducible apply State.bump_latched
    | with_reducible apply State.portTo_latched
    | with_reducible apply State.settle_latched
    | with_reducible apply State.updF_latched
    | fail_if_no_progress (with_reducible apply Latched.mk; (try dsimp only); with_reducible apply Latched.parts)
    | split
    | dsimp only
    | assumption

theorem State.expireToken_latched {s0 : State} (s : State) (d : Die) (f : Nat) (h_s : Latched s0 s) : Latched s0 (State.expireToken s d f) := by
  unfold State.expireToken
  repeat' first
    | with_reducible assumption
    | with_reducible apply Latched.ite
    | with_reducible apply State.bump_latched
    | with_reducible apply State.portTo_latched
    | split
    | dsimp only
    | assumption

theorem State.markSkew_latched {s0 : State} (s : State) (f : Nat) (own other : Nat) (h_s : Latched s0 s) : Latched s0 (State.markSkew s f own other) := by
  unfold State.markSkew
  repeat' first
    | with_reducible assumption
    | intro _
    | with_reducible apply Latched.ite
    | with_reducible apply State.fCause_latched
    | with_reducible apply State.updF_latched
    | fail_if_no_progress (with_reducible apply Latched.mk; (try dsimp only); with_reducible apply Latched.parts)
    | split
    | dsimp only
    | assumption

theorem doTickMarkRx_latched {s0 : State} (fd : Fin 4) (d : Die) (t : Nat) (s : State) (h_s : Latched s0 s) : Latched s0 (doTickMarkRx fd d t s) := by
  unfold doTickMarkRx
  repeat' first
    | with_reducible assumption
    | intro _
    | with_reducible apply Latched.ite
    | with_reducible apply State.expireToken_latched
    | with_reducible apply State.markSkew_latched
    | with_reducible apply State.updF_latched
    | fail_if_no_progress (with_reducible apply Latched.mk; (try dsimp only); with_reducible apply Latched.parts)
    | split
    | dsimp only
    | assumption

theorem doKeepTokenExpire_latched {s0 : State} (d : Die) (fd : Fin 4) (s : State) (h_s : Latched s0 s) : Latched s0 (doKeepTokenExpire d fd s) := by
  unfold doKeepTokenExpire
  repeat' first
    | with_reducible assumption
    | with_reducible apply Latched.ite
    | with_reducible apply State.expireToken_latched
    | split
    | dsimp only
    | assumption

theorem doTripAssert_latched {s0 : State} (line : Die) (s : State) (h_s : Latched s0 s) : Latched s0 (doTripAssert line s) := by
  unfold doTripAssert
  repeat' first
    | with_reducible assumption
    | with_reducible apply State.driveTrips_latched
    | fail_if_no_progress (with_reducible apply Latched.mk; (try dsimp only); with_reducible apply Latched.parts)
    | split
    | dsimp only
    | assumption

theorem doTripRelease_latched {s0 : State} (s : State) (h_s : Latched s0 s) : Latched s0 (doTripRelease s) := by
  unfold doTripRelease
  repeat' first
    | with_reducible assumption
    | with_reducible apply Latched.ite
    | with_reducible apply State.untrip_latched
    | fail_if_no_progress (with_reducible apply Latched.mk; (try dsimp only); with_reducible apply Latched.parts)
    | split
    | dsimp only
    | assumption

theorem doHeartbeatLoss_latched {s0 : State} (rx : HbRx) (s : State) (h_s : Latched s0 s) : Latched s0 (doHeartbeatLoss rx s) := by
  unfold doHeartbeatLoss
  repeat' first
    | with_reducible assumption
    | with_reducible apply State.driveTrips_latched
    | with_reducible apply State.portTo_latched
    | fail_if_no_progress (with_reducible apply Latched.mk; (try dsimp only); with_reducible apply Latched.parts)
    | split
    | dsimp only
    | assumption

theorem doVfldLow_latched {s0 : State} (fd : Fin 4) (mv : Nat) (s : State) (h_s : Latched s0 s) : Latched s0 (doVfldLow fd mv s) := by
  unfold doVfldLow
  repeat' first
    | with_reducible assumption
    | intro _
    | with_reducible apply Latched.ite
    | with_reducible apply State.fCause_latched
    | with_reducible apply State.portTo_latched
    | with_reducible apply State.setReg_latched
    | with_reducible apply State.settle_latched
    | with_reducible apply State.updF_latched
    | fail_if_no_progress (with_reducible apply Latched.mk; (try dsimp only); with_reducible apply Latched.parts)
    | split
    | dsimp only
    | assumption

theorem doVfldRecover_latched {s0 : State} (fd : Fin 4) (mv : Nat) (s : State) (h_s : Latched s0 s) : Latched s0 (doVfldRecover fd mv s) := by
  unfold doVfldRecover
  repeat' first
    | with_reducible assumption
    | intro _
    | with_reducible apply Latched.ite
    | with_reducible apply State.fCause_latched
    | with_reducible apply State.setReg_latched
    | with_reducible apply State.updF_latched
    | fail_if_no_progress (with_reducible apply Latched.mk; (try dsimp only); with_reducible apply Latched.parts)
    | split
    | dsimp only
    | assumption

theorem State.protect_latched {s0 : State} (s : State) (d : Die) (n code : Nat) (h_s : Latched s0 s) : Latched s0 (State.protect s d n code) := by
  unfold State.protect
  repeat' first
    | with_reducible assumption
    | with_reducible apply Latched.ite
    | with_reducible apply State.portTo_latched
    | with_reducible apply State.setOut_latched
    | fail_if_no_progress (with_reducible apply Latched.mk; (try dsimp only); with_reducible apply Latched.parts)
    | split
    | dsimp only
    | assumption

theorem doCurrentLimitTrip_latched {s0 : State} (n : Fin 128) (s : State) (h_s : Latched s0 s) : Latched s0 (doCurrentLimitTrip n s) := by
  unfold doCurrentLimitTrip
  repeat' first
    | with_reducible assumption
    | with_reducible apply State.protect_latched
    | dsimp only
    | assumption

theorem doSwitchOvertemp_latched {s0 : State} (d : Die) (n : Fin 128) (s : State) (h_s : Latched s0 s) : Latched s0 (doSwitchOvertemp d n s) := by
  unfold doSwitchOvertemp
  repeat' first
    | with_reducible assumption
    | with_reducible apply State.protect_latched
    | dsimp only
    | assumption

theorem doGateDriveLoss_latched {s0 : State} (fd : Fin 4) (s : State) (h_s : Latched s0 s) : Latched s0 (doGateDriveLoss fd s) := by
  unfold doGateDriveLoss
  repeat' first
    | with_reducible assumption
    | intro _
    | with_reducible apply Latched.ite
    | with_reducible apply State.fCause_latched
    | with_reducible apply State.updF_latched
    | fail_if_no_progress (with_reducible apply Latched.mk; (try dsimp only); with_reducible apply Latched.parts)
    | split
    | dsimp only
    | assumption

theorem doGateDriveReturn_latched {s0 : State} (fd : Fin 4) (s : State) (h_s : Latched s0 s) : Latched s0 (doGateDriveReturn fd s) := by
  unfold doGateDriveReturn
  repeat' first
    | with_reducible assumption
    | intro _
    | with_reducible apply Latched.ite
    | with_reducible apply State.fCause_latched
    | with_reducible apply State.updF_latched
    | fail_if_no_progress (with_reducible apply Latched.mk; (try dsimp only); with_reducible apply Latched.parts)
    | split
    | dsimp only
    | assumption

theorem doFdieOvercurrent_latched {s0 : State} (fd : Fin 4) (ma : Nat) (s : State) (h_s : Latched s0 s) : Latched s0 (doFdieOvercurrent fd ma s) := by
  unfold doFdieOvercurrent
  repeat' first
    | with_reducible assumption
    | with_reducible apply Latched.ite
    | with_reducible apply State.fCause_latched
    | with_reducible apply State.setReg_latched
    | split
    | dsimp only
    | assumption

theorem doSupplyCurrentReturn_latched {s0 : State} (fd : Fin 4) (s : State) (h_s : Latched s0 s) : Latched s0 (doSupplyCurrentReturn fd s) := by
  unfold doSupplyCurrentReturn
  repeat' first
    | with_reducible assumption
    | with_reducible apply Latched.ite
    | with_reducible apply State.fCause_latched
    | with_reducible apply State.free_latched
    | with_reducible apply State.setReg_latched
    | split
    | dsimp only
    | assumption

theorem doFdieOvertemp_latched {s0 : State} (fd : Fin 4) (s : State) (h_s : Latched s0 s) : Latched s0 (doFdieOvertemp fd s) := by
  unfold doFdieOvertemp
  repeat' first
    | with_reducible assumption
    | with_reducible apply Latched.ite
    | with_reducible apply State.fCause_latched
    | split
    | dsimp only
    | assumption

theorem doOvertemperatureEnd_latched {s0 : State} (who : TempWho) (s : State) (h_s : Latched s0 s) : Latched s0 (doOvertemperatureEnd who s) := by
  unfold doOvertemperatureEnd
  repeat' first
    | with_reducible assumption
    | with_reducible apply Latched.ite
    | with_reducible apply State.causeOff_latched
    | with_reducible apply State.fCause_latched
    | fail_if_no_progress (with_reducible apply Latched.mk; (try dsimp only); with_reducible apply Latched.parts)
    | split
    | dsimp only
    | assumption

theorem doDischargeSinkRelease_latched {s0 : State} (n : Fin 128) (s : State) (h_s : Latched s0 s) : Latched s0 (doDischargeSinkRelease n s) := by
  unfold doDischargeSinkRelease
  repeat' first
    | with_reducible assumption
    | intro _
    | with_reducible apply State.updF_latched
    | fail_if_no_progress (with_reducible apply Latched.mk; (try dsimp only); with_reducible apply Latched.parts)
    | dsimp only
    | assumption

theorem doOffPulseStart_latched {s0 : State} (d : Die) (n : Fin 128) (s : State) (h_s : Latched s0 s) : Latched s0 (doOffPulseStart d n s) := by
  unfold doOffPulseStart
  repeat' first
    | with_reducible assumption
    | intro _
    | with_reducible apply Latched.ite
    | with_reducible apply State.pulseOn_latched
    | with_reducible apply State.updF_latched
    | fail_if_no_progress (with_reducible apply Latched.mk; (try dsimp only); with_reducible apply Latched.parts)
    | split
    | dsimp only
    | assumption

theorem State.foreignEnd_latched {s0 : State} (s : State) (d : Die) (h_s : Latched s0 s) : Latched s0 (State.foreignEnd s d) := by
  unfold State.foreignEnd
  repeat' first
    | with_reducible assumption
    | intro _
    | with_reducible apply Latched.ite
    | with_reducible apply State.setOut_latched
    | with_reducible apply Latched.foldl
    | fail_if_no_progress (with_reducible apply Latched.mk; (try dsimp only); with_reducible apply Latched.parts)
    | split
    | dsimp only
    | assumption

theorem doOffPulseEnd_latched {s0 : State} (d : Die) (n : Fin 128) (s : State) (h_s : Latched s0 s) : Latched s0 (doOffPulseEnd d n s) := by
  unfold doOffPulseEnd
  repeat' first
    | with_reducible assumption
    | intro _
    | with_reducible apply Latched.ite
    | with_reducible apply State.bump_latched
    | with_reducible apply State.foreignEnd_latched
    | with_reducible apply State.pulseOff_latched
    | with_reducible apply State.updF_latched
    | fail_if_no_progress (with_reducible apply Latched.mk; (try dsimp only); with_reducible apply Latched.parts)
    | split
    | dsimp only
    | assumption

theorem doOutputCodeClear_latched {s0 : State} (d : Die) (n : Fin 128) (s : State) (h_s : Latched s0 s) : Latched s0 (doOutputCodeClear d n s) := by
  unfold doOutputCodeClear
  repeat' first
    | with_reducible assumption
    | intro _
    | with_reducible apply Latched.ite
    | with_reducible apply State.updDie_latched
    | fail_if_no_progress (with_reducible apply Latched.mk; (try dsimp only); with_reducible apply Latched.parts)
    | split
    | dsimp only
    | assumption

theorem doChannelModeWrite_latched {s0 : State} (d : Die) (n : Fin 128) (mode : Nat) (s : State) (h_s : Latched s0 s) : Latched s0 (doChannelModeWrite d n mode s) := by
  unfold doChannelModeWrite
  repeat' first
    | with_reducible assumption
    | with_reducible apply Latched.ite
    | with_reducible apply State.modesWritten_latched
    | with_reducible apply State.writeMode_latched
    | split
    | dsimp only
    | assumption

theorem doHoldModeEnter_latched {s0 : State} (d : Die) (s : State) (h_s : Latched s0 s) : Latched s0 (doHoldModeEnter d s) := by
  unfold doHoldModeEnter
  repeat' first
    | with_reducible assumption
    | with_reducible apply Latched.ite
    | with_reducible apply State.enterHold_latched
    | split
    | dsimp only
    | assumption

theorem doHoldFrameSend_latched {s0 : State} (d : Die) (s : State) (h_s : Latched s0 s) : Latched s0 (doHoldFrameSend d s) := by
  unfold doHoldFrameSend
  repeat' first
    | with_reducible assumption
    | intro _
    | with_reducible apply Latched.ite
    | with_reducible apply State.updDie_latched
    | with_reducible apply Latched.foldl
    | split
    | dsimp only
    | assumption

theorem doHoldTimeout_latched {s0 : State} (d : Die) (s : State) (h_s : Latched s0 s) : Latched s0 (doHoldTimeout d s) := by
  unfold doHoldTimeout
  repeat' first
    | with_reducible assumption
    | intro _
    | with_reducible apply Latched.ite
    | with_reducible apply State.revert_latched
    | with_reducible apply State.updDie_latched
    | fail_if_no_progress (with_reducible apply Latched.mk; (try dsimp only); with_reducible apply Latched.parts)
    | split
    | dsimp only
    | assumption

end Sys2Proof.Machine
end

