-- ==== Sys2Proof/Laws/LatchedExpire.lean ====
section
/-! SUPPORT. The operations of Machine/Expire.lean clear no latched fault bit and set no reserved one. -/

set_option linter.unusedTactic false
set_option linter.unreachableTactic false
set_option linter.unusedVariables false

namespace Sys2Proof.Machine

theorem State.expire_latched {s0 : State} (s : State) (d : Die) (inst : Nat) (lim : Lim) (h_s : Latched s0 s) : Latched s0 (State.expire s d inst lim) := by
  unfold State.expire
  repeat' first
    | with_reducible assumption
    | with_reducible apply doJobComplete_latched
    | fail_if_no_progress (with_reducible apply Latched.mk; (try dsimp only); with_reducible apply Latched.parts)
    | split
    | dsimp only
    | assumption

theorem doConnWatchdogExpire_latched {s0 : State} (d : Die) (inst : Nat) (s : State) (h_s : Latched s0 s) : Latched s0 (doConnWatchdogExpire d inst s) := by
  unfold doConnWatchdogExpire
  repeat' first
    | with_reducible assumption
    | with_reducible apply State.expire_latched
    | dsimp only
    | assumption

theorem doLoneBudgetExpire_latched {s0 : State} (d : Die) (inst : Nat) (s : State) (h_s : Latched s0 s) : Latched s0 (doLoneBudgetExpire d inst s) := by
  unfold doLoneBudgetExpire
  repeat' first
    | with_reducible assumption
    | with_reducible apply State.expire_latched
    | dsimp only
    | assumption

theorem doDiscTimerExpire_latched {s0 : State} (d : Die) (inst : Nat) (s : State) (h_s : Latched s0 s) : Latched s0 (doDiscTimerExpire d inst s) := by
  unfold doDiscTimerExpire
  repeat' first
    | with_reducible assumption
    | with_reducible apply State.expire_latched
    | dsimp only
    | assumption

theorem doLockMismatchExpire_latched {s0 : State} (d : Die) (inst : Nat) (s : State) (h_s : Latched s0 s) : Latched s0 (doLockMismatchExpire d inst s) := by
  unfold doLockMismatchExpire
  repeat' first
    | with_reducible assumption
    | with_reducible apply State.expire_latched
    | split
    | dsimp only
    | assumption

theorem doMuteTimeExpire_latched {s0 : State} (d : Die) (inst : Nat) (s : State) (h_s : Latched s0 s) : Latched s0 (doMuteTimeExpire d inst s) := by
  unfold doMuteTimeExpire
  repeat' first
    | with_reducible assumption
    | with_reducible apply State.expire_latched
    | dsimp only
    | assumption

theorem doOverrideTimeExpire_latched {s0 : State} (d : Die) (inst : Nat) (s : State) (h_s : Latched s0 s) : Latched s0 (doOverrideTimeExpire d inst s) := by
  unfold doOverrideTimeExpire
  repeat' first
    | with_reducible assumption
    | with_reducible apply State.expire_latched
    | dsimp only
    | assumption

theorem doContactTExpire_latched {s0 : State} (d : Die) (inst : Nat) (s : State) (h_s : Latched s0 s) : Latched s0 (doContactTExpire d inst s) := by
  unfold doContactTExpire
  repeat' first
    | with_reducible assumption
    | with_reducible apply State.expire_latched
    | dsimp only
    | assumption

theorem doModeselDiscExpire_latched {s0 : State} (d : Die) (inst : Nat) (s : State) (h_s : Latched s0 s) : Latched s0 (doModeselDiscExpire d inst s) := by
  unfold doModeselDiscExpire
  repeat' first
    | with_reducible assumption
    | with_reducible apply State.expire_latched
    | dsimp only
    | assumption

theorem doEdmTimeout_latched {s0 : State} (d : Die) (inst : Nat) (s : State) (h_s : Latched s0 s) : Latched s0 (doEdmTimeout d inst s) := by
  unfold doEdmTimeout
  repeat' first
    | with_reducible assumption
    | with_reducible apply State.expire_latched
    | dsimp only
    | assumption

theorem doTimerPtExpire_latched {s0 : State} (d : Die) (inst : Nat) (s : State) (h_s : Latched s0 s) : Latched s0 (doTimerPtExpire d inst s) := by
  unfold doTimerPtExpire
  repeat' first
    | with_reducible assumption
    | with_reducible apply State.expire_latched
    | dsimp only
    | assumption

theorem doOutsafeDlyExpire_latched {s0 : State} (d : Die) (inst : Nat) (s : State) (h_s : Latched s0 s) : Latched s0 (doOutsafeDlyExpire d inst s) := by
  unfold doOutsafeDlyExpire
  repeat' first
    | with_reducible assumption
    | with_reducible apply State.expire_latched
    | dsimp only
    | assumption

theorem doStdinStale_latched {s0 : State} (d : Die) (inst : Nat) (s : State) (h_s : Latched s0 s) : Latched s0 (doStdinStale d inst s) := by
  unfold doStdinStale
  repeat' first
    | with_reducible assumption
    | with_reducible apply State.expire_latched
    | dsimp only
    | assumption

theorem doStreamLost_latched {s0 : State} (d : Die) (inst : Nat) (s : State) (h_s : Latched s0 s) : Latched s0 (doStreamLost d inst s) := by
  unfold doStreamLost
  repeat' first
    | with_reducible assumption
    | with_reducible apply State.expire_latched
    | dsimp only
    | assumption

theorem doStoFbTimeout_latched {s0 : State} (d : Die) (inst : Nat) (s : State) (h_s : Latched s0 s) : Latched s0 (doStoFbTimeout d inst s) := by
  unfold doStoFbTimeout
  repeat' first
    | with_reducible assumption
    | with_reducible apply State.expire_latched
    | dsimp only
    | assumption

theorem doSs1StopTimeout_latched {s0 : State} (d : Die) (inst : Nat) (s : State) (h_s : Latched s0 s) : Latched s0 (doSs1StopTimeout d inst s) := by
  unfold doSs1StopTimeout
  repeat' first
    | with_reducible assumption
    | with_reducible apply State.expire_latched
    | dsimp only
    | assumption

theorem doSlsAdaptExpire_latched {s0 : State} (d : Die) (inst : Nat) (s : State) (h_s : Latched s0 s) : Latched s0 (doSlsAdaptExpire d inst s) := by
  unfold doSlsAdaptExpire
  repeat' first
    | with_reducible assumption
    | with_reducible apply State.expire_latched
    | dsimp only
    | assumption

theorem doBrakeEngageExpire_latched {s0 : State} (d : Die) (inst : Nat) (s : State) (h_s : Latched s0 s) : Latched s0 (doBrakeEngageExpire d inst s) := by
  unfold doBrakeEngageExpire
  repeat' first
    | with_reducible assumption
    | with_reducible apply State.expire_latched
    | dsimp only
    | assumption

theorem doSbcFbTimeout_latched {s0 : State} (d : Die) (inst : Nat) (s : State) (h_s : Latched s0 s) : Latched s0 (doSbcFbTimeout d inst s) := by
  unfold doSbcFbTimeout
  repeat' first
    | with_reducible assumption
    | with_reducible apply State.expire_latched
    | dsimp only
    | assumption

theorem doSbtTestTimeout_latched {s0 : State} (d : Die) (inst : Nat) (s : State) (h_s : Latched s0 s) : Latched s0 (doSbtTestTimeout d inst s) := by
  unfold doSbtTestTimeout
  repeat' first
    | with_reducible assumption
    | with_reducible apply State.expire_latched
    | dsimp only
    | assumption

theorem doSbtIntervalExpire_latched {s0 : State} (d : Die) (inst : Nat) (s : State) (h_s : Latched s0 s) : Latched s0 (doSbtIntervalExpire d inst s) := by
  unfold doSbtIntervalExpire
  repeat' first
    | with_reducible assumption
    | with_reducible apply State.expire_latched
    | dsimp only
    | assumption

theorem doGroupEngageExpire_latched {s0 : State} (d : Die) (inst : Nat) (s : State) (h_s : Latched s0 s) : Latched s0 (doGroupEngageExpire d inst s) := by
  unfold doGroupEngageExpire
  repeat' first
    | with_reducible assumption
    | with_reducible apply State.expire_latched
    | dsimp only
    | assumption

theorem doTensionFilterExpire_latched {s0 : State} (d : Die) (inst : Nat) (s : State) (h_s : Latched s0 s) : Latched s0 (doTensionFilterExpire d inst s) := by
  unfold doTensionFilterExpire
  repeat' first
    | with_reducible assumption
    | with_reducible apply State.expire_latched
    | dsimp only
    | assumption

end Sys2Proof.Machine
end

