-- ==== Sys2Proof/Laws/LatchedOtpRows.lean ====
section
/-! SUPPORT. The operations of Machine/OtpRows.lean clear no latched fault bit and set no reserved one. -/

set_option linter.unusedTactic false
set_option linter.unreachableTactic false
set_option linter.unusedVariables false

namespace Sys2Proof.Machine

theorem State.rand_latched {s0 : State} (s : State) (n : Nat) (h_s : Latched s0 s) : Latched s0 (State.rand s n).2 := by
  unfold State.rand
  repeat' first
    | with_reducible assumption
    | fail_if_no_progress (with_reducible apply Latched.mk; (try dsimp only); with_reducible apply Latched.parts)
    | dsimp only
    | assumption

theorem State.randNat_latched {s0 : State} (s : State) (n : Nat) (h_s : Latched s0 s) : Latched s0 (State.randNat s n).2 := by
  unfold State.randNat
  repeat' first
    | with_reducible assumption
    | with_reducible apply State.rand_latched
    | dsimp only
    | assumption

theorem State.persist_latched {s0 : State} (s : State) (idx sub val seat : Nat) (h_s : Latched s0 s) : Latched s0 (State.persist s idx sub val seat) := by
  unfold State.persist
  repeat' first
    | with_reducible assumption
    | fail_if_no_progress (with_reducible apply Latched.mk; (try dsimp only); with_reducible apply Latched.parts)
    | dsimp only
    | assumption

theorem State.firstRunDone_latched {s0 : State} (s : State) (h_s : Latched s0 s) : Latched s0 (State.firstRunDone s) := by
  unfold State.firstRunDone
  repeat' first
    | with_reducible assumption
    | intro _
    | with_reducible apply Latched.ite
    | with_reducible apply State.firstRun_latched
    | fail_if_no_progress (with_reducible apply Latched.mk; (try dsimp only); with_reducible apply Latched.parts)
    | split
    | dsimp only
    | assumption

theorem State.lcAfter_latched {s0 : State} (s : State) (v : Nat) (h_s : Latched s0 s) : Latched s0 (State.lcAfter s v) := by
  unfold State.lcAfter
  repeat' first
    | with_reducible assumption
    | with_reducible apply Latched.ite
    | with_reducible apply State.lcAct_latched
    | with_reducible apply State.lcLoad_latched
    | with_reducible apply State.otpWant_latched
    | split
    | dsimp only
    | assumption

theorem State.otpEnd_latched {s0 : State} (u : State) (x : OtpOp) (ok : Bool) (h_u : Latched s0 u) : Latched s0 (State.otpEnd u x ok) := by
  unfold State.otpEnd
  repeat' first
    | with_reducible assumption
    | with_reducible apply Latched.ite
    | with_reducible apply State.ans_latched
    | with_reducible apply State.ansBusy_latched
    | with_reducible apply State.bump_latched
    | with_reducible apply State.firstRunDone_latched
    | with_reducible apply State.latch_latched
    | with_reducible apply State.lcAfter_latched
    | with_reducible apply State.leaseEnd_latched
    | with_reducible apply State.otpAns_latched
    | with_reducible apply State.otpNext_latched
    | fail_if_no_progress (with_reducible apply Latched.mk; (try dsimp only); with_reducible apply Latched.parts)
    | split
    | dsimp only
    | assumption

theorem doOtpProgramDone_latched {s0 : State} (ok : Bool) (s : State) (h_s : Latched s0 s) : Latched s0 (doOtpProgramDone ok s) := by
  unfold doOtpProgramDone
  repeat' first
    | with_reducible assumption
    | with_reducible apply Latched.ite
    | with_reducible apply State.otpEnd_latched
    | fail_if_no_progress (with_reducible apply Latched.mk; (try dsimp only); with_reducible apply Latched.parts)
    | split
    | dsimp only
    | assumption

theorem doOtpProg_latched {s0 : State} (seat : Fin 8) (v : Nat) (s : State) (h_s : Latched s0 s) : Latched s0 (doOtpProg seat v s) := by
  unfold doOtpProg
  repeat' first
    | with_reducible assumption
    | intro _
    | with_reducible apply State.leaseAsk_latched
    | with_reducible apply State.write_latched
    | fail_if_no_progress (with_reducible apply Latched.mk; (try dsimp only); with_reducible apply Latched.parts)
    | dsimp only
    | assumption

theorem State.otpRead_latched {s0 : State} (s : State) (n : Nat) (h_s : Latched s0 s) : Latched s0 (State.otpRead s n) := by
  unfold State.otpRead
  with_reducible apply Latched.ite
  · exact State.ans_latched s .access h_s
  · extract_lets o s1
    have h1 : Latched s0 s1 := by
      apply State.reply_latched
      apply State.ans_latched
      with_reducible apply Latched.mk
      exact h_s.parts
    clear_value s1
    cases s.otp.word n with
    | blank => exact h1
    | data v => exact h1
    | corrected v => exact State.bump_latched s1 _ _ _ h1
    | spent => exact Latched.ite (State.latch_latched s1 _ h1) h1

theorem doOtpData_latched {s0 : State} (seat : Fin 8) (s : State) (h_s : Latched s0 s) : Latched s0 (doOtpData seat s) := by
  unfold doOtpData
  repeat' first
    | with_reducible assumption
    | with_reducible apply Latched.ite
    | with_reducible apply State.ans_latched
    | with_reducible apply State.otpRead_latched
    | split
    | dsimp only
    | assumption

theorem doLcReq_latched {s0 : State} (seat : Fin 8) (v : Nat) (s : State) (h_s : Latched s0 s) : Latched s0 (doLcReq seat v s) := by
  unfold doLcReq
  repeat' first
    | with_reducible assumption
    | intro _
    | with_reducible apply State.otpWant_latched
    | with_reducible apply State.write_latched
    | dsimp only
    | assumption

theorem doLcResp_latched {s0 : State} (seat : Fin 8) (target : Nat) (sig : List Byte) (s : State) (h_s : Latched s0 s) : Latched s0 (doLcResp seat target sig s) := by
  unfold doLcResp
  repeat' first
    | with_reducible assumption
    | intro _
    | with_reducible apply Latched.ite
    | with_reducible apply State.otpWant_latched
    | with_reducible apply State.write_latched
    | fail_if_no_progress (with_reducible apply Latched.mk; (try dsimp only); with_reducible apply Latched.parts)
    | split
    | dsimp only
    | assumption

theorem doLcChal_latched {s0 : State} (seat : Fin 8) (s : State) (h_s : Latched s0 s) : Latched s0 (doLcChal seat s) := by
  unfold doLcChal
  repeat' first
    | with_reducible assumption
    | with_reducible apply Latched.ite
    | with_reducible apply State.ans_latched
    | with_reducible apply State.randNat_latched
    | with_reducible apply State.reply_latched
    | fail_if_no_progress (with_reducible apply Latched.mk; (try dsimp only); with_reducible apply Latched.parts)
    | split
    | dsimp only
    | assumption

theorem doKeyPut_latched {s0 : State} (seat : Fin 8) (bytes : List Byte) (s : State) (h_s : Latched s0 s) : Latched s0 (doKeyPut seat bytes s) := by
  unfold doKeyPut
  repeat' first
    | with_reducible assumption
    | intro _
    | with_reducible apply State.keyPend_latched
    | with_reducible apply State.keyPut_latched
    | with_reducible apply State.persist_latched
    | with_reducible apply State.write_latched
    | fail_if_no_progress (with_reducible apply Latched.mk; (try dsimp only); with_reducible apply Latched.parts)
    | split
    | dsimp only
    | assumption

theorem doKeyErase_latched {s0 : State} (seat : Fin 8) (slot : Nat) (s : State) (h_s : Latched s0 s) : Latched s0 (doKeyErase seat slot s) := by
  unfold doKeyErase
  repeat' first
    | with_reducible assumption
    | intro _
    | with_reducible apply State.keyPend_latched
    | with_reducible apply State.persist_latched
    | with_reducible apply State.write_latched
    | dsimp only
    | assumption

theorem State.keyCommit_latched {s0 : State} (s : State) (slot typ : Nat) (key : List Byte) (h_s : Latched s0 s) : Latched s0 (State.keyCommit s slot typ key) := by
  unfold State.keyCommit
  repeat' first
    | with_reducible assumption
    | with_reducible apply Latched.ite
    | with_reducible apply State.keyPend_latched
    | with_reducible apply State.keyPut_latched
    | with_reducible apply State.newEra_latched
    | split
    | dsimp only
    | assumption

theorem doEraRecordWrite_latched {s0 : State} (ok : Bool) (s : State) (h_s : Latched s0 s) : Latched s0 (doEraRecordWrite ok s) := by
  unfold doEraRecordWrite
  repeat' first
    | with_reducible assumption
    | with_reducible apply Latched.ite
    | fail_if_no_progress (with_reducible apply Latched.mk; (try dsimp only); with_reducible apply Latched.parts)
    | split
    | dsimp only
    | assumption

theorem doTamper_latched {s0 : State} (i : Fin 4) (s : State) (h_s : Latched s0 s) : Latched s0 (doTamper i s) := by
  unfold doTamper
  repeat' first
    | with_reducible assumption
    | with_reducible apply Latched.ite
    | with_reducible apply State.latchStanding_latched
    | fail_if_no_progress (with_reducible apply Latched.mk; (try dsimp only); with_reducible apply Latched.parts)
    | split
    | dsimp only
    | assumption

theorem doTamperRelease_latched {s0 : State} (i : Fin 4) (s : State) (h_s : Latched s0 s) : Latched s0 (doTamperRelease i s) := by
  unfold doTamperRelease
  repeat' first
    | with_reducible assumption
    | with_reducible apply Latched.ite
    | with_reducible apply State.causeOff_latched
    | fail_if_no_progress (with_reducible apply Latched.mk; (try dsimp only); with_reducible apply Latched.parts)
    | split
    | dsimp only
    | assumption

theorem doVbatBrownOut_latched {s0 : State} (s : State) (h_s : Latched s0 s) : Latched s0 (doVbatBrownOut s) := by
  unfold doVbatBrownOut
  repeat' first
    | with_reducible assumption
    | with_reducible apply Latched.ite
    | fail_if_no_progress (with_reducible apply Latched.mk; (try dsimp only); with_reducible apply Latched.parts)
    | split
    | dsimp only
    | assumption

end Sys2Proof.Machine
end

