-- ==== Sys2Proof/Laws/LatchedFaultRows.lean ====
section
/-! SUPPORT. The operations of Machine/FaultRows.lean clear no latched fault bit and set no reserved one. -/

set_option linter.unusedTactic false
set_option linter.unreachableTactic false
set_option linter.unusedVariables false

namespace Sys2Proof.Machine

theorem State.memStop_latched {s0 : State} (s : State) (b : Nat) (h_s : Latched s0 s) : Latched s0 (State.memStop s b) := by
  unfold State.memStop
  repeat' first
    | with_reducible assumption
    | with_reducible apply Latched.ite
    | with_reducible apply State.jrnStop_latched
    | split
    | dsimp only
    | assumption

theorem State.ringFail_latched {s0 : State} (s : State) (d : Die) (h_s : Latched s0 s) : Latched s0 (State.ringFail s d) := by
  unfold State.ringFail
  repeat' first
    | with_reducible assumption
    | intro _
    | with_reducible apply State.free_latched
    | with_reducible apply State.latch_latched
    | with_reducible apply State.ringFix_latched
    | fail_if_no_progress (with_reducible apply Latched.mk; (try dsimp only); with_reducible apply Latched.parts)
    | split
    | dsimp only
    | assumption

theorem doFaultLatch_latched {s0 : State} (bit : Fin 64) (s : State) (h_s : Latched s0 s) : Latched s0 (doFaultLatch bit s) := by
  unfold doFaultLatch
  repeat' first
    | with_reducible assumption
    | intro _
    | with_reducible apply Latched.ite
    | with_reducible apply State.causeOn_latched
    | with_reducible apply State.crcHalt_latched
    | with_reducible apply State.crcRest_latched
    | with_reducible apply State.fCause_latched
    | with_reducible apply State.latch_latched
    | with_reducible apply State.latchReset_latched
    | with_reducible apply State.memStop_latched
    | with_reducible apply State.ringFail_latched
    | with_reducible apply State.stitchReset_latched
    | with_reducible apply State.updDie_latched
    | exact fun _ h => h
    | fail_if_no_progress (with_reducible apply Latched.mk; (try dsimp only); with_reducible apply Latched.parts)
    | split
    | dsimp only
    | assumption

theorem State.relatch_latched {s0 : State} (s : State) (b : Nat) (h_s : Latched s0 s) : Latched s0 (State.relatch s b) := by
  unfold State.relatch
  repeat' first
    | with_reducible assumption
    | with_reducible apply State.bump_latched
    | with_reducible apply State.event2_latched
    | dsimp only
    | assumption

theorem State.clearSec_latched {s0 : State} (s : State) (b : Nat) (h_s : Latched s0 s) : Latched s0 (State.clearSec s b) := by
  unfold State.clearSec
  repeat' first
    | with_reducible assumption
    | with_reducible apply Latched.ite
    | with_reducible apply State.relatch_latched
    | fail_if_no_progress (with_reducible apply Latched.mk; (try dsimp only); with_reducible apply Latched.parts)
    | split
    | dsimp only
    | assumption

theorem doFswSecClr_latched {s0 : State} (seat : Fin 8) (mask : Nat) (s : State) (h_s : Latched s0 s) : Latched s0 (doFswSecClr seat mask s) := by
  unfold doFswSecClr
  repeat' first
    | with_reducible assumption
    | intro _
    | with_reducible apply State.clearSec_latched
    | with_reducible apply State.write_latched
    | with_reducible apply Latched.foldl
    | dsimp only
    | assumption

theorem doShadowEnd_latched {s0 : State} (blk : Blk) (s : State) (h_s : Latched s0 s) : Latched s0 (doShadowEnd blk s) := by
  unfold doShadowEnd
  repeat' first
    | with_reducible assumption
    | intro _
    | with_reducible apply State.latch_latched
    | with_reducible apply Latched.foldl
    | fail_if_no_progress (with_reducible apply Latched.mk; (try dsimp only); with_reducible apply Latched.parts)
    | split
    | dsimp only
    | assumption

theorem State.fldClocks_latched {s0 : State} (s : State) (h_s : Latched s0 s) : Latched s0 (State.fldClocks s) := by
  unfold State.fldClocks
  repeat' first
    | with_reducible assumption
    | with_reducible apply Latched.ite
    | with_reducible apply State.causeOff_latched
    | with_reducible apply State.updDie_latched
    | fail_if_no_progress (with_reducible apply Latched.mk; (try dsimp only); with_reducible apply Latched.parts)
    | split
    | dsimp only
    | assumption

theorem doBlockResetComplete_latched {s0 : State} (blk : Blk) (s : State) (h_s : Latched s0 s) : Latched s0 (doBlockResetComplete blk s) := by
  unfold doBlockResetComplete
  repeat' first
    | with_reducible assumption
    | intro _
    | with_reducible apply Latched.ite
    | with_reducible apply State.causeOff_latched
    | with_reducible apply State.fldClocks_latched
    | with_reducible apply State.updDie_latched
    | fail_if_no_progress (with_reducible apply Latched.mk; (try dsimp only); (try simp only [Faults.takeLocks_f1, Faults.takeLocks_f2, Faults.takeNow_f1, Faults.takeNow_f2, Faults.girthOff_f1, Faults.girthOff_f2, Faults.openShadow_f1, Faults.openShadow_f2, Faults.addC2_f1, Faults.addC2_f2, Faults.setRd_f1, Faults.setRd_f2, Faults.shadowDone_f1, Faults.shadowDone_f2]); with_reducible apply Latched.parts)
    | split
    | dsimp only
    | assumption

theorem doLeaseRequest_latched {s0 : State} (res party : Nat) (s : State) (h_s : Latched s0 s) : Latched s0 (doLeaseRequest res party s) := by
  unfold doLeaseRequest
  repeat' first
    | with_reducible assumption
    | with_reducible apply Latched.ite
    | with_reducible apply State.leaseAsk_latched
    | split
    | dsimp only
    | assumption

theorem doLeaseRenew_latched {s0 : State} (res party : Nat) (s : State) (h_s : Latched s0 s) : Latched s0 (doLeaseRenew res party s) := by
  unfold doLeaseRenew
  repeat' first
    | with_reducible assumption
    | with_reducible apply Latched.ite
    | with_reducible apply State.setLease_latched
    | fail_if_no_progress (with_reducible apply Latched.mk; (try dsimp only); with_reducible apply Latched.parts)
    | split
    | dsimp only
    | assumption

theorem doLeaseRelease_latched {s0 : State} (res party : Nat) (s : State) (h_s : Latched s0 s) : Latched s0 (doLeaseRelease res party s) := by
  unfold doLeaseRelease
  repeat' first
    | with_reducible assumption
    | with_reducible apply Latched.ite
    | with_reducible apply State.leaseAsk_latched
    | with_reducible apply State.leaseEnd_latched
    | with_reducible apply State.leaseStart_latched
    | with_reducible apply State.otpNext_latched
    | split
    | dsimp only
    | assumption

theorem doLeaseExpire_latched {s0 : State} (res : Nat) (s : State) (h_s : Latched s0 s) : Latched s0 (doLeaseExpire res s) := by
  unfold doLeaseExpire
  repeat' first
    | with_reducible assumption
    | with_reducible apply Latched.ite
    | with_reducible apply State.ans_latched
    | with_reducible apply State.free_latched
    | with_reducible apply State.latch_latched
    | with_reducible apply State.leaseReset_latched
    | with_reducible apply State.leaseStart_latched
    | with_reducible apply State.otpNext_latched
    | with_reducible apply State.setLease_latched
    | fail_if_no_progress (with_reducible apply Latched.mk; (try dsimp only); with_reducible apply Latched.parts)
    | split
    | dsimp only
    | assumption

theorem State.readmFail_latched {s0 : State} (s : State) (d : Die) (h_s : Latched s0 s) : Latched s0 (State.readmFail s d) := by
  unfold State.readmFail
  repeat' first
    | with_reducible assumption
    | intro _
    | with_reducible apply State.bump_latched
    | with_reducible apply State.setDie_latched
    | with_reducible apply State.setDieSt_latched
    | fail_if_no_progress (with_reducible apply Latched.mk; (try dsimp only); (try simp only [Faults.takeLocks_f1, Faults.takeLocks_f2, Faults.takeNow_f1, Faults.takeNow_f2, Faults.girthOff_f1, Faults.girthOff_f2, Faults.openShadow_f1, Faults.openShadow_f2, Faults.addC2_f1, Faults.addC2_f2, Faults.setRd_f1, Faults.setRd_f2, Faults.shadowDone_f1, Faults.shadowDone_f2]); with_reducible apply Latched.parts)
    | dsimp only
    | assumption

theorem doReadmitPowerRestore_latched {s0 : State} (d : Die) (s : State) (h_s : Latched s0 s) : Latched s0 (doReadmitPowerRestore d s) := by
  unfold doReadmitPowerRestore
  repeat' first
    | with_reducible assumption
    | with_reducible apply Latched.ite
    | with_reducible apply State.setDieSt_latched
    | fail_if_no_progress (with_reducible apply Latched.mk; (try dsimp only); (try simp only [Faults.takeLocks_f1, Faults.takeLocks_f2, Faults.takeNow_f1, Faults.takeNow_f2, Faults.girthOff_f1, Faults.girthOff_f2, Faults.openShadow_f1, Faults.openShadow_f2, Faults.addC2_f1, Faults.addC2_f2, Faults.setRd_f1, Faults.setRd_f2, Faults.shadowDone_f1, Faults.shadowDone_f2]); with_reducible apply Latched.parts)
    | split
    | dsimp only
    | assumption

theorem doReadmitBootDone_latched {s0 : State} (d : Die) (ok : Bool) (s : State) (h_s : Latched s0 s) : Latched s0 (doReadmitBootDone d ok s) := by
  unfold doReadmitBootDone
  repeat' first
    | with_reducible assumption
    | intro _
    | with_reducible apply Latched.ite
    | with_reducible apply State.readmFail_latched
    | with_reducible apply State.updDie_latched
    | fail_if_no_progress (with_reducible apply Latched.mk; (try dsimp only); (try simp only [Faults.takeLocks_f1, Faults.takeLocks_f2, Faults.takeNow_f1, Faults.takeNow_f2, Faults.girthOff_f1, Faults.girthOff_f2, Faults.openShadow_f1, Faults.openShadow_f2, Faults.addC2_f1, Faults.addC2_f2, Faults.setRd_f1, Faults.setRd_f2, Faults.shadowDone_f1, Faults.shadowDone_f2]); with_reducible apply Latched.parts)
    | split
    | dsimp only
    | assumption

theorem doReadmitTimeout_latched {s0 : State} (d : Die) (s : State) (h_s : Latched s0 s) : Latched s0 (doReadmitTimeout d s) := by
  unfold doReadmitTimeout
  repeat' first
    | with_reducible assumption
    | with_reducible apply Latched.ite
    | with_reducible apply State.readmFail_latched
    | split
    | dsimp only
    | assumption

theorem doStateTransferRx_latched {s0 : State} (d : Die) (h : FlitHdr) (s : State) (h_s : Latched s0 s) : Latched s0 (doStateTransferRx d h s) := by
  unfold doStateTransferRx
  repeat' first
    | with_reducible assumption
    | intro _
    | with_reducible apply Latched.ite
    | with_reducible apply State.flit_latched
    | with_reducible apply State.revert_latched
    | with_reducible apply State.takeState_latched
    | fail_if_no_progress (with_reducible apply Latched.mk; (try dsimp only); (try simp only [Faults.takeLocks_f1, Faults.takeLocks_f2, Faults.takeNow_f1, Faults.takeNow_f2, Faults.girthOff_f1, Faults.girthOff_f2, Faults.openShadow_f1, Faults.openShadow_f2, Faults.addC2_f1, Faults.addC2_f2, Faults.setRd_f1, Faults.setRd_f2, Faults.shadowDone_f1, Faults.shadowDone_f2]); with_reducible apply Latched.parts)
    | split
    | dsimp only
    | assumption

theorem doMdieReadmit_latched {s0 : State} (s : State) (h_s : Latched s0 s) : Latched s0 (doMdieReadmit s) := by
  unfold doMdieReadmit
  repeat' first
    | with_reducible assumption
    | with_reducible apply Latched.ite
    | with_reducible apply State.bump_latched
    | with_reducible apply State.setDieSt_latched
    | with_reducible apply State.setReg_latched
    | with_reducible apply State.updDie_latched
    | fail_if_no_progress (with_reducible apply Latched.mk; (try dsimp only); (try simp only [Faults.takeLocks_f1, Faults.takeLocks_f2, Faults.takeNow_f1, Faults.takeNow_f2, Faults.girthOff_f1, Faults.girthOff_f2, Faults.openShadow_f1, Faults.openShadow_f2, Faults.addC2_f1, Faults.addC2_f2, Faults.setRd_f1, Faults.setRd_f2, Faults.shadowDone_f1, Faults.shadowDone_f2]); with_reducible apply Latched.parts)
    | split
    | dsimp only
    | assumption

theorem State.girthError_latched {s0 : State} (s : State) (d : Die) (h_s : Latched s0 s) : Latched s0 (State.girthError s d) := by
  unfold State.girthError
  repeat' first
    | with_reducible assumption
    | with_reducible apply State.bump_latched
    | with_reducible apply State.latch_latched
    | with_reducible apply State.setReg_latched
    | fail_if_no_progress (with_reducible apply Latched.mk; (try dsimp only); with_reducible apply Latched.parts)
    | dsimp only
    | assumption

theorem doGirthHeartbeatTimeout_latched {s0 : State} (d : Die) (s : State) (h_s : Latched s0 s) : Latched s0 (doGirthHeartbeatTimeout d s) := by
  unfold doGirthHeartbeatTimeout
  repeat' first
    | with_reducible assumption
    | with_reducible apply Latched.ite
    | with_reducible apply State.girthError_latched
    | split
    | dsimp only
    | assumption

theorem doGirthChallenge_latched {s0 : State} (word : Nat) (s : State) (h_s : Latched s0 s) : Latched s0 (doGirthChallenge word s) := by
  unfold doGirthChallenge
  repeat' first
    | with_reducible assumption
    | with_reducible apply Latched.ite
    | fail_if_no_progress (with_reducible apply Latched.mk; (try dsimp only); with_reducible apply Latched.parts)
    | split
    | dsimp only
    | assumption

theorem doGirthResponseRx_latched {s0 : State} (d : Die) (v : Nat) (s : State) (h_s : Latched s0 s) : Latched s0 (doGirthResponseRx d v s) := by
  unfold doGirthResponseRx
  repeat' first
    | with_reducible assumption
    | with_reducible apply Latched.ite
    | with_reducible apply State.girthError_latched
    | fail_if_no_progress (with_reducible apply Latched.mk; (try dsimp only); (try simp only [Faults.takeLocks_f1, Faults.takeLocks_f2, Faults.takeNow_f1, Faults.takeNow_f2, Faults.girthOff_f1, Faults.girthOff_f2, Faults.openShadow_f1, Faults.openShadow_f2, Faults.addC2_f1, Faults.addC2_f2, Faults.setRd_f1, Faults.setRd_f2, Faults.shadowDone_f1, Faults.shadowDone_f2]); with_reducible apply Latched.parts)
    | split
    | dsimp only
    | assumption

theorem doGirthResponseTimeout_latched {s0 : State} (d : Die) (s : State) (h_s : Latched s0 s) : Latched s0 (doGirthResponseTimeout d s) := by
  unfold doGirthResponseTimeout
  repeat' first
    | with_reducible assumption
    | with_reducible apply Latched.ite
    | with_reducible apply State.girthError_latched
    | fail_if_no_progress (with_reducible apply Latched.mk; (try dsimp only); (try simp only [Faults.takeLocks_f1, Faults.takeLocks_f2, Faults.takeNow_f1, Faults.takeNow_f2, Faults.girthOff_f1, Faults.girthOff_f2, Faults.openShadow_f1, Faults.openShadow_f2, Faults.addC2_f1, Faults.addC2_f2, Faults.setRd_f1, Faults.setRd_f2, Faults.shadowDone_f1, Faults.shadowDone_f2]); with_reducible apply Latched.parts)
    | split
    | dsimp only
    | assumption

theorem doZoneRrst_latched {s0 : State} (seat : Fin 8) (z : Fin 64) (v : Nat) (s : State) (h_s : Latched s0 s) : Latched s0 (doZoneRrst seat z v s) := by
  unfold doZoneRrst
  repeat' first
    | with_reducible assumption
    | intro _
    | with_reducible apply Latched.ite
    | with_reducible apply State.setReg_latched
    | with_reducible apply State.write_latched
    | fail_if_no_progress (with_reducible apply Latched.mk; (try dsimp only); with_reducible apply Latched.parts)
    | split
    | dsimp only
    | assumption

theorem doStdinVal_latched {s0 : State} (seat : Fin 8) (slot : Fin 256) (v : Nat) (s : State) (h_s : Latched s0 s) : Latched s0 (doStdinVal seat slot v s) := by
  unfold doStdinVal
  repeat' first
    | with_reducible assumption
    | intro _
    | with_reducible apply State.write_latched
    | fail_if_no_progress (with_reducible apply Latched.mk; (try dsimp only); with_reducible apply Latched.parts)
    | split
    | dsimp only
    | assumption

end Sys2Proof.Machine
end

