-- ==== Sys2Proof/Laws/LatchedPatRows.lean ====
section
/-! SUPPORT. The operations of Machine/PatRows.lean clear no latched fault bit and set no reserved one. -/

set_option linter.unusedTactic false
set_option linter.unreachableTactic false
set_option linter.unusedVariables false

namespace Sys2Proof.Machine

theorem State.dropCand_latched {s0 : State} (s : State) (h_s : Latched s0 s) : Latched s0 (State.dropCand s) := by
  unfold State.dropCand
  repeat' first
    | with_reducible assumption
    | fail_if_no_progress (with_reducible apply Latched.mk; (try dsimp only); with_reducible apply Latched.parts)
    | dsimp only
    | assumption

theorem doPatImage_latched {s0 : State} (seat : Fin 8) (ofs : Nat) (data : List Byte) (s : State) (h_s : Latched s0 s) : Latched s0 (doPatImage seat ofs data s) := by
  unfold doPatImage
  repeat' first
    | with_reducible assumption
    | intro _
    | with_reducible apply Latched.ite
    | with_reducible apply State.ans_latched
    | with_reducible apply State.write_latched
    | fail_if_no_progress (with_reducible apply Latched.mk; (try dsimp only); with_reducible apply Latched.parts)
    | split
    | dsimp only
    | assumption

theorem doLoad_latched {s0 : State} (seat : Fin 8) (s : State) (h_s : Latched s0 s) : Latched s0 (doLoad seat s) := by
  unfold doLoad
  repeat' first
    | with_reducible assumption
    | intro _
    | with_reducible apply State.dropCand_latched
    | with_reducible apply State.write_latched
    | fail_if_no_progress (with_reducible apply Latched.mk; (try dsimp only); with_reducible apply Latched.parts)
    | dsimp only
    | assumption

theorem doDiscard_latched {s0 : State} (seat : Fin 8) (s : State) (h_s : Latched s0 s) : Latched s0 (doDiscard seat s) := by
  unfold doDiscard
  repeat' first
    | with_reducible assumption
    | intro _
    | with_reducible apply State.dropCand_latched
    | with_reducible apply State.write_latched
    | fail_if_no_progress (with_reducible apply Latched.mk; (try dsimp only); with_reducible apply Latched.parts)
    | dsimp only
    | assumption

theorem State.takeCand_latched {s0 : State} (s : State) (p : Pattern) (h_s : Latched s0 s) : Latched s0 (State.takeCand s p) := by
  unfold State.takeCand
  repeat' first
    | with_reducible assumption
    | with_reducible apply State.causeOff_latched
    | with_reducible apply State.ringsFor_latched
    | fail_if_no_progress (with_reducible apply Latched.mk; (try dsimp only); with_reducible apply Latched.parts)
    | dsimp only
    | assumption

theorem State.failCand_latched {s0 : State} (s : State) (e : Nat) (h_s : Latched s0 s) : Latched s0 (State.failCand s e) := by
  unfold State.failCand
  repeat' first
    | with_reducible assumption
    | fail_if_no_progress (with_reducible apply Latched.mk; (try dsimp only); with_reducible apply Latched.parts)
    | dsimp only
    | assumption

theorem doPatternCheckDone_latched {s0 : State} (s : State) (h_s : Latched s0 s) : Latched s0 (doPatternCheckDone s) := by
  unfold doPatternCheckDone
  repeat' first
    | with_reducible assumption
    | with_reducible apply Latched.ite
    | with_reducible apply State.failCand_latched
    | with_reducible apply State.free_latched
    | with_reducible apply State.takeCand_latched
    | split
    | dsimp only
    | assumption

theorem State.confirmFail_latched {s0 : State} (s : State) (h_s : Latched s0 s) : Latched s0 (State.confirmFail s) := by
  unfold State.confirmFail
  repeat' first
    | with_reducible assumption
    | with_reducible apply Latched.ite
    | with_reducible apply State.ans_latched
    | with_reducible apply State.bump_latched
    | fail_if_no_progress (with_reducible apply Latched.mk; (try dsimp only); with_reducible apply Latched.parts)
    | split
    | dsimp only
    | assumption

theorem doConfirm_latched {s0 : State} (seat : Fin 8) (bytes : List Byte) (s : State) (h_s : Latched s0 s) : Latched s0 (doConfirm seat bytes s) := by
  unfold doConfirm
  repeat' first
    | with_reducible assumption
    | intro _
    | with_reducible apply Latched.ite
    | with_reducible apply State.confirmFail_latched
    | with_reducible apply State.write_latched
    | fail_if_no_progress (with_reducible apply Latched.mk; (try dsimp only); with_reducible apply Latched.parts)
    | split
    | dsimp only
    | assumption

theorem doChangeLogCommit_latched {s0 : State} (s : State) (h_s : Latched s0 s) : Latched s0 (doChangeLogCommit s) := by
  unfold doChangeLogCommit
  repeat' first
    | with_reducible assumption
    | with_reducible apply Latched.ite
    | with_reducible apply State.logAppend_latched
    | fail_if_no_progress (with_reducible apply Latched.mk; (try dsimp only); with_reducible apply Latched.parts)
    | split
    | dsimp only
    | assumption

end Sys2Proof.Machine
end

