-- ==== Sys2Proof/Laws/LatchedCrcRows.lean ====
section
/-! SUPPORT. The operations of Machine/CrcRows.lean clear no latched fault bit and set no reserved one. -/

set_option linter.unusedTactic false
set_option linter.unreachableTactic false
set_option linter.unusedVariables false

namespace Sys2Proof.Machine

theorem State.refuse_latched {s0 : State} (s : State) (l : List (Bool × Status)) (f : State → State) (h_s : Latched s0 s) (k_f : ∀ t, Latched s0 t → Latched s0 (f t)) : Latched s0 (State.refuse s l f) := by
  unfold State.refuse
  repeat' first
    | with_reducible assumption
    | intro _
    | with_reducible apply Latched.ite
    | with_reducible apply State.ans_latched
    | with_reducible apply k_f
    | fail_if_no_progress (with_reducible apply Latched.mk; (try dsimp only); with_reducible apply Latched.parts)
    | split
    | dsimp only
    | assumption

theorem doCrcDescriptorDone_latched {s0 : State} (d : Die) (c : Fin 8) (s : State) (h_s : Latched s0 s) : Latched s0 (doCrcDescriptorDone d c s) := by
  unfold doCrcDescriptorDone
  repeat' first
    | with_reducible assumption
    | with_reducible apply Latched.ite
    | with_reducible apply State.crcFeedDesc_latched
    | with_reducible apply State.crcNext_latched
    | with_reducible apply State.crcRest_latched
    | fail_if_no_progress (with_reducible apply Latched.mk; (try dsimp only); with_reducible apply Latched.parts)
    | split
    | dsimp only
    | assumption

theorem State.crcStart_latched {s0 : State} (s : State) (k : Nat) (h_s : Latched s0 s) : Latched s0 (State.crcStart s k) := by
  unfold State.crcStart
  repeat' first
    | with_reducible assumption
    | intro _
    | with_reducible apply Latched.ite
    | with_reducible apply State.crcNext_latched
    | with_reducible apply State.setReg_latched
    | fail_if_no_progress (with_reducible apply Latched.mk; (try dsimp only); with_reducible apply Latched.parts)
    | split
    | dsimp only
    | assumption

theorem doCrcEnable_latched {s0 : State} (seat : Fin 8) (d : Die) (c : Fin 8) (s : State) (h_s : Latched s0 s) : Latched s0 (doCrcEnable seat d c s) := by
  unfold doCrcEnable
  repeat' first
    | with_reducible assumption
    | intro _
    | with_reducible apply State.crcStart_latched
    | with_reducible apply State.refuse_latched
    | dsimp only
    | assumption

theorem doCrcAbort_latched {s0 : State} (seat : Fin 8) (d : Die) (c : Fin 8) (s : State) (h_s : Latched s0 s) : Latched s0 (doCrcAbort seat d c s) := by
  unfold doCrcAbort
  repeat' first
    | with_reducible assumption
    | intro _
    | with_reducible apply Latched.ite
    | with_reducible apply State.crcHalt_latched
    | with_reducible apply State.crcRest_latched
    | with_reducible apply State.refuse_latched
    | split
    | dsimp only
    | assumption

theorem State.loadPreset_latched {s0 : State} (s : State) (k v : Nat) (p : CrcPar) (h_s : Latched s0 s) : Latched s0 (State.loadPreset s k v p) := by
  unfold State.loadPreset
  repeat' first
    | with_reducible assumption
    | with_reducible apply State.setReg_latched
    | dsimp only
    | assumption

theorem doCrcPreset_latched {s0 : State} (seat : Fin 8) (d : Die) (c : Fin 8) (v : Nat) (s : State) (h_s : Latched s0 s) : Latched s0 (doCrcPreset seat d c v s) := by
  unfold doCrcPreset
  repeat' first
    | with_reducible assumption
    | intro _
    | with_reducible apply State.loadPreset_latched
    | with_reducible apply State.refuse_latched
    | fail_if_no_progress (with_reducible apply Latched.mk; (try dsimp only); with_reducible apply Latched.parts)
    | split
    | dsimp only
    | assumption

theorem doCrcParameterWrite_latched {s0 : State} (seat : Fin 8) (d : Die) (c : Fin 8) (sub v : Nat) (s : State) (h_s : Latched s0 s) : Latched s0 (doCrcParameterWrite seat d c sub v s) := by
  unfold doCrcParameterWrite
  repeat' first
    | with_reducible assumption
    | intro _
    | with_reducible apply Latched.ite
    | with_reducible apply State.refuse_latched
    | with_reducible apply State.setReg_latched
    | fail_if_no_progress (with_reducible apply Latched.mk; (try dsimp only); with_reducible apply Latched.parts)
    | split
    | dsimp only
    | assumption

theorem doTimerMatch_latched {s0 : State} (d : Die) (t : Fin 8) (s : State) (h_s : Latched s0 s) : Latched s0 (doTimerMatch d t s) := by
  unfold doTimerMatch
  repeat' first
    | with_reducible assumption
    | with_reducible apply Latched.ite
    | with_reducible apply State.putTimer_latched
    | split
    | dsimp only
    | assumption

theorem doTimerReload_latched {s0 : State} (d : Die) (t : Fin 8) (s : State) (h_s : Latched s0 s) : Latched s0 (doTimerReload d t s) := by
  unfold doTimerReload
  repeat' first
    | with_reducible assumption
    | with_reducible apply Latched.ite
    | with_reducible apply State.putTimer_latched
    | split
    | dsimp only
    | assumption

theorem doTmrCtrl_latched {s0 : State} (seat : Fin 8) (d : Die) (t : Fin 8) (v : Nat) (s : State) (h_s : Latched s0 s) : Latched s0 (doTmrCtrl seat d t v s) := by
  unfold doTmrCtrl
  repeat' first
    | with_reducible assumption
    | intro _
    | with_reducible apply Latched.ite
    | with_reducible apply State.refuse_latched
    | with_reducible apply State.setTimer_latched
    | fail_if_no_progress (with_reducible apply Latched.mk; (try dsimp only); with_reducible apply Latched.parts)
    | split
    | dsimp only
    | assumption

theorem doTmrCmp_latched {s0 : State} (seat : Fin 8) (d : Die) (t : Fin 8) (v : Nat) (s : State) (h_s : Latched s0 s) : Latched s0 (doTmrCmp seat d t v s) := by
  unfold doTmrCmp
  repeat' first
    | with_reducible assumption
    | intro _
    | with_reducible apply State.putTimer_latched
    | with_reducible apply State.refuse_latched
    | dsimp only
    | assumption

theorem doTmrCmpNext_latched {s0 : State} (seat : Fin 8) (d : Die) (t : Fin 8) (v : Nat) (s : State) (h_s : Latched s0 s) : Latched s0 (doTmrCmpNext seat d t v s) := by
  unfold doTmrCmpNext
  repeat' first
    | with_reducible assumption
    | intro _
    | with_reducible apply State.refuse_latched
    | with_reducible apply State.setTimer_latched
    | fail_if_no_progress (with_reducible apply Latched.mk; (try dsimp only); with_reducible apply Latched.parts)
    | dsimp only
    | assumption

theorem doTmrCount_latched {s0 : State} (seat : Fin 8) (d : Die) (t : Fin 8) (v : Nat) (s : State) (h_s : Latched s0 s) : Latched s0 (doTmrCount seat d t v s) := by
  unfold doTmrCount
  repeat' first
    | with_reducible assumption
    | intro _
    | with_reducible apply State.refuse_latched
    | with_reducible apply State.setTimer_latched
    | fail_if_no_progress (with_reducible apply Latched.mk; (try dsimp only); with_reducible apply Latched.parts)
    | dsimp only
    | assumption

end Sys2Proof.Machine
end

