-- ==== Sys2Proof/Laws/LatchedRingRows.lean ====
section
/-! SUPPORT. The operations of Machine/RingRows.lean clear no latched fault bit and set no reserved one. -/

set_option linter.unusedTactic false
set_option linter.unreachableTactic false
set_option linter.unusedVariables false

namespace Sys2Proof.Machine

theorem State.freeBytes_latched {s0 : State} (s : State) (k : Nat) (h_s : Latched s0 s) : Latched s0 (State.freeBytes s k).2 := by
  unfold State.freeBytes
  repeat' first
    | with_reducible assumption
    | with_reducible apply State.free_latched
    | dsimp only
    | assumption

theorem State.readEntries_latched {s0 : State} (s : State) (n : Nat) (cs : List Nat) (h_s : Latched s0 s) : Latched s0 (State.readEntries s n cs) := by
  unfold State.readEntries
  repeat' first
    | with_reducible assumption
    | intro _
    | with_reducible apply Latched.ite
    | with_reducible apply State.freeBytes_latched
    | with_reducible apply State.reply_latched
    | with_reducible apply Latched.foldl
    | with_reducible apply Latched.foldlSnd
    | split
    | dsimp only
    | assumption

theorem doRingRead_latched {s0 : State} (seat : Fin 8) (ofs count : Nat) (s : State) (h_s : Latched s0 s) : Latched s0 (doRingRead seat ofs count s) := by
  unfold doRingRead
  repeat' first
    | with_reducible assumption
    | intro _
    | with_reducible apply State.readEntries_latched
    | with_reducible apply State.refuse_latched
    | with_reducible apply State.ringFix_latched
    | dsimp only
    | assumption

theorem State.pushAll_latched {s0 : State} (s : State) (n : Nat) (es : List (List Byte)) (h_s : Latched s0 s) : Latched s0 (State.pushAll s n es) := by
  unfold State.pushAll
  repeat' first
    | with_reducible assumption
    | intro _
    | with_reducible apply State.crcKick_latched
    | with_reducible apply State.crcTouchHead_latched
    | with_reducible apply Latched.foldl
    | fail_if_no_progress (with_reducible apply Latched.mk; (try dsimp only); with_reducible apply Latched.parts)
    | dsimp only
    | assumption

theorem State.pushed_latched {s0 : State} (s : State) (seat n : Nat) (h_s : Latched s0 s) : Latched s0 (State.pushed s seat n) := by
  unfold State.pushed
  repeat' first
    | with_reducible assumption
    | with_reducible apply Latched.ite
    | fail_if_no_progress (with_reducible apply Latched.mk; (try dsimp only); with_reducible apply Latched.parts)
    | split
    | dsimp only
    | assumption

theorem doRingPush_latched {s0 : State} (seat : Fin 8) (data : List Byte) (s : State) (h_s : Latched s0 s) : Latched s0 (doRingPush seat data s) := by
  unfold doRingPush
  repeat' first
    | with_reducible assumption
    | intro _
    | with_reducible apply State.pushAll_latched
    | with_reducible apply State.pushed_latched
    | with_reducible apply State.refuse_latched
    | with_reducible apply State.ringFix_latched
    | dsimp only
    | assumption

theorem doRingConsume_latched {s0 : State} (seat : Fin 8) (k : Nat) (s : State) (h_s : Latched s0 s) : Latched s0 (doRingConsume seat k s) := by
  unfold doRingConsume
  repeat' first
    | with_reducible assumption
    | intro _
    | with_reducible apply State.refuse_latched
    | with_reducible apply State.ringFix_latched
    | fail_if_no_progress (with_reducible apply Latched.mk; (try dsimp only); with_reducible apply Latched.parts)
    | dsimp only
    | assumption

theorem doFree_latched {s0 : State} (seat : Fin 8) (s : State) (h_s : Latched s0 s) : Latched s0 (doFree seat s) := by
  unfold doFree
  repeat' first
    | with_reducible assumption
    | intro _
    | with_reducible apply State.free_latched
    | with_reducible apply State.refuse_latched
    | with_reducible apply State.ringFix_latched
    | fail_if_no_progress (with_reducible apply Latched.mk; (try dsimp only); with_reducible apply Latched.parts)
    | dsimp only
    | assumption

theorem doReset_latched {s0 : State} (seat : Fin 8) (s : State) (h_s : Latched s0 s) : Latched s0 (doReset seat s) := by
  unfold doReset
  repeat' first
    | with_reducible assumption
    | intro _
    | with_reducible apply State.refuse_latched
    | with_reducible apply State.ringFix_latched
    | fail_if_no_progress (with_reducible apply Latched.mk; (try dsimp only); with_reducible apply Latched.parts)
    | dsimp only
    | assumption

theorem doRingAlloc_latched {s0 : State} (d : Die) (seat : Fin 8) (v : Nat) (s : State) (h_s : Latched s0 s) : Latched s0 (doRingAlloc d seat v s) := by
  unfold doRingAlloc
  repeat' first
    | with_reducible assumption
    | intro _
    | with_reducible apply State.refuse_latched
    | with_reducible apply State.updSeat_latched
    | fail_if_no_progress (with_reducible apply Latched.mk; (try dsimp only); with_reducible apply Latched.parts)
    | split
    | dsimp only
    | assumption

theorem doJrnDataRead_latched {s0 : State} (d : Die) (seat : Fin 8) (ofs count : Nat) (s : State) (h_s : Latched s0 s) : Latched s0 (doJrnDataRead d seat ofs count s) := by
  unfold doJrnDataRead
  repeat' first
    | with_reducible assumption
    | intro _
    | with_reducible apply State.refuse_latched
    | with_reducible apply State.reply_latched
    | dsimp only
    | assumption

theorem State.jrnSync_latched {s0 : State} (d : Die) (p : Pattern) (s : State) (v : Var) (h_s : Latched s0 s) : Latched s0 (State.jrnSync d p s v) := by
  unfold State.jrnSync
  repeat' first
    | with_reducible assumption
    | intro _
    | with_reducible apply Latched.ite
    | with_reducible apply State.jrnRec_latched
    | with_reducible apply State.updDie_latched
    | exact fun _ h => h
    | fail_if_no_progress (with_reducible apply Latched.mk; (try dsimp only); with_reducible apply Latched.parts)
    | split
    | dsimp only
    | assumption

theorem doJournalResume_latched {s0 : State} (d : Die) (s : State) (h_s : Latched s0 s) : Latched s0 (doJournalResume d s) := by
  unfold doJournalResume
  repeat' first
    | with_reducible assumption
    | intro _
    | with_reducible apply Latched.ite
    | with_reducible apply State.bumpOnce_latched
    | with_reducible apply State.jrnSync_latched
    | with_reducible apply State.setDie_latched
    | with_reducible apply Latched.foldl
    | fail_if_no_progress (with_reducible apply Latched.mk; (try dsimp only); with_reducible apply Latched.parts)
    | split
    | dsimp only
    | assumption

end Sys2Proof.Machine
end

