-- ==== Sys2Proof/Laws/LatchedTestRows.lean ====
section
/-! SUPPORT. The operations of Machine/TestRows.lean clear no latched fault bit and set no reserved one. -/

set_option linter.unusedTactic false
set_option linter.unreachableTactic false
set_option linter.unusedVariables false

namespace Sys2Proof.Machine

theorem State.reqBegin_latched {s0 : State} (s : State) (h_s : Latched s0 s) : Latched s0 (State.reqBegin s) := by
  unfold State.reqBegin
  repeat' first
    | with_reducible assumption
    | intro _
    | fail_if_no_progress (with_reducible apply Latched.mk; (try dsimp only); with_reducible apply Latched.parts)
    | split
    | dsimp only
    | assumption

theorem State.roundEnd_latched {s0 : State} (s : State) (h_s : Latched s0 s) : Latched s0 (State.roundEnd s) := by
  unfold State.roundEnd
  repeat' first
    | with_reducible assumption
    | intro _
    | with_reducible apply Latched.ite
    | with_reducible apply State.bump_latched
    | with_reducible apply State.newRound_latched
    | with_reducible apply State.setReg_latched
    | fail_if_no_progress (with_reducible apply Latched.mk; (try dsimp only); with_reducible apply Latched.parts)
    | split
    | dsimp only
    | assumption

theorem State.itemTested_latched {s0 : State} (s : State) (d : Die) (item : Nat) (h_s : Latched s0 s) : Latched s0 (State.itemTested s d item) := by
  unfold State.itemTested
  repeat' first
    | with_reducible assumption
    | intro _
    | with_reducible apply Latched.ite
    | with_reducible apply State.reqBegin_latched
    | with_reducible apply State.roundEnd_latched
    | fail_if_no_progress (with_reducible apply Latched.mk; (try dsimp only); with_reducible apply Latched.parts)
    | split
    | dsimp only
    | assumption

theorem State.nextSpare_latched {s0 : State} (s : State) (d : Die) (item : Nat) (h_s : Latched s0 s) : Latched s0 (State.nextSpare s d item).2 := by
  unfold State.nextSpare
  repeat' first
    | with_reducible assumption
    | intro _
    | with_reducible apply Latched.ite
    | with_reducible apply State.free_latched
    | fail_if_no_progress (with_reducible apply Latched.mk; (try dsimp only); with_reducible apply Latched.parts)
    | split
    | dsimp only
    | assumption

theorem State.tryRepair_latched {s0 : State} (s : State) (d : Die) (item w : Nat) (h_s : Latched s0 s) : Latched s0 (State.tryRepair s d item w) := by
  unfold State.tryRepair
  repeat' first
    | with_reducible assumption
    | intro _
    | fail_if_no_progress (with_reducible apply Latched.mk; (try dsimp only); with_reducible apply Latched.parts)
    | dsimp only
    | assumption

theorem State.bistCheck_latched {s0 : State} (s : State) (d : Die) (h_s : Latched s0 s) : Latched s0 (State.bistCheck s d) := by
  unfold State.bistCheck
  repeat' first
    | with_reducible assumption
    | intro _
    | with_reducible apply Latched.ite
    | with_reducible apply State.causeOff_latched
    | split
    | dsimp only
    | assumption

theorem State.closeItem_latched {s0 : State} (s : State) (d : Die) (item : Nat) (h_s : Latched s0 s) : Latched s0 (State.closeItem s d item) := by
  unfold State.closeItem
  repeat' first
    | with_reducible assumption
    | intro _
    | with_reducible apply State.bistCheck_latched
    | fail_if_no_progress (with_reducible apply Latched.mk; (try dsimp only); with_reducible apply Latched.parts)
    | dsimp only
    | assumption

theorem State.proven_latched {s0 : State} (s : State) (d : Die) (item w : Nat) (h_s : Latched s0 s) : Latched s0 (State.proven s d item w) := by
  unfold State.proven
  repeat' first
    | with_reducible assumption
    | with_reducible apply Latched.ite
    | with_reducible apply State.closeItem_latched
    | with_reducible apply State.otpWant_latched
    | split
    | dsimp only
    | assumption

theorem State.laneBack_latched {s0 : State} (s : State) (d : Die) (n : Nat) (h_s : Latched s0 s) : Latched s0 (State.laneBack s d n) := by
  unfold State.laneBack
  repeat' first
    | with_reducible assumption
    | intro _
    | with_reducible apply Latched.ite
    | with_reducible apply State.causeOff_latched
    | with_reducible apply State.free_latched
    | with_reducible apply State.updDie_latched
    | fail_if_no_progress (with_reducible apply Latched.mk; (try dsimp only); with_reducible apply Latched.parts)
    | split
    | dsimp only
    | assumption

theorem State.itemPass_latched {s0 : State} (s : State) (d : Die) (item : Nat) (h_s : Latched s0 s) : Latched s0 (State.itemPass s d item) := by
  unfold State.itemPass
  repeat' first
    | with_reducible assumption
    | intro _
    | with_reducible apply Latched.ite
    | with_reducible apply State.closeItem_latched
    | with_reducible apply State.itemTested_latched
    | with_reducible apply State.laneBack_latched
    | with_reducible apply State.proven_latched
    | with_reducible apply State.updF_latched
    | fail_if_no_progress (with_reducible apply Latched.mk; (try dsimp only); with_reducible apply Latched.parts)
    | split
    | dsimp only
    | assumption

theorem State.itemBit_latched {s0 : State} (s : State) (d : Die) (item : Nat) (h_s : Latched s0 s) : Latched s0 (State.itemBit s d item) := by
  unfold State.itemBit
  repeat' first
    | with_reducible assumption
    | with_reducible apply doFaultLatch_latched
    | fail_if_no_progress (with_reducible apply Latched.mk; (try dsimp only); with_reducible apply Latched.parts)
    | split
    | dsimp only
    | assumption

theorem State.failNote_latched {s0 : State} (s : State) (d : Die) (w : Nat) (h_s : Latched s0 s) : Latched s0 (State.failNote s d w) := by
  unfold State.failNote
  repeat' first
    | with_reducible assumption
    | with_reducible apply State.bump_latched
    | with_reducible apply State.latchStanding_latched
    | with_reducible apply State.setReg_latched
    | dsimp only
    | assumption

theorem State.failWait_latched {s0 : State} (s : State) (d : Die) (item : Nat) (h_s : Latched s0 s) : Latched s0 (State.failWait s d item) := by
  unfold State.failWait
  repeat' first
    | with_reducible assumption
    | fail_if_no_progress (with_reducible apply Latched.mk; (try dsimp only); with_reducible apply Latched.parts)
    | dsimp only
    | assumption

theorem State.itemFail_latched {s0 : State} (s : State) (d : Die) (item : Nat) (h_s : Latched s0 s) : Latched s0 (State.itemFail s d item) := by
  unfold State.itemFail
  repeat' first
    | with_reducible assumption
    | intro _
    | with_reducible apply Latched.ite
    | with_reducible apply State.bump_latched
    | with_reducible apply State.failNote_latched
    | with_reducible apply State.free_latched
    | with_reducible apply State.itemBit_latched
    | with_reducible apply State.itemTested_latched
    | with_reducible apply State.nextSpare_latched
    | with_reducible apply State.proven_latched
    | with_reducible apply State.tryRepair_latched
    | with_reducible apply State.updDie_latched
    | with_reducible apply State.updF_latched
    | fail_if_no_progress (with_reducible apply Latched.mk; (try dsimp only); with_reducible apply Latched.parts)
    | split
    | dsimp only
    | assumption

theorem doGranuleDone_latched {s0 : State} (d : Die) (item : Nat) (pass : Bool) (s : State) (h_s : Latched s0 s) : Latched s0 (doGranuleDone d item pass s) := by
  unfold doGranuleDone
  repeat' first
    | with_reducible assumption
    | with_reducible apply Latched.ite
    | with_reducible apply State.failWait_latched
    | with_reducible apply State.itemFail_latched
    | with_reducible apply State.itemPass_latched
    | fail_if_no_progress (with_reducible apply Latched.mk; (try dsimp only); with_reducible apply Latched.parts)
    | split
    | dsimp only
    | assumption

theorem doRoundLate_latched {s0 : State} (s : State) (h_s : Latched s0 s) : Latched s0 (doRoundLate s) := by
  unfold doRoundLate
  repeat' first
    | with_reducible assumption
    | with_reducible apply Latched.ite
    | fail_if_no_progress (with_reducible apply Latched.mk; (try dsimp only); with_reducible apply Latched.parts)
    | split
    | dsimp only
    | assumption

theorem doStReq_latched {s0 : State} (seat : Fin 8) (v : Nat) (s : State) (h_s : Latched s0 s) : Latched s0 (doStReq seat v s) := by
  unfold doStReq
  repeat' first
    | with_reducible assumption
    | intro _
    | with_reducible apply Latched.ite
    | with_reducible apply State.refuse_latched
    | with_reducible apply State.reqBegin_latched
    | fail_if_no_progress (with_reducible apply Latched.mk; (try dsimp only); with_reducible apply Latched.parts)
    | split
    | dsimp only
    | assumption

end Sys2Proof.Machine
end

