-- ==== Sys2Proof/Laws/LatchedUpdRows.lean ====
section
/-! SUPPORT. The operations of Machine/UpdRows.lean clear no latched fault bit and set no reserved one. -/

set_option linter.unusedTactic false
set_option linter.unreachableTactic false
set_option linter.unusedVariables false

namespace Sys2Proof.Machine

theorem State.svcAnswer_latched {s0 : State} (s : State) (k : Nat) (st : Status) (session : Nat) (payload : List Byte) (h_s : Latched s0 s) : Latched s0 (State.svcAnswer s k st session payload) := by
  unfold State.svcAnswer
  repeat' first
    | with_reducible assumption
    | fail_if_no_progress (with_reducible apply Latched.mk; (try dsimp only); with_reducible apply Latched.parts)
    | dsimp only
    | assumption

theorem State.svcTake_latched {s0 : State} (s : State) (k : Nat) (f : SvcFrame) (g : State → State) (h_s : Latched s0 s) (k_g : ∀ t, Latched s0 t → Latched s0 (g t)) : Latched s0 (State.svcTake s k f g) := by
  unfold State.svcTake
  repeat' first
    | with_reducible assumption
    | intro _
    | with_reducible apply Latched.ite
    | with_reducible apply State.svcAnswer_latched
    | with_reducible apply k_g
    | fail_if_no_progress (with_reducible apply Latched.mk; (try dsimp only); with_reducible apply Latched.parts)
    | split
    | dsimp only
    | assumption

theorem State.svcSess_latched {s0 : State} (s : State) (k : Nat) (f : SvcFrame) (g : State → State) (h_s : Latched s0 s) (k_g : ∀ t, Latched s0 t → Latched s0 (g t)) : Latched s0 (State.svcSess s k f g) := by
  unfold State.svcSess
  repeat' first
    | with_reducible assumption
    | intro _
    | with_reducible apply Latched.ite
    | with_reducible apply State.svcAnswer_latched
    | with_reducible apply State.svcTake_latched
    | with_reducible apply k_g
    | fail_if_no_progress (with_reducible apply Latched.mk; (try dsimp only); with_reducible apply Latched.parts)
    | split
    | dsimp only
    | assumption

theorem doChal_latched {s0 : State} (f : SvcFrame) (s : State) (h_s : Latched s0 s) : Latched s0 (doChal f s) := by
  unfold doChal
  repeat' first
    | with_reducible assumption
    | intro _
    | with_reducible apply Latched.ite
    | with_reducible apply State.randNat_latched
    | with_reducible apply State.svcAnswer_latched
    | with_reducible apply State.svcTake_latched
    | fail_if_no_progress (with_reducible apply Latched.mk; (try dsimp only); with_reducible apply Latched.parts)
    | split
    | dsimp only
    | assumption

theorem State.authFail_latched {s0 : State} (s : State) (session : Nat) (h_s : Latched s0 s) : Latched s0 (State.authFail s session) := by
  unfold State.authFail
  repeat' first
    | with_reducible assumption
    | with_reducible apply Latched.ite
    | with_reducible apply State.svcAnswer_latched
    | fail_if_no_progress (with_reducible apply Latched.mk; (try dsimp only); with_reducible apply Latched.parts)
    | split
    | dsimp only
    | assumption

theorem doAuth_latched {s0 : State} (f : SvcFrame) (s : State) (h_s : Latched s0 s) : Latched s0 (doAuth f s) := by
  unfold doAuth
  repeat' first
    | with_reducible assumption
    | intro _
    | with_reducible apply Latched.ite
    | with_reducible apply State.authFail_latched
    | with_reducible apply State.svcAnswer_latched
    | with_reducible apply State.svcTake_latched
    | fail_if_no_progress (with_reducible apply Latched.mk; (try dsimp only); with_reducible apply Latched.parts)
    | split
    | dsimp only
    | assumption

theorem doSvcSessionTimeout_latched {s0 : State} (s : State) (h_s : Latched s0 s) : Latched s0 (doSvcSessionTimeout s) := by
  unfold doSvcSessionTimeout
  repeat' first
    | with_reducible assumption
    | with_reducible apply Latched.ite
    | fail_if_no_progress (with_reducible apply Latched.mk; (try dsimp only); with_reducible apply Latched.parts)
    | split
    | dsimp only
    | assumption

theorem doManifest_latched {s0 : State} (f : SvcFrame) (s : State) (h_s : Latched s0 s) : Latched s0 (doManifest f s) := by
  unfold doManifest
  repeat' first
    | with_reducible assumption
    | intro _
    | with_reducible apply Latched.ite
    | with_reducible apply State.svcAnswer_latched
    | with_reducible apply State.svcSess_latched
    | fail_if_no_progress (with_reducible apply Latched.mk; (try dsimp only); with_reducible apply Latched.parts)
    | split
    | dsimp only
    | assumption

theorem doChunk_latched {s0 : State} (f : SvcFrame) (s : State) (h_s : Latched s0 s) : Latched s0 (doChunk f s) := by
  unfold doChunk
  repeat' first
    | with_reducible assumption
    | intro _
    | with_reducible apply Latched.ite
    | with_reducible apply State.svcAnswer_latched
    | with_reducible apply State.svcSess_latched
    | fail_if_no_progress (with_reducible apply Latched.mk; (try dsimp only); with_reducible apply Latched.parts)
    | split
    | dsimp only
    | assumption

theorem doStagingComplete_latched {s0 : State} (s : State) (h_s : Latched s0 s) : Latched s0 (doStagingComplete s) := by
  unfold doStagingComplete
  repeat' first
    | with_reducible assumption
    | with_reducible apply Latched.ite
    | fail_if_no_progress (with_reducible apply Latched.mk; (try dsimp only); with_reducible apply Latched.parts)
    | split
    | dsimp only
    | assumption

theorem doAbort_latched {s0 : State} (f : SvcFrame) (s : State) (h_s : Latched s0 s) : Latched s0 (doAbort f s) := by
  unfold doAbort
  repeat' first
    | with_reducible assumption
    | intro _
    | with_reducible apply Latched.ite
    | with_reducible apply State.svcAnswer_latched
    | with_reducible apply State.svcSess_latched
    | fail_if_no_progress (with_reducible apply Latched.mk; (try dsimp only); with_reducible apply Latched.parts)
    | split
    | dsimp only
    | assumption

theorem doActivate_latched {s0 : State} (f : SvcFrame) (s : State) (h_s : Latched s0 s) : Latched s0 (doActivate f s) := by
  unfold doActivate
  repeat' first
    | with_reducible assumption
    | intro _
    | with_reducible apply Latched.ite
    | with_reducible apply State.svcAnswer_latched
    | with_reducible apply State.svcSess_latched
    | fail_if_no_progress (with_reducible apply Latched.mk; (try dsimp only); with_reducible apply Latched.parts)
    | split
    | dsimp only
    | assumption

theorem State.activateApply_latched {s0 : State} (s : State) (h_s : Latched s0 s) : Latched s0 (State.activateApply s) := by
  unfold State.activateApply
  repeat' first
    | with_reducible assumption
    | intro _
    | with_reducible apply Latched.ite
    | with_reducible apply State.event2_latched
    | with_reducible apply State.svcAnswer_latched
    | fail_if_no_progress (with_reducible apply Latched.mk; (try dsimp only); with_reducible apply Latched.parts)
    | split
    | dsimp only
    | assumption

theorem State.oldImage_latched {s0 : State} (s : State) (d : Die) (h_s : Latched s0 s) : Latched s0 (State.oldImage s d) := by
  unfold State.oldImage
  repeat' first
    | with_reducible assumption
    | intro _
    | with_reducible apply State.takeState_latched
    | with_reducible apply State.updDie_latched
    | fail_if_no_progress (with_reducible apply Latched.mk; (try dsimp only); (try simp only [Faults.takeLocks_f1, Faults.takeLocks_f2, Faults.takeNow_f1, Faults.takeNow_f2, Faults.girthOff_f1, Faults.girthOff_f2, Faults.openShadow_f1, Faults.openShadow_f2, Faults.addC2_f1, Faults.addC2_f2, Faults.setRd_f1, Faults.setRd_f2, Faults.shadowDone_f1, Faults.shadowDone_f2]); with_reducible apply Latched.parts)
    | dsimp only
    | assumption

theorem doUpdateBootDone_latched {s0 : State} (d : Die) (ok : Bool) (s : State) (h_s : Latched s0 s) : Latched s0 (doUpdateBootDone d ok s) := by
  unfold doUpdateBootDone
  repeat' first
    | with_reducible assumption
    | intro _
    | with_reducible apply Latched.ite
    | with_reducible apply State.oldImage_latched
    | with_reducible apply State.revert_latched
    | with_reducible apply State.updDie_latched
    | fail_if_no_progress (with_reducible apply Latched.mk; (try dsimp only); with_reducible apply Latched.parts)
    | split
    | dsimp only
    | assumption

theorem doActivationWaitTimeout_latched {s0 : State} (s : State) (h_s : Latched s0 s) : Latched s0 (doActivationWaitTimeout s) := by
  unfold doActivationWaitTimeout
  repeat' first
    | with_reducible assumption
    | intro _
    | with_reducible apply Latched.ite
    | with_reducible apply State.revert_latched
    | split
    | dsimp only
    | assumption

theorem doFlipDeferEnd_latched {s0 : State} (s : State) (h_s : Latched s0 s) : Latched s0 (doFlipDeferEnd s) := by
  unfold doFlipDeferEnd
  repeat' first
    | with_reducible assumption
    | with_reducible apply Latched.ite
    | with_reducible apply State.flip__latched
    | split
    | dsimp only
    | assumption

end Sys2Proof.Machine
end

