-- ==== Sys2Proof/Laws/LatchedAccessRows.lean ====
section
/-! SUPPORT. The operations of Machine/AccessRows.lean clear no latched fault bit and set no reserved one. -/

set_option linter.unusedTactic false
set_option linter.unreachableTactic false
set_option linter.unusedVariables false

namespace Sys2Proof.Machine

theorem State.testClose_latched {s0 : State} (s : State) (h_s : Latched s0 s) : Latched s0 (State.testClose s) := by
  unfold State.testClose
  repeat' first
    | with_reducible assumption
    | with_reducible apply Latched.ite
    | with_reducible apply State.setReg_latched
    | fail_if_no_progress (with_reducible apply Latched.mk; (try dsimp only); with_reducible apply Latched.parts)
    | split
    | dsimp only
    | assumption

theorem State.endSession_latched {s0 : State} (s : State) (k : Nat) (h_s : Latched s0 s) : Latched s0 (State.endSession s k) := by
  unfold State.endSession
  repeat' first
    | with_reducible assumption
    | intro _
    | with_reducible apply Latched.ite
    | with_reducible apply State.testClose_latched
    | with_reducible apply State.updSeat_latched
    | fail_if_no_progress (with_reducible apply Latched.mk; (try dsimp only); with_reducible apply Latched.parts)
    | split
    | dsimp only
    | assumption

theorem State.testRise_latched {s0 : State} (s : State) (seat st : Nat) (h_s : Latched s0 s) : Latched s0 (State.testRise s seat st) := by
  unfold State.testRise
  repeat' first
    | with_reducible assumption
    | with_reducible apply Latched.ite
    | with_reducible apply State.setReg_latched
    | fail_if_no_progress (with_reducible apply Latched.mk; (try dsimp only); with_reducible apply Latched.parts)
    | split
    | dsimp only
    | assumption

theorem doTestOpen_latched {s0 : State} (seat : Fin 8) (v : Nat) (s : State) (h_s : Latched s0 s) : Latched s0 (doTestOpen seat v s) := by
  unfold doTestOpen
  repeat' first
    | with_reducible assumption
    | intro _
    | with_reducible apply Latched.ite
    | with_reducible apply State.refuse_latched
    | with_reducible apply State.testClose_latched
    | with_reducible apply State.testRise_latched
    | split
    | dsimp only
    | assumption

theorem doTestChal_latched {s0 : State} (seat : Fin 8) (s : State) (h_s : Latched s0 s) : Latched s0 (doTestChal seat s) := by
  unfold doTestChal
  repeat' first
    | with_reducible assumption
    | intro _
    | with_reducible apply State.randNat_latched
    | with_reducible apply State.refuse_latched
    | with_reducible apply State.reply_latched
    | fail_if_no_progress (with_reducible apply Latched.mk; (try dsimp only); with_reducible apply Latched.parts)
    | dsimp only
    | assumption

theorem State.wipeSram_latched {s0 : State} (s : State) (h_s : Latched s0 s) : Latched s0 (State.wipeSram s) := by
  unfold State.wipeSram
  repeat' first
    | with_reducible assumption
    | with_reducible apply Latched.ite
    | with_reducible apply State.updDie_latched
    | fail_if_no_progress (with_reducible apply Latched.mk; (try dsimp only); with_reducible apply Latched.parts)
    | split
    | dsimp only
    | assumption

theorem State.scanStart_latched {s0 : State} (s : State) (h_s : Latched s0 s) : Latched s0 (State.scanStart s) := by
  unfold State.scanStart
  repeat' first
    | with_reducible assumption
    | intro _
    | with_reducible apply Latched.ite
    | with_reducible apply State.endSession_latched
    | with_reducible apply State.enterSafe_latched
    | with_reducible apply State.lockBoth_latched
    | with_reducible apply State.lockoutAll_latched
    | with_reducible apply State.tripNow_latched
    | with_reducible apply State.updDie_latched
    | with_reducible apply State.wipeSram_latched
    | with_reducible apply Latched.foldl
    | fail_if_no_progress (with_reducible apply Latched.mk; (try dsimp only); with_reducible apply Latched.parts)
    | split
    | dsimp only
    | assumption

theorem State.testRefuse_latched {s0 : State} (s : State) (h_s : Latched s0 s) : Latched s0 (State.testRefuse s) := by
  unfold State.testRefuse
  repeat' first
    | with_reducible assumption
    | with_reducible apply Latched.ite
    | with_reducible apply State.ans_latched
    | fail_if_no_progress (with_reducible apply Latched.mk; (try dsimp only); with_reducible apply Latched.parts)
    | split
    | dsimp only
    | assumption

theorem doTestResp_latched {s0 : State} (seat : Fin 8) (code : Nat) (sig : List Byte) (s : State) (h_s : Latched s0 s) : Latched s0 (doTestResp seat code sig s) := by
  unfold doTestResp
  repeat' first
    | with_reducible assumption
    | intro _
    | with_reducible apply Latched.ite
    | with_reducible apply State.ans_latched
    | with_reducible apply State.refuse_latched
    | with_reducible apply State.scanStart_latched
    | with_reducible apply State.testRefuse_latched
    | with_reducible apply State.testRise_latched
    | fail_if_no_progress (with_reducible apply Latched.mk; (try dsimp only); with_reducible apply Latched.parts)
    | split
    | dsimp only
    | assumption

theorem doZeroiseReadbackDone_latched {s0 : State} (s : State) (h_s : Latched s0 s) : Latched s0 (doZeroiseReadbackDone s) := by
  unfold doZeroiseReadbackDone
  repeat' first
    | with_reducible assumption
    | with_reducible apply Latched.ite
    | fail_if_no_progress (with_reducible apply Latched.mk; (try dsimp only); with_reducible apply Latched.parts)
    | split
    | dsimp only
    | assumption

theorem doZeroiseTimeout_latched {s0 : State} (s : State) (h_s : Latched s0 s) : Latched s0 (doZeroiseTimeout s) := by
  unfold doZeroiseTimeout
  repeat' first
    | with_reducible assumption
    | fail_if_no_progress (with_reducible apply Latched.mk; (try dsimp only); with_reducible apply Latched.parts)
    | dsimp only
    | assumption

end Sys2Proof.Machine
end

