-- ==== Sys2Proof/Laws/LatchedSeatRows.lean ====
section
/-! SUPPORT. The operations of Machine/SeatRows.lean clear no latched fault bit and set no reserved one. -/

set_option linter.unusedTactic false
set_option linter.unreachableTactic false
set_option linter.unusedVariables false

namespace Sys2Proof.Machine

theorem doSeatChal_latched {s0 : State} (seat : Fin 8) (s : State) (h_s : Latched s0 s) : Latched s0 (doSeatChal seat s) := by
  unfold doSeatChal
  repeat' first
    | with_reducible assumption
    | intro _
    | with_reducible apply State.randNat_latched
    | with_reducible apply State.refuse_latched
    | with_reducible apply State.reply_latched
    | with_reducible apply State.updSeat_latched
    | fail_if_no_progress (with_reducible apply Latched.mk; (try dsimp only); with_reducible apply Latched.parts)
    | dsimp only
    | assumption

theorem doSeatLogin_latched {s0 : State} (seat : Fin 8) (bytes : List Byte) (s : State) (h_s : Latched s0 s) : Latched s0 (doSeatLogin seat bytes s) := by
  unfold doSeatLogin
  repeat' first
    | with_reducible assumption
    | intro _
    | with_reducible apply Latched.ite
    | with_reducible apply State.ans_latched
    | with_reducible apply State.endSession_latched
    | with_reducible apply State.refuse_latched
    | with_reducible apply State.updSeat_latched
    | fail_if_no_progress (with_reducible apply Latched.mk; (try dsimp only); with_reducible apply Latched.parts)
    | split
    | dsimp only
    | assumption

theorem doSessionTimeout_latched {s0 : State} (seat : Fin 8) (s : State) (h_s : Latched s0 s) : Latched s0 (doSessionTimeout seat s) := by
  unfold doSessionTimeout
  repeat' first
    | with_reducible assumption
    | with_reducible apply State.endSession_latched
    | dsimp only
    | assumption

theorem doLoPass_latched {s0 : State} (seat : Fin 8) (bytes : List Byte) (s : State) (h_s : Latched s0 s) : Latched s0 (doLoPass seat bytes s) := by
  unfold doLoPass
  repeat' first
    | with_reducible assumption
    | intro _
    | with_reducible apply Latched.ite
    | with_reducible apply State.ans_latched
    | with_reducible apply State.bump_latched
    | with_reducible apply State.refuse_latched
    | with_reducible apply State.updSeat_latched
    | fail_if_no_progress (with_reducible apply Latched.mk; (try dsimp only); with_reducible apply Latched.parts)
    | split
    | dsimp only
    | assumption

theorem doLoPassNew_latched {s0 : State} (seat : Fin 8) (bytes : List Byte) (s : State) (h_s : Latched s0 s) : Latched s0 (doLoPassNew seat bytes s) := by
  unfold doLoPassNew
  repeat' first
    | with_reducible assumption
    | intro _
    | with_reducible apply State.persist_latched
    | with_reducible apply State.refuse_latched
    | fail_if_no_progress (with_reducible apply Latched.mk; (try dsimp only); with_reducible apply Latched.parts)
    | dsimp only
    | assumption

theorem State.conf_latched {s0 : State} (s : State) (seat idx sub v : Nat) (h_s : Latched s0 s) : Latched s0 (State.conf s seat idx sub v) := by
  unfold State.conf
  repeat' first
    | with_reducible assumption
    | with_reducible apply State.persist_latched
    | with_reducible apply State.setReg_latched
    | dsimp only
    | assumption

theorem doLineOwner_latched {s0 : State} (seat : Fin 8) (v : Nat) (s : State) (h_s : Latched s0 s) : Latched s0 (doLineOwner seat v s) := by
  unfold doLineOwner
  repeat' first
    | with_reducible assumption
    | intro _
    | with_reducible apply State.conf_latched
    | with_reducible apply State.refuse_latched
    | dsimp only
    | assumption

theorem doLockoutEnd_latched {s0 : State} (k : Lockout) (s : State) (h_s : Latched s0 s) : Latched s0 (doLockoutEnd k s) := by
  unfold doLockoutEnd
  repeat' first
    | with_reducible assumption
    | intro _
    | with_reducible apply State.updSeat_latched
    | fail_if_no_progress (with_reducible apply Latched.mk; (try dsimp only); with_reducible apply Latched.parts)
    | split
    | dsimp only
    | assumption

theorem State.persDone_latched {s0 : State} (s : State) (w : PersWrite) (h_s : Latched s0 s) : Latched s0 (State.persDone s w) := by
  unfold State.persDone
  repeat' first
    | with_reducible assumption
    | with_reducible apply Latched.ite
    | with_reducible apply State.keyCommit_latched
    | with_reducible apply State.keyEraseCommit_latched
    | fail_if_no_progress (with_reducible apply Latched.mk; (try dsimp only); with_reducible apply Latched.parts)
    | split
    | dsimp only
    | assumption

theorem doPersistentWriteCommit_latched {s0 : State} (s : State) (h_s : Latched s0 s) : Latched s0 (doPersistentWriteCommit s) := by
  unfold doPersistentWriteCommit
  repeat' first
    | with_reducible assumption
    | with_reducible apply State.ans_latched
    | with_reducible apply State.persDone_latched
    | with_reducible apply State.sendAns_latched
    | fail_if_no_progress (with_reducible apply Latched.mk; (try dsimp only); with_reducible apply Latched.parts)
    | split
    | dsimp only
    | assumption

theorem doSpanKWrite_latched {s0 : State} (seat : Fin 8) (v : Nat) (s : State) (h_s : Latched s0 s) : Latched s0 (doSpanKWrite seat v s) := by
  unfold doSpanKWrite
  repeat' first
    | with_reducible assumption
    | intro _
    | with_reducible apply State.conf_latched
    | with_reducible apply State.refuse_latched
    | dsimp only
    | assumption

theorem doTickOfsWrite_latched {s0 : State} (seat : Fin 8) (v : Nat) (s : State) (h_s : Latched s0 s) : Latched s0 (doTickOfsWrite seat v s) := by
  unfold doTickOfsWrite
  repeat' first
    | with_reducible assumption
    | intro _
    | with_reducible apply State.conf_latched
    | with_reducible apply State.refuse_latched
    | dsimp only
    | assumption

theorem doClkGate_latched {s0 : State} (seat : Fin 8) (n : Fin 18) (v : Nat) (s : State) (h_s : Latched s0 s) : Latched s0 (doClkGate seat n v s) := by
  unfold doClkGate
  repeat' first
    | with_reducible assumption
    | intro _
    | with_reducible apply State.conf_latched
    | with_reducible apply State.refuse_latched
    | with_reducible apply State.regate_latched
    | dsimp only
    | assumption

theorem doClkobsSelect_latched {s0 : State} (seat : Fin 8) (sub v : Nat) (s : State) (h_s : Latched s0 s) : Latched s0 (doClkobsSelect seat sub v s) := by
  unfold doClkobsSelect
  repeat' first
    | with_reducible assumption
    | intro _
    | with_reducible apply Latched.ite
    | with_reducible apply State.refuse_latched
    | with_reducible apply State.setReg_latched
    | split
    | dsimp only
    | assumption

theorem State.mirrored_latched {s0 : State} (s : State) (d : Die) (h_s : Latched s0 s) : Latched s0 (State.mirrored s d) := by
  unfold State.mirrored
  repeat' first
    | with_reducible assumption
    | fail_if_no_progress (with_reducible apply Latched.mk; (try dsimp only); with_reducible apply Latched.parts)
    | dsimp only
    | assumption

theorem State.regSet_latched {s0 : State} (s : State) (seat : Nat) (r : OdRow) (idx sub v : Nat) (h_s : Latched s0 s) : Latched s0 (State.regSet s seat r idx sub v) := by
  unfold State.regSet
  repeat' first
    | with_reducible assumption
    | intro _
    | with_reducible apply Latched.ite
    | with_reducible apply State.conf_latched
    | with_reducible apply State.endSession_latched
    | with_reducible apply State.setReg_latched
    | with_reducible apply State.updSeat_latched
    | with_reducible apply State.w1c_latched
    | fail_if_no_progress (with_reducible apply Latched.mk; (try dsimp only); with_reducible apply Latched.parts)
    | split
    | dsimp only
    | assumption

theorem doRegisterWrite_latched {s0 : State} (seat : Fin 8) (idx sub v : Nat) (s : State) (h_s : Latched s0 s) : Latched s0 (doRegisterWrite seat idx sub v s) := by
  unfold doRegisterWrite
  repeat' first
    | with_reducible assumption
    | intro _
    | with_reducible apply Latched.ite
    | with_reducible apply State.refuse_latched
    | with_reducible apply State.regSet_latched
    | exact fun _ h => h
    | fail_if_no_progress (with_reducible apply Latched.mk; (try dsimp only); with_reducible apply Latched.parts)
    | split
    | dsimp only
    | assumption

end Sys2Proof.Machine
end

