-- ==== Sys2Proof/Laws/LatchedBridleOps.lean ====
section
/-! SUPPORT. The operations of Machine/BridleOps.lean clear no latched fault bit and set no reserved one. -/

set_option linter.unusedTactic false
set_option linter.unreachableTactic false
set_option linter.unusedVariables false

namespace Sys2Proof.Machine

theorem State.readEntry_latched {s0 : State} (s : State) (seat : Fin 8) (d : Die) (idx sub : Nat) (h_s : Latched s0 s) : Latched s0 (State.readEntry s seat d idx sub) := by
  unfold State.readEntry
  repeat' first
    | with_reducible assumption
    | with_reducible apply Latched.ite
    | with_reducible apply State.ans_latched
    | with_reducible apply State.mirrored_latched
    | with_reducible apply State.reply_latched
    | with_reducible apply doLcChal_latched
    | with_reducible apply doOtpData_latched
    | with_reducible apply doSeatChal_latched
    | with_reducible apply doTestChal_latched
    | fail_if_no_progress (with_reducible apply Latched.mk; (try dsimp only); with_reducible apply Latched.parts)
    | split
    | dsimp only
    | assumption

theorem State.writeCrc_latched {s0 : State} (s : State) (seat : Fin 8) (k sub v : Nat) (h_s : Latched s0 s) : Latched s0 (State.writeCrc s seat k sub v) := by
  unfold State.writeCrc
  repeat' first
    | with_reducible assumption
    | with_reducible apply Latched.ite
    | with_reducible apply doCrcAbort_latched
    | with_reducible apply doCrcEnable_latched
    | with_reducible apply doCrcParameterWrite_latched
    | with_reducible apply doCrcPreset_latched
    | with_reducible apply doRegisterWrite_latched
    | split
    | dsimp only
    | assumption

theorem State.writeTmr_latched {s0 : State} (s : State) (seat : Fin 8) (k sub v : Nat) (h_s : Latched s0 s) : Latched s0 (State.writeTmr s seat k sub v) := by
  unfold State.writeTmr
  repeat' first
    | with_reducible assumption
    | with_reducible apply Latched.ite
    | with_reducible apply doTmrCmp_latched
    | with_reducible apply doTmrCmpNext_latched
    | with_reducible apply doTmrCount_latched
    | with_reducible apply doTmrCtrl_latched
    | split
    | dsimp only
    | assumption

theorem State.writeRing_latched {s0 : State} (s : State) (seat : Fin 8) (d : Die) (x : WItem) (h_s : Latched s0 s) : Latched s0 (State.writeRing s seat d x) := by
  unfold State.writeRing
  repeat' first
    | with_reducible assumption
    | with_reducible apply Latched.ite
    | with_reducible apply State.ans_latched
    | with_reducible apply doFree_latched
    | with_reducible apply doReset_latched
    | with_reducible apply doRingAlloc_latched
    | with_reducible apply doRingConsume_latched
    | with_reducible apply doRingPush_latched
    | split
    | dsimp only
    | assumption

theorem State.writeLow_latched {s0 : State} (s : State) (seat : Fin 8) (x : WItem) (h_s : Latched s0 s) : Latched s0 (State.writeLow s seat x) := by
  unfold State.writeLow
  repeat' first
    | with_reducible assumption
    | with_reducible apply Latched.ite
    | with_reducible apply State.modeReq_latched
    | with_reducible apply State.write_latched
    | with_reducible apply doClkGate_latched
    | with_reducible apply doClkobsSelect_latched
    | with_reducible apply doLineOwner_latched
    | with_reducible apply doLoPass_latched
    | with_reducible apply doLoPassNew_latched
    | with_reducible apply doPwrReqActive_latched
    | with_reducible apply doPwrReqDeepSleep_latched
    | with_reducible apply doPwrReqSleep_latched
    | with_reducible apply doSeatLogin_latched
    | with_reducible apply doSpanKWrite_latched
    | with_reducible apply doTickOfsWrite_latched
    | exact fun _ h => h
    | split
    | dsimp only
    | assumption

/-- A write that is refused clears no latched bit: either the status is OK or `t` keeps what `s0` has latched. -/
def LatchedOr (s0 t : State) : Prop := t.br.last = .ok ∨ Latched s0 t

theorem LatchedOr.of {s0 t : State} (h : Latched s0 t) : LatchedOr s0 t := .inr h

theorem LatchedOr.ite {s0 t u : State} {c : Prop} [Decidable c] (h : LatchedOr s0 t) (k : LatchedOr s0 u) :
    LatchedOr s0 (if c then t else u) := by
  split
  · exact h
  · exact k

@[simp] theorem State.clearBit_br (s : State) (b : Nat) : (s.clearBit b).br = s.br := by
  unfold State.clearBit
  split
  · rfl
  · split
    · unfold State.relatch
      rw [State.event2_br]
      rfl
    · split <;> rfl

theorem State.clearBits_br (l : List Nat) (s : State) : (l.foldl State.clearBit s).br = s.br := by
  induction l generalizing s with
  | nil => rfl
  | cons b l ih => rw [List.foldl_cons, ih, State.clearBit_br]

theorem doFswClr_latchedOr {s0 : State} (seat : Fin 8) (mask : Nat) (s : State) (h_s : Latched s0 s) :
    LatchedOr s0 (doFswClr seat mask s) := by
  have a (c : Status) : LatchedOr s0 (s.ans c) := LatchedOr.of (State.ans_latched s c h_s)
  unfold doFswClr State.write
  with_reducible refine LatchedOr.ite (LatchedOr.of h_s) (LatchedOr.ite (a _) (LatchedOr.ite (a _) (LatchedOr.ite (a _)
    (LatchedOr.ite (a _) (LatchedOr.ite (a _) ?_)))))
  left
  rw [State.clearBits_br]
  rfl

theorem State.writeMid_latchedOr {s0 : State} (s : State) (seat : Fin 8) (x : WItem) (h_s : Latched s0 s) :
    LatchedOr s0 (State.writeMid s seat x) := by
  unfold State.writeMid
  dsimp only
  repeat' first
    | with_reducible assumption
    | with_reducible apply LatchedOr.ite
    | with_reducible apply doFswClr_latchedOr
    | with_reducible apply LatchedOr.of
    | with_reducible apply doFswSecClr_latched
    | with_reducible apply doZoneRrst_latched
    | with_reducible apply doCosHirqClear_latched
    | with_reducible apply doLoad_latched
    | with_reducible apply doDiscard_latched
    | with_reducible apply State.write_latched
    | with_reducible apply doConfirm_latched
    | with_reducible apply State.ans_latched
    | with_reducible apply doStdinVal_latched
    | exact fun _ h => h

theorem State.writeHigh_latched {s0 : State} (s : State) (seat : Fin 8) (x : WItem) (h_s : Latched s0 s) : Latched s0 (State.writeHigh s seat x) := by
  unfold State.writeHigh
  repeat' first
    | with_reducible assumption
    | with_reducible apply Latched.ite
    | with_reducible apply doKeyErase_latched
    | with_reducible apply doKeyPut_latched
    | with_reducible apply doLcReq_latched
    | with_reducible apply doLcResp_latched
    | with_reducible apply doOtpProg_latched
    | with_reducible apply doStReq_latched
    | with_reducible apply doTestOpen_latched
    | with_reducible apply doTestResp_latched
    | split
    | dsimp only
    | assumption

theorem State.writeEntry_latchedOr {s0 : State} (s : State) (seat : Fin 8) (d : Die) (x : WItem) (h_s : Latched s0 s) :
    LatchedOr s0 (State.writeEntry s seat d x) := by
  unfold State.writeEntry
  split
  · exact LatchedOr.of (State.ans_latched s _ h_s)
  · repeat' first
      | with_reducible assumption
      | with_reducible apply LatchedOr.ite
      | with_reducible apply State.writeMid_latchedOr
      | with_reducible apply LatchedOr.of
      | with_reducible apply State.ans_latched
      | with_reducible apply State.writeCrc_latched
      | with_reducible apply doRegisterWrite_latched
      | with_reducible apply State.writeTmr_latched
      | with_reducible apply State.writeRing_latched
      | with_reducible apply State.writeLow_latched
      | with_reducible apply State.writeHigh_latched
      | exact fun _ h => h

theorem State.writeFresh_latchedOr {s0 : State} (s : State) (seat : Fin 8) (d : Die) (x : WItem) (h_s : Latched s0 s) :
    LatchedOr s0 (State.writeFresh s seat d x) := by
  have a := LatchedOr.of (State.ans_latched s .mgmtStale h_s)
  have e := State.writeEntry_latchedOr s seat d x h_s
  unfold State.writeFresh
  with_reducible apply LatchedOr.ite
  · exact a
  · exact e



theorem State.writeAll_latchedOr {s0 : State} (s : State) (seat : Fin 8) (d : Die) (l : List WItem) (h_s : Latched s0 s) :
    LatchedOr s0 (State.writeAll s seat d l) := by
  unfold State.writeAll
  dsimp only
  split
  · rename_i hc
    match l with
    | [] => exact LatchedOr.of (State.ans_latched s _ h_s)
    | [x] =>
      have a := State.ans_latched s .ok h_s
      have e := State.writeFresh_latchedOr (s.ans .ok) seat d x a
      unfold State.writeItems
      rw [List.foldl_cons, List.foldl_nil]
      with_reducible apply LatchedOr.ite
      · exact e
      · exact LatchedOr.of a
    | x :: y :: l =>
      left
      simpa using hc
  · exact LatchedOr.of h_s

theorem State.takeFrame_latched {s0 : State} (s : State) (k : Nat) (h_s : Latched s0 s) : Latched s0 (State.takeFrame s k) := by
  unfold State.takeFrame
  repeat' first
    | with_reducible assumption
    | intro _
    | with_reducible apply Latched.ite
    | with_reducible apply State.updSeat_latched
    | fail_if_no_progress (with_reducible apply Latched.mk; (try dsimp only); with_reducible apply Latched.parts)
    | split
    | dsimp only
    | assumption

theorem State.checked_latched {s0 : State} (s : State) (op : Nat) (f : Frame) (shape : Bool) (g : State → State) (h_s : Latched s0 s) (k_g : ∀ t, Latched s0 t → Latched s0 (g t)) : Latched s0 (State.checked s op f shape g) := by
  unfold State.checked
  repeat' first
    | with_reducible assumption
    | intro _
    | with_reducible apply Latched.ite
    | with_reducible apply State.ans_latched
    | with_reducible apply State.ansBusy_latched
    | with_reducible apply State.endSession_latched
    | with_reducible apply State.post_latched
    | with_reducible apply State.sendAns_latched
    | with_reducible apply State.takeFrame_latched
    | with_reducible apply State.updSeat_latched
    | with_reducible apply k_g
    | fail_if_no_progress (with_reducible apply Latched.mk; (try dsimp only); with_reducible apply Latched.parts)
    | split
    | dsimp only
    | assumption

theorem State.request_latched {s0 : State} (s : State) (op : Nat) (f : Frame) (shape : Bool) (g : State → State) (h_s : Latched s0 s) (k_g : ∀ t, Latched s0 t → Latched s0 (g t)) : Latched s0 (State.request s op f shape g) := by
  unfold State.request
  repeat' first
    | with_reducible assumption
    | intro _
    | with_reducible apply Latched.ite
    | with_reducible apply State.bump_latched
    | with_reducible apply State.checked_latched
    | with_reducible apply k_g
    | fail_if_no_progress (with_reducible apply Latched.mk; (try dsimp only); with_reducible apply Latched.parts)
    | split
    | dsimp only
    | assumption

theorem State.asBlock_latched {s0 : State} (s : State) (h_s : Latched s0 s) : Latched s0 (State.asBlock s) := by
  unfold State.asBlock
  repeat' first
    | with_reducible assumption
    | fail_if_no_progress (with_reducible apply Latched.mk; (try dsimp only); with_reducible apply Latched.parts)
    | dsimp only
    | assumption

theorem State.takeWrite_latched {s0 : State} (s : State) (r : RespTo) (block : Bool) (l : List WItem) (h_s : Latched s0 s) :
    Latched s0 (State.takeWrite s r block l) := by
  have h := State.writeAll_latchedOr s (Fin.ofNat 8 r.seat) r.die l h_s
  unfold State.takeWrite
  dsimp only
  split
  · exact h_s
  · rename_i hn
    have k : Latched s0 (s.writeAll (Fin.ofNat 8 r.seat) r.die l) := h.resolve_left hn
    exact Latched.ite (State.sendAns_latched _ r (State.asBlock_latched _ k)) (State.sendAns_latched _ r k)

theorem State.wrongType_latched {s0 : State} (s : State) (r : RespTo) (l : List WItem) (h_s : Latched s0 s) : Latched s0 (State.wrongType s r l) := by
  unfold State.wrongType
  repeat' first
    | with_reducible assumption
    | with_reducible apply Latched.ite
    | with_reducible apply State.ans_latched
    | with_reducible apply State.sendAns_latched
    | with_reducible apply State.writeAll_latched
    | fail_if_no_progress (with_reducible apply Latched.mk; (try dsimp only); with_reducible apply Latched.parts)
    | split
    | dsimp only
    | assumption

theorem State.atHome_latched {s0 : State} (s : State) (op : Nat) (f : Frame) (idx sub : Nat) (g : State → State) (h_s : Latched s0 s) (k_g : ∀ t, Latched s0 t → Latched s0 (g t)) : Latched s0 (State.atHome s op f idx sub g) := by
  unfold State.atHome
  repeat' first
    | with_reducible assumption
    | intro _
    | with_reducible apply Latched.ite
    | with_reducible apply State.ansBusy_latched
    | with_reducible apply State.sendAns_latched
    | exact fun _ h => h
    | with_reducible apply k_g
    | fail_if_no_progress (with_reducible apply Latched.mk; (try dsimp only); with_reducible apply Latched.parts)
    | split
    | dsimp only
    | assumption

theorem State.readOn_latched {s0 : State} (s : State) (d : Die) (f : Frame) (h_s : Latched s0 s) : Latched s0 (State.readOn s d f) := by
  unfold State.readOn
  repeat' first
    | with_reducible assumption
    | with_reducible apply State.readEntry_latched
    | with_reducible apply State.sendAns_latched
    | fail_if_no_progress (with_reducible apply Latched.mk; (try dsimp only); with_reducible apply Latched.parts)
    | dsimp only
    | assumption

theorem State.readOct_latched {s0 : State} (s : State) (seat : Fin 8) (d : Die) (f : Frame) (h_s : Latched s0 s) : Latched s0 (State.readOct s seat d f) := by
  unfold State.readOct
  repeat' first
    | with_reducible assumption
    | with_reducible apply Latched.ite
    | with_reducible apply State.ans_latched
    | with_reducible apply State.asBlock_latched
    | with_reducible apply State.readEntry_latched
    | with_reducible apply State.reply_latched
    | with_reducible apply doJrnDataRead_latched
    | with_reducible apply doRingRead_latched
    | split
    | dsimp only
    | assumption

theorem State.readRun_latched {s0 : State} (l : List Nat) (s : State) (seat : Fin 8) (d : Die) (idx : Nat) (acc : List Byte) (stale : Bool)
    (h_s : Latched s0 s) : Latched s0 (s.readRun seat d idx l acc stale).1 := by
  induction l generalizing s acc stale with
  | nil => exact h_s
  | cons x l ih =>
    have h := State.readEntry_latched s seat d idx x h_s
    unfold State.readRun
    dsimp only
    split
    · exact ih _ _ _ h
    · exact h

theorem State.readBlockOn_latched {s0 : State} (s : State) (d : Die) (f : Frame) (h_s : Latched s0 s) : Latched s0 (State.readBlockOn s d f) := by
  unfold State.readBlockOn
  repeat' first
    | with_reducible assumption
    | with_reducible apply Latched.ite
    | with_reducible apply State.ans_latched
    | with_reducible apply State.asBlock_latched
    | with_reducible apply State.readOct_latched
    | with_reducible apply State.sendAns_latched
    | with_reducible apply State.readRun_latched
    | fail_if_no_progress (with_reducible apply Latched.mk; (try dsimp only); with_reducible apply Latched.parts)
    | split
    | dsimp only
    | assumption

theorem State.writeReq_latched {s0 : State} (s : State) (f : Frame) (h_s : Latched s0 s) : Latched s0 (State.writeReq s f) := by
  unfold State.writeReq
  repeat' first
    | with_reducible assumption
    | intro _
    | with_reducible apply State.takeWrite_latched
    | with_reducible apply State.wrongType_latched
    | fail_if_no_progress (with_reducible apply Latched.mk; (try dsimp only); with_reducible apply Latched.parts)
    | split
    | dsimp only
    | assumption

theorem State.writeOct_latched {s0 : State} (s : State) (f : Frame) (h_s : Latched s0 s) : Latched s0 (State.writeOct s f) := by
  unfold State.writeOct
  repeat' first
    | with_reducible assumption
    | with_reducible apply Latched.ite
    | with_reducible apply State.ans_latched
    | with_reducible apply State.asBlock_latched
    | with_reducible apply State.sendAns_latched
    | with_reducible apply State.takeWrite_latched
    | with_reducible apply doPatImage_latched
    | fail_if_no_progress (with_reducible apply Latched.mk; (try dsimp only); with_reducible apply Latched.parts)
    | split
    | dsimp only
    | assumption

theorem State.writeBlockReq_latched {s0 : State} (s : State) (f : Frame) (h_s : Latched s0 s) : Latched s0 (State.writeBlockReq s f) := by
  unfold State.writeBlockReq
  repeat' first
    | with_reducible assumption
    | intro _
    | with_reducible apply Latched.ite
    | with_reducible apply State.ans_latched
    | with_reducible apply State.sendAns_latched
    | with_reducible apply State.takeWrite_latched
    | with_reducible apply State.writeOct_latched
    | fail_if_no_progress (with_reducible apply Latched.mk; (try dsimp only); with_reducible apply Latched.parts)
    | split
    | dsimp only
    | assumption

end Sys2Proof.Machine
end

