-- ==== Sys2Proof/Laws/LatchedBridleRows.lean ====
section
/-! SUPPORT. The operations of Machine/BridleRows.lean clear no latched fault bit and set no reserved one. -/

set_option linter.unusedTactic false
set_option linter.unreachableTactic false
set_option linter.unusedVariables false

namespace Sys2Proof.Machine

theorem doRead_latched {s0 : State} (f : Frame) (s : State) (h_s : Latched s0 s) : Latched s0 (doRead f s) := by
  unfold doRead
  repeat' first
    | with_reducible assumption
    | intro _
    | with_reducible apply State.atHome_latched
    | with_reducible apply State.readOn_latched
    | with_reducible apply State.request_latched
    | dsimp only
    | assumption

theorem doWrite_latched {s0 : State} (f : Frame) (s : State) (h_s : Latched s0 s) : Latched s0 (doWrite f s) := by
  unfold doWrite
  repeat' first
    | with_reducible assumption
    | intro _
    | with_reducible apply State.request_latched
    | with_reducible apply State.writeReq_latched
    | dsimp only
    | assumption

theorem doReadBlock_latched {s0 : State} (f : Frame) (s : State) (h_s : Latched s0 s) : Latched s0 (doReadBlock f s) := by
  unfold doReadBlock
  repeat' first
    | with_reducible assumption
    | intro _
    | with_reducible apply State.atHome_latched
    | with_reducible apply State.readBlockOn_latched
    | with_reducible apply State.request_latched
    | dsimp only
    | assumption

theorem doWriteBlock_latched {s0 : State} (f : Frame) (s : State) (h_s : Latched s0 s) : Latched s0 (doWriteBlock f s) := by
  unfold doWriteBlock
  repeat' first
    | with_reducible assumption
    | intro _
    | with_reducible apply State.request_latched
    | with_reducible apply State.writeBlockReq_latched
    | dsimp only
    | assumption

theorem State.notify_latched {s0 : State} (s : State) (x : Sub) (h_s : Latched s0 s) : Latched s0 (State.notify s x) := by
  unfold State.notify
  repeat' first
    | with_reducible assumption
    | intro _
    | with_reducible apply Latched.ite
    | with_reducible apply State.setReg_latched
    | exact fun _ h => h
    | fail_if_no_progress (with_reducible apply Latched.mk; (try dsimp only); with_reducible apply Latched.parts)
    | split
    | dsimp only
    | assumption

theorem State.watch_latched {s0 : State} (s : State) (f : Frame) (h_s : Latched s0 s) : Latched s0 (State.watch s f) := by
  unfold State.watch
  repeat' first
    | with_reducible assumption
    | intro _
    | with_reducible apply Latched.ite
    | with_reducible apply State.ans_latched
    | with_reducible apply State.notify_latched
    | with_reducible apply State.sendAns_latched
    | exact fun _ h => h
    | fail_if_no_progress (with_reducible apply Latched.mk; (try dsimp only); with_reducible apply Latched.parts)
    | split
    | dsimp only
    | assumption

theorem doSubscribe_latched {s0 : State} (f : Frame) (s : State) (h_s : Latched s0 s) : Latched s0 (doSubscribe f s) := by
  unfold doSubscribe
  repeat' first
    | with_reducible assumption
    | intro _
    | with_reducible apply State.request_latched
    | with_reducible apply State.watch_latched
    | dsimp only
    | assumption

theorem State.unwatch_latched {s0 : State} (s : State) (f : Frame) (h_s : Latched s0 s) : Latched s0 (State.unwatch s f) := by
  unfold State.unwatch
  repeat' first
    | with_reducible assumption
    | intro _
    | with_reducible apply Latched.ite
    | with_reducible apply State.ans_latched
    | with_reducible apply State.sendAns_latched
    | exact fun _ h => h
    | fail_if_no_progress (with_reducible apply Latched.mk; (try dsimp only); with_reducible apply Latched.parts)
    | split
    | dsimp only
    | assumption

theorem doUnsubscribe_latched {s0 : State} (f : Frame) (s : State) (h_s : Latched s0 s) : Latched s0 (doUnsubscribe f s) := by
  unfold doUnsubscribe
  repeat' first
    | with_reducible assumption
    | intro _
    | with_reducible apply State.request_latched
    | with_reducible apply State.unwatch_latched
    | dsimp only
    | assumption

theorem doNotification_latched {s0 : State} (sub : Nat) (s : State) (h_s : Latched s0 s) : Latched s0 (doNotification sub s) := by
  unfold doNotification
  repeat' first
    | with_reducible assumption
    | intro _
    | with_reducible apply Latched.ite
    | with_reducible apply State.notify_latched
    | exact fun _ h => h
    | fail_if_no_progress (with_reducible apply Latched.mk; (try dsimp only); with_reducible apply Latched.parts)
    | split
    | dsimp only
    | assumption

theorem doForwardedWriteRx_latched {s0 : State} (d : Die) (h : FlitHdr) (id : Nat) (s : State) (h_s : Latched s0 s) : Latched s0 (doForwardedWriteRx d h id s) := by
  unfold doForwardedWriteRx
  repeat' first
    | with_reducible assumption
    | intro _
    | with_reducible apply Latched.ite
    | with_reducible apply State.flit_latched
    | with_reducible apply State.writeAll_latched
    | exact fun _ h => h
    | fail_if_no_progress (with_reducible apply Latched.mk; (try dsimp only); with_reducible apply Latched.parts)
    | split
    | dsimp only
    | assumption

theorem doForwardedResponseRx_latched {s0 : State} (d : Die) (h : FlitHdr) (id : Nat) (s : State) (h_s : Latched s0 s) : Latched s0 (doForwardedResponseRx d h id s) := by
  unfold doForwardedResponseRx
  repeat' first
    | with_reducible assumption
    | intro _
    | with_reducible apply Latched.ite
    | with_reducible apply State.flit_latched
    | with_reducible apply State.readBlockOn_latched
    | with_reducible apply State.readOn_latched
    | exact fun _ h => h
    | fail_if_no_progress (with_reducible apply Latched.mk; (try dsimp only); with_reducible apply Latched.parts)
    | split
    | dsimp only
    | assumption

theorem State.takeNow_latched {s0 : State} (s : State) (recv : Nat) (x : WItem) (h_s : Latched s0 s) : Latched s0 (State.takeNow s recv x) := by
  unfold State.takeNow
  repeat' first
    | with_reducible assumption
    | intro _
    | with_reducible apply Latched.ite
    | fail_if_no_progress (with_reducible apply Latched.mk; (try dsimp only); with_reducible apply Latched.parts)
    | split
    | dsimp only
    | assumption

theorem State.applyAnswer_latched {s0 : State} (s old : State) (r : RespTo) (h_s : Latched s0 s) (h_old : Latched s0 old) : Latched s0 (State.applyAnswer s old r) := by
  unfold State.applyAnswer
  repeat' first
    | with_reducible assumption
    | intro _
    | with_reducible apply Latched.ite
    | with_reducible apply State.sendAns_latched
    | fail_if_no_progress (with_reducible apply Latched.mk; (try dsimp only); with_reducible apply Latched.parts)
    | split
    | dsimp only
    | assumption

theorem State.reopen_latched {s0 : State} (s : State) (h_s : Latched s0 s) : Latched s0 (State.reopen s) := by
  unfold State.reopen
  repeat' first
    | with_reducible assumption
    | with_reducible apply Latched.ite
    | with_reducible apply State.updDie_latched
    | fail_if_no_progress (with_reducible apply Latched.mk; (try dsimp only); with_reducible apply Latched.parts)
    | split
    | dsimp only
    | assumption

theorem doWriteFrame_latched {s0 : State} (whole : Bool) (op : Nat) (f : Frame) (s : State) (h_s : Latched s0 s) : Latched s0 (doWriteFrame whole op f s) := by
  unfold doWriteFrame
  repeat' first
    | with_reducible assumption
    | with_reducible apply Latched.ite
    | with_reducible apply State.bump_latched
    | with_reducible apply State.request_latched
    | exact fun _ h => h
    | fail_if_no_progress (with_reducible apply Latched.mk; (try dsimp only); with_reducible apply Latched.parts)
    | split
    | dsimp only
    | assumption

theorem doReadFrame_latched {s0 : State} (whole : Bool) (s : State) (h_s : Latched s0 s) : Latched s0 (doReadFrame whole s) := by
  unfold doReadFrame
  repeat' first
    | with_reducible assumption
    | with_reducible apply Latched.ite
    | fail_if_no_progress (with_reducible apply Latched.mk; (try dsimp only); with_reducible apply Latched.parts)
    | split
    | dsimp only
    | assumption

theorem doReadStatus_latched {s0 : State} (s : State) (h_s : Latched s0 s) : Latched s0 (doReadStatus s) := by
  unfold doReadStatus
  repeat' first
    | with_reducible assumption
    | with_reducible apply Latched.ite
    | fail_if_no_progress (with_reducible apply Latched.mk; (try dsimp only); with_reducible apply Latched.parts)
    | split
    | dsimp only
    | assumption

end Sys2Proof.Machine
end

