-- ==== Sys2Proof/Laws/LatchedIdle.lean ====
section
/-! SUPPORT. The operations of Machine/Idle.lean clear no latched fault bit and set no reserved one. -/

set_option linter.unusedTactic false
set_option linter.unreachableTactic false
set_option linter.unusedVariables false

namespace Sys2Proof.Machine

theorem State.refillAll_latched {s0 : State} (s : State) (h_s : Latched s0 s) : Latched s0 (State.refillAll s) := by
  unfold State.refillAll
  repeat' first
    | with_reducible assumption
    | intro _
    | with_reducible apply Latched.foldl
    | fail_if_no_progress (with_reducible apply Latched.mk; (try dsimp only); with_reducible apply Latched.parts)
    | dsimp only
    | assumption

theorem State.holdOn_latched {s0 : State} (s : State) (h_s : Latched s0 s) : Latched s0 (State.holdOn s) := by
  unfold State.holdOn
  repeat' first
    | with_reducible assumption
    | with_reducible apply Latched.ite
    | with_reducible apply State.updDie_latched
    | fail_if_no_progress (with_reducible apply Latched.mk; (try dsimp only); with_reducible apply Latched.parts)
    | split
    | dsimp only
    | assumption

theorem State.tickTimers_latched {s0 : State} (s : State) (d : Die) (h_s : Latched s0 s) : Latched s0 (State.tickTimers s d) := by
  unfold State.tickTimers
  repeat' first
    | with_reducible assumption
    | with_reducible apply Latched.ite
    | with_reducible apply State.timerEdge_latched
    | split
    | dsimp only
    | assumption

theorem State.roundOn_latched {s0 : State} (s : State) (h_s : Latched s0 s) : Latched s0 (State.roundOn s) := by
  unfold State.roundOn
  repeat' first
    | with_reducible assumption
    | with_reducible apply Latched.ite
    | fail_if_no_progress (with_reducible apply Latched.mk; (try dsimp only); with_reducible apply Latched.parts)
    | split
    | dsimp only
    | assumption

theorem idle_latched {s0 : State} (s : State) (h_s : Latched s0 s) : Latched s0 (idle s) := by
  unfold idle
  repeat' first
    | with_reducible assumption
    | with_reducible apply Latched.ite
    | with_reducible apply State.holdOn_latched
    | with_reducible apply State.otpNext_latched
    | with_reducible apply State.refillAll_latched
    | with_reducible apply State.roundOn_latched
    | with_reducible apply State.tickTimers_latched
    | fail_if_no_progress (with_reducible apply Latched.mk; (try dsimp only); with_reducible apply Latched.parts)
    | split
    | dsimp only
    | assumption

end Sys2Proof.Machine
end

