-- ==== Sys2Proof/Laws/Mode.lean ====
section
/-! SUPPORT. What a change of the operating mode (R335 to R342) leaves: the mode entered, and of the power state all but the gated domains. -/

namespace Sys2Proof.Machine

theorem State.regate_pow (s : State) : ∃ w, s.regate.pow = { s.pow with pd := w } := ⟨_, rfl⟩

/-- R337: entering a mode changes the mode, ends what was requested and waiting, and gates domains. -/
theorem State.toMode_spec (s : State) (m : Mode) : (s.toMode m).modes.mode = m ∧ (s.toMode m).modes.wait = none
    ∧ (s.toMode m).modes.req = none ∧ (s.toMode m).modes.act = s.modes.act ∧ ∃ w, (s.toMode m).pow = { s.pow with pd := w } := by
  have h : ∃ s2 : State, s.toMode m = ((s2.openConf (m == .configure || m == .boot)).regate).event2 7 [BitVec.ofNat 8 m.code]
      ∧ s2.modes.mode = m ∧ s2.modes.wait = none ∧ s2.modes.req = none ∧ s2.modes.act = s.modes.act
      ∧ ∃ w, s2.pow = { s.pow with pd := w } := by
    refine ⟨_, rfl, ?_⟩
    dsimp only
    split
    · unfold State.pwrDomains
      dsimp only
      split <;> exact ⟨rfl, rfl, rfl, rfl, _, rfl⟩
    · split <;> exact ⟨rfl, rfl, rfl, rfl, s.pow.pd, rfl⟩
  obtain ⟨s2, e0, h1, h2, h3, h4, v, h5⟩ := h
  rw [e0]
  have e := State.event2_only ((s2.openConf (m == .configure || m == .boot)).regate) 7 [BitVec.ofNat 8 m.code] (Only.refl 0x2c0 _) rfl
  rw [e.modes rfl, e.pow rfl, State.regate_modes]
  have o := State.openConf_only s2 (m == .configure || m == .boot) (Only.refl 0x100 s2) rfl
  obtain ⟨w, hw⟩ := State.regate_pow (s2.openConf (m == .configure || m == .boot))
  rw [hw, o.modes rfl, o.pow rfl, h5]
  exact ⟨h1, h2, h3, h4, w, rfl⟩

/-- A state that differs in the lock-outs of its zones alone, of what the mode is made of. -/
def SameMode (s t : State) : Prop := t.modes = { s.modes with lockouts := t.modes.lockouts } ∧ t.pow = s.pow

theorem SameMode.trans {s t u : State} (h : SameMode s t) (k : SameMode t u) : SameMode s u :=
  ⟨by rw [k.1, h.1], k.2.trans h.2⟩

theorem State.zoneMove_sameMode (p : Pattern) (d : Die) (old new : Img) (s : State) (z : ZoneRec) : SameMode s (s.zoneMove p d old new z) := by
  unfold State.zoneMove
  dsimp only
  split
  · exact ⟨rfl, rfl⟩
  · have o := State.event_only s d 5 [BitVec.ofNat 8 z.zone, BitVec.ofNat 8 (new.zoneSt p d z.zone)] (Only.refl 0x2c0 s) rfl
    split
    · exact ⟨by dsimp only; rw [o.modes rfl], o.pow rfl⟩
    · exact ⟨by rw [o.modes rfl], o.pow rfl⟩

theorem State.zoneMoves_sameMode (p : Pattern) (d : Die) (old new : Img) (l : List ZoneRec) :
    ∀ s : State, SameMode s (l.foldl (State.zoneMove p d old new) s) := by
  induction l with
  | nil => intro s; exact ⟨rfl, rfl⟩
  | cons z l ih => intro s; exact (State.zoneMove_sameMode p d old new s z).trans (ih _)

theorem State.lockCom_sameMode (s : State) (d : Die) (p : Pattern) (locks : List Nat) : SameMode s (s.lockCom d p locks) := by
  unfold State.lockCom
  split
  · exact ⟨rfl, rfl⟩
  · have k : ∀ x, Only 0x2c0 s x → SameMode s x := fun x o => ⟨by rw [o.modes rfl], o.pow rfl⟩
    extract_lets l com e s1
    have h1 : Only 0x2c0 s s1 := State.setDie_only s d _ (Only.refl 0x2c0 s) rfl
    have h2 := k _ (State.escalC2_only s1 d p l.eng.com com h1 rfl)
    exact h2.trans (State.zoneMoves_sameMode p d l.eng.com com p.zones _)

theorem State.lockBoth_sameMode (s : State) : SameMode s s.lockBoth := by
  unfold State.lockBoth
  split
  · exact ⟨rfl, rfl⟩
  · exact (State.lockCom_sameMode _ _ _ _).trans (State.lockCom_sameMode _ _ _ _)

/-- R338: SAFE is entered in SAFE, with the power state as before but for the gated domains. -/
theorem State.enterSafe_spec (s : State) : s.enterSafe.modes.mode = .safe ∧ s.enterSafe.modes.act = none
    ∧ s.enterSafe.modes.wait = none ∧ s.enterSafe.modes.req = none ∧ ∃ w, s.enterSafe.pow = { s.pow with pd := w } := by
  have lo : ∀ t : State, t.lockoutAll.modes.mode = t.modes.mode ∧ t.lockoutAll.modes.act = t.modes.act
      ∧ t.lockoutAll.modes.wait = t.modes.wait ∧ t.lockoutAll.modes.req = t.modes.req ∧ t.lockoutAll.pow = t.pow :=
    fun t => by unfold State.lockoutAll; exact ⟨by dsimp only, by dsimp only, by dsimp only, by dsimp only, rfl⟩
  unfold State.enterSafe
  extract_lets fresh m s1 s2
  obtain ⟨h1, h2, h3, h4, w, h5⟩ : s1.modes.mode = .safe ∧ s1.modes.wait = none ∧ s1.modes.req = none ∧ s1.modes.act = none
      ∧ ∃ w, s1.pow = { s.pow with pd := w } := State.toMode_spec { s with modes := { m with act := none } } .safe
  have h : SameMode s1 s2 := by
    clear_value s1
    dsimp only [s2]
    split
    · split
      · rename_i p _
        have o := State.startBoth_only s1 p (fun _ => true) (Only.refl 0xe010c0 s1) rfl
        exact ⟨by rw [o.modes rfl], o.pow rfl⟩
      · exact ⟨rfl, rfl⟩
    · exact State.lockBoth_sameMode s1
  clear_value s2 s1
  obtain ⟨l1, l2, l3, l4, l5⟩ := lo s2
  rw [l1, l2, l3, l4, l5, h.1, h.2]
  dsimp only
  exact ⟨h1, h4, h2, h3, w, h5⟩

/-- R339: a RUN entry that is taken waits, in the mode it found, with the power state as before. -/
theorem State.takeRun_spec (s : State) (service : Bool) : (s.takeRun service).modes.mode = s.modes.mode
    ∧ (s.takeRun service).modes.wait.isSome = true ∧ (s.takeRun service).modes.req = none ∧ (s.takeRun service).pow = s.pow := by
  have h : ∃ (s2 : State) (b : Bool), s.takeRun service = (s2.regrid .a b).regrid .b b ∧ s2.modes.mode = s.modes.mode
      ∧ s2.modes.wait.isSome = true ∧ s2.modes.req = none ∧ s2.pow = s.pow := ⟨_, _, rfl, rfl, rfl, rfl, rfl⟩
  obtain ⟨s2, b, e, h1, h2, h3, h4⟩ := h
  have o := State.regrid_only s2 .a b (Only.refl 0xc0 _) rfl
  have o2 := State.regrid_only (s2.regrid .a b) .b b (Only.refl 0xc0 _) rfl
  rw [e, o2.modes rfl, o2.pow rfl, o.modes rfl, o.pow rfl]
  exact ⟨h1, h2, h3, h4⟩

end Sys2Proof.Machine
end

