-- ==== Sys2Proof/Laws/OnlyPower.lean ====
section
/-! SUPPORT. Which fields the operations of Machine/Power.lean can touch. -/

set_option linter.unusedTactic false
set_option linter.unreachableTactic false
set_option linter.unusedVariables false

namespace Sys2Proof.Machine

/-- It can touch flt. -/
theorem State.railCause_only {M : Nat} {s0 : State} (s : State) (h_s : Only M s0 s) (le : 0x10 ||| M = M) : Only M s0 (State.railCause s) := by
  unfold State.railCause
  repeat' first
    | with_reducible assumption
    | with_reducible apply Only.ite
    | with_reducible apply State.causeOff_only (le := or_le rfl le)
    | with_reducible apply State.causeOn_only (le := or_le rfl le)
    | split
    | dsimp only
    | assumption

/-- It can touch pow, clk, a, b, regs. -/
theorem State.beginStep_only {M : Nat} {s0 : State} (s : State) (k : Nat) (h_s : Only M s0 s) (le : 0x2cc ||| M = M) : Only M s0 (State.beginStep s k) := by
  unfold State.beginStep
  repeat' first
    | with_reducible assumption
    | with_reducible apply Only.ite
    | with_reducible apply State.bump_only (le := or_le rfl le)
    | with_reducible apply State.regate_only (le := or_le rfl le)
    | with_reducible apply State.updDie_only (le := or_le rfl le)
    | (dsimp only [Only.mk_eq]; with_reducible apply OnlyParts.pow (c := testBit_ge le rfl); with_reducible apply OnlyParts.clk (c := testBit_ge le rfl); with_reducible apply Only.parts)
    | split
    | dsimp only
    | assumption

/-- It can touch modes, pow, clk, a, b, regs, freeCtr, mode. -/
theorem State.startBoot_only {M : Nat} {s0 : State} (s : State) (strapMv : Nat) (h_s : Only M s0 s) (le : 0x90002ce ||| M = M) : Only M s0 (State.startBoot s strapMv) := by
  unfold State.startBoot
  repeat' first
    | with_reducible assumption
    | with_reducible apply State.beginStep_only (le := or_le rfl le)
    | with_reducible apply State.regate_only (le := or_le rfl le)
    | with_reducible apply State.setReg_only (le := or_le rfl le)
    | (dsimp only [Only.mk_eq]; with_reducible apply OnlyParts.modes (c := testBit_ge le rfl) (c2 := testBit_ge le rfl); with_reducible apply OnlyParts.pow (c := testBit_ge le rfl); with_reducible apply OnlyParts.clk (c := testBit_ge le rfl); with_reducible apply OnlyParts.freeCtr (c := testBit_ge le rfl); with_reducible apply Only.parts)
    | dsimp only
    | assumption

/-- It can touch modes, pow, clk, a, b, regs, freeCtr, mode. -/
theorem doVinRise_only {M : Nat} {s0 : State} (mv strapMv : Nat) (s : State) (h_s : Only M s0 s) (le : 0x90002ce ||| M = M) : Only M s0 (doVinRise mv strapMv s) := by
  unfold doVinRise
  repeat' first
    | with_reducible assumption
    | with_reducible apply Only.ite
    | with_reducible apply State.setReg_only (le := or_le rfl le)
    | with_reducible apply State.startBoot_only (le := or_le rfl le)
    | (dsimp only [Only.mk_eq]; with_reducible apply OnlyParts.pow (c := testBit_ge le rfl); with_reducible apply Only.parts)
    | split
    | dsimp only
    | assumption

/-- It can touch modes, pow, flt, leases, a, b, fd, regs, br, crc, otp, bkp, st, upd, freeCtr. -/
theorem State.bootCount_only {M : Nat} {s0 : State} (s : State) (h_s : Only M s0 s) (le : 0x10dabf6 ||| M = M) : Only M s0 (State.bootCount s) := by
  unfold State.bootCount
  repeat' first
    | with_reducible assumption
    | with_reducible apply Only.ite
    | with_reducible apply State.latch_only (le := or_le rfl le)
    | with_reducible apply State.setReg_only (le := or_le rfl le)
    | (dsimp only [Only.mk_eq]; with_reducible apply OnlyParts.bkp (c := testBit_ge le rfl); with_reducible apply Only.parts)
    | split
    | dsimp only
    | assumption

/-- It can touch leases, a, b, br, otp, keys, upd. -/
theorem State.lcResume_only {M : Nat} {s0 : State} (s : State) (h_s : Only M s0 s) (le : 0xa88e0 ||| M = M) : Only M s0 (State.lcResume s) := by
  unfold State.lcResume
  repeat' first
    | with_reducible assumption
    | with_reducible apply State.lcAct_only (le := or_le rfl le)
    | with_reducible apply State.otpWant_only (le := or_le rfl le)
    | split
    | dsimp only
    | assumption

/-- It can touch a, b. -/
theorem State.loadRepairs_only {M : Nat} {s0 : State} (s : State) (h_s : Only M s0 s) (le : 0xc0 ||| M = M) : Only M s0 (State.loadRepairs s) := by
  unfold State.loadRepairs
  repeat' first
    | with_reducible assumption
    | intro _
    | with_reducible apply Only.ite
    | with_reducible apply State.updDie_only (le := or_le rfl le)
    | with_reducible apply Only.foldl
    | split
    | dsimp only
    | assumption

/-- It can touch keys. -/
theorem State.authClose_only {M : Nat} {s0 : State} (s : State) (v : Nat) (h_s : Only M s0 s) (le : 0x20000 ||| M = M) : Only M s0 (State.authClose s v) := by
  unfold State.authClose
  repeat' first
    | with_reducible assumption
    | (dsimp only [Only.mk_eq]; with_reducible apply OnlyParts.keys (c := testBit_ge le rfl); with_reducible apply Only.parts)
    | dsimp only
    | assumption

/-- It can touch keys. -/
theorem State.newEra_only {M : Nat} {s0 : State} (s : State) (era keyset : Nat) (install : Bool) (h_s : Only M s0 s) (le : 0x20000 ||| M = M) : Only M s0 (State.newEra s era keyset install) := by
  unfold State.newEra
  repeat' first
    | with_reducible assumption
    | with_reducible apply Only.ite
    | with_reducible apply State.authClose_only (le := or_le rfl le)
    | (dsimp only [Only.mk_eq]; with_reducible apply OnlyParts.keys (c := testBit_ge le rfl); with_reducible apply Only.parts)
    | split
    | dsimp only
    | assumption

/-- It can touch keys. -/
theorem State.bootEra_only {M : Nat} {s0 : State} (s : State) (h_s : Only M s0 s) (le : 0x20000 ||| M = M) : Only M s0 (State.bootEra s) := by
  have h2 : ∀ x, Only M s0 { s with keys := x } := by
    intro x
    with_reducible apply Only.mk
    with_reducible apply OnlyParts.keys (c := testBit_ge le rfl)
    exact h_s
  unfold State.bootEra
  extract_lets lost cnt base ks era _ s1 fresh _
  have hf : ∀ e, Only M s0 (fresh e) := by
    intro e
    apply Only.ite (State.authClose_only _ _ (h2 _) le)
    apply State.newEra_only _ _ _ _ ?_ le
    exact h2 _
  have h3 : Only M s0 s1 := h2 _
  have h4 : ∀ x, Only M s0 { s1 with keys := x } := fun x => h2 x
  clear_value fresh s1
  split
  · split
    · exact hf _
    · exact State.authClose_only _ _ h3 le
  · split
    · split
      · exact h4 _
      · exact hf _
    · exact hf _

/-- It can touch a, b, regs. -/
theorem State.bootJournal_only {M : Nat} {s0 : State} (s : State) (d : Die) (h_s : Only M s0 s) (le : 0x2c0 ||| M = M) : Only M s0 (State.bootJournal s d) := by
  unfold State.bootJournal
  repeat' first
    | with_reducible assumption
    | with_reducible apply Only.ite
    | with_reducible apply State.jrnRec_only (le := or_le rfl le)
    | split
    | dsimp only
    | assumption

/-- It can touch pat. -/
theorem State.bootPattern_only {M : Nat} {s0 : State} (s : State) (h_s : Only M s0 s) (le : 0x200000 ||| M = M) : Only M s0 (State.bootPattern s) := by
  unfold State.bootPattern
  repeat' first
    | with_reducible assumption
    | intro _
    | with_reducible apply Only.ite
    | with_reducible apply State.lcLoad_only (le := or_le rfl le)
    | (dsimp only [Only.mk_eq]; with_reducible apply OnlyParts.pat (c := testBit_ge le rfl); with_reducible apply Only.parts)
    | split
    | dsimp only
    | assumption

/-- It can touch flt, fd. -/
theorem State.untrip_only {M : Nat} {s0 : State} (s : State) (h_s : Only M s0 s) (le : 0x110 ||| M = M) : Only M s0 (State.untrip s) := by
  unfold State.untrip
  repeat' first
    | with_reducible assumption
    | with_reducible apply State.driveTrips_only (le := or_le rfl le)
    | (dsimp only [Only.mk_eq]; with_reducible apply OnlyParts.flt (c := testBit_ge le rfl); with_reducible apply Only.parts)
    | dsimp only
    | assumption

/-- It can touch modes, pow, clk, flt, a, b, fd, regs, rings, tst, pat, stdin, remote, mode. -/
theorem State.bootEnd_only {M : Nat} {s0 : State} (s : State) (h_s : Only M s0 s) (le : 0x8f013de ||| M = M) : Only M s0 (State.bootEnd s) := by
  unfold State.bootEnd
  repeat' first
    | with_reducible assumption
    | with_reducible apply Only.ite
    | with_reducible apply State.enterSafe_only (le := or_le rfl le)
    | with_reducible apply State.setReg_only (le := or_le rfl le)
    | with_reducible apply State.takeRun_only (le := or_le rfl le)
    | with_reducible apply State.toMode_only (le := or_le rfl le)
    | with_reducible apply State.untrip_only (le := or_le rfl le)
    | (dsimp only [Only.mk_eq]; with_reducible apply OnlyParts.pow (c := testBit_ge le rfl); with_reducible apply Only.parts)
    | split
    | dsimp only
    | assumption

/-- It can touch regs, freeCtr. -/
theorem State.fieldSupply_only {M : Nat} {s0 : State} (s : State) (f : Nat) (h_s : Only M s0 s) (le : 0x1000200 ||| M = M) : Only M s0 (State.fieldSupply s f) := by
  unfold State.fieldSupply
  repeat' first
    | with_reducible assumption
    | with_reducible apply State.free_only (le := or_le rfl le)
    | with_reducible apply State.setReg_only (le := or_le rfl le)
    | dsimp only
    | assumption

/-- It can touch modes, pow, clk, flt, leases, a, b, fd, regs, br, rings, crc, otp, bkp, st, upd, tst, pat, stdin, remote, freeCtr, mode. -/
theorem State.endStep_only {M : Nat} {s0 : State} (s : State) (k : Nat) (h_s : Only M s0 s) (le : 0x9fdbbfe ||| M = M) : Only M s0 (State.endStep s k) := by
  unfold State.endStep
  repeat' first
    | with_reducible assumption
    | intro _
    | with_reducible apply Only.ite
    | with_reducible apply Pattern.noModes_only (le := or_le rfl le)
    | with_reducible apply State.bootCount_only (le := or_le rfl le)
    | with_reducible apply State.bootEnd_only (le := or_le rfl le)
    | with_reducible apply State.bootJournal_only (le := or_le rfl le)
    | with_reducible apply State.driveTrips_only (le := or_le rfl le)
    | with_reducible apply State.fieldSupply_only (le := or_le rfl le)
    | with_reducible apply State.loadRepairs_only (le := or_le rfl le)
    | with_reducible apply State.openConf_only (le := or_le rfl le)
    | with_reducible apply State.updDie_only (le := or_le rfl le)
    | with_reducible apply Only.foldl
    | (dsimp only [Only.mk_eq]; with_reducible apply OnlyParts.pow (c := testBit_ge le rfl); with_reducible apply OnlyParts.clk (c := testBit_ge le rfl); with_reducible apply OnlyParts.fd (c := testBit_ge le rfl); with_reducible apply OnlyParts.rings (c := testBit_ge le rfl); with_reducible apply Only.parts)
    | split
    | dsimp only
    | assumption

/-- It can touch modes, pow, clk, flt, leases, a, b, fd, regs, br, rings, crc, otp, bkp, keys, st, upd, tst, pat, stdin, remote, freeCtr, mode. -/
theorem doBootStepComplete_only {M : Nat} {s0 : State} (s : State) (h_s : Only M s0 s) (le : 0x9ffbbfe ||| M = M) : Only M s0 (doBootStepComplete s) := by
  unfold doBootStepComplete
  repeat' first
    | with_reducible assumption
    | with_reducible apply Only.ite
    | with_reducible apply State.beginStep_only (le := or_le rfl le)
    | with_reducible apply State.bootEra_only (le := or_le rfl le)
    | with_reducible apply State.bootPattern_only (le := or_le rfl le)
    | with_reducible apply State.endStep_only (le := or_le rfl le)
    | with_reducible apply State.lcResume_only (le := or_le rfl le)
    | (dsimp only [Only.mk_eq]; with_reducible apply OnlyParts.keys (c := testBit_ge le rfl); with_reducible apply Only.parts)
    | split
    | dsimp only
    | assumption

/-- It can touch pow, clk, a, b, fd, keys. -/
theorem State.unboot_only {M : Nat} {s0 : State} (s : State) (held : Bool) (h_s : Only M s0 s) (le : 0x201cc ||| M = M) : Only M s0 (State.unboot s held) := by
  unfold State.unboot
  repeat' first
    | with_reducible assumption
    | intro _
    | with_reducible apply Only.ite
    | (dsimp only [Only.mk_eq]; with_reducible apply OnlyParts.pow (c := testBit_ge le rfl); with_reducible apply OnlyParts.clk (c := testBit_ge le rfl); with_reducible apply OnlyParts.a (c := testBit_ge le rfl); with_reducible apply OnlyParts.b (c := testBit_ge le rfl); with_reducible apply OnlyParts.fd (c := testBit_ge le rfl); with_reducible apply OnlyParts.keys (c := testBit_ge le rfl); with_reducible apply Only.parts)
    | split
    | dsimp only
    | assumption

/-- It can touch modes, pow, clk, flt, leases, a, b, fd, regs, br, crc, otp, keys, st, upd, freeCtr. -/
theorem doBootStepTimeout_only {M : Nat} {s0 : State} (s : State) (h_s : Only M s0 s) (le : 0x10eabfe ||| M = M) : Only M s0 (doBootStepTimeout s) := by
  unfold doBootStepTimeout
  repeat' first
    | with_reducible assumption
    | with_reducible apply Only.ite
    | with_reducible apply State.latch_only (le := or_le rfl le)
    | with_reducible apply State.railCause_only (le := or_le rfl le)
    | with_reducible apply State.setReg_only (le := or_le rfl le)
    | with_reducible apply State.unboot_only (le := or_le rfl le)
    | (dsimp only [Only.mk_eq]; with_reducible apply OnlyParts.pow (c := testBit_ge le rfl); with_reducible apply Only.parts)
    | split
    | dsimp only
    | assumption

/-- It can touch pow, clk, a, b, regs. -/
theorem doBootRetry_only {M : Nat} {s0 : State} (s : State) (h_s : Only M s0 s) (le : 0x2cc ||| M = M) : Only M s0 (doBootRetry s) := by
  unfold doBootRetry
  repeat' first
    | with_reducible assumption
    | with_reducible apply Only.ite
    | with_reducible apply State.beginStep_only (le := or_le rfl le)
    | (dsimp only [Only.mk_eq]; with_reducible apply OnlyParts.pow (c := testBit_ge le rfl); with_reducible apply Only.parts)
    | split
    | dsimp only
    | assumption

/-- It can touch modes, pow, flt, leases, a, b, fd, regs, br, crc, otp, st, upd, freeCtr. -/
theorem State.vinOff_only {M : Nat} {s0 : State} (s : State) (h_s : Only M s0 s) (le : 0x10cabf6 ||| M = M) : Only M s0 (State.vinOff s) := by
  unfold State.vinOff
  repeat' first
    | with_reducible assumption
    | with_reducible apply State.latchStanding_only (le := or_le rfl le)
    | with_reducible apply State.revert_only (le := or_le rfl le)
    | with_reducible apply State.tripNow_only (le := or_le rfl le)
    | (dsimp only [Only.mk_eq]; with_reducible apply OnlyParts.pow (c := testBit_ge le rfl); with_reducible apply Only.parts)
    | dsimp only
    | assumption

/-- It can touch modes, pow, flt, leases, a, b, fd, regs, br, crc, otp, st, upd, freeCtr. -/
theorem doResetNLow_only {M : Nat} {s0 : State} (s : State) (h_s : Only M s0 s) (le : 0x10cabf6 ||| M = M) : Only M s0 (doResetNLow s) := by
  unfold doResetNLow
  repeat' first
    | with_reducible assumption
    | with_reducible apply Only.ite
    | with_reducible apply State.vinOff_only (le := or_le rfl le)
    | (dsimp only [Only.mk_eq]; with_reducible apply OnlyParts.pow (c := testBit_ge le rfl); with_reducible apply Only.parts)
    | split
    | dsimp only
    | assumption

/-- It can touch modes, pow, clk, a, b, regs, freeCtr, mode. -/
theorem doResetNRelease_only {M : Nat} {s0 : State} (s : State) (h_s : Only M s0 s) (le : 0x90002ce ||| M = M) : Only M s0 (doResetNRelease s) := by
  unfold doResetNRelease
  repeat' first
    | with_reducible assumption
    | with_reducible apply Only.ite
    | with_reducible apply State.startBoot_only (le := or_le rfl le)
    | (dsimp only [Only.mk_eq]; with_reducible apply OnlyParts.pow (c := testBit_ge le rfl); with_reducible apply Only.parts)
    | split
    | dsimp only
    | assumption

/-- It can touch pow. -/
theorem State.pfStart_only {M : Nat} {s0 : State} (s : State) (h_s : Only M s0 s) (le : 0x4 ||| M = M) : Only M s0 (State.pfStart s) := by
  unfold State.pfStart
  repeat' first
    | with_reducible assumption
    | with_reducible apply Only.ite
    | (dsimp only [Only.mk_eq]; with_reducible apply OnlyParts.pow (c := testBit_ge le rfl); with_reducible apply Only.parts)
    | split
    | dsimp only
    | assumption

/-- It can touch modes, pow, flt, leases, a, b, fd, regs, br, crc, otp, st, upd, freeCtr. -/
theorem doPfwLatch_only {M : Nat} {s0 : State} (mv : Nat) (s : State) (h_s : Only M s0 s) (le : 0x10cabf6 ||| M = M) : Only M s0 (doPfwLatch mv s) := by
  unfold doPfwLatch
  repeat' first
    | with_reducible assumption
    | with_reducible apply Only.ite
    | with_reducible apply State.bump_only (le := or_le rfl le)
    | with_reducible apply State.latchStanding_only (le := or_le rfl le)
    | with_reducible apply State.pfStart_only (le := or_le rfl le)
    | with_reducible apply State.setReg_only (le := or_le rfl le)
    | (dsimp only [Only.mk_eq]; with_reducible apply OnlyParts.pow (c := testBit_ge le rfl); with_reducible apply Only.parts)
    | split
    | dsimp only
    | assumption

/-- It can touch pow. -/
theorem doPowerFailRecordDone_only {M : Nat} {s0 : State} (d : Die) (s : State) (h_s : Only M s0 s) (le : 0x4 ||| M = M) : Only M s0 (doPowerFailRecordDone d s) := by
  unfold doPowerFailRecordDone
  repeat' first
    | with_reducible assumption
    | (dsimp only [Only.mk_eq]; with_reducible apply OnlyParts.pow (c := testBit_ge le rfl); with_reducible apply Only.parts)
    | split
    | dsimp only
    | assumption

/-- It can touch pow, flt, leases, regs, otp. -/
theorem doPfwClear_only {M : Nat} {s0 : State} (mv : Nat) (s : State) (h_s : Only M s0 s) (le : 0x8234 ||| M = M) : Only M s0 (doPfwClear mv s) := by
  unfold doPfwClear
  repeat' first
    | with_reducible assumption
    | with_reducible apply Only.ite
    | with_reducible apply State.causeOff_only (le := or_le rfl le)
    | with_reducible apply State.otpNext_only (le := or_le rfl le)
    | with_reducible apply State.setReg_only (le := or_le rfl le)
    | (dsimp only [Only.mk_eq]; with_reducible apply OnlyParts.pow (c := testBit_ge le rfl); with_reducible apply Only.parts)
    | split
    | dsimp only
    | assumption

/-- It can touch modes, pow, flt, leases, a, b, fd, regs, br, crc, otp, st, upd, freeCtr. -/
theorem doVinOff_only {M : Nat} {s0 : State} (mv : Nat) (s : State) (h_s : Only M s0 s) (le : 0x10cabf6 ||| M = M) : Only M s0 (doVinOff mv s) := by
  unfold doVinOff
  repeat' first
    | with_reducible assumption
    | with_reducible apply Only.ite
    | with_reducible apply State.setReg_only (le := or_le rfl le)
    | with_reducible apply State.vinOff_only (le := or_le rfl le)
    | (dsimp only [Only.mk_eq]; with_reducible apply OnlyParts.pow (c := testBit_ge le rfl); with_reducible apply Only.parts)
    | split
    | dsimp only
    | assumption

/-- It can touch modes, pow, flt, leases, a, b, fd, regs, br, crc, otp, st, upd, freeCtr. -/
theorem doRailExcursion_only {M : Nat} {s0 : State} (r : Rail) (mv : Nat) (s : State) (h_s : Only M s0 s) (le : 0x10cabf6 ||| M = M) : Only M s0 (doRailExcursion r mv s) := by
  unfold doRailExcursion
  repeat' first
    | with_reducible assumption
    | with_reducible apply Only.ite
    | with_reducible apply State.latch_only (le := or_le rfl le)
    | with_reducible apply State.latchStanding_only (le := or_le rfl le)
    | with_reducible apply State.railCause_only (le := or_le rfl le)
    | with_reducible apply State.setReg_only (le := or_le rfl le)
    | (dsimp only [Only.mk_eq]; with_reducible apply OnlyParts.pow (c := testBit_ge le rfl); with_reducible apply Only.parts)
    | split
    | dsimp only
    | assumption

/-- It can touch pow, flt, regs. -/
theorem doRailReturn_only {M : Nat} {s0 : State} (r : Rail) (mv : Nat) (s : State) (h_s : Only M s0 s) (le : 0x214 ||| M = M) : Only M s0 (doRailReturn r mv s) := by
  unfold doRailReturn
  repeat' first
    | with_reducible assumption
    | with_reducible apply Only.ite
    | with_reducible apply State.causeOff_only (le := or_le rfl le)
    | with_reducible apply State.railCause_only (le := or_le rfl le)
    | with_reducible apply State.setReg_only (le := or_le rfl le)
    | (dsimp only [Only.mk_eq]; with_reducible apply OnlyParts.pow (c := testBit_ge le rfl); with_reducible apply Only.parts)
    | split
    | dsimp only
    | assumption

end Sys2Proof.Machine
end

