-- ==== Sys2Proof/Laws/OnlyStitch.lean ====
section
/-! SUPPORT. Which fields the operations of Machine/Stitch.lean can touch. -/

set_option linter.unusedTactic false
set_option linter.unreachableTactic false
set_option linter.unusedVariables false

namespace Sys2Proof.Machine

/-- It can touch modes, pow, flt, leases, a, b, fd, regs, br, crc, otp, st, upd, freeCtr. -/
theorem State.retrain_only {M : Nat} {s0 : State} (s : State) (h_s : Only M s0 s) (le : 0x10cabf6 ||| M = M) : Only M s0 (State.retrain s) := by
  unfold State.retrain
  repeat' first
    | with_reducible assumption
    | with_reducible apply Only.ite
    | with_reducible apply State.bump_only (le := or_le rfl le)
    | with_reducible apply State.latch_only (le := or_le rfl le)
    | with_reducible apply State.latch3_only (le := or_le rfl le)
    | with_reducible apply State.stitchReset_only (le := or_le rfl le)
    | split
    | dsimp only
    | assumption

/-- It can touch modes, pow, flt, leases, a, b, fd, regs, br, crc, otp, st, upd, freeCtr. -/
theorem State.resendFrom_only {M : Nat} {s0 : State} (s : State) (d : Die) (h_s : Only M s0 s) (le : 0x10cabf6 ||| M = M) : Only M s0 (State.resendFrom s d) := by
  unfold State.resendFrom
  repeat' first
    | with_reducible assumption
    | intro _
    | with_reducible apply Only.ite
    | with_reducible apply State.retrain_only (le := or_le rfl le)
    | with_reducible apply State.updDie_only (le := or_le rfl le)
    | split
    | dsimp only
    | assumption

/-- It can touch modes, pow, flt, leases, a, b, fd, regs, br, crc, otp, st, upd, freeCtr. -/
theorem State.flitBad_only {M : Nat} {s0 : State} (s : State) (d : Die) (h_s : Only M s0 s) (le : 0x10cabf6 ||| M = M) : Only M s0 (State.flitBad s d) := by
  unfold State.flitBad
  repeat' first
    | with_reducible assumption
    | intro _
    | with_reducible apply State.bump_only (le := or_le rfl le)
    | with_reducible apply State.resendFrom_only (le := or_le rfl le)
    | with_reducible apply State.updDie_only (le := or_le rfl le)
    | dsimp only
    | assumption

/-- It can touch modes, pow, flt, leases, a, b, fd, regs, br, crc, otp, st, upd, freeCtr and what its argument can. -/
theorem State.flit_only {M : Nat} {s0 : State} (s : State) (d : Die) (h : FlitHdr) (r : FlitRec) (f : State → State) (h_s : Only M s0 s) (k_f : ∀ t, Only M s0 t → Only M s0 (f t)) (le : 0x10cabf6 ||| M = M) : Only M s0 (State.flit s d h r f) := by
  unfold State.flit
  repeat' first
    | with_reducible assumption
    | intro _
    | with_reducible apply Only.ite
    | with_reducible apply State.flitBad_only (le := or_le rfl le)
    | with_reducible apply State.updDie_only (le := or_le rfl le)
    | with_reducible apply k_f
    | split
    | dsimp only
    | assumption

/-- It can touch modes, pow, flt, leases, a, b, fd, regs, br, crc, otp, st, upd, freeCtr. -/
theorem doStitchFlitCrcError_only {M : Nat} {s0 : State} (d : Die) (s : State) (h_s : Only M s0 s) (le : 0x10cabf6 ||| M = M) : Only M s0 (doStitchFlitCrcError d s) := by
  unfold doStitchFlitCrcError
  repeat' first
    | with_reducible assumption
    | with_reducible apply Only.ite
    | with_reducible apply State.flitBad_only (le := or_le rfl le)
    | split
    | dsimp only
    | assumption

/-- It can touch modes, pow, flt, leases, a, b, fd, regs, br, crc, otp, st, upd, freeCtr. -/
theorem doStitchRetryTimeout_only {M : Nat} {s0 : State} (d : Die) (s : State) (h_s : Only M s0 s) (le : 0x10cabf6 ||| M = M) : Only M s0 (doStitchRetryTimeout d s) := by
  unfold doStitchRetryTimeout
  repeat' first
    | with_reducible assumption
    | with_reducible apply Only.ite
    | with_reducible apply State.resendFrom_only (le := or_le rfl le)
    | with_reducible apply State.retrain_only (le := or_le rfl le)
    | split
    | dsimp only
    | assumption

/-- It can touch modes, pow, clk, flt, leases, a, b, fd, regs, br, crc, otp, st, upd, freeCtr. -/
theorem doRetrainComplete_only {M : Nat} {s0 : State} (s : State) (h_s : Only M s0 s) (le : 0x10cabfe ||| M = M) : Only M s0 (doRetrainComplete s) := by
  unfold doRetrainComplete
  repeat' first
    | with_reducible assumption
    | with_reducible apply Only.ite
    | with_reducible apply State.causeOff_only (le := or_le rfl le)
    | with_reducible apply State.retrain_only (le := or_le rfl le)
    | with_reducible apply State.updDie_only (le := or_le rfl le)
    | (dsimp only [Only.mk_eq]; with_reducible apply OnlyParts.clk (c := testBit_ge le rfl); with_reducible apply OnlyParts.flt (c := testBit_ge le rfl); with_reducible apply Only.parts)
    | split
    | dsimp only
    | assumption

/-- It can touch modes, pow, flt, leases, a, b, fd, regs, br, crc, otp, st, upd, freeCtr. -/
theorem doStitchLaneTrainFail_only {M : Nat} {s0 : State} (d : Die) (lane : Fin 4) (s : State) (h_s : Only M s0 s) (le : 0x10cabf6 ||| M = M) : Only M s0 (doStitchLaneTrainFail d lane s) := by
  unfold doStitchLaneTrainFail
  repeat' first
    | with_reducible assumption
    | intro _
    | with_reducible apply State.latchStanding_only (le := or_le rfl le)
    | with_reducible apply State.updDie_only (le := or_le rfl le)
    | dsimp only
    | assumption

/-- It can touch modes. -/
theorem State.waitTick_only {M : Nat} {s0 : State} (s : State) (d : Die) (skew : Nat) (h_s : Only M s0 s) (le : 0x2 ||| M = M) : Only M s0 (State.waitTick s d skew) := by
  unfold State.waitTick
  repeat' first
    | with_reducible assumption
    | with_reducible apply Only.ite
    | (dsimp only [Only.mk_eq]; with_reducible apply OnlyParts.modesKeep (c := testBit_ge le rfl); with_reducible apply Only.parts <;> try with_reducible rfl)
    | split
    | dsimp only
    | assumption

/-- It can touch flt. -/
theorem State.readmTick_only {M : Nat} {s0 : State} (s : State) (d : Die) (skew : Nat) (h_s : Only M s0 s) (le : 0x10 ||| M = M) : Only M s0 (State.readmTick s d skew) := by
  unfold State.readmTick
  repeat' first
    | with_reducible assumption
    | with_reducible apply Only.ite
    | (dsimp only [Only.mk_eq]; with_reducible apply OnlyParts.flt (c := testBit_ge le rfl); with_reducible apply Only.parts)
    | split
    | dsimp only
    | assumption

/-- It can touch modes, pow, flt, leases, a, b, fd, regs, br, crc, otp, st, upd, freeCtr. -/
theorem doTickTimestampRx_only {M : Nat} {s0 : State} (d : Die) (h : FlitHdr) (ts lastCommit : Nat) (s : State) (h_s : Only M s0 s) (le : 0x10cabf6 ||| M = M) : Only M s0 (doTickTimestampRx d h ts lastCommit s) := by
  unfold doTickTimestampRx
  repeat' first
    | with_reducible assumption
    | intro _
    | with_reducible apply Only.ite
    | with_reducible apply State.flit_only (le := or_le rfl le)
    | with_reducible apply State.latch_only (le := or_le rfl le)
    | with_reducible apply State.readmTick_only (le := or_le rfl le)
    | with_reducible apply State.setReg_only (le := or_le rfl le)
    | with_reducible apply State.waitTick_only (le := or_le rfl le)
    | split
    | dsimp only
    | assumption

/-- It can touch modes, pow, flt, leases, a, b, fd, regs, br, crc, otp, st, upd, freeCtr. -/
theorem doInputSupervisionFlitRx_only {M : Nat} {s0 : State} (d : Die) (h : FlitHdr) (tag states : Nat) (codes : List Nat) (s : State) (h_s : Only M s0 s) (le : 0x10cabf6 ||| M = M) : Only M s0 (doInputSupervisionFlitRx d h tag states codes s) := by
  unfold doInputSupervisionFlitRx
  repeat' first
    | with_reducible assumption
    | intro _
    | with_reducible apply Only.ite
    | with_reducible apply State.flit_only (le := or_le rfl le)
    | with_reducible apply State.setDie_only (le := or_le rfl le)
    | with_reducible apply Only.foldl
    | split
    | dsimp only
    | assumption

/-- It can touch modes, pow, flt, leases, a, b, fd, regs, br, crc, otp, st, upd, freeCtr. -/
theorem doOutputSupervisionFlitRx_only {M : Nat} {s0 : State} (d : Die) (h : FlitHdr) (fd : Fin 4) (codes : List Nat) (s : State) (h_s : Only M s0 s) (le : 0x10cabf6 ||| M = M) : Only M s0 (doOutputSupervisionFlitRx d h fd codes s) := by
  unfold doOutputSupervisionFlitRx
  repeat' first
    | with_reducible assumption
    | intro _
    | with_reducible apply Only.ite
    | with_reducible apply State.flit_only (le := or_le rfl le)
    | with_reducible apply State.setDie_only (le := or_le rfl le)
    | with_reducible apply Only.foldl
    | split
    | dsimp only
    | assumption

/-- It can touch a, b, regs. -/
theorem State.staleRec_only {M : Nat} {s0 : State} (s : State) (d : Die) (r : CmpFlit) (h_s : Only M s0 s) (le : 0x2c0 ||| M = M) : Only M s0 (State.staleRec s d r) := by
  unfold State.staleRec
  repeat' first
    | with_reducible assumption
    | intro _
    | with_reducible apply Only.ite
    | with_reducible apply State.bump_only (le := or_le rfl le)
    | with_reducible apply State.updDie_only (le := or_le rfl le)
    | split
    | dsimp only
    | assumption

/-- It can touch modes, pow, flt, leases, a, b, fd, regs, br, crc, otp, st, upd, freeCtr. -/
theorem doCompareRecordRx_only {M : Nat} {s0 : State} (d : Die) (h : FlitHdr) (r : CmpFlit) (s : State) (h_s : Only M s0 s) (le : 0x10cabf6 ||| M = M) : Only M s0 (doCompareRecordRx d h r s) := by
  unfold doCompareRecordRx
  repeat' first
    | with_reducible assumption
    | intro _
    | with_reducible apply Only.ite
    | with_reducible apply State.countCompares_only (le := or_le rfl le)
    | with_reducible apply State.flit_only (le := or_le rfl le)
    | with_reducible apply State.ready_only (le := or_le rfl le)
    | with_reducible apply State.setDie_only (le := or_le rfl le)
    | with_reducible apply State.setReg_only (le := or_le rfl le)
    | with_reducible apply State.staleRec_only (le := or_le rfl le)
    | split
    | dsimp only
    | assumption

/-- It can touch modes, pow, flt, leases, a, b, fd, regs, br, rings, crc, otp, st, upd, pat, freeCtr, mode. -/
theorem doReadyRx_only {M : Nat} {s0 : State} (d : Die) (h : FlitHdr) (s : State) (h_s : Only M s0 s) (le : 0x92cbbf6 ||| M = M) : Only M s0 (doReadyRx d h s) := by
  unfold doReadyRx
  repeat' first
    | with_reducible assumption
    | intro _
    | with_reducible apply Only.ite
    | with_reducible apply State.flit_only (le := or_le rfl le)
    | with_reducible apply State.lateCommit_only (le := or_le rfl le)
    | with_reducible apply State.updDie_only (le := or_le rfl le)
    | split
    | dsimp only
    | assumption

/-- It can touch modes, pow, flt, leases, a, b, fd, regs, br, rings, crc, otp, st, upd, pat, freeCtr, mode. -/
theorem State.localise_only {M : Nat} {s0 : State} (s : State) (d : Die) (p : Pattern) (bytes : List Byte) (h_s : Only M s0 s) (le : 0x92cbbf6 ||| M = M) : Only M s0 (State.localise s d p bytes) := by
  unfold State.localise
  repeat' first
    | with_reducible assumption
    | intro _
    | with_reducible apply Only.ite
    | with_reducible apply State.advance_only (le := or_le rfl le)
    | with_reducible apply State.setDie_only (le := or_le rfl le)
    | with_reducible apply State.setOnce_only (le := or_le rfl le)
    | with_reducible apply State.settleReplay_only (le := or_le rfl le)
    | split
    | dsimp only
    | assumption

/-- It can touch modes, pow, flt, leases, a, b, fd, regs, br, rings, crc, otp, st, upd, pat, freeCtr, mode. -/
theorem doLocalisationRecordRx_only {M : Nat} {s0 : State} (d : Die) (h : FlitHdr) (index : Nat) (bytes : List Byte) (s : State) (h_s : Only M s0 s) (le : 0x92cbbf6 ||| M = M) : Only M s0 (doLocalisationRecordRx d h index bytes s) := by
  unfold doLocalisationRecordRx
  repeat' first
    | with_reducible assumption
    | intro _
    | with_reducible apply Only.ite
    | with_reducible apply State.bump_only (le := or_le rfl le)
    | with_reducible apply State.flit_only (le := or_le rfl le)
    | with_reducible apply State.localise_only (le := or_le rfl le)
    | with_reducible apply State.setDie_only (le := or_le rfl le)
    | split
    | dsimp only
    | assumption

/-- It can touch modes, pow, flt, leases, a, b, fd, regs, br, rings, crc, otp, st, upd, pat, freeCtr, mode. -/
theorem doReplayRecordRx_only {M : Nat} {s0 : State} (d : Die) (h : FlitHdr) (r : CmpFlit) (s : State) (h_s : Only M s0 s) (le : 0x92cbbf6 ||| M = M) : Only M s0 (doReplayRecordRx d h r s) := by
  unfold doReplayRecordRx
  repeat' first
    | with_reducible assumption
    | intro _
    | with_reducible apply Only.ite
    | with_reducible apply State.countCompares_only (le := or_le rfl le)
    | with_reducible apply State.flit_only (le := or_le rfl le)
    | with_reducible apply State.setDie_only (le := or_le rfl le)
    | with_reducible apply State.settleReplay_only (le := or_le rfl le)
    | with_reducible apply State.staleRec_only (le := or_le rfl le)
    | split
    | dsimp only
    | assumption

/-- It can touch modes, pow, flt, leases, a, b, fd, regs, br, rings, crc, otp, st, upd, pat, freeCtr, mode. -/
theorem doJobComplete_only {M : Nat} {s0 : State} (d : Die) (lane : Fin 17) (s : State) (h_s : Only M s0 s) (le : 0x92cbbf6 ||| M = M) : Only M s0 (doJobComplete d lane s) := by
  unfold doJobComplete
  repeat' first
    | with_reducible assumption
    | with_reducible apply Only.ite
    | with_reducible apply State.advance_only (le := or_le rfl le)
    | with_reducible apply State.laneFail_only (le := or_le rfl le)
    | with_reducible apply State.setDie_only (le := or_le rfl le)
    | with_reducible apply State.settleReplay_only (le := or_le rfl le)
    | split
    | dsimp only
    | assumption

/-- It can touch modes, pow, flt, leases, a, b, fd, regs, br, crc, otp, st, upd, freeCtr. -/
theorem doLaneError_only {M : Nat} {s0 : State} (d : Die) (lane : Fin 17) (s : State) (h_s : Only M s0 s) (le : 0x10cabf6 ||| M = M) : Only M s0 (doLaneError d lane s) := by
  unfold doLaneError
  repeat' first
    | with_reducible assumption
    | with_reducible apply Only.ite
    | with_reducible apply State.laneFail_only (le := or_le rfl le)
    | split
    | dsimp only
    | assumption

/-- It can touch modes, pow, flt, leases, a, b, fd, regs, br, crc, otp, st, upd, freeCtr. -/
theorem doLateCommitLimit_only {M : Nat} {s0 : State} (d : Die) (s : State) (h_s : Only M s0 s) (le : 0x10cabf6 ||| M = M) : Only M s0 (doLateCommitLimit d s) := by
  unfold doLateCommitLimit
  repeat' first
    | with_reducible assumption
    | intro _
    | with_reducible apply Only.ite
    | with_reducible apply State.latch_only (le := or_le rfl le)
    | with_reducible apply State.notAgreed_only (le := or_le rfl le)
    | with_reducible apply State.setDie_only (le := or_le rfl le)
    | split
    | dsimp only
    | assumption

/-- It can touch modes, pow, flt, leases, a, b, fd, regs, br, crc, otp, st, upd, freeCtr. -/
theorem doPairingRecordRx_only {M : Nat} {s0 : State} (d : Die) (h : FlitHdr) (r : PairRec) (s : State) (h_s : Only M s0 s) (le : 0x10cabf6 ||| M = M) : Only M s0 (doPairingRecordRx d h r s) := by
  unfold doPairingRecordRx
  repeat' first
    | with_reducible assumption
    | intro _
    | with_reducible apply Only.ite
    | with_reducible apply State.flit_only (le := or_le rfl le)
    | with_reducible apply State.setDie_only (le := or_le rfl le)
    | split
    | dsimp only
    | assumption

/-- It can touch modes, pow, flt, leases, a, b, fd, regs, br, crc, otp, st, upd, freeCtr. -/
theorem doPositionRecordRx_only {M : Nat} {s0 : State} (d : Die) (h : FlitHdr) (first : Nat) (recs : List PosRec) (s : State) (h_s : Only M s0 s) (le : 0x10cabf6 ||| M = M) : Only M s0 (doPositionRecordRx d h first recs s) := by
  unfold doPositionRecordRx
  repeat' first
    | with_reducible assumption
    | intro _
    | with_reducible apply Only.ite
    | with_reducible apply State.flit_only (le := or_le rfl le)
    | with_reducible apply State.setDie_only (le := or_le rfl le)
    | with_reducible apply Only.foldl
    | with_reducible apply Only.foldlSnd
    | split
    | dsimp only
    | assumption

end Sys2Proof.Machine
end

