-- ==== Sys2Proof/Laws/OnlyTiming.lean ====
section
/-! SUPPORT. Which fields the operations of Machine/Timing.lean can touch. -/

set_option linter.unusedTactic false
set_option linter.unreachableTactic false
set_option linter.unusedVariables false

namespace Sys2Proof.Machine

/-- It can touch flt, a, b. -/
theorem State.holdEnd_only {M : Nat} {s0 : State} (s : State) (h_s : Only M s0 s) (le : 0xd0 ||| M = M) : Only M s0 (State.holdEnd s) := by
  unfold State.holdEnd
  repeat' first
    | with_reducible assumption
    | with_reducible apply Only.ite
    | with_reducible apply State.causeOff_only (le := or_le rfl le)
    | with_reducible apply State.updDie_only (le := or_le rfl le)
    | split
    | dsimp only
    | assumption

/-- It can touch flt, a, b. -/
theorem State.unlock_only {M : Nat} {s0 : State} (s : State) (d : Die) (h_s : Only M s0 s) (le : 0xd0 ||| M = M) : Only M s0 (State.unlock s d) := by
  unfold State.unlock
  repeat' first
    | with_reducible assumption
    | intro _
    | with_reducible apply State.holdEnd_only (le := or_le rfl le)
    | with_reducible apply State.updDie_only (le := or_le rfl le)
    | dsimp only
    | assumption

/-- It can touch modes, flt, a, b. -/
theorem State.lockTo_only {M : Nat} {s0 : State} (s : State) (d : Die) (gm : Nat) (h_s : Only M s0 s) (le : 0xd2 ||| M = M) : Only M s0 (State.lockTo s d gm) := by
  unfold State.lockTo
  repeat' first
    | with_reducible assumption
    | intro _
    | with_reducible apply Only.ite
    | with_reducible apply State.holdEnd_only (le := or_le rfl le)
    | with_reducible apply State.setDie_only (le := or_le rfl le)
    | with_reducible apply State.updDie_only (le := or_le rfl le)
    | (dsimp only [Only.mk_eq]; with_reducible apply OnlyParts.modesKeep (c := testBit_ge le rfl); with_reducible apply Only.parts <;> try with_reducible rfl)
    | split
    | dsimp only
    | assumption

/-- It can touch modes, flt, a, b. -/
theorem doSyncRx_only {M : Nat} {s0 : State} (d : Die) (port : Fin 2) (gmNs : Nat) (offset step : Int) (s : State) (h_s : Only M s0 s) (le : 0xd2 ||| M = M) : Only M s0 (doSyncRx d port gmNs offset step s) := by
  unfold doSyncRx
  repeat' first
    | with_reducible assumption
    | intro _
    | with_reducible apply Only.ite
    | with_reducible apply State.lockTo_only (le := or_le rfl le)
    | with_reducible apply State.setDie_only (le := or_le rfl le)
    | with_reducible apply State.unlock_only (le := or_le rfl le)
    | split
    | dsimp only
    | assumption

/-- It can touch flt, a, b. -/
theorem doSyncReceiptTimeout_only {M : Nat} {s0 : State} (d : Die) (s : State) (h_s : Only M s0 s) (le : 0xd0 ||| M = M) : Only M s0 (doSyncReceiptTimeout d s) := by
  unfold doSyncReceiptTimeout
  repeat' first
    | with_reducible assumption
    | with_reducible apply State.unlock_only (le := or_le rfl le)
    | dsimp only
    | assumption

/-- It can touch modes, pow, flt, leases, a, b, fd, regs, br, crc, otp, st, upd, freeCtr. -/
theorem doHoldoverExpire_only {M : Nat} {s0 : State} (s : State) (h_s : Only M s0 s) (le : 0x10cabf6 ||| M = M) : Only M s0 (doHoldoverExpire s) := by
  unfold doHoldoverExpire
  repeat' first
    | with_reducible assumption
    | with_reducible apply Only.ite
    | with_reducible apply State.latchStanding_only (le := or_le rfl le)
    | with_reducible apply State.updDie_only (le := or_le rfl le)
    | split
    | dsimp only
    | assumption

/-- It can touch a, b. -/
theorem doPdelayRx_only {M : Nat} {s0 : State} (d : Die) (port : Fin 2) (delay : Nat) (s : State) (h_s : Only M s0 s) (le : 0xc0 ||| M = M) : Only M s0 (doPdelayRx d port delay s) := by
  unfold doPdelayRx
  repeat' first
    | with_reducible assumption
    | intro _
    | with_reducible apply Only.ite
    | with_reducible apply State.updDie_only (le := or_le rfl le)
    | split
    | dsimp only
    | assumption

/-- It can touch a, b. -/
theorem doAnnounceRx_only {M : Nat} {s0 : State} (d : Die) (port : Fin 2) (domain priority gmId : Nat) (s : State) (h_s : Only M s0 s) (le : 0xc0 ||| M = M) : Only M s0 (doAnnounceRx d port domain priority gmId s) := by
  unfold doAnnounceRx
  repeat' first
    | with_reducible assumption
    | intro _
    | with_reducible apply Only.ite
    | with_reducible apply State.updDie_only (le := or_le rfl le)
    | split
    | dsimp only
    | assumption

/-- It can touch a, b. -/
theorem doGateControlEntry_only {M : Nat} {s0 : State} (d : Die) (port : Fin 2) (s : State) (h_s : Only M s0 s) (le : 0xc0 ||| M = M) : Only M s0 (doGateControlEntry d port s) := by
  unfold doGateControlEntry
  repeat' first
    | with_reducible assumption
    | intro _
    | with_reducible apply State.updDie_only (le := or_le rfl le)
    | dsimp only
    | assumption

end Sys2Proof.Machine
end

