-- ==== Sys2Proof/Laws/OnlyNets.lean ====
section
/-! SUPPORT. Which fields the operations of Machine/Nets.lean can touch. -/

set_option linter.unusedTactic false
set_option linter.unreachableTactic false
set_option linter.unusedVariables false

namespace Sys2Proof.Machine

/-- It can touch regs. -/
theorem State.dropSafe_only {M : Nat} {s0 : State} (s : State) (d : Die) (h_s : Only M s0 s) (le : 0x200 ||| M = M) : Only M s0 (State.dropSafe s d) := by
  unfold State.dropSafe
  repeat' first
    | with_reducible assumption
    | with_reducible apply State.bump_only (le := or_le rfl le)
    | dsimp only
    | assumption

/-- It can touch a, b, regs. -/
theorem State.takeCopy_only {M : Nat} {s0 : State} (s : State) (d : Die) (p : Pattern) (q : Nat) (c : ConnRec) (par : ConnPar) (ingress : Nat) (b : List Byte) (h_s : Only M s0 s) (le : 0x2c0 ||| M = M) : Only M s0 (State.takeCopy s d p q c par ingress b) := by
  unfold State.takeCopy
  repeat' first
    | with_reducible assumption
    | intro _
    | with_reducible apply Only.ite
    | with_reducible apply State.bump_only (le := or_le rfl le)
    | with_reducible apply State.dropSafe_only (le := or_le rfl le)
    | with_reducible apply State.setDie_only (le := or_le rfl le)
    | with_reducible apply State.updDie_only (le := or_le rfl le)
    | with_reducible apply Only.foldl
    | with_reducible apply Only.foldlSnd
    | split
    | dsimp only
    | assumption

/-- It can touch a, b, regs. -/
theorem doSafeTelegramRx_only {M : Nat} {s0 : State} (d : Die) (port : Fin 2) (h : EthHdr) (body : List Byte) (ingress : Nat) (s : State) (h_s : Only M s0 s) (le : 0x2c0 ||| M = M) : Only M s0 (doSafeTelegramRx d port h body ingress s) := by
  unfold doSafeTelegramRx
  repeat' first
    | with_reducible assumption
    | with_reducible apply Only.ite
    | with_reducible apply State.dropSafe_only (le := or_le rfl le)
    | with_reducible apply State.takeCopy_only (le := or_le rfl le)
    | split
    | dsimp only
    | assumption

/-- It can touch a, b, regs. -/
theorem State.takePos_only {M : Nat} {s0 : State} (s : State) (d : Die) (p : Pattern) (k : Nat) (c : ConnRec) (ingress : Nat) (b : List Byte) (h_s : Only M s0 s) (le : 0x2c0 ||| M = M) : Only M s0 (State.takePos s d p k c ingress b) := by
  unfold State.takePos
  repeat' first
    | with_reducible assumption
    | intro _
    | with_reducible apply Only.ite
    | with_reducible apply State.bump_only (le := or_le rfl le)
    | with_reducible apply State.dropSafe_only (le := or_le rfl le)
    | with_reducible apply State.setDie_only (le := or_le rfl le)
    | with_reducible apply State.updDie_only (le := or_le rfl le)
    | split
    | dsimp only
    | assumption

/-- It can touch a, b, regs. -/
theorem doPositionTelegramRx_only {M : Nat} {s0 : State} (d : Die) (port : Fin 2) (h : EthHdr) (body : List Byte) (ingress : Nat) (s : State) (h_s : Only M s0 s) (le : 0x2c0 ||| M = M) : Only M s0 (doPositionTelegramRx d port h body ingress s) := by
  unfold doPositionTelegramRx
  repeat' first
    | with_reducible assumption
    | intro _
    | with_reducible apply Only.ite
    | with_reducible apply State.dropSafe_only (le := or_le rfl le)
    | with_reducible apply State.takePos_only (le := or_le rfl le)
    | split
    | dsimp only
    | assumption

/-- It can touch regs. -/
theorem State.replayDrop_only {M : Nat} {s0 : State} (s : State) (conn : Nat) (h_s : Only M s0 s) (le : 0x200 ||| M = M) : Only M s0 (State.replayDrop s conn) := by
  unfold State.replayDrop
  repeat' first
    | with_reducible assumption
    | intro _
    | with_reducible apply State.bump_only (le := or_le rfl le)
    | split
    | dsimp only
    | assumption

/-- It can touch a, b, regs. -/
theorem doEgressLost_only {M : Nat} {s0 : State} (d : Die) (port : Fin 2) (conn epoch seq : Nat) (s : State) (h_s : Only M s0 s) (le : 0x2c0 ||| M = M) : Only M s0 (doEgressLost d port conn epoch seq s) := by
  unfold doEgressLost
  repeat' first
    | with_reducible assumption
    | intro _
    | with_reducible apply State.bump_only (le := or_le rfl le)
    | with_reducible apply State.replayDrop_only (le := or_le rfl le)
    | with_reducible apply State.updDie_only (le := or_le rfl le)
    | split
    | dsimp only
    | assumption

/-- It can touch a, b. -/
theorem doLinkDown_only {M : Nat} {s0 : State} (d : Die) (port : Fin 2) (s : State) (h_s : Only M s0 s) (le : 0xc0 ||| M = M) : Only M s0 (doLinkDown d port s) := by
  unfold doLinkDown
  repeat' first
    | with_reducible assumption
    | intro _
    | with_reducible apply State.updDie_only (le := or_le rfl le)
    | dsimp only
    | assumption

/-- It can touch a, b. -/
theorem doLinkUp_only {M : Nat} {s0 : State} (d : Die) (port : Fin 2) (gigabit : Bool) (s : State) (h_s : Only M s0 s) (le : 0xc0 ||| M = M) : Only M s0 (doLinkUp d port gigabit s) := by
  unfold doLinkUp
  repeat' first
    | with_reducible assumption
    | intro _
    | with_reducible apply Only.ite
    | with_reducible apply State.updDie_only (le := or_le rfl le)
    | split
    | dsimp only
    | assumption

/-- It can touch a, b, regs. -/
theorem State.replayOne_only {M : Nat} {s0 : State} (d : Die) (port : Nat) (x : Nat × State) (y : Nat × Nat × Nat × Nat) (h_x : Only M s0 x.2) (le : 0x2c0 ||| M = M) : Only M s0 (State.replayOne d port x y).2 := by
  unfold State.replayOne
  repeat' first
    | with_reducible assumption
    | intro _
    | with_reducible apply Only.ite
    | with_reducible apply State.bump_only (le := or_le rfl le)
    | with_reducible apply State.replayDrop_only (le := or_le rfl le)
    | with_reducible apply State.setDie_only (le := or_le rfl le)
    | split
    | dsimp only
    | assumption

/-- It can touch a, b, regs. -/
theorem doTelegramReplay_only {M : Nat} {s0 : State} (d : Die) (port : Fin 2) (s : State) (h_s : Only M s0 s) (le : 0x2c0 ||| M = M) : Only M s0 (doTelegramReplay d port s) := by
  unfold doTelegramReplay
  repeat' first
    | with_reducible assumption
    | intro _
    | with_reducible apply Only.ite
    | with_reducible apply State.replayOne_only (le := or_le rfl le)
    | with_reducible apply State.setDie_only (le := or_le rfl le)
    | with_reducible apply Only.foldl
    | with_reducible apply Only.foldlSnd
    | split
    | dsimp only
    | assumption

/-- It can touch a, b. -/
theorem doFrameForward_only {M : Nat} {s0 : State} (d : Die) (port : Fin 2) (h : EthHdr) (len : Nat) (s : State) (h_s : Only M s0 s) (le : 0xc0 ||| M = M) : Only M s0 (doFrameForward d port h len s) := by
  unfold doFrameForward
  repeat' first
    | with_reducible assumption
    | with_reducible apply Only.ite
    | with_reducible apply State.setDie_only (le := or_le rfl le)
    | split
    | dsimp only
    | assumption

/-- It can touch a, b. -/
theorem doFdbAgeout_only {M : Nat} {s0 : State} (d : Die) (mac : Nat) (s : State) (h_s : Only M s0 s) (le : 0xc0 ||| M = M) : Only M s0 (doFdbAgeout d mac s) := by
  unfold doFdbAgeout
  repeat' first
    | with_reducible assumption
    | intro _
    | with_reducible apply State.updDie_only (le := or_le rfl le)
    | dsimp only
    | assumption

/-- It can touch a, b. -/
theorem State.answer_only {M : Nat} {s0 : State} (s : State) (d : Die) (port dst etype hdr : Nat) (msg : List Byte) (h_s : Only M s0 s) (le : 0xc0 ||| M = M) : Only M s0 (State.answer s d port dst etype hdr msg) := by
  unfold State.answer
  repeat' first
    | with_reducible assumption
    | intro _
    | with_reducible apply Only.ite
    | with_reducible apply State.updDie_only (le := or_le rfl le)
    | split
    | dsimp only
    | assumption

/-- It can touch regs and what its argument can. -/
theorem State.stackRx_only {M : Nat} {s0 : State} (s : State) (d : Die) (port : Nat) (h : EthHdr) (n : Nat) (act : State → State) (h_s : Only M s0 s) (k_act : ∀ t, Only M s0 t → Only M s0 (act t)) (le : 0x200 ||| M = M) : Only M s0 (State.stackRx s d port h n act) := by
  unfold State.stackRx
  repeat' first
    | with_reducible assumption
    | intro _
    | with_reducible apply Only.ite
    | with_reducible apply State.bump_only (le := or_le rfl le)
    | with_reducible apply k_act
    | split
    | dsimp only
    | assumption

/-- It can touch a, b, regs. -/
theorem doArpRequestRx_only {M : Nat} {s0 : State} (d : Die) (port : Fin 2) (h : EthHdr) (senderMac senderIp targetIp : Nat) (s : State) (h_s : Only M s0 s) (le : 0x2c0 ||| M = M) : Only M s0 (doArpRequestRx d port h senderMac senderIp targetIp s) := by
  unfold doArpRequestRx
  repeat' first
    | with_reducible assumption
    | intro _
    | with_reducible apply Only.ite
    | with_reducible apply State.answer_only (le := or_le rfl le)
    | with_reducible apply State.stackRx_only (le := or_le rfl le)
    | split
    | dsimp only
    | assumption

/-- It can touch a, b, regs. -/
theorem doNeighbourDiscoveryRx_only {M : Nat} {s0 : State} (d : Die) (port : Fin 2) (h : EthHdr) (senderMac senderIp targetIp : Nat) (s : State) (h_s : Only M s0 s) (le : 0x2c0 ||| M = M) : Only M s0 (doNeighbourDiscoveryRx d port h senderMac senderIp targetIp s) := by
  unfold doNeighbourDiscoveryRx
  repeat' first
    | with_reducible assumption
    | intro _
    | with_reducible apply Only.ite
    | with_reducible apply State.answer_only (le := or_le rfl le)
    | with_reducible apply State.stackRx_only (le := or_le rfl le)
    | split
    | dsimp only
    | assumption

/-- It can touch a, b, regs. -/
theorem doEchoRequestRx_only {M : Nat} {s0 : State} (d : Die) (port : Fin 2) (h : EthHdr) (v6 : Bool) (frags senderIp targetIp : Nat) (data : List Byte) (s : State) (h_s : Only M s0 s) (le : 0x2c0 ||| M = M) : Only M s0 (doEchoRequestRx d port h v6 frags senderIp targetIp data s) := by
  unfold doEchoRequestRx
  repeat' first
    | with_reducible assumption
    | intro _
    | with_reducible apply Only.ite
    | with_reducible apply State.answer_only (le := or_le rfl le)
    | with_reducible apply State.stackRx_only (le := or_le rfl le)
    | split
    | dsimp only
    | assumption

end Sys2Proof.Machine
end

