-- ==== Sys2Proof/Laws/OnlyInputs.lean ====
section
/-! SUPPORT. Which fields the operations of Machine/Inputs.lean can touch. -/

set_option linter.unusedTactic false
set_option linter.unreachableTactic false
set_option linter.unusedVariables false

namespace Sys2Proof.Machine

/-- It can touch a, b, regs. -/
theorem doFieldInputEdge_only {M : Nat} {s0 : State} (d : Die) (n : Fin 132) (level : Bool) (cyc : Nat) (s : State) (h_s : Only M s0 s) (le : 0x2c0 ||| M = M) : Only M s0 (doFieldInputEdge d n level cyc s) := by
  unfold doFieldInputEdge
  repeat' first
    | with_reducible assumption
    | intro _
    | with_reducible apply Only.ite
    | with_reducible apply State.setDie_only (le := or_le rfl le)
    | with_reducible apply State.setOut_only (le := or_le rfl le)
    | split
    | dsimp only
    | assumption

/-- It can touch a, b. -/
theorem doDebounceExpire_only {M : Nat} {s0 : State} (d : Die) (n : Fin 132) (s : State) (h_s : Only M s0 s) (le : 0xc0 ||| M = M) : Only M s0 (doDebounceExpire d n s) := by
  unfold doDebounceExpire
  repeat' first
    | with_reducible assumption
    | intro _
    | with_reducible apply Only.ite
    | with_reducible apply State.updDie_only (le := or_le rfl le)
    | split
    | dsimp only
    | assumption

/-- It can touch a, b. -/
theorem doOssdPulseFilterExpire_only {M : Nat} {s0 : State} (d : Die) (n : Fin 132) (s : State) (h_s : Only M s0 s) (le : 0xc0 ||| M = M) : Only M s0 (doOssdPulseFilterExpire d n s) := by
  unfold doOssdPulseFilterExpire
  repeat' first
    | with_reducible assumption
    | intro _
    | with_reducible apply Only.ite
    | with_reducible apply State.updDie_only (le := or_le rfl le)
    | split
    | dsimp only
    | assumption

/-- It can touch a, b, regs. -/
theorem doOssdSilentExpire_only {M : Nat} {s0 : State} (d : Die) (n : Fin 132) (s : State) (h_s : Only M s0 s) (le : 0x2c0 ||| M = M) : Only M s0 (doOssdSilentExpire d n s) := by
  unfold doOssdSilentExpire
  repeat' first
    | with_reducible assumption
    | with_reducible apply Only.ite
    | with_reducible apply State.setCode_only (le := or_le rfl le)
    | split
    | dsimp only
    | assumption

/-- It can touch a, b, regs. -/
theorem doFieldImageRx_only {M : Nat} {s0 : State} (d : Die) (fd : Fin 4) (s : State) (h_s : Only M s0 s) (le : 0x2c0 ||| M = M) : Only M s0 (doFieldImageRx d fd s) := by
  unfold doFieldImageRx
  repeat' first
    | with_reducible assumption
    | intro _
    | with_reducible apply Only.ite
    | with_reducible apply State.readPairs_only (le := or_le rfl le)
    | with_reducible apply State.readback_only (le := or_le rfl le)
    | with_reducible apply State.updDie_only (le := or_le rfl le)
    | with_reducible apply Only.foldl
    | split
    | dsimp only
    | assumption

/-- It can touch a, b. -/
theorem doCaptureLockEnd_only {M : Nat} {s0 : State} (d : Die) (n : Fin 132) (s : State) (h_s : Only M s0 s) (le : 0xc0 ||| M = M) : Only M s0 (doCaptureLockEnd d n s) := by
  unfold doCaptureLockEnd
  repeat' first
    | with_reducible assumption
    | intro _
    | with_reducible apply Only.ite
    | with_reducible apply State.updDie_only (le := or_le rfl le)
    | split
    | dsimp only
    | assumption

/-- It can touch a, b. -/
theorem State.pulseOn_only {M : Nat} {s0 : State} (s : State) (n : Nat) (h_s : Only M s0 s) (le : 0xc0 ||| M = M) : Only M s0 (State.pulseOn s n) := by
  unfold State.pulseOn
  repeat' first
    | with_reducible assumption
    | intro _
    | with_reducible apply State.updDie_only (le := or_le rfl le)
    | with_reducible apply Only.foldl
    | dsimp only
    | assumption

/-- It can touch a, b, regs. -/
theorem State.pulseOff_only {M : Nat} {s0 : State} (s : State) (n code : Nat) (h_s : Only M s0 s) (le : 0x2c0 ||| M = M) : Only M s0 (State.pulseOff s n code) := by
  unfold State.pulseOff
  repeat' first
    | with_reducible assumption
    | intro _
    | with_reducible apply Only.ite
    | with_reducible apply State.setOut_only (le := or_le rfl le)
    | with_reducible apply State.updDie_only (le := or_le rfl le)
    | with_reducible apply Only.foldl
    | split
    | dsimp only
    | assumption

/-- It can touch a, b, fd. -/
theorem doTestPulseStart_only {M : Nat} {s0 : State} (k : Fin 32) (s : State) (h_s : Only M s0 s) (le : 0x1c0 ||| M = M) : Only M s0 (doTestPulseStart k s) := by
  unfold doTestPulseStart
  repeat' first
    | with_reducible assumption
    | intro _
    | with_reducible apply State.pulseOn_only (le := or_le rfl le)
    | with_reducible apply State.updF_only (le := or_le rfl le)
    | split
    | dsimp only
    | assumption

/-- It can touch a, b, fd, regs. -/
theorem doTestPulseEnd_only {M : Nat} {s0 : State} (k : Fin 32) (s : State) (h_s : Only M s0 s) (le : 0x3c0 ||| M = M) : Only M s0 (doTestPulseEnd k s) := by
  unfold doTestPulseEnd
  repeat' first
    | with_reducible assumption
    | intro _
    | with_reducible apply Only.ite
    | with_reducible apply State.pulseOff_only (le := or_le rfl le)
    | with_reducible apply State.updF_only (le := or_le rfl le)
    | split
    | dsimp only
    | assumption

/-- It can touch a, b. -/
theorem doTpWindowOpen_only {M : Nat} {s0 : State} (d : Die) (k : Fin 32) (s : State) (h_s : Only M s0 s) (le : 0xc0 ||| M = M) : Only M s0 (doTpWindowOpen d k s) := by
  unfold doTpWindowOpen
  repeat' first
    | with_reducible assumption
    | intro _
    | with_reducible apply Only.ite
    | with_reducible apply State.updDie_only (le := or_le rfl le)
    | with_reducible apply Only.foldl
    | split
    | dsimp only
    | assumption

/-- It can touch a, b, regs. -/
theorem State.ownWinEnd_only {M : Nat} {s0 : State} (s : State) (d : Die) (x : SrcRec) (period : Nat) (c : ChanRec) (h_s : Only M s0 s) (le : 0x2c0 ||| M = M) : Only M s0 (State.ownWinEnd s d x period c) := by
  unfold State.ownWinEnd
  repeat' first
    | with_reducible assumption
    | intro _
    | with_reducible apply Only.ite
    | with_reducible apply State.setCode_only (le := or_le rfl le)
    | with_reducible apply State.updDie_only (le := or_le rfl le)
    | split
    | dsimp only
    | assumption

/-- It can touch a, b, regs. -/
theorem State.fgnWinEnd_only {M : Nat} {s0 : State} (s : State) (d : Die) (x : SrcRec) (c : ChanRec) (h_s : Only M s0 s) (le : 0x2c0 ||| M = M) : Only M s0 (State.fgnWinEnd s d x c) := by
  unfold State.fgnWinEnd
  repeat' first
    | with_reducible assumption
    | intro _
    | with_reducible apply Only.ite
    | with_reducible apply State.setCode_only (le := or_le rfl le)
    | with_reducible apply State.updDie_only (le := or_le rfl le)
    | split
    | dsimp only
    | assumption

/-- It can touch a, b, regs. -/
theorem doTpWindowEnd_only {M : Nat} {s0 : State} (d : Die) (k : Fin 32) (s : State) (h_s : Only M s0 s) (le : 0x2c0 ||| M = M) : Only M s0 (doTpWindowEnd d k s) := by
  unfold doTpWindowEnd
  repeat' first
    | with_reducible assumption
    | intro _
    | with_reducible apply Only.ite
    | with_reducible apply State.fgnWinEnd_only (le := or_le rfl le)
    | with_reducible apply State.ownWinEnd_only (le := or_le rfl le)
    | with_reducible apply Only.foldl
    | split
    | dsimp only
    | assumption

/-- It can touch a, b, regs. -/
theorem State.adcInput_only {M : Nat} {s0 : State} (s : State) (d : Die) (c : ChanRec) (mv : Nat) (h_s : Only M s0 s) (le : 0x2c0 ||| M = M) : Only M s0 (State.adcInput s d c mv) := by
  unfold State.adcInput
  repeat' first
    | with_reducible assumption
    | intro _
    | with_reducible apply Only.ite
    | with_reducible apply State.setCode_only (le := or_le rfl le)
    | with_reducible apply State.updDie_only (le := or_le rfl le)
    | split
    | dsimp only
    | assumption

/-- It can touch a, b, regs. -/
theorem State.adcOutput_only {M : Nat} {s0 : State} (s : State) (d : Die) (c : ChanRec) (ball mid ma : Nat) (h_s : Only M s0 s) (le : 0x2c0 ||| M = M) : Only M s0 (State.adcOutput s d c ball mid ma) := by
  unfold State.adcOutput
  repeat' first
    | with_reducible assumption
    | intro _
    | with_reducible apply Only.ite
    | with_reducible apply State.setOut_only (le := or_le rfl le)
    | with_reducible apply State.updDie_only (le := or_le rfl le)
    | split
    | dsimp only
    | assumption

/-- It can touch a, b, regs. -/
theorem doAdcSample_only {M : Nat} {s0 : State} (d : Die) (n : Fin 132) (ball mid ma : Nat) (s : State) (h_s : Only M s0 s) (le : 0x2c0 ||| M = M) : Only M s0 (doAdcSample d n ball mid ma s) := by
  unfold doAdcSample
  repeat' first
    | with_reducible assumption
    | intro _
    | with_reducible apply Only.ite
    | with_reducible apply State.adcInput_only (le := or_le rfl le)
    | with_reducible apply State.adcOutput_only (le := or_le rfl le)
    | with_reducible apply State.updDie_only (le := or_le rfl le)
    | split
    | dsimp only
    | assumption

/-- It can touch modes, pow, flt, leases, a, b, fd, regs, br, crc, otp, st, upd, freeCtr. -/
theorem doAdcReferenceCheck_only {M : Nat} {s0 : State} (fd : Fin 4) (pass : Bool) (s : State) (h_s : Only M s0 s) (le : 0x10cabf6 ||| M = M) : Only M s0 (doAdcReferenceCheck fd pass s) := by
  unfold doAdcReferenceCheck
  repeat' first
    | with_reducible assumption
    | with_reducible apply Only.ite
    | with_reducible apply State.fCause_only (le := or_le rfl le)
    | split
    | dsimp only
    | assumption

/-- It can touch regs. -/
theorem State.w1c_only {M : Nat} {s0 : State} (s : State) (idx sub mask : Nat) (h_s : Only M s0 s) (le : 0x200 ||| M = M) : Only M s0 (State.w1c s idx sub mask) := by
  unfold State.w1c
  repeat' first
    | with_reducible assumption
    | with_reducible apply State.setReg_only (le := or_le rfl le)
    | dsimp only
    | assumption

/-- It can touch regs, br. -/
theorem doCosHirqClear_only {M : Nat} {s0 : State} (seat : Fin 8) (word : Fin 5) (mask : Nat) (s : State) (h_s : Only M s0 s) (le : 0xa00 ||| M = M) : Only M s0 (doCosHirqClear seat word mask s) := by
  unfold doCosHirqClear
  repeat' first
    | with_reducible assumption
    | intro _
    | with_reducible apply State.w1c_only (le := or_le rfl le)
    | with_reducible apply State.write_only (le := or_le rfl le)
    | dsimp only
    | assumption

end Sys2Proof.Machine
end

