-- ==== Sys2Proof/Laws/OnlyOutputs.lean ====
section
/-! SUPPORT. Which fields the operations of Machine/Outputs.lean can touch. -/

set_option linter.unusedTactic false
set_option linter.unreachableTactic false
set_option linter.unusedVariables false

namespace Sys2Proof.Machine

/-- It can touch a, b. -/
theorem State.settle_only {M : Nat} {s0 : State} (s : State) (f : Nat) (changed on : BitVec 32) (h_s : Only M s0 s) (le : 0xc0 ||| M = M) : Only M s0 (State.settle s f changed on) := by
  unfold State.settle
  repeat' first
    | with_reducible assumption
    | intro _
    | with_reducible apply Only.ite
    | with_reducible apply State.updDie_only (le := or_le rfl le)
    | with_reducible apply Only.foldl
    | split
    | dsimp only
    | assumption

/-- It can touch fd. -/
theorem State.portTo_only {M : Nat} {s0 : State} (s : State) (d : Die) (f : Nat) (p : FPort) (h_s : Only M s0 s) (le : 0x100 ||| M = M) : Only M s0 (State.portTo s d f p) := by
  unfold State.portTo
  repeat' first
    | with_reducible assumption
    | intro _
    | with_reducible apply State.updF_only (le := or_le rfl le)
    | dsimp only
    | assumption

/-- It can touch a, b, fd, regs. -/
theorem doCmdFrameRx_only {M : Nat} {s0 : State} (d : Die) (fd : Fin 4) (fr : BitVec 128) (s : State) (h_s : Only M s0 s) (le : 0x3c0 ||| M = M) : Only M s0 (doCmdFrameRx d fd fr s) := by
  unfold doCmdFrameRx
  repeat' first
    | with_reducible assumption
    | intro _
    | with_reducible apply Only.ite
    | with_reducible apply State.bump_only (le := or_le rfl le)
    | with_reducible apply State.portTo_only (le := or_le rfl le)
    | with_reducible apply State.settle_only (le := or_le rfl le)
    | with_reducible apply State.updF_only (le := or_le rfl le)
    | split
    | dsimp only
    | assumption

/-- It can touch fd, regs. -/
theorem State.expireToken_only {M : Nat} {s0 : State} (s : State) (d : Die) (f : Nat) (h_s : Only M s0 s) (le : 0x300 ||| M = M) : Only M s0 (State.expireToken s d f) := by
  unfold State.expireToken
  repeat' first
    | with_reducible assumption
    | with_reducible apply Only.ite
    | with_reducible apply State.bump_only (le := or_le rfl le)
    | with_reducible apply State.portTo_only (le := or_le rfl le)
    | split
    | dsimp only
    | assumption

/-- It can touch modes, pow, flt, leases, a, b, fd, regs, br, crc, otp, st, upd, freeCtr. -/
theorem State.markSkew_only {M : Nat} {s0 : State} (s : State) (f : Nat) (own other : Nat) (h_s : Only M s0 s) (le : 0x10cabf6 ||| M = M) : Only M s0 (State.markSkew s f own other) := by
  unfold State.markSkew
  repeat' first
    | with_reducible assumption
    | intro _
    | with_reducible apply Only.ite
    | with_reducible apply State.fCause_only (le := or_le rfl le)
    | with_reducible apply State.updF_only (le := or_le rfl le)
    | split
    | dsimp only
    | assumption

/-- It can touch modes, pow, flt, leases, a, b, fd, regs, br, crc, otp, st, upd, freeCtr. -/
theorem doTickMarkRx_only {M : Nat} {s0 : State} (fd : Fin 4) (d : Die) (t : Nat) (s : State) (h_s : Only M s0 s) (le : 0x10cabf6 ||| M = M) : Only M s0 (doTickMarkRx fd d t s) := by
  unfold doTickMarkRx
  repeat' first
    | with_reducible assumption
    | intro _
    | with_reducible apply Only.ite
    | with_reducible apply State.expireToken_only (le := or_le rfl le)
    | with_reducible apply State.markSkew_only (le := or_le rfl le)
    | with_reducible apply State.updF_only (le := or_le rfl le)
    | split
    | dsimp only
    | assumption

/-- It can touch fd, regs. -/
theorem doKeepTokenExpire_only {M : Nat} {s0 : State} (d : Die) (fd : Fin 4) (s : State) (h_s : Only M s0 s) (le : 0x300 ||| M = M) : Only M s0 (doKeepTokenExpire d fd s) := by
  unfold doKeepTokenExpire
  repeat' first
    | with_reducible assumption
    | with_reducible apply Only.ite
    | with_reducible apply State.expireToken_only (le := or_le rfl le)
    | split
    | dsimp only
    | assumption

/-- It can touch flt, fd. -/
theorem doTripAssert_only {M : Nat} {s0 : State} (line : Die) (s : State) (h_s : Only M s0 s) (le : 0x110 ||| M = M) : Only M s0 (doTripAssert line s) := by
  unfold doTripAssert
  repeat' first
    | with_reducible assumption
    | with_reducible apply State.driveTrips_only (le := or_le rfl le)
    | (dsimp only [Only.mk_eq]; with_reducible apply OnlyParts.flt (c := testBit_ge le rfl); with_reducible apply Only.parts)
    | split
    | dsimp only
    | assumption

/-- It can touch clk, flt, fd. -/
theorem doTripRelease_only {M : Nat} {s0 : State} (s : State) (h_s : Only M s0 s) (le : 0x118 ||| M = M) : Only M s0 (doTripRelease s) := by
  unfold doTripRelease
  repeat' first
    | with_reducible assumption
    | with_reducible apply Only.ite
    | with_reducible apply State.untrip_only (le := or_le rfl le)
    | (dsimp only [Only.mk_eq]; with_reducible apply OnlyParts.clk (c := testBit_ge le rfl); with_reducible apply Only.parts)
    | split
    | dsimp only
    | assumption

/-- It can touch clk, flt, fd. -/
theorem doHeartbeatLoss_only {M : Nat} {s0 : State} (rx : HbRx) (s : State) (h_s : Only M s0 s) (le : 0x118 ||| M = M) : Only M s0 (doHeartbeatLoss rx s) := by
  unfold doHeartbeatLoss
  repeat' first
    | with_reducible assumption
    | with_reducible apply State.driveTrips_only (le := or_le rfl le)
    | with_reducible apply State.portTo_only (le := or_le rfl le)
    | (dsimp only [Only.mk_eq]; with_reducible apply OnlyParts.clk (c := testBit_ge le rfl); with_reducible apply OnlyParts.flt (c := testBit_ge le rfl); with_reducible apply Only.parts)
    | split
    | dsimp only
    | assumption

/-- It can touch modes, pow, flt, leases, a, b, fd, regs, br, crc, otp, st, upd, freeCtr. -/
theorem doVfldLow_only {M : Nat} {s0 : State} (fd : Fin 4) (mv : Nat) (s : State) (h_s : Only M s0 s) (le : 0x10cabf6 ||| M = M) : Only M s0 (doVfldLow fd mv s) := by
  unfold doVfldLow
  repeat' first
    | with_reducible assumption
    | intro _
    | with_reducible apply Only.ite
    | with_reducible apply State.fCause_only (le := or_le rfl le)
    | with_reducible apply State.portTo_only (le := or_le rfl le)
    | with_reducible apply State.setReg_only (le := or_le rfl le)
    | with_reducible apply State.settle_only (le := or_le rfl le)
    | with_reducible apply State.updF_only (le := or_le rfl le)
    | split
    | dsimp only
    | assumption

/-- It can touch modes, pow, flt, leases, a, b, fd, regs, br, crc, otp, st, upd, freeCtr. -/
theorem doVfldRecover_only {M : Nat} {s0 : State} (fd : Fin 4) (mv : Nat) (s : State) (h_s : Only M s0 s) (le : 0x10cabf6 ||| M = M) : Only M s0 (doVfldRecover fd mv s) := by
  unfold doVfldRecover
  repeat' first
    | with_reducible assumption
    | intro _
    | with_reducible apply Only.ite
    | with_reducible apply State.fCause_only (le := or_le rfl le)
    | with_reducible apply State.setReg_only (le := or_le rfl le)
    | with_reducible apply State.updF_only (le := or_le rfl le)
    | split
    | dsimp only
    | assumption

/-- It can touch a, b, fd, regs. -/
theorem State.protect_only {M : Nat} {s0 : State} (s : State) (d : Die) (n code : Nat) (h_s : Only M s0 s) (le : 0x3c0 ||| M = M) : Only M s0 (State.protect s d n code) := by
  unfold State.protect
  repeat' first
    | with_reducible assumption
    | with_reducible apply Only.ite
    | with_reducible apply State.portTo_only (le := or_le rfl le)
    | with_reducible apply State.setOut_only (le := or_le rfl le)
    | split
    | dsimp only
    | assumption

/-- It can touch a, b, fd, regs. -/
theorem doCurrentLimitTrip_only {M : Nat} {s0 : State} (n : Fin 128) (s : State) (h_s : Only M s0 s) (le : 0x3c0 ||| M = M) : Only M s0 (doCurrentLimitTrip n s) := by
  unfold doCurrentLimitTrip
  repeat' first
    | with_reducible assumption
    | with_reducible apply State.protect_only (le := or_le rfl le)
    | dsimp only
    | assumption

/-- It can touch a, b, fd, regs. -/
theorem doSwitchOvertemp_only {M : Nat} {s0 : State} (d : Die) (n : Fin 128) (s : State) (h_s : Only M s0 s) (le : 0x3c0 ||| M = M) : Only M s0 (doSwitchOvertemp d n s) := by
  unfold doSwitchOvertemp
  repeat' first
    | with_reducible assumption
    | with_reducible apply State.protect_only (le := or_le rfl le)
    | dsimp only
    | assumption

/-- It can touch modes, pow, flt, leases, a, b, fd, regs, br, crc, otp, st, upd, freeCtr. -/
theorem doGateDriveLoss_only {M : Nat} {s0 : State} (fd : Fin 4) (s : State) (h_s : Only M s0 s) (le : 0x10cabf6 ||| M = M) : Only M s0 (doGateDriveLoss fd s) := by
  unfold doGateDriveLoss
  repeat' first
    | with_reducible assumption
    | intro _
    | with_reducible apply Only.ite
    | with_reducible apply State.fCause_only (le := or_le rfl le)
    | with_reducible apply State.updF_only (le := or_le rfl le)
    | split
    | dsimp only
    | assumption

/-- It can touch modes, pow, flt, leases, a, b, fd, regs, br, crc, otp, st, upd, freeCtr. -/
theorem doGateDriveReturn_only {M : Nat} {s0 : State} (fd : Fin 4) (s : State) (h_s : Only M s0 s) (le : 0x10cabf6 ||| M = M) : Only M s0 (doGateDriveReturn fd s) := by
  unfold doGateDriveReturn
  repeat' first
    | with_reducible assumption
    | intro _
    | with_reducible apply Only.ite
    | with_reducible apply State.fCause_only (le := or_le rfl le)
    | with_reducible apply State.updF_only (le := or_le rfl le)
    | split
    | dsimp only
    | assumption

/-- It can touch modes, pow, flt, leases, a, b, fd, regs, br, crc, otp, st, upd, freeCtr. -/
theorem doFdieOvercurrent_only {M : Nat} {s0 : State} (fd : Fin 4) (ma : Nat) (s : State) (h_s : Only M s0 s) (le : 0x10cabf6 ||| M = M) : Only M s0 (doFdieOvercurrent fd ma s) := by
  unfold doFdieOvercurrent
  repeat' first
    | with_reducible assumption
    | with_reducible apply Only.ite
    | with_reducible apply State.fCause_only (le := or_le rfl le)
    | with_reducible apply State.setReg_only (le := or_le rfl le)
    | split
    | dsimp only
    | assumption

/-- It can touch modes, pow, flt, leases, a, b, fd, regs, br, crc, otp, st, upd, freeCtr. -/
theorem doSupplyCurrentReturn_only {M : Nat} {s0 : State} (fd : Fin 4) (s : State) (h_s : Only M s0 s) (le : 0x10cabf6 ||| M = M) : Only M s0 (doSupplyCurrentReturn fd s) := by
  unfold doSupplyCurrentReturn
  repeat' first
    | with_reducible assumption
    | with_reducible apply Only.ite
    | with_reducible apply State.fCause_only (le := or_le rfl le)
    | with_reducible apply State.free_only (le := or_le rfl le)
    | with_reducible apply State.setReg_only (le := or_le rfl le)
    | split
    | dsimp only
    | assumption

/-- It can touch modes, pow, flt, leases, a, b, fd, regs, br, crc, otp, st, upd, freeCtr. -/
theorem doFdieOvertemp_only {M : Nat} {s0 : State} (fd : Fin 4) (s : State) (h_s : Only M s0 s) (le : 0x10cabf6 ||| M = M) : Only M s0 (doFdieOvertemp fd s) := by
  unfold doFdieOvertemp
  repeat' first
    | with_reducible assumption
    | with_reducible apply Only.ite
    | with_reducible apply State.fCause_only (le := or_le rfl le)
    | split
    | dsimp only
    | assumption

/-- It can touch modes, pow, flt, leases, a, b, fd, regs, br, crc, otp, st, upd, freeCtr. -/
theorem doOvertemperatureEnd_only {M : Nat} {s0 : State} (who : TempWho) (s : State) (h_s : Only M s0 s) (le : 0x10cabf6 ||| M = M) : Only M s0 (doOvertemperatureEnd who s) := by
  unfold doOvertemperatureEnd
  repeat' first
    | with_reducible assumption
    | with_reducible apply Only.ite
    | with_reducible apply State.causeOff_only (le := or_le rfl le)
    | with_reducible apply State.fCause_only (le := or_le rfl le)
    | split
    | dsimp only
    | assumption

/-- It can touch fd. -/
theorem doDischargeSinkRelease_only {M : Nat} {s0 : State} (n : Fin 128) (s : State) (h_s : Only M s0 s) (le : 0x100 ||| M = M) : Only M s0 (doDischargeSinkRelease n s) := by
  unfold doDischargeSinkRelease
  repeat' first
    | with_reducible assumption
    | intro _
    | with_reducible apply State.updF_only (le := or_le rfl le)
    | dsimp only
    | assumption

/-- It can touch a, b, fd. -/
theorem doOffPulseStart_only {M : Nat} {s0 : State} (d : Die) (n : Fin 128) (s : State) (h_s : Only M s0 s) (le : 0x1c0 ||| M = M) : Only M s0 (doOffPulseStart d n s) := by
  unfold doOffPulseStart
  repeat' first
    | with_reducible assumption
    | intro _
    | with_reducible apply Only.ite
    | with_reducible apply State.pulseOn_only (le := or_le rfl le)
    | with_reducible apply State.updF_only (le := or_le rfl le)
    | split
    | dsimp only
    | assumption

/-- It can touch a, b, regs. -/
theorem State.foreignEnd_only {M : Nat} {s0 : State} (s : State) (d : Die) (h_s : Only M s0 s) (le : 0x2c0 ||| M = M) : Only M s0 (State.foreignEnd s d) := by
  unfold State.foreignEnd
  repeat' first
    | with_reducible assumption
    | intro _
    | with_reducible apply Only.ite
    | with_reducible apply State.setOut_only (le := or_le rfl le)
    | with_reducible apply Only.foldl
    | split
    | dsimp only
    | assumption

/-- It can touch a, b, fd, regs. -/
theorem doOffPulseEnd_only {M : Nat} {s0 : State} (d : Die) (n : Fin 128) (s : State) (h_s : Only M s0 s) (le : 0x3c0 ||| M = M) : Only M s0 (doOffPulseEnd d n s) := by
  unfold doOffPulseEnd
  repeat' first
    | with_reducible assumption
    | intro _
    | with_reducible apply Only.ite
    | with_reducible apply State.bump_only (le := or_le rfl le)
    | with_reducible apply State.foreignEnd_only (le := or_le rfl le)
    | with_reducible apply State.pulseOff_only (le := or_le rfl le)
    | with_reducible apply State.updF_only (le := or_le rfl le)
    | split
    | dsimp only
    | assumption

/-- It can touch a, b. -/
theorem doOutputCodeClear_only {M : Nat} {s0 : State} (d : Die) (n : Fin 128) (s : State) (h_s : Only M s0 s) (le : 0xc0 ||| M = M) : Only M s0 (doOutputCodeClear d n s) := by
  unfold doOutputCodeClear
  repeat' first
    | with_reducible assumption
    | intro _
    | with_reducible apply Only.ite
    | with_reducible apply State.updDie_only (le := or_le rfl le)
    | split
    | dsimp only
    | assumption

/-- It can touch modes, pow, flt, leases, a, b, fd, regs, br, crc, otp, st, upd, freeCtr. -/
theorem doChannelModeWrite_only {M : Nat} {s0 : State} (d : Die) (n : Fin 128) (mode : Nat) (s : State) (h_s : Only M s0 s) (le : 0x10cabf6 ||| M = M) : Only M s0 (doChannelModeWrite d n mode s) := by
  unfold doChannelModeWrite
  repeat' first
    | with_reducible assumption
    | with_reducible apply Only.ite
    | with_reducible apply State.modesWritten_only (le := or_le rfl le)
    | with_reducible apply State.writeMode_only (le := or_le rfl le)
    | split
    | dsimp only
    | assumption

/-- It can touch flt, a, b, upd. -/
theorem doHoldModeEnter_only {M : Nat} {s0 : State} (d : Die) (s : State) (h_s : Only M s0 s) (le : 0x800d0 ||| M = M) : Only M s0 (doHoldModeEnter d s) := by
  unfold doHoldModeEnter
  repeat' first
    | with_reducible assumption
    | with_reducible apply Only.ite
    | with_reducible apply State.enterHold_only (le := or_le rfl le)
    | split
    | dsimp only
    | assumption

/-- It can touch a, b. -/
theorem doHoldFrameSend_only {M : Nat} {s0 : State} (d : Die) (s : State) (h_s : Only M s0 s) (le : 0xc0 ||| M = M) : Only M s0 (doHoldFrameSend d s) := by
  unfold doHoldFrameSend
  repeat' first
    | with_reducible assumption
    | intro _
    | with_reducible apply Only.ite
    | with_reducible apply State.updDie_only (le := or_le rfl le)
    | with_reducible apply Only.foldl
    | split
    | dsimp only
    | assumption

/-- It can touch flt, a, b, regs, upd. -/
theorem doHoldTimeout_only {M : Nat} {s0 : State} (d : Die) (s : State) (h_s : Only M s0 s) (le : 0x802d0 ||| M = M) : Only M s0 (doHoldTimeout d s) := by
  unfold doHoldTimeout
  repeat' first
    | with_reducible assumption
    | intro _
    | with_reducible apply Only.ite
    | with_reducible apply State.revert_only (le := or_le rfl le)
    | with_reducible apply State.updDie_only (le := or_le rfl le)
    | split
    | dsimp only
    | assumption

end Sys2Proof.Machine
end

