-- ==== Sys2Proof/Laws/OnlyExpire.lean ====
section
/-! SUPPORT. Which fields the operations of Machine/Expire.lean can touch. -/

set_option linter.unusedTactic false
set_option linter.unreachableTactic false
set_option linter.unusedVariables false

namespace Sys2Proof.Machine

/-- It can touch modes, pow, flt, leases, a, b, fd, regs, br, rings, crc, otp, st, upd, pat, freeCtr, mode. -/
theorem State.expire_only {M : Nat} {s0 : State} (s : State) (d : Die) (inst : Nat) (lim : Lim) (h_s : Only M s0 s) (le : 0x92cbbf6 ||| M = M) : Only M s0 (State.expire s d inst lim) := by
  unfold State.expire
  repeat' first
    | with_reducible assumption
    | with_reducible apply doJobComplete_only (le := or_le rfl le)
    | split
    | dsimp only
    | assumption

/-- It can touch modes, pow, flt, leases, a, b, fd, regs, br, rings, crc, otp, st, upd, pat, freeCtr, mode. -/
theorem doConnWatchdogExpire_only {M : Nat} {s0 : State} (d : Die) (inst : Nat) (s : State) (h_s : Only M s0 s) (le : 0x92cbbf6 ||| M = M) : Only M s0 (doConnWatchdogExpire d inst s) := by
  unfold doConnWatchdogExpire
  repeat' first
    | with_reducible assumption
    | with_reducible apply State.expire_only (le := or_le rfl le)
    | dsimp only
    | assumption

/-- It can touch modes, pow, flt, leases, a, b, fd, regs, br, rings, crc, otp, st, upd, pat, freeCtr, mode. -/
theorem doLoneBudgetExpire_only {M : Nat} {s0 : State} (d : Die) (inst : Nat) (s : State) (h_s : Only M s0 s) (le : 0x92cbbf6 ||| M = M) : Only M s0 (doLoneBudgetExpire d inst s) := by
  unfold doLoneBudgetExpire
  repeat' first
    | with_reducible assumption
    | with_reducible apply State.expire_only (le := or_le rfl le)
    | dsimp only
    | assumption

/-- It can touch modes, pow, flt, leases, a, b, fd, regs, br, rings, crc, otp, st, upd, pat, freeCtr, mode. -/
theorem doDiscTimerExpire_only {M : Nat} {s0 : State} (d : Die) (inst : Nat) (s : State) (h_s : Only M s0 s) (le : 0x92cbbf6 ||| M = M) : Only M s0 (doDiscTimerExpire d inst s) := by
  unfold doDiscTimerExpire
  repeat' first
    | with_reducible assumption
    | with_reducible apply State.expire_only (le := or_le rfl le)
    | dsimp only
    | assumption

/-- It can touch modes, pow, flt, leases, a, b, fd, regs, br, rings, crc, otp, st, upd, pat, freeCtr, mode. -/
theorem doLockMismatchExpire_only {M : Nat} {s0 : State} (d : Die) (inst : Nat) (s : State) (h_s : Only M s0 s) (le : 0x92cbbf6 ||| M = M) : Only M s0 (doLockMismatchExpire d inst s) := by
  unfold doLockMismatchExpire
  repeat' first
    | with_reducible assumption
    | with_reducible apply State.expire_only (le := or_le rfl le)
    | split
    | dsimp only
    | assumption

/-- It can touch modes, pow, flt, leases, a, b, fd, regs, br, rings, crc, otp, st, upd, pat, freeCtr, mode. -/
theorem doMuteTimeExpire_only {M : Nat} {s0 : State} (d : Die) (inst : Nat) (s : State) (h_s : Only M s0 s) (le : 0x92cbbf6 ||| M = M) : Only M s0 (doMuteTimeExpire d inst s) := by
  unfold doMuteTimeExpire
  repeat' first
    | with_reducible assumption
    | with_reducible apply State.expire_only (le := or_le rfl le)
    | dsimp only
    | assumption

/-- It can touch modes, pow, flt, leases, a, b, fd, regs, br, rings, crc, otp, st, upd, pat, freeCtr, mode. -/
theorem doOverrideTimeExpire_only {M : Nat} {s0 : State} (d : Die) (inst : Nat) (s : State) (h_s : Only M s0 s) (le : 0x92cbbf6 ||| M = M) : Only M s0 (doOverrideTimeExpire d inst s) := by
  unfold doOverrideTimeExpire
  repeat' first
    | with_reducible assumption
    | with_reducible apply State.expire_only (le := or_le rfl le)
    | dsimp only
    | assumption

/-- It can touch modes, pow, flt, leases, a, b, fd, regs, br, rings, crc, otp, st, upd, pat, freeCtr, mode. -/
theorem doContactTExpire_only {M : Nat} {s0 : State} (d : Die) (inst : Nat) (s : State) (h_s : Only M s0 s) (le : 0x92cbbf6 ||| M = M) : Only M s0 (doContactTExpire d inst s) := by
  unfold doContactTExpire
  repeat' first
    | with_reducible assumption
    | with_reducible apply State.expire_only (le := or_le rfl le)
    | dsimp only
    | assumption

/-- It can touch modes, pow, flt, leases, a, b, fd, regs, br, rings, crc, otp, st, upd, pat, freeCtr, mode. -/
theorem doModeselDiscExpire_only {M : Nat} {s0 : State} (d : Die) (inst : Nat) (s : State) (h_s : Only M s0 s) (le : 0x92cbbf6 ||| M = M) : Only M s0 (doModeselDiscExpire d inst s) := by
  unfold doModeselDiscExpire
  repeat' first
    | with_reducible assumption
    | with_reducible apply State.expire_only (le := or_le rfl le)
    | dsimp only
    | assumption

/-- It can touch modes, pow, flt, leases, a, b, fd, regs, br, rings, crc, otp, st, upd, pat, freeCtr, mode. -/
theorem doEdmTimeout_only {M : Nat} {s0 : State} (d : Die) (inst : Nat) (s : State) (h_s : Only M s0 s) (le : 0x92cbbf6 ||| M = M) : Only M s0 (doEdmTimeout d inst s) := by
  unfold doEdmTimeout
  repeat' first
    | with_reducible assumption
    | with_reducible apply State.expire_only (le := or_le rfl le)
    | dsimp only
    | assumption

/-- It can touch modes, pow, flt, leases, a, b, fd, regs, br, rings, crc, otp, st, upd, pat, freeCtr, mode. -/
theorem doTimerPtExpire_only {M : Nat} {s0 : State} (d : Die) (inst : Nat) (s : State) (h_s : Only M s0 s) (le : 0x92cbbf6 ||| M = M) : Only M s0 (doTimerPtExpire d inst s) := by
  unfold doTimerPtExpire
  repeat' first
    | with_reducible assumption
    | with_reducible apply State.expire_only (le := or_le rfl le)
    | dsimp only
    | assumption

/-- It can touch modes, pow, flt, leases, a, b, fd, regs, br, rings, crc, otp, st, upd, pat, freeCtr, mode. -/
theorem doOutsafeDlyExpire_only {M : Nat} {s0 : State} (d : Die) (inst : Nat) (s : State) (h_s : Only M s0 s) (le : 0x92cbbf6 ||| M = M) : Only M s0 (doOutsafeDlyExpire d inst s) := by
  unfold doOutsafeDlyExpire
  repeat' first
    | with_reducible assumption
    | with_reducible apply State.expire_only (le := or_le rfl le)
    | dsimp only
    | assumption

/-- It can touch modes, pow, flt, leases, a, b, fd, regs, br, rings, crc, otp, st, upd, pat, freeCtr, mode. -/
theorem doStdinStale_only {M : Nat} {s0 : State} (d : Die) (inst : Nat) (s : State) (h_s : Only M s0 s) (le : 0x92cbbf6 ||| M = M) : Only M s0 (doStdinStale d inst s) := by
  unfold doStdinStale
  repeat' first
    | with_reducible assumption
    | with_reducible apply State.expire_only (le := or_le rfl le)
    | dsimp only
    | assumption

/-- It can touch modes, pow, flt, leases, a, b, fd, regs, br, rings, crc, otp, st, upd, pat, freeCtr, mode. -/
theorem doStreamLost_only {M : Nat} {s0 : State} (d : Die) (inst : Nat) (s : State) (h_s : Only M s0 s) (le : 0x92cbbf6 ||| M = M) : Only M s0 (doStreamLost d inst s) := by
  unfold doStreamLost
  repeat' first
    | with_reducible assumption
    | with_reducible apply State.expire_only (le := or_le rfl le)
    | dsimp only
    | assumption

/-- It can touch modes, pow, flt, leases, a, b, fd, regs, br, rings, crc, otp, st, upd, pat, freeCtr, mode. -/
theorem doStoFbTimeout_only {M : Nat} {s0 : State} (d : Die) (inst : Nat) (s : State) (h_s : Only M s0 s) (le : 0x92cbbf6 ||| M = M) : Only M s0 (doStoFbTimeout d inst s) := by
  unfold doStoFbTimeout
  repeat' first
    | with_reducible assumption
    | with_reducible apply State.expire_only (le := or_le rfl le)
    | dsimp only
    | assumption

/-- It can touch modes, pow, flt, leases, a, b, fd, regs, br, rings, crc, otp, st, upd, pat, freeCtr, mode. -/
theorem doSs1StopTimeout_only {M : Nat} {s0 : State} (d : Die) (inst : Nat) (s : State) (h_s : Only M s0 s) (le : 0x92cbbf6 ||| M = M) : Only M s0 (doSs1StopTimeout d inst s) := by
  unfold doSs1StopTimeout
  repeat' first
    | with_reducible assumption
    | with_reducible apply State.expire_only (le := or_le rfl le)
    | dsimp only
    | assumption

/-- It can touch modes, pow, flt, leases, a, b, fd, regs, br, rings, crc, otp, st, upd, pat, freeCtr, mode. -/
theorem doSlsAdaptExpire_only {M : Nat} {s0 : State} (d : Die) (inst : Nat) (s : State) (h_s : Only M s0 s) (le : 0x92cbbf6 ||| M = M) : Only M s0 (doSlsAdaptExpire d inst s) := by
  unfold doSlsAdaptExpire
  repeat' first
    | with_reducible assumption
    | with_reducible apply State.expire_only (le := or_le rfl le)
    | dsimp only
    | assumption

/-- It can touch modes, pow, flt, leases, a, b, fd, regs, br, rings, crc, otp, st, upd, pat, freeCtr, mode. -/
theorem doBrakeEngageExpire_only {M : Nat} {s0 : State} (d : Die) (inst : Nat) (s : State) (h_s : Only M s0 s) (le : 0x92cbbf6 ||| M = M) : Only M s0 (doBrakeEngageExpire d inst s) := by
  unfold doBrakeEngageExpire
  repeat' first
    | with_reducible assumption
    | with_reducible apply State.expire_only (le := or_le rfl le)
    | dsimp only
    | assumption

/-- It can touch modes, pow, flt, leases, a, b, fd, regs, br, rings, crc, otp, st, upd, pat, freeCtr, mode. -/
theorem doSbcFbTimeout_only {M : Nat} {s0 : State} (d : Die) (inst : Nat) (s : State) (h_s : Only M s0 s) (le : 0x92cbbf6 ||| M = M) : Only M s0 (doSbcFbTimeout d inst s) := by
  unfold doSbcFbTimeout
  repeat' first
    | with_reducible assumption
    | with_reducible apply State.expire_only (le := or_le rfl le)
    | dsimp only
    | assumption

/-- It can touch modes, pow, flt, leases, a, b, fd, regs, br, rings, crc, otp, st, upd, pat, freeCtr, mode. -/
theorem doSbtTestTimeout_only {M : Nat} {s0 : State} (d : Die) (inst : Nat) (s : State) (h_s : Only M s0 s) (le : 0x92cbbf6 ||| M = M) : Only M s0 (doSbtTestTimeout d inst s) := by
  unfold doSbtTestTimeout
  repeat' first
    | with_reducible assumption
    | with_reducible apply State.expire_only (le := or_le rfl le)
    | dsimp only
    | assumption

/-- It can touch modes, pow, flt, leases, a, b, fd, regs, br, rings, crc, otp, st, upd, pat, freeCtr, mode. -/
theorem doSbtIntervalExpire_only {M : Nat} {s0 : State} (d : Die) (inst : Nat) (s : State) (h_s : Only M s0 s) (le : 0x92cbbf6 ||| M = M) : Only M s0 (doSbtIntervalExpire d inst s) := by
  unfold doSbtIntervalExpire
  repeat' first
    | with_reducible assumption
    | with_reducible apply State.expire_only (le := or_le rfl le)
    | dsimp only
    | assumption

/-- It can touch modes, pow, flt, leases, a, b, fd, regs, br, rings, crc, otp, st, upd, pat, freeCtr, mode. -/
theorem doGroupEngageExpire_only {M : Nat} {s0 : State} (d : Die) (inst : Nat) (s : State) (h_s : Only M s0 s) (le : 0x92cbbf6 ||| M = M) : Only M s0 (doGroupEngageExpire d inst s) := by
  unfold doGroupEngageExpire
  repeat' first
    | with_reducible assumption
    | with_reducible apply State.expire_only (le := or_le rfl le)
    | dsimp only
    | assumption

/-- It can touch modes, pow, flt, leases, a, b, fd, regs, br, rings, crc, otp, st, upd, pat, freeCtr, mode. -/
theorem doTensionFilterExpire_only {M : Nat} {s0 : State} (d : Die) (inst : Nat) (s : State) (h_s : Only M s0 s) (le : 0x92cbbf6 ||| M = M) : Only M s0 (doTensionFilterExpire d inst s) := by
  unfold doTensionFilterExpire
  repeat' first
    | with_reducible assumption
    | with_reducible apply State.expire_only (le := or_le rfl le)
    | dsimp only
    | assumption

end Sys2Proof.Machine
end

