-- ==== Sys2Proof/Laws/OnlyOtpRows.lean ====
section
/-! SUPPORT. Which fields the operations of Machine/OtpRows.lean can touch. -/

set_option linter.unusedTactic false
set_option linter.unreachableTactic false
set_option linter.unusedVariables false

namespace Sys2Proof.Machine

/-- It can touch freeCtr. -/
theorem State.rand_only {M : Nat} {s0 : State} (s : State) (n : Nat) (h_s : Only M s0 s) (le : 0x1000000 ||| M = M) : Only M s0 (State.rand s n).2 := by
  unfold State.rand
  repeat' first
    | with_reducible assumption
    | (dsimp only [Only.mk_eq]; with_reducible apply OnlyParts.freeCtr (c := testBit_ge le rfl); with_reducible apply Only.parts)
    | dsimp only
    | assumption

/-- It can touch freeCtr. -/
theorem State.randNat_only {M : Nat} {s0 : State} (s : State) (n : Nat) (h_s : Only M s0 s) (le : 0x1000000 ||| M = M) : Only M s0 (State.randNat s n).2 := by
  unfold State.randNat
  repeat' first
    | with_reducible assumption
    | with_reducible apply State.rand_only (le := or_le rfl le)
    | dsimp only
    | assumption

/-- It can touch br. -/
theorem State.persist_only {M : Nat} {s0 : State} (s : State) (idx sub val seat : Nat) (h_s : Only M s0 s) (le : 0x800 ||| M = M) : Only M s0 (State.persist s idx sub val seat) := by
  unfold State.persist
  repeat' first
    | with_reducible assumption
    | (dsimp only [Only.mk_eq]; with_reducible apply OnlyParts.br (c := testBit_ge le rfl); with_reducible apply Only.parts)
    | dsimp only
    | assumption

/-- It can touch leases, otp. -/
theorem State.firstRunDone_only {M : Nat} {s0 : State} (s : State) (h_s : Only M s0 s) (le : 0x8020 ||| M = M) : Only M s0 (State.firstRunDone s) := by
  unfold State.firstRunDone
  repeat' first
    | with_reducible assumption
    | intro _
    | with_reducible apply Only.ite
    | with_reducible apply State.firstRun_only (le := or_le rfl le)
    | (dsimp only [Only.mk_eq]; with_reducible apply OnlyParts.otp (c := testBit_ge le rfl); with_reducible apply Only.parts)
    | split
    | dsimp only
    | assumption

/-- It can touch leases, a, b, br, otp, keys, upd, pat. -/
theorem State.lcAfter_only {M : Nat} {s0 : State} (s : State) (v : Nat) (h_s : Only M s0 s) (le : 0x2a88e0 ||| M = M) : Only M s0 (State.lcAfter s v) := by
  unfold State.lcAfter
  repeat' first
    | with_reducible assumption
    | with_reducible apply Only.ite
    | with_reducible apply State.lcAct_only (le := or_le rfl le)
    | with_reducible apply State.lcLoad_only (le := or_le rfl le)
    | with_reducible apply State.otpWant_only (le := or_le rfl le)
    | split
    | dsimp only
    | assumption

/-- It can touch modes, pow, flt, leases, a, b, fd, regs, br, crc, otp, keys, st, upd, pat, freeCtr. -/
theorem State.otpEnd_only {M : Nat} {s0 : State} (u : State) (x : OtpOp) (ok : Bool) (h_u : Only M s0 u) (le : 0x12eabf6 ||| M = M) : Only M s0 (State.otpEnd u x ok) := by
  unfold State.otpEnd
  repeat' first
    | with_reducible assumption
    | with_reducible apply Only.ite
    | with_reducible apply State.ans_only (le := or_le rfl le)
    | with_reducible apply State.ansBusy_only (le := or_le rfl le)
    | with_reducible apply State.bump_only (le := or_le rfl le)
    | with_reducible apply State.firstRunDone_only (le := or_le rfl le)
    | with_reducible apply State.latch_only (le := or_le rfl le)
    | with_reducible apply State.lcAfter_only (le := or_le rfl le)
    | with_reducible apply State.leaseEnd_only (le := or_le rfl le)
    | with_reducible apply State.otpAns_only (le := or_le rfl le)
    | with_reducible apply State.otpNext_only (le := or_le rfl le)
    | (dsimp only [Only.mk_eq]; with_reducible apply OnlyParts.otp (c := testBit_ge le rfl); with_reducible apply Only.parts)
    | split
    | dsimp only
    | assumption

/-- It can touch modes, pow, flt, leases, a, b, fd, regs, br, crc, otp, keys, st, upd, pat, freeCtr. -/
theorem doOtpProgramDone_only {M : Nat} {s0 : State} (ok : Bool) (s : State) (h_s : Only M s0 s) (le : 0x12eabf6 ||| M = M) : Only M s0 (doOtpProgramDone ok s) := by
  unfold doOtpProgramDone
  repeat' first
    | with_reducible assumption
    | with_reducible apply Only.ite
    | with_reducible apply State.otpEnd_only (le := or_le rfl le)
    | split
    | dsimp only
    | assumption

/-- It can touch leases, br, otp. -/
theorem doOtpProg_only {M : Nat} {s0 : State} (seat : Fin 8) (v : Nat) (s : State) (h_s : Only M s0 s) (le : 0x8820 ||| M = M) : Only M s0 (doOtpProg seat v s) := by
  unfold doOtpProg
  repeat' first
    | with_reducible assumption
    | intro _
    | with_reducible apply State.leaseAsk_only (le := or_le rfl le)
    | with_reducible apply State.write_only (le := or_le rfl le)
    | (dsimp only [Only.mk_eq]; with_reducible apply OnlyParts.otp (c := testBit_ge le rfl); with_reducible apply Only.parts)
    | dsimp only
    | assumption

/-- It can touch those fields that a latch can, and otp and br. -/
theorem State.otpRead_only {M : Nat} {s0 : State} (s : State) (n : Nat) (h_s : Only M s0 s) (le : 0x10cabf6 ||| M = M) :
    Only M s0 (State.otpRead s n) := by
  unfold State.otpRead
  with_reducible apply Only.ite
  · exact State.ans_only s .access h_s (or_le rfl le)
  · extract_lets o s1
    have h1 : Only M s0 s1 := by
      apply State.reply_only (le := or_le rfl le)
      apply State.ans_only (le := or_le rfl le)
      with_reducible apply Only.mk
      with_reducible apply OnlyParts.otp (c := testBit_ge le rfl)
      exact h_s.parts
    clear_value s1
    cases s.otp.word n with
    | blank => exact h1
    | data v => exact h1
    | corrected v => exact State.bump_only s1 _ _ _ h1 (or_le rfl le)
    | spent => exact Only.ite (State.latch_only s1 _ h1 (or_le rfl le)) h1

/-- It can touch modes, pow, flt, leases, a, b, fd, regs, br, crc, otp, st, upd, freeCtr. -/
theorem doOtpData_only {M : Nat} {s0 : State} (seat : Fin 8) (s : State) (h_s : Only M s0 s) (le : 0x10cabf6 ||| M = M) : Only M s0 (doOtpData seat s) := by
  unfold doOtpData
  repeat' first
    | with_reducible assumption
    | with_reducible apply Only.ite
    | with_reducible apply State.ans_only (le := or_le rfl le)
    | with_reducible apply State.otpRead_only (le := or_le rfl le)
    | split
    | dsimp only
    | assumption

/-- It can touch leases, br, otp. -/
theorem doLcReq_only {M : Nat} {s0 : State} (seat : Fin 8) (v : Nat) (s : State) (h_s : Only M s0 s) (le : 0x8820 ||| M = M) : Only M s0 (doLcReq seat v s) := by
  unfold doLcReq
  repeat' first
    | with_reducible assumption
    | intro _
    | with_reducible apply State.otpWant_only (le := or_le rfl le)
    | with_reducible apply State.write_only (le := or_le rfl le)
    | dsimp only
    | assumption

/-- It can touch leases, br, otp. -/
theorem doLcResp_only {M : Nat} {s0 : State} (seat : Fin 8) (target : Nat) (sig : List Byte) (s : State) (h_s : Only M s0 s) (le : 0x8820 ||| M = M) : Only M s0 (doLcResp seat target sig s) := by
  unfold doLcResp
  repeat' first
    | with_reducible assumption
    | intro _
    | with_reducible apply Only.ite
    | with_reducible apply State.otpWant_only (le := or_le rfl le)
    | with_reducible apply State.write_only (le := or_le rfl le)
    | (dsimp only [Only.mk_eq]; with_reducible apply OnlyParts.otp (c := testBit_ge le rfl); with_reducible apply Only.parts)
    | split
    | dsimp only
    | assumption

/-- It can touch br, otp, freeCtr. -/
theorem doLcChal_only {M : Nat} {s0 : State} (seat : Fin 8) (s : State) (h_s : Only M s0 s) (le : 0x1008800 ||| M = M) : Only M s0 (doLcChal seat s) := by
  unfold doLcChal
  repeat' first
    | with_reducible assumption
    | with_reducible apply Only.ite
    | with_reducible apply State.ans_only (le := or_le rfl le)
    | with_reducible apply State.randNat_only (le := or_le rfl le)
    | with_reducible apply State.reply_only (le := or_le rfl le)
    | (dsimp only [Only.mk_eq]; with_reducible apply OnlyParts.otp (c := testBit_ge le rfl); with_reducible apply Only.parts)
    | split
    | dsimp only
    | assumption

/-- It can touch br, keys. -/
theorem doKeyPut_only {M : Nat} {s0 : State} (seat : Fin 8) (bytes : List Byte) (s : State) (h_s : Only M s0 s) (le : 0x20800 ||| M = M) : Only M s0 (doKeyPut seat bytes s) := by
  unfold doKeyPut
  repeat' first
    | with_reducible assumption
    | intro _
    | with_reducible apply State.keyPend_only (le := or_le rfl le)
    | with_reducible apply State.keyPut_only (le := or_le rfl le)
    | with_reducible apply State.persist_only (le := or_le rfl le)
    | with_reducible apply State.write_only (le := or_le rfl le)
    | split
    | dsimp only
    | assumption

/-- It can touch br, keys. -/
theorem doKeyErase_only {M : Nat} {s0 : State} (seat : Fin 8) (slot : Nat) (s : State) (h_s : Only M s0 s) (le : 0x20800 ||| M = M) : Only M s0 (doKeyErase seat slot s) := by
  unfold doKeyErase
  repeat' first
    | with_reducible assumption
    | intro _
    | with_reducible apply State.keyPend_only (le := or_le rfl le)
    | with_reducible apply State.persist_only (le := or_le rfl le)
    | with_reducible apply State.write_only (le := or_le rfl le)
    | dsimp only
    | assumption

/-- It can touch br, keys. -/
theorem State.keyCommit_only {M : Nat} {s0 : State} (s : State) (slot typ : Nat) (key : List Byte) (h_s : Only M s0 s) (le : 0x20800 ||| M = M) : Only M s0 (State.keyCommit s slot typ key) := by
  unfold State.keyCommit
  repeat' first
    | with_reducible assumption
    | with_reducible apply Only.ite
    | with_reducible apply State.keyPend_only (le := or_le rfl le)
    | with_reducible apply State.keyPut_only (le := or_le rfl le)
    | with_reducible apply State.newEra_only (le := or_le rfl le)
    | split
    | dsimp only
    | assumption

/-- It can touch bkp, keys. -/
theorem doEraRecordWrite_only {M : Nat} {s0 : State} (ok : Bool) (s : State) (h_s : Only M s0 s) (le : 0x30000 ||| M = M) : Only M s0 (doEraRecordWrite ok s) := by
  unfold doEraRecordWrite
  repeat' first
    | with_reducible assumption
    | with_reducible apply Only.ite
    | (dsimp only [Only.mk_eq]; with_reducible apply OnlyParts.bkp (c := testBit_ge le rfl); with_reducible apply OnlyParts.keys (c := testBit_ge le rfl); with_reducible apply Only.parts)
    | split
    | dsimp only
    | assumption

/-- It can touch modes, pow, flt, leases, a, b, fd, regs, br, crc, otp, bkp, st, upd, freeCtr. -/
theorem doTamper_only {M : Nat} {s0 : State} (i : Fin 4) (s : State) (h_s : Only M s0 s) (le : 0x10dabf6 ||| M = M) : Only M s0 (doTamper i s) := by
  unfold doTamper
  repeat' first
    | with_reducible assumption
    | with_reducible apply Only.ite
    | with_reducible apply State.latchStanding_only (le := or_le rfl le)
    | (dsimp only [Only.mk_eq]; with_reducible apply OnlyParts.bkp (c := testBit_ge le rfl); with_reducible apply Only.parts)
    | split
    | dsimp only
    | assumption

/-- It can touch flt, bkp. -/
theorem doTamperRelease_only {M : Nat} {s0 : State} (i : Fin 4) (s : State) (h_s : Only M s0 s) (le : 0x10010 ||| M = M) : Only M s0 (doTamperRelease i s) := by
  unfold doTamperRelease
  repeat' first
    | with_reducible assumption
    | with_reducible apply Only.ite
    | with_reducible apply State.causeOff_only (le := or_le rfl le)
    | (dsimp only [Only.mk_eq]; with_reducible apply OnlyParts.bkp (c := testBit_ge le rfl); with_reducible apply Only.parts)
    | split
    | dsimp only
    | assumption

/-- It can touch bkp. -/
theorem doVbatBrownOut_only {M : Nat} {s0 : State} (s : State) (h_s : Only M s0 s) (le : 0x10000 ||| M = M) : Only M s0 (doVbatBrownOut s) := by
  unfold doVbatBrownOut
  repeat' first
    | with_reducible assumption
    | with_reducible apply Only.ite
    | (dsimp only [Only.mk_eq]; with_reducible apply OnlyParts.bkp (c := testBit_ge le rfl); with_reducible apply Only.parts)
    | split
    | dsimp only
    | assumption

end Sys2Proof.Machine
end

