-- ==== Sys2Proof/Laws/OnlyFaultRows.lean ====
section
/-! SUPPORT. Which fields the operations of Machine/FaultRows.lean can touch. -/

set_option linter.unusedTactic false
set_option linter.unreachableTactic false
set_option linter.unusedVariables false

namespace Sys2Proof.Machine

/-- It can touch a, b, regs. -/
theorem State.memStop_only {M : Nat} {s0 : State} (s : State) (b : Nat) (h_s : Only M s0 s) (le : 0x2c0 ||| M = M) : Only M s0 (State.memStop s b) := by
  unfold State.memStop
  repeat' first
    | with_reducible assumption
    | with_reducible apply Only.ite
    | with_reducible apply State.jrnStop_only (le := or_le rfl le)
    | split
    | dsimp only
    | assumption

/-- It can touch modes, pow, flt, leases, a, b, fd, regs, br, rings, crc, otp, st, upd, freeCtr. -/
theorem State.ringFail_only {M : Nat} {s0 : State} (s : State) (d : Die) (h_s : Only M s0 s) (le : 0x10cbbf6 ||| M = M) : Only M s0 (State.ringFail s d) := by
  unfold State.ringFail
  repeat' first
    | with_reducible assumption
    | intro _
    | with_reducible apply State.free_only (le := or_le rfl le)
    | with_reducible apply State.latch_only (le := or_le rfl le)
    | with_reducible apply State.ringFix_only (le := or_le rfl le)
    | (dsimp only [Only.mk_eq]; with_reducible apply OnlyParts.rings (c := testBit_ge le rfl); with_reducible apply Only.parts)
    | split
    | dsimp only
    | assumption

/-- It can touch modes, pow, flt, leases, a, b, fd, regs, br, rings, crc, otp, st, upd, freeCtr. -/
theorem doFaultLatch_only {M : Nat} {s0 : State} (bit : Fin 64) (s : State) (h_s : Only M s0 s) (le : 0x10cbbf6 ||| M = M) : Only M s0 (doFaultLatch bit s) := by
  unfold doFaultLatch
  repeat' first
    | with_reducible assumption
    | intro _
    | with_reducible apply Only.ite
    | with_reducible apply State.causeOn_only (le := or_le rfl le)
    | with_reducible apply State.crcHalt_only (le := or_le rfl le)
    | with_reducible apply State.crcRest_only (le := or_le rfl le)
    | with_reducible apply State.fCause_only (le := or_le rfl le)
    | with_reducible apply State.latch_only (le := or_le rfl le)
    | with_reducible apply State.latchReset_only (le := or_le rfl le)
    | with_reducible apply State.memStop_only (le := or_le rfl le)
    | with_reducible apply State.ringFail_only (le := or_le rfl le)
    | with_reducible apply State.stitchReset_only (le := or_le rfl le)
    | with_reducible apply State.updDie_only (le := or_le rfl le)
    | exact fun _ h => h
    | split
    | dsimp only
    | assumption

/-- It can touch a, b, regs. -/
theorem State.relatch_only {M : Nat} {s0 : State} (s : State) (b : Nat) (h_s : Only M s0 s) (le : 0x2c0 ||| M = M) : Only M s0 (State.relatch s b) := by
  unfold State.relatch
  repeat' first
    | with_reducible assumption
    | with_reducible apply State.bump_only (le := or_le rfl le)
    | with_reducible apply State.event2_only (le := or_le rfl le)
    | dsimp only
    | assumption

/-- It can touch clk, flt, a, b, regs. -/
theorem State.clearBit_only {M : Nat} {s0 : State} (s : State) (b : Nat) (h_s : Only M s0 s) (le : 0x2d8 ||| M = M) : Only M s0 (State.clearBit s b) := by
  unfold State.clearBit
  repeat' first
    | with_reducible assumption
    | intro _
    | with_reducible apply Only.ite
    | with_reducible apply State.relatch_only (le := or_le rfl le)
    | with_reducible apply State.updDie_only (le := or_le rfl le)
    | with_reducible apply Only.foldl
    | (dsimp only [Only.mk_eq]; with_reducible apply OnlyParts.clk (c := testBit_ge le rfl); with_reducible apply OnlyParts.flt (c := testBit_ge le rfl); with_reducible apply Only.parts)
    | split
    | dsimp only
    | assumption

/-- It can touch flt, a, b, regs. -/
theorem State.clearSec_only {M : Nat} {s0 : State} (s : State) (b : Nat) (h_s : Only M s0 s) (le : 0x2d0 ||| M = M) : Only M s0 (State.clearSec s b) := by
  unfold State.clearSec
  repeat' first
    | with_reducible assumption
    | with_reducible apply Only.ite
    | with_reducible apply State.relatch_only (le := or_le rfl le)
    | (dsimp only [Only.mk_eq]; with_reducible apply OnlyParts.flt (c := testBit_ge le rfl); with_reducible apply Only.parts)
    | split
    | dsimp only
    | assumption

/-- It can touch clk, flt, a, b, regs, br. -/
theorem doFswClr_only {M : Nat} {s0 : State} (seat : Fin 8) (mask : Nat) (s : State) (h_s : Only M s0 s) (le : 0xad8 ||| M = M) : Only M s0 (doFswClr seat mask s) := by
  unfold doFswClr
  repeat' first
    | with_reducible assumption
    | intro _
    | with_reducible apply State.clearBit_only (le := or_le rfl le)
    | with_reducible apply State.write_only (le := or_le rfl le)
    | with_reducible apply Only.foldl
    | dsimp only
    | assumption

/-- It can touch flt, a, b, regs, br. -/
theorem doFswSecClr_only {M : Nat} {s0 : State} (seat : Fin 8) (mask : Nat) (s : State) (h_s : Only M s0 s) (le : 0xad0 ||| M = M) : Only M s0 (doFswSecClr seat mask s) := by
  unfold doFswSecClr
  repeat' first
    | with_reducible assumption
    | intro _
    | with_reducible apply State.clearSec_only (le := or_le rfl le)
    | with_reducible apply State.write_only (le := or_le rfl le)
    | with_reducible apply Only.foldl
    | dsimp only
    | assumption

/-- It can touch modes, pow, flt, leases, a, b, fd, regs, br, crc, otp, st, upd, freeCtr. -/
theorem doShadowEnd_only {M : Nat} {s0 : State} (blk : Blk) (s : State) (h_s : Only M s0 s) (le : 0x10cabf6 ||| M = M) : Only M s0 (doShadowEnd blk s) := by
  unfold doShadowEnd
  repeat' first
    | with_reducible assumption
    | intro _
    | with_reducible apply State.latch_only (le := or_le rfl le)
    | with_reducible apply Only.foldl
    | (dsimp only [Only.mk_eq]; with_reducible apply OnlyParts.flt (c := testBit_ge le rfl); with_reducible apply Only.parts)
    | split
    | dsimp only
    | assumption

/-- It can touch clk, flt, a, b. -/
theorem State.fldClocks_only {M : Nat} {s0 : State} (s : State) (h_s : Only M s0 s) (le : 0xd8 ||| M = M) : Only M s0 (State.fldClocks s) := by
  unfold State.fldClocks
  repeat' first
    | with_reducible assumption
    | with_reducible apply Only.ite
    | with_reducible apply State.causeOff_only (le := or_le rfl le)
    | with_reducible apply State.updDie_only (le := or_le rfl le)
    | (dsimp only [Only.mk_eq]; with_reducible apply OnlyParts.clk (c := testBit_ge le rfl); with_reducible apply Only.parts)
    | split
    | dsimp only
    | assumption

/-- It can touch clk, flt, a, b, crc. -/
theorem doBlockResetComplete_only {M : Nat} {s0 : State} (blk : Blk) (s : State) (h_s : Only M s0 s) (le : 0x20d8 ||| M = M) : Only M s0 (doBlockResetComplete blk s) := by
  unfold doBlockResetComplete
  repeat' first
    | with_reducible assumption
    | intro _
    | with_reducible apply Only.ite
    | with_reducible apply State.causeOff_only (le := or_le rfl le)
    | with_reducible apply State.fldClocks_only (le := or_le rfl le)
    | with_reducible apply State.updDie_only (le := or_le rfl le)
    | (dsimp only [Only.mk_eq]; with_reducible apply OnlyParts.flt (c := testBit_ge le rfl); with_reducible apply OnlyParts.crc (c := testBit_ge le rfl); with_reducible apply Only.parts)
    | split
    | dsimp only
    | assumption

/-- It can touch leases. -/
theorem doLeaseRequest_only {M : Nat} {s0 : State} (res party : Nat) (s : State) (h_s : Only M s0 s) (le : 0x20 ||| M = M) : Only M s0 (doLeaseRequest res party s) := by
  unfold doLeaseRequest
  repeat' first
    | with_reducible assumption
    | with_reducible apply Only.ite
    | with_reducible apply State.leaseAsk_only (le := or_le rfl le)
    | split
    | dsimp only
    | assumption

/-- It can touch leases. -/
theorem doLeaseRenew_only {M : Nat} {s0 : State} (res party : Nat) (s : State) (h_s : Only M s0 s) (le : 0x20 ||| M = M) : Only M s0 (doLeaseRenew res party s) := by
  unfold doLeaseRenew
  repeat' first
    | with_reducible assumption
    | with_reducible apply Only.ite
    | with_reducible apply State.setLease_only (le := or_le rfl le)
    | split
    | dsimp only
    | assumption

/-- It can touch leases, regs, crc, otp. -/
theorem doLeaseRelease_only {M : Nat} {s0 : State} (res party : Nat) (s : State) (h_s : Only M s0 s) (le : 0xa220 ||| M = M) : Only M s0 (doLeaseRelease res party s) := by
  unfold doLeaseRelease
  repeat' first
    | with_reducible assumption
    | with_reducible apply Only.ite
    | with_reducible apply State.leaseAsk_only (le := or_le rfl le)
    | with_reducible apply State.leaseEnd_only (le := or_le rfl le)
    | with_reducible apply State.leaseStart_only (le := or_le rfl le)
    | with_reducible apply State.otpNext_only (le := or_le rfl le)
    | split
    | dsimp only
    | assumption

/-- It can touch modes, pow, flt, leases, a, b, fd, regs, br, crc, otp, st, upd, freeCtr. -/
theorem doLeaseExpire_only {M : Nat} {s0 : State} (res : Nat) (s : State) (h_s : Only M s0 s) (le : 0x10cabf6 ||| M = M) : Only M s0 (doLeaseExpire res s) := by
  unfold doLeaseExpire
  repeat' first
    | with_reducible assumption
    | with_reducible apply Only.ite
    | with_reducible apply State.ans_only (le := or_le rfl le)
    | with_reducible apply State.free_only (le := or_le rfl le)
    | with_reducible apply State.latch_only (le := or_le rfl le)
    | with_reducible apply State.leaseReset_only (le := or_le rfl le)
    | with_reducible apply State.leaseStart_only (le := or_le rfl le)
    | with_reducible apply State.otpNext_only (le := or_le rfl le)
    | with_reducible apply State.setLease_only (le := or_le rfl le)
    | split
    | dsimp only
    | assumption

/-- It can touch flt, a, b, regs. -/
theorem State.readmFail_only {M : Nat} {s0 : State} (s : State) (d : Die) (h_s : Only M s0 s) (le : 0x2d0 ||| M = M) : Only M s0 (State.readmFail s d) := by
  unfold State.readmFail
  repeat' first
    | with_reducible assumption
    | intro _
    | with_reducible apply State.bump_only (le := or_le rfl le)
    | with_reducible apply State.setDie_only (le := or_le rfl le)
    | with_reducible apply State.setDieSt_only (le := or_le rfl le)
    | (dsimp only [Only.mk_eq]; with_reducible apply OnlyParts.flt (c := testBit_ge le rfl); with_reducible apply Only.parts)
    | dsimp only
    | assumption

/-- It can touch pow, flt. -/
theorem doReadmitPowerRestore_only {M : Nat} {s0 : State} (d : Die) (s : State) (h_s : Only M s0 s) (le : 0x14 ||| M = M) : Only M s0 (doReadmitPowerRestore d s) := by
  unfold doReadmitPowerRestore
  repeat' first
    | with_reducible assumption
    | with_reducible apply Only.ite
    | with_reducible apply State.setDieSt_only (le := or_le rfl le)
    | (dsimp only [Only.mk_eq]; with_reducible apply OnlyParts.pow (c := testBit_ge le rfl); with_reducible apply OnlyParts.flt (c := testBit_ge le rfl); with_reducible apply Only.parts)
    | split
    | dsimp only
    | assumption

/-- It can touch flt, a, b, regs. -/
theorem doReadmitBootDone_only {M : Nat} {s0 : State} (d : Die) (ok : Bool) (s : State) (h_s : Only M s0 s) (le : 0x2d0 ||| M = M) : Only M s0 (doReadmitBootDone d ok s) := by
  unfold doReadmitBootDone
  repeat' first
    | with_reducible assumption
    | intro _
    | with_reducible apply Only.ite
    | with_reducible apply State.readmFail_only (le := or_le rfl le)
    | with_reducible apply State.updDie_only (le := or_le rfl le)
    | (dsimp only [Only.mk_eq]; with_reducible apply OnlyParts.flt (c := testBit_ge le rfl); with_reducible apply Only.parts)
    | split
    | dsimp only
    | assumption

/-- It can touch flt, a, b, regs. -/
theorem doReadmitTimeout_only {M : Nat} {s0 : State} (d : Die) (s : State) (h_s : Only M s0 s) (le : 0x2d0 ||| M = M) : Only M s0 (doReadmitTimeout d s) := by
  unfold doReadmitTimeout
  repeat' first
    | with_reducible assumption
    | with_reducible apply Only.ite
    | with_reducible apply State.readmFail_only (le := or_le rfl le)
    | split
    | dsimp only
    | assumption

/-- It can touch modes, pow, flt, leases, a, b, fd, regs, br, crc, otp, st, upd, freeCtr. -/
theorem doStateTransferRx_only {M : Nat} {s0 : State} (d : Die) (h : FlitHdr) (s : State) (h_s : Only M s0 s) (le : 0x10cabf6 ||| M = M) : Only M s0 (doStateTransferRx d h s) := by
  unfold doStateTransferRx
  repeat' first
    | with_reducible assumption
    | intro _
    | with_reducible apply Only.ite
    | with_reducible apply State.flit_only (le := or_le rfl le)
    | with_reducible apply State.revert_only (le := or_le rfl le)
    | with_reducible apply State.takeState_only (le := or_le rfl le)
    | (dsimp only [Only.mk_eq]; with_reducible apply OnlyParts.flt (c := testBit_ge le rfl); with_reducible apply OnlyParts.upd (c := testBit_ge le rfl); with_reducible apply Only.parts)
    | split
    | dsimp only
    | assumption

/-- It can touch pow, flt, a, b, regs, rings. -/
theorem doMdieReadmit_only {M : Nat} {s0 : State} (s : State) (h_s : Only M s0 s) (le : 0x12d4 ||| M = M) : Only M s0 (doMdieReadmit s) := by
  unfold doMdieReadmit
  repeat' first
    | with_reducible assumption
    | with_reducible apply Only.ite
    | with_reducible apply State.bump_only (le := or_le rfl le)
    | with_reducible apply State.setDieSt_only (le := or_le rfl le)
    | with_reducible apply State.setReg_only (le := or_le rfl le)
    | with_reducible apply State.updDie_only (le := or_le rfl le)
    | (dsimp only [Only.mk_eq]; with_reducible apply OnlyParts.pow (c := testBit_ge le rfl); with_reducible apply OnlyParts.flt (c := testBit_ge le rfl); with_reducible apply OnlyParts.rings (c := testBit_ge le rfl); with_reducible apply Only.parts)
    | split
    | dsimp only
    | assumption

/-- It can touch modes, pow, flt, leases, a, b, fd, regs, br, crc, otp, st, upd, freeCtr. -/
theorem State.girthError_only {M : Nat} {s0 : State} (s : State) (d : Die) (h_s : Only M s0 s) (le : 0x10cabf6 ||| M = M) : Only M s0 (State.girthError s d) := by
  unfold State.girthError
  repeat' first
    | with_reducible assumption
    | with_reducible apply State.bump_only (le := or_le rfl le)
    | with_reducible apply State.latch_only (le := or_le rfl le)
    | with_reducible apply State.setReg_only (le := or_le rfl le)
    | (dsimp only [Only.mk_eq]; with_reducible apply OnlyParts.flt (c := testBit_ge le rfl); with_reducible apply Only.parts)
    | dsimp only
    | assumption

/-- It can touch modes, pow, flt, leases, a, b, fd, regs, br, crc, otp, st, upd, freeCtr. -/
theorem doGirthHeartbeatTimeout_only {M : Nat} {s0 : State} (d : Die) (s : State) (h_s : Only M s0 s) (le : 0x10cabf6 ||| M = M) : Only M s0 (doGirthHeartbeatTimeout d s) := by
  unfold doGirthHeartbeatTimeout
  repeat' first
    | with_reducible assumption
    | with_reducible apply Only.ite
    | with_reducible apply State.girthError_only (le := or_le rfl le)
    | split
    | dsimp only
    | assumption

/-- It can touch flt. -/
theorem doGirthChallenge_only {M : Nat} {s0 : State} (word : Nat) (s : State) (h_s : Only M s0 s) (le : 0x10 ||| M = M) : Only M s0 (doGirthChallenge word s) := by
  unfold doGirthChallenge
  repeat' first
    | with_reducible assumption
    | with_reducible apply Only.ite
    | (dsimp only [Only.mk_eq]; with_reducible apply OnlyParts.flt (c := testBit_ge le rfl); with_reducible apply Only.parts)
    | split
    | dsimp only
    | assumption

/-- It can touch modes, pow, flt, leases, a, b, fd, regs, br, crc, otp, st, upd, freeCtr. -/
theorem doGirthResponseRx_only {M : Nat} {s0 : State} (d : Die) (v : Nat) (s : State) (h_s : Only M s0 s) (le : 0x10cabf6 ||| M = M) : Only M s0 (doGirthResponseRx d v s) := by
  unfold doGirthResponseRx
  repeat' first
    | with_reducible assumption
    | with_reducible apply Only.ite
    | with_reducible apply State.girthError_only (le := or_le rfl le)
    | (dsimp only [Only.mk_eq]; with_reducible apply OnlyParts.flt (c := testBit_ge le rfl); with_reducible apply Only.parts)
    | split
    | dsimp only
    | assumption

/-- It can touch modes, pow, flt, leases, a, b, fd, regs, br, crc, otp, st, upd, freeCtr. -/
theorem doGirthResponseTimeout_only {M : Nat} {s0 : State} (d : Die) (s : State) (h_s : Only M s0 s) (le : 0x10cabf6 ||| M = M) : Only M s0 (doGirthResponseTimeout d s) := by
  unfold doGirthResponseTimeout
  repeat' first
    | with_reducible assumption
    | with_reducible apply Only.ite
    | with_reducible apply State.girthError_only (le := or_le rfl le)
    | (dsimp only [Only.mk_eq]; with_reducible apply OnlyParts.flt (c := testBit_ge le rfl); with_reducible apply Only.parts)
    | split
    | dsimp only
    | assumption

/-- It can touch regs, br, remote. -/
theorem doZoneRrst_only {M : Nat} {s0 : State} (seat : Fin 8) (z : Fin 64) (v : Nat) (s : State) (h_s : Only M s0 s) (le : 0x800a00 ||| M = M) : Only M s0 (doZoneRrst seat z v s) := by
  unfold doZoneRrst
  repeat' first
    | with_reducible assumption
    | intro _
    | with_reducible apply Only.ite
    | with_reducible apply State.setReg_only (le := or_le rfl le)
    | with_reducible apply State.write_only (le := or_le rfl le)
    | (dsimp only [Only.mk_eq]; with_reducible apply OnlyParts.remote (c := testBit_ge le rfl); with_reducible apply Only.parts)
    | split
    | dsimp only
    | assumption

/-- It can touch br, stdin. -/
theorem doStdinVal_only {M : Nat} {s0 : State} (seat : Fin 8) (slot : Fin 256) (v : Nat) (s : State) (h_s : Only M s0 s) (le : 0x400800 ||| M = M) : Only M s0 (doStdinVal seat slot v s) := by
  unfold doStdinVal
  repeat' first
    | with_reducible assumption
    | intro _
    | with_reducible apply State.write_only (le := or_le rfl le)
    | (dsimp only [Only.mk_eq]; with_reducible apply OnlyParts.stdin (c := testBit_ge le rfl); with_reducible apply Only.parts)
    | split
    | dsimp only
    | assumption

end Sys2Proof.Machine
end

