-- ==== Sys2Proof/Laws/OnlyPatRows.lean ====
section
/-! SUPPORT. Which fields the operations of Machine/PatRows.lean can touch. -/

set_option linter.unusedTactic false
set_option linter.unreachableTactic false
set_option linter.unusedVariables false

namespace Sys2Proof.Machine

/-- It can touch rings, pat. -/
theorem State.dropCand_only {M : Nat} {s0 : State} (s : State) (h_s : Only M s0 s) (le : 0x201000 ||| M = M) : Only M s0 (State.dropCand s) := by
  unfold State.dropCand
  repeat' first
    | with_reducible assumption
    | (dsimp only [Only.mk_eq]; with_reducible apply OnlyParts.rings (c := testBit_ge le rfl); with_reducible apply OnlyParts.pat (c := testBit_ge le rfl); with_reducible apply Only.parts)
    | dsimp only
    | assumption

/-- It can touch br, pat. -/
theorem doPatImage_only {M : Nat} {s0 : State} (seat : Fin 8) (ofs : Nat) (data : List Byte) (s : State) (h_s : Only M s0 s) (le : 0x200800 ||| M = M) : Only M s0 (doPatImage seat ofs data s) := by
  unfold doPatImage
  repeat' first
    | with_reducible assumption
    | intro _
    | with_reducible apply Only.ite
    | with_reducible apply State.ans_only (le := or_le rfl le)
    | with_reducible apply State.write_only (le := or_le rfl le)
    | (dsimp only [Only.mk_eq]; with_reducible apply OnlyParts.pat (c := testBit_ge le rfl); with_reducible apply Only.parts)
    | split
    | dsimp only
    | assumption

/-- It can touch br, rings, pat. -/
theorem doLoad_only {M : Nat} {s0 : State} (seat : Fin 8) (s : State) (h_s : Only M s0 s) (le : 0x201800 ||| M = M) : Only M s0 (doLoad seat s) := by
  unfold doLoad
  repeat' first
    | with_reducible assumption
    | intro _
    | with_reducible apply State.dropCand_only (le := or_le rfl le)
    | with_reducible apply State.write_only (le := or_le rfl le)
    | (dsimp only [Only.mk_eq]; with_reducible apply OnlyParts.pat (c := testBit_ge le rfl); with_reducible apply Only.parts)
    | dsimp only
    | assumption

/-- It can touch br, rings, pat. -/
theorem doDiscard_only {M : Nat} {s0 : State} (seat : Fin 8) (s : State) (h_s : Only M s0 s) (le : 0x201800 ||| M = M) : Only M s0 (doDiscard seat s) := by
  unfold doDiscard
  repeat' first
    | with_reducible assumption
    | intro _
    | with_reducible apply State.dropCand_only (le := or_le rfl le)
    | with_reducible apply State.write_only (le := or_le rfl le)
    | (dsimp only [Only.mk_eq]; with_reducible apply OnlyParts.pat (c := testBit_ge le rfl); with_reducible apply Only.parts)
    | dsimp only
    | assumption

/-- It can touch flt, rings, pat. -/
theorem State.takeCand_only {M : Nat} {s0 : State} (s : State) (p : Pattern) (h_s : Only M s0 s) (le : 0x201010 ||| M = M) : Only M s0 (State.takeCand s p) := by
  unfold State.takeCand
  repeat' first
    | with_reducible assumption
    | with_reducible apply State.causeOff_only (le := or_le rfl le)
    | with_reducible apply State.ringsFor_only (le := or_le rfl le)
    | (dsimp only [Only.mk_eq]; with_reducible apply OnlyParts.pat (c := testBit_ge le rfl); with_reducible apply Only.parts)
    | dsimp only
    | assumption

/-- It can touch pat. -/
theorem State.failCand_only {M : Nat} {s0 : State} (s : State) (e : Nat) (h_s : Only M s0 s) (le : 0x200000 ||| M = M) : Only M s0 (State.failCand s e) := by
  unfold State.failCand
  repeat' first
    | with_reducible assumption
    | (dsimp only [Only.mk_eq]; with_reducible apply OnlyParts.pat (c := testBit_ge le rfl); with_reducible apply Only.parts)
    | dsimp only
    | assumption

/-- It can touch flt, rings, pat, freeCtr. -/
theorem doPatternCheckDone_only {M : Nat} {s0 : State} (s : State) (h_s : Only M s0 s) (le : 0x1201010 ||| M = M) : Only M s0 (doPatternCheckDone s) := by
  unfold doPatternCheckDone
  repeat' first
    | with_reducible assumption
    | with_reducible apply Only.ite
    | with_reducible apply State.failCand_only (le := or_le rfl le)
    | with_reducible apply State.free_only (le := or_le rfl le)
    | with_reducible apply State.takeCand_only (le := or_le rfl le)
    | split
    | dsimp only
    | assumption

/-- It can touch regs, br. -/
theorem State.confirmFail_only {M : Nat} {s0 : State} (s : State) (h_s : Only M s0 s) (le : 0xa00 ||| M = M) : Only M s0 (State.confirmFail s) := by
  unfold State.confirmFail
  repeat' first
    | with_reducible assumption
    | with_reducible apply Only.ite
    | with_reducible apply State.ans_only (le := or_le rfl le)
    | with_reducible apply State.bump_only (le := or_le rfl le)
    | (dsimp only [Only.mk_eq]; with_reducible apply OnlyParts.br (c := testBit_ge le rfl); with_reducible apply Only.parts)
    | split
    | dsimp only
    | assumption

/-- It can touch regs, br, rings, pat. -/
theorem doConfirm_only {M : Nat} {s0 : State} (seat : Fin 8) (bytes : List Byte) (s : State) (h_s : Only M s0 s) (le : 0x201a00 ||| M = M) : Only M s0 (doConfirm seat bytes s) := by
  unfold doConfirm
  repeat' first
    | with_reducible assumption
    | intro _
    | with_reducible apply Only.ite
    | with_reducible apply State.confirmFail_only (le := or_le rfl le)
    | with_reducible apply State.write_only (le := or_le rfl le)
    | (dsimp only [Only.mk_eq]; with_reducible apply OnlyParts.br (c := testBit_ge le rfl); with_reducible apply OnlyParts.rings (c := testBit_ge le rfl); with_reducible apply OnlyParts.pat (c := testBit_ge le rfl); with_reducible apply Only.parts)
    | split
    | dsimp only
    | assumption

/-- It can touch rings, pat. -/
theorem doChangeLogCommit_only {M : Nat} {s0 : State} (s : State) (h_s : Only M s0 s) (le : 0x201000 ||| M = M) : Only M s0 (doChangeLogCommit s) := by
  unfold doChangeLogCommit
  repeat' first
    | with_reducible assumption
    | with_reducible apply Only.ite
    | with_reducible apply State.logAppend_only (le := or_le rfl le)
    | (dsimp only [Only.mk_eq]; with_reducible apply OnlyParts.rings (c := testBit_ge le rfl); with_reducible apply OnlyParts.pat (c := testBit_ge le rfl); with_reducible apply Only.parts)
    | split
    | dsimp only
    | assumption

end Sys2Proof.Machine
end

