-- ==== Sys2Proof/Laws/OnlyCrcRows.lean ====
section
/-! SUPPORT. Which fields the operations of Machine/CrcRows.lean can touch. -/

set_option linter.unusedTactic false
set_option linter.unreachableTactic false
set_option linter.unusedVariables false

namespace Sys2Proof.Machine

/-- It can touch br and what its argument can. -/
theorem State.refuse_only {M : Nat} {s0 : State} (s : State) (l : List (Bool × Status)) (f : State → State) (h_s : Only M s0 s) (k_f : ∀ t, Only M s0 t → Only M s0 (f t)) (le : 0x800 ||| M = M) : Only M s0 (State.refuse s l f) := by
  unfold State.refuse
  repeat' first
    | with_reducible assumption
    | intro _
    | with_reducible apply Only.ite
    | with_reducible apply State.ans_only (le := or_le rfl le)
    | with_reducible apply k_f
    | split
    | dsimp only
    | assumption

/-- It can touch leases, regs, rings, crc, freeCtr. -/
theorem doCrcDescriptorDone_only {M : Nat} {s0 : State} (d : Die) (c : Fin 8) (s : State) (h_s : Only M s0 s) (le : 0x1003220 ||| M = M) : Only M s0 (doCrcDescriptorDone d c s) := by
  unfold doCrcDescriptorDone
  repeat' first
    | with_reducible assumption
    | with_reducible apply Only.ite
    | with_reducible apply State.crcFeedDesc_only (le := or_le rfl le)
    | with_reducible apply State.crcNext_only (le := or_le rfl le)
    | with_reducible apply State.crcRest_only (le := or_le rfl le)
    | (dsimp only [Only.mk_eq]; with_reducible apply OnlyParts.rings (c := testBit_ge le rfl); with_reducible apply OnlyParts.crc (c := testBit_ge le rfl); with_reducible apply Only.parts)
    | split
    | dsimp only
    | assumption

/-- It can touch leases, regs, crc. -/
theorem State.crcStart_only {M : Nat} {s0 : State} (s : State) (k : Nat) (h_s : Only M s0 s) (le : 0x2220 ||| M = M) : Only M s0 (State.crcStart s k) := by
  unfold State.crcStart
  repeat' first
    | with_reducible assumption
    | intro _
    | with_reducible apply Only.ite
    | with_reducible apply State.crcNext_only (le := or_le rfl le)
    | with_reducible apply State.setReg_only (le := or_le rfl le)
    | (dsimp only [Only.mk_eq]; with_reducible apply OnlyParts.crc (c := testBit_ge le rfl); with_reducible apply Only.parts)
    | split
    | dsimp only
    | assumption

/-- It can touch leases, regs, br, crc. -/
theorem doCrcEnable_only {M : Nat} {s0 : State} (seat : Fin 8) (d : Die) (c : Fin 8) (s : State) (h_s : Only M s0 s) (le : 0x2a20 ||| M = M) : Only M s0 (doCrcEnable seat d c s) := by
  unfold doCrcEnable
  repeat' first
    | with_reducible assumption
    | intro _
    | with_reducible apply State.crcStart_only (le := or_le rfl le)
    | with_reducible apply State.refuse_only (le := or_le rfl le)
    | dsimp only
    | assumption

/-- It can touch leases, regs, br, crc. -/
theorem doCrcAbort_only {M : Nat} {s0 : State} (seat : Fin 8) (d : Die) (c : Fin 8) (s : State) (h_s : Only M s0 s) (le : 0x2a20 ||| M = M) : Only M s0 (doCrcAbort seat d c s) := by
  unfold doCrcAbort
  repeat' first
    | with_reducible assumption
    | intro _
    | with_reducible apply Only.ite
    | with_reducible apply State.crcHalt_only (le := or_le rfl le)
    | with_reducible apply State.crcRest_only (le := or_le rfl le)
    | with_reducible apply State.refuse_only (le := or_le rfl le)
    | split
    | dsimp only
    | assumption

/-- It can touch regs. -/
theorem State.loadPreset_only {M : Nat} {s0 : State} (s : State) (k v : Nat) (p : CrcPar) (h_s : Only M s0 s) (le : 0x200 ||| M = M) : Only M s0 (State.loadPreset s k v p) := by
  unfold State.loadPreset
  repeat' first
    | with_reducible assumption
    | with_reducible apply State.setReg_only (le := or_le rfl le)
    | dsimp only
    | assumption

/-- It can touch regs, br. -/
theorem doCrcPreset_only {M : Nat} {s0 : State} (seat : Fin 8) (d : Die) (c : Fin 8) (v : Nat) (s : State) (h_s : Only M s0 s) (le : 0xa00 ||| M = M) : Only M s0 (doCrcPreset seat d c v s) := by
  unfold doCrcPreset
  repeat' first
    | with_reducible assumption
    | intro _
    | with_reducible apply State.loadPreset_only (le := or_le rfl le)
    | with_reducible apply State.refuse_only (le := or_le rfl le)
    | split
    | dsimp only
    | assumption

/-- It can touch regs, br, crc. -/
theorem doCrcParameterWrite_only {M : Nat} {s0 : State} (seat : Fin 8) (d : Die) (c : Fin 8) (sub v : Nat) (s : State) (h_s : Only M s0 s) (le : 0x2a00 ||| M = M) : Only M s0 (doCrcParameterWrite seat d c sub v s) := by
  unfold doCrcParameterWrite
  repeat' first
    | with_reducible assumption
    | intro _
    | with_reducible apply Only.ite
    | with_reducible apply State.refuse_only (le := or_le rfl le)
    | with_reducible apply State.setReg_only (le := or_le rfl le)
    | (dsimp only [Only.mk_eq]; with_reducible apply OnlyParts.crc (c := testBit_ge le rfl); with_reducible apply Only.parts)
    | split
    | dsimp only
    | assumption

/-- It can touch modes, pow, flt, leases, a, b, fd, regs, br, rings, crc, tmr, otp, st, upd, freeCtr. -/
theorem doTimerMatch_only {M : Nat} {s0 : State} (d : Die) (t : Fin 8) (s : State) (h_s : Only M s0 s) (le : 0x10cfbf6 ||| M = M) : Only M s0 (doTimerMatch d t s) := by
  unfold doTimerMatch
  repeat' first
    | with_reducible assumption
    | with_reducible apply Only.ite
    | with_reducible apply State.putTimer_only (le := or_le rfl le)
    | split
    | dsimp only
    | assumption

/-- It can touch modes, pow, flt, leases, a, b, fd, regs, br, rings, crc, tmr, otp, st, upd, freeCtr. -/
theorem doTimerReload_only {M : Nat} {s0 : State} (d : Die) (t : Fin 8) (s : State) (h_s : Only M s0 s) (le : 0x10cfbf6 ||| M = M) : Only M s0 (doTimerReload d t s) := by
  unfold doTimerReload
  repeat' first
    | with_reducible assumption
    | with_reducible apply Only.ite
    | with_reducible apply State.putTimer_only (le := or_le rfl le)
    | split
    | dsimp only
    | assumption

/-- It can touch br, tmr. -/
theorem doTmrCtrl_only {M : Nat} {s0 : State} (seat : Fin 8) (d : Die) (t : Fin 8) (v : Nat) (s : State) (h_s : Only M s0 s) (le : 0x4800 ||| M = M) : Only M s0 (doTmrCtrl seat d t v s) := by
  unfold doTmrCtrl
  repeat' first
    | with_reducible assumption
    | intro _
    | with_reducible apply Only.ite
    | with_reducible apply State.refuse_only (le := or_le rfl le)
    | with_reducible apply State.setTimer_only (le := or_le rfl le)
    | split
    | dsimp only
    | assumption

/-- It can touch modes, pow, flt, leases, a, b, fd, regs, br, rings, crc, tmr, otp, st, upd, freeCtr. -/
theorem doTmrCmp_only {M : Nat} {s0 : State} (seat : Fin 8) (d : Die) (t : Fin 8) (v : Nat) (s : State) (h_s : Only M s0 s) (le : 0x10cfbf6 ||| M = M) : Only M s0 (doTmrCmp seat d t v s) := by
  unfold doTmrCmp
  repeat' first
    | with_reducible assumption
    | intro _
    | with_reducible apply State.putTimer_only (le := or_le rfl le)
    | with_reducible apply State.refuse_only (le := or_le rfl le)
    | dsimp only
    | assumption

/-- It can touch br, tmr. -/
theorem doTmrCmpNext_only {M : Nat} {s0 : State} (seat : Fin 8) (d : Die) (t : Fin 8) (v : Nat) (s : State) (h_s : Only M s0 s) (le : 0x4800 ||| M = M) : Only M s0 (doTmrCmpNext seat d t v s) := by
  unfold doTmrCmpNext
  repeat' first
    | with_reducible assumption
    | intro _
    | with_reducible apply State.refuse_only (le := or_le rfl le)
    | with_reducible apply State.setTimer_only (le := or_le rfl le)
    | dsimp only
    | assumption

/-- It can touch br, tmr. -/
theorem doTmrCount_only {M : Nat} {s0 : State} (seat : Fin 8) (d : Die) (t : Fin 8) (v : Nat) (s : State) (h_s : Only M s0 s) (le : 0x4800 ||| M = M) : Only M s0 (doTmrCount seat d t v s) := by
  unfold doTmrCount
  repeat' first
    | with_reducible assumption
    | intro _
    | with_reducible apply State.refuse_only (le := or_le rfl le)
    | with_reducible apply State.setTimer_only (le := or_le rfl le)
    | dsimp only
    | assumption

end Sys2Proof.Machine
end

