-- ==== Sys2Proof/Laws/OnlyRingRows.lean ====
section
/-! SUPPORT. Which fields the operations of Machine/RingRows.lean can touch. -/

set_option linter.unusedTactic false
set_option linter.unreachableTactic false
set_option linter.unusedVariables false

namespace Sys2Proof.Machine

/-- It can touch freeCtr. -/
theorem State.freeBytes_only {M : Nat} {s0 : State} (s : State) (k : Nat) (h_s : Only M s0 s) (le : 0x1000000 ||| M = M) : Only M s0 (State.freeBytes s k).2 := by
  unfold State.freeBytes
  repeat' first
    | with_reducible assumption
    | with_reducible apply State.free_only (le := or_le rfl le)
    | dsimp only
    | assumption

/-- It can touch br, freeCtr. -/
theorem State.readEntries_only {M : Nat} {s0 : State} (s : State) (n : Nat) (cs : List Nat) (h_s : Only M s0 s) (le : 0x1000800 ||| M = M) : Only M s0 (State.readEntries s n cs) := by
  unfold State.readEntries
  repeat' first
    | with_reducible assumption
    | intro _
    | with_reducible apply Only.ite
    | with_reducible apply State.freeBytes_only (le := or_le rfl le)
    | with_reducible apply State.reply_only (le := or_le rfl le)
    | with_reducible apply Only.foldl
    | with_reducible apply Only.foldlSnd
    | split
    | dsimp only
    | assumption

/-- It can touch modes, pow, flt, leases, a, b, fd, regs, br, rings, crc, otp, st, upd, freeCtr. -/
theorem doRingRead_only {M : Nat} {s0 : State} (seat : Fin 8) (ofs count : Nat) (s : State) (h_s : Only M s0 s) (le : 0x10cbbf6 ||| M = M) : Only M s0 (doRingRead seat ofs count s) := by
  unfold doRingRead
  repeat' first
    | with_reducible assumption
    | intro _
    | with_reducible apply State.readEntries_only (le := or_le rfl le)
    | with_reducible apply State.refuse_only (le := or_le rfl le)
    | with_reducible apply State.ringFix_only (le := or_le rfl le)
    | dsimp only
    | assumption

/-- It can touch leases, regs, rings, crc. -/
theorem State.pushAll_only {M : Nat} {s0 : State} (s : State) (n : Nat) (es : List (List Byte)) (h_s : Only M s0 s) (le : 0x3220 ||| M = M) : Only M s0 (State.pushAll s n es) := by
  unfold State.pushAll
  repeat' first
    | with_reducible assumption
    | intro _
    | with_reducible apply State.crcKick_only (le := or_le rfl le)
    | with_reducible apply State.crcTouchHead_only (le := or_le rfl le)
    | with_reducible apply Only.foldl
    | (dsimp only [Only.mk_eq]; with_reducible apply OnlyParts.rings (c := testBit_ge le rfl); with_reducible apply Only.parts)
    | dsimp only
    | assumption

/-- It can touch rings. -/
theorem State.pushed_only {M : Nat} {s0 : State} (s : State) (seat n : Nat) (h_s : Only M s0 s) (le : 0x1000 ||| M = M) : Only M s0 (State.pushed s seat n) := by
  unfold State.pushed
  repeat' first
    | with_reducible assumption
    | with_reducible apply Only.ite
    | (dsimp only [Only.mk_eq]; with_reducible apply OnlyParts.rings (c := testBit_ge le rfl); with_reducible apply Only.parts)
    | split
    | dsimp only
    | assumption

/-- It can touch modes, pow, flt, leases, a, b, fd, regs, br, rings, crc, otp, st, upd, freeCtr. -/
theorem doRingPush_only {M : Nat} {s0 : State} (seat : Fin 8) (data : List Byte) (s : State) (h_s : Only M s0 s) (le : 0x10cbbf6 ||| M = M) : Only M s0 (doRingPush seat data s) := by
  unfold doRingPush
  repeat' first
    | with_reducible assumption
    | intro _
    | with_reducible apply State.pushAll_only (le := or_le rfl le)
    | with_reducible apply State.pushed_only (le := or_le rfl le)
    | with_reducible apply State.refuse_only (le := or_le rfl le)
    | with_reducible apply State.ringFix_only (le := or_le rfl le)
    | dsimp only
    | assumption

/-- It can touch modes, pow, flt, leases, a, b, fd, regs, br, rings, crc, otp, st, upd, freeCtr. -/
theorem doRingConsume_only {M : Nat} {s0 : State} (seat : Fin 8) (k : Nat) (s : State) (h_s : Only M s0 s) (le : 0x10cbbf6 ||| M = M) : Only M s0 (doRingConsume seat k s) := by
  unfold doRingConsume
  repeat' first
    | with_reducible assumption
    | intro _
    | with_reducible apply State.refuse_only (le := or_le rfl le)
    | with_reducible apply State.ringFix_only (le := or_le rfl le)
    | (dsimp only [Only.mk_eq]; with_reducible apply OnlyParts.rings (c := testBit_ge le rfl); with_reducible apply Only.parts)
    | dsimp only
    | assumption

/-- It can touch modes, pow, flt, leases, a, b, fd, regs, br, rings, crc, otp, st, upd, freeCtr. -/
theorem doFree_only {M : Nat} {s0 : State} (seat : Fin 8) (s : State) (h_s : Only M s0 s) (le : 0x10cbbf6 ||| M = M) : Only M s0 (doFree seat s) := by
  unfold doFree
  repeat' first
    | with_reducible assumption
    | intro _
    | with_reducible apply State.refuse_only (le := or_le rfl le)
    | with_reducible apply State.ringFix_only (le := or_le rfl le)
    | (dsimp only [Only.mk_eq]; with_reducible apply OnlyParts.rings (c := testBit_ge le rfl); with_reducible apply Only.parts)
    | dsimp only
    | assumption

/-- It can touch modes, pow, flt, leases, a, b, fd, regs, br, rings, crc, otp, st, upd, freeCtr. -/
theorem doReset_only {M : Nat} {s0 : State} (seat : Fin 8) (s : State) (h_s : Only M s0 s) (le : 0x10cbbf6 ||| M = M) : Only M s0 (doReset seat s) := by
  unfold doReset
  repeat' first
    | with_reducible assumption
    | intro _
    | with_reducible apply State.refuse_only (le := or_le rfl le)
    | with_reducible apply State.ringFix_only (le := or_le rfl le)
    | (dsimp only [Only.mk_eq]; with_reducible apply OnlyParts.rings (c := testBit_ge le rfl); with_reducible apply Only.parts)
    | dsimp only
    | assumption

/-- It can touch br, rings. -/
theorem doRingAlloc_only {M : Nat} {s0 : State} (d : Die) (seat : Fin 8) (v : Nat) (s : State) (h_s : Only M s0 s) (le : 0x1800 ||| M = M) : Only M s0 (doRingAlloc d seat v s) := by
  unfold doRingAlloc
  repeat' first
    | with_reducible assumption
    | intro _
    | with_reducible apply State.refuse_only (le := or_le rfl le)
    | with_reducible apply State.updSeat_only (le := or_le rfl le)
    | (dsimp only [Only.mk_eq]; with_reducible apply OnlyParts.rings (c := testBit_ge le rfl); with_reducible apply Only.parts)
    | split
    | dsimp only
    | assumption

/-- It can touch br. -/
theorem doJrnDataRead_only {M : Nat} {s0 : State} (d : Die) (seat : Fin 8) (ofs count : Nat) (s : State) (h_s : Only M s0 s) (le : 0x800 ||| M = M) : Only M s0 (doJrnDataRead d seat ofs count s) := by
  unfold doJrnDataRead
  repeat' first
    | with_reducible assumption
    | intro _
    | with_reducible apply State.refuse_only (le := or_le rfl le)
    | with_reducible apply State.reply_only (le := or_le rfl le)
    | dsimp only
    | assumption

/-- It can touch a, b, regs. -/
theorem State.jrnSync_only {M : Nat} {s0 : State} (d : Die) (p : Pattern) (s : State) (v : Var) (h_s : Only M s0 s) (le : 0x2c0 ||| M = M) : Only M s0 (State.jrnSync d p s v) := by
  unfold State.jrnSync
  repeat' first
    | with_reducible assumption
    | intro _
    | with_reducible apply Only.ite
    | with_reducible apply State.jrnRec_only (le := or_le rfl le)
    | with_reducible apply State.updDie_only (le := or_le rfl le)
    | exact fun _ h => h
    | split
    | dsimp only
    | assumption

/-- It can touch a, b, regs. -/
theorem doJournalResume_only {M : Nat} {s0 : State} (d : Die) (s : State) (h_s : Only M s0 s) (le : 0x2c0 ||| M = M) : Only M s0 (doJournalResume d s) := by
  unfold doJournalResume
  repeat' first
    | with_reducible assumption
    | intro _
    | with_reducible apply Only.ite
    | with_reducible apply State.bumpOnce_only (le := or_le rfl le)
    | with_reducible apply State.jrnSync_only (le := or_le rfl le)
    | with_reducible apply State.setDie_only (le := or_le rfl le)
    | with_reducible apply Only.foldl
    | split
    | dsimp only
    | assumption

end Sys2Proof.Machine
end

