-- ==== Sys2Proof/Laws/OnlyTestRows.lean ====
section
/-! SUPPORT. Which fields the operations of Machine/TestRows.lean can touch. -/

set_option linter.unusedTactic false
set_option linter.unreachableTactic false
set_option linter.unusedVariables false

namespace Sys2Proof.Machine

/-- It can touch st. -/
theorem State.reqBegin_only {M : Nat} {s0 : State} (s : State) (h_s : Only M s0 s) (le : 0x40000 ||| M = M) : Only M s0 (State.reqBegin s) := by
  unfold State.reqBegin
  repeat' first
    | with_reducible assumption
    | intro _
    | (dsimp only [Only.mk_eq]; with_reducible apply OnlyParts.st (c := testBit_ge le rfl); with_reducible apply Only.parts)
    | split
    | dsimp only
    | assumption

/-- It can touch regs, st. -/
theorem State.roundEnd_only {M : Nat} {s0 : State} (s : State) (h_s : Only M s0 s) (le : 0x40200 ||| M = M) : Only M s0 (State.roundEnd s) := by
  unfold State.roundEnd
  repeat' first
    | with_reducible assumption
    | intro _
    | with_reducible apply Only.ite
    | with_reducible apply State.bump_only (le := or_le rfl le)
    | with_reducible apply State.newRound_only (le := or_le rfl le)
    | with_reducible apply State.setReg_only (le := or_le rfl le)
    | (dsimp only [Only.mk_eq]; with_reducible apply OnlyParts.st (c := testBit_ge le rfl); with_reducible apply Only.parts)
    | split
    | dsimp only
    | assumption

/-- It can touch regs, st. -/
theorem State.itemTested_only {M : Nat} {s0 : State} (s : State) (d : Die) (item : Nat) (h_s : Only M s0 s) (le : 0x40200 ||| M = M) : Only M s0 (State.itemTested s d item) := by
  unfold State.itemTested
  repeat' first
    | with_reducible assumption
    | intro _
    | with_reducible apply Only.ite
    | with_reducible apply State.reqBegin_only (le := or_le rfl le)
    | with_reducible apply State.roundEnd_only (le := or_le rfl le)
    | (dsimp only [Only.mk_eq]; with_reducible apply OnlyParts.st (c := testBit_ge le rfl); with_reducible apply Only.parts)
    | split
    | dsimp only
    | assumption

/-- It can touch freeCtr. -/
theorem State.nextSpare_only {M : Nat} {s0 : State} (s : State) (d : Die) (item : Nat) (h_s : Only M s0 s) (le : 0x1000000 ||| M = M) : Only M s0 (State.nextSpare s d item).2 := by
  unfold State.nextSpare
  repeat' first
    | with_reducible assumption
    | intro _
    | with_reducible apply Only.ite
    | with_reducible apply State.free_only (le := or_le rfl le)
    | split
    | dsimp only
    | assumption

/-- It can touch st. -/
theorem State.tryRepair_only {M : Nat} {s0 : State} (s : State) (d : Die) (item w : Nat) (h_s : Only M s0 s) (le : 0x40000 ||| M = M) : Only M s0 (State.tryRepair s d item w) := by
  unfold State.tryRepair
  repeat' first
    | with_reducible assumption
    | intro _
    | (dsimp only [Only.mk_eq]; with_reducible apply OnlyParts.st (c := testBit_ge le rfl); with_reducible apply Only.parts)
    | dsimp only
    | assumption

/-- It can touch flt. -/
theorem State.bistCheck_only {M : Nat} {s0 : State} (s : State) (d : Die) (h_s : Only M s0 s) (le : 0x10 ||| M = M) : Only M s0 (State.bistCheck s d) := by
  unfold State.bistCheck
  repeat' first
    | with_reducible assumption
    | intro _
    | with_reducible apply Only.ite
    | with_reducible apply State.causeOff_only (le := or_le rfl le)
    | split
    | dsimp only
    | assumption

/-- It can touch flt, st. -/
theorem State.closeItem_only {M : Nat} {s0 : State} (s : State) (d : Die) (item : Nat) (h_s : Only M s0 s) (le : 0x40010 ||| M = M) : Only M s0 (State.closeItem s d item) := by
  unfold State.closeItem
  repeat' first
    | with_reducible assumption
    | intro _
    | with_reducible apply State.bistCheck_only (le := or_le rfl le)
    | (dsimp only [Only.mk_eq]; with_reducible apply OnlyParts.st (c := testBit_ge le rfl); with_reducible apply Only.parts)
    | dsimp only
    | assumption

/-- It can touch flt, leases, otp, st. -/
theorem State.proven_only {M : Nat} {s0 : State} (s : State) (d : Die) (item w : Nat) (h_s : Only M s0 s) (le : 0x48030 ||| M = M) : Only M s0 (State.proven s d item w) := by
  unfold State.proven
  repeat' first
    | with_reducible assumption
    | with_reducible apply Only.ite
    | with_reducible apply State.closeItem_only (le := or_le rfl le)
    | with_reducible apply State.otpWant_only (le := or_le rfl le)
    | split
    | dsimp only
    | assumption

/-- It can touch flt, a, b. -/
theorem State.laneBack_only {M : Nat} {s0 : State} (s : State) (d : Die) (n : Nat) (h_s : Only M s0 s) (le : 0xd0 ||| M = M) : Only M s0 (State.laneBack s d n) := by
  unfold State.laneBack
  repeat' first
    | with_reducible assumption
    | intro _
    | with_reducible apply Only.ite
    | with_reducible apply State.causeOff_only (le := or_le rfl le)
    | with_reducible apply State.updDie_only (le := or_le rfl le)
    | split
    | dsimp only
    | assumption

/-- It can touch flt, leases, a, b, fd, regs, otp, st. -/
theorem State.itemPass_only {M : Nat} {s0 : State} (s : State) (d : Die) (item : Nat) (h_s : Only M s0 s) (le : 0x483f0 ||| M = M) : Only M s0 (State.itemPass s d item) := by
  unfold State.itemPass
  repeat' first
    | with_reducible assumption
    | intro _
    | with_reducible apply Only.ite
    | with_reducible apply State.closeItem_only (le := or_le rfl le)
    | with_reducible apply State.itemTested_only (le := or_le rfl le)
    | with_reducible apply State.laneBack_only (le := or_le rfl le)
    | with_reducible apply State.proven_only (le := or_le rfl le)
    | with_reducible apply State.updF_only (le := or_le rfl le)
    | (dsimp only [Only.mk_eq]; with_reducible apply OnlyParts.st (c := testBit_ge le rfl); with_reducible apply Only.parts)
    | split
    | dsimp only
    | assumption

/-- It can touch modes, pow, flt, leases, a, b, fd, regs, br, rings, crc, otp, st, upd, freeCtr. -/
theorem State.itemBit_only {M : Nat} {s0 : State} (s : State) (d : Die) (item : Nat) (h_s : Only M s0 s) (le : 0x10cbbf6 ||| M = M) : Only M s0 (State.itemBit s d item) := by
  unfold State.itemBit
  repeat' first
    | with_reducible assumption
    | with_reducible apply doFaultLatch_only (le := or_le rfl le)
    | split
    | dsimp only
    | assumption

/-- It can touch modes, pow, flt, leases, a, b, fd, regs, br, crc, otp, st, upd, freeCtr. -/
theorem State.failNote_only {M : Nat} {s0 : State} (s : State) (d : Die) (w : Nat) (h_s : Only M s0 s) (le : 0x10cabf6 ||| M = M) : Only M s0 (State.failNote s d w) := by
  unfold State.failNote
  repeat' first
    | with_reducible assumption
    | with_reducible apply State.bump_only (le := or_le rfl le)
    | with_reducible apply State.latchStanding_only (le := or_le rfl le)
    | with_reducible apply State.setReg_only (le := or_le rfl le)
    | dsimp only
    | assumption

/-- It can touch st. -/
theorem State.failWait_only {M : Nat} {s0 : State} (s : State) (d : Die) (item : Nat) (h_s : Only M s0 s) (le : 0x40000 ||| M = M) : Only M s0 (State.failWait s d item) := by
  unfold State.failWait
  repeat' first
    | with_reducible assumption
    | (dsimp only [Only.mk_eq]; with_reducible apply OnlyParts.st (c := testBit_ge le rfl); with_reducible apply Only.parts)
    | dsimp only
    | assumption

/-- It can touch modes, pow, flt, leases, a, b, fd, regs, br, rings, crc, otp, st, upd, freeCtr. -/
theorem State.itemFail_only {M : Nat} {s0 : State} (s : State) (d : Die) (item : Nat) (h_s : Only M s0 s) (le : 0x10cbbf6 ||| M = M) : Only M s0 (State.itemFail s d item) := by
  unfold State.itemFail
  repeat' first
    | with_reducible assumption
    | intro _
    | with_reducible apply Only.ite
    | with_reducible apply State.bump_only (le := or_le rfl le)
    | with_reducible apply State.failNote_only (le := or_le rfl le)
    | with_reducible apply State.free_only (le := or_le rfl le)
    | with_reducible apply State.itemBit_only (le := or_le rfl le)
    | with_reducible apply State.itemTested_only (le := or_le rfl le)
    | with_reducible apply State.nextSpare_only (le := or_le rfl le)
    | with_reducible apply State.proven_only (le := or_le rfl le)
    | with_reducible apply State.tryRepair_only (le := or_le rfl le)
    | with_reducible apply State.updDie_only (le := or_le rfl le)
    | with_reducible apply State.updF_only (le := or_le rfl le)
    | (dsimp only [Only.mk_eq]; with_reducible apply OnlyParts.st (c := testBit_ge le rfl); with_reducible apply Only.parts)
    | split
    | dsimp only
    | assumption

/-- It can touch modes, pow, flt, leases, a, b, fd, regs, br, rings, crc, otp, st, upd, freeCtr. -/
theorem doGranuleDone_only {M : Nat} {s0 : State} (d : Die) (item : Nat) (pass : Bool) (s : State) (h_s : Only M s0 s) (le : 0x10cbbf6 ||| M = M) : Only M s0 (doGranuleDone d item pass s) := by
  unfold doGranuleDone
  repeat' first
    | with_reducible assumption
    | with_reducible apply Only.ite
    | with_reducible apply State.failWait_only (le := or_le rfl le)
    | with_reducible apply State.itemFail_only (le := or_le rfl le)
    | with_reducible apply State.itemPass_only (le := or_le rfl le)
    | (dsimp only [Only.mk_eq]; with_reducible apply OnlyParts.st (c := testBit_ge le rfl); with_reducible apply Only.parts)
    | split
    | dsimp only
    | assumption

/-- It can touch st. -/
theorem doRoundLate_only {M : Nat} {s0 : State} (s : State) (h_s : Only M s0 s) (le : 0x40000 ||| M = M) : Only M s0 (doRoundLate s) := by
  unfold doRoundLate
  repeat' first
    | with_reducible assumption
    | with_reducible apply Only.ite
    | (dsimp only [Only.mk_eq]; with_reducible apply OnlyParts.st (c := testBit_ge le rfl); with_reducible apply Only.parts)
    | split
    | dsimp only
    | assumption

/-- It can touch br, st. -/
theorem doStReq_only {M : Nat} {s0 : State} (seat : Fin 8) (v : Nat) (s : State) (h_s : Only M s0 s) (le : 0x40800 ||| M = M) : Only M s0 (doStReq seat v s) := by
  unfold doStReq
  repeat' first
    | with_reducible assumption
    | intro _
    | with_reducible apply Only.ite
    | with_reducible apply State.refuse_only (le := or_le rfl le)
    | with_reducible apply State.reqBegin_only (le := or_le rfl le)
    | (dsimp only [Only.mk_eq]; with_reducible apply OnlyParts.st (c := testBit_ge le rfl); with_reducible apply Only.parts)
    | split
    | dsimp only
    | assumption

end Sys2Proof.Machine
end

