-- ==== Sys2Proof/Laws/OnlyUpdRows.lean ====
section
/-! SUPPORT. Which fields the operations of Machine/UpdRows.lean can touch. -/

set_option linter.unusedTactic false
set_option linter.unreachableTactic false
set_option linter.unusedVariables false

namespace Sys2Proof.Machine

/-- It can touch upd. -/
theorem State.svcAnswer_only {M : Nat} {s0 : State} (s : State) (k : Nat) (st : Status) (session : Nat) (payload : List Byte) (h_s : Only M s0 s) (le : 0x80000 ||| M = M) : Only M s0 (State.svcAnswer s k st session payload) := by
  unfold State.svcAnswer
  repeat' first
    | with_reducible assumption
    | (dsimp only [Only.mk_eq]; with_reducible apply OnlyParts.upd (c := testBit_ge le rfl); with_reducible apply Only.parts)
    | dsimp only
    | assumption

/-- It can touch upd and what its argument can. -/
theorem State.svcTake_only {M : Nat} {s0 : State} (s : State) (k : Nat) (f : SvcFrame) (g : State → State) (h_s : Only M s0 s) (k_g : ∀ t, Only M s0 t → Only M s0 (g t)) (le : 0x80000 ||| M = M) : Only M s0 (State.svcTake s k f g) := by
  unfold State.svcTake
  repeat' first
    | with_reducible assumption
    | intro _
    | with_reducible apply Only.ite
    | with_reducible apply State.svcAnswer_only (le := or_le rfl le)
    | with_reducible apply k_g
    | (dsimp only [Only.mk_eq]; with_reducible apply OnlyParts.upd (c := testBit_ge le rfl); with_reducible apply Only.parts)
    | split
    | dsimp only
    | assumption

/-- It can touch upd and what its argument can. -/
theorem State.svcSess_only {M : Nat} {s0 : State} (s : State) (k : Nat) (f : SvcFrame) (g : State → State) (h_s : Only M s0 s) (k_g : ∀ t, Only M s0 t → Only M s0 (g t)) (le : 0x80000 ||| M = M) : Only M s0 (State.svcSess s k f g) := by
  unfold State.svcSess
  repeat' first
    | with_reducible assumption
    | intro _
    | with_reducible apply Only.ite
    | with_reducible apply State.svcAnswer_only (le := or_le rfl le)
    | with_reducible apply State.svcTake_only (le := or_le rfl le)
    | with_reducible apply k_g
    | (dsimp only [Only.mk_eq]; with_reducible apply OnlyParts.upd (c := testBit_ge le rfl); with_reducible apply Only.parts)
    | split
    | dsimp only
    | assumption

/-- It can touch upd, freeCtr. -/
theorem doChal_only {M : Nat} {s0 : State} (f : SvcFrame) (s : State) (h_s : Only M s0 s) (le : 0x1080000 ||| M = M) : Only M s0 (doChal f s) := by
  unfold doChal
  repeat' first
    | with_reducible assumption
    | intro _
    | with_reducible apply Only.ite
    | with_reducible apply State.randNat_only (le := or_le rfl le)
    | with_reducible apply State.svcAnswer_only (le := or_le rfl le)
    | with_reducible apply State.svcTake_only (le := or_le rfl le)
    | (dsimp only [Only.mk_eq]; with_reducible apply OnlyParts.upd (c := testBit_ge le rfl); with_reducible apply Only.parts)
    | split
    | dsimp only
    | assumption

/-- It can touch upd. -/
theorem State.authFail_only {M : Nat} {s0 : State} (s : State) (session : Nat) (h_s : Only M s0 s) (le : 0x80000 ||| M = M) : Only M s0 (State.authFail s session) := by
  unfold State.authFail
  repeat' first
    | with_reducible assumption
    | with_reducible apply Only.ite
    | with_reducible apply State.svcAnswer_only (le := or_le rfl le)
    | (dsimp only [Only.mk_eq]; with_reducible apply OnlyParts.upd (c := testBit_ge le rfl); with_reducible apply Only.parts)
    | split
    | dsimp only
    | assumption

/-- It can touch upd. -/
theorem doAuth_only {M : Nat} {s0 : State} (f : SvcFrame) (s : State) (h_s : Only M s0 s) (le : 0x80000 ||| M = M) : Only M s0 (doAuth f s) := by
  unfold doAuth
  repeat' first
    | with_reducible assumption
    | intro _
    | with_reducible apply Only.ite
    | with_reducible apply State.authFail_only (le := or_le rfl le)
    | with_reducible apply State.svcAnswer_only (le := or_le rfl le)
    | with_reducible apply State.svcTake_only (le := or_le rfl le)
    | (dsimp only [Only.mk_eq]; with_reducible apply OnlyParts.upd (c := testBit_ge le rfl); with_reducible apply Only.parts)
    | split
    | dsimp only
    | assumption

/-- It can touch upd. -/
theorem doSvcSessionTimeout_only {M : Nat} {s0 : State} (s : State) (h_s : Only M s0 s) (le : 0x80000 ||| M = M) : Only M s0 (doSvcSessionTimeout s) := by
  unfold doSvcSessionTimeout
  repeat' first
    | with_reducible assumption
    | with_reducible apply Only.ite
    | (dsimp only [Only.mk_eq]; with_reducible apply OnlyParts.upd (c := testBit_ge le rfl); with_reducible apply Only.parts)
    | split
    | dsimp only
    | assumption

/-- It can touch upd. -/
theorem doManifest_only {M : Nat} {s0 : State} (f : SvcFrame) (s : State) (h_s : Only M s0 s) (le : 0x80000 ||| M = M) : Only M s0 (doManifest f s) := by
  unfold doManifest
  repeat' first
    | with_reducible assumption
    | intro _
    | with_reducible apply Only.ite
    | with_reducible apply State.svcAnswer_only (le := or_le rfl le)
    | with_reducible apply State.svcSess_only (le := or_le rfl le)
    | (dsimp only [Only.mk_eq]; with_reducible apply OnlyParts.upd (c := testBit_ge le rfl); with_reducible apply Only.parts)
    | split
    | dsimp only
    | assumption

/-- It can touch upd. -/
theorem doChunk_only {M : Nat} {s0 : State} (f : SvcFrame) (s : State) (h_s : Only M s0 s) (le : 0x80000 ||| M = M) : Only M s0 (doChunk f s) := by
  unfold doChunk
  repeat' first
    | with_reducible assumption
    | intro _
    | with_reducible apply Only.ite
    | with_reducible apply State.svcAnswer_only (le := or_le rfl le)
    | with_reducible apply State.svcSess_only (le := or_le rfl le)
    | (dsimp only [Only.mk_eq]; with_reducible apply OnlyParts.upd (c := testBit_ge le rfl); with_reducible apply Only.parts)
    | split
    | dsimp only
    | assumption

/-- It can touch upd. -/
theorem doStagingComplete_only {M : Nat} {s0 : State} (s : State) (h_s : Only M s0 s) (le : 0x80000 ||| M = M) : Only M s0 (doStagingComplete s) := by
  unfold doStagingComplete
  repeat' first
    | with_reducible assumption
    | with_reducible apply Only.ite
    | (dsimp only [Only.mk_eq]; with_reducible apply OnlyParts.upd (c := testBit_ge le rfl); with_reducible apply Only.parts)
    | split
    | dsimp only
    | assumption

/-- It can touch upd. -/
theorem doAbort_only {M : Nat} {s0 : State} (f : SvcFrame) (s : State) (h_s : Only M s0 s) (le : 0x80000 ||| M = M) : Only M s0 (doAbort f s) := by
  unfold doAbort
  repeat' first
    | with_reducible assumption
    | intro _
    | with_reducible apply Only.ite
    | with_reducible apply State.svcAnswer_only (le := or_le rfl le)
    | with_reducible apply State.svcSess_only (le := or_le rfl le)
    | (dsimp only [Only.mk_eq]; with_reducible apply OnlyParts.upd (c := testBit_ge le rfl); with_reducible apply Only.parts)
    | split
    | dsimp only
    | assumption

/-- It can touch upd. -/
theorem doActivate_only {M : Nat} {s0 : State} (f : SvcFrame) (s : State) (h_s : Only M s0 s) (le : 0x80000 ||| M = M) : Only M s0 (doActivate f s) := by
  unfold doActivate
  repeat' first
    | with_reducible assumption
    | intro _
    | with_reducible apply Only.ite
    | with_reducible apply State.svcAnswer_only (le := or_le rfl le)
    | with_reducible apply State.svcSess_only (le := or_le rfl le)
    | (dsimp only [Only.mk_eq]; with_reducible apply OnlyParts.upd (c := testBit_ge le rfl); with_reducible apply Only.parts)
    | split
    | dsimp only
    | assumption

/-- It can touch modes, a, b, regs, upd, mode. -/
theorem State.activateApply_only {M : Nat} {s0 : State} (s : State) (h_s : Only M s0 s) (le : 0x80802c2 ||| M = M) : Only M s0 (State.activateApply s) := by
  unfold State.activateApply
  repeat' first
    | with_reducible assumption
    | intro _
    | with_reducible apply Only.ite
    | with_reducible apply State.event2_only (le := or_le rfl le)
    | with_reducible apply State.svcAnswer_only (le := or_le rfl le)
    | (dsimp only [Only.mk_eq]; with_reducible apply OnlyParts.modes (c := testBit_ge le rfl) (c2 := testBit_ge le rfl); with_reducible apply OnlyParts.upd (c := testBit_ge le rfl); with_reducible apply Only.parts)
    | split
    | dsimp only
    | assumption

/-- It can touch flt, a, b, st. -/
theorem State.oldImage_only {M : Nat} {s0 : State} (s : State) (d : Die) (h_s : Only M s0 s) (le : 0x400d0 ||| M = M) : Only M s0 (State.oldImage s d) := by
  unfold State.oldImage
  repeat' first
    | with_reducible assumption
    | intro _
    | with_reducible apply State.takeState_only (le := or_le rfl le)
    | with_reducible apply State.updDie_only (le := or_le rfl le)
    | (dsimp only [Only.mk_eq]; with_reducible apply OnlyParts.flt (c := testBit_ge le rfl); with_reducible apply Only.parts)
    | dsimp only
    | assumption

/-- It can touch flt, a, b, regs, st, upd. -/
theorem doUpdateBootDone_only {M : Nat} {s0 : State} (d : Die) (ok : Bool) (s : State) (h_s : Only M s0 s) (le : 0xc02d0 ||| M = M) : Only M s0 (doUpdateBootDone d ok s) := by
  unfold doUpdateBootDone
  repeat' first
    | with_reducible assumption
    | intro _
    | with_reducible apply Only.ite
    | with_reducible apply State.oldImage_only (le := or_le rfl le)
    | with_reducible apply State.revert_only (le := or_le rfl le)
    | with_reducible apply State.updDie_only (le := or_le rfl le)
    | (dsimp only [Only.mk_eq]; with_reducible apply OnlyParts.upd (c := testBit_ge le rfl); with_reducible apply Only.parts)
    | split
    | dsimp only
    | assumption

/-- It can touch flt, a, b, regs, upd. -/
theorem doActivationWaitTimeout_only {M : Nat} {s0 : State} (s : State) (h_s : Only M s0 s) (le : 0x802d0 ||| M = M) : Only M s0 (doActivationWaitTimeout s) := by
  unfold doActivationWaitTimeout
  repeat' first
    | with_reducible assumption
    | intro _
    | with_reducible apply Only.ite
    | with_reducible apply State.revert_only (le := or_le rfl le)
    | split
    | dsimp only
    | assumption

/-- It can touch modes, a, b, regs, upd, mode. -/
theorem doFlipDeferEnd_only {M : Nat} {s0 : State} (s : State) (h_s : Only M s0 s) (le : 0x80802c2 ||| M = M) : Only M s0 (doFlipDeferEnd s) := by
  unfold doFlipDeferEnd
  repeat' first
    | with_reducible assumption
    | with_reducible apply Only.ite
    | with_reducible apply State.flip__only (le := or_le rfl le)
    | split
    | dsimp only
    | assumption

end Sys2Proof.Machine
end

