-- ==== Sys2Proof/Laws/OnlyAccessRows.lean ====
section
/-! SUPPORT. Which fields the operations of Machine/AccessRows.lean can touch. -/

set_option linter.unusedTactic false
set_option linter.unreachableTactic false
set_option linter.unusedVariables false

namespace Sys2Proof.Machine

/-- It can touch regs, tst. -/
theorem State.testClose_only {M : Nat} {s0 : State} (s : State) (h_s : Only M s0 s) (le : 0x100200 ||| M = M) : Only M s0 (State.testClose s) := by
  unfold State.testClose
  repeat' first
    | with_reducible assumption
    | with_reducible apply Only.ite
    | with_reducible apply State.setReg_only (le := or_le rfl le)
    | (dsimp only [Only.mk_eq]; with_reducible apply OnlyParts.tst (c := testBit_ge le rfl); with_reducible apply Only.parts)
    | split
    | dsimp only
    | assumption

/-- It can touch regs, br, tst. -/
theorem State.endSession_only {M : Nat} {s0 : State} (s : State) (k : Nat) (h_s : Only M s0 s) (le : 0x100a00 ||| M = M) : Only M s0 (State.endSession s k) := by
  unfold State.endSession
  repeat' first
    | with_reducible assumption
    | intro _
    | with_reducible apply Only.ite
    | with_reducible apply State.testClose_only (le := or_le rfl le)
    | with_reducible apply State.updSeat_only (le := or_le rfl le)
    | (dsimp only [Only.mk_eq]; with_reducible apply OnlyParts.br (c := testBit_ge le rfl); with_reducible apply Only.parts)
    | split
    | dsimp only
    | assumption

/-- It can touch regs, tst. -/
theorem State.testRise_only {M : Nat} {s0 : State} (s : State) (seat st : Nat) (h_s : Only M s0 s) (le : 0x100200 ||| M = M) : Only M s0 (State.testRise s seat st) := by
  unfold State.testRise
  repeat' first
    | with_reducible assumption
    | with_reducible apply Only.ite
    | with_reducible apply State.setReg_only (le := or_le rfl le)
    | (dsimp only [Only.mk_eq]; with_reducible apply OnlyParts.tst (c := testBit_ge le rfl); with_reducible apply Only.parts)
    | split
    | dsimp only
    | assumption

/-- It can touch regs, br, tst. -/
theorem doTestOpen_only {M : Nat} {s0 : State} (seat : Fin 8) (v : Nat) (s : State) (h_s : Only M s0 s) (le : 0x100a00 ||| M = M) : Only M s0 (doTestOpen seat v s) := by
  unfold doTestOpen
  repeat' first
    | with_reducible assumption
    | intro _
    | with_reducible apply Only.ite
    | with_reducible apply State.refuse_only (le := or_le rfl le)
    | with_reducible apply State.testClose_only (le := or_le rfl le)
    | with_reducible apply State.testRise_only (le := or_le rfl le)
    | split
    | dsimp only
    | assumption

/-- It can touch br, tst, freeCtr. -/
theorem doTestChal_only {M : Nat} {s0 : State} (seat : Fin 8) (s : State) (h_s : Only M s0 s) (le : 0x1100800 ||| M = M) : Only M s0 (doTestChal seat s) := by
  unfold doTestChal
  repeat' first
    | with_reducible assumption
    | intro _
    | with_reducible apply State.randNat_only (le := or_le rfl le)
    | with_reducible apply State.refuse_only (le := or_le rfl le)
    | with_reducible apply State.reply_only (le := or_le rfl le)
    | (dsimp only [Only.mk_eq]; with_reducible apply OnlyParts.tst (c := testBit_ge le rfl); with_reducible apply Only.parts)
    | dsimp only
    | assumption

/-- It can touch a, b, rings. -/
theorem State.wipeSram_only {M : Nat} {s0 : State} (s : State) (h_s : Only M s0 s) (le : 0x10c0 ||| M = M) : Only M s0 (State.wipeSram s) := by
  unfold State.wipeSram
  repeat' first
    | with_reducible assumption
    | with_reducible apply Only.ite
    | with_reducible apply State.updDie_only (le := or_le rfl le)
    | (dsimp only [Only.mk_eq]; with_reducible apply OnlyParts.rings (c := testBit_ge le rfl); with_reducible apply Only.parts)
    | split
    | dsimp only
    | assumption

/-- It can touch modes, pow, clk, flt, a, b, fd, regs, br, rings, otp, keys, upd, tst, pat, stdin, remote, mode. -/
theorem State.scanStart_only {M : Nat} {s0 : State} (s : State) (h_s : Only M s0 s) (le : 0x8fa9bde ||| M = M) : Only M s0 (State.scanStart s) := by
  unfold State.scanStart
  repeat' first
    | with_reducible assumption
    | intro _
    | with_reducible apply Only.ite
    | with_reducible apply State.endSession_only (le := or_le rfl le)
    | with_reducible apply State.enterSafe_only (le := or_le rfl le)
    | with_reducible apply State.lockBoth_only (le := or_le rfl le)
    | with_reducible apply State.lockoutAll_only (le := or_le rfl le)
    | with_reducible apply State.tripNow_only (le := or_le rfl le)
    | with_reducible apply State.updDie_only (le := or_le rfl le)
    | with_reducible apply State.wipeSram_only (le := or_le rfl le)
    | with_reducible apply Only.foldl
    | (dsimp only [Only.mk_eq]; with_reducible apply OnlyParts.pow (c := testBit_ge le rfl); with_reducible apply OnlyParts.br (c := testBit_ge le rfl); with_reducible apply OnlyParts.otp (c := testBit_ge le rfl); with_reducible apply OnlyParts.keys (c := testBit_ge le rfl); with_reducible apply OnlyParts.upd (c := testBit_ge le rfl); with_reducible apply OnlyParts.tst (c := testBit_ge le rfl); with_reducible apply Only.parts)
    | split
    | dsimp only
    | assumption

/-- It can touch br, tst. -/
theorem State.testRefuse_only {M : Nat} {s0 : State} (s : State) (h_s : Only M s0 s) (le : 0x100800 ||| M = M) : Only M s0 (State.testRefuse s) := by
  unfold State.testRefuse
  repeat' first
    | with_reducible assumption
    | with_reducible apply Only.ite
    | with_reducible apply State.ans_only (le := or_le rfl le)
    | (dsimp only [Only.mk_eq]; with_reducible apply OnlyParts.tst (c := testBit_ge le rfl); with_reducible apply Only.parts)
    | split
    | dsimp only
    | assumption

/-- It can touch modes, pow, clk, flt, a, b, fd, regs, br, rings, otp, keys, upd, tst, pat, stdin, remote, mode. -/
theorem doTestResp_only {M : Nat} {s0 : State} (seat : Fin 8) (code : Nat) (sig : List Byte) (s : State) (h_s : Only M s0 s) (le : 0x8fa9bde ||| M = M) : Only M s0 (doTestResp seat code sig s) := by
  unfold doTestResp
  repeat' first
    | with_reducible assumption
    | intro _
    | with_reducible apply Only.ite
    | with_reducible apply State.ans_only (le := or_le rfl le)
    | with_reducible apply State.refuse_only (le := or_le rfl le)
    | with_reducible apply State.scanStart_only (le := or_le rfl le)
    | with_reducible apply State.testRefuse_only (le := or_le rfl le)
    | with_reducible apply State.testRise_only (le := or_le rfl le)
    | (dsimp only [Only.mk_eq]; with_reducible apply OnlyParts.tst (c := testBit_ge le rfl); with_reducible apply Only.parts)
    | split
    | dsimp only
    | assumption

/-- It can touch tst. -/
theorem doZeroiseReadbackDone_only {M : Nat} {s0 : State} (s : State) (h_s : Only M s0 s) (le : 0x100000 ||| M = M) : Only M s0 (doZeroiseReadbackDone s) := by
  unfold doZeroiseReadbackDone
  repeat' first
    | with_reducible assumption
    | with_reducible apply Only.ite
    | (dsimp only [Only.mk_eq]; with_reducible apply OnlyParts.tst (c := testBit_ge le rfl); with_reducible apply Only.parts)
    | split
    | dsimp only
    | assumption

/-- It can touch tst. -/
theorem doZeroiseTimeout_only {M : Nat} {s0 : State} (s : State) (h_s : Only M s0 s) (le : 0x100000 ||| M = M) : Only M s0 (doZeroiseTimeout s) := by
  unfold doZeroiseTimeout
  repeat' first
    | with_reducible assumption
    | (dsimp only [Only.mk_eq]; with_reducible apply OnlyParts.tst (c := testBit_ge le rfl); with_reducible apply Only.parts)
    | dsimp only
    | assumption

end Sys2Proof.Machine
end

