-- ==== Sys2Proof/Laws/OnlySeatRows.lean ====
section
/-! SUPPORT. Which fields the operations of Machine/SeatRows.lean can touch. -/

set_option linter.unusedTactic false
set_option linter.unreachableTactic false
set_option linter.unusedVariables false

namespace Sys2Proof.Machine

/-- It can touch br, freeCtr. -/
theorem doSeatChal_only {M : Nat} {s0 : State} (seat : Fin 8) (s : State) (h_s : Only M s0 s) (le : 0x1000800 ||| M = M) : Only M s0 (doSeatChal seat s) := by
  unfold doSeatChal
  repeat' first
    | with_reducible assumption
    | intro _
    | with_reducible apply State.randNat_only (le := or_le rfl le)
    | with_reducible apply State.refuse_only (le := or_le rfl le)
    | with_reducible apply State.reply_only (le := or_le rfl le)
    | with_reducible apply State.updSeat_only (le := or_le rfl le)
    | dsimp only
    | assumption

/-- It can touch regs, br, tst. -/
theorem doSeatLogin_only {M : Nat} {s0 : State} (seat : Fin 8) (bytes : List Byte) (s : State) (h_s : Only M s0 s) (le : 0x100a00 ||| M = M) : Only M s0 (doSeatLogin seat bytes s) := by
  unfold doSeatLogin
  repeat' first
    | with_reducible assumption
    | intro _
    | with_reducible apply Only.ite
    | with_reducible apply State.ans_only (le := or_le rfl le)
    | with_reducible apply State.endSession_only (le := or_le rfl le)
    | with_reducible apply State.refuse_only (le := or_le rfl le)
    | with_reducible apply State.updSeat_only (le := or_le rfl le)
    | split
    | dsimp only
    | assumption

/-- It can touch regs, br, tst. -/
theorem doSessionTimeout_only {M : Nat} {s0 : State} (seat : Fin 8) (s : State) (h_s : Only M s0 s) (le : 0x100a00 ||| M = M) : Only M s0 (doSessionTimeout seat s) := by
  unfold doSessionTimeout
  repeat' first
    | with_reducible assumption
    | with_reducible apply State.endSession_only (le := or_le rfl le)
    | dsimp only
    | assumption

/-- It can touch regs, br. -/
theorem doLoPass_only {M : Nat} {s0 : State} (seat : Fin 8) (bytes : List Byte) (s : State) (h_s : Only M s0 s) (le : 0xa00 ||| M = M) : Only M s0 (doLoPass seat bytes s) := by
  unfold doLoPass
  repeat' first
    | with_reducible assumption
    | intro _
    | with_reducible apply Only.ite
    | with_reducible apply State.ans_only (le := or_le rfl le)
    | with_reducible apply State.bump_only (le := or_le rfl le)
    | with_reducible apply State.refuse_only (le := or_le rfl le)
    | with_reducible apply State.updSeat_only (le := or_le rfl le)
    | split
    | dsimp only
    | assumption

/-- It can touch br. -/
theorem doLoPassNew_only {M : Nat} {s0 : State} (seat : Fin 8) (bytes : List Byte) (s : State) (h_s : Only M s0 s) (le : 0x800 ||| M = M) : Only M s0 (doLoPassNew seat bytes s) := by
  unfold doLoPassNew
  repeat' first
    | with_reducible assumption
    | intro _
    | with_reducible apply State.persist_only (le := or_le rfl le)
    | with_reducible apply State.refuse_only (le := or_le rfl le)
    | (dsimp only [Only.mk_eq]; with_reducible apply OnlyParts.br (c := testBit_ge le rfl); with_reducible apply Only.parts)
    | dsimp only
    | assumption

/-- It can touch regs, br. -/
theorem State.conf_only {M : Nat} {s0 : State} (s : State) (seat idx sub v : Nat) (h_s : Only M s0 s) (le : 0xa00 ||| M = M) : Only M s0 (State.conf s seat idx sub v) := by
  unfold State.conf
  repeat' first
    | with_reducible assumption
    | with_reducible apply State.persist_only (le := or_le rfl le)
    | with_reducible apply State.setReg_only (le := or_le rfl le)
    | dsimp only
    | assumption

/-- It can touch regs, br. -/
theorem doLineOwner_only {M : Nat} {s0 : State} (seat : Fin 8) (v : Nat) (s : State) (h_s : Only M s0 s) (le : 0xa00 ||| M = M) : Only M s0 (doLineOwner seat v s) := by
  unfold doLineOwner
  repeat' first
    | with_reducible assumption
    | intro _
    | with_reducible apply State.conf_only (le := or_le rfl le)
    | with_reducible apply State.refuse_only (le := or_le rfl le)
    | dsimp only
    | assumption

/-- It can touch br, upd, tst. -/
theorem doLockoutEnd_only {M : Nat} {s0 : State} (k : Lockout) (s : State) (h_s : Only M s0 s) (le : 0x180800 ||| M = M) : Only M s0 (doLockoutEnd k s) := by
  unfold doLockoutEnd
  repeat' first
    | with_reducible assumption
    | intro _
    | with_reducible apply State.updSeat_only (le := or_le rfl le)
    | (dsimp only [Only.mk_eq]; with_reducible apply OnlyParts.br (c := testBit_ge le rfl); with_reducible apply OnlyParts.upd (c := testBit_ge le rfl); with_reducible apply OnlyParts.tst (c := testBit_ge le rfl); with_reducible apply Only.parts)
    | split
    | dsimp only
    | assumption

/-- It can touch a, b, pers, br, keys, upd. -/
theorem State.persDone_only {M : Nat} {s0 : State} (s : State) (w : PersWrite) (h_s : Only M s0 s) (le : 0xa0cc0 ||| M = M) : Only M s0 (State.persDone s w) := by
  unfold State.persDone
  repeat' first
    | with_reducible assumption
    | with_reducible apply Only.ite
    | with_reducible apply State.keyCommit_only (le := or_le rfl le)
    | with_reducible apply State.keyEraseCommit_only (le := or_le rfl le)
    | (dsimp only [Only.mk_eq]; with_reducible apply OnlyParts.pers (c := testBit_ge le rfl); with_reducible apply Only.parts)
    | split
    | dsimp only
    | assumption

/-- It can touch a, b, regs, pers, br, keys, upd. -/
theorem doPersistentWriteCommit_only {M : Nat} {s0 : State} (s : State) (h_s : Only M s0 s) (le : 0xa0ec0 ||| M = M) : Only M s0 (doPersistentWriteCommit s) := by
  unfold doPersistentWriteCommit
  repeat' first
    | with_reducible assumption
    | with_reducible apply State.ans_only (le := or_le rfl le)
    | with_reducible apply State.persDone_only (le := or_le rfl le)
    | with_reducible apply State.sendAns_only (le := or_le rfl le)
    | (dsimp only [Only.mk_eq]; with_reducible apply OnlyParts.br (c := testBit_ge le rfl); with_reducible apply Only.parts)
    | split
    | dsimp only
    | assumption

/-- It can touch regs, br. -/
theorem doSpanKWrite_only {M : Nat} {s0 : State} (seat : Fin 8) (v : Nat) (s : State) (h_s : Only M s0 s) (le : 0xa00 ||| M = M) : Only M s0 (doSpanKWrite seat v s) := by
  unfold doSpanKWrite
  repeat' first
    | with_reducible assumption
    | intro _
    | with_reducible apply State.conf_only (le := or_le rfl le)
    | with_reducible apply State.refuse_only (le := or_le rfl le)
    | dsimp only
    | assumption

/-- It can touch regs, br. -/
theorem doTickOfsWrite_only {M : Nat} {s0 : State} (seat : Fin 8) (v : Nat) (s : State) (h_s : Only M s0 s) (le : 0xa00 ||| M = M) : Only M s0 (doTickOfsWrite seat v s) := by
  unfold doTickOfsWrite
  repeat' first
    | with_reducible assumption
    | intro _
    | with_reducible apply State.conf_only (le := or_le rfl le)
    | with_reducible apply State.refuse_only (le := or_le rfl le)
    | dsimp only
    | assumption

/-- It can touch pow, clk, regs, br. -/
theorem doClkGate_only {M : Nat} {s0 : State} (seat : Fin 8) (n : Fin 18) (v : Nat) (s : State) (h_s : Only M s0 s) (le : 0xa0c ||| M = M) : Only M s0 (doClkGate seat n v s) := by
  unfold doClkGate
  repeat' first
    | with_reducible assumption
    | intro _
    | with_reducible apply State.conf_only (le := or_le rfl le)
    | with_reducible apply State.refuse_only (le := or_le rfl le)
    | with_reducible apply State.regate_only (le := or_le rfl le)
    | dsimp only
    | assumption

/-- It can touch regs, br. -/
theorem doClkobsSelect_only {M : Nat} {s0 : State} (seat : Fin 8) (sub v : Nat) (s : State) (h_s : Only M s0 s) (le : 0xa00 ||| M = M) : Only M s0 (doClkobsSelect seat sub v s) := by
  unfold doClkobsSelect
  repeat' first
    | with_reducible assumption
    | intro _
    | with_reducible apply Only.ite
    | with_reducible apply State.refuse_only (le := or_le rfl le)
    | with_reducible apply State.setReg_only (le := or_le rfl le)
    | split
    | dsimp only
    | assumption

/-- It can touch regs. -/
theorem State.mirrored_only {M : Nat} {s0 : State} (s : State) (d : Die) (h_s : Only M s0 s) (le : 0x200 ||| M = M) : Only M s0 (State.mirrored s d) := by
  unfold State.mirrored
  repeat' first
    | with_reducible assumption
    | (dsimp only [Only.mk_eq]; with_reducible apply OnlyParts.regs (c := testBit_ge le rfl); with_reducible apply Only.parts)
    | dsimp only
    | assumption

/-- It can touch clk, regs, br, tmr, tst. -/
theorem State.regSet_only {M : Nat} {s0 : State} (s : State) (seat : Nat) (r : OdRow) (idx sub v : Nat) (h_s : Only M s0 s) (le : 0x104a08 ||| M = M) : Only M s0 (State.regSet s seat r idx sub v) := by
  unfold State.regSet
  repeat' first
    | with_reducible assumption
    | intro _
    | with_reducible apply Only.ite
    | with_reducible apply State.conf_only (le := or_le rfl le)
    | with_reducible apply State.endSession_only (le := or_le rfl le)
    | with_reducible apply State.setReg_only (le := or_le rfl le)
    | with_reducible apply State.updSeat_only (le := or_le rfl le)
    | with_reducible apply State.w1c_only (le := or_le rfl le)
    | (dsimp only [Only.mk_eq]; with_reducible apply OnlyParts.clk (c := testBit_ge le rfl); with_reducible apply OnlyParts.tmr (c := testBit_ge le rfl); with_reducible apply Only.parts)
    | split
    | dsimp only
    | assumption

/-- It can touch clk, regs, br, tmr, tst. -/
theorem doRegisterWrite_only {M : Nat} {s0 : State} (seat : Fin 8) (idx sub v : Nat) (s : State) (h_s : Only M s0 s) (le : 0x104a08 ||| M = M) : Only M s0 (doRegisterWrite seat idx sub v s) := by
  unfold doRegisterWrite
  repeat' first
    | with_reducible assumption
    | intro _
    | with_reducible apply Only.ite
    | with_reducible apply State.refuse_only (le := or_le rfl le)
    | with_reducible apply State.regSet_only (le := or_le rfl le)
    | exact fun _ h => h
    | split
    | dsimp only
    | assumption

end Sys2Proof.Machine
end

