-- ==== Sys2Proof/Laws/OnlyBridleOps.lean ====
section
/-! SUPPORT. Which fields the operations of Machine/BridleOps.lean can touch. -/

set_option linter.unusedTactic false
set_option linter.unreachableTactic false
set_option linter.unusedVariables false

namespace Sys2Proof.Machine

/-- It can touch modes, pow, flt, leases, a, b, fd, regs, br, crc, otp, st, upd, tst, freeCtr. -/
theorem State.readEntry_only {M : Nat} {s0 : State} (s : State) (seat : Fin 8) (d : Die) (idx sub : Nat) (h_s : Only M s0 s) (le : 0x11cabf6 ||| M = M) : Only M s0 (State.readEntry s seat d idx sub) := by
  unfold State.readEntry
  repeat' first
    | with_reducible assumption
    | with_reducible apply Only.ite
    | with_reducible apply State.ans_only (le := or_le rfl le)
    | with_reducible apply State.mirrored_only (le := or_le rfl le)
    | with_reducible apply State.reply_only (le := or_le rfl le)
    | with_reducible apply doLcChal_only (le := or_le rfl le)
    | with_reducible apply doOtpData_only (le := or_le rfl le)
    | with_reducible apply doSeatChal_only (le := or_le rfl le)
    | with_reducible apply doTestChal_only (le := or_le rfl le)
    | split
    | dsimp only
    | assumption

/-- It can touch clk, leases, regs, br, crc, tmr, tst. -/
theorem State.writeCrc_only {M : Nat} {s0 : State} (s : State) (seat : Fin 8) (k sub v : Nat) (h_s : Only M s0 s) (le : 0x106a28 ||| M = M) : Only M s0 (State.writeCrc s seat k sub v) := by
  unfold State.writeCrc
  repeat' first
    | with_reducible assumption
    | with_reducible apply Only.ite
    | with_reducible apply doCrcAbort_only (le := or_le rfl le)
    | with_reducible apply doCrcEnable_only (le := or_le rfl le)
    | with_reducible apply doCrcParameterWrite_only (le := or_le rfl le)
    | with_reducible apply doCrcPreset_only (le := or_le rfl le)
    | with_reducible apply doRegisterWrite_only (le := or_le rfl le)
    | split
    | dsimp only
    | assumption

/-- It can touch modes, pow, flt, leases, a, b, fd, regs, br, rings, crc, tmr, otp, st, upd, freeCtr. -/
theorem State.writeTmr_only {M : Nat} {s0 : State} (s : State) (seat : Fin 8) (k sub v : Nat) (h_s : Only M s0 s) (le : 0x10cfbf6 ||| M = M) : Only M s0 (State.writeTmr s seat k sub v) := by
  unfold State.writeTmr
  repeat' first
    | with_reducible assumption
    | with_reducible apply Only.ite
    | with_reducible apply doTmrCmp_only (le := or_le rfl le)
    | with_reducible apply doTmrCmpNext_only (le := or_le rfl le)
    | with_reducible apply doTmrCount_only (le := or_le rfl le)
    | with_reducible apply doTmrCtrl_only (le := or_le rfl le)
    | split
    | dsimp only
    | assumption

/-- It can touch modes, pow, flt, leases, a, b, fd, regs, br, rings, crc, otp, st, upd, freeCtr. -/
theorem State.writeRing_only {M : Nat} {s0 : State} (s : State) (seat : Fin 8) (d : Die) (x : WItem) (h_s : Only M s0 s) (le : 0x10cbbf6 ||| M = M) : Only M s0 (State.writeRing s seat d x) := by
  unfold State.writeRing
  repeat' first
    | with_reducible assumption
    | with_reducible apply Only.ite
    | with_reducible apply State.ans_only (le := or_le rfl le)
    | with_reducible apply doFree_only (le := or_le rfl le)
    | with_reducible apply doReset_only (le := or_le rfl le)
    | with_reducible apply doRingAlloc_only (le := or_le rfl le)
    | with_reducible apply doRingConsume_only (le := or_le rfl le)
    | with_reducible apply doRingPush_only (le := or_le rfl le)
    | split
    | dsimp only
    | assumption

/-- It can touch modes, pow, clk, regs, br, tst. -/
theorem State.writeLow_only {M : Nat} {s0 : State} (s : State) (seat : Fin 8) (x : WItem) (h_s : Only M s0 s) (le : 0x100a0e ||| M = M) : Only M s0 (State.writeLow s seat x) := by
  unfold State.writeLow
  repeat' first
    | with_reducible assumption
    | with_reducible apply Only.ite
    | with_reducible apply State.modeReq_only (le := or_le rfl le)
    | with_reducible apply State.write_only (le := or_le rfl le)
    | with_reducible apply doClkGate_only (le := or_le rfl le)
    | with_reducible apply doClkobsSelect_only (le := or_le rfl le)
    | with_reducible apply doLineOwner_only (le := or_le rfl le)
    | with_reducible apply doLoPass_only (le := or_le rfl le)
    | with_reducible apply doLoPassNew_only (le := or_le rfl le)
    | with_reducible apply doPwrReqActive_only (le := or_le rfl le)
    | with_reducible apply doPwrReqDeepSleep_only (le := or_le rfl le)
    | with_reducible apply doPwrReqSleep_only (le := or_le rfl le)
    | with_reducible apply doSeatLogin_only (le := or_le rfl le)
    | with_reducible apply doSpanKWrite_only (le := or_le rfl le)
    | with_reducible apply doTickOfsWrite_only (le := or_le rfl le)
    | exact fun _ h => h
    | split
    | dsimp only
    | assumption

/-- It can touch clk, flt, a, b, regs, br, rings, pat, stdin, remote. -/
theorem State.writeMid_only {M : Nat} {s0 : State} (s : State) (seat : Fin 8) (x : WItem) (h_s : Only M s0 s) (le : 0xe01ad8 ||| M = M) : Only M s0 (State.writeMid s seat x) := by
  unfold State.writeMid
  repeat' first
    | with_reducible assumption
    | with_reducible apply Only.ite
    | with_reducible apply State.ans_only (le := or_le rfl le)
    | with_reducible apply State.write_only (le := or_le rfl le)
    | with_reducible apply doConfirm_only (le := or_le rfl le)
    | with_reducible apply doCosHirqClear_only (le := or_le rfl le)
    | with_reducible apply doDiscard_only (le := or_le rfl le)
    | with_reducible apply doFswClr_only (le := or_le rfl le)
    | with_reducible apply doFswSecClr_only (le := or_le rfl le)
    | with_reducible apply doLoad_only (le := or_le rfl le)
    | with_reducible apply doStdinVal_only (le := or_le rfl le)
    | with_reducible apply doZoneRrst_only (le := or_le rfl le)
    | exact fun _ h => h
    | split
    | dsimp only
    | assumption

/-- It can touch modes, pow, clk, flt, leases, a, b, fd, regs, br, rings, otp, keys, st, upd, tst, pat, stdin, remote, mode. -/
theorem State.writeHigh_only {M : Nat} {s0 : State} (s : State) (seat : Fin 8) (x : WItem) (h_s : Only M s0 s) (le : 0x8fe9bfe ||| M = M) : Only M s0 (State.writeHigh s seat x) := by
  unfold State.writeHigh
  repeat' first
    | with_reducible assumption
    | with_reducible apply Only.ite
    | with_reducible apply doKeyErase_only (le := or_le rfl le)
    | with_reducible apply doKeyPut_only (le := or_le rfl le)
    | with_reducible apply doLcReq_only (le := or_le rfl le)
    | with_reducible apply doLcResp_only (le := or_le rfl le)
    | with_reducible apply doOtpProg_only (le := or_le rfl le)
    | with_reducible apply doStReq_only (le := or_le rfl le)
    | with_reducible apply doTestOpen_only (le := or_le rfl le)
    | with_reducible apply doTestResp_only (le := or_le rfl le)
    | split
    | dsimp only
    | assumption

/-- It can touch modes, pow, clk, flt, leases, a, b, fd, regs, br, rings, crc, tmr, otp, keys, st, upd, tst, pat, stdin, remote, freeCtr, mode. -/
theorem State.writeEntry_only {M : Nat} {s0 : State} (s : State) (seat : Fin 8) (d : Die) (x : WItem) (h_s : Only M s0 s) (le : 0x9fefbfe ||| M = M) : Only M s0 (State.writeEntry s seat d x) := by
  unfold State.writeEntry
  repeat' first
    | with_reducible assumption
    | with_reducible apply Only.ite
    | with_reducible apply State.ans_only (le := or_le rfl le)
    | with_reducible apply State.writeCrc_only (le := or_le rfl le)
    | with_reducible apply State.writeHigh_only (le := or_le rfl le)
    | with_reducible apply State.writeLow_only (le := or_le rfl le)
    | with_reducible apply State.writeMid_only (le := or_le rfl le)
    | with_reducible apply State.writeRing_only (le := or_le rfl le)
    | with_reducible apply State.writeTmr_only (le := or_le rfl le)
    | with_reducible apply doRegisterWrite_only (le := or_le rfl le)
    | split
    | dsimp only
    | assumption

/-- It can touch modes, pow, clk, flt, leases, a, b, fd, regs, br, rings, crc, tmr, otp, keys, st, upd, tst, pat, stdin, remote, freeCtr, mode. -/
theorem State.writeFresh_only {M : Nat} {s0 : State} (s : State) (seat : Fin 8) (d : Die) (x : WItem) (h_s : Only M s0 s) (le : 0x9fefbfe ||| M = M) : Only M s0 (State.writeFresh s seat d x) := by
  unfold State.writeFresh
  repeat' first
    | with_reducible assumption
    | with_reducible apply Only.ite
    | with_reducible apply State.ans_only (le := or_le rfl le)
    | with_reducible apply State.writeEntry_only (le := or_le rfl le)
    | split
    | dsimp only
    | assumption

/-- It can touch modes, pow, clk, flt, leases, a, b, fd, regs, br, rings, crc, tmr, otp, keys, st, upd, tst, pat, stdin, remote, freeCtr, mode. -/
theorem State.writeItems_only {M : Nat} {s0 : State} (s : State) (seat : Fin 8) (d : Die) (l : List WItem) (h_s : Only M s0 s) (le : 0x9fefbfe ||| M = M) : Only M s0 (State.writeItems s seat d l) := by
  unfold State.writeItems
  repeat' first
    | with_reducible assumption
    | intro _
    | with_reducible apply Only.ite
    | with_reducible apply State.ans_only (le := or_le rfl le)
    | with_reducible apply State.writeFresh_only (le := or_le rfl le)
    | with_reducible apply Only.foldl
    | split
    | dsimp only
    | assumption

/-- It can touch modes, pow, clk, flt, leases, a, b, fd, regs, br, rings, crc, tmr, otp, keys, st, upd, tst, pat, stdin, remote, freeCtr, mode. -/
theorem State.writeAll_only {M : Nat} {s0 : State} (s : State) (seat : Fin 8) (d : Die) (l : List WItem) (h_s : Only M s0 s) (le : 0x9fefbfe ||| M = M) : Only M s0 (State.writeAll s seat d l) := by
  unfold State.writeAll
  repeat' first
    | with_reducible assumption
    | with_reducible apply Only.ite
    | with_reducible apply State.writeItems_only (le := or_le rfl le)
    | (dsimp only [Only.mk_eq]; with_reducible apply OnlyParts.br (c := testBit_ge le rfl); with_reducible apply Only.parts)
    | split
    | dsimp only
    | assumption

/-- It can touch br. -/
theorem State.takeFrame_only {M : Nat} {s0 : State} (s : State) (k : Nat) (h_s : Only M s0 s) (le : 0x800 ||| M = M) : Only M s0 (State.takeFrame s k) := by
  unfold State.takeFrame
  repeat' first
    | with_reducible assumption
    | intro _
    | with_reducible apply Only.ite
    | with_reducible apply State.updSeat_only (le := or_le rfl le)
    | split
    | dsimp only
    | assumption

/-- It can touch regs, br, tst and what its argument can. -/
theorem State.checked_only {M : Nat} {s0 : State} (s : State) (op : Nat) (f : Frame) (shape : Bool) (g : State → State) (h_s : Only M s0 s) (k_g : ∀ t, Only M s0 t → Only M s0 (g t)) (le : 0x100a00 ||| M = M) : Only M s0 (State.checked s op f shape g) := by
  unfold State.checked
  repeat' first
    | with_reducible assumption
    | intro _
    | with_reducible apply Only.ite
    | with_reducible apply State.ans_only (le := or_le rfl le)
    | with_reducible apply State.ansBusy_only (le := or_le rfl le)
    | with_reducible apply State.endSession_only (le := or_le rfl le)
    | with_reducible apply State.post_only (le := or_le rfl le)
    | with_reducible apply State.sendAns_only (le := or_le rfl le)
    | with_reducible apply State.takeFrame_only (le := or_le rfl le)
    | with_reducible apply State.updSeat_only (le := or_le rfl le)
    | with_reducible apply k_g
    | split
    | dsimp only
    | assumption

/-- It can touch regs, br, tst and what its argument can. -/
theorem State.request_only {M : Nat} {s0 : State} (s : State) (op : Nat) (f : Frame) (shape : Bool) (g : State → State) (h_s : Only M s0 s) (k_g : ∀ t, Only M s0 t → Only M s0 (g t)) (le : 0x100a00 ||| M = M) : Only M s0 (State.request s op f shape g) := by
  unfold State.request
  repeat' first
    | with_reducible assumption
    | intro _
    | with_reducible apply Only.ite
    | with_reducible apply State.bump_only (le := or_le rfl le)
    | with_reducible apply State.checked_only (le := or_le rfl le)
    | with_reducible apply k_g
    | (dsimp only [Only.mk_eq]; with_reducible apply OnlyParts.br (c := testBit_ge le rfl); with_reducible apply Only.parts)
    | split
    | dsimp only
    | assumption

/-- It can touch br. -/
theorem State.asBlock_only {M : Nat} {s0 : State} (s : State) (h_s : Only M s0 s) (le : 0x800 ||| M = M) : Only M s0 (State.asBlock s) := by
  unfold State.asBlock
  repeat' first
    | with_reducible assumption
    | (dsimp only [Only.mk_eq]; with_reducible apply OnlyParts.br (c := testBit_ge le rfl); with_reducible apply Only.parts)
    | dsimp only
    | assumption

/-- It can touch modes, pow, clk, flt, leases, a, b, fd, regs, br, rings, crc, tmr, otp, keys, st, upd, tst, pat, stdin, remote, freeCtr, mode. -/
theorem State.takeWrite_only {M : Nat} {s0 : State} (s : State) (r : RespTo) (block : Bool) (l : List WItem) (h_s : Only M s0 s) (le : 0x9fefbfe ||| M = M) : Only M s0 (State.takeWrite s r block l) := by
  unfold State.takeWrite
  repeat' first
    | with_reducible assumption
    | with_reducible apply Only.ite
    | with_reducible apply State.asBlock_only (le := or_le rfl le)
    | with_reducible apply State.sendAns_only (le := or_le rfl le)
    | with_reducible apply State.writeAll_only (le := or_le rfl le)
    | exact fun _ h => h
    | (dsimp only [Only.mk_eq]; with_reducible apply OnlyParts.br (c := testBit_ge le rfl); with_reducible apply Only.parts)
    | split
    | dsimp only
    | assumption

/-- It can touch modes, pow, clk, flt, leases, a, b, fd, regs, br, rings, crc, tmr, otp, keys, st, upd, tst, pat, stdin, remote, freeCtr, mode. -/
theorem State.wrongType_only {M : Nat} {s0 : State} (s : State) (r : RespTo) (l : List WItem) (h_s : Only M s0 s) (le : 0x9fefbfe ||| M = M) : Only M s0 (State.wrongType s r l) := by
  unfold State.wrongType
  repeat' first
    | with_reducible assumption
    | with_reducible apply Only.ite
    | with_reducible apply State.ans_only (le := or_le rfl le)
    | with_reducible apply State.sendAns_only (le := or_le rfl le)
    | with_reducible apply State.writeAll_only (le := or_le rfl le)
    | (dsimp only [Only.mk_eq]; with_reducible apply OnlyParts.br (c := testBit_ge le rfl); with_reducible apply Only.parts)
    | split
    | dsimp only
    | assumption

/-- It can touch regs, br and what its argument can. -/
theorem State.atHome_only {M : Nat} {s0 : State} (s : State) (op : Nat) (f : Frame) (idx sub : Nat) (g : State → State) (h_s : Only M s0 s) (k_g : ∀ t, Only M s0 t → Only M s0 (g t)) (le : 0xa00 ||| M = M) : Only M s0 (State.atHome s op f idx sub g) := by
  unfold State.atHome
  repeat' first
    | with_reducible assumption
    | intro _
    | with_reducible apply Only.ite
    | with_reducible apply State.ansBusy_only (le := or_le rfl le)
    | with_reducible apply State.sendAns_only (le := or_le rfl le)
    | with_reducible apply k_g
    | exact fun _ h => h
    | (dsimp only [Only.mk_eq]; with_reducible apply OnlyParts.br (c := testBit_ge le rfl); with_reducible apply Only.parts)
    | split
    | dsimp only
    | assumption

/-- It can touch modes, pow, flt, leases, a, b, fd, regs, br, crc, otp, st, upd, tst, freeCtr. -/
theorem State.readOn_only {M : Nat} {s0 : State} (s : State) (d : Die) (f : Frame) (h_s : Only M s0 s) (le : 0x11cabf6 ||| M = M) : Only M s0 (State.readOn s d f) := by
  unfold State.readOn
  repeat' first
    | with_reducible assumption
    | with_reducible apply State.readEntry_only (le := or_le rfl le)
    | with_reducible apply State.sendAns_only (le := or_le rfl le)
    | dsimp only
    | assumption

/-- It can touch modes, pow, flt, leases, a, b, fd, regs, br, rings, crc, otp, st, upd, tst, freeCtr. -/
theorem State.readOct_only {M : Nat} {s0 : State} (s : State) (seat : Fin 8) (d : Die) (f : Frame) (h_s : Only M s0 s) (le : 0x11cbbf6 ||| M = M) : Only M s0 (State.readOct s seat d f) := by
  unfold State.readOct
  repeat' first
    | with_reducible assumption
    | with_reducible apply Only.ite
    | with_reducible apply State.ans_only (le := or_le rfl le)
    | with_reducible apply State.asBlock_only (le := or_le rfl le)
    | with_reducible apply State.readEntry_only (le := or_le rfl le)
    | with_reducible apply State.reply_only (le := or_le rfl le)
    | with_reducible apply doJrnDataRead_only (le := or_le rfl le)
    | with_reducible apply doRingRead_only (le := or_le rfl le)
    | split
    | dsimp only
    | assumption

/-- One read of a run. -/
theorem State.readRun_only {M : Nat} {s0 : State} (l : List Nat) (s : State) (seat : Fin 8) (d : Die) (idx : Nat) (acc : List Byte) (stale : Bool)
    (h_s : Only M s0 s) (le : 0x11cbbf6 ||| M = M) : Only M s0 (s.readRun seat d idx l acc stale).1 := by
  induction l generalizing s acc stale with
  | nil => exact h_s
  | cons x l ih =>
    have h := State.readEntry_only s seat d idx x h_s (or_le rfl le)
    unfold State.readRun
    dsimp only
    split
    · exact ih _ _ _ h
    · exact h

/-- It can touch what its reads can. -/
theorem State.readBlockOn_only {M : Nat} {s0 : State} (s : State) (d : Die) (f : Frame) (h_s : Only M s0 s) (le : 0x11cbbf6 ||| M = M) :
    Only M s0 (State.readBlockOn s d f) := by
  unfold State.readBlockOn
  repeat' first
    | with_reducible assumption
    | with_reducible apply Only.ite
    | with_reducible apply State.ans_only (le := or_le rfl le)
    | with_reducible apply State.asBlock_only (le := or_le rfl le)
    | with_reducible apply State.readOct_only (le := or_le rfl le)
    | with_reducible apply State.sendAns_only (le := or_le rfl le)
    | with_reducible apply State.readRun_only (le := le)
    | fail_if_no_progress (with_reducible apply Only.mk; (try dsimp only); with_reducible apply OnlyParts.br (c := testBit_ge le rfl); with_reducible apply Only.parts)
    | split
    | dsimp only
    | assumption

/-- It can touch modes, pow, clk, flt, leases, a, b, fd, regs, br, rings, crc, tmr, otp, keys, st, upd, tst, pat, stdin, remote, freeCtr, mode. -/
theorem State.writeReq_only {M : Nat} {s0 : State} (s : State) (f : Frame) (h_s : Only M s0 s) (le : 0x9fefbfe ||| M = M) : Only M s0 (State.writeReq s f) := by
  unfold State.writeReq
  repeat' first
    | with_reducible assumption
    | intro _
    | with_reducible apply State.takeWrite_only (le := or_le rfl le)
    | with_reducible apply State.wrongType_only (le := or_le rfl le)
    | split
    | dsimp only
    | assumption

/-- It can touch modes, pow, clk, flt, leases, a, b, fd, regs, br, rings, crc, tmr, otp, keys, st, upd, tst, pat, stdin, remote, freeCtr, mode. -/
theorem State.writeOct_only {M : Nat} {s0 : State} (s : State) (f : Frame) (h_s : Only M s0 s) (le : 0x9fefbfe ||| M = M) : Only M s0 (State.writeOct s f) := by
  unfold State.writeOct
  repeat' first
    | with_reducible assumption
    | with_reducible apply Only.ite
    | with_reducible apply State.ans_only (le := or_le rfl le)
    | with_reducible apply State.asBlock_only (le := or_le rfl le)
    | with_reducible apply State.sendAns_only (le := or_le rfl le)
    | with_reducible apply State.takeWrite_only (le := or_le rfl le)
    | with_reducible apply doPatImage_only (le := or_le rfl le)
    | split
    | dsimp only
    | assumption

/-- It can touch modes, pow, clk, flt, leases, a, b, fd, regs, br, rings, crc, tmr, otp, keys, st, upd, tst, pat, stdin, remote, freeCtr, mode. -/
theorem State.writeBlockReq_only {M : Nat} {s0 : State} (s : State) (f : Frame) (h_s : Only M s0 s) (le : 0x9fefbfe ||| M = M) : Only M s0 (State.writeBlockReq s f) := by
  unfold State.writeBlockReq
  repeat' first
    | with_reducible assumption
    | intro _
    | with_reducible apply Only.ite
    | with_reducible apply State.ans_only (le := or_le rfl le)
    | with_reducible apply State.sendAns_only (le := or_le rfl le)
    | with_reducible apply State.takeWrite_only (le := or_le rfl le)
    | with_reducible apply State.writeOct_only (le := or_le rfl le)
    | split
    | dsimp only
    | assumption

end Sys2Proof.Machine
end

