-- ==== Sys2Proof/Laws/OnlyBridleRows.lean ====
section
/-! SUPPORT. Which fields the operations of Machine/BridleRows.lean can touch. -/

set_option linter.unusedTactic false
set_option linter.unreachableTactic false
set_option linter.unusedVariables false

namespace Sys2Proof.Machine

/-- It can touch modes, pow, flt, leases, a, b, fd, regs, br, crc, otp, st, upd, tst, freeCtr. -/
theorem doRead_only {M : Nat} {s0 : State} (f : Frame) (s : State) (h_s : Only M s0 s) (le : 0x11cabf6 ||| M = M) : Only M s0 (doRead f s) := by
  unfold doRead
  repeat' first
    | with_reducible assumption
    | intro _
    | with_reducible apply State.atHome_only (le := or_le rfl le)
    | with_reducible apply State.readOn_only (le := or_le rfl le)
    | with_reducible apply State.request_only (le := or_le rfl le)
    | dsimp only
    | assumption

/-- It can touch modes, pow, clk, flt, leases, a, b, fd, regs, br, rings, crc, tmr, otp, keys, st, upd, tst, pat, stdin, remote, freeCtr, mode. -/
theorem doWrite_only {M : Nat} {s0 : State} (f : Frame) (s : State) (h_s : Only M s0 s) (le : 0x9fefbfe ||| M = M) : Only M s0 (doWrite f s) := by
  unfold doWrite
  repeat' first
    | with_reducible assumption
    | intro _
    | with_reducible apply State.request_only (le := or_le rfl le)
    | with_reducible apply State.writeReq_only (le := or_le rfl le)
    | dsimp only
    | assumption

/-- It can touch modes, pow, flt, leases, a, b, fd, regs, br, rings, crc, otp, st, upd, tst, freeCtr. -/
theorem doReadBlock_only {M : Nat} {s0 : State} (f : Frame) (s : State) (h_s : Only M s0 s) (le : 0x11cbbf6 ||| M = M) : Only M s0 (doReadBlock f s) := by
  unfold doReadBlock
  repeat' first
    | with_reducible assumption
    | intro _
    | with_reducible apply State.atHome_only (le := or_le rfl le)
    | with_reducible apply State.readBlockOn_only (le := or_le rfl le)
    | with_reducible apply State.request_only (le := or_le rfl le)
    | dsimp only
    | assumption

/-- It can touch modes, pow, clk, flt, leases, a, b, fd, regs, br, rings, crc, tmr, otp, keys, st, upd, tst, pat, stdin, remote, freeCtr, mode. -/
theorem doWriteBlock_only {M : Nat} {s0 : State} (f : Frame) (s : State) (h_s : Only M s0 s) (le : 0x9fefbfe ||| M = M) : Only M s0 (doWriteBlock f s) := by
  unfold doWriteBlock
  repeat' first
    | with_reducible assumption
    | intro _
    | with_reducible apply State.request_only (le := or_le rfl le)
    | with_reducible apply State.writeBlockReq_only (le := or_le rfl le)
    | dsimp only
    | assumption

/-- It can touch regs, br. -/
theorem State.notify_only {M : Nat} {s0 : State} (s : State) (x : Sub) (h_s : Only M s0 s) (le : 0xa00 ||| M = M) : Only M s0 (State.notify s x) := by
  unfold State.notify
  repeat' first
    | with_reducible assumption
    | intro _
    | with_reducible apply Only.ite
    | with_reducible apply State.setReg_only (le := or_le rfl le)
    | exact fun _ h => h
    | (dsimp only [Only.mk_eq]; with_reducible apply OnlyParts.br (c := testBit_ge le rfl); with_reducible apply Only.parts)
    | split
    | dsimp only
    | assumption

/-- It can touch regs, br. -/
theorem State.watch_only {M : Nat} {s0 : State} (s : State) (f : Frame) (h_s : Only M s0 s) (le : 0xa00 ||| M = M) : Only M s0 (State.watch s f) := by
  unfold State.watch
  repeat' first
    | with_reducible assumption
    | intro _
    | with_reducible apply Only.ite
    | with_reducible apply State.ans_only (le := or_le rfl le)
    | with_reducible apply State.notify_only (le := or_le rfl le)
    | with_reducible apply State.sendAns_only (le := or_le rfl le)
    | exact fun _ h => h
    | (dsimp only [Only.mk_eq]; with_reducible apply OnlyParts.br (c := testBit_ge le rfl); with_reducible apply Only.parts)
    | split
    | dsimp only
    | assumption

/-- It can touch regs, br, tst. -/
theorem doSubscribe_only {M : Nat} {s0 : State} (f : Frame) (s : State) (h_s : Only M s0 s) (le : 0x100a00 ||| M = M) : Only M s0 (doSubscribe f s) := by
  unfold doSubscribe
  repeat' first
    | with_reducible assumption
    | intro _
    | with_reducible apply State.request_only (le := or_le rfl le)
    | with_reducible apply State.watch_only (le := or_le rfl le)
    | dsimp only
    | assumption

/-- It can touch regs, br. -/
theorem State.unwatch_only {M : Nat} {s0 : State} (s : State) (f : Frame) (h_s : Only M s0 s) (le : 0xa00 ||| M = M) : Only M s0 (State.unwatch s f) := by
  unfold State.unwatch
  repeat' first
    | with_reducible assumption
    | intro _
    | with_reducible apply Only.ite
    | with_reducible apply State.ans_only (le := or_le rfl le)
    | with_reducible apply State.sendAns_only (le := or_le rfl le)
    | exact fun _ h => h
    | (dsimp only [Only.mk_eq]; with_reducible apply OnlyParts.br (c := testBit_ge le rfl); with_reducible apply Only.parts)
    | split
    | dsimp only
    | assumption

/-- It can touch regs, br, tst. -/
theorem doUnsubscribe_only {M : Nat} {s0 : State} (f : Frame) (s : State) (h_s : Only M s0 s) (le : 0x100a00 ||| M = M) : Only M s0 (doUnsubscribe f s) := by
  unfold doUnsubscribe
  repeat' first
    | with_reducible assumption
    | intro _
    | with_reducible apply State.request_only (le := or_le rfl le)
    | with_reducible apply State.unwatch_only (le := or_le rfl le)
    | dsimp only
    | assumption

/-- It can touch regs, br. -/
theorem doNotification_only {M : Nat} {s0 : State} (sub : Nat) (s : State) (h_s : Only M s0 s) (le : 0xa00 ||| M = M) : Only M s0 (doNotification sub s) := by
  unfold doNotification
  repeat' first
    | with_reducible assumption
    | intro _
    | with_reducible apply Only.ite
    | with_reducible apply State.notify_only (le := or_le rfl le)
    | exact fun _ h => h
    | split
    | dsimp only
    | assumption

/-- It can touch modes, pow, clk, flt, leases, a, b, fd, regs, br, rings, crc, tmr, otp, keys, st, upd, tst, pat, stdin, remote, freeCtr, mode. -/
theorem doForwardedWriteRx_only {M : Nat} {s0 : State} (d : Die) (h : FlitHdr) (id : Nat) (s : State) (h_s : Only M s0 s) (le : 0x9fefbfe ||| M = M) : Only M s0 (doForwardedWriteRx d h id s) := by
  unfold doForwardedWriteRx
  repeat' first
    | with_reducible assumption
    | intro _
    | with_reducible apply Only.ite
    | with_reducible apply State.flit_only (le := or_le rfl le)
    | with_reducible apply State.writeAll_only (le := or_le rfl le)
    | exact fun _ h => h
    | (dsimp only [Only.mk_eq]; with_reducible apply OnlyParts.br (c := testBit_ge le rfl); with_reducible apply Only.parts)
    | split
    | dsimp only
    | assumption

/-- It can touch modes, pow, flt, leases, a, b, fd, regs, br, rings, crc, otp, st, upd, tst, freeCtr. -/
theorem doForwardedResponseRx_only {M : Nat} {s0 : State} (d : Die) (h : FlitHdr) (id : Nat) (s : State) (h_s : Only M s0 s) (le : 0x11cbbf6 ||| M = M) : Only M s0 (doForwardedResponseRx d h id s) := by
  unfold doForwardedResponseRx
  repeat' first
    | with_reducible assumption
    | intro _
    | with_reducible apply Only.ite
    | with_reducible apply State.flit_only (le := or_le rfl le)
    | with_reducible apply State.readBlockOn_only (le := or_le rfl le)
    | with_reducible apply State.readOn_only (le := or_le rfl le)
    | exact fun _ h => h
    | (dsimp only [Only.mk_eq]; with_reducible apply OnlyParts.br (c := testBit_ge le rfl); with_reducible apply Only.parts)
    | split
    | dsimp only
    | assumption

/-- It can touch stdin, remote. -/
theorem State.takeNow_only {M : Nat} {s0 : State} (s : State) (recv : Nat) (x : WItem) (h_s : Only M s0 s) (le : 0xc00000 ||| M = M) : Only M s0 (State.takeNow s recv x) := by
  unfold State.takeNow
  repeat' first
    | with_reducible assumption
    | intro _
    | with_reducible apply Only.ite
    | (dsimp only [Only.mk_eq]; with_reducible apply OnlyParts.stdin (c := testBit_ge le rfl); with_reducible apply OnlyParts.remote (c := testBit_ge le rfl); with_reducible apply Only.parts)
    | split
    | dsimp only
    | assumption

/-- It can touch regs, br, otp. -/
theorem State.applyAnswer_only {M : Nat} {s0 : State} (s old : State) (r : RespTo) (h_s : Only M s0 s) (h_old : Only M s0 old) (le : 0x8a00 ||| M = M) : Only M s0 (State.applyAnswer s old r) := by
  unfold State.applyAnswer
  repeat' first
    | with_reducible assumption
    | intro _
    | with_reducible apply Only.ite
    | with_reducible apply State.sendAns_only (le := or_le rfl le)
    | (dsimp only [Only.mk_eq]; with_reducible apply OnlyParts.br (c := testBit_ge le rfl); with_reducible apply OnlyParts.otp (c := testBit_ge le rfl); with_reducible apply Only.parts)
    | split
    | dsimp only
    | assumption

/-- It can touch modes, pow, clk, flt, leases, a, b, fd, regs, br, rings, crc, tmr, otp, keys, st, upd, tst, pat, stdin, remote, freeCtr, mode. -/
theorem State.applyWrite_only {M : Nat} {s0 : State} (s : State) (w : PendWrite) (h_s : Only M s0 s) (le : 0x9fefbfe ||| M = M) : Only M s0 (State.applyWrite s w) := by
  unfold State.applyWrite
  repeat' first
    | with_reducible assumption
    | intro _
    | with_reducible apply Only.ite
    | with_reducible apply State.ansBusy_only (le := or_le rfl le)
    | with_reducible apply State.applyAnswer_only (le := or_le rfl le)
    | with_reducible apply State.asBlock_only (le := or_le rfl le)
    | with_reducible apply State.sendAns_only (le := or_le rfl le)
    | with_reducible apply State.takeNow_only (le := or_le rfl le)
    | with_reducible apply State.updSeat_only (le := or_le rfl le)
    | with_reducible apply State.writeAll_only (le := or_le rfl le)
    | with_reducible apply Only.foldl
    | split
    | dsimp only
    | assumption

/-- It can touch a, b. -/
theorem State.reopen_only {M : Nat} {s0 : State} (s : State) (h_s : Only M s0 s) (le : 0xc0 ||| M = M) : Only M s0 (State.reopen s) := by
  unfold State.reopen
  repeat' first
    | with_reducible assumption
    | with_reducible apply Only.ite
    | with_reducible apply State.updDie_only (le := or_le rfl le)
    | split
    | dsimp only
    | assumption

/-- It can touch modes, pow, clk, flt, leases, a, b, fd, regs, br, rings, crc, tmr, otp, keys, st, upd, tst, pat, stdin, remote, freeCtr, mode. -/
theorem doWriteApply_only {M : Nat} {s0 : State} (s : State) (h_s : Only M s0 s) (le : 0x9fefbfe ||| M = M) : Only M s0 (doWriteApply s) := by
  unfold doWriteApply
  repeat' first
    | with_reducible assumption
    | intro _
    | with_reducible apply Only.ite
    | with_reducible apply State.activateApply_only (le := or_le rfl le)
    | with_reducible apply State.applyWrite_only (le := or_le rfl le)
    | with_reducible apply State.ptAgain_only (le := or_le rfl le)
    | with_reducible apply State.reopen_only (le := or_le rfl le)
    | with_reducible apply Only.foldl
    | (dsimp only [Only.mk_eq]; with_reducible apply OnlyParts.br (c := testBit_ge le rfl); with_reducible apply Only.parts)
    | split
    | dsimp only
    | assumption

/-- It can touch regs, br, tst. -/
theorem doWriteFrame_only {M : Nat} {s0 : State} (whole : Bool) (op : Nat) (f : Frame) (s : State) (h_s : Only M s0 s) (le : 0x100a00 ||| M = M) : Only M s0 (doWriteFrame whole op f s) := by
  unfold doWriteFrame
  repeat' first
    | with_reducible assumption
    | with_reducible apply Only.ite
    | with_reducible apply State.bump_only (le := or_le rfl le)
    | with_reducible apply State.request_only (le := or_le rfl le)
    | exact fun _ h => h
    | (dsimp only [Only.mk_eq]; with_reducible apply OnlyParts.br (c := testBit_ge le rfl); with_reducible apply Only.parts)
    | split
    | dsimp only
    | assumption

/-- It can touch br. -/
theorem doReadFrame_only {M : Nat} {s0 : State} (whole : Bool) (s : State) (h_s : Only M s0 s) (le : 0x800 ||| M = M) : Only M s0 (doReadFrame whole s) := by
  unfold doReadFrame
  repeat' first
    | with_reducible assumption
    | with_reducible apply Only.ite
    | (dsimp only [Only.mk_eq]; with_reducible apply OnlyParts.br (c := testBit_ge le rfl); with_reducible apply Only.parts)
    | split
    | dsimp only
    | assumption

/-- It can touch br. -/
theorem doReadStatus_only {M : Nat} {s0 : State} (s : State) (h_s : Only M s0 s) (le : 0x800 ||| M = M) : Only M s0 (doReadStatus s) := by
  unfold doReadStatus
  repeat' first
    | with_reducible assumption
    | with_reducible apply Only.ite
    | (dsimp only [Only.mk_eq]; with_reducible apply OnlyParts.br (c := testBit_ge le rfl); with_reducible apply Only.parts)
    | split
    | dsimp only
    | assumption

end Sys2Proof.Machine
end

