-- ==== Sys2Proof/Laws/OnlyIdle.lean ====
section
/-! SUPPORT. Which fields the operations of Machine/Idle.lean can touch. -/

set_option linter.unusedTactic false
set_option linter.unreachableTactic false
set_option linter.unusedVariables false

namespace Sys2Proof.Machine

/-- It can touch br. -/
theorem State.refillAll_only {M : Nat} {s0 : State} (s : State) (h_s : Only M s0 s) (le : 0x800 ||| M = M) : Only M s0 (State.refillAll s) := by
  unfold State.refillAll
  repeat' first
    | with_reducible assumption
    | intro _
    | with_reducible apply Only.foldl
    | (dsimp only [Only.mk_eq]; with_reducible apply OnlyParts.br (c := testBit_ge le rfl); with_reducible apply Only.parts)
    | dsimp only
    | assumption

/-- It can touch a, b. -/
theorem State.holdOn_only {M : Nat} {s0 : State} (s : State) (h_s : Only M s0 s) (le : 0xc0 ||| M = M) : Only M s0 (State.holdOn s) := by
  unfold State.holdOn
  repeat' first
    | with_reducible assumption
    | with_reducible apply Only.ite
    | with_reducible apply State.updDie_only (le := or_le rfl le)
    | split
    | dsimp only
    | assumption

/-- It can touch modes, pow, flt, leases, a, b, fd, regs, br, rings, crc, tmr, otp, st, upd, freeCtr. -/
theorem State.tickTimers_only {M : Nat} {s0 : State} (s : State) (d : Die) (h_s : Only M s0 s) (le : 0x10cfbf6 ||| M = M) : Only M s0 (State.tickTimers s d) := by
  unfold State.tickTimers
  repeat' first
    | with_reducible assumption
    | with_reducible apply Only.ite
    | with_reducible apply State.timerEdge_only (le := or_le rfl le)
    | split
    | dsimp only
    | assumption

/-- It can touch st. -/
theorem State.roundOn_only {M : Nat} {s0 : State} (s : State) (h_s : Only M s0 s) (le : 0x40000 ||| M = M) : Only M s0 (State.roundOn s) := by
  unfold State.roundOn
  repeat' first
    | with_reducible assumption
    | with_reducible apply Only.ite
    | (dsimp only [Only.mk_eq]; with_reducible apply OnlyParts.st (c := testBit_ge le rfl); with_reducible apply Only.parts)
    | split
    | dsimp only
    | assumption

/-- It can touch modes, pow, flt, leases, a, b, fd, regs, br, rings, crc, tmr, otp, bkp, st, upd, freeCtr, time. -/
theorem idle_only {M : Nat} {s0 : State} (s : State) (h_s : Only M s0 s) (le : 0x30dfbf6 ||| M = M) : Only M s0 (idle s) := by
  unfold idle
  repeat' first
    | with_reducible assumption
    | with_reducible apply Only.ite
    | with_reducible apply State.holdOn_only (le := or_le rfl le)
    | with_reducible apply State.otpNext_only (le := or_le rfl le)
    | with_reducible apply State.refillAll_only (le := or_le rfl le)
    | with_reducible apply State.roundOn_only (le := or_le rfl le)
    | with_reducible apply State.tickTimers_only (le := or_le rfl le)
    | (dsimp only [Only.mk_eq]; with_reducible apply OnlyParts.bkp (c := testBit_ge le rfl); with_reducible apply OnlyParts.time (c := testBit_ge le rfl); with_reducible apply Only.parts)
    | split
    | dsimp only
    | assumption

end Sys2Proof.Machine
end

