-- ==== Sys2Proof/WellFormed.lean ====
section
/-! DEFINITION. Well-formed commands: every operand fits the field that carries it (05_channel_diversity.md Table
05-3, 14_object_dictionary.md Table 14-4, 19_update.md R451, and the entry types of Table 00-4). -/

namespace Sys2Proof

/-- The link fields fit Table 05-3. -/
def FlitHdr.wf (h : FlitHdr) : Bool :=
  decide (h.seq < 4096) && decide (h.ack < 4096) && decide (h.cvc < 16) && decide (h.ccnt < 16) && decide (h.span < 256)
    && decide (h.crc < 2 ^ 32)

/-- Addresses, tag and EtherType fit their fields (R269). -/
def EthHdr.wf (h : EthHdr) : Bool :=
  decide (h.dst < 2 ^ 48) && decide (h.src < 2 ^ 48) && decide (h.etype < 2 ^ 16)
    && h.tag.all fun t => decide (t.1 < 2 ^ 16) && decide (t.2 < 2 ^ 16)

/-- The fields of a flit of a compare record fit their widths (R146, R147). -/
def CmpFlit.wf : CmpFlit → Bool
  | .group g sig => decide (g < 2 ^ 16) && decide (sig < 2 ^ 64)
  | .fdie _ cmd opreq => decide (cmd < 2 ^ 32) && decide (opreq < 2 ^ 32)
  | .part conn bytes => decide (conn < 2 ^ 16) && decide (bytes.length = 20)

/-- The fields of a pairing record fit their widths (R281); a flit of a full record holds 20 bytes. -/
def PairRec.wf : PairRec → Bool
  | .digest conn seq epoch boot len crc =>
    decide (conn < 2 ^ 16) && decide (seq < 2 ^ 32) && decide (epoch < 2 ^ 16) && decide (boot < 2 ^ 32) && decide (len < 2 ^ 8)
      && decide (crc < 2 ^ 64)
  | .full conn bytes => decide (conn < 2 ^ 16) && decide (bytes.length = 20)

/-- A position is a U32 and its flag byte holds bits 0 to 2 (R220). -/
def PosRec.wf (r : PosRec) : Bool := decide (r.pos < 2 ^ 32) && decide (r.flags < 8)

/-- The header fields of a Bridle frame fit Table 14-4. -/
def Frame.wf (f : Frame) : Bool :=
  decide (f.tr ≤ 2) && decide (f.addr < 2 ^ 128) && decide (f.port < 2 ^ 16) && decide (f.magic < 2 ^ 16) && decide (f.ver < 2 ^ 8) && decide (f.seat < 2 ^ 8)
    && decide (f.status < 2 ^ 8) && decide (f.reqId < 2 ^ 16) && decide (f.token < 2 ^ 32)
    && decide (f.len < 2 ^ 16) && decide (f.rsvd < 2 ^ 16) && decide (f.crc < 2 ^ 32)

/-- The header fields of a service frame fit R451. -/
def SvcFrame.wf (f : SvcFrame) : Bool :=
  decide (f.magic < 2 ^ 16) && decide (f.status < 2 ^ 8) && decide (f.session < 2 ^ 32) && decide (f.rsvd < 2 ^ 16) && decide (f.len < 2 ^ 16)
    && decide (f.crc < 2 ^ 32)

/-- Every operand of a command fits its field. -/
def Instr.wf : Instr → Bool
  | .vinRise _ _ => true
  | .bootStepComplete => true
  | .bootStepTimeout => true
  | .bootRetry => true
  | .resetNLow => true
  | .resetNRelease => true
  | .pfwLatch _ => true
  | .powerFailRecordDone _ => true
  | .pfwClear _ => true
  | .vinOff _ => true
  | .powerDownStart => true
  | .powerDownStep => true
  | .railExcursion _ _ => true
  | .modeReqConfigure _ => true
  | .modeReqRun _ => true
  | .modeReqSafe _ => true
  | .modeReqService _ => true
  | .modeRequestTake => true
  | .runEntry => true
  | .runRequestLapse => true
  | .safeEntryAfterStop => true
  | .safeEntry => true
  | .pwrReqActive _ => true
  | .pwrReqSleep _ => true
  | .pwrReqDeepSleep _ => true
  | .powerStateChange => true
  | .tick _ => true
  | .phaseAEnd _ => true
  | .phaseEEnd _ => true
  | .commitPoint _ => true
  | .lateCommitLimit _ => true
  | .jobComplete _ _ => true
  | .laneError _ _ => true
  | .tickTimestampRx _ h _ _ => h.wf
  | .inputSupervisionFlitRx _ h tag states codes => h.wf && decide (tag ≤ 4) && decide (states < 2 ^ 32) && codes.all (fun c => decide (c < 16))
  | .outputSupervisionFlitRx _ h _ codes => h.wf && codes.all (fun c => decide (c < 16))
  | .compareRecordRx _ h r => h.wf && r.wf
  | .readyRx _ h => h.wf
  | .pairingRecordRx _ h r => h.wf && r.wf
  | .positionRecordRx _ h first recs => h.wf && decide (first < 2 ^ 16) && decide (recs.length ≤ 4) && recs.all PosRec.wf
  | .localisationRecordRx _ h i bytes => h.wf && decide (i < 2 ^ 16) && decide (bytes.length = 20)
  | .replayRecordRx _ h r => h.wf && r.wf
  | .forwardedWriteRx _ h _ => h.wf
  | .stateTransferRx _ h => h.wf
  | .stitchFlitCrcError _ => true
  | .stitchRetryTimeout _ => true
  | .retrainComplete => true
  | .stitchLaneTrainFail _ _ => true
  | .syncRx _ _ _ _ _ => true
  | .syncReceiptTimeout _ => true
  | .holdoverExpire => true
  | .spanKWrite _ v => decide (v < 2 ^ 8)
  | .tickOfsWrite _ v => decide (v < 2 ^ 32)
  | .tickMarkRx _ _ _ => true
  | .fieldImageRx _ _ => true
  | .captureLockEnd _ _ => true
  | .fieldInputEdge _ _ _ _ => true
  | .debounceExpire _ _ => true
  | .ossdPulseFilterExpire _ _ => true
  | .ossdSilentExpire _ _ => true
  | .testPulseStart _ => true
  | .testPulseEnd _ => true
  | .tpWindowOpen _ _ => true
  | .tpWindowEnd _ _ => true
  | .adcSample _ _ _ _ _ => true
  | .adcReferenceCheck _ _ => true
  | .cosHirqClear _ _ mask => decide (mask < 2 ^ 32)
  | .cmdFrameRx _ _ _ => true
  | .keepTokenExpire _ _ => true
  | .tripAssert _ => true
  | .tripRelease => true
  | .vfldLow _ _ => true
  | .vfldRecover _ _ => true
  | .currentLimitTrip _ => true
  | .switchOvertemp _ _ => true
  | .gateDriveLoss _ => true
  | .fdieOvercurrent _ _ => true
  | .fdieOvertemp _ => true
  | .offPulseStart _ _ => true
  | .offPulseEnd _ _ => true
  | .outputCodeClear _ _ => true
  | .channelModeWrite _ _ mode => decide (mode ≤ 4)
  | .holdModeEnter _ => true
  | .holdFrameSend _ => true
  | .holdTimeout _ => true
  | .heartbeatLoss _ => true
  | .safeTelegramRx _ _ h _ _ => h.wf
  | .positionTelegramRx _ rx _ _ => rx.h.wf
  | .connWatchdogExpire _ _ => true
  | .loneBudgetExpire _ _ => true
  | .egressLost _ _ conn epoch seq => decide (conn < 2 ^ 16) && decide (epoch < 2 ^ 16) && decide (seq < 2 ^ 32)
  | .linkDown _ _ => true
  | .linkUp _ _ _ => true
  | .telegramReplay _ _ => true
  | .frameForward _ _ dst src tag etype fin => (EthHdr.mk dst src tag etype fin.fcsOk).wf
  | .fdbAgeout _ mac => decide (mac < 2 ^ 48)
  | .arpRequestRx _ rx mac ip tip => rx.h.wf && decide (mac < 2 ^ 48) && decide (ip < 2 ^ 32) && decide (tip < 2 ^ 32)
  | .neighbourDiscoveryRx _ rx mac ip tip => rx.h.wf && decide (mac < 2 ^ 48) && decide (ip < 2 ^ 128) && decide (tip < 2 ^ 128)
  | .echoRequestRx _ rx v6 _ ip tip _ => rx.h.wf && decide (ip < 2 ^ if v6 then 128 else 32) && decide (tip < 2 ^ if v6 then 128 else 32)
  | .faultLatch _ => true
  | .fswClr _ mask => decide (mask < 2 ^ 64)
  | .fswSecClr _ mask => decide (mask < 2 ^ 64)
  | .shadowEnd _ => true
  | .leaseRequest res _ => decide (res < 7)
  | .leaseRenew res _ => decide (res < 7)
  | .leaseRelease res _ => decide (res < 7)
  | .leaseExpire res => decide (res < 7)
  | .readmitPowerRestore _ => true
  | .readmitBootDone _ _ => true
  | .readmitTimeout _ => true
  | .mdieReadmit => true
  | .girthHeartbeatTimeout _ => true
  | .girthChallenge word => decide (word < 2 ^ 32)
  | .girthResponseRx _ v => decide (v < 2 ^ 32)
  | .girthResponseTimeout _ => true
  | .zoneRrst _ _ v => decide (v < 2 ^ 16)
  | .stdinVal _ _ v => decide (v < 2 ^ 32)
  | .discTimerExpire _ _ => true
  | .lockMismatchExpire _ _ => true
  | .muteTimeExpire _ _ => true
  | .overrideTimeExpire _ _ => true
  | .contactTExpire _ _ => true
  | .modeselDiscExpire _ _ => true
  | .edmTimeout _ _ => true
  | .timerPtExpire _ _ => true
  | .outsafeDlyExpire _ _ => true
  | .stdinStale _ _ => true
  | .streamLost _ _ => true
  | .stoFbTimeout _ _ => true
  | .ss1StopTimeout _ _ => true
  | .slsAdaptExpire _ _ => true
  | .brakeEngageExpire _ _ => true
  | .sbcFbTimeout _ _ => true
  | .sbtTestTimeout _ _ => true
  | .sbtIntervalExpire _ _ => true
  | .groupEngageExpire _ _ => true
  | .tensionFilterExpire _ _ => true
  | .crystalFirstValidCycle _ _ => true
  | .crystalRelease _ => true
  | .pllLock _ => true
  | .startRulePass _ => true
  | .startAttemptFail _ => true
  | .oscRestart _ => true
  | .clockFail _ _ => true
  | .clockSwitchComplete _ _ => true
  | .clkGate _ _ v => decide (v < 2 ^ 8)
  | .clkobsSelect _ sub v => decide (sub < 256) && decide (v < 2 ^ 16)
  | .read f => f.wf
  | .write f => f.wf
  | .readBlock f => f.wf
  | .writeBlock f => f.wf
  | .subscribe f => f.wf
  | .unsubscribe f => f.wf
  | .writeApply => true
  | .notification _ => true
  | .writeFrame _ op f => decide (op < 2 ^ 8) && f.wf
  | .readFrame _ => true
  | .readStatus => true
  | .seatChal _ => true
  | .seatLogin _ _ => true
  | .sessionTimeout _ => true
  | .loPass _ _ => true
  | .loPassNew _ _ => true
  | .lineOwner _ v => decide (v < 2 ^ 8)
  | .lockoutEnd _ => true
  | .persistentWriteCommit => true
  | .registerWrite _ idx sub _ => decide (idx < 2 ^ 16) && decide (sub < 256)
  | .patImage _ _ _ => true
  | .load _ => true
  | .discard _ => true
  | .patternCheckDone => true
  | .confirm _ _ => true
  | .changeLogCommit => true
  | .ringPush _ _ => true
  | .ringRead _ _ _ => true
  | .ringConsume _ _ => true
  | .free _ => true
  | .reset _ => true
  | .ringAlloc _ _ v => decide (v < 2 ^ 32)
  | .jrnDataRead _ _ _ _ => true
  | .journalResume _ => true
  | .crcEnable _ _ _ => true
  | .crcAbort _ _ _ => true
  | .crcPreset _ _ _ v => decide (v < 2 ^ 8)
  | .crcParameterWrite _ _ _ sub v => decide (v < 2 ^ 64) && decide (sub < 256)
  | .crcDescriptorDone _ _ => true
  | .timerMatch _ _ => true
  | .timerReload _ _ => true
  | .tmrCtrl _ _ _ v => decide (v < 2 ^ 8)
  | .tmrCmp _ _ _ v => decide (v < 2 ^ 32)
  | .tmrCmpNext _ _ _ v => decide (v < 2 ^ 32)
  | .tmrCount _ _ _ v => decide (v < 2 ^ 32)
  | .otpProg _ v => decide (v < 2 ^ 32)
  | .otpProgramDone _ => true
  | .otpData _ => true
  | .lcReq _ v => decide (v < 2 ^ 8)
  | .lcResp _ target _ => decide (target < 2 ^ 8)
  | .lcChal _ => true
  | .keyPut _ _ => true
  | .keyErase _ slot => decide (slot < 16)
  | .eraRecordWrite _ => true
  | .tamper _ => true
  | .granuleDone _ _ _ => true
  | .roundLate => true
  | .stReq _ v => decide (v < 2 ^ 8)
  | .chal f => f.wf
  | .auth f => f.wf
  | .manifest f => f.wf
  | .chunk f => f.wf
  | .abort f => f.wf
  | .activate f => f.wf
  | .stagingComplete => true
  | .updateBootDone _ _ => true
  | .activationWaitTimeout => true
  | .flipDeferEnd => true
  | .svcSessionTimeout => true
  | .testOpen _ v => decide (v < 2 ^ 8)
  | .testChal _ => true
  | .testResp _ code _ => decide (code < 2 ^ 8)
  | .pllUnlock _ => true
  | .railReturn _ _ => true
  | .overtemperatureEnd _ => true
  | .gateDriveReturn _ => true
  | .supplyCurrentReturn _ => true
  | .tamperRelease _ => true
  | .vbatBrownOut => true
  | .blockResetComplete _ => true
  | .dischargeSinkRelease _ => true
  | .gateControlEntry _ _ => true
  | .pdelayRx _ _ _ => true
  | .announceRx _ _ _ _ _ => true
  | .forwardedResponseRx _ h _ => h.wf
  | .zeroiseReadbackDone => true
  | .zeroiseTimeout => true

end Sys2Proof
end

