-- ==== Sys2Proof/Tests/Slice0.lean ====
section
/-! SUPPORT. Tests of the model: ill-formed commands that the check of WellFormed.lean refuses, single steps whose results the spec states,
and for every obligation with hypotheses a concrete state and operands that meet them. -/

set_option maxRecDepth 100000

namespace Sys2Proof.Tests

open Sys2Proof Sys2Proof.Machine

/-! ## Ill-formed commands -/

/-- A flit header whose fields all fit. -/
def hdr : FlitHdr := { seq := 0, ack := 0, cvc := 0, ccnt := 0, span := 0, crc := 0 }

theorem test_wf_flit_header : hdr.wf = true ∧ { hdr with seq := 4095, ack := 4095, cvc := 15, ccnt := 15, span := 255, crc := 0xFFFFFFFF }.wf = true
    ∧ ∀ h ∈ [{ hdr with seq := 4096 }, { hdr with ack := 4096 }, { hdr with cvc := 16 }, { hdr with ccnt := 16 }, { hdr with span := 256 },
        { hdr with crc := 2 ^ 32 }],
      h.wf = false := by decide

/-- An untagged Ethernet frame with SAFE_ETYPE's default. -/
def eth : EthHdr := { dst := 0xFFFFFFFFFFFF, src := 0x020000000001, tag := none, etype := 0x88B5, fcsOk := true }

theorem test_wf_eth_header : eth.wf = true ∧ { eth with tag := some (0x8100, 0xE001) }.wf = true
    ∧ ∀ h ∈ [{ eth with dst := 2 ^ 48 }, { eth with src := 2 ^ 48 }, { eth with etype := 65536 }, { eth with tag := some (65536, 0) },
        { eth with tag := some (0, 65536) }], h.wf = false := by decide

/-- The 20 payload bytes of a flit. -/
def pl20 : List Byte := List.replicate 20 0

theorem test_wf_records : (CmpFlit.group 65535 0).wf = true ∧ (CmpFlit.part 65535 pl20).wf = true ∧ (PairRec.full 0 pl20).wf = true
    ∧ (PosRec.mk 4294967295 7).wf = true
    ∧ (∀ r ∈ [CmpFlit.group 65536 0, .group 0 (2 ^ 64), .fdie 0 (2 ^ 32) 0, .fdie 0 0 (2 ^ 32), .part 65536 pl20, .part 0 []], r.wf = false)
    ∧ (∀ r ∈ [PairRec.digest 65536 0 0 0 0 0, .digest 0 (2 ^ 32) 0 0 0 0, .digest 0 0 65536 0 0 0, .digest 0 0 0 (2 ^ 32) 0 0,
        .digest 0 0 0 0 256 0, .digest 0 0 0 0 0 (2 ^ 64), .full 65536 pl20, .full 0 (List.replicate 21 0)], r.wf = false)
    ∧ ∀ r ∈ [PosRec.mk (2 ^ 32) 0, PosRec.mk 0 8], r.wf = false := by decide

/-- A read request of entry 0x1000:01 over HSPI by the owner seat, its CRC not set. -/
def frm : Frame :=
  { tr := 0, addr := 0, port := 0, magic := 0x4252, ver := 1, seat := 0, status := 0, reqId := 1, token := 0, len := 4, rsvd := 0,
    payload := [0x00, 0x10, 1, 0], crc := 0 }

theorem test_wf_frame : frm.wf = true
    ∧ ∀ f ∈ [{ frm with tr := 3 }, { frm with addr := 2 ^ 128 }, { frm with port := 65536 }, { frm with magic := 65536 }, { frm with ver := 256 },
        { frm with seat := 256 }, { frm with status := 256 }, { frm with reqId := 65536 }, { frm with token := 2 ^ 32 }, { frm with len := 65536 },
        { frm with rsvd := 65536 }, { frm with crc := 2 ^ 32 }], f.wf = false := by decide

theorem test_wf_frame_rows : ∀ i ∈ [Instr.read { frm with tr := 3 }, .write { frm with tr := 3 }, .readBlock { frm with tr := 3 },
      .writeBlock { frm with tr := 3 }, .subscribe { frm with tr := 3 }, .unsubscribe { frm with tr := 3 }, .writeFrame true 1 { frm with tr := 3 },
      .writeFrame true 256 frm], i.wf = false := by decide

/-- A service frame without payload. -/
def svc : SvcFrame := { magic := 0x5356, status := 0, session := 0, rsvd := 0, len := 0, payload := [], crc := 0 }

theorem test_wf_service_frame : svc.wf = true
    ∧ (∀ f ∈ [{ svc with magic := 65536 }, { svc with status := 256 }, { svc with session := 2 ^ 32 }, { svc with rsvd := 65536 },
        { svc with len := 65536 }, { svc with crc := 2 ^ 32 }], f.wf = false)
    ∧ ∀ i ∈ [Instr.chal { svc with magic := 65536 }, .auth { svc with magic := 65536 }, .manifest { svc with magic := 65536 },
        .chunk { svc with magic := 65536 }, .abort { svc with magic := 65536 }, .activate { svc with magic := 65536 }], i.wf = false := by decide

theorem test_wf_flit_rows : ∀ i ∈ [Instr.tickTimestampRx .a { hdr with seq := 4096 } 0 0, .inputSupervisionFlitRx .a { hdr with seq := 4096 } 0 0 [],
      .inputSupervisionFlitRx .a hdr 5 0 [], .inputSupervisionFlitRx .a hdr 4 (2 ^ 32) [], .inputSupervisionFlitRx .a hdr 4 0 [16],
      .outputSupervisionFlitRx .a { hdr with seq := 4096 } 0 [], .outputSupervisionFlitRx .a hdr 0 [16],
      .compareRecordRx .a { hdr with seq := 4096 } (.group 0 0), .compareRecordRx .a hdr (.group 65536 0), .readyRx .b { hdr with seq := 4096 },
      .pairingRecordRx .a { hdr with seq := 4096 } (.full 0 pl20), .pairingRecordRx .a hdr (.full 65536 pl20),
      .positionRecordRx .a { hdr with seq := 4096 } 0 [], .positionRecordRx .a hdr 65536 [], .positionRecordRx .a hdr 0 (List.replicate 5 ⟨0, 0⟩),
      .positionRecordRx .a hdr 0 [⟨0, 8⟩], .localisationRecordRx .a { hdr with seq := 4096 } 0 pl20, .localisationRecordRx .a hdr 65536 pl20,
      .localisationRecordRx .a hdr 0 [], .replayRecordRx .a { hdr with seq := 4096 } (.group 0 0), .replayRecordRx .a hdr (.group 65536 0),
      .forwardedWriteRx .a { hdr with seq := 4096 } 0, .stateTransferRx .a { hdr with seq := 4096 }, .forwardedResponseRx .a { hdr with seq := 4096 } 0],
      i.wf = false := by decide

theorem test_wf_value_rows : ∀ i ∈ [Instr.spanKWrite 0 256, .tickOfsWrite 0 (2 ^ 32), .cosHirqClear 0 0 (2 ^ 32), .channelModeWrite .a 0 5,
      .safeTelegramRx .a 0 { eth with dst := 2 ^ 48 } [] 0, .positionTelegramRx .a ⟨0, { eth with dst := 2 ^ 48 }⟩ [] 0, .egressLost .a 0 65536 0 0,
      .egressLost .a 0 0 65536 0, .egressLost .a 0 0 0 (2 ^ 32), .frameForward .a 0 eth.dst (2 ^ 48) eth.tag eth.etype ⟨64, true⟩, .fdbAgeout .a (2 ^ 48),
      .arpRequestRx .a ⟨0, { eth with src := 2 ^ 48 }⟩ 0 0 0, .arpRequestRx .a ⟨0, eth⟩ (2 ^ 48) 0 0, .arpRequestRx .a ⟨0, eth⟩ 0 (2 ^ 32) 0,
      .arpRequestRx .a ⟨0, eth⟩ 0 0 (2 ^ 32), .neighbourDiscoveryRx .a ⟨0, { eth with src := 2 ^ 48 }⟩ 0 0 0, .neighbourDiscoveryRx .a ⟨0, eth⟩ (2 ^ 48) 0 0,
      .neighbourDiscoveryRx .a ⟨0, eth⟩ 0 (2 ^ 128) 0, .neighbourDiscoveryRx .a ⟨0, eth⟩ 0 0 (2 ^ 128),
      .echoRequestRx .a ⟨0, { eth with src := 2 ^ 48 }⟩ false 1 0 0 [], .echoRequestRx .a ⟨0, eth⟩ false 1 (2 ^ 32) 0 [],
      .echoRequestRx .a ⟨0, eth⟩ true 1 0 (2 ^ 128) [],
      .fswClr 0 (2 ^ 64), .fswSecClr 0 (2 ^ 64), .leaseRequest 7 0, .leaseRenew 7 0, .leaseRelease 7 0, .leaseExpire 7, .girthChallenge (2 ^ 32),
      .girthResponseRx .a (2 ^ 32), .zoneRrst 0 0 65536, .stdinVal 0 0 (2 ^ 32)], i.wf = false := by decide

theorem test_wf_more_value_rows : ∀ i ∈ [Instr.clkGate 0 0 256, .clkobsSelect 0 256 0, .clkobsSelect 0 1 65536, .lineOwner 0 256, .registerWrite 0 65536 0 0,
      .registerWrite 0 0 256 0, .ringAlloc .a 0 (2 ^ 32), .crcPreset 0 .a 0 256, .crcParameterWrite 0 .a 0 3 (2 ^ 64),
      .crcParameterWrite 0 .a 0 256 0, .tmrCtrl 0 .a 0 256, .tmrCmp 0 .a 0 (2 ^ 32), .tmrCmpNext 0 .a 0 (2 ^ 32), .tmrCount 0 .a 0 (2 ^ 32),
      .otpProg 0 (2 ^ 32), .lcReq 0 256, .lcResp 0 256 [], .keyErase 0 16, .stReq 0 256, .testOpen 0 256, .testResp 0 256 []], i.wf = false := by decide

theorem test_wf_admits : ∀ i ∈ [Instr.spanKWrite 7 255, .cosHirqClear 0 4 0xFFFFFFFF, .leaseRequest 6 0, .otpProg 0 0xFFFFFFFF, .lcReq 0 4, .tick ⟨.a, 250000⟩,
      .read frm, .chal svc, .readyRx .a hdr, .echoRequestRx .a ⟨0, eth⟩ true 1 0 (2 ^ 128 - 1) []], i.wf = true := by decide

/-! ## Small states

`live m` is a device in mode `m` with supply and clocks in order, trip lines released and nothing waiting. `pat` is a Pattern with one
instance of some blocks. Neither is claimed to be reachable. -/

def portOn : FPort := { FPort.init with trip := false, token := true, seq := some 0 }

def fdOn : FDie := { FDie.init with a := portOn, b := portOn, powered := true, low := false, gate := true }

def swOwn : Switch := { other := false, busy := none, wait := none }

def live (m : Mode) : State :=
  { State.reset with
    modes := { Modes.init with mode := m }
    pow := { Power.init with en := 0xFF, pd := 0xFFFFF, armed := 0x7FF, vinMv := 24000 }
    clk := { Clocks.init with armed := 0x3FFFF, gated := 0, swPmu := swOwn, swA := swOwn, swB := swOwn, swMem := swOwn }
    flt := { Faults.init with tripA := false, tripB := false, tripLA := false, tripLB := false }
    fd := [(0, fdOn), (1, fdOn), (2, fdOn), (3, fdOn)]
    otp := { Otp.init with words := [(2, .data 884#32), (16, .data 0xA2010000#32), (17, .data 0x52010000#32)] } }

/-- The state with an entry of the register store set. -/
def State.at_ (s : State) (idx sub v : Nat) : State := s.setReg idx sub v

def enc0 : Enc := { ok := true, bind := 0, snap := [], sigs := [], consts := [], ks := [], limbs := [], closures := [] }

def connP : ConnPar :=
  { connId := 7, period := 1, phase := 0, wd := 3, pairWin := 1, loneT := 0, len := 4, map := [], auth := 1, reack := 0 }

def hdr0 : PatHdr :=
  { format := 1, library := 1, target := 884, spanKMin := 0, flags := 0, nInst := 5, nVar := 0, nEdge := 0, nGroup := 1, nZone := 1, nRein := 0
    nAxis := 0, nConnIn := 1, nConnOut := 0, nRemIn := 0, nRemOut := 0, wA := 0, lA := 0, wB := 0, lB := 0 }

def pat : Pattern :=
  { hdr := hdr0
    insts := [
      { id := 10, block := .estop 0 500, zone := 0, group := 0, nIn := 2, nOut := 2, ins := [], outs := [0, 1] },
      { id := 11, block := .zone 0 0 0 1, zone := 0, group := 0, nIn := 1, nOut := 1, ins := [], outs := [2] },
      { id := 12, block := .stdin 3 0 0 10 0, zone := 255, group := 0, nIn := 0, nOut := 1, ins := [], outs := [3] },
      { id := 13, block := .connIn connP, zone := 0, group := 0, nIn := 0, nOut := 1, ins := [], outs := [4] },
      { id := 14, block := .ton 1000, zone := 0, group := 0, nIn := 1, nOut := 1, ins := [], outs := [5] }]
    vars := [], groups := [(1, 0)]
    zones := [{ zone := 0, seat := 0, startMode := 0, remoteRst := 1, inst := 11, latch := 0 }]
    map := { tpPeriod := 0, opPeriod := 0, vfldMax := [] }
    chans := [{ ChanRec.unused 5 with mode := 1, kind := 3, ossdTmax := 100 }]
    srcs := [{ s := 0, chan := 4, width := 500, phase := 0 }], axes := []
    conns := [{ kind := 0, ports := 3, connId := 7, inst := 13, vid := 100, pcp := 0, len := 4, slots := 0, kfPhase := 0, key := 1, dst := 0 }]
    fwds := [], gates := [{ port := 1, mask := 255, dur := 1000 }], reins := [], sig32 := 0x01020304, sig64 := 0, encA := enc0, encB := enc0 }

/-- `live m` with the active Pattern `pat`. -/
def running (m : Mode) : State := { live m with pat := { PatStore.init with active := some pat, state := 3 } }

/-- Both dies in the given phase. -/
def inPhase (s : State) (p : Phase) : State :=
  { s with a := { s.a with tb := { s.a.tb with phase := p } }, b := { s.b with tb := { s.b.tb with phase := p } } }

theorem test_live_is_shipped : (live .run).otp.lc = 2 ∧ (live .run).pfw = false ∧ (live .run).ticking .a = true ∧ (live .run).ticking .b = true := by decide

/-! ## Hypotheses that a state meets -/

/-- QueueBelongsToTheSender, ProgrammedOtpWordsArePermanent, ChangeLogOnlyGrows, MemoriesStayCanonical: a step that answers. -/
theorem test_met_step : (∃ t, exec .bootRetry (live .boot) = .next t)
    ∧ (∃ t, step ((live .run).front (.tick ⟨.a, 250000⟩)) = .next t) ∧ ((live .run).front (.tick ⟨.a, 250000⟩)).canonical
    ∧ (live .run).otp.word 2 ≠ .blank :=
  ⟨⟨_, rfl⟩, ⟨_, rfl⟩, by simp only [State.canonical]; decide, by decide⟩

theorem test_met_EmptyQueueIsOneCycle : State.reset.pending = [] ∧ State.reset.modes.mode = .shelf
    ∧ (live .run).pending = [] ∧ (live .run).modes.mode ≠ .shelf ∧ (∀ k, ((live .run).timer k).ring = false) ∧ (live .run).otp.todo = [] :=
  ⟨rfl, rfl, rfl, by decide, fun _ => rfl, rfl⟩

theorem test_met_EntriesResetToTheirDefaults : (1 < 256 ∧ 255 < 256) ∧ ((live .run).setReg 0x2001 0 5).reg 0x2001 0 = 5
    ∧ ((live .run).setReg 0x2001 0 5).reg 0x2002 0 = 0 := by decide

theorem test_met_LatchedFaultBitsStay : (∀ seat mask, Instr.faultLatch 5 ≠ .fswClr seat mask) ∧ Instr.faultLatch 5 ≠ .writeApply
    ∧ Instr.faultLatch 5 ≠ .powerDownStep ∧ (∃ t, exec (.faultLatch 5) (live .run) = .next t) ∧ (live .run).flt.fsw &&& reservedBits = 0 :=
  ⟨by simp, by decide, by decide, ⟨_, rfl⟩, by decide⟩

theorem test_met_MemoryReadsWhatWasWritten : Mem.wf [] = true ∧ Mem.wf [(0, 1#8), (5, 2#8)] = true ∧ Journal.init.mem.wf = true
    ∧ (3 : Nat) ≠ 4 ∧ 1 < [1#8, 2#8].length ∧ (9 < 10 ∨ 10 + 2 ≤ 9) := by decide

/-- A reserved position, LANE_ERR, F_COMMON of F-die 0, and a bit that an open shadow diverts. -/
theorem test_met_FaultLatchSetsItsBit : State.reset.modes.mode = .shelf ∧ fswPresent 884 43 = false
    ∧ (live .run).modes.mode ≠ .shelf ∧ fswPresent (live .run).order 0 = true ∧ (live .run).diverted 0 = false
    ∧ fswPresent (live .run).order 48 = true ∧ (live .run).diverted 48 = false ∧ bitAt ((live .run).fdie 0).causes 4 = false
    ∧ (0 : Nat) ∉ [2, 18, 6, 22, 8, 24, 11, 27, 12, 28, 44, 45, 46, 47, 48, 49, 50, 51, 52]
    ∧ { live .run with flt := { (live .run).flt with shadows := [{ blk := .lDie .a, mask := 1, complete := false }] } }.diverted 0 = true := by decide

/-- One bit of each class. -/
theorem test_met_ReactionFollowsTheClass : (live .run).cls 0 = 1 ∧ (live .run).cls 15 = 2 ∧ (live .run).cls 5 = 3 ∧ (live .run).cls 57 = 4
    ∧ ∀ b ∈ [0, 15, 5, 57], (live .run).modes.mode ≠ .shelf ∧ fswPresent (live .run).order b = true
    ∧ (live .run).fswBit b = false ∧ (live .run).diverted b = false
    ∧ b ∉ [2, 18, 6, 22, 8, 24, 11, 27, 12, 28, 44, 45, 46, 47, 48, 49, 50, 51, 52] := by decide

def withShadow (s : State) (x : Shadow) : State := { s with flt := { s.flt with shadows := [x] } }

def seatNone (s : State) : State := s.setReg 0x1010 0 7

def latched (s : State) (f : BitVec 64) : State := { s with flt := { s.flt with f1 := f, f2 := f } }

theorem test_met_ClearsFollowRightsAndCauses : (State.reset.modes.mode = .shelf ∧ (live .boot).modes.mode = .boot)
    ∧ (live .safe).modes.mode ≠ .shelf ∧ (live .safe).serves = true ∧ (seatNone (live .safe)).serves = true
    ∧ (bitAt 8 3 = true ∧ ¬ ((seatNone (live .safe)).cls 3 ≤ 1 ∨ (seatNone (live .safe)).owner 0 = true
        ∨ ((seatNone (live .safe)).cls 3 = 2 ∧ ∀ z ∈ (seatNone (live .safe)).zonesOfBit 3, (seatNone (live .safe)).ownsZone 0 z = true)))
    ∧ (∀ b, b < 64 → bitAt (2 ^ 64 - 1) b = true → (live .safe).cls b ≤ 1 ∨ (live .safe).owner 0 = true)
    ∧ 2 ^ 64 - 1 < 2 ^ 64 := by decide

/-- The shadow of an L-die's FLD port: complete with nothing standing, complete with bit 6 standing, not complete. -/
theorem test_met_ShadowEndReleasesItsDependants : let m : BitVec 64 := 0x40
    let s := withShadow (live .run) { blk := .fldPort .a, mask := m, complete := true }
    let t := { s with flt := { s.flt with cause := m } }
    let u := withShadow (live .run) { blk := .stitch, mask := m, complete := false }
    (s.flt.shadows.map (·.complete) = [true] ∧ ∀ b, b < 64 → m.getLsbD b = true → s.flt.cause.getLsbD b = true → s.fswBit b = true)
    ∧ (t.flt.shadows.map (·.complete) = [true] ∧ (6 : Nat) ≠ 57 ∧ fswPresent t.order 6 = true ∧ m.getLsbD 6 = true ∧ t.flt.cause.getLsbD 6 = true
        ∧ t.fswBit 6 = false ∧ ∀ c, c < 64 → c ≠ 6 → m.getLsbD c = true → t.flt.cause.getLsbD c = true → t.fswBit c = true)
    ∧ (u.flt.shadows.map (·.complete) = [false] ∧ blkBit .stitch = some 52 ∧ fswPresent u.order 52 = true
        ∧ ∀ c, c < 64 → m.getLsbD c = true → u.flt.cause.getLsbD c = true → u.fswBit c = true) := by decide

/-- A lease of a party, held since time 0. -/
def heldBy (p : Nat) (q : List Nat) : Lease := { holder := some p, queue := q, since := 0, rel := none }

def at_ (s : State) (n : Nat) : State := { s with time := n }

/-- Free and held resources, a renewal within and at 8 µs, a release, expiries before and at 8 µs without and with a transaction (a CRC
channel that runs), and a release in the cycle of the expiry. -/
theorem test_met_LeasesPassInOrder : let s := live .run; let t := s.setLease 6 (heldBy 0 [1]); let u := s.setLease 6 (heldBy 0 [])
    let w := { s.setLease 5 (heldBy 0 []) with crc := [(0, { CrcCh.init with busy := true })] }
    (6 < 7 ∧ 1 < leaseParties 6 ∧ (s.lease 6).holder ≠ some 1 ∧ (s.lease 6).queue.contains 1 = false ∧ (s.lease 6).holder = none)
    ∧ ((t.lease 6).holder = some 0 ∧ (t.lease 6).holder ≠ some 2 ∧ (t.lease 6).queue.contains 2 = false ∧ (t.lease 6).queue ≠ [])
    ∧ ((u.lease 6).holder = some 0 ∧ (u.lease 6).queue = [] ∧ u.time < (u.lease 6).since + 64 ∧ u.leaseOut 6 0 = false ∧ (u.lease 6).rel = none)
    ∧ ((s.setLease 3 (heldBy 0 [1])).leaseOut 3 0 = false ∧ (3 : Nat) ≤ 3) ∧ (s.otp.todo = [] ∧ (s.setLease 4 (heldBy 0 [])).leaseOut 4 0 = false)
    ∧ ((at_ u 64).lease 6).since + 64 ≤ (at_ u 64).time ∧ ¬ (at_ u 63).time ≥ ((at_ u 63).lease 6).since + 64
    ∧ ((at_ w 64).leaseOut 5 0 = true ∧ (at_ w 64).diverted 58 = false ∧ ((at_ w 64).lease 5).rel = none)
    ∧ ((at_ (s.setLease 6 { Lease.init with rel := some (0, 0, 64) }) 64).lease 6).rel = some (0, 0, 64) := by decide

theorem test_met_LeaseExpire (h : (live .run).free.1 % 2 = 0) : ((live .run).setLease 3 (heldBy 0 [])).free.1 % 2 = 0 := h

def withDie (s : State) (d st step : Nat) : State :=
  { s with flt := { s.flt with die := [(d, st)], rdA := { Readm.init with step := step }, rdB := { Readm.init with step := step } } }

theorem test_met_ReadmissionAndGirthWatchdog : let s := live .run
    ((withDie s 0 1 1).dieSt 0 = 1 ∧ ((withDie s 0 1 1).flt.rd .a).step = 1) ∧ ((withDie s 1 1 1).dieSt 1 = 1 ∧ ((withDie s 1 1 1).flt.rd .b).step = 1)
    ∧ ((withDie s 0 2 2).dieSt 0 = 2 ∧ ((withDie s 0 2 2).flt.rd .a).step = 2) ∧ (withDie s 2 1 0).dieSt 2 = 1 ∧ (withDie s 0 1 1).dead .a = false ∧ (withDie s 1 1 1).dead .b = false
    ∧ { s.flt with girthA := some 5 }.girth .a = some 5 ∧ s.girthOn .a = true ∧ s.girthOn .b = true ∧ s.flt.shadows = []
    ∧ s.girthWant .a 5 ≠ s.girthWant .b 5 := by decide

theorem test_met_RemoteResetsAndStdinValues : let s := running .run
    s.serves = true ∧ s.modes.act = none ∧ (s.zoneRec 0).isSome = true ∧ (s.zoneRec 0).map (·.remoteRst) = some 1 ∧ (s.zoneRec 0).map (·.seat) = some 0
    ∧ s.lockCnt 0 = 0 ∧ s.pattern = some pat ∧ Pattern.stdinOf pat 3 = some (0, .bool) ∧ inContainer .bool 1 = some 1 ∧ inContainer .bool 2 = none := by decide

theorem test_met_SupplyStartsBoot : let s := State.reset; let t := { s with pow := { s.pow with resetLow := true, vinMv := 19200 } }
    (s.modes.mode = .shelf ∧ s.pow.resetLow = false ∧ 19200 ≤ 19200) ∧ (t.pow.resetLow = true ∧ 19200 = t.pow.vinMv ∧ 0 = t.pow.strapMv)
    ∧ s.pow.vinMv < 19200 ∧ (live .run).modes.mode ≠ .shelf ∧ (live .run).pow.off = false ∧ (live .run).flt.shadows = [] ∧ (live .run).upd.state < 4 := by decide

def booting (k : Nat) : State := { live .boot with pow := { (live .boot).pow with bootStep := k } }

/-- Steps 1 to 10; the sources passed for step 4, the Stitch lanes trained for step 6. -/
theorem test_met_BootRunsItsSteps : (∀ k ∈ [1, 2, 3, 4, 5, 6, 7, 8, 9, 10], (booting k).modes.mode = .boot ∧ (booting k).pow.bootStep = k ∧ (booting k).pow.retry = false
      ∧ (booting k).pow.held = false ∧ (booting k).pow.off = false ∧ (booting k).modes.wait = none ∧ (booting k).otp.op = none ∧ (booting k).lcFinish = false
      ∧ (booting k).a.link.lanes % 16 = 15 ∧ (booting k).b.link.lanes % 16 = 15 ∧ (booting k).keys.eraPend = none ∧ (booting k).flt.shadows = [])
    ∧ ((({ booting 4 with clk := { (booting 4).clk with refA := ⟨.passed, 0⟩, refB := ⟨.passed, 0⟩ } } : State)).clk.refA.st = .passed)
    ∧ ({ booting 5 with pow := { (booting 5).pow with retry := true } } : State).pow.retry = true ∧ (booting 5).pow.fails < 2
    ∧ 2 ≤ ({ booting 5 with pow := { (booting 5).pow with fails := 2 } } : State).pow.fails := by decide

def pfwOn (s : State) : State := { s with pow := { s.pow with rails := 0x80 } }

/-- A power-fail record. -/
def pf0 : PfRec := { span := 1, rtc := 2, fsw := 0, sec := 0, jrn := [] }

theorem test_met_PowerFailIsLatchedAndRecorded : ((live .run).modes.mode ≠ .shelf ∧ (live .run).pfw = false ∧ 17899 < 17900 ∧ (live .run).diverted 41 = false)
    ∧ (pfwOn (live .run)).pfw = true ∧ (live .run).pow.pfA ≠ .writing pf0 ∧ 17600 ≤ 17600 ∧ 17599 < 17600
    ∧ ({ live .run with pow := { (live .run).pow with pfA := .writing pf0, pfB := .writing pf0 } } : State).pow.pfA = .writing pf0 := by decide

theorem test_met_ModeChangesOnlyAtModeEvents : (Instr.tick ⟨.a, 250000⟩).movesMode = false ∧ ∃ t, exec (.tick ⟨.a, 250000⟩) (live .run) = .next t := ⟨rfl, _, rfl⟩

theorem test_met_StoresChangeOnlyByTheirCommands : Instr.tick ⟨.a, 250000⟩ ≠ .powerDownStart ∧ Instr.tick ⟨.a, 250000⟩ ≠ .powerDownStep ∧ Instr.tick ⟨.a, 250000⟩ ≠ .persistentWriteCommit
    ∧ (Instr.tick ⟨.a, 250000⟩).movesPattern = false ∧ (Instr.tick ⟨.a, 250000⟩).movesKeys = false ∧ ∃ t, exec (.tick ⟨.a, 250000⟩) (live .run) = .next t :=
  ⟨by decide, by decide, by decide, rfl, rfl, _, rfl⟩

def going (k : Nat) : State := { live .safe with pow := { (live .safe).pow with off := true, down := k } }

theorem test_met_PowerDownFollowsItsSteps : ((live .safe).modes.mode ≠ .shelf ∧ (live .safe).pow.off = false ∧ 15299 < 15300 ∧ (live .safe).upd.state < 4)
    ∧ (∀ k ∈ [0, 1, 2, 3, 4, 5, 6], (going k).modes.mode ≠ .shelf ∧ (going k).pow.off = true ∧ (going k).pow.down = k) := by decide

theorem test_met_RequestsAreCheckedInOrder : (∀ m ∈ [Mode.configure, .run, .safe, .service], (live m).serves = true ∧ (live m).modes.req = none ∧ (live m).modes.wait = none
      ∧ (live m).modes.mode = m ∧ (live m).modes.act = none ∧ (live m).owner 0 = true ∧ (live m).owner 1 = false ∧ (live m).has 1 2 = false)
    ∧ ((live .run).setReg 0x1101 1 4).owner 1 = false ∧ ((live .run).setReg 0x1101 1 4).has 1 2 = true
    ∧ ({ live .service with modes := { (live .service).modes with act := some .run } } : State).modes.act.isSome = true
    ∧ ({ live .safe with modes := { (live .safe).modes with req := some (2, 0) } } : State).modes.req.isSome = true := by decide

def wants (m : Mode) (code : Nat) : State := { live m with modes := { (live m).modes with req := some (code, 0) } }

def waits (m : Mode) (service : Bool) : State :=
  { running m with modes := { (running m).modes with wait := some { aligned := 8, eighthNs := some 0, since := 0, service := service, ovrTol := 0 }, tbMode := 1 }
                   a := { (live m).a with tb := { (live m).a.tb with tickNs := 2000000 } } }

/-- The Pattern of these states is empty, so it passes R69 and has every zone locked. -/
def patE : Pattern := { pat with hdr := { hdr0 with nInst := 0, nGroup := 0, nZone := 0, nConnIn := 0 }, insts := [], groups := [], zones := [], conns := [], gates := [] }

theorem test_met_TransitionsFollowTheModeTable : (live .safe).modes.req = none
    ∧ (∀ code ∈ [2, 3, 4], (wants .run code).modes.req = some (code, 0) ∧ (wants .run code).modes.stopping = false ∧ (wants .run code).modes.mode ≠ .configure
        ∧ (wants .run code).pow.scan = false)
    ∧ ({ wants .safe 3 with pat := { PatStore.init with active := some patE, state := 3 } } : State).runWhy = 0 ∧ (wants .safe 3).runWhy = 1
    ∧ ({ wants .safe 3 with pow := { (live .safe).pow with scan := true } } : State).pow.scan = true
    ∧ (waits .safe false).modes.wait.isSome = true ∧ ((waits .safe false).modes.wait.map (waits .safe false).waitOver) = some true
    ∧ ((waits .boot true).modes.wait.map (·.service)) = some true ∧ (waits .boot true).modes.mode = .boot
    ∧ (({ waits .safe false with modes := { (waits .safe false).modes with tbMode := 0 } } : State).modes.wait.map
        ({ waits .safe false with modes := { (waits .safe false).modes with tbMode := 0 } } : State).waitOver) = some false
    ∧ ({ live .run with flt := { (live .run).flt with c3 := .safe } } : State).flt.c3 = .safe ∧ (live .run).flt.c3 ≠ .safe := by decide

theorem test_met_SafeEntryAfterStop :
    let s : State := { live .run with modes := { (live .run).modes with stopping := true }, pat := { PatStore.init with active := some patE, state := 3 } }
    s.modes.stopping = true ∧ s.modes.mode = .run ∧ s.pattern = some patE ∧ (∀ d ∈ [Die.a, .b], (s.die d).eng.com.allLocked patE d = true)
    ∧ ({ s with modes := { s.modes with pwrReq := some .sleep } } : State).modes.pwrReq = some .sleep ∧ Pwr.sleep ≠ .deepSleep ∧ s.modes.pwr ≠ .deepSleep := by decide

def updA (s : State) (f : LDie → LDie) : State := { s with a := f s.a }

def allFree : State := updA (live .run) fun l => { l with eng := { l.eng with lanes := [(3, .busy 1), (16, .spare)], active := true } }

/-- `patE` running on both dies, at the end of phase E. -/
def evalE : State := inPhase { live .run with pat := { PatStore.init with active := some patE, state := 3 } } .e

theorem test_met_SpanRunsItsPhases : (State.reset.ticking .a = false ∧ (live .run).a.tb.phase ≠ .a ∧ (live .run).a.tb.phase ≠ .e)
    ∧ (allFree.ticking .a = true ∧ ∀ k, k < 8 → (allFree.timer (8 * 0 + k)).en = false ∨ (allFree.timer (8 * 0 + k)).src = false)
    ∧ (allFree.a.tb.steer = false ∨ 20000 * ((allFree.a.tb.tspan : Int) - allFree.a.tb.tspan).natAbs ≤ allFree.a.tb.tspan)
    ∧ (∀ n, n < 5 → (live .run).reg (0x4400 + n) 1 = 0)
    ∧ ((inPhase (live .run) .a).a.tb.phase = .a ∧ (inPhase (live .run) .a).pattern = none
        ∧ ∀ f ∈ (updA (inPhase (live .run) .a) fun l => { l with cur := { l.cur with images := 15 } }).fdies,
          bitAt (updA (inPhase (live .run) .a) fun l => { l with cur := { l.cur with images := 15 } }).a.cur.images f = true)
    ∧ (evalE.ticking .a = true ∧ evalE.a.tb.phase = .e ∧ evalE.pattern = some patE ∧ evalE.evals .a = true ∧ evalE.a.eng.complete patE = true)
    ∧ ((inPhase (running .run) .e).evals .a = true ∧ (inPhase (running .run) .e).a.eng.complete pat = false) := by decide

theorem test_lanes_of_allFree : ∀ x ∈ (allFree.die .a).eng.lanes, x.2 = .free ∨ x.2 = .spare ∨ ∃ i, x.2 = .busy i := by
  simp [allFree, updA, State.die, live, State.reset]

/-- Lane 3 runs the job of position 1, the ZONE of `pat`. -/
def jobRuns : State :=
  updA (running .run) fun l => { l with eng := { l.eng with lanes := [(3, .busy 0), (16, .spare)], active := true } }

def differs : State :=
  updA evalE fun l => { l with cmp := { l.cmp with own := [.fdie 2 1 0], peer := [.fdie 2 0 0] } }

/-- Both READYs of `evalE` are exchanged. -/
def agreeE : State := updA evalE fun l => { l with cmp := { l.cmp with readySent := true, readyRx := true } }

theorem test_met_DisagreementCommitsNothing : ((live .run).pattern = none ∧ (running .run).a.eng.active = false
      ∧ Tab.get LaneSt.free jobRuns.a.eng.lanes 4 = .free)
    ∧ (jobRuns.pattern = some pat ∧ jobRuns.a.eng.active = true ∧ Tab.get LaneSt.free jobRuns.a.eng.lanes 3 = .busy 0 ∧ jobRuns.clk.swA.other = false
        ∧ jobRuns.clk.swB.other = false ∧ (0 : Nat) ∉ jobRuns.a.eng.errs ∧ jobRuns.flt.shadows = [])
    ∧ (live .run).a.tb.phase ∉ [Phase.e, .el, .c]
    ∧ (differs.ticking .a = true ∧ differs.a.tb.phase ∈ [Phase.e, .el, .c] ∧ differs.pattern = some patE ∧ differs.evals .a = true
        ∧ differs.upd.reboot = none ∧ differs.a.eng.complete patE = true ∧ differs.a.eng.active = false ∧ differs.a.cmp.open_ = []
        ∧ differs.a.cmp.diffs ≠ [] ∧ (∀ r ∈ differs.a.cmp.diffs, r.key.1 ≠ 0) ∧ differs.dueLocks .a = [])
    ∧ (agreeE.ticking .a = true ∧ agreeE.a.tb.phase ∈ [Phase.e, .el, .c] ∧ agreeE.pattern = some patE ∧ agreeE.evals .a = true
        ∧ agreeE.upd.reboot = none ∧ agreeE.a.eng.complete patE = true ∧ agreeE.a.eng.active = false ∧ agreeE.a.cmp.open_ = []
        ∧ agreeE.a.cmp.diffs = [] ∧ agreeE.a.cmp.readySent = true ∧ agreeE.a.cmp.readyRx = true ∧ agreeE.dueLocks .a = [])
    ∧ (live .run).a.cmp.stage = .none
    ∧ (updA (inPhase evalE .s) fun l => { l with cmp := { l.cmp with stage := .full } }).a.cmp.stage ≠ .none
    ∧ (inPhase evalE .s).a.tb.phase = .s := by decide

theorem test_met_job_of_jobRuns : (runJob (jobRuns.env .a) pat 0).isSome = true := by decide

/-- Phase A of both dies with the snapshot open; the peer's next flit has SEQ 0. -/
def inA : State := inPhase (live .run) .a

/-- The link fields of a flit of SEQ 0 that carries `r`, its CRC set. -/
def hdrOf (r : FlitRec) (span : Nat) : FlitHdr :=
  { hdr with span := span, crc := crc32c (flitBytes { hdr with span := span } r) }

theorem test_met_FlitsAreTakenInOrderOnly : State.reset.linkUp .a = false ∧ inA.linkUp .a = true ∧ inA.linkUp .b = true
    ∧ (inA.heldBack .a flitReady = false ∧ inA.flitOk .a hdr flitReady = false ∧ flitCrcOk hdr flitReady = false)
    ∧ (inA.flitOk .a { hdr with seq := 1, crc := crc32c (flitBytes { hdr with seq := 1 } flitReady) } flitReady = false
        ∧ flitCrcOk { hdr with seq := 1, crc := crc32c (flitBytes { hdr with seq := 1 } flitReady) } flitReady = true) := by decide

theorem test_met_flits_in_order : ∀ r ∈ [flitReady, flitTick 1000 1, flitTick 1001 0, flitIn 0 1 [2], flitOut 0 [3], flitPos 0 [⟨7, 1⟩],
      CmpFlit.flit 2 (.group 1 0)], inA.flitOk .a (hdrOf r 0) r = true ∧ inA.flitOk .b (hdrOf r 1) r = true := by decide

theorem test_met_flit_spans : inA.a.tb.spanNo % 256 = 0 ∧ inA.a.tb.spanNo % 256 ≠ 1 ∧ inA.a.tb.phase = .a ∧ inA.a.cur.frozen = false
    ∧ (1 ≠ inA.a.tb.lastCommit ∧ ((1000 : Int) - inA.a.tb.ts).natAbs ≤ 1000 ∧ 1000 < ((1001 : Int) - inA.a.tb.ts).natAbs ∧ inA.flt.shadows = [])
    ∧ (inA.ptActs 2 = false ∧ (inA.a.cmp.join (.group 1 0)).2 = some (.group 1 0) ∧ (∀ x ∈ inA.a.cmp.peer, x.key ≠ (CmpRec.group 1 0).key)
        ∧ inA.a.cmp.stage = .none) := by decide

def retries (l : List TxFlit) : State := updA (live .run) fun d => { d with link := { d.link with retry := l } }

/-- The connection of `pat`, a first part of a full copy, the last part of one, and a digest. -/
theorem test_met_pairing_records : ∀ r ∈ [PairRec.full 7 pl20, .digest 8 0 0 0 0 0], inA.flitOk .a (hdrOf (PairRec.flit r) 0) (PairRec.flit r) = true := by
  decide

theorem test_met_pairing_joins : let s := running .run; let c := InConn.init; let d := { c with part := List.replicate 80 (0 : Byte) }
    let x : PeerCopy := { span := 0, boot := 0, epoch := 1, seq := 1, len := 4, crc := 0, body := none }
    (s.pattern.bind fun p => p.connPos true 7) = some 3 ∧ (s.pattern.bind fun p => p.connPos true 8) = none
    ∧ (c.join 0 (.full 7 pl20)).2 = none ∧ (d.join 0 (.full 7 (List.replicate 20 4))).2.isSome = true
    ∧ (c.join 0 (.digest 7 1 1 0 4 0)).2 = some x
    ∧ (∃ y ∈ ({ c with peer := [x] }.join 0 (.digest 7 1 1 0 4 0)).1.peer, y.span = x.span ∧ x.tuple ≤ y.tuple)
    ∧ ∀ y ∈ (c.join 0 (.digest 7 1 1 0 4 0)).1.peer, y.span = x.span → ¬ x.tuple ≤ y.tuple := by decide

def staged (g : Stage) : State := updA (inPhase evalE .s) fun l => { l with cmp := { l.cmp with stage := g } }

theorem test_met_records_of_stages : (∀ r ∈ [flitLoc 0 pl20, CmpFlit.flit 3 (.group 1 0), CmpFlit.flit 3 (.part 7 pl20), flitOf 4 1 3, flitOf 4 2 3, flitOf 3 5 0],
      (staged .local).flitOk .a (hdrOf r 0) r = true ∧ (staged .full).flitOk .a (hdrOf r 1) r = true)
    ∧ ((staged .local).a.tb.spanNo % 256 = 0 ∧ (staged .local).pattern = some patE ∧ (staged .local).a.cmp.stage = .local ∧ (staged .full).a.cmp.stage = .full)
    ∧ (inA.a.cmp.stage ≠ .full ∧ inA.a.cmp.stage ≠ .eval ∧ inA.a.cmp.stage ≠ .recompare ∧ inA.a.cmp.stage ≠ .local)
    ∧ ((inA.a.cmp.join (.part 7 pl20)).2 = none ∧ (inA.a.cmp.join (.group 1 0)).2 = some (.group 1 0))
    ∧ ((∃ j < (10 + 2 * inA.a.cmp.ownWords.length + 19) / 20, (Tab.get [] (Tab.set [] inA.a.cmp.locs 1 pl20) j).length ≠ 20)
        ∧ ∀ j < (10 + 2 * inA.a.cmp.ownWords.length + 19) / 20, (Tab.get [] (Tab.set [] inA.a.cmp.locs 0 pl20) j).length = 20) := by decide

def respB : RespTo := { die := .b, dst := ⟨0, 0, 0⟩, seat := 0, op := 2, reqId := 1, token := 0, crc := 0, pay := [] }

/-- A write at L-B that waits for L-A's acknowledgement, and a read that L-A has forwarded. -/
def waiting : State :=
  { inA with br := { inA.br with
    writes := [{ id := 3, recv := 0, acked := false, apply := 2, pass := false, items := [], resp := respB }]
    fwds := [{ id := 3, die := .a, op := 1, f := frm }] } }

theorem test_met_forwarded : (waiting.br.writes.find? fun w => w.id == 3 && w.resp.die == Die.a.peer).isSome = true
    ∧ (waiting.br.fwds.find? fun w => w.id == 3 && w.die == .a).isSome = true ∧ waiting.flitOk .a (hdrOf (flitOf 4 1 3) 0) (flitOf 4 1 3) = true
    ∧ waiting.flitOk .a (hdrOf (flitOf 4 2 3) 0) (flitOf 4 2 3) = true := by decide

theorem test_met_StitchRecordsAndErrors : (∀ w ∈ inA.br.writes, w.id = 3 → w.resp.die ≠ Die.a.peer) ∧ (∀ w ∈ inA.br.fwds, w.id = 3 → w.die ≠ .a)
    ∧ ((withDie inA 0 2 3).dieSt 0 = 2 ∧ ((withDie inA 0 2 3).flt.rd .a).step = 3 ∧ (withDie inA 0 2 3).flitOk .a (hdrOf (flitOf 3 5 0) 0) (flitOf 3 5 0) = true)
    ∧ (State.reset.ticking .a = false ∧ (live .run).a.link.retry = [] ∧ (live .run).a.link.retrain = false ∧ (live .run).b.link.retrain = false)
    ∧ ((retries [⟨0, 0, 1, 1⟩]).a.link.retrain = false ∧ (retries [⟨0, 0, 1, 1⟩]).a.link.retry ≠ [] ∧ (retries [⟨0, 0, 1, 1⟩]).a.link.retry.length < 64
        ∧ (retries [⟨0, 0, 1, 1⟩]).a.link.worn = false)
    ∧ ((retries [⟨0, 0, 1, 3⟩]).a.link.worn = true ∧ (retries [⟨0, 0, 1, 3⟩]).a.link.retry ≠ []
        ∧ 64 ≤ (retries (List.replicate 64 ⟨0, 0, 1, 1⟩)).a.link.retry.length ∧ (live .run).flt.shadows = [])
    ∧ ((retries [⟨1, 0, 1, 1⟩]).linkUp .b = true
        ∧ ((retries [⟨1, 0, 1, 1⟩]).a.link.sent (((retries [⟨1, 0, 1, 1⟩]).b.link.rxSeq + 1) % 4096) 255 0).worn = false
        ∧ ((retries [⟨1, 0, 1, 3⟩]).a.link.sent (((retries [⟨1, 0, 1, 3⟩]).b.link.rxSeq + 1) % 4096) 255 0).worn = true)
    ∧ (updA (live .run) fun d => { d with link := { d.link with retrain := true } }).a.link.retrain = true := by decide

def rebooting (s : State) : State := { s with upd := { s.upd with reboot := some .a, booted := true } }

theorem test_met_reboot : (rebooting inA).upd.reboot = some .a ∧ (rebooting inA).upd.booted = true ∧ (rebooting inA).upd.rejoined = false
    ∧ ¬ ((rebooting inA).dieSt 0 = 2 ∧ ((rebooting inA).flt.rd .a).step = 3)
    ∧ (rebooting inA).handOk .a = true ∧ (rebooting (running .run)).handOk .a = false
    ∧ (rebooting inA).flitOk .a (hdrOf (flitOf 3 5 0) 0) (flitOf 3 5 0) = true
    ∧ (rebooting (running .run)).flitOk .a (hdrOf (flitOf 3 5 0) 0) (flitOf 3 5 0) = true := by decide

def synced (locked : Bool) (n : Nat) : State :=
  updA (live .run) fun d => { d with
    net := { d.net with p0 := { d.net.p0 with link := true, asCapable := true, slave := true } }
    tb := { d.tb with locked := locked, ever := true, syncs := n } }

theorem test_met_TimeSyncFollowsItsMessages : ((live .run).a.net.port 0).link = false
    ∧ (∀ s ∈ [synced true 16, synced false 3, synced false 15], s.ticking .a = true ∧ s.a.net.macReset = false ∧ (s.a.net.port 0).link = true
        ∧ (s.a.net.port 0).slave = true ∧ (s.a.net.port 0).asCapable = true)
    ∧ ((synced true 16).a.tb.locked = true ∧ 1000 < (1001 : Int).natAbs ∧ (-1000 : Int).natAbs ≤ 1000)
    ∧ (synced false 3).a.tb.syncs < 15
    ∧ (∃ x ∈ ((synced false 15).a.tb.offs ++ [(101 : Int)]).drop ((synced false 15).a.tb.offs.length + 1 - 8), 100 < x.natAbs)
    ∧ ((synced false 15).a.tb.locked = false ∧ 15 ≤ (synced false 15).a.tb.syncs
        ∧ ∀ x ∈ ((synced false 15).a.tb.offs ++ [(100 : Int)]).drop ((synced false 15).a.tb.offs.length + 1 - 8), x.natAbs ≤ 100)
    ∧ ((live .run).holdover = false ∧ (synced false 15).holdover = true ∧ (live .run).flt.shadows = [])
    ∧ (0 = (live .run).reg 0x7003 1 ∧ 1 ≠ (live .run).reg 0x7003 1)
    ∧ ((running .run).pattern = some pat ∧ (pat.gates.filter fun g => g.port == portSub .a 0) ≠ [] ∧ ∀ g ∈ pat.gates, g.port ≠ portSub .b 0) := by decide

theorem test_met_ConfigurationWritesAreChecked : let s := live .configure; let t := (live .configure).updSeat 0 fun y => { y with pass := true }
    s.serves = true ∧ (pfwOn s).pfw = true ∧ (s.pfw = false ∧ s.restricts 41 = false ∧ s.modes.act = none)
    ∧ (s.owner 1 = false ∧ s.owner 0 = true ∧ s.spanKOk 7 = true ∧ s.spanKOk 8 = false ∧ 0 < tspanNs (s.reg 0x2001 0) ∧ ¬ 250000 < tspanNs (s.reg 0x2001 0))
    ∧ (t.owner 0 && (t.br.seat 0).pass) = true ∧ (live .run).modes.mode ≠ .configure
    ∧ ({ s with pat := { PatStore.init with active := some pat, state := 3 } } : State).nextPattern = some pat
    ∧ capsOk 884 3 { hdr0 with nZone := 65 } = false
    ∧ (7 < 8 ∧ tspanNs 0 ≤ (s.setReg 0x2002 0 (tspanNs 0)).reg 0x2002 0)
    ∧ (256 ≤ 256 ∧ (17 : Fin 18).val + 1 = 18 ∧ bitAt (s.reg 0x2013 1) 3 = true ∧ 0 % 8 ≠ s.reg 0x2013 1 % 8)
    ∧ clkFixed 1 (s.reg 0x2013 1) 7 = false ∧ (1 ≤ s.reg 0x2016 2 ∧ s.reg 0x2016 2 ≤ 4096 ∧ domainKHz 18 ≤ 100000 * s.reg 0x2016 2)
    ∧ (s.reg 0x2016 1 ≤ 18 ∧ domainKHz (s.reg 0x2016 1) ≤ 100000 * 4096) ∧ (1 : Fin 8) ≠ 0 := by decide

def chainIs (s : State) (n : Nat) (f : Filt) : State := updA s fun l => { l with chains := [(n, { Chain.init with f := f })] }

theorem test_met_FieldEventsStayOnTheirDie : (inA.ticking .a = true ∧ inA.a.tb.phase = .a ∧ inA.fOn 3 = true)
    ∧ (State.reset.chainOn .a 5 = false ∧ (live .run).chainOn .a 0 = true ∧ (live .run).chainOn .a 127 = true ∧ (live .run).chainOn .a 131 = true)
    ∧ ((chainIs (live .run) 5 { Filt.init with lock := true }).chainOn .a 5 = true
        ∧ ((chainIs (live .run) 5 { Filt.init with lock := true }).a.chain 5).f.lock = true
        ∧ ((chainIs (live .run) 5 { Filt.init with lock := true }).a.chain 5).f.pend = none)
    ∧ ((chainIs (live .run) 5 { Filt.init with deb := true }).a.chain 5).f.deb = true ∧ ((live .run).a.chain 5).f.deb = false
    ∧ ((chainIs (running .run) 5 { Filt.init with on := true }).chainOn .a 5 = true
        ∧ ((chainIs (running .run) 5 { Filt.init with on := true }).chanRec 5).chainKind = 3
        ∧ ((chainIs (running .run) 5 { Filt.init with on := true }).chanRec 5).ossdTmax ≠ 0
        ∧ ((chainIs (running .run) 5 { Filt.init with on := true }).a.chain 5).f.on = true) := by decide

/-- A command frame with KT_SEQ `q`, command word 1 and the CRC-16 of R193. -/
def cmdFr (q : Nat) : BitVec 128 :=
  let w : Nat := 2 ^ 80 + q * 2 ^ 32
  BitVec.ofNat 128 (w * 2 ^ 16 + crc16 (beBytes 14 w))

theorem test_met_TripLinesOpenTheirSwitches : let s := live .run
    (s.mayUntrip = false ∧ ({ live .safe with flt := { Faults.init with tripTicks := 2 } } : State).mayUntrip = true)
    ∧ (State.reset.fOn 0 = false ∧ s.fOn 0 = true)
    ∧ (frOk (cmdFr 1) = true ∧ frOk 1#128 = false ∧ frSeq (cmdFr 1) = 1 ∧ frCmd (cmdFr 1) = 1#32)
    ∧ (((s.fdie 0).port .a).seqOk (cmdFr 1) = true ∧ ((s.fdie 0).port .a).seqOk (cmdFr 2) = false)
    ∧ (((s.fdie 0).port .a).token = true ∧ (State.reset.fdie 0).a.token = false)
    ∧ s.mayHold .b = false ∧ s.b.hold.on = false ∧ s.upd.state < 4
    ∧ ({ s with modes := { s.modes with act := some .run }, upd := { s.upd with state := 4 } } : State).mayHold .b = true
    ∧ (updA s fun l => { l with hold := { on := true, since := 0 } }).a.hold.on = true := by decide

theorem test_met_FDieProtectionOnlyOpens : let s := live .run
    (s.fOn 0 = true ∧ 4400 < 4401 ∧ (s.fdie 0).low = false ∧ s.order ≠ 830 ∧ s.flt.shadows = [] ∧ ∀ i ∈ [0, 2, 3, 5], bitAt (s.fdie 0).causes i = false)
    ∧ State.reset.fOn 0 = false ∧ (16500 ≤ 16500 ∧ 17000 ≤ 17000 ∧ (s.fdie 0).gate = true)
    ∧ ((s.updF 0 fun x => { x with a := { x.a with closed := 1 } }).fdie 0).a.closed.getLsbD 0 = true ∧ ((s.fdie 0).port .a).closed.getLsbD 0 = false
    ∧ (running .run).pattern = some pat ∧ pat.src 0 = some { s := 0, chan := 4, width := 500, phase := 0 }
    ∧ (((running .run).updF 0 fun x => { x with modes := [(4, 4)], a := { x.a with closed := 0x10 } }).srcChan { s := 0, chan := 4, width := 500, phase := 0 }) = some 4
    ∧ (let t := s.updF 0 fun x => { x with modes := [(1, 3)], a := { x.a with opReq := 2, opRun := 2 } }
       t.fOn 0 = true ∧ ((t.fdie 0).port .a).opReq.getLsbD 1 = true ∧ Tab.get 0 (t.fdie 0).modes 1 = 3 ∧ ((t.fdie 0).port .a).opRun.getLsbD 1 = true)
    ∧ (let t := updA s fun l => { l with outs := [(1, { OutSup.init with cleanSince := some 0 })] }
       (t.a.outSup 1).cleanSince.isSome = true ∧ (t.cmdOn 1).2 = false ∧ (t.a.chain 1).img = false)
    ∧ ((s.a.outSup 1).cleanSince = none ∧ 4 < 5)
    ∧ (let t := s.updF 0 fun x => { x with a := { x.a with cfgOpen := true }, b := { x.b with cfgOpen := true } }
       0 ∈ t.fdies ∧ (t.fdie 0).powered = true ∧ (t.fdie 0).a.cfgOpen = true ∧ (t.fdie 0).b.cfgOpen = true) := by decide

def srcIs (st : StartSt) (n : Nat) : State :=
  { live .run with clk := { (live .run).clk with refA := ⟨st, n⟩, refB := ⟨st, n⟩, pmu := ⟨st, n⟩, mem := ⟨st, n⟩ } }

theorem test_met_ClockSourcesStartAndFail :
    (∀ st ∈ [StartSt.off, .starting, .valid, .released, .locked, .passed, .waiting], ∀ x ∈ [Src.refA, .refB, .pmu, .mem], ((srcIs st 2).clk.src x).st = st
        ∧ 2 ≤ ((srcIs st 2).clk.src x).fails ∧ ((srcIs st 0).clk.src x).fails < 2)
    ∧ (live .run).flt.diverts.getLsbD 55 = false ∧ (live .run).modes.mode ≠ .boot ∧ (live .run).modes.mode ≠ .shelf ∧ Pll.a ≠ .pmu
    ∧ (∀ n, n < 17 → (live .run).clk.armed.getLsbD n = true) ∧ State.reset.clk.armed.getLsbD 0 = false
    ∧ ((live .run).clk.sw .a).busy = none
    ∧ (({ live .run with clk := { (live .run).clk with swA := { other := false, busy := some true, wait := some false } } } : State).clk.sw .a).busy = some true := by decide

/-- A telegram of connection 7 with LEN 0, which fails check 1 of R279. -/
def tele : List Byte := beBytes 2 7 ++ List.replicate 44 0

def linked (s : State) : State := updA s fun d => { d with net := { d.net with p0 := { d.net.p0 with link := true }, p1 := { d.net.p1 with link := true } } }

/-- A frame to this die: broadcast, VID 100. -/
def ethIn : EthHdr := { eth with tag := some (0x8100, 0xC064) }

theorem test_met_NetworkFramesStayOnTheirNetwork : let s := linked (running .run)
    (((live .run).a.net.port 0).link = false ∧ State.reset.ticking .a = false)
    ∧ (s.ticking .a = true ∧ (s.a.net.port 0).link = true ∧ s.frameOk .a ethIn (ethIn.size tele.length) = true
        ∧ s.frameOk .a { ethIn with fcsOk := false } (ethIn.size tele.length) = false
        ∧ s.pattern = some pat ∧ (pat.inRec .a (tConn tele)).isSome = true ∧ (pat.inRec .a 8).isSome = false ∧ pat.connPos true (tConn tele) = some 3
        ∧ (pat.insts[3]?).map Inst.block = some (.connIn connP))
    ∧ ((s.setReg 0x7001 1 2).reg 0x7001 (portSub .a 0) = 2 ∧ s.reg 0x7001 (portSub .a 0) ≠ 2) := by decide

theorem test_met_delivered : (linked (running .run)).isSafe .a ethIn = true ∧ (linked (running .run)).isSafe .a { ethIn with etype := 0x0800 } = false
    ∧ (linked (running .run)).mgmtRx .a 0 { eth with etype := 0x0806 } 28 = true
    ∧ (linked (running .run)).mgmtRx .a 0 { eth with etype := 0x0806, fcsOk := false } 28 = false := by
  have h : ∀ s : State, s.delivers .a 0xFFFFFFFFFFFF = true := by intro s; simp [State.delivers]
  have h1 : ((linked (running .run)).reg 0x7000 0) = 0x88B5 := by decide
  refine ⟨by unfold State.isSafe; rw [h1]; exact h _, by unfold State.isSafe; rw [h1]; rfl, ?_, ?_⟩
  · unfold State.mgmtRx
    rw [show ({ eth with etype := 0x0806 } : EthHdr).dst = 0xFFFFFFFFFFFF from rfl, h]
    decide
  · unfold State.mgmtRx
    rw [show ({ eth with etype := 0x0806, fcsOk := false } : EthHdr).dst = 0xFFFFFFFFFFFF from rfl, h]
    decide

theorem test_met_switch : let s := linked (running .run); let n := { s.a.net with p0 := { s.a.net.p0 with gates := 0 } }
    (s.netRx .a 0 = true ∧ (live .run).netRx .a 0 = false ∧ s.takes .a ethIn 64 = true ∧ s.takes .a ethIn 63 = false)
    ∧ (ethIn.fcsOk = true ∧ bitAt ethIn.src 40 = false ∧ s.fdbStatic .a ethIn.vid ethIn.src = none ∧ s.a.net.fdb.length < 1024 ∧ bitAt ethIn.dst 40 = true)
    ∧ (s.a.net.sends 0 = true ∧ { s.a.net with idle := true }.sends 0 = false ∧ (s.a.net.port 0).gates / 2 ^ 7 % 2 = 1 ∧ (s.a.net.port 0).queue = []
        ∧ n.sends 0 = true ∧ (n.port 0).gates = 0)
    ∧ s.a.mgmt = .serving
    ∧ ((s.setReg 0x1021 1 0xC0A80001).ip4 .a = 0xC0A80001 ∧ (0xC0A80001 : Nat) ≠ 0 ∧ (s.setReg 0x1022 1 1).ip6 .a ≠ 0
        ∧ 0xC0A80002 ≠ (s.setReg 0x1021 1 0xC0A80001).ip4 .a)
    ∧ (s.updDie .a fun l => { l with mgmt := .restarting }).a.mgmt ≠ .serving := by decide

theorem test_met_rxCheck : ∃ c, pat.inRec .a (tConn tele) = some c ∧ ∀ x i, (linked (running .run)).rxCheck .a c connP x i tele = 1 := by
  refine ⟨_, rfl, fun x i => ?_⟩
  have h : chkFormat tele = false := by decide
  simp [State.rxCheck, h]

theorem test_met_replay_and_loss : let r : Released := { span := 3, conn := 7, epoch := 1, seq := 2, ports := 1, body := [], frame := [] }
    let s := updA (inPhase (live .run) .s) fun d => { d with net := { d.net with p0 := { d.net.p0 with link := true, replay := true }, released := [r] } }
    (s.a.net.released.find? (fun r => r.conn == 7 && r.epoch == 1 && r.seq == 2 && bitAt r.ports 0) = some r
      ∧ s.a.net.released.find? (fun r => r.conn == 8 && r.epoch == 1 && r.seq == 2 && bitAt r.ports 0) = none)
    ∧ (s.ticking .a = true ∧ (s.a.net.port 0).replay = true ∧ (s.a.net.port 0).link = true ∧ s.a.net.macReset = false ∧ s.a.net.idle = false ∧ s.a.tb.phase = .s) := by decide

def reinP : ReinPar := { group := 0, refAx := 0, fol := [], gstop := 0, mon := 0, tEng := 1000, dcMask := 0 }

/-- One instance (identifier 10, position 0) with a block and its committed state, and a rein group that is stopping (position 1). -/
def limPat (b : Block) : Pattern :=
  { patE with insts := [{ id := 10, block := b, zone := 255, group := 0, nIn := 0, nOut := 0, ins := [], outs := [] },
      { id := 11, block := .rein reinP, zone := 255, group := 0, nIn := 0, nOut := 0, ins := [], outs := [] }] }

/-- It runs on lane 2. -/
def limState (b : Block) (st : IState) : State :=
  updA { live .run with pat := { PatStore.init with active := some (limPat b), state := 3 } } fun d =>
    { d with eng := { d.eng with com := { Img.empty with ist := [(0, st), (1, .rein 1 0 0 0 none none)] }, lanes := [(2, .busy 0), (16, .spare)], active := true, first := false }
             tb := { d.tb with spanNo := 1 }, cur := { d.cur with span := 1 } }

def limMet (l : Lim) (b : Block) (st : IState) : Bool :=
  let s := limState b st
  s.pattern == some (limPat b) && s.limLane .a 10 l == some 2 && (limPat b).pos 10 == some 0 && s.a.eng.active && !s.onRef .a
    && (runJob (s.env .a) (limPat b) 0).isSome

def axisP : AxisPar :=
  { str1 := 0, slot1 := 0, str2 := 1, slot2 := 0, ofs1 := 0, ofs2 := 0, sign := 0, win := 8, lag := 1, rotary := 0, vMax := 100, stopCat := 0, spdSh := 0 }

def rampP : RampPar := { mode := 0, tSto := 1000, tDly := 0, dec := 1, tol := 0, vZero := 1 }

def dualRuns : Dual := { Dual.start with tm := some 1 }

theorem test_met_TimeLimitsActOnTheirInstance :
    (∀ x ∈ [limMet limWatchdog (.connIn connP) (.connIn false 2 none 0 0 0), limMet limLone (.connIn connP) (.connIn false 1 (some 1) 0 0 0),
      limMet limDisc (.estop 0 500) (.dual dualRuns), limMet limMismatch (.glock 0 500 500) (.glock .start .start (some 1)),
      limMet (limMute 1) (.mute2 1 1 1) (.mute 1 false false false none (some 1) []),
      limMet (limMute 2) (.mute2 1 1 1) (.mute 2 false false false none (some 1) []),
      limMet limContact (.twohand 0 500 500) (.twohand 0 false none (some 1) none), limMet limModesel (.modesel 2 500) (.modesel 0 (some 1) false),
      limMet limEdm (.edm 500 1) (.edm false (some 1)), limMet limTimer (.ton 500) (.timer (some 1)), limMet limDly (.outsafe 4 500 0) (.outsafe 1 false (some 1)),
      limMet limStale (.stdin 3 0 0 1 0) (.stdin 0), limMet limStream (.axis axisP) (.axis false 63 0 none), limMet limStoFb (.sto 0 500) (.sto false true (some 1)),
      limMet limRamp (.ss1 0 rampP) (.ramp 1 (some 3) 0), limMet limAdapt (.sls 0 [5] 500 0) (.sls false 5 5 (some 1)),
      limMet limBrake (.axis axisP) (.axis false 0 0 (some 1)), limMet limSbcFb (.sbc 0 4 5 500 500) (.sbc false false (some 1)),
      limMet limSbt (.sbt 0 500 0 8) (.sbt 1 false false (some 1) none 0 0 none), limMet limSbtAge (.sbt 0 500 0 8) (.sbt 0 true false none none 0 0 (some 115199999)),
      limMet limGroup (.rein reinP) (.rein 2 0 0 0 (some 3) none), limMet limTension (.tension 0 0 10 500) (.tension 0 1)], x = true)
    ∧ (live .run).pattern = none ∧ State.reset.evals .a = false ∧ (limPat .not).pos 12 = none
    ∧ (limState (.ton 500) (.timer none)).limLane .a 10 limTimer = none := by decide

/-! ## Frames and data commands

`answer c s` is the status that `c` leaves in `s`. -/

def after (c : Instr) (s : State) : State := match exec c s with
  | .next t => t
  | _ => s

def answer (c : Instr) (s : State) : Status := (after c s).br.last

def goodFr (op : Nat) (f : Frame) : Frame := { f with crc := crc32c (Frame.head op f) }

/-- A read of STDIN-free entry 0x2001, which needs a token. -/
def rd2001 : Frame := goodFr 1 { frm with payload := [0x01, 0x20, 0, 0], token := 9 }

def waitRx (op : Nat) (f : Frame) : State := { live .run with br := { (live .run).br with rx := [(op, f)] } }

def seat0 (s : State) (f : Seat → Seat) : State := s.updSeat 0 f

/-- READ of 0x1000 over HSPI: not in the buffer; a wrong CRC; a retransmission; an erased key; a wrong token; an empty bucket; four requests under way; a
management processor that restarts; a reserved field set; and a frame that is served. -/
theorem test_met_BridleFrames : let f := goodFr 1 frm; let s := waitRx 1 f
    let w : PendWrite := { id := 0, recv := 0, acked := true, apply := 0, pass := false, items := [], resp := respOf 2 frm }
    (f.tr = 0 ∧ (1, f) ∉ (live .run).br.rx) ∧ State.reset.receives .a 0 = false
    ∧ ((1, f) ∈ s.br.rx ∧ s.receives .a 0 = true ∧ Frame.good 1 f = true ∧ s.belongs f = true)
    ∧ (Frame.good 1 frm = false ∧ s.belongs { f with seat := 1 } = false)
    ∧ ((((seat0 s fun y => { y with kept := [(1, f.crc, [1#8])] }).br.seat 0).kept.find? fun y => y.1 == f.reqId && y.2.1 == f.crc) = some (1, f.crc, [1#8]))
    ∧ (seat0 s fun y => { y with sess := some 9, keyGone := true }).tokenCheck 1 rd2001 = some .keygone
    ∧ s.tokenCheck 1 rd2001 = some .token ∧ s.tokenCheck 1 f = none ∧ Frame.good 1 rd2001 = true
    ∧ ((seat0 s fun y => { y with bucket := 7999999 }).hasFrame 0 = false ∧ s.hasFrame 0 = true)
    ∧ (4 ≤ ({ s with br := { s.br with writes := [w, w, w, w] } } : State).outstanding 0 ∧ s.outstanding 0 < 4)
    ∧ ((updA s fun d => { d with mgmt := .restarting }).a.mgmt = .restarting ∧ s.a.mgmt ≠ .restarting)
    ∧ ((f.payload.length == 4 && leAt f.payload 3 1 == 0) = true ∧ f.rsvd = 0 ∧ f.status = 0 ∧ { f with rsvd := 1 }.rsvd ≠ 0) := by decide

theorem test_met_BridleFrames_other_rows : ∀ x ∈ [(2, [0x02, 0x20, 0, 0]), (3, [0, 0x10, 0, 0, 0, 0, 0, 0, 4, 0, 0, 0]),
      (4, [0x06, 0x50, 1, 0, 0, 0, 0, 0, 1, 0, 0, 0, 5]), (5, [0, 0x10, 0, 0, 1, 0]), (6, [0xFF, 0xFF])],
    let f := goodFr x.1 { frm with payload := x.2, len := x.2.length }
    (x.1, f) ∈ (waitRx x.1 f).br.rx ∧ (waitRx x.1 f).receives .a 0 = true ∧ Frame.good x.1 f = true ∧ (waitRx x.1 f).belongs f = true := by decide

def item : WItem := { idx := 0x2002, sub := 0, ofs := 0, val := leBytes 4 1000 }

def pendW (acked : Bool) (l : List WItem) : State :=
  { live .configure with br := { (live .configure).br with
      writes := [{ id := 0, recv := 0, acked := acked, apply := 0, pass := false, items := l, resp := respOf 2 frm }] } }

def watchers : State :=
  { live .run with br := { (live .run).br with
      subs := [{ id := 4, seat := 0, dst := { tr := 0, addr := 0, port := 0 }, idx := 0x2001, sub := 0, gap := 1, nseq := 0, lastSpan := 0, sent := none, cur := 3,
                 unsent := 0, ev := false }] } }

theorem test_met_BridleWrites : ((live .configure).writeAll 0 .a [item]).br.last = .ok
    ∧ State.reset.modes.mode = .shelf ∧ ((live .run).modes.mode ≠ .shelf ∧ ∀ w ∈ (live .run).br.writes, (live .run).spanNo < w.apply)
    ∧ ((pendW false []).br.writes.map (·.acked) = [false] ∧ (pendW true [item]).br.writes.map (·.acked) = [true]
        ∧ ∀ w ∈ (pendW true [item]).br.writes, w.apply ≤ (pendW true [item]).spanNo)
    ∧ ((pendW true [item]).admitted .a = true ∧ (pendW true [item]).admitted .b = true
        ∧ (({ pendW true [item] with br := { (pendW true [item]).br with writes := [] } } : State).writeAll 0 .a [item]).br.last = .ok)
    ∧ (∀ w ∈ (pendW true [item]).br.writes, w.pass = ((pendW true [item]).br.seat w.resp.seat).pass ∧ ∀ x ∈ w.items, x.idx < 0xD010 ∨ 0xD015 ≤ x.idx)
    ∧ (∃ x ∈ [{ item with idx := 0xD010 }], 0xD010 ≤ x.idx ∧ x.idx < 0xD015)
    ∧ ((live .run).writeAll 0 .a [item]).br.last ≠ .ok
    ∧ (leAt [0xFF#8, 0xFF#8] 0 2 = 0xFFFF ∧ ∃ y ∈ watchers.br.subs, y.seat = frm.seat ∧ y.id = leAt [4#8, 0#8] 0 2)
    ∧ (watchers.br.subs.find? (fun y => y.id == 5) = none ∧ watchers.br.subs.find? (fun y => y.id == 4) = watchers.br.subs.head?)
    ∧ (∀ y ∈ watchers.br.subs, y.sent ≠ some y.cur ∧ ¬ y.lastSpan + y.gap ≤ watchers.spanNo)
    ∧ (let t := updA watchers fun d => { d with tb := { d.tb with spanNo := 1 } }
       ∀ y ∈ t.br.subs, y.sent ≠ some y.cur ∧ y.lastSpan + y.gap ≤ t.spanNo)
    ∧ (State.reset.hspiOn = false ∧ (live .run).hspiOn = true ∧ (live .run).br.rx.length < 4 ∧ 4 ≤ (List.replicate 4 (1, frm)).length) := by decide

/-- Seat 1 has credential 5, a login key in slot 2 and an open challenge. -/
def canLogin : State :=
  let s := ((live .run).setReg 0x1101 2 5).setReg 0x1101 3 2
  { s with br := { s.br with seats := [(1, { Seat.init with chal := some 77 })] },
           keys := { s.keys with a := [(2, { KeySlot.init with cur := some { typ := 3, gen := 1, key := List.replicate 16 0 } })] } }

def loginOctets : List Byte :=
  beBytes 4 5 ++ (Config.aesCmac (List.replicate 16 0) (ascii [0x42, 0x52, 0x4C, 0x47] ++ [BitVec.ofNat 8 1] ++ beBytes 4 5 ++ beBytes 8 77)).take 8

theorem test_met_SeatLogin : canLogin.serves = true ∧ (canLogin.br.seat 1).keyGone = false ∧ (canLogin.br.seat 1).logLock = false
    ∧ (live .run).loginBytes 2 ≠ some (List.replicate 12 0) := by decide

theorem test_met_SeatLogin_octets : loginOctets.length = 12 ∧ canLogin.loginBytes 1 = some loginOctets := by
  refine ⟨?_, rfl⟩
  have h : (beBytes 4 5).length = 4 := by decide
  simp [loginOctets, Config.aesCmac, Config.octets_length, h]

theorem test_met_SeatsLogInAndOut : let s := seat0 (live .run) fun y => { y with keyGone := true }
    ((s.br.seat 0).keyGone = true ∧ (s.br.seat 0).sess = none ∧ s.serves = true)
    ∧ (({ live .run with tst := { Test.init with state := 1, seat := 0 } } : State).tst.seat = 0
        ∧ (live .run).tst.seat ≠ 3)
    ∧ ownRow 0x2001 0 = true ∧ (ownRow 0x1FFF 0 = false ∧ (live .run).odRow 0x1FFF 0 = none)
    ∧ (ownRow 0x1023 0 = false ∧ ((live .run).odRow 0x1023 0).isSome = true)
    ∧ ((live .run).br.pers = [] ∧ ({ live .run with br := { (live .run).br with pers := [⟨0x2001, 0, 4, 0, some (respOf 2 frm)⟩] } } : State).br.pers ≠ []
        ∧ 0x2001 ∉ [0xC030, 0xC031]) := by decide

/-- Statuses of Table 14-6 in the order of R362, for the checks of SEAT_LOGIN, LO_PASS, LO_PASS_NEW and a write of an entry. -/
theorem test_answers_of_seats : (∀ x ∈ [(Instr.seatLogin 0 (List.replicate 12 0), live .boot, Status.mode), (.seatLogin 0 [], seat0 (live .run) fun y => { y with logLock := true }, .busy),
      (.seatLogin 0 [], live .run, .type), (.seatLogin 0 (List.replicate 12 0), live .run, .rights),
      (.loPass 0 [], seat0 (live .run) fun y => { y with passLock := true }, .busy), (.loPass 0 [], live .run, .rights),
      (.loPass 0 [], { live .run with br := { Bridle.init with hash := [1] } }, .range),
      (.loPassNew 0 [], pfwOn (live .configure), .busy), (.loPassNew 1 [], live .configure, .rights), (.loPassNew 0 [], live .run, .mode),
      (.loPassNew 0 [], live .configure, .range), (.loPassNew 0 (List.replicate 8 0), live .configure, .ok),
      (.registerWrite 0 0x1FFF 0 0, live .configure, .noEntry), (.registerWrite 0 0x1000 1 0, live .configure, .access),
      (.registerWrite 1 0x1023 0 1, live .configure, .rights), (.registerWrite 0 0x1023 0 1, live .run, .mode), (.registerWrite 0 0x1023 0 2, live .configure, .range),
      (.registerWrite 0 0x1023 0 1, pfwOn (live .configure), .busy), (.registerWrite 0 0x1023 0 1, live .configure, .ok)],
    answer x.1 x.2.1 = x.2.2) := by decide

/-- `s` with the bytes in the inactive slot of both flashes and its checks running. -/
def stage (s : State) (b : List Byte) : State :=
  { s with pat := { s.pat with fa := s.pat.fa.put 0 b, fb := s.pat.fb.put 0 b, loading := true } }

/-- A canonical image without records: header of 132 bytes with every section empty behind it, 884 as TARGET. -/
def emptyImg : List Byte :=
  leBytes 4 0x54414B52 ++ leBytes 2 1 ++ leBytes 2 1 ++ leBytes 2 884 ++ List.replicate 42 0 ++ List.replicate 80 0

theorem test_met_load_checks : leAt emptyImg 0 4 = 0x54414B52 ∧ ¬ emptyImg.length < imageLen emptyImg ∧ (readHdr emptyImg).target = 884
    ∧ (readHdr emptyImg).spanKMin ≤ 7 ∧ capsOk 884 3 (readHdr emptyImg) = true ∧ localCaps 884 (readPattern emptyImg) = true
    ∧ budgetDie 500 3 (readHdr emptyImg).wA (readHdr emptyImg).lA = true ∧ budgetDie 480 3 (readHdr emptyImg).wB (readHdr emptyImg).lB = true := by decide

/-- The encodings' check and their signature are the model's open values, so that the witness of an accepted image takes them as given. -/
theorem test_met_load_accepts (h : ∀ d, (Config.readEncoding d emptyImg).ok = true ∧ (Config.readEncoding d emptyImg).bind = (readPattern emptyImg).sig64) :
    loadErr 884 3 emptyImg emptyImg = 0 := by
  have e := test_met_load_checks
  have ha : dieErr 884 3 .a emptyImg = 0 := by
    have h1 : (readPattern emptyImg).encA = Config.readEncoding .a emptyImg := rfl
    simp [dieErr, h1, h .a, e.1, e.2.2.1, e.2.2.2.2.1, e.2.2.2.2.2.1, e.2.2.2.2.2.2.1, Nat.not_lt.1 e.2.1, Nat.not_lt.2 e.2.2.2.1]
  have hb : dieErr 884 3 .b emptyImg = 0 := by
    have h1 : (readPattern emptyImg).encB = Config.readEncoding .b emptyImg := rfl
    simp [dieErr, h1, h .b, e.1, e.2.2.1, e.2.2.2.2.1, e.2.2.2.2.2.1, e.2.2.2.2.2.2.2, Nat.not_lt.1 e.2.1, Nat.not_lt.2 e.2.2.2.1]
  simp [loadErr, ha, hb]

def candidate : State := { live .configure with pat := { PatStore.init with cand := some pat, state := 1 } }

def confirming (s : State) : State := { s with pat := { s.pat with confirming := true }, rings := { s.rings with pend := [[1#8]] } }

/-- The slots after one written byte: that byte at its offset in the inactive slot of both flashes, the active slot as before. -/
theorem test_met_PatternsAreLoadedCheckedAndConfirmed : let s := live .configure; let t := after (.patImage 0 7 [0x5A#8]) s
    (s.modes.mode ≠ .shelf ∧ s.serves = true ∧ s.has 0 2 = true ∧ s.inConf = true ∧ s.otp.lc = 2 ∧ 0 + 1024 ≤ 16777216 ∧ s.admitted .a = true ∧ s.admitted .b = true
        ∧ t.pat.fa.cand.img.read 7 = 0x5A#8 ∧ t.pat.fb.cand.img.read 7 = 0x5A#8 ∧ t.pat.fa.cand.len = 8 ∧ t.pat.fa.active = s.pat.fa.active
        ∧ (withDie s 1 1 0).admitted .b = false ∧ (after (.patImage 0 7 [0x5A#8]) (withDie s 1 1 0)).pat.fb = s.pat.fb)
    ∧ (s.pat.loading = false ∧ (stage s [1]).pat.loading = true ∧ (stage s [1]).pat.torn = false
        ∧ loadErr 884 3 (stage s [1]).pat.fa.cand.bytes (stage s [1]).pat.fb.cand.bytes = 1
        ∧ (stage s emptyImg).pat.fa.cand.bytes = emptyImg ∧ (stage s emptyImg).pat.fb.cand.bytes = emptyImg)
    ∧ (s.pat.confirming = false ∧ (confirming candidate).pat.confirming = true ∧ (confirming candidate).pat.state = 1
        ∧ (confirming candidate).rings.log.length + (confirming candidate).rings.pend.length ≤ 65536) := by decide

theorem test_met_confirm : let s := candidate
    s.modes.mode ≠ .shelf ∧ s.serves = true ∧ s.br.confLock = false ∧ s.pat.confirming = false ∧ s.pat.cand = some pat ∧ s.rings.log.length + (s.logRecord 0 pat).length ≤ 65536
    ∧ s.has 0 2 = true ∧ Pattern.large pat = false ∧ s.inConf = true ∧ s.pat.state = 1
    ∧ [] ≠ leBytes 4 pat.sig32 ++ leBytes 8 pat.sig64 := by decide

theorem test_met_full_log : 65536 < (List.replicate 65536 ([] : List Byte)).length + [[1#8]].length := by
  rw [List.length_replicate]; decide

theorem test_answers_of_patterns : ∀ x ∈ [(Instr.patImage 1 0 [1], live .configure, Status.rights), (.patImage 0 0 [1], live .run, .mode),
      (.patImage 0 16777216 [1], live .configure, .bounds), (.patImage 0 0 [], live .configure, .range), (.patImage 0 16777215 [1], live .configure, .ok),
      (.load 1, live .configure, .rights), (.load 0, live .run, .mode), (.load 0, live .configure, .ok), (.discard 1, live .configure, .rights), (.discard 0, live .safe, .mode),
      (.discard 0, candidate, .ok), (.confirm 0 [], { candidate with br := { candidate.br with confLock := true } }, .busy), (.confirm 1 [], candidate, .rights),
      (.confirm 0 [], live .configure, .mode), (.confirm 0 [], candidate, .range), (.confirm 0 (leBytes 4 0x01020304 ++ leBytes 8 0), candidate, .ok)],
    answer x.1 x.2.1 = x.2.2 := by decide

/-- Ring 5: 16 slots of 8 bytes at base 0, owned by seat 0, drop-newest, selected by seat 0. -/
def ring5 : Ring := { Ring.free with sz := 3, owner := 0, head := 4294967295, tail := 4294967295 }

def ringed (r : Ring) : State :=
  { live .run with rings := { Rings.init with desc := [(5, r)] }, br := { Bridle.init with seats := [(0, { Seat.init with win := [(odKey 0x8100 1, 5)] })] } }

theorem test_met_RingAccessIsCheckedAndAtomic : let s := ringed ring5
    (s.selRing 0 = 5 ∧ (s.rings.ring 5).chk = true ∧ ring5.alloc = true ∧ ring5.level < ring5.slots ∧ ring5.head < 2 ^ 32 ∧ ring5.tail < 2 ^ 32 ∧ ring5.sz < 16
        ∧ ring5.eb = 8)
    ∧ ((ringed { ring5 with chk := false }).rings.ring 5).chk = false
    ∧ ((s.freeNo .a).isSome = true ∧ (s.freeBase { Ring.free with sz := 1, owner := 0 }).isSome = true)
    ∧ ((updA s fun d => { d with jrn := { d.jrn with dropping := true } }).a.jrn.dropping = true ∧ s.jrnBusy .a = false ∧ s.ticking .a = true ∧ s.pattern = none
        ∧ (s.ptActs 2 && s.reg 0xD013 1 == 2 && s.reg 0xD013 2 == 0) = false) := by decide

theorem test_answers_of_rings : let s := ringed ring5; let full := ringed { ring5 with head := 15 }; let b := { s with clk := { s.clk with gated := 0x2000 } }
    let q := (s.setReg 0x1100 7 2).setReg 0x1100 8 2
    ∀ x ∈ [(Instr.ringPush 0 (List.replicate 8 1), b, Status.busy), (.ringPush 0 (List.replicate 8 1), ringed { ring5 with owner := 8 }, .access),
      (.ringPush 1 [1], s, .rights), (.ringPush 0 (List.replicate 136 1), s, .bounds), (.ringPush 0 [1], s, .range), (.ringPush 0 (List.replicate 8 1), s, .ok),
      (.ringRead 0 0 8, b, .busy), (.ringRead 0 0 8, s, .bounds), (.ringRead 0 0 16, full, .ok),
      (.ringConsume 0 1, s, .range), (.ringConsume 0 16, full, .ok), (.ringConsume 0 0, b, .busy), (.free 0, b, .busy), (.free 0, s, .ok), (.reset 0, s, .ok),
      (.free 0, ringed { ring5 with locked := true }, .access), (.jrnDataRead .a 0 0 1, s, .bounds), (.jrnDataRead .a 0 0 1, b, .busy),
      (.jrnDataRead .a 1 0 1, s.setReg 0x1101 1 0, .rights), (.ringAlloc .a 0 3, q, .ok), (.ringAlloc .a 0 0, q, .range), (.ringAlloc .a 1 3, s, .rights), (.ringAlloc .a 0 3, b, .busy)],
    answer x.1 x.2.1 = x.2.2 := by decide

def timed (t : Tmr) : State := { live .run with tmr := [(3, t)] }

theorem test_met_Timers : let s := timed { Tmr.init with en := true, period := true, count := 9, cmp := 9 }
    (s.serves = true ∧ s.tmrRight 0 3 = true ∧ (s.timer 3).en = true ∧ bitAt 2 1 ≠ (s.timer 3).src ∧ (s.timer 4).en = false)
    ∧ (State.reset.modes.mode = .shelf ∧ s.modes.mode ≠ .shelf ∧ (s.timer 3).period = true ∧ (s.timer 3).count = (s.timer 3).cmp ∧ (s.timer 3).nextPend = false
        ∧ (s.timer 3).cmp ≠ 0)
    ∧ ((timed { Tmr.init with en := true, count := 9 }).timer 3).count ≠ ((timed { Tmr.init with en := true, count := 9 }).timer 3).cmp := by decide

theorem test_answers_of_timers : let s := timed { Tmr.init with en := true, period := true, count := 9, cmp := 9 }
    ∀ x ∈ [(Instr.tmrCtrl 1 .a 3 1, s, Status.rights), (.tmrCtrl 0 .a 3 1, s, .mode), (.tmrCtrl 0 .a 4 16, s, .ok), (.tmrCtrl 0 .a 4 15, s, .ok),
      (.tmrCmp 1 .a 3 1, s, .rights), (.tmrCmp 0 .a 3 0, s, .range), (.tmrCmp 0 .a 3 1, s, .ok), (.tmrCmpNext 1 .a 3 1, s, .rights),
      (.tmrCmpNext 0 .a 3 4294967296, s, .range), (.tmrCmpNext 0 .a 3 0, s, .ok), (.tmrCount 1 .a 3 0, s, .rights), (.tmrCount 0 .a 3 0, s, .mode),
      (.tmrCount 0 .a 4 4294967296, s, .range), (.tmrCount 0 .a 4 4294967295, s, .ok)], answer x.1 x.2.1 = x.2.2 := by decide

/-- CRC channel 2 of L-A enabled or not, with a descriptor under way, its ring 5 with one entry of 32 bytes. -/
def crcs (en busy : Bool) : State :=
  let s := ((ringed { ring5 with esize := 2, head := 0, tail := 4294967295 }).setReg 0x9002 1 (b2n en)).setReg 0x9002 8 5
  { s with crc := [(2, { CrcCh.init with busy := busy })] }

theorem test_met_Crc : (crcs true true).crcRight 0 2 = true ∧ (crcs true true).crcEn 2 = true ∧ (crcs false false).crcEn 2 = false
    ∧ (crcs false false).crcParOk 0 2 3 64 = true ∧ (crcs false false).crcParOk 0 2 14 7 = true
    ∧ (Tab.get CrcCh.init (crcs true true).crc 2).busy = true ∧ (Tab.get CrcCh.init (live .run).crc 2).busy = false
    ∧ (crcs true true).ringBusy ((crcs true true).crcRing 2) = false ∧ ((crcs true true).crcRing 2).level = 1
    ∧ (((crcs true true).setReg 0x9002 8 6).crcRing 2).level = 0 ∧ (crcPresetPar 1).isSome = true ∧ (crcPresetPar 5).isNone = true := by decide

theorem test_answers_of_crc : ∀ x ∈ [(Instr.crcEnable 1 .a 2, crcs false false, Status.rights), (.crcEnable 0 .a 2, { crcs false false with st := { SelfTest.init with crcBad := 4 } }, .mode),
      (.crcEnable 0 .a 2, crcs false false, .ok), (.crcAbort 1 .a 2, crcs true true, .rights), (.crcAbort 0 .a 2, crcs true true, .ok), (.crcPreset 1 .a 2 1, crcs false false, .rights),
      (.crcPreset 0 .a 2 1, crcs true false, .mode), (.crcPreset 0 .a 2 5, crcs false false, .range), (.crcPreset 0 .a 2 4, crcs false false, .ok),
      (.crcParameterWrite 0 .a 2 3 64, crcs true false, .mode), (.crcParameterWrite 0 .a 2 3 65, crcs false false, .range), (.crcParameterWrite 0 .a 2 3 8, crcs false false, .ok)],
    answer x.1 x.2.1 = x.2.2 := by decide

def otpRuns (v : BitVec 32) : State := { live .run with otp := { (live .run).otp with op := some { die := .a, word := 400, v := v, seat := some 0, ans := none } } }

def window (n : Nat) : State := seat0 (live .configure) fun y => { y with win := [(odKey 0xC010 0, n)], pass := true }

theorem test_met_OtpAndKeysAreGuarded : let s := { window 300 with otp := { (live .run).otp with words := [(2, .data 884#32), (3, .spent)] } }
    ((live .run).otp.op = none ∧ (otpRuns 5#32).otp.word 400 = .blank ∧ (5#32) ≠ 0 ∧ (otpRuns 5#32).otp.word 2 ≠ .blank ∧ (otpRuns 5#32).diverted 39 = false)
    ∧ (s.serves = true ∧ (320 ≤ (window 320).winOf 0 0xC010 0 ∧ (window 383).winOf 0 0xC010 0 < 384)
        ∧ (¬ 320 ≤ (window 319).winOf 0 0xC010 0 ∧ ¬ (window 384).winOf 0 0xC010 0 < 384 ∧ (window 384).otp.word 384 ≠ .spent))
    ∧ (let t := { s with br := (window 3).br }
       t.otp.word (t.winOf 0 0xC010 0) = .spent ∧ fixedWord (t.winOf 0 0xC010 0) = true ∧ t.diverted 38 = false) := by decide

/-- OTP_DATA selects a user word; the owner seat 0 has presented the password. -/
theorem test_answers_of_otp : ∀ x ∈ [(Instr.otpProg 0 5, pfwOn (window 400), Status.busy), (.otpProg 1 5, window 400, .rights),
      (.otpProg 0 5, { window 400 with modes := (live .run).modes }, .mode), (.otpProg 0 5, window 12, .range), (.otpProg 0 4294967296, window 400, .range),
      (.otpProg 0 5, window 288, .ok), (.otpProg 0 4294967295, window 1023, .ok), (.lcReq 0 3, pfwOn (window 0), .busy), (.lcReq 1 3, window 0, .rights),
      (.lcReq 0 3, { window 0 with modes := (live .run).modes }, .mode), (.lcReq 0 2, window 0, .range), (.lcReq 0 3, window 0, .ok), (.lcReq 0 4, window 0, .ok),
      (.keyPut 0 [], pfwOn (window 0), .busy), (.keyPut 1 [], window 0, .rights),
      (.keyPut 0 [], { window 0 with modes := { (live .run).modes with act := some .run } }, .busy), (.keyPut 0 [1], window 0, .range),
      (.keyErase 0 16, window 0, .range), (.keyErase 0 15, window 0, .ok), (.keyErase 1 15, window 0, .rights), (.otpData 0, window 320, .access),
      (.otpData 0, window 2, .ok), (.lcChal 0, window 0, .ok)], answer x.1 x.2.1 = x.2.2 := by decide

/-- A first KEY_PUT in the clear: slot 0, type 1, two zero bytes and 16 bytes. -/
theorem test_keyPut_plain : answer (.keyPut 0 ([0, 1, 0, 0] ++ List.replicate 16 7)) (window 0) = .ok
    ∧ (after (.keyPut 0 ([0, 1, 0, 0] ++ List.replicate 16 7)) (window 0)).br.pers.length = 1 := by decide

theorem test_met_BackupDomainAndRailsAreWatched : let r : EraRec := { gen := 1, era := 2, keyset := 3, boot := 4 }
    ((live .run).keys.eraPend = none ∧ ({ live .run with keys := { Keys.init with eraPend := some (r, true) } } : State).keys.eraPend = some (r, true))
    ∧ (State.reset.modes.mode = .shelf ∧ (live .run).modes.mode ≠ .shelf ∧ (live .run).diverted 37 = false ∧ fswPresent (live .run).order 37 = true)
    ∧ ((live .run).pow.en.getLsbD 0 = true ∧ State.reset.pow.en.getLsbD 0 = false)
    ∧ (State.reset.pow.armed.getLsbD (railIdx .ca) = false ∧ (live .run).pow.armed.getLsbD (railIdx .ca) = true ∧ railOut .ca 712 = true ∧ railOut .ca 713 = false
        ∧ railOut .ca 787 = false ∧ railOut .ca 788 = true ∧ (live .run).diverted 42 = false ∧ (live .run).diverted 56 = false)
    ∧ (railOut (.vfld 3) 32000 = false ∧ (live .run).pow.armed.getLsbD (railIdx (.vfld 3)) = true ∧ ((live .run).fdie 3).low = false
        ∧ (((live .run).updF 3 fun x => { x with low := true }).fdie 3).low = true) := by decide

/-- A slice of span 0 with item `i` left on L-A. -/
def tests (i : Nat) : State := { inPhase (live .run) .s with st := { SelfTest.init with leftA := [i], granA := .running } }

theorem test_met_SelfTest : (∀ i ∈ [stItem 3 0, stItem 6 0, stItem 2 0], (tests i).ticking .a = true ∧ (tests i).sliceIn (tests i).a.tb.spanNo = true
      ∧ ((tests i).a.tb.phase == .s) = true ∧ ((tests i).st.left .a).contains i = true ∧ (tests i).st.gran .a = .running
      ∧ (tests i).st.later.contains (stKey .a i) = false ∧ ({ tests i with st := { (tests i).st with granA := .aborted } } : State).st.gran .a ≠ .running ∧ (tests i).testMay .a i = true)
    ∧ 0 + 1 < (tests (stItem 6 0)).granules (stItem 6 0) ∧ ¬ 0 + 1 < (tests (stItem 2 0)).granules (stItem 2 0)
    ∧ (tests (stItem 2 0)).diverted (dieBit .a 14) = false ∧ (live .service).slicesOn = false ∧ (live .run).slicesOn = true := by decide

theorem test_answers_of_stReq : ∀ x ∈ [(Instr.stReq 0 3, { live .run with st := { SelfTest.init with queue := List.replicate 8 3 } }, Status.busy),
      (.stReq 1 3, (live .run).setReg 0x1101 1 0, .rights),
      (.stReq 0 1, updA (live .run) fun d => { d with eng := { d.eng with lanes := [(16, .failed)] } }, .mode), (.stReq 0 0, live .run, .range),
      (.stReq 0 9, live .run, .range), (.stReq 0 8, live .run, .ok), (.stReq 0 3, live .run, .ok)], answer x.1 x.2.1 = x.2.2 := by decide

def goodSvc (k : Nat) (f : SvcFrame) : SvcFrame :=
  { f with len := f.payload.length, crc := crc32c (svcBytes f.magic (Config.svcOp k) f.status f.session f.payload.length f.rsvd f.payload) }

/-- The OP codes are the model's open values, so the CRC of a witness is computed from them. -/
theorem test_good_service_frame (k : Nat) (f : SvcFrame) (h1 : f.magic = 0x5356) (h2 : f.payload.length ≤ 1100) : SvcFrame.good (goodSvc k f) k = true := by
  simp [SvcFrame.good, goodSvc, h1, h2]

def svcKey16 : List Byte := List.replicate 16 9

/-- The service on, key in slot 3, session 6 open, a challenge given. -/
def served (u : Update) : State :=
  let s := ((live .run).setReg 0xA007 0 1).setReg 0xA008 0 3
  { s with upd := u, keys := { s.keys with a := [(3, { KeySlot.init with cur := some { typ := 4, gen := 1, key := svcKey16 } })] } }

/-- A manifest of the form of R454 whose part 1 has 64 bytes. -/
def mani : List Byte :=
  leBytes 4 0x4D414E31 ++ leBytes 2 1 ++ [5, 0] ++ leBytes 4 0 ++ leBytes 2 884 ++ List.replicate 10 0
    ++ (([1, 2, 3, 4, 5].map fun k => [BitVec.ofNat 8 k] ++ List.replicate 7 0 ++ leBytes 4 (if k = 1 then 64 else 0) ++ List.replicate 36 (0 : Byte)).flatten)
    ++ List.replicate 64 0

theorem test_met_UpdateFramesFollowTheSession : let s := served { Update.init with sess := some 6, chal := some 8 }
    (live .run).svcOn = false ∧ (s.svcOn = true ∧ s.upd.keyGone = false ∧ s.upd.sess = some { svc with session := 6 }.session ∧ s.upd.sess ≠ some svc.session)
    ∧ (s.svcKey = some svcKey16 ∧ s.upd.chal = some 8 ∧ s.upd.lock = false) ∧ ({ Update.init with keyGone := true }.keyGone = true ∧ { Update.init with lock := true }.lock = true)
    ∧ (svc.payload = [] ∧ svc.rsvd = 0 ∧ mani.length = 328 ∧ manifestForm s.order mani = true) ∧ s.updActive = false
    ∧ (served { Update.init with state := 4 }).updActive = true ∧ (s.setReg 0xA005 0 1).updRefuse mani = some (1, .rights)
    ∧ (let t := { Update.init with state := 2, manifest := mani }
       t.state = 2 ∧ t.manifest ≠ [] ∧ partLen t.manifest 1 = 64 ∧ 0 + (72 - 8) ≤ partLen t.manifest 1 ∧ partLen t.manifest 1 < 64 + (9 - 8)
         ∧ (let p : List Byte := [1, 0, 0, 0] ++ leBytes 4 0 ++ List.replicate 64 7
            8 < p.length ∧ p.length ≤ 1032 ∧ leAt p 1 3 = 0 ∧ 1 ≤ leAt p 0 1 ∧ leAt p 0 1 ≤ 5 ∧ leAt p 4 4 = 0)) := by decide

theorem test_met_auth_value : (authValue svcKey16 0 8).length = 8 ∧ ∃ p : List Byte, p.length = 8 ∧ p ≠ authValue svcKey16 0 8 := by
  have h : (authValue svcKey16 0 8).length = 8 := by simp [authValue, Config.aesCmac, Config.octets_length]
  refine ⟨h, ?_⟩
  by_cases e : authValue svcKey16 0 8 = List.replicate 8 0
  · exact ⟨List.replicate 8 1, rfl, by rw [e]; decide⟩
  · exact ⟨List.replicate 8 0, rfl, fun g => e g.symm⟩

def battery : State := (served { Update.init with sess := some 6 }).setReg 0x2031 11 3000

/-- An accepted manifest: the signature check is the model's open value, so that the witness takes it as given. -/
theorem test_met_manifest_accepted (h : battery.manifestSig mani = true) : battery.updActive = false ∧ battery.updRefuse mani = none := by
  refine ⟨by decide, ?_⟩
  simp only [State.updRefuse, h]
  decide

def updating (u : Update) : State := { live .run with upd := u, modes := { (live .run).modes with act := some .run } }

theorem test_met_UpdateActivationCommitsOrReverts : let whole : Update := { Update.init with state := 2, manifest := mani, have_ := [(2 ^ 24, 64)] }
    let b := updating { Update.init with state := 4, manifest := mani, reboot := some .b }
    (whole.state = 2 ∧ whole.whole = true ∧ { whole with have_ := [] }.whole = false)
    ∧ (b.upd.reboot = some .b ∧ b.upd.booted = false ∧ 4 ≤ b.upd.state ∧ b.upd.state ≤ 6 ∧ leAt b.upd.manifest 20 2 < (b.setReg 0xA00A 0 1).reg 0xA00A 0
        ∧ ¬ leAt b.upd.manifest 20 2 < b.reg 0xA00A 0)
    ∧ ((live .run).upd.reboot ≠ some .b ∧ (live .run).upd.state ≠ 8
        ∧ (let r := updA (updating { Update.init with state := 8 }) fun d => { d with mgmt := .booting }
           r.upd.state = 8 ∧ r.a.mgmt = .booting ∧ r.admitted .a = true ∧ r.upd.reboot ≠ some .a))
    ∧ (let w := { Update.init with state := 5, newB := true }
       w.state = 5 ∧ w.reboot = none ∧ w.newB = true ∧ w.newA = false)
    ∧ (let f := updating { Update.init with state := 6, defer := true }
       f.upd.state = 6 ∧ f.upd.defer = true ∧ f.pfw = false ∧ (pfwOn f).pfw = true)
    ∧ Update.init.sess = none ∧ { Update.init with sess := some 6 }.sess ≠ none := by decide

/-- Whether the staged parts hold is the model's open value: without an anchor they never do. -/
theorem test_met_bootParts_false : (updating { Update.init with state := 4, manifest := mani, reboot := some .b }).bootParts .b = false := by
  have h : (updating { Update.init with state := 4, manifest := mani, reboot := some .b }).otp.anchorOk 0 = false := by decide
  have e : leAt mani 7 1 = 0 := by decide
  simp only [State.bootParts, State.manifestSig]
  simp only [show (updating { Update.init with state := 4, manifest := mani, reboot := some .b }).upd.manifest = mani from rfl, e, h]
  simp

/-- One valid root key of the vendor; seat 0 has presented the password. -/
def vendor (m : Mode) (t : Test) : State :=
  { seat0 (live m) fun y => { y with pass := true } with
    tst := t, otp := { (live m).otp with words := (live m).otp.words ++ (List.range 8).map fun k => (256 + k, .data 1#32) } }

theorem test_met_bootParts_true (h : ∀ k m g, Config.sigVerify k m g = true) :
    ({ vendor .run Test.init with upd := { Update.init with state := 4, reboot := some .b, manifest := mani.set 32 0 } }).bootParts .b = true := by
  simp only [State.bootParts, State.manifestSig, h]
  decide

theorem test_met_TestAccess : let s := vendor .configure { Test.init with chal := some 5 }
    (s.serves = true ∧ s.has 0 3 = true ∧ s.testMayOpen 0 = true ∧ s.inConf = true ∧ s.tst.state = 0 ∧ s.tst.lock = false ∧ s.pow.scan = false)
    ∧ ({ s with tst := { s.tst with state := 2 } } : State).tst.state = 2 ∧ ({ s with tst := { s.tst with lock := true } } : State).tst.lock = true
    ∧ (s.has 1 3 = false ∧ (vendor .run Test.init).inConf = false)
    ∧ ((vendor .configure Test.init).tst.chal.isSome = false ∧ s.tst.chal.isSome = true ∧ s.testCode 2 = true)
    ∧ ({ s with pow := { s.pow with scan := true } } : State).pow.scan = true ∧ { Test.init with zeroise := true }.zeroise = true := by decide

theorem test_met_TestAccess_signed (h : ∀ k m g, Config.sigVerify k m g = true) : let s := vendor .configure { Test.init with chal := some 5 }
    (s.tst.chal.isSome && s.testCode 2 && s.anchorSig 0 (s.testMsg 2) []) = true := by
  have e : (vendor .configure { Test.init with chal := some 5 }).otp.anchorOk 0 = true := by decide
  have c : (vendor .configure { Test.init with chal := some 5 }).testCode 2 = true := by decide
  simp only [State.anchorSig, h, c]
  decide

theorem test_answers_of_test_access : ∀ x ∈ [(Instr.testOpen 1 1, vendor .configure Test.init, Status.rights), (.testOpen 0 1, live .configure, .rights),
      (.testOpen 0 1, vendor .run Test.init, .mode), (.testOpen 0 2, vendor .configure Test.init, .range), (.testOpen 0 1, vendor .configure Test.init, .ok),
      (.testOpen 0 0, live .run, .ok), (.testChal 1, live .run, .rights), (.testChal 0, live .run, .ok),
      (.testResp 0 1 [], vendor .configure { Test.init with lock := true }, .busy), (.testResp 1 1 [], vendor .configure Test.init, .rights),
      (.testResp 0 1 [], vendor .configure Test.init, .rights)], answer x.1 x.2.1 = x.2.2 := by decide

theorem test_met_CounterCountsRisingEdges : 16383 ≤ 16383 ∧ ({ In.open 1 with prev := 0 }).v = 1 ∧ ({ In.open 1 with prev := 0 }).prev = 0 ∧ (In.open 0).v ≠ 1 := by decide

/-! ## Steps whose results the spec states -/

/-- Table 16-1: check values over "123456789". -/
theorem test_crc_check_values : (List.range 4).map (fun k => (crcPresetPar (k + 1)).map fun p => crcOf p (ascii [0x31, 0x32, 0x33, 0x34, 0x35, 0x36, 0x37, 0x38, 0x39]))
    = [some 0xE3069283, some 0xCBF43926, some 0x29B1, some 0x6C40DF5F0B497347] := by decide

/-- The examples of R119: saturation of A + OFS, and a Q of 1 that falls when a′ ≤ 3,800. -/
theorem test_cmp14_examples : (evalCmp14 0 5 1000 0 [In.open 16000, In.open 16383] [0]).outs = [1] ∧ (evalCmp14 1 3 (-500) 0 [In.open (-8000), In.open (-8192)] [0]).outs = [1]
    ∧ (evalCmp14 0 4 0 200 [In.open 3801, In.open 4000] [1]).outs = [1] ∧ (evalCmp14 0 4 0 200 [In.open 3800, In.open 4000] [1]).outs = [0]
    ∧ (evalCmp14 0 4 0 200 [In.open 3801, In.open 4000] [0]).outs = [0] := by decide

/-- The coded sum of 05_channel_diversity.md, and its residues after a flipped bit and a wrong operand. -/
theorem test_coded_sum : code 317 1250 = 5114067 ∧ code 1022 (-500) = -2044478 ∧ cAdd (kAdd 317 1022 2040) 5114067 (-2044478) = 3070290
    ∧ residueOk 2040 3070290 = true ∧ decode .s14 2040 3070290 = some 750 ∧ (3070802 - 2040 : Int) % 4091 = 512 ∧ residueOk 2040 3070802 = false
    ∧ residueOk 2040 (cAdd (kAdd 317 1022 2040) (code 1500 1250) (-2044478)) = false := by decide

/-- Table 03-2: L-A passes, L-B is refused at SPAN_K 3, passes at 4 and with L_B = 5,440. -/
theorem test_budget_example : budgetDie 500 3 660000 5200 = true ∧ budgetDie 480 3 816000 6400 = false ∧ budgetDie 480 4 816000 6400 = true
    ∧ budgetDie 480 3 816000 5440 = true ∧ budgetDie 480 3 816000 5441 = false := by decide

/-- Table 17-4: SHIPPED with change 3 pending until its state word stands. -/
theorem test_lifecycle_log : let o := { Otp.init with words := [(16, .data 0xA1010300#32), (17, .data 0x51010300#32), (18, .data 0xA2020300#32), (19, .data 0x52020300#32),
      (20, .data 0xA3030200#32), (21, .spent)] }
    o.lc = 2 ∧ o.lcL = 2 ∧ (o.lcPend.map lcTarget) = some 3 ∧ o.kekGen = 0
    ∧ { o with words := o.words ++ [(22, OtpWord.data 0x53030200#32)] }.lc = 3 := by decide

/-- Table 16-5: CMP = 14 applied in the match tick sets DOUBLE, a write of 4 sets LATE; the next match of the first is at 14. -/
theorem test_timer_match_tick_write : let s := timed { Tmr.init with en := true, src := true, period := true, count := 9, cmp := 9, isMatch := true, matches_ := 1 }
    ((after (.tmrCmp 0 .a 3 14) s).timer 3).double = true ∧ ((after (.tmrCmp 0 .a 3 14) s).timer 3).cmp = 14 ∧ ((after (.tmrCmp 0 .a 3 4) s).timer 3).late = true
    ∧ ((after (.tmrCmpNext 0 .a 3 14) s).timer 3).cmp = 9 ∧ ((after (.timerReload .a 3) (after (.tmrCmpNext 0 .a 3 14) s)).timer 3).cmp = 14 := by decide

/-- R400: the code of 5,000. -/
theorem test_compand_example : compand .u14 5000 = 167 ∧ compand .u14 0 = 0 ∧ compand .u14 16383 = 255 ∧ compand .s14 (-8192) = 255 ∧ compand .s14 (-1) = 129 := by decide

/-- R366: a write received in span n applies at the tick of span n + 2; in DEEP SLEEP SPAN_NO advances by 2^(7 − SPAN_K). -/
theorem test_apply_tick : (live .run).applySpan = (live .run).spanNo + 2
    ∧ ({ live .safe with modes := { (live .safe).modes with pwr := .deepSleep } } : State).applySpan = (live .safe).spanNo + 32 := by decide

/-- R337, R344: VIN of 19.2 V starts BOOT, 19.199 V does not. -/
theorem test_vin_rise : (after (.vinRise 19200 0) State.reset).modes.mode = .boot ∧ after (.vinRise 19199 0) State.reset = State.reset := by decide

/-- R349: PFW at 17.899 V and not at 17.900 V. -/
theorem test_pfw_latch : (after (.pfwLatch 17899) (live .run)).pfw = true ∧ (after (.pfwLatch 17900) (live .run)).pfw = false
    ∧ (after (.pfwLatch 17899) (live .run)).fswBit 41 = true := by decide

/-- R297: a C3 (PAT_MEM of L-A) asserts both trip lines and opens a closed switch. -/
theorem test_c3_trips : let s := (live .run).updF 0 fun x => { x with a := { x.a with closed := 0xFF } }
    (after (.faultLatch 3) s).tripLine .a = true ∧ (after (.faultLatch 3) s).tripLine .b = true ∧ ((after (.faultLatch 3) s).fdie 0).a.closed = 0
    ∧ (after (.faultLatch 3) s).fswBit 3 = true ∧ (after (.faultLatch 3) s).reg 0x3003 1 = 8 := by decide

/-- R295: a C1 restricts and trips nothing. -/
theorem test_c1_trips_nothing : (after (.faultLatch 0) (live .run)).tripLine .a = false ∧ (after (.faultLatch 0) (live .run)).fswBit 0 = true
    ∧ (after (.faultLatch 43) (live .run)) = live .run := by decide

/-- R302, R303: a clear of LANE_ERR, and none while its cause stands. -/
theorem test_fsw_clear : let s := latched (live .run) 1
    (after (.fswClr 0 1) s).fswBit 0 = false ∧ (after (.fswClr 0 1) { s with flt := { s.flt with cause := 1 } }).fswBit 0 = true
    ∧ (after (.fswClr 0 2) s).fswBit 0 = true := by decide

/-- R41: the tick advances SPAN_NO by one and opens phase A. -/
theorem test_tick : (after (.tick ⟨.a, 250000⟩) (live .run)).a.tb.spanNo = 1 ∧ (after (.tick ⟨.a, 250000⟩) (live .run)).a.tb.phase = .a ∧ (after (.tick ⟨.a, 250000⟩) (live .run)).b.tb.spanNo = 0 := by decide

/-- R195: a keep token that ends leaves standard outputs and opens safety outputs. -/
theorem test_keep_token_expire : let s := (live .run).updF 0 fun x => { x with modes := [(0, 3), (1, 2)], a := { x.a with closed := 3 } }
    ((after (.keepTokenExpire .a 0) s).fdie 0).a.closed = 2 ∧ ((after (.keepTokenExpire .a 0) s).fdie 0).a.token = false := by decide

/-- R193, R194: the next frame in sequence is taken, a frame out of sequence only opens, a wrong CRC is counted. -/
theorem test_command_frames : let s := (live .run).updF 0 fun x => { x with a := { x.a with closed := 3 } }
    ((after (.cmdFrameRx .a 0 (cmdFr 1)) s).fdie 0).a.cmd = 1#32 ∧ ((after (.cmdFrameRx .a 0 (cmdFr 2)) s).fdie 0).a.closed = 1#32
    ∧ ((after (.cmdFrameRx .a 0 (cmdFr 2)) s).fdie 0).a.cmd = 0#32 ∧ (after (.cmdFrameRx .a 0 1#128) s).reg 0x4700 4 = 1 := by decide

/-- R188: a channel takes the mode that both ports have written. -/
theorem test_channel_mode : let s := (live .configure).updF 0 fun x => { x with a := { x.a with cfgOpen := true }, b := { x.b with cfgOpen := true } }
    Tab.get 0 ((after (.channelModeWrite .a 5 2) s).fdie 0).modes 5 = 0 ∧ Tab.get 0 ((after (.channelModeWrite .b 5 2) (after (.channelModeWrite .a 5 2) s)).fdie 0).modes 5 = 2 := by decide

/-- R391, R393: a push across the wrap of HEAD, read back and consumed. -/
theorem test_ring_push : let s := after (.ringPush 0 [1, 2, 3, 4, 5, 6, 7, 8]) (ringed ring5)
    (s.rings.ring 5).head = 0 ∧ (s.rings.ring 5).level = 1 ∧ s.rings.entry 884 5 4294967295 = [1, 2, 3, 4, 5, 6, 7, 8]
    ∧ ((after (.ringConsume 0 1) s).rings.ring 5).level = 0 ∧ ((after (.reset 0) s).rings.ring 5).level = 0 := by decide

/-- R31, R32: a free resource is granted, a second party waits and takes it at the release. -/
theorem test_lease_queue : let s := after (.leaseRequest 6 1) (after (.leaseRequest 6 0) (live .run))
    (s.lease 6).holder = some 0 ∧ (s.lease 6).queue = [1] ∧ ((after (.leaseRelease 6 0) s).lease 6).holder = some 1
    ∧ ((after (.leaseRelease 6 1) s).lease 6).holder = some 0 := by decide

/-- R142: a flit in order is taken, a flit out of order is not. -/
theorem test_stitch_order : let h := hdrOf flitReady 0; let x := { h with seq := 1, crc := crc32c (flitBytes { h with seq := 1 } flitReady) }
    (after (.readyRx .a h) inA).a.link.rxSeq = 0 ∧ (after (.readyRx .a h) inA).a.cmp.readyRx = true
    ∧ (after (.readyRx .a x) inA).a.link.rxSeq = inA.a.link.rxSeq ∧ (after (.readyRx .a x) inA).a.cmp = inA.a.cmp := by decide

/-- R48: the sixteenth sync with its last eight offsets within 100 ns locks the timebase. -/
theorem test_sync_locks : (after (.syncRx .a 0 0 100 0) (synced false 15)).a.tb.locked = true ∧ (after (.syncRx .a 0 0 101 0) (synced false 15)).a.tb.locked = false
    ∧ (after (.syncRx .a 0 0 0 1001) (synced true 16)).a.tb.locked = false := by decide

/-- R426: a TAMPER input erases the backup domain. -/
theorem test_tamper : (after (.tamper 0) { live .run with bkp := { Backup.init with rtc := 7, bootCnt := 8 } }).bkp.bootCnt = 0
    ∧ (after (.tamper 0) (live .run)).fswBit 37 = true := by decide

/-- R332: 712 mV on the rail of L-A is outside its window. -/
theorem test_rail_excursion : (after (.railExcursion .ca 712) (live .run)).fswBit 56 = true ∧ after (.railExcursion .ca 713) (live .run) = live .run := by decide

/-- R421: an OTP word that its verify fails is spent and OTP_PROG latches. -/
theorem test_otp_program : (after (.otpProgramDone true) ((otpRuns 5#32).setLease 4 (heldBy 0 []))).otp.word 400 = .data 5#32 ∧ (after (.otpProgramDone false) ((otpRuns 5#32).setLease 4 (heldBy 0 []))).otp.word 400 = .spent
    ∧ (after (.otpProgramDone false) ((otpRuns 5#32).setLease 4 (heldBy 0 []))).fswBit 39 = true := by decide

/-- R118: a count that saturates. -/
theorem test_ctu_saturates : (evalCtu 16383 [{ In.open 1 with prev := 0 }, In.open 0] [1, 16383]).outs = [1, 16383] := by decide

/-- The front of the queue runs, and the rest waits. -/
theorem test_queue : step { live .boot with pending := [.bootRetry, .resetNLow] } = .next { live .boot with pending := [.resetNLow] } := rfl

/-- The table gives no row bits, so that no word spells a command (log 7). -/
theorem test_no_word_spells_a_command : decodeTableWord 32 5 = none ∧ (live .run).withFetchWord 32 5 = live .run := by decide

/-! ## Further witnesses

One clause of a statement each, at a boundary of its range where it has one. -/

/-- A request for DEEP-SLEEP in SAFE at the last span before a tick of its grid (SPAN_K 3: 16 spans), and one span earlier. -/
def sleepy (n : Nat) : State :=
  updA { live .safe with modes := { (live .safe).modes with pwrReq := some .deepSleep, spanK := 3 } } fun d => { d with tb := { d.tb with spanNo := n } }

theorem test_met_deep_sleep : (sleepy 15).modes.pwrReq = some .deepSleep ∧ (sleepy 15).modes.mode = .safe ∧ ((sleepy 15).spanNo + 1) % 2 ^ (7 - (sleepy 15).modes.spanK) = 0
    ∧ ((sleepy 14).spanNo + 1) % 2 ^ (7 - (sleepy 14).modes.spanK) ≠ 0 ∧ (after .powerStateChange (sleepy 15)).modes.pwr = .deepSleep := by decide

/-- The snapshot slot of span 0 has been opened for it by the tick. -/
theorem test_met_snapshot_slot : let s := { inA with a := { inA.a with snap := [(0, { Snap.empty with opened := true, span := 0 })] } }
    s.ticking .a = true ∧ s.a.tb.phase = .a ∧ (Tab.get Snap.empty s.a.snap (s.a.cur.span % 8)).opened = true ∧ (Tab.get Snap.empty s.a.snap (s.a.cur.span % 8)).span = s.a.cur.span := by decide

def v830 (m : Mode) : State := { live m with order := 830, fd := [] }

theorem test_met_clock_gates : let s := live .configure
    (v830 .configure).order = 830 ∧ 13 ≤ (13 : Fin 18).val ∧ (15 : Fin 18).val ≤ 15 ∧ (∀ n : Fin 18, s.absent 0x2013 (n.val + 1) = false)
    ∧ (v830 .configure).absent 0x2013 13 = false ∧ (v830 .configure).absent 0x2013 17 = false
    ∧ (s.reg 0x2016 1 ≤ 18 ∧ 1 ≤ s.reg 0x2016 2 ∧ domainKHz 18 ≤ 100000 * s.reg 0x2016 2 ∧ 18 < 19)
    ∧ (∃ v, v ≤ 18 ∧ 100000 * (s.setReg 0x2016 2 1).reg 0x2016 2 < domainKHz v)
    ∧ (0 : Fin 8) = 0 ∧ (7 : Fin 8) ≠ 0 ∧ 2 ^ 32 - 1 < 2 ^ 32 := by decide

/-- Channel 5 of L-A with its chain in a given filter and window state, channel 5 being an OSSD input (kind 3). -/
def chain5 (f : Filt) (v : Superv) : State := updA (running .run) fun l => { l with chains := [(5, { Chain.init with f := f, v := v })] }

def src0 : SrcRec := { s := 0, chan := 4, width := 500, phase := 0 }

theorem test_met_filters_and_windows :
    (let on := fun (low pf raw : Bool) => ((chain5 { Filt.init with low := low, pf := pf, raw := raw } .init).a.chain 5).f;
      ((on true true false).low = true ∧ (on true true false).pf = true ∧ (on true true false).raw = false)
      ∧ ((on true false true).pf = false ∧ (on true false true).raw = true) ∧ (on false true false).low = false ∧ (on true true true).pf = (on true true true).raw)
    ∧ ((running .run).chainOn .a 5 = true ∧ ((running .run).chanRec 5).chainKind = 3)
    ∧ ((chain5 { Filt.init with raw := true } .init).a.chain 5).f.raw = true ∧ ((chain5 .init .init).a.chain 5).f.raw ≠ true
    ∧ ((running .run).pattern = some pat ∧ pat.src 0 = some src0 ∧ pat.src 1 = none)
    ∧ (let c := (chain5 { Filt.init with raw := true, win := true } { Superv.init with winOn := true }).a.chain 5
       c.v.winOn = true ∧ c.f.raw = true ∧ c.f.win = true ∧ c.v.winLow = none ∧ (running .run).modes.pwr ≠ .deepSleep)
    ∧ (let x := { src0 with phase := 10 }
       cleanLow x 1000000 (1000000, 490000) = true ∧ cleanLow x 1000000 (1020000, 530000) = true ∧ cleanLow x 1000000 (1020001, 500000) = false
        ∧ cleanLow x 1000000 (999999, 500000) = false ∧ cleanLow x 1000000 (1000000, 530001) = false ∧ cleanLow x 1000000 (1000000, 489999) = false)
    ∧ (let c := (chain5 { Filt.init with on := true } { Superv.init with fgnOpen := true, fgnLow := [490000, 530000] }).a.chain 5
       c.v.fgnOpen = true ∧ c.f.on = true ∧ ∀ w ∈ c.v.fgnLow, (src0.width - 10) * 1000 ≤ w ∧ w ≤ (src0.width + 30) * 1000) := by decide

/-- The first and the second tick mark after a frame on port A of F-die 0. -/
theorem test_met_tick_marks : let s := live .run; let t := s.updF 0 fun x => { x with a := { x.a with marks := 1 } }
    (s.fOn 0 = true ∧ ((s.fdie 0).port .a).marks = 0 ∧ s.tspan < 2 * (max s.tspan ((s.fdie 0).port .b).markAt - min s.tspan ((s.fdie 0).port .b).markAt))
    ∧ (t.fOn 0 = true ∧ 1 ≤ ((t.fdie 0).port .a).marks) ∧ State.reset.fOn 0 = false := by decide

/-- VFLD of F-die 0 at and above 17.5 V, its gate drive on and lost. -/
theorem test_met_gate_drive : let s := (live .run).setReg 0x4700 2 17501; let t := (live .run).setReg 0x4700 2 17500
    17500 < s.reg 0x4700 2 ∧ t.reg 0x4700 2 ≤ 17500 ∧ s.fOn 0 = true ∧ bitAt (s.fdie 0).causes 3 = false ∧ s.flt.shadows = []
    ∧ ((s.updF 0 fun x => { x with gate := false }).fdie 0).gate = false ∧ 17500 < 17501 ∧ ((s.updF 0 fun x => { x with gate := false }).fOn 0 = true)
    ∧ (s.fOn 127 = false) ∧ ((s.fdie 0).port .a).opRun.getLsbD 1 = false := by decide

theorem test_met_start_rules : let s := { srcIs .passed 0 with clk := { (srcIs .passed 0).clk with down := Src.refA.domains } }
    (s.clk.src .refA).st = .passed ∧ s.clk.down &&& Src.refA.domains ≠ 0 ∧ (srcIs .passed 0).clk.down &&& Src.refA.domains = 0
    ∧ (srcIs .released 0).clk.s4 = false ∧ (srcIs .released 0).reg 0x2010 1 = 0 ∧ ((srcIs .released 0).clk.sw Pll.pmu.sw).busy = none
    ∧ (let b := { live .run with clk := { (live .run).clk with down := 2#18 } }
       (live .run).clk.down.getLsbD 1 = false ∧ b.clk.down.getLsbD 1 = true ∧ b.clk.armed.getLsbD 2 = true) := by decide

/-- A password that is set, and its right and wrong presentations: the hash is the model's open value. -/
theorem test_met_password (b : List Byte) : let s := { live .run with br := { Bridle.init with hash := 1#8 :: (live .run).passHash b } }
    ((live .run).br.seat 0).passLock = false ∧ s.br.hash ≠ [] ∧ s.passHash b ≠ s.br.hash := by
  refine ⟨rfl, by simp, fun h => ?_⟩
  have := congrArg List.length h
  simp [State.passHash] at this

theorem test_met_right_password (b : List Byte) (h : (live .run).passHash b ≠ []) : let s := { live .run with br := { Bridle.init with hash := (live .run).passHash b } }
    s.br.hash ≠ [] ∧ s.passHash b = s.br.hash := ⟨h, rfl⟩

theorem test_met_passing_writes : let s := live .configure
    (∃ r, s.odRow 0x1023 0 = some r ∧ (r.pers == 1 && s.persBusy) = false ∧ wrAcc r 0x1023 0 ≠ 0 ∧ r.pers ≠ 3 ∧ s.absent 0x1023 0 = false
        ∧ s.regRight 0 (wrAcc r 0x1023 0) 0x1023 0 = true ∧ s.regRange 0 r 0x1023 0 1 = true ∧ s.staleOn s.srv 0 0x1023 0 = false)
    ∧ s.inConf = true ∧ (s.persBusy = false ∧ s.owner 0 = true ∧ s.br.hash = [] ∧ s.modes.mode = .configure)
    ∧ ({ s with br := { s.br with pers := [⟨0x2001, 0, 4, 0, none⟩] } } : State).br.pers ≠ [] := by
  refine ⟨⟨_, rfl, ?_⟩, ?_⟩ <;> decide

/-- A ring entry access: an entry to read, a ring with one free slot, the loose ring, and a journal region that is valid. -/
theorem test_met_ring_accesses : let s := ringed ring5; let one := { ring5 with head := 0, tail := 4294967295 }
    (s.mayUseRing 0 ring5 = true ∧ ring5.owner ≠ 8 ∧ ring5.policy = 0 ∧ ring5.slots = 16)
    ∧ ((ringed one).mayReadRing 0 one = true ∧ one.place 4294967288 + 8 / one.eb ≤ one.level ∧ one.loose = false ∧ { one with loose := true }.loose = true)
    ∧ (s.selRing 0 ≠ 0 ∧ 0 < s.ringRoom ring5 ∧ (List.replicate 8 (1 : Byte)).length = ring5.eb)
    ∧ (ring5.locked = false ∧ { ring5 with locked := true, purpose := 4 }.purpose = 4)
    ∧ (let t := updA (live .run) fun d => { d with jrn := { d.jrn with head := 8, at_ := some 0 } }
       t.jrnBusy .a = false ∧ t.has 0 0 = true ∧ t.a.jrn.valid t.order 0 8 = true ∧ t.a.jrn.valid t.order 1 8 = false ∧ t.jrnShut = false) := by decide

theorem test_met_timer_compare : let x : Tmr := { Tmr.init with en := true, period := true, count := 9, cmp := 12 }; let y := { x with count := 12 }
    x.en = true ∧ 13 ≠ x.cmp ∧ x.count ≠ x.cmp ∧ x.count < 13 ∧ (9 : Nat) = x.count ∧ 9 ≠ x.cmp ∧ 8 < x.count ∧ y.count = y.cmp ∧ y.count < 13 ∧ 11 < y.count := by decide

/-- A descriptor of 24 bytes with START and FINAL, of a channel that shares its ring with none. -/
theorem test_met_crc_final : (crcs true true).crcShared 2 = false ∧ (Tab.get CrcCh.init (crcs true true).crc 2).dirty = false
    ∧ bitAt (leAt ([0#8, 3#8] ++ List.replicate 22 0) 1 1) 1 = true ∧ bitAt (leAt ([0#8, 3#8] ++ List.replicate 22 0) 1 1) 0 = true
    ∧ ((crcs false false).st.crcBad.getLsbD 2 = false ∧ ((crcs true false).crcEn 2 = true)) := by decide

theorem test_met_otp_lease : (otpRuns 5#32).otp.op.isSome = true ∧ (otpRuns 5#32).leaseHas 4 0 = false ∧ ((otpRuns 5#32).setLease 4 (heldBy 0 [])).leaseHas 4 0 = true
    ∧ (otpRuns 5#32).otp.word 400 = .blank ∧ (otpRuns 5#32).diverted 39 = false ∧ (5#32) ≠ 0
    ∧ (window 400).ownerPass 0 = true ∧ (window 400).otpMay = true ∧ (window 400).otpOpen 400 = true ∧ (window 400).lcBusy = false ∧ (window 400).otp.lcRoom 3 = true := by decide

/-- The vendor's change from SHIPPED to 3 or 4 with a challenge open; the signature is the model's open value. -/
theorem test_met_vendor_change : let s := { vendor .configure Test.init with otp := { (vendor .configure Test.init).otp with lcChal := some 5 } }
    s.lcBusy = false ∧ s.otpMay = true ∧ s.has 0 1 = true ∧ s.inConf = true ∧ lcVendor s.otp.lc 3 = true ∧ s.otp.lcRoom 3 = true ∧ (3 : Nat) ≠ 2 ∧ s.otp.lcChal = some 5
    ∧ s.otp.anchorOk 0 = true := by decide

theorem test_met_key_and_era : let s := window 0; let p : List Byte := [0, 1, 0, 0] ++ List.replicate 16 7
    (s.persBusy = false ∧ s.ownerPass 0 = true ∧ s.modes.act = none ∧ s.keyPlainOk 0 p = true ∧ s.keyPut? p = some (0, 1, List.replicate 16 7))
    ∧ (∀ x ∈ s.keys.eraA.s0 ++ s.keys.eraA.s1 ++ (s.keys.eraB.s0 ++ s.keys.eraB.s1), x.gen < 1) ∧ s.admitted .a = true := by decide

theorem test_met_reread_of_tests : let s := vendor .configure { Test.init with chal := some 5, state := 2 }
    (s.has 0 3 = true ∧ s.tst.state = 2 ∧ s.tst.seat = 0) ∧ (vendor .configure { Test.init with chal := some 5, state := 3 }).tst.state = 3
    ∧ (vendor .run { Test.init with chal := some 5 }).inConf = false ∧ (vendor .configure Test.init).tst.refusals + 1 ≠ 3
    ∧ (vendor .configure { Test.init with refusals := 2 }).tst.refusals + 1 = 3 := by decide

/-- An upload that is whole on both dies, and the staging slots of the V830. -/
theorem test_met_staging : let u : Update := { Update.init with state := 2, manifest := mani, have_ := [(2 ^ 24, 64)] }; let s := updating u
    s.upd.state = 2 ∧ s.upd.whole = true ∧ s.admitted .a = true ∧ s.admitted .b = true ∧ s.order ≠ 830 ∧ (withDie s 1 1 0).admitted .b = false
    ∧ (after .stagingComplete s).upd.state = 3 ∧ (v830 .run).order = 830 := by decide
end Sys2Proof.Tests
end

namespace Sys2Proof.Machine

/-! ## Writes of configuration entries (R30, R70, R328, R330, R500) -/

/-! ### How a checked command is answered -/

/-- The first check that fails gives the answer (Table 14-6). -/
theorem Checked.answers {s : State} {c : Instr} {l : List (Bool × Status)} {f : State → State} {x : Bool × Status}
    (h : Checked s c l f) (ho : s.open_) (hx : (l.find? fun x => x.1) = some x) : exec c s = .next (s.ans x.2) := by
  obtain ⟨-, -, hfirst, -⟩ := h
  obtain ⟨b, st⟩ := x
  obtain ⟨hb, pre, rest, rfl, hpre⟩ := List.find?_eq_some_iff_append.mp hx
  obtain rfl : b = true := hb
  exact hfirst ho pre st rest rfl (by simpa using hpre)

/-- Where no check fails, the effect follows status OK. -/
theorem Checked.takes_effect {s : State} {c : Instr} {l : List (Bool × Status)} {f : State → State}
    (h : Checked s c l f) (ho : s.open_) (hl : (l.find? fun x => x.1) = none) : exec c s = .next (f (s.ans .ok)) := by
  obtain ⟨-, -, -, heff⟩ := h
  exact heff ho (by simpa [List.find?_eq_none] using hl)

/-- What makes a persistent write wait (R349, R459). -/
theorem State.persBusy_iff (s : State) :
    s.persBusy = true ↔ s.pfw = true ∨ s.restricts 41 = true ∨ s.modes.act.isSome = true := by
  simp [State.persBusy, or_assoc]

theorem State.persBusy_eq_false {s : State} (hp : s.pfw = false) (hr : s.restricts 41 = false) (ha : s.modes.act = none) :
    s.persBusy = false := by
  simp [State.persBusy, hp, hr, ha]

theorem State.inConf_iff (s : State) : s.inConf = true ↔ s.modes.mode = .configure := by
  simp [State.inConf]

theorem State.inConf_eq_false {s : State} (h : s.modes.mode ≠ .configure) : s.inConf = false := by
  simpa [State.inConf] using h

/-! ### What the effect of a write is -/

@[simp] theorem State.reg_persist (s : State) (idx sub v seat i j : Nat) : (s.persist idx sub v seat).reg i j = s.reg i j := rfl

@[simp] theorem State.reg_regate (s : State) (i j : Nat) : s.regate.reg i j = s.reg i j := rfl

@[simp] theorem State.reg_conf_self (s : State) (seat idx sub v : Nat) : (s.conf seat idx sub v).reg idx sub = v := by
  simp [State.conf]

theorem State.reg_conf_ne (s : State) {seat idx sub v i j : Nat} (h : odKey i j ≠ odKey idx sub) :
    (s.conf seat idx sub v).reg i j = s.reg i j := by
  simp [State.conf, State.reg_setReg_ne s v h.symm]

/-- What a persistent configuration write makes of `s`: status OK, the value in its entry, a write that waits for both flash copies. -/
def State.ConfWritten (s : State) (seat idx sub v : Nat) (t : State) : Prop :=
  t.br.last = .ok ∧ t.reg idx sub = v
    ∧ t.br.pers = s.br.pers ++ [{ idx := idx, sub := sub, val := v, seat := seat, ans := none }]
    ∧ (∀ i j, odKey i j ≠ odKey idx sub → t.reg i j = s.reg i j) ∧ t = { s with regs := t.regs, br := t.br }

theorem State.conf_written (s : State) (seat idx sub v : Nat) : s.ConfWritten seat idx sub v ((s.ans .ok).conf seat idx sub v) :=
  ⟨rfl, State.reg_conf_self _ seat idx sub v, rfl, fun _ _ h => State.reg_conf_ne (s.ans .ok) h, rfl⟩

/-! ### The four checks of a persistent configuration entry -/

/-- The checks of a persistent entry that only `own` may write, in CONFIGURE, with a value for which `ok` holds. -/
def State.confChecks (s : State) (own ok : Bool) : List (Bool × Status) :=
  [(s.persBusy, .busy), (!own, .rights), (!s.inConf, .mode), (!ok, .range)]

/-- The refusals of `confChecks`, each where the checks before it pass. -/
theorem Checked.conf_refusals {s : State} {c : Instr} {own ok : Bool} {f : State → State}
    (h : Checked s c (s.confChecks own ok) f) (ho : s.open_) :
    ((s.pfw = true ∨ s.restricts 41 = true ∨ s.modes.act.isSome = true) → exec c s = .next (s.ans .busy))
    ∧ (s.pfw = false → s.restricts 41 = false → s.modes.act = none →
        (own = false → exec c s = .next (s.ans .rights))
        ∧ (own = true → s.modes.mode ≠ .configure → exec c s = .next (s.ans .mode))
        ∧ (own = true → s.modes.mode = .configure → ok = false → exec c s = .next (s.ans .range))) := by
  refine ⟨fun hb => ?busy, fun hp hr ha => ?free⟩
  case busy => exact h.answers ho (x := (true, .busy)) (by simp [State.confChecks, s.persBusy_iff.mpr hb])
  case free =>
    have hfree := State.persBusy_eq_false hp hr ha
    refine ⟨fun hown => ?_, fun hown hmode => ?_, fun hown hmode hok => ?_⟩
    · exact h.answers ho (x := (true, .rights)) (by simp [State.confChecks, hfree, hown])
    · exact h.answers ho (x := (true, .mode)) (by simp [State.confChecks, hfree, hown, State.inConf_eq_false hmode])
    · exact h.answers ho (x := (true, .range)) (by simp [State.confChecks, hfree, hown, s.inConf_iff.mpr hmode, hok])

/-- Past all of `confChecks` the entry takes the value. -/
theorem Checked.conf_takes {s : State} {c : Instr} {own ok : Bool} {seat idx sub v : Nat}
    (h : Checked s c (s.confChecks own ok) fun u => u.conf seat idx sub v) (ho : s.open_) (hfree : s.persBusy = false)
    (hown : own = true) (hmode : s.modes.mode = .configure) (hok : ok = true) :
    ∃ t, exec c s = .next t ∧ s.ConfWritten seat idx sub v t :=
  ⟨_, h.takes_effect ho (by simp [State.confChecks, hfree, hown, s.inConf_iff.mpr hmode, hok]), s.conf_written seat idx sub v⟩

/-! ### Each command is a checked write -/

theorem spanKWrite_checked (s : State) (seat : Fin 8) (v : Nat) :
    Checked s (.spanKWrite seat v) (s.confChecks (s.owner seat) (s.spanKOk v)) fun u => u.conf seat 0x2001 0 v :=
  State.refuse_checked _ _ _ _ rfl

theorem tickOfsWrite_checked (s : State) (seat : Fin 8) (v : Nat) :
    Checked s (.tickOfsWrite seat v) (s.confChecks (s.owner seat) (decide (v < tspanNs (s.reg 0x2001 0))))
      fun u => u.conf seat 0x2002 0 v := by
  rw [State.confChecks, ← decide_not, decide_eq_decide.mpr Nat.not_lt]
  exact State.refuse_checked _ _ _ _ rfl

theorem lineOwner_checked (s : State) (seat : Fin 8) (v : Nat) :
    Checked s (.lineOwner seat v) (s.confChecks (s.owner seat && (s.br.seat seat).pass) (decide (v ≤ 7)))
      fun u => u.conf seat 0x1010 0 v := by
  rw [State.confChecks, ← decide_not (p := v ≤ 7), decide_eq_decide.mpr Nat.not_le]
  exact State.refuse_checked _ _ _ _ rfl

/-- The checks of CLK_GATE for domain `n` + 1 (R328); ACCESS for a domain that the order code lacks stands before RIGHTS. -/
theorem clkGate_checked (s : State) (seat : Fin 8) (n : Fin 18) (v : Nat) :
    Checked s (.clkGate seat n v)
      [(s.persBusy, .busy), (s.absent 0x2013 (n.val + 1), .access), (!s.owner seat, .rights), (!s.inConf, .mode),
        (decide (256 ≤ v) || clkFixed (n.val + 1) (s.reg 0x2013 (n.val + 1)) v, .range)]
      fun u => (u.conf seat 0x2013 (n.val + 1) (s.reg 0x2013 (n.val + 1) / 8 % 2 * 8 + v % 8)).regate :=
  State.refuse_checked _ _ _ _ rfl

/-- CLKOBS with selector `sel` and divisor `div` is an output of at most 100 MHz (R330). -/
def clkobsOk (sel div : Nat) : Bool :=
  decide (sel ≤ 18) && decide (1 ≤ div) && decide (div ≤ 4096) && decide (domainKHz sel ≤ 100000 * div)

theorem clkobsSelect_checked (s : State) (seat : Fin 8) (sub v : Nat) :
    Checked s (.clkobsSelect seat sub v)
      [(!(sub == 1 || sub == 2), .noEntry), (!s.owner seat, .rights),
        (!clkobsOk (if sub = 1 then v else s.reg 0x2016 1) (if sub = 1 then s.reg 0x2016 2 else v), .range)]
      fun u => u.setReg 0x2016 sub v :=
  State.refuse_checked _ _ _ _ rfl

theorem cosHirqClear_checked (s : State) (seat : Fin 8) (w : Fin 5) (m : Nat) :
    Checked s (.cosHirqClear seat w m) [(!(seat == 0), .rights), (!true, .mode), (!decide (m < 2 ^ 32), .range)]
      fun u => u.w1c 0x4490 (w.val + 1) m :=
  State.write_checked_f _ _ _ _ _ _ rfl

/-! ### The ranges -/

theorem State.spanKOk_of_pattern {s : State} {v : Nat} {p : Pattern} (hp : s.nextPattern = some p)
    (h : capsOk s.order v p.hdr = false ∨ budgetOk v p.hdr = false) : s.spanKOk v = false := by
  obtain h | h := h <;> simp [State.spanKOk, hp, h]

theorem State.spanKOk_out_of_range {s : State} {v : Nat} (h : 7 < v ∨ tspanNs v ≤ s.reg 0x2002 0) : s.spanKOk v = false := by
  obtain h | h := h <;> simp [State.spanKOk, Nat.not_le.mpr, Nat.not_lt.mpr, h]

/-- The clock entries 14 to 16 name domains of dies that the V830 lacks (R2). -/
theorem State.absent_clkGate_v830 {s : State} {n : Nat} (ho : s.order = 830) (hlo : 13 ≤ n) (hhi : n ≤ 15) :
    s.absent 0x2013 (n + 1) = true := by
  have hhi' : n < 16 := by omega
  simp [State.absent, ho, hlo, hhi']

theorem clkFixed_of_fixed {sub old new : Nat} (h : sub = 18 ∨ (bitAt old 3 = true ∧ new % 8 ≠ old % 8)) :
    clkFixed sub old new = true := by
  obtain h | ⟨hbit, hne⟩ := h
  · simp [clkFixed, h]
  · simp [clkFixed, hbit, hne.symm]

theorem clkobsOk_of_le {sel div : Nat} (hs : sel ≤ 18) (hlo : 1 ≤ div) (hhi : div ≤ 4096) (hf : domainKHz sel ≤ 100000 * div) :
    clkobsOk sel div = true := by
  simp [clkobsOk, hs, hlo, hhi, hf]

theorem clkobsOk_eq_false {sel div : Nat} (h : 18 < sel ∨ 100000 * div < domainKHz sel) : clkobsOk sel div = false := by
  obtain h | h := h <;> simp [clkobsOk, Nat.not_le.mpr h]

theorem State.w1c_of_lt (s : State) {idx sub m : Nat} (h : m < 2 ^ 32) :
    s.w1c idx sub m = s.setReg idx sub (s.reg idx sub &&& (2 ^ 64 - 1 - m)) := by
  rw [State.w1c, Nat.mod_eq_of_lt (by omega)]

/-! ### Each command, answer by answer -/

theorem clkGate_answers {s : State} (seat : Fin 8) (n : Fin 18) (v : Nat) (ho : s.open_) (hfree : s.persBusy = false)
    (habs : s.absent 0x2013 (n.val + 1) = false) :
    (s.owner seat = false → exec (.clkGate seat n v) s = .next (s.ans .rights))
    ∧ (s.owner seat = true → s.modes.mode ≠ .configure → exec (.clkGate seat n v) s = .next (s.ans .mode))
    ∧ (s.owner seat = true → s.modes.mode = .configure →
        (256 ≤ v ∨ n.val + 1 = 18 ∨ (bitAt (s.reg 0x2013 (n.val + 1)) 3 = true ∧ v % 8 ≠ s.reg 0x2013 (n.val + 1) % 8)) →
        exec (.clkGate seat n v) s = .next (s.ans .range))
    ∧ (s.owner seat = true → s.modes.mode = .configure → v < 256 → clkFixed (n.val + 1) (s.reg 0x2013 (n.val + 1)) v = false → ∃ t,
        exec (.clkGate seat n v) s = .next t ∧ t.reg 0x2013 (n.val + 1) = s.reg 0x2013 (n.val + 1) / 8 % 2 * 8 + v % 8
        ∧ t = { s with pow := t.pow, clk := t.clk, regs := t.regs, br := t.br }) := by
  have h := clkGate_checked s seat n v
  refine ⟨fun hown => ?rights, fun hown hmode => ?mode, fun hown hmode hbad => ?range, fun hown hmode hv hfix => ?ok⟩
  case rights => exact h.answers ho (x := (true, .rights)) (by simp [hfree, habs, hown])
  case mode => exact h.answers ho (x := (true, .mode)) (by simp [hfree, habs, hown, State.inConf_eq_false hmode])
  case range =>
    have hbad' : (decide (256 ≤ v) || clkFixed (n.val + 1) (s.reg 0x2013 (n.val + 1)) v) = true := by
      obtain hv | hfix := hbad
      · simp [hv]
      · simp [clkFixed_of_fixed hfix]
    exact h.answers ho (x := (true, .range)) (by simp [hfree, habs, hown, s.inConf_iff.mpr hmode, hbad'])
  case ok =>
    refine ⟨_, h.takes_effect ho ?_, ?_, rfl⟩
    · simp [hfree, habs, hown, s.inConf_iff.mpr hmode, Nat.not_le.mpr hv, hfix]
    · simp

theorem clkobsSelect_answers {s : State} (seat : Fin 8) (sub v : Nat) (ho : s.open_) :
    (sub ≠ 1 → sub ≠ 2 → exec (.clkobsSelect seat sub v) s = .next (s.ans .noEntry))
    ∧ (sub = 1 ∨ sub = 2 → s.owner seat = false → exec (.clkobsSelect seat sub v) s = .next (s.ans .rights))
    ∧ (s.owner seat = true → sub = 1 → (v ≤ 18 → 1 ≤ s.reg 0x2016 2 → s.reg 0x2016 2 ≤ 4096 → domainKHz v ≤ 100000 * s.reg 0x2016 2 →
          exec (.clkobsSelect seat sub v) s = .next ((s.ans .ok).setReg 0x2016 1 v))
        ∧ (18 < v ∨ 100000 * s.reg 0x2016 2 < domainKHz v → exec (.clkobsSelect seat sub v) s = .next (s.ans .range)))
    ∧ (s.owner seat = true → sub = 2 → s.reg 0x2016 1 ≤ 18 → 1 ≤ v → v ≤ 4096 → domainKHz (s.reg 0x2016 1) ≤ 100000 * v →
          exec (.clkobsSelect seat sub v) s = .next ((s.ans .ok).setReg 0x2016 2 v)) := by
  have h := clkobsSelect_checked s seat sub v
  refine ⟨fun h1 h2 => ?noEntry, fun hsub hown => ?rights, fun hown hsub => ⟨fun hsel hlo hhi hf => ?select, fun hbad => ?range⟩,
    fun hown hsub hsel hlo hhi hf => ?divide⟩
  case noEntry => exact h.answers ho (x := (true, .noEntry)) (by simp [h1, h2])
  case rights => exact h.answers ho (x := (true, .rights)) (by simp [hsub, hown])
  case select =>
    subst hsub
    exact h.takes_effect ho (by simp [hown, clkobsOk_of_le hsel hlo hhi hf])
  case range => exact h.answers ho (x := (true, .range)) (by simp [hown, hsub, clkobsOk_eq_false hbad])
  case divide =>
    subst hsub
    exact h.takes_effect ho (by simp [hown, clkobsOk_of_le hsel hlo hhi hf])

theorem cosHirqClear_answers {s : State} (seat : Fin 8) (w : Fin 5) (m : Nat) (ho : s.open_) :
    (seat ≠ 0 → exec (.cosHirqClear seat w m) s = .next (s.ans .rights))
    ∧ (seat = 0 → m < 2 ^ 32 → exec (.cosHirqClear seat w m) s
        = .next ((s.ans .ok).setReg 0x4490 (w.val + 1) (s.reg 0x4490 (w.val + 1) &&& (2 ^ 64 - 1 - m)))) := by
  have h := cosHirqClear_checked s seat w m
  refine ⟨fun hseat => ?rights, fun hseat hm => ?ok⟩
  case rights => exact h.answers ho (x := (true, .rights)) (by simp [hseat])
  case ok => rw [h.takes_effect ho (by simpa [hseat] using hm), State.w1c_of_lt _ hm, State.reg_ans]

/-- Settles O32: each command is a checked write, whose first failing check answers and whose effect follows where none fails. -/
theorem configurationWritesAreChecked : Obligations.ConfigurationWritesAreChecked := by
  unfold Obligations.ConfigurationWritesAreChecked
  refine ⟨fun s seat v ho => ?conf, fun _ _ _ hp h => State.spanKOk_of_pattern hp h, fun _ _ h => State.spanKOk_out_of_range h,
    fun s seat n v ho hp hr ha => ?clkGate, fun _ seat sub v ho => clkobsSelect_answers seat sub v ho,
    fun _ seat w m ho => cosHirqClear_answers seat w m ho⟩
  case conf =>
    have hspan := spanKWrite_checked s seat v
    have htick := tickOfsWrite_checked s seat v
    have hline := lineOwner_checked s seat v
    refine ⟨hspan.conf_refusals ho, htick.conf_refusals ho, hline.conf_refusals ho, fun hp hr ha hown hmode => ?_⟩
    have hfree := State.persBusy_eq_false hp hr ha
    exact ⟨fun hv => hspan.conf_takes ho hfree hown hmode hv,
      fun hv => htick.conf_takes ho hfree hown hmode (decide_eq_true hv),
      fun hpass hv => hline.conf_takes ho hfree (by simp [hown, hpass]) hmode (decide_eq_true hv)⟩
  case clkGate =>
    have hfree := State.persBusy_eq_false hp hr ha
    refine ⟨fun hord hlo hhi => ?_, clkGate_answers seat n v ho hfree⟩
    exact (clkGate_checked s seat n v).answers ho (x := (true, .access)) (by simp [hfree, State.absent_clkGate_v830 hord hlo hhi])

end Sys2Proof.Machine

namespace Sys2Proof

/-! ## CTU, the counter of rising edges (R118) -/

/-- The count that a CTU with the committed count `cv` forms from its inputs CU and R (R118). -/
def ctuCount (cv : Nat) (cu r : In) : Nat :=
  if r.v = 1 then 0 else if cu.rise then min 16383 (cv + 1) else cv

theorem In.rise_of_prev_zero {i : In} (hv : i.v = 1) (hprev : i.prev = 0) : i.rise = true := by
  simp [In.rise, hv, hprev]

theorem In.rise_eq_false {i : In} (h : i.v ≠ 1 ∨ i.prev = 1) : i.rise = false := by
  obtain hv | hprev := h
  · simp [In.rise, hv]
  · simp [In.rise, hprev]

/-- A count that is stepped in U14 stops at the top of the type (R97). -/
theorem clampI_u14_succ (cv : Nat) : clampI 0 16383 ((cv : Int) + 1) = (min 16383 (cv + 1) : Nat) := by
  unfold clampI
  split_ifs <;> omega

theorem ctuCount_of_reset {cv : Nat} {cu r : In} (hr : r.v = 1) : ctuCount cv cu r = 0 := if_pos hr

theorem ctuCount_of_rise {cv : Nat} {cu r : In} (hr : r.v ≠ 1) (hcu : cu.rise = true) :
    ctuCount cv cu r = min 16383 (cv + 1) := by
  rw [ctuCount, if_neg hr, if_pos hcu]

theorem ctuCount_of_no_rise {cv : Nat} {cu r : In} (hr : r.v ≠ 1) (hcu : cu.rise = false) : ctuCount cv cu r = cv := by
  simp [ctuCount, hr, hcu]

theorem ctuCount_le {cv : Nat} (hcv : cv ≤ 16383) (cu r : In) : ctuCount cv cu r ≤ 16383 := by
  unfold ctuCount
  split_ifs
  · exact Nat.zero_le _
  · exact Nat.min_le_left _ _
  · exact hcv

/-- The evaluation of CTU counts in the integers and clamps; its two outputs are those of the count in the naturals. -/
theorem evalCtu_outs (pv cv : Nat) (q : Int) (cu r : In) :
    (evalCtu pv [cu, r] [q, (cv : Int)]).outs
      = [if pv ≤ ctuCount cv cu r then 1 else 0, (ctuCount cv cu r : Int)] := by
  have hcount : (if r.v = 1 then 0 else if cu.rise then clampI 0 16383 ((cv : Int) + 1) else cv) = (ctuCount cv cu r : Int) := by
    rw [clampI_u14_succ, ctuCount, Nat.cast_ite, Nat.cast_ite, Nat.cast_zero]
  simp [evalCtu, on, inp, bi, hcount]

/-- Settles O53: the outputs are those of `ctuCount`, whose three cases are the reset, the counted edge and the kept count. -/
theorem counterCountsRisingEdges : Obligations.CounterCountsRisingEdges := by
  intro pv cv q cu r hcv
  exact ⟨ctuCount cv cu r, evalCtu_outs pv cv q cu r, ctuCount_le hcv cu r, ctuCount_of_reset,
    fun hr hv hprev => ctuCount_of_rise hr (In.rise_of_prev_zero hv hprev),
    fun hr hkept => ctuCount_of_no_rise hr (In.rise_eq_false hkept)⟩

end Sys2Proof

namespace Sys2Proof.Machine

/-! ## Clears of FSW and FSW_SEC (R302, R303) -/

/-! ### The right to clear -/

theorem State.mayClear_iff (s : State) (seat b : Nat) :
    s.mayClear seat b = true ↔
      s.cls b ≤ 1 ∨ s.owner seat = true ∨ (s.cls b = 2 ∧ ∀ z ∈ s.zonesOfBit b, s.ownsZone seat z = true) := by
  simp [State.mayClear, or_assoc]

theorem mem_maskBits {m b : Nat} : b ∈ maskBits m ↔ b < 64 ∧ bitAt m b = true := by
  simp [maskBits]

theorem contains_maskBits {m b : Nat} (hb : b < 64) : (maskBits m).contains b = bitAt m b := by
  rw [Bool.eq_iff_iff, List.contains_iff_mem, mem_maskBits, and_iff_right hb]

/-- The checks of a clear: the right for every bit of the mask, every mode that serves writes, the 64 bits of the entry. -/
def State.clearChecks (s : State) (seat mask : Nat) : List (Bool × Status) :=
  [(!(maskBits mask).all fun b => s.mayClear seat b, .rights), (!true, .mode), (!decide (mask < 2 ^ 64), .range)]

theorem fswClr_checked (s : State) (seat : Fin 8) (mask : Nat) :
    Checked s (.fswClr seat mask) (s.clearChecks seat mask) fun u => (maskBits mask).foldl State.clearBit u :=
  State.write_checked_f _ _ _ _ _ _ rfl

theorem fswSecClr_checked (s : State) (seat : Fin 8) (mask : Nat) :
    Checked s (.fswSecClr seat mask) (s.clearChecks seat mask) fun u => (maskBits mask).foldl State.clearSec u :=
  State.write_checked_f _ _ _ _ _ _ rfl

/-- BOOT serves no write (R384). -/
theorem State.serves_of_boot {s : State} (h : s.modes.mode = .boot) : s.serves = false := by
  simp [State.serves, h]

theorem Checked.unchanged_in_shelf {s : State} {c : Instr} {l : List (Bool × Status)} {f : State → State} (h : Checked s c l f)
    (hs : s.modes.mode = .shelf) : exec c s = .next s := by
  obtain ⟨hshelf, -, -, -⟩ := h
  exact hshelf hs

theorem Checked.mode_in_boot {s : State} {c : Instr} {l : List (Bool × Status)} {f : State → State} (h : Checked s c l f)
    (hb : s.modes.mode = .boot) : exec c s = .next (s.ans .mode) := by
  obtain ⟨-, hclosed, -, -⟩ := h
  exact hclosed (by simp [hb]) (State.serves_of_boot hb)

section
variable {s : State} {c : Instr} {seat mask : Nat} {f : State → State}

/-- One bit without its right refuses the whole write (R302, R13). -/
theorem Checked.clear_refused (h : Checked s c (s.clearChecks seat mask) f) (ho : s.open_) {b : Nat} (hb : b < 64)
    (hm : bitAt mask b = true) (hno : s.mayClear seat b = false) : exec c s = .next (s.ans .rights) := by
  have hall : ((maskBits mask).all fun b => s.mayClear seat b) = false :=
    List.all_eq_false.mpr ⟨b, mem_maskBits.mpr ⟨hb, hm⟩, by simp [hno]⟩
  exact h.answers ho (x := (true, .rights)) (by simp [State.clearChecks, hall])

theorem Checked.clear_accepted (h : Checked s c (s.clearChecks seat mask) f) (ho : s.open_) (hmask : mask < 2 ^ 64)
    (hmay : ∀ b, b < 64 → bitAt mask b = true → s.mayClear seat b = true) : exec c s = .next (f (s.ans .ok)) := by
  have hall : ((maskBits mask).all fun b => s.mayClear seat b) = true :=
    List.all_eq_true.mpr fun b hb => hmay b (mem_maskBits.mp hb).1 (mem_maskBits.mp hb).2
  exact h.takes_effect ho (by simpa [State.clearChecks, hall] using hmask)

end

/-! ### One bit -/

theorem getLsbD_clrBit64 (w : BitVec 64) (b : Nat) {i : Nat} (hi : i < 64) :
    (clrBit64 w b).getLsbD i = (w.getLsbD i && !decide (i = b)) := by
  have hbit : ((1 : BitVec 64) <<< b).getLsbD i = decide (i = b) := by
    rw [show (1 : BitVec 64) <<< b = BitVec.twoPow 64 b from rfl, BitVec.getLsbD_twoPow, ← Bool.decide_and]
    exact decide_eq_decide.mpr (by omega)
  rw [clrBit64, BitVec.getLsbD_and, BitVec.getLsbD_not, hbit, decide_eq_true hi, Bool.true_and]

/-- Of a word whose bit `b` is cleared where `ok b` allows it, bit `i` goes exactly if it is that bit and `ok i` allows it. -/
theorem getLsbD_ite_cleared {w w' : BitVec 64} {b i : Nat} (ok : Nat → Bool)
    (hw : w'.getLsbD i = (w.getLsbD i && !decide (i = b))) :
    (if w.getLsbD b && ok b then w' else w).getLsbD i = (w.getLsbD i && !(decide (i = b) && ok i)) := by
  by_cases hib : i = b
  · subst hib
    cases hbit : w.getLsbD i <;> cases hok : ok i <;> simp [hw, hbit, -BitVec.getLsbD_eq_getElem]
  · split_ifs <;> simp [hw, hib, -BitVec.getLsbD_eq_getElem]

/-- Neither a standing cause nor a latch in the cycle `now` holds bit `b` set (R303); `stamps` are the times of the latches. -/
def Faults.clearable (f : Faults) (stamps : Tab (Option Nat)) (now b : Nat) : Bool :=
  !f.cause.getLsbD b && decide (Tab.get none stamps b ≠ some now)

/-- The collector once bit `b` of FSW is cleared. -/
def Faults.withoutFsw (f : Faults) (b : Nat) : Faults :=
  { f with f1 := clrBit64 f.f1 b, f2 := clrBit64 f.f2 b, force3 := clrBit64 f.force3 b, frozen := clrBit64 f.frozen b
           pairZones := if b = 54 then [] else f.pairZones }

theorem Faults.getLsbD_fsw_withoutFsw (f : Faults) (b : Nat) {i : Nat} (hi : i < 64) :
    (f.withoutFsw b).fsw.getLsbD i = (f.fsw.getLsbD i && !decide (i = b)) := by
  simp only [Faults.fsw, Faults.withoutFsw, BitVec.getLsbD_or, getLsbD_clrBit64 _ b hi, Bool.and_or_distrib_right]

@[simp] theorem State.relatch_flt (s : State) (b : Nat) : (s.relatch b).flt = s.flt := by
  simp [State.relatch]

theorem State.clearBit_flt (s : State) (b : Nat) :
    (s.clearBit b).flt
      = if s.flt.fsw.getLsbD b && s.flt.clearable s.flt.latchAt s.time b then s.flt.withoutFsw b else s.flt := by
  unfold State.clearBit Faults.clearable
  by_cases hset : s.flt.fsw.getLsbD b
  · by_cases hcause : s.flt.cause.getLsbD b
    · simp [hset, hcause]
    · by_cases hnow : Tab.get none s.flt.latchAt b = some s.time
      · simp [hset, hcause, hnow]
      · simp [hset, hcause, hnow, Faults.withoutFsw]
  · simp [hset]

theorem State.clearSec_flt (s : State) (b : Nat) :
    (s.clearSec b).flt
      = if s.flt.sec.getLsbD b && s.flt.clearable s.flt.secAt s.time b then { s.flt with sec := clrBit64 s.flt.sec b } else s.flt := by
  unfold State.clearSec Faults.clearable
  by_cases hset : s.flt.sec.getLsbD b
  · by_cases hcause : s.flt.cause.getLsbD b
    · simp [hset, hcause]
    · by_cases hnow : Tab.get none s.flt.secAt b = some s.time
      · simp [hset, hcause, hnow]
      · simp [hset, hcause, hnow]
  · simp [hset]

theorem State.fswBit_clearBit (s : State) (b : Nat) {i : Nat} (hi : i < 64) :
    (s.clearBit b).fswBit i = (s.fswBit i && !(decide (i = b) && s.flt.clearable s.flt.latchAt s.time i)) := by
  rw [State.fswBit, State.clearBit_flt, apply_ite Faults.fsw]
  exact getLsbD_ite_cleared (s.flt.clearable s.flt.latchAt s.time) (s.flt.getLsbD_fsw_withoutFsw b hi)

theorem State.secBit_clearSec (s : State) (b : Nat) {i : Nat} (hi : i < 64) :
    (s.clearSec b).flt.sec.getLsbD i = (s.flt.sec.getLsbD i && !(decide (i = b) && s.flt.clearable s.flt.secAt s.time i)) := by
  rw [State.clearSec_flt, apply_ite Faults.sec]
  exact getLsbD_ite_cleared (s.flt.clearable s.flt.secAt s.time) (getLsbD_clrBit64 s.flt.sec b hi)

/-! ### What a clear leaves unchanged -/

/-- The collector without the fields that a clear of FSW or FSW_SEC changes. -/
def Faults.besideLatches (f : Faults) : Faults :=
  { f with f1 := 0, f2 := 0, sec := 0, force3 := 0, frozen := 0, pairZones := [] }

theorem State.clearBit_besideLatches (s : State) (b : Nat) : (s.clearBit b).flt.besideLatches = s.flt.besideLatches := by
  rw [State.clearBit_flt]
  split_ifs <;> rfl

theorem State.clearBit_sec (s : State) (b : Nat) : (s.clearBit b).flt.sec = s.flt.sec := by
  rw [State.clearBit_flt]
  split_ifs <;> rfl

theorem State.clearSec_besideLatches (s : State) (b : Nat) : (s.clearSec b).flt.besideLatches = s.flt.besideLatches := by
  rw [State.clearSec_flt]
  split_ifs <;> rfl

theorem State.clearSec_f1 (s : State) (b : Nat) : (s.clearSec b).flt.f1 = s.flt.f1 := by
  rw [State.clearSec_flt]
  split_ifs <;> rfl

theorem State.clearSec_f2 (s : State) (b : Nat) : (s.clearSec b).flt.f2 = s.flt.f2 := by
  rw [State.clearSec_flt]
  split_ifs <;> rfl

theorem State.clearBit_clearable (s : State) (b i : Nat) :
    (s.clearBit b).flt.clearable (s.clearBit b).flt.latchAt (s.clearBit b).time i = s.flt.clearable s.flt.latchAt s.time i := by
  have htime : (s.clearBit b).time = s.time := (State.clearBit_only s b (Only.refl 0x2d8 s) rfl).time rfl
  have hclear := congrArg (fun f => f.clearable f.latchAt s.time i) (s.clearBit_besideLatches b)
  rw [htime]
  exact hclear

theorem State.clearSec_clearable (s : State) (b i : Nat) :
    (s.clearSec b).flt.clearable (s.clearSec b).flt.secAt (s.clearSec b).time i = s.flt.clearable s.flt.secAt s.time i := by
  have htime : (s.clearSec b).time = s.time := (State.clearSec_only s b (Only.refl 0x2d0 s) rfl).time rfl
  have hclear := congrArg (fun f => f.clearable f.secAt s.time i) (s.clearSec_besideLatches b)
  rw [htime]
  exact hclear

/-- The causes, the DIE_STATE values, the shadows and the trip lines are not among the latches. -/
theorem State.frame_of_besideLatches {s t : State} (h : t.flt.besideLatches = s.flt.besideLatches) :
    t.flt.cause = s.flt.cause ∧ t.flt.die = s.flt.die ∧ t.flt.shadows = s.flt.shadows ∧ ∀ d, t.tripLine d = s.tripLine d := by
  have hcause := congrArg Faults.cause h
  have hdie := congrArg Faults.die h
  have hshadows := congrArg Faults.shadows h
  have htrip (d : Die) := congrArg (fun f => ({ s with flt := f } : State).tripLine d) h
  exact ⟨hcause, hdie, hshadows, fun | .a => htrip .a | .b => htrip .b⟩

/-! ### All bits of a mask -/

/-- What one step leaves as it was, a sequence of steps leaves as it was. -/
theorem State.foldl_unchanged {α : Type} {g : State → Nat → State} {p : State → α} (h : ∀ s b, p (g s b) = p s)
    (l : List Nat) (s : State) : p (l.foldl g s) = p s := by
  induction l generalizing s with
  | nil => rfl
  | cons b l ih => rw [List.foldl_cons, ih, h]

/-- Where a step for `b` takes a bit away exactly if `b` is its number `i` and `ok` holds, which no step changes, the steps for all
of `l` take it away exactly if `i` is in `l` and `ok` holds. -/
theorem State.foldl_cleared {g : State → Nat → State} {bit ok : State → Bool} {i : Nat}
    (hbit : ∀ s b, bit (g s b) = (bit s && !(decide (i = b) && ok s))) (hok : ∀ s b, ok (g s b) = ok s)
    (l : List Nat) (s : State) : bit (l.foldl g s) = (bit s && !(l.contains i && ok s)) := by
  induction l generalizing s with
  | nil => simp
  | cons b l ih =>
    rw [List.foldl_cons, ih, hbit, hok, List.contains_cons, beq_eq_decide]
    cases ok s <;> simp [Bool.and_assoc]

theorem State.fswBit_clearBits (s : State) (mask : Nat) {i : Nat} (hi : i < 64) :
    ((maskBits mask).foldl State.clearBit s).fswBit i
      = (s.fswBit i && !(bitAt mask i && s.flt.clearable s.flt.latchAt s.time i)) := by
  rw [← contains_maskBits hi]
  exact State.foldl_cleared (bit := fun s => s.fswBit i) (ok := fun s => s.flt.clearable s.flt.latchAt s.time i)
    (fun s b => s.fswBit_clearBit b hi) (fun s b => s.clearBit_clearable b i) _ s

theorem State.secBit_clearSecs (s : State) (mask : Nat) {i : Nat} (hi : i < 64) :
    ((maskBits mask).foldl State.clearSec s).flt.sec.getLsbD i
      = (s.flt.sec.getLsbD i && !(bitAt mask i && s.flt.clearable s.flt.secAt s.time i)) := by
  rw [← contains_maskBits hi]
  exact State.foldl_cleared (bit := fun s => s.flt.sec.getLsbD i) (ok := fun s => s.flt.clearable s.flt.secAt s.time i)
    (fun s b => s.secBit_clearSec b hi) (fun s b => s.clearSec_clearable b i) _ s

theorem State.clearBits_besideLatches (s : State) (l : List Nat) :
    (l.foldl State.clearBit s).flt.besideLatches = s.flt.besideLatches :=
  State.foldl_unchanged (p := fun s => s.flt.besideLatches) State.clearBit_besideLatches l s

theorem State.clearBits_sec (s : State) (l : List Nat) : (l.foldl State.clearBit s).flt.sec = s.flt.sec :=
  State.foldl_unchanged (p := fun s => s.flt.sec) State.clearBit_sec l s

theorem State.clearSecs_besideLatches (s : State) (l : List Nat) :
    (l.foldl State.clearSec s).flt.besideLatches = s.flt.besideLatches :=
  State.foldl_unchanged (p := fun s => s.flt.besideLatches) State.clearSec_besideLatches l s

theorem State.clearSecs_f1 (s : State) (l : List Nat) : (l.foldl State.clearSec s).flt.f1 = s.flt.f1 :=
  State.foldl_unchanged (p := fun s => s.flt.f1) State.clearSec_f1 l s

theorem State.clearSecs_f2 (s : State) (l : List Nat) : (l.foldl State.clearSec s).flt.f2 = s.flt.f2 :=
  State.foldl_unchanged (p := fun s => s.flt.f2) State.clearSec_f2 l s

/-- An accepted clear of FSW touches clk, flt, a, b, regs and br. -/
theorem State.clearBits_only (s : State) (l : List Nat) : Only 0xad8 s (l.foldl State.clearBit (s.ans .ok)) :=
  Only.foldl (State.ans_only s .ok (Only.refl 0xad8 s) rfl) fun u b hu => State.clearBit_only u b hu rfl

/-- An accepted clear of FSW_SEC touches flt, a, b, regs and br. -/
theorem State.clearSecs_only (s : State) (l : List Nat) : Only 0xad0 s (l.foldl State.clearSec (s.ans .ok)) :=
  Only.foldl (State.ans_only s .ok (Only.refl 0xad0 s) rfl) fun u b hu => State.clearSec_only u b hu rfl

/-- Settles O14: both writes are checked in the order of Table 14-6, and an accepted one is a sequence of clears of single bits,
each of which leaves the causes and the times of the latches as they were. -/
theorem clearsFollowRightsAndCauses : Obligations.ClearsFollowRightsAndCauses := by
  unfold Obligations.ClearsFollowRightsAndCauses
  refine ⟨fun s seat mask => ?closed, fun s seat mask ho hmask => ⟨?refused, fun hmay => ⟨?fsw, ?sec⟩⟩⟩
  case closed =>
    have hfsw := fswClr_checked s seat mask
    have hsec := fswSecClr_checked s seat mask
    exact ⟨fun h => ⟨hfsw.unchanged_in_shelf h, hsec.unchanged_in_shelf h⟩, fun h => ⟨hfsw.mode_in_boot h, hsec.mode_in_boot h⟩⟩
  case refused =>
    rintro ⟨b, hb, hm, hno⟩
    have hno' : s.mayClear seat b = false := by rwa [← s.mayClear_iff, Bool.not_eq_true] at hno
    exact ⟨(fswClr_checked s seat mask).clear_refused ho hb hm hno', (fswSecClr_checked s seat mask).clear_refused ho hb hm hno'⟩
  case fsw =>
    have hnext := (fswClr_checked s seat mask).clear_accepted ho hmask fun b hb hm => (s.mayClear_iff seat b).mpr (hmay b hb hm)
    have honly := s.clearBits_only (maskBits mask)
    obtain ⟨hcause, hdie, hshadows, htrip⟩ := State.frame_of_besideLatches ((s.ans .ok).clearBits_besideLatches (maskBits mask))
    refine ⟨_, hnext, fun b hb => ?bits, State.clearBits_sec _ _, hcause, honly.modes rfl, hdie, hshadows, htrip, honly.otp rfl,
      honly.rings rfl, honly.pat rfl, honly.fd rfl, honly.pow rfl⟩
    case bits =>
      rw [State.fswBit_clearBits _ mask hb, Faults.clearable, ← Bool.and_assoc]
      rfl
  case sec =>
    have hnext := (fswSecClr_checked s seat mask).clear_accepted ho hmask fun b hb hm => (s.mayClear_iff seat b).mpr (hmay b hb hm)
    have honly := s.clearSecs_only (maskBits mask)
    obtain ⟨hcause, hdie, hshadows, htrip⟩ := State.frame_of_besideLatches ((s.ans .ok).clearSecs_besideLatches (maskBits mask))
    refine ⟨_, hnext, fun b hb => ?bits, State.clearSecs_f1 _ _, State.clearSecs_f2 _ _, hcause, honly.modes rfl, hdie, hshadows, htrip,
      honly.otp rfl, honly.rings rfl, honly.pat rfl, honly.fd rfl, honly.pow rfl, honly.clk rfl⟩
    case bits =>
      rw [State.secBit_clearSecs _ mask hb, Faults.clearable, ← Bool.and_assoc]
      rfl

end Sys2Proof.Machine

namespace Sys2Proof.Machine

/-! ## General timers (R411, R412) -/

/-! ### What a checked command can answer -/

/-- A served command only answers a status, or it takes effect. -/
theorem Checked.refused_or_takes_effect {s : State} {c : Instr} {l : List (Bool × Status)} {f : State → State}
    (h : Checked s c l f) (ho : s.open_) : (∃ st, exec c s = .next (s.ans st)) ∨ exec c s = .next (f (s.ans .ok)) := by
  cases hl : l.find? fun x => x.1 with
  | none => exact .inr (h.takes_effect ho hl)
  | some x => exact .inl ⟨x.2, h.answers ho hl⟩

/-! ### A timer after each operation -/

@[simp] theorem State.timer_ans (s : State) (c : Status) (k : Nat) : (s.ans c).timer k = s.timer k := rfl

@[simp] theorem State.timer_setTimer_self (s : State) (k : Nat) (x : Tmr) : (s.setTimer k x).timer k = x :=
  Tab.get_set_self Tmr.init s.tmr k x

/-- The entry that a match writes to its ring leaves the timers as they are. -/
theorem State.timer_ringPut (s : State) (n : Nat) (bs : List Byte) (k : Nat) : (s.ringPut n bs).1.timer k = s.timer k := by
  rw [State.timer, (State.ringPut_only s n bs (Only.refl 0x10cbbf6 s) rfl).tmr rfl, State.timer]

@[simp] theorem State.timer_putTimer_self (s : State) (k : Nat) (x : Tmr × Bool) : (s.putTimer k x).timer k = x.1 := by
  unfold State.putTimer
  dsimp only
  split
  · rw [State.timer_ringPut, State.timer_setTimer_self]
  · rw [State.timer_setTimer_self]

/-- No outcome of Table 16-4 takes or drops the value that waits. -/
theorem Tmr.writeCmp_keeps_next (x : Tmr) (v : Nat) :
    (x.writeCmp v).1.nextPend = x.nextPend ∧ (x.writeCmp v).1.next = x.next := by
  unfold Tmr.writeCmp Tmr.match_
  dsimp only
  split_ifs <;> exact ⟨rfl, rfl⟩

/-! ### Each command is a checked write -/

theorem tmrCtrl_checked (s : State) (seat : Fin 8) (d : Die) (n : Fin 8) (v : Nat) : let i := 8 * d.n + n.val; let x := s.timer i
    Checked s (.tmrCtrl seat d n v)
      [(!s.tmrRight seat i, .rights), (x.en && (bitAt v 1 != x.src || bitAt v 2 != x.period), .mode)]
      fun u => u.setTimer i { x with
        en := bitAt v 0, src := bitAt v 1, period := bitAt v 2, ring := bitAt v 3, matches_ := if bitAt v 0 && !x.en then 0 else x.matches_
        xfer := x.xfer && x.en } :=
  State.refuse_checked _ _ _ _ rfl

theorem tmrCount_checked (s : State) (seat : Fin 8) (d : Die) (n : Fin 8) (v : Nat) : let i := 8 * d.n + n.val
    Checked s (.tmrCount seat d n v) [(!s.tmrRight seat i, .rights), ((s.timer i).en, .mode), (decide (2 ^ 32 ≤ v), .range)]
      fun u => u.setTimer i { u.timer i with count := v } :=
  State.refuse_checked _ _ _ _ rfl

theorem tmrCmpNext_checked (s : State) (seat : Fin 8) (d : Die) (n : Fin 8) (v : Nat) : let i := 8 * d.n + n.val
    Checked s (.tmrCmpNext seat d n v) [(!s.tmrRight seat i, .rights), (decide (2 ^ 32 ≤ v), .range)]
      fun u => u.setTimer i { u.timer i with next := v, nextPend := true } :=
  State.refuse_checked _ _ _ _ rfl

theorem tmrCmp_checked (s : State) (seat : Fin 8) (d : Die) (n : Fin 8) (v : Nat) : let i := 8 * d.n + n.val
    Checked s (.tmrCmp seat d n v)
      [(!s.tmrRight seat i, .rights), (decide (2 ^ 32 ≤ v) || ((s.timer i).period && v == 0), .range)]
      fun u => u.putTimer i ((u.timer i).writeCmp v) :=
  State.refuse_checked _ _ _ _ rfl

/-- Settles O43: each command is a checked write, whose effect is read back from the timer; a write of CMP, refused or not, keeps
the value that waits. -/
theorem timersHoldTheirModeWhileEnabled : Obligations.TimersHoldTheirModeWhileEnabled := by
  unfold Obligations.TimersHoldTheirModeWhileEnabled
  intro s k d n v ho hright
  have hctrl := tmrCtrl_checked s k d n v
  have hcount := tmrCount_checked s k d n v
  refine ⟨fun hen hnew => ?ctrlHeld, fun hen => ?countHeld, fun hen => ?ctrl, fun hen hv => ?count, fun hv => ?cmpNext, ?cmp⟩
  case ctrlHeld =>
    have hchanged : (bitAt v 1 != (s.timer (8 * d.n + n.val)).src || bitAt v 2 != (s.timer (8 * d.n + n.val)).period) = true := by
      simpa using hnew
    exact hctrl.answers ho (x := (true, .mode)) (by simp [hright, hen, hchanged])
  case countHeld => exact hcount.answers ho (x := (true, .mode)) (by simp [hright, hen])
  case ctrl => exact ⟨_, hctrl.takes_effect ho (by simp [hright, hen]), by simp⟩
  case count => exact ⟨_, hcount.takes_effect ho (by simpa [hright, hen] using hv), by simp⟩
  case cmpNext => exact ⟨_, (tmrCmpNext_checked s k d n v).takes_effect ho (by simpa [hright] using hv), by simp⟩
  case cmp =>
    obtain ⟨st, hrefused⟩ | htaken := (tmrCmp_checked s k d n v).refused_or_takes_effect ho
    · exact ⟨_, hrefused, by simp⟩
    · exact ⟨_, htaken, by simpa using Tmr.writeCmp_keeps_next _ v⟩

/-! ## Parameters of a CRC channel (R404, R405) -/

/-! ### Each command is a checked write -/

theorem crcPreset_checked (s : State) (seat : Fin 8) (d : Die) (c : Fin 8) (v : Nat) : let i := 8 * d.n + c.val
    Checked s (.crcPreset seat d c v) [(!s.crcRight seat i, .rights), (s.crcEn i, .mode), ((crcPresetPar v).isNone, .range)]
      fun u => match crcPresetPar v with
        | some p => u.loadPreset i v p
        | none => u :=
  State.refuse_checked _ _ _ _ rfl

/-- CRC_PARAMETER_WRITE takes the subindices of the parameters, of CRC_RING and of CRC_ACC. -/
def crcWritable (sub : Nat) : Bool := (decide (3 ≤ sub) && decide (sub ≤ 8)) || sub == 14

/-- What an accepted CRC_PARAMETER_WRITE makes of channel `i`. -/
def State.setCrcPar (s : State) (i sub v : Nat) : State :=
  if sub = 14 then { s with crc := Tab.upd CrcCh.init s.crc i fun (x : CrcCh) => { x with acc := v } }
  else if sub = 8 then s.setReg (0x9000 + i) 8 v
  else (s.setReg (0x9000 + i) sub (if sub = 7 then v % 4 else v)).setReg (0x9000 + i) 2 0

theorem crcParameterWrite_checked (s : State) (seat : Fin 8) (d : Die) (c : Fin 8) (sub v : Nat) : let i := 8 * d.n + c.val
    Checked s (.crcParameterWrite seat d c sub v)
      [(!crcWritable sub, .noEntry), (!s.crcRight seat i, .rights), (s.crcEn i, .mode), (!s.crcParOk seat i sub v, .range)]
      fun u => u.setCrcPar i sub v :=
  State.refuse_checked _ _ _ _ rfl

/-! ### What an accepted write reads back -/

theorem crcWritable_iff {sub : Nat} : crcWritable sub = true ↔ (3 ≤ sub ∧ sub ≤ 8) ∨ sub = 14 := by
  simp [crcWritable]

theorem State.last_setCrcPar (s : State) (i sub v : Nat) : (s.setCrcPar i sub v).br.last = s.br.last := by
  unfold State.setCrcPar
  split_ifs <;> rfl

/-- A parameter reads the value written, of the reflections the two bits that are not reserved (R12); CRC_PRESET, which a single
parameter clears, is another entry. -/
theorem State.reg_setCrcPar_self (s : State) (i v : Nat) {sub : Nat} (hlo : 3 ≤ sub) (hhi : sub ≤ 8) :
    (s.setCrcPar i sub v).reg (0x9000 + i) sub = if sub = 7 then v % 4 else v := by
  unfold State.setCrcPar
  rw [if_neg (by omega : sub ≠ 14)]
  split
  case isTrue hring =>
    subst hring
    exact State.reg_setReg_self s _ 8 v
  case isFalse =>
    have hpreset : odKey (0x9000 + i) 2 ≠ odKey (0x9000 + i) sub := by
      unfold odKey
      omega
    rw [State.reg_setReg_ne _ _ hpreset, State.reg_setReg_self]

theorem State.acc_setCrcPar (s : State) (i v : Nat) : (Tab.get CrcCh.init (s.setCrcPar i 14 v).crc i).acc = v := by
  rw [State.setCrcPar, if_pos rfl, Tab.upd, Tab.get_set_self]

/-- Settles O45: both commands are checked writes; MODE stands before RANGE, so that EN refuses every value. -/
theorem crcParametersAreHeldWhileEnabled : Obligations.CrcParametersAreHeldWhileEnabled := by
  unfold Obligations.CrcParametersAreHeldWhileEnabled
  intro s k d c sub v ho hright i
  have hwrite := crcParameterWrite_checked s k d c sub v
  refine ⟨fun hen => ⟨?preset, fun hsub => ?held⟩, fun hen hok => ⟨fun hlo hhi => ?parameter, fun hsub => ?acc⟩⟩
  case preset => exact (crcPreset_checked s k d c v).answers ho (x := (true, .mode)) (by simp [hright, hen, i])
  case held => exact hwrite.answers ho (x := (true, .mode)) (by simp [crcWritable_iff.mpr hsub, hright, hen, i])
  case parameter =>
    have htaken := hwrite.takes_effect ho (by simp [crcWritable_iff.mpr (.inl ⟨hlo, hhi⟩), hright, hen, hok, i])
    exact ⟨_, htaken, State.last_setCrcPar _ i sub v, State.reg_setCrcPar_self _ i v hlo hhi⟩
  case acc =>
    have htaken := hwrite.takes_effect ho (by simp [crcWritable_iff.mpr (.inr hsub), hright, hen, hok, i])
    subst hsub
    exact ⟨_, htaken, State.last_setCrcPar _ i 14 v, State.acc_setCrcPar _ i v⟩

end Sys2Proof.Machine

namespace Sys2Proof.Machine

/-! ## Frames of the service port (R450 to R456) -/

/-! ### Which frames the port takes -/

/-- The port takes `f` as a request of operation `k` and hands it to the operation (R450 to R452). -/
structure State.SvcTakes (s : State) (k : Nat) (f : SvcFrame) : Prop where
  on : s.svcOn = true
  good : SvcFrame.good f k = true
  kept : s.upd.keyGone = false

/-- A frame of the open session, which the port takes (R452). -/
structure State.SvcInSession (s : State) (k : Nat) (f : SvcFrame) : Prop extends s.SvcTakes k f where
  session : s.upd.sess = some f.session

/-- The session has heard an accepted frame at the present time (R452). -/
def State.svcHeard (s : State) : State := { s with upd := { s.upd with sessLast := s.time } }

theorem State.svcTake_discards {s : State} {k : Nat} {f : SvcFrame} (g : State → State)
    (h : s.svcOn = false ∨ SvcFrame.good f k = false) : s.svcTake k f g = s :=
  if_pos (by simpa using h)

theorem State.svcTake_keygone {s : State} {k : Nat} {f : SvcFrame} (g : State → State)
    (hon : s.svcOn = true) (hgood : SvcFrame.good f k = true) (hgone : s.upd.keyGone = true) :
    s.svcTake k f g = { s with upd := { s.upd with
      sess := none, chal := none, keyGone := false, state := if s.upd.state = 1 then 0 else s.upd.state } }.svcAnswer k .keygone f.session [] := by
  rw [State.svcTake, if_neg (by simp [hon, hgood]), if_pos hgone]

theorem State.SvcTakes.svcTake_eq {s : State} {k : Nat} {f : SvcFrame} (h : s.SvcTakes k f) (g : State → State) :
    s.svcTake k f g = g s := by
  rw [State.svcTake, if_neg (by simp [h.on, h.good]), if_neg (by simp [h.kept])]

theorem State.SvcTakes.svcSess_token {s : State} {k : Nat} {f : SvcFrame} (h : s.SvcTakes k f) (g : State → State)
    (hs : s.upd.sess ≠ some f.session) : s.svcSess k f g = s.svcAnswer k .token f.session [] := by
  rw [State.svcSess, h.svcTake_eq, if_pos (by simpa using hs)]

theorem State.SvcInSession.svcSess_eq {s : State} {k : Nat} {f : SvcFrame} (h : s.SvcInSession k f) (g : State → State) :
    s.svcSess k f g = g s.svcHeard := by
  rw [State.svcSess, h.svcTake_eq, if_neg (by simp [h.session])]
  rfl

@[simp] theorem State.order_svcHeard (s : State) : s.svcHeard.order = s.order := rfl

@[simp] theorem State.updActive_svcHeard (s : State) : s.svcHeard.updActive = s.updActive := rfl

@[simp] theorem State.updRefuse_svcHeard (s : State) (m : List Byte) : s.svcHeard.updRefuse m = s.updRefuse m := rfl

/-! ### What the six commands have in common -/

/-- The commands of the service port, each with the number of its operation. -/
def svcCommands (f : SvcFrame) : List (Nat × Instr) :=
  [(1, .chal f), (2, .auth f), (3, .manifest f), (4, .chunk f), (5, .abort f), (6, .activate f)]

theorem svcCommands_cases {f : SvcFrame} {x : Nat × Instr} (hx : x ∈ svcCommands f) :
    x = (1, .chal f) ∨ x = (2, .auth f) ∨ x = (3, .manifest f) ∨ x = (4, .chunk f) ∨ x = (5, .abort f) ∨ x = (6, .activate f) := by
  simpa [svcCommands] using hx

/-- MANIFEST, CHUNK, ABORT and ACTIVATE need the open session. -/
theorem exec_svcSess {f : SvcFrame} {x : Nat × Instr} (hx : x ∈ svcCommands f) (hk : 3 ≤ x.1) (s : State) :
    ∃ g, exec x.2 s = .next (s.svcSess x.1 f g) := by
  obtain rfl | rfl | hsess := svcCommands_cases hx
  · simp at hk
  · simp at hk
  · obtain rfl | rfl | rfl | rfl := hsess <;> exact ⟨_, rfl⟩

theorem exec_svcTake {f : SvcFrame} {x : Nat × Instr} (hx : x ∈ svcCommands f) (s : State) :
    ∃ g, exec x.2 s = .next (s.svcTake x.1 f g) := by
  obtain rfl | rfl | hsess := svcCommands_cases hx
  · exact ⟨_, rfl⟩
  · exact ⟨_, rfl⟩
  · obtain ⟨g, hg⟩ := exec_svcSess hx (by obtain rfl | rfl | rfl | rfl := hsess <;> simp) s
    rw [State.svcSess] at hg
    exact ⟨_, hg⟩

/-- No command of the service port touches a field other than upd and freeCtr. -/
theorem exec_svc_only {f : SvcFrame} {x : Nat × Instr} (hx : x ∈ svcCommands f) (s : State) :
    ∃ t, exec x.2 s = .next t ∧ Only 0x1080000 s t := by
  have hs := Only.refl 0x1080000 s
  obtain rfl | rfl | rfl | rfl | rfl | rfl := svcCommands_cases hx
  · exact ⟨_, rfl, doChal_only f s hs rfl⟩
  · exact ⟨_, rfl, doAuth_only f s hs rfl⟩
  · exact ⟨_, rfl, doManifest_only f s hs rfl⟩
  · exact ⟨_, rfl, doChunk_only f s hs rfl⟩
  · exact ⟨_, rfl, doAbort_only f s hs rfl⟩
  · exact ⟨_, rfl, doActivate_only f s hs rfl⟩

/-- What touches no field but upd and freeCtr is such a change. -/
theorem Only.eq_upd_freeCtr {s t : State} (h : Only 0x1080000 s t) : t = { s with upd := t.upd, freeCtr := t.freeCtr } :=
  State.eq_of (h.order rfl) (h.modes rfl) (h.pow rfl) (h.clk rfl) (h.flt rfl) (h.leases rfl) (h.a rfl) (h.b rfl) (h.fd rfl)
    (h.regs rfl) (h.pers rfl) (h.br rfl) (h.rings rfl) (h.crc rfl) (h.tmr rfl) (h.otp rfl) (h.bkp rfl) (h.keys rfl) (h.st rfl) rfl
    (h.tst rfl) (h.pat rfl) (h.stdin rfl) (h.remote rfl) rfl (h.time rfl) (h.pending rfl)

/-! ### CHAL and AUTH (R452) -/

theorem exec_chal_of_takes {s : State} {f : SvcFrame} (h : s.SvcTakes 1 f) (hp : f.payload = []) (hr : f.rsvd = 0) :
    exec (.chal f) s = .next ({ (s.randNat 8).2 with upd := { (s.randNat 8).2.upd with chal := some (s.randNat 8).1 } }.svcAnswer
      1 .ok f.session (leBytes 8 (s.randNat 8).1)) := by
  show Host.Outcome.next (doChal f s) = _
  rw [doChal, h.svcTake_eq, if_neg (by simp [hp, hr])]

theorem exec_auth_locked {s : State} {f : SvcFrame} (h : s.SvcTakes 2 f) (hl : s.upd.lock = true) :
    exec (.auth f) s = .next (s.svcAnswer 2 .busy f.session [0xFF, 0xFF]) := by
  show Host.Outcome.next (doAuth f s) = _
  rw [doAuth, h.svcTake_eq, if_pos hl]

/-- The payload of an AUTH is the value of the service key and the open challenge. -/
def State.AuthRight (s : State) (f : SvcFrame) (k : List Byte) (c : Nat) : Prop :=
  s.svcKey = some k ∧ s.upd.chal = some c ∧ f.payload = authValue k s.otp.serial c

section Auth
variable {s : State} {f : SvcFrame} (h : s.SvcTakes 2 f) (hl : s.upd.lock = false) (hlen : f.payload.length = 8) (hr : f.rsvd = 0)
include h hl hlen hr

theorem exec_auth_right {k : List Byte} {c : Nat} (ha : s.AuthRight f k c) :
    exec (.auth f) s = .next ({ s with upd := { s.upd with
      sess := some (sessValue k c), sessLast := s.time, chal := none, fails := 0,
      state := if s.upd.state = 0 then 1 else s.upd.state } }.svcAnswer 2 .ok (sessValue k c) []) := by
  obtain ⟨hk, hc, hv⟩ := ha
  show Host.Outcome.next (doAuth f s) = _
  rw [doAuth, h.svcTake_eq, if_neg (by simp [hl]), if_neg (by simp [hlen, hr]), hk, hc]
  exact congrArg _ (if_pos hv)

theorem exec_auth_wrong (hw : ∀ k c, ¬ s.AuthRight f k c) : exec (.auth f) s = .next (s.authFail f.session) := by
  show Host.Outcome.next (doAuth f s) = _
  rw [doAuth, h.svcTake_eq, if_neg (by simp [hl]), if_neg (by simp [hlen, hr])]
  split
  next k c hk hc => rw [if_neg fun hv => hw k c ⟨hk, hc, hv⟩]
  next => rfl

end Auth

/-! ### The staging (R454, R455) -/

@[simp] theorem FwFlash.rest_setRest (w : FwFlash) (m : Mem) : (w.setRest m).rest = m := by
  unfold FwFlash.setRest FwFlash.rest
  by_cases hact : w.act = 0 <;> simp [hact]

theorem FwFlash.rest_setRest_if (w : FwFlash) (c : Bool) (m : Mem) :
    FwFlash.rest (if c then w.setRest m else w) = if c then m else w.rest := by
  cases c <;> simp

/-- Where the bytes of an upload lie: in the inactive slot of die `d` on the TRK-V830, else in the one staging region (R455). -/
def Update.staging (u : Update) (order : Nat) (d : Die) : Mem := if order = 830 then u.slotOf d else u.data

theorem Update.staging_unstage (u : Update) (order : Nat) (d : Die) : (u.unstage order).staging order d = [] := by
  unfold Update.staging Update.unstage
  by_cases horder : order = 830
  · cases d <;> simp [horder, Update.slotOf]
  · simp [horder]

theorem Update.have_unstage (u : Update) (order : Nat) : (u.unstage order).have_ = [] := by
  unfold Update.unstage
  split <;> rfl

theorem Update.manifest_unstage (u : Update) (order : Nat) : (u.unstage order).manifest = [] := by
  unfold Update.unstage
  split <;> rfl

theorem Update.sess_unstage (u : Update) (order : Nat) : (u.unstage order).sess = u.sess := by
  unfold Update.unstage
  split <;> rfl

theorem Update.slotOf_stage_v830 (u : Update) (k a : Nat) (bs : List Byte) (d : Die) :
    (u.stage 830 k a bs).slotOf d = if takesPart d k then Mem.writeL (u.slotOf d) a bs else u.slotOf d := by
  cases d
  · exact u.fwA.rest_setRest_if (takesPart .a k) _
  · exact u.fwB.rest_setRest_if (takesPart .b k) _

theorem takesPart_iff (d : Die) (k : Nat) : takesPart d k = true ↔ if d = .a then k ≠ 2 else k ≠ 1 := by
  cases d <;> simp [takesPart]

theorem takesPart_eq_false_iff (d : Die) (k : Nat) : takesPart d k = false ↔ if d = .a then k = 2 else k = 1 := by
  cases d <;> simp [takesPart]

theorem Update.staging_stage_of_takes (u : Update) {order k : Nat} (a : Nat) (bs : List Byte) {d : Die}
    (h : order ≠ 830 ∨ takesPart d k = true) :
    (u.stage order k a bs).staging order d = Mem.writeL (u.staging order d) a bs := by
  unfold Update.staging
  by_cases horder : order = 830
  · subst horder
    simp [Update.slotOf_stage_v830, h.resolve_left (by simp)]
  · simp [horder, Update.stage]

/-- The bytes land one by one from `a` up, and every other byte of a staging that takes them is as before. -/
theorem Update.stage_lands (u : Update) {order k : Nat} (a : Nat) (bs : List Byte) {d : Die}
    (h : order ≠ 830 ∨ takesPart d k = true) :
    (∀ i, (hi : i < bs.length) → Mem.read ((u.stage order k a bs).staging order d) (a + i) = bs[i])
    ∧ ∀ n, n < a ∨ a + bs.length ≤ n →
        Mem.read ((u.stage order k a bs).staging order d) n = Mem.read (u.staging order d) n := by
  rw [Update.staging_stage_of_takes u a bs h]
  exact ⟨Mem.read_writeL bs _ a, Mem.read_writeL_outside bs _ a⟩

theorem Update.staging_stage_of_not_takes (u : Update) {order k : Nat} (a : Nat) (bs : List Byte) {d : Die}
    (horder : order = 830) (h : takesPart d k = false) : (u.stage order k a bs).staging order d = u.staging order d := by
  subst horder
  simp [Update.staging, Update.slotOf_stage_v830, h]

theorem Update.slotOf_stage (u : Update) {order : Nat} (k a : Nat) (bs : List Byte) (horder : order ≠ 830) (d : Die) :
    (u.stage order k a bs).slotOf d = u.slotOf d := by
  rw [Update.stage, if_neg horder]
  rfl

theorem Update.data_stage (u : Update) {order : Nat} (k a : Nat) (bs : List Byte) (horder : order = 830) :
    (u.stage order k a bs).data = u.data := by
  rw [Update.stage, if_pos horder]

theorem Update.manifest_stage (u : Update) (order k a : Nat) (bs : List Byte) : (u.stage order k a bs).manifest = u.manifest := by
  unfold Update.stage
  split <;> rfl

theorem Update.state_stage (u : Update) (order k a : Nat) (bs : List Byte) : (u.stage order k a bs).state = u.state := by
  unfold Update.stage
  split <;> rfl

/-! ### MANIFEST (R453, R456) -/

section Manifest
variable {s : State} {f : SvcFrame} (h : s.SvcInSession 3 f) (hr : f.rsvd = 0) (hlen : f.payload.length = 328)
  (hform : manifestForm s.order f.payload = true)
include h hr hlen hform

theorem exec_manifest_mode (hact : s.updActive = true) :
    exec (.manifest f) s = .next (s.svcHeard.svcAnswer 3 .mode f.session []) := by
  show Host.Outcome.next (doManifest f s) = _
  rw [doManifest, h.svcSess_eq, if_neg (by simp [hlen, hr, hform]), State.updActive_svcHeard, if_pos hact]

theorem exec_manifest_refused (hact : s.updActive = false) {why : Nat} {st : Status} (href : s.updRefuse f.payload = some (why, st)) :
    exec (.manifest f) s = .next ({ s with upd := { s.svcHeard.upd with why := why } }.svcAnswer
      3 st f.session (if st == Status.busy then [0xFF, 0xFF] else [])) := by
  show Host.Outcome.next (doManifest f s) = _
  rw [doManifest, h.svcSess_eq, if_neg (by simp [hlen, hr, hform]), if_neg (by simp [hact]), State.updRefuse_svcHeard, href]
  rfl

theorem exec_manifest_accepted (hact : s.updActive = false) (href : s.updRefuse f.payload = none) :
    exec (.manifest f) s = .next ({ s with upd := { s.svcHeard.upd.unstage s.order with
      manifest := f.payload, state := 2, why := 0 } }.svcAnswer 3 .ok f.session []) := by
  show Host.Outcome.next (doManifest f s) = _
  rw [doManifest, h.svcSess_eq, if_neg (by simp [hlen, hr, hform]), if_neg (by simp [hact]), State.updRefuse_svcHeard, href]
  rfl

end Manifest

/-! ### CHUNK (R454, R455) -/

/-- Where the first byte of a chunk lies in the staging: part × 2^24 + offset. -/
def chunkAddr (f : SvcFrame) : Nat := leAt f.payload 0 1 * 2 ^ 24 + leAt f.payload 4 4

section Chunk
variable {s : State} {f : SvcFrame} (h : s.SvcInSession 4 f) (hr : f.rsvd = 0) (hlo : 8 < f.payload.length)
  (hhi : f.payload.length ≤ 1032) (hz : leAt f.payload 1 3 = 0) (hst : s.upd.state = 2) (hm : s.upd.manifest ≠ [])
  (hp1 : 1 ≤ leAt f.payload 0 1) (hp5 : leAt f.payload 0 1 ≤ 5)
include h hr hlo hhi hz hst hm hp1 hp5

/-- A well-formed chunk of an upload is judged by the end of its part alone. -/
theorem exec_chunk_of_form : exec (.chunk f) s = .next
    (if partLen s.upd.manifest (leAt f.payload 0 1) < leAt f.payload 4 4 + (f.payload.drop 8).length then
      s.svcHeard.svcAnswer 4 .bounds f.session []
    else { s with upd := { s.svcHeard.upd.stage s.order (leAt f.payload 0 1) (chunkAddr f) (f.payload.drop 8) with
      have_ := addRun (chunkAddr f) (chunkAddr f + (f.payload.drop 8).length) s.upd.have_ } }.svcAnswer 4 .ok f.session []) := by
  have hformat : ¬(f.rsvd != 0 || (f.payload.drop 8).isEmpty || 1024 < (f.payload.drop 8).length || leAt f.payload 1 3 != 0) = true := by
    simp [hr, hz, hlo, hhi]
  have hmode : ¬(s.svcHeard.upd.state != 2) = true := by simp [State.svcHeard, hst]
  have hrange : ¬(leAt f.payload 0 1 = 0 ∨ 5 < leAt f.payload 0 1) := by omega
  have hlen : (if s.svcHeard.upd.manifest.isEmpty = true then 0 else partLen s.svcHeard.upd.manifest (leAt f.payload 0 1))
      = partLen s.upd.manifest (leAt f.payload 0 1) := if_neg (by simpa [State.svcHeard] using hm)
  show Host.Outcome.next (doChunk f s) = _
  rw [doChunk, h.svcSess_eq]
  dsimp only
  rw [hlen, if_neg hformat, if_neg hmode, if_neg (by simpa using hrange)]
  rfl

end Chunk

/-! ### ABORT and ACTIVATE (R454, R456) -/

theorem exec_abort_of_session {s : State} {f : SvcFrame} (h : s.SvcInSession 5 f) (hp : f.payload = []) (hr : f.rsvd = 0) :
    exec (.abort f) s = .next (if s.updActive then s.svcHeard.svcAnswer 5 .mode f.session []
      else { s with upd := { s.svcHeard.upd.unstage s.order with state := 1 } }.svcAnswer 5 .ok f.session []) := by
  show Host.Outcome.next (doAbort f s) = _
  rw [doAbort, h.svcSess_eq, if_neg (by simp [hp, hr])]
  rfl

theorem exec_activate_of_session {s : State} {f : SvcFrame} (h : s.SvcInSession 6 f) (hp : f.payload = []) (hr : f.rsvd = 0) :
    exec (.activate f) s = .next (if s.updActive then s.svcHeard.svcAnswer 6 .mode f.session []
      else { s with upd := { s.svcHeard.upd with pend := some s.applySpan } }) := by
  show Host.Outcome.next (doActivate f s) = _
  rw [doActivate, h.svcSess_eq, if_neg (by simp [hp, hr])]
  rfl

/-- Settles O50: a frame is discarded, answered by the port or its session, or handed to its operation, whose checks then pass one
by one; the staging after each operation is read back by the laws of `Update.staging`. -/
theorem updateFramesFollowTheSession : Obligations.UpdateFramesFollowTheSession := by
  unfold Obligations.UpdateFramesFollowTheSession
  intro s f staging
  refine ⟨fun x hx => ⟨?discarded, ?keygone, ?token, ?frame⟩, fun hon hkept => ⟨?chal, ?busy, ?auth⟩,
    fun hon hkept hsess hr => ⟨?manifest, ?chunk, ?abort, ?activate, fun hact => ⟨?abortHeld, ?activateHeld⟩⟩⟩
  case discarded =>
    intro hoff
    obtain ⟨g, hg⟩ := exec_svcTake hx s
    rw [hg, State.svcTake_discards g hoff]
  case keygone =>
    intro hon hgood hgone
    obtain ⟨g, hg⟩ := exec_svcTake hx s
    rw [hg, State.svcTake_keygone g hon hgood hgone]
  case token =>
    intro hk hon hgood hkept hsess
    obtain ⟨g, hg⟩ := exec_svcSess hx hk s
    rw [hg, State.SvcTakes.svcSess_token ⟨hon, hgood, hkept⟩ g hsess]
  case frame =>
    obtain ⟨t, ht, honly⟩ := exec_svc_only hx s
    exact ⟨t, ht, honly.eq_upd_freeCtr⟩
  case chal => exact fun hgood hp hr => ⟨_, exec_chal_of_takes ⟨hon, hgood, hkept⟩ hp hr, rfl, rfl⟩
  case busy => exact fun hgood hl => exec_auth_locked ⟨hon, hgood, hkept⟩ hl
  case auth =>
    intro hgood hl hlen hr
    have htakes : s.SvcTakes 2 f := ⟨hon, hgood, hkept⟩
    refine ⟨fun k c hk hc hv => ?right, fun hw => ?wrong⟩
    case right => exact ⟨_, exec_auth_right htakes hl hlen hr ⟨hk, hc, hv⟩, rfl, rfl, rfl, rfl, rfl⟩
    case wrong =>
      have hwrong (k : List Byte) (c : Nat) : ¬ s.AuthRight f k c := fun ⟨hk, hc, hv⟩ => hw k c hk hc hv
      exact ⟨_, exec_auth_wrong htakes hl hlen hr hwrong, rfl, rfl, rfl, rfl⟩
  case manifest =>
    intro hgood hlen hform
    have hin : s.SvcInSession 3 f := ⟨⟨hon, hgood, hkept⟩, hsess⟩
    refine ⟨fun hact => ?mode, fun hact why st href => ?refused, fun hact href => ?accepted⟩
    case mode => exact ⟨_, exec_manifest_mode hin hr hlen hform hact, rfl, rfl, rfl⟩
    case refused => exact ⟨_, exec_manifest_refused hin hr hlen hform hact href, rfl, rfl, rfl, rfl⟩
    case accepted =>
      exact ⟨_, exec_manifest_accepted hin hr hlen hform hact href, rfl, s.svcHeard.upd.staging_unstage s.order,
        s.svcHeard.upd.have_unstage s.order, rfl, rfl⟩
  case chunk =>
    intro hgood hlo hhi hz hst hm part ofs hp1 hp5
    have hexec := exec_chunk_of_form ⟨⟨hon, hgood, hkept⟩, hsess⟩ hr hlo hhi hz hst hm hp1 hp5
    rw [List.length_drop] at hexec
    refine ⟨fun hbeyond => ?bounds, fun hfits => ?lands⟩
    case bounds => rw [hexec, if_pos hbeyond]; rfl
    case lands =>
      rw [if_neg (Nat.not_lt.mpr hfits)] at hexec
      refine ⟨_, hexec, fun d hd => ?staged, fun d hv hno => ?other, fun hv => ?slots, fun hv => ?data, ?_, ?_⟩
      case staged =>
        exact s.svcHeard.upd.stage_lands (chunkAddr f) (f.payload.drop 8) (hd.imp_right (takesPart_iff d part).mpr)
      case other => exact s.svcHeard.upd.staging_stage_of_not_takes (chunkAddr f) _ hv ((takesPart_eq_false_iff d part).mpr hno)
      case slots => exact s.svcHeard.upd.slotOf_stage part _ _ hv
      case data => exact s.svcHeard.upd.data_stage part _ _ hv
      · exact s.svcHeard.upd.manifest_stage s.order part _ _
      · exact (s.svcHeard.upd.state_stage s.order part _ _).trans hst
  case abort =>
    intro hgood hp hact
    have hexec := exec_abort_of_session ⟨⟨hon, hgood, hkept⟩, hsess⟩ hp hr
    rw [if_neg (by simp [hact])] at hexec
    exact ⟨_, hexec, s.svcHeard.upd.manifest_unstage s.order, s.svcHeard.upd.staging_unstage s.order,
      s.svcHeard.upd.have_unstage s.order, rfl, s.svcHeard.upd.sess_unstage s.order⟩
  case activate =>
    intro hgood hp hact
    have hexec := exec_activate_of_session ⟨⟨hon, hgood, hkept⟩, hsess⟩ hp hr
    rw [if_neg (by simp [hact])] at hexec
    exact ⟨_, hexec, rfl⟩
  case abortHeld =>
    intro hgood hp
    have hexec := exec_abort_of_session ⟨⟨hon, hgood, hkept⟩, hsess⟩ hp hr
    rw [if_pos hact] at hexec
    exact ⟨_, hexec, rfl, rfl, rfl⟩
  case activateHeld =>
    intro hgood hp
    have hexec := exec_activate_of_session ⟨⟨hon, hgood, hkept⟩, hsess⟩ hp hr
    rw [if_pos hact] at hexec
    exact ⟨_, hexec, rfl, rfl⟩

end Sys2Proof.Machine

namespace Sys2Proof

/-! ## What every command leaves alone

One line per command of the table ties it to the lemmas of its operation in Laws/Keeps*.lean, Laws/Latched*.lean and Laws/Only*.lean;
the invariants of every step are read off from it. -/

/-- Commands that can clear a latched fault bit: the clear itself, the application of a write, which may be one, and the end of power. -/
def Instr.clearsFaults : Instr → Bool
  | .fswClr _ _ => true
  | .writeApply => true
  | .powerDownStep => true
  | _ => false

/-- The one command that writes the flash copies of persistent entries (R357). -/
def Instr.movesPers : Instr → Bool
  | .persistentWriteCommit => true
  | _ => false

/-- A set of parts, numbered as in `Only`, that the tables of Safety.lean allow a command to touch: never the order code, and the mode,
the Pattern store, the key slots and the flash copies only where the command is one that moves them. -/
def Instr.mayTouch (c : Instr) (m : Nat) : Bool :=
  !m.testBit 0 && (c.movesMode || !m.testBit 27) && (c.movesPattern || !m.testBit 21) && (c.movesKeys || !m.testBit 17)
    && (c.movesPers || !m.testBit 10)

end Sys2Proof

namespace Sys2Proof.Machine

/-- Command `c` leads from `s` to `t`, keeps what no command undoes, clears no fault unless it is one that may, and touches no part that
the tables of Safety.lean do not give it; the last step of the power-down, which ends in SHELF, touches nearly all. -/
structure Footprint (c : Instr) (s t : State) : Prop where
  next : exec c s = .next t
  keeps : Keeps s t
  latched : c.clearsFaults = false → Latched s t
  only : c ≠ .powerDownStep → ∃ m, c.mayTouch m = true ∧ Only m s t

theorem footprint {c : Instr} {s t : State} {m : Nat} (k : Keeps s t) (l : Latched s t) (o : Only m s t) (he : exec c s = .next t)
    (hm : c.mayTouch m = true) : ∃ t, Footprint c s t :=
  ⟨t, he, k, fun _ => l, fun _ => ⟨m, hm, o⟩⟩

/-- The same for a command that may clear faults. -/
theorem footprint_clears {c : Instr} {s t : State} {m : Nat} (hc : c.clearsFaults = true) (k : Keeps s t) (o : Only m s t)
    (he : exec c s = .next t) (hm : c.mayTouch m = true) : ∃ t, Footprint c s t :=
  ⟨t, he, k, fun h => by simp [hc] at h, fun _ => ⟨m, hm, o⟩⟩

/-- The first step of the power-down changes enables and domains and takes the state of the F-dies (R347). -/
theorem doPowerDownStart_only {M : Nat} {s0 : State} (s : State) (h : Only M s0 s) (le : 0x104 ||| M = M) :
    Only M s0 (doPowerDownStart s) := by
  unfold doPowerDownStart
  split
  · exact OnlyParts.fd (OnlyParts.pow h.parts (testBit_ge le rfl)) (testBit_ge le rfl)
  · exact h

theorem powerDownStep_footprint (s : State) : ∃ t, Footprint .powerDownStep s t :=
  ⟨_, rfl, doPowerDownStep_keeps s (.refl s), nofun, fun h => absurd rfl h⟩

/-- The table of the commands. -/
theorem exec_footprint : ∀ (c : Instr) (s : State), ∃ t, Footprint c s t
  | .vinRise _ _, s => footprint (doVinRise_keeps _ _ _ (.refl s)) (doVinRise_latched _ _ _ (.refl s)) (doVinRise_only _ _ _ (.refl 0x90002ce s) rfl) rfl rfl
  | .bootStepComplete, s => footprint (doBootStepComplete_keeps _ (.refl s)) (doBootStepComplete_latched _ (.refl s)) (doBootStepComplete_only _ (.refl 0x9ffbbfe s) rfl) rfl rfl
  | .bootStepTimeout, s => footprint (doBootStepTimeout_keeps _ (.refl s)) (doBootStepTimeout_latched _ (.refl s)) (doBootStepTimeout_only _ (.refl 0x10eabfe s) rfl) rfl rfl
  | .bootRetry, s => footprint (doBootRetry_keeps _ (.refl s)) (doBootRetry_latched _ (.refl s)) (doBootRetry_only _ (.refl 0x2cc s) rfl) rfl rfl
  | .resetNLow, s => footprint (doResetNLow_keeps _ (.refl s)) (doResetNLow_latched _ (.refl s)) (doResetNLow_only _ (.refl 0x10cabf6 s) rfl) rfl rfl
  | .resetNRelease, s => footprint (doResetNRelease_keeps _ (.refl s)) (doResetNRelease_latched _ (.refl s)) (doResetNRelease_only _ (.refl 0x90002ce s) rfl) rfl rfl
  | .pfwLatch _, s => footprint (doPfwLatch_keeps _ _ (.refl s)) (doPfwLatch_latched _ _ (.refl s)) (doPfwLatch_only _ _ (.refl 0x10cabf6 s) rfl) rfl rfl
  | .powerFailRecordDone _, s => footprint (doPowerFailRecordDone_keeps _ _ (.refl s)) (doPowerFailRecordDone_latched _ _ (.refl s)) (doPowerFailRecordDone_only _ _ (.refl 0x4 s) rfl) rfl rfl
  | .pfwClear _, s => footprint (doPfwClear_keeps _ _ (.refl s)) (doPfwClear_latched _ _ (.refl s)) (doPfwClear_only _ _ (.refl 0x8234 s) rfl) rfl rfl
  | .vinOff _, s => footprint (doVinOff_keeps _ _ (.refl s)) (doVinOff_latched _ _ (.refl s)) (doVinOff_only _ _ (.refl 0x10cabf6 s) rfl) rfl rfl
  | .powerDownStart, s => footprint (doPowerDownStart_keeps _ (.refl s)) (doPowerDownStart_latched _ (.refl s)) (doPowerDownStart_only _ (.refl 0x104 s) rfl) rfl rfl
  | .powerDownStep, s => powerDownStep_footprint s
  | .railExcursion _ _, s => footprint (doRailExcursion_keeps _ _ _ (.refl s)) (doRailExcursion_latched _ _ _ (.refl s)) (doRailExcursion_only _ _ _ (.refl 0x10cabf6 s) rfl) rfl rfl
  | .modeReqConfigure _, s => footprint (doModeReqConfigure_keeps _ _ (.refl s)) (doModeReqConfigure_latched _ _ (.refl s)) (doModeReqConfigure_only _ _ (.refl 0x802 s) rfl) rfl rfl
  | .modeReqRun _, s => footprint (doModeReqRun_keeps _ _ (.refl s)) (doModeReqRun_latched _ _ (.refl s)) (doModeReqRun_only _ _ (.refl 0x802 s) rfl) rfl rfl
  | .modeReqSafe _, s => footprint (doModeReqSafe_keeps _ _ (.refl s)) (doModeReqSafe_latched _ _ (.refl s)) (doModeReqSafe_only _ _ (.refl 0x802 s) rfl) rfl rfl
  | .modeReqService _, s => footprint (doModeReqService_keeps _ _ (.refl s)) (doModeReqService_latched _ _ (.refl s)) (doModeReqService_only _ _ (.refl 0x802 s) rfl) rfl rfl
  | .modeRequestTake, s => footprint (doModeRequestTake_keeps _ (.refl s)) (doModeRequestTake_latched _ (.refl s)) (doModeRequestTake_only _ (.refl 0x9fcbbfe s) rfl) rfl rfl
  | .runEntry, s => footprint (doRunEntry_keeps _ (.refl s)) (doRunEntry_latched _ (.refl s)) (doRunEntry_only _ (.refl 0x8f093ee s) rfl) rfl rfl
  | .runRequestLapse, s => footprint (doRunRequestLapse_keeps _ (.refl s)) (doRunRequestLapse_latched _ (.refl s)) (doRunRequestLapse_only _ (.refl 0x8f013ce s) rfl) rfl rfl
  | .safeEntryAfterStop, s => footprint (doSafeEntryAfterStop_keeps _ (.refl s)) (doSafeEntryAfterStop_latched _ (.refl s)) (doSafeEntryAfterStop_only _ (.refl 0x8f013ce s) rfl) rfl rfl
  | .safeEntry, s => footprint (doSafeEntry_keeps _ (.refl s)) (doSafeEntry_latched _ (.refl s)) (doSafeEntry_only _ (.refl 0x8f013de s) rfl) rfl rfl
  | .pwrReqActive _, s => footprint (doPwrReqActive_keeps _ _ (.refl s)) (doPwrReqActive_latched _ _ (.refl s)) (doPwrReqActive_only _ _ (.refl 0x802 s) rfl) rfl rfl
  | .pwrReqSleep _, s => footprint (doPwrReqSleep_keeps _ _ (.refl s)) (doPwrReqSleep_latched _ _ (.refl s)) (doPwrReqSleep_only _ _ (.refl 0x802 s) rfl) rfl rfl
  | .pwrReqDeepSleep _, s => footprint (doPwrReqDeepSleep_keeps _ _ (.refl s)) (doPwrReqDeepSleep_latched _ _ (.refl s)) (doPwrReqDeepSleep_only _ _ (.refl 0x802 s) rfl) rfl rfl
  | .powerStateChange, s => footprint (doPowerStateChange_keeps _ (.refl s)) (doPowerStateChange_latched _ (.refl s)) (doPowerStateChange_only _ (.refl 0xace s) rfl) rfl rfl
  | .tick _, s => footprint (doTick_keeps _ _ _ (.refl s)) (doTick_latched _ _ _ (.refl s)) (doTick_only _ _ _ (.refl 0x11cfbf6 s) rfl) rfl rfl
  | .phaseAEnd _, s => footprint (doPhaseAEnd_keeps _ _ (.refl s)) (doPhaseAEnd_latched _ _ (.refl s)) (doPhaseAEnd_only _ _ (.refl 0x10cbbf6 s) rfl) rfl rfl
  | .phaseEEnd _, s => footprint (doPhaseEEnd_keeps _ _ (.refl s)) (doPhaseEEnd_latched _ _ (.refl s)) (doPhaseEEnd_only _ _ (.refl 0xc0 s) rfl) rfl rfl
  | .commitPoint _, s => footprint (doCommitPoint_keeps _ _ (.refl s)) (doCommitPoint_latched _ _ (.refl s)) (doCommitPoint_only _ _ (.refl 0x92cbbf6 s) rfl) rfl rfl
  | .lateCommitLimit _, s => footprint (doLateCommitLimit_keeps _ _ (.refl s)) (doLateCommitLimit_latched _ _ (.refl s)) (doLateCommitLimit_only _ _ (.refl 0x10cabf6 s) rfl) rfl rfl
  | .jobComplete _ _, s => footprint (doJobComplete_keeps _ _ _ (.refl s)) (doJobComplete_latched _ _ _ (.refl s)) (doJobComplete_only _ _ _ (.refl 0x92cbbf6 s) rfl) rfl rfl
  | .laneError _ _, s => footprint (doLaneError_keeps _ _ _ (.refl s)) (doLaneError_latched _ _ _ (.refl s)) (doLaneError_only _ _ _ (.refl 0x10cabf6 s) rfl) rfl rfl
  | .tickTimestampRx _ _ _ _, s => footprint (doTickTimestampRx_keeps _ _ _ _ _ (.refl s)) (doTickTimestampRx_latched _ _ _ _ _ (.refl s)) (doTickTimestampRx_only _ _ _ _ _ (.refl 0x10cabf6 s) rfl) rfl rfl
  | .inputSupervisionFlitRx _ _ _ _ _, s => footprint (doInputSupervisionFlitRx_keeps _ _ _ _ _ _ (.refl s)) (doInputSupervisionFlitRx_latched _ _ _ _ _ _ (.refl s)) (doInputSupervisionFlitRx_only _ _ _ _ _ _ (.refl 0x10cabf6 s) rfl) rfl rfl
  | .outputSupervisionFlitRx _ _ _ _, s => footprint (doOutputSupervisionFlitRx_keeps _ _ _ _ _ (.refl s)) (doOutputSupervisionFlitRx_latched _ _ _ _ _ (.refl s)) (doOutputSupervisionFlitRx_only _ _ _ _ _ (.refl 0x10cabf6 s) rfl) rfl rfl
  | .compareRecordRx _ _ _, s => footprint (doCompareRecordRx_keeps _ _ _ _ (.refl s)) (doCompareRecordRx_latched _ _ _ _ (.refl s)) (doCompareRecordRx_only _ _ _ _ (.refl 0x10cabf6 s) rfl) rfl rfl
  | .readyRx _ _, s => footprint (doReadyRx_keeps _ _ _ (.refl s)) (doReadyRx_latched _ _ _ (.refl s)) (doReadyRx_only _ _ _ (.refl 0x92cbbf6 s) rfl) rfl rfl
  | .pairingRecordRx _ _ _, s => footprint (doPairingRecordRx_keeps _ _ _ _ (.refl s)) (doPairingRecordRx_latched _ _ _ _ (.refl s)) (doPairingRecordRx_only _ _ _ _ (.refl 0x10cabf6 s) rfl) rfl rfl
  | .positionRecordRx _ _ _ _, s => footprint (doPositionRecordRx_keeps _ _ _ _ _ (.refl s)) (doPositionRecordRx_latched _ _ _ _ _ (.refl s)) (doPositionRecordRx_only _ _ _ _ _ (.refl 0x10cabf6 s) rfl) rfl rfl
  | .localisationRecordRx _ _ _ _, s => footprint (doLocalisationRecordRx_keeps _ _ _ _ _ (.refl s)) (doLocalisationRecordRx_latched _ _ _ _ _ (.refl s)) (doLocalisationRecordRx_only _ _ _ _ _ (.refl 0x92cbbf6 s) rfl) rfl rfl
  | .replayRecordRx _ _ _, s => footprint (doReplayRecordRx_keeps _ _ _ _ (.refl s)) (doReplayRecordRx_latched _ _ _ _ (.refl s)) (doReplayRecordRx_only _ _ _ _ (.refl 0x92cbbf6 s) rfl) rfl rfl
  | .forwardedWriteRx _ _ _, s => footprint (doForwardedWriteRx_keeps _ _ _ _ (.refl s)) (doForwardedWriteRx_latched _ _ _ _ (.refl s)) (doForwardedWriteRx_only _ _ _ _ (.refl 0x9fefbfe s) rfl) rfl rfl
  | .stateTransferRx _ _, s => footprint (doStateTransferRx_keeps _ _ _ (.refl s)) (doStateTransferRx_latched _ _ _ (.refl s)) (doStateTransferRx_only _ _ _ (.refl 0x10cabf6 s) rfl) rfl rfl
  | .stitchFlitCrcError _, s => footprint (doStitchFlitCrcError_keeps _ _ (.refl s)) (doStitchFlitCrcError_latched _ _ (.refl s)) (doStitchFlitCrcError_only _ _ (.refl 0x10cabf6 s) rfl) rfl rfl
  | .stitchRetryTimeout _, s => footprint (doStitchRetryTimeout_keeps _ _ (.refl s)) (doStitchRetryTimeout_latched _ _ (.refl s)) (doStitchRetryTimeout_only _ _ (.refl 0x10cabf6 s) rfl) rfl rfl
  | .retrainComplete, s => footprint (doRetrainComplete_keeps _ (.refl s)) (doRetrainComplete_latched _ (.refl s)) (doRetrainComplete_only _ (.refl 0x10cabfe s) rfl) rfl rfl
  | .stitchLaneTrainFail _ _, s => footprint (doStitchLaneTrainFail_keeps _ _ _ (.refl s)) (doStitchLaneTrainFail_latched _ _ _ (.refl s)) (doStitchLaneTrainFail_only _ _ _ (.refl 0x10cabf6 s) rfl) rfl rfl
  | .syncRx _ _ _ _ _, s => footprint (doSyncRx_keeps _ _ _ _ _ _ (.refl s)) (doSyncRx_latched _ _ _ _ _ _ (.refl s)) (doSyncRx_only _ _ _ _ _ _ (.refl 0xd2 s) rfl) rfl rfl
  | .syncReceiptTimeout _, s => footprint (doSyncReceiptTimeout_keeps _ _ (.refl s)) (doSyncReceiptTimeout_latched _ _ (.refl s)) (doSyncReceiptTimeout_only _ _ (.refl 0xd0 s) rfl) rfl rfl
  | .holdoverExpire, s => footprint (doHoldoverExpire_keeps _ (.refl s)) (doHoldoverExpire_latched _ (.refl s)) (doHoldoverExpire_only _ (.refl 0x10cabf6 s) rfl) rfl rfl
  | .spanKWrite _ _, s => footprint (doSpanKWrite_keeps _ _ _ (.refl s)) (doSpanKWrite_latched _ _ _ (.refl s)) (doSpanKWrite_only _ _ _ (.refl 0xa00 s) rfl) rfl rfl
  | .tickOfsWrite _ _, s => footprint (doTickOfsWrite_keeps _ _ _ (.refl s)) (doTickOfsWrite_latched _ _ _ (.refl s)) (doTickOfsWrite_only _ _ _ (.refl 0xa00 s) rfl) rfl rfl
  | .tickMarkRx _ _ _, s => footprint (doTickMarkRx_keeps _ _ _ _ (.refl s)) (doTickMarkRx_latched _ _ _ _ (.refl s)) (doTickMarkRx_only _ _ _ _ (.refl 0x10cabf6 s) rfl) rfl rfl
  | .fieldImageRx _ _, s => footprint (doFieldImageRx_keeps _ _ _ (.refl s)) (doFieldImageRx_latched _ _ _ (.refl s)) (doFieldImageRx_only _ _ _ (.refl 0x2c0 s) rfl) rfl rfl
  | .captureLockEnd _ _, s => footprint (doCaptureLockEnd_keeps _ _ _ (.refl s)) (doCaptureLockEnd_latched _ _ _ (.refl s)) (doCaptureLockEnd_only _ _ _ (.refl 0xc0 s) rfl) rfl rfl
  | .fieldInputEdge _ _ _ _, s => footprint (doFieldInputEdge_keeps _ _ _ _ _ (.refl s)) (doFieldInputEdge_latched _ _ _ _ _ (.refl s)) (doFieldInputEdge_only _ _ _ _ _ (.refl 0x2c0 s) rfl) rfl rfl
  | .debounceExpire _ _, s => footprint (doDebounceExpire_keeps _ _ _ (.refl s)) (doDebounceExpire_latched _ _ _ (.refl s)) (doDebounceExpire_only _ _ _ (.refl 0xc0 s) rfl) rfl rfl
  | .ossdPulseFilterExpire _ _, s => footprint (doOssdPulseFilterExpire_keeps _ _ _ (.refl s)) (doOssdPulseFilterExpire_latched _ _ _ (.refl s)) (doOssdPulseFilterExpire_only _ _ _ (.refl 0xc0 s) rfl) rfl rfl
  | .ossdSilentExpire _ _, s => footprint (doOssdSilentExpire_keeps _ _ _ (.refl s)) (doOssdSilentExpire_latched _ _ _ (.refl s)) (doOssdSilentExpire_only _ _ _ (.refl 0x2c0 s) rfl) rfl rfl
  | .testPulseStart _, s => footprint (doTestPulseStart_keeps _ _ (.refl s)) (doTestPulseStart_latched _ _ (.refl s)) (doTestPulseStart_only _ _ (.refl 0x1c0 s) rfl) rfl rfl
  | .testPulseEnd _, s => footprint (doTestPulseEnd_keeps _ _ (.refl s)) (doTestPulseEnd_latched _ _ (.refl s)) (doTestPulseEnd_only _ _ (.refl 0x3c0 s) rfl) rfl rfl
  | .tpWindowOpen _ _, s => footprint (doTpWindowOpen_keeps _ _ _ (.refl s)) (doTpWindowOpen_latched _ _ _ (.refl s)) (doTpWindowOpen_only _ _ _ (.refl 0xc0 s) rfl) rfl rfl
  | .tpWindowEnd _ _, s => footprint (doTpWindowEnd_keeps _ _ _ (.refl s)) (doTpWindowEnd_latched _ _ _ (.refl s)) (doTpWindowEnd_only _ _ _ (.refl 0x2c0 s) rfl) rfl rfl
  | .adcSample _ _ _ _ _, s => footprint (doAdcSample_keeps _ _ _ _ _ _ (.refl s)) (doAdcSample_latched _ _ _ _ _ _ (.refl s)) (doAdcSample_only _ _ _ _ _ _ (.refl 0x2c0 s) rfl) rfl rfl
  | .adcReferenceCheck _ _, s => footprint (doAdcReferenceCheck_keeps _ _ _ (.refl s)) (doAdcReferenceCheck_latched _ _ _ (.refl s)) (doAdcReferenceCheck_only _ _ _ (.refl 0x10cabf6 s) rfl) rfl rfl
  | .cosHirqClear _ _ _, s => footprint (doCosHirqClear_keeps _ _ _ _ (.refl s)) (doCosHirqClear_latched _ _ _ _ (.refl s)) (doCosHirqClear_only _ _ _ _ (.refl 0xa00 s) rfl) rfl rfl
  | .cmdFrameRx _ _ _, s => footprint (doCmdFrameRx_keeps _ _ _ _ (.refl s)) (doCmdFrameRx_latched _ _ _ _ (.refl s)) (doCmdFrameRx_only _ _ _ _ (.refl 0x3c0 s) rfl) rfl rfl
  | .keepTokenExpire _ _, s => footprint (doKeepTokenExpire_keeps _ _ _ (.refl s)) (doKeepTokenExpire_latched _ _ _ (.refl s)) (doKeepTokenExpire_only _ _ _ (.refl 0x300 s) rfl) rfl rfl
  | .tripAssert _, s => footprint (doTripAssert_keeps _ _ (.refl s)) (doTripAssert_latched _ _ (.refl s)) (doTripAssert_only _ _ (.refl 0x110 s) rfl) rfl rfl
  | .tripRelease, s => footprint (doTripRelease_keeps _ (.refl s)) (doTripRelease_latched _ (.refl s)) (doTripRelease_only _ (.refl 0x118 s) rfl) rfl rfl
  | .vfldLow _ _, s => footprint (doVfldLow_keeps _ _ _ (.refl s)) (doVfldLow_latched _ _ _ (.refl s)) (doVfldLow_only _ _ _ (.refl 0x10cabf6 s) rfl) rfl rfl
  | .vfldRecover _ _, s => footprint (doVfldRecover_keeps _ _ _ (.refl s)) (doVfldRecover_latched _ _ _ (.refl s)) (doVfldRecover_only _ _ _ (.refl 0x10cabf6 s) rfl) rfl rfl
  | .currentLimitTrip _, s => footprint (doCurrentLimitTrip_keeps _ _ (.refl s)) (doCurrentLimitTrip_latched _ _ (.refl s)) (doCurrentLimitTrip_only _ _ (.refl 0x3c0 s) rfl) rfl rfl
  | .switchOvertemp _ _, s => footprint (doSwitchOvertemp_keeps _ _ _ (.refl s)) (doSwitchOvertemp_latched _ _ _ (.refl s)) (doSwitchOvertemp_only _ _ _ (.refl 0x3c0 s) rfl) rfl rfl
  | .gateDriveLoss _, s => footprint (doGateDriveLoss_keeps _ _ (.refl s)) (doGateDriveLoss_latched _ _ (.refl s)) (doGateDriveLoss_only _ _ (.refl 0x10cabf6 s) rfl) rfl rfl
  | .fdieOvercurrent _ _, s => footprint (doFdieOvercurrent_keeps _ _ _ (.refl s)) (doFdieOvercurrent_latched _ _ _ (.refl s)) (doFdieOvercurrent_only _ _ _ (.refl 0x10cabf6 s) rfl) rfl rfl
  | .fdieOvertemp _, s => footprint (doFdieOvertemp_keeps _ _ (.refl s)) (doFdieOvertemp_latched _ _ (.refl s)) (doFdieOvertemp_only _ _ (.refl 0x10cabf6 s) rfl) rfl rfl
  | .offPulseStart _ _, s => footprint (doOffPulseStart_keeps _ _ _ (.refl s)) (doOffPulseStart_latched _ _ _ (.refl s)) (doOffPulseStart_only _ _ _ (.refl 0x1c0 s) rfl) rfl rfl
  | .offPulseEnd _ _, s => footprint (doOffPulseEnd_keeps _ _ _ (.refl s)) (doOffPulseEnd_latched _ _ _ (.refl s)) (doOffPulseEnd_only _ _ _ (.refl 0x3c0 s) rfl) rfl rfl
  | .outputCodeClear _ _, s => footprint (doOutputCodeClear_keeps _ _ _ (.refl s)) (doOutputCodeClear_latched _ _ _ (.refl s)) (doOutputCodeClear_only _ _ _ (.refl 0xc0 s) rfl) rfl rfl
  | .channelModeWrite _ _ _, s => footprint (doChannelModeWrite_keeps _ _ _ _ (.refl s)) (doChannelModeWrite_latched _ _ _ _ (.refl s)) (doChannelModeWrite_only _ _ _ _ (.refl 0x10cabf6 s) rfl) rfl rfl
  | .holdModeEnter _, s => footprint (doHoldModeEnter_keeps _ _ (.refl s)) (doHoldModeEnter_latched _ _ (.refl s)) (doHoldModeEnter_only _ _ (.refl 0x800d0 s) rfl) rfl rfl
  | .holdFrameSend _, s => footprint (doHoldFrameSend_keeps _ _ (.refl s)) (doHoldFrameSend_latched _ _ (.refl s)) (doHoldFrameSend_only _ _ (.refl 0xc0 s) rfl) rfl rfl
  | .holdTimeout _, s => footprint (doHoldTimeout_keeps _ _ (.refl s)) (doHoldTimeout_latched _ _ (.refl s)) (doHoldTimeout_only _ _ (.refl 0x802d0 s) rfl) rfl rfl
  | .heartbeatLoss _, s => footprint (doHeartbeatLoss_keeps _ _ (.refl s)) (doHeartbeatLoss_latched _ _ (.refl s)) (doHeartbeatLoss_only _ _ (.refl 0x118 s) rfl) rfl rfl
  | .safeTelegramRx _ _ _ _ _, s => footprint (doSafeTelegramRx_keeps _ _ _ _ _ _ (.refl s)) (doSafeTelegramRx_latched _ _ _ _ _ _ (.refl s)) (doSafeTelegramRx_only _ _ _ _ _ _ (.refl 0x2c0 s) rfl) rfl rfl
  | .positionTelegramRx _ _ _ _, s => footprint (doPositionTelegramRx_keeps _ _ _ _ _ _ (.refl s)) (doPositionTelegramRx_latched _ _ _ _ _ _ (.refl s)) (doPositionTelegramRx_only _ _ _ _ _ _ (.refl 0x2c0 s) rfl) rfl rfl
  | .connWatchdogExpire _ _, s => footprint (doConnWatchdogExpire_keeps _ _ _ (.refl s)) (doConnWatchdogExpire_latched _ _ _ (.refl s)) (doConnWatchdogExpire_only _ _ _ (.refl 0x92cbbf6 s) rfl) rfl rfl
  | .loneBudgetExpire _ _, s => footprint (doLoneBudgetExpire_keeps _ _ _ (.refl s)) (doLoneBudgetExpire_latched _ _ _ (.refl s)) (doLoneBudgetExpire_only _ _ _ (.refl 0x92cbbf6 s) rfl) rfl rfl
  | .egressLost _ _ _ _ _, s => footprint (doEgressLost_keeps _ _ _ _ _ _ (.refl s)) (doEgressLost_latched _ _ _ _ _ _ (.refl s)) (doEgressLost_only _ _ _ _ _ _ (.refl 0x2c0 s) rfl) rfl rfl
  | .linkDown _ _, s => footprint (doLinkDown_keeps _ _ _ (.refl s)) (doLinkDown_latched _ _ _ (.refl s)) (doLinkDown_only _ _ _ (.refl 0xc0 s) rfl) rfl rfl
  | .linkUp _ _ _, s => footprint (doLinkUp_keeps _ _ _ _ (.refl s)) (doLinkUp_latched _ _ _ _ (.refl s)) (doLinkUp_only _ _ _ _ (.refl 0xc0 s) rfl) rfl rfl
  | .telegramReplay _ _, s => footprint (doTelegramReplay_keeps _ _ _ (.refl s)) (doTelegramReplay_latched _ _ _ (.refl s)) (doTelegramReplay_only _ _ _ (.refl 0x2c0 s) rfl) rfl rfl
  | .frameForward _ _ _ _ _ _ _, s => footprint (doFrameForward_keeps _ _ _ _ _ (.refl s)) (doFrameForward_latched _ _ _ _ _ (.refl s)) (doFrameForward_only _ _ _ _ _ (.refl 0xc0 s) rfl) rfl rfl
  | .fdbAgeout _ _, s => footprint (doFdbAgeout_keeps _ _ _ (.refl s)) (doFdbAgeout_latched _ _ _ (.refl s)) (doFdbAgeout_only _ _ _ (.refl 0xc0 s) rfl) rfl rfl
  | .arpRequestRx _ _ _ _ _, s => footprint (doArpRequestRx_keeps _ _ _ _ _ _ _ (.refl s)) (doArpRequestRx_latched _ _ _ _ _ _ _ (.refl s)) (doArpRequestRx_only _ _ _ _ _ _ _ (.refl 0x2c0 s) rfl) rfl rfl
  | .neighbourDiscoveryRx _ _ _ _ _, s => footprint (doNeighbourDiscoveryRx_keeps _ _ _ _ _ _ _ (.refl s)) (doNeighbourDiscoveryRx_latched _ _ _ _ _ _ _ (.refl s)) (doNeighbourDiscoveryRx_only _ _ _ _ _ _ _ (.refl 0x2c0 s) rfl) rfl rfl
  | .echoRequestRx _ _ _ _ _ _ _, s => footprint (doEchoRequestRx_keeps _ _ _ _ _ _ _ _ _ (.refl s)) (doEchoRequestRx_latched _ _ _ _ _ _ _ _ _ (.refl s)) (doEchoRequestRx_only _ _ _ _ _ _ _ _ _ (.refl 0x2c0 s) rfl) rfl rfl
  | .faultLatch _, s => footprint (doFaultLatch_keeps _ _ (.refl s)) (doFaultLatch_latched _ _ (.refl s)) (doFaultLatch_only _ _ (.refl 0x10cbbf6 s) rfl) rfl rfl
  | .fswClr _ _, s => footprint_clears rfl (doFswClr_keeps _ _ _ (.refl s)) (doFswClr_only _ _ _ (.refl 0xad8 s) rfl) rfl rfl
  | .fswSecClr _ _, s => footprint (doFswSecClr_keeps _ _ _ (.refl s)) (doFswSecClr_latched _ _ _ (.refl s)) (doFswSecClr_only _ _ _ (.refl 0xad0 s) rfl) rfl rfl
  | .shadowEnd _, s => footprint (doShadowEnd_keeps _ _ (.refl s)) (doShadowEnd_latched _ _ (.refl s)) (doShadowEnd_only _ _ (.refl 0x10cabf6 s) rfl) rfl rfl
  | .leaseRequest _ _, s => footprint (doLeaseRequest_keeps _ _ _ (.refl s)) (doLeaseRequest_latched _ _ _ (.refl s)) (doLeaseRequest_only _ _ _ (.refl 0x20 s) rfl) rfl rfl
  | .leaseRenew _ _, s => footprint (doLeaseRenew_keeps _ _ _ (.refl s)) (doLeaseRenew_latched _ _ _ (.refl s)) (doLeaseRenew_only _ _ _ (.refl 0x20 s) rfl) rfl rfl
  | .leaseRelease _ _, s => footprint (doLeaseRelease_keeps _ _ _ (.refl s)) (doLeaseRelease_latched _ _ _ (.refl s)) (doLeaseRelease_only _ _ _ (.refl 0xa220 s) rfl) rfl rfl
  | .leaseExpire _, s => footprint (doLeaseExpire_keeps _ _ (.refl s)) (doLeaseExpire_latched _ _ (.refl s)) (doLeaseExpire_only _ _ (.refl 0x10cabf6 s) rfl) rfl rfl
  | .readmitPowerRestore _, s => footprint (doReadmitPowerRestore_keeps _ _ (.refl s)) (doReadmitPowerRestore_latched _ _ (.refl s)) (doReadmitPowerRestore_only _ _ (.refl 0x14 s) rfl) rfl rfl
  | .readmitBootDone _ _, s => footprint (doReadmitBootDone_keeps _ _ _ (.refl s)) (doReadmitBootDone_latched _ _ _ (.refl s)) (doReadmitBootDone_only _ _ _ (.refl 0x2d0 s) rfl) rfl rfl
  | .readmitTimeout _, s => footprint (doReadmitTimeout_keeps _ _ (.refl s)) (doReadmitTimeout_latched _ _ (.refl s)) (doReadmitTimeout_only _ _ (.refl 0x2d0 s) rfl) rfl rfl
  | .mdieReadmit, s => footprint (doMdieReadmit_keeps _ (.refl s)) (doMdieReadmit_latched _ (.refl s)) (doMdieReadmit_only _ (.refl 0x12d4 s) rfl) rfl rfl
  | .girthHeartbeatTimeout _, s => footprint (doGirthHeartbeatTimeout_keeps _ _ (.refl s)) (doGirthHeartbeatTimeout_latched _ _ (.refl s)) (doGirthHeartbeatTimeout_only _ _ (.refl 0x10cabf6 s) rfl) rfl rfl
  | .girthChallenge _, s => footprint (doGirthChallenge_keeps _ _ (.refl s)) (doGirthChallenge_latched _ _ (.refl s)) (doGirthChallenge_only _ _ (.refl 0x10 s) rfl) rfl rfl
  | .girthResponseRx _ _, s => footprint (doGirthResponseRx_keeps _ _ _ (.refl s)) (doGirthResponseRx_latched _ _ _ (.refl s)) (doGirthResponseRx_only _ _ _ (.refl 0x10cabf6 s) rfl) rfl rfl
  | .girthResponseTimeout _, s => footprint (doGirthResponseTimeout_keeps _ _ (.refl s)) (doGirthResponseTimeout_latched _ _ (.refl s)) (doGirthResponseTimeout_only _ _ (.refl 0x10cabf6 s) rfl) rfl rfl
  | .zoneRrst _ _ _, s => footprint (doZoneRrst_keeps _ _ _ _ (.refl s)) (doZoneRrst_latched _ _ _ _ (.refl s)) (doZoneRrst_only _ _ _ _ (.refl 0x800a00 s) rfl) rfl rfl
  | .stdinVal _ _ _, s => footprint (doStdinVal_keeps _ _ _ _ (.refl s)) (doStdinVal_latched _ _ _ _ (.refl s)) (doStdinVal_only _ _ _ _ (.refl 0x400800 s) rfl) rfl rfl
  | .discTimerExpire _ _, s => footprint (doDiscTimerExpire_keeps _ _ _ (.refl s)) (doDiscTimerExpire_latched _ _ _ (.refl s)) (doDiscTimerExpire_only _ _ _ (.refl 0x92cbbf6 s) rfl) rfl rfl
  | .lockMismatchExpire _ _, s => footprint (doLockMismatchExpire_keeps _ _ _ (.refl s)) (doLockMismatchExpire_latched _ _ _ (.refl s)) (doLockMismatchExpire_only _ _ _ (.refl 0x92cbbf6 s) rfl) rfl rfl
  | .muteTimeExpire _ _, s => footprint (doMuteTimeExpire_keeps _ _ _ (.refl s)) (doMuteTimeExpire_latched _ _ _ (.refl s)) (doMuteTimeExpire_only _ _ _ (.refl 0x92cbbf6 s) rfl) rfl rfl
  | .overrideTimeExpire _ _, s => footprint (doOverrideTimeExpire_keeps _ _ _ (.refl s)) (doOverrideTimeExpire_latched _ _ _ (.refl s)) (doOverrideTimeExpire_only _ _ _ (.refl 0x92cbbf6 s) rfl) rfl rfl
  | .contactTExpire _ _, s => footprint (doContactTExpire_keeps _ _ _ (.refl s)) (doContactTExpire_latched _ _ _ (.refl s)) (doContactTExpire_only _ _ _ (.refl 0x92cbbf6 s) rfl) rfl rfl
  | .modeselDiscExpire _ _, s => footprint (doModeselDiscExpire_keeps _ _ _ (.refl s)) (doModeselDiscExpire_latched _ _ _ (.refl s)) (doModeselDiscExpire_only _ _ _ (.refl 0x92cbbf6 s) rfl) rfl rfl
  | .edmTimeout _ _, s => footprint (doEdmTimeout_keeps _ _ _ (.refl s)) (doEdmTimeout_latched _ _ _ (.refl s)) (doEdmTimeout_only _ _ _ (.refl 0x92cbbf6 s) rfl) rfl rfl
  | .timerPtExpire _ _, s => footprint (doTimerPtExpire_keeps _ _ _ (.refl s)) (doTimerPtExpire_latched _ _ _ (.refl s)) (doTimerPtExpire_only _ _ _ (.refl 0x92cbbf6 s) rfl) rfl rfl
  | .outsafeDlyExpire _ _, s => footprint (doOutsafeDlyExpire_keeps _ _ _ (.refl s)) (doOutsafeDlyExpire_latched _ _ _ (.refl s)) (doOutsafeDlyExpire_only _ _ _ (.refl 0x92cbbf6 s) rfl) rfl rfl
  | .stdinStale _ _, s => footprint (doStdinStale_keeps _ _ _ (.refl s)) (doStdinStale_latched _ _ _ (.refl s)) (doStdinStale_only _ _ _ (.refl 0x92cbbf6 s) rfl) rfl rfl
  | .streamLost _ _, s => footprint (doStreamLost_keeps _ _ _ (.refl s)) (doStreamLost_latched _ _ _ (.refl s)) (doStreamLost_only _ _ _ (.refl 0x92cbbf6 s) rfl) rfl rfl
  | .stoFbTimeout _ _, s => footprint (doStoFbTimeout_keeps _ _ _ (.refl s)) (doStoFbTimeout_latched _ _ _ (.refl s)) (doStoFbTimeout_only _ _ _ (.refl 0x92cbbf6 s) rfl) rfl rfl
  | .ss1StopTimeout _ _, s => footprint (doSs1StopTimeout_keeps _ _ _ (.refl s)) (doSs1StopTimeout_latched _ _ _ (.refl s)) (doSs1StopTimeout_only _ _ _ (.refl 0x92cbbf6 s) rfl) rfl rfl
  | .slsAdaptExpire _ _, s => footprint (doSlsAdaptExpire_keeps _ _ _ (.refl s)) (doSlsAdaptExpire_latched _ _ _ (.refl s)) (doSlsAdaptExpire_only _ _ _ (.refl 0x92cbbf6 s) rfl) rfl rfl
  | .brakeEngageExpire _ _, s => footprint (doBrakeEngageExpire_keeps _ _ _ (.refl s)) (doBrakeEngageExpire_latched _ _ _ (.refl s)) (doBrakeEngageExpire_only _ _ _ (.refl 0x92cbbf6 s) rfl) rfl rfl
  | .sbcFbTimeout _ _, s => footprint (doSbcFbTimeout_keeps _ _ _ (.refl s)) (doSbcFbTimeout_latched _ _ _ (.refl s)) (doSbcFbTimeout_only _ _ _ (.refl 0x92cbbf6 s) rfl) rfl rfl
  | .sbtTestTimeout _ _, s => footprint (doSbtTestTimeout_keeps _ _ _ (.refl s)) (doSbtTestTimeout_latched _ _ _ (.refl s)) (doSbtTestTimeout_only _ _ _ (.refl 0x92cbbf6 s) rfl) rfl rfl
  | .sbtIntervalExpire _ _, s => footprint (doSbtIntervalExpire_keeps _ _ _ (.refl s)) (doSbtIntervalExpire_latched _ _ _ (.refl s)) (doSbtIntervalExpire_only _ _ _ (.refl 0x92cbbf6 s) rfl) rfl rfl
  | .groupEngageExpire _ _, s => footprint (doGroupEngageExpire_keeps _ _ _ (.refl s)) (doGroupEngageExpire_latched _ _ _ (.refl s)) (doGroupEngageExpire_only _ _ _ (.refl 0x92cbbf6 s) rfl) rfl rfl
  | .tensionFilterExpire _ _, s => footprint (doTensionFilterExpire_keeps _ _ _ (.refl s)) (doTensionFilterExpire_latched _ _ _ (.refl s)) (doTensionFilterExpire_only _ _ _ (.refl 0x92cbbf6 s) rfl) rfl rfl
  | .crystalFirstValidCycle _ _, s => footprint (doCrystalFirstValidCycle_keeps _ _ _ (.refl s)) (doCrystalFirstValidCycle_latched _ _ _ (.refl s)) (doCrystalFirstValidCycle_only _ _ _ (.refl 0x208 s) rfl) rfl rfl
  | .crystalRelease _, s => footprint (doCrystalRelease_keeps _ _ (.refl s)) (doCrystalRelease_latched _ _ (.refl s)) (doCrystalRelease_only _ _ (.refl 0x8 s) rfl) rfl rfl
  | .pllLock _, s => footprint (doPllLock_keeps _ _ (.refl s)) (doPllLock_latched _ _ (.refl s)) (doPllLock_only _ _ (.refl 0x8 s) rfl) rfl rfl
  | .startRulePass _, s => footprint (doStartRulePass_keeps _ _ (.refl s)) (doStartRulePass_latched _ _ (.refl s)) (doStartRulePass_only _ _ (.refl 0x10cabfe s) rfl) rfl rfl
  | .startAttemptFail _, s => footprint (doStartAttemptFail_keeps _ _ (.refl s)) (doStartAttemptFail_latched _ _ (.refl s)) (doStartAttemptFail_only _ _ (.refl 0x10cabfe s) rfl) rfl rfl
  | .oscRestart _, s => footprint (doOscRestart_keeps _ _ (.refl s)) (doOscRestart_latched _ _ (.refl s)) (doOscRestart_only _ _ (.refl 0x208 s) rfl) rfl rfl
  | .clockFail _ _, s => footprint (doClockFail_keeps _ _ _ (.refl s)) (doClockFail_latched _ _ _ (.refl s)) (doClockFail_only _ _ _ (.refl 0x10dabfe s) rfl) rfl rfl
  | .clockSwitchComplete _ _, s => footprint (doClockSwitchComplete_keeps _ _ _ (.refl s)) (doClockSwitchComplete_latched _ _ _ (.refl s)) (doClockSwitchComplete_only _ _ _ (.refl 0x8 s) rfl) rfl rfl
  | .clkGate _ _ _, s => footprint (doClkGate_keeps _ _ _ _ (.refl s)) (doClkGate_latched _ _ _ _ (.refl s)) (doClkGate_only _ _ _ _ (.refl 0xa0c s) rfl) rfl rfl
  | .clkobsSelect _ _ _, s => footprint (doClkobsSelect_keeps _ _ _ _ (.refl s)) (doClkobsSelect_latched _ _ _ _ (.refl s)) (doClkobsSelect_only _ _ _ _ (.refl 0xa00 s) rfl) rfl rfl
  | .read _, s => footprint (doRead_keeps _ _ (.refl s)) (doRead_latched _ _ (.refl s)) (doRead_only _ _ (.refl 0x11cabf6 s) rfl) rfl rfl
  | .write _, s => footprint (doWrite_keeps _ _ (.refl s)) (doWrite_latched _ _ (.refl s)) (doWrite_only _ _ (.refl 0x9fefbfe s) rfl) rfl rfl
  | .readBlock _, s => footprint (doReadBlock_keeps _ _ (.refl s)) (doReadBlock_latched _ _ (.refl s)) (doReadBlock_only _ _ (.refl 0x11cbbf6 s) rfl) rfl rfl
  | .writeBlock _, s => footprint (doWriteBlock_keeps _ _ (.refl s)) (doWriteBlock_latched _ _ (.refl s)) (doWriteBlock_only _ _ (.refl 0x9fefbfe s) rfl) rfl rfl
  | .subscribe _, s => footprint (doSubscribe_keeps _ _ (.refl s)) (doSubscribe_latched _ _ (.refl s)) (doSubscribe_only _ _ (.refl 0x100a00 s) rfl) rfl rfl
  | .unsubscribe _, s => footprint (doUnsubscribe_keeps _ _ (.refl s)) (doUnsubscribe_latched _ _ (.refl s)) (doUnsubscribe_only _ _ (.refl 0x100a00 s) rfl) rfl rfl
  | .writeApply, s => footprint_clears rfl (doWriteApply_keeps _ (.refl s)) (doWriteApply_only _ (.refl 0x9fefbfe s) rfl) rfl rfl
  | .notification _, s => footprint (doNotification_keeps _ _ (.refl s)) (doNotification_latched _ _ (.refl s)) (doNotification_only _ _ (.refl 0xa00 s) rfl) rfl rfl
  | .writeFrame _ _ _, s => footprint (doWriteFrame_keeps _ _ _ _ (.refl s)) (doWriteFrame_latched _ _ _ _ (.refl s)) (doWriteFrame_only _ _ _ _ (.refl 0x100a00 s) rfl) rfl rfl
  | .readFrame _, s => footprint (doReadFrame_keeps _ _ (.refl s)) (doReadFrame_latched _ _ (.refl s)) (doReadFrame_only _ _ (.refl 0x800 s) rfl) rfl rfl
  | .readStatus, s => footprint (doReadStatus_keeps _ (.refl s)) (doReadStatus_latched _ (.refl s)) (doReadStatus_only _ (.refl 0x800 s) rfl) rfl rfl
  | .seatChal _, s => footprint (doSeatChal_keeps _ _ (.refl s)) (doSeatChal_latched _ _ (.refl s)) (doSeatChal_only _ _ (.refl 0x1000800 s) rfl) rfl rfl
  | .seatLogin _ _, s => footprint (doSeatLogin_keeps _ _ _ (.refl s)) (doSeatLogin_latched _ _ _ (.refl s)) (doSeatLogin_only _ _ _ (.refl 0x100a00 s) rfl) rfl rfl
  | .sessionTimeout _, s => footprint (doSessionTimeout_keeps _ _ (.refl s)) (doSessionTimeout_latched _ _ (.refl s)) (doSessionTimeout_only _ _ (.refl 0x100a00 s) rfl) rfl rfl
  | .loPass _ _, s => footprint (doLoPass_keeps _ _ _ (.refl s)) (doLoPass_latched _ _ _ (.refl s)) (doLoPass_only _ _ _ (.refl 0xa00 s) rfl) rfl rfl
  | .loPassNew _ _, s => footprint (doLoPassNew_keeps _ _ _ (.refl s)) (doLoPassNew_latched _ _ _ (.refl s)) (doLoPassNew_only _ _ _ (.refl 0x800 s) rfl) rfl rfl
  | .lineOwner _ _, s => footprint (doLineOwner_keeps _ _ _ (.refl s)) (doLineOwner_latched _ _ _ (.refl s)) (doLineOwner_only _ _ _ (.refl 0xa00 s) rfl) rfl rfl
  | .lockoutEnd _, s => footprint (doLockoutEnd_keeps _ _ (.refl s)) (doLockoutEnd_latched _ _ (.refl s)) (doLockoutEnd_only _ _ (.refl 0x180800 s) rfl) rfl rfl
  | .persistentWriteCommit, s => footprint (doPersistentWriteCommit_keeps _ (.refl s)) (doPersistentWriteCommit_latched _ (.refl s)) (doPersistentWriteCommit_only _ (.refl 0xa0ec0 s) rfl) rfl rfl
  | .registerWrite _ _ _ _, s => footprint (doRegisterWrite_keeps _ _ _ _ _ (.refl s)) (doRegisterWrite_latched _ _ _ _ _ (.refl s)) (doRegisterWrite_only _ _ _ _ _ (.refl 0x104a08 s) rfl) rfl rfl
  | .patImage _ _ _, s => footprint (doPatImage_keeps _ _ _ _ (.refl s)) (doPatImage_latched _ _ _ _ (.refl s)) (doPatImage_only _ _ _ _ (.refl 0x200800 s) rfl) rfl rfl
  | .load _, s => footprint (doLoad_keeps _ _ (.refl s)) (doLoad_latched _ _ (.refl s)) (doLoad_only _ _ (.refl 0x201800 s) rfl) rfl rfl
  | .discard _, s => footprint (doDiscard_keeps _ _ (.refl s)) (doDiscard_latched _ _ (.refl s)) (doDiscard_only _ _ (.refl 0x201800 s) rfl) rfl rfl
  | .patternCheckDone, s => footprint (doPatternCheckDone_keeps _ (.refl s)) (doPatternCheckDone_latched _ (.refl s)) (doPatternCheckDone_only _ (.refl 0x1201010 s) rfl) rfl rfl
  | .confirm _ _, s => footprint (doConfirm_keeps _ _ _ (.refl s)) (doConfirm_latched _ _ _ (.refl s)) (doConfirm_only _ _ _ (.refl 0x201a00 s) rfl) rfl rfl
  | .changeLogCommit, s => footprint (doChangeLogCommit_keeps _ (.refl s)) (doChangeLogCommit_latched _ (.refl s)) (doChangeLogCommit_only _ (.refl 0x201000 s) rfl) rfl rfl
  | .ringPush _ _, s => footprint (doRingPush_keeps _ _ _ (.refl s)) (doRingPush_latched _ _ _ (.refl s)) (doRingPush_only _ _ _ (.refl 0x10cbbf6 s) rfl) rfl rfl
  | .ringRead _ _ _, s => footprint (doRingRead_keeps _ _ _ _ (.refl s)) (doRingRead_latched _ _ _ _ (.refl s)) (doRingRead_only _ _ _ _ (.refl 0x10cbbf6 s) rfl) rfl rfl
  | .ringConsume _ _, s => footprint (doRingConsume_keeps _ _ _ (.refl s)) (doRingConsume_latched _ _ _ (.refl s)) (doRingConsume_only _ _ _ (.refl 0x10cbbf6 s) rfl) rfl rfl
  | .free _, s => footprint (doFree_keeps _ _ (.refl s)) (doFree_latched _ _ (.refl s)) (doFree_only _ _ (.refl 0x10cbbf6 s) rfl) rfl rfl
  | .reset _, s => footprint (doReset_keeps _ _ (.refl s)) (doReset_latched _ _ (.refl s)) (doReset_only _ _ (.refl 0x10cbbf6 s) rfl) rfl rfl
  | .ringAlloc _ _ _, s => footprint (doRingAlloc_keeps _ _ _ _ (.refl s)) (doRingAlloc_latched _ _ _ _ (.refl s)) (doRingAlloc_only _ _ _ _ (.refl 0x1800 s) rfl) rfl rfl
  | .jrnDataRead _ _ _ _, s => footprint (doJrnDataRead_keeps _ _ _ _ _ (.refl s)) (doJrnDataRead_latched _ _ _ _ _ (.refl s)) (doJrnDataRead_only _ _ _ _ _ (.refl 0x800 s) rfl) rfl rfl
  | .journalResume _, s => footprint (doJournalResume_keeps _ _ (.refl s)) (doJournalResume_latched _ _ (.refl s)) (doJournalResume_only _ _ (.refl 0x2c0 s) rfl) rfl rfl
  | .crcEnable _ _ _, s => footprint (doCrcEnable_keeps _ _ _ _ (.refl s)) (doCrcEnable_latched _ _ _ _ (.refl s)) (doCrcEnable_only _ _ _ _ (.refl 0x2a20 s) rfl) rfl rfl
  | .crcAbort _ _ _, s => footprint (doCrcAbort_keeps _ _ _ _ (.refl s)) (doCrcAbort_latched _ _ _ _ (.refl s)) (doCrcAbort_only _ _ _ _ (.refl 0x2a20 s) rfl) rfl rfl
  | .crcPreset _ _ _ _, s => footprint (doCrcPreset_keeps _ _ _ _ _ (.refl s)) (doCrcPreset_latched _ _ _ _ _ (.refl s)) (doCrcPreset_only _ _ _ _ _ (.refl 0xa00 s) rfl) rfl rfl
  | .crcParameterWrite _ _ _ _ _, s => footprint (doCrcParameterWrite_keeps _ _ _ _ _ _ (.refl s)) (doCrcParameterWrite_latched _ _ _ _ _ _ (.refl s)) (doCrcParameterWrite_only _ _ _ _ _ _ (.refl 0x2a00 s) rfl) rfl rfl
  | .crcDescriptorDone _ _, s => footprint (doCrcDescriptorDone_keeps _ _ _ (.refl s)) (doCrcDescriptorDone_latched _ _ _ (.refl s)) (doCrcDescriptorDone_only _ _ _ (.refl 0x1003220 s) rfl) rfl rfl
  | .timerMatch _ _, s => footprint (doTimerMatch_keeps _ _ _ (.refl s)) (doTimerMatch_latched _ _ _ (.refl s)) (doTimerMatch_only _ _ _ (.refl 0x10cfbf6 s) rfl) rfl rfl
  | .timerReload _ _, s => footprint (doTimerReload_keeps _ _ _ (.refl s)) (doTimerReload_latched _ _ _ (.refl s)) (doTimerReload_only _ _ _ (.refl 0x10cfbf6 s) rfl) rfl rfl
  | .tmrCtrl _ _ _ _, s => footprint (doTmrCtrl_keeps _ _ _ _ _ (.refl s)) (doTmrCtrl_latched _ _ _ _ _ (.refl s)) (doTmrCtrl_only _ _ _ _ _ (.refl 0x4800 s) rfl) rfl rfl
  | .tmrCmp _ _ _ _, s => footprint (doTmrCmp_keeps _ _ _ _ _ (.refl s)) (doTmrCmp_latched _ _ _ _ _ (.refl s)) (doTmrCmp_only _ _ _ _ _ (.refl 0x10cfbf6 s) rfl) rfl rfl
  | .tmrCmpNext _ _ _ _, s => footprint (doTmrCmpNext_keeps _ _ _ _ _ (.refl s)) (doTmrCmpNext_latched _ _ _ _ _ (.refl s)) (doTmrCmpNext_only _ _ _ _ _ (.refl 0x4800 s) rfl) rfl rfl
  | .tmrCount _ _ _ _, s => footprint (doTmrCount_keeps _ _ _ _ _ (.refl s)) (doTmrCount_latched _ _ _ _ _ (.refl s)) (doTmrCount_only _ _ _ _ _ (.refl 0x4800 s) rfl) rfl rfl
  | .otpProg _ _, s => footprint (doOtpProg_keeps _ _ _ (.refl s)) (doOtpProg_latched _ _ _ (.refl s)) (doOtpProg_only _ _ _ (.refl 0x8820 s) rfl) rfl rfl
  | .otpProgramDone _, s => footprint (doOtpProgramDone_keeps _ _ (.refl s)) (doOtpProgramDone_latched _ _ (.refl s)) (doOtpProgramDone_only _ _ (.refl 0x12eabf6 s) rfl) rfl rfl
  | .otpData _, s => footprint (doOtpData_keeps _ _ (.refl s)) (doOtpData_latched _ _ (.refl s)) (doOtpData_only _ _ (.refl 0x10cabf6 s) rfl) rfl rfl
  | .lcReq _ _, s => footprint (doLcReq_keeps _ _ _ (.refl s)) (doLcReq_latched _ _ _ (.refl s)) (doLcReq_only _ _ _ (.refl 0x8820 s) rfl) rfl rfl
  | .lcResp _ _ _, s => footprint (doLcResp_keeps _ _ _ _ (.refl s)) (doLcResp_latched _ _ _ _ (.refl s)) (doLcResp_only _ _ _ _ (.refl 0x8820 s) rfl) rfl rfl
  | .lcChal _, s => footprint (doLcChal_keeps _ _ (.refl s)) (doLcChal_latched _ _ (.refl s)) (doLcChal_only _ _ (.refl 0x1008800 s) rfl) rfl rfl
  | .keyPut _ _, s => footprint (doKeyPut_keeps _ _ _ (.refl s)) (doKeyPut_latched _ _ _ (.refl s)) (doKeyPut_only _ _ _ (.refl 0x20800 s) rfl) rfl rfl
  | .keyErase _ _, s => footprint (doKeyErase_keeps _ _ _ (.refl s)) (doKeyErase_latched _ _ _ (.refl s)) (doKeyErase_only _ _ _ (.refl 0x20800 s) rfl) rfl rfl
  | .eraRecordWrite _, s => footprint (doEraRecordWrite_keeps _ _ (.refl s)) (doEraRecordWrite_latched _ _ (.refl s)) (doEraRecordWrite_only _ _ (.refl 0x30000 s) rfl) rfl rfl
  | .tamper _, s => footprint (doTamper_keeps _ _ (.refl s)) (doTamper_latched _ _ (.refl s)) (doTamper_only _ _ (.refl 0x10dabf6 s) rfl) rfl rfl
  | .granuleDone _ _ _, s => footprint (doGranuleDone_keeps _ _ _ _ (.refl s)) (doGranuleDone_latched _ _ _ _ (.refl s)) (doGranuleDone_only _ _ _ _ (.refl 0x10cbbf6 s) rfl) rfl rfl
  | .roundLate, s => footprint (doRoundLate_keeps _ (.refl s)) (doRoundLate_latched _ (.refl s)) (doRoundLate_only _ (.refl 0x40000 s) rfl) rfl rfl
  | .stReq _ _, s => footprint (doStReq_keeps _ _ _ (.refl s)) (doStReq_latched _ _ _ (.refl s)) (doStReq_only _ _ _ (.refl 0x40800 s) rfl) rfl rfl
  | .chal _, s => footprint (doChal_keeps _ _ (.refl s)) (doChal_latched _ _ (.refl s)) (doChal_only _ _ (.refl 0x1080000 s) rfl) rfl rfl
  | .auth _, s => footprint (doAuth_keeps _ _ (.refl s)) (doAuth_latched _ _ (.refl s)) (doAuth_only _ _ (.refl 0x80000 s) rfl) rfl rfl
  | .manifest _, s => footprint (doManifest_keeps _ _ (.refl s)) (doManifest_latched _ _ (.refl s)) (doManifest_only _ _ (.refl 0x80000 s) rfl) rfl rfl
  | .chunk _, s => footprint (doChunk_keeps _ _ (.refl s)) (doChunk_latched _ _ (.refl s)) (doChunk_only _ _ (.refl 0x80000 s) rfl) rfl rfl
  | .abort _, s => footprint (doAbort_keeps _ _ (.refl s)) (doAbort_latched _ _ (.refl s)) (doAbort_only _ _ (.refl 0x80000 s) rfl) rfl rfl
  | .activate _, s => footprint (doActivate_keeps _ _ (.refl s)) (doActivate_latched _ _ (.refl s)) (doActivate_only _ _ (.refl 0x80000 s) rfl) rfl rfl
  | .stagingComplete, s => footprint (doStagingComplete_keeps _ (.refl s)) (doStagingComplete_latched _ (.refl s)) (doStagingComplete_only _ (.refl 0x80000 s) rfl) rfl rfl
  | .updateBootDone _ _, s => footprint (doUpdateBootDone_keeps _ _ _ (.refl s)) (doUpdateBootDone_latched _ _ _ (.refl s)) (doUpdateBootDone_only _ _ _ (.refl 0xc02d0 s) rfl) rfl rfl
  | .activationWaitTimeout, s => footprint (doActivationWaitTimeout_keeps _ (.refl s)) (doActivationWaitTimeout_latched _ (.refl s)) (doActivationWaitTimeout_only _ (.refl 0x802d0 s) rfl) rfl rfl
  | .flipDeferEnd, s => footprint (doFlipDeferEnd_keeps _ (.refl s)) (doFlipDeferEnd_latched _ (.refl s)) (doFlipDeferEnd_only _ (.refl 0x80802c2 s) rfl) rfl rfl
  | .svcSessionTimeout, s => footprint (doSvcSessionTimeout_keeps _ (.refl s)) (doSvcSessionTimeout_latched _ (.refl s)) (doSvcSessionTimeout_only _ (.refl 0x80000 s) rfl) rfl rfl
  | .testOpen _ _, s => footprint (doTestOpen_keeps _ _ _ (.refl s)) (doTestOpen_latched _ _ _ (.refl s)) (doTestOpen_only _ _ _ (.refl 0x100a00 s) rfl) rfl rfl
  | .testChal _, s => footprint (doTestChal_keeps _ _ (.refl s)) (doTestChal_latched _ _ (.refl s)) (doTestChal_only _ _ (.refl 0x1100800 s) rfl) rfl rfl
  | .testResp _ _ _, s => footprint (doTestResp_keeps _ _ _ _ (.refl s)) (doTestResp_latched _ _ _ _ (.refl s)) (doTestResp_only _ _ _ _ (.refl 0x8fa9bde s) rfl) rfl rfl
  | .pllUnlock _, s => footprint (doPllUnlock_keeps _ _ (.refl s)) (doPllUnlock_latched _ _ (.refl s)) (doPllUnlock_only _ _ (.refl 0x10dabfe s) rfl) rfl rfl
  | .railReturn _ _, s => footprint (doRailReturn_keeps _ _ _ (.refl s)) (doRailReturn_latched _ _ _ (.refl s)) (doRailReturn_only _ _ _ (.refl 0x214 s) rfl) rfl rfl
  | .overtemperatureEnd _, s => footprint (doOvertemperatureEnd_keeps _ _ (.refl s)) (doOvertemperatureEnd_latched _ _ (.refl s)) (doOvertemperatureEnd_only _ _ (.refl 0x10cabf6 s) rfl) rfl rfl
  | .gateDriveReturn _, s => footprint (doGateDriveReturn_keeps _ _ (.refl s)) (doGateDriveReturn_latched _ _ (.refl s)) (doGateDriveReturn_only _ _ (.refl 0x10cabf6 s) rfl) rfl rfl
  | .supplyCurrentReturn _, s => footprint (doSupplyCurrentReturn_keeps _ _ (.refl s)) (doSupplyCurrentReturn_latched _ _ (.refl s)) (doSupplyCurrentReturn_only _ _ (.refl 0x10cabf6 s) rfl) rfl rfl
  | .tamperRelease _, s => footprint (doTamperRelease_keeps _ _ (.refl s)) (doTamperRelease_latched _ _ (.refl s)) (doTamperRelease_only _ _ (.refl 0x10010 s) rfl) rfl rfl
  | .vbatBrownOut, s => footprint (doVbatBrownOut_keeps _ (.refl s)) (doVbatBrownOut_latched _ (.refl s)) (doVbatBrownOut_only _ (.refl 0x10000 s) rfl) rfl rfl
  | .blockResetComplete _, s => footprint (doBlockResetComplete_keeps _ _ (.refl s)) (doBlockResetComplete_latched _ _ (.refl s)) (doBlockResetComplete_only _ _ (.refl 0x20d8 s) rfl) rfl rfl
  | .dischargeSinkRelease _, s => footprint (doDischargeSinkRelease_keeps _ _ (.refl s)) (doDischargeSinkRelease_latched _ _ (.refl s)) (doDischargeSinkRelease_only _ _ (.refl 0x100 s) rfl) rfl rfl
  | .gateControlEntry _ _, s => footprint (doGateControlEntry_keeps _ _ _ (.refl s)) (doGateControlEntry_latched _ _ _ (.refl s)) (doGateControlEntry_only _ _ _ (.refl 0xc0 s) rfl) rfl rfl
  | .pdelayRx _ _ _, s => footprint (doPdelayRx_keeps _ _ _ _ (.refl s)) (doPdelayRx_latched _ _ _ _ (.refl s)) (doPdelayRx_only _ _ _ _ (.refl 0xc0 s) rfl) rfl rfl
  | .announceRx _ _ _ _ _, s => footprint (doAnnounceRx_keeps _ _ _ _ _ _ (.refl s)) (doAnnounceRx_latched _ _ _ _ _ _ (.refl s)) (doAnnounceRx_only _ _ _ _ _ _ (.refl 0xc0 s) rfl) rfl rfl
  | .forwardedResponseRx _ _ _, s => footprint (doForwardedResponseRx_keeps _ _ _ _ (.refl s)) (doForwardedResponseRx_latched _ _ _ _ (.refl s)) (doForwardedResponseRx_only _ _ _ _ (.refl 0x11cbbf6 s) rfl) rfl rfl
  | .zeroiseReadbackDone, s => footprint (doZeroiseReadbackDone_keeps _ (.refl s)) (doZeroiseReadbackDone_latched _ (.refl s)) (doZeroiseReadbackDone_only _ (.refl 0x100000 s) rfl) rfl rfl
  | .zeroiseTimeout, s => footprint (doZeroiseTimeout_keeps _ (.refl s)) (doZeroiseTimeout_latched _ (.refl s)) (doZeroiseTimeout_only _ (.refl 0x100000 s) rfl) rfl rfl

/-- What `exec` answers has the footprint of the command. -/
theorem Footprint.of_exec {c : Instr} {s t : State} (h : exec c s = .next t) : Footprint c s t := by
  obtain ⟨u, hu⟩ := exec_footprint c s
  obtain rfl : t = u := Host.Outcome.next.inj (h.symm.trans hu.next)
  exact hu

theorem exec_keeps {c : Instr} {s t : State} (h : exec c s = .next t) : Keeps s t := (Footprint.of_exec h).keeps

/-- A step keeps what no command undoes, with the queue as the step has left it. -/
theorem step_keeps {s t : State} (h : step s = .next t) : ∃ q, Keeps { s with pending := q } t := by
  unfold step at h
  split at h
  · next hq =>
    obtain rfl := Host.Outcome.next.inj h
    exact ⟨s.pending, idle_keeps s (.refl s)⟩
  · next rest _ => exact ⟨rest, exec_keeps h⟩

/-- Settles O1: the queue of `s.front c` is `c` and then the queue of `s`. -/
theorem stepRunsFrontCommand : Obligations.StepRunsFrontCommand := fun _ _ => rfl

/-- Settles O2: the queue is among what every command keeps. -/
theorem queueBelongsToTheSender : Obligations.QueueBelongsToTheSender := fun _ _ _ h => (exec_keeps h).1

/-- Settles O3: every command has a footprint, and an empty queue is an idle cycle. -/
theorem everyCommandAnswersANextState : Obligations.EveryCommandAnswersANextState := by
  have hexec (c : Instr) (s : State) : ∃ t, exec c s = .next t := (exec_footprint c s).imp fun _ h => h.next
  refine ⟨hexec, fun s => ?_⟩
  unfold step
  split
  · exact ⟨_, rfl⟩
  · exact hexec _ _

/-- Settles O7: the canonical form of the memories is among what every step keeps. -/
theorem memoriesStayCanonical : Obligations.MemoriesStayCanonical := by
  intro s t hs h
  obtain ⟨q, -, -, hmem, -, -⟩ := step_keeps h
  exact hmem hs

/-- Settles O8: a programmed OTP word is among what every step keeps. -/
theorem programmedOtpWordsArePermanent : Obligations.ProgrammedOtpWordsArePermanent := by
  intro s t n h hn
  obtain ⟨q, -, hotp, -, -, -⟩ := step_keeps h
  exact hotp n hn

/-- Settles O9: the change log of each flash is among what every step keeps: the new one begins with it. -/
theorem changeLogOnlyGrows : Obligations.ChangeLogOnlyGrows := by
  intro s t h
  obtain ⟨q, -, -, -, hfa, hfb⟩ := step_keeps h
  exact ⟨hfa, hfb⟩

theorem Instr.clearsFaults_eq_false {c : Instr} (hclr : ∀ seat mask, c ≠ .fswClr seat mask) (happ : c ≠ .writeApply)
    (hdown : c ≠ .powerDownStep) : c.clearsFaults = false := by
  unfold Instr.clearsFaults
  split
  · exact absurd rfl (hclr _ _)
  · exact absurd rfl happ
  · exact absurd rfl hdown
  · rfl

/-- Settles O10: every command but those three keeps the latched bits and sets no reserved one. -/
theorem latchedFaultBitsStay : Obligations.LatchedFaultBitsStay := by
  intro c s t hclr happ hdown h
  exact (Footprint.of_exec h).latched (Instr.clearsFaults_eq_false hclr happ hdown)

theorem or_not_iff_imp_eq_false (p q : Bool) : (p || !q) = true ↔ (p = false → q = false) := by cases p <;> cases q <;> decide

theorem Instr.mayTouch_iff (c : Instr) (m : Nat) : c.mayTouch m = true ↔
    m.testBit 0 = false ∧ (c.movesMode = false → m.testBit 27 = false) ∧ (c.movesPattern = false → m.testBit 21 = false)
      ∧ (c.movesKeys = false → m.testBit 17 = false) ∧ (c.movesPers = false → m.testBit 10 = false) := by
  simp only [Instr.mayTouch, Bool.and_eq_true, or_not_iff_imp_eq_false, Bool.not_eq_true', and_assoc]

/-- Settles O22: no other command has the mode among the parts that it may touch. -/
theorem modeChangesOnlyAtModeEvents : Obligations.ModeChangesOnlyAtModeEvents := by
  intro c s t hc h
  have hdown : c ≠ .powerDownStep := by
    rintro rfl
    cases hc
  obtain ⟨m, hm, ho⟩ := (Footprint.of_exec h).only hdown
  obtain ⟨-, hmode, -, -, -⟩ := (Instr.mayTouch_iff c m).mp hm
  exact ho.mode (hmode hc)

/-- Settles O23: no other command has the store among the parts that it may touch. -/
theorem storesChangeOnlyByTheirCommands : Obligations.StoresChangeOnlyByTheirCommands := by
  intro c s t _ hdown h
  obtain ⟨m, hm, ho⟩ := (Footprint.of_exec h).only hdown
  obtain ⟨horder, -, hpat, hkeys, hpers⟩ := (Instr.mayTouch_iff c m).mp hm
  refine ⟨fun hc => ho.pers (hpers ?_), ho.order horder, fun hc => ho.pat (hpat hc), fun hc => ho.keys (hkeys hc)⟩
  unfold Instr.movesPers
  split
  · exact absurd rfl hc
  · rfl

end Sys2Proof.Machine

namespace Sys2Proof

/-! ## Tables after writes to many numbers -/

@[simp] theorem Tab.get_upd_self {α : Type} [DecidableEq α] (dflt : α) (t : Tab α) (k : Nat) (f : α → α) :
    Tab.get dflt (Tab.upd dflt t k f) k = f (Tab.get dflt t k) := Tab.get_set_self ..

theorem Tab.get_upd_ne {α : Type} [DecidableEq α] (dflt : α) (t : Tab α) {k n : Nat} (f : α → α) (h : n ≠ k) :
    Tab.get dflt (Tab.upd dflt t k f) n = Tab.get dflt t n := Tab.get_set_ne _ _ _ _ _ h

/-- Each of the numbers `l` is updated once, and no other number is. -/
theorem Tab.get_foldl_upd {α : Type} [DecidableEq α] (dflt : α) (f : Nat → α → α) {l : List Nat} (hl : l.Nodup) (t : Tab α) (n : Nat) :
    Tab.get dflt (l.foldl (fun t k => Tab.upd dflt t k (f k)) t) n = if n ∈ l then f n (Tab.get dflt t n) else Tab.get dflt t n := by
  induction l generalizing t with
  | nil => simp
  | cons k l ih =>
    obtain ⟨hk, hl⟩ := List.nodup_cons.mp hl
    rw [List.foldl_cons, ih hl]
    by_cases hn : n = k
    · subst hn
      simp [hk]
    · simp [hn, Tab.get_upd_ne]

end Sys2Proof

namespace Sys2Proof.Machine

/-! ## The frame of an operation as an equation -/

/-- The state `s` with the parts `m` (numbered as in `Only`) of `t`. -/
def State.taking (m : Nat) (s t : State) : State where
  order := bif m.testBit 0 then t.order else s.order
  modes := bif m.testBit 1 then t.modes else s.modes
  pow := bif m.testBit 2 then t.pow else s.pow
  clk := bif m.testBit 3 then t.clk else s.clk
  flt := bif m.testBit 4 then t.flt else s.flt
  leases := bif m.testBit 5 then t.leases else s.leases
  a := bif m.testBit 6 then t.a else s.a
  b := bif m.testBit 7 then t.b else s.b
  fd := bif m.testBit 8 then t.fd else s.fd
  regs := bif m.testBit 9 then t.regs else s.regs
  pers := bif m.testBit 10 then t.pers else s.pers
  br := bif m.testBit 11 then t.br else s.br
  rings := bif m.testBit 12 then t.rings else s.rings
  crc := bif m.testBit 13 then t.crc else s.crc
  tmr := bif m.testBit 14 then t.tmr else s.tmr
  otp := bif m.testBit 15 then t.otp else s.otp
  bkp := bif m.testBit 16 then t.bkp else s.bkp
  keys := bif m.testBit 17 then t.keys else s.keys
  st := bif m.testBit 18 then t.st else s.st
  upd := bif m.testBit 19 then t.upd else s.upd
  tst := bif m.testBit 20 then t.tst else s.tst
  pat := bif m.testBit 21 then t.pat else s.pat
  stdin := bif m.testBit 22 then t.stdin else s.stdin
  remote := bif m.testBit 23 then t.remote else s.remote
  freeCtr := bif m.testBit 24 then t.freeCtr else s.freeCtr
  time := bif m.testBit 25 then t.time else s.time
  pending := bif m.testBit 26 then t.pending else s.pending

theorem eq_cond_of_imp {α : Type} {c : Bool} {x y : α} (h : c = false → x = y) : x = bif c then x else y := by
  cases c with
  | false => exact h rfl
  | true => rfl

/-- A state differs from its start in the parts that it may touch. For a mask that is written out the right side reads
`{ s with … }` by `rfl`. -/
theorem Only.frame {m : Nat} {s t : State} (h : Only m s t) : t = s.taking m t :=
  State.eq_of (eq_cond_of_imp h.order) (eq_cond_of_imp h.modes) (eq_cond_of_imp h.pow) (eq_cond_of_imp h.clk) (eq_cond_of_imp h.flt)
    (eq_cond_of_imp h.leases) (eq_cond_of_imp h.a) (eq_cond_of_imp h.b) (eq_cond_of_imp h.fd) (eq_cond_of_imp h.regs)
    (eq_cond_of_imp h.pers) (eq_cond_of_imp h.br) (eq_cond_of_imp h.rings) (eq_cond_of_imp h.crc) (eq_cond_of_imp h.tmr)
    (eq_cond_of_imp h.otp) (eq_cond_of_imp h.bkp) (eq_cond_of_imp h.keys) (eq_cond_of_imp h.st) (eq_cond_of_imp h.upd)
    (eq_cond_of_imp h.tst) (eq_cond_of_imp h.pat) (eq_cond_of_imp h.stdin) (eq_cond_of_imp h.remote) (eq_cond_of_imp h.freeCtr)
    (eq_cond_of_imp h.time) (eq_cond_of_imp h.pending)

/-! ## The state after reset, the register store and the memories -/

/-- Entries with subindices below 256 have keys of their own. -/
theorem odKey_inj {i j i' j' : Nat} (hj : j < 256) (hj' : j' < 256) : odKey i' j' = odKey i j ↔ i' = i ∧ j' = j := by
  unfold odKey
  omega

/-- Settles O5: the state after reset is written out, and its one OTP word is word 2. -/
theorem resetIsShelf : Obligations.ResetIsShelf := by
  refine ⟨rfl, rfl, rfl, rfl, rfl, rfl, rfl, rfl, rfl, fun _ => rfl, rfl, ?_, ⟨rfl, rfl⟩, fun _ => ⟨rfl, rfl⟩, fun n hn => ?_, rfl⟩
  · exact ⟨⟨rfl, rfl⟩, ⟨rfl, rfl⟩, ⟨rfl, rfl⟩, rfl, ⟨rfl, rfl⟩, ⟨rfl, rfl⟩⟩
  · exact if_neg (Ne.symm hn)

/-- Settles O6: no entry is listed after reset, so that each reads its default, and the store is a table by the key of the entry. -/
theorem entriesResetToTheirDefaults : Obligations.EntriesResetToTheirDefaults := by
  refine ⟨fun _ _ => rfl, rfl, by decide, fun s i j v i' j' hj hj' => ?_⟩
  split
  · next h =>
    obtain ⟨rfl, rfl⟩ := h
    exact s.reg_setReg_self _ _ v
  · next h => exact s.reg_setReg_ne v (mt (odKey_inj hj hj').mp h ∘ Eq.symm)

theorem Journal.wf_put {j : Journal} (bs : List Byte) (h : j.mem.wf = true) : (j.put bs).mem.wf = true := Mem.wf_writeL _ _ _ h

theorem Journal.wf_newBlock {j : Journal} (order o span rtc : Nat) (h : j.mem.wf = true) : (j.newBlock order o span rtc).mem.wf = true :=
  Journal.wf_put (j := { j with mem := _, head := _, oldest := _, at_ := _ }) _ (Mem.wf_clear _ _ _ h)

/-- A record is put at the head, or into a new block. -/
theorem Journal.wf_write {j : Journal} (order span rtc typ : Nat) (body : List Byte) (h : j.mem.wf = true) :
    (j.write order span rtc typ body).mem.wf = true := by
  unfold Journal.write
  extract_lets blk dist long len fits o
  split
  · exact Journal.wf_put _ h
  · exact Journal.wf_put _ (Journal.wf_newBlock _ _ _ _ h)

/-- A flush writes the buffered records one by one. -/
theorem Journal.wf_flush {j : Journal} (order : Nat) (h : j.mem.wf = true) : (j.flush order).mem.wf = true := by
  have hfold (l : List JrnRec) : ∀ {k : Journal}, k.mem.wf = true →
      (l.foldl (fun (k : Journal) x => k.write order x.span x.rtc x.typ x.body) k).mem.wf = true := by
    induction l with
    | nil => exact id
    | cons x l ih => exact fun hk => ih (Journal.wf_write _ _ _ _ _ hk)
  exact hfold j.buf h

theorem Journal.mem_add (j : Journal) (span rtc typ : Nat) (body : List Byte) : (j.add span rtc typ body).mem = j.mem := by
  unfold Journal.add
  split <;> rfl

/-- Settles O11: the laws of Laws/Tab.lean, and those of the journal above. -/
theorem memoryReadsWhatWasWritten : Obligations.MemoryReadsWhatWasWritten := by
  refine ⟨fun m a b => ⟨m.read_write_self a b, fun x hx => m.read_write_ne a x b hx⟩,
    fun m a bs => ⟨fun i hi => Mem.read_writeL bs m a i hi, fun x hx => Mem.read_writeL_outside bs m a x hx⟩,
    fun m a n bs hm => ⟨Mem.wf_writeL bs m a hm, Mem.wf_clear m a n hm⟩, fun order span rtc typ j body hj => ?_⟩
  exact ⟨Journal.wf_write order span rtc typ body hj, Journal.wf_flush order hj, j.mem_add span rtc typ body, rfl⟩

/-! ## One cycle on an empty queue (R379, R410, R426, R442) -/

/-- No timer writes to a ring. -/
def State.Quiet (s : State) : Prop := ∀ k, (s.timer k).ring = false

theorem Tmr.count1_ring (x : Tmr) : x.count1.ring = x.ring := by
  unfold Tmr.count1 Tmr.transfer
  dsimp only
  split_ifs <;> rfl

theorem Tmr.edge_ring (x : Tmr) : x.edge.1.ring = x.ring := by
  unfold Tmr.edge Tmr.match_
  dsimp only
  split_ifs
  · rfl
  · exact x.count1_ring
  · exact x.count1_ring

theorem State.timer_setTimer_ne (s : State) {k n : Nat} (x : Tmr) (h : n ≠ k) : (s.setTimer k x).timer n = s.timer n :=
  Tab.get_set_ne _ _ _ _ _ h

theorem State.putTimer_of_quiet (s : State) (k : Nat) {x : Tmr × Bool} (h : x.1.ring = false) : s.putTimer k x = s.setTimer k x.1 := by
  simp [State.putTimer, h]

/-- A quiet timer's edge stays quiet. -/
theorem State.Quiet.setEdge {s : State} (h : s.Quiet) (k : Nat) : (s.setTimer k (s.timer k).edge.1).Quiet := by
  intro n
  by_cases hn : n = k
  · subst hn
    rw [s.timer_setTimer_self, Tmr.edge_ring, h n]
  · rw [s.timer_setTimer_ne _ hn, h n]

/-- The timers of die `d` on CK_TICK take an edge each. -/
def State.edgeOf (s : State) (k : Nat) : State :=
  let x := s.timer k
  if x.en && x.src == false then s.putTimer k x.edge else s

theorem State.timerEdge_eq (s : State) (d : Die) : s.timerEdge d false = ((List.range 8).map (8 * d.n + ·)).foldl State.edgeOf s := by
  rw [List.foldl_map]
  rfl

/-- What a run over the timers `l` leaves: of a quiet state it changes those timers that are enabled and count CK_TICK. -/
def State.EdgesTaken (l : List Nat) (s t : State) : Prop :=
  t = { s with tmr := t.tmr } ∧ t.Quiet
    ∧ ∀ k, t.timer k = if k ∈ l ∧ (s.timer k).en = true ∧ (s.timer k).src = false then (s.timer k).edge.1 else s.timer k

theorem State.edgeOf_taken {s : State} (h : s.Quiet) (k : Nat) : State.EdgesTaken [k] s (s.edgeOf k) := by
  unfold State.edgeOf
  dsimp only
  split
  · next hc =>
    simp only [Bool.and_eq_true, beq_iff_eq] at hc
    rw [State.putTimer_of_quiet _ _ ((Tmr.edge_ring _).trans (h k))]
    refine ⟨rfl, h.setEdge k, fun n => ?_⟩
    by_cases hn : n = k
    · subst hn
      simp [hc]
    · simp [hn, State.timer_setTimer_ne]
  · next hc =>
    refine ⟨rfl, h, fun n => (if_neg ?_).symm⟩
    rintro ⟨hn, hen, hsrc⟩
    obtain rfl := List.mem_singleton.mp hn
    exact hc (by simp [hen, hsrc])

theorem State.foldl_edgeOf_taken {l : List Nat} (hl : l.Nodup) {s : State} (h : s.Quiet) : State.EdgesTaken l s (l.foldl State.edgeOf s) := by
  induction l generalizing s with
  | nil => exact ⟨rfl, h, fun k => by simp⟩
  | cons k l ih =>
    obtain ⟨hk, hl⟩ := List.nodup_cons.mp hl
    obtain ⟨he, hq, ht⟩ := State.edgeOf_taken h k
    obtain ⟨he', hq', ht'⟩ := ih hl hq
    refine ⟨?_, hq', fun n => ?_⟩
    · rw [List.foldl_cons, he', he]
    · rw [List.foldl_cons, ht' n]
      by_cases hn : n = k
      · subst hn
        simp [hk, ht]
      · simp [hn, ht]

/-- The timers of a die, by their numbers. -/
theorem mem_dieTimers (d : Die) {k : Nat} (hk : k < 16) :
    k ∈ (List.range 8).map (8 * d.n + ·) ↔ d = if k < 8 then .a else .b := by
  have hmem : k ∈ (List.range 8).map (8 * d.n + ·) ↔ 8 * d.n ≤ k ∧ k < 8 * d.n + 8 := by
    simp only [List.mem_map, List.mem_range]
    exact ⟨by rintro ⟨n, hn, rfl⟩; omega, fun h => ⟨k - 8 * d.n, by omega, by omega⟩⟩
  rw [hmem]
  cases d with
  | a => simp [Die.n]
  | b =>
    simp [Die.n]
    omega

theorem State.tickTimers_taken {s : State} (h : s.Quiet) (d : Die) :
    State.EdgesTaken (if s.ticking d then (List.range 8).map (8 * d.n + ·) else []) s (s.tickTimers d) := by
  unfold State.tickTimers
  split
  · rw [State.timerEdge_eq]
    exact State.foldl_edgeOf_taken ((List.nodup_map_iff (fun _ _ h => by simpa using h)).mpr List.nodup_range) h
  · exact State.foldl_edgeOf_taken List.nodup_nil h

/-- Holdover moves the holdover time of both dies and nothing else (R48). -/
theorem State.holdOn_spec (s : State) : s.holdOn = { s with
    a := { s.a with tb := { s.a.tb with holdNs := s.holdOn.a.tb.holdNs } }
    b := { s.b with tb := { s.b.tb with holdNs := s.holdOn.b.tb.holdNs } } } := by
  unfold State.holdOn
  split <;> rfl

theorem State.ticking_holdOn (s : State) (d : Die) : s.holdOn.ticking d = s.ticking d := by
  rw [State.holdOn_spec]
  cases d <;> rfl

theorem State.otpNext_of_todo_nil {s : State} (h : s.otp.todo = []) : s.otpNext = s := by
  unfold State.otpNext
  rw [h]
  exact ite_self s

/-- What an idle cycle outside SHELF leaves, while no timer writes to a ring and no program operation waits. -/
theorem idle_outside_shelf {s : State} (hmode : s.modes.mode ≠ .shelf) (hq : s.Quiet) (hotp : s.otp.todo = []) :
    ∃ t : State, idle s = t.refillAll.roundOn
      ∧ t.bkp = { s.bkp with rtc := if s.bkp.rtcOk then s.bkp.rtc + 1 else s.bkp.rtc }
      ∧ (∀ k : Fin 16, t.timer k.val = if s.ticking (if k.val < 8 then .a else .b) && (s.timer k.val).en && !(s.timer k.val).src
          then (s.timer k.val).edge.1 else s.timer k.val)
      ∧ t.a = { s.a with tb := { s.a.tb with holdNs := t.a.tb.holdNs } } ∧ t.b = { s.b with tb := { s.b.tb with holdNs := t.b.tb.holdNs } }
      ∧ t = { s with time := s.time + 1, bkp := t.bkp, tmr := t.tmr, a := t.a, b := t.b } := by
  let s1 : State := { s with time := s.time + 1, bkp := { s.bkp with rtc := if s.bkp.rtcOk then s.bkp.rtc + 1 else s.bkp.rtc } }
  have hq1 : s1.holdOn.Quiet := by
    rw [State.holdOn_spec]
    exact hq
  obtain ⟨hea, hqa, hta⟩ := State.tickTimers_taken hq1 .a
  obtain ⟨heb, -, htb⟩ := State.tickTimers_taken hqa .b
  have hframe : (s1.holdOn.tickTimers .a).tickTimers .b = { s with
      time := s.time + 1, bkp := s1.bkp, tmr := ((s1.holdOn.tickTimers .a).tickTimers .b).tmr, a := s1.holdOn.a, b := s1.holdOn.b } := by
    rw [heb, hea, State.holdOn_spec]
  refine ⟨(s1.holdOn.tickTimers .a).tickTimers .b, ?_, ?_, fun k => ?_, ?_, ?_, ?_⟩
  · unfold idle
    rw [if_neg hmode]
    refine State.otpNext_of_todo_nil ?_
    rw [← hotp]
    have h := (State.roundOn_only (M := 0x40800) _ (State.refillAll_only _ (.refl _ ((s1.holdOn.tickTimers .a).tickTimers .b)) rfl) rfl).otp rfl
    rw [h, hframe]
  · rw [hframe]
  · have ha : s1.holdOn.ticking .a = s.ticking .a := State.ticking_holdOn s1 .a
    have hb : (s1.holdOn.tickTimers .a).ticking .b = s.ticking .b := by
      rw [hea]
      exact State.ticking_holdOn s1 .b
    have ht : s1.holdOn.timer k.val = s.timer k.val := by
      rw [State.holdOn_spec]
      rfl
    rw [htb, hta, ha, hb, ht]
    by_cases hk : k.val < 8 <;> by_cases hta : s.ticking .a = true <;> by_cases htb : s.ticking .b = true <;>
      simp [hk, hta, htb, mem_dieTimers]
  · rw [hframe]
    exact congrArg State.a (State.holdOn_spec s1)
  · rw [hframe]
    exact congrArg State.b (State.holdOn_spec s1)
  · have hbkp := congrArg State.bkp hframe
    have ha := congrArg State.a hframe
    have hb := congrArg State.b hframe
    dsimp only at hbkp ha hb
    rw [hbkp, ha, hb]
    exact hframe

/-- Every seat's bucket takes RATE up to BURST (R379). -/
theorem State.seat_refillAll (s : State) {k : Nat} (hk : k < 8) : s.refillAll.br.seat k =
    { (s.br.seat k) with bucket := min (s.reg (0x1100 + k) 6 * 8000000) ((s.br.seat k).bucket + s.reg (0x1100 + k) 5) } := by
  unfold State.refillAll Bridle.seat
  dsimp only
  rw [Tab.get_foldl_upd Seat.init (fun k x => { x with bucket := refill (s.reg (0x1100 + k) 5) (s.reg (0x1100 + k) 6) x.bucket }) List.nodup_range]
  rw [if_pos (List.mem_range.mpr hk)]
  rfl

/-- The seats' buckets and the round clock are all that the end of the cycle moves. -/
theorem State.refillAll_roundOn (s : State) : ∃ seats : Tab Seat, s.refillAll = { s with br := { s.br with seats := seats } }
    ∧ s.refillAll.roundOn = { s with
        br := { s.br with seats := seats }
        st := if s.slicesOn then { s.st with ran := s.st.ran + (if s.modes.pwr = .sleep then 1 else 2) } else s.st } := by
  obtain ⟨seats, h⟩ : ∃ seats : Tab Seat, s.refillAll = { s with br := { s.br with seats := seats } } := ⟨_, rfl⟩
  refine ⟨seats, h, ?_⟩
  rw [h]
  unfold State.roundOn State.slicesOn
  dsimp only
  split <;> rfl

/-- Settles O4: in SHELF the two clocks alone go on; elsewhere the timers, the holdover time, the buckets and the round clock too. -/
theorem emptyQueueIsOneCycle : Obligations.EmptyQueueIsOneCycle := by
  have hstep {s : State} (hp : s.pending = []) : step s = .next (idle s) := by
    unfold step
    rw [hp]
  refine ⟨fun s hp hmode => ?_, fun s hp hmode hq hotp => ?_⟩
  · rw [hstep hp]
    unfold idle
    rw [if_pos hmode]
  · obtain ⟨t, hidle, hbkp, htmr, ha, hb, hframe⟩ := idle_outside_shelf hmode hq hotp
    have hbr : t.br = s.br := by rw [hframe]
    have hst : t.st = s.st := by rw [hframe]
    have hmodes : t.modes = s.modes := by rw [hframe]
    have hregs : t.regs = s.regs := by rw [hframe]
    have hslices : t.slicesOn = s.slicesOn := by unfold State.slicesOn; rw [hmodes]
    have hreg (i j : Nat) : t.reg i j = s.reg i j := by unfold State.reg; rw [hregs]
    refine ⟨_, hstep hp, ?_⟩
    obtain ⟨seats, hrefill, hround⟩ := t.refillAll_roundOn
    have hseat (k : Fin 8) := t.seat_refillAll k.isLt
    rw [hrefill] at hseat
    rw [hidle, hround, hslices, hst, hmodes]
    refine ⟨?_, hbkp, fun k => ?_, htmr, ha, hb, rfl, ?_⟩
    · rw [hframe]
    · rw [← hreg, ← hreg, ← hbr]
      exact hseat k
    · dsimp only
      rw [hframe]

end Sys2Proof.Machine

namespace Sys2Proof.Machine

/-! ## Requests for a mode or a power state (R338, R341) -/

/-- Where Bridle serves, the checks of Table 14-6 stand alone. -/
theorem State.write_of_open {s : State} (ho : s.open_) (busy rights mode range : Bool) (f : State → State) :
    s.write busy rights mode range f = if busy = true then s.ans .busy else if rights = true then
      if mode = true then if range = true then f (s.ans .ok) else s.ans .range else s.ans .mode else s.ans .rights := by
  obtain ⟨hshelf, hserves⟩ := ho
  unfold State.write
  rw [if_neg hshelf, hserves]
  cases busy <;> cases rights <;> cases mode <;> cases range <;> rfl

theorem State.modeReq_of_open {s : State} (ho : s.open_) (seat : Nat) {code : Nat} (h2 : 2 ≤ code) (h5 : code ≤ 5) :
    s.modeReq seat code = if s.reqPending = true then s.ans .busy else if s.reqRight seat code = true then
      if reqAllowed s.modes.mode code s.modes.act.isSome = true then
        { (s.ans .ok) with modes := { s.modes with req := some (code, seat) } } else s.ans .mode else s.ans .rights := by
  unfold State.modeReq
  rw [State.write_of_open ho]
  simp [h2, h5]

theorem State.pwrReq_of_open {s : State} (ho : s.open_) (seat : Nat) (x : Pwr) :
    s.pwrReq seat x = if s.owner seat = true then
      if ((s.modes.mode == .run || s.modes.mode == .safe) && !(s.modes.mode == .run && x == .deepSleep)) = true then
        { (s.ans .ok) with modes := { s.modes with pwrReq := some x } } else s.ans .mode else s.ans .rights := by
  unfold State.pwrReq
  rw [State.write_of_open ho]
  simp

theorem exec_modeReqConfigure {s : State} (ho : s.open_) (seat : Fin 8) : exec (.modeReqConfigure seat) s = .next
    (if s.reqPending = true then s.ans .busy else if s.reqRight seat 2 = true then
      if reqAllowed s.modes.mode 2 s.modes.act.isSome = true then { (s.ans .ok) with modes := { s.modes with req := some (2, seat.val) } }
      else s.ans .mode else s.ans .rights) := congrArg _ (State.modeReq_of_open ho seat (by decide) (by decide))

theorem exec_modeReqRun {s : State} (ho : s.open_) (seat : Fin 8) : exec (.modeReqRun seat) s = .next
    (if s.reqPending = true then s.ans .busy else if s.reqRight seat 3 = true then
      if reqAllowed s.modes.mode 3 s.modes.act.isSome = true then { (s.ans .ok) with modes := { s.modes with req := some (3, seat.val) } }
      else s.ans .mode else s.ans .rights) := congrArg _ (State.modeReq_of_open ho seat (by decide) (by decide))

theorem exec_modeReqSafe {s : State} (ho : s.open_) (seat : Fin 8) : exec (.modeReqSafe seat) s = .next
    (if s.reqPending = true then s.ans .busy else if s.reqRight seat 4 = true then
      if reqAllowed s.modes.mode 4 s.modes.act.isSome = true then { (s.ans .ok) with modes := { s.modes with req := some (4, seat.val) } }
      else s.ans .mode else s.ans .rights) := congrArg _ (State.modeReq_of_open ho seat (by decide) (by decide))

theorem exec_modeReqService {s : State} (ho : s.open_) (seat : Fin 8) : exec (.modeReqService seat) s = .next
    (if s.reqPending = true then s.ans .busy else if s.reqRight seat 5 = true then
      if reqAllowed s.modes.mode 5 s.modes.act.isSome = true then { (s.ans .ok) with modes := { s.modes with req := some (5, seat.val) } }
      else s.ans .mode else s.ans .rights) := congrArg _ (State.modeReq_of_open ho seat (by decide) (by decide))

/-- Table 13-3 by the request. -/
theorem reqAllowed_iff {m : Mode} {code : Nat} {act : Bool} : reqAllowed m code act = true ↔
    (m = .configure ∧ (code = 3 ∨ code = 4 ∨ code = 5)) ∨ (m = .safe ∧ (code = 2 ∨ code = 3)) ∨ (m = .run ∧ code = 4)
      ∨ (m = .service ∧ code = 2 ∧ act = false) := by
  cases m <;> simp [reqAllowed, or_assoc]

/-- The owner may write each request; the config right alone does for CONFIGURE, SERVICE, and RUN from CONFIGURE. -/
theorem State.reqRight_iff {s : State} {seat code : Nat} : s.reqRight seat code = true ↔
    s.owner seat = true ∨ (s.has seat 2 = true ∧ (code = 2 ∨ code = 5 ∨ (code = 3 ∧ s.modes.mode = .configure))) := by
  simp [State.reqRight, State.inConf, or_assoc]

/-- Settles O25: each request is one write, whose checks are read off in turn. -/
theorem requestsAreCheckedInOrder : Obligations.RequestsAreCheckedInOrder := by
  refine ⟨fun s seat ho => ⟨fun hpend => ?_, fun hreq hwait => ?_⟩, fun s seat ho => ⟨fun hown => ?_, fun hown => ?_⟩⟩
  · have hbusy : s.reqPending = true := by simpa [State.reqPending] using hpend
    simp [exec_modeReqConfigure ho, exec_modeReqRun ho, exec_modeReqSafe ho, exec_modeReqService ho, hbusy]
  · have hfree : s.reqPending = false := by simp [State.reqPending, hreq, hwait]
    simp only [exec_modeReqConfigure ho, exec_modeReqRun ho, exec_modeReqSafe ho, exec_modeReqService ho, hfree, reqAllowed_iff,
      State.reqRight_iff]
    refine ⟨fun hown => ?_, fun hright => ?_, fun hown => ?_⟩
    · have hno (h : s.has seat 2 = false ∨ s.modes.mode ≠ .configure) : ¬(s.has seat 2 = true ∧ s.modes.mode = .configure) := by
        rintro ⟨h1, h2⟩
        exact h.elim (by simp [h1]) (· h2)
      exact ⟨by simp [hown], fun h => by simpa [hown] using fun h1 h2 => (hno h ⟨h1, h2⟩).elim, fun h => by simp [hown, h]⟩
    · have hhas : s.has seat 2 = true := hright.elim (fun h => by simp [State.has, h]) id
      refine ⟨?_, ?_, fun h => by simp [hhas, h], fun h => by simp [hhas, h], fun h => by simp [hhas, h]⟩
      · rintro (h | ⟨h, hact⟩) <;> simp [*]
      · rintro (h | h | ⟨h, hact⟩)
        · simp [hhas, h]
        · simp [hhas, h]
        · obtain ⟨x, hx⟩ := Option.isSome_iff_exists.mp hact
          simp [hhas, h, hx]
    · refine ⟨fun h => by simp [hown, h], ?_, ?_, ?_⟩ <;> rintro (h | h) <;> simp [hown, h]
  · refine ⟨?_, ?_, ?_⟩ <;> exact congrArg _ ((State.pwrReq_of_open ho seat _).trans (if_neg (by simp [hown])))
  · have hact : exec (.pwrReqActive seat) s = .next (s.pwrReq seat .active) := rfl
    have hsleep : exec (.pwrReqSleep seat) s = .next (s.pwrReq seat .sleep) := rfl
    have hdeep : exec (.pwrReqDeepSleep seat) s = .next (s.pwrReq seat .deepSleep) := rfl
    simp only [hact, hsleep, hdeep, State.pwrReq_of_open ho, if_pos hown]
    refine ⟨?_, fun h => by simp [h], ?_, ?_⟩
    · rintro (h | h) <;> simp [h]
    · rintro (h | h) <;> simp [h]
    · rintro (h | h | h) <;> simp [h]

/-! ## Remote resets and standard inputs (R128, R305) -/

/-- Settles O18: both commands are writes whose conditions the statement names. -/
theorem remoteResetsAndStdinValues : Obligations.RemoteResetsAndStdinValues := by
  refine ⟨fun s seat z r v ho hact hz => ?_, fun s seat slot p own ty v ho hact hp hown => ?_⟩
  · have hexec : exec (.zoneRrst seat z v) s = .next (doZoneRrst seat z v s) := rfl
    obtain ⟨hshelf, hserves⟩ := ho
    rw [hexec]
    unfold doZoneRrst
    rw [hz]
    refine ⟨fun hr hs hv => ?_, fun hno => ?_, fun hr hs hv => ?_⟩
    · simp [State.write_of_open ⟨hshelf, hserves⟩, hr, hs, ← hv, hact, hshelf, hserves]
      rfl
    · have hok : (r.remoteRst == 1 && r.seat == seat.val) = false := by
        simpa [imp_iff_not_or] using hno
      simp [State.write_of_open ⟨hshelf, hserves⟩, hok, hshelf, hserves]
    · simp [State.write_of_open ⟨hshelf, hserves⟩, hr, hs, hv, hact, hshelf, hserves]
  · have hexec : exec (.stdinVal seat slot v) s = .next (doStdinVal seat slot v s) := rfl
    rw [hexec]
    unfold doStdinVal
    simp only [hp, Option.bind_some, hown, State.write_of_open ho, hact]
    refine ⟨fun i ho hi => ?_, fun hno => ?_, fun ho hi => ?_⟩
    · simp [ho, hi]
      rfl
    · simp [hno]
    · simp [ho, hi]

/-! ## Leases (R31 to R35) -/

theorem State.lease_setLease (s : State) (res k : Nat) (l : Lease) : (s.setLease res l).lease k = if k = res then l else s.lease k := by
  split
  · next h =>
    subst h
    exact Tab.get_set_self ..
  · next h => exact Tab.get_set_ne _ _ _ _ _ h

theorem Lease.over_eq (t : Nat) (l : Lease) : l.over t = (l.holder.isSome && decide (l.since + 64 ≤ t)) := rfl

/-- Nothing that starts a CRC descriptor waits where nobody comes to hold its lease. -/
theorem State.leaseStart_of_none {s : State} {res : Nat} (h : (s.lease res).holder = none) : s.leaseStart res = s := by
  unfold State.leaseStart
  rw [h]

theorem State.leaseStart_of_ne {s : State} {res : Nat} (h5 : res ≠ 5) (h6 : res ≠ 6) : s.leaseStart res = s := by
  unfold State.leaseStart
  split
  · rw [if_neg h5, if_neg h6]
  · rfl

/-- A holder without a transaction gives the resource up; what the next holder waits for starts (R32). -/
theorem State.leaseRelease_passes {s : State} {res party : Nat} (hholder : (s.lease res).holder = some party)
    (hout : s.leaseOut res party = false) (hnext : res ≤ 3 ∨ (res = 4 ∧ s.otp.todo = []) ∨ (s.lease res).queue = [] ∧ res ≠ 4) :
    doLeaseRelease res party s = s.setLease res ((s.lease res).giveUp s.time) := by
  have hhas : s.leaseHas res party = true := by simp [State.leaseHas, hholder]
  have hstart : (s.setLease res ((s.lease res).giveUp s.time)).leaseStart res = s.setLease res ((s.lease res).giveUp s.time) := by
    obtain h | ⟨rfl, -⟩ | ⟨hq, -⟩ := hnext
    · exact State.leaseStart_of_ne (by omega) (by omega)
    · exact State.leaseStart_of_ne (by decide) (by decide)
    · exact State.leaseStart_of_none (by simp [State.lease_setLease, Lease.giveUp, Lease.pass, hq])
  unfold doLeaseRelease State.leaseEnd
  simp only [hhas, hout, hstart, Bool.not_true, Bool.false_and, Bool.or_self, Bool.false_eq_true, if_true, if_false]
  split
  · next h4 =>
    subst h4
    have htodo : s.otp.todo = [] := by
      obtain h | ⟨-, h⟩ | ⟨-, h⟩ := hnext
      · omega
      · exact h
      · exact absurd rfl h
    have hop : s.otp.opOf party = false := hout
    rw [show (s.setLease 4 ((s.lease 4).giveUp s.time)).otp = s.otp from rfl, hop, if_neg Bool.false_ne_true]
    exact State.otpNext_of_todo_nil htodo
  · rfl

/-- What an expiry does where no release came in the same cycle (R32, R33). -/
theorem State.leaseExpire_of_held {s : State} {res party : Nat} (hholder : (s.lease res).holder = some party) (hrel : (s.lease res).rel = none)
    (hover : (s.lease res).since + 64 ≤ s.time) : doLeaseExpire res s =
      let held := s.leaseOut res party
      let open_ := res ≤ 3 && !held && s.free.1 % 2 = 1
      let s1 := (if res ≤ 3 && !held then s.free.2 else s).setLease res ((s.lease res).pass s.time)
      if !held && !open_ then (if res = 4 then s1.otpNext else s1.leaseStart res)
      else
        let s2 := (s1.latch 58).leaseReset res party
        let s3 := if open_ then s2.ans .fenced else s2
        if res = 4 then s3.otpNext else s3.leaseStart res := by
  have hlate : (s.lease res).late s.time = false := by simp [Lease.late, Lease.sameCycle, hrel]
  have hov : (s.lease res).over s.time = true := by simp [Lease.over_eq, hholder, hover]
  unfold doLeaseExpire
  simp only [hlate, hov, hholder, Bool.not_true, Bool.false_eq_true, if_false]

/-- Settles O16: the laws of LEASE_REQUEST, LEASE_RENEW, LEASE_RELEASE and LEASE_EXPIRE. -/
theorem leasesPassInOrder : Obligations.LeasesPassInOrder := by
  refine ⟨fun s res party hres hparty hholder hqueue => ?request, fun s res party hholder => ?renew,
    fun s res party hholder hout hnext => ?release, fun s res party hholder hrel => ?expire, fun s res p g hrel hg => ?late, ?write⟩
  case request =>
    have hexec : exec (.leaseRequest res party) s = .next (s.setLease res ((s.lease res).ask s.time party)) := by
      have h : exec (.leaseRequest res party) s = .next (doLeaseRequest res party s) := rfl
      rw [h]
      unfold doLeaseRequest State.leaseAsk
      simp [hres, hparty]
    rw [hexec]
    unfold Lease.ask
    have hno : ¬(decide ((s.lease res).holder = some party) || (s.lease res).queue.contains party) = true := by
      rw [hqueue, decide_eq_false hholder]
      exact Bool.false_ne_true
    rw [if_neg hno]
    refine ⟨fun h => by rw [h], fun h => ?_⟩
    split
    · next hnone => exact absurd hnone h
    · rfl
  case renew =>
    have hexec : exec (.leaseRenew res party) s = .next (doLeaseRenew res party s) := rfl
    rw [hexec]
    unfold doLeaseRenew
    refine ⟨fun hq ht => ?_, fun hq => ?_⟩
    · simp [hholder, hq, Lease.over_eq, ht]
    · simp [hq]
  case release =>
    have h : exec (.leaseRelease res party) s = .next (doLeaseRelease res party s) := rfl
    rw [h, State.leaseRelease_passes hholder hout hnext]
    simp [Lease.giveUp, Lease.pass, hholder]
  case expire =>
    have hexec : exec (.leaseExpire res) s = .next (doLeaseExpire res s) := rfl
    refine ⟨fun hin => ?_, fun hover hout => ⟨fun h3 h4 hq => ?_, fun h3 hfree => ?_⟩, fun hover hout hdiv => ?_⟩
    · have hlate : (s.lease res).late s.time = false := by simp [Lease.late, Lease.sameCycle, hrel]
      have hov : (s.lease res).over s.time = false := by simp [Lease.over_eq, hin]
      rw [hexec]
      unfold doLeaseExpire
      simp [hlate, hov]
    · rw [hexec, State.leaseExpire_of_held hholder hrel hover]
      have hres : ¬res ≤ 3 := by omega
      simp only [hout, hres, decide_false, Bool.false_and, Bool.not_false, Bool.and_self, if_true, Bool.false_eq_true, if_false]
      split
      · next h => exact congrArg _ (State.otpNext_of_todo_nil (h4 h))
      · next h => exact congrArg _ (State.leaseStart_of_none (by simp [State.lease_setLease, Lease.pass, hq h]))
    · rw [hexec, State.leaseExpire_of_held hholder hrel hover]
      have hodd : ¬s.free.1 % 2 = 1 := by omega
      simp only [hout, h3, hodd, decide_true, decide_false, Bool.and_false, Bool.not_false, Bool.and_self, if_true]
      rw [if_neg (by omega)]
      exact congrArg _ (State.leaseStart_of_ne (by omega) (by omega))
    · refine ⟨_, hexec, ?_⟩
      rw [State.leaseExpire_of_held hholder hrel hover]
      simp only [hout, Bool.not_true, Bool.and_false, Bool.false_and, Bool.false_eq_true, if_false]
      have hset : ((s.setLease res ((s.lease res).pass s.time)).latch 58).fswBit 58 = true := State.latch_sets _ 58 (by simp [fswPresent]) hdiv
      have hreset := (State.leaseReset_latched _ res party (.refl ((s.setLease res ((s.lease res).pass s.time)).latch 58)))
      split
      · exact (State.otpNext_latched _ hreset).1 58 hset
      · exact (State.leaseStart_latched _ res hreset).1 58 hset
  case late =>
    have hexec : exec (.leaseExpire res) s = .next (doLeaseExpire res s) := rfl
    rw [hexec]
    unfold doLeaseExpire
    simp [Lease.late, Lease.sameCycle, hrel, leaseLen, hg]
  case write => exact fun s res k l => s.lease_setLease res k l

/-! ## Re-admission and the girth watchdog (R300, R310, R311) -/

theorem bitAt_eq_testBit (v i : Nat) : bitAt v i = v.testBit i := by
  rw [Nat.testBit_eq_decide_div_mod_eq, bitAt, Bool.eq_iff_iff]
  simp

theorem bitAt_setBitN_self (v k : Nat) : bitAt (setBitN v k) k = true := by
  unfold setBitN
  split
  · assumption
  · next h =>
    rw [bitAt_eq_testBit] at h ⊢
    rw [Nat.add_comm, Nat.testBit_two_pow_add_eq]
    simpa using h

/-- Without an open shadow a girth error latches: GIRTH_WHO names the die (R300). -/
theorem State.girthError_sets {s : State} (d : Die) (hsh : s.flt.shadows = []) : (s.girthError d).fswBit 57 = true := by
  unfold State.girthError
  refine State.latch_sets _ 57 (by simp [fswPresent]) ?_
  have hbit := bitAt_setBitN_self s.flt.girthFail d.n
  have hwho : ((({ s with flt := { s.flt with girthFail := setBitN s.flt.girthFail d.n } } : State).setReg 0x3020 0
      (setBitN s.flt.girthFail d.n)).bump 32 0x3021 (d.n + 1)).reg 0x3020 0 = setBitN s.flt.girthFail d.n := by
    unfold State.bump
    rw [State.reg_setReg_ne _ _ (by cases d <;> decide), State.reg_setReg_self]
  have hshadow (k : Blk) : s.flt.shadowOf k = false := by simp [Faults.shadowOf, hsh]
  unfold State.diverted
  rw [if_pos rfl, hwho]
  cases d <;> simp_all [Die.n, Faults.shadowOf, State.setReg, State.bump]

/-- What a failed re-admission leaves (R310). -/
theorem State.readmFail_spec (s : State) (d : Die) : (s.readmFail d).dieSt d.n = 3
    ∧ (s.readmFail d).reg (0x3030 + d.n) 3 = satInc 32 (s.reg (0x3030 + d.n) 3) ∧ (s.readmFail d).flt.shadowOf (.lDie d) = false
    ∧ (s.readmFail d).die d.peer = s.die d.peer ∧ (s.readmFail d).modes = s.modes ∧ (s.readmFail d).flt.f1 = s.flt.f1
    ∧ (s.readmFail d).flt.f2 = s.flt.f2 ∧ (s.readmFail d).pow = s.pow ∧ (s.readmFail d).fd = s.fd ∧ (s.readmFail d).otp = s.otp
    ∧ (s.readmFail d).pat = s.pat := by
  have hdie : (s.readmFail d).flt.die = (s.setDieSt d.n 3).flt.die := by cases d <;> rfl
  have hregs : (s.readmFail d).regs = ((s.setDieSt d.n 3).bump 32 (0x3030 + d.n) 3).regs := by cases d <;> rfl
  have hshadows : (s.readmFail d).flt.shadows = s.flt.shadows.filter fun (x : Shadow) => x.blk != Blk.lDie d := by cases d <;> rfl
  refine ⟨?_, ?_, ?_, by cases d <;> rfl, by cases d <;> rfl, by cases d <;> rfl, by cases d <;> rfl, by cases d <;> rfl,
    by cases d <;> rfl, by cases d <;> rfl, by cases d <;> rfl⟩
  · unfold State.dieSt
    rw [hdie]
    exact Tab.get_set_self 0 s.flt.die d.n 3
  · unfold State.reg
    rw [hregs]
    exact State.reg_setReg_self ..
  · simp [Faults.shadowOf, hshadows]

/-- The rings of the M-die are laid anew over the change log that is kept (R311). -/
def State.mdieRings (s : State) : Rings :=
  match s.pat.active with
  | some p => ({ s.rings with desc := [], mem0 := [] } : Rings).load s.order p
  | none => ({ s.rings with desc := [], mem0 := [] } : Rings).ring0

theorem State.mdieRings_spec (s : State) : s.mdieRings.log = s.rings.log ∧ s.mdieRings.mem0 = [] := by
  unfold State.mdieRings
  split <;> exact ⟨rfl, rfl⟩

/-- What the re-admission of the M-die leaves (R311). -/
theorem State.mdieReadmit_spec {s : State} (hdie : s.dieSt 2 = 1) : (doMdieReadmit s).dieSt 2 = 0
    ∧ (doMdieReadmit s).rings.log = s.rings.log ∧ (doMdieReadmit s).rings.mem0 = []
    ∧ (∀ x ∈ (doMdieReadmit s).flt.shadows, x.blk = .mDie → x.complete = true) ∧ (doMdieReadmit s).reg 0x3032 4 = s.rtcMs
    ∧ (doMdieReadmit s).reg 0x3032 2 = satInc 32 (s.reg 0x3032 2) ∧ (doMdieReadmit s).flt.f1 = s.flt.f1
    ∧ (doMdieReadmit s).flt.f2 = s.flt.f2 ∧ (doMdieReadmit s).modes = s.modes ∧ (doMdieReadmit s).otp = s.otp
    ∧ (doMdieReadmit s).pat = s.pat ∧ (doMdieReadmit s).fd = s.fd := by
  have hdo : doMdieReadmit s =
      let jrn (l : LDie) : LDie := { l with jrn := { Journal.init with dropping := l.jrn.dropping, dropped := l.jrn.dropped } }
      ((((({ s with rings := s.mdieRings, flt := s.flt.shadowDone .mDie, pow := { s.pow with pd := s.pow.pd ||| 0x6000 } } : State).updDie
        .a jrn).updDie .b jrn).setDieSt 2 0).bump 32 0x3032 2).setReg 0x3032 4 s.rtcMs := by
    unfold doMdieReadmit
    rw [if_neg (by simp [hdie])]
    rfl
  obtain ⟨hlog, hmem⟩ := s.mdieRings_spec
  rw [hdo]
  refine ⟨Tab.get_set_self 0 s.flt.die 2 0, hlog, hmem, fun x hx hblk => ?_, State.reg_setReg_self .., ?_, rfl, rfl, rfl, rfl, rfl, rfl⟩
  · obtain ⟨y, -, rfl⟩ := List.mem_map.mp hx
    split at hblk
    · next h => rw [if_pos h]
    · next h => exact absurd (by simpa using hblk) h
  · rw [State.reg_setReg_ne _ _ (by decide)]
    exact State.reg_setReg_self ..

/-- Settles O17: the steps of both re-admissions, and of the watchdog. -/
theorem readmissionAndGirthWatchdog : Obligations.ReadmissionAndGirthWatchdog := by
  refine ⟨fun s d hdie hstep hdead => ?_, fun s d hdie hstep => ?_, fun s d => ⟨fun hdie hstep => ?_, fun hdie hdead => ?_⟩, fun s hdie => ?_,
    fun s word => rfl, fun s d w hw => ?_, fun s d hon hsh => ⟨?_, fun w hw => ?_, fun w v hw hv => ?_⟩⟩
  · have hexec : exec (.readmitPowerRestore d) s = .next (doReadmitPowerRestore d s) := rfl
    rw [hexec]
    unfold doReadmitPowerRestore
    rw [if_neg (by simp [hdie, hstep, hdead])]
    rfl
  · have hexec : exec (.readmitBootDone d true) s = .next (doReadmitBootDone d true s) := rfl
    rw [hexec]
    unfold doReadmitBootDone
    rw [if_neg (by simp [hdie, hstep]), if_neg (by simp)]
    cases d <;> rfl
  · refine ⟨s.readmFail d, ?_, s.readmFail_spec d⟩
    have hexec : exec (.readmitBootDone d false) s = .next (doReadmitBootDone d false s) := rfl
    rw [hexec]
    unfold doReadmitBootDone
    rw [if_neg (by simp [hdie, hstep]), if_pos (by simp)]
  · refine ⟨s.readmFail d, ?_, s.readmFail_spec d⟩
    have hexec : exec (.readmitTimeout d) s = .next (doReadmitTimeout d s) := rfl
    rw [hexec]
    unfold doReadmitTimeout
    rw [if_pos (by simpa [hdead] using hdie)]
  · exact ⟨doMdieReadmit s, rfl, s.mdieReadmit_spec hdie⟩
  · have hexec : exec (.girthResponseRx d (s.girthWant d w)) s = .next (doGirthResponseRx d (s.girthWant d w) s) := rfl
    refine hexec.trans ?_
    unfold doGirthResponseRx
    rw [hw]
    simp
  · exact ⟨s.girthError d, congrArg _ (if_pos hon), s.girthError_sets d hsh⟩
  · have hoff : ({ s with flt := s.flt.girthOff d } : State).flt.shadows = [] := by cases d <;> exact hsh
    have hexec : exec (.girthResponseTimeout d) s = .next (doGirthResponseTimeout d s) := rfl
    refine ⟨_, hexec, ?_⟩
    unfold doGirthResponseTimeout
    simp only [hw, hon, Option.isNone_some, Bool.false_eq_true, if_true, if_false]
    exact State.girthError_sets d hoff
  · have hoff : ({ s with flt := s.flt.girthOff d } : State).flt.shadows = [] := by cases d <;> exact hsh
    have hexec : exec (.girthResponseRx d v) s = .next (doGirthResponseRx d v s) := rfl
    refine ⟨_, hexec, ?_⟩
    unfold doGirthResponseRx
    rw [hw]
    simp only [hv, hon, decide_false, Bool.not_true, Bool.or_self, Bool.false_eq_true, if_false]
    exact State.girthError_sets d hoff

/-! ## The end of a shadow and of a block's reset (R307) -/

/-- The list of the dependants of a shadow that latch at its end. -/
def State.dependants (s : State) (x : Shadow) : List Nat :=
  (List.range 64).filter fun b => x.mask.getLsbD b && s.flt.cause.getLsbD b && !s.flt.fsw.getLsbD b

theorem State.dependants_nil {s : State} {x : Shadow}
    (h : ∀ b, b < 64 → x.mask.getLsbD b = true → s.flt.cause.getLsbD b = true → s.fswBit b = true) : s.dependants x = [] := by
  unfold State.dependants
  rw [List.filter_eq_nil_iff]
  intro b hb
  have hset := h b (List.mem_range.mp hb)
  unfold State.fswBit at hset
  simp only [Bool.and_eq_true, Bool.not_eq_true', not_and, Bool.not_eq_false]
  exact fun ⟨hmask, hcause⟩ => hset hmask hcause

theorem State.mem_dependants {s : State} {x : Shadow} {b : Nat} : b ∈ s.dependants x ↔
    b < 64 ∧ x.mask.getLsbD b = true ∧ s.flt.cause.getLsbD b = true ∧ s.fswBit b = false := by
  simp [State.dependants, State.fswBit, and_assoc]

/-- The end of the one open shadow. -/
theorem State.shadowEnd_of_one {s : State} {x : Shadow} (h : s.flt.shadows = [x]) : doShadowEnd x.blk s =
    let s2 := (s.dependants x).foldl State.latch { s with flt := { s.flt with shadows := [] } }
    match x.complete, blkBit x.blk with
    | false, some b => s2.latch b
    | _, _ => s2 := by
  have hfind : s.flt.shadows.find? (fun y => y.blk == x.blk) = some x := by simp [h]
  have hrest : s.flt.shadows.filter (fun y => y.blk != x.blk) = [] := by simp [h]
  unfold doShadowEnd
  rw [hfind]
  dsimp only
  rw [hrest]
  rfl

/-- Latches one after another keep what was set. -/
theorem State.foldl_latch_latched (l : List Nat) {s0 s : State} (h : Latched s0 s) : Latched s0 (l.foldl State.latch s) := by
  induction l generalizing s with
  | nil => exact h
  | cons b l ih => exact ih (State.latch_latched s b h)

/-- The clocks of a recovered field-link port come back; nothing else of the statement's parts moves. -/
theorem State.fldClocks_spec (s : State) : s.fldClocks.flt.shadows = s.flt.shadows
    ∧ s.fldClocks.clk.down = s.clk.down &&& ~~~domainSet [15, 16] ∧ s.fldClocks.flt.f1 = s.flt.f1 ∧ s.fldClocks.flt.f2 = s.flt.f2
    ∧ s.fldClocks.modes = s.modes ∧ s.fldClocks.fd = s.fd ∧ s.fldClocks.pow = s.pow ∧ s.fldClocks.pat = s.pat := by
  unfold State.fldClocks
  dsimp only
  split_ifs <;> exact ⟨rfl, rfl, rfl, rfl, rfl, rfl, rfl, rfl⟩

theorem blkBit_ne {k : Blk} {b : Nat} (h : blkBit k = some b) : b ≠ 57 := by
  cases k with
  | lDie _ => simp [blkBit] at h
  | mDie => simp [blkBit] at h
  | stitch => simp [blkBit] at h; omega
  | fldPort d => cases d <;> simp [blkBit, dieBit, Die.n] at h <;> omega
  | mac d => cases d <;> simp [blkBit, dieBit, Die.n] at h <;> omega
  | crcCh d _ => cases d <;> simp [blkBit, dieBit, Die.n] at h <;> omega
  | mgmt d => cases d <;> simp [blkBit, dieBit, Die.n] at h <;> omega
  | memPort d => cases d <;> simp [blkBit, Die.n] at h <;> omega

/-- Settles O15: the end of the one open shadow by its mask and its reset; each block's own completion is by definition. -/
theorem shadowEndReleasesItsDependants : Obligations.ShadowEndReleasesItsDependants := by
  have hexec (s : State) (k : Blk) : exec (.shadowEnd k) s = .next (doShadowEnd k s) := rfl
  refine ⟨fun s x hsh hdone hset => ?_, fun s x b hsh hdone hb hpres hmask hcause hclear hrest => ?_, fun s x b hsh hlate hown hpres hset => ?_,
    fun s d c => ⟨rfl, rfl, rfl, rfl, rfl, rfl, rfl, ?_⟩⟩
  · rw [hexec, State.shadowEnd_of_one hsh, State.dependants_nil hset, hdone]
    rfl
  · refine ⟨_, hexec s x.blk, ?_⟩
    rw [State.shadowEnd_of_one hsh, hdone]
    obtain ⟨l1, l2, hl⟩ := List.append_of_mem (State.mem_dependants.mpr ⟨fswPresent_lt hpres, hmask, hcause, hclear⟩)
    have hl1 : l1 = [] := by
      refine List.eq_nil_iff_forall_not_mem.mpr fun c hc => ?_
      obtain ⟨hlt, hmask', hcause', hclear'⟩ := State.mem_dependants.mp (hl ▸ List.mem_append_left _ hc : c ∈ s.dependants x)
      obtain rfl : c = b := by
        by_contra hne
        exact absurd (hrest c hlt hne hmask' hcause') (by simp [hclear'])
      have hnodup : (l1 ++ c :: l2).Nodup := hl ▸ List.nodup_range.filter _
      exact (List.nodup_append.mp hnodup).2.2 c hc c List.mem_cons_self rfl
    rw [hl, hl1]
    have hlatch := State.latch_sets { s with flt := { s.flt with shadows := [] } } b hpres (State.not_diverted _ b rfl hb)
    exact (State.foldl_latch_latched l2 (.refl _)).1 b hlatch
  · refine ⟨_, hexec s x.blk, ?_⟩
    rw [State.shadowEnd_of_one hsh, State.dependants_nil hset, hlate, hown]
    exact State.latch_sets _ b hpres (State.not_diverted _ b rfl (blkBit_ne hown))
  · exact ⟨_, rfl, State.fldClocks_spec _⟩

end Sys2Proof.Machine

namespace Sys2Proof.Machine

/-! ## Latches of errors at their source (R292 to R307) -/

/-- The state in which an error of bit `b` is judged: a standing cause is recorded (R293). -/
def State.withCause (s : State) (b : Nat) : State := if standingBits.contains b then s.causeOn b else s

theorem State.withCause_eq (s : State) (b : Nat) : ∃ w, s.withCause b = { s with flt := { s.flt with cause := w } } := by
  unfold State.withCause
  split <;> exact ⟨_, rfl⟩

@[simp] theorem State.fswPresent_withCause (s : State) (b n : Nat) : fswPresent (s.withCause b).order n = fswPresent s.order n := by
  obtain ⟨w, h⟩ := s.withCause_eq b
  rw [h]

@[simp] theorem State.diverted_withCause (s : State) (b n : Nat) : (s.withCause b).diverted n = s.diverted n := by
  obtain ⟨w, h⟩ := s.withCause_eq b
  rw [h]
  rfl

/-- Which of the other bits a shadow diverts hangs on the open shadows alone. -/
theorem State.diverted_of_shadows {s t : State} {b : Nat} (h : t.flt.shadows = s.flt.shadows) (hb : b ≠ 57) : t.diverted b = s.diverted b := by
  unfold State.diverted Faults.diverts Faults.ownOf
  rw [if_neg hb, if_neg hb, h]

/-- While the shadow of the block whose own bit is `b` is open, `b` is an error of that block and not diverted (R307). -/
theorem Faults.ownOf_openShadow {f : Faults} {k : Blk} {b : Nat} (h : blkBit k = some b) : (f.openShadow k).ownOf b = true := by
  cases k <;> simp_all [blkBit, Faults.ownOf, Faults.openShadow]

theorem State.latch3_sets {s : State} {b : Nat} (hp : fswPresent s.order b = true) (hd : s.diverted b = false) :
    (s.latch3 b).fswBit b = true := by
  unfold State.latch3
  rw [if_neg (by simp [hp, hd])]
  dsimp only
  split
  · next hset => exact (State.reactC3_latched _ b (.refl _)).1 b hset
  · exact State.latch_sets _ b hp hd

/-- An error that resets its block latches the block's own bit, whether the reset begins or is under way. -/
theorem State.latchReset_sets {s : State} {k : Blk} {b : Nat} {f : State → State} (hk : blkBit k = some b)
    (hf : ∀ t, Latched t (f t)) (hp : fswPresent s.order b = true) (hd : s.diverted b = false) :
    (s.latchReset k b f).fswBit b = true := by
  unfold State.latchReset State.resetBlock
  split
  · exact State.latch_sets s b hp hd
  · split
    · exact State.latch3_sets hp hd
    · refine (hf _).1 b (State.latch_sets _ b hp ?_)
      unfold State.diverted
      rw [if_neg (blkBit_ne hk), Faults.ownOf_openShadow hk, Bool.not_true, Bool.and_false]

/-- A descriptor that fails its check latches RING_FE of the die that is home to its ring (R389). -/
theorem State.ringFail_sets {s : State} {d : Die} (hp : fswPresent s.order (dieBit d 11) = true) (hd : s.diverted (dieBit d 11) = false) :
    (s.ringFail d).fswBit (dieBit d 11) = true := by
  have hne : dieBit d 11 ≠ 57 := by cases d <;> decide
  unfold State.ringFail
  dsimp only
  split
  · exact State.latch_sets s _ hp hd
  · next n0 rest hl =>
    have hmem (i : Nat) : (n0 :: rest).getD (i % (n0 :: rest).length) n0 ∈ n0 :: rest := by
      have hlt : i % (n0 :: rest).length < (n0 :: rest).length := Nat.mod_lt _ (by simp)
      rw [List.getD_eq_getElem?_getD, List.getElem?_eq_getElem hlt]
      exact List.getElem_mem hlt
    have hn := hmem s.free.1
    rw [← hl] at hn
    generalize List.getD _ _ _ = n at hn ⊢
    have hhome : (s.rings.ring n).home = d.n := by simpa using (List.mem_filter.mp hn).2
    have hbit : (if (s.rings.ring n).home = 1 then Die.b else Die.a) = d := by
      rw [hhome]
      cases d <;> rfl
    unfold State.ringFix
    have hring : (s.rings.put n { s.rings.ring n with chk := false }).ring n = { s.rings.ring n with chk := false } := Tab.get_set_self ..
    have hfree : s.free.2.rings = s.rings := rfl
    dsimp only
    rw [hfree, hring]
    dsimp only
    rw [if_neg Bool.false_ne_true, hbit]
    exact State.latch_sets _ _ hp ((State.diverted_of_shadows (s := s) (by rfl) hne).trans hd)

/-- A cause of an F-die that begins sets the die's common bit (R210). -/
theorem State.fCause_sets {s : State} {f i : Nat} (hnew : bitAt (s.fdie f).causes i = false) (hp : fswPresent s.order (48 + f) = true)
    (hd : s.diverted (48 + f) = false) : (s.fCause f i true).fswBit (48 + f) = true := by
  unfold State.fCause
  have hset := bitAt_setBitN_self (s.fdie f).causes i
  have hne : setBitN (s.fdie f).causes i ≠ 0 := by
    intro h
    rw [h] at hset
    simp [bitAt] at hset
  simp only [if_true, hne, if_false, hnew, Bool.not_false, Bool.and_self, Bool.or_true]
  exact State.latchStanding_sets _ _ hp hd

/-- The errors whose reaction goes beyond the latch of their bit (Table 11-3, Table 11-4). -/
def resettingBits : List Nat := [2, 18, 6, 22, 8, 24, 11, 27, 12, 28, 44, 45, 46, 47, 48, 49, 50, 51, 52]

theorem faultLatch_of_plain {s : State} {b : Fin 64} (hmode : s.modes.mode ≠ .shelf) (hp : fswPresent s.order b.val = true)
    (hb : b.val ∉ resettingBits) : exec (.faultLatch b) s = .next ((s.withCause b.val).latch b.val) := by
  have hexec : exec (.faultLatch b) s = .next (doFaultLatch b s) := rfl
  have hne : ¬(48 ≤ b.val ∧ b.val ≤ 51) := by
    simp only [resettingBits, List.mem_cons, List.not_mem_nil, or_false, not_or] at hb
    omega
  rw [hexec]
  unfold doFaultLatch
  simp only [resettingBits, List.mem_cons, List.not_mem_nil, or_false, not_or] at hb
  simp [hmode, hp, hb, hne, State.withCause]

theorem fswBit_ite {c : Prop} [Decidable c] {t u : State} {b : Nat} (ht : c → t.fswBit b = true) (hu : u.fswBit b = true) :
    (if c then t else u).fswBit b = true := by
  split
  · next h => exact ht h
  · exact hu

/-- Each error that is not diverted latches its bit. -/
theorem faultLatch_sets {s : State} {b : Fin 64} (hmode : s.modes.mode ≠ .shelf) (hp : fswPresent s.order b.val = true)
    (hd : s.diverted b.val = false) (hf : ¬(48 ≤ b.val ∧ b.val ≤ 51 ∧ bitAt (s.fdie (b.val - 48)).causes 4 = true)) :
    (doFaultLatch b s).fswBit b.val = true := by
  have hp' := (s.fswPresent_withCause b.val b.val).trans hp
  have hd' := (s.diverted_withCause b.val b.val).trans hd
  have hs0 : (if standingBits.contains b.val = true then s.causeOn b.val else s) = s.withCause b.val := rfl
  obtain ⟨b, hlt⟩ := b
  unfold doFaultLatch
  dsimp only at *
  rw [if_neg (by simp [hmode, hp]), hs0]
  refine fswBit_ite (fun h2 => ?_) <| fswBit_ite (fun h6 => ?_) <| fswBit_ite (fun h8 => ?_) <| fswBit_ite (fun h11 => ?_) <|
    fswBit_ite (fun h12 => ?_) <| fswBit_ite (fun h46 => ?_) <| fswBit_ite (fun _ => ?_) <| fswBit_ite (fun _ => ?_) <|
    fswBit_ite (fun h48 => ?_) ?_
  · obtain rfl | rfl : b = 2 ∨ b = 18 := by simpa using h2
    · exact State.latchReset_sets (by rfl) (fun t => State.updDie_latched t _ _ (.refl t)) hp' hd'
    · exact State.latchReset_sets (by rfl) (fun t => State.updDie_latched t _ _ (.refl t)) hp' hd'
  · obtain rfl | rfl : b = 6 ∨ b = 22 := by simpa using h6
    · exact State.latchReset_sets (by rfl) (fun t => State.updDie_latched t _ _ (.refl t)) hp' hd'
    · exact State.latchReset_sets (by rfl) (fun t => State.updDie_latched t _ _ (.refl t)) hp' hd'
  · have hhalt (k : Nat) (t : State) : Latched t ((t.crcHalt k 6 true).crcRest k) :=
      State.crcRest_latched _ k (State.crcHalt_latched t k 6 true (.refl t))
    obtain rfl | rfl : b = 8 ∨ b = 24 := by simpa using h8
    · exact State.latchReset_sets (by rfl) (hhalt _) hp' hd'
    · exact State.latchReset_sets (by rfl) (hhalt _) hp' hd'
  · obtain rfl | rfl : b = 11 ∨ b = 27 := by simpa using h11
    · exact State.ringFail_sets (d := .a) hp' hd'
    · exact State.ringFail_sets (d := .b) hp' hd'
  · obtain rfl | rfl : b = 12 ∨ b = 28 := by simpa using h12
    · exact State.latchReset_sets (by rfl) (fun t => .refl t) hp' hd'
    · exact State.latchReset_sets (by rfl) (fun t => .refl t) hp' hd'
  · obtain rfl | rfl : b = 46 ∨ b = 47 := by simpa using h46
    · exact (State.memStop_latched _ 46 (.refl _)).1 46 (State.latchReset_sets (by rfl) (fun t => .refl t) hp' hd')
    · exact (State.memStop_latched _ 47 (.refl _)).1 47 (State.latchReset_sets (by rfl) (fun t => .refl t) hp' hd')
  · exact (State.memStop_latched _ b (.refl _)).1 b (State.latch_sets _ b hp' hd')
  · exact (State.stitchReset_latched _ (.refl _)).1 b (State.latch_sets _ b hp' hd')
  · obtain ⟨hlo, hhi⟩ : 48 ≤ b ∧ b ≤ 51 := by simpa using h48
    obtain ⟨f, rfl⟩ := Nat.exists_eq_add_of_le hlo
    rw [Nat.add_sub_cancel_left] at hf ⊢
    exact State.fCause_sets (by simpa [hlo, hhi] using hf) hp hd
  · exact State.latch_sets _ _ hp' hd'

/-- A diverted error leaves its mark in FSW_SEC and a journal record, and nothing else (R307). -/
theorem State.latch_of_diverted {s : State} {b : Nat} (hp : fswPresent s.order b = true) (hd : s.diverted b = true) :
    s.latch b = ({ s with flt := s.flt.intoSec s.time b } : State).event2 1 [BitVec.ofNat 8 b, 1] := by
  unfold State.latch
  rw [if_neg (by simp [hp]), if_pos hd]

/-- Settles O12: each branch of FAULT_LATCH ends in the latch of its bit; a plain error is that latch alone. -/
theorem faultLatchSetsItsBit : Obligations.FaultLatchSetsItsBit := by
  refine ⟨fun s b h => ?_, fun s b hmode hp hd hf => ⟨_, rfl, faultLatch_sets hmode hp hd hf⟩, fun s b hmode hp hb => ?_⟩
  · have hexec : exec (.faultLatch b) s = .next (doFaultLatch b s) := rfl
    rw [hexec]
    unfold doFaultLatch
    rw [if_pos (by simpa using h)]
  · obtain ⟨w, hw⟩ := s.withCause_eq b.val
    have honly := State.latch_only _ b.val (.refl 0x10cabf6 (s.withCause b.val)) rfl
    have htest := State.latch_sameTest (s.withCause b.val) b.val
    have hst : (s.withCause b.val).st = s.st := by rw [hw]
    unfold SameTest at htest
    rw [hst] at htest
    refine ⟨_, faultLatch_of_plain hmode hp hb, ?_, ?_, ?_, ?_, ?_, ?_, htest, fun hd => ?_⟩
    · rw [honly.clk rfl, hw]
    · rw [honly.pers rfl, hw]
    · rw [honly.tmr rfl, hw]
    · rw [honly.keys rfl, hw]
    · rw [honly.pat rfl, hw]
    · rw [honly.bkp rfl, hw]
    · rw [State.latch_of_diverted ((s.fswPresent_withCause b.val b.val).trans hp) ((s.diverted_withCause b.val b.val).trans hd), hw]
      obtain ⟨a', b', regs', he⟩ := State.event2_parts
        { s with flt := ({ s.flt with cause := w } : Faults).intoSec s.time b.val } 1 [BitVec.ofNat 8 b.val, 1]
      rw [he]
      exact ⟨rfl, rfl, setBit64_self _ _ b.isLt, rfl, rfl, rfl, rfl, rfl, rfl, rfl, rfl⟩

/-! ## The reaction of the class (Table 11-2, R295 to R299) -/

/-- A port whose trip line has asserted. -/
def FPort.Open (p : FPort) : Prop := p.closed = 0 ∧ p.trip = true

/-- Both trip lines are asserted, and every port has opened (R196). -/
def State.Tripped (s : State) : Prop :=
  s.tripLine .a = true ∧ s.tripLine .b = true ∧ ∀ f, f < 4 → (s.fdie f).a.Open ∧ (s.fdie f).b.Open

theorem State.Tripped.of_eq {s t : State} (h : s.Tripped) (hfd : t.fd = s.fd) (ha : t.tripLine .a = s.tripLine .a)
    (hb : t.tripLine .b = s.tripLine .b) : t.Tripped := by
  unfold State.Tripped State.fdie at *
  rw [hfd, ha, hb]
  exact h

/-- The level of the trip lines reaches every port (R196). -/
theorem State.fdie_driveTrips (s : State) {f : Nat} (hf : f < 4) :
    (s.driveTrips.fdie f).a = (if s.tripLine .a then (s.fdie f).a.openTrip else (s.fdie f).a.endTrip)
    ∧ (s.driveTrips.fdie f).b = (if s.tripLine .b then (s.fdie f).b.openTrip else (s.fdie f).b.endTrip) := by
  have hmem : f ∈ [0, 1, 2, 3] := by
    simp only [List.mem_cons, List.not_mem_nil, or_false]
    omega
  unfold State.driveTrips State.fdie
  extract_lets gone g
  have hget := (Tab.get_foldl_upd FDie.init (fun _ => g) (l := [0, 1, 2, 3]) (by decide) s.fd f).trans (if_pos hmem)
  unfold Tab.upd at hget
  dsimp only
  rw [hget]
  exact ⟨rfl, rfl⟩

theorem State.tripNow_tripped (s : State) : s.tripNow.Tripped := by
  refine ⟨rfl, rfl, fun f hf => ?_⟩
  obtain ⟨ha, hb⟩ := s.trip.fdie_driveTrips hf
  unfold State.tripNow
  rw [ha, hb]
  exact ⟨⟨rfl, rfl⟩, rfl, rfl⟩

/-- The reaction of class C3: both lines trip, and outside BOOT the bit freezes the snapshot slots (R297, R81). -/
theorem State.reactC3_spec (s : State) {b : Nat} (hb : b < 64) : (s.reactC3 b).Tripped
    ∧ (s.modes.mode = .boot → (s.reactC3 b).pow.c3Boot = true) ∧ (s.modes.mode ≠ .boot → (s.reactC3 b).flt.frozen.getLsbD b = true) := by
  have htrip := (s.revert 18).tripNow_tripped
  unfold State.reactC3
  generalize (s.revert 18).tripNow = s0 at htrip
  dsimp only
  split
  · next hboot => exact ⟨htrip.of_eq rfl rfl rfl, fun _ => rfl, fun h => absurd (by simpa using hboot) h⟩
  · next hboot =>
    refine ⟨?_, fun h => absurd (by simp [h]) hboot, fun _ => ?_⟩
    · split <;> exact htrip.of_eq rfl rfl rfl
    · split <;> exact setBit64_self _ _ hb

/-- Settles O13. -/
theorem reactionFollowsTheClass : Obligations.ReactionFollowsTheClass := by
  intro s b hmode hp hclear hd hb s0 s1 s2 s3
  have hexec : exec (.faultLatch b) s = .next (s3.react b.val) := by
    obtain ⟨w, hw⟩ := s.withCause_eq b.val
    have hs0 : s.withCause b.val = s0 := rfl
    rw [faultLatch_of_plain hmode hp hb, hs0]
    rw [hs0] at hw
    unfold State.latch
    rw [if_neg (by simp [hw, hp]), if_neg (by rw [← hs0]; simp [hd]), if_neg (by rw [hw]; exact ne_true_of_eq_false hclear)]
    simp only [s3, s2, s1, hw]
    rfl
  have hmode3 : s3.modes = s.modes := by
    have h3 : s3.modes = s2.modes := (State.event2_only s2 1 _ (.refl 0x2c0 s2) rfl).modes rfl
    have h1 : s1.modes = s0.modes := by
      simp only [s1]
      split_ifs <;> rfl
    have h0 : s0.modes = s.modes := by
      simp only [s0]
      split_ifs <;> rfl
    exact h3.trans (h1.trans h0)
  rw [hexec]
  unfold State.react
  refine ⟨fun hc => ?_, fun hc => ?_, fun hc => ?_, fun hc => ?_⟩
  · rw [if_neg (by omega), if_neg (by omega), if_neg (by omega)]
  · rw [if_neg (by omega), if_neg (by omega), if_pos hc]
  · rw [if_neg (by omega), if_pos hc]
    obtain ⟨⟨ha, hb', hfd⟩, hboot, hfrozen⟩ := s3.reactC3_spec b.isLt
    rw [hmode3] at hboot hfrozen
    refine ⟨_, rfl, ha, hb', fun f => ?_, hboot, hfrozen⟩
    obtain ⟨⟨hac, hat⟩, hbc, hbt⟩ := hfd f.val f.isLt
    exact ⟨hac, hbc, hat, hbt⟩
  · rw [if_pos hc]

end Sys2Proof.Machine

namespace Sys2Proof.Machine

/-! ## The power-fail warning (R346, R349) -/

/-- What PFW_LATCH records before the latch of bit 41. -/
def State.pfwSeen (s : State) (mv : Nat) : State :=
  let s1 := { s with pow := { s.pow with
    rails := s.pow.rails ||| ((1 : BitVec 13) <<< 7), vinMv := mv, pfwBoot := true, pfwAt := s.time } }
  ((s1.bump 32 0x2033 1).setReg 0x2033 2 s1.rtcMs).setReg 0x2031 6 mv

theorem pfwLatch_eq {s : State} {mv : Nat} (hmode : s.modes.mode ≠ .shelf) (hpfw : s.pfw = false) (hmv : mv < 17900) :
    doPfwLatch mv s = ((s.pfwSeen mv).latchStanding 41).pfStart := by
  unfold doPfwLatch
  rw [if_neg (by simp [hmode, hpfw, hmv])]
  rfl

/-- A latch at its standing cause leaves what no reaction reaches. -/
theorem State.latchStanding_frame (s : State) (b : Nat) : (s.latchStanding b).pers = s.pers ∧ (s.latchStanding b).pat = s.pat
    ∧ (s.latchStanding b).keys = s.keys ∧ (s.latchStanding b).tmr = s.tmr ∧ (s.latchStanding b).clk = s.clk := by
  have h := State.latchStanding_only s b (.refl 0x10cabf6 s) rfl
  exact ⟨h.pers rfl, h.pat rfl, h.keys rfl, h.tmr rfl, h.clk rfl⟩

theorem State.otpNext_only_otp (s : State) : Only 0x8020 s s.otpNext := State.otpNext_only s (.refl _ s) rfl

/-- Settles O21: the latch of bit 41 moves of the power state what its reaction may, so that VIN and the records stand. -/
theorem powerFailIsLatchedAndRecorded : Obligations.PowerFailIsLatchedAndRecorded := by
  refine ⟨fun s mv hmode hpfw hmv => ?_, fun s mv h => ?_, fun s r => ⟨fun h => ?_, fun h => ?_⟩, fun s => ⟨fun h => ?_, fun h => ?_⟩,
    fun s mv hpfw hmv => ?_, fun s mv h => ?_⟩
  · refine ⟨((s.pfwSeen mv).latchStanding 41).pfStart, congrArg _ (pfwLatch_eq hmode hpfw hmv), ?_⟩
    have hpow := State.latchStanding_samePower (s.pfwSeen mv) 41
    obtain ⟨hpers, hpat, hkeys, htmr, hclk⟩ := (s.pfwSeen mv).latchStanding_frame 41
    have hset (hd : s.diverted 41 = false) := State.latchStanding_sets (s.pfwSeen mv) 41 (by simp [fswPresent, State.pfwSeen])
      ((State.diverted_of_shadows (s := s) (by rfl) (by decide)).trans hd)
    generalize (s.pfwSeen mv).latchStanding 41 = u at *
    unfold SamePower at hpow
    have hrails : u.pow.rails.getLsbD 7 = true := by
      rw [hpow]
      simp [State.pfwSeen, State.bump, State.setReg]
    refine ⟨hrails, ?_, ?_, ?_, ?_, hset, hpers, hpat, hkeys, htmr, hclk⟩
    · exact (congrArg Power.vinMv hpow :)
    · exact (congrArg Power.pfwAt hpow :)
    · exact (congrArg Power.recA hpow :)
    · exact (congrArg Power.recB hpow :)
  · exact congrArg _ (if_pos (by simpa [or_assoc] using h))
  · have hexec : exec (.powerFailRecordDone .a) s = .next (doPowerFailRecordDone .a s) := rfl
    rw [hexec]
    unfold doPowerFailRecordDone
    rw [h]
  · have hexec : exec (.powerFailRecordDone .b) s = .next (doPowerFailRecordDone .b s) := rfl
    rw [hexec]
    unfold doPowerFailRecordDone
    rw [h]
  · have hexec : exec (.powerFailRecordDone .a) s = .next (doPowerFailRecordDone .a s) := rfl
    rw [hexec]
    unfold doPowerFailRecordDone
    split
    · next hr => exact absurd hr (h _)
    · next hd _ => simp at hd
    · rfl
  · have hexec : exec (.powerFailRecordDone .b) s = .next (doPowerFailRecordDone .b s) := rfl
    rw [hexec]
    unfold doPowerFailRecordDone
    split
    · next hd _ => simp at hd
    · next hr => exact absurd hr (h _)
    · rfl
  · have hexec : exec (.pfwClear mv) s = .next (doPfwClear mv s) := rfl
    refine ⟨_, hexec, ?_⟩
    unfold doPfwClear
    rw [if_neg (by simp [hpfw, hmv])]
    dsimp only
    generalize hu : State.causeOff _ 41 = u
    have honly := u.otpNext_only_otp
    rw [honly.pow rfl, honly.flt rfl, State.reg, honly.regs rfl]
    subst hu
    refine ⟨rfl, rfl, State.reg_setReg_self .., honly.frame⟩
  · exact congrArg _ (if_pos (by simpa using h))

/-! ## The power-down (R347) -/

/-- A position that is cut is low afterwards. -/
theorem getLsbD_and_not {w : Nat} (x y : BitVec w) {i : Nat} (h : y.getLsbD i = true) : (x &&& ~~~y).getLsbD i = false := by
  rw [BitVec.getLsbD_and, BitVec.getLsbD_not, h]
  simp

theorem State.revert_of_idle {s : State} (why : Nat) (h : s.upd.state < 4 ∨ 6 < s.upd.state) : s.revert why = s :=
  if_pos (by simpa using h)

/-- VIN has gone: the power-down is due, both lines trip, and RAIL latches where nothing diverts it (R347). -/
theorem State.vinOff_spec (s : State) : s.vinOff.pow.off = true ∧ s.vinOff.pow.vinMv = s.pow.vinMv ∧ s.vinOff.pow.rails = s.pow.rails
    ∧ s.vinOff.tripLine .a = true ∧ s.vinOff.tripLine .b = true
    ∧ (s.flt.shadows = [] → (s.upd.state < 4 ∨ 6 < s.upd.state) → s.vinOff.fswBit 56 = true) := by
  have hrevert := (State.revert_only s 20 (.refl 0x802d0 s) rfl).pow rfl
  have heq : s.vinOff = (State.latchStanding { s.revert 20 with pow := { (s.revert 20).pow with off := true } } 56).tripNow := rfl
  have hset (hsh : s.flt.shadows = []) (hupd : s.upd.state < 4 ∨ 6 < s.upd.state) : s.vinOff.fswBit 56 = true := by
    rw [heq, State.revert_of_idle 20 hupd]
    refine (State.tripNow_latched _ (.refl _)).1 56 (State.latchStanding_sets _ 56 (by simp [fswPresent]) ?_)
    exact State.not_diverted _ 56 hsh (by decide)
  have hpow := State.latchStanding_samePower { s.revert 20 with pow := { (s.revert 20).pow with off := true } } 56
  unfold SamePower at hpow
  generalize State.latchStanding _ 56 = u at heq hpow
  have htrip := (State.tripNow_only u (.refl 0x110 u) rfl).pow rfl
  obtain ⟨ha, hb, -⟩ := u.tripNow_tripped
  rw [← heq] at htrip ha hb
  refine ⟨?_, ?_, ?_, ha, hb, hset⟩
  · rw [htrip, hpow]
  · rw [htrip, hpow, hrevert]
  · rw [htrip, hpow, hrevert]

/-- Settles O24: VIN_OFF by its spec, and the six steps as the sequencer runs them. -/
theorem powerDownFollowsItsSteps : Obligations.PowerDownFollowsItsSteps := by
  refine ⟨fun s mv hmode hoff hmv => ?_, fun s mv h => congrArg _ (if_pos (by simpa [or_assoc] using h)), fun s => ?_,
    fun s hmode hoff hdown => ?_, fun s => ⟨fun h => ⟨?_, ?_⟩, fun h => ?_, fun h => ?_⟩⟩
  · have hexec : exec (.vinOff mv) s = .next (doVinOff mv s) := rfl
    obtain ⟨hoff', hmv', hrails, ha, hb, hrail⟩ := State.vinOff_spec
      ({ s with pow := { s.pow with rails := s.pow.rails ||| ((1 : BitVec 13) <<< 5), vinMv := mv } }.setReg 0x2031 6 mv)
    refine ⟨_, hexec, ?_⟩
    unfold doVinOff
    rw [if_neg (by simp [hmode, hoff, hmv])]
    refine ⟨hoff', hmv', ?_, ha, hb, hrail⟩
    rw [hrails]
    simp [State.setReg]
  · intro lowered hmode hoff
    have hlow {k : Nat} (h1 : 1 ≤ k) (h5 : k ≤ 5) : lowered k (s.downStep k) := by
      have hen {l : List Nat} (x : BitVec 8) (h : ∀ i ∈ l, (enSet l).getLsbD i = true) : ∀ i ∈ l, (x &&& ~~~enSet l).getLsbD i = false :=
        fun i hi => getLsbD_and_not x _ (h i hi)
      have hpd {l : List Nat} (x : BitVec 20) (h : ∀ i ∈ l, (pdSet l).getLsbD i = true) : ∀ i ∈ l, (x &&& ~~~pdSet l).getLsbD i = false :=
        fun i hi => getLsbD_and_not x _ (h i hi)
      obtain rfl | rfl | rfl | rfl | rfl : k = 1 ∨ k = 2 ∨ k = 3 ∨ k = 4 ∨ k = 5 := by omega
      · exact ⟨rfl, rfl, hen _ (by decide), hpd _ (by decide), fun _ => rfl, fun h => absurd rfl h, by simp, fun _ => ⟨rfl, rfl⟩⟩
      · exact ⟨rfl, rfl, hen _ (by decide), hpd _ (by decide), by simp, fun _ => rfl, by simp, fun _ => ⟨rfl, rfl⟩⟩
      · exact ⟨rfl, rfl, hen _ (by decide), hpd _ (by decide), by simp, fun _ => rfl, by simp, fun _ => ⟨rfl, rfl⟩⟩
      · exact ⟨rfl, rfl, hen _ (by decide), hpd _ (by decide), by simp, fun _ => rfl, fun _ => ⟨rfl, rfl⟩, fun h => absurd rfl h⟩
      · exact ⟨rfl, rfl, hen _ (by decide), hpd _ (by decide), by simp, fun _ => rfl, by simp, fun _ => ⟨rfl, rfl⟩⟩
    refine ⟨fun h0 => ⟨s.downStep 1, congrArg _ (if_pos (by simp [hoff, h0, hmode])), hlow (by decide) (by decide)⟩,
      fun h1 h5 => ⟨s.downStep s.pow.down, congrArg _ (if_pos ?_), hlow h1 h5⟩⟩
    simpa [hoff, hmode] using Nat.one_le_iff_ne_zero.mp h1
  · refine ⟨s.downStep s.pow.down, congrArg _ (if_pos ?_), ?_⟩
    · simpa [hoff, hmode] using Nat.ne_zero_of_lt hdown
    · unfold State.downStep
      rw [if_neg (by omega), if_neg (by omega), if_neg (by omega), if_neg (by omega), if_neg (by omega)]
      refine ⟨rfl, rfl, rfl, rfl, rfl, rfl, rfl, rfl, rfl, rfl, rfl, fun hop n => ?_, rfl, rfl, rfl, rfl, rfl⟩
      have hwords : s.otp.cold.words = s.otp.words := by
        unfold Otp.cold
        rw [hop]
      exact congrArg (Tab.get OtpWord.blank · n) hwords
  · exact congrArg _ (if_neg (by rcases h with h | h <;> simp [h]))
  · exact congrArg _ (if_neg (by rcases h with h | h <;> simp [h]))
  · exact congrArg _ (if_neg (by simp [h]))
  · exact congrArg _ (if_neg (by simp [h]))

/-! ## The boot steps (R344, R345) -/

/-- The enables that boot step `n` raises (Table 13-5). -/
def stepEn : Nat → List Nat
  | 2 => [0] | 3 => [1] | 4 => [2, 3] | 7 => [4] | 8 => [5, 6] | 9 => [7] | _ => []

/-- The domains that it turns on, but for the F-dies' own. -/
def stepPd : Nat → List Nat
  | 3 => [2, 3] | 5 => [4, 5, 7, 9, 10, 12] | 6 => [19] | 7 => [13, 14] | 8 => [6, 11] | _ => []

theorem getLsbD_or_right {w : Nat} (x y : BitVec w) {i : Nat} (h : y.getLsbD i = true) : (x ||| y).getLsbD i = true := by
  rw [BitVec.getLsbD_or, h, Bool.or_true]

theorem getLsbD_or_left {w : Nat} (x y : BitVec w) {i : Nat} (h : x.getLsbD i = true) : (x ||| y).getLsbD i = true := by
  rw [BitVec.getLsbD_or, h, Bool.true_or]

theorem enSet_stepEn {n : Nat} (h2 : 2 ≤ n) (h10 : n ≤ 10) : ∀ i ∈ stepEn n, (enSet (stepEn n)).getLsbD i = true :=
  (by decide : ∀ n : Fin 11, 2 ≤ n.val → ∀ i ∈ stepEn n.val, (enSet (stepEn n.val)).getLsbD i = true) ⟨n, by omega⟩ h2

/-- Gating moves no domain but PD_SVC. -/
theorem State.pd_regate (s : State) {i : Nat} (hi : i < 20) (h8 : i ≠ 8) : s.regate.pow.pd.getLsbD i = s.pow.pd.getLsbD i := by
  have hbit : ((1 : BitVec 20) <<< 8).getLsbD i = false :=
    (by decide : ∀ i : Nat, i < 20 → i ≠ 8 → ((1 : BitVec 20) <<< 8).getLsbD i = false) i hi h8
  unfold State.regate
  dsimp only
  split
  · rw [BitVec.getLsbD_and, BitVec.getLsbD_not, hbit]
    simp [hi]
  · rw [BitVec.getLsbD_or, hbit, Bool.or_false]

/-- What the beginning of a boot step leaves. -/
theorem State.beginStep_spec (s : State) {n : Nat} (h2 : 2 ≤ n) (h10 : n ≤ 10) : (s.beginStep n).modes = s.modes
    ∧ (s.beginStep n).pow.bootStep = n ∧ (s.beginStep n).pow.en = s.pow.en ||| enSet (stepEn n)
    ∧ ∀ i ∈ stepPd n, (s.beginStep n).pow.pd.getLsbD i = true := by
  have hpd {l : List Nat} (x : BitVec 20) (h : ∀ i ∈ l, (pdSet l).getLsbD i = true) : ∀ i ∈ l, (x ||| pdSet l).getLsbD i = true :=
    fun i hi => getLsbD_or_right x _ (h i hi)
  obtain rfl | rfl | rfl | rfl | rfl | rfl | rfl | rfl | rfl : n = 2 ∨ n = 3 ∨ n = 4 ∨ n = 5 ∨ n = 6 ∨ n = 7 ∨ n = 8 ∨ n = 9 ∨ n = 10 := by
    omega
  · exact ⟨rfl, rfl, rfl, by simp [stepPd]⟩
  · exact ⟨rfl, rfl, rfl, hpd _ (by decide)⟩
  · exact ⟨rfl, rfl, rfl, by simp [stepPd]⟩
  · refine ⟨rfl, rfl, rfl, fun i hi => ?_⟩
    have hi20 : i < 20 ∧ i ≠ 8 := by
      simp [stepPd] at hi
      omega
    exact (State.pd_regate _ hi20.1 hi20.2).trans (hpd (l := stepPd 5) _ (by decide) i hi)
  · exact ⟨rfl, rfl, rfl, hpd _ (by decide)⟩
  · exact ⟨rfl, rfl, rfl, hpd _ (by decide)⟩
  · exact ⟨rfl, rfl, rfl, hpd _ (by decide)⟩
  · exact ⟨rfl, rfl, rfl, by simp [stepPd]⟩
  · exact ⟨rfl, rfl, (BitVec.or_zero (x := s.pow.en)).symm, by simp [stepPd]⟩

theorem State.en_latch (s : State) (b : Nat) : (s.latch b).pow.en = s.pow.en :=
  (congrArg Power.en (s.latch_samePower b) :)

theorem State.en_bootCount (s : State) : s.bootCount.pow.en = s.pow.en := by
  unfold State.bootCount
  dsimp only
  split
  · rw [State.en_latch]
    rfl
  · rfl

/-- The fields of both channel-mode banks move, and with a cause that ends the fault collector. -/
theorem State.mode_noModes (p : Option Pattern) (s : State) : (Pattern.noModes p s).modes.mode = s.modes.mode
    ∧ (Pattern.noModes p s).order = s.order :=
  have h := Pattern.noModes_only p s (.refl 0x10cabf6 s) rfl
  ⟨h.mode rfl, h.order rfl⟩

/-- What the end of an earlier boot step leaves. -/
theorem State.endStep_spec (s : State) {k : Nat} (h1 : 1 ≤ k) (h9 : k ≤ 9) : (s.endStep k).modes.mode = s.modes.mode
    ∧ (s.endStep k).order = s.order ∧ (k ≠ 9 → (s.endStep k).pow.en = s.pow.en) := by
  obtain rfl | rfl | rfl | rfl | rfl | rfl | rfl | rfl | rfl : k = 1 ∨ k = 2 ∨ k = 3 ∨ k = 4 ∨ k = 5 ∨ k = 6 ∨ k = 7 ∨ k = 8 ∨ k = 9 := by
    omega
  · exact ⟨rfl, rfl, fun _ => rfl⟩
  · exact ⟨rfl, rfl, fun _ => rfl⟩
  · have hcount := State.bootCount_only { s with pow := s.pow.arm [2] } (.refl 0x10dabf6 _) rfl
    have hload := State.loadRepairs_only (State.bootCount { s with pow := s.pow.arm [2] }) (.refl 0xc0 _) rfl
    exact ⟨(hload.mode rfl).trans (hcount.mode rfl), (hload.order rfl).trans (hcount.order rfl),
      fun _ => (congrArg Power.en (hload.pow rfl)).trans (State.en_bootCount _)⟩
  · exact ⟨rfl, rfl, fun _ => rfl⟩
  · exact ⟨rfl, rfl, fun _ => rfl⟩
  · exact ⟨rfl, rfl, fun _ => rfl⟩
  · exact ⟨rfl, rfl, fun _ => rfl⟩
  · exact ⟨rfl, rfl, fun _ => rfl⟩
  · have hsupply : Only 0x1000200 _ (s.fdies.foldl State.fieldSupply { s with pow := s.pow.arm (s.fdies.map (6 + ·)) }) :=
      Only.foldl (.refl _ { s with pow := s.pow.arm (s.fdies.map (6 + ·)) }) fun t f ht => State.fieldSupply_only t f ht rfl
    have hmode {u v : State} (p : Option Pattern) (h : u.modes.mode = v.modes.mode ∧ u.order = v.order) :
        (Pattern.noModes p (u.openConf true).driveTrips).modes.mode = v.modes.mode
        ∧ (Pattern.noModes p (u.openConf true).driveTrips).order = v.order := by
      obtain ⟨hm, ho⟩ := State.mode_noModes p (u.openConf true).driveTrips
      exact ⟨hm.trans h.1, ho.trans h.2⟩
    have hsame : (s.endStep 9).modes.mode = s.modes.mode ∧ (s.endStep 9).order = s.order :=
      hmode (v := s) _ ⟨hsupply.mode rfl, hsupply.order rfl⟩
    exact ⟨hsame.1, hsame.2, fun h => absurd rfl h⟩

/-- The step that follows one of the first nine, on either order code. -/
theorem nextStep_bounds {order k : Nat} (h1 : 1 ≤ k) (h9 : k ≤ 9) : 2 ≤ nextStep order k ∧ nextStep order k ≤ 10 := by
  unfold nextStep
  split
  · next h =>
    simp only [Bool.and_eq_true, Bool.or_eq_true, decide_eq_true_eq] at h
    omega
  · omega

/-- A boot step before the last one whose condition is met is followed by the next one (R344). -/
theorem bootStepComplete_spec {s : State} {k : Nat} (hmode : s.modes.mode = .boot) (hk : s.pow.bootStep = k) (h1 : 1 ≤ k) (h9 : k ≤ 9)
    (hretry : s.pow.retry = false) (hheld : s.pow.held = false) (hoff : s.pow.off = false) (hwait : s.modes.wait = none)
    (hlc : k = 3 → s.lcFinish = false) (hmay : s.stepMay k = true) :
    (doBootStepComplete s).modes = ((s.endStep k).beginStep (nextStep s.order k)).modes
    ∧ (doBootStepComplete s).pow = ((s.endStep k).beginStep (nextStep s.order k)).pow := by
  obtain ⟨-, horder, -⟩ := s.endStep_spec h1 h9
  have hstep : (k = 3 && s.lcFinish) = false := by
    by_cases h3 : k = 3
    · simp [hlc h3]
    · simp [h3]
  unfold doBootStepComplete
  dsimp only
  rw [hk, if_neg (by simp [hmode, hretry, hheld, hoff, hwait]; omega), if_neg (by simp [hstep]), if_neg (by simp [hmay]),
    if_neg (by omega), horder]
  split
  · generalize (s.endStep k).beginStep (nextStep s.order k) = u
    have hpat := State.bootPattern_only { u with keys := u.keys.pair } (.refl 0x200000 _) rfl
    have hera := State.bootEra_only (State.bootPattern { u with keys := u.keys.pair }) (.refl 0x20000 _) rfl
    exact ⟨(hera.modes rfl).trans (hpat.modes rfl), (hera.pow rfl).trans (hpat.pow rfl)⟩
  · exact ⟨rfl, rfl⟩

/-- The end of BOOT: no step runs any more, and the mode is SAFE, CONFIGURE, or still BOOT with a RUN entry waiting (R337, log 86). -/
theorem State.bootEnd_spec {s : State} (hmode : s.modes.mode = .boot) : s.bootEnd.pow.bootStep = 0
    ∧ (s.pow.c3Boot = true → s.bootEnd.modes.mode = .safe)
    ∧ (s.bootEnd.modes.mode = .safe ∨ s.bootEnd.modes.mode = .configure
      ∨ (s.bootEnd.modes.mode = .boot ∧ s.bootEnd.modes.wait.isSome = true)) := by
  have hlines (c : Bool) (x : State) : (if c then x.untrip else x).modes = x.modes ∧ (if c then x.untrip else x).pow = x.pow := by
    have h := State.untrip_only x (.refl 0x110 x) rfl
    split
    · exact ⟨h.modes rfl, h.pow rfl⟩
    · exact ⟨rfl, rfl⟩
  obtain ⟨u, humodes, hupow, heq⟩ : ∃ u : State, u.modes = s.modes ∧ u.pow = { s.pow with bootStep := 0, pfA := .idle, pfB := .idle }
      ∧ s.bootEnd = if u.pow.c3Boot then u.enterSafe else if !u.activeOk then u.toMode .configure
      else if u.reg 0x2023 0 == 1 && u.runWhy == 0 then u.takeRun false else u.enterSafe := by
    refine ⟨_, ?_, ?_, rfl⟩
    · exact (hlines _ _).1
    · exact (hlines _ _).2
  have humode : u.modes.mode = .boot := by rw [humodes, hmode]
  have hustep : u.pow.bootStep = 0 := by rw [hupow]
  have huc3 : u.pow.c3Boot = s.pow.c3Boot := by rw [hupow]
  obtain ⟨hsafe, -, -, -, w, hsafepow⟩ := u.enterSafe_spec
  obtain ⟨hconf, -, -, -, w', hconfpow⟩ := u.toMode_spec .configure
  obtain ⟨hrun, hrunwait, -, hrunpow⟩ := u.takeRun_spec false
  rw [heq, ← huc3]
  split
  · exact ⟨by rw [hsafepow, hustep], fun _ => hsafe, .inl hsafe⟩
  · next hc3 =>
    refine ⟨?_, fun h => absurd h hc3, ?_⟩
    · split_ifs
      · rw [hconfpow, hustep]
      · rw [hrunpow, hustep]
      · rw [hsafepow, hustep]
    · split_ifs
      · exact .inr (.inl hconf)
      · exact .inr (.inr ⟨hrun.trans humode, hrunwait⟩)
      · exact .inl hsafe

/-- The last boot step (R337, R344). -/
theorem bootStepComplete_last {s : State} (hmode : s.modes.mode = .boot) (hk : s.pow.bootStep = 10) (hretry : s.pow.retry = false)
    (hheld : s.pow.held = false) (hoff : s.pow.off = false) (hwait : s.modes.wait = none) (hera : s.keys.eraPend = none) :
    ∃ u, Only 0x12c0 s u ∧ doBootStepComplete s = u.bootEnd := by
  have hstep : doBootStepComplete s = s.endStep 10 := by
    unfold doBootStepComplete
    dsimp only
    rw [hk, if_neg (by simp [hmode, hretry, hheld, hoff, hwait]), if_neg (by simp), if_neg (by simp [State.stepMay, hera]), if_pos rfl]
  obtain ⟨rs, h⟩ : ∃ rs : Rings, s.endStep 10 = ((State.bootJournal { s with rings := rs } .a).bootJournal .b).bootEnd := ⟨_, rfl⟩
  have hrings : Only 0x12c0 s { s with rings := rs } := by
    dsimp only [Only.mk_eq]
    exact OnlyParts.rings (c := rfl) (Only.parts (.refl 0x12c0 s))
  exact ⟨_, State.bootJournal_only _ .b (State.bootJournal_only _ .a hrings rfl) rfl, hstep.trans h⟩

/-- What the sequencer leaves of a boot that has failed at some step (R345). -/
theorem bootStepTimeout_spec {s : State} (hmode : s.modes.mode = .boot) (hstep : 1 ≤ s.pow.bootStep) (hretry : s.pow.retry = false)
    (hheld : s.pow.held = false) (hwait : s.modes.wait = none) : ∃ u, Only 0x10cabf6 s u ∧ SamePower s u
    ∧ (s.diverted 35 = false → u.fswBit 35 = true)
    ∧ ∃ t, exec .bootStepTimeout s = .next t ∧ t.a = .init ∧ t.b = .init ∧ t.fd = [] ∧ t.flt.fsw = u.flt.fsw ∧ t.pers = u.pers ∧ t.pat = u.pat
      ∧ t.bkp = u.bkp ∧ t.pow = { (u.unboot (decide (3 ≤ s.pow.fails + 1))).pow with
          fails := min (s.pow.fails + 1) 255, held := decide (3 ≤ s.pow.fails + 1), retry := decide (s.pow.fails + 1 < 3) } := by
  have hcause (x : State) : x.railCause = { x with flt := x.railCause.flt } ∧ x.railCause.flt.fsw = x.flt.fsw := by
    unfold State.railCause
    split <;> exact ⟨rfl, rfl⟩
  refine ⟨(s.latch 35).setReg 0x2034 3 s.pow.bootStep, State.setReg_only _ _ _ _ (State.latch_only s 35 (.refl _ s) rfl) rfl,
    State.latch_samePower s 35, fun h => State.latch_sets s 35 (by simp [fswPresent]) h, _, rfl, ?_⟩
  unfold doBootStepTimeout
  dsimp only
  rw [if_neg (by simp [hmode, hretry, hheld, hwait]; omega)]
  generalize (s.latch 35).setReg 0x2034 3 s.pow.bootStep = u
  obtain ⟨hframe, hfsw⟩ := hcause (u.unboot (decide (3 ≤ s.pow.fails + 1)))
  refine ⟨?_, ?_, ?_, hfsw, ?_, ?_, ?_, ?_⟩ <;> rw [hframe] <;> rfl

/-- Settles O20: each step by what ends it and what the next one begins; the last step by the end of BOOT. -/
theorem bootRunsItsSteps : Obligations.BootRunsItsSteps := by
  refine ⟨fun s k hmode hk h1 h9 hretry hheld hoff hwait h3 h4 h6 => ?_, fun s hmode hk hretry hheld hoff hwait hera => ?_,
    fun s hmode hstep hretry hheld hwait => ?_, fun s hmode hretry => ?_⟩
  · obtain ⟨hend, -, hen⟩ := s.endStep_spec h1 h9
    obtain ⟨hlo, hhi⟩ := nextStep_bounds (order := s.order) h1 h9
    obtain ⟨hbegin, hstep, hup, hpd⟩ := (s.endStep k).beginStep_spec hlo hhi
    have hmay : s.stepMay k = true := by
      unfold State.stepMay
      split_ifs with c3 c4 c6
      · simp [h3 c3]
      · simp [h4 c4]
      · simp [h6 c6]
      · omega
      · rfl
    obtain ⟨hmodes, hpow⟩ := bootStepComplete_spec hmode hk h1 h9 hretry hheld hoff hwait (fun h => (h3 h).2) hmay
    refine ⟨doBootStepComplete s, rfl, ?_, ?_, fun h8 _ i hi => ?_, fun i hi => ?_, fun i hi => ?_⟩
    · rw [hmodes, hbegin, hend, hmode]
    · rw [hpow, hstep]
    · rw [hpow, hup, hen (by omega)]
      exact getLsbD_or_left _ _ hi
    · rw [hpow, hup]
      exact getLsbD_or_right _ _ (enSet_stepEn hlo hhi i hi)
    · rw [hpow]
      exact hpd i hi
  · obtain ⟨u, hu, heq⟩ := bootStepComplete_last hmode hk hretry hheld hoff hwait hera
    obtain ⟨hstep, hsafe, hmodes⟩ := State.bootEnd_spec (s := u) ((hu.mode rfl).trans hmode)
    have hend := State.bootEnd_only u (.refl 0x8f013de u) rfl
    refine ⟨u.bootEnd, congrArg _ heq, hstep, fun hc => hsafe ?_, hmodes, ?_, ?_, ?_⟩
    · rw [hu.pow rfl, hc]
    · rw [hend.bkp rfl, hu.bkp rfl]
    · rw [hend.otp rfl, hu.otp rfl]
    · rw [hend.keys rfl, hu.keys rfl]
  · obtain ⟨u, hu, hpow, hset, t, hexec, ha, hb, hfd, hfsw, hpers, hpat, hbkp, htpow⟩ :=
      bootStepTimeout_spec hmode hstep hretry hheld hwait
    unfold SamePower at hpow
    refine ⟨t, hexec, ha, hb, hfd, fun hsh => ?_, hpers.trans (hu.pers rfl), hpat.trans (hu.pat rfl), hbkp.trans (hu.bkp rfl),
      fun hf => ?_, fun hf => ?_⟩
    · unfold State.fswBit
      rw [hfsw]
      exact hset (State.not_diverted s 35 hsh (by decide))
    · have hn : decide (3 ≤ s.pow.fails + 1) = false := by simpa using hf
      have hen : ~~~enSet [0, 1, 2, 3, 4, 5, 6, 7] = 0 := by decide
      have hret : decide (s.pow.fails + 1 < 3) = true := decide_eq_true (by omega)
      rw [htpow, hn, hret]
      refine ⟨?_, rfl, rfl, ?_⟩
      · exact (congrArg (u.pow.en &&& ·) hen).trans BitVec.and_zero
      · exact Nat.min_eq_left (by omega)
    · have hn : decide (3 ≤ s.pow.fails + 1) = true := by simpa using hf
      have hen : ~~~enSet [2, 3, 4, 5, 6, 7] &&& 0xFC = 0 := by decide
      have hret : decide (s.pow.fails + 1 < 3) = false := by simpa using hf
      rw [htpow, hn, hret]
      refine ⟨?_, rfl, rfl⟩
      exact (BitVec.and_assoc ..).trans ((congrArg (u.pow.en &&& ·) hen).trans BitVec.and_zero)
  · have hexec : exec .bootRetry s = .next (doBootRetry s) := rfl
    rw [hexec]
    unfold doBootRetry
    rw [if_pos (by simp [hmode, hretry])]
    simp [State.beginStep, Power.on, pdSet, enSet]

end Sys2Proof.Machine

namespace Sys2Proof.Machine

/-! ## Transitions of the mode (R337 to R341) -/

theorem exec_modeRequestTake (s : State) : exec .modeRequestTake s = .next (doModeRequestTake s) := rfl

/-- Outside CONFIGURE the channel modes are not judged anew (R189): a request is taken or refused by its code. -/
theorem modeRequestTake_of_pending {s : State} {code seat : Nat} (hreq : s.modes.req = some (code, seat)) (hstop : s.modes.stopping = false)
    (hmode : s.modes.mode ≠ .configure) : doModeRequestTake s =
      if s.pow.scan then s.reqFail 9
      else if code = 3 then (if s.runWhy = 0 then s.takeRun false else s.reqFail s.runWhy)
      else if code = 5 then s.takeRun true
      else if code = 4 then
        if s.modes.mode = .run then { s with modes := { s.modes with stopping := true } }.setReg 0x2022 0 0
        else if s.otp.lc == 2 && (match s.pat.active with
            | some p => s.passes69 s.modes.spanK p
            | none => false) then (s.setReg 0x2022 0 0).enterSafe
        else s.reqFail 1
      else (s.setReg 0x2022 0 0).toMode .configure := by
  unfold doModeRequestTake
  rw [hreq]
  simp only [hstop, s.inConf_eq_false hmode, Bool.false_eq_true, if_false, Bool.false_and] <;> rfl

/-- The start of an evaluation moves of the Pattern store the Pattern that ran last. -/
theorem State.startBoth_pat (s : State) (p : Pattern) (locked : Nat → Bool) : (s.startBoth p locked).pat = { s.pat with ran := some p } := by
  have hrings := State.ringsFor_only s p (.refl 0x1000 s) rfl
  have ha := State.startDie_only (s.ringsFor p) p locked .a (.refl 0xc0 _) rfl
  have hb := State.startDie_only ((s.ringsFor p).startDie p locked .a) p locked .b (.refl 0xc0 _) rfl
  have hpat : (((s.ringsFor p).startDie p locked .a).startDie p locked .b).pat = s.pat :=
    (hb.pat rfl).trans ((ha.pat rfl).trans (hrings.pat rfl))
  unfold State.startBoth
  dsimp only
  rw [hpat]

/-- A start of `p`, where there is one. -/
def State.startWith (s : State) (p : Option Pattern) (locked : Nat → Bool) : State :=
  match p with
  | none => s
  | some p => s.startBoth p locked

theorem State.startWith_spec (s : State) (p : Option Pattern) (locked : Nat → Bool) : (s.startWith p locked).modes = s.modes
    ∧ (s.startWith p locked).flt = s.flt ∧ (s.startWith p locked).pers = s.pers
    ∧ (s.startWith p locked).pat.active = s.pat.active ∧ (s.startWith p locked).pat.cand = s.pat.cand := by
  cases p with
  | none => exact ⟨rfl, rfl, rfl, rfl, rfl⟩
  | some p =>
    have h := State.startBoth_only s p locked (.refl 0xe010c0 s) rfl
    refine ⟨h.modes rfl, h.flt rfl, h.pers rfl, ?_, ?_⟩
    · exact (congrArg PatStore.active (s.startBoth_pat p locked) :)
    · exact (congrArg PatStore.cand (s.startBoth_pat p locked) :)

/-- The device as an entry into test access finds its Pattern (R470). -/
def State.toTest (s : State) (w : RunWait) : State :=
  (State.toMode { s with modes := { s.modes with ovrTol := w.ovrTol } } .service).clearRun

/-- The device as an entry into RUN finds its Pattern (R43, R90, R418). -/
def State.toRun (s : State) (w : RunWait) : State :=
  (((State.activate { s with modes := { s.modes with ovrTol := w.ovrTol } }).toMode .run).firstRun).clearRun

theorem runEntry_of_over {s : State} {w : RunWait} (hwait : s.modes.wait = some w) (hover : s.waitOver w = true) :
    doRunEntry s = if w.service then (s.toTest w).startWith (s.toTest w).pattern fun z => Tab.get false (s.toTest w).modes.lockouts z
      else (s.toRun w).startWith (s.toRun w).pat.active fun z => s.modes.mode == .safe || Tab.get false (s.toRun w).modes.lockouts z := by
  unfold doRunEntry
  rw [hwait]
  dsimp only
  rw [if_neg (by simp [hover])]
  rfl

theorem State.toTest_spec (s : State) (w : RunWait) : (s.toTest w).modes.mode = .service ∧ (s.toTest w).modes.wait = none
    ∧ (s.toTest w).flt = s.flt ∧ (s.toTest w).pers = s.pers ∧ (s.toTest w).pat = s.pat := by
  have h := State.toMode_only { s with modes := { s.modes with ovrTol := w.ovrTol } } .service (.refl 0x81003ce _) rfl
  obtain ⟨hm, hw, -⟩ := State.toMode_spec { s with modes := { s.modes with ovrTol := w.ovrTol } } .service
  exact ⟨hm, hw, h.flt rfl, h.pers rfl, h.pat rfl⟩

theorem State.toRun_spec (s : State) (w : RunWait) : (s.toRun w).modes.mode = .run ∧ (s.toRun w).modes.wait = none
    ∧ (s.toRun w).flt = s.flt ∧ (s.toRun w).pers = s.pers
    ∧ (s.pat.state = 2 → (s.toRun w).pat.active = s.pat.cand ∧ (s.toRun w).pat.cand = none) := by
  have hrest (v : State) : v.firstRun.clearRun.modes = v.modes ∧ v.firstRun.clearRun.flt = v.flt ∧ v.firstRun.clearRun.pers = v.pers
      ∧ v.firstRun.clearRun.pat = v.pat := by
    have h := State.firstRun_only v (.refl 0x8020 v) rfl
    exact ⟨h.modes rfl, h.flt rfl, h.pers rfl, h.pat rfl⟩
  obtain ⟨u, hu, huflt, hupers, hupat⟩ : ∃ u : State, u = { s with modes := { s.modes with ovrTol := w.ovrTol } } ∧ u.flt = s.flt
      ∧ u.pers = s.pers ∧ u.pat = s.pat := ⟨_, rfl, rfl, rfl, rfl⟩
  have hact := State.activate_only u (.refl 0x200000 u) rfl
  have h := State.toMode_only u.activate .run (.refl 0x81003ce _) rfl
  obtain ⟨hm, hw, -⟩ := u.activate.toMode_spec .run
  obtain ⟨hmodes, hflt, hpers, hpat⟩ := hrest (u.activate.toMode .run)
  unfold State.toRun
  rw [← hu, hmodes, hflt, hpers, hpat, h.flt rfl, h.pers rfl, h.pat rfl, hact.flt rfl, hact.pers rfl, ← hupat]
  refine ⟨hm, hw, huflt, hupers, fun hstate => ?_⟩
  unfold State.activate
  rw [if_pos hstate]
  exact ⟨rfl, rfl⟩

/-- What an entry into RUN, or into test access, leaves (R43, R85 to R90). -/
theorem runEntry_spec {s : State} {w : RunWait} (hwait : s.modes.wait = some w) (hover : s.waitOver w = true) :
    (doRunEntry s).modes.mode = (if w.service then .service else .run) ∧ (doRunEntry s).modes.wait = none
    ∧ (w.service = false → s.pat.state = 2 → (doRunEntry s).pat.active = s.pat.cand ∧ (doRunEntry s).pat.cand = none)
    ∧ (w.service = true → (doRunEntry s).pat.active = s.pat.active) ∧ (doRunEntry s).flt = s.flt ∧ (doRunEntry s).pers = s.pers := by
  rw [runEntry_of_over hwait hover]
  cases hs : w.service with
  | true =>
    obtain ⟨hm, hw, hflt, hpers, hpat⟩ := s.toTest_spec w
    obtain ⟨hmodes, hflt', hpers', hactive, -⟩ := (s.toTest w).startWith_spec (s.toTest w).pattern
      fun z => Tab.get false (s.toTest w).modes.lockouts z
    rw [if_pos rfl, if_pos rfl, hmodes, hflt', hpers', hactive]
    exact ⟨hm, hw, fun h => absurd h (by simp), fun _ => by rw [hpat], hflt, hpers⟩
  | false =>
    obtain ⟨hm, hw, hflt, hpers, hpat⟩ := s.toRun_spec w
    obtain ⟨hmodes, hflt', hpers', hactive, hcand⟩ := (s.toRun w).startWith_spec (s.toRun w).pat.active
      fun z => s.modes.mode == .safe || Tab.get false (s.toRun w).modes.lockouts z
    rw [if_neg Bool.false_ne_true, if_neg Bool.false_ne_true, hmodes, hflt', hpers', hactive, hcand]
    exact ⟨hm, hw, fun _ => hpat, fun h => absurd h (by simp), hflt, hpers⟩

/-- A power state that is requested in time is entered (R341, R65). -/
theorem powerStateChange_spec {s : State} {x : Pwr} (hreq : s.modes.pwrReq = some x) (hx : x = .deepSleep → s.modes.mode = .safe
      ∧ (s.modes.pwr = .deepSleep ∨ (s.spanNo + 1) % 2 ^ (7 - s.modes.spanK) = 0)) :
    (doPowerStateChange s).modes = { s.modes with pwr := x, pwrReq := none } ∧ (doPowerStateChange s).flt = s.flt
    ∧ (doPowerStateChange s).otp = s.otp ∧ (doPowerStateChange s).keys = s.keys ∧ (doPowerStateChange s).pat = s.pat := by
  have hstop (c : Bool) (u : State) : Only 0x2c0 u (if c then (u.jrnStop .a).jrnStop .b else u) :=
    .ite (State.jrnStop_only _ .b (State.jrnStop_only u .a (.refl _ u) rfl) rfl) (.refl _ u)
  have hsafe : (x == .deepSleep && s.modes.mode != .safe) = false := by
    by_cases h : x = .deepSleep
    · simp [h, (hx h).1]
    · simp [h]
  have hgrid : ((x == .deepSleep || s.modes.pwr == .deepSleep) && x != s.modes.pwr
      && !((s.spanNo + 1) % 2 ^ (7 - s.modes.spanK) == 0 || s.modes.pwr == .deepSleep)) = false := by
    by_cases h : x = .deepSleep
    · obtain ⟨-, h | h⟩ := hx h <;> simp [h]
    · by_cases hp : s.modes.pwr = .deepSleep <;> simp [h, hp]
  unfold doPowerStateChange
  rw [hreq]
  dsimp only
  rw [if_neg (by rw [hsafe]; simp), if_neg (by rw [hgrid]; simp)]
  rw [(hstop _ _).modes rfl, (hstop _ _).flt rfl, (hstop _ _).otp rfl, (hstop _ _).keys rfl, (hstop _ _).pat rfl]
  have h := State.pwrDomains_only (State.regate { s with modes := { s.modes with pwr := x, pwrReq := none } }) (.refl 0x4 _) rfl
  exact ⟨h.modes rfl, h.flt rfl, h.otp rfl, h.keys rfl, h.pat rfl⟩

/-- Settles O26: each transition by the lemma that says what its mode's entry leaves. -/
theorem transitionsFollowTheModeTable : Obligations.TransitionsFollowTheModeTable := by
  refine ⟨fun s h => ?_, fun s code seat hreq hstop hmode => ?_, fun s w hwait => ⟨fun hover => ?_, fun hover => ?_⟩, fun s hwait => ⟨?_, ?_⟩,
    fun s hwait => ⟨fun hmode => ?_, fun hmode => ?_⟩, fun s hc3 hmode => ?_, fun s hc3 => ?_, fun s hstop hmode hlocked => ?_,
    fun s h => ?_, fun s => ⟨fun hreq => ?_, fun x hreq hx => ?_⟩⟩
  · rw [exec_modeRequestTake]
    unfold doModeRequestTake
    split
    · rfl
    · next hreq =>
      obtain hnone | hstop := h
      · rw [hnone] at hreq
        simp at hreq
      · rw [if_pos hstop]
  · rw [exec_modeRequestTake, modeRequestTake_of_pending hreq hstop hmode]
    refine ⟨fun hscan => by rw [if_pos hscan]; rfl, fun hscan hcode => ?_, fun hscan hcode hrun => ?_, fun hscan hcode hwhy => ?_,
      fun hscan hcode hwhy => ?_⟩
    · subst hcode
      obtain ⟨hm, -, hr, -⟩ := (s.setReg 0x2022 0 0).toMode_spec .configure
      have honly := State.toMode_only (s.setReg 0x2022 0 0) .configure (.refl 0x81003ce _) rfl
      refine ⟨(s.setReg 0x2022 0 0).toMode .configure, by simp [hscan], hm, hr, honly.flt rfl, honly.pers rfl, honly.pat rfl⟩
    · subst hcode
      simp [hscan, hrun]
    · subst hcode
      obtain ⟨hm, hw, hr, hpow⟩ := s.takeRun_spec false
      have honly := State.takeRun_only s false (.refl 0x2c2 _) rfl
      exact ⟨s.takeRun false, by simp [hscan, hwhy], hm, hw, hr, hpow, honly.flt rfl, honly.fd rfl⟩
    · subst hcode
      simp [hscan, hwhy, State.reqFail]
  · have hexec : exec .runEntry s = .next (doRunEntry s) := rfl
    rw [hexec]
    unfold doRunEntry
    rw [hwait]
    dsimp only
    rw [if_pos (by simp [hover])]
  · exact ⟨doRunEntry s, rfl, runEntry_spec hwait hover⟩
  · have hexec : exec .runEntry s = .next (doRunEntry s) := rfl
    rw [hexec]
    unfold doRunEntry
    rw [hwait]
  · have hexec : exec .runRequestLapse s = .next (doRunRequestLapse s) := rfl
    rw [hexec]
    unfold doRunRequestLapse
    rw [if_pos (by simp [hwait])]
  · have hexec : exec .runRequestLapse s = .next (doRunRequestLapse s) := rfl
    rw [hexec]
    unfold doRunRequestLapse
    rw [if_neg (by simp [Option.isSome_iff_ne_none.mp hwait])]
    exact congrArg _ (if_neg hmode)
  · have hexec : exec .runRequestLapse s = .next (doRunRequestLapse s) := rfl
    let u : State := { s with modes := { s.modes with wait := none } }.setReg 0x2022 0 8
    have hdo : doRunRequestLapse s = u.enterSafe := by
      unfold doRunRequestLapse
      rw [if_neg (by simp [Option.isSome_iff_ne_none.mp hwait])]
      exact if_pos hmode
    obtain ⟨hm, -, hw, -⟩ := u.enterSafe_spec
    have honly := State.enterSafe_only u (.refl 0x8f013ce u) rfl
    exact ⟨u.enterSafe, by rw [hexec, hdo], hm, hw, honly.flt rfl⟩
  · have hexec : exec .safeEntry s = .next (doSafeEntry s) := rfl
    let u : State := { s with flt := { s.flt with c3 := .none } }
    have hdo : doSafeEntry s = u.enterSafe := by
      unfold doSafeEntry
      rw [if_pos (by simp [hc3])]
      exact if_neg (by rcases hmode with h | h | h <;> simp [h])
    obtain ⟨hm, -⟩ := u.enterSafe_spec
    have honly := State.enterSafe_only u (.refl 0x8f013ce u) rfl
    refine ⟨u.enterSafe, by rw [hexec, hdo], hm, ?_, ?_, honly.pers rfl⟩ <;> rw [honly.flt rfl] <;> rfl
  · exact congrArg _ (if_neg (by simpa using hc3))
  · obtain ⟨p, hp, hd⟩ := hlocked
    have hexec : exec .safeEntryAfterStop s = .next (doSafeEntryAfterStop s) := rfl
    have hdo : doSafeEntryAfterStop s = s.enterSafe := by
      have hlocked (d : Die) : ((s.die d).eng.com.allLocked p d || !s.admitted d) = true := by
        rcases hd d with h | h <;> simp [h]
      unfold doSafeEntryAfterStop
      rw [hp]
      exact if_pos (by simp only [hstop, hmode, hlocked]; rfl)
    obtain ⟨hm, -⟩ := s.enterSafe_spec
    have honly := State.enterSafe_only s (.refl 0x8f013ce s) rfl
    exact ⟨s.enterSafe, by rw [hexec, hdo], hm, honly.flt rfl, honly.pers rfl⟩
  · exact congrArg _ (if_neg (by rcases h with h | h <;> simp [h]))
  · have hexec : exec .powerStateChange s = .next (doPowerStateChange s) := rfl
    rw [hexec]
    unfold doPowerStateChange
    rw [hreq]
  · exact ⟨doPowerStateChange s, rfl, powerStateChange_spec hreq hx⟩

end Sys2Proof.Machine

namespace Sys2Proof

/-! ## Every value of a table -/

theorem Tab.get_of_forall {α : Type} {dflt : α} {P : α → Prop} (hd : P dflt) {t : Tab α} (h : ∀ x ∈ t, P x.2) (k : Nat) : P (Tab.get dflt t k) := by
  induction t with
  | nil => exact hd
  | cons y t ih =>
    obtain ⟨j, v⟩ := y
    unfold Tab.get
    split
    · exact h _ List.mem_cons_self
    · exact ih fun x hx => h x (List.mem_cons_of_mem _ hx)

theorem Tab.forall_mapV {α : Type} [DecidableEq α] {dflt : α} {P : α → Prop} {f : α → α} {t : Tab α} (h : ∀ x ∈ t, P (f x.2)) :
    ∀ x ∈ Tab.mapV dflt f t, P x.2 := by
  induction t with
  | nil => simp [Tab.mapV]
  | cons y t ih =>
    obtain ⟨j, v⟩ := y
    have hrest := ih fun x hx => h x (List.mem_cons_of_mem _ hx)
    unfold Tab.mapV
    split
    · exact hrest
    · intro x hx
      obtain rfl | hx := List.mem_cons.mp hx
      · exact h (j, v) List.mem_cons_self
      · exact hrest x hx

end Sys2Proof

namespace Sys2Proof.Machine

/-! ## A part of the dies that an operation leaves alone -/

/-- Of both dies, `t` shows through `π` what `s` shows. -/
def SameDies {α : Type} (π : LDie → α) (s t : State) : Prop := ∀ x, π (t.die x) = π (s.die x)

section
variable {α : Type} {π : LDie → α} {s t u : State}

theorem SameDies.refl (s : State) : SameDies π s s := fun _ => rfl

theorem SameDies.trans (h : SameDies π s t) (k : SameDies π t u) : SameDies π s u := fun x => (k x).trans (h x)

theorem SameDies.of_dies (ha : t.a = s.a) (hb : t.b = s.b) : SameDies π s t := fun x => by
  cases x
  · exact congrArg π ha
  · exact congrArg π hb

theorem SameDies.of_only {m : Nat} (h : Only m s t) (ha : m.testBit 6 = false) (hb : m.testBit 7 = false) : SameDies π s t :=
  .of_dies (h.a ha) (h.b hb)

theorem SameDies.setDie (d : Die) {l : LDie} (h : π l = π (s.die d)) : SameDies π s (s.setDie d l) := by
  intro x
  cases d <;> cases x
  · exact h
  · rfl
  · rfl
  · exact h

theorem SameDies.updDie (d : Die) {f : LDie → LDie} (h : ∀ l, π (f l) = π l) : SameDies π s (s.updDie d f) := .setDie d (h _)

theorem SameDies.ite {c : Prop} [Decidable c] (h : SameDies π s t) (k : SameDies π s u) : SameDies π s (if c then t else u) := by
  split
  · exact h
  · exact k

theorem SameDies.foldl {β : Type} {f : State → β → State} (h : ∀ s x, SameDies π s (f s x)) (l : List β) : SameDies π s (l.foldl f s) := by
  induction l generalizing s with
  | nil => exact .refl s
  | cons x l ih => exact (h s x).trans ih

theorem State.bumpOnce_same (s : State) (d : Die) (w i j : Nat) : SameDies π s (s.bumpOnce d w i j) :=
  .of_only (m := 0x200) (State.bumpOnce_only s d w i j (.refl _ s) rfl) rfl rfl

/-- Journal writes move the journal of their die. -/
theorem State.jrnStop_same (hπ : ∀ (l : LDie) (j : Journal), π { l with jrn := j } = π l) (s : State) (d : Die) : SameDies π s (s.jrnStop d) := by
  unfold State.jrnStop
  exact .ite ((SameDies.setDie d (hπ _ _)).trans (.of_dies rfl rfl)) (.setDie d (hπ _ _))

theorem State.jrnRec_same (hπ : ∀ (l : LDie) (j : Journal), π { l with jrn := j } = π l) (s : State) (d : Die) (typ : Nat) (body : List Byte) :
    SameDies π s (s.jrnRec d typ body) := by
  have hrec (u : State) (j : Journal) (c : Bool) : SameDies π u
      (if c then (u.setDie d { (u.die d) with jrn := j }).bumpOnce d 32 0x8200 5 else u.setDie d { (u.die d) with jrn := j }) :=
    .ite ((SameDies.setDie d (hπ _ _)).trans (State.bumpOnce_same _ d _ _ _)) (.setDie d (hπ _ _))
  exact (SameDies.ite (State.jrnStop_same hπ s d) (.refl s)).trans (hrec _ _ _)

theorem State.event_same (hπ : ∀ (l : LDie) (j : Journal), π { l with jrn := j } = π l) (s : State) (d : Die) (k : Nat) (l : List Byte) :
    SameDies π s (s.event d k l) := State.jrnRec_same hπ s d _ _

end

/-- What a die has of its span: the timebase, what its snapshot is of, and the slots. -/
def LDie.spanView (l : LDie) : Timebase × Bool × Bool × Nat × Nat × Tab Snap :=
  (l.tb, l.cur.opened, l.cur.frozen, l.cur.span, l.cur.tickNs, l.snap)

/-- The same, with the engine. -/
def LDie.engView (l : LDie) : (Timebase × Bool × Bool × Nat × Nat × Tab Snap) × Engine := (l.spanView, l.eng)

theorem SameDies.spanView {s t : State} (h : SameDies LDie.engView s t) : SameDies LDie.spanView s t := fun x => congrArg Prod.fst (h x)

/-! ## The tick (R40, R47, R79) -/

theorem State.capOvr_same (d : Die) (s : State) (n : Nat) : SameDies LDie.engView s (s.capOvr d n) := by
  unfold State.capOvr
  exact .ite (.refl s) ((SameDies.of_only (m := 0x200) (State.bump_only _ _ _ _ (State.setReg_only s _ _ _ (.refl _ s) rfl) rfl) rfl rfl).trans
    (.updDie d fun _ => rfl))

theorem State.edgeWins_same (d : Die) (s : State) (n : Nat) : SameDies LDie.engView s (s.edgeWins d n) := by
  unfold State.edgeWins
  dsimp only
  split
  · refine SameDies.ite (SameDies.trans (SameDies.setDie d ?_) (State.bumpOnce_same _ d _ _ _)) (.refl s)
    rfl
  · exact .refl s

theorem State.readPairs_same (s : State) (d : Die) (ns : List Nat) : SameDies LDie.engView s (s.readPairs d ns) := by
  unfold State.readPairs
  dsimp only
  refine SameDies.trans (SameDies.setDie d ?_) ((SameDies.foldl (State.capOvr_same d) ns).trans (.foldl (State.edgeWins_same d) ns))
  rfl

theorem State.jrnFlush_same (s : State) (d : Die) : SameDies LDie.engView s (s.jrnFlush d) := by
  unfold State.jrnFlush
  exact .ite (.refl s) (.ite (State.jrnStop_same (fun _ _ => rfl) s d) (.setDie d rfl))

theorem LDie.pushPos_view (p : Option Pattern) (d : Die) (deep : Bool) (l : LDie) : (l.pushPos p d deep).engView = l.engView := by
  cases p <;> rfl

/-- The lanes that a die's span begins with: none runs a job, and no lane is down where none was. -/
def LaneSt.Up (x : LaneSt) : Prop := x = .free ∨ x = .spare

/-- A die all of whose lanes are up keeps its engine at a tick, and no lane fault is told (R77). -/
theorem State.swapLanes_of_up {s : State} {d : Die} (h : ∀ n, (Tab.get LaneSt.free (s.die d).eng.lanes n).Up) :
    SameDies LDie.spanView s (s.swapLanes d) := by
  have hswap (e : Engine) (n : Nat) (he : (Tab.get LaneSt.free e.lanes n).Up) : e.swapLane n = e := by
    unfold Engine.swapLane
    obtain h | h := he <;> rw [h]
  have hfold (l : List Nat) : l.foldl Engine.swapLane (s.die d).eng = (s.die d).eng := by
    induction l with
    | nil => rfl
    | cons n l ih => rw [List.foldl_cons, hswap _ n (h n), ih]
  have hdown : (s.die d).eng.lanesDown = 0 := by
    unfold Engine.lanesDown
    rw [List.length_eq_zero_iff, List.filter_eq_nil_iff]
    intro n _
    obtain h | h := h n <;> rw [h] <;> simp
  unfold State.swapLanes
  dsimp only
  rw [hfold, hdown, if_neg (by simp)]
  exact (SameDies.updDie d fun _ => rfl).trans (.of_dies rfl rfl)

theorem State.rotate_same (s : State) (d : Die) : SameDies LDie.spanView s (s.rotate d) := by
  unfold State.rotate
  dsimp only
  split
  · exact .refl s
  · split
    · exact .refl s
    · split
      · exact .refl s
      · exact .updDie d fun _ => rfl

theorem State.stTick_same (s : State) (d : Die) : SameDies LDie.spanView s (s.stTick d) := by
  unfold State.stTick
  dsimp only
  refine SameDies.ite (SameDies.trans ?_ (.of_dies rfl rfl)) ?_ <;>
    exact SameDies.trans (SameDies.trans (.of_dies (by split <;> rfl) (by split <;> rfl)) (.of_dies rfl rfl)) (State.rotate_same _ d)

/-- No timer of the die counts ticks. -/
theorem State.timerEdge_of_none {s : State} {d : Die}
    (h : ∀ k, k < 8 → (s.timer (8 * d.n + k)).en = false ∨ (s.timer (8 * d.n + k)).src = false) : s.timerEdge d true = s := by
  have hfold (l : List Nat) (hl : ∀ k ∈ l, k < 8) : l.foldl (fun (s : State) k =>
      let x := s.timer (8 * d.n + k)
      if x.en && x.src == true then s.putTimer (8 * d.n + k) x.edge else s) s = s := by
    induction l with
    | nil => rfl
    | cons k l ih =>
      rw [List.foldl_cons]
      have hoff := h k (hl k List.mem_cons_self)
      dsimp only
      rw [if_neg (by rcases hoff with h | h <;> simp [h])]
      exact ih fun k hk => hl k (List.mem_cons_of_mem _ hk)
  exact hfold _ fun k hk => List.mem_range.mp hk

/-- Tick by tick: the part of TICK that opens the span of the die. -/
def State.tickOpen (s : State) (d : Die) : State :=
  let tb := s.nextTb d
  let s0 := s.jrnFlush d
  let s1 := s0.updDie d (LDie.newSpan s0.pattern (tspanNs s0.modes.spanK) tb.spanNo (s.modes.pwr == .deepSleep) (s0.flt.frozen != 0) s0.heldChan tb)
  let s1a := (s1.updDie d fun l => { l with cur := s1.openSnap tb l.cur }).readPairs d [128, 129, 130, 131]
  let s2 := s1a.updDie d fun l => (l.push [flitTick tb.ts tb.lastCommit, l.inFlit 4 true]).pushPos s1a.pattern d (s.modes.pwr == .deepSleep)
  s2.updDie d fun l => { l with net := l.net.newSpan s2.pattern d }

/-- The slice ends, and the tick counts towards the trip's release, on the die that serves. -/
def State.tickCount (s2 : State) (d : Die) : State :=
  { s2 with st := { s2.st with slice := if d = s2.srv then false else s2.st.slice }
            flt := { s2.flt with tripTicks := if d = s2.srv then s2.flt.tripTicks + 1 else s2.flt.tripTicks } }

/-- The lanes and the self-test at the tick. -/
def State.tickLanes (s3 : State) (d : Die) : State := (s3.swapLanes d).stTick d

/-- The perturbations at the tick. -/
def State.tickPerturb (s4 : State) (d : Die) (n : Nat) : State := if d = s4.srv then s4.ptTick n else s4

/-- The rest of it: the slice and the trip count, the lanes, the self-test, the perturbations, the timers. -/
def State.tickClose (s : State) (d : Die) (n : Nat) : State := (((s.tickCount d).tickLanes d).tickPerturb d n).timerEdge d true

theorem tick_eq {s : State} {d : Die} {meas : Nat} (htick : s.ticking d = true) (hoff : s.offSpan d meas = false) :
    doTick d meas s = (s.tickOpen d).tickClose d (s.nextTb d).spanNo := by
  unfold doTick
  rw [if_neg (by simp [htick])]
  simp only [hoff, Bool.false_eq_true, if_false]
  rfl

theorem LDie.engView_net (l : LDie) (n : Net) : ({ l with net := n } : LDie).engView = l.engView := rfl

theorem LDie.engView_push (l : LDie) (fs : List FlitRec) : (l.push fs).engView = l.engView := rfl

theorem LDie.engView_filled (l : LDie) (stdin : Tab (Option (Int × Nat))) (remote : Tab (Option Nat)) :
    ({ l with cur := { l.cur with stdin := stdin, remote := remote } } : LDie).engView = l.engView := rfl

/-- The die's part of `tickOpen` before its inputs are read. -/
def State.tickDie (s : State) (d : Die) : LDie :=
  let s0 := s.jrnFlush d
  LDie.newSpan s0.pattern (tspanNs s0.modes.spanK) (s.nextTb d).spanNo (s.modes.pwr == .deepSleep) (s0.flt.frozen != 0) s0.heldChan (s.nextTb d) (s0.die d)

theorem State.tickOpen_engView (s : State) (d : Die) : ((s.tickOpen d).die d).engView = (s.tickDie d).engView := by
  unfold State.tickOpen
  dsimp only
  rw [State.die_updDie, State.die_updDie]
  rw [LDie.engView_net, LDie.pushPos_view, LDie.engView_push, State.readPairs_same, State.die_updDie, State.die_updDie]
  exact LDie.engView_filled _ _ _

theorem State.tickOpen_peer (s : State) (d : Die) : ((s.tickOpen d).die d.peer).engView = (s.die d.peer).engView := by
  unfold State.tickOpen
  dsimp only
  rw [State.die_updDie_peer, State.die_updDie_peer, State.readPairs_same, State.die_updDie_peer, State.die_updDie_peer]
  exact State.jrnFlush_same s d d.peer

theorem State.tickOpen_only (s : State) (d : Die) : Only 0x2c0 s (s.tickOpen d) :=
  State.updDie_only _ _ _ (State.updDie_only _ _ _ (State.readPairs_only _ _ _ (State.updDie_only _ _ _ (State.updDie_only _ _ _
    (State.jrnFlush_only s d (.refl _ s) rfl) rfl) rfl) rfl) rfl) rfl

/-- A lane that runs a job when its die ticks runs none in the new span. -/
theorem State.tickOpen_lanes {s : State} {d : Die} (h : ∀ x ∈ (s.die d).eng.lanes, x.2 = .free ∨ x.2 = .spare ∨ ∃ i, x.2 = .busy i) (n : Nat) :
    (Tab.get LaneSt.free ((s.tickOpen d).die d).eng.lanes n).Up := by
  have heng : ((s.tickOpen d).die d).eng = (s.tickDie d).eng := congrArg Prod.snd (State.tickOpen_engView s d)
  have hold : ((s.jrnFlush d).die d).eng = (s.die d).eng := congrArg Prod.snd (State.jrnFlush_same s d d)
  rw [heng]
  refine Tab.get_of_forall (.inl rfl) (Tab.forall_mapV fun x hx => ?_) n
  rw [hold] at hx
  obtain hf | hs | ⟨i, hi⟩ := h x hx
  · exact .inl (by rw [hf])
  · exact .inr (by rw [hs])
  · exact .inl (by rw [hi])

theorem State.tickPerturb_only (s : State) (d : Die) (n : Nat) : Only 0x100200 s (s.tickPerturb d n) :=
  .ite (State.ptTick_only s n (.refl _ s) rfl) (.refl _ s)

theorem State.tickLanes_only (s : State) (d : Die) : Only 0x10cabf6 s (s.tickLanes d) :=
  State.stTick_only _ d (State.swapLanes_only s d (.refl _ s) rfl) rfl

theorem State.tickLanes_same {s : State} {d : Die} (hup : ∀ k, (Tab.get LaneSt.free (s.die d).eng.lanes k).Up) :
    SameDies LDie.spanView s (s.tickLanes d) := (State.swapLanes_of_up hup).trans (State.stTick_same _ d)

theorem State.tickClose_same {s : State} {d : Die} {n : Nat} (hup : ∀ k, (Tab.get LaneSt.free (s.die d).eng.lanes k).Up)
    (htmr : ∀ k, k < 8 → (s.timer (8 * d.n + k)).en = false ∨ (s.timer (8 * d.n + k)).src = false) : SameDies LDie.spanView s (s.tickClose d n) := by
  have hcount : SameDies LDie.spanView s (s.tickCount d) := .of_dies rfl rfl
  have hlanes : SameDies LDie.spanView (s.tickCount d) ((s.tickCount d).tickLanes d) := State.tickLanes_same fun k => by
    cases d <;> exact hup k
  have htimer : (((s.tickCount d).tickLanes d).tickPerturb d n).tmr = s.tmr :=
    ((State.tickPerturb_only _ d n).tmr rfl).trans ((State.tickLanes_only _ d).tmr rfl)
  unfold State.tickClose
  rw [State.timerEdge_of_none fun k hk => by unfold State.timer; rw [htimer]; exact htmr k hk]
  exact hcount.trans (hlanes.trans (.of_only (State.tickPerturb_only _ d n) rfl rfl))

/-- A tick with no timer of its own and all lanes up gives the die its new span and leaves the other die its own. -/
theorem tick_spec {s : State} {d : Die} {meas : Nat} (htick : s.ticking d = true) (hoff : s.offSpan d meas = false)
    (hl : ∀ x ∈ (s.die d).eng.lanes, x.2 = .free ∨ x.2 = .spare ∨ ∃ i, x.2 = .busy i)
    (ht : ∀ k, k < 8 → (s.timer (8 * d.n + k)).en = false ∨ (s.timer (8 * d.n + k)).src = false) :
    ((doTick d meas s).die d).spanView = (s.tickDie d).spanView ∧ ((doTick d meas s).die d.peer).spanView = (s.die d.peer).spanView := by
  have htmr (k : Nat) : (s.tickOpen d).timer k = s.timer k := congrArg (Tab.get Tmr.init · k) ((State.tickOpen_only s d).tmr rfl)
  have hclose := State.tickClose_same (n := (s.nextTb d).spanNo) (State.tickOpen_lanes hl) fun k hk => by rw [htmr]; exact ht k hk
  rw [tick_eq htick hoff]
  exact ⟨(hclose d).trans (congrArg Prod.fst (State.tickOpen_engView s d)), (hclose d.peer).trans (congrArg Prod.fst (State.tickOpen_peer s d))⟩

/-! ## The end of phase A (R52, R79) -/

theorem State.bumpOnce_reg_ne {s : State} {idx sub i j : Nat} (d : Die) (w : Nat) (h : odKey idx sub ≠ odKey i j) :
    (s.bumpOnce d w idx sub).reg i j = s.reg i j := by
  unfold State.bumpOnce
  split
  · exact State.reg_setReg_ne s _ h
  · rfl

/-- A journal record counts in the journal's own entry only. -/
theorem State.jrnRec_reg_ne {s : State} {i j : Nat} (d : Die) (typ : Nat) (body : List Byte) (h : odKey 0x8200 5 ≠ odKey i j) :
    (s.jrnRec d typ body).reg i j = s.reg i j := by
  have hset (u : State) (l : LDie) : (u.setDie d l).reg i j = u.reg i j := by cases d <;> rfl
  have hstop : (s.jrnStop d).reg i j = s.reg i j := by
    unfold State.jrnStop
    dsimp only
    split
    · exact (State.reg_setReg_ne _ _ h).trans (hset _ _)
    · exact hset _ _
  have hwrite (u : State) (c : Bool) (l : LDie) : (if c then (u.setDie d l).bumpOnce d 32 0x8200 5 else u.setDie d l).reg i j = u.reg i j := by
    split
    · exact (State.bumpOnce_reg_ne _ _ h).trans (hset _ _)
    · exact hset _ _
  have hopen (c : Bool) : (if c then s.jrnStop d else s).reg i j = s.reg i j := by
    split
    · exact hstop
    · rfl
  exact (hwrite _ _ _).trans (hopen _)

/-- What the end of phase A of one channel leaves alone: all but dies and entries, the die's span, and what selects the change-of-state events. -/
structure ChanEnds (s u : State) : Prop where
  only : Only 0x2c0 s u
  view : SameDies LDie.spanView s u
  cos : ∀ n, u.reg (0x4400 + n) 1 = s.reg (0x4400 + n) 1

theorem ChanEnds.refl (s : State) : ChanEnds s s := ⟨.refl _ s, .refl s, fun _ => rfl⟩

theorem ChanEnds.trans {s t u : State} (h : ChanEnds s t) (k : ChanEnds t u) : ChanEnds s u :=
  ⟨k.only.step h.only rfl, h.view.trans k.view, fun n => (k.cos n).trans (h.cos n)⟩

theorem ChanEnds.ite {s t u : State} {c : Prop} [Decidable c] (h : ChanEnds s t) (k : ChanEnds s u) : ChanEnds s (if c then t else u) := by
  split
  · exact h
  · exact k

theorem ChanEnds.setDie (s : State) (d : Die) {l : LDie} (h : l.spanView = (s.die d).spanView) : ChanEnds s (s.setDie d l) :=
  ⟨State.setDie_only s d l (.refl _ s) rfl, .setDie d h, fun n => by cases d <;> rfl⟩

theorem ChanEnds.setReg (s : State) {idx sub : Nat} (v : Nat) (h : ∀ n, odKey idx sub ≠ odKey (0x4400 + n) 1) : ChanEnds s (s.setReg idx sub v) :=
  ⟨State.setReg_only s _ _ _ (.refl _ s) rfl, .of_dies rfl rfl, fun n => State.reg_setReg_ne s v (h n)⟩

theorem ChanEnds.bumpOnce (s : State) (d : Die) (w : Nat) {idx sub : Nat} (h : ∀ n, odKey idx sub ≠ odKey (0x4400 + n) 1) :
    ChanEnds s (s.bumpOnce d w idx sub) := by
  unfold State.bumpOnce
  exact .ite (.setReg s _ h) (.refl s)

theorem ChanEnds.event (s : State) (d : Die) (k : Nat) (l : List Byte) : ChanEnds s (s.event d k l) :=
  ⟨State.event_only s d k l (.refl _ s) rfl, State.event_same (fun _ _ => rfl) s d k l,
    fun _ => State.jrnRec_reg_ne d _ _ fun h => by have := (odKey_inj (by decide) (by decide)).mp h; omega⟩

/-- A change-of-state event that no entry selects does nothing (R183). -/
theorem State.cosEvent_of_off {s : State} {n : Nat} (h : s.reg (0x4400 + n) 1 = 0) (st edge : Nat) : s.cosEvent n st edge = s := by
  unfold State.cosEvent
  dsimp only
  rw [h, if_pos (by split <;> rfl)]

/-- Without a Pattern and with no change-of-state event selected a channel's end of phase A stays in the dies' channels and its own entries. -/
theorem State.chanEnd_ends {s : State} (d : Die) {n : Nat} (hn : n < 256) (hp : s.pattern = none) (hcos : ∀ n, s.reg (0x4400 + n) 1 = 0) :
    ChanEnds s (s.chanEnd d n) := by
  have hown (j : Nat) (hj : j < 256) (m : Nat) : odKey (0x4300 + n) j ≠ odKey (0x4400 + m) 1 := fun h => by
    have := (odKey_inj (by decide) hj).mp h
    omega
  unfold State.chanEnd
  rw [hp]
  extract_lets l c f v0 x1 nch v1 x2 st old l1 cur s1 s2 changed s3 s4
  have h1 : ChanEnds s s1 := .setDie s d rfl
  have h2 : ChanEnds s s2 := h1.trans (.ite ((ChanEnds.event _ _ _ _).trans (.bumpOnce _ _ _ (hown 4 (by decide)))) (.refl _))
  have h3 : ChanEnds s s3 := h2.trans (.ite (.setReg _ _ (hown 1 (by decide))) (.refl _))
  have h4 : s4.cosEvent n st (f.stamp c) = s3 := State.cosEvent_of_off ((h3.cos n).trans (hcos n)) _ _
  rw [h4]
  exact .ite h3 h3

theorem ChanEnds.pattern {s u : State} (h : ChanEnds s u) : u.pattern = s.pattern := by
  unfold State.pattern State.testAccess
  rw [h.only.modes rfl, h.only.pat rfl]

theorem State.chanEnd_foldl (d : Die) {l : List Nat} {s : State} (hl : ∀ n ∈ l, n < 256) (hp : s.pattern = none)
    (hcos : ∀ n, s.reg (0x4400 + n) 1 = 0) : ChanEnds s (l.foldl (State.chanEnd d) s) := by
  induction l generalizing s with
  | nil => exact .refl s
  | cons n l ih =>
    have h1 := State.chanEnd_ends d (hl n List.mem_cons_self) hp hcos
    exact h1.trans (ih (fun m hm => hl m (List.mem_cons_of_mem _ hm)) (h1.pattern.trans hp) fun m => (h1.cos m).trans (hcos m))

theorem State.chanNos_lt {s : State} {n : Nat} (h : n ∈ s.chanNos) : n < 256 := by
  unfold State.chanNos at h
  obtain h | h := List.mem_append.mp h
  · obtain ⟨f, hf, hn⟩ := List.mem_flatMap.mp h
    obtain ⟨k, hk, rfl⟩ := List.mem_map.mp hn
    have hk := List.mem_range.mp hk
    have hf : f < 4 := by
      unfold State.fdies at hf
      split_ifs at hf <;> simp at hf <;> omega
    omega
  · simp at h
    omega

/-- With every image delivered none is missing. -/
theorem State.missingImages_of_all {s : State} {d : Die} (h : ∀ f ∈ s.fdies, bitAt (s.die d).cur.images f = true) : s.missingImages d = s := by
  have hnone : s.fdies.filter (fun f => !bitAt (s.die d).cur.images f) = [] := List.filter_eq_nil_iff.mpr fun f hf => by simp [h f hf]
  unfold State.missingImages
  rw [hnone]
  cases d <;> rfl

/-- The slot that was opened for the span takes the sealed snapshot (R79). -/
theorem LDie.freeze_slot {l : LDie} {snap : Tab Snap} {n : Nat} (hsnap : l.snap = snap) (hspan : l.cur.span = n)
    (hopen : (Tab.get Snap.empty snap (n % 8)).opened = true) (hslot : (Tab.get Snap.empty snap (n % 8)).span = n) :
    Tab.get Snap.empty l.freeze.snap (n % 8) = l.freeze.cur := by
  subst hsnap hspan
  have hcond : ((Tab.get Snap.empty l.snap (l.cur.seal.span % 8)).opened && (Tab.get Snap.empty l.snap (l.cur.seal.span % 8)).span == l.cur.seal.span) = true := by
    simp [Snap.seal, hopen, hslot]
  unfold LDie.freeze
  dsimp only
  rw [if_pos hcond]
  exact Tab.get_set_self _ _ _ _

theorem phaseAEnd_eq {s : State} {d : Die} (htick : s.ticking d = true) (hphase : (s.die d).tb.phase = .a) (hp : s.pattern = none)
    (himg : ∀ f ∈ s.fdies, bitAt (s.die d).cur.images f = true) (hcos : ∀ n, s.reg (0x4400 + n) 1 = 0) :
    ∃ u, ChanEnds s u ∧ doPhaseAEnd d s = u.updDie d LDie.freeze := by
  have h := State.chanEnd_foldl d (fun _ => State.chanNos_lt (s := s)) hp hcos
  refine ⟨_, h, ?_⟩
  have hp' : ((s.chanNos.foldl (State.chanEnd d) s).updDie d LDie.freeze).pattern = none :=
    Eq.trans (by cases d <;> rfl) (h.pattern.trans hp)
  unfold doPhaseAEnd
  rw [if_neg (by simp [htick, hphase]), State.missingImages_of_all himg]
  simp only [hp, hp']

/-- Die `d` has nothing left to evaluate in its span. -/
def State.evalDone (s : State) (d : Die) : Bool :=
  match s.pattern with
  | some p => (s.die d).eng.complete p || !s.evals d
  | none => true

theorem State.evalDone_of_idle {s : State} {d : Die} (h : s.pattern = none ∨ s.evals d = false) : s.evalDone d = true := by
  unfold State.evalDone
  obtain h | h := h
  · rw [h]
  · split
    · simp [h]
    · rfl

theorem State.evalDone_of_pattern {s : State} {d : Die} {p : Pattern} (hp : s.pattern = some p) :
    s.evalDone d = ((s.die d).eng.complete p || !s.evals d) := by
  unfold State.evalDone
  rw [hp]

/-- Phase E ends in C where nothing is left to evaluate, and else in its overrun (R53). -/
theorem phaseEEnd_eq {s : State} {d : Die} (htick : s.ticking d = true) (hphase : (s.die d).tb.phase = .e) :
    doPhaseEEnd d s = s.updDie d fun l => { l with tb := { l.tb with phase := if s.evalDone d then .c else .el } } := by
  unfold doPhaseEEnd
  rw [if_neg (by simp [htick, hphase])]
  rfl

/-- Settles O27: a tick opens the span through `tickOpen`, and its rest changes no span; the ends of the phases act in their own phase only. -/
theorem spanRunsItsPhases : Obligations.SpanRunsItsPhases := by
  unfold Obligations.SpanRunsItsPhases
  refine ⟨fun s d meas h => ⟨?_, ?_, ?_, ?_⟩, fun s d => ⟨fun h => ?_, fun h => ?_⟩, fun s d meas htick => ?_, fun s d htick hphase => ?_,
    fun s d htick hphase => ⟨fun h => ?_, fun p hp hev hdone => ?_⟩⟩
  · exact congrArg Host.Outcome.next (if_pos (by simp [h]))
  · exact congrArg Host.Outcome.next (if_pos (by simp [h]))
  · exact congrArg Host.Outcome.next (if_pos (by simp [h]))
  · exact congrArg Host.Outcome.next (if_pos (by simp [h]))
  · exact congrArg Host.Outcome.next (if_pos (by simp [h]))
  · exact congrArg Host.Outcome.next (if_pos (by simp [h]))
  · have honly := doTick_only d meas s (.refl 0x11cfbf6 s) rfl
    refine ⟨doTick d meas s, rfl, honly.pers rfl, honly.bkp rfl, honly.keys rfl, honly.clk rfl, honly.pat rfl, honly.time rfl, fun hsteer hl ht => ?_⟩
    have hoff : s.offSpan d meas = false := by
      unfold State.offSpan
      dsimp only
      obtain h | h := hsteer
      · rw [h]
        rfl
      · simp [h]
    obtain ⟨hd, hpeer⟩ := tick_spec htick hoff hl ht
    have htb : ((doTick d meas s).die d).tb = s.nextTb d := congrArg (·.1) hd
    have hopened : ((doTick d meas s).die d).cur.opened = true := congrArg (·.2.1) hd
    have hfrozen : ((doTick d meas s).die d).cur.frozen = false := congrArg (·.2.2.1) hd
    have hspan : ((doTick d meas s).die d).cur.span = (s.nextTb d).spanNo := congrArg (·.2.2.2.1) hd
    have htickNs : ((doTick d meas s).die d).cur.tickNs = (s.nextTb d).tickNs := congrArg (·.2.2.2.2.1) hd
    exact ⟨htb, (congrArg Timebase.phase htb :), hopened, hfrozen, hspan, htickNs, congrArg (·.1) hpeer⟩
  · have honly := doPhaseAEnd_only d s (.refl 0x10cbbf6 s) rfl
    refine ⟨doPhaseAEnd d s, rfl, honly.pers rfl, honly.bkp rfl, honly.keys rfl, honly.clk rfl, fun hp himg hcos => ?_⟩
    obtain ⟨u, hu, he⟩ := phaseAEnd_eq htick hphase hp himg hcos
    have hview : (u.die d).spanView = (s.die d).spanView := hu.view d
    have htb : (u.die d).tb = (s.die d).tb := congrArg (·.1) hview
    have hspan : (u.die d).cur.span = (s.die d).cur.span := congrArg (·.2.2.2.1) hview
    have hsnap : (u.die d).snap = (s.die d).snap := congrArg (·.2.2.2.2.2) hview
    refine ⟨honly.pat rfl, ?_⟩
    rw [he, State.die_updDie, State.die_updDie_peer]
    refine ⟨?_, congrArg (·.1) (hu.view d.peer), rfl, hspan, ?_, fun hopen hslot => ?_⟩
    · change ({ (u.die d).tb with phase := .e } : Timebase) = _
      rw [htb]
    · exact eq_of_beq (Snap.seal_intact (u.die d).cur)
    · exact LDie.freeze_slot hsnap hspan hopen hslot
  · have hdone : s.evalDone d = true := by
      obtain h | h | ⟨p, hp, hc⟩ := h
      · exact State.evalDone_of_idle (.inl h)
      · exact State.evalDone_of_idle (.inr h)
      · simp [State.evalDone_of_pattern hp, hc]
    have heq := phaseEEnd_eq htick hphase
    rw [hdone] at heq
    exact congrArg Host.Outcome.next heq
  · have heq := phaseEEnd_eq htick hphase
    rw [show s.evalDone d = false by simp [State.evalDone_of_pattern hp, hdone, hev]] at heq
    exact congrArg Host.Outcome.next heq

end Sys2Proof.Machine

namespace Sys2Proof.Machine

/-! ## A timer's matches and reloads (R410 to R412, Table 16-4) -/

theorem Tmr.toMatch_of_off {x : Tmr} (h : x.en = false) : x.toMatch = (x, false) := by
  unfold Tmr.toMatch
  rw [h]
  rfl

/-- What the source edges up to a match leave: COUNT at CMP, MATCH set, one match more. -/
def Tmr.Matched (x : Tmr) (o : Tmr × Bool) : Prop :=
  o.1.isMatch = true ∧ o.1.count = o.1.cmp ∧ o.1.matches_ = (x.matches_ + 1) % 2 ^ 32

theorem Tmr.transfer_matches (x : Tmr) : x.transfer.matches_ = x.matches_ := by
  unfold Tmr.transfer
  split <;> rfl

theorem Tmr.eq_iff (x : Tmr) : x.eq = true ↔ x.count = x.cmp := beq_iff_eq

/-- Table 16-4 aside, a timer in period mode whose CMP for the next period is 0 has no next match; every other enabled one does. -/
theorem Tmr.toMatch_matched {x : Tmr} (hen : x.en = true) (hnext : ¬ (x.period = true ∧ x.count = x.cmp ∧ x.nextPend = true ∧ x.next = 0))
    (hcmp : ¬ (x.period = true ∧ x.count = x.cmp ∧ x.nextPend = false ∧ x.cmp = 0)) : x.Matched x.toMatch := by
  unfold Tmr.toMatch
  rw [if_neg (by simp [hen])]
  split
  next hper =>
    split
    next heq =>
      have heq := x.eq_iff.mp heq
      have hpos : ({ x with count := 0 } : Tmr).transfer.cmp ≠ 0 := fun h0 => by
        cases hpend : x.nextPend
        · exact hcmp ⟨hper, heq, hpend, by simpa [Tmr.transfer, hpend] using h0⟩
        · exact hnext ⟨hper, heq, hpend, by simpa [Tmr.transfer, hpend] using h0⟩
      dsimp only
      rw [if_neg hpos]
      exact ⟨rfl, rfl, congrArg (fun m => (m + 1) % 2 ^ 32) (Tmr.transfer_matches { x with count := 0 })⟩
    next => exact ⟨rfl, rfl, rfl⟩
  next =>
    refine ⟨rfl, rfl, ?_⟩
    dsimp only [Tmr.match_]
    split
    · rw [Tmr.transfer_matches]
    · rfl

/-- A reload is the edge at which COUNT equals CMP in period mode: it never matches. -/
theorem Tmr.edge_of_reload {x : Tmr} (hen : x.en = true) (hper : x.period = true) (heq : x.count = x.cmp) :
    x.edge = ({ ({ x with count := 0 } : Tmr).transfer with xfer := false }, false) := by
  have heq := x.eq_iff.mpr heq
  simp [Tmr.edge, Tmr.count1, hen, hper, heq]

theorem State.timer_putTimer_ne (s : State) {k j : Nat} (x : Tmr × Bool) (h : j ≠ k) : (s.putTimer k x).timer j = s.timer j := by
  have hset : (s.setTimer k x.1).timer j = s.timer j := Tab.get_set_ne _ _ _ _ _ h
  unfold State.putTimer
  dsimp only
  split
  · exact (State.timer_ringPut _ _ _ _).trans hset
  · exact hset

theorem timerMatch_eq {s : State} (d : Die) (n : Fin 8) (h : s.modes.mode ≠ .shelf) :
    exec (.timerMatch d n) s = .next (s.putTimer (8 * d.n + n.val) (s.timer (8 * d.n + n.val)).toMatch) :=
  congrArg Host.Outcome.next (if_neg h)

/-- Only in period mode with COUNT at CMP has an enabled timer a reload due. -/
theorem timerReload_of_not_due {s : State} (d : Die) (n : Fin 8)
    (h : s.modes.mode = .shelf ∨ (s.timer (8 * d.n + n.val)).en = false ∨ (s.timer (8 * d.n + n.val)).period = false
      ∨ (s.timer (8 * d.n + n.val)).count ≠ (s.timer (8 * d.n + n.val)).cmp) : exec (.timerReload d n) s = .next s := by
  refine congrArg Host.Outcome.next (if_pos ?_)
  rw [Bool.or_eq_true, decide_eq_true_iff, Bool.not_eq_true', Bool.and_eq_false_iff, Bool.and_eq_false_iff, ← Bool.not_eq_true (Tmr.eq _), Tmr.eq_iff]
  tauto

theorem timerReload_eq {s : State} {d : Die} {n : Fin 8} (h : s.modes.mode ≠ .shelf) (hen : (s.timer (8 * d.n + n.val)).en = true)
    (hper : (s.timer (8 * d.n + n.val)).period = true) (heq : (s.timer (8 * d.n + n.val)).count = (s.timer (8 * d.n + n.val)).cmp) :
    exec (.timerReload d n) s = .next (s.putTimer (8 * d.n + n.val) (s.timer (8 * d.n + n.val)).edge) :=
  congrArg Host.Outcome.next (if_neg (by simp [h, hen, hper, (Tmr.eq_iff _).mpr heq]))

theorem Tmr.writeCmp_of_off {x : Tmr} (v : Nat) (h : x.en = false) : x.writeCmp v = ({ x with cmp := v }, false) := by
  simp [Tmr.writeCmp, h]

theorem Tmr.writeCmp_same {x : Tmr} : x.writeCmp x.cmp = (x, false) := by
  simp [Tmr.writeCmp]

/-- A write of another value where COUNT does not stand at CMP. -/
theorem Tmr.writeCmp_off_match {x : Tmr} {v : Nat} (hen : x.en = true) (hv : v ≠ x.cmp) (hc : x.count ≠ x.cmp) :
    x.writeCmp v = if v = x.count then ({ x with cmp := v }.match_, true)
      else if v < x.count then ({ x with cmp := v, late := true }, false) else ({ x with cmp := v }, false) := by
  simp [Tmr.writeCmp, hen, hv, Tmr.eq, hc]

/-- A write of another value where COUNT stands at CMP. -/
theorem Tmr.writeCmp_on_match {x : Tmr} {v : Nat} (hen : x.en = true) (hv : v ≠ x.cmp) (hc : x.count = x.cmp) :
    x.writeCmp v = if v < x.count then ({ x with cmp := v, late := true }, false)
      else if x.period = true then ({ x with cmp := v, double := true }, false) else ({ x with cmp := v }, false) := by
  simp [Tmr.writeCmp, hen, hv, Tmr.eq, hc]

theorem Tmr.writeCmp_cmp_count (x : Tmr) (v : Nat) : (x.writeCmp v).1.cmp = v ∧ (x.writeCmp v).1.count = x.count := by
  unfold Tmr.writeCmp
  split_ifs <;> exact ⟨rfl, rfl⟩

/-- Settles O44: the edges up to a match, a reload and the outcomes of Table 16-4 are the timer's own operations; a ring entry moves no timer. -/
theorem timerMatchesFollowTheCount : Obligations.TimerMatchesFollowTheCount := by
  unfold Obligations.TimerMatchesFollowTheCount
  refine ⟨fun s k d n v => ⟨tmrCtrl_checked s k d n v, tmrCmp_checked s k d n v, tmrCmpNext_checked s k d n v, tmrCount_checked s k d n v⟩,
    fun s d n => ⟨fun h => ⟨congrArg Host.Outcome.next (if_pos h), timerReload_of_not_due d n (.inl h)⟩,
      fun h => ⟨?_, timerReload_of_not_due d n (.inr (.inl h))⟩, fun hmode hen hnext hcmp => ?_, fun hmode hen hper heq => ?_,
      fun h => timerReload_of_not_due d n (.inr (.inr h))⟩, fun x v => ⟨fun h => Tmr.writeCmp_of_off v h, fun hen => ?_⟩⟩
  · by_cases hmode : s.modes.mode = .shelf
    · exact ⟨s, congrArg Host.Outcome.next (if_pos hmode), rfl⟩
    · exact ⟨_, timerMatch_eq d n hmode, by rw [State.timer_putTimer_self, Tmr.toMatch_of_off h]⟩
  · have honly := State.putTimer_only s (8 * d.n + n.val) (s.timer (8 * d.n + n.val)).toMatch (.refl 0x10cfbf6 s) rfl
    obtain ⟨hmatch, hcount, hmatches⟩ := Tmr.toMatch_matched hen hnext hcmp
    refine ⟨_, timerMatch_eq d n hmode, ?_, ?_, ?_, fun j hj => State.timer_putTimer_ne s _ hj, honly.pat rfl, honly.pers rfl, honly.keys rfl⟩
    all_goals rw [State.timer_putTimer_self]
    · exact hmatch
    · exact hcount
    · exact hmatches
  · have honly := State.putTimer_only s (8 * d.n + n.val) (s.timer (8 * d.n + n.val)).edge (.refl 0x10cfbf6 s) rfl
    refine ⟨_, timerReload_eq hmode hen hper heq, ?_, ?_, ?_, fun j hj => State.timer_putTimer_ne s _ hj, honly.pat rfl, honly.pers rfl, honly.keys rfl⟩
    all_goals
      rw [State.timer_putTimer_self, Tmr.edge_of_reload hen hper heq]
      unfold Tmr.transfer
      cases (s.timer (8 * d.n + n.val)).nextPend <;> rfl
  · obtain ⟨hcmp, hcount⟩ := Tmr.writeCmp_cmp_count x v
    refine ⟨hcmp, hcount, fun h => ?_, fun hv hc => ?_, fun hv hc => ?_⟩
    · rw [h]
      exact Tmr.writeCmp_same
    · rw [Tmr.writeCmp_off_match hen hv hc]
      refine ⟨fun h => ?_, fun h => ?_, fun h => ?_⟩
      · rw [if_neg (by omega), if_neg (by omega)]
      · rw [if_pos h]
        exact ⟨rfl, rfl, rfl⟩
      · rw [if_neg (by omega), if_pos h]
    · rw [Tmr.writeCmp_on_match hen hv hc]
      refine ⟨fun h => ?_, fun h => if_pos h⟩
      rw [if_neg (by omega)]
      cases x.period <;> simp

end Sys2Proof.Machine

namespace Sys2Proof.Machine

/-! ## Time limits (log 31) -/

theorem Engine.laneOf_busy {e : Engine} {q : Nat} {k : Fin 17} (h : e.laneOf q = some k) : Tab.get LaneSt.free e.lanes k = .busy q := by
  unfold Engine.laneOf at h
  obtain ⟨n, hn, rfl⟩ := Option.map_eq_some_iff.mp h
  have hlt : n < 17 := List.mem_range.mp (List.mem_of_find?_eq_some hn)
  have hbusy : (Tab.get LaneSt.free e.lanes n == .busy q) = true := List.find?_some (p := fun n => Tab.get LaneSt.free e.lanes n == .busy q) hn
  have hbusy := eq_of_beq hbusy
  rwa [show (Fin.ofNat 17 n).val = n from Nat.mod_eq_of_lt hlt]

theorem Engine.not_busy_of_laneOf {e : Engine} {q : Nat} (h : e.laneOf q = none) (k : Nat) (hk : k < 17) :
    Tab.get LaneSt.free e.lanes k ≠ .busy q := by
  unfold Engine.laneOf at h
  have hnone := List.find?_eq_none.mp (Option.map_eq_none_iff.mp h) k (List.mem_range.mpr hk)
  exact fun hbusy => hnone (by simp [hbusy])

theorem State.limLane_eq_some_iff (s : State) (d : Die) (n : Nat) (lim : Lim) (k : Fin 17) : s.limLane d n lim = some k ↔
    ∃ p q i, s.pattern = some p ∧ p.pos n = some q ∧ p.insts[q]? = some i ∧ lim (s.env d) p q i ((s.env d).comSt p q) = true
      ∧ (s.die d).eng.laneOf q = some k := by
  unfold State.limLane
  constructor
  · intro h
    obtain ⟨p, hp, h⟩ := Option.bind_eq_some_iff.mp h
    obtain ⟨q, hq, h⟩ := Option.bind_eq_some_iff.mp h
    obtain ⟨i, hi, h⟩ := Option.bind_eq_some_iff.mp h
    split at h
    next hlim => exact ⟨p, q, i, hp, hq, hi, hlim, h⟩
    next => cases h
  · rintro ⟨p, q, i, hp, hq, hi, hlim, hlane⟩
    rw [hp, Option.bind_some, hq, Option.bind_some, hi, Option.bind_some, if_pos hlim]
    exact hlane

theorem jobComplete_of_stopped {s : State} {d : Die} (lane : Fin 17) (h : (s.die d).eng.active = false ∨ s.onRef d = true) :
    doJobComplete d lane s = s := by
  have hstop : (!(s.die d).eng.active || s.onRef d) = true := by
    obtain h | h := h <;> simp [h]
  unfold doJobComplete
  dsimp only
  split
  · exact if_pos hstop
  · rfl

/-- The lane's job of position `q` has the result `r` (R73). -/
def State.laneDone (s : State) (d : Die) (lane q : Nat) (r : Res) : State :=
  s.setDie d { (s.die d) with eng := { (s.die d).eng with
    lanes := Tab.set .free (s.die d).eng.lanes lane .free, done := (s.die d).eng.done ++ [(q, r)] } }

section
variable {s : State} {d : Die} {lane : Fin 17} {p : Pattern} {q : Nat} (hp : s.pattern = some p)
  (hq : Tab.get LaneSt.free (s.die d).eng.lanes lane = .busy q) (hact : (s.die d).eng.active = true) (href : s.onRef d = false)
include hp hq hact href

/-- A lane's job ends with its result (R73, R75). -/
theorem jobComplete_of_result {r : Res} (hr : runJob (s.env d) p q = some r) :
    doJobComplete d lane s = ((s.laneDone d lane q r).advance d p).settleReplay d := by
  unfold doJobComplete
  dsimp only
  rw [hp, hq]
  dsimp only
  rw [if_neg (by simp [hact, href]), hr]
  rfl

/-- A job whose words are damaged fails its lane (R76). -/
theorem jobComplete_of_damage (hr : runJob (s.env d) p q = none) : doJobComplete d lane s = s.laneFail d lane p := by
  unfold doJobComplete
  dsimp only
  rw [hp, hq]
  dsimp only
  rw [if_neg (by simp [hact, href]), hr]

end

theorem State.expire_of_none {s : State} {d : Die} {n : Nat} {lim : Lim} (h : s.limLane d n lim = none) : s.expire d n lim = s := by
  unfold State.expire
  rw [h]

theorem State.expire_of_some {s : State} {d : Die} {n : Nat} {lim : Lim} {k : Fin 17} (h : s.limLane d n lim = some k) :
    s.expire d n lim = doJobComplete d k s := by
  unfold State.expire
  rw [h]

/-- What the expiry of a limit of the block `n` leaves. -/
def State.Ends (s : State) (d : Die) (n : Nat) (lim : Lim) (t : State) : Prop :=
  (s.limLane d n lim = none → t = s)
  ∧ ((s.die d).eng.active = false ∨ s.onRef d = true → t = s)
  ∧ (∀ p q k, s.pattern = some p → s.limLane d n lim = some k → p.pos n = some q → (s.die d).eng.active = true → s.onRef d = false →
      (∀ r, runJob (s.env d) p q = some r → t = ((s.laneDone d k q r).advance d p).settleReplay d)
      ∧ (runJob (s.env d) p q = none → t = s.laneFail d k p))
  ∧ t = { s with modes := t.modes, pow := t.pow, flt := t.flt, leases := t.leases, a := t.a, b := t.b, fd := t.fd, regs := t.regs, br := t.br, rings := t.rings, crc := t.crc, otp := t.otp, st := t.st, upd := t.upd, pat := t.pat, freeCtr := t.freeCtr }

theorem State.expire_ends (s : State) (d : Die) (n : Nat) (lim : Lim) : s.Ends d n lim (s.expire d n lim) := by
  refine ⟨State.expire_of_none, fun hstop => ?_, fun p q k hp hlane hq hact href => ?_, (State.expire_only s d n lim (.refl 0x92cbbf6 s) rfl).frame⟩
  · cases hlane : s.limLane d n lim with
    | none => exact State.expire_of_none hlane
    | some k => exact (State.expire_of_some hlane).trans (jobComplete_of_stopped k hstop)
  · obtain ⟨p', q', i, hp', hq', -, -, hbusy⟩ := (s.limLane_eq_some_iff d n lim k).mp hlane
    obtain rfl : p' = p := Option.some_inj.mp (hp'.symm.trans hp)
    obtain rfl : q' = q := Option.some_inj.mp (hq'.symm.trans hq)
    have hbusy := Engine.laneOf_busy hbusy
    exact ⟨fun r hr => (State.expire_of_some hlane).trans (jobComplete_of_result hp hbusy hact href hr),
      fun hr => (State.expire_of_some hlane).trans (jobComplete_of_damage hp hbusy hact href hr)⟩

/-- Settles O38: each of the 22 rows is `State.expire` with its own limit, and an expiry is the end of the job of its block. -/
theorem timeLimitsActOnTheirInstance : Obligations.TimeLimitsActOnTheirInstance := by
  unfold Obligations.TimeLimitsActOnTheirInstance
  refine ⟨fun s d inst => ?_, State.limLane_eq_some_iff, fun e q k => Engine.laneOf_busy, fun e q => Engine.not_busy_of_laneOf⟩
  have hrow (n : Nat) (lim : Lim) : s.Ends d n lim (s.expire d n lim) := s.expire_ends d n lim
  exact ⟨⟨_, rfl, hrow _ _⟩, ⟨_, rfl, hrow _ _⟩, ⟨_, rfl, hrow _ _⟩, ⟨_, rfl, hrow _ _⟩, ⟨_, rfl, hrow _ _⟩, ⟨_, rfl, hrow _ _⟩, ⟨_, rfl, hrow _ _⟩,
    ⟨_, rfl, hrow _ _⟩, ⟨_, rfl, hrow _ _⟩, ⟨_, rfl, hrow _ _⟩, ⟨_, rfl, hrow _ _⟩, ⟨_, rfl, hrow _ _⟩, ⟨_, rfl, hrow _ _⟩, ⟨_, rfl, hrow _ _⟩,
    ⟨_, rfl, hrow _ _⟩, ⟨_, rfl, hrow _ _⟩, ⟨_, rfl, hrow _ _⟩, ⟨_, rfl, hrow _ _⟩, ⟨_, rfl, hrow _ _⟩, ⟨_, rfl, hrow _ _⟩, ⟨_, rfl, hrow _ _⟩,
    ⟨_, rfl, hrow _ _⟩⟩

end Sys2Proof.Machine

namespace Sys2Proof.Machine

/-! ## Test access and JTAG scan (R448, R466 to R469) -/

theorem testOpen_checked (s : State) (seat : Fin 8) (v : Nat) :
    Checked s (.testOpen seat v)
      [(!(if v = 0 then s.has seat 3 else s.testMayOpen seat), .rights), (v == 1 && !s.inConf, .mode), (decide (2 ≤ v), .range)]
      fun u => if v = 0 then u.testClose else if u.tst.state = 0 then u.testRise seat 1 else u :=
  State.refuse_checked _ _ _ _ rfl

theorem testChal_checked (s : State) (seat : Fin 8) :
    Checked s (.testChal seat) [(!s.has seat 3, .rights)]
      fun u => { (u.randNat 8).2 with tst := { (u.randNat 8).2.tst with chal := some (u.randNat 8).1 } }.reply (leBytes 8 (u.randNat 8).1) :=
  State.refuse_checked _ _ _ _ rfl

theorem State.testRise_of_closed {s : State} (h : s.tst.state = 0) (seat st : Nat) :
    s.testRise seat st = { s with tst := { s.tst with state := st, seat := seat } }.setReg 0xD015 0 0 := by
  unfold State.testRise
  exact if_pos h

/-- A vendor response that verifies for a code that the lifecycle state allows (R469). -/
def State.testGood (s : State) (code : Nat) (sig : List Byte) : Bool :=
  s.tst.chal.isSome && s.testCode code && s.anchorSig 0 (s.testMsg code) sig

/-- The challenge is spent. -/
def State.testSpent (s : State) : State := { s with tst := { s.tst with chal := none } }

/-- A good response clears the count of refusals. -/
def State.testHeard (s : State) : State := { s with tst := { s.tst with chal := none, refusals := 0 } }

/-- What a response does that is heard, whatever it holds. -/
def State.testAnswer (seat : Fin 8) (code : Nat) (sig : List Byte) (u : State) : State :=
  if !u.testGood code sig then u.testSpent.testRefuse
  else if code = 2 then (if u.testHeard.pow.scan then u.testHeard else u.testHeard.scanStart)
  else if !u.inConf then u.testSpent.ans .mode
  else if u.tst.state = 3 || (u.tst.state != 0 && u.tst.seat != seat.val) then u.testSpent.ans .rights
  else u.testHeard.testRise seat 2

theorem testResp_checked (s : State) (seat : Fin 8) (code : Nat) (sig : List Byte) :
    Checked s (.testResp seat code sig) [(s.tst.lock, .busy), (!s.has seat 3, .rights)] (State.testAnswer seat code sig) :=
  State.refuse_checked _ _ _ _ rfl

section
variable {u : State} {seat : Fin 8} {code : Nat} {sig : List Byte}

theorem State.testAnswer_of_bad (h : u.testGood code sig = false) : u.testAnswer seat code sig = u.testSpent.testRefuse :=
  if_pos (by simp [h])

theorem State.testAnswer_of_scan (h : u.testGood code sig = true) (hcode : code = 2) :
    u.testAnswer seat code sig = if u.pow.scan = true then u.testHeard else u.testHeard.scanStart := by
  unfold State.testAnswer
  rw [if_neg (by simp [h]), if_pos hcode]
  rfl

theorem State.testAnswer_of_access (h : u.testGood code sig = true) (hcode : code ≠ 2) :
    u.testAnswer seat code sig = if u.inConf = false then u.testSpent.ans .mode
      else if u.tst.state = 3 ∨ u.tst.state ≠ 0 ∧ u.tst.seat ≠ seat.val then u.testSpent.ans .rights else u.testHeard.testRise seat 2 := by
  unfold State.testAnswer
  rw [if_neg (by simp [h]), if_neg hcode]
  simp

end

/-- The scan latch is set, and both trip lines are asserted. -/
def State.scanTrip (s : State) : State := { s with pow := { s.pow with scan := true } }.tripNow

/-- SAFE under the scan latch, entered or kept, with every zone locked. -/
def State.scanSafe (s : State) : State := if s.modes.mode = .safe then s.lockBoth.lockoutAll else s.enterSafe

/-- Every session ends, and derived keys and SRAM are wiped. -/
def State.scanEnd (s : State) : State :=
  ((((List.range 8).foldl (fun (s : State) k => s.endSession k) s).updDie .a LDie.dropKeys).updDie .b LDie.dropKeys).wipeSram

/-- The keys are zeroised, and their read-back is due. -/
def State.scanWipe (s4 : State) : State :=
  { s4 with
    keys := { s4.keys with wiped := true }
    otp := { s4.otp with zeroised := true }
    upd := { s4.upd with sess := none, chal := none }
    br := { s4.br with seats := Tab.mapV Seat.init (fun (x : Seat) => { x with chal := none, kept := [] }) s4.br.seats }
    tst := { s4.tst with zeroise := true } }

theorem State.scanStart_eq (s : State) : s.scanStart = s.scanTrip.scanSafe.scanEnd.scanWipe := by
  unfold State.scanStart State.scanWipe State.scanEnd State.scanSafe State.scanTrip
  with_reducible rfl

theorem State.scanSafe_spec (s : State) : s.scanSafe.modes.mode = .safe ∧ s.scanSafe.pow.scan = s.pow.scan ∧ s.scanSafe.flt = s.flt
    ∧ s.scanSafe.otp = s.otp := by
  unfold State.scanSafe
  split
  next hsafe =>
    have honly := State.lockoutAll_only _ (State.lockBoth_only s (.refl 0x2c2 s) rfl) rfl
    exact ⟨(honly.mode rfl).trans hsafe, congrArg Power.scan (honly.pow rfl), honly.flt rfl, honly.otp rfl⟩
  next =>
    obtain ⟨hmode, -, -, -, w, hpow⟩ := s.enterSafe_spec
    exact ⟨hmode, (congrArg Power.scan hpow :), s.enterSafe_flt, s.enterSafe_otp⟩

theorem State.scanEnd_only (s : State) : Only 0x101ac0 s s.scanEnd := by
  have hends : Only 0x100a00 s ((List.range 8).foldl (fun (s : State) k => s.endSession k) s) :=
    .foldl (.refl _ s) fun t k h => State.endSession_only t k h rfl
  exact State.wipeSram_only _ (State.updDie_only _ _ _ (State.updDie_only _ _ _ (hends.step (.refl _ s) rfl) rfl) rfl) rfl

/-- The steps of R448 that begin at once. -/
theorem State.scanStart_spec (s : State) : s.scanStart.pow.scan = true ∧ s.scanStart.flt.tripA = true ∧ s.scanStart.flt.tripB = true
    ∧ s.scanStart.modes.mode = .safe ∧ s.scanStart.keys.wiped = true ∧ s.scanStart.otp.zeroised = true ∧ s.scanStart.tst.zeroise = true
    ∧ s.scanStart.upd.sess = none ∧ s.scanStart.otp.words = s.otp.words := by
  obtain ⟨hmode, hscan, hflt, hotp⟩ := s.scanTrip.scanSafe_spec
  have hend := s.scanTrip.scanSafe.scanEnd_only
  have htrip : s.scanTrip.pow.scan = true ∧ s.scanTrip.flt.tripA = true ∧ s.scanTrip.flt.tripB = true := ⟨rfl, rfl, rfl⟩
  obtain ⟨hset, hA, hB⟩ := htrip
  have hwords : s.scanTrip.otp.words = s.otp.words := rfl
  rw [State.scanStart_eq]
  unfold State.scanWipe
  generalize s.scanTrip.scanSafe.scanEnd = u at hend
  refine ⟨?_, ?_, ?_, (hend.mode rfl).trans hmode, rfl, rfl, rfl, rfl, ?_⟩
  · exact (congrArg Power.scan (hend.pow rfl)).trans (hscan.trans hset)
  · exact (congrArg Faults.tripA ((hend.flt rfl).trans hflt)).trans hA
  · exact (congrArg Faults.tripB ((hend.flt rfl).trans hflt)).trans hB
  · exact (congrArg Otp.words ((hend.otp rfl).trans hotp)).trans hwords

/-- Settles O52: the three commands are checked, and the answer to a response follows what verifies and the scan latch. -/
theorem testAccessNeedsTheVendorAndScanWipes : Obligations.TestAccessNeedsTheVendorAndScanWipes := by
  unfold Obligations.TestAccessNeedsTheVendorAndScanWipes
  refine ⟨fun s k v => ⟨testOpen_checked s k v, fun ho hright hst => ?close, fun ho hmay hconf hst => ?openUp, ?frame⟩,
    fun s k => ⟨testChal_checked s k, fun ho hright => ?chal⟩, fun s k code sig ho => ?resp,
    fun s => ⟨fun h => congrArg Host.Outcome.next (if_pos h), fun h => congrArg Host.Outcome.next (if_neg (by simp [h])), rfl⟩⟩
  case close =>
    refine ⟨_, (testOpen_checked s k 0).takes_effect ho (by simp [hright]), ?_⟩
    rw [if_pos rfl]
    unfold State.testClose
    have hopen : (decide ((s.ans .ok).tst.state = 1) || decide ((s.ans .ok).tst.state = 2)) = true := by
      rw [Bool.or_eq_true, decide_eq_true_iff, decide_eq_true_iff]
      exact hst
    rw [if_pos hopen]
    exact ⟨rfl, State.reg_setReg_self _ _ _ _⟩
  case openUp =>
    refine ⟨_, (testOpen_checked s k 1).takes_effect ho (by simp [hmay, hconf]), ?_⟩
    have hst' : (s.ans .ok).tst.state = 0 := hst
    rw [if_neg (by decide), if_pos hst', State.testRise_of_closed hst']
    exact ⟨rfl, rfl⟩
  case frame => exact ⟨_, rfl, (doTestOpen_only k v s (.refl 0x100a00 s) rfl).frame⟩
  case chal => exact ⟨_, _, (testChal_checked s k).takes_effect ho (by simp [hright]), rfl, rfl, rfl, rfl, rfl⟩
  case resp =>
    have hresp := testResp_checked s k code sig
    refine ⟨fun hlock => hresp.answers ho (x := (true, .busy)) (by simp [hlock]),
      fun hlock hright => hresp.answers ho (x := (true, .rights)) (by simp [hlock, hright]), fun hlock hright => ?heard⟩
    case heard =>
      have heff : exec (.testResp k code sig) s = .next ((s.ans .ok).testAnswer k code sig) := hresp.takes_effect ho (by simp [hlock, hright])
      refine ⟨fun hbad => ⟨_, heff, ?bad⟩, fun hok hcode hscan => ⟨_, heff, ?scan⟩, fun hok hcode hscan => ⟨_, heff, ?again⟩,
        fun hok hcode hconf => ⟨_, heff, ?mode⟩, fun hok hcode hconf hst => ⟨_, heff, ?rights⟩, fun hok hcode hconf hst => ⟨_, heff, ?rise⟩⟩
      case bad =>
        have hbad' : (s.ans .ok).testGood code sig = false := hbad
        rw [State.testAnswer_of_bad hbad']
        exact ⟨rfl, rfl, rfl, rfl, rfl, rfl⟩
      case scan =>
        have hok' : (s.ans .ok).testGood code sig = true := hok
        rw [State.testAnswer_of_scan hok' hcode, if_neg (show ¬ (s.ans .ok).pow.scan = true from fun h => Bool.false_ne_true (hscan.symm.trans h))]
        exact State.scanStart_spec _
      case again =>
        have hok' : (s.ans .ok).testGood code sig = true := hok
        rw [State.testAnswer_of_scan hok' hcode, if_pos (show (s.ans .ok).pow.scan = true from hscan)]
        exact ⟨rfl, rfl, rfl, rfl⟩
      case mode =>
        have hok' : (s.ans .ok).testGood code sig = true := hok
        rw [State.testAnswer_of_access hok' hcode, if_pos (show (s.ans .ok).inConf = false from hconf)]
        exact ⟨rfl, rfl, rfl⟩
      case rights =>
        have hok' : (s.ans .ok).testGood code sig = true := hok
        have hconf' : (s.ans .ok).inConf = true := hconf
        have hst' : (s.ans .ok).tst.state = 3 ∨ (s.ans .ok).tst.state ≠ 0 ∧ (s.ans .ok).tst.seat ≠ k.val := hst
        rw [State.testAnswer_of_access hok' hcode, if_neg (by simp [hconf']), if_pos hst']
        exact ⟨rfl, rfl, rfl⟩
      case rise =>
        have hok' : (s.ans .ok).testGood code sig = true := hok
        have hconf' : (s.ans .ok).inConf = true := hconf
        have hst' : (s.ans .ok).tst.state = 0 := hst
        rw [State.testAnswer_of_access hok' hcode, if_neg (by simp [hconf']), if_neg (fun h => by omega),
          State.testRise_of_closed (show (s.ans .ok).testHeard.tst.state = 0 from hst)]
        exact ⟨rfl, rfl, rfl, State.reg_setReg_self _ _ _ _, rfl⟩

end Sys2Proof.Machine

namespace Sys2Proof

/-- A value whose key passes the filter reads as before. -/
theorem Tab.get_filter_key {α : Type} (dflt : α) (f : Nat → Bool) {k : Nat} (hk : f k = true) (t : Tab α) :
    Tab.get dflt (t.filter fun x => f x.1) k = Tab.get dflt t k := by
  induction t with
  | nil => rfl
  | cons x t ih =>
    obtain ⟨j, v⟩ := x
    by_cases hj : j = k
    · subst hj
      rw [List.filter_cons_of_pos (by exact hk)]
      simp [Tab.get]
    · by_cases hf : f j = true
      · rw [List.filter_cons_of_pos (by exact hf)]
        simp [Tab.get, hj, ih]
      · rw [List.filter_cons_of_neg (by exact hf), ih]
        simp [Tab.get, hj]

theorem Machine.FwFlash.act_setRest (f : Machine.FwFlash) (m : Mem) : (f.setRest m).act = f.act := by
  unfold Machine.FwFlash.setRest
  split <;> rfl

end Sys2Proof

namespace Sys2Proof.Machine

/-! ## The course of an update activation (R452, R455, R458, R461 to R464) -/

/-- What `State.revert` leaves of an activation: its staging, and no latched bit cleared. -/
theorem State.revert_spec {s : State} (why : Nat) (h : 4 ≤ s.upd.state ∧ s.upd.state ≤ 6) :
    (s.revert why).upd = { s.upd with
      state := 8, why := why, pend := none, reboot := none, booted := false, rejoined := false, agree := 0, defer := false, newA := false, newB := false } := by
  unfold State.revert
  rw [if_neg (by simp only [Bool.or_eq_true, decide_eq_true_iff]; omega)]
  extract_lets back s1 upd s2
  have hback (u : State) (d : Die) (new : Bool) : (back u d new).upd = u.upd := by
    dsimp only [back]
    split
    · split
      · cases d <;> rfl
      · cases d <;> rfl
    · rfl
  have hs1 : s1.upd = s.upd := (hback _ _ _).trans (hback _ _ _)
  refine ((State.lockAll_only _ (.refl 0x2d0 _) rfl).upd rfl).trans ?_
  change s2.upd = _
  dsimp only [s2, upd]
  rw [hs1]

theorem State.fswBit_of_latched {s t : State} (h : Latched s t) (b : Nat) (hb : s.fswBit b = true) : t.fswBit b = true := h.1 b hb

/-- A revert begins no step and leaves every part of the device but the dies, the fault collector and the update's entries. -/
def State.Reverted (s : State) (why : Nat) (t : State) : Prop :=
  t.upd.state = 8 ∧ t.upd.why = why ∧ t.upd.pend = none ∧ t.upd.reboot = none ∧ t.upd.newA = false ∧ t.upd.newB = false
    ∧ t.upd.manifest = s.upd.manifest ∧ t.upd.data = s.upd.data ∧ t.upd.have_ = s.upd.have_ ∧ t.upd.fwA = s.upd.fwA ∧ t.upd.fwB = s.upd.fwB
    ∧ (∀ b, s.fswBit b = true → t.fswBit b = true) ∧ t = { s with flt := t.flt, a := t.a, b := t.b, regs := t.regs, upd := t.upd }

theorem State.revert_reverted {s : State} (why : Nat) (h : 4 ≤ s.upd.state ∧ s.upd.state ≤ 6) : s.Reverted why (s.revert why) := by
  refine ⟨?_, ?_, ?_, ?_, ?_, ?_, ?_, ?_, ?_, ?_, ?_, State.fswBit_of_latched (State.revert_latched s why (.refl s)),
    (State.revert_only s why (.refl 0x802d0 s) rfl).frame⟩
  all_goals rw [State.revert_spec why h]

/-- The parts of a whole staging stand in the inactive slots of the flashes that take them (R455). -/
theorem Update.read_slotOf_toSlots {u : Update} {order : Nat} (h : order ≠ 830) (d : Die) {k x : Nat} (hk : k ≠ if d = .a then 2 else 1)
    (hx : x < 2 ^ 24) : Mem.read ((u.toSlots order).slotOf d) (k * 2 ^ 24 + x) = Mem.read u.data (k * 2 ^ 24 + x) := by
  have hpart : takesPart d ((k * 2 ^ 24 + x) / 2 ^ 24) = true := by
    rw [show (k * 2 ^ 24 + x) / 2 ^ 24 = k by omega]
    simpa [takesPart] using hk
  have hread := Tab.get_filter_key 0#8 (fun a => takesPart d (a / 2 ^ 24)) hpart u.data
  have hslot : (u.toSlots order).slotOf d = u.data.filter fun y => takesPart d (y.1 / 2 ^ 24) := by
    unfold Update.toSlots
    dsimp only
    rw [if_neg h]
    cases d <;> exact FwFlash.rest_setRest _ _
  unfold Mem.read
  rw [hslot]
  exact hread

theorem Update.toSlots_act (u : Update) (order : Nat) : (u.toSlots order).fwA.act = u.fwA.act ∧ (u.toSlots order).fwB.act = u.fwB.act := by
  unfold Update.toSlots
  dsimp only
  split
  · exact ⟨rfl, rfl⟩
  · exact ⟨FwFlash.act_setRest _ _, FwFlash.act_setRest _ _⟩

theorem Update.toSlots_frame (u : Update) (order : Nat) : u.toSlots order = { u with fwA := (u.toSlots order).fwA, fwB := (u.toSlots order).fwB } := by
  unfold Update.toSlots
  dsimp only
  split <;> rfl

theorem State.event2_reg_ne {s : State} {i j : Nat} (k : Nat) (l : List Byte) (h : odKey 0x8200 5 ≠ odKey i j) :
    (s.event2 k l).reg i j = s.reg i j := (State.jrnRec_reg_ne .b _ _ h).trans (State.jrnRec_reg_ne .a _ _ h)

/-- What the flip installs (R462). -/
theorem State.flip_spec (s : State) : s.flip_.upd.state = 7 ∧ s.flip_.upd.why = 0 ∧ s.flip_.upd.fwA = s.upd.fwA.flip ∧ s.flip_.upd.fwB = s.upd.fwB.flip
    ∧ s.flip_.upd.defer = false ∧ s.flip_.modes.act = none
    ∧ s.flip_.modes.mode = (if s.modes.mode == .service then s.modes.act.getD .run else s.modes.mode)
    ∧ s.flip_.reg 0xA003 1 = leAt s.upd.manifest 8 4 ∧ s.flip_.reg 0xA00A 0 = leAt s.upd.manifest 20 2 := by
  unfold State.flip_
  extract_lets m svn s1 s2 s3 modes s4
  have h1 : Only 0x200 s s1 := State.setReg_only _ _ _ _ (State.bump_only _ _ _ _ (.refl _ s) rfl) rfl
  have h2 : Only 0x200 s s2 := .foldl h1 fun u k h => State.setReg_only _ _ _ _ h rfl
  have h3 : Only 0x200 s s3 := State.setReg_only _ _ _ _ (State.setReg_only _ _ _ _ h2 rfl) rfl
  have hsvn : s3.reg 0xA003 1 = svn := (State.reg_setReg_ne _ _ (by decide)).trans (State.reg_setReg_self _ _ _ _)
  have hfmt : s3.reg 0xA00A 0 = leAt s.upd.manifest 20 2 := State.reg_setReg_self _ _ _ _
  have hmodes : s3.modes = s.modes := h3.modes rfl
  have hupd : s3.upd = s.upd := h3.upd rfl
  clear_value s3
  obtain ⟨hupd4, hact, hmode, hregs⟩ : s4.upd = s3.upd ∧ s4.modes.act = none
      ∧ s4.modes.mode = (if s3.modes.mode == .service then m else s3.modes.mode)
      ∧ ∀ i j, odKey 0x8200 5 ≠ odKey i j → s4.reg i j = s3.reg i j := by
    dsimp only [s4]
    split
    · have he := fun u => State.event2_only u 7 [BitVec.ofNat 8 m.code] (.refl 0x2c0 u) rfl
      exact ⟨(he _).upd rfl, congrArg Modes.act ((he _).modes rfl), congrArg Modes.mode ((he _).modes rfl),
        fun i j h => State.event2_reg_ne _ _ h⟩
    · exact ⟨rfl, rfl, rfl, fun i j h => rfl⟩
  have hu := hupd4.trans hupd
  refine ⟨rfl, rfl, congrArg (fun u => u.fwA.flip) hu, congrArg (fun u => u.fwB.flip) hu, rfl, hact, ?_,
    (hregs _ _ (by decide)).trans hsvn, (hregs _ _ (by decide)).trans hfmt⟩
  rw [hmodes] at hmode
  exact hmode

theorem State.oldImage_spec (s : State) (d : Die) : ((s.oldImage d).die d).mgmt = .serving ∧ ((s.oldImage d).die d).hold.on = false := by
  have htake (u : State) : ((u.takeState d).die d).mgmt = (u.die d).mgmt ∧ ((u.takeState d).die d).hold = (u.die d).hold := by
    unfold State.takeState
    dsimp only
    split
    · exact ⟨by cases d <;> rfl, by cases d <;> rfl⟩
    · rw [State.die_setDie]
      exact ⟨by cases d <;> rfl, by cases d <;> rfl⟩
  unfold State.oldImage
  extract_lets s1
  obtain ⟨hmgmt, hhold⟩ : (s1.die d).mgmt = .serving ∧ (s1.die d).hold = { on := false, since := 0 } := by
    obtain ⟨hm, hh⟩ := htake (s.updDie d fun l => { l with mgmt := .serving, hold := { on := false, since := 0 } })
    rw [State.die_updDie] at hm hh
    exact ⟨hm, hh⟩
  exact ⟨by cases d <;> exact hmgmt, by cases d <;> exact congrArg Hold.on hhold⟩

/-- Of the die that boots: the reboot is awaited and the boot has not been told. -/
theorem updateBootDone_of_reboot {s : State} {d : Die} (hr : s.upd.reboot = some d) (hb : s.upd.booted = false) (ok : Bool) :
    doUpdateBootDone d ok s = if (ok && s.bootParts d) = false then s.revert 15
      else if leAt s.upd.manifest 20 2 < s.reg 0xA00A 0 then s.revert 19
      else { s with upd := { s.upd with booted := true } }.updDie d fun l => { l with mgmt := .serving } := by
  unfold doUpdateBootDone
  rw [if_pos (by simp [hr, hb])]
  simp only [Bool.not_eq_true']

theorem updateBootDone_of_other {s : State} {d : Die} (h : s.upd.reboot ≠ some d ∨ s.upd.booted = true) (ok : Bool) :
    doUpdateBootDone d ok s = if s.upd.state = 8 ∧ (s.die d).mgmt = .booting ∧ s.admitted d = true ∧ ok = true then s.oldImage d else s := by
  have hnot : ¬ (s.upd.reboot == some d && !s.upd.booted) = true := by
    obtain h | h := h <;> simp [h]
  unfold doUpdateBootDone
  rw [if_neg hnot]
  simp [and_assoc]

/-- Settles O51: a revert and the flip are the model's own operations, and each command performs one of them or nothing. -/
theorem updateActivationCommitsOrReverts : Obligations.UpdateActivationCommitsOrReverts := by
  unfold Obligations.UpdateActivationCommitsOrReverts
  intro s reverted activating
  have hrev (why : Nat) (h : activating) : reverted why (s.revert why) := State.revert_reverted why h
  refine ⟨fun hst hwhole ha hb => ?staged, fun h => ?unstaged, fun d hr hb => ⟨fun hparts hact ok => ?badPart, fun hact => ?badBoot,
    fun hparts hfmt hact => ?oldFormat, fun hparts hfmt => ?booted⟩, fun d ok h => ⟨fun hno => ?noBoot, fun hst hmgmt had hok => ?old⟩,
    fun h => ?noWait, fun hst hreb hB hA => ?wait, fun h => ?noFlip, fun hst hdef hpfw => ?flip, fun h => ?noSess, fun h => ?sess⟩
  case staged =>
    obtain ⟨hactA, hactB⟩ := s.upd.toSlots_act s.order
    refine ⟨{ s with upd := { s.upd.toSlots s.order with state := 3 } }, congrArg Host.Outcome.next (if_pos (by simp [hst, hwhole, ha, hb])),
      congrArg (fun u : Update => { u with state := 3 }) (s.upd.toSlots_frame s.order), hactA, hactB, rfl, fun horder => ?_,
      fun horder d k x hk hx => Update.read_slotOf_toSlots horder d hk hx⟩
    rw [horder]
    rfl
  case unstaged => exact congrArg Host.Outcome.next (if_neg (by simp only [Bool.and_eq_true, decide_eq_true_iff]; grind))
  case badPart =>
    refine ⟨s.revert 15, congrArg Host.Outcome.next ((updateBootDone_of_reboot hr hb ok).trans (if_pos (by simp [hparts]))), hrev 15 hact⟩
  case badBoot => exact ⟨s.revert 15, congrArg Host.Outcome.next ((updateBootDone_of_reboot hr hb false).trans (if_pos rfl)), hrev 15 hact⟩
  case oldFormat =>
    have heq := updateBootDone_of_reboot hr hb true
    rw [if_neg (by simp [hparts]), if_pos hfmt] at heq
    exact ⟨s.revert 19, congrArg Host.Outcome.next heq, hrev 19 hact⟩
  case booted =>
    have heq := updateBootDone_of_reboot hr hb true
    rw [if_neg (by simp [hparts]), if_neg hfmt] at heq
    refine ⟨_, congrArg Host.Outcome.next heq, ?_, ?_, ?_, ?_⟩
    · cases d <;> rfl
    · rw [State.die_updDie]
      cases d <;> rfl
    · rw [State.die_updDie_peer]
      cases d <;> rfl
    · cases d <;> rfl
  case noBoot =>
    have heq := updateBootDone_of_other h ok
    rw [if_neg (by cases ok <;> grind)] at heq
    exact congrArg Host.Outcome.next heq
  case old =>
    have heq := updateBootDone_of_other h ok
    rw [if_pos ⟨hst, hmgmt, had, hok⟩] at heq
    have honly := State.oldImage_only s d (.refl 0x400d0 s) rfl
    obtain ⟨hserve, hoff⟩ := s.oldImage_spec d
    exact ⟨_, congrArg Host.Outcome.next heq, hserve, hoff, honly.upd rfl, honly.frame⟩
  case noWait => exact congrArg Host.Outcome.next (if_pos (by simpa [or_assoc] using h))
  case wait =>
    exact ⟨_, congrArg Host.Outcome.next (if_neg (by simp [hst, hreb, hB, hA])), hrev _ (by omega)⟩
  case noFlip => exact congrArg Host.Outcome.next (if_neg (by simp only [Bool.and_eq_true, decide_eq_true_iff, Bool.not_eq_true']; grind))
  case flip =>
    obtain ⟨h1, h2, h3, h4, h5, h6, h7, h8, h9⟩ := s.flip_spec
    exact ⟨s.flip_, congrArg Host.Outcome.next (if_pos (by simp [hst, hdef, hpfw])), h1, h2, h3, h4, h5, h6, h7, h8, h9,
      (State.flip__only s (.refl 0x80802c2 s) rfl).frame⟩
  case noSess => exact congrArg Host.Outcome.next (if_pos (by simp [h]))
  case sess => exact congrArg Host.Outcome.next (if_neg (by simpa using h))

end Sys2Proof.Machine

namespace Sys2Proof.Machine

/-! ## Era record (R287, R427) -/

/-- No record, or one of a lower GEN than `r`. -/
def EraRec.Below (r : EraRec) (m : Option EraRec) : Prop := ∀ x, m = some x → x.gen < r.gen

theorem EraRec.later_self_right {r : EraRec} {m : Option EraRec} (h : r.Below m) : EraRec.later m (some r) = some r := by
  cases m with
  | none => rfl
  | some x =>
    unfold EraRec.later
    dsimp only
    rw [if_pos (h x rfl)]

theorem EraRec.later_self_left {r : EraRec} {m : Option EraRec} (h : r.Below m ∨ m = some r) : EraRec.later (some r) m = some r := by
  cases m with
  | none => rfl
  | some x =>
    have hx : ¬ r.gen < x.gen := by
      obtain h | h := h
      · exact Nat.lt_asymm (h x rfl)
      · cases h
        exact Nat.lt_irrefl _
    unfold EraRec.later
    dsimp only
    rw [if_neg hx]

theorem EraRec.later_below {r : EraRec} {m k : Option EraRec} (hm : r.Below m) (hk : r.Below k) : r.Below (EraRec.later m k) := by
  unfold EraRec.later
  split
  · split
    · exact hk
    · exact hm
  · exact hm
  · exact hk

theorem EraRec.foldl_below {r : EraRec} {l : List EraRec} {m : Option EraRec} (hm : r.Below m) (hl : ∀ x ∈ l, x.gen < r.gen) :
    r.Below (l.foldl (fun m x => EraRec.later m (some x)) m) := by
  induction l generalizing m with
  | nil => exact hm
  | cons y l ih =>
    refine ih (EraRec.later_below hm ?_) fun x hx => hl x (List.mem_cons_of_mem _ hx)
    rintro x ⟨⟩
    exact hl y List.mem_cons_self

theorem EraRec.foldl_self {r : EraRec} {l : List EraRec} (hl : ∀ x ∈ l, x.gen < r.gen) :
    l.foldl (fun m x => EraRec.later m (some x)) (some r) = some r := by
  induction l with
  | nil => rfl
  | cons y l ih =>
    rw [List.foldl_cons, EraRec.later_self_left]
    · exact ih fun x hx => hl x (List.mem_cons_of_mem _ hx)
    · refine .inl ?_
      rintro x ⟨⟩
      exact hl y List.mem_cons_self

/-- A record that has been put stands among records that were there before. -/
theorem EraFlash.put_split (x : EraFlash) (r : EraRec) :
    ∃ l k, (x.put r).s0 ++ (x.put r).s1 = l ++ r :: k ∧ (∀ y ∈ l, y ∈ x.s0 ++ x.s1) ∧ ∀ y ∈ k, y ∈ x.s0 ++ x.s1 := by
  unfold EraFlash.put
  split
  · split
    · exact ⟨x.s0 ++ x.s1, [], by simp, by simp, by simp⟩
    · exact ⟨[], x.s1, by simp, by simp, by simp +contextual⟩
  · split
    · exact ⟨x.s0, x.s1, by simp, by simp +contextual, by simp +contextual⟩
    · exact ⟨x.s0, [], by simp, by simp +contextual, by simp⟩

theorem EraRec.below_none (r : EraRec) : r.Below none := fun _ h => nomatch h

/-- Where every record that was there has a lower GEN, the one put last is the highest. -/
theorem EraFlash.top_put {x : EraFlash} {r : EraRec} (h : ∀ y ∈ x.s0 ++ x.s1, y.gen < r.gen) : (x.put r).top = some r := by
  obtain ⟨l, k, heq, hl, hk⟩ := x.put_split r
  unfold EraFlash.top
  rw [heq, List.foldl_append, List.foldl_cons, EraRec.later_self_right (EraRec.foldl_below (EraRec.below_none r) fun y hy => h y (hl y hy))]
  exact EraRec.foldl_self fun y hy => h y (hk y hy)

theorem EraFlash.top_below {x : EraFlash} {r : EraRec} (h : ∀ y ∈ x.s0 ++ x.s1, y.gen < r.gen) : r.Below x.top :=
  EraRec.foldl_below (EraRec.below_none r) h

/-- A record written to at least one flash whose GEN is above every other is in force (R427). -/
theorem EraRec.later_put {x y : EraFlash} {r : EraRec} {a b : Bool} (hab : a = true ∨ b = true)
    (h : ∀ z ∈ x.s0 ++ x.s1 ++ (y.s0 ++ y.s1), z.gen < r.gen) :
    EraRec.later (if a then x.put r else x).top (if b then y.put r else y).top = some r := by
  have hx : ∀ z ∈ x.s0 ++ x.s1, z.gen < r.gen := fun z hz => h z (List.mem_append_left _ hz)
  have hy : ∀ z ∈ y.s0 ++ y.s1, z.gen < r.gen := fun z hz => h z (List.mem_append_right _ hz)
  cases a with
  | true =>
    rw [if_pos rfl, EraFlash.top_put hx, EraRec.later_self_left]
    cases b with
    | true => exact .inr (EraFlash.top_put hy)
    | false => exact .inl (EraFlash.top_below hy)
  | false =>
    obtain rfl : b = true := hab.resolve_left Bool.false_ne_true
    rw [if_pos rfl, EraFlash.top_put hy]
    exact EraRec.later_self_right (EraFlash.top_below hx)

/-! ## Rails (R332, R333, R347) -/

/-- An excursion of an armed rail as the monitor notes it. -/
def State.railSeen (s : State) (r : Rail) (mv : Nat) : State :=
  ({ s with pow := { s.pow with
    rails := s.pow.rails ||| ((1 : BitVec 13) <<< railBit r), vinMv := if r = Rail.vin then mv else s.pow.vinMv } }).setReg 0x2031 (railIdx r + 1) mv

/-- The F-die supply of the rail is held low (R197). -/
def State.railLow (s : State) : Rail → Bool
  | .vfld d => (s.fdie d.val).low
  | _ => false

/-- A return of an armed rail as the monitor notes it. -/
def State.railBack (s : State) (r : Rail) (mv : Nat) : State :=
  ({ s with pow := { s.pow with
    rails := if s.railLow r then s.pow.rails else s.pow.rails &&& ~~~((1 : BitVec 13) <<< railBit r)
    vinMv := if r = Rail.vin then mv else s.pow.vinMv } }).setReg 0x2031 (railIdx r + 1) mv

section
variable {s : State} {r : Rail} {mv : Nat} (harm : s.pow.armed.getLsbD (railIdx r) = true)
include harm

theorem railExcursion_eq (hout : railOut r mv = true) :
    doRailExcursion r mv s = if r = .vbat then (s.railSeen r mv).latchStanding 42 else (s.railSeen r mv).railCause.latch 56 := by
  unfold doRailExcursion
  rw [if_neg (by simp [harm, hout])]
  cases r <;> rfl

theorem railReturn_eq (hout : railOut r mv = false) :
    doRailReturn r mv s = if r = .vbat then (s.railBack r mv).causeOff 42 else (s.railBack r mv).railCause := by
  unfold doRailReturn
  rw [if_neg (by simp [harm, hout])]
  cases r <;> rfl

end

theorem State.railCause_cause (s : State) :
    s.railCause = { s with flt := { s.flt with cause := if s.pow.railBad then setBit64 s.flt.cause 56 else clrBit64 s.flt.cause 56 } } := by
  unfold State.railCause
  split <;> rfl

/-- Settles O48: the era record, the backup domain and each rail are acted on by their own operation, and the latches are those of bits 37, 42
and 56. -/
theorem backupDomainAndRailsAreWatched : Obligations.BackupDomainAndRailsAreWatched := by
  unfold Obligations.BackupDomainAndRailsAreWatched
  refine ⟨fun s ok => ⟨fun h => ?noEra, fun r p h => ?era⟩, fun s i => ?tamper, fun s i => ?release,
    fun s => ⟨fun h => congrArg Host.Outcome.next (if_pos h), fun h => congrArg Host.Outcome.next (if_neg (Bool.eq_false_iff.mp h))⟩,
    fun s r mv => ⟨fun h => congrArg Host.Outcome.next (if_pos (by simpa using h)), fun harm hout => ?excursion⟩,
    fun s r mv => ⟨fun h => congrArg Host.Outcome.next (if_pos (by simpa using h)), fun harm hout => ?back⟩⟩
  case noEra =>
    refine congrArg Host.Outcome.next ?_
    unfold doEraRecordWrite
    rw [h]
  case era =>
    have hexec : exec (.eraRecordWrite ok) s = .next (doEraRecordWrite ok s) := rfl
    refine ⟨_, hexec, ?_⟩
    unfold doEraRecordWrite
    rw [h]
    cases ok with
    | false => simp [Keys.era]
    | true =>
      refine ⟨rfl, ?_, ?_, fun _ hadm hgen => EraRec.later_put hadm hgen, nofun, rfl, rfl, rfl, rfl, rfl, rfl⟩
      · simp
      · simp
  case tamper =>
    have hexec : exec (.tamper i) s = .next (doTamper i s) := rfl
    refine ⟨_, hexec, ?_⟩
    unfold doTamper
    dsimp only
    split
    next hshelf => exact ⟨rfl, rfl, rfl, rfl, rfl, rfl, rfl, fun _ => rfl, fun h => absurd hshelf h⟩
    next hmode =>
      rw [State.latchStanding_bkp]
      exact ⟨rfl, rfl, rfl, rfl, rfl, rfl, rfl, fun h => absurd h hmode, fun _ hd hp => State.latchStanding_sets _ 37 hp hd⟩
  case release =>
    have hexec : exec (.tamperRelease i) s = .next (doTamperRelease i s) := rfl
    refine ⟨_, hexec, ?_⟩
    unfold doTamperRelease
    dsimp only
    by_cases h : s.bkp.inputs &&& ~~~BitVec.ofNat 4 (2 ^ i.val) = 0
    · rw [if_pos h]
      exact ⟨rfl, (if_pos h).symm, rfl⟩
    · rw [if_neg h]
      exact ⟨rfl, (if_neg h).symm, rfl⟩
  case excursion =>
    refine ⟨_, congrArg Host.Outcome.next (railExcursion_eq harm hout), ?_⟩
    have hspec : (s.railSeen r mv).pow.rails = s.pow.rails ||| ((1 : BitVec 13) <<< railBit r)
        ∧ (s.railSeen r mv).pow.vinMv = (if r = Rail.vin then mv else s.pow.vinMv) := ⟨rfl, rfl⟩
    have hlatch {u v : State} {b : Nat} (h : SamePower u v) (hpow : u.pow = (s.railSeen r mv).pow) (hset : s.diverted b = false → v.fswBit b = true) :
        v.pow.rails = s.pow.rails ||| ((1 : BitVec 13) <<< railBit r) ∧ v.pow.vinMv = (if r = Rail.vin then mv else s.pow.vinMv)
          ∧ (s.diverted b = false → v.fswBit b = true) := by
      unfold SamePower at h
      rw [h, hpow]
      exact ⟨hspec.1, hspec.2, hset⟩
    by_cases hv : r = .vbat
    · rw [if_pos hv, if_pos hv]
      exact hlatch (State.latchStanding_samePower _ 42) rfl fun hd => State.latchStanding_sets _ 42 (by simp [fswPresent]) hd
    · rw [if_neg hv, if_neg hv, State.railCause_cause]
      exact hlatch (State.latch_samePower _ 56) rfl fun hd => State.latch_sets _ 56 (by simp [fswPresent]) hd
  case back =>
    refine ⟨_, congrArg Host.Outcome.next (railReturn_eq harm hout), ?_⟩
    have hlow (h : ∀ d, r = Rail.vfld d → (s.fdie d.val).low = false) : s.railLow r = false := by
      unfold State.railLow
      split
      · exact h _ rfl
      · rfl
    have hback : (s.railBack r mv).reg 0x2031 (railIdx r + 1) = mv := State.reg_setReg_self _ _ _ _
    by_cases hv : r = .vbat
    · rw [if_pos hv]
      refine ⟨hback, rfl, fun h => ?_, fun d hr hl => ?_, fun _ => rfl, fun h => absurd hv h, rfl⟩
      · exact if_neg (Bool.eq_false_iff.mp (hlow h))
      · subst hr
        exact if_pos hl
    · rw [if_neg hv, State.railCause_cause]
      refine ⟨hback, rfl, fun h => ?_, fun d hr hl => ?_, fun h => absurd h hv, fun _ => rfl, rfl⟩
      · exact if_neg (Bool.eq_false_iff.mp (hlow h))
      · subst hr
        exact if_pos hl

end Sys2Proof.Machine

namespace Sys2Proof.Machine

/-! ## Granules that fail (R444 to R446) -/

theorem State.diverted_of_flt {s t : State} (h : t.flt = s.flt) {b : Nat} (hb : b ≠ 57) : t.diverted b = s.diverted b := by
  unfold State.diverted
  rw [if_neg hb, if_neg hb, h]

theorem dieBit_bist_ne (d : Die) : dieBit d 14 ≠ 57 := by cases d <;> decide

theorem fswPresent_bist (order : Nat) (d : Die) : fswPresent order (dieBit d 14) = true := by
  cases d <;> simp [fswPresent, dieBit, Die.n]

/-- Every failure latches BIST of its die. -/
theorem State.failNote_sets {u : State} {d : Die} (w : Nat) (h : u.diverted (dieBit d 14) = false) : (u.failNote d w).fswBit (dieBit d 14) = true := by
  have hd : ((u.bump 32 0xB007 1).setReg 0xB007 4 w).diverted (dieBit d 14) = u.diverted (dieBit d 14) :=
    State.diverted_of_flt (s := u) (t := (u.bump 32 0xB007 1).setReg 0xB007 4 w) rfl (dieBit_bist_ne d)
  exact State.latchStanding_sets _ _ (fswPresent_bist _ d) (hd.trans h)

/-- A granule that fails is noted on a state whose faults are those of `s`; what follows clears no fault. -/
theorem State.itemFail_notes (s : State) (d : Die) (item : Nat) :
    ∃ (u : State) (w : Nat), u.flt = s.flt ∧ Latched (u.failNote d w) (s.itemFail d item) := by
  have hspare (u : State) : (u.nextSpare d item).2.flt = u.flt := (State.nextSpare_only u d item (.refl 0x1000000 u) rfl).flt rfl
  have hlane (v : State) (w : Nat) (f : LDie → LDie) : Latched v (if (s.st.tried d item).isSome then (v.proven d item w).itemTested d item
      else ((v.updDie d f).tryRepair d item w).bump 32 0xB007 2) :=
    .ite (State.itemTested_latched _ _ _ (State.proven_latched _ _ _ _ (.refl v)))
      (State.bump_latched _ _ _ _ (State.tryRepair_latched _ _ _ _ (State.updDie_latched _ _ _ (.refl v))))
  have hsoft (v : State) (x : SelfTest) (w : Nat) : Latched v ({ v.bump 32 0xB007 2 with st := x }.tryRepair d item w) :=
    State.tryRepair_latched _ _ _ _ (State.bump_latched v 32 0xB007 2 (.refl v))
  have hbit (v : State) : Latched v ((v.tryRepair d item 0).itemBit d item) := State.itemBit_latched _ _ _ (State.tryRepair_latched _ _ _ _ (.refl v))
  have hmark (v x : State) (c : Nat) (g : SelfTest) (f : FDie → FDie) (n : Nat) (h : Latched v x) :
      Latched v (State.itemTested (if c = 5 then { x with st := g } else if c = 7 then x.updF n f else x) d item) :=
    State.itemTested_latched _ _ _ (Latched.ite h (Latched.ite (State.updF_latched _ _ _ h) h))
  unfold State.itemFail
  dsimp only
  split
  · refine ⟨_, _, ?_, hlane _ _ _⟩
    rfl
  · split
    · refine ⟨_, _, ?_, hsoft _ _ _⟩
      exact hspare _
    · refine ⟨_, _, ?_, State.itemTested_latched _ _ _ (hbit _)⟩
      exact hspare _
  · refine ⟨_, _, ?_, hmark _ _ _ _ _ _ (hbit _)⟩
    rfl

theorem State.itemFail_sets {s : State} {d : Die} (item : Nat) (h : s.diverted (dieBit d 14) = false) :
    (s.itemFail d item).fswBit (dieBit d 14) = true := by
  obtain ⟨u, w, hflt, hlatched⟩ := s.itemFail_notes d item
  exact State.fswBit_of_latched hlatched _ (State.failNote_sets w ((State.diverted_of_flt hflt (dieBit_bist_ne d)).trans h))

/-- The granule is of an item that is left and may be tested, in an open slice, and none has been aborted. -/
def State.granuleOpen (s : State) (d : Die) (item : Nat) : Bool :=
  s.ticking d && s.sliceIn (s.die d).tb.spanNo && (s.die d).tb.phase == .s && s.st.gran d == .running && (s.st.left d).contains item
    && !s.st.later.contains (stKey d item) && s.testMay d item

section
variable {s : State} {d : Die} {item : Nat}

theorem granuleDone_of_closed (h : s.granuleOpen d item = false) (pass : Bool) : doGranuleDone d item pass s = s :=
  if_pos (by unfold State.granuleOpen at h; rw [h]; rfl)

theorem granuleDone_of_fail (h : s.granuleOpen d item = true) : doGranuleDone d item false s = (s.itemFail d item).failWait d item := by
  unfold doGranuleDone
  rw [if_neg (by unfold State.granuleOpen at h; rw [h]; simp)]
  rfl

theorem granuleDone_of_pass (h : s.granuleOpen d item = true) : doGranuleDone d item true s =
    if Tab.get 0 s.st.prog (stKey d item) + 1 < s.granules item then
      { s with st := { s.st with prog := Tab.set 0 s.st.prog (stKey d item) (Tab.get 0 s.st.prog (stKey d item) + 1) } }
    else s.itemPass d item := by
  unfold doGranuleDone
  rw [if_neg (by unfold State.granuleOpen at h; rw [h]; simp)]
  rfl

theorem granuleOpen_of_not_running (h : s.st.gran d ≠ .running) : s.granuleOpen d item = false := by
  simp [State.granuleOpen, h]

end

/-- A granule that passes touches no ring. -/
theorem granuleDone_pass_only (s : State) (d : Die) (item : Nat) : Only 0x483f0 s (doGranuleDone d item true s) := by
  by_cases h : s.granuleOpen d item = true
  · rw [granuleDone_of_pass h]
    split
    · dsimp only [Only.mk_eq]
      exact OnlyParts.st (c := rfl) (Only.parts (.refl _ s))
    · exact State.itemPass_only s d item (.refl _ s) rfl
  · rw [granuleDone_of_closed (Bool.not_eq_true _ ▸ h)]
    exact .refl _ s

theorem stReq_checked (s : State) (seat : Fin 8) (v : Nat) : Checked s (.stReq seat v)
    [(decide (8 ≤ s.st.queue.length), .busy), (!s.has seat 1, .rights), ((v == 1 && s.a.eng.spareLane.isNone) || (v == 2 && s.b.eng.spareLane.isNone), .mode),
      (v == 0 || decide (8 < v), .range)]
    (fun u => if u.st.queue.isEmpty then { u with st := { u.st with queue := u.st.queue ++ [v] } }.reqBegin
      else { u with st := { u.st with queue := u.st.queue ++ [v] } }) := State.refuse_checked _ _ _ _ rfl

/-- Settles O49: a granule counts, ends its item or is noted as a failure, and a failure latches BIST before anything else. -/
theorem selfTestRunsGranulesAndLatchesFailures : Obligations.SelfTestRunsGranulesAndLatchesFailures := by
  unfold Obligations.SelfTestRunsGranulesAndLatchesFailures
  refine ⟨fun s d item pass => ⟨fun h => ?closed, fun h hp hn => ?counts, fun h hp hn => ?ends, fun h hp => ?fails, fun p h => ?aborted, ?frame⟩,
    fun s => ⟨fun h => congrArg Host.Outcome.next (if_pos (by simp [h])), fun h => congrArg Host.Outcome.next (if_neg (by simp [h]))⟩,
    fun s k v => ⟨stReq_checked s k v, fun ho hlen hright h1 h2 hlo hhi => ?req⟩⟩
  case closed => exact congrArg Host.Outcome.next (granuleDone_of_closed h pass)
  case counts =>
    subst hp
    exact congrArg Host.Outcome.next ((granuleDone_of_pass h).trans (if_pos hn))
  case ends =>
    subst hp
    exact congrArg Host.Outcome.next ((granuleDone_of_pass h).trans (if_neg hn))
  case fails =>
    subst hp
    exact ⟨_, congrArg Host.Outcome.next (granuleDone_of_fail h), rfl, List.getLast?_concat, fun hd => State.itemFail_sets item hd⟩
  case aborted => exact congrArg Host.Outcome.next (granuleDone_of_closed (granuleOpen_of_not_running h) p)
  case frame =>
    have honly := doGranuleDone_only d item pass s (.refl 0x10cbbf6 s) rfl
    obtain ⟨hpending, hwords, -⟩ := doGranuleDone_keeps d item pass s (.refl s)
    refine ⟨_, rfl, honly.pat rfl, fun hp => ?_, honly.pers rfl, honly.keys rfl, honly.tmr rfl, hpending, hwords⟩
    subst hp
    exact (granuleDone_pass_only s d item).rings rfl
  case req =>
    have h := (stReq_checked s k v).takes_effect ho (by
      have hne : v ≠ 0 := by omega
      have hq : ¬ 8 ≤ s.st.queue.length := by omega
      have hv : ¬ 8 < v := by omega
      have hlane1 : (v == 1 && s.a.eng.spareLane.isNone) = false := by
        cases hs : s.a.eng.spareLane with
        | none => simpa using fun hv => h1 hv hs
        | some n => simp
      have hlane2 : (v == 2 && s.b.eng.spareLane.isNone) = false := by
        cases hs : s.b.eng.spareLane with
        | none => simpa using fun hv => h2 hv hs
        | some n => simp
      simp [hq, hright, hlane1, hlane2, hne, hv])
    refine ⟨fun hempty => h.trans (congrArg Host.Outcome.next (if_pos ?_)), fun hne => h.trans (congrArg Host.Outcome.next (if_neg ?_))⟩
    · exact List.isEmpty_iff.mpr hempty
    · exact fun he => hne (List.isEmpty_iff.mp he)

end Sys2Proof.Machine

namespace Sys2Proof.Machine

/-! ## gPTP (R45 to R49, R269, R270, R277) -/

theorem State.netRx_iff {s : State} {d : Die} {p : Nat} :
    s.netRx d p = true ↔ s.ticking d = true ∧ (s.die d).net.macReset = false ∧ ((s.die d).net.port p).link = true := by
  simp [State.netRx, and_assoc]

theorem State.netRx_eq_false {s : State} {d : Die} {p : Nat}
    (h : s.ticking d = false ∨ (s.die d).net.macReset = true ∨ ((s.die d).net.port p).link = false) : s.netRx d p = false := by
  rw [← Bool.not_eq_true, State.netRx_iff]
  rintro ⟨ht, hm, hl⟩
  obtain h | h | h := h
  · exact Bool.false_ne_true (h.symm.trans ht)
  · exact Bool.false_ne_true (hm.symm.trans h)
  · exact Bool.false_ne_true (h.symm.trans hl)

/-- The lock of a die's channel: whether it has lock and ever had, the messages that count, the offsets. -/
def LDie.lockView (l : LDie) : Bool × Bool × Nat × List Int := (l.tb.locked, l.tb.ever, l.tb.syncs, l.tb.offs)

theorem SameDies.both {α : Type} {π : LDie → α} (s : State) {f : LDie → LDie} (h : ∀ l, π (f l) = π l) :
    SameDies π s ((s.updDie .a f).updDie .b f) := (SameDies.updDie .a h).trans (.updDie .b h)

/-- The end of a holdover is no change of a lock (R48). -/
theorem State.holdEnd_same (s : State) : SameDies LDie.lockView s s.holdEnd := by
  unfold State.holdEnd
  have hend (f : LDie → LDie) (hf : ∀ l, (f l).lockView = l.lockView) : SameDies LDie.lockView s (((s.updDie .a f).updDie .b f).causeOff 60) :=
    (SameDies.both s hf).trans (.of_dies rfl rfl)
  exact .ite (.refl s) (hend _ fun _ => rfl)

theorem State.unlock_view (s : State) (d : Die) : ((s.unlock d).die d).lockView = (false, (s.die d).tb.ever, 0, [])
    ∧ ((s.unlock d).die d.peer).lockView = (s.die d.peer).lockView := by
  unfold State.unlock
  refine ⟨(State.holdEnd_same _ d).trans ?_, (State.holdEnd_same _ d.peer).trans ?_⟩
  · rw [State.die_updDie]
    rfl
  · rw [State.die_updDie_peer]

/-- A channel that locks has lock, whichever way its phase is then removed (R49). -/
theorem State.lockTo_view (s : State) (d : Die) (gm : Nat) : ((s.lockTo d gm).die d).tb.locked = true ∧ ((s.lockTo d gm).die d).tb.ever = true := by
  have hview : ∀ {l : LDie} {n : Nat} {o : List Int}, l.lockView = (true, true, n, o) → l.tb.locked = true ∧ l.tb.ever = true :=
    fun h => ⟨congrArg Prod.fst h, congrArg (fun x => x.2.1) h⟩
  unfold State.lockTo
  extract_lets first l tb s1 n f s2 modes off e
  have h1 : (s1.die d).lockView = (true, true, (s.die d).tb.syncs, (s.die d).tb.offs) := by
    dsimp only [s1]
    rw [State.die_setDie]
    rfl
  split
  · exact hview ((State.holdEnd_same s1 d).trans h1)
  · split
    · have h2 : SameDies LDie.lockView s1 s2 := SameDies.both s1 (f := f) fun _ => rfl
      exact hview ((h2 d).trans h1)
    · have h3 : SameDies LDie.lockView s1 (s1.updDie d fun l => { l with tb := { l.tb with
          err := e, tickNs := ((l.tb.tickNs : Int) + off).toNat, slew := decide (100 ≤ e.natAbs) } }) := .updDie d fun _ => rfl
      exact hview (((h3.trans (State.holdEnd_same _)) d).trans h1)

/-- The message counts, and its offset joins the last 8 (R270). -/
def State.syncCounted (s : State) (d : Die) (off : Int) : State :=
  s.updDie d fun l => { l with tb := { l.tb with syncs := min 16 (l.tb.syncs + 1), offs := (l.tb.offs ++ [off]).drop (l.tb.offs.length + 1 - 8) } }

theorem syncRx_of_ignored {s : State} {d : Die} {p : Fin 2} (g : Nat) (off step : Int)
    (h : (s.netRx d p.val && ((s.die d).net.port p.val).slave && ((s.die d).net.port p.val).asCapable) = false) :
    doSyncRx d p g off step s = s := by
  unfold doSyncRx
  exact if_pos (by rw [← Bool.not_and, ← Bool.not_and, h]; rfl)

theorem syncRx_of_taken {s : State} {d : Die} {p : Fin 2} (g : Nat) (off step : Int)
    (hnet : s.netRx d p.val = true) (hslave : ((s.die d).net.port p.val).slave = true) (hcap : ((s.die d).net.port p.val).asCapable = true) :
    doSyncRx d p g off step s = if (s.die d).tb.locked && decide (1000 < step.natAbs) then s.unlock d
      else if !(s.die d).tb.locked && min 16 ((s.die d).tb.syncs + 1) == 16
          && (((s.die d).tb.offs ++ [off]).drop ((s.die d).tb.offs.length + 1 - 8)).all fun x => decide (x.natAbs ≤ 100) then
        (s.syncCounted d off).lockTo d g
      else s.syncCounted d off := by
  unfold doSyncRx
  dsimp only
  rw [if_neg (by simp [hnet, hslave, hcap])]
  rfl

theorem Net.emit_port (n : Net) (k : Nat) : ((n.emit k).port k).gates = (n.port k).gates ∧ ((n.emit k).port k).entry = (n.port k).entry := by
  unfold Net.emit Net.updPort Net.port
  dsimp only
  split <;> exact ⟨rfl, rfl⟩

theorem Net.port_updPort (n : Net) (k : Nat) (f : EPort → EPort) : (n.updPort k f).port k = f (n.port k) := by
  unfold Net.updPort Net.port
  split <;> rfl

/-- The entries of a port's gate control list. -/
def gateList (p : Option Pattern) (d : Die) (port : Nat) : List GateRec := (p.map fun p => p.gates.filter fun g => g.port == portSub d port).getD []

/-- The list's entry sets the gates, frames that leave set none (R277). -/
theorem Net.gate_port (n : Net) (p : Option Pattern) (d : Die) (port k : Nat) :
    ((n.gate p d port k).port port).gates = (if (gateList p d port).isEmpty then 255
      else (((gateList p d port)[k % (gateList p d port).length]?).map (·.mask)).getD 255)
    ∧ ((n.gate p d port k).port port).entry = if (gateList p d port).isEmpty then 0 else k % (gateList p d port).length := by
  have hset : ((n.updPort port fun q => if (gateList p d port).isEmpty then { q with entry := 0, gates := 255 }
      else { q with entry := k % (gateList p d port).length, gates := (((gateList p d port)[k % (gateList p d port).length]?).map (·.mask)).getD 255 }).port port)
      = if (gateList p d port).isEmpty then { n.port port with entry := 0, gates := 255 }
        else { n.port port with entry := k % (gateList p d port).length, gates := (((gateList p d port)[k % (gateList p d port).length]?).map (·.mask)).getD 255 } :=
    Net.port_updPort _ _ _
  unfold Net.gate
  extract_lets gs m
  have hm : (m.port port).gates = (if (gateList p d port).isEmpty then 255
      else (((gateList p d port)[k % (gateList p d port).length]?).map (·.mask)).getD 255)
      ∧ (m.port port).entry = if (gateList p d port).isEmpty then 0 else k % (gateList p d port).length := by
    rw [show m.port port = _ from hset]
    cases (gateList p d port).isEmpty <;> exact ⟨rfl, rfl⟩
  split
  · exact ⟨(m.emit_port port).1.trans hm.1, (m.emit_port port).2.trans hm.2⟩
  · exact hm

/-- Settles O31: messages, losses and expiries act on the lock of their die, and port events on the port's roles and gates. -/
theorem timeSyncFollowsItsMessages : Obligations.TimeSyncFollowsItsMessages := by
  unfold Obligations.TimeSyncFollowsItsMessages
  refine ⟨fun s d p g off step h => ?ignored, fun s d p g off step ht hm hl hs hc => ⟨fun hlock hstep => ?lost, fun hstep hno => ?counted, fun hlock hn hoffs => ?locks⟩,
    fun s d => ?timeout, fun s => ⟨fun h => congrArg Host.Outcome.next (if_pos (by simp [h])), fun h => ?holdover⟩,
    fun s d p h => ⟨fun delay => congrArg Host.Outcome.next (if_pos (by simp [State.netRx_eq_false h])),
      fun dom pr gm => congrArg Host.Outcome.next (if_pos (by simp [State.netRx_eq_false h]))⟩,
    fun s d p ht hm hl => ⟨fun delay => ?pdelay, fun dom pr gm => ⟨fun hdom => ?announce, fun hdom => ?foreign⟩⟩, fun s d p => ?gates⟩
  case ignored =>
    refine congrArg Host.Outcome.next (syncRx_of_ignored g off step ?_)
    obtain h | h | h | h | h := h
    · rw [State.netRx_eq_false (.inl h)]
      rfl
    · rw [State.netRx_eq_false (.inr (.inl h))]
      rfl
    · rw [State.netRx_eq_false (.inr (.inr h))]
      rfl
    · simp [h]
    · simp [h]
  case lost =>
    have heq := syncRx_of_taken g off step (State.netRx_iff.mpr ⟨ht, hm, hl⟩) hs hc
    rw [if_pos (by simp [hlock, hstep])] at heq
    have honly : Only 0xd0 s (s.unlock d) := State.unlock_only s d (.refl _ s) rfl
    obtain ⟨hview, -⟩ := s.unlock_view d
    exact ⟨_, congrArg Host.Outcome.next heq, congrArg (·.1) hview, congrArg (·.2.2.1) hview, congrArg (·.2.2.2) hview, honly.pers rfl, honly.modes rfl⟩
  case counted =>
    have heq := syncRx_of_taken g off step (State.netRx_iff.mpr ⟨ht, hm, hl⟩) hs hc
    rw [if_neg, if_neg] at heq
    · exact congrArg Host.Outcome.next heq
    · rw [Bool.and_eq_true, Bool.and_eq_true, Bool.not_eq_true', beq_iff_eq, List.all_eq_true]
      rintro ⟨⟨hlock, hn⟩, hoffs⟩
      obtain h | h | ⟨x, hx, hbad⟩ := hno
      · exact Bool.false_ne_true (hlock.symm.trans h)
      · omega
      · have hx := of_decide_eq_true (hoffs x hx)
        omega
    · rw [Bool.and_eq_true, decide_eq_true_iff]
      rintro ⟨hlock, hbig⟩
      have := hstep hlock
      omega
  case locks =>
    have heq := syncRx_of_taken g off step (State.netRx_iff.mpr ⟨ht, hm, hl⟩) hs hc
    have hfull : min 16 ((s.die d).tb.syncs + 1) = 16 := by omega
    rw [if_neg (by simp [hlock]), if_pos (by simpa [hlock, hfull] using hoffs)] at heq
    obtain ⟨hlocked, hever⟩ := (s.syncCounted d off).lockTo_view d g
    have honly : Only 0xd2 s ((s.syncCounted d off).lockTo d g) := State.lockTo_only _ d g (State.updDie_only s d _ (.refl _ s) rfl) rfl
    exact ⟨_, congrArg Host.Outcome.next heq, hlocked, hever, honly.pers rfl⟩
  case timeout =>
    have honly : Only 0xd0 s (s.unlock d) := State.unlock_only s d (.refl _ s) rfl
    obtain ⟨hview, hpeer⟩ := s.unlock_view d
    exact ⟨s.unlock d, rfl, congrArg (·.1) hview, congrArg (·.2.2.1) hview, congrArg (·.2.2.2) hview, congrArg (·.1) hpeer, honly.modes rfl,
      honly.fd rfl, honly.regs rfl, honly.pers rfl⟩
  case holdover =>
    have honly := doHoldoverExpire_only s (.refl 0x10cabf6 s) rfl
    have hexec : exec .holdoverExpire s = .next (doHoldoverExpire s) := rfl
    refine ⟨_, hexec, honly.pers rfl, honly.pat rfl, fun hsh => ?_⟩
    unfold doHoldoverExpire
    rw [if_neg (by simp [h])]
    exact State.latchStanding_sets _ 60 (by simp [fswPresent]) (State.not_diverted _ 60 hsh (by decide))
  case gates =>
    have hexec : exec (.gateControlEntry d p) s = .next (doGateControlEntry d p s) := rfl
    have hnet : ((doGateControlEntry d p s).die d).net = (s.die d).net.gate s.pattern d p.val (((s.die d).net.port p.val).entry + 1) := by
      unfold doGateControlEntry
      rw [State.die_updDie]
    obtain ⟨hgates, hentry⟩ := (s.die d).net.gate_port s.pattern d p.val (((s.die d).net.port p.val).entry + 1)
    refine ⟨_, hexec, (doGateControlEntry_only d p s (.refl 0xc0 s) rfl).frame, fun hnone => ?_, fun q g hq => ?_⟩
    · have hlist : gateList s.pattern d p.val = [] := by
        obtain hnone | ⟨q, hq, hports⟩ := hnone
        · rw [hnone]
          rfl
        · rw [hq]
          exact List.filter_eq_nil_iff.mpr fun g hg => by simpa using hports g hg
      rw [hnet, hgates, hentry, hlist]
      exact ⟨rfl, rfl⟩
    · intro gs hgs hg
      have hlist : gateList s.pattern d p.val = gs := by rw [hq]; rfl
      rw [hnet, hgates, hentry, hlist, if_neg (by simpa using hgs), if_neg (by simpa using hgs), hg]
      exact ⟨rfl, rfl⟩
  case pdelay => exact congrArg Host.Outcome.next (if_neg (by simp [State.netRx_iff.mpr ⟨ht, hm, hl⟩]))
  case announce => exact congrArg Host.Outcome.next (if_neg (by simp [State.netRx_iff.mpr ⟨ht, hm, hl⟩, hdom]))
  case foreign => exact congrArg Host.Outcome.next (if_pos (by simp [hdom]))

end Sys2Proof.Machine

namespace Sys2Proof.Machine

/-! ## Ports of the F-dies (R192 to R200) -/

theorem State.fdie_updF_self (s : State) (f : Nat) (g : FDie → FDie) : (s.updF f g).fdie f = g (s.fdie f) := Tab.get_set_self _ _ _ _

theorem FDie.port_updPort (x : FDie) (d : Die) (g : FPort → FPort) : (x.updPort d g).port d = g (x.port d) := by cases d <;> rfl

theorem State.port_portTo (s : State) (d : Die) (f : Nat) (p : FPort) : ((s.portTo d f p).fdie f).port d = p := by
  unfold State.portTo
  rw [State.fdie_updF_self]
  cases d <;> rfl

theorem State.port_portTo_peer (s : State) (d : Die) (f : Nat) (p : FPort) : ((s.portTo d f p).fdie f).port d.peer = (s.fdie f).port d.peer := by
  unfold State.portTo
  rw [State.fdie_updF_self]
  cases d <;> rfl

/-- The port of a die after its trip line has been carried to the F-dies. -/
theorem State.port_driveTrips (s : State) {f : Nat} (hf : f < 4) (d : Die) :
    (s.driveTrips.fdie f).port d = if s.tripLine d then ((s.fdie f).port d).openTrip else ((s.fdie f).port d).endTrip := by
  obtain ⟨ha, hb⟩ := s.fdie_driveTrips hf
  cases d
  · exact ha
  · exact hb

theorem State.driveTrips_opens {s : State} {d : Die} (h : s.tripLine d = true) {f : Nat} (hf : f < 4) :
    ((s.driveTrips.fdie f).port d).trip = true ∧ ((s.driveTrips.fdie f).port d).closed = 0 := by
  rw [State.port_driveTrips s hf, if_pos h]
  exact ⟨rfl, rfl⟩

/-- A token that has expired is no token, whichever way it was before. -/
theorem State.expireToken_token (s : State) (d : Die) (f : Nat) : (((s.expireToken d f).fdie f).port d).token = false := by
  unfold State.expireToken
  dsimp only
  split
  next h => simpa using h
  next =>
    have hport := State.port_portTo s d f ((s.fdie f).expire ((s.fdie f).port d))
    exact congrArg FPort.token hport

/-- The suspension of read-back touches no F-die (R201). -/
theorem State.settle_only_dies (s : State) (f : Nat) (c o : BitVec 32) : Only 0xc0 s (s.settle f c o) := State.settle_only s f c o (.refl _ s) rfl

/-- A release of the trip lines closes no switch (R196). -/
theorem State.untrip_closed (s : State) {f : Nat} (hf : f < 4) (d : Die) : ((s.untrip.fdie f).port d).closed = ((s.fdie f).port d).closed := by
  have hline : ({ s with flt := { s.flt with tripA := false, tripB := false, tripLA := false, tripLB := false } } : State).tripLine d = false := by
    cases d <;> rfl
  unfold State.untrip
  rw [State.port_driveTrips _ hf, hline, if_neg (by simp)]
  change ((s.fdie f).port d).endTrip.closed = _
  unfold FPort.endTrip
  split <;> rfl

/-! ### Command frames, tick marks and tokens (R193 to R195) -/

theorem cmdFrameRx_of_reject {s : State} {d : Die} {f : Fin 4} {fr : BitVec 128} (hon : s.fOn f.val = true) (hok : frOk fr = true)
    (hseq : ((s.fdie f.val).port d).seqOk fr = false) :
    doCmdFrameRx d f fr s = (s.portTo d f.val (((s.fdie f.val).port d).reject fr)).bump 32 (0x4700 + f.val) (4 + d.n) := by
  unfold doCmdFrameRx
  dsimp only
  rw [if_neg (by simp [hon]), if_neg (by simp [hok]), if_pos (by simp [hseq])]

/-- The port of die `d` on an F-die has taken an accepted frame; a loop-back test may have ended. -/
theorem cmdFrameRx_of_accept {s : State} {d : Die} {f : Fin 4} {fr : BitVec 128} (hon : s.fOn f.val = true) (hok : frOk fr = true)
    (hseq : ((s.fdie f.val).port d).seqOk fr = true) :
    ((doCmdFrameRx d f fr s).fdie f.val).port d = (s.fdie f.val).accept ((s.fdie f.val).port d) (s.beat f.val) fr
    ∧ ((doCmdFrameRx d f fr s).fdie f.val).port d.peer = (s.fdie f.val).port d.peer ∧ Only 0x1c0 s (doCmdFrameRx d f fr s) := by
  unfold doCmdFrameRx
  rw [if_neg (by simp [hon])]
  extract_lets x p q s1 s2
  rw [if_neg (by simp [hok]), if_neg (by simpa using hseq)]
  have h1 : (s1.fdie f.val).port d = q ∧ (s1.fdie f.val).port d.peer = x.port d.peer := ⟨State.port_portTo _ _ _ _, State.port_portTo_peer _ _ _ _⟩
  have h2 : (s2.fdie f.val).port d = q ∧ (s2.fdie f.val).port d.peer = x.port d.peer := by
    dsimp only [s2]
    split
    · rw [State.fdie_updF_self]
      cases d <;> exact h1
    · exact h1
  have o2 : Only 0x100 s s2 := .ite (State.updF_only _ _ _ (State.portTo_only _ _ _ _ (.refl _ s) rfl) rfl) (State.portTo_only _ _ _ _ (.refl _ s) rfl)
  have o3 := State.settle_only_dies s2 f.val (p.cmd ^^^ q.cmd) q.cmd
  have hfd : (s2.settle f.val (p.cmd ^^^ q.cmd) q.cmd).fdie f.val = s2.fdie f.val := congrArg (Tab.get FDie.init · f.val) (o3.fd rfl)
  rw [hfd]
  exact ⟨h2.1, h2.2, o3.step (o2.step (.refl _ s) rfl) rfl⟩

theorem bitvec_and_and_not (x y : BitVec 32) : (x &&& y) &&& ~~~x = 0 := by
  ext i
  simp +contextual

theorem FDie.mayClose_of_trip {x : FDie} {p : FPort} (h : p.trip = true) (beat : Bool) : x.mayClose p beat = 0 := by
  simp [FDie.mayClose, h]

/-- No switch closes that the frame does not command closed, and none while the port is tripped. -/
theorem FDie.accept_closed (x : FDie) (p : FPort) (beat : Bool) (fr : BitVec 128) : (x.accept p beat fr).closed &&& ~~~frCmd fr = 0
    ∧ (p.trip = true → (x.accept p beat fr).closed = 0) := by
  unfold FDie.accept
  refine ⟨bitvec_and_and_not _ _, fun h => ?_⟩
  dsimp only
  rw [FDie.mayClose_of_trip (by exact h)]
  exact BitVec.and_zero

/-- A first mark with no near mark of the other port is kept with its time. -/
theorem tickMarkRx_of_first {s : State} {d : Die} {f : Fin 4} {n : Nat} (hon : s.fOn f.val = true) (hm : ((s.fdie f.val).port d).marks = 0)
    (hfar : s.tspan < 2 * (max n ((s.fdie f.val).port d.peer).markAt - min n ((s.fdie f.val).port d.peer).markAt)) :
    doTickMarkRx f d n s = s.updF f.val fun x => x.updPort d fun p => { p with marks := 1, markAt := n } := by
  have hset : (s.updF f.val fun x => x.updPort d fun p => { p with marks := min 2 (p.marks + 1), markAt := n })
      = s.updF f.val fun x => x.updPort d fun p => { p with marks := 1, markAt := n } := by
    have hport : (s.fdie f.val).updPort d (fun p => { p with marks := min 2 (p.marks + 1), markAt := n })
        = (s.fdie f.val).updPort d fun p => { p with marks := 1, markAt := n } := by
      cases d <;> simp only [FDie.updPort, FDie.port] at hm ⊢ <;> rw [hm] <;> rfl
    exact congrArg (fun x => { s with fd := Tab.set FDie.init s.fd f.val x }) hport
  unfold doTickMarkRx
  rw [if_neg (by simp [hon])]
  dsimp only
  rw [if_neg (by omega), hset]
  exact if_pos hfar

theorem tickMarkRx_of_second {s : State} {d : Die} {f : Fin 4} {n : Nat} (hon : s.fOn f.val = true) (hm : 1 ≤ ((s.fdie f.val).port d).marks) :
    ∃ u, doTickMarkRx f d n s = State.expireToken u d f.val := by
  unfold doTickMarkRx
  rw [if_neg (by simp [hon])]
  exact ⟨_, if_pos (by omega)⟩

/-- Settles O34: lines and heartbeats act through `driveTrips`, frames and tokens through the port of their die, and neither closes more than a
frame commands. -/
theorem tripLinesOpenTheirSwitches : Obligations.TripLinesOpenTheirSwitches := by
  unfold Obligations.TripLinesOpenTheirSwitches
  refine ⟨fun s d => ?trip, fun s d => ?beatL, fun s f => ?beatF, fun s => ⟨fun h => congrArg Host.Outcome.next (if_neg (by simp [h])), fun h => ?release⟩,
    fun s d f fr => ⟨fun h => congrArg Host.Outcome.next (if_pos (by simp [h])), fun hon hok => ?bad, fun hon hok hseq => ?reject, fun hon hok hseq => ?accept⟩,
    fun s d f => ⟨fun h => ?idle, fun hon htok => ?expire, fun h n => congrArg Host.Outcome.next (if_pos (by simp [h])), fun hon hm n => ?second,
      fun hon hm n hfar => congrArg Host.Outcome.next (tickMarkRx_of_first hon hm hfar)⟩,
    fun s d => ⟨fun h => congrArg Host.Outcome.next (if_neg (by simp [h])), fun h => ?hold, fun h => ⟨congrArg Host.Outcome.next (if_pos (by simp [h])), congrArg Host.Outcome.next (if_pos (by simp [h]))⟩,
      fun h => ⟨congrArg Host.Outcome.next (if_neg (by simp [h])), ?timeout⟩⟩⟩
  case trip =>
    have hexec : exec (.tripAssert d) s = .next (doTripAssert d s) := rfl
    refine ⟨_, hexec, ?_⟩
    cases d
    · exact ⟨rfl, rfl, fun f hf => State.driveTrips_opens rfl hf, rfl⟩
    · exact ⟨rfl, rfl, fun f hf => State.driveTrips_opens rfl hf, rfl⟩
  case beatL =>
    have hexec : exec (.heartbeatLoss (.lDie d)) s = .next (doHeartbeatLoss (.lDie d) s) := rfl
    refine ⟨_, hexec, ?_⟩
    unfold doHeartbeatLoss
    cases d
    · have hline : ({ s with clk := { s.clk with noBeat := s.clk.noBeat ||| 1 }, flt := { s.flt with tripLA := true, tripTicks := 0 } } : State).tripLine .a = true :=
        Bool.or_true _
      exact ⟨hline, fun f hf => (State.driveTrips_opens hline hf).2, rfl⟩
    · have hline : ({ s with clk := { s.clk with noBeat := s.clk.noBeat ||| 2 }, flt := { s.flt with tripLB := true, tripTicks := 0 } } : State).tripLine .b = true :=
        Bool.or_true _
      exact ⟨hline, fun f hf => (State.driveTrips_opens hline hf).2, rfl⟩
  case beatF =>
    have hexec : exec (.heartbeatLoss (.fDie f)) s = .next (doHeartbeatLoss (.fDie f) s) := rfl
    refine ⟨_, hexec, fun d => ?_, rfl⟩
    unfold doHeartbeatLoss
    dsimp only
    cases d
    · rw [show Die.a = Die.b.peer from rfl, State.port_portTo_peer, show Die.b.peer = Die.a from rfl, State.port_portTo]
    · rw [State.port_portTo]
  case release =>
    have hexec : exec .tripRelease s = .next ({ s with clk := { s.clk with noBeat := 0 } }.untrip) := congrArg Host.Outcome.next (if_pos h)
    refine ⟨_, hexec, rfl, rfl, fun f d hf => ?_, rfl⟩
    rw [State.untrip_closed _ hf]
    exact BitVec.and_not_self _
  case bad =>
    refine congrArg Host.Outcome.next ?_
    unfold doCmdFrameRx
    dsimp only
    rw [if_neg (by simp [hon]), if_pos (by simp [hok])]
  case reject =>
    refine ⟨_, congrArg Host.Outcome.next (cmdFrameRx_of_reject hon hok hseq), ?_, rfl⟩
    exact congrArg FPort.closed (State.port_portTo s d f.val _)
  case accept =>
    obtain ⟨hport, hpeer, honly⟩ := cmdFrameRx_of_accept hon hok hseq
    obtain ⟨hclosed, htrip⟩ := (s.fdie f.val).accept_closed ((s.fdie f.val).port d) (s.beat f.val) fr
    refine ⟨doCmdFrameRx d f fr s, rfl, ?_, ?_, ?_, ?_, fun ht => ?_, hpeer, honly.frame⟩
    all_goals rw [hport]
    · rfl
    · rfl
    · rfl
    · exact hclosed
    · exact htrip ht
  case idle =>
    refine congrArg Host.Outcome.next ?_
    unfold doKeepTokenExpire State.expireToken
    obtain h | h := h
    · rw [if_neg (by simp [h])]
    · dsimp only
      rw [if_pos (show (!((s.fdie f.val).port d).token) = true by simp [h])]
      exact ite_self _
  case expire =>
    have heq : doKeepTokenExpire d f s = (s.portTo d f.val ((s.fdie f.val).expire ((s.fdie f.val).port d))).bump 32 (0x4700 + f.val) (6 + d.n) := by
      unfold doKeepTokenExpire State.expireToken
      dsimp only
      rw [if_pos hon, if_neg (by simp [htok])]
    have hport := State.port_portTo s d f.val ((s.fdie f.val).expire ((s.fdie f.val).port d))
    exact ⟨_, congrArg Host.Outcome.next heq, congrArg FPort.token hport, congrArg FPort.seq hport, congrArg FPort.closed hport,
      State.port_portTo_peer s d f.val _, rfl⟩
  case second =>
    have honly := doTickMarkRx_only f d n s (.refl 0x10cabf6 s) rfl
    obtain ⟨u, hu⟩ := tickMarkRx_of_second (n := n) hon hm
    refine ⟨doTickMarkRx f d n s, rfl, ?_, honly.pers rfl, honly.pat rfl, honly.clk rfl⟩
    rw [hu]
    exact State.expireToken_token u d f.val
  case hold =>
    have hexec : exec (.holdModeEnter d) s = .next (s.enterHold d) := congrArg Host.Outcome.next (if_pos h)
    refine ⟨_, hexec, ?_, rfl, ?_, ?_⟩
    · cases d <;> rfl
    · cases d <;> rfl
    · cases d <;> rfl
  case timeout =>
    have hexec : exec (.holdTimeout d) s = .next ((s.updDie d fun l => { l with hold := { on := false, since := 0 } }).revert 16) :=
      congrArg Host.Outcome.next (if_neg (by simp [h]))
    have hupd : (s.updDie d fun l => { l with hold := { on := false, since := 0 } }).upd = s.upd := by cases d <;> rfl
    refine ⟨_, hexec, fun hst => ?_, fun hlo hhi => ?_, ?_, ?_⟩
    · rw [State.revert_of_idle 16 (hupd.symm ▸ hst), State.die_updDie]
    · rw [State.revert_spec 16 (hupd.symm ▸ ⟨hlo, hhi⟩)]
      exact ⟨rfl, rfl⟩
    · rw [State.revert_fd]
      cases d <;> rfl
    · rw [State.revert_modes]
      cases d <;> rfl

end Sys2Proof.Machine

namespace Sys2Proof.Machine

/-! ## CRC channels and their descriptors (R403 to R408) -/

/-- Entries of one index are read apart by their subindex. -/
theorem State.reg_setReg_sub (s : State) (idx v : Nat) {j k : Nat} (hj : j < 256) (hk : k < 256) (h : j ≠ k) :
    (s.setReg idx j v).reg idx k = s.reg idx k :=
  State.reg_setReg_ne s v fun he => h ((odKey_inj hk hj).mp he).2

theorem crcEnable_checked (s : State) (seat : Fin 8) (d : Die) (c : Fin 8) :
    Checked s (.crcEnable seat d c) [(!s.crcRight seat (8 * d.n + c.val), .rights), (s.st.crcBad.getLsbD (8 * d.n + c.val), .mode)]
      (fun u => u.crcStart (8 * d.n + c.val)) := State.refuse_checked _ _ _ _ rfl

theorem crcAbort_checked (s : State) (seat : Fin 8) (d : Die) (c : Fin 8) :
    Checked s (.crcAbort seat d c) [(!s.crcRight seat (8 * d.n + c.val), .rights)]
      (fun u => if u.crcEn (8 * d.n + c.val) || (Tab.get CrcCh.init u.crc (8 * d.n + c.val)).busy then (u.crcHalt (8 * d.n + c.val) 5 false).crcRest (8 * d.n + c.val) else u) :=
  State.refuse_checked _ _ _ _ rfl

/-! ### A channel that halts or starts -/

theorem State.crcEn_setReg (s : State) (i v : Nat) : (s.setReg (0x9000 + i) 1 v).crcEn i = bitAt v 0 := by
  unfold State.crcEn
  rw [State.reg_setReg_self]

theorem State.crcHalt_spec (s : State) (i e : Nat) (b : Bool) : (s.crcHalt i e b).crcEn i = false
    ∧ (s.crcHalt i e b).reg (0x9000 + i) 12 / 256 = e ∧ (s.crcHalt i e b).reg (0x9000 + i) 8 = s.reg (0x9000 + i) 8
    ∧ Tab.get CrcCh.init (s.crcHalt i e b).crc i = { Tab.get CrcCh.init s.crc i with
        acc := if b then 0 else (Tab.get CrcCh.init s.crc i).acc, busy := false, failed := true } := by
  have hreg (j : Nat) : (s.crcHalt i e b).reg (0x9000 + i) j
      = ((s.setReg (0x9000 + i) 1 0).setReg (0x9000 + i) 12 (256 * e + s.reg (0x9000 + i) 12 / 8 % 2 * 8)).reg (0x9000 + i) j := rfl
  refine ⟨?_, ?_, ?_, Tab.get_set_self _ _ _ _⟩
  · unfold State.crcEn
    rw [hreg, State.reg_setReg_sub _ _ _ (by decide) (by decide) (by decide), State.reg_setReg_self]
    rfl
  · rw [hreg, State.reg_setReg_self]
    omega
  · rw [hreg, State.reg_setReg_sub _ _ _ (by decide) (by decide) (by decide), State.reg_setReg_sub _ _ _ (by decide) (by decide) (by decide)]

theorem State.crcHalt_others (s : State) {i j : Nat} (e : Nat) (b : Bool) (h : j ≠ i) :
    Tab.get CrcCh.init (s.crcHalt i e b).crc j = Tab.get CrcCh.init s.crc j := Tab.get_set_ne _ _ _ _ _ h

/-- The descriptor at TAIL is refused, which halts the channel, or it leaves the entries as they are. -/
theorem State.crcNext_halts (s : State) (i : Nat) : (s.crcNext i).regs = s.regs ∨ ∃ e, s.crcNext i = s.crcHalt i e false := by
  unfold State.crcNext
  extract_lets x n r e y crc
  have hlease : y.1.regs = s.regs := (State.crcLease_only s i (.refl 0x20 s) rfl).regs rfl
  split
  · exact .inl rfl
  · split
    · exact .inr ⟨_, rfl⟩
    · split
      · exact .inl hlease
      · exact .inl hlease

theorem State.crcNext_ring (s : State) (i : Nat) : (s.crcNext i).crcRing i = s.crcRing i := by
  have hrings : (s.crcNext i).rings = s.rings := (State.crcNext_only s i (.refl 0x2220 s) rfl).rings rfl
  have hreg : (s.crcNext i).reg (0x9000 + i) 8 = s.reg (0x9000 + i) 8 := by
    obtain h | ⟨e, h⟩ := s.crcNext_halts i
    · exact congrArg (Regs.get · _) h
    · rw [h]
      obtain ⟨-, -, h8, -⟩ := s.crcHalt_spec i e false
      exact h8
  unfold State.crcRing
  rw [hrings, hreg]

/-- EN stands at 1 where the next descriptor passes its checks. -/
theorem State.crcNext_en {s : State} {i : Nat} (h : s.crcEn i = true) :
    (s.crcNext i).crcEn i = true ∨ (Tab.get CrcCh.init (s.crcNext i).crc i).failed = true := by
  obtain hr | ⟨e, he⟩ := s.crcNext_halts i
  · refine .inl ?_
    unfold State.crcEn State.reg
    rw [hr]
    exact h
  · rw [he]
    obtain ⟨-, -, -, hch⟩ := s.crcHalt_spec i e false
    exact .inr (congrArg CrcCh.failed hch)

/-- EN becomes 1, and the channel begins anew. -/
def State.crcArm (s : State) (i : Nat) : State :=
  let s1 := s.setReg (0x9000 + i) 1 1
  { s1 with crc := Tab.upd CrcCh.init s1.crc i fun (x : CrcCh) => { x with chain := false, failed := false } }

theorem State.crcStart_eq {s : State} {i : Nat} (h : s.crcEn i = false) : s.crcStart i = (s.crcArm i).crcNext i := by
  unfold State.crcStart
  rw [if_neg (by simp [h])]
  rfl

theorem State.crcArm_spec (s : State) (i : Nat) : (s.crcArm i).crcEn i = true ∧ (s.crcArm i).crcRing i = s.crcRing i := by
  refine ⟨State.crcEn_setReg s i 1, ?_⟩
  have h8 : (s.crcArm i).reg (0x9000 + i) 8 = s.reg (0x9000 + i) 8 := State.reg_setReg_sub s _ _ (by decide) (by decide) (by decide)
  unfold State.crcRing
  rw [h8]
  rfl

/-- A preset writes each parameter of its row (Table 16-1). -/
theorem State.loadPreset_reads (s : State) (i v : Nat) (p : CrcPar) : (s.loadPreset i v p).reg (0x9000 + i) 2 = v
    ∧ (s.loadPreset i v p).reg (0x9000 + i) 3 = p.width ∧ (s.loadPreset i v p).reg (0x9000 + i) 4 = p.poly ∧ (s.loadPreset i v p).reg (0x9000 + i) 5 = p.init
    ∧ (s.loadPreset i v p).reg (0x9000 + i) 6 = p.xorout ∧ (s.loadPreset i v p).reg (0x9000 + i) 7 = b2n p.refin + 2 * b2n p.refout := by
  unfold State.loadPreset
  simp [State.reg_setReg_sub]

/-! ### A descriptor that completes (R407) -/

theorem State.reg_crc (s : State) (c : Tab CrcCh) (i j : Nat) : ({ s with crc := c } : State).reg i j = s.reg i j := rfl

/-- The results of a descriptor with FINAL whose ring no other channel shares and whose bytes nothing has touched. -/
theorem State.crcFeedDesc_final {s : State} {i : Nat} {b : List Byte} (hshared : s.crcShared i = false)
    (hclean : (Tab.get CrcCh.init s.crc i).dirty = false) (hfinal : bitAt (leAt b 1 1) 1 = true) :
    (s.crcFeedDesc i b).reg (0x9000 + i) 10 = crcFinal (s.crcPar i) (crcFeed (s.crcPar i)
        (if bitAt (leAt b 1 1) 0 then (s.crcPar i).init else (Tab.get CrcCh.init s.crc i).acc)
        (s.regionBytes (unitDie i) (leAt b 0 1) (leAt b 8 8) (leAt b 4 4)))
    ∧ (s.crcFeedDesc i b).reg (0x9000 + i) 11 = leAt b 16 4 ∧ (s.crcFeedDesc i b).reg (0x9000 + i) 12 = 8
    ∧ (s.crcFeedDesc i b).reg (0x9000 + i) 13 = (s.reg (0x9000 + i) 13 + 1) % 2 ^ 32
    ∧ (s.crcFeedDesc i b).reg (0x9000 + i) 15 = (s.reg (0x9000 + i) 15 + leAt b 4 4) % 2 ^ 64 := by
  unfold State.crcFeedDesc
  simp only [hshared, hclean, hfinal, Bool.or_false, Bool.false_eq_true, if_false, if_true, State.reg_crc]
  simp [State.reg_setReg_sub, State.reg_free]

/-- Settles O46: the writes are checked, a channel halts, starts and feeds by its own operations, and a descriptor's end moves TAIL of its ring. -/
theorem crcChannelsRunTheirDescriptors : Obligations.CrcChannelsRunTheirDescriptors := by
  unfold Obligations.CrcChannelsRunTheirDescriptors
  refine ⟨fun s k d c v => ⟨crcEnable_checked s k d c, crcAbort_checked s k d c, crcPreset_checked s k d c v, fun ho hright => ⟨fun hbad => ?enable, fun hrun => ?abort, fun hen hidle => ?idle, fun p hen hp => ?preset⟩⟩,
    fun s i => ⟨fun h => if_pos h, fun hen hidle => ?start, fun e b => ?halt⟩, fun s i v p _ => s.loadPreset_reads i v p,
    fun s d c => ⟨fun h => ?notDone, fun hbusy hmem hlevel => ?emptied, fun hbusy hmem hlevel => ?done, fun b hshared hclean hfinal => State.crcFeedDesc_final hshared hclean hfinal⟩⟩
  case enable => exact (crcEnable_checked s k d c).takes_effect ho (by simp [hright, hbad])
  case abort =>
    refine ((crcAbort_checked s k d c).takes_effect ho (by simp [hright])).trans (congrArg Host.Outcome.next (if_pos ?_))
    rw [Bool.or_eq_true]
    exact hrun
  case idle =>
    refine ((crcAbort_checked s k d c).takes_effect ho (by simp [hright])).trans (congrArg Host.Outcome.next (if_neg ?_))
    rw [Bool.or_eq_true]
    rintro (h | h)
    · exact Bool.false_ne_true (hen.symm.trans h)
    · exact Bool.false_ne_true (hidle.symm.trans h)
  case preset =>
    have h := (crcPreset_checked s k d c v).takes_effect ho (by simp [hright, hen, hp])
    rw [hp] at h
    exact h
  case start =>
    obtain ⟨harmed, hring⟩ := s.crcArm_spec i
    rw [State.crcStart_eq hen]
    exact ⟨(hring.symm.trans (State.crcNext_ring _ i).symm), State.crcNext_en harmed⟩
  case halt =>
    obtain ⟨hen, h12, -, hch⟩ := s.crcHalt_spec i e b
    exact ⟨hen, congrArg CrcCh.busy hch, h12, congrArg CrcCh.acc hch, fun j hj => s.crcHalt_others e b hj⟩
  case notDone => exact congrArg Host.Outcome.next (if_pos (by simpa using h))
  case emptied =>
    refine congrArg Host.Outcome.next ?_
    unfold doCrcDescriptorDone
    dsimp only
    rw [if_neg (by simp [hbusy, hmem]), if_pos hlevel]
  case done =>
    intro u v
    have heq : doCrcDescriptorDone d c s = (v.crcRest (8 * d.n + c.val)).crcNext (8 * d.n + c.val) := by
      unfold doCrcDescriptorDone
      dsimp only
      rw [if_neg (by simp [hbusy, hmem]), if_neg hlevel]
    have hfeed : Only 0x1002200 s u := State.crcFeedDesc_only s _ _ (.refl _ s) rfl
    have hrest : Only 0x2220 v ((v.crcRest (8 * d.n + c.val)).crcNext (8 * d.n + c.val)) := State.crcNext_only _ _ (State.crcRest_only v _ (.refl _ v) rfl) rfl
    have honly := doCrcDescriptorDone_only d c s (.refl 0x1003220 s) rfl
    rw [heq] at honly
    have hrings : u.rings = s.rings := hfeed.rings rfl
    refine ⟨congrArg Host.Outcome.next heq, hrings, (hrest.rings rfl).trans ?_, honly.frame⟩
    exact congrArg (fun r : Rings => r.put _ _) hrings

end Sys2Proof.Machine

namespace Sys2Proof.Machine

/-! ## OTP, lifecycle and keys (R417 to R425, R431, R432) -/

theorem otpProg_checked (s : State) (k : Fin 8) (v : Nat) : Checked s (.otpProg k v)
    [(!s.otpMay, .busy), (!s.ownerPass k, .rights), (!s.inConf, .mode), (!(decide (v < 2 ^ 32) && s.otpOpen (s.winOf k 0xC010 0)), .range)]
    (fun u => State.leaseAsk { u with otp := { u.otp with
      op := some { die := s.srv, word := s.winOf k 0xC010 0, v := BitVec.ofNat 32 v, seat := some k.val, ans := none } } } 4 s.srv.n) :=
  State.write_checked _ _ _ _ _ _ _ rfl

theorem lcReq_checked (s : State) (k : Fin 8) (v : Nat) : Checked s (.lcReq k v)
    [(s.lcBusy || !s.otpMay, .busy), (!s.ownerPass k, .rights), (!s.inConf, .mode),
      (!(((v == 3 && s.otp.lc == 2) || (v == 4 && (s.otp.lc == 2 || s.otp.lc == 3))) && s.otp.lcRoom v), .range)]
    (fun u => u.otpWant [(16, u.otp.intent v 2)]) := State.write_checked _ _ _ _ _ _ _ rfl

theorem keyPut_checked (s : State) (k : Fin 8) (bs : List Byte) : Checked s (.keyPut k bs)
    [(s.persBusy, .busy), (!(s.ownerPass k && s.keyPlainOk k bs), .rights), (!s.modes.act.isNone, .mode), (!(s.keyPut? bs).isSome, .range)]
    (fun u => match s.keyPut? bs with
      | none => u
      | some (slot, typ, key) => (u.keyPend slot true).persist 0xC030 0 (leNat ([BitVec.ofNat 8 slot, BitVec.ofNat 8 typ] ++ key.take 16)) k) :=
  State.write_checked _ _ _ _ _ _ _ rfl

theorem keyErase_checked (s : State) (k : Fin 8) (slot : Nat) : Checked s (.keyErase k slot)
    [(s.persBusy, .busy), (!s.ownerPass k, .rights), (!s.modes.act.isNone, .mode), (!decide (slot < 16), .range)]
    (fun u => (u.keyPend slot true).persist 0xC031 0 slot k) := State.write_checked _ _ _ _ _ _ _ rfl

theorem State.otpStart_only (s : State) (x : OtpOp) : Only 0x8800 s { s.ans .ok with otp := { s.otp with op := some x } } := by
  dsimp only [Only.mk_eq]
  exact OnlyParts.otp (c := rfl) (Only.parts (State.ans_only s .ok (.refl _ s) rfl))

/-! ### The response to the lifecycle challenge (R425) -/

/-- The response after its checks, the challenge not yet spent. -/
def State.lcChecked (s : State) (k : Fin 8) (target : Nat) (sig : List Byte) : State :=
  s.write (s.lcBusy || !s.otpMay)
    (s.has k 1 && (s.otp.lcChal.isSome && s.anchorSig 0 (leBytes 8 s.otp.serial ++ leBytes 8 (s.otp.lcChal.getD 0) ++ [BitVec.ofNat 8 target]) sig))
    s.inConf (lcVendor s.otp.lc target && s.otp.lcRoom target && (target != 2 || s.otp.nextKek.isSome))
    fun s => s.otpWant [(16, s.otp.intent target 1)]

theorem doLcResp_of_modes {s : State} {k : Fin 8} {target : Nat} {sig : List Byte} (h : s.modes.mode ≠ .shelf) :
    doLcResp k target sig s = { s.lcChecked k target sig with otp := { (s.lcChecked k target sig).otp with lcChal := none } } := by
  unfold doLcResp
  rw [if_neg h]
  rfl

/-- Words that the device wants wait, and one may begin; none is programmed by that. -/
theorem State.otpWant_words (s : State) (l : List (Nat × Nat)) : (s.otpWant l).otp.words = s.otp.words := by
  have hnext (u : State) : u.otpNext.otp.words = u.otp.words := by
    have hask (v : State) : (v.leaseAsk 4 u.srv.n).otp = v.otp := (State.leaseAsk_only v 4 u.srv.n (.refl 0x20 v) rfl).otp rfl
    unfold State.otpNext
    split
    · rfl
    · split
      · rfl
      · split
        · rfl
        · rw [hask]
  exact hnext _

theorem State.lcChecked_words (s : State) (k : Fin 8) (target : Nat) (sig : List Byte) : (s.lcChecked k target sig).otp.words = s.otp.words := by
  unfold State.lcChecked
  rw [State.write_refuse]
  unfold State.refuse
  split
  · rfl
  · split
    · rfl
    · split
      · rfl
      · exact State.otpWant_words _ _

/-! ### A program operation ends (R420) -/

/-- The state after a passed operation, before its answer and what follows the word. -/
def State.otpPassed (u : State) (x : OtpOp) : State :=
  let s := u.leaseEnd 4 x.die.n
  { s with otp := { s.otp with words := s.otp.put x.word (OtpWord.of x.v), op := none, stat := 0 } }

/-- The state after a failed operation, before its answer. -/
def State.otpFailed (u : State) (x : OtpOp) : State :=
  let s := u.leaseEnd 4 x.die.n
  { s with otp := { s.otp with words := s.otp.put x.word .spent, op := none, stat := 5, failed := true } }

theorem State.leaseEnd_otp (u : State) (x : OtpOp) : (u.leaseEnd 4 x.die.n).otp = u.otp := (State.leaseEnd_only u 4 x.die.n (.refl 0x20 u) rfl).otp rfl

/-- A blank word takes what the operation leaves. -/
theorem Otp.put_of_blank {o : Otp} {n : Nat} (w : OtpWord) (h : o.word n = .blank) : Tab.get .blank (o.put n w) n = w := by
  unfold Otp.put
  rw [if_pos (show Tab.get .blank o.words n = .blank from h)]
  exact Tab.get_set_self _ _ _ _

theorem State.otpEnd_passed (u : State) (x : OtpOp) : Keeps (u.otpPassed x) (u.otpEnd x true) := by
  have h : Keeps (u.otpPassed x) (u.otpPassed x) := .refl _
  exact State.otpNext_keeps _ (State.firstRunDone_keeps _ (Keeps.ite (State.otpAns_keeps _ _ (State.ans_keeps _ _ h))
    (Keeps.ite (State.lcAfter_keeps _ _ h) (Keeps.ite (State.bump_keeps _ _ _ _ h) h))))

/-- The answer of a failed operation, where a seat waits for one. -/
def State.otpFailAns (u : State) (x : OtpOp) : State := if x.seat.isSome then (u.ansBusy 0xFFFF).otpAns x.ans else u

theorem State.otpEnd_failed (u : State) (x : OtpOp) : u.otpEnd x false = ((u.otpFailed x).otpFailAns x).latch 39 := rfl

theorem State.otpFailAns_keeps (u : State) (x : OtpOp) : Keeps u (u.otpFailAns x) :=
  Keeps.ite (State.otpAns_keeps _ _ (State.ansBusy_keeps _ _ (.refl u))) (.refl u)

theorem State.otpFailAns_only (u : State) (x : OtpOp) : Only 0xa00 u (u.otpFailAns x) :=
  Only.ite (State.otpAns_only _ _ (State.ansBusy_only _ _ (.refl _ u) rfl) rfl) (.refl _ u)

/-- A nonzero value that passed its verify is the word's content from then on. -/
theorem State.otpEnd_word {u : State} {x : OtpOp} (hblank : u.otp.word x.word = .blank) (hv : x.v ≠ 0) :
    (u.otpEnd x true).otp.word x.word = .data x.v := by
  have hword : (u.otpPassed x).otp.word x.word = .data x.v := (Otp.put_of_blank _ ((congrArg (Otp.word · x.word) (u.leaseEnd_otp x)).trans hblank)).trans (if_neg hv)
  obtain ⟨-, hkeep, -⟩ := u.otpEnd_passed x
  exact (hkeep x.word (by rw [show Tab.get _ _ _ = _ from hword]; nofun)).trans hword

/-- A blank word whose operation failed is spent. -/
theorem State.otpEnd_spent {u : State} {x : OtpOp} (hblank : u.otp.word x.word = .blank) : (u.otpEnd x false).otp.word x.word = .spent := by
  have hword : (u.otpFailed x).otp.word x.word = .spent :=
    Otp.put_of_blank _ ((congrArg (Otp.word · x.word) (u.leaseEnd_otp x)).trans hblank)
  obtain ⟨-, hkeep, -⟩ := State.latch_keeps _ 39 ((u.otpFailed x).otpFailAns_keeps x)
  exact (hkeep x.word (by rw [show Tab.get _ _ _ = _ from hword]; nofun)).trans hword

theorem State.otpEnd_latches {u : State} {x : OtpOp} (hd : u.diverted 39 = false) : (u.otpEnd x false).fswBit 39 = true := by
  have hflt : ((u.otpFailed x).otpFailAns x).flt = u.flt := ((u.otpFailed x).otpFailAns_only x).flt rfl |>.trans ((State.leaseEnd_only u 4 x.die.n (.refl 0x20 u) rfl).flt rfl)
  exact State.latch_sets _ 39 (by simp [fswPresent]) ((State.diverted_of_flt hflt (by decide)).trans hd)

theorem doOtpProgramDone_of_held {s : State} {x : OtpOp} (ok : Bool) (hop : s.otp.op = some x) (hheld : s.leaseHas 4 x.die.n = true) :
    doOtpProgramDone ok s = s.otpEnd x ok := by
  unfold doOtpProgramDone
  rw [hop]
  exact if_pos hheld

/-! ### Reads of OTP_DATA (R419) -/

/-- A read that passed: the status, the answer and its 4 octets. -/
def State.otpShown (s : State) (n : Nat) : State :=
  (({ s with otp := { s.otp with stat := s.otp.statOf n } }).ans .ok).reply (leBytes 4 (s.otp.word n).val)

theorem State.otpShown_only (s : State) (n : Nat) : Only 0x8800 s (s.otpShown n) := by
  refine State.reply_only _ _ (State.ans_only _ _ ?_ rfl) rfl
  dsimp only [Only.mk_eq]
  exact OnlyParts.otp (c := rfl) (Only.parts (.refl _ s))

/-- A word that reads, or a spent one outside the fixed area: a corrected read is counted. -/
theorem State.otpRead_sound {s : State} {n : Nat} (hn : ¬ (320 ≤ n ∧ n < 384)) (h : s.otp.word n ≠ .spent ∨ fixedWord n = false) :
    s.otpRead n = s.otpShown n ∨ s.otpRead n = (s.otpShown n).bump 32 0xC014 0 := by
  unfold State.otpRead
  rw [if_neg (by simpa using hn)]
  extract_lets o s1
  have hs1 : s1 = s.otpShown n := rfl
  clear_value s1
  subst hs1
  cases hw : s.otp.word n with
  | blank => exact .inl rfl
  | data v => exact .inl rfl
  | corrected v => exact .inr rfl
  | spent =>
    rw [hw] at h
    exact .inl (if_neg (by simpa using h))

/-- A fixed word that is spent latches OTP_ECC. -/
theorem State.otpRead_spent {s : State} {n : Nat} (hn : ¬ (320 ≤ n ∧ n < 384)) (hspent : s.otp.word n = .spent) (hfix : fixedWord n = true) :
    s.otpRead n = (s.otpShown n).latch 38 := by
  unfold State.otpRead
  rw [if_neg (by simpa using hn)]
  extract_lets o s1
  have hs1 : s1 = s.otpShown n := rfl
  clear_value s1
  subst hs1
  rw [hspent]
  exact if_pos hfix

theorem doOtpData_of_right {s : State} {k : Fin 8} (ho : s.open_) (hk : s.has k 0 = true) : doOtpData k s = s.otpRead (s.winOf k 0xC010 0) := by
  unfold doOtpData
  rw [if_neg ho.1, if_neg (by simp [ho.2]), if_neg (by simp [hk])]

theorem doLcChal_of_right {s : State} {k : Fin 8} (ho : s.open_) (hk : s.has k 0 = true) :
    doLcChal k s = (State.ans { (s.randNat 8).2 with otp := { (s.randNat 8).2.otp with lcChal := some (s.randNat 8).1 } } .ok).reply (leBytes 8 (s.randNat 8).1) := by
  unfold doLcChal
  rw [if_neg ho.1, if_neg (by simp [ho.2]), if_neg (by simp [hk])]

/-- Settles O47: the writes are checked; the end of an operation is read off `State.otpEnd`, a read off `State.otpRead`. -/
theorem otpAndKeysAreGuarded : Obligations.OtpAndKeysAreGuarded := by
  unfold Obligations.OtpAndKeysAreGuarded
  refine ⟨fun s k v => ⟨otpProg_checked s k v, fun ho hown hconf hmay => ⟨fun hv hopen => ?prog, fun hbusy hlc hroom => ?lcReq⟩⟩, lcReq_checked, keyPut_checked,
    fun s k ho hbusy hown hact => ⟨fun bs slot typ key hplain hput => ?put, fun slot hslot => ?erase⟩, keyErase_checked,
    fun s ok => ⟨fun hop => ?noOp, fun x hop hheld => ?notHeld, fun x hop hheld => ?done⟩, fun s k ho hright => ⟨?noRead, ?noChal⟩,
    fun s k ho hright => ⟨fun hlo hhi => ?keys, fun hn hw => ?read, fun hspent hfix hdiv hn => ?spent⟩,
    fun s k target sig hshelf => ⟨?respKeeps, fun ho hbusy hmay hright hconf hvendor hroom hkek c hchal hsig => ?respTakes⟩, fun s k ho hright => ?chal⟩
  case prog =>
    have hv32 : v < 4294967296 := hv
    have hexec := (otpProg_checked s k v).takes_effect ho (by simp [hown, hconf, hmay, hv32, hopen])
    have hfields (w : State) : Only 0x20 w (w.leaseAsk 4 s.srv.n) := State.leaseAsk_only w 4 s.srv.n (.refl _ w) rfl
    refine ⟨_, hexec, congrArg Bridle.last ((hfields _).br rfl), (hfields _).otp rfl, rfl, ?_⟩
    exact ((hfields _).step (Only.step (State.otpStart_only s _) (.refl 0x8820 s) rfl) rfl).frame
  case lcReq =>
    refine (lcReq_checked s k v).takes_effect ho ?_
    have hlc' : ((v == 3 && s.otp.lc == 2) || (v == 4 && (s.otp.lc == 2 || s.otp.lc == 3))) = true := by simpa using hlc
    simp [hbusy, hmay, hown, hconf, hlc', hroom]
  case put =>
    have hexec := (keyPut_checked s k bs).takes_effect ho (by simp [hbusy, hown, hplain, hact, hput])
    rw [hput] at hexec
    exact ⟨_, hexec, rfl, rfl, rfl, rfl⟩
  case erase => exact ⟨_, (keyErase_checked s k slot).takes_effect ho (by simp [hbusy, hown, hact, hslot]), rfl, rfl, rfl, rfl⟩
  case noOp =>
    refine congrArg Host.Outcome.next ?_
    unfold doOtpProgramDone
    rw [hop]
  case notHeld =>
    refine congrArg Host.Outcome.next ?_
    unfold doOtpProgramDone
    rw [hop]
    exact if_neg (by simp [hheld])
  case done =>
    have heq := doOtpProgramDone_of_held ok hop hheld
    obtain ⟨-, hkeep, -⟩ := State.otpEnd_keeps s x ok (.refl s)
    refine ⟨s.otpEnd x ok, congrArg Host.Outcome.next heq, ?_, ?_, ?_, hkeep, (State.otpEnd_only s x ok (.refl 0x12eabf6 s) rfl).frame⟩
    · rintro hblank rfl hv
      exact State.otpEnd_word hblank hv
    · rintro hblank rfl
      exact State.otpEnd_spent hblank
    · rintro rfl hd
      exact State.otpEnd_latches hd
  case noRead =>
    refine congrArg Host.Outcome.next ?_
    unfold doOtpData
    rw [if_neg ho.1, if_neg (by simp [ho.2]), if_pos (by simp [hright])]
  case noChal =>
    refine congrArg Host.Outcome.next ?_
    unfold doLcChal
    rw [if_neg ho.1, if_neg (by simp [ho.2]), if_pos (by simp [hright])]
  case keys => exact congrArg Host.Outcome.next ((doOtpData_of_right ho hright).trans (if_pos (by simp [hlo, hhi])))
  case read =>
    refine ⟨_, congrArg Host.Outcome.next (doOtpData_of_right ho hright), ?_⟩
    obtain h | h := State.otpRead_sound hn hw
    · rw [h]
      exact ⟨rfl, rfl, rfl⟩
    · rw [h]
      have hbump (u : State) : Only 0x200 u (u.bump 32 0xC014 0) := State.bump_only u 32 0xC014 0 (.refl 0x200 _) rfl
      have hotp := (hbump (s.otpShown (s.winOf k 0xC010 0))).otp rfl
      exact ⟨(congrArg Otp.words hotp).trans rfl, (congrArg Otp.op hotp).trans rfl,
        ((hbump _).step ((s.otpShown_only _).step (.refl 0x8a00 s) rfl) rfl).frame⟩
  case spent =>
    refine ⟨_, congrArg Host.Outcome.next (doOtpData_of_right ho hright), ?_⟩
    rw [State.otpRead_spent hn hspent hfix]
    exact State.latch_sets _ 38 (by simp [fswPresent]) hdiv
  case respKeeps =>
    have honly := doLcResp_only k target sig s (.refl 0x8820 s) rfl
    rw [doLcResp_of_modes hshelf] at honly
    exact ⟨_, congrArg Host.Outcome.next (doLcResp_of_modes hshelf), rfl, s.lcChecked_words k target sig, honly.frame⟩
  case respTakes =>
    refine congrArg Host.Outcome.next ((doLcResp_of_modes ho.1).trans ?_)
    have hkek' : (target != 2 || s.otp.nextKek.isSome) = true := by
      by_cases h2 : target = 2
      · simp [hkek h2]
      · simp [h2]
    have hchecked : s.lcChecked k target sig = (s.ans .ok).otpWant [(16, s.otp.intent target 1)] :=
      State.write_ok s _ _ _ _ _ ho (by simp [hbusy, hmay]) (by rw [hright, hchal, Option.getD_some, hsig]; rfl) hconf (by simp [hvendor, hroom, hkek'])
    rw [hchecked]
  case chal => exact ⟨_, congrArg Host.Outcome.next (doLcChal_of_right ho hright), rfl, rfl, rfl⟩

end Sys2Proof.Machine

namespace Sys2Proof.Machine

/-! ## Seats, passwords and plain entries (R372 to R378, R357) -/

theorem State.seat_updSeat_self (s : State) (k : Nat) (f : Seat → Seat) : (s.updSeat k f).br.seat k = f (s.br.seat k) := Tab.get_upd_self _ _ _ _

theorem State.seat_updSeat_ne (s : State) {j k : Nat} (f : Seat → Seat) (h : j ≠ k) : (s.updSeat k f).br.seat j = s.br.seat j :=
  Tab.get_upd_ne _ _ _ h

/-! ### The end of a session (R373) -/

/-- A seat without its session. -/
def Seat.out (x : Seat) : Seat := { x with sess := none, pass := false, keyGone := false }

/-- The session, the PASS mark and the subscriptions of a seat go. -/
def State.seatOut (s : State) (k : Nat) : State :=
  let s1 := s.updSeat k Seat.out
  { s1 with br := { s1.br with subs := s1.br.subs.filter fun x => x.seat != k } }

theorem State.endSession_eq (s : State) (k : Nat) : s.endSession k = if s.tst.seat = k then (s.seatOut k).testClose else s.seatOut k := rfl

theorem State.endSession_br (s : State) (k : Nat) : (s.endSession k).br = (s.seatOut k).br := by
  rw [State.endSession_eq]
  split
  · exact (State.testClose_only _ (.refl 0x100200 (s.seatOut k)) rfl).br rfl
  · rfl

theorem State.endSession_seat_self (s : State) (k : Nat) :
    (s.endSession k).br.seat k = (s.br.seat k).out :=
  (congrArg (Bridle.seat · k) (s.endSession_br k)).trans (s.seat_updSeat_self k Seat.out)

theorem State.endSession_seat_ne (s : State) {j k : Nat} (h : j ≠ k) : (s.endSession k).br.seat j = s.br.seat j :=
  (congrArg (Bridle.seat · j) (s.endSession_br k)).trans (s.seat_updSeat_ne Seat.out h)

theorem State.mem_endSession_subs (s : State) (k : Nat) (y : Sub) : y ∈ (s.endSession k).br.subs ↔ y ∈ s.br.subs ∧ y.seat ≠ k := by
  rw [s.endSession_br k]
  exact List.mem_filter.trans (and_congr_right fun _ => by simp)

theorem State.endSession_tst (s : State) {k : Nat} (hk : s.tst.seat = k) (h : s.tst.state = 1 ∨ s.tst.state = 2) :
    (s.endSession k).tst.state = 0 := by
  rw [State.endSession_eq, if_pos hk]
  unfold State.testClose
  rw [if_pos (by
    rw [Bool.or_eq_true, decide_eq_true_eq, decide_eq_true_eq]
    exact h)]
  rfl

/-! ### Login (R372) -/

/-- A seat with a fresh challenge. -/
def Seat.asked (c : Nat) (y : Seat) : Seat := { y with chal := some c }

theorem doSeatChal_open {s : State} {k : Fin 8} (ho : s.open_) :
    doSeatChal k s = (((s.ans .ok).randNat 8).2.updSeat k (Seat.asked ((s.ans .ok).randNat 8).1)).reply (leBytes 8 ((s.ans .ok).randNat 8).1) :=
  State.refuse_ok _ _ _ ho (by simp)

/-- What a login does that no erased key stops. -/
def State.login (k : Fin 8) (b : List Byte) (u : State) : State :=
  if u.loginBytes k.val = some b then (u.endSession k.val).updSeat k.val fun y =>
    { y with sess := some (u.loginToken k.val), chal := none, logFails := 0, last := u.time }
  else (u.updSeat k.val Seat.loginFail).ans .rights

theorem seatLogin_checked {s : State} {k : Fin 8} {b : List Byte}
    (h : (s.br.seat k.val).keyGone = false ∨ (s.br.seat k.val).sess.isSome = true ∨ s.serves = false) :
    Checked s (.seatLogin k b) [((s.br.seat k.val).logLock, .busy), (b.length != 12, .type)] (State.login k b) := by
  refine State.refuse_checked _ _ _ _ (congrArg Host.Outcome.next (if_neg ?_))
  obtain h | h | h := h
  · simp [h]
  · simp [Option.isSome_iff_ne_none.mp h]
  · simp [h]

theorem State.login_right (u : State) {k : Fin 8} {b : List Byte} (h : u.loginBytes k.val = some b) :
    ((State.login k b u).br.seat k.val).sess = some (u.loginToken k.val) ∧ ((State.login k b u).br.seat k.val).chal = none
    ∧ ((State.login k b u).br.seat k.val).pass = false ∧ (State.login k b u).br.last = u.br.last
    ∧ (∀ j, j ≠ k.val → (State.login k b u).br.seat j = u.br.seat j) ∧ Only 0x100a00 u (State.login k b u) := by
  unfold State.login
  rw [if_pos h, State.seat_updSeat_self, State.endSession_seat_self]
  refine ⟨rfl, rfl, rfl, (congrArg Bridle.last (u.endSession_br k) :), fun j hj => ?_, ?_⟩
  · rw [State.seat_updSeat_ne _ _ hj, State.endSession_seat_ne _ hj]
  · exact State.updSeat_only _ _ _ (State.endSession_only u k (.refl _ u) rfl) rfl

/-! ### Passwords (R378) -/

/-- A wrong password counts on the seat; the third in a row locks. -/
def Seat.passFail (y : Seat) : Seat := { y with passFails := if y.passFails = 2 then 0 else y.passFails + 1, passLock := y.passFails == 2 }

theorem loPass_checked (s : State) (k : Fin 8) (b : List Byte) :
    Checked s (.loPass k b) [((s.br.seat k.val).passLock, .busy), (s.br.hash.isEmpty, .rights), (!(decide (8 ≤ b.length) && decide (b.length ≤ 64)), .range)]
      (fun u => if u.passHash b = u.br.hash then u.updSeat k.val fun y => { y with pass := true, passFails := 0 }
        else ((u.updSeat k.val Seat.passFail).bump 16 0x1013 0).ans .rights) := State.refuse_checked _ _ _ _ rfl

theorem loPassNew_checked (s : State) (k : Fin 8) (b : List Byte) :
    Checked s (.loPassNew k b) [(s.persBusy, .busy), (!(s.owner k.val && ((s.br.seat k.val).pass || s.br.hash.isEmpty)), .rights), (!s.inConf, .mode),
      (!(decide (8 ≤ b.length) && decide (b.length ≤ 64)), .range)]
      (fun u => State.persist { u with br := { u.br with hash := u.passHash b } } 0x1012 0 (hashNum (u.passHash b)) k.val) := State.refuse_checked _ _ _ _ rfl

/-! ### REGISTER_WRITE (R355, R376) -/

theorem registerWrite_undefined {s : State} (k : Fin 8) {i j : Nat} (v : Nat) (h : s.odRow i j = none) :
    Checked s (.registerWrite k i j v) [(true, .noEntry)] id := by
  refine State.refuse_checked _ _ _ _ (congrArg Host.Outcome.next ?_)
  unfold doRegisterWrite
  rw [h]

theorem registerWrite_checked {s : State} (k : Fin 8) {i j : Nat} (v : Nat) {r : OdRow} (h : s.odRow i j = some r) (hown : ownRow i j = false ∨ r.acc = 0) :
    Checked s (.registerWrite k i j v) [(r.pers == 1 && s.persBusy, Status.busy),
      (wrAcc r i j == 0 || r.pers == 3 || s.absent i j || (decide (0xD010 ≤ i) && decide (i < 0xE000) && s.tst.state == 0), .access),
      (i == 0xC010 && within 320 383 v, .access), (!s.regRight k.val (wrAcc r i j) i j, .rights), (wrAcc r i j == 4 && !s.inConf, .mode),
      (wrAcc r i j == 3 && s.seatRunning k.val, .mode), (!s.regRange k.val r i j (wrMask i j v), .range), (s.staleOn s.srv k.val i j, .mgmtStale)]
      (fun u => u.regSet k.val r i j (wrMask i j v)) := by
  refine State.refuse_checked _ _ _ _ (congrArg Host.Outcome.next ?_)
  unfold doRegisterWrite
  rw [h]
  refine if_neg ?_
  obtain hown | hown := hown
  · simp [hown]
  · simp [hown]

/-! ### PERSISTENT_WRITE_COMMIT (R357) -/

theorem State.persDone_br (s : State) (w : PersWrite) : (s.persDone w).br.pers = s.br.pers ∧ (s.persDone w).br.writes = s.br.writes := by
  unfold State.persDone
  split
  · have hera (v : State) (c : Prop) [Decidable c] (era keyset : Nat) : (if c then v.newEra era keyset true else v).br = v.br := by
      split
      · rfl
      · rfl
    have hput (slot typ : Nat) (key : List Byte) : (if s.keys.wiped then s.keyPend slot false else s.keyPut slot typ key).br = s.br := by
      split
      · rfl
      · rfl
    have hkey (slot typ : Nat) (key : List Byte) : (s.keyCommit slot typ key).br = s.br := (hera _ _ _ _).trans (hput slot typ key)
    exact ⟨congrArg Bridle.pers (hkey _ _ _), congrArg Bridle.writes (hkey _ _ _)⟩
  · split
    · have herase (slot : Nat) : (s.keyEraseCommit slot).br.pers = s.br.pers ∧ (s.keyEraseCommit slot).br.writes = s.br.writes := by
        have hclear : (if s.keys.wiped then s.keyPend slot false else s.keyClear slot).br = s.br := by
          split
          · rfl
          · rfl
        exact ⟨(congrArg Bridle.pers hclear :), (congrArg Bridle.writes hclear :)⟩
      exact herase _
    · exact ⟨rfl, rfl⟩

/-- The answer of a commit, where a request waits for it. -/
def State.commitAns (u : State) (w : PersWrite) : State :=
  match w.ans with
  | none => u
  | some r => (u.ans .ok).sendAns r

/-- The oldest value leaves the queue and takes effect. -/
def State.persTake (s : State) (w : PersWrite) (l : List PersWrite) : State := State.persDone { s with br := { s.br with pers := l } } w

theorem doPersistentWriteCommit_cons {s : State} {w : PersWrite} {l : List PersWrite} (h : s.br.pers = w :: l) :
    doPersistentWriteCommit s = (s.persTake w l).commitAns w := by
  unfold doPersistentWriteCommit
  rw [h]
  rfl

theorem State.sendAns_br (s : State) (r : RespTo) : (s.sendAns r).br.pers = s.br.pers ∧ (s.sendAns r).br.writes = s.br.writes ∧ (s.sendAns r).br.last = s.br.last := by
  have hpost (d : Dest) (bs : List Byte) : (s.post d bs).br.pers = s.br.pers ∧ (s.post d bs).br.writes = s.br.writes ∧ (s.post d bs).br.last = s.br.last := by
    unfold State.post
    split
    · exact ⟨rfl, rfl, rfl⟩
    · exact ⟨rfl, rfl, rfl⟩
  unfold State.sendAns
  dsimp only
  split
  · exact hpost _ _
  · split
    · exact hpost _ _
    · exact hpost _ _

theorem State.commitAns_frame (u : State) (w : PersWrite) : Only 0xa00 u (u.commitAns w) := by
  unfold State.commitAns
  split
  · exact .refl _ u
  · exact State.sendAns_only _ _ (State.ans_only u .ok (.refl _ u) rfl) rfl

theorem State.commitAns_br (u : State) (w : PersWrite) : (u.commitAns w).br.pers = u.br.pers ∧ (u.commitAns w).br.writes = u.br.writes := by
  unfold State.commitAns
  split
  · exact ⟨rfl, rfl⟩
  · obtain ⟨hpers, hwrites, -⟩ := (u.ans .ok).sendAns_br _
    exact ⟨hpers, hwrites⟩

theorem State.commitAns_last {u : State} {w : PersWrite} {r : RespTo} (h : w.ans = some r) : (u.commitAns w).br.last = .ok := by
  unfold State.commitAns
  rw [h]
  obtain ⟨-, -, hlast⟩ := (u.ans .ok).sendAns_br r
  exact hlast

/-- A value that is no key is kept by the dies that run (R356). -/
theorem State.persTake_plain {s : State} {w : PersWrite} (l : List PersWrite) (h : w.idx ∉ [0xC030, 0xC031]) :
    (s.persTake w l).keys = s.keys ∧ (s.persTake w l).pers = {
      a := if s.admitted .a then Regs.set s.pers.a (odKey w.idx w.sub) w.val else s.pers.a
      b := if s.admitted .b then Regs.set s.pers.b (odKey w.idx w.sub) w.val else s.pers.b } := by
  simp only [List.mem_cons, List.not_mem_nil, or_false, not_or] at h
  obtain ⟨h30, h31⟩ := h
  unfold State.persTake State.persDone
  rw [if_neg h30, if_neg h31]
  exact ⟨rfl, rfl⟩

/-- Settles O40: the checked rows, the seat that a session's end or a login leaves, and the value that a commit keeps. -/
theorem seatsLogInAndOut : Obligations.SeatsLogInAndOut := by
  unfold Obligations.SeatsLogInAndOut
  refine ⟨fun s k ho => ?chal, fun s k b => ⟨fun hgone hsess hserves => ?gone, seatLogin_checked, fun ho hgone hlock hlen hright => ?login, fun ho hgone hlock hlen hwrong => ?wrong⟩,
    fun s k => ?timeout, fun s k b => ⟨loPass_checked s k b, loPassNew_checked s k b⟩, fun s => ⟨rfl, fun k => ⟨rfl, rfl⟩, rfl, rfl⟩,
    fun s k b ho hlo hhi => ⟨fun hlock hset => ⟨fun heq => ?pass, fun hne => ?fail⟩, fun hbusy hown hmay hconf => ?new⟩,
    fun s k i j v => ⟨registerWrite_undefined k v, fun hrow ho => ?undefined, fun r hrow => ⟨fun hown hacc => ?own, fun hown => ?write⟩⟩,
    fun s => ⟨fun h => ?noWrite, fun w l h => ?commit⟩⟩
  case chal =>
    have hexec : exec (.seatChal k) s = .next (doSeatChal k s) := rfl
    rw [doSeatChal_open ho] at hexec
    exact ⟨_, _, hexec, rfl, rfl, (State.seat_updSeat_self ((s.ans .ok).randNat 8).2 k (Seat.asked _) :),
      fun j hj => (State.seat_updSeat_ne ((s.ans .ok).randNat 8).2 (Seat.asked _) hj :), rfl⟩
  case gone => exact congrArg Host.Outcome.next (if_pos (by simp [hgone, hsess, hserves]))
  case login =>
    have hexec := (seatLogin_checked (b := b) (.inl hgone)).takes_effect ho (by simp [hlock, hlen])
    obtain ⟨hsess, hchal, hpass, hlast, hne, honly⟩ := (s.ans .ok).login_right hright
    exact ⟨_, hexec, hsess, hchal, hpass, hlast, hne, honly.frame⟩
  case wrong =>
    have hexec := (seatLogin_checked (b := b) (.inl hgone)).takes_effect ho (by simp [hlock, hlen])
    have hfail : State.login k b (s.ans .ok) = ((s.ans .ok).updSeat k.val Seat.loginFail).ans .rights := if_neg hwrong
    rw [hfail] at hexec
    exact ⟨_, hexec, rfl, (State.seat_updSeat_self (s.ans .ok) _ Seat.loginFail).trans rfl⟩
  case timeout =>
    refine ⟨s.endSession k, rfl, ?_, ?_, s.mem_endSession_subs k, fun j hj => s.endSession_seat_ne hj, fun hk hst => s.endSession_tst hk hst, fun hk => ?_,
      (State.endSession_only s k (.refl 0x100a00 s) rfl).frame⟩
    · rw [s.endSession_seat_self k]
      rfl
    · rw [s.endSession_seat_self k]
      rfl
    · rw [State.endSession_eq, if_neg hk]
      rfl
  case pass =>
    refine ((loPass_checked s k b).takes_effect ho (by simp [hlock, hset, hlo, hhi])).trans (congrArg Host.Outcome.next (if_pos heq))
  case fail =>
    refine ⟨_, ((loPass_checked s k b).takes_effect ho (by simp [hlock, hset, hlo, hhi])).trans (congrArg Host.Outcome.next (if_neg hne)), rfl, ?_, ?_, fun j hj => ?_, rfl⟩
    · exact State.reg_setReg_self _ _ _ _
    · exact (State.seat_updSeat_self (s.ans .ok) k Seat.passFail).trans rfl
    · exact State.seat_updSeat_ne (s.ans .ok) Seat.passFail hj
  case new =>
    have hmay' : ((s.br.seat k.val).pass || s.br.hash.isEmpty) = true := by
      obtain h | h := hmay
      · simp [h]
      · simp [h]
    have hconf' : s.inConf = true := by simp [State.inConf, hconf]
    exact ⟨_, (loPassNew_checked s k b).takes_effect ho (by simp [hbusy, hown, hmay', hconf', hlo, hhi]), rfl, rfl, rfl, rfl⟩
  case undefined =>
    exact (registerWrite_undefined k v hrow).answers ho (x := (true, .noEntry)) (by simp)
  case own =>
    refine congrArg Host.Outcome.next ?_
    unfold doRegisterWrite
    rw [hrow]
    exact if_pos (by simp [hown, hacc])
  case write =>
    intro l
    have hchecked := registerWrite_checked k v hrow hown
    obtain ⟨-, -, -, htakes⟩ := hchecked
    exact ⟨registerWrite_checked k v hrow hown, htakes⟩
  case noWrite =>
    refine congrArg Host.Outcome.next ?_
    unfold doPersistentWriteCommit
    rw [h]
  case commit =>
    obtain ⟨hpers, hwrites⟩ := (s.persTake w l).commitAns_br w
    obtain ⟨hpers', hwrites'⟩ := State.persDone_br { s with br := { s.br with pers := l } } w
    have hframe := (s.persTake w l).commitAns_frame w
    refine ⟨_, congrArg Host.Outcome.next (doPersistentWriteCommit_cons h), hpers.trans hpers', hwrites.trans hwrites', fun hplain => ?_, fun r hr => State.commitAns_last hr⟩
    obtain ⟨hkeys, hkept⟩ := s.persTake_plain l hplain
    have hflash := (hframe.pers rfl).trans hkept
    exact ⟨(hframe.keys rfl).trans hkeys, congrArg Pers.a hflash, congrArg Pers.b hflash⟩

end Sys2Proof.Machine

namespace Sys2Proof.Machine

/-! ## Loading, checking and confirming a candidate (R66, R69, R87 to R91) -/

/-- A checked command leaves the state alone where nothing is served, refuses with a status that is not OK, or takes effect. -/
theorem Checked.outcome {s : State} {c : Instr} {l : List (Bool × Status)} {f : State → State} (h : Checked s c l f) (hl : ∀ x ∈ l, x.2 ≠ .ok) :
    (¬ s.open_ ∧ exec c s = .next s) ∨ (∃ st, st ≠ Status.ok ∧ exec c s = .next (s.ans st)) ∨ exec c s = .next (f (s.ans .ok)) := by
  by_cases hshelf : s.modes.mode = .shelf
  · exact .inl ⟨fun ho => ho.1 hshelf, h.1 hshelf⟩
  · by_cases hserves : s.serves = true
    · have ho : s.open_ := ⟨hshelf, hserves⟩
      cases hfind : l.find? fun x => x.1 with
      | none => exact .inr (.inr (h.takes_effect ho hfind))
      | some x => exact .inr (.inl ⟨x.2, hl x (List.mem_of_find?_eq_some hfind), h.answers ho hfind⟩)
    · exact .inr (.inl ⟨.mode, by decide, h.2.1 hshelf (by simpa using hserves)⟩)

/-! ### PAT_IMAGE -/

/-- The effect of PAT_IMAGE. -/
def State.patWrite (o : Nat) (data : List Byte) (u : State) : State :=
  if 16777216 < o + data.length then u.ans .bounds
  else if data.isEmpty || 1024 < data.length then u.ans .range
  else { u with pat := { u.pat with
    fa := if u.admitted .a then u.pat.fa.put o data else u.pat.fa, fb := if u.admitted .b then u.pat.fb.put o data else u.pat.fb,
    torn := u.pat.torn || u.pat.loading || u.loadWaits } }

theorem patImage_checked (s : State) (k : Fin 8) (o : Nat) (data : List Byte) :
    Checked s (.patImage k o data) [(!s.has k.val 2, Status.rights), (!s.inConf, .mode)] (State.patWrite o data) :=
  State.write_checked_ft _ _ _ _ _ rfl

/-- Data reach the inactive slot alone. -/
theorem PatFlash.put_reads (f : PatFlash) (o : Nat) (data : List Byte) :
    (∀ i, (h : i < data.length) → (f.put o data).cand.img.read (o + i) = data[i])
    ∧ (∀ a, a < o ∨ o + data.length ≤ a → (f.put o data).cand.img.read a = f.cand.img.read a) ∧ (f.put o data).cand.len = max f.cand.len (o + data.length)
    ∧ (f.put o data).active = f.active ∧ (f.put o data).marker = f.marker ∧ (f.put o data).log = f.log := by
  have hcand : (f.put o data).cand = f.cand.put o data ∧ (f.put o data).active = f.active ∧ (f.put o data).marker = f.marker ∧ (f.put o data).log = f.log := by
    unfold PatFlash.put PatFlash.cand PatFlash.active
    by_cases h : f.marker = 0
    · simp [h]
    · simp [h]
  obtain ⟨hslot, hactive, hmarker, hlog⟩ := hcand
  rw [hslot]
  exact ⟨fun i h => Mem.read_writeL _ _ _ _ h, fun a h => Mem.read_writeL_outside _ _ _ _ h, rfl, hactive, hmarker, hlog⟩

/-! ### LOAD, DISCARD, PATTERN_CHECK_DONE -/

/-- The effect of LOAD. -/
def State.loadBegin (u : State) : State := { u.dropCand with pat := { u.dropCand.pat with loading := true, loadErr := 0 } }

/-- The effect of DISCARD. -/
def State.discard (u : State) : State := { u.dropCand with pat := { u.dropCand.pat with loading := false } }

theorem load_checked (s : State) (k : Fin 8) : Checked s (.load k) [(!s.has k.val 2, .rights), (!(s.inConf && s.otp.lc == 2), .mode)] State.loadBegin :=
  State.write_checked_ft _ _ _ _ _ rfl

theorem discard_checked (s : State) (k : Fin 8) : Checked s (.discard k) [(!s.has k.val 2, Status.rights), (!s.inConf, .mode)] State.discard :=
  State.write_checked_ft _ _ _ _ _ rfl

theorem State.takeCand_pat (s : State) (p : Pattern) :
    (s.takeCand p).pat = { s.pat with cand := some p, state := 1, loadErr := 0, loading := false, torn := false } := by
  unfold State.takeCand
  dsimp only
  rw [State.causeOff_pat, State.causeOff_pat, (State.ringsFor_only _ p (.refl 0x1000 _) rfl).pat rfl]

theorem doPatternCheckDone_of_whole {s : State} (hload : s.pat.loading = true) (htorn : s.pat.torn = false) :
    doPatternCheckDone s = if (if s.admitted .a && s.admitted .b then loadErr s.order s.modes.spanK s.pat.fa.cand.bytes s.pat.fb.cand.bytes else 6) = 0
      then s.takeCand (readBoth s.pat.fa.cand.bytes s.pat.fb.cand.bytes)
      else s.failCand (if s.admitted .a && s.admitted .b then loadErr s.order s.modes.spanK s.pat.fa.cand.bytes s.pat.fb.cand.bytes else 6) := by
  unfold doPatternCheckDone
  rw [if_neg (by simp [hload]), if_neg (by simp [htorn])]

/-- The checks end with a candidate or without one. -/
theorem doPatternCheckDone_ends {s : State} (hload : s.pat.loading = true) : ∃ u : State, u.pat = s.pat
    ∧ ((∃ p, doPatternCheckDone s = u.takeCand p) ∨ ∃ e, doPatternCheckDone s = u.failCand e) := by
  unfold doPatternCheckDone
  rw [if_neg (by simp [hload])]
  split
  · exact ⟨s.free.2.free.2, rfl, (ite_eq_or_eq _ _ _).imp (fun h => ⟨_, h⟩) fun h => ⟨_, h⟩⟩
  · exact ⟨s, rfl, (ite_eq_or_eq _ _ _).imp (fun h => ⟨_, h⟩) fun h => ⟨_, h⟩⟩

/-- The first check that fails is that of L-A, then that of L-B, then the comparison of the signatures (R69). -/
theorem loadErr_eq_zero_iff (order k : Nat) (a b : List Byte) : loadErr order k a b = 0 ↔ dieErr order k .a a = 0 ∧ dieErr order k .b b = 0
    ∧ (readPattern a).sig32 = (readPattern b).sig32 ∧ (readPattern a).sig64 = (readPattern b).sig64 := by
  unfold loadErr
  by_cases ha : dieErr order k .a a = 0
  · by_cases hb : dieErr order k .b b = 0
    · simp [ha, hb]
    · simp [ha, hb]
  · simp [ha]

/-! ### CONFIRM and CHANGE_LOG_COMMIT -/

/-- The effect of CONFIRM, with the record that it writes. -/
def State.confirmWith (b : List Byte) (rec_ : List (List Byte)) (u : State) : State :=
  match u.pat.cand with
  | none => u
  | some p => if b = leBytes 4 p.sig32 ++ leBytes 8 p.sig64 then
      { u with pat := { u.pat with confirming := true }, br := { u.br with confFails := 0 }, rings := { u.rings with pend := rec_ } }
    else u.confirmFail

theorem confirm_checked (s : State) (k : Fin 8) (b : List Byte) :
    Checked s (.confirm k b) [(s.br.confLock || decide (65536 < s.rings.log.length + ((s.pat.cand.map fun p => s.logRecord k.val p).getD []).length) || s.pat.confirming, .busy),
        (!(s.has k.val 2 && (!(s.pat.cand.map Pattern.large).getD false || (s.br.seat k.val).pass)), .rights), (!(s.inConf && s.pat.state == 1), .mode)]
      (State.confirmWith b ((s.pat.cand.map fun p => s.logRecord k.val p).getD [])) :=
  State.write_checked_t _ _ _ _ _ _ rfl

theorem State.confirmFail_spec (u : State) : u.confirmFail.br.last = .range ∧ u.confirmFail.br.confLock = decide (2 ≤ u.br.confFails)
    ∧ u.confirmFail.br.confFails = (if 2 ≤ u.br.confFails then 0 else u.br.confFails + 1) ∧ u.confirmFail.pat = u.pat
    ∧ u.confirmFail.reg 0x5005 0 = satInc 16 (u.reg 0x5005 0) ∧ Only 0xa00 u u.confirmFail := by
  have h3 : 3 ≤ u.br.confFails + 1 ↔ 2 ≤ u.br.confFails := by omega
  refine ⟨rfl, decide_eq_decide.mpr h3, if_congr h3 rfl rfl, rfl, State.reg_setReg_self _ _ _ _, State.confirmFail_only u (.refl _ u) rfl⟩

theorem State.confirmWith_some {u : State} {p : Pattern} (b : List Byte) (rec_ : List (List Byte)) (h : u.pat.cand = some p) :
    State.confirmWith b rec_ u = if b = leBytes 4 p.sig32 ++ leBytes 8 p.sig64 then
      { u with pat := { u.pat with confirming := true }, br := { u.br with confFails := 0 }, rings := { u.rings with pend := rec_ } } else u.confirmFail := by
  unfold State.confirmWith
  rw [h]

theorem State.confirm_open (s : State) {k : Fin 8} {p : Pattern} (hlock : s.br.confLock = false) (hconfirming : s.pat.confirming = false)
    (hp : s.pat.cand = some p) (hroom : s.rings.log.length + (s.logRecord k.val p).length ≤ 65536) (hright : s.has k.val 2 = true)
    (hpass : Pattern.large p = false ∨ (s.br.seat k.val).pass = true) (hconf : s.inConf = true) (hst : s.pat.state = 1) :
    ([(s.br.confLock || decide (65536 < s.rings.log.length + ((s.pat.cand.map fun p => s.logRecord k.val p).getD []).length) || s.pat.confirming, Status.busy),
        (!(s.has k.val 2 && (!(s.pat.cand.map Pattern.large).getD false || (s.br.seat k.val).pass)), .rights), (!(s.inConf && s.pat.state == 1), .mode)].find?
      fun x => x.1) = none := by
  have hlarge : (!Pattern.large p || (s.br.seat k.val).pass) = true := by simpa using hpass
  rw [hp, Option.map_some, Option.getD_some, Option.map_some, Option.getD_some, hlarge]
  simp [hlock, hconfirming, hroom, hright, hconf, hst]

/-- The record is appended whole, and the confirmation takes effect. -/
def State.logged (s : State) : State :=
  let x := s.logAppend s.rings.pend
  { x.1 with pat := { x.1.pat with confirming := false, state := 2 }, rings := { x.1.rings with pend := [] } }

/-- The record does not fit: the confirmation ends without effect. -/
def State.unlogged (s : State) : State := { s with pat := { s.pat with confirming := false }, rings := { s.rings with pend := [] } }

theorem doChangeLogCommit_of_waiting {s : State} (hc : s.pat.confirming = true) (hst : s.pat.state = 1) :
    doChangeLogCommit s = if s.rings.log.length + s.rings.pend.length ≤ 65536 then s.logged else s.unlogged := by
  unfold doChangeLogCommit State.logged State.logAppend
  rw [if_neg (by simp [hc, hst])]
  split
  · rfl
  · rfl

theorem State.logged_spec {s : State} (h : s.rings.log.length + s.rings.pend.length ≤ 65536) : s.logged.pat.confirming = false ∧ s.logged.rings.pend = []
    ∧ s.logged.pat.state = 2 ∧ s.logged.rings.log = s.rings.log ++ s.rings.pend
    ∧ s.logged.pat.fa.log = (if s.admitted .a then s.pat.fa.log ++ s.rings.pend else s.pat.fa.log)
    ∧ s.logged.pat.fb.log = (if s.admitted .b then s.pat.fb.log ++ s.rings.pend else s.pat.fb.log)
    ∧ s.logged.pat.active = s.pat.active ∧ s.logged.pat.cand = s.pat.cand := by
  unfold State.logged State.logAppend
  rw [if_pos h]
  exact ⟨rfl, rfl, rfl, rfl, apply_ite PatFlash.log _ _ _, apply_ite PatFlash.log _ _ _, rfl, rfl⟩

/-- Settles O41: the checked writes, the slot that data reach, the outcome of the checks and the record that confirms. -/
theorem patternsAreLoadedCheckedAndConfirmed : Obligations.PatternsAreLoadedCheckedAndConfirmed := by
  unfold Obligations.PatternsAreLoadedCheckedAndConfirmed
  refine ⟨fun s k o data => ⟨patImage_checked s k o data, fun ho hright hconf hin hlo hhi => ?image, fun ho hright hconf => ⟨?discard, fun hlc => ?load⟩, discard_checked s k, load_checked s k⟩,
    fun s c hc => ?either, fun s => ⟨fun h => ?noLoad, fun hload htorn => ⟨fun he => ?passed, fun he => ?failed⟩, fun hload => ?ends⟩,
    fun order k a b => ⟨loadErr_eq_zero_iff order k a b, fun ha => ?firstA, fun ha hb => ?firstB⟩,
    fun s k b => ⟨confirm_checked s k b, fun p ho hlock hconfirming hp hroom hright hpass hconf hst => ⟨fun heq => ?right, fun hne => ?wrong⟩, fun u => ?fails⟩,
    fun s => ⟨fun h => ?noCommit, fun hc hst => ?commit⟩⟩
  case image =>
    have hexec := (patImage_checked s k o data).takes_effect ho (by simp [hright, hconf])
    unfold State.patWrite at hexec
    rw [if_neg (by omega), if_neg (by simp [List.ne_nil_of_length_pos hlo, hhi])] at hexec
    have hkept (d : Die) (f : PatFlash) (h : s.admitted d = false) : (if (s.ans .ok).admitted d then f.put o data else f) = f :=
      if_neg (show ¬ s.admitted d = true by simp [h])
    have hput (d : Die) (f : PatFlash) (h : s.admitted d = true) : (if (s.ans .ok).admitted d then f.put o data else f) = f.put o data := if_pos h
    refine ⟨_, hexec, rfl, fun ha => ?_, hkept .a _, fun hb => ?_, hkept .b _, rfl, rfl⟩
    · have hreads := s.pat.fa.put_reads o data
      rw [← hput .a _ ha] at hreads
      exact hreads
    · have hreads := s.pat.fb.put_reads o data
      rw [← hput .b _ hb] at hreads
      exact hreads
  case discard =>
    exact ⟨_, (discard_checked s k).takes_effect ho (by simp [hright, hconf]), ⟨rfl, rfl, rfl⟩, rfl⟩
  case load =>
    exact ⟨_, (load_checked s k).takes_effect ho (by simp [hright, hconf, hlc]), ⟨rfl, rfl, rfl⟩, rfl⟩
  case either =>
    obtain ⟨k, rfl | rfl⟩ := hc
    · obtain ⟨hclosed, h⟩ | ⟨st, hst, h⟩ | h := (load_checked s k).outcome (by simp)
      · exact ⟨_, h, rfl, fun _ ho => absurd ho hclosed, rfl⟩
      · exact ⟨_, h, rfl, fun hok => absurd hok hst, rfl⟩
      · exact ⟨_, h, rfl, fun _ _ => ⟨rfl, rfl, rfl, rfl⟩, rfl⟩
    · obtain ⟨hclosed, h⟩ | ⟨st, hst, h⟩ | h := (discard_checked s k).outcome (by simp)
      · exact ⟨_, h, rfl, fun _ ho => absurd ho hclosed, rfl⟩
      · exact ⟨_, h, rfl, fun hok => absurd hok hst, rfl⟩
      · exact ⟨_, h, rfl, fun _ _ => ⟨rfl, rfl, rfl, rfl⟩, rfl⟩
  case noLoad =>
    refine congrArg Host.Outcome.next ?_
    unfold doPatternCheckDone
    rw [if_pos (by simp [h])]
  case passed =>
    refine ⟨_, congrArg Host.Outcome.next ((doPatternCheckDone_of_whole hload htorn).trans (if_pos he)), (State.takeCand_pat _ _).trans ?_⟩
    rw [← htorn]
  case failed =>
    refine ⟨_, congrArg Host.Outcome.next ((doPatternCheckDone_of_whole hload htorn).trans (if_neg he)), ?_⟩
    unfold State.failCand
    rw [← htorn]
  case ends =>
    have hframe := (doPatternCheckDone_only s (.refl 0x1201010 s) rfl).frame
    obtain ⟨u, hu, ⟨p, h⟩ | ⟨e, h⟩⟩ := doPatternCheckDone_ends hload
    · have hpat : (doPatternCheckDone s).pat = _ := (congrArg State.pat h).trans (State.takeCand_pat u p)
      rw [hu] at hpat
      exact ⟨_, rfl, congrArg PatStore.loading hpat, congrArg PatStore.torn hpat, (congrArg PatStore.active hpat :), (congrArg PatStore.fa hpat :), (congrArg PatStore.fb hpat :), hframe⟩
    · have hpat : (doPatternCheckDone s).pat = { u.pat with cand := none, state := u.patBase, loadErr := e, loading := false, torn := false } := congrArg State.pat h
      rw [hu] at hpat
      exact ⟨_, rfl, congrArg PatStore.loading hpat, congrArg PatStore.torn hpat, (congrArg PatStore.active hpat :), (congrArg PatStore.fa hpat :), (congrArg PatStore.fb hpat :), hframe⟩
  case firstA => exact if_pos (by simp [ha])
  case firstB => exact (if_neg (by simp [ha])).trans (if_pos (by simp [hb]))
  case right =>
    have hexec := (confirm_checked s k b).takes_effect ho (s.confirm_open hlock hconfirming hp hroom hright hpass hconf hst)
    rw [State.confirmWith_some b _ (u := s.ans .ok) hp, if_pos heq] at hexec
    refine ⟨_, hexec, rfl, rfl, rfl, ?_, rfl⟩
    rw [hp]
    rfl
  case wrong =>
    have hexec := (confirm_checked s k b).takes_effect ho (s.confirm_open hlock hconfirming hp hroom hright hpass hconf hst)
    rw [State.confirmWith_some b _ (u := s.ans .ok) hp, if_neg hne] at hexec
    obtain ⟨hlast, hlocked, hfails, -, hreg, honly⟩ := (s.ans .ok).confirmFail_spec
    exact ⟨_, hexec, hlast, hreg, hfails, hlocked, honly.frame⟩
  case fails =>
    obtain ⟨hlast, hlocked, -, hpat, hreg, -⟩ := u.confirmFail_spec
    exact ⟨hlast, hlocked, hpat, hreg⟩
  case noCommit =>
    refine congrArg Host.Outcome.next ?_
    unfold doChangeLogCommit
    exact if_pos (by simpa using h)
  case commit =>
    have hframe := (doChangeLogCommit_only s (.refl 0x201000 s) rfl).frame
    have heq := doChangeLogCommit_of_waiting hc hst
    rw [heq] at hframe
    by_cases hfit : s.rings.log.length + s.rings.pend.length ≤ 65536
    · rw [if_pos hfit] at heq hframe
      obtain ⟨hconf, hpend, hstate, hlog, hfa, hfb, hactive, hcand⟩ := State.logged_spec hfit
      exact ⟨_, congrArg Host.Outcome.next heq, hconf, hpend, fun _ => ⟨hstate, hlog, hfa, hfb⟩, fun h => absurd hfit (by omega), hactive, hcand, hframe⟩
    · rw [if_neg hfit] at heq hframe
      exact ⟨_, congrArg Host.Outcome.next heq, rfl, rfl, fun h => absurd h hfit, fun _ => ⟨hst, rfl⟩, rfl, rfl, hframe⟩

end Sys2Proof.Machine

namespace Sys2Proof.Machine

/-! ## Jobs, disagreements and the commit point (R54, R57, R75, R76, R151, R153, R157) -/

/-! ### A job that ends outside a replay -/

/-- How far the replay of a die has come. -/
def LDie.stage (l : LDie) : Stage := l.cmp.stage

theorem State.countCompares_stage (s : State) (d : Die) (c : Cmp) : SameDies LDie.stage s (s.countCompares d c) :=
  .of_only (m := 0x200) (State.countCompares_only s d c (.refl _ s) rfl) rfl rfl

theorem State.formRecords_stage (s : State) (d : Die) (p : Pattern) : SameDies LDie.stage s (s.formRecords d p) := by
  unfold State.formRecords
  refine SameDies.trans (SameDies.setDie d ?_) (State.countCompares_stage _ d _)
  rfl

theorem State.sendReady_stage (s : State) (d : Die) : SameDies LDie.stage s (s.sendReady d) :=
  .ite (.refl s) (.updDie d fun _ => rfl)

/-- Retiring and dispatching begin no replay. -/
theorem State.advance_stage {s : State} {d : Die} (p : Pattern) (h : (s.die d).cmp.stage = .none) : SameDies LDie.stage s (s.advance d p) := by
  have hset (e : Engine) (tb : Timebase) : SameDies LDie.stage s (s.setDie d { s.die d with eng := e, tb := tb }) := .setDie d rfl
  have hreg (u : State) (i j v : Nat) : SameDies LDie.stage u (u.setReg i j v) := .of_dies rfl rfl
  have hready (u : State) : SameDies LDie.stage u (u.ready d p) := .ite (State.sendReady_stage u d) (.refl u)
  have hne : ¬ (s.die d).cmp.stage = .eval := by
    rw [h]
    decide
  unfold State.advance
  dsimp only
  rw [if_neg hne, if_neg hne]
  exact .ite ((hset _ _).trans ((hreg _ _ _ _).trans ((State.formRecords_stage _ d p).trans (hready _))))
    ((hset _ (s.die d).tb).trans (State.formRecords_stage _ d p))

theorem State.settleReplay_of_none {s : State} {d : Die} (h : (s.die d).cmp.stage = .none) : s.settleReplay d = s := by
  unfold State.settleReplay
  cases s.pattern with
  | none => rfl
  | some p => exact if_pos (by simp [h])

/-! ### A lane that fails (R76) -/

theorem dieBit_lane_ne (d : Die) : dieBit d 0 ≠ 57 := by cases d <;> decide

theorem fswPresent_lane (order : Nat) (d : Die) : fswPresent order (dieBit d 0) = true := by
  cases d <;> simp [fswPresent, dieBit, Die.n]

/-- The first error of a job latches the lane-error bit of its die. -/
theorem State.laneFail_sets {s : State} {d : Die} {lane q : Nat} (p : Pattern) (hq : Tab.get LaneSt.free (s.die d).eng.lanes lane = .busy q)
    (herr : q ∉ (s.die d).eng.errs) (hsh : s.flt.shadows = []) : (s.laneFail d lane p).fswBit (dieBit d 0) = true := by
  have hsets (l : LDie) : (((s.setDie d l).causeOn (dieBit d 0)).latch (dieBit d 0)).fswBit (dieBit d 0) = true := by
    refine State.latch_sets _ _ (fswPresent_lane _ d) (State.not_diverted _ _ ?_ (dieBit_lane_ne d))
    cases d <;> exact hsh
  unfold State.laneFail
  dsimp only
  rw [hq]
  dsimp only
  rw [if_neg (by simpa using herr)]
  exact hsets _

/-! ### The commit point -/

/-- The die at its commit point: in phase S, the reactions due taken (R54, R296). -/
def State.atCommit (s : State) (d : Die) : State :=
  State.updDie { s with flt := s.flt.takeLocks d s.time } d fun l => { l with tb := { l.tb with phase := .s } }

/-- The self-test slice that begins in phase S (R435). -/
def State.openSlice (s : State) (d : Die) (n : Nat) : State :=
  if d = s.srv then { s.granStart d n with st := { (s.granStart d n).st with slice := (s.granStart d n).sliceIn n } } else s.granStart d n

theorem State.openSlice_only (s : State) (d : Die) (n : Nat) : Only 0x40000 s (s.openSlice d n) := by
  have h : Only 0x40000 s (s.granStart d n) := State.granStart_only s d n (.refl _ s) rfl
  refine .ite ?_ h
  dsimp only [Only.mk_eq]
  exact OnlyParts.st (c := rfl) h.parts

theorem State.atCommit_die (s : State) (d : Die) : (s.atCommit d).die d = { s.die d with tb := { (s.die d).tb with phase := .s } } := by
  cases d <;> rfl

/-- The die at a commit point that is no overrun. -/
def State.calmed (s : State) (d : Die) : State := (s.atCommit d).updDie d fun l => { l with cmp := { l.cmp with overPrev := false } }

theorem State.calmed_die (s : State) (d : Die) :
    (s.calmed d).die d = { s.die d with tb := { (s.die d).tb with phase := .s }, cmp := { (s.die d).cmp with overPrev := false } } := by
  cases d <;> rfl

theorem State.atCommit_only (s : State) (d : Die) : Only 0xd0 s (s.atCommit d) := by
  refine State.updDie_only _ _ _ ?_ rfl
  dsimp only [Only.mk_eq]
  exact OnlyParts.flt (c := rfl) (Only.parts (.refl _ s))

theorem State.calmed_only (s : State) (d : Die) : Only 0xd0 s (s.calmed d) := State.updDie_only _ _ _ (s.atCommit_only d) rfl

theorem State.calmed_flt (s : State) (d : Die) : (s.calmed d).flt = s.flt.takeLocks d s.time := by
  cases d <;> rfl

theorem State.evals_atCommit (s : State) (d : Die) : (s.atCommit d).evals d = s.evals d := by
  cases d <;> rfl

/-- What the commit point decides, before the self-test slice. -/
def State.commitJudged (s : State) (d : Die) : State :=
  match (s.atCommit d).pattern with
  | some p => if (s.atCommit d).evals d then (s.atCommit d).judge d p (s.dueLocks d) else (s.atCommit d).idleCommit d (s.dueLocks d)
  | none => (s.atCommit d).idleCommit d (s.dueLocks d)

theorem doCommitPoint_of_phase {s : State} {d : Die} (htick : s.ticking d = true) (hph : (s.die d).tb.phase ∈ [Phase.e, .el, .c]) :
    doCommitPoint d s = (s.commitJudged d).openSlice d (s.die d).tb.spanNo := by
  have hopen : ¬ (!s.ticking d || !((s.die d).tb.phase == .e || (s.die d).tb.phase == .el || (s.die d).tb.phase == .c)) = true := by
    rw [htick]
    simp only [List.mem_cons, List.not_mem_nil, or_false] at hph
    obtain h | h | h := hph <;> simp [h]
  unfold doCommitPoint
  dsimp only
  rw [if_neg hopen]
  rfl

theorem doCommitPoint_of_evals {s : State} {d : Die} {p : Pattern} (htick : s.ticking d = true) (hph : (s.die d).tb.phase ∈ [Phase.e, .el, .c])
    (hp : s.pattern = some p) (hev : s.evals d = true) :
    doCommitPoint d s = ((s.atCommit d).judge d p (s.dueLocks d)).openSlice d (s.die d).tb.spanNo := by
  have hp' : (s.atCommit d).pattern = some p := by
    cases d <;> exact hp
  rw [doCommitPoint_of_phase htick hph]
  unfold State.commitJudged
  rw [hp']
  dsimp only
  rw [if_pos ((s.evals_atCommit d).trans hev)]

/-- The committed image stands, and the records that differ are formed and sent again (R153 case 2). -/
theorem State.disagree_words {s : State} {d : Die} (p : Pattern) (h : ∀ r ∈ (s.die d).cmp.diffs, r.key.1 ≠ 0) :
    ((s.disagree d p []).die d).eng = (s.die d).eng ∧ ((s.disagree d p []).die d).tb = (s.die d).tb
    ∧ ((s.disagree d p []).die d).cmp.stage = .full ∧ Only 0x2c0 s (s.disagree d p []) := by
  have hsigs : ((s.die d).cmp.diffs.filter fun r => r.key.1 == 0).map (fun r => r.key.2) = [] := by
    rw [List.map_eq_nil_iff, List.filter_eq_nil_iff]
    simpa using h
  have hadd (u : State) (n i j : Nat) : Only 0x200 u (u.addOnce d n i j) := State.addOnce_only u d n i j (.refl _ u) rfl
  unfold State.disagree
  dsimp only
  rw [hsigs]
  dsimp only [List.min?_nil]
  have hcalm (v : State) : (if ([] : List Nat).isEmpty = true then v.lockCom d p [] else (v.lockCom d p []).resend d p) = v := rfl
  have hclose (u : State) (hu : Only 0x200 s u) (f : LDie → LDie) (hf : ∀ l, (f l).eng = l.eng ∧ (f l).tb = l.tb ∧ (f l).cmp.stage = .full) :
      ((u.updDie d f).die d).eng = (s.die d).eng ∧ ((u.updDie d f).die d).tb = (s.die d).tb ∧ ((u.updDie d f).die d).cmp.stage = .full
      ∧ Only 0x2c0 s (u.updDie d f) := by
    obtain ⟨heng, htb, hstage⟩ := hf (u.die d)
    have hdie : u.die d = s.die d := (SameDies.of_only (π := id) hu rfl rfl) d
    rw [State.die_updDie, ← hdie]
    exact ⟨heng, htb, hstage, (State.updDie_only u d f (.refl 0xc0 u) rfl).step (hu.step (.refl 0x2c0 s) rfl) rfl⟩
  simp only [hcalm]
  exact hclose _ ((hadd _ _ _ _).step (hadd s _ _ _) rfl) _ fun l => ⟨rfl, rfl, rfl⟩

/-- The die stands at its commit point, and what it judges: every compare of the span has completed there. -/
theorem State.judge_differs {s : State} {d : Die} {p : Pattern} (due : List Nat) (hreboot : s.upd.reboot = none) (hcomp : s.compared d p = true)
    (hdiffs : (s.die d).cmp.diffs ≠ []) :
    s.judge d p due = (s.updDie d fun l => { l with cmp := { l.cmp with overPrev := false } }).disagree d p due := by
  unfold State.judge
  dsimp only
  rw [if_neg (by simp [hdiffs]), if_neg (by simp [State.alone, hreboot]), if_neg (by simp [hreboot]), if_pos (by simp [hcomp, hdiffs])]

theorem State.judge_agrees {s : State} {d : Die} {p : Pattern} (due : List Nat) (hreboot : s.upd.reboot = none) (hcomp : s.compared d p = true)
    (hdiffs : (s.die d).cmp.diffs = []) (hsent : (s.die d).cmp.readySent = true) (hrx : (s.die d).cmp.readyRx = true) :
    s.judge d p due = (State.commitDie (s.updDie d fun l => { l with cmp := { l.cmp with overPrev := false, disagPrev := [] } }) d p due).agreed d := by
  unfold State.judge
  dsimp only
  rw [if_pos (by simp [hcomp, hdiffs, hsent, hrx]), if_neg (by simp [hreboot])]

theorem jobComplete_of_idle {s : State} {d : Die} {lane : Fin 17}
    (h : s.pattern = none ∨ (s.die d).eng.active = false ∨ Tab.get LaneSt.free (s.die d).eng.lanes lane.val = .free) : doJobComplete d lane s = s := by
  obtain h | h | h := h
  · unfold doJobComplete
    dsimp only
    rw [h]
  · exact jobComplete_of_stopped lane (.inl h)
  · unfold doJobComplete
    dsimp only
    rw [h]
    cases s.pattern <;> rfl

theorem State.laneFail_of_free {s : State} {d : Die} {lane : Nat} (p : Pattern) (h : Tab.get LaneSt.free (s.die d).eng.lanes lane = .free) :
    s.laneFail d lane p = s := by
  unfold State.laneFail
  dsimp only
  rw [h]

theorem laneError_of_idle {s : State} {d : Die} {lane : Fin 17}
    (h : s.pattern = none ∨ (s.die d).eng.active = false ∨ Tab.get LaneSt.free (s.die d).eng.lanes lane.val = .free) : doLaneError d lane s = s := by
  unfold doLaneError
  cases hp : s.pattern with
  | none => rfl
  | some p =>
    obtain h | h | h := h
    · rw [hp] at h
      cases h
    · exact if_neg (by simp [h])
    · dsimp only
      rw [State.laneFail_of_free p h, ite_self]

/-- The state in which the limit of a late commit ends the replay. -/
def State.replayEnd (s : State) (d : Die) : State :=
  s.setDie d { s.die d with
    cmp := { (s.die d).cmp with stage := .none }
    eng := { (s.die d).eng with active := false
                                lanes := Tab.mapV .free (fun x => match x with
                                  | .busy _ => LaneSt.free
                                  | y => y) (s.die d).eng.lanes } }

theorem lateCommitLimit_of_open {s : State} {d : Die} (hstage : (s.die d).cmp.stage ≠ .none) (hph : (s.die d).tb.phase = .s) :
    doLateCommitLimit d s = (s.replayEnd d).replayFail d := by
  unfold doLateCommitLimit
  dsimp only
  rw [if_neg (by simp [hstage, hph])]
  rfl

theorem State.compared_atCommit {s : State} {d : Die} {p : Pattern} (hcomplete : (s.die d).eng.complete p = true) (hact : (s.die d).eng.active = false)
    (hopen : (s.die d).cmp.open_ = []) : (s.atCommit d).compared d p = true := by
  unfold State.compared
  rw [State.atCommit_die]
  simp [hcomplete, hact, hopen]

/-- Settles O28: a job that ends, a lane that fails, and the two outcomes of a commit point whose records are complete. -/
theorem disagreementCommitsNothing : Obligations.DisagreementCommitsNothing := by
  unfold Obligations.DisagreementCommitsNothing
  refine ⟨fun s d lane h => ?idle, fun s d lane p q hp hact hq hA hB => ⟨fun r hstage hr => ?job, ?lane⟩, fun s d hph => ?phase,
    fun s d p htick hph hp hev hreboot hcomplete hact hopen hdiffs hwords hdue => ?differs,
    fun s d p htick hph hp hev hreboot hcomplete hact hopen hdiffs hsent hrx hdue => ?agrees, fun s d => ⟨fun h => ?noReplay, fun hstage hph => ?limit⟩⟩
  case idle => exact ⟨congrArg Host.Outcome.next (jobComplete_of_idle h), congrArg Host.Outcome.next (laneError_of_idle h)⟩
  case job =>
    have href : s.onRef d = false := by
      cases d
      · exact hA
      · exact hB
    have hstage' : (((s.laneDone d lane q r).advance d p).die d).cmp.stage = .none := by
      have hsame : ((s.laneDone d lane q r).die d).cmp.stage = .none := by
        cases d <;> exact hstage
      exact (State.advance_stage p hsame d).trans hsame
    refine ⟨_, congrArg Host.Outcome.next ((jobComplete_of_result hp hq hact href hr).trans (State.settleReplay_of_none hstage')), rfl, ?_⟩
    exact (State.advance_only _ d p (State.setDie_only s d _ (.refl 0x2c0 s) rfl) rfl).frame
  case lane =>
    have honly := doLaneError_only d lane s (.refl 0x10cabf6 s) rfl
    refine ⟨_, rfl, honly.pers rfl, honly.pat rfl, honly.bkp rfl, fun herr hsh => ?_⟩
    have heq : doLaneError d lane s = s.laneFail d lane p := by
      unfold doLaneError
      rw [hp]
      refine if_pos ?_
      cases d
      · simp [hact, State.onRef, hA]
      · simp [hact, State.onRef, hB]
    rw [heq]
    exact State.laneFail_sets p hq herr hsh
  case phase =>
    refine congrArg Host.Outcome.next (if_pos ?_)
    simp only [List.mem_cons, List.not_mem_nil, or_false, not_or] at hph
    obtain ⟨he, hl, hc⟩ := hph
    simp [he, hl, hc]
  case differs =>
    have hreboot' : (s.atCommit d).upd.reboot = none := (congrArg Update.reboot ((s.atCommit_only d).upd rfl)).trans hreboot
    have hdiffs' : ((s.atCommit d).die d).cmp.diffs ≠ [] := by
      rw [State.atCommit_die]
      exact hdiffs
    have hjudge : (s.atCommit d).judge d p (s.dueLocks d) = (s.calmed d).disagree d p [] := by
      rw [hdue]
      exact State.judge_differs [] hreboot' (State.compared_atCommit hcomplete hact hopen) hdiffs'
    obtain ⟨heng, htb, hstage, honly⟩ := State.disagree_words (s := s.calmed d) p (by rw [State.calmed_die]; exact hwords)
    rw [State.calmed_die] at heng htb
    rw [← hjudge] at heng htb hstage honly
    have hslice := ((s.atCommit d).judge d p (s.dueLocks d)).openSlice_only d (s.die d).tb.spanNo
    have hlater := (SameDies.of_only (π := id) hslice rfl rfl) d
    have hrest : Only 0x402c0 (s.calmed d) _ := hslice.step (honly.step (.refl 0x402c0 _) rfl) rfl
    have hall : Only 0x402d0 s _ := hrest.step ((s.calmed_only d).step (.refl 0x402d0 s) rfl) rfl
    exact ⟨_, congrArg Host.Outcome.next (doCommitPoint_of_evals htick hph hp hev), congrArg Engine.com ((congrArg LDie.eng hlater).trans heng),
      congrArg Timebase.phase ((congrArg LDie.tb hlater).trans htb), (congrArg LDie.stage hlater).trans hstage, hall.modes rfl, hall.fd rfl, hall.pow rfl,
      (hrest.flt rfl).trans (s.calmed_flt d), hall.pers rfl, hall.pat rfl, hall.upd rfl⟩
  case agrees =>
    intro n u w t
    have hreboot' : (s.atCommit d).upd.reboot = none := (congrArg Update.reboot ((s.atCommit_only d).upd rfl)).trans hreboot
    have hu : ((s.atCommit d).updDie d fun l => { l with cmp := { l.cmp with overPrev := false, disagPrev := [] } }) = u := by
      cases d <;> rfl
    have hjudge : (s.atCommit d).judge d p (s.dueLocks d) = w := by
      rw [hdue, State.judge_agrees [] hreboot' (State.compared_atCommit hcomplete hact hopen) (by rw [State.atCommit_die]; exact hdiffs)
        (by rw [State.atCommit_die]; exact hsent) (by rw [State.atCommit_die]; exact hrx), hu]
    refine congrArg Host.Outcome.next ((doCommitPoint_of_evals htick hph hp hev).trans ?_)
    rw [hjudge]
    rfl
  case noReplay =>
    refine congrArg Host.Outcome.next (if_pos ?_)
    obtain h | h := h
    · simp [h]
    · simp [h]
  case limit =>
    have honly := doLateCommitLimit_only d s (.refl 0x10cabf6 s) rfl
    refine ⟨_, rfl, honly.pers rfl, honly.pat rfl, fun hsh => ?_⟩
    rw [lateCommitLimit_of_open hstage hph]
    refine State.fswBit_of_latched (State.notAgreed_latched _ d (.refl _)) 59 (State.latch_sets _ 59 (by simp [fswPresent]) (State.not_diverted _ 59 ?_ (by decide)))
    cases d <;> exact hsh

end Sys2Proof.Machine

namespace Sys2Proof.Machine

/-! ## Events of one field port (R18, R20, R163 to R181, R413, R414) -/

/-! ### What stays on the die of the port -/

/-- `t` differs from `s` at most in die `d` and the entries. -/
def OnDie (d : Die) (s t : State) : Prop := t.die d.peer = s.die d.peer ∧ Only 0x2c0 s t

section
variable {d : Die} {s t u : State}

theorem OnDie.refl (s : State) : OnDie d s s := ⟨rfl, .refl _ s⟩

theorem OnDie.trans (h : OnDie d s t) (k : OnDie d t u) : OnDie d s u := ⟨k.1.trans h.1, k.2.step h.2 rfl⟩

theorem OnDie.setDie (l : LDie) : OnDie d s (s.setDie d l) := ⟨State.die_setDie_peer s d l, State.setDie_only s d l (.refl _ s) rfl⟩

theorem OnDie.updDie (f : LDie → LDie) : OnDie d s (s.updDie d f) := ⟨State.die_updDie_peer s d f, State.updDie_only s d f (.refl _ s) rfl⟩

theorem OnDie.of_regs (h : Only 0x200 s t) : OnDie d s t := ⟨(SameDies.of_only (π := id) h rfl rfl) d.peer, h.step (.refl 0x2c0 s) rfl⟩

theorem OnDie.ite {c : Prop} [Decidable c] (h : OnDie d s t) (k : OnDie d s u) : OnDie d s (if c then t else u) := by
  split
  · exact h
  · exact k

theorem OnDie.foldl {β : Type} {f : State → β → State} (h : ∀ s x, OnDie d s (f s x)) (l : List β) : OnDie d s (l.foldl f s) := by
  induction l generalizing s with
  | nil => exact .refl s
  | cons x l ih => exact (h s x).trans ih

theorem State.jrnStop_onDie (s : State) (d : Die) : OnDie d s (s.jrnStop d) :=
  .ite ((OnDie.setDie _).trans (.of_regs (State.setReg_only _ _ _ _ (.refl _ _) rfl))) (.setDie _)

theorem State.event_onDie (s : State) (d : Die) (k : Nat) (bs : List Byte) : OnDie d s (s.event d k bs) := by
  have hrec (u : State) (j : Journal) (c : Bool) : OnDie d u
      (if c then (u.setDie d { (u.die d) with jrn := j }).bumpOnce d 32 0x8200 5 else u.setDie d { (u.die d) with jrn := j }) :=
    .ite ((OnDie.setDie _).trans (.of_regs (State.bumpOnce_only _ d _ _ _ (.refl _ _) rfl))) (.setDie _)
  exact (OnDie.ite (State.jrnStop_onDie s d) (.refl s)).trans (hrec _ _ _)

theorem State.bump_onDie (s : State) (w i j : Nat) : OnDie d s (s.bump w i j) := .of_regs (State.bump_only s w i j (.refl _ s) rfl)

theorem State.setCode_onDie (s : State) (d : Die) (n k : Nat) : OnDie d s (s.setCode d n k) := by
  unfold State.setCode
  exact .ite (.refl s) (.ite ((OnDie.updDie _).trans ((State.event_onDie _ d _ _).trans (State.bump_onDie _ _ _ _))) (.updDie _))

theorem State.setOut_onDie (s : State) (d : Die) (n k : Nat) : OnDie d s (s.setOut d n k) := by
  unfold State.setOut
  exact .ite (.refl s) (.ite ((OnDie.updDie _).trans ((State.event_onDie _ d _ _).trans (State.bump_onDie _ _ _ _))) (.updDie _))

theorem State.capOvr_onDie (d : Die) (s : State) (n : Nat) : OnDie d s (s.capOvr d n) := by
  unfold State.capOvr
  exact .ite (.refl s) ((OnDie.of_regs (State.bump_only _ _ _ _ (State.setReg_only s _ _ _ (.refl _ s) rfl) rfl)).trans (.updDie _))

theorem State.edgeWins_onDie (d : Die) (s : State) (n : Nat) : OnDie d s (s.edgeWins d n) := by
  unfold State.edgeWins
  dsimp only
  split
  · exact .ite ((OnDie.setDie _).trans (.of_regs (State.bumpOnce_only _ d _ _ _ (.refl _ _) rfl))) (.refl s)
  · exact .refl s

theorem State.readPairs_onDie (s : State) (d : Die) (ns : List Nat) : OnDie d s (s.readPairs d ns) :=
  (OnDie.setDie _).trans ((OnDie.foldl (State.capOvr_onDie d) ns).trans (.foldl (State.edgeWins_onDie d) ns))

theorem State.readback_onDie (d : Die) (s : State) (c : ChanRec) : OnDie d s (State.readback d s c) := by
  have hfirst (c1 : Bool) (n : Nat) : OnDie d s (if c1 then s.setOut d n 1 else s) := .ite (State.setOut_onDie s d n 1) (.refl s)
  exact .ite ((hfirst _ _).trans (State.setOut_onDie _ d _ _)) (hfirst _ _)

theorem State.adcInput_onDie (s : State) (d : Die) (c : ChanRec) (mv : Nat) : OnDie d s (s.adcInput d c mv) := by
  have hmid (v : Superv) (b : Prop) [Decidable b] : OnDie d s
      (if b then (s.updDie d fun l => l.updChain c.n fun y => { y with v := v }).setCode d c.n 5 else s.updDie d fun l => l.updChain c.n fun y => { y with v := v }) :=
    .ite ((OnDie.updDie _).trans (State.setCode_onDie _ d _ _)) (.updDie _)
  unfold State.adcInput
  exact .ite (.refl s) (.ite ((hmid _ _).trans (State.setCode_onDie _ d _ _)) (hmid _ _))

theorem State.adcOutput_onDie (s : State) (d : Die) (c : ChanRec) (ball mid ma : Nat) : OnDie d s (s.adcOutput d c ball mid ma) := by
  have hset (u : State) (b : Bool) (k : Nat) : OnDie d u (if b then u.setOut d c.n k else u) := .ite (State.setOut_onDie u d _ _) (.refl u)
  unfold State.adcOutput
  exact .ite (.updDie _) ((OnDie.updDie _).trans ((hset _ _ _).trans ((hset _ _ _).trans ((hset _ _ _).trans (hset _ _ _)))))

theorem State.ownWinEnd_onDie (s : State) (d : Die) (x : SrcRec) (period : Nat) (c : ChanRec) : OnDie d s (s.ownWinEnd d x period c) := by
  unfold State.ownWinEnd
  exact .ite (.updDie _) ((OnDie.updDie _).trans (State.setCode_onDie _ d _ _))

theorem State.fgnWinEnd_onDie (s : State) (d : Die) (x : SrcRec) (c : ChanRec) : OnDie d s (s.fgnWinEnd d x c) := by
  unfold State.fgnWinEnd
  exact .ite ((OnDie.updDie _).trans (State.setCode_onDie _ d _ _)) (.updDie _)

theorem fieldImageRx_onDie (d : Die) (f : Fin 4) (s : State) : OnDie d s (doFieldImageRx d f s) := by
  unfold doFieldImageRx
  exact .ite (.refl s) ((State.readPairs_onDie s d _).trans ((OnDie.foldl (State.readback_onDie d) _).trans (.updDie _)))

theorem captureLockEnd_onDie (d : Die) (n : Fin 132) (s : State) : OnDie d s (doCaptureLockEnd d n s) := by
  unfold doCaptureLockEnd
  exact .ite (.refl s) (.updDie _)

theorem fieldInputEdge_onDie (d : Die) (n : Fin 132) (level : Bool) (cyc : Nat) (s : State) : OnDie d s (doFieldInputEdge d n level cyc s) := by
  unfold doFieldInputEdge
  exact .ite (.refl s) (.ite (.setDie _) (.ite ((OnDie.setDie _).trans (State.setOut_onDie _ d _ _)) (.setDie _)))

theorem debounceExpire_onDie (d : Die) (n : Fin 132) (s : State) : OnDie d s (doDebounceExpire d n s) := by
  unfold doDebounceExpire
  exact .ite (.refl s) (.updDie _)

theorem ossdPulseFilterExpire_onDie (d : Die) (n : Fin 132) (s : State) : OnDie d s (doOssdPulseFilterExpire d n s) := by
  unfold doOssdPulseFilterExpire
  exact .ite (.refl s) (.ite (.updDie _) (.ite (.updDie _) (.refl s)))

theorem ossdSilentExpire_onDie (d : Die) (n : Fin 132) (s : State) : OnDie d s (doOssdSilentExpire d n s) := by
  unfold doOssdSilentExpire
  exact .ite (State.setCode_onDie s d _ _) (.refl s)

theorem tpWindowOpen_onDie (d : Die) (k : Fin 32) (s : State) : OnDie d s (doTpWindowOpen d k s) := by
  unfold doTpWindowOpen
  exact .ite (.refl s) (.foldl (fun _ _ => .updDie _) _)

theorem tpWindowEnd_onDie (d : Die) (k : Fin 32) (s : State) : OnDie d s (doTpWindowEnd d k s) := by
  unfold doTpWindowEnd
  split
  · exact .refl s
  · split
    · exact .refl s
    · exact .ite (.refl s) (.foldl (fun _ _ => .ite (State.ownWinEnd_onDie _ d _ _ _) (State.fgnWinEnd_onDie _ d _ _)) _)

theorem adcSample_onDie (d : Die) (n : Fin 132) (ball mid ma : Nat) (s : State) : OnDie d s (doAdcSample d n ball mid ma s) := by
  unfold doAdcSample
  exact .ite (.refl s) (.ite ((OnDie.updDie _).trans (State.adcInput_onDie _ d _ _)) (.ite ((OnDie.updDie _).trans (State.adcOutput_onDie _ d _ _ _ _)) (.updDie _)))

end

/-! ### What an event leaves in its chain -/

theorem LDie.chain_updChain (l : LDie) (n : Nat) (f : Chain → Chain) : (l.updChain n f).chain n = f (l.chain n) := Tab.get_upd_self _ _ _ _

theorem State.chain_updChain (s : State) (d : Die) (n : Nat) (f : Chain → Chain) :
    ((s.updDie d fun l => l.updChain n f).die d).chain n = f ((s.die d).chain n) := by
  rw [State.die_updDie]
  exact Tab.get_upd_self _ _ _ _

theorem State.outSup_updOut (s : State) (d : Die) (n : Nat) (f : OutSup → OutSup) :
    ((s.updDie d fun l => l.updOut n f).die d).outSup n = f ((s.die d).outSup n) := by
  rw [State.die_updDie]
  exact Tab.get_upd_self _ _ _ _

/-- A journalled event and its counter move no chain. -/
theorem State.event_bump_chain (s : State) (d x : Die) (k : Nat) (bs : List Byte) (w i j n : Nat) :
    (((s.event d k bs).bump w i j).die x).chain n = (s.die x).chain n :=
  State.event_same (π := fun l => l.chain n) (fun _ _ => rfl) s d k bs x

theorem State.setCode_sets (s : State) (d : Die) (n k : Nat) : bitAt (((s.setCode d n k).die d).chain n).v.codes k = true := by
  unfold State.setCode
  dsimp only
  split
  next h => exact h
  · split
    · rw [State.event_bump_chain, State.chain_updChain]
      exact bitAt_setBitN_self _ _
    · rw [State.chain_updChain]
      exact bitAt_setBitN_self _ _

/-- Output codes stand outside the chains. -/
theorem State.setOut_chain (s : State) (d : Die) (m k n : Nat) : ((s.setOut d m k).die d).chain n = (s.die d).chain n := by
  have hupd (f : OutSup → OutSup) : ((s.updDie d fun l => l.updOut m f).die d).chain n = (s.die d).chain n := by
    rw [State.die_updDie]
    rfl
  unfold State.setOut
  dsimp only
  split
  · rfl
  · split
    · rw [State.event_bump_chain, hupd]
    · exact hupd _

/-- The chain after a raw edge (R163, R413). -/
def Chain.edged (c : ChanRec) (level : Bool) (t : Nat) (x : Chain) : Chain :=
  let x1 := x.edgeCap level t
  { x1 with
    f := { (x1.f.raw_ c.chainKind c.debUs level) with raw := level, lastEdge := t, base := t, inWin := c.chainKind == 2 && x1.f.win, late := none }
    v := if c.chainKind = 2 then x1.v.edge x1.f.win level x.f.lastEdge t else x1.v }

theorem fieldInputEdge_of_edge {s : State} {d : Die} {n : Fin 132} {level : Bool} (cyc : Nat) (hon : s.chainOn d n = true)
    (hraw : ((s.die d).chain n).f.raw ≠ level) : ((doFieldInputEdge d n level cyc s).die d).chain n
      = ((s.die d).chain n).edged (s.chanRec n) level ((s.die d).tb.tickNs + 25 * cyc) := by
  have hset (l : LDie) (f : OutSup → OutSup) (k : Nat) (c : Prop) [Decidable c] :
      ((if c then (s.setDie d (l.updOut n f)).setOut d n k else s.setDie d (l.updOut n f)).die d).chain n = l.chain n := by
    split
    · rw [State.setOut_chain, State.die_setDie]
      rfl
    · rw [State.die_setDie]
      rfl
  unfold doFieldInputEdge
  dsimp only
  rw [if_neg (by simp [hon, hraw])]
  split
  · rw [State.die_setDie]
    exact LDie.chain_updChain _ _ _
  · rw [hset]
    exact LDie.chain_updChain _ _ _

/-! ### A sample is kept (R179) -/

/-- The ball voltage that an output shows. -/
def LDie.ball (n : Nat) (l : LDie) : Nat := (l.outSup n).vBall

theorem LDie.ball_updOut (n m : Nat) {f : OutSup → OutSup} (hf : ∀ o, (f o).vBall = o.vBall) (l : LDie) : (l.updOut m f).ball n = l.ball n := by
  by_cases h : n = m
  · subst h
    exact (congrArg OutSup.vBall (Tab.get_upd_self _ _ _ _)).trans (hf _)
  · exact congrArg OutSup.vBall (Tab.get_upd_ne _ _ _ h)

theorem State.setCode_ball (s : State) (d : Die) (m k n : Nat) : SameDies (LDie.ball n) s (s.setCode d m k) := by
  have hupd : SameDies (LDie.ball n) s (s.updDie d fun l => l.updChain m fun c => { c with v := { c.v with codes := setBitN c.v.codes k } }) :=
    .updDie d fun _ => rfl
  unfold State.setCode
  exact .ite (.refl s) (.ite (hupd.trans ((State.event_same (fun _ _ => rfl) _ d _ _).trans (.of_dies rfl rfl))) hupd)

theorem State.setOut_ball (s : State) (d : Die) (m k n : Nat) : SameDies (LDie.ball n) s (s.setOut d m k) := by
  have hupd : SameDies (LDie.ball n) s (s.updDie d fun l => l.updOut m fun x => { x with codes := setBitN x.codes k }) :=
    .updDie d (LDie.ball_updOut n m fun _ => rfl)
  unfold State.setOut
  exact .ite (.refl s) (.ite (hupd.trans ((State.event_same (fun _ _ => rfl) _ d _ _).trans (.of_dies rfl rfl))) hupd)

theorem State.adcInput_ball (s : State) (d : Die) (c : ChanRec) (mv n : Nat) : SameDies (LDie.ball n) s (s.adcInput d c mv) := by
  have hupd (v : Superv) : SameDies (LDie.ball n) s (s.updDie d fun l => l.updChain c.n fun y => { y with v := v }) := .updDie d fun _ => rfl
  have hmid (v : Superv) (b : Prop) [Decidable b] : SameDies (LDie.ball n) s
      (if b then (s.updDie d fun l => l.updChain c.n fun y => { y with v := v }).setCode d c.n 5 else s.updDie d fun l => l.updChain c.n fun y => { y with v := v }) :=
    .ite ((hupd v).trans (State.setCode_ball _ d _ _ n)) (hupd v)
  unfold State.adcInput
  exact .ite (.refl s) (.ite ((hmid _ _).trans (State.setCode_ball _ d _ _ n)) (hmid _ _))

theorem State.adcOutput_ball (s : State) (d : Die) (c : ChanRec) (ball mid ma n : Nat) : SameDies (LDie.ball n) s (s.adcOutput d c ball mid ma) := by
  have hset (u : State) (b : Bool) (k : Nat) : SameDies (LDie.ball n) u (if b then u.setOut d c.n k else u) := .ite (State.setOut_ball u d _ _ n) (.refl u)
  have hclean (now : Nat) (b : Prop) [Decidable b] : SameDies (LDie.ball n) s (s.updDie d fun l => l.updOut c.n fun o =>
      { o with cleanSince := if b then some (o.cleanSince.getD now) else none }) := .updDie d (LDie.ball_updOut n c.n fun _ => rfl)
  unfold State.adcOutput
  exact .ite (hclean _ _) ((hclean _ _).trans ((hset _ _ _).trans ((hset _ _ _).trans ((hset _ _ _).trans (hset _ _ _)))))

theorem adcSample_ball {s : State} {d : Die} {n : Fin 132} (hon : s.chainOn d n = true) (ball mid ma : Nat) :
    ((doAdcSample d n ball mid ma s).die d).ball n = ball := by
  have hout (f : OutSup → OutSup) (hf : ∀ o, (f o).vBall = ball) : ((s.updDie d fun l => l.updOut n f).die d).ball n = ball :=
    (congrArg OutSup.vBall (State.outSup_updOut s d n f)).trans (hf _)
  unfold doAdcSample
  rw [if_neg (by simp [hon])]
  dsimp only
  split
  · exact (State.adcInput_ball _ d _ _ n d).trans (hout _ fun _ => rfl)
  · split
    · exact (State.adcOutput_ball _ d _ _ _ _ n d).trans (hout _ fun _ => rfl)
    · exact hout _ fun _ => rfl

/-! ### Windows (R172 to R174) -/

/-- The chain of `c` is judged at the end of its own window. -/
def State.winJudged (s : State) (d : Die) (c : ChanRec) : Bool :=
  ((s.die d).chain c.n).v.winOn && ((s.die d).chain c.n).f.raw && ((s.die d).chain c.n).f.win && s.modes.pwr != .deepSleep

/-- The low interval of its own window was a clean pulse. -/
def State.winClean (s : State) (d : Die) (x : SrcRec) (period : Nat) (c : ChanRec) : Bool :=
  match ((s.die d).chain c.n).v.winLow with
  | some z => cleanLow x period z
  | none => false

/-- The channel after its own window, no code set. -/
def State.winShut (s : State) (d : Die) (x : SrcRec) (period : Nat) (c : ChanRec) : State := s.updDie d fun l => l.updChain c.n fun z =>
  let f1 := { z.f with win := false, inWin := false, base := if z.f.inWin then period + (x.phase + x.width + 30) * 1000 else z.f.base }
  { z with f := if f1.raw == f1.lvl then f1 else f1.feed c.deb f1.raw
           v := { z.v with winOn := false, winLow := none, cleanSeen := z.v.cleanSeen || (s.winJudged d c && s.winClean d x period c) } }

theorem State.ownWinEnd_eq (s : State) (d : Die) (x : SrcRec) (period : Nat) (c : ChanRec) : s.ownWinEnd d x period c
    = if !s.winJudged d c || s.winClean d x period c then s.winShut d x period c
      else (s.winShut d x period c).setCode d c.n (if ((s.die d).chain c.n).v.winLow.isNone then 1 else 3) := rfl

/-- Without a verdict, or with a clean pulse, the codes stand. -/
theorem State.ownWinEnd_codes {s : State} {d : Die} {x : SrcRec} {period : Nat} {c : ChanRec} (h : s.winJudged d c = false ∨ s.winClean d x period c = true) :
    (((s.ownWinEnd d x period c).die d).chain c.n).v.codes = ((s.die d).chain c.n).v.codes := by
  rw [State.ownWinEnd_eq, if_pos (by simpa using h)]
  unfold State.winShut
  rw [State.chain_updChain]

/-- A verdict on an interval that is not clean sets code 1 without a low, code 3 with one. -/
theorem State.ownWinEnd_sets {s : State} {d : Die} {x : SrcRec} {period : Nat} {c : ChanRec} (hj : s.winJudged d c = true) (hc : s.winClean d x period c = false) :
    bitAt (((s.ownWinEnd d x period c).die d).chain c.n).v.codes (if ((s.die d).chain c.n).v.winLow.isNone then 1 else 3) = true := by
  rw [State.ownWinEnd_eq, if_neg (by simp [hj, hc])]
  exact State.setCode_sets _ _ _ _

theorem State.winJudged_iff (s : State) (d : Die) (c : ChanRec) : s.winJudged d c = true ↔ ((s.die d).chain c.n).v.winOn = true
    ∧ ((s.die d).chain c.n).f.raw = true ∧ ((s.die d).chain c.n).f.win = true ∧ s.modes.pwr ≠ .deepSleep := by
  simp [State.winJudged, and_assoc]

theorem State.winClean_none {s : State} {d : Die} {c : ChanRec} (x : SrcRec) (period : Nat) (h : ((s.die d).chain c.n).v.winLow = none) :
    s.winClean d x period c = false := by
  unfold State.winClean
  rw [h]

theorem State.winClean_some {s : State} {d : Die} {c : ChanRec} (x : SrcRec) (period : Nat) {z : Nat × Nat} (h : ((s.die d).chain c.n).v.winLow = some z) :
    s.winClean d x period c = cleanLow x period z := by
  unfold State.winClean
  rw [h]

/-- A pulse of a foreign source on a channel that is on sets code 2. -/
theorem State.fgnWinEnd_sets {s : State} {d : Die} {x : SrcRec} {c : ChanRec} (hopen : ((s.die d).chain c.n).v.fgnOpen = true)
    (hon : ((s.die d).chain c.n).f.on = true) (hdeep : s.modes.pwr ≠ .deepSleep)
    (hlow : ∃ w ∈ ((s.die d).chain c.n).v.fgnLow, (x.width - 10) * 1000 ≤ w ∧ w ≤ (x.width + 30) * 1000) :
    bitAt (((s.fgnWinEnd d x c).die d).chain c.n).v.codes 2 = true := by
  unfold State.fgnWinEnd
  dsimp only
  rw [if_pos (by simpa [hopen, hon, hdeep] using hlow)]
  exact State.setCode_sets _ _ _ _

/-! ### The image of an F-die (R79) -/

theorem fieldImageRx_marks {s : State} {d : Die} {f : Fin 4} (htick : s.ticking d = true) (hph : (s.die d).tb.phase = .a) (hon : s.fOn f = true) :
    bitAt ((doFieldImageRx d f s).die d).cur.images f.val = true := by
  have hmark (u : State) (g : LDie → LDie) (hg : ∀ l, (g l).cur.images = setBitN l.cur.images f) : bitAt ((u.updDie d g).die d).cur.images f.val = true := by
    rw [State.die_updDie, hg]
    exact bitAt_setBitN_self _ _
  unfold doFieldImageRx
  rw [if_neg (by simp [htick, hph, hon])]
  exact hmark _ _ fun _ => rfl

/-- Settles O33: each event moves its own die and the entries alone, and what it leaves in the chain of its channel. -/
theorem fieldEventsStayOnTheirDie : Obligations.FieldEventsStayOnTheirDie := by
  unfold Obligations.FieldEventsStayOnTheirDie
  refine ⟨fun s d c hc => ?stays, fun s d f htick hph hon => ⟨_, rfl, fieldImageRx_marks htick hph hon⟩, fun s d n hoff => ?off, fun s d n hon hlock => ?lock,
    fun s d n hon => ⟨fun hdeb => ?deb, fun hdeb => ?noDeb⟩, fun s d n hon hkind hmax hlvl => ?silent, fun s d n hon hkind => ⟨fun hlow hpf hraw => ?low, fun hlow hpf hraw => ?high, fun h => ?none⟩,
    fun s d n hon => ⟨fun level cyc hraw => ?noEdge, fun level cyc hraw => ?edge, fun ball mid ma => ⟨_, rfl, adcSample_ball hon ball mid ma⟩⟩,
    fun s d k => ⟨fun h => ?noWindow, fun p x htick hp hsrc => ?window⟩, fun s d x period c => ?judged⟩
  case stays =>
    have hframe {c : Instr} {t : State} (h : exec c s = .next t) (hd : OnDie d s t) :
        ∃ t, exec c s = .next t ∧ t.die d.peer = s.die d.peer ∧ t = { s with a := t.a, b := t.b, regs := t.regs } := ⟨t, h, hd.1, hd.2.frame⟩
    obtain ⟨f, rfl⟩ | ⟨n, rfl⟩ | ⟨n, l, y, rfl⟩ | ⟨n, rfl⟩ | ⟨n, rfl⟩ | ⟨n, rfl⟩ | ⟨k, rfl⟩ | ⟨k, rfl⟩ | ⟨n, x, y, z, rfl⟩ := hc
    · exact hframe rfl (fieldImageRx_onDie d f s)
    · exact hframe rfl (captureLockEnd_onDie d n s)
    · exact hframe rfl (fieldInputEdge_onDie d n l y s)
    · exact hframe rfl (debounceExpire_onDie d n s)
    · exact hframe rfl (ossdPulseFilterExpire_onDie d n s)
    · exact hframe rfl (ossdSilentExpire_onDie d n s)
    · exact hframe rfl (tpWindowOpen_onDie d k s)
    · exact hframe rfl (tpWindowEnd_onDie d k s)
    · exact hframe rfl (adcSample_onDie d n x y z s)
  case off =>
    exact ⟨congrArg Host.Outcome.next (if_pos (by simp [hoff])), fun l y => congrArg Host.Outcome.next (if_pos (by simp [hoff])),
      congrArg Host.Outcome.next (if_pos (by simp [hoff])), congrArg Host.Outcome.next (if_pos (by simp [hoff])),
      congrArg Host.Outcome.next (if_neg (by simp [hoff])), fun x y z => congrArg Host.Outcome.next (if_pos (by simp [hoff]))⟩
  case lock =>
    refine ⟨_, congrArg Host.Outcome.next (if_neg (by simp [hon, hlock])), fun hpend => ?_⟩
    rw [State.chain_updChain, hpend]
    exact ⟨rfl, rfl⟩
  case deb => exact congrArg Host.Outcome.next (if_neg (by simp [hon, hdeb]))
  case noDeb => exact congrArg Host.Outcome.next (if_pos (by simp [hdeb]))
  case silent =>
    refine ⟨_, congrArg Host.Outcome.next (if_pos (by simp [hon, hkind, hmax, hlvl])), State.setCode_sets _ _ _ _⟩
  case low => exact congrArg Host.Outcome.next ((if_neg (by simp [hon, hkind, hlow])).trans (if_pos (by simp [hpf, hraw])))
  case high =>
    exact congrArg Host.Outcome.next ((if_neg (by simp [hon, hkind, hlow])).trans ((if_neg (by simp [hpf])).trans (if_pos (by simp [hpf, hraw]))))
  case none =>
    refine congrArg Host.Outcome.next ?_
    obtain h | h := h
    · exact if_pos (by simp [h])
    · exact (ite_eq_left_iff.mpr fun _ => (if_neg (by simp [h])).trans (if_neg (by simp [h])))
  case noEdge => exact congrArg Host.Outcome.next (if_pos (by simp [hraw]))
  case edge =>
    refine ⟨_, rfl, ?_⟩
    rw [fieldInputEdge_of_edge cyc hon hraw]
    exact ⟨rfl, rfl⟩
  case noWindow =>
    refine ⟨congrArg Host.Outcome.next (if_pos ?_), congrArg Host.Outcome.next ?_⟩
    · obtain h | h := h
      · simp [h]
      · simp [h]
    · unfold doTpWindowEnd
      cases hp : s.pattern with
      | none => rfl
      | some p =>
        dsimp only
        cases hsrc : p.src k with
        | none => rfl
        | some x =>
          rw [hp, Option.bind_some, hsrc] at h
          exact if_pos (by simpa using h)
  case window =>
    refine ⟨congrArg Host.Outcome.next (if_neg (by simp [htick, hp, hsrc])), congrArg Host.Outcome.next ?_⟩
    unfold doTpWindowEnd
    rw [hp]
    dsimp only
    rw [hsrc]
    exact if_neg (by simp [htick])
  case judged =>
    intro y codes judged
    refine ⟨fun hj hnone => ?_, fun z hj hz hclean => ?_, fun h => ?_, fun hopen hon hdeep hlow => State.fgnWinEnd_sets hopen hon hdeep hlow⟩
    · have hset := State.ownWinEnd_sets ((s.winJudged_iff d c).mpr hj) (State.winClean_none x period hnone)
      rwa [if_pos (by simp [show ((s.die d).chain c.n).v.winLow = none from hnone])] at hset
    · have hset := State.ownWinEnd_sets ((s.winJudged_iff d c).mpr hj) ((State.winClean_some x period hz).trans hclean)
      rwa [if_neg (by simp [show ((s.die d).chain c.n).v.winLow = some z from hz])] at hset
    · refine State.ownWinEnd_codes ?_
      obtain ⟨z, hz, hclean⟩ | hj := h
      · exact .inr ((State.winClean_some x period hz).trans hclean)
      · exact .inl (Bool.eq_false_iff.mpr fun h => hj ((s.winJudged_iff d c).mp h))

end Sys2Proof.Machine

namespace Sys2Proof.Machine

/-! ## Supervision and protection of the F-dies (R188, R192, R197, R202, R206, R210) -/

/-! ### Causes of the common bit (R210) -/

theorem clrBitN_zero (i : Nat) : clrBitN 0 i = 0 := by
  unfold clrBitN bitAt
  simp

theorem FDie.port_causes (x : FDie) (d : Die) (c : Nat) : ({ x with causes := c } : FDie).port d = x.port d := by
  cases d <;> rfl

/-- The end of a cause touches the F-die and the fault collector alone. -/
theorem State.fCause_off (s : State) (f i : Nat) : (s.fCause f i false).fdie f = { s.fdie f with causes := clrBitN (s.fdie f).causes i }
    ∧ Only 0x110 s (s.fCause f i false) := by
  have hupd (c : Nat) : Only 0x100 s (s.updF f fun x => { x with causes := c, a := x.a, b := x.b }) := State.updF_only s f _ (.refl _ s) rfl
  have hself (c : Nat) : (s.updF f fun x => { x with causes := c, a := x.a, b := x.b }).fdie f = { s.fdie f with causes := c } := State.fdie_updF_self s f _
  have hoff (u : State) (b : Nat) : Only 0x10 u (u.causeOff b) := State.causeOff_only u b (.refl _ u) rfl
  have hwide (t : State) (h : Only 0x100 s t) : Only 0x110 s t := h.step (.refl 0x110 s) rfl
  unfold State.fCause
  dsimp only [Bool.false_eq_true, if_false]
  rw [Bool.and_false]
  simp only [Bool.and_false, Bool.or_false, Bool.false_eq_true, if_false]
  by_cases hnew : clrBitN (s.fdie f).causes i = 0
  · rw [if_pos hnew]
    split
    · exact ⟨hself _, hwide _ (hupd _)⟩
    · exact ⟨hself _, (hoff _ _).step (hwide _ (hupd _)) rfl⟩
  · rw [if_neg hnew, if_neg (by
      intro h0
      rw [decide_eq_true_eq] at h0
      exact hnew (by rw [h0, clrBitN_zero]))]
    exact ⟨hself _, hwide _ (hupd _)⟩

/-- The common bit of an F-die on the package is a bit of FSW. -/
theorem fswPresent_fdie {s : State} {f : Fin 4} (h : s.fOn f.val = true) : fswPresent s.order (48 + f.val) = true := by
  have hin : f.val ∈ s.fdies := by
    unfold State.fOn at h
    simp only [Bool.and_eq_true, List.contains_iff_mem] at h
    exact h.1
  unfold State.fdies at hin
  split at hin
  next h884 =>
    rw [h884]
    exact (by decide : ∀ g : Fin 4, fswPresent 884 (48 + g.val) = true) f
  · split at hin
    next h851 =>
      rw [h851, List.mem_singleton.mp hin]
      decide
    next => cases hin

/-- What a new cause does: the persistent stores stand, and the common bit latches where no shadow is open. -/
def State.CauseLatched (s : State) (f i : Nat) (t : State) : Prop := t.pers = s.pers ∧ t.pat = s.pat ∧ t.keys = s.keys
  ∧ (s.flt.shadows = [] → bitAt (s.fdie f).causes i = false → t.fswBit (48 + f) = true)

theorem State.fCause_latched_spec {s u : State} {f : Fin 4} (i : Nat) (hon : s.fOn f.val = true) (h : Only 0x300 s u)
    (hc : (u.fdie f.val).causes = (s.fdie f.val).causes) : s.CauseLatched f.val i (u.fCause f.val i true) := by
  have honly : Only 0x10cabf6 s (u.fCause f.val i true) := State.fCause_only u _ _ _ (h.step (.refl _ s) rfl) rfl
  refine ⟨honly.pers rfl, honly.pat rfl, honly.keys rfl, fun hsh hnew => ?_⟩
  refine State.fCause_sets (by rw [hc]; exact hnew) ?_ (State.not_diverted _ _ ?_ (by omega))
  · rw [h.order rfl]
    exact fswPresent_fdie hon
  · rw [h.flt rfl]
    exact hsh

theorem supplyCurrentReturn_of_on {s : State} {f : Fin 4} (hon : s.fOn f.val = true) : doSupplyCurrentReturn f s
    = State.fCause (s.free.2.setReg (0x4700 + f.val) 1 (s.free.1 % 4401)) f.val 0 false := if_pos hon

/-! ### VFLD (R197) -/

/-- A port without command. -/
def FPort.dropped (p : FPort) : FPort := { p with closed := 0, cmd := 0, opReq := 0 }

/-- Both ports of an F-die whose VFLD is low, before the causes and the read-back. -/
def State.vfldDrop (s : State) (f mv : Nat) : State :=
  ((((s.setReg (0x4700 + f) 2 mv).portTo .a f (s.fdie f).a.dropped).portTo .b f (s.fdie f).b.dropped).updF f fun x => { x with low := true })

theorem vfldLow_of_low {s : State} {f : Fin 4} {mv : Nat} (hon : s.fOn f.val = true) (hmv : mv ≤ 16500) :
    doVfldLow f mv s = ((s.vfldDrop f.val mv).fCause f.val 3 false).settle f.val ((s.fdie f.val).a.cmd ||| (s.fdie f.val).b.cmd) 0 :=
  if_neg (by simp [hon, hmv])

theorem State.vfldDrop_only (s : State) (f mv : Nat) : Only 0x300 s (s.vfldDrop f mv) :=
  State.updF_only _ _ _ (State.portTo_only _ _ _ _ (State.portTo_only _ _ _ _ (State.setReg_only s _ _ _ (.refl _ s) rfl) rfl) rfl) rfl

theorem State.vfldDrop_low (s : State) (f mv : Nat) : ((s.vfldDrop f mv).fdie f).low = true := by
  unfold State.vfldDrop
  rw [State.fdie_updF_self]

theorem State.vfldDrop_port (s : State) (f mv : Nat) (d : Die) : ((s.vfldDrop f mv).fdie f).port d = ((s.fdie f).port d).dropped := by
  have hlow (u : State) : ((u.updF f fun x => { x with low := true }).fdie f).port d = (u.fdie f).port d := by
    rw [State.fdie_updF_self]
    cases d <;> rfl
  unfold State.vfldDrop
  rw [hlow]
  cases d
  · rw [show Die.a = Die.b.peer from rfl, State.port_portTo_peer, show Die.b.peer = Die.a from rfl, State.port_portTo]
    rfl
  · rw [State.port_portTo]
    rfl

/-! ### One switch (R192) -/

/-- A code that is set reads as set, and one code is set beside another. -/
theorem State.setOut_sets (s : State) (d : Die) (n k : Nat) : bitAt (((s.setOut d n k).die d).outSup n).codes k = true := by
  have hevent (u : State) (kd : Nat) (bs : List Byte) (w i j : Nat) : (((u.event d kd bs).bump w i j).die d).outSup n = (u.die d).outSup n :=
    State.event_same (π := fun l => l.outSup n) (fun _ _ => rfl) u d kd bs d
  unfold State.setOut
  dsimp only
  split
  next h => exact h
  · split
    · rw [hevent, State.outSup_updOut]
      exact bitAt_setBitN_self _ _
    · rw [State.outSup_updOut]
      exact bitAt_setBitN_self _ _

theorem State.protect_of_open {s : State} {d : Die} {n : Nat} (code : Nat)
    (h : (s.fOn (n / 32) && ((s.fdie (n / 32)).port d).closed.getLsbD (n % 32)) = false) : s.protect d n code = s := by
  unfold State.protect
  exact if_pos (by simpa using Bool.and_eq_false_iff.mp h)

/-- The switch of a port that opens under protection. -/
def State.protectOne (s : State) (d : Die) (n : Nat) : State :=
  s.portTo d (n / 32) { (s.fdie (n / 32)).port d with
    closed := ((s.fdie (n / 32)).port d).closed &&& ~~~chBit (n % 32), prot := ((s.fdie (n / 32)).port d).prot ||| chBit (n % 32) }

theorem State.protect_of_closed {s : State} {d : Die} {n : Nat} (code : Nat)
    (h : (s.fOn (n / 32) && ((s.fdie (n / 32)).port d).closed.getLsbD (n % 32)) = true) :
    s.protect d n code = ((s.protectOne d n).setOut .a n code).setOut .b n code := by
  obtain ⟨hon, hclosed⟩ := Bool.and_eq_true_iff.mp h
  unfold State.protect
  exact if_neg (by simp [hon, hclosed])

theorem State.protect_spec {s : State} {d : Die} {n : Nat} (code : Nat)
    (h : (s.fOn (n / 32) && ((s.fdie (n / 32)).port d).closed.getLsbD (n % 32)) = true) :
    (((s.protect d n code).fdie (n / 32)).port d).closed = ((s.fdie (n / 32)).port d).closed &&& ~~~chBit (n % 32)
    ∧ ((s.protect d n code).fdie (n / 32)).port d.peer = (s.fdie (n / 32)).port d.peer
    ∧ (∀ e, bitAt (((s.protect d n code).die e).outSup n).codes code = true) ∧ Only 0x3c0 s (s.protect d n code) := by
  have hset (u : State) (e : Die) : Only 0x2c0 u (u.setOut e n code) := State.setOut_only u e n code (.refl _ u) rfl
  have hfd : (((s.protectOne d n).setOut .a n code).setOut .b n code).fd = (s.protectOne d n).fd := ((hset _ .b).fd rfl).trans ((hset _ .a).fd rfl)
  have hfdie : (((s.protectOne d n).setOut .a n code).setOut .b n code).fdie (n / 32) = (s.protectOne d n).fdie (n / 32) :=
    congrArg (Tab.get FDie.init · (n / 32)) hfd
  have honly := State.protect_only s d n code (.refl 0x3c0 s) rfl
  rw [State.protect_of_closed code h] at honly ⊢
  rw [hfdie]
  refine ⟨congrArg FPort.closed (State.port_portTo s d _ _), State.port_portTo_peer s d _ _, fun e => ?_, honly⟩
  cases e
  · have hpeer : (((s.protectOne d n).setOut .a n code).setOut .b n code).die .a = ((s.protectOne d n).setOut .a n code).die .a := (State.setOut_onDie _ .b n code).1
    rw [hpeer]
    exact State.setOut_sets _ _ _ _
  · exact State.setOut_sets _ _ _ _

/-! ### Pulses (R171, R202) -/

/-- The source pulse of `k` on an F-die. -/
def FDie.pulse (k : Nat) (sink : BitVec 32) (x : FDie) : FDie := { x with pulsing := x.pulsing ||| BitVec.ofNat 8 (2 ^ (k % 8)), sinks := x.sinks ||| sink }

theorem testPulseStart_of_none {s : State} {k : Fin 32} (h : ((s.pattern.bind fun p => p.src k.val).bind s.srcChan) = none) : doTestPulseStart k s = s := by
  unfold doTestPulseStart
  rw [h]

theorem testPulseStart_of_some {s : State} {k : Fin 32} {n : Nat} (h : ((s.pattern.bind fun p => p.src k.val).bind s.srcChan) = some n) :
    doTestPulseStart k s = (s.updF (n / 32) (FDie.pulse k.val (BitVec.ofNat 32 (2 ^ (n % 32))))).pulseOn n := by
  unfold doTestPulseStart
  rw [h]
  rfl

theorem State.fdie_pulseOn (s : State) (n f : Nat) : (s.pulseOn n).fdie f = s.fdie f :=
  congrArg (Tab.get FDie.init · f) ((State.pulseOn_only s n (.refl 0xc0 s) rfl).fd rfl)

theorem State.fdie_pulseOff (s : State) (n code f : Nat) : (s.pulseOff n code).fdie f = s.fdie f :=
  congrArg (Tab.get FDie.init · f) ((State.pulseOff_only s n code (.refl 0x2c0 s) rfl).fd rfl)

theorem getLsbD_ofNat_two_pow_self {w k : Nat} (h : k < w) : (BitVec.ofNat w (2 ^ k)).getLsbD k = true := by
  rw [BitVec.getLsbD_ofNat, Nat.testBit_two_pow_self]
  simp [h]

theorem testPulseEnd_of_idle {s : State} {k : Fin 32} {x : SrcRec} (hx : (s.pattern.bind fun p => p.src k.val) = some x)
    (h : (s.fdie (x.chan / 32)).pulsing.getLsbD (k.val % 8) = false) : doTestPulseEnd k s = s := by
  unfold doTestPulseEnd
  rw [hx]
  exact if_pos (by simp [h])

theorem testPulseEnd_clears {s : State} {k : Fin 32} {x : SrcRec} (hx : (s.pattern.bind fun p => p.src k.val) = some x) :
    ((doTestPulseEnd k s).fdie (x.chan / 32)).pulsing.getLsbD (k.val % 8) = false := by
  cases h : (s.fdie (x.chan / 32)).pulsing.getLsbD (k.val % 8) with
  | false => rw [testPulseEnd_of_idle hx h, h]
  | true =>
    unfold doTestPulseEnd
    rw [hx]
    dsimp only
    rw [if_neg (by simp [h]), State.fdie_pulseOff, State.fdie_updF_self]
    have hk : k.val % 8 < 8 := Nat.mod_lt _ (by decide)
    dsimp only
    rw [BitVec.getLsbD_and, BitVec.getLsbD_not, getLsbD_ofNat_two_pow_self hk]
    simp

theorem offPulseStart_of_request {s : State} {d : Die} {n : Fin 128} (hon : s.fOn (n.val / 32) = true)
    (hreq : ((s.fdie (n.val / 32)).port d).opReq.getLsbD (n.val % 32) = true) (hmode : Tab.get 0 (s.fdie (n.val / 32)).modes (n.val % 32) = 3) :
    ((doOffPulseStart d n s).fdie (n.val / 32)).port d = { (s.fdie (n.val / 32)).port d with
      opReq := ((s.fdie (n.val / 32)).port d).opReq &&& ~~~chBit (n.val % 32), opRun := ((s.fdie (n.val / 32)).port d).opRun ||| chBit (n.val % 32) } := by
  unfold doOffPulseStart
  dsimp only
  rw [if_neg (by simp [hon, hreq, hmode]), State.fdie_pulseOn, State.fdie_updF_self]
  cases d <;> rfl

theorem offPulseEnd_of_running {s : State} {d : Die} {n : Fin 128} (hon : s.fOn (n.val / 32) = true)
    (hrun : ((s.fdie (n.val / 32)).port d).opRun.getLsbD (n.val % 32) = true) :
    ((doOffPulseEnd d n s).fdie (n.val / 32)).port d = { (s.fdie (n.val / 32)).port d with
      opRun := ((s.fdie (n.val / 32)).port d).opRun &&& ~~~chBit (n.val % 32) } := by
  have hforeign (u : State) (e : Die) : (u.foreignEnd e).fdie (n.val / 32) = u.fdie (n.val / 32) :=
    congrArg (Tab.get FDie.init · (n.val / 32)) ((State.foreignEnd_only u e (.refl 0x2c0 u) rfl).fd rfl)
  have hcount (u : State) (c : Bool) : (if c then u.bump 32 (0x4600 + n.val) 4 else u).fdie (n.val / 32) = u.fdie (n.val / 32) := by
    split <;> rfl
  unfold doOffPulseEnd
  dsimp only
  rw [if_neg (by simp [hon, hrun]), hcount, hforeign, hforeign, State.fdie_pulseOff, State.fdie_updF_self, FDie.port_updPort]

/-! ### CHANNEL_MODE_WRITE (R188) -/

/-- Both ports have opened the configuration of an F-die that is on. -/
def State.cfgBoth (s : State) (f : Nat) : Bool := s.fdies.contains f && (s.fdie f).powered && (s.fdie f).a.cfgOpen && (s.fdie f).b.cfgOpen

theorem State.writeMode_spec {s : State} {d : Die} {n m : Nat} (h : s.cfgBoth (n / 32) = true) :
    Tab.get 0 (((s.writeMode d n m).fdie (n / 32)).port d).modes (n % 32) = m
    ∧ Tab.get 0 ((s.writeMode d n m).fdie (n / 32)).modes (n % 32) = (if Tab.get 0 ((s.fdie (n / 32)).port d.peer).modes (n % 32) = m then m else 0) := by
  have hset (t : Tab Nat) (v : Nat) : Tab.get 0 (Tab.set 0 t (n % 32) v) (n % 32) = v := Tab.get_set_self _ _ _ _
  have hreg (u : State) (i j v f : Nat) : (u.setReg i j v).fdie f = u.fdie f := rfl
  unfold State.writeMode
  dsimp only
  rw [if_neg (by rw [show (_ && _) = true from h]; simp), hreg, State.fdie_updF_self]
  cases d
  case a =>
    dsimp only [FDie.updPort, FDie.port, Die.peer]
    simp only [hset]
    refine ⟨trivial, ite_congr (propext eq_comm) (fun _ => rfl) fun _ => rfl⟩
  case b =>
    dsimp only [FDie.updPort, FDie.port, Die.peer]
    simp only [hset]
    refine ⟨trivial, ite_congr rfl (fun hab => hab) fun _ => rfl⟩

theorem State.modesWritten_fdie (s : State) (f : Nat) : ∃ c, (s.modesWritten f).fdie f = { s.fdie f with causes := c } := by
  unfold State.modesWritten
  dsimp only
  split
  · exact ⟨_, (s.fCause_off f 4).1⟩
  · exact ⟨_, rfl⟩

theorem State.modesWritten_frame (s : State) (f : Nat) : Only 0x110 s (s.modesWritten f) := .ite (s.fCause_off f 4).2 (.refl _ s)

/-- Settles O35: a cause latches or ends by `State.fCause`, and every protection opens the switches of its port alone. -/
theorem fDieProtectionOnlyOpens : Obligations.FDieProtectionOnlyOpens := by
  unfold Obligations.FDieProtectionOnlyOpens
  refine ⟨fun s f hon => ?causes, fun s f hoff => ?off, fun s => rfl, fun s d n => ?protect, fun s k => ?source, fun s d n => ?pulse, fun s d n m => ⟨fun hm => ?badMode, fun hm hin hpow ha hb => ?mode⟩⟩
  case causes =>
    intro latches ends
    have hreg (i v : Nat) : Only 0x300 s (s.setReg (0x4700 + f.val) i v) := State.setReg_only s _ _ _ (.refl _ s) rfl
    refine ⟨fun ma => ⟨fun hma => ?overcurrent, fun hma => ?normalCurrent⟩, ?adc, fun hv => ?gate, fun hv => ?gateLow, ?temp, ?current, ?adcPass, ?gateBack, ?cool, fun mv hmv => ?low,
      fun mv hmv hg => ?recover, fun mv hmv hg => ?recoverLost⟩
    case overcurrent =>
      exact ⟨_, congrArg Host.Outcome.next (if_neg (by simp [hon, hma])), State.fCause_latched_spec 0 hon (hreg 1 ma) rfl⟩
    case normalCurrent => exact congrArg Host.Outcome.next (if_pos (by simp [hma]))
    case adc => exact ⟨_, congrArg Host.Outcome.next (if_pos hon), State.fCause_latched_spec 2 hon (.refl _ s) rfl⟩
    case gate =>
      refine ⟨_, congrArg Host.Outcome.next ((if_neg (by simp [hon])).trans (if_neg (by omega))), State.fCause_latched_spec 3 hon ?_ ?_⟩
      · exact State.updF_only s _ _ (.refl _ s) rfl
      · rw [State.fdie_updF_self]
    case gateLow => exact congrArg Host.Outcome.next ((if_neg (by simp [hon])).trans (if_pos hv))
    case temp => exact ⟨_, congrArg Host.Outcome.next (if_pos hon), State.fCause_latched_spec 5 hon (.refl _ s) rfl⟩
    case current =>
      obtain ⟨hfdie, honly⟩ := (s.free.2.setReg (0x4700 + f.val) 1 (s.free.1 % 4401)).fCause_off f.val 0
      have hfree : Only 0x1000310 s s.free.2 := State.free_only s (.refl _ s) rfl
      have hall := honly.step (State.setReg_only _ (0x4700 + f.val) 1 (s.free.1 % 4401) hfree rfl) rfl
      refine ⟨_, congrArg Host.Outcome.next (supplyCurrentReturn_of_on hon), congrArg FDie.causes hfdie, ?_, hall.frame⟩
      have hread : (State.fCause (s.free.2.setReg (0x4700 + f.val) 1 (s.free.1 % 4401)) f.val 0 false).reg (0x4700 + f.val) 1 = s.free.1 % 4401 := by
        unfold State.reg
        rw [honly.regs rfl]
        exact State.reg_setReg_self _ _ _ _
      omega
    case adcPass =>
      obtain ⟨hfdie, honly⟩ := s.fCause_off f.val 2
      exact ⟨_, congrArg Host.Outcome.next (if_pos hon), congrArg FDie.causes hfdie, honly.frame⟩
    case gateBack =>
      obtain ⟨hfdie, honly⟩ := (s.updF f.val fun x => { x with gate := true }).fCause_off f.val 3
      rw [State.fdie_updF_self] at hfdie
      exact ⟨_, congrArg Host.Outcome.next (if_neg (by simp [hon])), congrArg FDie.causes hfdie, congrArg FDie.gate hfdie,
        (honly.step (State.updF_only s _ _ (.refl 0x110 s) rfl) rfl).frame⟩
    case cool =>
      obtain ⟨hfdie, honly⟩ := s.fCause_off f.val 5
      exact ⟨_, congrArg Host.Outcome.next (if_pos hon), congrArg FDie.causes hfdie, honly.frame⟩
    case low =>
      obtain ⟨hfdie, honly⟩ := (s.vfldDrop f.val mv).fCause_off f.val 3
      have hdies := ((s.vfldDrop f.val mv).fCause f.val 3 false).settle_only_dies f.val ((s.fdie f.val).a.cmd ||| (s.fdie f.val).b.cmd) 0
      have hfd := (congrArg (Tab.get FDie.init · f.val) (hdies.fd rfl)).trans hfdie
      refine ⟨_, congrArg Host.Outcome.next (vfldLow_of_low hon hmv), ?_, ?_, fun d => ?_,
        (hdies.step (honly.step ((s.vfldDrop_only f.val mv).step (.refl 0x3d0 s) rfl) rfl) rfl).frame⟩
      · exact (congrArg FDie.low hfd).trans (s.vfldDrop_low f.val mv)
      · have hregs := ((hdies.regs rfl).trans (honly.regs rfl)).trans (show (s.vfldDrop f.val mv).regs = (s.setReg (0x4700 + f.val) 2 mv).regs from rfl)
        exact (congrArg (Regs.get · (odKey (0x4700 + f.val) 2)) hregs).trans (State.reg_setReg_self s (0x4700 + f.val) 2 mv)
      · have hport := (congrArg (FDie.port · d) hfd).trans ((FDie.port_causes _ d _).trans (s.vfldDrop_port f.val mv d))
        exact ⟨congrArg FPort.closed hport, congrArg FPort.cmd hport, congrArg FPort.opReq hport⟩
    case recover =>
      have hrec : (!s.fOn f.val || decide (mv < 17000)) = false := by simp [hon, hmv]
      exact congrArg Host.Outcome.next ((if_neg (by simp [hrec])).trans (if_pos (by simpa using hg)))
    case recoverLost =>
      refine ⟨_, congrArg Host.Outcome.next ((if_neg (by simp [hon]; omega)).trans (if_neg (by simp [hg]; omega))), State.fCause_latched_spec 3 hon ?_ ?_⟩
      · exact State.updF_only _ _ _ (hreg 2 mv) rfl
      · rw [State.fdie_updF_self]
        rfl
  case off =>
    have hoff' (b : Bool) : (!s.fOn f.val || b) = true := by rw [hoff]; rfl
    have hneg : ¬ s.fOn f.val = true := by rw [hoff]; exact Bool.false_ne_true
    have hnot : (!s.fOn f.val) = true := by rw [hoff]; rfl
    exact ⟨fun x => ⟨congrArg Host.Outcome.next (if_pos (hoff' _)), congrArg Host.Outcome.next (if_pos (hoff' _)), congrArg Host.Outcome.next (if_pos (hoff' _))⟩,
      fun x => congrArg Host.Outcome.next (if_neg hneg), congrArg Host.Outcome.next (if_pos hnot), congrArg Host.Outcome.next (if_pos hnot),
      congrArg Host.Outcome.next (if_neg hneg), congrArg Host.Outcome.next (if_neg hneg), congrArg Host.Outcome.next (if_neg hneg)⟩
  case protect =>
    intro on opened
    have hopened (e : Die) (code : Nat) (h : on e = true) : opened e (s.protect e n.val code) ∧ ∀ e', bitAt (((s.protect e n.val code).die e').outSup n.val).codes code = true := by
      obtain ⟨hport, hpeer, hcodes, honly⟩ := State.protect_spec code h
      exact ⟨⟨hport, hpeer, honly.frame⟩, hcodes⟩
    exact ⟨fun h => congrArg Host.Outcome.next (State.protect_of_open 9 h), fun h => congrArg Host.Outcome.next (State.protect_of_open 7 h),
      fun h => ⟨_, rfl, hopened d 9 h⟩, fun h => ⟨_, rfl, hopened .a 7 h⟩⟩
  case source =>
    have hstart := doTestPulseStart_only k s (.refl 0x1c0 s) rfl
    have hend := doTestPulseEnd_only k s (.refl 0x3c0 s) rfl
    refine ⟨fun hp => ⟨congrArg Host.Outcome.next (testPulseStart_of_none (by rw [hp]; rfl)), congrArg Host.Outcome.next ?_⟩, ⟨_, rfl, hstart.frame, fun n hn => ?_⟩,
      fun x hx hidle => congrArg Host.Outcome.next (testPulseEnd_of_idle hx hidle), ⟨_, rfl, hend.frame, fun x hx => testPulseEnd_clears hx⟩⟩
    · unfold doTestPulseEnd
      rw [hp]
      rfl
    · rw [testPulseStart_of_some hn, State.fdie_pulseOn, State.fdie_updF_self]
      unfold FDie.pulse
      dsimp only
      rw [BitVec.getLsbD_or, getLsbD_ofNat_two_pow_self (Nat.mod_lt _ (by decide)), Bool.or_true]
  case pulse =>
    refine ⟨⟨_, rfl, (doOffPulseStart_only d n s (.refl 0x1c0 s) rfl).frame, fun hon hreq hmode => congrArg FPort.opRun (offPulseStart_of_request hon hreq hmode)⟩,
      ⟨_, rfl, (doOffPulseEnd_only d n s (.refl 0x3c0 s) rfl).frame, fun hon hrun => congrArg FPort.opRun (offPulseEnd_of_running hon hrun)⟩,
      fun h => congrArg Host.Outcome.next (if_pos ?_), fun h => congrArg Host.Outcome.next (if_pos ?_),
      fun hclean hcmd himg => congrArg Host.Outcome.next (if_neg ?_), fun h => congrArg Host.Outcome.next (if_pos ?_), rfl⟩
    · simpa [or_assoc] using h
    · simpa using h
    · cases hc : ((s.die d).outSup n.val).cleanSince <;> simp_all
    · simpa [or_assoc] using h
  case badMode => exact congrArg Host.Outcome.next (if_pos hm)
  case mode =>
    have hcfg : s.cfgBoth (n.val / 32) = true := by
      unfold State.cfgBoth
      simp [hin, hpow, ha, hb]
    obtain ⟨hport, hboth⟩ := State.writeMode_spec (d := d) (m := m) hcfg
    obtain ⟨c, hfdie⟩ := (s.writeMode d n.val m).modesWritten_fdie (n.val / 32)
    have honly := ((s.writeMode d n.val m).modesWritten_frame (n.val / 32)).step (State.writeMode_only d n.val m s (.refl 0x310 s) rfl) rfl
    refine ⟨_, congrArg Host.Outcome.next (if_neg (Nat.not_lt.mpr hm)), ?_, ?_, honly.frame⟩
    · rw [hfdie, FDie.port_causes]
      exact hport
    · rw [hfdie]
      exact hboth

end Sys2Proof.Machine

namespace Sys2Proof.Machine

/-! ## Flits over the Stitch (R142, R146, R151, R168, R205, R220) -/

/-- The flit `r` has been taken: its sender keeps it for a resend, and the link fields of the receiver are those of `h`. -/
def State.flitTaken (s : State) (d : Die) (h : FlitHdr) (r : FlitRec) : State :=
  (s.updDie d.peer fun l => { l with link := l.link.sent h.seq r.vc r.kind }).updDie d fun l => { l with link := l.link.recv h r.vc }

theorem State.flit_of_down {s : State} {d : Die} (h : FlitHdr) (r : FlitRec) (f : State → State) (hdown : s.linkUp d = false) : s.flit d h r f = s :=
  if_pos (by rw [hdown]; rfl)

/-- A flit that is not in order or whose CRC fails never reaches its record. -/
theorem State.flit_of_miss {s : State} {d : Die} {h : FlitHdr} {r : FlitRec} (f : State → State) (hup : s.linkUp d = true) (hheld : s.heldBack d r = false)
    (hmiss : s.flitOk d h r = false) :
    s.flit d h r f = (if flitCrcOk h r then s.updDie d.peer fun l => { l with link := l.link.sent h.seq r.vc r.kind } else s.flitBad d) := by
  unfold State.flit
  dsimp only
  rw [if_neg (by rw [hup, hheld]; decide)]
  by_cases hcrc : flitCrcOk h r = true
  · have hseq : ¬ h.seq = ((s.die d).link.rxSeq + 1) % 4096 := by
      intro heq
      unfold State.flitOk at hmiss
      rw [hup, hheld, hcrc, heq] at hmiss
      simp at hmiss
    rw [if_pos hcrc, if_neg (by simp [hcrc]), if_pos (by simp [hseq])]
  · rw [if_neg hcrc, if_pos (by simp [hcrc])]

/-- A flit in order has its link work done, then its record's own effect. -/
theorem State.flit_of_ok {s : State} {d : Die} {h : FlitHdr} {r : FlitRec} (f : State → State) (hok : s.flitOk d h r = true) :
    s.flit d h r f = f (s.flitTaken d h r) := by
  unfold State.flitOk at hok
  simp only [Bool.and_eq_true, beq_iff_eq, Bool.not_eq_true'] at hok
  obtain ⟨⟨⟨hup, hheld⟩, hcrc⟩, hseq⟩ := hok
  unfold State.flit
  dsimp only
  rw [if_neg (by rw [hup, hheld]; decide), if_neg (by rw [hcrc]; decide), if_neg (by rw [hseq]; simp)]
  rfl

theorem State.flit_id {s : State} {d : Die} {h : FlitHdr} {r : FlitRec} (hok : s.flitOk d h r = true) : s.flit d h r id = s.flitTaken d h r :=
  State.flit_of_ok id hok

theorem State.flitTaken_die (s : State) (d : Die) (h : FlitHdr) (r : FlitRec) :
    (s.flitTaken d h r).die d = { s.die d with link := (s.die d).link.recv h r.vc } := by
  cases d <;> rfl

theorem State.flitTaken_tb (s : State) (d : Die) (h : FlitHdr) (r : FlitRec) : ((s.flitTaken d h r).die d).tb = (s.die d).tb := by
  rw [State.flitTaken_die]

theorem State.flitTaken_cmp (s : State) (d : Die) (h : FlitHdr) (r : FlitRec) : ((s.flitTaken d h r).die d).cmp = (s.die d).cmp := by
  rw [State.flitTaken_die]

theorem State.flitTaken_peer (s : State) (d : Die) (h : FlitHdr) (r : FlitRec) :
    (s.flitTaken d h r).die d.peer = { s.die d.peer with link := (s.die d.peer).link.sent h.seq r.vc r.kind } := by
  cases d <;> rfl

theorem State.flitTaken_only (s : State) (d : Die) (h : FlitHdr) (r : FlitRec) : Only 0xc0 s (s.flitTaken d h r) :=
  State.updDie_only _ _ _ (State.updDie_only _ _ _ (.refl _ s) rfl) rfl

theorem State.flitTaken_spanIs (s : State) (d : Die) (h : FlitHdr) (r : FlitRec) : (s.flitTaken d h r).spanIs d h = s.spanIs d h := by
  unfold State.spanIs
  rw [State.flitTaken_die]

theorem State.spanIs_iff (s : State) (d : Die) (h : FlitHdr) : s.spanIs d h = true ↔ (s.die d).tb.spanNo % 256 = h.span := beq_iff_eq

theorem State.spanIs_eq_false {s : State} {d : Die} {h : FlitHdr} (hne : (s.die d).tb.spanNo % 256 ≠ h.span) : s.spanIs d h = false :=
  Bool.eq_false_iff.mpr fun h' => hne ((s.spanIs_iff d h).mp h')

/-- The receiving die takes supervision flits and positions: phase A of the flit's span, its snapshot not frozen. -/
def State.sampling (s : State) (d : Die) (h : FlitHdr) : Prop := (s.die d).tb.spanNo % 256 = h.span ∧ (s.die d).tb.phase = .a ∧ (s.die d).cur.frozen = false

theorem State.sampling.taken {s : State} {d : Die} {h : FlitHdr} (hs : s.sampling d h) (r : FlitRec) :
    (!(s.flitTaken d h r).spanIs d h || ((s.flitTaken d h r).die d).tb.phase != .a || ((s.flitTaken d h r).die d).cur.frozen) = false := by
  obtain ⟨hspan, hph, hfr⟩ := hs
  rw [State.flitTaken_spanIs, (s.spanIs_iff d h).mpr hspan, State.flitTaken_die]
  dsimp only
  rw [hph, hfr]
  rfl

/-! ### Tick timestamps (R45, R152) -/

/-- The measured skew on the serving die. -/
def State.skewShown (s : State) (d : Die) (ts : Nat) : State :=
  let a : Int := if d = .a then (s.die d).tb.ts else ts
  let b : Int := if d = .a then ts else (s.die d).tb.ts
  if d = s.srv then (s.setReg 0x2007 1 (toS32 (b - a))).setReg 0x2007 2 (max (b - a).natAbs (s.reg 0x2007 2)) else s

theorem natAbs_skew (d : Die) (x y : Int) : ((if d = .a then y else x) - (if d = .a then x else y)).natAbs = (y - x).natAbs := by
  cases d
  · rfl
  · rw [← Int.natAbs_neg, Int.neg_sub]
    rfl

/-- The skew is checked, then the last committed span. -/
def State.tickJudged (s : State) (d : Die) (ts last : Nat) : State :=
  let s1 := if 1000 < ((ts : Int) - (s.die d).tb.ts).natAbs then (s.skewShown d ts).latch 53 else s.skewShown d ts
  if last != (s.die d).tb.lastCommit then (s1.latch 59).setReg 0x5013 0 1 else s1

theorem tickTimestampRx_of_span {s : State} {d : Die} {h : FlitHdr} {ts last : Nat} (hok : s.flitOk d h (flitTick ts last) = true)
    (hspan : (s.die d).tb.spanNo % 256 = h.span) :
    doTickTimestampRx d h ts last s
      = (((s.flitTaken d h (flitTick ts last)).tickJudged d ts last).waitTick d ((ts : Int) - (s.die d).tb.ts).natAbs).readmTick d ((ts : Int) - (s.die d).tb.ts).natAbs := by
  unfold doTickTimestampRx
  rw [State.flit_of_ok _ hok]
  have hts : ((s.flitTaken d h (flitTick ts last)).die d).tb.ts = (s.die d).tb.ts := congrArg Timebase.ts (s.flitTaken_tb d h _)
  have hin : (s.flitTaken d h (flitTick ts last)).spanIs d h = true := (State.flitTaken_spanIs s d h _).trans ((s.spanIs_iff d h).mpr hspan)
  generalize s.flitTaken d h (flitTick ts last) = u at hts hin
  dsimp only
  rw [if_neg (by rw [hin]; decide), ← hts]
  unfold State.tickJudged State.skewShown
  dsimp only
  rw [natAbs_skew]

theorem State.skewShown_only (s : State) (d : Die) (ts : Nat) : Only 0x200 s (s.skewShown d ts) :=
  .ite (State.setReg_only _ _ _ _ (State.setReg_only s _ _ _ (.refl _ s) rfl) rfl) (.refl _ s)

theorem State.tickJudged_latches {s : State} {d : Die} {ts last : Nat} (hsh : s.flt.shadows = []) :
    (last ≠ (s.die d).tb.lastCommit → ((ts : Int) - (s.die d).tb.ts).natAbs ≤ 1000 → (s.tickJudged d ts last).fswBit 59 = true)
    ∧ (1000 < ((ts : Int) - (s.die d).tb.ts).natAbs → (s.tickJudged d ts last).fswBit 53 = true) := by
  have hshown : (s.skewShown d ts).flt.shadows = [] := by rw [(s.skewShown_only d ts).flt rfl, hsh]
  have hdiv (b : Nat) (hb : b ≠ 57) : (s.skewShown d ts).diverted b = false := State.not_diverted _ b hshown hb
  unfold State.tickJudged
  dsimp only
  refine ⟨fun hlast hskew => ?_, fun hskew => ?_⟩
  · rw [if_neg (Nat.not_lt.mpr hskew), if_pos (by simpa using hlast)]
    exact State.latch_sets _ 59 (by simp [fswPresent]) (hdiv 59 (by decide))
  · rw [if_pos hskew]
    have hset : ((s.skewShown d ts).latch 53).fswBit 53 = true := State.latch_sets _ 53 (by simp [fswPresent]) (hdiv 53 (by decide))
    split
    · exact State.fswBit_of_latched (State.setReg_latched _ _ _ _ (State.latch_latched _ 59 (.refl _))) 53 hset
    · exact hset

/-! ### Compare records (R146) -/

/-- The records of the peer on a die. -/
def LDie.peerRecs (l : LDie) : List CmpRec := l.cmp.peer

theorem State.ready_peerRecs (s : State) (d : Die) (p : Pattern) : SameDies LDie.peerRecs s (s.ready d p) :=
  .ite (.ite (.refl s) (.updDie d fun _ => rfl)) (.refl s)

theorem State.countCompares_peerRecs (s : State) (d : Die) (c : Cmp) : SameDies LDie.peerRecs s (s.countCompares d c) :=
  .ite (.of_dies rfl rfl) (.refl s)

/-- The highest use of the reservation is shown before a compare record is looked at. -/
def State.vc2Shown (s : State) (d : Die) : State := s.setReg 0x5014 3 (max ((s.die d).link.vc2) (s.reg 0x5014 3))

/-- A record of the peer whose key is new. -/
def State.recKept (s : State) (d : Die) (c : Cmp) (x : CmpRec) : State :=
  let s1 := (s.setDie d { s.die d with cmp := { c with peer := c.peer ++ [x] } }).countCompares d (s.die d).cmp
  match s1.pattern with
  | some p => if s1.evals d then s1.ready d p else s1
  | none => s1

theorem State.recKept_peer (s : State) (d : Die) (c : Cmp) (x : CmpRec) : ((s.recKept d c x).die d).cmp.peer = c.peer ++ [x] := by
  have hset : LDie.peerRecs ((s.setDie d { s.die d with cmp := { c with peer := c.peer ++ [x] } }).die d) = c.peer ++ [x] := by rw [State.die_setDie]; rfl
  have hcount := State.countCompares_peerRecs (s.setDie d { s.die d with cmp := { c with peer := c.peer ++ [x] } }) d (s.die d).cmp
  unfold State.recKept
  dsimp only
  split
  · split
    · exact (State.ready_peerRecs _ d _ d).trans ((hcount d).trans hset)
    · exact (hcount d).trans hset
  · exact (hcount d).trans hset

theorem State.recKept_only (s : State) (d : Die) (c : Cmp) (x : CmpRec) : Only 0x2c0 s (s.recKept d c x) := by
  have hset := State.setDie_only s d { s.die d with cmp := { c with peer := c.peer ++ [x] } } (.refl 0x2c0 s) rfl
  have hcount := State.countCompares_only _ d (s.die d).cmp hset rfl
  unfold State.recKept
  dsimp only
  split
  · split
    · exact State.ready_only _ d _ hcount rfl
    · exact hcount
  · exact hcount

/-- What a compare record in order does to the state that has taken its flit. -/
def State.compareRec (s : State) (d : Die) (h : FlitHdr) (r : CmpFlit) : State :=
  if s.vc2Full d then s
  else if !s.spanIs d h then s.staleRec d r
  else match ((s.die d).cmp.join r).2 with
    | none => s.setDie d { s.die d with cmp := ((s.die d).cmp.join r).1 }
    | some x => if (s.die d).cmp.peer.any fun y => y.key == x.key then s else s.recKept d ((s.die d).cmp.join r).1 x

theorem compareRecordRx_of_ok {s : State} {d : Die} {h : FlitHdr} {r : CmpFlit} (hok : s.flitOk d h (CmpFlit.flit 2 r) = true) :
    doCompareRecordRx d h r s = ((s.flitTaken d h (CmpFlit.flit 2 r)).vc2Shown d).compareRec d h r :=
  (State.flit_of_ok _ hok).trans rfl

theorem State.staleRec_frame (s : State) (d : Die) (r : CmpFlit) : Only 0x2c0 s (s.staleRec d r) := State.staleRec_only s d r (.refl _ s) rfl

theorem State.compareRec_only (s : State) (d : Die) (h : FlitHdr) (r : CmpFlit) : Only 0x2c0 s (s.compareRec d h r) := by
  unfold State.compareRec
  refine .ite (.refl _ s) (.ite (s.staleRec_frame d r) ?_)
  split
  · exact State.setDie_only s d _ (.refl _ s) rfl
  · exact .ite (.refl _ s) (s.recKept_only d _ _)

theorem State.compareRec_peer {s : State} {d : Die} {h : FlitHdr} {r : CmpFlit} {x : CmpRec} (hspan : s.spanIs d h = true) (hpt : s.ptActs 2 = false)
    (hx : ((s.die d).cmp.join r).2 = some x) (hnew : ∀ y ∈ (s.die d).cmp.peer, y.key ≠ x.key) :
    ((s.compareRec d h r).die d).cmp.peer = ((s.die d).cmp.join r).1.peer ++ [x] := by
  have hfull : ¬ s.vc2Full d = true := by
    unfold State.vc2Full
    rw [hpt]
    exact Bool.false_ne_true
  unfold State.compareRec
  rw [if_neg hfull, if_neg (by rw [hspan]; decide), hx]
  dsimp only
  rw [if_neg (by simpa using hnew)]
  exact State.recKept_peer s d _ x

theorem State.ptActs_congr {s t : State} (k : Nat) (hreg : t.reg 0xD010 0 = s.reg 0xD010 0) (htst : t.tst = s.tst) : t.ptActs k = s.ptActs k := by
  unfold State.ptActs
  rw [hreg, htst]

/-! ### READY (R151) -/

/-- With no replay under way a late READY has nothing to complete. -/
theorem State.lateCommit_of_none {s : State} {d : Die} (p : Pattern) (h : (s.die d).cmp.stage = .none) : s.lateCommit d p = s := by
  unfold State.lateCommit
  dsimp only
  rw [if_pos (by rw [h]; simp)]

/-- Settles O29: every receive command is `State.flit` with its record's effect, so each clause is one of the flit's three ways. -/
theorem flitsAreTakenInOrderOnly : Obligations.FlitsAreTakenInOrderOnly := by
  unfold Obligations.FlitsAreTakenInOrderOnly
  refine ⟨fun s d h hdown => ?down, fun s d h hup => ?miss, fun s d h r hok => ?link, fun s d h hspan => ?otherSpan, fun s d h hspan hph hfr => ?sampling,
    fun s d h ts last hok hspan => ?tick, fun s d h r hok => ?compare, fun s d h hok hspan hstage => ?ready⟩
  case down =>
    have hnone (r : FlitRec) (f : State → State) : Host.Outcome.next (s.flit d h r f) = (.next s : Host.Outcome State Fault Refusal) :=
      congrArg Host.Outcome.next (State.flit_of_down h r f hdown)
    exact ⟨fun _ _ => hnone _ _, fun _ _ _ => hnone _ _, fun _ _ => hnone _ _, fun _ => hnone _ _, hnone _ _, fun _ => hnone _ _, fun _ _ => hnone _ _,
      fun _ _ => hnone _ _, fun _ => hnone _ _, fun _ => hnone _ _, fun _ => hnone _ _, hnone _ _⟩
  case miss =>
    intro miss got
    have hgot (r : FlitRec) (f : State → State) (hm : miss r) : Host.Outcome.next (s.flit d h r f) = got r :=
      congrArg Host.Outcome.next (State.flit_of_miss f hup hm.1 hm.2)
    exact ⟨fun _ _ => hgot _ _, fun _ _ _ => hgot _ _, fun _ _ => hgot _ _, fun _ => hgot _ _, hgot _ _, fun _ => hgot _ _, fun _ _ => hgot _ _,
      fun _ _ => hgot _ _, fun _ => hgot _ _, fun _ => hgot _ _, fun _ => hgot _ _, hgot _ _⟩
  case link =>
    rw [State.flit_id hok, State.flitTaken_die, State.flitTaken_peer]
    refine ⟨rfl, ?_, rfl, rfl, rfl⟩
    dsimp only [Link.recv]
    split <;> rfl
  case otherSpan =>
    have hout (r : FlitRec) : (s.flitTaken d h r).spanIs d h = false := (s.flitTaken_spanIs d h r).trans (State.spanIs_eq_false hspan)
    have hskip (r : FlitRec) (f : State → State) (hf : ∀ u : State, u.spanIs d h = false → f u = u) (hok : s.flitOk d h r = true) :
        Host.Outcome.next (s.flit d h r f) = (.next (s.flit d h r id) : Host.Outcome State Fault Refusal) := by
      rw [State.flit_of_ok f hok, State.flit_id hok, hf _ (hout r)]
    have hnot (u : State) (b c : Bool) (hu : u.spanIs d h = false) : (!u.spanIs d h || b || c) = true := by rw [hu]; rfl
    exact ⟨fun x y => hskip _ _ fun u hu => if_pos (by rw [hu]; rfl), fun x y z => hskip _ _ fun u hu => if_pos (hnot u _ _ hu),
      fun x y => hskip _ _ fun u hu => if_pos (hnot u _ _ hu), hskip _ _ fun u hu => if_pos (by rw [hu]; rfl), fun x y => hskip _ _ fun u hu => if_pos (hnot u _ _ hu)⟩
  case sampling =>
    have hs : s.sampling d h := ⟨hspan, hph, hfr⟩
    have htake (r : FlitRec) (f g : State → State) (hok : s.flitOk d h r = true) (hf : f (s.flitTaken d h r) = g (s.flitTaken d h r)) :
        Host.Outcome.next (s.flit d h r f) = (.next (g (s.flit d h r id)) : Host.Outcome State Fault Refusal) := by
      rw [State.flit_of_ok f hok, State.flit_id hok, hf]
    exact ⟨fun tag states codes hok => htake _ _ (fun u => u.updDie d _) hok (if_neg (by rw [hs.taken]; exact Bool.false_ne_true)),
      fun f codes hok => htake _ _ (fun u => u.updDie d _) hok (if_neg (by rw [hs.taken]; exact Bool.false_ne_true)),
      fun first recs hok => htake _ _ (fun u => u.updDie d _) hok (if_neg (by rw [hs.taken]; exact Bool.false_ne_true))⟩
  case tick =>
    have htb : ((s.flitTaken d h (flitTick ts last)).die d).tb = (s.die d).tb := s.flitTaken_tb d h _
    have honly := doTickTimestampRx_only d h ts last s (.refl 0x10cabf6 s) rfl
    refine ⟨_, rfl, honly.pers rfl, honly.pat rfl, ?_⟩
    rw [tickTimestampRx_of_span hok hspan, ← htb]
    have hkeeps (u : State) (n : Nat) : Latched u ((u.waitTick d n).readmTick d n) := State.readmTick_latched _ d n (State.waitTick_latched u d n (.refl u))
    have hshadow (hsh : s.flt.shadows = []) : (s.flitTaken d h (flitTick ts last)).flt.shadows = [] :=
      (congrArg Faults.shadows ((s.flitTaken_only d h _).flt rfl)).trans hsh
    exact ⟨fun hlast hskew hsh => State.fswBit_of_latched (hkeeps _ _) 59 ((State.tickJudged_latches (hshadow hsh)).1 hlast hskew),
      fun hskew hsh => State.fswBit_of_latched (hkeeps _ _) 53 ((State.tickJudged_latches (hshadow hsh)).2 hskew)⟩
  case compare =>
    have htaken := s.flitTaken_only d h (CmpFlit.flit 2 r)
    have hshown : Only 0x200 (s.flitTaken d h (CmpFlit.flit 2 r)) ((s.flitTaken d h (CmpFlit.flit 2 r)).vc2Shown d) := State.setReg_only _ _ _ _ (.refl _ _) rfl
    have hall := (State.compareRec_only ((s.flitTaken d h (CmpFlit.flit 2 r)).vc2Shown d) d h r).step (hshown.step (htaken.step (.refl 0x2c0 s) rfl) rfl) rfl
    refine ⟨_, congrArg Host.Outcome.next (compareRecordRx_of_ok hok), hall.frame, fun hspan hpt x hx hnew => ?_⟩
    have hdie : ((s.flitTaken d h (CmpFlit.flit 2 r)).vc2Shown d).die d = (s.flitTaken d h (CmpFlit.flit 2 r)).die d := by cases d <;> rfl
    have hcmp : (((s.flitTaken d h (CmpFlit.flit 2 r)).vc2Shown d).die d).cmp = (s.die d).cmp := (congrArg LDie.cmp hdie).trans (s.flitTaken_cmp d h _)
    have hin : ((s.flitTaken d h (CmpFlit.flit 2 r)).vc2Shown d).spanIs d h = true :=
      (congrArg (fun l : LDie => l.tb.spanNo % 256 == h.span) hdie).trans ((s.flitTaken_spanIs d h _).trans ((s.spanIs_iff d h).mpr hspan))
    have hact : ((s.flitTaken d h (CmpFlit.flit 2 r)).vc2Shown d).ptActs 2 = false := by
      have hreg : ((s.flitTaken d h (CmpFlit.flit 2 r)).vc2Shown d).reg 0xD010 0 = s.reg 0xD010 0 :=
        (State.reg_setReg_ne _ _ (by decide : odKey 0x5014 3 ≠ odKey 0xD010 0)).trans (congrArg (Regs.get · (odKey 0xD010 0)) (htaken.regs rfl))
      exact (State.ptActs_congr 2 hreg ((hshown.tst rfl).trans (htaken.tst rfl))).trans hpt
    rw [← hcmp] at hx hnew ⊢
    exact State.compareRec_peer hin hact hx hnew
  case ready =>
    refine congrArg Host.Outcome.next ((State.flit_of_ok _ hok).trans ?_)
    rw [State.flit_id hok]
    have hin : (s.flitTaken d h flitReady).spanIs d h = true := (State.flitTaken_spanIs s d h _).trans ((s.spanIs_iff d h).mpr hspan)
    have hst : ((s.flitTaken d h flitReady).die d).cmp.stage = .none := (congrArg Cmp.stage (s.flitTaken_cmp d h _)).trans hstage
    refine (if_neg (by rw [hin]; decide)).trans ?_
    dsimp only
    split
    · exact State.lateCommit_of_none _ (by rw [State.die_updDie]; exact hst)
    · rfl

end Sys2Proof.Machine

namespace Sys2Proof.Machine

/-! ## Ring accesses (R388 to R398) -/

/-! ### The bytes of an entry -/

theorem Mem.readN_eq_map (m : Mem) (a n : Nat) : Mem.readN m a n = (List.range n).map fun i => Mem.read m (a + i) := by
  induction n generalizing a with
  | zero => rfl
  | succ n ih =>
    rw [Mem.readN, ih, List.range_succ_eq_map, List.map_cons, List.map_map]
    refine congrArg _ (List.map_congr_left fun i _ => ?_)
    exact congrArg (Mem.read m) (show a + 1 + i = a + (i + 1) by omega)

/-- A list of bytes reads back from where it was written. -/
theorem Mem.readN_writeL (m : Mem) (a : Nat) (bs : List Byte) : Mem.readN (Mem.writeL m a bs) a bs.length = bs := by
  rw [Mem.readN_eq_map]
  refine List.ext_getElem (by simp) fun i h₁ h₂ => ?_
  rw [List.getElem_map, List.getElem_range]
  exact Mem.read_writeL bs m a i h₂

theorem Rings.ring_put_self (rs : Rings) (n : Nat) (r : Ring) : (rs.put n r).ring n = r := Tab.get_set_self _ _ _ _

theorem Rings.ring_put_ne (rs : Rings) {n m : Nat} (r : Ring) (h : m ≠ n) : (rs.put n r).ring m = rs.ring m := Tab.get_set_ne _ _ _ _ _ h

theorem Rings.write1_ring_self (rs : Rings) (order n : Nat) (bs : List Byte) :
    (rs.write1 order n bs).ring n = { rs.ring n with head := ((rs.ring n).head + 1) % 2 ^ 32 } := Rings.ring_put_self _ _ _

theorem Rings.write1_ring_ne (rs : Rings) (order : Nat) {n m : Nat} (bs : List Byte) (h : m ≠ n) : (rs.write1 order n bs).ring m = rs.ring m := by
  unfold Rings.write1
  dsimp only
  rw [Rings.ring_put_ne _ _ h]
  split <;> rfl

theorem Rings.write1_mem (rs : Rings) (order n : Nat) (bs : List Byte) (r : Ring) (h : r.inB order = (rs.ring n).inB order) :
    (rs.write1 order n bs).mem order r = Mem.writeL (rs.mem order (rs.ring n)) ((rs.ring n).addr (rs.ring n).head) bs := by
  unfold Rings.write1 Rings.mem
  dsimp only
  rw [h]
  split <;> rfl

/-- The entry that was written at HEAD is read there. -/
theorem Rings.write1_entry {rs : Rings} {n : Nat} {bs : List Byte} (order : Nat) (hn : n ≠ 0) (hlen : bs.length = (rs.ring n).eb) :
    (rs.write1 order n bs).entry order n (rs.ring n).head = bs := by
  unfold Rings.entry
  dsimp only
  rw [if_neg hn, Rings.write1_ring_self, Rings.write1_mem rs order n bs { rs.ring n with head := ((rs.ring n).head + 1) % 2 ^ 32 } rfl]
  exact (congrArg (Mem.readN _ _) hlen.symm).trans (Mem.readN_writeL _ _ bs)

/-- TAIL of a ring moves by `cnt`. -/
def Ring.consumed (r : Ring) (cnt : Nat) : Ring := { r with tail := (r.tail + cnt) % 2 ^ 32 }

/-- A ring whose entries have all been taken. -/
def Ring.drained (r : Ring) : Ring := { r with tail := r.head, loose := false }

theorem Ring.level_push {r : Ring} (hlevel : r.level < r.slots) (hhead : r.head < 2 ^ 32) (htail : r.tail < 2 ^ 32) (hsz : r.sz < 16) :
    ({ r with head := (r.head + 1) % 2 ^ 32 } : Ring).level = r.level + 1 := by
  have hslots : r.slots ≤ 2 ^ 16 := Nat.pow_le_pow_right (by decide) hsz
  unfold Ring.level at hlevel ⊢
  dsimp only
  omega

/-! ### A push of one entry (R390, R391) -/

theorem entriesOf_one {eb : Nat} {data : List Byte} (heb : 0 < eb) (h : data.length = eb) : entriesOf eb data = [data] := by
  unfold entriesOf slice
  rw [h, Nat.div_self heb]
  simp [← h]

theorem Ring.eb_pos (r : Ring) : 0 < r.eb := Nat.mul_pos (by decide) (Nat.pow_pos (by decide))

theorem Rings.devPut_of_room {rs : Rings} {n room : Nat} (order : Nat) (bs : List Byte) (halloc : (rs.ring n).alloc = true) (hroom : 0 < room) :
    rs.devPut order n room bs = (rs.write1 order n bs, true) := by
  unfold Rings.devPut
  dsimp only
  rw [if_neg (by simp [halloc]), if_pos hroom]

theorem State.pushAll_one_rings {s : State} {n : Nat} (e : List Byte) (halloc : (s.rings.ring n).alloc = true) (hroom : 0 < s.ringRoom (s.rings.ring n)) :
    (s.pushAll n [e]).rings = s.rings.write1 s.order n e := by
  unfold State.pushAll
  rw [(State.crcKick_only _ n (.refl 0x2220 _) rfl).rings rfl]
  exact congrArg Prod.fst (Rings.devPut_of_room s.order e halloc hroom)

/-! ### Reads (R393) -/

theorem State.readEntries_of_firm {s : State} {n : Nat} (h : (s.rings.ring n).loose = false) (cs : List Nat) :
    s.readEntries n cs = s.reply (cs.flatMap fun c => s.rings.entry s.order n c) := by
  have hfold (acc : List Byte) : (cs.foldl (fun (x : List Byte × State) c =>
      if (x.2.rings.ring n).loose then (x.1 ++ (x.2.freeBytes (s.rings.ring n).eb).1, (x.2.freeBytes (s.rings.ring n).eb).2)
      else (x.1 ++ x.2.rings.entry s.order n c, x.2)) (acc, s)) = (acc ++ cs.flatMap fun c => s.rings.entry s.order n c, s) := by
    induction cs generalizing acc with
    | nil => simp
    | cons c cs ih =>
      rw [List.foldl_cons, if_neg (by simp [h]), ih]
      simp
  exact congrArg (fun x : List Byte × State => x.2.reply x.1) (hfold [])

/-! ### The check of the descriptor (R389) -/

theorem State.ringFix_of_sound {s : State} {n : Nat} (h : (s.rings.ring n).chk = true) : s.ringFix n = s := if_pos h

/-- The descriptor of ring `n` as it is rewritten. -/
def Ring.emptied (r : Ring) : Ring := { r with head := 0, tail := 0, chk := true, loose := false }

theorem State.ringFix_of_bad {s : State} {n : Nat} (h : (s.rings.ring n).chk = false) (hn : n ≠ 0) :
    s.ringFix n = (({ s with rings := s.rings.put n (s.rings.ring n).emptied } : State).bump 32 0x8000 4).latch
      (dieBit (if (s.rings.ring n).home = 1 then .b else .a) 11) := by
  unfold State.ringFix
  dsimp only
  rw [if_neg (by simp [h]), if_neg hn]
  rfl

theorem Ring.emptied_level (r : Ring) : r.emptied.level = 0 := (by decide : (0 + 2 ^ 32 - 0) % 2 ^ 32 = 0)

/-- Ring `n` is sound and holds nothing. -/
def Rings.Empty (rs : Rings) (n : Nat) : Prop := (rs.ring n).chk = true ∧ (rs.ring n).level = 0

theorem Rings.empty_put {rs : Rings} {n : Nat} {r : Ring} (hchk : r.chk = true) (hlevel : r.level = 0) : (rs.put n r).Empty n := by
  unfold Rings.Empty
  rw [Rings.ring_put_self]
  exact ⟨hchk, hlevel⟩

theorem State.ringFix_empty {s : State} {n : Nat} (h : (s.rings.ring n).chk = false) (hn : n ≠ 0) :
    (s.ringFix n).rings = s.rings.put n (s.rings.ring n).emptied := by
  rw [State.ringFix_of_bad h hn, (State.latch_only _ _ (.refl 0x10cabf6 _) rfl).rings rfl]
  rfl

/-! ### The answers to a request of the selected ring -/

/-- `Checked` for a request that first looks at a descriptor: `t` is the state after that check. -/
def CheckedOn (s t : State) (c : Instr) (l : List (Bool × Status)) (f : State → State) : Prop :=
  (t.modes.mode = .shelf → exec c s = .next t)
  ∧ (t.modes.mode ≠ .shelf → t.serves = false → exec c s = .next (t.ans .mode))
  ∧ (t.open_ → ∀ l1 st l2, l = l1 ++ (true, st) :: l2 → (∀ x ∈ l1, x.1 = false) → exec c s = .next (t.ans st))
  ∧ (t.open_ → (∀ x ∈ l, x.1 = false) → exec c s = .next (f (t.ans .ok)))

theorem State.refuse_checkedOn {s t : State} {c : Instr} {l : List (Bool × Status)} {f : State → State} (h : exec c s = .next (t.refuse l f)) :
    CheckedOn s t c l f := by
  refine ⟨fun h1 => ?_, fun h1 h2 => ?_, fun h1 l1 st l2 h2 h3 => ?_, fun h1 h2 => ?_⟩
  · rw [h, State.refuse_shelf t l f h1]
  · rw [h, State.refuse_closed t l f h1 h2]
  · rw [h, h2, State.refuse_first t l1 l2 st f h1 h3]
  · rw [h, State.refuse_ok t l f h1 h2]

/-- The conditions of RING_PUSH in order. -/
def State.pushChecks (t : State) (k : Nat) (r : Ring) (data : List Byte) : List (Bool × Status) :=
  [(t.ringBusy r || (r.alloc && r.policy != 0 && decide (t.ringRoom r < data.length / r.eb)), .busy), (r.owner == 8, .access),
    (!t.mayUseRing k r, .rights), (decide (r.slots < data.length / r.eb), .bounds),
    (decide (data.length % r.eb ≠ 0) || data.isEmpty || decide (1024 < data.length), .range)]

/-- The conditions of RING_READ in order. -/
def State.readChecks (t : State) (k : Nat) (r : Ring) (ofs cnt : Nat) : List (Bool × Status) :=
  [(t.ringBusy r, .busy), (!t.mayReadRing k r, .rights), (decide (r.level < r.place ofs + cnt / r.eb), .bounds),
    (decide (cnt % r.eb ≠ 0) || decide (ofs % r.eb ≠ 0) || cnt == 0 || decide (1024 < cnt), .range)]

/-- The conditions of RING_CONSUME in order. -/
def State.consumeChecks (t : State) (k : Nat) (r : Ring) (cnt : Nat) : List (Bool × Status) :=
  [(t.ringBusy r, .busy), (r.locked && r.alloc && r.purpose != 4, .access), (!t.mayUseRing k r, .rights), (decide (r.level < cnt), .range)]

/-- The conditions of FREE and RESET in order. -/
def State.freeChecks (t : State) (k : Nat) (r : Ring) : List (Bool × Status) :=
  [(t.ringBusy r, .busy), (r.locked && r.alloc, .access), (!t.mayUseRing k r, .rights)]

section
variable {t : State} {k : Nat} {r : Ring} (hbusy : t.ringBusy r = false)
include hbusy

theorem State.pushChecks_pass {data : List Byte} (hown : r.owner ≠ 8) (huse : t.mayUseRing k r = true)
    (hroom : r.alloc = false ∨ r.policy = 0 ∨ data.length / r.eb ≤ t.ringRoom r) (hslots : data.length / r.eb ≤ r.slots) (hmod : data.length % r.eb = 0)
    (hlo : 1 ≤ data.length) (hhi : data.length ≤ 1024) : ∀ x ∈ t.pushChecks k r data, x.1 = false := by
  have hfull : (r.alloc && r.policy != 0 && decide (t.ringRoom r < data.length / r.eb)) = false := by
    obtain h | h | h := hroom
    · rw [h]; rfl
    · rw [h]; simp
    · simp [h]
  have hne : data.isEmpty = false := by
    cases data
    · simp at hlo
    · rfl
  simp [State.pushChecks, hbusy, hfull, hown, huse, hslots, hmod, hne, hhi]

theorem State.readChecks_pass {ofs cnt : Nat} (hmay : t.mayReadRing k r = true) (hlevel : r.place ofs + cnt / r.eb ≤ r.level) (hmod : cnt % r.eb = 0)
    (hofs : ofs % r.eb = 0) (hlo : 1 ≤ cnt) (hhi : cnt ≤ 1024) : ∀ x ∈ t.readChecks k r ofs cnt, x.1 = false := by
  have hne : ¬ cnt = 0 := by omega
  simp [State.readChecks, hbusy, hmay, hlevel, hmod, hofs, hne, hhi]

theorem State.consumeChecks_pass {cnt : Nat} (hlock : r.locked = false ∨ r.alloc = false ∨ r.purpose = 4) (huse : t.mayUseRing k r = true)
    (hlevel : cnt ≤ r.level) : ∀ x ∈ t.consumeChecks k r cnt, x.1 = false := by
  have hheld : (r.locked && r.alloc && r.purpose != 4) = false := by
    obtain h | h | h := hlock <;> rw [h] <;> simp
  simp [State.consumeChecks, hbusy, hheld, huse, hlevel]

theorem State.freeChecks_pass (hlock : r.locked = false ∨ r.alloc = false) (huse : t.mayUseRing k r = true) : ∀ x ∈ t.freeChecks k r, x.1 = false := by
  have hheld : (r.locked && r.alloc) = false := by
    obtain h | h := hlock <;> rw [h] <;> simp
  simp [State.freeChecks, hbusy, hheld, huse]

end

/-- The state in which an access of the ring that seat `k` has selected is checked, and that ring. -/
def State.selFixed (s : State) (k : Nat) : State := s.ringFix (s.selRing k)

def State.selFound (s : State) (k : Nat) : Ring := (s.selFixed k).rings.ring (s.selRing k)

theorem ringPush_checked (s : State) (k : Fin 8) (data : List Byte) : CheckedOn s (s.selFixed k.val) (.ringPush k data)
    ((s.selFixed k.val).pushChecks k.val (s.selFound k.val) data)
    (fun u => (u.pushAll (s.selRing k.val) (entriesOf (s.selFound k.val).eb data)).pushed k.val (s.selRing k.val)) := State.refuse_checkedOn rfl

/-- The entries that a read names, by their counters. -/
def Ring.counters (r : Ring) (ofs cnt : Nat) : List Nat := (List.range (cnt / r.eb)).map fun i => (r.tail + r.place ofs + i) % 2 ^ 32

theorem ringRead_checked (s : State) (k : Fin 8) (ofs cnt : Nat) : CheckedOn s (s.selFixed k.val) (.ringRead k ofs cnt)
    ((s.selFixed k.val).readChecks k.val (s.selFound k.val) ofs cnt) (fun u => u.readEntries (s.selRing k.val) ((s.selFound k.val).counters ofs cnt)) :=
  State.refuse_checkedOn rfl

theorem ringConsume_checked (s : State) (k : Fin 8) (cnt : Nat) : CheckedOn s (s.selFixed k.val) (.ringConsume k cnt)
    ((s.selFixed k.val).consumeChecks k.val (s.selFound k.val) cnt)
    (fun u => { u with rings := u.rings.put (s.selRing k.val) ((s.selFound k.val).consumed cnt) }) := State.refuse_checkedOn rfl

theorem free_checked (s : State) (k : Fin 8) : CheckedOn s (s.selFixed k.val) (.free k) ((s.selFixed k.val).freeChecks k.val (s.selFound k.val))
    (fun u => { u with rings := u.rings.put (s.selRing k.val) Ring.free }) := State.refuse_checkedOn rfl

theorem reset_checked (s : State) (k : Fin 8) : CheckedOn s (s.selFixed k.val) (.reset k) ((s.selFixed k.val).freeChecks k.val (s.selFound k.val))
    (fun u => { u with rings := u.rings.put (s.selRing k.val) (s.selFound k.val).drained }) := State.refuse_checkedOn rfl

/-! ### An emptied ring -/

/-- A property of the rings that holds after the check and after the effect holds after the request. -/
theorem CheckedOn.rings {s t : State} {c : Instr} {l : List (Bool × Status)} {f : State → State} (P : Rings → Prop) (h : CheckedOn s t c l f) (ht : P t.rings)
    (hf : (∀ x ∈ l, x.1 = false) → P (f (t.ans .ok)).rings) : ∃ u, exec c s = .next u ∧ P u.rings := by
  obtain ⟨hshelf, hclosed, hfirst, heff⟩ := h
  by_cases hs : t.modes.mode = .shelf
  · exact ⟨_, hshelf hs, ht⟩
  · cases hserves : t.serves with
    | false => exact ⟨_, hclosed hs hserves, ht⟩
    | true =>
      cases hfind : l.find? fun x => x.1 with
      | none =>
        have hall : ∀ x ∈ l, x.1 = false := by simpa [List.find?_eq_none] using hfind
        exact ⟨_, heff ⟨hs, hserves⟩ hall, hf hall⟩
      | some x =>
        obtain ⟨b, st⟩ := x
        obtain ⟨hb, pre, rest, rfl, hpre⟩ := List.find?_eq_some_iff_append.mp hfind
        obtain rfl : b = true := hb
        exact ⟨_, hfirst ⟨hs, hserves⟩ pre st rest rfl (by simpa using hpre), ht⟩

section
variable {s : State} {k : Fin 8} (hn : s.selRing k.val ≠ 0) (hchk : (s.rings.ring (s.selRing k.val)).chk = false)
include hn hchk

theorem State.selFixed_rings : (s.selFixed k.val).rings = s.rings.put (s.selRing k.val) (s.rings.ring (s.selRing k.val)).emptied := State.ringFix_empty hchk hn

theorem State.selFound_emptied : s.selFound k.val = (s.rings.ring (s.selRing k.val)).emptied :=
  (congrArg (Rings.ring · _) (State.selFixed_rings hn hchk)).trans (Rings.ring_put_self _ _ _)

/-- No request of an emptied ring finds an entry in it or puts one into it, but a push. -/
theorem ringAccess_empty {c : Instr} (hc : c ∈ [Instr.free k, .reset k] ∨ (∃ n, c = .ringConsume k n) ∨ (∃ o n, c = .ringRead k o n)) :
    ∃ t, exec c s = .next t ∧ t.rings.Empty (s.selRing k.val) := by
  have hempty : (s.selFixed k.val).rings.Empty (s.selRing k.val) := by
    rw [State.selFixed_rings hn hchk]
    exact Rings.empty_put rfl (Ring.emptied_level _)
  have hfound := State.selFound_emptied hn hchk
  obtain hmem | ⟨cnt, rfl⟩ | ⟨ofs, cnt, rfl⟩ := hc
  · rcases List.mem_cons.mp hmem with rfl | hmem
    · exact (free_checked s k).rings (Rings.Empty · _) hempty fun _ => Rings.empty_put rfl (by decide)
    · obtain rfl := List.mem_singleton.mp hmem
      refine (reset_checked s k).rings (Rings.Empty · _) hempty fun _ => Rings.empty_put ?_ ?_ <;> rw [hfound]
      · rfl
      · exact (by decide : (0 + 2 ^ 32 - 0) % 2 ^ 32 = 0)
  · refine (ringConsume_checked s k cnt).rings (Rings.Empty · _) hempty fun hall => ?_
    have hnot := hall (decide ((s.selFound k.val).level < cnt), .range) (by simp [State.consumeChecks])
    have hlevel : (s.selFound k.val).level = 0 := hempty.2
    have hcnt : cnt = 0 := by
      rw [hlevel, decide_eq_false_iff_not] at hnot
      omega
    refine Rings.empty_put ?_ ?_ <;> rw [hfound, hcnt]
    · rfl
    · exact (by decide : (0 + 2 ^ 32 - (0 + 0) % 2 ^ 32) % 2 ^ 32 = 0)
  · refine (ringRead_checked s k ofs cnt).rings (Rings.Empty · _) hempty fun _ => ?_
    rw [(State.readEntries_only _ _ _ (.refl 0x1000800 _) rfl).rings rfl]
    exact hempty

end

/-! ### Allocation (R396) -/

/-- A new ring that a seat asks for. -/
def newRing (d : Die) (k v : Nat) : Ring :=
  { base := 0, sz := v % 16, esize := v / 16 % 4, policy := v / 64 % 4, owner := k, home := d.n, locked := false, purpose := 0, head := 0, tail := 0,
    chk := true, drops := 0 }

/-- What an accepted allocation does. -/
def State.allocated (s : State) (d : Die) (k v n b : Nat) : State :=
  ({ s with rings := s.rings.put n { newRing d k v with base := b } }).updSeat k fun x => { x with ringLast := n }

/-- The conditions of RING_ALLOC in order. -/
def State.allocChecks (s : State) (d : Die) (k v : Nat) : List (Bool × Status) :=
  [(s.ringBusy (newRing d k v) || (s.freeNo d).isNone || (s.freeBase (newRing d k v)).isNone, .busy),
    (!s.has k 1 || decide (s.reg (0x1100 + k) 7 < (newRing d k v :: s.rings.held k).length)
      || decide (s.reg (0x1100 + k) 8 < ringsKib (newRing d k v :: s.rings.held k)), .rights),
    (decide ((newRing d k v).sz = 0) || decide ((newRing d k v).policy = 3), .range)]

/-- An accepted request takes the number and the memory that the checks have found. -/
def State.allocEffect (s : State) (d : Die) (k v : Nat) (u : State) : State :=
  match s.freeNo d, s.freeBase (newRing d k v) with
  | some n, some b => u.allocated d k v n b
  | _, _ => u

theorem ringAlloc_checked (s : State) (d : Die) (k : Fin 8) (v : Nat) : Checked s (.ringAlloc d k v) (s.allocChecks d k.val v) (s.allocEffect d k.val v) :=
  State.refuse_checked _ _ _ _ rfl

/-! ### JRN_DATA_READ (R402) -/

/-- The conditions of JRN_DATA_READ in order. -/
def State.jrnReadChecks (s : State) (d : Die) (k ofs cnt : Nat) : List (Bool × Status) :=
  [(s.jrnBusy d, .busy), (!s.has k 0, .rights), (!(s.die d).jrn.valid s.order ofs cnt, .bounds), (cnt == 0 || decide (1024 < cnt), .range)]

theorem jrnDataRead_checked (s : State) (d : Die) (k : Fin 8) (ofs cnt : Nat) :
    Checked s (.jrnDataRead d k ofs cnt) (s.jrnReadChecks d k.val ofs cnt) (fun u => u.reply (Mem.readN (s.die d).jrn.mem ofs cnt)) :=
  State.refuse_checked _ _ _ _ rfl

/-! ### JOURNAL_RESUME (R398, R399) -/

theorem State.jrnRec_onDie (s : State) (d : Die) (typ : Nat) (body : List Byte) : OnDie d s (s.jrnRec d typ body) := by
  have hrec (u : State) (j : Journal) (c : Bool) : OnDie d u
      (if c then (u.setDie d { (u.die d) with jrn := j }).bumpOnce d 32 0x8200 5 else u.setDie d { (u.die d) with jrn := j }) :=
    .ite ((OnDie.setDie _).trans (.of_regs (State.bumpOnce_only _ d _ _ _ (.refl _ _) rfl))) (.setDie _)
  exact (OnDie.ite (State.jrnStop_onDie s d) (.refl s)).trans (hrec _ _ _)

theorem State.jrnSync_onDie (d : Die) (p : Pattern) (s : State) (v : Var) : OnDie d s (State.jrnSync d p s v) := by
  unfold State.jrnSync
  exact .ite (.refl s) (.ite (.refl s) ((s.jrnRec_onDie d _ _).trans (.updDie _)))

/-- What a die computes with: its engine and its snapshot. -/
def LDie.computing (l : LDie) : Engine × Snap := (l.eng, l.cur)

theorem State.jrnSync_computing (d : Die) (p : Pattern) (s : State) (v : Var) : SameDies LDie.computing s (State.jrnSync d p s v) := by
  unfold State.jrnSync
  exact .ite (.refl s) (.ite (.refl s) ((State.jrnRec_same (fun _ _ => rfl) s d _ _).trans (.updDie d fun _ => rfl)))

/-- The journal of a die begins again, and its drops end. -/
def State.jrnResumed (s : State) (d : Die) : State :=
  (s.setDie d { s.die d with jrn := (s.die d).jrn.resume s.order (s.die d).tb.spanNo s.rtcMs }).bumpOnce d 32 0x8200 6

theorem State.jrnResumed_onDie (s : State) (d : Die) : OnDie d s (s.jrnResumed d) :=
  (OnDie.setDie _).trans (.of_regs (State.bumpOnce_only _ d _ _ _ (.refl _ _) rfl))

theorem State.jrnResumed_computing (s : State) (d : Die) : SameDies LDie.computing s (s.jrnResumed d) :=
  SameDies.trans (t := s.setDie d { s.die d with jrn := (s.die d).jrn.resume s.order (s.die d).tb.spanNo s.rtcMs }) (.setDie d rfl)
    (State.bumpOnce_same _ d 32 0x8200 6)

theorem State.jrnResumed_jrn (s : State) (d : Die) : ((s.jrnResumed d).die d).jrn = (s.die d).jrn.resume s.order (s.die d).tb.spanNo s.rtcMs := by
  refine (State.bumpOnce_same (π := LDie.jrn) _ d 32 0x8200 6 d).trans ?_
  rw [State.die_setDie]

theorem journalResume_eq (d : Die) (s : State) : doJournalResume d s =
    if !(s.die d).jrn.dropping || s.jrnBusy d || s.jrnShut || !s.ticking d then s
    else match (s.jrnResumed d).pattern with
      | none => s.jrnResumed d
      | some p => p.vars.foldl (State.jrnSync d p) (s.jrnResumed d) := rfl

theorem journalResume_onDie (d : Die) (s : State) : OnDie d s (doJournalResume d s) ∧ SameDies LDie.computing s (doJournalResume d s) := by
  rw [journalResume_eq]
  split
  · exact ⟨.refl s, .refl s⟩
  · split
    · exact ⟨s.jrnResumed_onDie d, s.jrnResumed_computing d⟩
    · exact ⟨(s.jrnResumed_onDie d).trans (.foldl (State.jrnSync_onDie d _) _), (s.jrnResumed_computing d).trans (.foldl (State.jrnSync_computing d _) _)⟩

/-- Settles O42: each access is a checked request on the state whose descriptor was checked, and its effect is that of one ring operation. -/
theorem ringAccessIsCheckedAndAtomic : Obligations.RingAccessIsCheckedAndAtomic := by
  unfold Obligations.RingAccessIsCheckedAndAtomic
  refine ⟨fun s k data ofs cnt => ?_, fun s k c hc hn hchk => ?emptied, fun s d k v => ?alloc, fun s d k ofs cnt => ?journal, fun s d => ?resume⟩
  · intro n s1 r asked
    refine ⟨ringPush_checked s k data, ringRead_checked s k ofs cnt, ringConsume_checked s k cnt, free_checked s k, reset_checked s k,
      fun h => State.ringFix_of_sound h, fun h hn => State.ringFix_of_bad h hn, fun ho hbusy => ?served,
      fun hn halloc hlevel hroom hhead htail hsz u hu horder hur hlen => ?lands⟩
    case served =>
      have heb : 0 < r.eb := r.eb_pos
      obtain ⟨-, -, -, hpush⟩ := ringPush_checked s k data
      obtain ⟨-, -, -, hread⟩ := ringRead_checked s k ofs cnt
      obtain ⟨-, -, -, hconsume⟩ := ringConsume_checked s k cnt
      obtain ⟨-, -, -, hfree⟩ := free_checked s k
      obtain ⟨-, -, -, hreset⟩ := reset_checked s k
      refine ⟨fun hown huse hroom hslots hmod hlo hhi => hpush ho ?_, fun hmay hlevel hmod hofs hlo hhi => ⟨fun hfirm => ?_, fun hloose => ?_⟩,
        fun hlock huse hlevel => hconsume ho ?_, fun hlock huse => ⟨hfree ho ?_, hreset ho ?_⟩⟩
      · exact State.pushChecks_pass hbusy hown huse hroom hslots hmod hlo hhi
      · have hcounters := State.readEntries_of_firm (s := s1.ans .ok) (n := n) hfirm (r.counters ofs cnt)
        refine (hread ho (State.readChecks_pass hbusy hmay hlevel hmod hofs hlo hhi)).trans (congrArg Host.Outcome.next (hcounters.trans ?_))
        unfold Ring.counters
        rw [List.flatMap_map]
        rfl
      · have honly := State.readEntries_only (s1.ans .ok) n (r.counters ofs cnt) ((State.ans_only s1 .ok (.refl 0x1000800 s1) rfl)) rfl
        exact ⟨_, hread ho (State.readChecks_pass hbusy hmay hlevel hmod hofs hlo hhi), honly.frame⟩
      · exact State.consumeChecks_pass hbusy hlock huse hlevel
      · exact State.freeChecks_pass hbusy hlock huse
      · exact State.freeChecks_pass hbusy hlock huse
    case lands =>
      have hring : u.rings.ring n = r := by rw [hu]
      have hpush : (u.pushAll n [data]).rings = u.rings.write1 s.order n data := by
        rw [State.pushAll_one_rings data (by rw [hring]; exact halloc) (by rw [hring, hur]; exact hroom), horder]
      have honly := State.pushAll_only u n [data] (.refl 0x3220 u) rfl
      rw [entriesOf_one r.eb_pos hlen]
      refine ⟨?_, ?_, fun m hm => ?_, honly.frame⟩
      · rw [hpush, ← hring]
        exact Rings.write1_entry s.order hn (by rw [hring]; exact hlen)
      · rw [hpush, Rings.write1_ring_self, hring]
        exact Ring.level_push hlevel hhead htail hsz
      · rw [hpush]
        exact Rings.write1_ring_ne _ _ _ hm
  case emptied =>
    exact ringAccess_empty hn hchk hc
  case alloc =>
    intro r w
    obtain ⟨-, -, hfirst, heff⟩ := ringAlloc_checked s d k v
    refine ⟨hfirst, fun n b ho hall hno hbase => ⟨_, heff ho hall, ?_⟩⟩
    have heffect : s.allocEffect d k.val v (s.ans .ok) = (s.ans .ok).allocated d k.val v n b := by
      unfold State.allocEffect
      rw [hno, show s.freeBase (newRing d k.val v) = some b from hbase]
    rw [heffect]
    exact ⟨rfl, congrArg Seat.ringLast (State.seat_updSeat_self _ k.val _), rfl, fun j hj => State.seat_updSeat_ne _ _ hj, rfl⟩
  case journal =>
    refine ⟨jrnDataRead_checked s d k ofs cnt, fun ho hbusy hright hvalid hlo hhi => (jrnDataRead_checked s d k ofs cnt).takes_effect ho ?_⟩
    have hc0 : ¬ cnt = 0 := by omega
    simp [State.jrnReadChecks, hbusy, hright, hvalid, hc0, hhi]
  case resume =>
    obtain ⟨honDie, hcomp⟩ := journalResume_onDie d s
    refine ⟨fun h => congrArg Host.Outcome.next (if_pos ?_), ⟨_, rfl, honDie.1, congrArg Prod.fst (hcomp d), congrArg Prod.snd (hcomp d), honDie.2.frame⟩,
      fun hdrop hbusy hshut htick hp => ⟨_, rfl, ?_⟩⟩
    · simpa [or_assoc] using h
    · rw [journalResume_eq, if_neg (by simp [hdrop, hbusy, hshut, htick])]
      have hpat : (s.jrnResumed d).pattern = none := by
        have honly := (s.jrnResumed_onDie d).2
        unfold State.pattern State.testAccess at hp ⊢
        rw [honly.pat rfl, honly.modes rfl]
        exact hp
      rw [hpat]
      exact s.jrnResumed_jrn d

end Sys2Proof.Machine

namespace Sys2Proof.Machine

/-! ## Frames and telegrams of a network (R37, R39, R217, R218, R267 to R269, R279 to R281, R289) -/

/-! ### What a network event leaves alone -/

/-- What a die evaluates with: engine, snapshot, compare and chains. -/
def LDie.evalView (l : LDie) : Engine × Snap × Cmp × Tab Chain := (l.eng, l.cur, l.cmp, l.chains)

/-- A network event of die `d` changes that die and the entries, and nothing that the die evaluates with. -/
def OnNet (d : Die) (s t : State) : Prop := OnDie d s t ∧ SameDies LDie.evalView s t

section
variable {d : Die} {s t u : State}

theorem OnNet.refl (s : State) : OnNet d s s := ⟨.refl s, .refl s⟩

theorem OnNet.trans (h : OnNet d s t) (k : OnNet d t u) : OnNet d s u := ⟨h.1.trans k.1, h.2.trans k.2⟩

theorem OnNet.setDie {l : LDie} (h : l.evalView = (s.die d).evalView) : OnNet d s (s.setDie d l) := ⟨.setDie l, .setDie d h⟩

theorem OnNet.updDie {f : LDie → LDie} (h : ∀ l, (f l).evalView = l.evalView) : OnNet d s (s.updDie d f) := ⟨.updDie f, .updDie d h⟩

theorem OnNet.bump (s : State) (w i j : Nat) : OnNet d s (s.bump w i j) := ⟨State.bump_onDie s w i j, .of_dies rfl rfl⟩

theorem OnNet.ite {c : Prop} [Decidable c] (h : OnNet d s t) (k : OnNet d s u) : OnNet d s (if c then t else u) := ⟨.ite h.1 k.1, .ite h.2 k.2⟩

theorem OnNet.own (h : OnNet d s t) : t.die d.peer = s.die d.peer ∧ (t.die d).eng = (s.die d).eng ∧ (t.die d).cur = (s.die d).cur
    ∧ (t.die d).cmp = (s.die d).cmp ∧ (t.die d).chains = (s.die d).chains ∧ t = { s with a := t.a, b := t.b, regs := t.regs } := by
  obtain ⟨⟨hpeer, honly⟩, hview⟩ := h
  have hd := hview d
  exact ⟨hpeer, congrArg (·.1) hd, congrArg (·.2.1) hd, congrArg (·.2.2.1) hd, congrArg (·.2.2.2) hd, honly.frame⟩

end

/-! ### Ports of the switch -/

theorem Net.port_updPort_other (n : Net) (k : Fin 2) (f : EPort → EPort) : (n.updPort k.val f).port (1 - k.val) = n.port (1 - k.val) := by
  obtain rfl | rfl : k = 0 ∨ k = 1 := by omega
  · rfl
  · rfl

/-- The roles are no part of a port's link, queue or replay. -/
theorem Net.port_roles (n : Net) (k : Nat) : ∃ b, n.roles.port k = { n.port k with slave := b } := by
  unfold Net.roles Net.port
  dsimp only
  split
  · exact ⟨_, rfl⟩
  · exact ⟨_, rfl⟩

/-- What a port still owes: its lost egresses and whether they are due, with the released telegrams of the die. -/
def Net.owes (n : Net) (k : Nat) : List (Nat × Nat × Nat × Nat) × Bool × List Released := ((n.port k).lost, (n.port k).replay, n.released)

theorem Net.owes_updPort (n : Net) (k j : Nat) {f : EPort → EPort} (h : ∀ p, (f p).lost = p.lost ∧ (f p).replay = p.replay) :
    (n.updPort k f).owes j = n.owes j := by
  obtain ⟨hl0, hr0⟩ := h n.p0
  obtain ⟨hl1, hr1⟩ := h n.p1
  unfold Net.owes Net.updPort Net.port
  split <;> split <;> simp only [hl0, hr0, hl1, hr1]

/-- A frame joins the queue of a port, and those behind an open gate leave it. -/
def EPort.taken (f : EthFrame) (p : EPort) : EPort := { p with queue := p.queue ++ [f] }

def EPort.served (p : EPort) : EPort := { p with queue := p.queue.filter fun f => p.gates / 2 ^ f.queue % 2 == 0 }

theorem Net.owes_send (n : Net) (k j : Nat) (f : EthFrame) : (n.send k f).owes j = n.owes j := by
  have hemit (m : Net) : (m.emit k).owes j = m.owes j := Net.owes_updPort m k j (f := EPort.served) fun _ => ⟨rfl, rfl⟩
  unfold Net.send
  split
  · exact (hemit _).trans (Net.owes_updPort n k j (f := EPort.taken f) fun _ => ⟨rfl, rfl⟩)
  · rfl

/-- Frames that leave a port with the gates of its queues. -/
theorem Net.emit_out (n : Net) (k : Nat) : (n.emit k).sent = n.sent ++ ([7, 6, 5, 4, 3, 2, 1, 0].flatMap fun j =>
      if (n.port k).gates / 2 ^ j % 2 = 1 then (n.port k).queue.filter (·.queue == j) else []).map (fun f => (k, f.bytes))
    ∧ ((n.emit k).port k).queue = (n.port k).queue.filter fun f => (n.port k).gates / 2 ^ f.queue % 2 == 0 :=
  ⟨rfl, congrArg EPort.queue (Net.port_updPort n k _)⟩

theorem Net.sent_updPort (n : Net) (k : Nat) (f : EPort → EPort) : (n.updPort k f).sent = n.sent := by
  unfold Net.updPort
  split <;> rfl

/-- The queue that a frame enters. -/
theorem Net.send_of_sends {n : Net} {k : Nat} (f : EthFrame) (h : n.sends k = true) :
    (n.send k f).sent = n.sent ++ ([7, 6, 5, 4, 3, 2, 1, 0].flatMap fun j =>
      if (n.port k).gates / 2 ^ j % 2 = 1 then ((n.port k).queue ++ [f]).filter (·.queue == j) else []).map (fun f => (k, f.bytes))
    ∧ ((n.send k f).port k).queue = ((n.port k).queue ++ [f]).filter fun f => (n.port k).gates / 2 ^ f.queue % 2 == 0 := by
  obtain ⟨hsent, hqueue⟩ := Net.emit_out (n.updPort k fun p => { p with queue := p.queue ++ [f] }) k
  rw [Net.port_updPort, Net.sent_updPort] at hsent
  rw [Net.port_updPort] at hqueue
  unfold Net.send
  rw [if_pos h]
  exact ⟨hsent, hqueue⟩

/-- Of one frame, the queues from 7 to 0 give it once, where its gate stands open. -/
theorem flatMap_queues_single {f : EthFrame} {gates : Nat} (hq : f.queue < 8) (hopen : gates / 2 ^ f.queue % 2 = 1) :
    ([7, 6, 5, 4, 3, 2, 1, 0].flatMap fun j => if gates / 2 ^ j % 2 = 1 then [f].filter (·.queue == j) else []) = [f] := by
  have hone (j : Nat) : (if gates / 2 ^ j % 2 = 1 then [f].filter (·.queue == j) else []) = if j = f.queue then [f] else [] := by
    by_cases hj : j = f.queue
    · subst hj
      simp [hopen]
    · have hne : (f.queue == j) = false := by simpa using fun h => hj h.symm
      simp [hj, hne]
  simp only [hone]
  generalize f.queue = q at hq
  have hcases : q = 0 ∨ q = 1 ∨ q = 2 ∨ q = 3 ∨ q = 4 ∨ q = 5 ∨ q = 6 ∨ q = 7 := by omega
  rcases hcases with rfl | rfl | rfl | rfl | rfl | rfl | rfl | rfl <;> rfl

/-! ### Safe telegrams (R279 to R281) -/

/-- The state of the connection at position `q` is replaced. -/
def State.insPut (s : State) (d : Die) (q : Nat) (x : InConn) : State := s.setDie d { s.die d with ins := Tab.set InConn.init (s.die d).ins q x }

theorem State.insPut_onNet (s : State) (d : Die) (q : Nat) (x : InConn) : OnNet d s (s.insPut d q x) := .setDie rfl

theorem State.insPut_ins (s : State) (d : Die) (q : Nat) (x : InConn) : Tab.get InConn.init ((s.insPut d q x).die d).ins q = x := by
  unfold State.insPut
  rw [State.die_setDie]
  exact Tab.get_set_self _ _ _ _

/-- A copy that fails check `code`. -/
def State.copyFailed (s : State) (d : Die) (p : Pattern) (q code : Nat) : State :=
  let s1 := (s.insPut d q { Tab.get InConn.init (s.die d).ins q with lastChk := code }).bump 32 (0x7100 + p.inNo q) (3 + code)
  if code ≤ 3 then s1.dropSafe d else s1

/-- What an accepted copy makes of its connection: the keys that are kept, the copy held. -/
def State.inHeld (s : State) (d : Die) (q : Nat) (c : ConnRec) (par : ConnPar) (i : Nat) (b : List Byte) : InConn × Bool :=
  let x := Tab.get InConn.init (s.die d).ins q
  let keys := if par.auth = 1 then keepKeys x.last x.keys (tBoot b) (tEpoch b) (s.keyFor d c x.keys b) else x.keys
  ({ x with keys := keys }).hold
    { span := s.arrival d i (s.wdEnds d q par), ingress := i, boot := tBoot b, epoch := tEpoch b, seq := tSeq b, body := tFields b }

/-- The pairing records of a copy are on their way to the peer. -/
def State.pairSent (s : State) (d : Die) (span : Nat) (fs : List FlitRec) : State :=
  s.updDie d fun l => { l with link := fs.foldl (fun k f => k.push span 0 f) l.link }

/-- A copy that is held. -/
def State.copyHeld (s : State) (d : Die) (p : Pattern) (q : Nat) (par : ConnPar) (span : Nat) (b : List Byte) (r : InConn × Bool) : State :=
  let s1 := (s.insPut d q r.1).pairSent d span (pairFlits par b)
  if r.2 then s1.bump 32 (0x7100 + p.inNo q) 0x0C else s1

theorem State.takeCopy_eq (s : State) (d : Die) (p : Pattern) (q : Nat) (c : ConnRec) (par : ConnPar) (i : Nat) (b : List Byte) :
    s.takeCopy d p q c par i b =
      if s.rxCheck d c par (Tab.get InConn.init (s.die d).ins q) i b = 11 then s.bump 32 (0x7100 + p.inNo q) 0x0B
      else if s.rxCheck d c par (Tab.get InConn.init (s.die d).ins q) i b = 0 then
        if (Tab.get InConn.init (s.die d).ins q).full (s.arrival d i (s.wdEnds d q par)) then s.dropSafe d
        else s.copyHeld d p q par (s.arrival d i (s.wdEnds d q par)) b (s.inHeld d q c par i b)
      else s.copyFailed d p q (s.rxCheck d c par (Tab.get InConn.init (s.die d).ins q) i b) := rfl

theorem State.dropSafe_onNet (s : State) (d : Die) : OnNet d s (s.dropSafe d) := .bump s _ _ _

theorem State.dropSafe_die (s : State) (d e : Die) : (s.dropSafe d).die e = s.die e := State.die_bump _ _ _ _ _

theorem State.copyFailed_onNet (s : State) (d : Die) (p : Pattern) (q code : Nat) : OnNet d s (s.copyFailed d p q code) := by
  have hcount (x : InConn) (j : Nat) : OnNet d s ((s.insPut d q x).bump 32 (0x7100 + p.inNo q) j) := (s.insPut_onNet d q x).trans (.bump _ _ _ _)
  exact .ite ((hcount _ _).trans (State.dropSafe_onNet _ d)) (hcount _ _)

theorem State.copyFailed_ins (s : State) (d : Die) (p : Pattern) (q code : Nat) :
    Tab.get InConn.init ((s.copyFailed d p q code).die d).ins q = { Tab.get InConn.init (s.die d).ins q with lastChk := code } := by
  unfold State.copyFailed
  dsimp only
  split
  · rw [State.dropSafe_die, State.die_bump]
    exact s.insPut_ins d q _
  · rw [State.die_bump]
    exact s.insPut_ins d q _

theorem State.copyHeld_onNet (s : State) (d : Die) (p : Pattern) (q : Nat) (par : ConnPar) (span : Nat) (b : List Byte) (r : InConn × Bool) :
    OnNet d s (s.copyHeld d p q par span b r) := by
  have hsent : OnNet d s ((s.insPut d q r.1).pairSent d span (pairFlits par b)) := (s.insPut_onNet d q r.1).trans (.updDie fun _ => rfl)
  exact .ite (hsent.trans (.bump _ _ _ _)) hsent

theorem State.copyHeld_ins (s : State) (d : Die) (p : Pattern) (q : Nat) (par : ConnPar) (span : Nat) (b : List Byte) (r : InConn × Bool) :
    Tab.get InConn.init ((s.copyHeld d p q par span b r).die d).ins q = r.1 := by
  have hsent : Tab.get InConn.init (((s.insPut d q r.1).pairSent d span (pairFlits par b)).die d).ins q = r.1 := by
    unfold State.pairSent
    rw [State.die_updDie]
    exact s.insPut_ins d q r.1
  unfold State.copyHeld
  dsimp only
  split
  · rw [State.die_bump]
    exact hsent
  · exact hsent

theorem State.takeCopy_onNet (s : State) (d : Die) (p : Pattern) (q : Nat) (c : ConnRec) (par : ConnPar) (i : Nat) (b : List Byte) :
    OnNet d s (s.takeCopy d p q c par i b) := by
  rw [State.takeCopy_eq]
  exact .ite (.bump s _ _ _) (.ite (.ite (s.dropSafe_onNet d) (s.copyHeld_onNet d p q par _ b _)) (s.copyFailed_onNet d p q _))

/-- A telegram of a port is no safe telegram for its die. -/
theorem safeTelegramRx_of_foreign {s : State} {d : Die} {p : Fin 2} {h : EthHdr} (b : List Byte) (i : Nat)
    (hno : s.ticking d = false ∨ ((s.die d).net.port p.val).link = false ∨ s.isSafe d h = false) : doSafeTelegramRx d p h b i s = s := by
  unfold doSafeTelegramRx
  exact if_pos (by simpa [or_assoc] using hno)

theorem positionTelegramRx_of_foreign {s : State} {d : Die} {p : Fin 2} {h : EthHdr} (b : List Byte) (i : Nat)
    (hno : s.ticking d = false ∨ ((s.die d).net.port p.val).link = false ∨ s.isSafe d h = false) : doPositionTelegramRx d p h b i s = s := by
  unfold doPositionTelegramRx
  exact if_pos (by simpa [or_assoc] using hno)

section
variable {s : State} {d : Die} {p : Fin 2} {h : EthHdr} (htick : s.ticking d = true) (hlink : ((s.die d).net.port p.val).link = true) (hsafe : s.isSafe d h = true)
include htick hlink hsafe

/-- A safe telegram of the network goes to its connection, or is dropped and counted. -/
theorem safeTelegramRx_of_safe (b : List Byte) (i : Nat) : doSafeTelegramRx d p h b i s =
    if !s.frameOk d h (h.size b.length) then s.dropSafe d
    else match s.pattern with
      | none => s.dropSafe d
      | some x => match x.inRec d (tConn b), x.connPos true (tConn b) with
        | some c, some q => (match (x.insts[q]?).map Inst.block with
          | some (.connIn par) => s.takeCopy d x q c par (s.ingressOf d (tConn b) i) b
          | _ => s.dropSafe d)
        | _, _ => s.dropSafe d := by
  unfold doSafeTelegramRx
  exact if_neg (by simp [htick, hlink, hsafe])

theorem positionTelegramRx_of_safe (b : List Byte) (i : Nat) : doPositionTelegramRx d p h b i s =
    if !s.frameOk d h (h.size b.length) then s.dropSafe d
    else match s.pattern.bind fun x => (x.streamRec d (tConn b)).map fun y => (x, y) with
      | some (x, c, k) => s.takePos d x k c (s.ingressOf d (tConn b) i) b
      | none => s.dropSafe d := by
  unfold doPositionTelegramRx
  exact if_neg (by simp [htick, hlink, hsafe])

theorem safeTelegramRx_of_unknown (b : List Byte) (i : Nat) (hno : s.pattern = none ∨ ∃ x, s.pattern = some x ∧ x.inRec d (tConn b) = none) :
    doSafeTelegramRx d p h b i s = s.dropSafe d := by
  rw [safeTelegramRx_of_safe htick hlink hsafe]
  split
  · rfl
  · obtain hp | ⟨x, hp, hx⟩ := hno
    · rw [hp]
    · rw [hp]
      dsimp only
      rw [hx]

theorem positionTelegramRx_of_unknown (b : List Byte) (i : Nat) (hno : s.pattern = none ∨ ∃ x, s.pattern = some x ∧ x.streamRec d (tConn b) = none) :
    doPositionTelegramRx d p h b i s = s.dropSafe d := by
  rw [positionTelegramRx_of_safe htick hlink hsafe]
  split
  · rfl
  · obtain hp | ⟨x, hp, hx⟩ := hno
    · rw [hp]
      rfl
    · rw [hp, Option.bind_some, hx]
      rfl

theorem safeTelegramRx_of_known {b : List Byte} {i : Nat} {x : Pattern} {c : ConnRec} {q : Nat} {par : ConnPar} (hok : s.frameOk d h (h.size b.length) = true)
    (hp : s.pattern = some x) (hc : x.inRec d (tConn b) = some c) (hq : x.connPos true (tConn b) = some q) (hpar : (x.insts[q]?).map Inst.block = some (.connIn par)) :
    doSafeTelegramRx d p h b i s = s.takeCopy d x q c par (s.ingressOf d (tConn b) i) b := by
  rw [safeTelegramRx_of_safe htick hlink hsafe, if_neg (by simp [hok]), hp]
  dsimp only
  rw [hc, hq]
  dsimp only
  rw [hpar]

theorem positionTelegramRx_of_known {b : List Byte} {i : Nat} {x : Pattern} {c : ConnRec} {k : Nat} (hok : s.frameOk d h (h.size b.length) = true)
    (hp : s.pattern = some x) (hc : x.streamRec d (tConn b) = some (c, k)) :
    doPositionTelegramRx d p h b i s = s.takePos d x k c (s.ingressOf d (tConn b) i) b := by
  rw [positionTelegramRx_of_safe htick hlink hsafe, if_neg (by simp [hok]), hp, Option.bind_some, hc]
  rfl

end

/-! ### Position telegrams (R217, R218) -/

/-- The stream of an accepted position telegram. -/
def State.posHeld (s : State) (d : Die) (k : Nat) (c : ConnRec) (i : Nat) (b : List Byte) : Stream :=
  let x := Tab.get Stream.init (s.die d).streams k
  let j := (s.tickOf i b).getD 0
  let t : PosTel := { tick := j, from_ := s.arrival d i true, next := tBoot b == x.boot && tEpoch b == x.epoch && tSeq b == x.seq + 1
                      key := j % 64 == c.kfPhase, ok := beAt ((tFields b).drop 18) 0 2, words := (posWords (j % 64 == c.kfPhase) ((tFields b).drop 18) c.slots 2).1 }
  { x with boot := tBoot b, epoch := tEpoch b, seq := tSeq b, acc := addRange (tupleNum (tBoot b) (tEpoch b) (tSeq b)) x.acc, buf := x.buf ++ [t] }

/-- The stream is kept, and counted. -/
def State.posKept (s : State) (d : Die) (k : Nat) (x : Stream) : State :=
  (s.setDie d { s.die d with streams := Tab.set Stream.init (s.die d).streams k x }).bump 32 (0x6400 + k) 4

/-- The own position of the span in progress is sent again. -/
def State.posAgain (s : State) (d : Die) (p : Pattern) (deep : Bool) : State :=
  (s.updDie d fun l => l.pushPos (some p) d deep).bump 32 0x2005 4

/-- The telegram carries the own position of the span in progress. -/
def State.posWon (s : State) (d : Die) (p : Pattern) (k i j : Nat) : Bool :=
  s.arrival d i true == (s.die d).tb.spanNo && p.axes.any fun r => (ownSrc d r).1 == k && decide (j + (p.axPar r.axis).lag = (s.die d).tb.spanNo)

theorem State.takePos_eq (s : State) (d : Die) (p : Pattern) (k : Nat) (c : ConnRec) (i : Nat) (b : List Byte) : s.takePos d p k c i b =
    if s.posCheck d c (Tab.get Stream.init (s.die d).streams k) i b = 11 then s.bump 32 (0x6400 + k) 5
    else if s.posCheck d c (Tab.get Stream.init (s.die d).streams k) i b = 0 then
      if s.posWon d p k i ((s.tickOf i b).getD 0) then (s.posKept d k (s.posHeld d k c i b)).posAgain d p (s.modes.pwr == .deepSleep) else s.posKept d k (s.posHeld d k c i b)
    else if s.posCheck d c (Tab.get Stream.init (s.die d).streams k) i b ≤ 3 then s.dropSafe d
    else s := rfl

theorem LDie.pushPos_link (p : Option Pattern) (d : Die) (deep : Bool) (l : LDie) : ∃ k, l.pushPos p d deep = { l with link := k } := by
  cases p
  · exact ⟨l.link, rfl⟩
  · exact ⟨(LDie.pushPos (some _) d deep l).link, rfl⟩

theorem LDie.pushPos_evalView (p : Option Pattern) (d : Die) (deep : Bool) (l : LDie) : (l.pushPos p d deep).evalView = l.evalView := by
  obtain ⟨k, hk⟩ := l.pushPos_link p d deep
  rw [hk]
  rfl

theorem LDie.pushPos_streams (p : Option Pattern) (d : Die) (deep : Bool) (l : LDie) : (l.pushPos p d deep).streams = l.streams := by
  obtain ⟨k, hk⟩ := l.pushPos_link p d deep
  rw [hk]

theorem State.posKept_onNet (s : State) (d : Die) (k : Nat) (x : Stream) : OnNet d s (s.posKept d k x) :=
  OnNet.trans (t := s.setDie d { s.die d with streams := Tab.set Stream.init (s.die d).streams k x }) (.setDie rfl) (.bump _ _ _ _)

theorem State.posAgain_onNet (s : State) (d : Die) (p : Pattern) (deep : Bool) : OnNet d s (s.posAgain d p deep) :=
  (OnNet.updDie fun l => l.pushPos_evalView (some p) d deep).trans (.bump _ _ _ _)

theorem State.takePos_onNet (s : State) (d : Die) (p : Pattern) (k : Nat) (c : ConnRec) (i : Nat) (b : List Byte) : OnNet d s (s.takePos d p k c i b) := by
  rw [State.takePos_eq]
  exact .ite (.bump s _ _ _) (.ite (.ite ((s.posKept_onNet d k _).trans (State.posAgain_onNet _ d p _)) (s.posKept_onNet d k _)) (.ite (s.dropSafe_onNet d) (.refl s)))

theorem State.posKept_stream (s : State) (d : Die) (k : Nat) (x : Stream) : Tab.get Stream.init ((s.posKept d k x).die d).streams k = x := by
  unfold State.posKept
  rw [State.die_bump, State.die_setDie]
  exact Tab.get_set_self _ _ _ _

theorem State.posAgain_streams (s : State) (d : Die) (p : Pattern) (deep : Bool) : ((s.posAgain d p deep).die d).streams = (s.die d).streams := by
  unfold State.posAgain
  rw [State.die_bump, State.die_updDie, LDie.pushPos_streams]

theorem State.takePos_of_ok {s : State} {d : Die} {p : Pattern} {k : Nat} {c : ConnRec} {i : Nat} {b : List Byte}
    (h : s.posCheck d c (Tab.get Stream.init (s.die d).streams k) i b = 0) :
    Tab.get Stream.init ((s.takePos d p k c i b).die d).streams k = s.posHeld d k c i b := by
  rw [State.takePos_eq, if_neg (by rw [h]; decide), if_pos h]
  split
  · rw [State.posAgain_streams]
    exact s.posKept_stream d k _
  · exact s.posKept_stream d k _

theorem safeTelegramRx_onNet (d : Die) (p : Fin 2) (h : EthHdr) (b : List Byte) (i : Nat) (s : State) : OnNet d s (doSafeTelegramRx d p h b i s) := by
  have hdrop := s.dropSafe_onNet d
  unfold doSafeTelegramRx
  refine .ite (.refl s) (.ite hdrop ?_)
  split
  · exact hdrop
  · split
    · split
      · exact s.takeCopy_onNet d _ _ _ _ _ _
      · exact hdrop
    · exact hdrop

theorem positionTelegramRx_onNet (d : Die) (p : Fin 2) (h : EthHdr) (b : List Byte) (i : Nat) (s : State) : OnNet d s (doPositionTelegramRx d p h b i s) := by
  unfold doPositionTelegramRx
  refine .ite (.refl s) (.ite (s.dropSafe_onNet d) ?_)
  split
  · exact s.takePos_onNet d _ _ _ _ _
  · exact s.dropSafe_onNet d

/-! ### Links, lost egresses and replay (R267, R289) -/

theorem State.replayDrop_onNet (s : State) (d : Die) (conn : Nat) : OnNet d s (s.replayDrop conn) := by
  unfold State.replayDrop
  split
  · exact .bump s _ _ _
  · exact .refl s

theorem State.replayDrop_die (s : State) (conn : Nat) (d : Die) : (s.replayDrop conn).die d = s.die d := by
  unfold State.replayDrop
  split
  · exact State.die_bump _ _ _ _ _
  · rfl

/-- The counter of a telegram that will not be replayed is none of the network's own counters. -/
theorem State.replayDrop_reg (s : State) (conn i : Nat) (hi : i < 256) : (s.replayDrop conn).reg 0x7009 i = s.reg 0x7009 i := by
  unfold State.replayDrop
  split
  next o _ =>
    refine State.reg_setReg_ne s _ fun h => ?_
    obtain ⟨hidx, -⟩ := (odKey_inj (i := 0x7009) (j := i) (i' := 0x7900 + o) (j' := 6) hi (by decide)).mp h
    omega
  · rfl

/-- A lost egress that the die released is noted for replay. -/
def State.egressNoted (s : State) (d : Die) (p : Nat) (x : Nat × Nat × Nat × Nat) : State :=
  s.updDie d fun l => { l with net := l.net.updPort p fun q => { q with lost := q.lost ++ [x], replay := q.link } }

section
variable {s : State} {d : Die} {p : Fin 2} {c e q : Nat}

theorem egressLost_of_known {r : Released}
    (h : (s.die d).net.released.find? (fun r => r.conn == c && r.epoch == e && r.seq == q && bitAt r.ports p.val) = some r) :
    doEgressLost d p c e q s = (s.bump 32 0x7009 (5 + d.n)).egressNoted d p.val (r.span, c, e, q) := by
  unfold doEgressLost
  dsimp only
  rw [h]
  rfl

theorem egressLost_of_unknown (h : (s.die d).net.released.find? (fun r => r.conn == c && r.epoch == e && r.seq == q && bitAt r.ports p.val) = none) :
    doEgressLost d p c e q s = (s.bump 32 0x7009 (5 + d.n)).replayDrop c := by
  unfold doEgressLost
  dsimp only
  rw [h]

end

/-- A port whose link is gone. -/
def EPort.down (q : EPort) : EPort := { q with link := false, gigabit := false, asCapable := false, best := none, replay := false, queue := [] }

theorem egressLost_onNet (d : Die) (p : Fin 2) (c e q : Nat) (s : State) : OnNet d s (doEgressLost d p c e q s) := by
  have hcount : OnNet d s (s.bump 32 0x7009 (5 + d.n)) := .bump s _ _ _
  unfold doEgressLost
  dsimp only
  split
  · exact hcount.trans (.updDie fun _ => rfl)
  · exact hcount.trans (State.replayDrop_onNet _ d c)

/-- A telegram that is replayed leaves its port; what every port owes stands. -/
theorem State.replayOne_onNet (d : Die) (p : Nat) (x : Nat × State) (y : Nat × Nat × Nat × Nat) :
    OnNet d x.2 (State.replayOne d p x y).2 ∧ SameDies (fun l => l.net.owes p) x.2 (State.replayOne d p x y).2 := by
  have hdrop (s : State) (conn : Nat) : OnNet d s (s.replayDrop conn) ∧ SameDies (fun l => l.net.owes p) s (s.replayDrop conn) :=
    ⟨s.replayDrop_onNet d conn, fun e => by rw [State.replayDrop_die]⟩
  unfold State.replayOne
  dsimp only
  split
  · exact hdrop _ _
  · split
    · exact hdrop _ _
    next r _ _ =>
      have hsent : OnNet d x.2 (x.2.setDie d { x.2.die d with net := (x.2.die d).net.sendSafe p r.frame })
          ∧ SameDies (fun l => l.net.owes p) x.2 (x.2.setDie d { x.2.die d with net := (x.2.die d).net.sendSafe p r.frame }) :=
        ⟨.setDie rfl, .setDie d (Net.owes_send _ _ _ _)⟩
      dsimp only
      split
      · exact ⟨hsent.1.trans (.bump _ _ _ _), hsent.2.trans (.of_dies rfl rfl)⟩
      · exact hsent

theorem State.replays_onNet (d : Die) (p : Nat) (l : List (Nat × Nat × Nat × Nat)) (x : Nat × State) :
    OnNet d x.2 (l.foldl (State.replayOne d p) x).2 ∧ SameDies (fun l => l.net.owes p) x.2 (l.foldl (State.replayOne d p) x).2 := by
  induction l generalizing x with
  | nil => exact ⟨.refl _, .refl _⟩
  | cons y l ih =>
    obtain ⟨hone, howes⟩ := State.replayOne_onNet d p x y
    obtain ⟨hrest, hrest'⟩ := ih (State.replayOne d p x y)
    exact ⟨hone.trans hrest, howes.trans hrest'⟩

/-- The lost egresses of a port are taken for replay. -/
def State.replayTaken (s : State) (d : Die) (p : Nat) : State :=
  s.setDie d { s.die d with net := (s.die d).net.updPort p fun q => { q with lost := [], replay := false } }

theorem State.replayTaken_owes (s : State) (d : Die) (p : Nat) : ((s.replayTaken d p).die d).net.owes p = ([], false, (s.die d).net.released) := by
  unfold State.replayTaken
  rw [State.die_setDie]
  dsimp only
  have hreleased (n : Net) (f : EPort → EPort) : (n.updPort p f).released = n.released := by
    unfold Net.updPort
    split <;> rfl
  unfold Net.owes
  rw [Net.port_updPort, hreleased]

theorem telegramReplay_of_idle {s : State} {d : Die} {p : Fin 2} (h : s.ticking d = false ∨ ((s.die d).net.port p.val).replay = false
    ∨ ((s.die d).net.port p.val).link = false ∨ (s.die d).net.macReset = true ∨ (s.die d).net.idle = true ∨ (s.die d).tb.phase ≠ .s) :
    doTelegramReplay d p s = s := by
  unfold doTelegramReplay
  exact if_pos (by simpa [or_assoc] using h)

/-- A port that has something due sends it again, telegram by telegram. -/
theorem telegramReplay_of_due {s : State} {d : Die} {p : Fin 2} (htick : s.ticking d = true) (hdue : ((s.die d).net.port p.val).replay = true)
    (hlink : ((s.die d).net.port p.val).link = true) (hmac : (s.die d).net.macReset = false) (hidle : (s.die d).net.idle = false) (hph : (s.die d).tb.phase = .s) :
    ∃ (n : Nat) (l : List (Nat × Nat × Nat × Nat)), doTelegramReplay d p s = (l.foldl (State.replayOne d p.val) (n, s.replayTaken d p.val)).2 := by
  unfold doTelegramReplay
  dsimp only
  rw [if_neg (by simp [htick, hdue, hlink, hmac, hidle, hph])]
  exact ⟨_, _, rfl⟩

theorem telegramReplay_onNet (d : Die) (p : Fin 2) (s : State) : OnNet d s (doTelegramReplay d p s) := by
  have hreplays (n : Nat) (l : List (Nat × Nat × Nat × Nat)) : OnNet d s (l.foldl (State.replayOne d p.val) (n, s.replayTaken d p.val)).2 :=
    OnNet.trans (t := s.replayTaken d p.val) (.setDie rfl) (State.replays_onNet d p.val l (n, s.replayTaken d p.val)).1
  unfold doTelegramReplay
  exact .ite (.refl s) (hreplays _ _)

/-! ### The switch (R268) -/

theorem frameForward_onNet (d : Die) (p : Fin 2) (h : EthHdr) (len : Nat) (s : State) : OnNet d s (doFrameForward d p h len s) :=
  .ite (.refl s) (.setDie rfl)

/-- The switch learns the sender of a frame. -/
def State.learns (s : State) (d : Die) (h : EthHdr) : Bool :=
  h.fcsOk && !bitAt h.src 40 && (s.fdbStatic d h.vid h.src).isNone && ((Tab.get none (s.die d).net.fdb h.src).isSome || decide ((s.die d).net.fdb.length < 1024))

theorem State.learns_iff {s : State} {d : Die} {h : EthHdr} : s.learns d h = true ↔ h.fcsOk = true ∧ bitAt h.src 40 = false ∧ s.fdbStatic d h.vid h.src = none
    ∧ (Tab.get none (s.die d).net.fdb h.src ≠ none ∨ (s.die d).net.fdb.length < 1024) := by
  simp [State.learns, and_assoc, Option.isSome_iff_ne_none]

/-- The network of a die after it has seen the sender of a frame on a port. -/
def State.learned (s : State) (d : Die) (p : Nat) (h : EthHdr) : Net :=
  if s.learns d h then { (s.die d).net with fdb := Tab.set none (s.die d).net.fdb h.src (some p) } else (s.die d).net

section
variable {s : State} {d : Die} {p : Nat} {h : EthHdr}

theorem State.learned_of_not (hl : ¬ s.learns d h = true) : s.learned d p h = (s.die d).net := if_neg hl

theorem State.learned_of_learns (s : State) {d : Die} {p : Nat} {h : EthHdr} (hl : s.learns d h = true) : Tab.get none (s.learned d p h).fdb h.src = some p := by
  unfold State.learned
  rw [if_pos hl]
  exact Tab.get_set_self none (s.die d).net.fdb h.src (some p)

theorem State.learned_fdb (s : State) (d : Die) (p : Nat) (h : EthHdr) : s.learned d p h = { (s.die d).net with fdb := (s.learned d p h).fdb } := by
  unfold State.learned
  split <;> rfl

theorem State.learned_ne (s : State) (d : Die) (p : Nat) {h : EthHdr} {m : Nat} (hm : m ≠ h.src) :
    Tab.get none (s.learned d p h).fdb m = Tab.get none (s.die d).net.fdb m := by
  unfold State.learned
  split
  · exact Tab.get_set_ne none (s.die d).net.fdb h.src m (some p) hm
  · rfl

theorem frameForward_of_taken {p : Fin 2} {len : Nat} (hrx : s.netRx d p.val = true) (htakes : s.takes d h len = true) :
    doFrameForward d p h len s = s.updDie d fun l => { l with
      net := if s.fwdTo d p.val h ≠ 0 ∧ len ≤ s.reg 0x7002 (portSub d (1 - p.val)) then
        (s.learned d p.val h).send (1 - p.val) { queue := pcpQueue h.pcp, bytes := h.bytes, len := len } else s.learned d p.val h } := by
  unfold doFrameForward
  dsimp only
  rw [if_neg (by simp [hrx, htakes])]
  have hnet : (if (s.fwdTo d p.val h != 0 && decide (len ≤ s.reg 0x7002 (portSub d (1 - p.val)))) = true then
      (s.learned d p.val h).send (1 - p.val) { queue := pcpQueue h.pcp, bytes := h.bytes, len := len } else s.learned d p.val h)
      = if s.fwdTo d p.val h ≠ 0 ∧ len ≤ s.reg 0x7002 (portSub d (1 - p.val)) then
        (s.learned d p.val h).send (1 - p.val) { queue := pcpQueue h.pcp, bytes := h.bytes, len := len } else s.learned d p.val h :=
    ite_congr (by simp) (fun _ => rfl) fun _ => rfl
  exact congrArg (fun n => s.setDie d { s.die d with net := n }) hnet

end

theorem fdbAgeout_onNet (d : Die) (m : Nat) (s : State) : OnNet d s (doFdbAgeout d m s) := .updDie fun _ => rfl

/-! ### The network stack (R269) -/

theorem State.answer_onNet (s : State) (d : Die) (p dst et hdr : Nat) (msg : List Byte) : OnNet d s (s.answer d p dst et hdr msg) :=
  .ite (.refl s) (.updDie fun _ => rfl)

theorem State.stackRx_onNet {s : State} {d : Die} (p : Nat) (h : EthHdr) (n : Nat) {act : State → State} (hact : OnNet d s (act s)) :
    OnNet d s (s.stackRx d p h n act) := .ite (.refl s) (.ite (.bump s _ _ _) hact)

section
variable {s : State} {d : Die} {p : Nat} {h : EthHdr} {n : Nat} (act : State → State)

theorem State.stackRx_of_lost (hrx : s.mgmtRx d p h n = false) : s.stackRx d p h n act = s := if_pos (by rw [hrx]; rfl)

theorem State.stackRx_of_idle (hrx : s.mgmtRx d p h n = true) (hm : (s.die d).mgmt ≠ .serving) : s.stackRx d p h n act = s.bump 32 0x7009 (1 + d.n) :=
  (if_neg (by rw [hrx]; decide)).trans (if_pos (by simpa using hm))

theorem State.stackRx_of_serving (hrx : s.mgmtRx d p h n = true) (hm : (s.die d).mgmt = .serving) : s.stackRx d p h n act = act s :=
  (if_neg (by rw [hrx]; decide)).trans (if_neg (by simp [hm]))

end

/-- The answer to an ARP request. -/
def State.arpAnswer (s : State) (d : Die) (p m src dst : Nat) : State :=
  s.answer d p m 0x0806 0 (beBytes 2 1 ++ beBytes 2 0x0800 ++ [6, 4] ++ beBytes 2 2 ++ beBytes 6 (Config.macAddr (d.n + 1)) ++ beBytes 4 dst ++ beBytes 6 m ++ beBytes 4 src)

theorem arpRequestRx_eq (d : Die) (p : Fin 2) (h : EthHdr) (m src dst : Nat) (s : State) : doArpRequestRx d p h m src dst s
    = s.stackRx d p.val h 28 fun s => if dst != s.ip4 d || dst = 0 || h.etype != 0x0806 then s else s.arpAnswer d p.val m src dst := rfl

/-- The advertisement that answers a neighbour solicitation. -/
def State.ndAnswer (s : State) (d : Die) (p m src dst : Nat) : State :=
  s.answer d p m 0x86DD 40 (icmp6 dst src 136 ([0x60, 0, 0, 0] ++ beBytes 16 dst ++ [2, 1] ++ beBytes 6 (Config.macAddr (d.n + 1))))

/-- The header of a solicitation, its group standing for the own address. -/
def State.ndHdr (s : State) (d : Die) (h : EthHdr) : EthHdr :=
  if h.dst = 0x3333FF000000 + s.ip6 d % 2 ^ 24 then { h with dst := Config.macAddr (d.n + 1) } else h

theorem neighbourDiscoveryRx_eq (d : Die) (p : Fin 2) (h : EthHdr) (m src dst : Nat) (s : State) : doNeighbourDiscoveryRx d p h m src dst s
    = s.stackRx d p.val (s.ndHdr d h) 72 fun s => if dst != s.ip6 d || dst = 0 || h.etype != 0x86DD then s else s.ndAnswer d p.val m src dst := rfl

/-- The length of an echo message, with its IP header. -/
def echoLen (v6 : Bool) (l : List Byte) : Nat := (if v6 then 40 else 20) + 4 + l.length

/-- The echo reply, from the own address. -/
def echoMsg (v6 : Bool) (own src : Nat) (l : List Byte) : List Byte :=
  if v6 then icmp6 own src 129 l else [0, 0] ++ beBytes 2 (inetSum ([0, 0, 0, 0] ++ l)) ++ l

theorem beBytes_length (n v : Nat) : (beBytes n v).length = n := by
  have hle (n v : Nat) : (leBytes n v).length = n := by
    induction n generalizing v with
    | zero => rfl
    | succ n ih => rw [leBytes, List.length_cons, ih]
  rw [beBytes, List.length_reverse, hle]

/-- Four bytes of type, code and checksum, then the data of the request. -/
theorem echoMsg_data (v6 : Bool) (own src : Nat) (l : List Byte) : (echoMsg v6 own src l).drop 4 = l ∧ (echoMsg v6 own src l).length = 4 + l.length := by
  have hmsg (a b : Byte) (c : Nat) : ([a, b] ++ beBytes 2 c ++ l).drop 4 = l ∧ ([a, b] ++ beBytes 2 c ++ l).length = 4 + l.length := by
    have hlen : ([a, b] ++ beBytes 2 c).length = 4 := by rw [List.length_append, beBytes_length]; rfl
    refine ⟨?_, by rw [List.length_append, hlen]⟩
    rw [← hlen]
    exact List.drop_left
  cases v6
  · exact hmsg _ _ _
  · exact hmsg _ _ _

/-- The request is one that the stack answers. -/
def State.echoTakes (s : State) (d : Die) (h : EthHdr) (v6 : Bool) (frags dst : Nat) (l : List Byte) : Bool :=
  !(dst != (if v6 then s.ip6 d else s.ip4 d) || dst = 0 || decide (2 < frags) || decide (1500 < echoLen v6 l) || h.etype != (if v6 then 0x86DD else 0x0800))

theorem State.echoTakes_iff (s : State) (d : Die) (h : EthHdr) (v6 : Bool) (frags dst : Nat) (l : List Byte) : s.echoTakes d h v6 frags dst l = true ↔
    dst ≠ 0 ∧ dst = (if v6 then s.ip6 d else s.ip4 d) ∧ frags ≤ 2 ∧ echoLen v6 l ≤ 1500 ∧ h.etype = (if v6 then 0x86DD else 0x0800) := by
  unfold State.echoTakes
  simp only [Bool.not_eq_true', Bool.or_eq_false_iff, bne_eq_false_iff_eq, decide_eq_false_iff_not, Nat.not_lt]
  constructor
  · rintro ⟨⟨⟨⟨hip, h0⟩, hfr⟩, hn⟩, het⟩
    exact ⟨h0, hip, hfr, hn, het⟩
  · rintro ⟨h0, hip, hfr, hn, het⟩
    exact ⟨⟨⟨⟨hip, h0⟩, hfr⟩, hn⟩, het⟩

theorem echoRequestRx_eq (d : Die) (p : Fin 2) (h : EthHdr) (v6 : Bool) (frags src dst : Nat) (l : List Byte) (s : State) : doEchoRequestRx d p h v6 frags src dst l s
    = s.stackRx d p.val h (if frags ≤ 1 then echoLen v6 l else 46) fun u => if s.echoTakes d h v6 frags dst l
      then u.answer d p.val h.src (if v6 then 0x86DD else 0x0800) (if v6 then 40 else 20) (echoMsg v6 (if v6 then s.ip6 d else s.ip4 d) src l) else u := by
  have hflip (c : Bool) (x y : State) : (if c then x else y) = if !c then y else x := by cases c <;> rfl
  unfold doEchoRequestRx
  cases v6
  · exact congrArg (s.stackRx d p.val h (if frags ≤ 1 then echoLen false l else 46)) (funext fun u => hflip _ _ _)
  · exact congrArg (s.stackRx d p.val h (if frags ≤ 1 then echoLen true l else 46)) (funext fun u => hflip _ _ _)

/-- Settles O37: each event is an operation on one die's network, and the checks, the switch and the stack are its cases. -/
theorem networkFramesStayOnTheirNetwork : Obligations.NetworkFramesStayOnTheirNetwork := by
  unfold Obligations.NetworkFramesStayOnTheirNetwork
  refine ⟨fun s d => ?own, fun s d p h b i => ⟨fun hno => ?foreign, fun htick hlink hsafe => ?safe⟩, fun s d p => ?linkDown, fun s d p g => ?linkUp,
    fun s d p c e q => ?lost, fun s d p => ?replay, fun s d p h len => ?forward, fun n k f => ?queue, fun s d m => ?ageout, fun s d p h m src dst => ?resolve,
    fun s d p h v6 frags src dst l => ?echo⟩
  case own =>
    intro own
    have hown (c : Instr) (t : State) (h : exec c s = .next t) (k : OnNet d s t) : ∃ t, exec c s = .next t ∧ own t := ⟨t, h, k.own⟩
    exact ⟨fun p h b i => hown _ _ rfl (safeTelegramRx_onNet d p h b i s), fun p h b i => hown _ _ rfl (positionTelegramRx_onNet d p h b i s),
      fun p x e q => hown _ _ rfl (egressLost_onNet d p x e q s), fun p => hown _ _ rfl (.updDie fun _ => rfl), fun p g => hown _ _ rfl (.ite (.refl s) (.updDie fun _ => rfl)),
      fun p => hown _ _ rfl (telegramReplay_onNet d p s), fun p m a tag e fin => hown _ _ rfl (frameForward_onNet d p _ _ s), fun m => hown _ _ rfl (fdbAgeout_onNet d m s),
      fun p h m a b => hown _ _ rfl (State.stackRx_onNet _ _ _ (.ite (.refl s) (s.answer_onNet d _ _ _ _ _))),
      fun p h m a b => hown _ _ rfl (State.stackRx_onNet _ _ _ (.ite (.refl s) (s.answer_onNet d _ _ _ _ _))),
      fun p h v f a b l => hown _ _ rfl (State.stackRx_onNet _ _ _ (.ite (.refl s) (.ite (s.answer_onNet d _ _ _ _ _) (s.answer_onNet d _ _ _ _ _))))⟩
  case foreign =>
    exact ⟨congrArg Host.Outcome.next (safeTelegramRx_of_foreign b i hno), congrArg Host.Outcome.next (positionTelegramRx_of_foreign b i hno)⟩
  case safe =>
    refine ⟨fun hbad => ⟨?_, ?_⟩, fun hno => congrArg Host.Outcome.next (safeTelegramRx_of_unknown htick hlink hsafe b i hno),
      fun hno => congrArg Host.Outcome.next (positionTelegramRx_of_unknown htick hlink hsafe b i hno), fun x c q par hok hp hc hq hpar => ?copy, fun x c k hok hp hc => ?position⟩
    · exact congrArg Host.Outcome.next ((safeTelegramRx_of_safe htick hlink hsafe b i).trans (if_pos (by rw [hbad]; rfl)))
    · exact congrArg Host.Outcome.next ((positionTelegramRx_of_safe htick hlink hsafe b i).trans (if_pos (by rw [hbad]; rfl)))
    case copy =>
      have htake := (safeTelegramRx_of_known (i := i) htick hlink hsafe hok hp hc hq hpar).trans (State.takeCopy_eq s d x q c par _ b)
      intro old code span keys copy
      refine ⟨fun h11 => ?_, fun hfail => ⟨_, rfl, ?_⟩, fun h0 hfull => ?_, fun h0 hroom => ⟨_, rfl, ?_⟩⟩
      · exact congrArg Host.Outcome.next (htake.trans (if_pos h11))
      · simp only [List.mem_cons, List.not_mem_nil, or_false, not_or] at hfail
        rw [htake, if_neg hfail.2, if_neg hfail.1]
        exact State.copyFailed_ins s d x q code
      · exact congrArg Host.Outcome.next (htake.trans ((if_neg (by rw [show s.rxCheck d c par _ _ b = 0 from h0]; decide)).trans ((if_pos h0).trans (if_pos hfull))))
      · rw [htake, if_neg (by rw [show s.rxCheck d c par _ _ b = 0 from h0]; decide), if_pos h0, if_neg (by rw [show InConn.full _ _ = false from hroom]; exact Bool.false_ne_true)]
        exact State.copyHeld_ins s d x q par _ b _
    case position =>
      have htake := (positionTelegramRx_of_known (i := i) htick hlink hsafe hok hp hc)
      have htake' := htake.trans (State.takePos_eq s d x k c _ b)
      intro old code
      refine ⟨fun h11 => ?_, fun hlo hhi => ?_, fun hlo hne => ?_, fun h0 => ⟨_, congrArg Host.Outcome.next htake, ?_⟩⟩
      · exact congrArg Host.Outcome.next (htake'.trans (if_pos h11))
      · exact congrArg Host.Outcome.next (htake'.trans ((if_neg (show ¬ code = 11 by omega)).trans ((if_neg (show ¬ code = 0 by omega)).trans (if_pos hhi))))
      · exact congrArg Host.Outcome.next (htake'.trans ((if_neg hne).trans ((if_neg (show ¬ code = 0 by omega)).trans (if_neg (show ¬ code ≤ 3 by omega)))))
      · rw [State.takePos_of_ok h0]
        exact ⟨rfl, rfl, rfl, List.length_append⟩
  case linkDown =>
    have hdie : ((doLinkDown d p s).die d).net = ((s.die d).net.updPort p.val EPort.down).roles := by
      unfold doLinkDown
      rw [State.die_updDie]
      rfl
    obtain ⟨b, hport⟩ := Net.port_roles ((s.die d).net.updPort p.val EPort.down) p.val
    obtain ⟨b', hother⟩ := Net.port_roles ((s.die d).net.updPort p.val EPort.down) (1 - p.val)
    rw [Net.port_updPort] at hport
    rw [Net.port_updPort_other] at hother
    refine ⟨_, rfl, ?_⟩
    rw [hdie, hport, hother]
    exact ⟨rfl, rfl, rfl, rfl⟩
  case linkUp =>
    refine ⟨fun h => congrArg Host.Outcome.next (if_pos h), fun h => ⟨_, congrArg Host.Outcome.next (if_neg h), ?_⟩⟩
    rw [State.die_updDie]
    dsimp only
    rw [Net.port_updPort]
    exact ⟨rfl, rfl, rfl⟩
  case lost =>
    have hcount : (s.bump 32 0x7009 (5 + d.n)).reg 0x7009 (5 + d.n) = satInc 32 (s.reg 0x7009 (5 + d.n)) := State.reg_setReg_self _ _ _ _
    refine ⟨_, rfl, ?_⟩
    cases hfind : (s.die d).net.released.find? (fun r => r.conn == c && r.epoch == e && r.seq == q && bitAt r.ports p.val) with
    | none =>
      rw [egressLost_of_unknown hfind]
      refine ⟨?_, fun r hr => (by cases hr), fun _ => (State.replayDrop_die _ c d).trans (State.die_bump _ _ _ _ d)⟩
      rw [State.replayDrop_reg _ c _ (by cases d <;> decide)]
      exact hcount
    | some r =>
      rw [egressLost_of_known hfind]
      refine ⟨?_, fun r' hr => ?_, fun hr => (by cases hr)⟩
      · exact (congrArg (Regs.get · (odKey 0x7009 (5 + d.n))) ((State.updDie_only _ d _ (.refl 0xc0 _) rfl).regs rfl)).trans hcount
      · obtain rfl := Option.some.inj hr
        unfold State.egressNoted
        rw [State.die_updDie, State.die_bump]
        dsimp only
        rw [Net.port_updPort]
        exact ⟨rfl, rfl⟩
  case replay =>
    refine ⟨fun h => congrArg Host.Outcome.next (telegramReplay_of_idle h), fun htick hdue hlink hmac hidle hph => ⟨_, rfl, ?_⟩⟩
    obtain ⟨n, l, heq⟩ := telegramReplay_of_due htick hdue hlink hmac hidle hph
    have howes := ((State.replays_onNet d p.val l (n, s.replayTaken d p.val)).2 d).trans (s.replayTaken_owes d p.val)
    rw [heq]
    exact ⟨congrArg (·.1) howes, congrArg (·.2.1) howes, congrArg (·.2.2) howes⟩
  case forward =>
    refine ⟨fun h => congrArg Host.Outcome.next (if_pos (by simpa using h)), fun hrx htakes => ⟨s.learned d p.val h, ?_, s.learned_fdb d p.val h, ?_, ?_, ?_⟩⟩
    · exact congrArg Host.Outcome.next (frameForward_of_taken hrx htakes)
    · exact fun hfcs hsrc hst hroom => s.learned_of_learns (State.learns_iff.mpr ⟨hfcs, hsrc, hst, hroom⟩)
    · intro hno
      rw [State.learned_of_not (by
        intro hl
        obtain ⟨hfcs, hsrc, hst, -⟩ := State.learns_iff.mp hl
        simp [hfcs, hsrc, hst] at hno)]
    · exact fun m hm => s.learned_ne d p.val hm
  case queue =>
    refine ⟨fun h => if_neg (by rw [h]; exact Bool.false_ne_true), fun hsends hq hopen hempty => ?_, fun hsends hclosed => ?_⟩
    · obtain ⟨hsent, hqueue⟩ := Net.send_of_sends f hsends
      rw [hempty, List.nil_append] at hsent hqueue
      rw [hsent, hqueue, flatMap_queues_single hq hopen]
      exact ⟨rfl, List.filter_eq_nil_iff.mpr fun x hx => by rw [List.mem_singleton.mp hx]; simp [hopen]⟩
    · obtain ⟨hsent, hqueue⟩ := Net.send_of_sends f hsends
      rw [hclosed] at hsent hqueue
      rw [hsent, hqueue]
      simp
  case ageout =>
    refine ⟨_, rfl, ?_⟩
    unfold doFdbAgeout
    rw [State.die_updDie]
    exact ⟨Tab.get_del_self _ _ _, fun k hk => Tab.get_del_ne _ _ _ _ hk⟩
  case resolve =>
    have harp := arpRequestRx_eq d p h m src dst s
    have hnd := neighbourDiscoveryRx_eq d p h m src dst s
    refine ⟨fun hrx => congrArg Host.Outcome.next (harp.trans (State.stackRx_of_lost _ hrx)), fun hrx => ⟨fun hm => congrArg Host.Outcome.next (harp.trans (State.stackRx_of_idle _ hrx hm)),
      fun hm hno => ?noArp, fun hm h0 hip het => ?arp⟩, fun hrx => ?_, fun hrx => ⟨fun hm => ?_, fun hm hno => ?noNd, fun hm h0 hip het => ?nd⟩⟩
    case noArp =>
      refine congrArg Host.Outcome.next (harp.trans ((State.stackRx_of_serving _ hrx hm).trans (if_pos ?_)))
      obtain h | h | h := hno <;> simp [h]
    case arp => exact congrArg Host.Outcome.next (harp.trans ((State.stackRx_of_serving _ hrx hm).trans (if_neg (by simp [h0, ← hip, het]))))
    case noNd =>
      refine congrArg Host.Outcome.next (hnd.trans ((State.stackRx_of_serving _ hrx hm).trans (if_pos ?_)))
      obtain h | h | h := hno <;> simp [h]
    case nd => exact congrArg Host.Outcome.next (hnd.trans ((State.stackRx_of_serving _ hrx hm).trans (if_neg (by simp [h0, ← hip, het]))))
    · exact congrArg Host.Outcome.next (hnd.trans (State.stackRx_of_lost _ hrx))
    · exact congrArg Host.Outcome.next (hnd.trans (State.stackRx_of_idle _ hrx hm))
  case echo =>
    intro n size et
    have heq := echoRequestRx_eq d p h v6 frags src dst l s
    refine ⟨fun hrx => congrArg Host.Outcome.next (heq.trans (State.stackRx_of_lost _ hrx)), fun hrx => ⟨fun hm => congrArg Host.Outcome.next (heq.trans (State.stackRx_of_idle _ hrx hm)),
      fun hm hno => congrArg Host.Outcome.next (heq.trans ((State.stackRx_of_serving _ hrx hm).trans (if_neg ?_))), fun hm h0 hip hfr hn het =>
      ⟨_, congrArg Host.Outcome.next (heq.trans ((State.stackRx_of_serving _ hrx hm).trans (if_pos ?_))), echoMsg_data v6 _ src l⟩⟩⟩
    · rw [s.echoTakes_iff d h v6 frags dst l]
      rintro ⟨h0, hip, hfr, hn, het⟩
      obtain hno | hno | hno | hno | hno := hno
      · exact h0 hno
      · exact hno hip
      · exact absurd hfr (by omega)
      · exact absurd (show n ≤ 1500 from hn) (by omega)
      · exact hno het
    · exact (s.echoTakes_iff d h v6 frags dst l).mpr ⟨h0, hip, hfr, hn, het⟩

end Sys2Proof.Machine

namespace Sys2Proof.Machine

/-! ## Bridle frames (R362 to R369, R371, R379 to R381) -/

/-! ### Requests, check by check -/

/-- An HSPI request has left the receive buffer. -/
def State.unqueued (s : State) (op : Nat) (f : Frame) : State := if f.tr = 0 then { s with br := { s.br with rx := s.br.rx.erase (op, f) } } else s

theorem State.unqueued_time (s : State) (op : Nat) (f : Frame) : (s.unqueued op f).time = s.time := by
  unfold State.unqueued
  split <;> rfl

section
variable {s : State} {op : Nat} {f : Frame} (shape : Bool) (g : State → State)

theorem State.request_of_absent (h : (f.tr = 0 ∧ (op, f) ∉ s.br.rx) ∨ s.receives (Machine.Frame.die f) f.tr = false) : s.request op f shape g = s.unqueued op f :=
  if_pos (by
    obtain ⟨htr, hrx⟩ | hrx := h
    · simp [htr, hrx]
    · simp [hrx])

/-- A frame has arrived at a die that receives it. -/
def State.arrives (s : State) (op : Nat) (f : Frame) : Prop := (f.tr ≠ 0 ∨ (op, f) ∈ s.br.rx) ∧ s.receives (Machine.Frame.die f) f.tr = true

theorem State.arrives.here (h : s.arrives op f) : ¬ (!(f.tr != 0 || s.br.rx.contains (op, f)) || !s.receives (Machine.Frame.die f) f.tr) = true := by
  obtain ⟨hhere, hrx⟩ := h
  obtain hhere | hhere := hhere <;> simp [hhere, hrx]

theorem State.request_of_bad (h : s.arrives op f) (hbad : Frame.good op f = false ∨ s.belongs f = false) :
    s.request op f shape g = (s.unqueued op f).bump 32 0x1200 1 :=
  (if_neg h.here).trans (if_pos (by simpa using hbad))

theorem State.request_of_good (h : s.arrives op f) (hgood : Frame.good op f = true) (hbelongs : s.belongs f = true) :
    s.request op f shape g = (s.unqueued op f).checked op f shape g :=
  (if_neg h.here).trans (if_neg (by simp [hgood, hbelongs]))

/-- The answer that a die has kept for a request. -/
def State.keptFor (s : State) (f : Frame) : Option (Nat × Nat × List Byte) := (s.br.seat f.seat).kept.find? fun y => y.1 == f.reqId && y.2.1 == f.crc

theorem State.checked_of_kept {y : Nat × Nat × List Byte} (hk : s.keptFor f = some y) :
    s.checked op f shape g = (s.takeFrame f.seat).post (respOf op f).dst y.2.2 := by
  unfold State.keptFor at hk
  unfold State.checked
  dsimp only
  rw [hk]

theorem State.checked_of_keygone (hk : s.keptFor f = none) (ht : (s.takeFrame f.seat).tokenCheck op f = some .keygone) :
    s.checked op f shape g = (((s.takeFrame f.seat).endSession f.seat).ans .keygone).sendAns (respOf op f) := by
  unfold State.keptFor at hk
  unfold State.checked
  dsimp only
  rw [hk]
  dsimp only
  rw [ht]

theorem State.checked_of_token {st : Status} (hk : s.keptFor f = none) (ht : (s.takeFrame f.seat).tokenCheck op f = some st) (hst : st ≠ .keygone) :
    s.checked op f shape g = ((s.takeFrame f.seat).ans st).sendAns (respOf op f) := by
  unfold State.keptFor at hk
  unfold State.checked
  dsimp only
  rw [hk]
  dsimp only
  rw [ht]
  split
  next heq => exact absurd (Option.some.inj heq) hst
  next heq => rw [Option.some.inj heq]
  next heq => cases heq

/-- The session of the seat has been heard from now. -/
def State.heard (s : State) (k t : Nat) : State := (s.takeFrame k).updSeat k fun y => { y with last := t }

/-- What follows the token's check. -/
theorem State.checked_of_live (hk : s.keptFor f = none) (ht : (s.takeFrame f.seat).tokenCheck op f = none) : s.checked op f shape g =
    if !s.hasFrame f.seat then ((s.heard f.seat s.time).ansBusy (s.frameRetry f.seat)).sendAns (respOf op f)
    else if 4 ≤ (s.heard f.seat s.time).outstanding f.seat then ((s.heard f.seat s.time).ansBusy 1).sendAns (respOf op f)
    else if ((s.heard f.seat s.time).die (respOf op f).die).mgmt = .restarting then ((s.heard f.seat s.time).ansBusy 0xFFFF).sendAns (respOf op f)
    else if !shape || f.rsvd != 0 || f.status != 0 then ((s.heard f.seat s.time).ans .format).sendAns (respOf op f)
    else if !(s.heard f.seat s.time).modeServes op f then ((s.heard f.seat s.time).ans .mode).sendAns (respOf op f)
    else g (s.heard f.seat s.time) := by
  unfold State.keptFor at hk
  unfold State.checked
  dsimp only
  rw [hk]
  dsimp only
  rw [ht]
  exact rfl

/-- The checks after the token's, each with what answers it. -/
theorem State.checked_live_spec {t : Nat} (hk : s.keptFor f = none) (ht : (s.takeFrame f.seat).tokenCheck op f = none) (htime : s.time = t) :
    (s.hasFrame f.seat = false → s.checked op f shape g = ((s.heard f.seat t).ansBusy (s.frameRetry f.seat)).sendAns (respOf op f))
    ∧ (s.hasFrame f.seat = true → 4 ≤ (s.heard f.seat t).outstanding f.seat → s.checked op f shape g = ((s.heard f.seat t).ansBusy 1).sendAns (respOf op f))
    ∧ (s.hasFrame f.seat = true → (s.heard f.seat t).outstanding f.seat < 4 →
      (((s.heard f.seat t).die (respOf op f).die).mgmt = .restarting → s.checked op f shape g = ((s.heard f.seat t).ansBusy 0xFFFF).sendAns (respOf op f))
      ∧ (((s.heard f.seat t).die (respOf op f).die).mgmt ≠ .restarting →
        (shape = false ∨ f.rsvd ≠ 0 ∨ f.status ≠ 0 → s.checked op f shape g = ((s.heard f.seat t).ans .format).sendAns (respOf op f))
        ∧ (shape = true → f.rsvd = 0 → f.status = 0 → s.checked op f shape g =
          if (s.heard f.seat t).modeServes op f then g (s.heard f.seat t) else ((s.heard f.seat t).ans .mode).sendAns (respOf op f)))) := by
  have hlive := State.checked_of_live shape g hk ht
  rw [htime] at hlive
  rw [hlive]
  refine ⟨fun h => if_pos (by rw [h]; rfl), fun hframe hfull => (if_neg (by rw [hframe]; decide)).trans (if_pos hfull), fun hframe hroom => ?_⟩
  rw [if_neg (by rw [hframe]; decide), if_neg (Nat.not_le.mpr hroom)]
  refine ⟨fun hm => if_pos hm, fun hm => ?_⟩
  rw [if_neg hm]
  refine ⟨fun hbad => if_pos (by simpa [or_assoc] using hbad), fun hshape hrsvd hstatus => (if_neg (by simp [hshape, hrsvd, hstatus])).trans ?_⟩
  cases (s.heard f.seat t).modeServes op f <;> rfl

end

/-! ### Writes and their apply tick (R365, R366) -/

theorem State.takeWrite_of_ok {s : State} {r : RespTo} {l : List WItem} (b : Bool) (h : (s.writeAll (Fin.ofNat 8 r.seat) r.die l).br.last = .ok) :
    s.takeWrite r b l = { s with br := { s.br with
      writes := s.br.writes ++ [{ id := s.br.nextId, recv := s.nowNs r.die, acked := false, apply := s.applySpan, pass := (s.br.seat r.seat).pass, items := l, resp := r }]
      nextId := s.br.nextId + 1 } } := if_pos h

/-- The writes whose apply tick has come, in their order. -/
def State.dueWrites (s : State) : List PendWrite := (s.br.writes.filter fun w => decide (w.apply ≤ s.spanNo)).foldl (fun l w => insWrite w l) []

/-- The state without them. -/
def State.undue (s : State) : State := { s with br := { s.br with writes := s.br.writes.filter fun w => !decide (w.apply ≤ s.spanNo) } }

/-- A due write touches the perturbation entries. -/
def State.ptDue (s : State) : Bool := s.dueWrites.any fun w => w.items.any fun x => decide (0xD010 ≤ x.idx) && decide (x.idx < 0xD015)

theorem writeApply_of_open {s : State} (h : s.modes.mode ≠ .shelf) : doWriteApply s =
    (if s.ptDue then ((s.dueWrites.foldl State.applyWrite s.undue).reopen).ptAgain else (s.dueWrites.foldl State.applyWrite s.undue).reopen).activateApply :=
  if_neg h

theorem State.ptDue_iff (s : State) : s.ptDue = true ↔ ∃ w ∈ s.dueWrites, ∃ x ∈ w.items, 0xD010 ≤ x.idx ∧ x.idx < 0xD015 := by
  simp [State.ptDue]

theorem State.dueWrites_of_none {s : State} (h : ∀ w ∈ s.br.writes, s.spanNo < w.apply) : s.dueWrites = [] ∧ s.undue = s := by
  have hnone : (s.br.writes.filter fun w => decide (w.apply ≤ s.spanNo)) = [] := List.filter_eq_nil_iff.mpr fun w hw => by simpa using h w hw
  have hall : (s.br.writes.filter fun w => !decide (w.apply ≤ s.spanNo)) = s.br.writes := List.filter_eq_self.mpr fun w hw => by simpa using h w hw
  refine ⟨?_, ?_⟩
  · unfold State.dueWrites
    rw [hnone]
    rfl
  · unfold State.undue
    rw [hall]

/-! ### The order of receipt -/

theorem PendWrite.recv_le_of_before {x w : PendWrite} (h : x.before w = true) : x.recv ≤ w.recv := by
  unfold PendWrite.before at h
  simp only [Bool.or_eq_true, Bool.and_eq_true, decide_eq_true_eq, beq_iff_eq] at h
  omega

theorem PendWrite.recv_le_of_not_before {x w : PendWrite} (h : ¬ x.before w = true) : w.recv ≤ x.recv := by
  refine Nat.not_lt.mp fun hlt => h ?_
  unfold PendWrite.before
  rw [decide_eq_true hlt, Bool.true_or]

theorem insWrite_perm (w : PendWrite) (l : List PendWrite) : (insWrite w l).Perm (w :: l) := by
  induction l with
  | nil => exact .refl _
  | cons x l ih =>
    unfold insWrite
    split
    · exact (ih.cons x).trans (.swap w x l)
    · exact .refl _

/-- A write goes behind those received before it. -/
theorem insWrite_sorted (w : PendWrite) {l : List PendWrite} (h : l.Pairwise fun x y => x.recv ≤ y.recv) : (insWrite w l).Pairwise fun x y => x.recv ≤ y.recv := by
  induction l with
  | nil => exact List.pairwise_singleton _ _
  | cons x l ih =>
    obtain ⟨hx, hl⟩ := List.pairwise_cons.mp h
    unfold insWrite
    split
    next hb =>
      refine List.pairwise_cons.mpr ⟨fun y hy => ?_, ih hl⟩
      obtain rfl | hy := List.mem_cons.mp ((insWrite_perm w l).subset hy)
      · exact PendWrite.recv_le_of_before hb
      · exact hx y hy
    next hb =>
      have hwx := PendWrite.recv_le_of_not_before hb
      refine List.pairwise_cons.mpr ⟨fun y hy => ?_, h⟩
      obtain rfl | hy := List.mem_cons.mp hy
      · exact hwx
      · exact hwx.trans (hx y hy)

theorem foldl_insWrite (l acc : List PendWrite) (h : acc.Pairwise fun x y => x.recv ≤ y.recv) :
    (l.foldl (fun l w => insWrite w l) acc).Perm (l ++ acc) ∧ (l.foldl (fun l w => insWrite w l) acc).Pairwise fun x y => x.recv ≤ y.recv := by
  induction l generalizing acc with
  | nil => exact ⟨.refl _, h⟩
  | cons w l ih =>
    obtain ⟨hperm, hsorted⟩ := ih (insWrite w acc) (insWrite_sorted w h)
    exact ⟨hperm.trans (((insWrite_perm w acc).append_left l).trans List.perm_middle), hsorted⟩

/-! ### One write at its tick -/

theorem State.applyWrite_of_unacked {s : State} {w : PendWrite} (h : w.acked = false ∨ s.admitted .a = false ∨ s.admitted .b = false) :
    s.applyWrite w = (s.ansBusy 1).sendAns w.resp := if_pos (by simpa [or_assoc] using h)

/-- A write whose PASS mark need not be lent is checked and applied as it stands. -/
theorem State.applyWrite_of_acked {s : State} {w : PendWrite} (hack : w.acked = true) (ha : s.admitted .a = true) (hb : s.admitted .b = true)
    (hpass : w.pass = (s.br.seat w.resp.seat).pass ∨ ∃ x ∈ w.items, x.idx = 0x1011) : s.applyWrite w =
      if (s.writeAll (Fin.ofNat 8 w.resp.seat) w.resp.die w.items).br.last = .ok then
        (w.items.foldl (fun (v : State) y => v.takeNow w.recv y) (s.writeAll (Fin.ofNat 8 w.resp.seat) w.resp.die w.items)).applyAnswer s w.resp
      else if w.resp.op = 4 then (s.writeAll (Fin.ofNat 8 w.resp.seat) w.resp.die w.items).asBlock.sendAns w.resp
      else (s.writeAll (Fin.ofNat 8 w.resp.seat) w.resp.die w.items).sendAns w.resp := by
  have hlent : (w.pass && !(s.br.seat w.resp.seat).pass && !(w.items.any fun x => x.idx == 0x1011)) = false := by
    obtain h | ⟨x, hx, hidx⟩ := hpass
    · rw [h, Bool.and_not_self, Bool.false_and]
    · have hany : (w.items.any fun x => x.idx == 0x1011) = true := List.any_eq_true.mpr ⟨x, hx, beq_iff_eq.mpr hidx⟩
      rw [hany, Bool.not_true, Bool.and_false]
  unfold State.applyWrite
  dsimp only
  rw [if_neg (by simp [hack, ha, hb])]
  simp only [hlent, Bool.false_eq_true, if_false]

/-! ### Subscriptions (R361, R381) -/

theorem State.sendAns_subs (s : State) (r : RespTo) : (s.sendAns r).br.subs = s.br.subs := by
  have hpost (d : Dest) (bs : List Byte) : (s.post d bs).br.subs = s.br.subs := by
    unfold State.post
    split <;> rfl
  unfold State.sendAns
  dsimp only
  split
  · exact hpost _ _
  · split
    · exact hpost _ _
    · exact hpost _ _

/-- A subscription that an UNSUBSCRIBE names. -/
def Sub.named (f : Frame) (y : Sub) : Bool := y.seat == f.seat && (leAt f.payload 0 2 == 0xFFFF || y.id == leAt f.payload 0 2)

theorem Sub.named_iff (f : Frame) (y : Sub) : y.named f = true ↔ y.seat = f.seat ∧ (leAt f.payload 0 2 = 0xFFFF ∨ y.id = leAt f.payload 0 2) := by
  simp [Sub.named]

theorem State.unwatch_subs {s : State} {f : Frame} (h : leAt f.payload 0 2 = 0xFFFF ∨ ∃ y ∈ s.br.subs, y.seat = f.seat ∧ y.id = leAt f.payload 0 2) :
    (s.unwatch f).br.subs = s.br.subs.filter fun y => !y.named f := by
  have hnamed : ¬ (leAt f.payload 0 2 != 0xFFFF && !s.br.subs.any (Sub.named f)) = true := by
    obtain h | ⟨y, hy, hseat, hid⟩ := h
    · simp [h]
    · have hany : s.br.subs.any (Sub.named f) = true := List.any_eq_true.mpr ⟨y, hy, (y.named_iff f).mpr ⟨hseat, .inr hid⟩⟩
      simp [hany]
  have heq : s.unwatch f = ({ s with br := { s.br with subs := s.br.subs.filter fun y => !y.named f } }.ans .ok).sendAns { respOf 6 f with pay := f.payload } :=
    if_neg hnamed
  rw [heq, State.sendAns_subs]
  rfl

/-- A subscription whose value has been sent. -/
def Sub.told (y : Sub) (span : Nat) : Sub := { y with sent := some y.cur, lastSpan := span, unsent := 0, ev := false }

/-- The subscriptions after a notification of `y`. -/
def State.toldSubs (s : State) (y : Sub) : List Sub := s.br.subs.map fun (z : Sub) => if z.id = y.id then y.told s.spanNo else z

theorem State.mem_toldSubs {s : State} {y z : Sub} (hz : z ∈ s.toldSubs y) (hid : z.id = y.id) : z = y.told s.spanNo := by
  obtain ⟨x, -, rfl⟩ := List.mem_map.mp hz
  by_cases hx : x.id = y.id
  · exact if_pos hx
  · rw [if_neg hx] at hid
    exact absurd hid hx

theorem State.notify_spec (s : State) (y : Sub) : (s.notify y).br.subs = s.toldSubs y
    ∧ (s.notify y).reg 0x1200 4 = min (2 ^ 32 - 1) (s.reg 0x1200 4 + (y.unsent - 1))
    ∧ (y.dst.tr = 0 → (s.notify y).br.notif = s.br.notif ++ [s.notifBytes y]) ∧ (y.dst.tr ≠ 0 → (s.notify y).br.out = (y.dst, s.notifBytes y) :: s.br.out)
    ∧ s.notify y = { s with br := (s.notify y).br, regs := (s.notify y).regs } := by
  unfold State.notify
  dsimp only
  split
  next htr => exact ⟨rfl, State.reg_setReg_self _ _ _ _, fun _ => rfl, fun h => absurd htr h, rfl⟩
  next htr => exact ⟨rfl, State.reg_setReg_self _ _ _ _, fun h => absurd h htr, fun _ => rfl, rfl⟩

theorem notification_of_known {s : State} {n : Nat} {y : Sub} (h : s.br.subs.find? (fun y => y.id == n) = some y) : doNotification n s =
    if (y.sent != some y.cur || y.ev) && decide (y.lastSpan + y.gap ≤ s.spanNo) then s.notify y else s := by
  unfold doNotification
  rw [h]

/-! ### HSPI (R369) -/

section
variable {s : State} {w : Bool} {op : Nat} {f : Frame}

theorem writeFrame_of_off (h : s.hspiOn = false ∨ f.tr ≠ 0) : doWriteFrame w op f s = s := if_pos (by simpa using h)

theorem writeFrame_of_on (hon : s.hspiOn = true) (htr : f.tr = 0) : doWriteFrame w op f s =
    if !w || decide (4 ≤ s.br.rx.length) then s.bump 32 0x1200 2
    else if op = 0 || 6 < op then ({ s with br := { s.br with rx := s.br.rx ++ [(op, f)] } } : State).request op f false id
    else { s with br := { s.br with rx := s.br.rx ++ [(op, f)] } } := if_neg (by simp [hon, htr])

/-- Responses leave before notifications, and a frame leaves only when it is read whole. -/
theorem readFrame_spec (hon : s.hspiOn = true) : (doReadFrame w s).br.shifted = (s.br.resp ++ s.br.notif).headD [0, 0]
    ∧ (doReadFrame w s).br.resp ++ (doReadFrame w s).br.notif = (if w then (s.br.resp ++ s.br.notif).tail else s.br.resp ++ s.br.notif)
    ∧ doReadFrame w s = { s with br := (doReadFrame w s).br } := by
  unfold doReadFrame
  rw [if_neg (by simp [hon])]
  cases hresp : s.br.resp with
  | cons x t => cases w <;> exact ⟨rfl, rfl, rfl⟩
  | nil =>
    cases hnotif : s.br.notif with
    | cons x t => cases w <;> exact ⟨rfl, by simp [hresp], rfl⟩
    | nil => cases w <;> exact ⟨rfl, by simp [hresp, hnotif], rfl⟩

end

/-- Settles O39: a request goes through `State.request` check by check, and each other clause is one equation of its row. -/
theorem bridleFramesAreCheckedInOrder : Obligations.BridleFramesAreCheckedInOrder := by
  unfold Obligations.BridleFramesAreCheckedInOrder
  refine ⟨fun s f => ?requests, fun s r b l h => State.takeWrite_of_ok b h, fun s => ⟨fun h => congrArg Host.Outcome.next (if_pos h), fun h => ?apply, fun hnone h => ?noneDue⟩,
    fun l => ?order, fun s w => ⟨fun h => State.applyWrite_of_unacked h, fun hack ha hb hpass => ?applied⟩, fun s f h y => ?unsubscribe,
    fun s n => ⟨fun h => ?noSub, fun y hy => ?notify⟩, fun s w op f => ?hspi⟩
  case requests =>
    intro req
    have hreq (op : Nat) (shape : Bool) (act : State → State) : req op shape act (s.request op f shape act) := by
      refine ⟨fun h => State.request_of_absent shape act h, fun hhere hrx => ⟨fun hbad => State.request_of_bad shape act ⟨hhere, hrx⟩ hbad, fun hgood hbelongs => ?_⟩⟩
      have hchecked : s.request op f shape act = (s.unqueued op f).checked op f shape act := State.request_of_good shape act ⟨hhere, hrx⟩ hgood hbelongs
      rw [hchecked]
      refine ⟨fun y hy => State.checked_of_kept shape act hy, fun hk => ⟨fun ht => State.checked_of_keygone shape act hk ht,
        fun st ht hst => State.checked_of_token shape act hk ht hst, fun ht => ?_⟩⟩
      exact State.checked_live_spec (s := s.unqueued op f) shape act hk ht (s.unqueued_time op f)
    exact ⟨⟨_, rfl, hreq 1 _ _⟩, ⟨_, rfl, hreq 2 _ _⟩, ⟨_, rfl, hreq 3 _ _⟩, ⟨_, rfl, hreq 4 _ _⟩, ⟨_, rfl, hreq 5 _ _⟩, ⟨_, rfl, hreq 6 _ _⟩⟩
  case apply =>
    intro due s0 u
    refine ⟨fun hno => ?_, fun hpt => ?_⟩
    · have hnone : ¬ s.ptDue = true := by
        rw [s.ptDue_iff]
        rintro ⟨w, hw, x, hx, hlo, hhi⟩
        have := hno w hw x hx
        omega
      exact congrArg Host.Outcome.next ((writeApply_of_open h).trans (congrArg State.activateApply (if_neg hnone)))
    · exact congrArg Host.Outcome.next ((writeApply_of_open h).trans (congrArg State.activateApply (if_pos (s.ptDue_iff.mpr hpt))))
  case noneDue =>
    obtain ⟨hdue, hundue⟩ := State.dueWrites_of_none hnone
    have hpt : ¬ s.ptDue = true := by
      rw [s.ptDue_iff, hdue]
      rintro ⟨w, hw, -⟩
      cases hw
    refine congrArg Host.Outcome.next ((writeApply_of_open h).trans (congrArg State.activateApply ((if_neg hpt).trans ?_)))
    rw [hdue, hundue]
    rfl
  case order =>
    obtain ⟨hperm, hsorted⟩ := foldl_insWrite l [] .nil
    rw [List.append_nil] at hperm
    exact ⟨hperm, hsorted⟩
  case applied =>
    intro u
    have heq := State.applyWrite_of_acked hack ha hb hpass
    exact ⟨fun hok => heq.trans (if_pos hok), fun hno hblk => heq.trans ((if_neg hno).trans (if_pos hblk)), fun hno hblk => heq.trans ((if_neg hno).trans (if_neg hblk))⟩
  case unsubscribe =>
    rw [State.unwatch_subs h, List.mem_filter, Bool.not_eq_true', ← Bool.not_eq_true, y.named_iff]
  case noSub =>
    refine congrArg Host.Outcome.next ?_
    unfold doNotification
    rw [h]
  case notify =>
    have heq := notification_of_known hy
    refine ⟨fun h => congrArg Host.Outcome.next (heq.trans (if_neg ?_)), fun hnew hgap => ?_⟩
    · obtain ⟨hsent, hev⟩ | hspan := h
      · simp [hsent, hev]
      · simp [Nat.not_le.mpr hspan]
    · have hdue : ((y.sent != some y.cur || y.ev) && decide (y.lastSpan + y.gap ≤ s.spanNo)) = true := by
        obtain h | h := hnew <;> simp [h, hgap]
      obtain ⟨hsubs, hreg, hnotif, hout, hframe⟩ := s.notify_spec y
      refine ⟨_, congrArg Host.Outcome.next (heq.trans (if_pos hdue)), hframe, fun z hz hid => ?_, hreg, hnotif, hout⟩
      rw [hsubs] at hz
      rw [State.mem_toldSubs hz hid]
      exact ⟨rfl, rfl, rfl, rfl⟩
  case hspi =>
    refine ⟨fun hoff => ⟨congrArg Host.Outcome.next (writeFrame_of_off (.inl hoff)), congrArg Host.Outcome.next (if_pos (by rw [hoff]; rfl)), congrArg Host.Outcome.next (if_pos (by rw [hoff]; rfl))⟩,
      fun hon htr hcut => ?cut, fun hon htr hw hroom hlo hhi => ?kept, fun htr => congrArg Host.Outcome.next (writeFrame_of_off (.inr htr)), fun hon htr hw hroom hop => ?unknown,
      fun hon => ⟨⟨_, rfl, readFrame_spec hon⟩, congrArg Host.Outcome.next (if_neg (by rw [hon]; decide))⟩⟩
    case cut => exact congrArg Host.Outcome.next ((writeFrame_of_on hon htr).trans (if_pos (by simpa using hcut)))
    case kept => exact congrArg Host.Outcome.next ((writeFrame_of_on hon htr).trans ((if_neg (by simp [hw, hroom])).trans (if_neg (by simp; omega))))
    case unknown => exact congrArg Host.Outcome.next ((writeFrame_of_on hon htr).trans ((if_neg (by simp [hw, hroom])).trans (if_pos (by simpa using hop))))

end Sys2Proof.Machine
